-- ==== Sys2Proof/Word.lean ====
section
/-! DEFINITION. The word types of the model: what the manual treats as bits. -/

namespace Sys2Proof

/-- One byte of a frame, of HBM, of host memory or of a core memory. -/
abbrev Byte := BitVec 8

/-- A 32-bit register word, a feature-core register (R96) or a feature slot (R100). -/
abbrev Word := BitVec 32

/-- A 64-bit register field or memory word. -/
abbrev DWord := BitVec 64

/-- A 128-bit action record (R63). -/
abbrev ActWord := BitVec 128

/-- A 576-bit classifier key, value or mask (R55, R56). -/
abbrev KeyWord := BitVec 576

end Sys2Proof
end

