-- ==== Sys2Proof/Syntax.lean ====
section
/-! DEFINITION. The commands of the block: one constructor of `Instr` per row of spec/opcode_table.json, and the types of
their operands. A command is a register access, a frame, a link message or a step of one of the device's own sequencers.
An operand that names an unwanted physical event (a parity failure, a void transfer) says which word the event struck. -/

namespace Sys2Proof

/-! Unit numbers (R12, R18, R30). -/
abbrev Port := Fin 32
abbrev Group := Fin 16
abbrev Lane := Fin 16
abbrev Replica := Fin 8
abbrev Flock := Fin 256
abbrev Hbmc := Fin 8
abbrev HPort := Fin 12
abbrev CtxNum := Fin 4096
abbrev QNum := Fin 8
/-- Number of a resident packet: the device-wide count of acceptances at its acceptance. -/
abbrev PktId := Nat

/-- The islands that have beat work (R14, R219). -/
inductive Island where
  | lane (l : Lane) | replica (r : Replica) | portCore | flock (f : Flock) | hbmc (n : Hbmc) | hlink (p : HPort)
  deriving DecidableEq, Repr

/-- The source of a register access (R344, R379). -/
inductive Source where
  | bar0 | sideband | jtag
  deriving DecidableEq, Repr, Inhabited

/-- A feature core: its lane and its number in the lane (R88). -/
structure FCoreId where
  lane : Lane
  core : Fin 192
  deriving DecidableEq, Repr

/-- The class of an array core (R18). -/
inductive CoreClass where
  | express | bulk
  deriving DecidableEq, Repr, Inhabited

/-- An array core: flock, class and logical number (R127). -/
structure ACoreId where
  flock : Flock
  cls : CoreClass
  core : Fin 16
  deriving DecidableEq, Repr

/-- The second operand of a feature arithmetic instruction (R97): a register, or a signed 13-bit immediate. -/
inductive FOperand where
  | reg (b : Fin 64)
  | imm (v : BitVec 13)
  deriving DecidableEq, Repr, Inhabited

/-- Fields of the feature instruction LD (R97). -/
structure LdF where
  d : Fin 64
  base : Fin 4
  width : Fin 3
  signed : Bool
  littleEndian : Bool
  off : Fin 512
  deriving DecidableEq, Repr, Inhabited

/-- Fields of LOADH (R132). -/
structure LoadhF where
  amask : BitVec 4
  bank : Bool
  fmt : Fin 16
  xp : Bool
  src : Bool
  pro : Fin 256
  klen : Fin 2048
  saddr : Fin 8192
  deriving DecidableEq, Repr, Inhabited

/-- Fields of STREAM (R133). -/
structure StreamF where
  amask : BitVec 4
  bank : Bool
  lane : Fin 4
  acc : Bool
  final : Bool
  stat : Bool
  fmt : Fin 16
  epi : Fin 256
  xpw : Bool
  k : Fin 2048
  nm1 : Fin 65536
  waddr : Fin 8192
  daddr : Fin 8192
  scaleLo : Fin 256
  scaleSpan : Fin 32
  bc : Bool
  deriving DecidableEq, Repr, Inhabited

/-- Fields of RET (R134). -/
structure RetF where
  saddr : Fin 8192
  vec0 : Fin 64
  ctxsel : Bool
  noutM1 : Fin 16
  format : Fin 4
  amask : Fin 4
  deriving DecidableEq, Repr, Inhabited

/-- Fields of COPY (R134). -/
structure CopyF where
  dir : Bool
  caddr : Fin 8192
  lenM1 : Fin 65536
  haddr : Fin 17179869184
  deriving DecidableEq, Repr, Inhabited

/-- Fields of ENT_CMD (R71). -/
structure EntCmd where
  replica : Replica
  bank : Fin 64
  entry : Fin 1024
  bcast : Bool
  plen : Fin 256
  deriving DecidableEq, Repr, Inhabited

/-- Values a flow invocation delivers (R102, R103). Its INVOKE section, whose layout the manual does not give, says where they come from. -/
structure FlowVals where
  code : Fin 256
  score0 : BitVec 16
  score1 : BitVec 16
  res0 : Word
  res1 : Word
  resx : List Word
  deriving DecidableEq, Repr, Inhabited

/-- Which words of a user accumulator descriptor one write carries (R108). -/
inductive UaccWord where
  | first | second | both
  deriving DecidableEq, Repr

/-- The part of a context that a VERSION_PART_SWITCH switches (R211). -/
inductive VerPart where
  | tree | gather | express | flowCore | aggregate | hostJob
  deriving DecidableEq, Repr

/-- Why the device cannot confine a fault to a lane (R295). -/
inductive SafeCause where
  | portCoreMisses | hbmcMisses | pllLoss | controlParity | census | dmcHeartbeat | environment | forced
  deriving DecidableEq, Repr, Inhabited

/-- The reference clocks of R391. -/
inductive RefClock where
  | sys | eth | hl | cxl
  deriving DecidableEq, Repr

/-- Direction of a timestamp FIFO (R256). -/
inductive TsDir where
  | rx | tx
  deriving DecidableEq, Repr

/-- A balance of the conservation ledger (R302, BRK_SUBJ of R316). -/
inductive LedgerSubj where
  | lane | device | census | egress | hostq | injection | bucket | credit | occupancy
  deriving DecidableEq, Repr, Inhabited

/-- The three kinds of state dispute (R305). -/
inductive DisputeKind where
  | enable | health | silent
  deriving DecidableEq, Repr

/-- A unit the DMC keeps a state for (R305, RETEST_KIND of R316). -/
inductive Unit7 where
  | lane (l : Lane) | flock (f : Flock) | array (f : Flock) (a : Fin 64) | treeCore (f : Flock) (t : Fin 64)
  | replica (r : Replica) | hbmc (n : Hbmc) | hport (p : HPort)
  deriving DecidableEq, Repr

/-- Consumers of an HBM line (R298). -/
inductive UeConsumer where
  | flowRecord | flowTag | history (ring : Nat) (inv : Nat) | imageLoad (c : CtxNum) | imageReload (c : CtxNum)
  | copyInline (f : Flock) | copyOther (inv : Nat) | reduction (r : Fin 4) | versionWord (c : CtxNum) | ruleSlotCopy | rehashJournal
  deriving DecidableEq, Repr

/-- The kinds of a host-bound queue item the device's producers place (R266). -/
structure HqItem where
  q : QNum
  bytes : List Byte
  deriving DecidableEq, Repr

/-- A held row of a load that an array core writes, and whether a core memory word it reads fails parity (R139, R145). -/
structure HeldAt where
  row : Fin 32
  parity : Bool := false
  deriving DecidableEq, Repr, Inhabited

/-- What goes wrong as RET or COPY moves its data: nothing; the transfer (RET: the transfer is void, R299; COPY: the aperture access is lost, R242); or a
core memory word it reads fails parity (R145). -/
inductive MoveErr where
  | none | transfer | parity
  deriving DecidableEq, Repr, Inhabited

/-- The messages the device exchanges with a herd neighbour carry a destination and a source member (R232); `tok` is the number that a request (RD, WR,
HGET) carries for its answer to name. -/
structure MsgHdr where
  dest : Fin 32768
  src : Fin 32768
  tok : Nat := 0
  deriving DecidableEq, Repr, Inhabited

/-- Contents of MARKER (R232, R237). -/
structure MarkerF where
  beat : Nat
  dist : Nat
  phaseErr : Int
  members : Nat
  stopBeat : Option Nat
  resumeBeat : Option Nat
  redVoid : Option Bool
  credits : List Nat
  deriving DecidableEq, Repr, Inhabited

/-- Contents of HELLO (R232, R233). -/
structure HelloF where
  domain : Nat
  nx : Nat
  ny : Nat
  nz : Nat
  x : Nat
  y : Nat
  z : Nat
  expected : Nat
  origin : Nat
  port : Fin 12
  state : Fin 4
  deriving DecidableEq, Repr, Inhabited

/-- What a commit names (R232, R247). -/
inductive CommitKind where
  | rules | context (c : CtxNum)
  deriving DecidableEq, Repr

/-- Link training results of CXL_LINK_TRAIN (R279). -/
structure LinkResult where
  cxlNegotiated : Bool
  width : Nat
  speed : Nat
  deriving DecidableEq, Repr

/-- The messages of DOE instance 0 and 1 the device answers (R286). -/
inductive IdeStream where
  | io | cachemem
  deriving DecidableEq, Repr

/-- One flit as it reaches a herd port (R230, R231, R235). -/
structure FlitF where
  seq : Nat
  codewordOk : Bool
  corrected : Bool
  crcOk : Bool
  vcs : List (Fin 4)
  bytes : List Byte
  deriving DecidableEq, Repr, Inhabited

/-- A register access of REGISTER_WRITE (R373, R374): the byte address in BAR0 (or, with `bar4`, in BAR4), the size in bits, the value and whether all byte
enables are set. -/
structure RegAccess where
  addr : Nat
  size : Nat
  value : Nat
  write : Bool
  fullBytes : Bool
  bar4 : Bool := false
  deriving DecidableEq, Repr

/-- One constructor per row of spec/opcode_table.json, in the table's order. -/
inductive Instr where
  -- beats (R15 to R17, R219, R220)
  | beatMarker (i : Island)
  | beatMiss (i : Island)
  | missWithdraw (i : Island)
  | pllLockLoss
  -- ports and the hold buffer (R30 to R54, R259, R261)
  | frameStart (p : Port) (data : List Byte) (ts : Nat)
  | packetAccept (p : Port) (l : Lane)
  | frameEnd (p : Port)
  | fcsResult (pk : PktId) (ok : Bool)
  | pauseFrame (p : Port) (enable : BitVec 8) (quanta : List (BitVec 16))
  | pauseExpire (p : Port) (k : QNum)
  | ethLinkUp (p : Port)
  | ethLinkDown (p : Port)
  | portCfgWrite (src : Source) (g : Group) (v : Word)
  -- lookups (R55 to R87)
  | ruleSearch (pk : PktId) (bad : List Nat)
  | tcamScrub (r : Replica) (bank : Fin 48) (entry : Fin 1024) (bad : Bool)
  | fragEntryFree (bucket : Fin 16384) (way : Fin 4)
  | fragFlush (src : Source)
  | flowLookup (pk : PktId) (badCache : List Nat) (badFrag : List Nat)
  | victimWriteback (n : Nat)
  | flowAgeSweep (bucket : Fin 134217728)
  | endpointSearch (pk : PktId) (bad : List Nat)
  | endpointAgeing (bad : List Nat)
  | learnAddStatic (src : Source)
  | learnDelete (src : Source)
  | learnRead (src : Source)
  -- the flow update engine and flow results (R92 to R108)
  | updatePass
  | flowRecordWrite
  | flowResult
  | flowInvocationEnd (inv : Nat) (res : Option FlowVals)
  | flowFlush (src : Source)
  | flowRead (src : Source)
  | flowDelete (src : Source)
  | uaccDescriptorWrite (src : Source) (f : Fin 3) (u : Fin 3) (w : UaccWord) (v : DWord)
  -- feature cores (R88 to R106)
  | featureProgram (pk : PktId) (parity : Bool)
  | nop (c : FCoreId)
  | ld (c : FCoreId) (f : LdF)
  | movi (c : FCoreId) (d : Fin 64) (imm : BitVec 20)
  | lui (c : FCoreId) (d : Fin 64) (imm : BitVec 12)
  | add (c : FCoreId) (d a : Fin 64) (o : FOperand)
  | sub (c : FCoreId) (d a : Fin 64) (o : FOperand)
  | mul (c : FCoreId) (d a : Fin 64) (o : FOperand)
  | and (c : FCoreId) (d a : Fin 64) (o : FOperand)
  | or (c : FCoreId) (d a : Fin 64) (o : FOperand)
  | xor (c : FCoreId) (d a : Fin 64) (o : FOperand)
  | shl (c : FCoreId) (d a : Fin 64) (o : FOperand)
  | shr (c : FCoreId) (d a : Fin 64) (o : FOperand)
  | min (c : FCoreId) (d a : Fin 64) (o : FOperand)
  | max (c : FCoreId) (d a : Fin 64) (o : FOperand)
  | slt (c : FCoreId) (d a : Fin 64) (o : FOperand)
  | lut (c : FCoreId) (d a : Fin 64) (t : Fin 16)
  | log2 (c : FCoreId) (d a : Fin 64)
  | bz (c : FCoreId) (a : Fin 64) (dist : Fin 4096)
  | bnz (c : FCoreId) (a : Fin 64) (dist : Fin 4096)
  | babs (c : FCoreId) (dist : Fin 4096)
  | out (c : FCoreId) (a : Fin 64) (k : Fin 64)
  | hout (c : FCoreId) (a : Fin 64) (k : Fin 64)
  | setf (c : FCoreId) (a : Fin 64) (bit : Fin 64)
  | endp (c : FCoreId)
  | featureCoreReload (c : FCoreId)
  | vectorAssemble (pk : PktId) (slotMapBad : Bool)
  | vectorHandover (l : Lane)
  | vectorCross (pk : PktId) (voidXfer : Bool)
  | historyWrite (pk : PktId)
  -- tree cores (R109 to R124)
  | treeIssue (f : Flock) (core : Fin 64) (cycle : Fin 512) (bad : Bool)
  | partialAdd (f : Flock) (core : Fin 64)
  | treeReload (f : Flock) (core : Fin 64)
  | gather (f : Flock)
  | outputConversion (f : Flock) (n : Fin 512) (voidXfer : Bool)
  | dieGather (c : CtxNum) (output : Fin 16)
  | treeWdReq (src : Source) (f : Flock) (core : Fin 64)
  | treeOff (src : Source) (f : Flock) (mask : DWord)
  -- array cores (R125 to R184, R221, R222)
  | beatProgramStart (c : ACoreId)
  | coreNop (c : ACoreId)
  | loadh (c : ACoreId) (f : LoadhF)
  | heldWrite (c : ACoreId) (a : Fin 4) (n : HeldAt)
  | stream (c : ACoreId) (f : StreamF) (parity : Bool)
  | tileDrain (c : ACoreId) (a : Fin 4) (parity : Bool)
  | statRecordWrite (c : ACoreId) (a : Fin 4)
  | arrayReload (c : ACoreId)
  | form (c : ACoreId) (ws : Bool)
  | ret (c : ACoreId) (f : RetF) (voidXfer : MoveErr)
  | copy (c : ACoreId) (f : CopyF) (lost : MoveErr)
  | syncp (c : ACoreId) (cell : Fin 256) (spanM1 : Fin 16)
  | syncPostEffect (f : Flock)
  | syncw (c : ACoreId) (cell : Fin 256) (count : BitVec 16)
  | syncwSatisfied (c : ACoreId)
  | beatProgramEnd (c : ACoreId)
  | arrayWdReq (src : Source) (f : Flock) (n : Fin 64)
  | arrayOff (src : Source) (f : Flock) (mask : DWord)
  | injArm (src : Source) (f : Flock) (kind : Fin 8) (cls : CoreClass) (core : Fin 16)
  | afRead (src : Source) (f : Flock)
  | flockPatchGo (src : Source) (f : Flock)
  | returnDeadline (f : Flock)
  -- verdicts, release and scheduling (R185 to R201, R257 to R265)
  | verdictForm (pk : PktId) (badDesc : Bool)
  | verdictApply (pk : PktId) (badFrag : List Nat)
  | cutThroughStart (pk : PktId)
  | schedulerPick (p : Port) (ts : Nat)
  | transmitComplete (p : Port) (holdUe : Bool)
  | shaperRefill
  | contextDown (c : CtxNum)
  | restoreCtx (src : Source) (c : CtxNum)
  | lanePassEntry (l : Lane)
  | flockWithdraw (f : Flock)
  | deviceSafeEntry (why : SafeCause)
  | lanePassSet (src : Source) (mask : BitVec 16)
  | forceSafe (src : Source)
  | verdPatchGo (src : Source)
  -- rule versions and entry commands (R64 to R71, R402)
  | ruleCommit (src : Source)
  | ruleCheckEnd
  | ruleAbort (src : Source)
  | ruleVersionSwitch
  | ruleRetire
  | ruleSlotCopyEnd
  | entWrite (src : Source) (e : EntCmd)
  | entSetStaged (src : Source) (e : EntCmd)
  | entClearStaged (src : Source) (e : EntCmd)
  | entRead (src : Source) (e : EntCmd)
  | entRepair (src : Source) (e : EntCmd)
  | entCmdEnd (r : Replica)
  | loadGo (src : Source)
  | tcamLoadRecord
  -- model contexts (R202 to R218, R322 to R324)
  | load (src : Source)
  | contextCheckEnd (c : CtxNum)
  | contextStagingEnd (c : CtxNum)
  | commit (src : Source) (herd : Bool)
  | commitCheckEnd (c : Option CtxNum)
  | abort (src : Source)
  | discard (src : Source)
  | unload (src : Source)
  | loadLayout (src : Source)
  | commitLayout (src : Source) (herd : Bool)
  | contextVersionSwitch (c : Option CtxNum)
  | versionPartSwitch (c : CtxNum) (part : VerPart)
  | contextRetire (c : Option CtxNum)
  | contextRetireEnd (c : Option CtxNum)
  | flowDrainExpire (c : CtxNum)
  | forceRetire (src : Source)
  | shadowStatistics (c : CtxNum) (f : Flock) (tap : Fin 32) (vals : List (Nat × Int)) (mvSeen : Nat) (void : Bool)
  | shadowWindowEnd (c : CtxNum) (f : Flock)
  | aggregateWindow
  -- time (R226 to R229, R252, R256)
  | setGo (src : Source)
  | freqAdj (src : Source) (ppb : Int)
  | phaseAdj (src : Source) (ns : Int)
  | phaseSlewEnd
  | timeBeatRead (src : Source)
  | ppsIn
  | ppsOutRise
  | ppsOutFall
  | tsFifoPop (src : Source) (g : Group) (dir : TsDir)
  -- herd links (R230, R231, R235)
  | hlinkEnable (src : Source) (h : HPort) (v : Bool)
  | hlinkTrained (h : HPort) (delay : BitVec 16)
  | trainFail (h : HPort)
  | flitReceive (h : HPort) (f : FlitF)
  -- herd messages (R232 to R249)
  | marker (h : HPort) (m : MsgHdr) (f : MarkerF)
  | hello (h : HPort) (m : MsgHdr) (f : HelloF)
  | join (h : HPort) (m : MsgHdr) (ruleVer : BitVec 16)
  | vtable (h : HPort) (m : MsgHdr) (blk : Fin 32) (vers : List (BitVec 16)) (ruleVer : BitVec 16)
  | ready (h : HPort) (m : MsgHdr) (digest : List Byte)
  | herdAdmit (h : HPort) (m : MsgHdr) (res : Nat ⊕ Fin 16)
  | depart (h : HPort) (m : MsgHdr) (member : Fin 32768) (window : Nat)
  | candidate (h : HPort) (m : MsgHdr) (prio : BitVec 8) (member : Fin 32768)
  | vote (h : HPort) (m : MsgHdr) (prio : BitVec 8) (member : Fin 32768)
  | creq (h : HPort) (m : MsgHdr) (k : CommitKind) (ver : BitVec 16) (beat : Nat)
  | order (h : HPort) (m : MsgHdr) (seq : BitVec 32) (beat : Nat) (k : CommitKind) (ver : BitVec 16)
  | ack (h : HPort) (m : MsgHdr) (seq : BitVec 32) (nack : Bool)
  | stop (h : HPort) (m : MsgHdr) (isOrder : Bool) (resume : Bool) (beat : Nat) (refuse : Fin 16)
  | red (h : HPort) (m : MsgHdr) (r : Fin 4) (window : Nat) (off : Nat) (vals : List Int) (fromRoot : Bool) (count : Nat) (void : Bool)
  | rd (h : HPort) (m : MsgHdr) (win : Fin 16) (addr : Nat) (len : Nat)
  | wr (h : HPort) (m : MsgHdr) (win : Fin 16) (addr : Nat) (data : List Byte)
  | hget (h : HPort) (m : MsgHdr) (idx : Nat) (tag : DWord)
  | hadd (h : HPort) (m : MsgHdr) (idx : Nat) (tag : DWord) (vals : List Word)
  | rdr (h : HPort) (m : MsgHdr) (tok : Nat) (data : List Byte)
  | wra (h : HPort) (m : MsgHdr) (tok : Nat) (ok : Bool)
  | hrep (h : HPort) (m : MsgHdr) (tok : Nat) (vals : List Word) (isNew : Bool)
  | remoteRequestApply
  -- membership, elections, reductions and the stop (R236 to R251)
  | herdJoin (src : Source) (v : Bool)
  | joinLocked
  | admission
  | herdLeave (src : Source)
  | departure
  | lockLost
  | markerTimeout (h : Option HPort)
  | electionStart
  | electionVote
  | electionResult
  | bellwetherTakeOffice
  | electionFail
  | reductionStart (r : Fin 4)
  | reductionDeadline (r : Fin 4)
  | stopRequest (src : Source)
  | resumeRequest (src : Source)
  | stopTakeEffect
  | stopCut
  | resumeTakeEffect
  | syncSetGo (src : Source) (f : Flock)
  -- host-bound queues and injection (R266 to R277)
  | hqProduce (it : HqItem)
  | hqEnable (src : Source) (q : QNum)
  | hqConsWrite (src : Source) (q : QNum) (v : DWord)
  | hqIrqRepeat (q : QNum)
  | injProdWrite (src : Source) (v : DWord)
  | injDescriptor
  | qTokensSet (src : Source) (v : Word)
  | tokGo (src : Source)
  -- the host link (R278 to R292)
  | hostRead (addr : Nat) (len : Nat) (apt : Option (List Byte))
  | hostWrite (addr : Nat) (data : List Byte) (aptOk : Bool)
  | cxlLinkTrain (r : LinkResult)
  | hdmDecoderCommit (ways : Nat)
  | hostLoss
  | hostReturn
  | perstN
  | ideFail (st : IdeStream)
  | ideKm (st : IdeStream) (secured : Bool)
  | cdat (len : Nat)
  | challenge (slot : Nat) (nonce : List Byte)
  | measurements (slot : Nat) (index : Nat) (nonce : List Byte)
  | keyExchange (slot : Nat) (session : BitVec 16) (data : List Byte)
  | msixSend (v : Fin 2048)
  | jobProdWrite (src : Source) (v : DWord)
  | jobAccept
  | jobComplete (c : CtxNum) (status : Fin 11)
  -- faults, the ledger and resets (R294 to R317)
  | ledgerBreak (subj : LedgerSubj) (u : Nat) (delta : Int) (expect seen : Nat)
  | stateCompare
  | stateDispute (k : DisputeKind) (u : Unit7)
  | dmcHeartbeatLoss
  | hbmWriteback (n : Hbmc) (line : Nat)
  | hbmScrub (n : Hbmc) (line : Nat) (err : Fin 3)
  | hbmUe (c : UeConsumer) (line : Nat)
  | faultRecord (cls : Fin 16) (scope : Fin 9) (reason : Fin 256) (action : Fin 9) (block inst u addr count : Nat)
  | alertPendClear (src : Source) (v : Bool)
  | retestGo (src : Source)
  | retestEnd (pass : Bool)
  | laneReset (src : Source) (l : Lane)
  | laneResetDrained (pass : Bool)
  | flockReset (src : Source) (f : Flock) (pass : Bool)
  | noBreakAct (src : Source) (v : Bool)
  | breakInj (src : Source) (v : Fin 16)
  | eccInj (src : Source) (n : Hbmc)
  | rehashGo (src : Source)
  | rehashStep
  | rehashStop (src : Source)
  | availabilitySave
  | resetNLow
  | warmRequest (src : Source) (rkey : BitVec 16)
  | coldRequest (src : Source) (rkey : BitVec 16)
  | warmReset
  | revalidation
  | serviceResume
  | pwrGoodLow
  -- boot and security (R334 to R354)
  | pwrGoodRise (bootSrc : Fin 4) (compatL1 herdEn : Bool)
  | stageFirmware
  | stageCapability (failed : List Unit7)
  | stageReady
  | bootFail
  | recoveryImage (img : List Byte)
  | start (src : Source)
  | fwGo (src : Source)
  | fwWriteEnd
  | ledgerWrite (src : Source)
  | ledgerWriteEnd (torn : Bool)
  | dbgGo (src : Source)
  | dbgRevoke (src : Source)
  | tokenExpiry
  | jtagMailbox (token : List Word) (pubkey : List Word)
  -- calibration and ageing (R318 to R333, R391 to R399)
  | calWrite (src : Source)
  | calForce (src : Source)
  | calWriteEnd (torn : Bool)
  | adaptStep (herd : Bool) (lane : Fin 96) (atLimit : Bool)
  | eyeUpdate (herd : Bool) (lane : Fin 96) (h v : BitVec 8)
  | sensorReading (i : Fin 320) (slack : Int) (ro : BitVec 16) (ceil : BitVec 16) (edgeFail : Bool)
  | forecast
  | voltOvr (src : Source) (mv : BitVec 16) (en : Bool)
  | plannerHold (src : Source) (v : Bool)
  | envCritical (monitor : Nat)
  | railExcursion (rail : Nat)
  | refclkFault (k : RefClock)
  | thermtrip
  -- observation and debug (R355 to R371)
  | sample
  | selectorArm (src : Source)
  | wArm (src : Source)
  | wDisarm (src : Source)
  | observationWrite
  | dbgEnter (src : Source)
  | dbgLeave (src : Source)
  | halt (src : Source) (v : Bool)
  | stepf (src : Source)
  | memDataWrite (src : Source) (f : Flock) (v : DWord)
  -- register pages (R372 to R384)
  | expertKey (src : Source) (v : Word)
  | lock (src : Source)
  | vec0Force (src : Source)
  | eventClear (src : Source) (page : Fin 512) (v : Word) (sameCycle : Word)
  | eventForce (src : Source) (page : Fin 512) (v : Word)
  | eventMaskWrite (src : Source) (page : Fin 512) (v : Word)
  | registerWrite (src : Source) (a : RegAccess)
  -- rows added at the table's end
  | hlinkLockLoss (h : HPort)
  | resetNRelease
  | msixUnmask (v : Fin 2048)
  | configRequest (write : Bool) (off : Nat) (v : Word)
  | lowHalfRead (src : Source) (addr : Nat)
  | getCertificate (slot : Nat) (off len : Nat)
  | doeDiscovery (inst : Fin 2) (index : Nat)
  deriving DecidableEq, Repr

end Sys2Proof
end

