-- ==== Sys2Proof/Decode.lean ====
section
/-! DEFINITION. Commands as words. spec/opcode_table.json gives none of its rows any bits: a command reaches the block as a register
access, a frame, a message or an event, and no word spells one. -/

namespace Sys2Proof

/-- The command a word spells by the table's bits: none, for the table gives no bits. -/
def decodeTableWord (_nbits _w : Nat) : Option Instr := none

end Sys2Proof
end

