-- ==== Sys2Proof/Config.lean ====
section
/-! DEFINITION. What an implementation fixes and the manual leaves open: opaque constants, so that no proof can see their value.
Each is named in a row of notes/assumptions. -/

namespace Sys2Proof.Config

/-- The n-th random draw: DBG_NONCE (R351) and DEV.EXPERT.CHAL (R381). -/
opaque rand : Nat → BitVec 64

/-- The n-th value the manual leaves open in a step that goes on. -/
opaque free : Nat → BitVec 64

/-- Bucket of a fragment key in the fragment table: the manual gives the table "one hash" and does not give the hash (R46). -/
opaque fragHash : List Byte → BitVec 14

/-- SHA-384 (R338 to R351): 48 bytes. -/
opaque sha384 : List Byte → List Byte

/-- ECDSA on P-384 with SHA-384 (R338, R346, R350): public key, digest, signature. -/
opaque ecdsaVerify : List Byte → List Byte → List Byte → Bool

/-- LMS verification (R338): public key, digest, signature. -/
opaque lmsVerify : List Byte → List Byte → List Byte → Bool

/-- The device's ECDSA signature with the Alias key over a transcript (R342). -/
opaque aliasSign : List Byte → List Byte

/-- ROM's SHA-384 digest of the root public keys of index k (R339). -/
opaque romKeyDigest : Nat → List Byte

/-- The owner's public key of a key digest: the settings ledger holds the digest only (R345), and a plan signature is verified against the key (R348). -/
opaque ownerKey : List Byte → List Byte

/-- The certificate chain of slot 0 (R342). -/
opaque certChain : List Byte

/-- Digest of the ROM code (R341, measurement 1). -/
opaque romDigest : List Byte

/-- SEC.SERIAL, fixed per device (R353). -/
opaque serial : BitVec 64

/-- Silicon stepping of the device (R384). -/
opaque stepping : BitVec 8

/-- Grade code of the device: 1, 2 or 3 (R26). -/
opaque gradeRaw : BitVec 2

/-- The factory calibration record of an index: value, MIN, MAX (R318). -/
opaque calFactory : Nat → BitVec 32 × BitVec 32 × BitVec 32

/-- The disabled-unit map of flock f: express, bulk and tree bits (R27), before the grade minima. -/
opaque unitMap : Nat → BitVec 32 × BitVec 32 × BitVec 64

/-- Contents of a FEATURE section: programs, encoding tables with their defaults, slot map. The manual does not give the section's own layout (R206). -/
opaque featureSection : List Byte → List Word × List (List Word × Word) × List DWord

/-- Contents of a GATHER section: gather list, contributor count, output descriptors. The manual does not give the section's own layout (R206). -/
opaque gatherSection : List Byte → List Word × Nat × List DWord

/-- Placement of a layout's DISPATCH section for a lane and a position in the beat: the flock and vector slot of the express work and of the tree work, where there is any (R20, R117, R215). -/
opaque dispatch : List Byte → Nat → Nat → Option (Nat × Nat) × Option (Nat × Nat)

/-- Where the CXL DVSEC and the AER capability stand in configuration space, and the HDM decoder's control register among the component registers
(R278, R280, R281): 32-bit words; the manual leaves their places to the PCIe and CXL specifications' lists of capabilities. -/
opaque dvsecWord : Nat
opaque aerWord : Nat
opaque hdmControl : Nat
/-- Slots of a virtual channel that a neighbour's buffers hold: the credit allotment of R231 and R303, whose size the manual does not give. -/
opaque linkAllot : Nat → Nat
/-- INVOKE section of a flow context: exports its results (R266), uses the flow home (R244). The section's layout is not given (R206). -/
opaque invoke : List Byte → Bool × Bool

/-- INVOKE section of a flow context: an invocation so many beats after its start holds the core of that key (R211, R212); the section's layout is not
given (R206). -/
opaque invHolds : List Byte → Nat → Nat → Bool

/-- INVOKE section of an aggregate context: the GLOBAL words its results write (R23, R91); the section's layout is not given (R206). -/
opaque globalWords : List Byte → List Nat

/-- INVOKE section of a host-job context: largest N_ITEMS, and the input and output lengths for N_ITEMS (R288, R289). -/
opaque invokeJob : List Byte → Nat → Nat × Nat × Nat

/-- HBM bytes per beat that the invocations of an INVOKE section need (R209, BANDWIDTH); the section's layout is not given (R206). -/
opaque hbmDemand : List Byte → Nat

/-- Code of an ARGMAX over 16 outputs whose last output wins: R186 gives 16, and an action table has entries 0 to 15 (R187). By version number. -/
opaque wideCode : Nat → BitVec 4

/-- A cell's accumulator register where no tile is in progress, as the debug fields would show it at a herd time: the manual gives no content (R138, R146). -/
opaque idleCell : Nat → Nat → BitVec 128

/-- Vendor ID of the device in its configuration space: the manual gives no number. -/
opaque vendorId : BitVec 16

/-- Members of the epoch that begins at a beat which no message has named to this device: the manual gives no message that carries the
member list (R234, R239). -/
opaque epochAdded : Nat → List Nat

end Sys2Proof.Config
end

