-- ==== Sys2Proof/Machine/Fields.lean ====
section
/-! DEFINITION. The register fields of the pages (R372): for each field of the chapters' register tables its block, offset,
bits, access type (R10, R11), reset value, array stride and, for a field that a select register banks, the selector. -/

namespace Sys2Proof.Machine

/-- Access types of R10. -/
inductive Access where
  | ro | rw | w1c | w1s | wo | rc
  deriving DecidableEq, Repr, Inhabited

/-- What banks a field: nothing, or the unit that a select register of the same page names. -/
inductive Bank where
  | none | portQueue | port | mirror | policer | selector | watch | island
  deriving DecidableEq, Repr, Inhabited

/-- One register field. Element `i` of an array field lies `stride * i` bytes and `bstride * i` bits further on; `first` is the
number the manual gives the first element. `view` marks a field that shows other state and holds none of its own. -/
structure Field where
  block : Nat
  off : Nat
  lo : Nat
  width : Nat
  acc : Access
  expert : Bool
  rst : Nat
  stride : Nat
  bstride : Nat
  count : Nat
  first : Nat
  rsts : List Nat
  bank : Bank
  view : Bool
  deriving DecidableEq, Repr, Inhabited

/-- A field that stands once on its page. -/
def mkF (block off lo width : Nat) (acc : Access) (rst : Nat) : Field :=
  { block := block, off := off, lo := lo, width := width, acc := acc, expert := false, rst := rst, stride := 0, bstride := 0, count := 1, first := 0, rsts := [], bank := .none, view := false }

/-- The expert form of a field (R11). -/
def Field.x (f : Field) : Field := { f with expert := true }
/-- The array form of a field. -/
def Field.arr (f : Field) (stride count : Nat) (first : Nat := 0) : Field := { f with stride := stride, count := count, first := first }
/-- A field banked by a select register. -/
def Field.by (f : Field) (b : Bank) : Field := { f with bank := b }
/-- A field that shows other state. -/
def Field.v (f : Field) : Field := { f with view := true }

/-- The page of instance `inst` of a block (R372), as the BAR0 address of its first byte. -/
def pageBase (block inst : Nat) : Nat :=
  (match block with
   | 1 => 0
   | 2 => 4096
   | 3 => 16384
   | 4 => 20480
   | 5 => 24576
   | 6 => 28672
   | 7 => 32768
   | 8 => 36864
   | 9 => 40960
   | 10 => 45056
   | 11 => 49152
   | 16 => 65536
   | 17 => 131072
   | 18 => 196608
   | 19 => 229376
   | 20 => 233472
   | 21 => 237568
   | 22 => 241664
   | 23 => 245760
   | 24 => 249856
   | 25 => 253952
   | 26 => 258048
   | 32 => 262144
   | 33 => 294912
   | 34 => 344064
   | 35 => 348160
   | 48 => 1048576
   | _ => 0) + inst * 4096

/-- Instances of a block (R372). -/
def instancesOf (block : Nat) : Nat :=
  match block with
  | 1 => 1
  | 2 => 3
  | 3 => 1
  | 4 => 1
  | 5 => 1
  | 6 => 1
  | 7 => 1
  | 8 => 1
  | 9 => 1
  | 10 => 1
  | 11 => 1
  | 16 => 16
  | 17 => 16
  | 18 => 8
  | 19 => 1
  | 20 => 1
  | 21 => 1
  | 22 => 1
  | 23 => 1
  | 24 => 1
  | 25 => 1
  | 26 => 1
  | 32 => 8
  | 33 => 12
  | 34 => 1
  | 35 => 1
  | 48 => 256
  | _ => 0

/-! Block type codes (R372). -/
abbrev Blk.DEV : Nat := 1
abbrev Blk.ZCT : Nat := 2
abbrev Blk.SET : Nat := 3
abbrev Blk.SEC : Nat := 4
abbrev Blk.CXL : Nat := 5
abbrev Blk.TIME : Nat := 6
abbrev Blk.CAL : Nat := 7
abbrev Blk.AGE : Nat := 8
abbrev Blk.LEDG : Nat := 9
abbrev Blk.SAMP : Nat := 10
abbrev Blk.DBG : Nat := 11
abbrev Blk.PORT : Nat := 16
abbrev Blk.LANE : Nat := 17
abbrev Blk.TCAM : Nat := 18
abbrev Blk.FLOW : Nat := 19
abbrev Blk.LEARN : Nat := 20
abbrev Blk.FRAG : Nat := 21
abbrev Blk.HOLD : Nat := 22
abbrev Blk.VERD : Nat := 23
abbrev Blk.SHAPE : Nat := 24
abbrev Blk.POLICE : Nat := 25
abbrev Blk.HQ : Nat := 26
abbrev Blk.HBMC : Nat := 32
abbrev Blk.HLINK : Nat := 33
abbrev Blk.HERD : Nat := 34
abbrev Blk.CTX : Nat := 35
abbrev Blk.FLOCK : Nat := 48

/-! Page PORT (R37, R256, R377). -/
def Reg.PORT.SPEED : Field := (mkF 16 0x40 0 3 .rw 0)
def Reg.PORT.MODE_S0 : Field := (mkF 16 0x40 3 1 .rw 0)
def Reg.PORT.MODE_S1 : Field := (mkF 16 0x40 4 1 .rw 0)
def Reg.PORT.VHDR_S0 : Field := (mkF 16 0x40 5 1 .rw 0)
def Reg.PORT.VHDR_S1 : Field := (mkF 16 0x40 6 1 .rw 0)
def Reg.PORT.V4_CSUM : Field := (mkF 16 0x40 7 1 .rw 0)
def Reg.PORT.CT_LEAD : Field := (mkF 16 0x40 8 2 .rw 0)
def Reg.PORT.PAIR_S0 : Field := (mkF 16 0x40 16 5 .rw 0)
def Reg.PORT.PAIR_S1 : Field := (mkF 16 0x40 21 5 .rw 0)
def Reg.PORT.MAL_ACT : Field := { { ((mkF 16 0x44 0 2 .rw 0).arr 0 16) with bstride := 2 } with rsts := [0, 0, 3, 3, 0, 0, 0, 0, 3, 3, 0, 0, 0, 0, 0, 1] }
def Reg.PORT.PAIR_ERR_S0 : Field := (mkF 16 0x14 0 1 .ro 1)
def Reg.PORT.PAIR_ERR_S1 : Field := (mkF 16 0x14 1 1 .ro 1)
def Reg.PORT.RX_RUNT : Field := (mkF 16 0x80 0 64 .ro 0)
def Reg.PORT.RX_UNPAIRED : Field := (mkF 16 0x88 0 64 .ro 0)
def Reg.PORT.CT_LEAD_CYC : Field := (mkF 16 0x800 0 8 .rw 0).x
def Reg.PORT.CT_LEAD_EN : Field := (mkF 16 0x800 8 1 .rw 0).x
def Reg.PORT.PAIR_ANY : Field := (mkF 16 0x804 0 1 .rw 0).x
def Reg.PORT.VXLAN_UDP : Field := (mkF 16 0x808 0 16 .rw 4789).x
def Reg.PORT.GENEVE_UDP : Field := (mkF 16 0x808 16 16 .rw 6081).x
def Reg.PORT.TS_EN_S0 : Field := (mkF 16 0xC0 0 1 .rw 0)
def Reg.PORT.TS_EN_S1 : Field := (mkF 16 0xC0 1 1 .rw 0)
def Reg.PORT.RX_TS_TYPE : Field := (mkF 16 0xC4 0 4 .rc 0)
def Reg.PORT.RX_TS_DOMAIN : Field := (mkF 16 0xC4 4 8 .rc 0)
def Reg.PORT.RX_TS_SEQID : Field := (mkF 16 0xC4 12 16 .rc 0)
def Reg.PORT.RX_TS_SUB : Field := (mkF 16 0xC4 28 1 .rc 0)
def Reg.PORT.RX_TS_VALID : Field := (mkF 16 0xC4 31 1 .rc 0)
def Reg.PORT.RX_TS_NS : Field := (mkF 16 0xC8 0 64 .ro 0)
def Reg.PORT.RX_TS_FRAC : Field := (mkF 16 0xD0 0 16 .ro 0)
def Reg.PORT.RX_TS_LOST : Field := (mkF 16 0xD4 0 32 .ro 0)
def Reg.PORT.TX_TS_ITAG : Field := (mkF 16 0xD8 0 16 .rc 0)
def Reg.PORT.TX_TS_SUB : Field := (mkF 16 0xD8 16 1 .rc 0)
def Reg.PORT.TX_TS_ONESTEP : Field := (mkF 16 0xD8 17 1 .rc 0)
def Reg.PORT.TX_TS_VALID : Field := (mkF 16 0xD8 31 1 .rc 0)
def Reg.PORT.TX_TS_NS : Field := (mkF 16 0xE0 0 64 .ro 0)
def Reg.PORT.TX_TS_FRAC : Field := (mkF 16 0xE8 0 16 .ro 0)
def Reg.PORT.TX_TS_LOST : Field := (mkF 16 0xEC 0 32 .ro 0)
def Reg.PORT.ONESTEP_REJ : Field := (mkF 16 0xF0 0 32 .ro 0)
def Reg.PORT.TS_DELAY_RX : Field := (mkF 16 0x840 0 16 .rw 0).x
def Reg.PORT.TS_DELAY_TX : Field := (mkF 16 0x840 16 16 .rw 0).x
def Reg.PORT.LINK_S0 : Field := (mkF 16 0x14 2 1 .ro 0)
def Reg.PORT.LINK_S1 : Field := (mkF 16 0x14 3 1 .ro 0)
/-- Every field of the page. -/
def Reg.fieldsPORT : List Field :=
  [Reg.PORT.SPEED, Reg.PORT.MODE_S0, Reg.PORT.MODE_S1, Reg.PORT.VHDR_S0, Reg.PORT.VHDR_S1, Reg.PORT.V4_CSUM,
   Reg.PORT.CT_LEAD, Reg.PORT.PAIR_S0, Reg.PORT.PAIR_S1, Reg.PORT.MAL_ACT, Reg.PORT.PAIR_ERR_S0, Reg.PORT.PAIR_ERR_S1,
   Reg.PORT.RX_RUNT, Reg.PORT.RX_UNPAIRED, Reg.PORT.CT_LEAD_CYC, Reg.PORT.CT_LEAD_EN, Reg.PORT.PAIR_ANY, Reg.PORT.VXLAN_UDP,
   Reg.PORT.GENEVE_UDP, Reg.PORT.TS_EN_S0, Reg.PORT.TS_EN_S1, Reg.PORT.RX_TS_TYPE, Reg.PORT.RX_TS_DOMAIN, Reg.PORT.RX_TS_SEQID,
   Reg.PORT.RX_TS_SUB, Reg.PORT.RX_TS_VALID, Reg.PORT.RX_TS_NS, Reg.PORT.RX_TS_FRAC, Reg.PORT.RX_TS_LOST, Reg.PORT.TX_TS_ITAG,
   Reg.PORT.TX_TS_SUB, Reg.PORT.TX_TS_ONESTEP, Reg.PORT.TX_TS_VALID, Reg.PORT.TX_TS_NS, Reg.PORT.TX_TS_FRAC, Reg.PORT.TX_TS_LOST,
   Reg.PORT.ONESTEP_REJ, Reg.PORT.TS_DELAY_RX, Reg.PORT.TS_DELAY_TX, Reg.PORT.LINK_S0, Reg.PORT.LINK_S1]

/-! Page FRAG (R48). -/
def Reg.FRAG.IN_USE : Field := ((mkF 21 0x40 0 17 .ro 0)).v
def Reg.FRAG.FOLLOWED : Field := (mkF 21 0x48 0 64 .ro 0)
def Reg.FRAG.UNMATCHED : Field := (mkF 21 0x50 0 64 .ro 0)
def Reg.FRAG.INSERT_FAIL : Field := (mkF 21 0x58 0 64 .ro 0)
def Reg.FRAG.REPLACED : Field := (mkF 21 0x60 0 64 .ro 0)
def Reg.FRAG.KEY_ABSENT : Field := (mkF 21 0x68 0 32 .ro 0)
def Reg.FRAG.FLUSH : Field := (mkF 21 0x800 0 1 .wo 0).x
/-- Every field of the page. -/
def Reg.fieldsFRAG : List Field :=
  [Reg.FRAG.IN_USE, Reg.FRAG.FOLLOWED, Reg.FRAG.UNMATCHED, Reg.FRAG.INSERT_FAIL, Reg.FRAG.REPLACED, Reg.FRAG.KEY_ABSENT,
   Reg.FRAG.FLUSH]

/-! Page HOLD (R52). -/
def Reg.HOLD.HIGH_SEL : Field := (mkF 22 0x40 0 4 .rw 14)
def Reg.HOLD.LOW_SEL : Field := (mkF 22 0x40 4 4 .rw 12)
def Reg.HOLD.ALLOC : Field := (mkF 22 0x44 0 20 .ro 0)
def Reg.HOLD.BYPASS : Field := (mkF 22 0x44 31 1 .ro 0)
def Reg.HOLD.BYPASS_PKTS : Field := (mkF 22 0x48 0 64 .ro 0)
def Reg.HOLD.STOMPED : Field := (mkF 22 0x50 0 64 .ro 0)
def Reg.HOLD.INTAKE_DROP : Field := (mkF 22 0x58 0 64 .ro 0)
def Reg.HOLD.CT_STARTS : Field := (mkF 22 0x60 0 64 .ro 0)
def Reg.HOLD.HIGH_CELLS : Field := (mkF 22 0x800 0 20 .rw 458752).x
def Reg.HOLD.LOW_CELLS : Field := (mkF 22 0x804 0 20 .rw 393216).x
def Reg.HOLD.MARK_X : Field := (mkF 22 0x808 0 1 .rw 0).x
/-- Every field of the page. -/
def Reg.fieldsHOLD : List Field :=
  [Reg.HOLD.HIGH_SEL, Reg.HOLD.LOW_SEL, Reg.HOLD.ALLOC, Reg.HOLD.BYPASS, Reg.HOLD.BYPASS_PKTS, Reg.HOLD.STOMPED,
   Reg.HOLD.INTAKE_DROP, Reg.HOLD.CT_STARTS, Reg.HOLD.HIGH_CELLS, Reg.HOLD.LOW_CELLS, Reg.HOLD.MARK_X]

/-! Page TCAM (R71). -/
def Reg.TCAM.SEARCHES : Field := (mkF 18 0x40 0 64 .ro 0)
def Reg.TCAM.RULE_MISS : Field := (mkF 18 0x48 0 64 .ro 0)
def Reg.TCAM.LPM_MISS : Field := (mkF 18 0x50 0 64 .ro 0)
def Reg.TCAM.LPM_ABSENT : Field := (mkF 18 0x58 0 64 .ro 0)
def Reg.TCAM.PARITY : Field := (mkF 18 0x60 0 32 .ro 0)
def Reg.TCAM.LAST_BAD : Field := (mkF 18 0x64 0 16 .ro 0)
def Reg.TCAM.MISSED : Field := (mkF 18 0x68 0 32 .ro 0)
def Reg.TCAM.BANK_STG : Field := (((mkF 18 0x100 0 2 .rw 0).arr 4 48)).v
def Reg.TCAM.BANK_S0 : Field := ((mkF 18 0x100 4 2 .ro 0).arr 4 48)
def Reg.TCAM.BANK_S1 : Field := ((mkF 18 0x100 6 2 .ro 0).arr 4 48)
def Reg.TCAM.ENT_VAL : Field := ((mkF 18 0x200 0 32 .rw 0).arr 4 18)
def Reg.TCAM.ENT_MASK : Field := ((mkF 18 0x280 0 32 .rw 0).arr 4 18)
def Reg.TCAM.ENT_ACT : Field := ((mkF 18 0x300 0 32 .rw 0).arr 4 4)
def Reg.TCAM.ENT_CMD_ENTRY : Field := (mkF 18 0x310 0 10 .wo 0)
def Reg.TCAM.ENT_CMD_BANK : Field := (mkF 18 0x310 10 6 .wo 0)
def Reg.TCAM.ENT_CMD_OP : Field := (mkF 18 0x310 16 3 .wo 0)
def Reg.TCAM.ENT_CMD_BCAST : Field := (mkF 18 0x310 19 1 .wo 0)
def Reg.TCAM.ENT_CMD_PLEN : Field := (mkF 18 0x310 20 8 .wo 0)
def Reg.TCAM.ENT_BUSY : Field := (mkF 18 0x314 0 1 .ro 0)
def Reg.TCAM.ENT_RESULT : Field := (mkF 18 0x314 4 4 .ro 0)
def Reg.TCAM.ENT_FLAGS : Field := (mkF 18 0x318 0 3 .ro 0)
def Reg.TCAM.PRESEL_IDX : Field := (mkF 18 0x320 0 12 .rw 0)
def Reg.TCAM.PRESEL_MASK : Field := ((mkF 18 0x328 0 48 .rw 0)).v
def Reg.TCAM.LPM_DOM : Field := (((mkF 18 0x340 0 8 .rw 0).arr 1 32)).v
def Reg.TCAM.SLOT_VER0 : Field := (mkF 18 0x400 0 16 .ro 0)
def Reg.TCAM.SLOT_VER1 : Field := (mkF 18 0x400 16 16 .ro 0)
def Reg.TCAM.ACTIVE_SLOT : Field := (mkF 18 0x404 0 1 .ro 0)
def Reg.TCAM.COMMIT_STATE : Field := (mkF 18 0x404 1 3 .ro 0)
def Reg.TCAM.REFUSE : Field := (mkF 18 0x404 8 4 .ro 0)
def Reg.TCAM.STAGED_VER : Field := (mkF 18 0x408 0 16 .rw 1)
def Reg.TCAM.COMMIT_BEAT : Field := (mkF 18 0x410 0 64 .rw 0)
def Reg.TCAM.COMMIT : Field := (mkF 18 0x418 0 1 .wo 0)
def Reg.TCAM.ABORT : Field := (mkF 18 0x418 1 1 .wo 0)
def Reg.TCAM.OCC_S0 : Field := (((mkF 18 0x420 0 16 .ro 0).arr 4 16)).v
def Reg.TCAM.OCC_S1 : Field := (((mkF 18 0x420 16 16 .ro 0).arr 4 16)).v
def Reg.TCAM.DEF_ACT : Field := ({ ((mkF 18 0x480 0 32 .rw 0).arr 4 4) with rsts := [1, 0, 0, 0] }).v
def Reg.TCAM.LOAD_ADDR : Field := (mkF 18 0x500 0 64 .rw 0)
def Reg.TCAM.LOAD_COUNT : Field := (mkF 18 0x508 0 17 .rw 0)
def Reg.TCAM.LOAD_GO : Field := (mkF 18 0x50C 0 1 .wo 0)
def Reg.TCAM.LOAD_DONE : Field := (mkF 18 0x510 0 17 .ro 0)
def Reg.TCAM.SCRUB_BEATS : Field := (mkF 18 0x800 0 16 .rw 1024).x
def Reg.TCAM.PARITY_NEXT : Field := (mkF 18 0x804 0 1 .rw 0).x
/-- Every field of the page. -/
def Reg.fieldsTCAM : List Field :=
  [Reg.TCAM.SEARCHES, Reg.TCAM.RULE_MISS, Reg.TCAM.LPM_MISS, Reg.TCAM.LPM_ABSENT, Reg.TCAM.PARITY, Reg.TCAM.LAST_BAD,
   Reg.TCAM.MISSED, Reg.TCAM.BANK_STG, Reg.TCAM.BANK_S0, Reg.TCAM.BANK_S1, Reg.TCAM.ENT_VAL, Reg.TCAM.ENT_MASK,
   Reg.TCAM.ENT_ACT, Reg.TCAM.ENT_CMD_ENTRY, Reg.TCAM.ENT_CMD_BANK, Reg.TCAM.ENT_CMD_OP, Reg.TCAM.ENT_CMD_BCAST, Reg.TCAM.ENT_CMD_PLEN,
   Reg.TCAM.ENT_BUSY, Reg.TCAM.ENT_RESULT, Reg.TCAM.ENT_FLAGS, Reg.TCAM.PRESEL_IDX, Reg.TCAM.PRESEL_MASK, Reg.TCAM.LPM_DOM,
   Reg.TCAM.SLOT_VER0, Reg.TCAM.SLOT_VER1, Reg.TCAM.ACTIVE_SLOT, Reg.TCAM.COMMIT_STATE, Reg.TCAM.REFUSE, Reg.TCAM.STAGED_VER,
   Reg.TCAM.COMMIT_BEAT, Reg.TCAM.COMMIT, Reg.TCAM.ABORT, Reg.TCAM.OCC_S0, Reg.TCAM.OCC_S1, Reg.TCAM.DEF_ACT,
   Reg.TCAM.LOAD_ADDR, Reg.TCAM.LOAD_COUNT, Reg.TCAM.LOAD_GO, Reg.TCAM.LOAD_DONE, Reg.TCAM.SCRUB_BEATS, Reg.TCAM.PARITY_NEXT]

/-! Page FLOW (R86, R108, R317). -/
def Reg.FLOW.CACHE_HIT : Field := (mkF 19 0x40 0 64 .ro 0)
def Reg.FLOW.STORE_HIT : Field := (mkF 19 0x48 0 64 .ro 0)
def Reg.FLOW.NEW_FLOWS : Field := (mkF 19 0x50 0 64 .ro 0)
def Reg.FLOW.INSERT_FAIL : Field := (mkF 19 0x58 0 64 .ro 0)
def Reg.FLOW.MOVES : Field := (mkF 19 0x60 0 64 .ro 0)
def Reg.FLOW.UNCACHED : Field := (mkF 19 0x68 0 64 .ro 0)
def Reg.FLOW.FP_EXTRA : Field := (mkF 19 0x70 0 64 .ro 0)
def Reg.FLOW.CACHE_PARITY : Field := (mkF 19 0x78 0 32 .ro 0)
def Reg.FLOW.ECC_LOST : Field := (mkF 19 0x7C 0 32 .ro 0)
def Reg.FLOW.RECORDS : Field := (mkF 19 0x80 0 31 .ro 0)
def Reg.FLOW.IDLE_EPOCHS : Field := (mkF 19 0x84 0 16 .rw 0)
def Reg.FLOW.FLUSH : Field := (mkF 19 0x88 0 1 .wo 0)
def Reg.FLOW.KEY : Field := ((mkF 19 0xC0 0 32 .rw 0).arr 4 12)
def Reg.FLOW.CMD : Field := (mkF 19 0xF0 0 2 .wo 0)
def Reg.FLOW.CMD_BUSY : Field := (mkF 19 0xF4 0 1 .ro 0)
def Reg.FLOW.CMD_RESULT : Field := (mkF 19 0xF4 1 2 .ro 0)
def Reg.FLOW.REC : Field := ((mkF 19 0x100 0 32 .ro 0).arr 4 64)
def Reg.FLOW.MAX_MOVES : Field := (mkF 19 0x800 0 6 .rw 32).x
def Reg.FLOW.NO_AGE_SWEEP : Field := (mkF 19 0x804 0 1 .rw 0).x
def Reg.FLOW.EWMA_SHIFT : Field := (mkF 19 0x200 0 4 .rw 3)
def Reg.FLOW.UD_SRC : Field := ((mkF 19 0x210 0 3 .rw 0).arr 8 12)
def Reg.FLOW.UD_OP : Field := ((mkF 19 0x210 3 3 .rw 0).arr 8 12)
def Reg.FLOW.UD_BASE : Field := ((mkF 19 0x210 6 2 .rw 0).arr 8 12)
def Reg.FLOW.UD_OFF : Field := ((mkF 19 0x210 8 6 .rw 0).arr 8 12)
def Reg.FLOW.COND_EN : Field := ((mkF 19 0x214 0 1 .rw 0).arr 8 12)
def Reg.FLOW.COND_BASE : Field := ((mkF 19 0x214 1 2 .rw 0).arr 8 12)
def Reg.FLOW.COND_OFF : Field := ((mkF 19 0x214 3 6 .rw 0).arr 8 12)
def Reg.FLOW.COND_MASK : Field := ((mkF 19 0x214 16 8 .rw 0).arr 8 12)
def Reg.FLOW.COND_VAL : Field := ((mkF 19 0x214 24 8 .rw 0).arr 8 12)
def Reg.FLOW.HIST_RINGS : Field := (mkF 19 0x280 0 27 .ro 0)
def Reg.FLOW.HIST_FREE : Field := ((mkF 19 0x284 0 27 .ro 0)).v
def Reg.FLOW.HIST_NOFREE : Field := (mkF 19 0x288 0 32 .ro 0)
def Reg.FLOW.RESULTS : Field := (mkF 19 0x290 0 64 .ro 0)
def Reg.FLOW.RESULT_ORPHAN : Field := (mkF 19 0x298 0 32 .ro 0)
def Reg.FLOW.HIST_OFF : Field := (mkF 19 0x808 0 1 .rw 0).x
def Reg.FLOW.UACC_OFF : Field := (mkF 19 0x808 1 1 .rw 0).x
def Reg.FLOW.REHASH_GO : Field := (mkF 19 0x2A0 0 1 .wo 0)
def Reg.FLOW.REHASH_STOP : Field := (mkF 19 0x2A0 1 1 .wo 0)
def Reg.FLOW.REHASH_PACE : Field := (mkF 19 0x2A4 0 16 .rw 512)
def Reg.FLOW.REHASH_STEP : Field := (mkF 19 0x2A8 0 20 .ro 0)
def Reg.FLOW.REHASH_RUN : Field := (mkF 19 0x2AC 0 1 .ro 0)
def Reg.FLOW.REHASH_MOVES : Field := (mkF 19 0x2B0 0 64 .ro 0)
def Reg.FLOW.REVAL_CLEARED : Field := (mkF 19 0x2B8 0 32 .ro 0)
/-- Every field of the page. -/
def Reg.fieldsFLOW : List Field :=
  [Reg.FLOW.CACHE_HIT, Reg.FLOW.STORE_HIT, Reg.FLOW.NEW_FLOWS, Reg.FLOW.INSERT_FAIL, Reg.FLOW.MOVES, Reg.FLOW.UNCACHED,
   Reg.FLOW.FP_EXTRA, Reg.FLOW.CACHE_PARITY, Reg.FLOW.ECC_LOST, Reg.FLOW.RECORDS, Reg.FLOW.IDLE_EPOCHS, Reg.FLOW.FLUSH,
   Reg.FLOW.KEY, Reg.FLOW.CMD, Reg.FLOW.CMD_BUSY, Reg.FLOW.CMD_RESULT, Reg.FLOW.REC, Reg.FLOW.MAX_MOVES,
   Reg.FLOW.NO_AGE_SWEEP, Reg.FLOW.EWMA_SHIFT, Reg.FLOW.UD_SRC, Reg.FLOW.UD_OP, Reg.FLOW.UD_BASE, Reg.FLOW.UD_OFF,
   Reg.FLOW.COND_EN, Reg.FLOW.COND_BASE, Reg.FLOW.COND_OFF, Reg.FLOW.COND_MASK, Reg.FLOW.COND_VAL, Reg.FLOW.HIST_RINGS,
   Reg.FLOW.HIST_FREE, Reg.FLOW.HIST_NOFREE, Reg.FLOW.RESULTS, Reg.FLOW.RESULT_ORPHAN, Reg.FLOW.HIST_OFF, Reg.FLOW.UACC_OFF,
   Reg.FLOW.REHASH_GO, Reg.FLOW.REHASH_STOP, Reg.FLOW.REHASH_PACE, Reg.FLOW.REHASH_STEP, Reg.FLOW.REHASH_RUN, Reg.FLOW.REHASH_MOVES,
   Reg.FLOW.REVAL_CLEARED]

/-! Page LEARN (R87). -/
def Reg.LEARN.IN_USE : Field := ((mkF 20 0x40 0 19 .ro 0)).v
def Reg.LEARN.MOVES : Field := (mkF 20 0x48 0 64 .ro 0)
def Reg.LEARN.INSERT_FAIL : Field := (mkF 20 0x50 0 64 .ro 0)
def Reg.LEARN.PARITY : Field := (mkF 20 0x58 0 32 .ro 0)
def Reg.LEARN.AGE_EPOCHS : Field := (mkF 20 0x60 0 16 .rw 0)
def Reg.LEARN.CMD_MAC : Field := (mkF 20 0x80 0 48 .rw 0)
def Reg.LEARN.CMD_VLAN : Field := (mkF 20 0x88 0 12 .rw 0)
def Reg.LEARN.CMD_LOC : Field := (mkF 20 0x88 16 11 .rw 0)
def Reg.LEARN.CMD : Field := (mkF 20 0x8C 0 2 .wo 0)
def Reg.LEARN.CMD_BUSY : Field := (mkF 20 0x90 0 1 .ro 0)
def Reg.LEARN.CMD_RESULT : Field := (mkF 20 0x90 1 2 .ro 0)
def Reg.LEARN.CMD_ENTRY : Field := (mkF 20 0x94 0 32 .ro 0)
def Reg.LEARN.LEARN_OFF : Field := (mkF 20 0x800 0 1 .rw 0).x
/-- Every field of the page. -/
def Reg.fieldsLEARN : List Field :=
  [Reg.LEARN.IN_USE, Reg.LEARN.MOVES, Reg.LEARN.INSERT_FAIL, Reg.LEARN.PARITY, Reg.LEARN.AGE_EPOCHS, Reg.LEARN.CMD_MAC,
   Reg.LEARN.CMD_VLAN, Reg.LEARN.CMD_LOC, Reg.LEARN.CMD, Reg.LEARN.CMD_BUSY, Reg.LEARN.CMD_RESULT, Reg.LEARN.CMD_ENTRY,
   Reg.LEARN.LEARN_OFF]

/-! Page LANE (R107, R42). -/
def Reg.LANE.FEAT_PKTS : Field := (mkF 17 0x200 0 64 .ro 0)
def Reg.LANE.VEC_SENT : Field := (mkF 17 0x208 0 64 .ro 0)
def Reg.LANE.FSET_MISMATCH : Field := (mkF 17 0x210 0 64 .ro 0)
def Reg.LANE.FEAT_PARITY : Field := (mkF 17 0x218 0 32 .ro 0)
def Reg.LANE.FSET_LOADED : Field := (mkF 17 0x21C 0 16 .ro 0)
def Reg.LANE.MISSED : Field := (mkF 17 0x300 0 32 .ro 0)
def Reg.LANE.FORCE_SET : Field := (mkF 17 0x800 0 4 .rw 0).x
def Reg.LANE.FORCE_EN : Field := (mkF 17 0x800 4 1 .rw 0).x
def Reg.LANE.MAL_CNT : Field := ((mkF 17 0x100 0 64 .ro 0).arr 8 16 1)
/-- Every field of the page. -/
def Reg.fieldsLANE : List Field :=
  [Reg.LANE.FEAT_PKTS, Reg.LANE.VEC_SENT, Reg.LANE.FSET_MISMATCH, Reg.LANE.FEAT_PARITY, Reg.LANE.FSET_LOADED, Reg.LANE.MISSED,
   Reg.LANE.FORCE_SET, Reg.LANE.FORCE_EN, Reg.LANE.MAL_CNT]

/-! Page FLOCK (R124, R146, R165, R184, R255, R371). -/
def Reg.FLOCK.TREE_EVALS : Field := (mkF 48 0x300 0 64 .ro 0)
def Reg.FLOCK.TREE_BUBBLES : Field := (mkF 48 0x308 0 64 .ro 0)
def Reg.FLOCK.GATHER_DONE : Field := (mkF 48 0x310 0 64 .ro 0)
def Reg.FLOCK.GATHER_VOID : Field := (mkF 48 0x318 0 32 .ro 0)
def Reg.FLOCK.TREE_PARITY : Field := (mkF 48 0x31C 0 32 .ro 0)
def Reg.FLOCK.TREE_WD : Field := (mkF 48 0x320 0 64 .ro 0)
def Reg.FLOCK.OUT_SAT : Field := (mkF 48 0x328 0 32 .ro 0)
def Reg.FLOCK.TREE_CMP : Field := (mkF 48 0x32C 0 1 .ro 0).v
def Reg.FLOCK.PIPE_D : Field := (mkF 48 0x32C 4 4 .ro 0).v
def Reg.FLOCK.TREE_WD_REQ : Field := (mkF 48 0x330 0 6 .wo 0)
def Reg.FLOCK.TREE_OFF : Field := (mkF 48 0x840 0 64 .rw 0).x
def Reg.FLOCK.PART_CORE : Field := (mkF 48 0xF00 0 6 .rw 0)
def Reg.FLOCK.PART_REG : Field := (mkF 48 0xF00 6 9 .rw 0)
def Reg.FLOCK.PART_DATA : Field := ((mkF 48 0xF08 0 64 .ro 0)).v
def Reg.FLOCK.EXP_STREAM : Field := (mkF 48 0x400 0 64 .ro 0)
def Reg.FLOCK.BULK_STREAM : Field := (mkF 48 0x408 0 64 .ro 0)
def Reg.FLOCK.HELD_STALL : Field := (mkF 48 0x410 0 64 .ro 0)
def Reg.FLOCK.ISSUE_WAIT : Field := (mkF 48 0x418 0 64 .ro 0)
def Reg.FLOCK.ARRAY_PARITY : Field := (mkF 48 0x420 0 32 .ro 0)
def Reg.FLOCK.PROG_LATE : Field := (mkF 48 0x424 0 32 .ro 0)
def Reg.FLOCK.WS_FORM : Field := (mkF 48 0x428 0 8 .ro 0)
def Reg.FLOCK.ARRAY_WD : Field := (mkF 48 0x430 0 64 .ro 0)
def Reg.FLOCK.ARRAY_WD_REQ : Field := (mkF 48 0x438 0 6 .wo 0)
def Reg.FLOCK.ARRAY_OFF : Field := (mkF 48 0x880 0 64 .rw 0).x
def Reg.FLOCK.ACC_CLASS : Field := (mkF 48 0xF10 0 1 .rw 0)
def Reg.FLOCK.ACC_CORE : Field := (mkF 48 0xF10 1 4 .rw 0)
def Reg.FLOCK.ACC_ARRAY : Field := (mkF 48 0xF10 5 2 .rw 0)
def Reg.FLOCK.ACC_SET : Field := (mkF 48 0xF10 7 1 .rw 0)
def Reg.FLOCK.ACC_ROW : Field := (mkF 48 0xF10 8 5 .rw 0)
def Reg.FLOCK.ACC_COL : Field := (mkF 48 0xF10 13 10 .rw 0)
def Reg.FLOCK.ACC_LO : Field := ((mkF 48 0xF18 0 64 .ro 0)).v
def Reg.FLOCK.ACC_HI : Field := ((mkF 48 0xF20 0 64 .ro 0)).v
def Reg.FLOCK.LEN_FAULT : Field := (mkF 48 0x440 0 32 .ro 0)
def Reg.FLOCK.STEP_FAULT : Field := (mkF 48 0x444 0 32 .ro 0)
def Reg.FLOCK.SPAN_FAULT : Field := (mkF 48 0x448 0 32 .ro 0)
def Reg.FLOCK.VALUE_FAULT : Field := (mkF 48 0x44C 0 32 .ro 0)
def Reg.FLOCK.AF_KIND : Field := (mkF 48 0x450 0 3 .rc 0)
def Reg.FLOCK.AF_CLASS : Field := (mkF 48 0x450 3 1 .rc 0)
def Reg.FLOCK.AF_CORE : Field := (mkF 48 0x450 4 4 .rc 0)
def Reg.FLOCK.AF_ARRAY : Field := (mkF 48 0x450 8 2 .rc 0)
def Reg.FLOCK.AF_LANE : Field := (mkF 48 0x450 10 2 .rc 0)
def Reg.FLOCK.AF_CYCLE : Field := (mkF 48 0x450 12 9 .rc 0)
def Reg.FLOCK.AF_CODE : Field := (mkF 48 0x450 21 9 .rc 0)
def Reg.FLOCK.AF_TAG_SEEN : Field := (mkF 48 0x450 30 4 .rc 0)
def Reg.FLOCK.AF_TAG_EXP : Field := (mkF 48 0x450 34 4 .rc 0)
def Reg.FLOCK.AF_BEAT : Field := (mkF 48 0x450 38 26 .rc 0)
def Reg.FLOCK.STAT_RECORDS : Field := (mkF 48 0x458 0 64 .ro 0)
def Reg.FLOCK.INJ_KIND : Field := (mkF 48 0x8C0 0 3 .wo 0).x
def Reg.FLOCK.INJ_CLASS : Field := (mkF 48 0x8C0 3 1 .wo 0).x
def Reg.FLOCK.INJ_CORE : Field := (mkF 48 0x8C0 4 4 .wo 0).x
def Reg.FLOCK.INJ_ARM : Field := (mkF 48 0x8C0 8 1 .wo 0).x
def Reg.FLOCK.CNT_LANE : Field := (mkF 48 0xF28 0 2 .rw 0)
def Reg.FLOCK.CNT_VALUE : Field := ((mkF 48 0xF2C 0 25 .ro 0)).v
def Reg.FLOCK.EPI_SAT : Field := (mkF 48 0x460 0 64 .ro 0)
def Reg.FLOCK.PRO_SAT : Field := (mkF 48 0x468 0 64 .ro 0)
def Reg.FLOCK.NORM_FLAT : Field := (mkF 48 0x470 0 32 .ro 0)
def Reg.FLOCK.PRO_SPECIAL : Field := (mkF 48 0x474 0 32 .ro 0)
def Reg.FLOCK.DESC_BANK : Field := (mkF 48 0x478 0 16 .ro 0)
def Reg.FLOCK.DESC_BANK_B : Field := (mkF 48 0x478 16 8 .ro 0)
def Reg.FLOCK.PATCH_CLASS : Field := (mkF 48 0x900 0 1 .rw 0).x
def Reg.FLOCK.PATCH_CORE : Field := (mkF 48 0x900 1 4 .rw 0).x
def Reg.FLOCK.PATCH_AREA : Field := (mkF 48 0x900 5 1 .rw 0).x
def Reg.FLOCK.PATCH_WORD : Field := (mkF 48 0x900 6 11 .rw 0).x
def Reg.FLOCK.PATCH_DATA : Field := (mkF 48 0x908 0 64 .rw 0).x
def Reg.FLOCK.PATCH_GO : Field := (mkF 48 0x910 0 1 .wo 0).x
def Reg.FLOCK.SYNC_SEL : Field := (mkF 48 0x500 0 8 .rw 0)
def Reg.FLOCK.SYNC_VAL : Field := ((mkF 48 0x504 0 16 .ro 0)).v
def Reg.FLOCK.SYNC_OVF : Field := (mkF 48 0x508 0 32 .ro 0)
def Reg.FLOCK.MISSED : Field := (mkF 48 0x50C 0 32 .ro 0)
def Reg.FLOCK.MISS_EPOCH : Field := (mkF 48 0x510 0 3 .ro 0)
def Reg.FLOCK.SYNC_SET : Field := (mkF 48 0x940 0 16 .rw 0).x
def Reg.FLOCK.SYNC_SET_GO : Field := (mkF 48 0x944 0 1 .wo 0).x
def Reg.FLOCK.OPC_CLASS : Field := (mkF 48 0x600 0 1 .rw 0)
def Reg.FLOCK.OPC_CORE : Field := (mkF 48 0x600 1 4 .rw 0)
def Reg.FLOCK.OPC_CYCLES : Field := ((mkF 48 0x608 0 64 .ro 0)).v
def Reg.FLOCK.OPC_ENTER : Field := ((mkF 48 0x610 0 64 .ro 0)).v
def Reg.FLOCK.OPC_IDLE : Field := ((mkF 48 0x618 0 64 .ro 0)).v
def Reg.FLOCK.OPC_SAT : Field := ((mkF 48 0x620 0 64 .ro 0)).v
def Reg.FLOCK.OPC_LAYER : Field := ((mkF 48 0x628 0 16 .ro 0)).v
def Reg.FLOCK.OPC_OPER : Field := ((mkF 48 0x628 16 16 .ro 0)).v
def Reg.FLOCK.MEM_CLASS : Field := (mkF 48 0xF40 0 1 .rw 0)
def Reg.FLOCK.MEM_CORE : Field := (mkF 48 0xF40 1 4 .rw 0)
def Reg.FLOCK.MEM_WORD : Field := (mkF 48 0xF40 5 16 .rw 0)
def Reg.FLOCK.MEM_DATA : Field := ((mkF 48 0xF48 0 64 .rw 0)).v
/-- Every field of the page. -/
def Reg.fieldsFLOCK : List Field :=
  [Reg.FLOCK.TREE_EVALS, Reg.FLOCK.TREE_BUBBLES, Reg.FLOCK.GATHER_DONE, Reg.FLOCK.GATHER_VOID, Reg.FLOCK.TREE_PARITY, Reg.FLOCK.TREE_WD,
   Reg.FLOCK.OUT_SAT, Reg.FLOCK.TREE_CMP, Reg.FLOCK.PIPE_D, Reg.FLOCK.TREE_WD_REQ, Reg.FLOCK.TREE_OFF, Reg.FLOCK.PART_CORE,
   Reg.FLOCK.PART_REG, Reg.FLOCK.PART_DATA, Reg.FLOCK.EXP_STREAM, Reg.FLOCK.BULK_STREAM, Reg.FLOCK.HELD_STALL, Reg.FLOCK.ISSUE_WAIT,
   Reg.FLOCK.ARRAY_PARITY, Reg.FLOCK.PROG_LATE, Reg.FLOCK.WS_FORM, Reg.FLOCK.ARRAY_WD, Reg.FLOCK.ARRAY_WD_REQ, Reg.FLOCK.ARRAY_OFF,
   Reg.FLOCK.ACC_CLASS, Reg.FLOCK.ACC_CORE, Reg.FLOCK.ACC_ARRAY, Reg.FLOCK.ACC_SET, Reg.FLOCK.ACC_ROW, Reg.FLOCK.ACC_COL,
   Reg.FLOCK.ACC_LO, Reg.FLOCK.ACC_HI, Reg.FLOCK.LEN_FAULT, Reg.FLOCK.STEP_FAULT, Reg.FLOCK.SPAN_FAULT, Reg.FLOCK.VALUE_FAULT,
   Reg.FLOCK.AF_KIND, Reg.FLOCK.AF_CLASS, Reg.FLOCK.AF_CORE, Reg.FLOCK.AF_ARRAY, Reg.FLOCK.AF_LANE, Reg.FLOCK.AF_CYCLE,
   Reg.FLOCK.AF_CODE, Reg.FLOCK.AF_TAG_SEEN, Reg.FLOCK.AF_TAG_EXP, Reg.FLOCK.AF_BEAT, Reg.FLOCK.STAT_RECORDS, Reg.FLOCK.INJ_KIND,
   Reg.FLOCK.INJ_CLASS, Reg.FLOCK.INJ_CORE, Reg.FLOCK.INJ_ARM, Reg.FLOCK.CNT_LANE, Reg.FLOCK.CNT_VALUE, Reg.FLOCK.EPI_SAT,
   Reg.FLOCK.PRO_SAT, Reg.FLOCK.NORM_FLAT, Reg.FLOCK.PRO_SPECIAL, Reg.FLOCK.DESC_BANK, Reg.FLOCK.DESC_BANK_B, Reg.FLOCK.PATCH_CLASS,
   Reg.FLOCK.PATCH_CORE, Reg.FLOCK.PATCH_AREA, Reg.FLOCK.PATCH_WORD, Reg.FLOCK.PATCH_DATA, Reg.FLOCK.PATCH_GO, Reg.FLOCK.SYNC_SEL,
   Reg.FLOCK.SYNC_VAL, Reg.FLOCK.SYNC_OVF, Reg.FLOCK.MISSED, Reg.FLOCK.MISS_EPOCH, Reg.FLOCK.SYNC_SET, Reg.FLOCK.SYNC_SET_GO,
   Reg.FLOCK.OPC_CLASS, Reg.FLOCK.OPC_CORE, Reg.FLOCK.OPC_CYCLES, Reg.FLOCK.OPC_ENTER, Reg.FLOCK.OPC_IDLE, Reg.FLOCK.OPC_SAT,
   Reg.FLOCK.OPC_LAYER, Reg.FLOCK.OPC_OPER, Reg.FLOCK.MEM_CLASS, Reg.FLOCK.MEM_CORE, Reg.FLOCK.MEM_WORD, Reg.FLOCK.MEM_DATA]

/-! Page VERD (R201). -/
def Reg.VERD.CTX_SEL : Field := (mkF 23 0x40 0 12 .rw 0)
def Reg.VERD.CODE_SEL : Field := (mkF 23 0x40 12 4 .rw 0)
def Reg.VERD.SLOT_SEL : Field := (mkF 23 0x40 16 1 .rw 0)
def Reg.VERD.ACT_READ : Field := ((mkF 23 0x44 0 32 .ro 0)).v
def Reg.VERD.SLOT_VER : Field := ((mkF 23 0x48 0 16 .ro 0)).v
def Reg.VERD.VDESC_READ : Field := (((mkF 23 0x80 0 32 .ro 0).arr 4 20)).v
def Reg.VERD.SAFE_PKTS : Field := (mkF 23 0x100 0 64 .ro 0)
def Reg.VERD.NONE_PKTS : Field := (mkF 23 0x108 0 64 .ro 0)
def Reg.VERD.VERDICT_PKTS : Field := (mkF 23 0x110 0 64 .ro 0)
def Reg.VERD.FV_WON : Field := (mkF 23 0x118 0 64 .ro 0)
def Reg.VERD.FV_STALE : Field := (mkF 23 0x120 0 64 .ro 0)
def Reg.VERD.TAP_DROP_RET : Field := (mkF 23 0x128 0 64 .ro 0)
def Reg.VERD.SETTLES : Field := (mkF 23 0x130 0 64 .ro 0)
def Reg.VERD.SUPERSEDED : Field := (mkF 23 0x138 0 32 .ro 0)
def Reg.VERD.CTX_FAULT_MAX : Field := (mkF 23 0x140 0 5 .rw 16)
def Reg.VERD.SAFE_QUEUE : Field := (mkF 23 0x144 0 3 .rw 0)
def Reg.VERD.TAP_LOCAL_DROP : Field := (mkF 23 0x148 0 32 .rw 0)
def Reg.VERD.COPY_LEN : Field := (mkF 23 0x14C 0 14 .rw 9216)
def Reg.VERD.RESTORE_CTX : Field := (mkF 23 0x150 0 12 .wo 0)
def Reg.VERD.LANE_PASS : Field := ((mkF 23 0x154 0 16 .ro 0)).v
def Reg.VERD.DEV_SAFE : Field := ((mkF 23 0x154 16 1 .ro 0)).v
def Reg.VERD.LAST_DOWN_CTX : Field := (mkF 23 0x158 0 12 .ro 0)
def Reg.VERD.LAST_DOWN_WHY : Field := (mkF 23 0x158 16 8 .ro 0)
def Reg.VERD.SES_PORT : Field := ((mkF 23 0x180 0 5 .rw 0).arr 8 15 1)
def Reg.VERD.SES_EN : Field := ((mkF 23 0x180 5 1 .rw 0).arr 8 15 1)
def Reg.VERD.SES_TRUNC : Field := ((mkF 23 0x180 8 6 .rw 0).arr 8 15 1)
def Reg.VERD.CTX_DOWN : Field := (((mkF 23 0x400 0 32 .ro 0).arr 4 128)).v
def Reg.VERD.LANE_PASS_SET : Field := (mkF 23 0x800 0 16 .rw 0).x
def Reg.VERD.FORCE_SAFE : Field := (mkF 23 0x804 0 1 .wo 0).x
def Reg.VERD.PATCH_CTX : Field := (mkF 23 0x808 0 12 .rw 0).x
def Reg.VERD.PATCH_CODE : Field := (mkF 23 0x808 12 4 .rw 0).x
def Reg.VERD.PATCH_SLOT : Field := (mkF 23 0x808 16 1 .rw 0).x
def Reg.VERD.PATCH_DATA : Field := (mkF 23 0x80C 0 32 .rw 0).x
def Reg.VERD.PATCH_GO : Field := (mkF 23 0x810 0 1 .wo 0).x
/-- Every field of the page. -/
def Reg.fieldsVERD : List Field :=
  [Reg.VERD.CTX_SEL, Reg.VERD.CODE_SEL, Reg.VERD.SLOT_SEL, Reg.VERD.ACT_READ, Reg.VERD.SLOT_VER, Reg.VERD.VDESC_READ,
   Reg.VERD.SAFE_PKTS, Reg.VERD.NONE_PKTS, Reg.VERD.VERDICT_PKTS, Reg.VERD.FV_WON, Reg.VERD.FV_STALE, Reg.VERD.TAP_DROP_RET,
   Reg.VERD.SETTLES, Reg.VERD.SUPERSEDED, Reg.VERD.CTX_FAULT_MAX, Reg.VERD.SAFE_QUEUE, Reg.VERD.TAP_LOCAL_DROP, Reg.VERD.COPY_LEN,
   Reg.VERD.RESTORE_CTX, Reg.VERD.LANE_PASS, Reg.VERD.DEV_SAFE, Reg.VERD.LAST_DOWN_CTX, Reg.VERD.LAST_DOWN_WHY, Reg.VERD.SES_PORT,
   Reg.VERD.SES_EN, Reg.VERD.SES_TRUNC, Reg.VERD.CTX_DOWN, Reg.VERD.LANE_PASS_SET, Reg.VERD.FORCE_SAFE, Reg.VERD.PATCH_CTX,
   Reg.VERD.PATCH_CODE, Reg.VERD.PATCH_SLOT, Reg.VERD.PATCH_DATA, Reg.VERD.PATCH_GO]

/-! Page CTX (R218). -/
def Reg.CTX.CTX_SEL : Field := (mkF 35 0x40 0 12 .rw 0)
def Reg.CTX.CMD : Field := (mkF 35 0x44 0 3 .wo 0)
def Reg.CTX.HERD : Field := (mkF 35 0x44 3 1 .wo 0)
def Reg.CTX.BUSY : Field := ((mkF 35 0x48 0 1 .ro 0)).v
def Reg.CTX.RESULT : Field := (mkF 35 0x48 4 2 .ro 0)
def Reg.CTX.IMG_ADDR : Field := (mkF 35 0x50 0 64 .rw 0)
def Reg.CTX.IMG_LEN : Field := (mkF 35 0x58 0 32 .rw 0)
def Reg.CTX.NEW_VER : Field := (mkF 35 0x5C 0 16 .rw 0)
def Reg.CTX.COMMIT_BEAT : Field := (mkF 35 0x60 0 64 .rw 0)
def Reg.CTX.STATE : Field := ((mkF 35 0x68 0 3 .ro 0)).v
def Reg.CTX.ACTIVE_SLOT : Field := ((mkF 35 0x68 3 1 .ro 0)).v
def Reg.CTX.KIND : Field := ((mkF 35 0x68 4 4 .ro 0)).v
def Reg.CTX.REFUSE : Field := ((mkF 35 0x68 8 8 .ro 0)).v
def Reg.CTX.REFUSE_SECT : Field := ((mkF 35 0x68 16 16 .ro 0)).v
def Reg.CTX.REFUSE_OFF : Field := ((mkF 35 0x6C 0 32 .ro 0)).v
def Reg.CTX.VER0 : Field := ((mkF 35 0x70 0 16 .ro 0)).v
def Reg.CTX.VER1 : Field := ((mkF 35 0x70 16 16 .ro 0)).v
def Reg.CTX.LAYOUT_STATE : Field := ((mkF 35 0x74 0 3 .ro 0)).v
def Reg.CTX.OCC_FLOW : Field := ((mkF 35 0x78 0 32 .ro 0)).v
def Reg.CTX.OCC_S0 : Field := (((mkF 35 0x80 0 16 .ro 0).arr 4 16)).v
def Reg.CTX.OCC_S1 : Field := (((mkF 35 0x80 16 16 .ro 0).arr 4 16)).v
def Reg.CTX.LOADS : Field := (mkF 35 0xC0 0 64 .ro 0)
def Reg.CTX.REFUSALS : Field := (mkF 35 0xC8 0 64 .ro 0)
def Reg.CTX.COMMITS : Field := (mkF 35 0xD0 0 64 .ro 0)
def Reg.CTX.PROTECT_VIOL : Field := (mkF 35 0xD8 0 32 .ro 0)
def Reg.CTX.CRC_LOST : Field := (mkF 35 0xDC 0 32 .ro 0)
def Reg.CTX.IMG_USED : Field := ((mkF 35 0xE0 0 64 .ro 0)).v
def Reg.CTX.FLOW_DRAIN : Field := (mkF 35 0xE8 0 16 .rw 1024)
def Reg.CTX.LAYOUT_ACTIVE : Field := ((mkF 35 0xEC 0 32 .ro 0)).v
def Reg.CTX.LAYOUT_STAGED : Field := ((mkF 35 0xF0 0 32 .ro 0)).v
def Reg.CTX.SHADOW_SKIP : Field := (mkF 35 0xF8 0 64 .ro 0)
def Reg.CTX.NOT_EMPTY : Field := (((mkF 35 0x100 0 32 .ro 0).arr 4 128)).v
def Reg.CTX.FORCE_RETIRE : Field := (mkF 35 0x800 0 1 .wo 0).x
def Reg.CTX.NO_PROTECT : Field := (mkF 35 0x804 0 1 .rw 0).x
def Reg.CTX.SKIP_BEAT_CHECK : Field := (mkF 35 0x808 0 1 .rw 0).x
/-- Every field of the page. -/
def Reg.fieldsCTX : List Field :=
  [Reg.CTX.CTX_SEL, Reg.CTX.CMD, Reg.CTX.HERD, Reg.CTX.BUSY, Reg.CTX.RESULT, Reg.CTX.IMG_ADDR,
   Reg.CTX.IMG_LEN, Reg.CTX.NEW_VER, Reg.CTX.COMMIT_BEAT, Reg.CTX.STATE, Reg.CTX.ACTIVE_SLOT, Reg.CTX.KIND,
   Reg.CTX.REFUSE, Reg.CTX.REFUSE_SECT, Reg.CTX.REFUSE_OFF, Reg.CTX.VER0, Reg.CTX.VER1, Reg.CTX.LAYOUT_STATE,
   Reg.CTX.OCC_FLOW, Reg.CTX.OCC_S0, Reg.CTX.OCC_S1, Reg.CTX.LOADS, Reg.CTX.REFUSALS, Reg.CTX.COMMITS,
   Reg.CTX.PROTECT_VIOL, Reg.CTX.CRC_LOST, Reg.CTX.IMG_USED, Reg.CTX.FLOW_DRAIN, Reg.CTX.LAYOUT_ACTIVE, Reg.CTX.LAYOUT_STAGED,
   Reg.CTX.SHADOW_SKIP, Reg.CTX.NOT_EMPTY, Reg.CTX.FORCE_RETIRE, Reg.CTX.NO_PROTECT, Reg.CTX.SKIP_BEAT_CHECK]

/-! Page TIME (R252). -/
def Reg.TIME.BEAT : Field := ((mkF 6 0x40 0 64 .ro 0)).v
def Reg.TIME.CYCLE : Field := (mkF 6 0x48 0 9 .ro 0)
def Reg.TIME.ORIGIN_SEC : Field := (mkF 6 0x50 0 48 .rw 0)
def Reg.TIME.SET_SEC : Field := (mkF 6 0x58 0 48 .rw 0)
def Reg.TIME.SET_NS : Field := (mkF 6 0x60 0 30 .rw 0)
def Reg.TIME.SET_GO : Field := (mkF 6 0x64 0 1 .wo 0)
def Reg.TIME.FREQ_ADJ : Field := (mkF 6 0x68 0 32 .rw 0)
def Reg.TIME.PHASE_ADJ : Field := (mkF 6 0x6C 0 32 .wo 0)
def Reg.TIME.PHASE_LEFT : Field := ((mkF 6 0x70 0 32 .ro 0)).v
def Reg.TIME.PPS_IN_T : Field := (mkF 6 0x78 0 64 .ro 0)
def Reg.TIME.PPS_IN_CNT : Field := (mkF 6 0x80 0 32 .ro 0)
def Reg.TIME.PPS_OUT_EN : Field := (mkF 6 0x84 0 1 .rw 0)
def Reg.TIME.ADJ_IGNORED : Field := (mkF 6 0x88 0 32 .ro 0)
def Reg.TIME.PC_MISSED : Field := (mkF 6 0x8C 0 32 .ro 0)
def Reg.TIME.PPS_OUT_OFS : Field := (mkF 6 0x800 0 16 .rw 0).x
def Reg.TIME.STEER_LIMIT : Field := (mkF 6 0x804 0 20 .rw 100000).x
/-- Every field of the page. -/
def Reg.fieldsTIME : List Field :=
  [Reg.TIME.BEAT, Reg.TIME.CYCLE, Reg.TIME.ORIGIN_SEC, Reg.TIME.SET_SEC, Reg.TIME.SET_NS, Reg.TIME.SET_GO,
   Reg.TIME.FREQ_ADJ, Reg.TIME.PHASE_ADJ, Reg.TIME.PHASE_LEFT, Reg.TIME.PPS_IN_T, Reg.TIME.PPS_IN_CNT, Reg.TIME.PPS_OUT_EN,
   Reg.TIME.ADJ_IGNORED, Reg.TIME.PC_MISSED, Reg.TIME.PPS_OUT_OFS, Reg.TIME.STEER_LIMIT]

/-! Page HERD (R253). -/
def Reg.HERD.STATE : Field := (mkF 34 0x40 0 2 .ro 0)
def Reg.HERD.BELLWETHER : Field := (mkF 34 0x40 2 1 .ro 0)
def Reg.HERD.ELECTING : Field := (mkF 34 0x40 3 1 .ro 0)
def Reg.HERD.MEMBER_ID : Field := ((mkF 34 0x44 0 15 .ro 0)).v
def Reg.HERD.COORD_X : Field := (mkF 34 0x48 0 5 .rw 0)
def Reg.HERD.COORD_Y : Field := (mkF 34 0x48 8 5 .rw 0)
def Reg.HERD.COORD_Z : Field := (mkF 34 0x48 16 5 .rw 0)
def Reg.HERD.NX : Field := (mkF 34 0x4C 0 6 .rw 1)
def Reg.HERD.NY : Field := (mkF 34 0x4C 8 6 .rw 1)
def Reg.HERD.NZ : Field := (mkF 34 0x4C 16 5 .rw 1)
def Reg.HERD.EXPECTED : Field := (mkF 34 0x50 0 15 .rw 1)
def Reg.HERD.BW_PRIO : Field := (mkF 34 0x54 0 8 .rw 0)
def Reg.HERD.JOIN : Field := (mkF 34 0x58 0 1 .rw 0)
def Reg.HERD.LEAVE : Field := (mkF 34 0x58 1 1 .wo 0)
def Reg.HERD.JOIN_RESULT : Field := (mkF 34 0x5C 0 4 .ro 0)
def Reg.HERD.JOIN_DIFF : Field := (mkF 34 0x60 0 12 .ro 0)
def Reg.HERD.RULES : Field := (mkF 34 0x60 12 1 .ro 0)
def Reg.HERD.PHASE_ERR : Field := (mkF 34 0x64 0 16 .ro 0)
def Reg.HERD.BW_ID : Field := (mkF 34 0x68 0 15 .ro 0)
def Reg.HERD.BW_HOPS : Field := (mkF 34 0x68 16 7 .ro 0)
def Reg.HERD.MEMBERS : Field := (mkF 34 0x6C 0 15 .ro 1)
def Reg.HERD.ADMIT_BEAT : Field := (mkF 34 0x70 0 64 .ro 0)
def Reg.HERD.CMT_RESULT : Field := (mkF 34 0x80 0 3 .ro 0)
def Reg.HERD.CMT_SEQ : Field := (mkF 34 0x84 0 32 .ro 0)
def Reg.HERD.CMT_BEAT : Field := (mkF 34 0x88 0 64 .ro 0)
def Reg.HERD.CMT_NACKS : Field := (mkF 34 0x90 0 15 .ro 0)
def Reg.HERD.STOP_BEAT : Field := (mkF 34 0xA0 0 64 .rw 0)
def Reg.HERD.STOP : Field := (mkF 34 0xA8 0 1 .wo 0)
def Reg.HERD.RESUME : Field := (mkF 34 0xA8 1 1 .wo 0)
def Reg.HERD.STOP_STATE : Field := (mkF 34 0xAC 0 2 .ro 0)
def Reg.HERD.STOP_REFUSE : Field := (mkF 34 0xAC 4 4 .ro 0)
def Reg.HERD.RESUME_BEAT : Field := (mkF 34 0xB0 0 64 .rw 0)
def Reg.HERD.WIN_BASE : Field := ((mkF 34 0x100 0 64 .rw 0).arr 16 16)
def Reg.HERD.WIN_SIZE : Field := ((mkF 34 0x108 0 32 .rw 0).arr 16 16)
def Reg.HERD.WIN_REGION : Field := ((mkF 34 0x10C 0 3 .rw 0).arr 16 16)
def Reg.HERD.WIN_ACCESS : Field := ((mkF 34 0x10C 3 2 .rw 0).arr 16 16)
def Reg.HERD.APT_MEMBER : Field := ((mkF 34 0x200 0 15 .rw 0).arr 8 16)
def Reg.HERD.APT_WIN : Field := ((mkF 34 0x200 16 4 .rw 0).arr 8 16)
def Reg.HERD.APT_HMAX : Field := ((mkF 34 0x200 20 6 .rw 0).arr 8 16)
def Reg.HERD.APT_OOR : Field := ((mkF 34 0x200 31 1 .ro 0).arr 8 16)
def Reg.HERD.HOME_SIDE : Field := (mkF 34 0x280 0 4 .rw 0)
def Reg.HERD.HOME_LOG2 : Field := (mkF 34 0x280 8 5 .rw 16)
def Reg.HERD.HOME_CFG_ERR : Field := (mkF 34 0x280 16 1 .ro 0)
def Reg.HERD.HOME_BASE : Field := (mkF 34 0x288 0 64 .rw 0)
def Reg.HERD.RED_OP : Field := ((mkF 34 0x300 0 2 .rw 0).arr 32 4)
def Reg.HERD.RED_EN : Field := ((mkF 34 0x300 2 1 .rw 0).arr 32 4)
def Reg.HERD.RED_LEN_M1 : Field := ((mkF 34 0x300 16 14 .rw 0).arr 32 4)
def Reg.HERD.RED_SRC : Field := ((mkF 34 0x308 0 64 .rw 0).arr 32 4)
def Reg.HERD.RED_DST : Field := ((mkF 34 0x310 0 64 .rw 0).arr 32 4)
def Reg.HERD.RED_DONE : Field := (mkF 34 0x380 0 64 .ro 0)
def Reg.HERD.RED_VOID : Field := (mkF 34 0x388 0 32 .ro 0)
def Reg.HERD.APT_VOID : Field := (mkF 34 0x38C 0 32 .ro 0)
def Reg.HERD.WIN_REFUSED : Field := (mkF 34 0x390 0 32 .ro 0)
def Reg.HERD.HOME_LOST : Field := (mkF 34 0x394 0 32 .ro 0)
def Reg.HERD.ELECTIONS : Field := (mkF 34 0x398 0 32 .ro 0)
def Reg.HERD.LOCAL_REFUSED : Field := (mkF 34 0x39C 0 32 .ro 0)
def Reg.HERD.NO_QUORUM : Field := (mkF 34 0x800 0 1 .rw 0).x
def Reg.HERD.DETECT_BEATS : Field := (mkF 34 0x804 0 10 .rw 64).x
/-- Every field of the page. -/
def Reg.fieldsHERD : List Field :=
  [Reg.HERD.STATE, Reg.HERD.BELLWETHER, Reg.HERD.ELECTING, Reg.HERD.MEMBER_ID, Reg.HERD.COORD_X, Reg.HERD.COORD_Y,
   Reg.HERD.COORD_Z, Reg.HERD.NX, Reg.HERD.NY, Reg.HERD.NZ, Reg.HERD.EXPECTED, Reg.HERD.BW_PRIO,
   Reg.HERD.JOIN, Reg.HERD.LEAVE, Reg.HERD.JOIN_RESULT, Reg.HERD.JOIN_DIFF, Reg.HERD.RULES, Reg.HERD.PHASE_ERR,
   Reg.HERD.BW_ID, Reg.HERD.BW_HOPS, Reg.HERD.MEMBERS, Reg.HERD.ADMIT_BEAT, Reg.HERD.CMT_RESULT, Reg.HERD.CMT_SEQ,
   Reg.HERD.CMT_BEAT, Reg.HERD.CMT_NACKS, Reg.HERD.STOP_BEAT, Reg.HERD.STOP, Reg.HERD.RESUME, Reg.HERD.STOP_STATE,
   Reg.HERD.STOP_REFUSE, Reg.HERD.RESUME_BEAT, Reg.HERD.WIN_BASE, Reg.HERD.WIN_SIZE, Reg.HERD.WIN_REGION, Reg.HERD.WIN_ACCESS,
   Reg.HERD.APT_MEMBER, Reg.HERD.APT_WIN, Reg.HERD.APT_HMAX, Reg.HERD.APT_OOR, Reg.HERD.HOME_SIDE, Reg.HERD.HOME_LOG2,
   Reg.HERD.HOME_CFG_ERR, Reg.HERD.HOME_BASE, Reg.HERD.RED_OP, Reg.HERD.RED_EN, Reg.HERD.RED_LEN_M1, Reg.HERD.RED_SRC,
   Reg.HERD.RED_DST, Reg.HERD.RED_DONE, Reg.HERD.RED_VOID, Reg.HERD.APT_VOID, Reg.HERD.WIN_REFUSED, Reg.HERD.HOME_LOST,
   Reg.HERD.ELECTIONS, Reg.HERD.LOCAL_REFUSED, Reg.HERD.NO_QUORUM, Reg.HERD.DETECT_BEATS]

/-! Page HLINK (R254). -/
def Reg.HLINK.LINK_STATE : Field := (mkF 33 0x40 0 3 .ro 0)
def Reg.HLINK.PEER_ID : Field := (mkF 33 0x44 0 15 .ro 0)
def Reg.HLINK.PEER_PORT : Field := (mkF 33 0x44 16 4 .ro 0)
def Reg.HLINK.ENABLE : Field := (mkF 33 0x48 0 1 .rw 1)
def Reg.HLINK.LINK_DELAY : Field := (mkF 33 0x4C 0 16 .ro 0)
def Reg.HLINK.FLITS_TX : Field := (mkF 33 0x50 0 64 .ro 0)
def Reg.HLINK.FLITS_RX : Field := (mkF 33 0x58 0 64 .ro 0)
def Reg.HLINK.CORRECTED : Field := (mkF 33 0x60 0 64 .ro 0)
def Reg.HLINK.FLIT_LOST : Field := (mkF 33 0x68 0 32 .ro 0)
def Reg.HLINK.MISSED : Field := (mkF 33 0x6C 0 32 .ro 0)
def Reg.HLINK.MARK_MISS : Field := (mkF 33 0x70 0 32 .ro 0)
def Reg.HLINK.CAP_USED : Field := ((mkF 33 0x80 0 18 .ro 0)).v
def Reg.HLINK.CAP_LOST : Field := (mkF 33 0x84 0 32 .ro 0)
def Reg.HLINK.RES_VC0 : Field := (mkF 33 0x800 0 8 .rw 16).x
def Reg.HLINK.RES_VC1 : Field := (mkF 33 0x800 8 8 .rw 128).x
def Reg.HLINK.CAP_ADDR : Field := (mkF 33 0xF00 0 13 .rw 0)
def Reg.HLINK.CAP_DATA : Field := (((mkF 33 0xF08 0 64 .ro 0).arr 8 2)).v
/-- Every field of the page. -/
def Reg.fieldsHLINK : List Field :=
  [Reg.HLINK.LINK_STATE, Reg.HLINK.PEER_ID, Reg.HLINK.PEER_PORT, Reg.HLINK.ENABLE, Reg.HLINK.LINK_DELAY, Reg.HLINK.FLITS_TX,
   Reg.HLINK.FLITS_RX, Reg.HLINK.CORRECTED, Reg.HLINK.FLIT_LOST, Reg.HLINK.MISSED, Reg.HLINK.MARK_MISS, Reg.HLINK.CAP_USED,
   Reg.HLINK.CAP_LOST, Reg.HLINK.RES_VC0, Reg.HLINK.RES_VC1, Reg.HLINK.CAP_ADDR, Reg.HLINK.CAP_DATA]

/-! Page SHAPE (R275). -/
def Reg.SHAPE.PORT_SEL : Field := (mkF 24 0x40 0 5 .rw 0)
def Reg.SHAPE.Q_SEL : Field := (mkF 24 0x40 8 3 .rw 0)
def Reg.SHAPE.SP : Field := ((mkF 24 0x44 0 1 .rw 0)).by .portQueue
def Reg.SHAPE.QUANTUM : Field := ((mkF 24 0x44 1 10 .rw 145)).by .portQueue
def Reg.SHAPE.QMAX : Field := ((mkF 24 0x44 12 20 .rw 65536)).by .portQueue
def Reg.SHAPE.Q_RATE : Field := ((mkF 24 0x48 0 32 .rw 0)).by .portQueue
def Reg.SHAPE.Q_BURST : Field := ((mkF 24 0x4C 0 24 .rw 16384)).by .portQueue
def Reg.SHAPE.P_RATE : Field := ((mkF 24 0x50 0 32 .rw 0)).by .port
def Reg.SHAPE.P_BURST : Field := ((mkF 24 0x54 0 24 .rw 16384)).by .port
def Reg.SHAPE.PMAX : Field := ((mkF 24 0x58 0 20 .rw 131072)).by .port
def Reg.SHAPE.OVH : Field := ((mkF 24 0x58 24 5 .rw 20)).by .port
def Reg.SHAPE.MIR_SEL : Field := (mkF 24 0x5C 0 4 .rw 0)
def Reg.SHAPE.MIR_Q : Field := ((mkF 24 0x5C 8 3 .rw 0)).by .mirror
def Reg.SHAPE.Q_TX : Field := ((mkF 24 0x80 0 64 .ro 0)).by .portQueue
def Reg.SHAPE.Q_TX_BYTES : Field := ((mkF 24 0x88 0 64 .ro 0)).by .portQueue
def Reg.SHAPE.Q_DROP : Field := ((mkF 24 0x90 0 64 .ro 0)).by .portQueue
def Reg.SHAPE.Q_FLUSH : Field := ((mkF 24 0x98 0 64 .ro 0)).by .portQueue
def Reg.SHAPE.Q_CELLS : Field := (((mkF 24 0xA0 0 20 .ro 0)).by .portQueue).v
def Reg.SHAPE.Q_TOKENS : Field := (((mkF 24 0xA4 0 32 .ro 0)).by .portQueue).v
def Reg.SHAPE.PAUSED : Field := (((mkF 24 0xA8 0 8 .ro 0)).by .port).v
def Reg.SHAPE.PAUSE_IGNORE : Field := (mkF 24 0x800 0 32 .rw 0).x
def Reg.SHAPE.Q_TOKENS_SET : Field := ((mkF 24 0x804 0 32 .wo 0).x).by .portQueue
/-- Every field of the page. -/
def Reg.fieldsSHAPE : List Field :=
  [Reg.SHAPE.PORT_SEL, Reg.SHAPE.Q_SEL, Reg.SHAPE.SP, Reg.SHAPE.QUANTUM, Reg.SHAPE.QMAX, Reg.SHAPE.Q_RATE,
   Reg.SHAPE.Q_BURST, Reg.SHAPE.P_RATE, Reg.SHAPE.P_BURST, Reg.SHAPE.PMAX, Reg.SHAPE.OVH, Reg.SHAPE.MIR_SEL,
   Reg.SHAPE.MIR_Q, Reg.SHAPE.Q_TX, Reg.SHAPE.Q_TX_BYTES, Reg.SHAPE.Q_DROP, Reg.SHAPE.Q_FLUSH, Reg.SHAPE.Q_CELLS,
   Reg.SHAPE.Q_TOKENS, Reg.SHAPE.PAUSED, Reg.SHAPE.PAUSE_IGNORE, Reg.SHAPE.Q_TOKENS_SET]

/-! Page POLICE (R276). -/
def Reg.POLICE.POL_SEL : Field := (mkF 25 0x40 0 14 .rw 0)
def Reg.POLICE.EN : Field := ((mkF 25 0x44 0 1 .rw 0)).by .policer
def Reg.POLICE.MODE : Field := ((mkF 25 0x44 1 1 .rw 0)).by .policer
def Reg.POLICE.CSRC : Field := ((mkF 25 0x44 2 2 .rw 0)).by .policer
def Reg.POLICE.RED_DROP : Field := ((mkF 25 0x44 4 1 .rw 1)).by .policer
def Reg.POLICE.YQ_EN : Field := ((mkF 25 0x44 5 1 .rw 0)).by .policer
def Reg.POLICE.YQ : Field := ((mkF 25 0x44 6 3 .rw 0)).by .policer
def Reg.POLICE.CIR : Field := ((mkF 25 0x48 0 32 .rw 0)).by .policer
def Reg.POLICE.CBS : Field := ((mkF 25 0x4C 0 32 .rw 9216)).by .policer
def Reg.POLICE.PIR_EIR : Field := ((mkF 25 0x50 0 32 .rw 0)).by .policer
def Reg.POLICE.PBS_EBS : Field := ((mkF 25 0x54 0 32 .rw 9216)).by .policer
def Reg.POLICE.TC : Field := (((mkF 25 0x58 0 64 .ro 0)).by .policer).v
def Reg.POLICE.TP_TE : Field := (((mkF 25 0x60 0 64 .ro 0)).by .policer).v
def Reg.POLICE.GREEN : Field := ((mkF 25 0x68 0 64 .ro 0)).by .policer
def Reg.POLICE.YELLOW : Field := ((mkF 25 0x70 0 64 .ro 0)).by .policer
def Reg.POLICE.RED : Field := ((mkF 25 0x78 0 64 .ro 0)).by .policer
def Reg.POLICE.DSCP_COLOUR : Field := ((mkF 25 0x100 0 32 .rw 0).arr 4 4)
def Reg.POLICE.COPY_RATE : Field := ((mkF 25 0x200 0 32 .rw 0).arr 8 3 1)
def Reg.POLICE.COPY_BURST : Field := ((mkF 25 0x204 0 24 .rw 65536).arr 8 3 1)
def Reg.POLICE.MIR_RATE : Field := ((mkF 25 0x220 0 32 .rw 0).arr 8 15 1)
def Reg.POLICE.MIR_BURST : Field := ((mkF 25 0x224 0 24 .rw 65536).arr 8 15 1)
def Reg.POLICE.COPY_DENY : Field := ((mkF 25 0x300 0 64 .ro 0).arr 8 3 1)
def Reg.POLICE.MIRROR_DENY : Field := ((mkF 25 0x340 0 64 .ro 0).arr 8 15 1)
def Reg.POLICE.TOK_SEL : Field := (mkF 25 0x800 0 1 .rw 0).x
def Reg.POLICE.TOK_VAL : Field := (mkF 25 0x808 0 64 .rw 0).x
def Reg.POLICE.TOK_GO : Field := (mkF 25 0x810 0 1 .wo 0).x
/-- Every field of the page. -/
def Reg.fieldsPOLICE : List Field :=
  [Reg.POLICE.POL_SEL, Reg.POLICE.EN, Reg.POLICE.MODE, Reg.POLICE.CSRC, Reg.POLICE.RED_DROP, Reg.POLICE.YQ_EN,
   Reg.POLICE.YQ, Reg.POLICE.CIR, Reg.POLICE.CBS, Reg.POLICE.PIR_EIR, Reg.POLICE.PBS_EBS, Reg.POLICE.TC,
   Reg.POLICE.TP_TE, Reg.POLICE.GREEN, Reg.POLICE.YELLOW, Reg.POLICE.RED, Reg.POLICE.DSCP_COLOUR, Reg.POLICE.COPY_RATE,
   Reg.POLICE.COPY_BURST, Reg.POLICE.MIR_RATE, Reg.POLICE.MIR_BURST, Reg.POLICE.COPY_DENY, Reg.POLICE.MIRROR_DENY, Reg.POLICE.TOK_SEL,
   Reg.POLICE.TOK_VAL, Reg.POLICE.TOK_GO]

/-! Page HQ (R277). -/
def Reg.HQ.INJ_BASE : Field := (mkF 26 0x40 0 64 .rw 0)
def Reg.HQ.INJ_LOG2 : Field := (mkF 26 0x48 0 5 .rw 4)
def Reg.HQ.INJ_LOC : Field := (mkF 26 0x48 8 1 .rw 0)
def Reg.HQ.INJ_EN : Field := (mkF 26 0x48 9 1 .rw 0)
def Reg.HQ.INJ_PER_BEAT : Field := (mkF 26 0x48 12 4 .rw 2)
def Reg.HQ.INJ_PROD : Field := (mkF 26 0x50 0 64 .rw 0)
def Reg.HQ.INJ_CONS : Field := (mkF 26 0x58 0 64 .ro 0)
def Reg.HQ.INJ_REFUSED : Field := (mkF 26 0x60 0 32 .ro 0)
def Reg.HQ.INJ_OVERRUN : Field := (mkF 26 0x64 0 32 .ro 0)
def Reg.HQ.MIR_HOST : Field := (mkF 26 0x80 1 15 .rw 0)
def Reg.HQ.RING_BASE : Field := ((mkF 26 0x100 0 64 .rw 0).arr 64 8)
def Reg.HQ.TAG_BASE : Field := ((mkF 26 0x108 0 64 .rw 0).arr 64 8)
def Reg.HQ.LOG2_SLOTS : Field := ((mkF 26 0x110 0 5 .rw 4).arr 64 8)
def Reg.HQ.LOC : Field := ((mkF 26 0x110 8 1 .rw 0).arr 64 8)
def Reg.HQ.EN : Field := ((mkF 26 0x110 9 1 .rw 0).arr 64 8)
def Reg.HQ.VECTOR : Field := ((mkF 26 0x110 16 11 .rw 0).arr 64 8)
def Reg.HQ.IRQ_EN : Field := ((mkF 26 0x110 27 1 .rw 0).arr 64 8)
def Reg.HQ.IRQ_BEATS : Field := ((mkF 26 0x114 0 16 .rw 1024).arr 64 8)
def Reg.HQ.PROD : Field := ((mkF 26 0x118 0 64 .ro 0).arr 64 8)
def Reg.HQ.CONS : Field := ((mkF 26 0x120 0 64 .rw 0).arr 64 8)
def Reg.HQ.LOST : Field := ((mkF 26 0x128 0 64 .ro 0).arr 64 8)
def Reg.HQ.NEXT : Field := (((mkF 26 0x130 0 64 .ro 0).arr 64 8)).v
def Reg.HQ.SLOT_BYTES : Field := { ((mkF 26 0x138 0 14 .ro 0).arr 64 8) with rsts := [9280, 9280, 32, 128, 64, 128, 128, 64] }
def Reg.HQ.DROP_NEW : Field := (mkF 26 0x800 0 8 .rw 0).x
/-- Every field of the page. -/
def Reg.fieldsHQ : List Field :=
  [Reg.HQ.INJ_BASE, Reg.HQ.INJ_LOG2, Reg.HQ.INJ_LOC, Reg.HQ.INJ_EN, Reg.HQ.INJ_PER_BEAT, Reg.HQ.INJ_PROD,
   Reg.HQ.INJ_CONS, Reg.HQ.INJ_REFUSED, Reg.HQ.INJ_OVERRUN, Reg.HQ.MIR_HOST, Reg.HQ.RING_BASE, Reg.HQ.TAG_BASE,
   Reg.HQ.LOG2_SLOTS, Reg.HQ.LOC, Reg.HQ.EN, Reg.HQ.VECTOR, Reg.HQ.IRQ_EN, Reg.HQ.IRQ_BEATS,
   Reg.HQ.PROD, Reg.HQ.CONS, Reg.HQ.LOST, Reg.HQ.NEXT, Reg.HQ.SLOT_BYTES, Reg.HQ.DROP_NEW]

/-! Page CXL (R293). -/
def Reg.CXL.LINK_UP : Field := (mkF 5 0x40 0 1 .ro 0)
def Reg.CXL.CXL_MODE : Field := (mkF 5 0x40 1 1 .ro 0)
def Reg.CXL.WIDTH : Field := (mkF 5 0x40 2 5 .ro 0)
def Reg.CXL.SPEED : Field := (mkF 5 0x40 8 3 .ro 0)
def Reg.CXL.CACHE_EN : Field := (mkF 5 0x40 11 1 .ro 0)
def Reg.CXL.MEM_EN : Field := (mkF 5 0x40 12 1 .ro 0)
def Reg.CXL.HOST_LOSSES : Field := (mkF 5 0x44 0 32 .ro 0)
def Reg.CXL.LAST_LOSS_BEAT : Field := (mkF 5 0x48 0 64 .ro 0)
def Reg.CXL.LAST_RETURN_BEAT : Field := (mkF 5 0x50 0 64 .ro 0)
def Reg.CXL.WR_DISCARD : Field := (mkF 5 0x58 0 32 .ro 0)
def Reg.CXL.POISON_RD : Field := (mkF 5 0x5C 0 32 .ro 0)
def Reg.CXL.APT_ERR : Field := (mkF 5 0x60 0 32 .ro 0)
def Reg.CXL.IDE_FAIL : Field := (mkF 5 0x64 0 32 .ro 0)
def Reg.CXL.BAR2_BASE : Field := (mkF 5 0x68 0 64 .rw 0)
def Reg.CXL.REGION_GIB : Field := { ((mkF 5 0x100 0 10 .rw 0).arr 4 6) with rsts := [256, 128, 192, 128, 32, 32] }
def Reg.CXL.REGION_BASE_GIB : Field := ({ ((mkF 5 0x120 0 10 .ro 0).arr 4 6) with rsts := [0, 256, 384, 576, 704, 736] } : Field).v
def Reg.CXL.JOB_BASE : Field := (mkF 5 0x200 0 64 .rw 0)
def Reg.CXL.JOB_LOG2 : Field := (mkF 5 0x208 0 5 .rw 4)
def Reg.CXL.JOB_EN : Field := (mkF 5 0x208 8 1 .rw 0)
def Reg.CXL.JOB_VECTOR : Field := (mkF 5 0x20C 0 11 .rw 0)
def Reg.CXL.JOB_PROD : Field := (mkF 5 0x210 0 64 .rw 0)
def Reg.CXL.JOB_CONS : Field := (mkF 5 0x218 0 64 .ro 0)
def Reg.CXL.JOB_DONE : Field := (mkF 5 0x220 0 64 .ro 0)
def Reg.CXL.JOB_FAULTED : Field := (mkF 5 0x228 0 32 .ro 0)
def Reg.CXL.FORCE_PCIE : Field := (mkF 5 0x800 0 1 .rw 0).x
def Reg.CXL.NO_REGION_CHECK : Field := (mkF 5 0x800 1 1 .rw 0).x
/-- Every field of the page. -/
def Reg.fieldsCXL : List Field :=
  [Reg.CXL.LINK_UP, Reg.CXL.CXL_MODE, Reg.CXL.WIDTH, Reg.CXL.SPEED, Reg.CXL.CACHE_EN, Reg.CXL.MEM_EN,
   Reg.CXL.HOST_LOSSES, Reg.CXL.LAST_LOSS_BEAT, Reg.CXL.LAST_RETURN_BEAT, Reg.CXL.WR_DISCARD, Reg.CXL.POISON_RD, Reg.CXL.APT_ERR,
   Reg.CXL.IDE_FAIL, Reg.CXL.BAR2_BASE, Reg.CXL.REGION_GIB, Reg.CXL.REGION_BASE_GIB, Reg.CXL.JOB_BASE, Reg.CXL.JOB_LOG2,
   Reg.CXL.JOB_EN, Reg.CXL.JOB_VECTOR, Reg.CXL.JOB_PROD, Reg.CXL.JOB_CONS, Reg.CXL.JOB_DONE, Reg.CXL.JOB_FAULTED,
   Reg.CXL.FORCE_PCIE, Reg.CXL.NO_REGION_CHECK]

/-! Page LEDG (R316). -/
def Reg.LEDG.BREAKS : Field := (mkF 9 0x40 0 32 .ro 0)
def Reg.LEDG.BRK_SUBJ : Field := (mkF 9 0x44 0 4 .ro 0)
def Reg.LEDG.BRK_UNIT : Field := (mkF 9 0x44 8 12 .ro 0)
def Reg.LEDG.BREAK_DELTA : Field := (mkF 9 0x48 0 64 .ro 0)
def Reg.LEDG.DISPUTES : Field := (mkF 9 0x50 0 32 .ro 0)
def Reg.LEDG.ALERT_PEND : Field := (mkF 9 0x54 0 1 .w1c 0)
def Reg.LEDG.HOLD_UE : Field := (mkF 9 0x58 0 32 .ro 0)
def Reg.LEDG.RST_DISCARD : Field := (mkF 9 0x5C 0 32 .ro 0)
def Reg.LEDG.RETEST_KIND : Field := (mkF 9 0x60 0 3 .rw 0)
def Reg.LEDG.RETEST_UNIT : Field := (mkF 9 0x60 8 16 .rw 0)
def Reg.LEDG.RETEST_GO : Field := (mkF 9 0x64 0 1 .wo 0)
def Reg.LEDG.RETEST_STATE : Field := (mkF 9 0x68 0 2 .ro 0)
def Reg.LEDG.RETEST_REFUSED : Field := (mkF 9 0x68 2 1 .ro 0)
def Reg.LEDG.RST_KIND : Field := (mkF 9 0x70 0 2 .rw 0)
def Reg.LEDG.RST_UNIT : Field := (mkF 9 0x70 8 8 .rw 0)
def Reg.LEDG.RST_GO : Field := (mkF 9 0x74 0 1 .wo 0)
def Reg.LEDG.RST_STATE : Field := (mkF 9 0x78 0 2 .ro 0)
def Reg.LEDG.RST_REFUSED : Field := (mkF 9 0x78 2 1 .ro 0)
def Reg.LEDG.RESET_LOST : Field := (mkF 9 0x80 0 64 .ro 0)
def Reg.LEDG.LANE_LEDGER : Field := ((mkF 9 0x100 0 64 .ro 0).arr 8 128)
def Reg.LEDG.DEV_LEDGER : Field := ((mkF 9 0x500 0 64 .ro 0).arr 8 8)
def Reg.LEDG.FREE_CELLS : Field := (mkF 9 0x540 0 20 .ro 524288)
def Reg.LEDG.ALLOC_CELLS : Field := (mkF 9 0x540 32 20 .ro 0)
def Reg.LEDG.AV_YEAR : Field := (mkF 9 0x580 0 16 .ro 0)
def Reg.LEDG.AV_PKTS : Field := (mkF 9 0x588 0 64 .ro 0)
def Reg.LEDG.AV_FLOSS : Field := (mkF 9 0x590 0 64 .ro 0)
def Reg.LEDG.AV_VPKTS : Field := (mkF 9 0x598 0 64 .ro 0)
def Reg.LEDG.AV_VLOSS : Field := (mkF 9 0x5A0 0 64 .ro 0)
def Reg.LEDG.AV_PREV_YEAR : Field := (mkF 9 0x5C0 0 16 .ro 0)
def Reg.LEDG.AV_PREV : Field := ((mkF 9 0x5C8 0 64 .ro 0).arr 8 4)
def Reg.LEDG.NO_BREAK_ACT : Field := (mkF 9 0x800 0 1 .rw 0).x
def Reg.LEDG.BREAK_INJ : Field := (mkF 9 0x804 0 4 .wo 0).x
/-- Every field of the page. -/
def Reg.fieldsLEDG : List Field :=
  [Reg.LEDG.BREAKS, Reg.LEDG.BRK_SUBJ, Reg.LEDG.BRK_UNIT, Reg.LEDG.BREAK_DELTA, Reg.LEDG.DISPUTES, Reg.LEDG.ALERT_PEND,
   Reg.LEDG.HOLD_UE, Reg.LEDG.RST_DISCARD, Reg.LEDG.RETEST_KIND, Reg.LEDG.RETEST_UNIT, Reg.LEDG.RETEST_GO, Reg.LEDG.RETEST_STATE,
   Reg.LEDG.RETEST_REFUSED, Reg.LEDG.RST_KIND, Reg.LEDG.RST_UNIT, Reg.LEDG.RST_GO, Reg.LEDG.RST_STATE, Reg.LEDG.RST_REFUSED,
   Reg.LEDG.RESET_LOST, Reg.LEDG.LANE_LEDGER, Reg.LEDG.DEV_LEDGER, Reg.LEDG.FREE_CELLS, Reg.LEDG.ALLOC_CELLS, Reg.LEDG.AV_YEAR,
   Reg.LEDG.AV_PKTS, Reg.LEDG.AV_FLOSS, Reg.LEDG.AV_VPKTS, Reg.LEDG.AV_VLOSS, Reg.LEDG.AV_PREV_YEAR, Reg.LEDG.AV_PREV,
   Reg.LEDG.NO_BREAK_ACT, Reg.LEDG.BREAK_INJ]

/-! Page HBMC (R317). -/
def Reg.HBMC.CORRECTED : Field := (mkF 32 0x40 0 64 .ro 0)
def Reg.HBMC.UNCORRECTED : Field := (mkF 32 0x48 0 32 .ro 0)
def Reg.HBMC.LAST_UE_ADDR : Field := (mkF 32 0x50 0 64 .ro 0)
def Reg.HBMC.SCRUB_PASSES : Field := (mkF 32 0x58 0 32 .ro 0)
def Reg.HBMC.SCRUB_LOG2 : Field := (mkF 32 0x60 0 5 .rw 26)
def Reg.HBMC.MISSED : Field := (mkF 32 0x300 0 32 .ro 0)
def Reg.HBMC.ECC_INJ : Field := (mkF 32 0x800 0 1 .wo 0).x
/-- Every field of the page. -/
def Reg.fieldsHBMC : List Field :=
  [Reg.HBMC.CORRECTED, Reg.HBMC.UNCORRECTED, Reg.HBMC.LAST_UE_ADDR, Reg.HBMC.SCRUB_PASSES, Reg.HBMC.SCRUB_LOG2, Reg.HBMC.MISSED,
   Reg.HBMC.ECC_INJ]

/-! Page CAL (R332). -/
def Reg.CAL.CAL_SEL : Field := (mkF 7 0x40 0 16 .rw 0)
def Reg.CAL.CAL_VALUE : Field := ((mkF 7 0x44 0 32 .ro 0)).v
def Reg.CAL.CAL_MIN : Field := ((mkF 7 0x48 0 32 .ro 0)).v
def Reg.CAL.CAL_MAX : Field := ((mkF 7 0x4C 0 32 .ro 0)).v
def Reg.CAL.CAL_WRITES : Field := ((mkF 7 0x50 0 14 .ro 0)).v
def Reg.CAL.FACTORY : Field := ((mkF 7 0x50 15 1 .ro 0)).v
def Reg.CAL.CAL_NEW : Field := (mkF 7 0x54 0 32 .rw 0)
def Reg.CAL.CAL_WRITE : Field := (mkF 7 0x58 0 1 .wo 0)
def Reg.CAL.CAL_RESULT : Field := (mkF 7 0x5C 0 3 .ro 0)
def Reg.CAL.CAL_BUSY : Field := ((mkF 7 0x5C 3 1 .ro 0)).v
def Reg.CAL.ADAPT_STEPS : Field := (mkF 7 0x60 0 64 .ro 0)
def Reg.CAL.SHADOW_DROP : Field := (mkF 7 0x68 0 32 .ro 0)
def Reg.CAL.EYE_H : Field := ((mkF 7 0x100 0 8 .ro 0).arr 4 64)
def Reg.CAL.EYE_V : Field := ((mkF 7 0x100 8 8 .ro 0).arr 4 64)
def Reg.CAL.ADAPT_AT_LIMIT : Field := ((mkF 7 0x100 16 1 .ro 0).arr 4 64)
def Reg.CAL.HERD_EYE : Field := ((mkF 7 0x200 0 17 .ro 0).arr 4 96)
def Reg.CAL.CAL_FORCE : Field := (mkF 7 0x800 0 1 .wo 0).x
def Reg.CAL.ADAPT_FREEZE_E : Field := (mkF 7 0x808 0 64 .rw 0).x
def Reg.CAL.ADAPT_FREEZE_H0 : Field := (mkF 7 0x810 0 64 .rw 0).x
def Reg.CAL.ADAPT_FREEZE_H1 : Field := (mkF 7 0x818 0 32 .rw 0).x
/-- Every field of the page. -/
def Reg.fieldsCAL : List Field :=
  [Reg.CAL.CAL_SEL, Reg.CAL.CAL_VALUE, Reg.CAL.CAL_MIN, Reg.CAL.CAL_MAX, Reg.CAL.CAL_WRITES, Reg.CAL.FACTORY,
   Reg.CAL.CAL_NEW, Reg.CAL.CAL_WRITE, Reg.CAL.CAL_RESULT, Reg.CAL.CAL_BUSY, Reg.CAL.ADAPT_STEPS, Reg.CAL.SHADOW_DROP,
   Reg.CAL.EYE_H, Reg.CAL.EYE_V, Reg.CAL.ADAPT_AT_LIMIT, Reg.CAL.HERD_EYE, Reg.CAL.CAL_FORCE, Reg.CAL.ADAPT_FREEZE_E,
   Reg.CAL.ADAPT_FREEZE_H0, Reg.CAL.ADAPT_FREEZE_H1]

/-! Page AGE (R333). -/
def Reg.AGE.ISL_SEL : Field := (mkF 8 0x40 0 9 .rw 0)
def Reg.AGE.ISL_STATE : Field := ((mkF 8 0x44 0 3 .ro 0)).by .island
def Reg.AGE.VOLT_MV : Field := ((mkF 8 0x48 0 16 .ro 0)).by .island
def Reg.AGE.CLK_MHZ : Field := ((mkF 8 0x48 16 16 .ro 0)).by .island
def Reg.AGE.REQ_MHZ : Field := ((mkF 8 0x4C 0 16 .ro 0)).by .island
def Reg.AGE.CEIL_MHZ : Field := ((mkF 8 0x4C 16 16 .ro 0)).by .island
def Reg.AGE.SLACK_PS : Field := ((mkF 8 0x50 0 16 .ro 0)).by .island
def Reg.AGE.RO_COUNT : Field := ((mkF 8 0x50 16 16 .ro 0)).by .island
def Reg.AGE.TTL_DAYS : Field := ((mkF 8 0x54 0 16 .ro 65535)).by .island
def Reg.AGE.FC_SLOPE : Field := ((mkF 8 0x58 0 32 .ro 0)).by .island
def Reg.AGE.CLK_POLICY : Field := ((mkF 8 0x5C 0 1 .rw 0)).by .island
def Reg.AGE.ALERT_DAYS : Field := (mkF 8 0x60 0 9 .rw 90)
def Reg.AGE.ALERTS : Field := (mkF 8 0x64 0 32 .ro 0)
def Reg.AGE.LIMITS : Field := (mkF 8 0x68 0 32 .ro 0)
def Reg.AGE.READINGS : Field := (mkF 8 0x70 0 64 .ro 0)
def Reg.AGE.VSTEPS : Field := (mkF 8 0x78 0 64 .ro 0)
def Reg.AGE.ISL_ALERT : Field := (((mkF 8 0x80 0 32 .ro 0).arr 4 9)).v
def Reg.AGE.VOLT_OVR_MV : Field := ((mkF 8 0x800 0 16 .rw 0).x).by .island
def Reg.AGE.VOLT_OVR_EN : Field := ((mkF 8 0x800 16 1 .rw 0).x).by .island
def Reg.AGE.ALERT_DAYS_X : Field := (mkF 8 0x804 0 9 .rw 0).x
def Reg.AGE.PLANNER_HOLD : Field := (mkF 8 0x808 0 1 .rw 0).x
/-- Every field of the page. -/
def Reg.fieldsAGE : List Field :=
  [Reg.AGE.ISL_SEL, Reg.AGE.ISL_STATE, Reg.AGE.VOLT_MV, Reg.AGE.CLK_MHZ, Reg.AGE.REQ_MHZ, Reg.AGE.CEIL_MHZ,
   Reg.AGE.SLACK_PS, Reg.AGE.RO_COUNT, Reg.AGE.TTL_DAYS, Reg.AGE.FC_SLOPE, Reg.AGE.CLK_POLICY, Reg.AGE.ALERT_DAYS,
   Reg.AGE.ALERTS, Reg.AGE.LIMITS, Reg.AGE.READINGS, Reg.AGE.VSTEPS, Reg.AGE.ISL_ALERT, Reg.AGE.VOLT_OVR_MV,
   Reg.AGE.VOLT_OVR_EN, Reg.AGE.ALERT_DAYS_X, Reg.AGE.PLANNER_HOLD]

/-! Page SEC (R353). -/
def Reg.SEC.SERIAL : Field := ((mkF 4 0x40 0 64 .ro 0)).v
def Reg.SEC.BOOT_SRC : Field := ((mkF 4 0x48 0 2 .ro 0)).v
def Reg.SEC.COMPAT_L1 : Field := ((mkF 4 0x48 2 1 .ro 0)).v
def Reg.SEC.HERD_EN : Field := ((mkF 4 0x48 3 1 .ro 0)).v
def Reg.SEC.BANK : Field := (mkF 4 0x4C 0 2 .ro 0)
def Reg.SEC.KEY : Field := (mkF 4 0x4C 4 3 .ro 0)
def Reg.SEC.SVN : Field := (mkF 4 0x4C 8 7 .ro 0)
def Reg.SEC.ARB_COUNT : Field := ((mkF 4 0x4C 16 7 .ro 0)).v
def Reg.SEC.REVOKED : Field := ((mkF 4 0x4C 24 5 .ro 0)).v
def Reg.SEC.BOOT_WHY_A : Field := (mkF 4 0x50 0 4 .ro 0)
def Reg.SEC.BOOT_WHY_B : Field := (mkF 4 0x50 4 4 .ro 0)
def Reg.SEC.FW_ADDR : Field := (mkF 4 0x60 0 64 .rw 0)
def Reg.SEC.FW_LEN : Field := (mkF 4 0x68 0 32 .rw 0)
def Reg.SEC.FW_GO : Field := (mkF 4 0x6C 0 1 .wo 0)
def Reg.SEC.FW_BUSY : Field := ((mkF 4 0x70 0 1 .ro 0)).v
def Reg.SEC.FW_RESULT : Field := (mkF 4 0x70 4 4 .ro 0)
def Reg.SEC.DBG_NONCE : Field := ((mkF 4 0x80 0 64 .ro 0)).v
def Reg.SEC.DBG_ACTIVE : Field := ((mkF 4 0x88 0 1 .ro 0)).v
def Reg.SEC.DBG_PERMS : Field := ((mkF 4 0x88 8 5 .ro 0)).v
def Reg.SEC.DBG_EXPIRY : Field := ((mkF 4 0x90 0 64 .ro 0)).v
def Reg.SEC.DBG_GO : Field := (mkF 4 0x98 0 1 .wo 0)
def Reg.SEC.DBG_REVOKE : Field := (mkF 4 0x98 1 1 .wo 0)
def Reg.SEC.DBG_RESULT : Field := (mkF 4 0x9C 0 4 .ro 0)
def Reg.SEC.AUDIT_SUPPRESSED : Field := (mkF 4 0xA0 0 32 .ro 0)
def Reg.SEC.OWNER_SET : Field := ((mkF 4 0xA4 0 1 .ro 0)).v
def Reg.SEC.PLAN_SIG_REQ : Field := ((mkF 4 0xA4 1 1 .ro 0)).v
def Reg.SEC.DBG_TOKEN : Field := ((mkF 4 0x100 0 32 .rw 0).arr 4 40)
def Reg.SEC.DBG_PUBKEY : Field := ((mkF 4 0x200 0 32 .rw 0).arr 4 24)
/-- Every field of the page. -/
def Reg.fieldsSEC : List Field :=
  [Reg.SEC.SERIAL, Reg.SEC.BOOT_SRC, Reg.SEC.COMPAT_L1, Reg.SEC.HERD_EN, Reg.SEC.BANK, Reg.SEC.KEY,
   Reg.SEC.SVN, Reg.SEC.ARB_COUNT, Reg.SEC.REVOKED, Reg.SEC.BOOT_WHY_A, Reg.SEC.BOOT_WHY_B, Reg.SEC.FW_ADDR,
   Reg.SEC.FW_LEN, Reg.SEC.FW_GO, Reg.SEC.FW_BUSY, Reg.SEC.FW_RESULT, Reg.SEC.DBG_NONCE, Reg.SEC.DBG_ACTIVE,
   Reg.SEC.DBG_PERMS, Reg.SEC.DBG_EXPIRY, Reg.SEC.DBG_GO, Reg.SEC.DBG_REVOKE, Reg.SEC.DBG_RESULT, Reg.SEC.AUDIT_SUPPRESSED,
   Reg.SEC.OWNER_SET, Reg.SEC.PLAN_SIG_REQ, Reg.SEC.DBG_TOKEN, Reg.SEC.DBG_PUBKEY]

/-! Page SET (R354). -/
def Reg.SET.GO : Field := (mkF 3 0x44 0 1 .wo 0)
def Reg.SET.BUSY : Field := ((mkF 3 0x48 0 1 .ro 0)).v
def Reg.SET.RESULT : Field := (mkF 3 0x48 4 4 .ro 0)
def Reg.SET.MSG : Field := ((mkF 3 0x100 0 32 .rw 0).arr 4 20)
def Reg.SET.PUBKEY : Field := ((mkF 3 0x180 0 32 .rw 0).arr 4 24)
def Reg.SET.SIG : Field := ((mkF 3 0x200 0 32 .rw 0).arr 4 24)
def Reg.SET.RD_SLOT : Field := (mkF 3 0x300 0 3 .rw 0)
def Reg.SET.RD_WRITE : Field := (mkF 3 0x300 8 7 .rw 0)
def Reg.SET.RD_COMMITTED : Field := ((mkF 3 0x304 0 1 .ro 0)).v
def Reg.SET.RD_TORN : Field := ((mkF 3 0x304 1 1 .ro 0)).v
def Reg.SET.RD_UNUSED : Field := ((mkF 3 0x304 2 1 .ro 0)).v
def Reg.SET.RD_COUNT : Field := ((mkF 3 0x304 8 8 .ro 0)).v
def Reg.SET.RD_BEAT : Field := ((mkF 3 0x308 0 64 .ro 0)).v
def Reg.SET.RD_SIGNER : Field := ((mkF 3 0x310 0 64 .ro 0)).v
def Reg.SET.RD_VALUE : Field := (((mkF 3 0x340 0 32 .ro 0).arr 4 16)).v
/-- Every field of the page. -/
def Reg.fieldsSET : List Field :=
  [Reg.SET.GO, Reg.SET.BUSY, Reg.SET.RESULT, Reg.SET.MSG, Reg.SET.PUBKEY, Reg.SET.SIG,
   Reg.SET.RD_SLOT, Reg.SET.RD_WRITE, Reg.SET.RD_COMMITTED, Reg.SET.RD_TORN, Reg.SET.RD_UNUSED, Reg.SET.RD_COUNT,
   Reg.SET.RD_BEAT, Reg.SET.RD_SIGNER, Reg.SET.RD_VALUE]

/-! Page SAMP (R369). -/
def Reg.SAMP.SAMP_EN : Field := (mkF 10 0x40 0 1 .rw 0)
def Reg.SAMP.SEL_SEL : Field := (mkF 10 0x44 0 6 .rw 0)
def Reg.SAMP.SRC : Field := ((mkF 10 0x48 0 2 .rw 0)).by .selector
def Reg.SAMP.LOG2 : Field := ((mkF 10 0x48 2 5 .rw 0)).by .selector
def Reg.SAMP.PHASE : Field := ((mkF 10 0x48 8 24 .rw 0)).by .selector
def Reg.SAMP.ADDR : Field := ((mkF 10 0x4C 0 26 .rw 0)).by .selector
def Reg.SAMP.NCNT_M1 : Field := ((mkF 10 0x4C 26 2 .rw 0)).by .selector
def Reg.SAMP.NREP_M1 : Field := ((mkF 10 0x50 0 8 .rw 0)).by .selector
def Reg.SAMP.FLOCK0 : Field := ((mkF 10 0x50 8 8 .rw 0)).by .selector
def Reg.SAMP.CLASS : Field := ((mkF 10 0x50 16 1 .rw 0)).by .selector
def Reg.SAMP.CORE : Field := ((mkF 10 0x50 17 4 .rw 0)).by .selector
def Reg.SAMP.CAP_CYCLE : Field := ((mkF 10 0x50 21 9 .rw 0)).by .selector
def Reg.SAMP.ARM : Field := (mkF 10 0x54 0 1 .wo 0)
def Reg.SAMP.SEL_RESULT : Field := ((mkF 10 0x58 0 2 .ro 0)).by .selector
def Reg.SAMP.RECORDS : Field := (mkF 10 0x80 0 64 .ro 0)
def Reg.SAMP.CAP_WAIT : Field := (mkF 10 0x88 0 64 .ro 0)
def Reg.SAMP.CAP_DROP : Field := (mkF 10 0x90 0 64 .ro 0)
def Reg.SAMP.FWD_DROP : Field := (mkF 10 0x98 0 32 .ro 0)
def Reg.SAMP.FWD_EN : Field := (mkF 10 0xA0 0 1 .rw 0)
def Reg.SAMP.FWD_APT : Field := (mkF 10 0xA0 4 4 .rw 0)
def Reg.SAMP.FWD_OFF : Field := (mkF 10 0xA8 0 34 .rw 0)
def Reg.SAMP.WATCH_SEL : Field := (mkF 10 0x100 0 6 .rw 0)
def Reg.SAMP.W_CTX : Field := ((mkF 10 0x104 0 12 .rw 0)).by .watch
def Reg.SAMP.W_MV : Field := ((mkF 10 0x108 0 16 .rw 0)).by .watch
def Reg.SAMP.W_FLOCK : Field := ((mkF 10 0x108 16 8 .rw 0)).by .watch
def Reg.SAMP.W_CLASS : Field := ((mkF 10 0x108 24 1 .rw 0)).by .watch
def Reg.SAMP.W_CORE : Field := ((mkF 10 0x108 25 4 .rw 0)).by .watch
def Reg.SAMP.W_INSTR : Field := ((mkF 10 0x10C 0 9 .rw 0)).by .watch
def Reg.SAMP.W_MODE : Field := ((mkF 10 0x10C 9 2 .rw 0)).by .watch
def Reg.SAMP.W_PERIOD : Field := ((mkF 10 0x10C 11 5 .rw 0)).by .watch
def Reg.SAMP.W_ARM : Field := (mkF 10 0x110 0 1 .wo 0)
def Reg.SAMP.W_DISARM : Field := (mkF 10 0x110 1 1 .wo 0)
def Reg.SAMP.W_STATE : Field := ((mkF 10 0x114 0 2 .ro 0)).by .watch
def Reg.SAMP.W_RESULT : Field := ((mkF 10 0x114 4 4 .ro 0)).by .watch
def Reg.SAMP.W_RECORDS : Field := ((mkF 10 0x118 0 64 .ro 0)).by .watch
def Reg.SAMP.CAP_BYTES : Field := (mkF 10 0x800 0 24 .rw 262144).x
def Reg.SAMP.CAP_OFF : Field := (mkF 10 0x804 0 1 .rw 0).x
/-- Every field of the page. -/
def Reg.fieldsSAMP : List Field :=
  [Reg.SAMP.SAMP_EN, Reg.SAMP.SEL_SEL, Reg.SAMP.SRC, Reg.SAMP.LOG2, Reg.SAMP.PHASE, Reg.SAMP.ADDR,
   Reg.SAMP.NCNT_M1, Reg.SAMP.NREP_M1, Reg.SAMP.FLOCK0, Reg.SAMP.CLASS, Reg.SAMP.CORE, Reg.SAMP.CAP_CYCLE,
   Reg.SAMP.ARM, Reg.SAMP.SEL_RESULT, Reg.SAMP.RECORDS, Reg.SAMP.CAP_WAIT, Reg.SAMP.CAP_DROP, Reg.SAMP.FWD_DROP,
   Reg.SAMP.FWD_EN, Reg.SAMP.FWD_APT, Reg.SAMP.FWD_OFF, Reg.SAMP.WATCH_SEL, Reg.SAMP.W_CTX, Reg.SAMP.W_MV,
   Reg.SAMP.W_FLOCK, Reg.SAMP.W_CLASS, Reg.SAMP.W_CORE, Reg.SAMP.W_INSTR, Reg.SAMP.W_MODE, Reg.SAMP.W_PERIOD,
   Reg.SAMP.W_ARM, Reg.SAMP.W_DISARM, Reg.SAMP.W_STATE, Reg.SAMP.W_RESULT, Reg.SAMP.W_RECORDS, Reg.SAMP.CAP_BYTES,
   Reg.SAMP.CAP_OFF]

/-! Page DBG (R370). -/
def Reg.DBG.DBG_FLOCK : Field := (mkF 11 0x40 0 8 .rw 0)
def Reg.DBG.ENTER : Field := (mkF 11 0x44 0 1 .wo 0)
def Reg.DBG.LEAVE : Field := (mkF 11 0x44 1 1 .wo 0)
def Reg.DBG.HALT : Field := (mkF 11 0x48 0 1 .rw 0)
def Reg.DBG.STEP : Field := (mkF 11 0x48 1 1 .wo 0)
def Reg.DBG.IN_DEBUG : Field := ((mkF 11 0x4C 0 1 .ro 0)).v
def Reg.DBG.HALTED : Field := ((mkF 11 0x4C 1 1 .ro 0)).v
def Reg.DBG.DBG_RESULT : Field := (mkF 11 0x4C 2 2 .ro 0)
def Reg.DBG.DEBUG_MAP : Field := (((mkF 11 0x50 0 32 .ro 0).arr 4 8)).v
/-- Every field of the page. -/
def Reg.fieldsDBG : List Field :=
  [Reg.DBG.DBG_FLOCK, Reg.DBG.ENTER, Reg.DBG.LEAVE, Reg.DBG.HALT, Reg.DBG.STEP, Reg.DBG.IN_DEBUG,
   Reg.DBG.HALTED, Reg.DBG.DBG_RESULT, Reg.DBG.DEBUG_MAP]

/-! Page common to every block (R375). -/
def Reg.COMMON.INSTANCE : Field := (mkF 0 0x0 0 16 .ro 0)
def Reg.COMMON.BLOCK : Field := (mkF 0 0x0 16 16 .ro 0)
def Reg.COMMON.REV : Field := (mkF 0 0x4 0 8 .ro 1)
def Reg.COMMON.ZLEVEL : Field := (mkF 0 0x4 8 4 .ro 2)
def Reg.COMMON.INSTANCES : Field := (mkF 0 0x8 0 16 .ro 0)
def Reg.COMMON.HAS_EXPERT : Field := (mkF 0 0x8 16 1 .ro 0)
def Reg.COMMON.HAS_DEBUG : Field := (mkF 0 0x8 17 1 .ro 0)
def Reg.COMMON.CAP1 : Field := (mkF 0 0xC 0 32 .ro 0)
def Reg.COMMON.STATUS : Field := ((mkF 0 0x14 0 31 .ro 0)).v
def Reg.COMMON.OOS : Field := ((mkF 0 0x14 31 1 .ro 0)).v
def Reg.COMMON.EVENT : Field := (mkF 0 0x18 0 30 .w1c 0)
def Reg.COMMON.EV_STATE : Field := (mkF 0 0x18 30 1 .w1c 0)
def Reg.COMMON.EV_FAULT : Field := (mkF 0 0x18 31 1 .w1c 0)
def Reg.COMMON.EVENT_MASK : Field := (mkF 0 0x1C 0 32 .rw 4294967295)
def Reg.COMMON.EVENT_FORCE : Field := (mkF 0 0x20 0 32 .wo 0).x
def Reg.COMMON.FLT_CLASS : Field := (mkF 0 0x24 0 8 .ro 0)
def Reg.COMMON.FLT_SCOPE : Field := (mkF 0 0x24 8 8 .ro 0)
def Reg.COMMON.FLT_ACTION : Field := (mkF 0 0x24 16 8 .ro 0)
def Reg.COMMON.INFO_UNIT : Field := (mkF 0 0x28 0 16 .ro 0)
def Reg.COMMON.INFO_REASON : Field := (mkF 0 0x28 16 8 .ro 0)
def Reg.COMMON.INFO_SEV : Field := (mkF 0 0x28 24 2 .ro 0)
/-- Every field of the page. -/
def Reg.fieldsCOMMON : List Field :=
  [Reg.COMMON.INSTANCE, Reg.COMMON.BLOCK, Reg.COMMON.REV, Reg.COMMON.ZLEVEL, Reg.COMMON.INSTANCES, Reg.COMMON.HAS_EXPERT,
   Reg.COMMON.HAS_DEBUG, Reg.COMMON.CAP1, Reg.COMMON.STATUS, Reg.COMMON.OOS, Reg.COMMON.EVENT, Reg.COMMON.EV_STATE,
   Reg.COMMON.EV_FAULT, Reg.COMMON.EVENT_MASK, Reg.COMMON.EVENT_FORCE, Reg.COMMON.FLT_CLASS, Reg.COMMON.FLT_SCOPE, Reg.COMMON.FLT_ACTION,
   Reg.COMMON.INFO_UNIT, Reg.COMMON.INFO_REASON, Reg.COMMON.INFO_SEV]

/-! Page DEV (R384). -/
def Reg.DEV.START : Field := (mkF 1 0x10 0 1 .wo 0)
def Reg.DEV.WARM : Field := (mkF 1 0x10 1 1 .wo 0)
def Reg.DEV.COLD : Field := (mkF 1 0x10 2 1 .wo 0)
def Reg.DEV.RKEY : Field := (mkF 1 0x10 16 16 .wo 0)
def Reg.DEV.STAGE : Field := (mkF 1 0x14 0 3 .ro 1)
def Reg.DEV.DEV_SAFE : Field := ((mkF 1 0x14 3 1 .ro 0)).v
def Reg.DEV.UNLOCKED : Field := ((mkF 1 0x14 4 1 .ro 0)).v
def Reg.DEV.TOKEN : Field := ((mkF 1 0x14 5 1 .ro 0)).v
def Reg.DEV.LEVEL : Field := ((mkF 1 0x14 6 2 .ro 0)).v
def Reg.DEV.GRADE : Field := ((mkF 1 0x40 0 8 .ro 0)).v
def Reg.DEV.STEPPING : Field := ((mkF 1 0x40 8 8 .ro 0)).v
def Reg.DEV.DEVICE_ID : Field := (mkF 1 0x40 16 16 .ro 29248)
def Reg.DEV.RESET_CAUSE : Field := (mkF 1 0x44 0 3 .ro 0)
def Reg.DEV.WARM_RESETS : Field := (mkF 1 0x48 0 32 .ro 0)
def Reg.DEV.BAD_ACCESS : Field := (mkF 1 0x4C 0 32 .ro 0)
def Reg.DEV.UNLOCK : Field := ((mkF 1 0x60 0 1 .ro 0)).v
def Reg.DEV.LOCK : Field := (mkF 1 0x60 1 1 .wo 0)
def Reg.DEV.SEQ_RESULT : Field := (mkF 1 0x60 4 4 .ro 0)
def Reg.DEV.CHAL : Field := ((mkF 1 0x60 16 16 .ro 0)).v
def Reg.DEV.EXPERT_KEY : Field := (mkF 1 0x64 0 32 .wo 0)
def Reg.DEV.EXPERT_SRC : Field := (mkF 1 0x68 0 2 .ro 0)
def Reg.DEV.EVT_SUM : Field := (((mkF 1 0x100 0 32 .ro 0).arr 4 16)).v
def Reg.DEV.VEC0_FORCE : Field := (mkF 1 0x800 0 1 .wo 0).x
/-- Every field of the page. -/
def Reg.fieldsDEV : List Field :=
  [Reg.DEV.START, Reg.DEV.WARM, Reg.DEV.COLD, Reg.DEV.RKEY, Reg.DEV.STAGE, Reg.DEV.DEV_SAFE,
   Reg.DEV.UNLOCKED, Reg.DEV.TOKEN, Reg.DEV.LEVEL, Reg.DEV.GRADE, Reg.DEV.STEPPING, Reg.DEV.DEVICE_ID,
   Reg.DEV.RESET_CAUSE, Reg.DEV.WARM_RESETS, Reg.DEV.BAD_ACCESS, Reg.DEV.UNLOCK, Reg.DEV.LOCK, Reg.DEV.SEQ_RESULT,
   Reg.DEV.CHAL, Reg.DEV.EXPERT_KEY, Reg.DEV.EXPERT_SRC, Reg.DEV.EVT_SUM, Reg.DEV.VEC0_FORCE]

/-- The fields of a block's own registers (R372) beside the common ones (R375). -/
def fieldsOf (block : Nat) : List Field :=
  match block with
  | 16 => Reg.fieldsPORT
  | 21 => Reg.fieldsFRAG
  | 22 => Reg.fieldsHOLD
  | 18 => Reg.fieldsTCAM
  | 19 => Reg.fieldsFLOW
  | 20 => Reg.fieldsLEARN
  | 17 => Reg.fieldsLANE
  | 48 => Reg.fieldsFLOCK
  | 23 => Reg.fieldsVERD
  | 35 => Reg.fieldsCTX
  | 6 => Reg.fieldsTIME
  | 34 => Reg.fieldsHERD
  | 33 => Reg.fieldsHLINK
  | 24 => Reg.fieldsSHAPE
  | 25 => Reg.fieldsPOLICE
  | 26 => Reg.fieldsHQ
  | 5 => Reg.fieldsCXL
  | 9 => Reg.fieldsLEDG
  | 32 => Reg.fieldsHBMC
  | 7 => Reg.fieldsCAL
  | 8 => Reg.fieldsAGE
  | 4 => Reg.fieldsSEC
  | 3 => Reg.fieldsSET
  | 10 => Reg.fieldsSAMP
  | 11 => Reg.fieldsDBG
  | 1 => Reg.fieldsDEV
  | _ => []

end Sys2Proof.Machine
end

