-- ==== Sys2Proof/Machine/State.lean ====
section
/-! DEFINITION. The state of the block as plain data, the reasons a step can stop, and the state after reset. Registers stand in
one register file (`State.regs`); every other piece of state the manual names has a structure of its own. Each field's comment
names the rule that gives it; INVENTORY.md lists widths and reset values. -/

namespace Sys2Proof.Machine

/-- A sparse table: entries with strictly rising keys; an unlisted key holds the default value. -/
abbrev Tbl (α : Type) := List (Nat × α)

/-- A byte-addressed memory: an unlisted address reads as zero. -/
abbrev Mem := List Host.Cell

/-- Reasons a step can stop with a fault. All are safe: the hardware has nothing at that address, and no claim about a next state is made. -/
inductive Fault where
  /-- HOST_READ or HOST_WRITE of an address past the 1 TiB the HDM decoder maps (R281): such a device address does not exist. Safe. -/
  | noDeviceAddress (addr : Nat)
  /-- REGISTER_WRITE or LOW_HALF_READ of an address past the 64 MiB of BAR0 (R280, R372): such a register address does not exist. Safe. -/
  | noBarAddress (addr : Nat)
  deriving DecidableEq, Repr

/-- Reasons a step refuses a command. -/
inductive Refusal where
  /-- A row of the opcode table without a meaning. Raised by Machine/Dispatch.lean only. Safe: the machine stops. -/
  | notModelled (mnemonic : String)
  deriving DecidableEq, Repr

/-! ### Time and islands (R15, R17, R219, R226 to R228) -/

structure TimeSt where
  beat : Nat := 0            -- beat count (R15, R226); the beat in progress
  cycle : Nat := 0           -- schedule cycle within the beat, 0 to 511 (R226)
  started : Bool := false    -- data path running: START taken, no warm reset in progress (R337, R310)
  setDone : Bool := false    -- SET_GO was written (R227)
  setSec : Nat := 0          -- the instant SET_GO applied (R227)
  setNs : Nat := 0
  ppb : Int := 0             -- steering in force, ppb (R227, R237)
  phaseLeft : Int := 0       -- phase still to slew (R227), in units of 1/(3 × 10^9) ns: a beat at d ppb slews 1,280 d of them
  ppsOut : Bool := false     -- level of PPS_OUT (R228)
  ppsAt : Nat := 0           -- herd time of its last rise
  islBeat : Tbl Nat := []    -- beat each island is in, by island number of R323 (R15)
  misses : Tbl Nat := []     -- misses since the epoch boundary, by island (R219)
  missAt : Tbl Nat := []     -- beat in which the last of them was counted
  seq : Nat := 0             -- schedule cycles since reset, for capture times before START
  aged : Nat := 0            -- 1 + epoch of the last endpoint ageing pass (R84)
  deriving DecidableEq, Repr, Inhabited

/-! ### Packets -/

/-- The parse result (R40). -/
structure Parse where
  l3Off : Nat := 0
  l4Off : Nat := 0
  tunOff : Nat := 0
  vlanN : Nat := 0
  mplsN : Nat := 0
  l3Type : Nat := 0
  l4Type : Nat := 0
  tunType : Nat := 0
  frag : Nat := 0
  extN : Nat := 0
  mal : Nat := 0
  tap : Bool := false
  l4Cut : Bool := false
  proto : Option Nat := none   -- protocol or upper-layer next header (R46, R72); none without an IP header
  fragId : Option Nat := none  -- identification of a fragment, none when past the window (R46)
  fragNh : Option Nat := none  -- protocol or next header of the fragment key (R46)
  deriving DecidableEq, Repr, Inhabited

/-- A frame the MAC is receiving (R49), by port. -/
structure RxFrame where
  data : List Byte := []       -- the frame's bytes, FCS included
  dropped : Bool := false      -- discarded at intake (R49), unpaired (R33), lane reset (R312) or link down
  pkt : Option PktId := none   -- its packet once a lane has accepted it
  ended : Bool := false        -- the last byte was received before a lane accepted it
  ts : Nat := 0                -- timestamp at the lands, 2^-16 ns (R229)
  start : Nat := 0             -- herd time of the frame's first byte (R31)
  deriving DecidableEq, Repr, Inhabited

/-- What acceptance fixes (R31, R35, R36, R66). -/
structure PktIn where
  port : Nat := 0
  lane : Nat := 0
  t : Nat := 0                 -- capture time: beat × 512 + cycle (R91)
  b : Nat := 0                 -- boundary b (R19)
  frame : List Byte := []      -- the whole frame as received, tap header and FCS included
  tapLen : Nat := 0            -- 16 with a valid tap header, else 0 (R36)
  colour : Nat := 3            -- COLOUR (R35, R36)
  swPort : Nat := 0
  tag : Nat := 0
  swMeta : Nat := 0
  tapPort : Bool := false      -- arrived on a tap port
  parse : Parse := {}          -- as the parser left it; `PktVd.mal` holds a reason found later
  malAct : Nat := 0            -- MAL_ACT of its reason: 0 FORWARD, 1 DROP, 2 TO_HOST, 3 CLASSIFY (R37)
  slot : Nat := 0              -- stamped rule slot
  rv : Nat := 0                -- stamped rule version
  injected : Bool := false     -- from the injection ring (R273)
  deriving DecidableEq, Repr, Inhabited

/-- The hot part of a flow record beside its key (R102). -/
structure HotRec where
  firstSeen : Nat := 0
  lastSeen : Nat := 0
  pkts : Nat := 0
  tcpOr : Nat := 0
  tcpLast : Nat := 0
  histFull : Bool := false
  fragSeen : Bool := false
  malSeen : Bool := false
  dscpLast : Nat := 0
  bytes : Nat := 0
  iatLast : Nat := 0
  iatEwma : Nat := 0
  lenMin : Nat := 0
  lenMax : Nat := 0
  fvCode : Nat := 0
  fvCtx : Nat := 0
  fvValid : Bool := false
  score0 : Nat := 0
  score1 : Nat := 0
  res0 : Nat := 0
  res1 : Nat := 0
  fvMv : Nat := 0
  resSeq : Nat := 0
  uacc : List Nat := [0, 0, 0]
  histRing : Nat := 0
  histHead : Nat := 0
  histValid : Bool := false
  deriving DecidableEq, Repr, Inhabited

/-- How a packet's flow lookup ended (R77, R78). -/
inductive FlowHow where
  | noLookup | hit | storeHit | newFlow | uncachedHit | uncachedNew
  deriving DecidableEq, Repr, Inhabited

/-- Results of the lookups of beat b (R62, R63, R72, R77, R83). -/
structure PktLk where
  searched : Bool := false
  act : ActWord := 0
  ruleHit : Bool := false
  parityHit : Bool := false    -- the winning rule entry failed parity (R70)
  lpmRes : Nat := 0
  lpmLen : Nat := 0
  lpmHit : Bool := false
  lpmAbsent : Bool := false
  lpmMade : Bool := false
  epDone : Bool := false       -- the endpoint searches are made (R83)
  epMoves : Nat := 0
  epNew : Bool := false
  epUnicast : Bool := false
  epDstLoc : Nat := 0
  epDstKnown : Bool := false
  looked : Bool := false       -- the flow and fragment lookups are made
  key : List Byte := []        -- flow key (R72); empty without a flow lookup
  flowId : Nat := 0
  how : FlowHow := .noLookup
  view : Option HotRec := none -- flow view (R92)
  created : Bool := false      -- the packet created its flow record
  histPos : Option Nat := none
  histRing : Nat := 0
  updated : Bool := false
  deriving DecidableEq, Repr, Inhabited

/-- Context stamps and the feature path (R88 to R101, R203, R211). -/
structure PktFt where
  mvA : Nat := 0
  mvB : Nat := 0
  mvF : Nat := 0
  fset : Option Nat := none
  half : Bool := false         -- feature-core half and slot-map version of the stamped version
  mismB : Bool := false
  mismF : Bool := false
  ran : Bool := false          -- a feature program ran
  outs : Tbl Word := []        -- OUT words written
  hout : Tbl Byte := []
  flags : DWord := 0
  vec : Option (List Word) := none
  voidVec : Bool := false      -- FEATURE_PARITY (R106, R299)
  houtOpen : Bool := false     -- a parity failure of its program left its HOUT bytes open (R106)
  handed : Bool := false       -- handed to the bridge queue (R89)
  crossed : Bool := false
  deriving DecidableEq, Repr, Inhabited

/-- The result of one context for a packet (R186). -/
structure CtxRes where
  tree : Tbl Int := []         -- outputs returned by the tree gather
  mat : Tbl Int := []          -- outputs returned by RET
  void : Option Nat := none    -- reason of a void output (R197)
  formed : Bool := false
  code : Nat := 0
  s0 : Int := 0
  s1 : Int := 0
  deriving DecidableEq, Repr, Inhabited

/-- What boundary b + 5 decides (R188 to R198). -/
structure PktVd where
  a : CtxRes := {}
  b : CtxRes := {}
  reasons : List Nat := []     -- reason codes that apply (R197)
  winner : Nat := 0            -- SRC: 0 none, 1 A, 2 B, 3 F
  code : Nat := 0
  fwd : Bool := false
  copy : Bool := false
  mirror : Bool := false
  ses : Nat := 0
  queue : Nat := 0
  safe : Bool := false
  fvCand : Bool := false
  bypass : Bool := false       -- deadline bypass (R51)
  released : Bool := false
  category : Nat := 0          -- 0 resident, else index into LANE_LEDGER of R316: 1 forwarded … 6 host only
  voidPkt : Bool := false      -- BAD_FCS or OVERSIZE (R43)
  mal : Nat := 0               -- 15 or 16 once found: it replaces any earlier reason (R41)
  fcs : Option Bool := none
  done : Bool := false         -- last byte received; L known
  early : Bool := false        -- started under cut-through (R53)
  earlyCopy : Option Nat := none
  earlyMirror : Option (Nat × Nat) := none  -- session and MSEQ
  dests : Nat := 0             -- destinations on which the frame is queued or on the wire
  cells : Nat := 0             -- hold-buffer cells held (R49)
  gone : Bool := false         -- no longer resident: last byte sent everywhere, or discarded (R274)
  deriving DecidableEq, Repr, Inhabited

/-- A resident packet. -/
structure Pkt where
  i : PktIn := {}
  lk : PktLk := {}
  ft : PktFt := {}
  vd : PktVd := {}
  deriving DecidableEq, Repr, Inhabited

/-! ### Classifier (R55 to R71, R402) -/

structure TcamEntry where
  value : KeyWord := 0
  mask : KeyWord := 0
  act : ActWord := 0
  plen : Nat := 0
  s0 : Bool := false
  s1 : Bool := false
  disabled : Bool := false
  deriving DecidableEq, Repr, Inhabited

/-- Operations of ENT_CMD (R71). -/
inductive EntOp where
  | write | setStaged | clearStaged | read | repair | reserved
  deriving DecidableEq, Repr, Inhabited

/-- What an entry command writes: value, mask and action record. -/
structure EntData where
  value : KeyWord
  mask : KeyWord
  act : ActWord
  deriving DecidableEq, Repr

/-- An entry command in progress on a page (R402). -/
structure EntPend where
  op : EntOp
  cmd : EntCmd
  load : Option EntData := none -- the data of a bulk load's record; none: the page's registers
  result : Option Nat := none  -- ENT_RESULT once the command has acted
  acted : Nat := 0             -- beat in which it acted
  deriving DecidableEq, Repr, Inhabited

structure Classifier where
  tcam : Tbl TcamEntry := []   -- key (replica × 48 + bank) × 1024 + entry
  banks : Tbl Nat := []        -- bank types: key (replica × 2 + slot) × 48 + bank (R58)
  presel : Tbl Nat := []       -- preselect tables: key (replica × 2 + slot) × 4096 + index (R59)
  lpmDom : Tbl Nat := []       -- LPM_DOM: key (replica × 2 + slot) × 32 + port (R60)
  defAct0 : ActWord := 1       -- default action records of slot 0 and slot 1 (R63, R71)
  defAct1 : ActWord := 1
  entPend : Tbl (Option EntPend) := [] -- by replica
  commitWrite : Nat := 0       -- beat of the COMMIT write (R67)
  armC : Nat := 0              -- beat C of the armed commit
  armHerd : Bool := false      -- the armed commit was ordered by the bellwether (R248)
  switchBeat : Nat := 0        -- beat C of the last switch
  retired : Bool := false      -- old slot retired, copy in progress (R68)
  occ : Tbl Nat := []          -- occupancy counts: key lane × 2 + slot (R66)
  waitOrder : Bool := false    -- a commit in CHECKING waits for its ORDER (R247)
  scrub : Nat := 1024          -- scrub period in force, beats (R70)
  loadRun : Bool := false      -- a bulk load is running (R71)
  loadAddr : Nat := 0
  loadLeft : Nat := 0
  deriving DecidableEq, Repr, Inhabited

/-! ### Fragment, flow and endpoint tables -/

/-- The decision a first fragment leaves (R46). -/
structure Decision where
  fwd : Bool := false
  copy : Bool := false
  mirror : Bool := false
  ses : Nat := 0
  queue : Nat := 0
  code : Nat := 0
  src : Nat := 0
  safe : Bool := false
  act : ActWord := 0
  rv : Nat := 0
  mvA : Nat := 0
  mvB : Nat := 0
  mvF : Nat := 0
  s0 : Int := 0
  s1 : Int := 0
  policer : Nat := 0
  deriving DecidableEq, Repr, Inhabited

structure FragEnt where
  live : Bool := false
  key : List Byte := []
  b : Nat := 0
  flowKey : List Byte := []
  flowId : Nat := 0
  dec : Option Decision := none
  deriving DecidableEq, Repr, Inhabited

/-- A flow cache or victim buffer entry (R77). -/
structure CacheEnt where
  live : Bool := false
  key : List Byte := []
  hot : HotRec := {}
  loc : Option Nat := none     -- store slot; none: to be inserted (NEW, or its slot was cleared under R80)
  fresh : Bool := false        -- marked NEW and not yet updated by its first packet (R77)
  touch : Nat := 0             -- last-touch beat
  pins : Nat := 0              -- 1 + beat of the latest lookup that pins the way; 0 unpinned (R78)
  cold : List Byte := []       -- cold part (R102) of an entry that has no store record yet; 128 bytes, or none
  deriving DecidableEq, Repr, Inhabited

/-- A working copy of a record between the update pass and FLOW_RECORD_WRITE (R92). -/
structure UpdRec where
  key : List Byte
  hot : HotRec
  fresh : Bool               -- the record is NEW: no store record has its key
  origin : Nat               -- ORIGIN word of a NEW record (R102)
  beat : Nat                 -- beat of the pass
  inv : Nat := 0             -- invocations started for it in the pass
  cold : List Byte := []     -- cold part of a NEW record (R102)
  deriving DecidableEq, Repr

/-- A flow invocation (R23, R103, R212). -/
structure Inv where
  id : Nat := 0
  ctx : Nat := 0
  mv : Nat := 0
  key : List Byte := []
  startBeat : Nat := 0
  lost : Bool := false         -- work of it was void
  homeVals : List Word := []   -- the flow home's sums in its input (R244)
  homeNew : Bool := false      -- HOME_NEW
  homeLost : Bool := false     -- HOME_LOST
  deriving DecidableEq, Repr, Inhabited

/-- A flow result that reached the port core (R103). -/
structure FlowRes where
  key : List Byte
  ctx : Nat
  mv : Nat
  beat : Nat
  vals : FlowVals
  deriving DecidableEq, Repr

structure FlowSt where
  cache : Tbl CacheEnt := []   -- key bucket × 4 + way (R73, R77)
  victims : List CacheEnt := []
  upd : List UpdRec := []
  invs : List Inv := []
  nextInv : Nat := 0
  results : List FlowRes := []
  ringNext : Nat := 0          -- rings from here up have never been allocated (R104)
  ringRet : List Nat := []     -- returned rings, oldest first
  cmd : Option (Nat × List Byte) := none -- FLOW command in progress: 1 READ or 2 DELETE, and its key (R86)
  cmdBeat : Nat := 0
  journal : Option Nat := none -- rehash step journalled and not done (R314)
  moveJ : Option (Nat × Nat) := none -- move journalled and not done: source and destination slot (R76)
  rehashAt : Nat := 0          -- beat at which the next step starts
  deriving DecidableEq, Repr, Inhabited

structure EpEnt where
  live : Bool := false
  mac : Nat := 0
  vlan : Nat := 0
  loc : Nat := 0
  moves : Nat := 0
  static : Bool := false
  epoch : Nat := 0
  deriving DecidableEq, Repr, Inhabited

/-- GLOBAL words of the input record (R22, R91): those in force, and those before the last aggregate window ended. -/
structure GlobSt where
  now : Tbl Word := []         -- words that aggregate inference has written
  old : Tbl Word := []
  window : Nat := 0            -- 1 + beat at which the last window ended; 0 before the first
  deriving DecidableEq, Repr, Inhabited

/-! ### Feature cores (R88 to R106) -/

structure FTable where
  vals : List Word := []
  dflt : Word := 0
  deriving DecidableEq, Repr, Inhabited

structure FSet where
  present : Bool := false
  prog : List Word := []
  tables : List FTable := []
  slotMap : List DWord := []
  deriving DecidableEq, Repr, Inhabited

structure FCore where
  pkt : Option PktId := none
  pc : Nat := 0
  regs : Tbl Word := []
  absent : Bool := false
  outs : Tbl Word := []        -- listed = marked written; kept with find?
  hout : Tbl Byte := []
  flags : DWord := 0
  faults : Nat := 0            -- parity failures this epoch (R106)
  reload : Bool := false
  own : Tbl FSet := []         -- sets this core holds otherwise than the other cores do, after a reload (R106), by half × 16 + set
  deriving DecidableEq, Repr, Inhabited

/-! ### Tree cores (R109 to R124) -/

/-- An add on its way to a partial-sum register (R116): none for a bubble. -/
structure PendAdd where
  part : Nat
  val : Option Int
  cycle : Nat                  -- issue cycle
  beat : Nat                   -- issue beat
  post : Option Nat := none    -- gather cell its retirement increments (R119, R223)
  deriving DecidableEq, Repr

structure TCore where
  bank : Bool := false
  pend : List PendAdd := []
  voidBeats : List Nat := []   -- issue beats whose contribution is void (R123)
  faults : Nat := 0
  reload : Bool := false
  deriving DecidableEq, Repr, Inhabited

structure VecSlot where
  pkt : Option PktId := none
  job : Bool := false          -- a vector of flow or host-job work, placed by its plan (R122)
  slots : List Word := []
  deriving DecidableEq, Repr, Inhabited

/-- A gathered sum waiting for its conversion (R120, R121). -/
structure GatherOut where
  pkt : Option PktId := none
  vec : Nat := 0
  ctx : Nat := 0
  ctxsel : Bool := false
  output : Nat := 0
  sum : Int := 0
  desc : DWord := 0
  void : Option Nat := none    -- reason of a void output
  deriving DecidableEq, Repr, Inhabited

structure TreeSt where
  mem : Mem := []              -- tree core memories: (flock × 64 + core) × 65536 + address (R114)
  cores : Tbl TCore := []      -- flock × 64 + core
  part : Tbl Int := []         -- partial-sum files: ((flock × 64 + core) × 2 + parity of the issue beat) × 512 + register (R115)
  jobFull : Tbl Nat := []      -- 1 + beat of the flock's last full gather of flow and host-job work (R122)
  gset : Tbl (Option PktId) := [] -- packets of the set being gathered: flock × 64 + slot
  vbuf : Tbl VecSlot := []     -- vector buffers: (flock × 2 + bank) × 64 + slot (R117)
  readBank : Tbl Bool := []    -- bank being read, by flock
  outs : Tbl (List GatherOut) := [] -- gathered sums, by flock
  dieSums : Tbl Int := []      -- flow and host-job sums: context × 16 + output (R122)
  deriving DecidableEq, Repr, Inhabited

/-! ### Array cores (R125 to R184) -/

/-- A held row element by element, with its MX scales and tags (R152 to R154). -/
structure HeldRow where
  elems : List Nat := []
  scales : List (Nat × Nat × Nat) := []  -- per block: scale code, tag of the tag area, TAG of the scale word
  marked : Bool := false       -- R179
  deriving DecidableEq, Repr, Inhabited

structure HeldBank where
  loaded : Bool := false
  fmt : Nat := 0
  klen : Nat := 0
  rows : Tbl HeldRow := []
  written : Nat := 0           -- rows (express) or slabs (bulk) written since the LOADH
  readEnd : Nat := 0           -- island cycle after the last index that an issued STREAM reads from the bank (R141, R142)
  deriving DecidableEq, Repr, Inhabited

/-- The tile in one lane of an array's main set (R140, R155 to R160). -/
structure LaneAcc where
  live : Bool := false
  fmt : Nat := 0
  vals : List Int := []        -- rows × columns, row by row
  cols : Nat := 0
  count : Nat := 0             -- product count, 25 bits (R158)
  void : Nat := 0              -- 0 none; fault kind of R165
  scaleLo : Nat := 0
  scaleSpan : Nat := 0
  deriving DecidableEq, Repr, Inhabited

/-- A final tile on its way to core memory (R138). -/
structure DrainTile where
  vals : List Int := []
  rows : Nat := 0
  cols : Nat := 0
  chunk : Nat := 0
  pos : Nat := 0               -- position of the array among the named arrays
  named : Nat := 0
  f : StreamF := default
  void : Nat := 0
  layer : Nat := 0
  oper : Nat := 0
  last : Bool := false
  chunks : Nat := 0
  instr : Nat := 0             -- index of the STREAM in its program
  beat : Nat := 0              -- beat of its issue
  seq : Nat := 0               -- the core's count of drains at its start
  laneNo : Nat := 0            -- its lane (R155)
  bank : Bool := false         -- the descriptor and table bank its STREAM ran under (R166, R168)
  endAt : Nat := 0             -- island cycle of its last index (R138)
  deriving DecidableEq, Repr, Inhabited

/-- Row-statistics registers of one row (R162). -/
structure RowStat where
  sum : Int := 0
  ssq : Int := 0
  count : Nat := 0
  bor : Word := 0
  band : Word := 0
  bxor : Word := 0
  deriving DecidableEq, Repr, Inhabited

/-- The row-statistics unit of an array after its last drain (R163). -/
structure StatUnit where
  rows : List RowStat := []
  f : StreamF := default
  pos : Nat := 0
  named : Nat := 0
  cols : Nat := 0
  layer : Nat := 0
  oper : Nat := 0
  ready : Bool := false
  void : Bool := false
  bank : Bool := false         -- as of its tiles
  endAt : Nat := 0             -- island cycle of the last index of the last chunk (R163)
  deriving DecidableEq, Repr, Inhabited

/-- A LOADH whose rows or slabs are being written (R132, R141, R142). -/
structure HeldPend where
  a : Nat
  pos : Nat
  f : LoadhF
  next : Nat
  total : Nat
  dbank : Bool := false        -- the descriptor and table bank the LOADH ran under (R166)
  writeAt : Nat := 0           -- first island cycle in which row or slab `next` may be written (R132, R141, R142, R180)
  deriving DecidableEq, Repr

/-- Operator counter set (R357, R358): the current instruction, and what its counts are formed from. -/
structure OpCnt where
  start : Nat := 0             -- cycle of its issue, counted as beat × 512 + cycle
  issues : Nat := 0            -- cycles since then in which the sequencer issued and no index entered
  sat : Nat := 0
  layer : Nat := 0
  oper : Nat := 0
  wStart : Nat := 0            -- the core's last STREAM: issue cycle, chunks, chunk cycles, chunk period
  wChunks : Nat := 0
  wCycles : Nat := 0
  wPeriod : Nat := 0
  deriving DecidableEq, Repr, Inhabited

structure ACore where
  running : Bool := false
  pc : Nat := 0
  progBank : Bool := false     -- active program, descriptor and table bank (R129, R166)
  ws : Bool := false           -- wide-shallow form (R143)
  wait : Option (Nat × Nat) := none   -- a SYNCW's cell and COUNT
  held : List HeldPend := []
  seq : Nat := 0               -- drains started
  posts : List (Nat × Nat × Nat × Nat) := []  -- SYNCP posts waiting for earlier drains: cell, span, drains started before it, beat
  next : Nat := 0              -- first island cycle in which it may issue again (R131, R134)
  streamEnd : Nat := 0         -- island cycle after the last index of its last STREAM (R128)
  port : Nat := 0              -- island cycle from which the transposing port is free (R137)
  finals : Tbl Nat := []       -- by array: 1 + island cycle in which its last final chunk ended (R139)
  waitAt : Option Nat := none  -- island cycle up to which a wait under R137 has been counted
  landAt : Nat := 0            -- island cycle by which its drains, records and COPYs so far land everywhere (R134)
  copies : List (Nat × Nat × Nat × Nat) := []  -- COPYs into the core under way: address, bytes, last island cycle, beat (R134)
  opc : OpCnt := {}
  inj : Nat := 0               -- armed fault kind (R165); 0 none
  faults : Nat := 0            -- parity failures this epoch (R145)
  reload : Bool := false
  startBeat : Nat := 0
  deriving DecidableEq, Repr, Inhabited

/-- One element that a broadcast drain writes in another core 8 island cycles after its local write (R137, R138). -/
structure BcWrite where
  due : Nat                    -- island cycle of the write
  src : Nat                    -- number of the core that drains
  dst : Nat                    -- number of the core written
  at_ : Nat                    -- half-byte address
  nibs : Nat
  val : Nat
  deriving DecidableEq, Repr

structure ArraySt where
  mem : Mem := []              -- core memories: core × 2^19 + address; core = (flock × 2 + class) × 16 + number (R129)
  desc : Mem := []             -- descriptor and table stores: (core × 2 + bank) × 2^15 + byte (R166)
  cores : Tbl ACore := []
  banks : Tbl HeldBank := []   -- (core × 4 + array) × 2 + bank
  lanes : Tbl LaneAcc := []    -- (core × 4 + array) × 4 + lane
  drains : Tbl (List DrainTile) := [] -- core × 4 + array; the head is the shadow set
  stats : Tbl StatUnit := []   -- core × 4 + array
  cells : Tbl Nat := []        -- sync cells: flock × 256 + cell, 16 bits (R221)
  bound : Tbl Nat := []        -- boundary values of held cells (R223)
  posts : Tbl (List (Nat × Nat × Nat)) := [] -- posts made and not yet in effect, by flock: cell, span, island cycle in which it is made (R222)
  bcast : List BcWrite := []   -- broadcast writes on their way (R138)
  deriving DecidableEq, Repr, Inhabited

/-! ### Model contexts (R202 to R218) -/

/-- States of CTX.STATE (R208). -/
inductive CtxState where
  | empty | active | checking | staging | staged | armed | retiring
  deriving DecidableEq, Repr, Inhabited

/-- A section table entry (R205). -/
structure Sect where
  type : Nat
  flags : Nat
  flock : Nat
  unit : Nat
  off : Nat
  len : Nat
  dest : Nat
  phys : Nat := 0              -- tree sections: the physical tree core the logical one bound to at the load (R28)
  arrays : List Nat := []      -- program sections: bits in the flock's array map of the core's arrays, bound at the load (R28)
  body : List Byte := []       -- the content as staged
  deriving DecidableEq, Repr

/-- A version in a version slot (R202 to R206). -/
structure Version where
  ver : Nat := 0
  kind : Nat := 0
  addr : Nat := 0              -- image offset in the context images region
  len : Nat := 0
  sects : List Sect := []
  layoutId : Nat := 0
  fset : Nat := 0
  carries : Bool := false      -- carries the content of set FSET
  half : Bool := false         -- feature-core half its packets use
  vdesc : List Word := []      -- verdict descriptor, 20 words (R185)
  acts : List Word := []       -- action table, 16 entries (R187)
  shadowCtx : Nat := 0
  shadowMv : Nat := 0
  flocks : List Nat := []      -- flocks whose units it uses
  crc : Nat := 0
  protect : Bool := false      -- its image range is protected (R207)
  treeOn : Bool := false       -- parts that run this version already (R211)
  gatherOn : Bool := false
  expressOn : Bool := false    -- express cores with o = 3
  express4On : Bool := false   -- express cores with o = 4
  runs : List Nat := []        -- bulk and tree cores of flow, aggregate and host-job work that run this version, by core key (R211)
  bounds : List (Nat × Nat) := []  -- boundary values of the cells its programs name: flock × 256 + cell, value (R223)
  after : List (Nat × Nat × Nat × Nat) := []  -- posts its programs make after the boundary of their beat: core number, island cycles past it, cell, span (R224)
  deriving DecidableEq, Repr, Inhabited

structure Ctx where
  st : CtxState := .empty
  kind : Nat := 0
  slot : Bool := false         -- active slot
  v0 : Option Version := none
  v1 : Option Version := none
  prev : CtxState := .empty    -- state before the LOAD
  armC : Nat := 0              -- beat C of the armed commit
  cmtWrite : Nat := 0          -- beat of the COMMIT write
  cmtPend : Bool := false      -- checks of the COMMIT running
  cmtHerd : Bool := false
  switchBeat : Nat := 0        -- beat C of the last switch
  retired : Bool := false      -- retired; freeing under R212 in progress
  emptying : Bool := false     -- the commit is of version 0 (UNLOAD)
  voidSets : Nat := 0          -- this epoch (R200)
  voidAt : List Nat := []      -- boundaries of the last void sets counted, newest first
  down : Nat := 0              -- 0 up, 3 CONTEXT_DOWN, 4 FLOCK_DOWN (R197)
  downDev : Bool := false      -- device-caused (R308)
  voidDev : Bool := false      -- a void set of this epoch was device-caused
  vdFaults : Nat := 0          -- descriptor parity failures this epoch (R297)
  windows : Nat := 0           -- aggregate windows run or shadow windows written
  running : Bool := false      -- an aggregate run is in progress
  runMv : Nat := 0
  runVoid : Bool := false      -- work of the aggregate run was void (R17)
  chkAddr : Nat := 0           -- the image under check (R208): its offset, length, version, and whether its range is protected
  chkLen : Nat := 0
  chkVer : Nat := 0
  chkProtect : Bool := false
  loadBeat : Nat := 0          -- beat of the LOAD
  cmtBeat : Nat := 0           -- COMMIT_BEAT of the COMMIT whose checks run
  deriving DecidableEq, Repr, Inhabited

/-- Statistics of one shadow channel (R323). -/
structure ChanStat where
  count : Nat := 0
  mn : Int := 0
  mx : Int := 0
  absMax : Nat := 0
  bins : Tbl Nat := []
  tensor : Nat := 0
  chan : Nat := 0
  binLo : Nat := 0
  wExp : Int := 0
  deriving DecidableEq, Repr, Inhabited

/-- Statistics of one shadow context in one flock (R324). -/
structure ShadowSt where
  chans : Tbl ChanStat := []   -- tensor × 4096 + channel
  taken : Nat := 0
  skipped : Nat := 0
  void : Nat := 0
  seenAt : Nat := 0            -- 1 + beat of the last set counted
  endAt : Nat := 0             -- 1 + boundary at which the last window ended (R324)
  deriving DecidableEq, Repr, Inhabited

/-! ### Verdict unit, egress and meters -/

/-- A frame in an egress queue (R257). -/
structure EgFrame where
  kind : Nat := 0              -- 0 packet, 1 mirror, 2 settlement, 3 injected
  pkt : Option PktId := none
  size : Nat := 0              -- S: bytes as sent, FCS included
  bytes : List Byte := []      -- bytes as sent before the FCS
  early : Bool := false
  tsreq : Nat := 0
  itag : Nat := 0
  own : Nat := 0               -- hold-buffer cells of its own: an injected frame (R49, R273)
  deriving DecidableEq, Repr, Inhabited

structure EgQ where
  frames : List EgFrame := []
  cells : Nat := 0
  deficit : Nat := 0
  tok : Int := 0               -- queue shaper, 2^-16 bytes (R260)
  paused : Bool := false
  quanta : Nat := 0            -- pause time received, quanta
  offered : Nat := 0           -- counts of the queue's balance (R274)
  admitted : Nat := 0
  refused : Nat := 0
  sent : Nat := 0
  stomped : Nat := 0
  flushed : Nat := 0
  added : Nat := 0             -- counts of the shaper's balance, 2^-16 bytes
  spent : Nat := 0
  capped : Nat := 0
  deriving DecidableEq, Repr, Inhabited

structure PortTx where
  cur : Option EgFrame := none -- frame on the wire
  curQ : Nat := 0
  stomp : Bool := false        -- being stomped (R54)
  cut : Nat := 0               -- bytes sent of a stomped frame
  tok : Int := 0               -- port shaper, 2^-16 bytes
  cells : Nat := 0             -- P_CELLS
  added : Nat := 0             -- counts of the port shaper's balance (R274), 2^-16 bytes
  spent : Nat := 0
  capped : Nat := 0
  rr : Nat := 0                -- 1 + the queue the round robin is visiting; 0 before the first visit
  last : List Byte := []       -- bytes of the last frame sent, its FCS included where the manual fixes it
  deriving DecidableEq, Repr, Inhabited

/-- The counts of a bucket's balance (R274), 2^-8 bytes: what was placed in it, less what an expert write took away, what was spent and what the cap cut off. -/
structure BucketCnt where
  added : Int := 0
  spent : Nat := 0
  capped : Nat := 0
  deriving DecidableEq, Repr, Inhabited

/-- A two-bucket policer (R262, R263), 2^-8 bytes, and the counts of both buckets. -/
structure PolB where
  tc : Int := 0
  te : Int := 0
  cntC : BucketCnt := {}
  cntE : BucketCnt := {}
  deriving DecidableEq, Repr, Inhabited

structure EgressSt where
  q : Tbl EgQ := []            -- port × 8 + queue
  tx : Tbl PortTx := []        -- by port
  pol : Tbl PolB := []         -- by policer
  copyTok : Tbl Int := []      -- copy meters, by KIND (R265)
  mirTok : Tbl Int := []       -- mirror meters, by session
  copyCnt : Tbl BucketCnt := [] -- counts of the meters' balances (R274)
  mirCnt : Tbl BucketCnt := []
  inj : List (Nat × Nat × EgFrame) := [] -- MODE 1 frames to offer after the packets of the boundary (R257): port, queue, frame
  copySeq : Nat := 0           -- SEQ of the next copy record (R195)
  mseq : Tbl Nat := []         -- MSEQ of each session (R193)
  deriving DecidableEq, Repr, Inhabited

/-- A PTP timestamp entry (R229, R256). -/
structure TsEnt where
  a : Nat := 0                 -- messageType, or the injection tag
  dom : Nat := 0
  seqId : Nat := 0
  sub : Nat := 0
  oneStep : Bool := false
  ts : Nat := 0                -- 2^-16 ns of herd time
  deriving DecidableEq, Repr, Inhabited

/-! ### Host-bound queues, observation, jobs and the host link -/

structure HqSt where
  suspended : Bool := false    -- LOC 1 during a host loss and until EN is written (R291, R292)
  produced : Nat := 0          -- the producer's own counts (R302)
  overwritten : Nat := 0
  consumed : Nat := 0          -- items the consumer released and no overwrite took
  dropped : Nat := 0           -- newest items dropped under DROP_NEW (R277)
  lost0 : Nat := 0             -- LOST when the queue last started
  consWr : Option (Nat × Nat) := none -- a CONS write of this schedule cycle: its herd time, and the value the producer still sees (R270)
  irqBeat : Nat := 0           -- beat of the last interrupt raised
  deriving DecidableEq, Repr, Inhabited

/-- An observation item waiting to be written (R365). -/
structure ObsItem where
  q : Nat
  bytes : List Byte
  rank : Nat                   -- order within its beat: samples, then tensors, then shadow blocks
  addr : Nat := 0              -- shadow blocks: destination
  due : Nat := 0               -- shadow blocks: beat by which the block must be complete (R324)
  done : Nat := 0              -- shadow blocks: bytes of channel records already written
  deriving DecidableEq, Repr

structure ObsSt where
  new : List ObsItem := []     -- produced in this beat
  wait : List ObsItem := []    -- observation buffer, oldest first
  sseq : Tbl Nat := []         -- SSEQ by selector
  armed : Tbl (Option (List Nat)) := [] -- selectors in force: SRC, LOG2, PHASE, ADDR, NCNT−1, NREP−1, FLOCK0, CLASS, CORE, CAP_CYCLE
  shadow : Tbl ShadowSt := []  -- context × 256 + flock
  capt : Tbl (List Nat) := []  -- operator counters captured in this beat (R358, R359): selector × 256 + repetition
  sampled : Nat := 0           -- 1 + beat of the last SAMPLE
  spent : Nat := 0             -- HBM bytes of observation traffic written in this beat (R365)
  fwdSpent : Nat := 0          -- bytes of aperture copies sent in this beat (R366)
  deriving DecidableEq, Repr, Inhabited

structure Msix where
  unmasked : Bool := false
  pending : Bool := false
  sentBeat : Option Nat := none
  deriving DecidableEq, Repr, Inhabited

/-- State of an IDE stream (R285). -/
inductive IdeSt where
  | noKeys | secure | insecure
  deriving DecidableEq, Repr, Inhabited

structure JobRun where
  idx : Nat := 0               -- ring index of the descriptor
  mv : Nat := 0
  vec : Nat := 0
  status : Nat := 0            -- STATUS that void work of the job has fixed (R289); 0 none
  deriving DecidableEq, Repr, Inhabited

structure HostSt where
  mem : Mem := []              -- host memory the device writes and reads (R284)
  lost : Bool := false         -- a host loss is in force (R290)
  hdm : Bool := false          -- HDM decoder committed (R281)
  perst : Bool := false        -- PERST_N asserted
  ideIo : IdeSt := .noKeys
  ideMem : IdeSt := .noKeys
  msix : Tbl Msix := []
  readData : List Byte := []   -- data of the last host read, and its poison
  readPoison : Bool := false
  cfgRetry : Bool := false     -- the last configuration request was answered with Configuration Request Retry Status
  cfgData : Word := 0
  cfg : Tbl Nat := []          -- configuration space words the host wrote
  msixTab : Tbl Nat := []      -- words of the MSI-X table but for the mask bits (R280)
  comp : Tbl Nat := []         -- component register words the host wrote (R280)
  hdmErr : Bool := false       -- the last commit of the HDM decoder failed (R281)
  doe : List Byte := []        -- last DOE object returned
  regData : Nat := 0           -- data of the last register read command
  jobs : Tbl (Option JobRun) := [] -- running job, by context
  sessions : List Nat := []    -- secured SPDM sessions
  injPosted : Nat := 0         -- counts of the injection balance (R274)
  injRead : Nat := 0
  injAccepted : Nat := 0
  injRefused : Nat := 0
  injLane : Tbl Nat := []      -- MODE 0 frames injected per lane in this beat
  injOff : Bool := false       -- the ring in host memory waits for a write of INJ_EN after a host loss (R292)
  deriving DecidableEq, Repr, Inhabited

/-! ### Units, faults, resets -/

structure LaneSt where
  pass : Bool := false         -- pass mode (R199)
  own : Bool := false          -- pass mode for a cause of its own, not its replica's (R377)
  dev : Bool := false          -- device-caused (R308)
  resetting : Bool := false
  resident : Nat := 0          -- packets of the lane in the hold-buffer descriptor table
  deriving DecidableEq, Repr, Inhabited

structure FlockSt where
  withdrawn : Bool := false
  dev : Bool := false
  worn : Bool := false
  debug : Bool := false
  ovf : Nat := 0               -- 1 + last beat in which an overflow of a sync cell counted as a miss (R225)
  halted : Bool := false
  step : Bool := false
  wdTree : DWord := 0          -- TREE_WD_REQ requests waiting for a plan load
  wdArray : DWord := 0         -- ARRAY_WD_REQ requests waiting
  clkBase : Nat := 0           -- island cycles counted up to the start of beat clkBeat (R220)
  clkBeat : Nat := 0           -- beat in which the flock's clock last changed
  mover : Nat := 0             -- island cycle from which the flock's memory mover is free (R134)
  deriving DecidableEq, Repr, Inhabited

/-- The DMC's view of a unit (R305). -/
inductive DmcView where
  | inService | withdrawn | underTest
  deriving DecidableEq, Repr, Inhabited

structure FaultSt where
  seq : Nat := 0               -- SEQ of the next fault record (R300)
  auditSeq : Nat := 0          -- SEQ of the next audit record (R344)
  dmc : Tbl DmcView := []      -- the DMC's view, by unit code
  wd : Tbl Bool := []          -- the data path's view: withdrawn, by unit code (replicas, HBM controllers, herd ports)
  bridgeVoid : Tbl Nat := []   -- void transfers per die this epoch (R299)
  hbmBad : List Nat := []      -- uncorrectable lines
  cycAt : Nat := 0             -- herd time of the writes that follow
  cycOld : List Host.Cell := []     -- bytes that device writes of that cycle replaced (R283)
  cycLate : List (Nat × Nat × List Byte) := []  -- writes that come after others of that cycle: 1 remote, 2 host; address; bytes (R243, R283)
  wback : Tbl Nat := []        -- corrected lines whose write-back is due, with the beat of the correction (R296)
  scrubbed : Tbl Nat := []     -- lines read in the present pass of the patrol scrub, by controller
  scrubPer : Tbl Nat := []     -- 1 + the scrub period that pass is of (R296)
  eccInj : Tbl Bool := []      -- ECC_INJ armed, by controller
  retest : Option Nat := none  -- unit code under re-test (R306)
  rst : Option (Nat × Nat) := none -- lane or flock reset running: kind, unit (R316)
  breakForce : Option Nat := none  -- BREAK_INJ for the next boundary
  breakPend : List (LedgerSubj × Nat × Int × Nat × Nat) := []  -- breaks found at the last boundary: balance, unit, difference, the two sides (R302)
  rebase : Tbl Int := []       -- differences by which balances are rebased (R304): balance code × 4096 + unit
  laneBreak : Nat := 0         -- 1 + beat of the last lane break (R303)
  disputed : List Nat := []    -- units withdrawn for a dispute and not re-tested since, by unit code (R305)
  jFail : Tbl Nat := []        -- copies of a journal entry that failed (R298): by context, 4097 rule slot copy, 4098 rehash journal
  devTotals : Tbl Nat := []    -- the port core's own device totals (R302)
  epochPkts : Nat := 0         -- packets received in the epoch in progress (R308)
  lastEpochPkts : Nat := 0
  resetBeat : Nat := 0         -- R_B (R217)
  resetDev : Bool := false     -- the reset in progress is device-caused
  totals : List Nat := []      -- ledger totals before the reset (R310)
  tripped : Bool := false      -- THERMTRIP_N low (R399)
  tripRecord : Bool := false   -- a CLASS 10 record is due at the next boot
  flashAv : List Nat := []     -- availability counts in flash (R308)
  deriving DecidableEq, Repr, Inhabited

/-! ### Boot, security, settings, calibration, ageing -/

/-- A firmware bank of the on-package flash (R339). -/
structure FwBank where
  img : List Byte := []
  order : Nat := 0             -- rises with each write
  torn : Bool := false
  deriving DecidableEq, Repr, Inhabited

/-- A record of a settings-ledger slot (R347). -/
structure LedRec where
  value : List Byte := []
  beat : Nat := 0
  signer : List Byte := []
  committed : Bool := false
  deriving DecidableEq, Repr, Inhabited

structure Token where
  perms : Nat := 0
  expiry : Nat := 0
  flocks : BitVec 256 := 0
  deriving DecidableEq, Repr, Inhabited

/-- Debug authorisation (R350, R351, R381): what an active token grants, and whether the expert fields are unlocked. -/
structure AuthSt where
  token : Option Token := none
  unlocked : Bool := false
  deriving DecidableEq, Repr, Inhabited

structure SecSt where
  pwrGood : Bool := false
  resetN : Bool := true        -- RESET_N high
  bootSrc : Nat := 0
  compat : Bool := false
  herdEn : Bool := false
  level : Nat := 2             -- active Zormi level (R349)
  booting : Bool := false
  warm : Bool := false         -- the boot in progress belongs to a warm reset
  bankA : FwBank := {}
  bankB : FwBank := {}
  writes : Nat := 0            -- firmware bank writes since manufacture
  running : Option (List Byte) := none
  recovery : Option (List Byte) := none
  fwPend : Option (Bool × List Byte) := none -- bank B?, image being written
  slots : Tbl (List LedRec) := []  -- settings ledger, by slot (R345)
  setPend : Option (Nat × LedRec) := none
  domain : Option (List Byte) := none -- HERD_DOMAIN in effect (R345)
  owner : Option (List Byte) := none -- OWNER in effect: digest and flags (R345)
  draws : Nat := 0             -- random draws made
  nonce : DWord := 0
  chal : BitVec 16 := 0
  unlock : Option (Source × Nat) := none  -- first key of the sequence accepted: source and beat (R381)
  jtag : Bool := false         -- JTAG port open (R352)
  low : Tbl (Option (Nat × Nat)) := []    -- held low half per source: field address and value (R374)
  latch : Tbl (Option (Nat × Nat)) := []  -- latched high half per source (R355)
  reqReset : Option Bool := none -- DEV.CTRL request pending: false warm, true cold
  reqBeat : Nat := 0           -- beat of the request
  reval : Bool := false        -- the revalidation of a warm reset is done (R310)
  deriving DecidableEq, Repr, Inhabited

structure CalRec where
  value : Word := 0
  factory : Bool := false
  count : Nat := 0
  deriving DecidableEq, Repr, Inhabited

structure CalSt where
  recs : Tbl CalRec := []      -- records a user write has changed (R318, R319); kept with find?
  pend : Option (Nat × Word) := none
  hist : Tbl (List Int) := []  -- ceilings of the last intervals, by island, newest first (R329)
  dirty : List Nat := []       -- islands whose baselines changed since their last reading (R320)
  adaptAt : Tbl Nat := []      -- schedule cycle past a lane's last adaptation step (R321): Ethernet lane l, herd lane 64 + k
  readAt : Nat := 0            -- 1 + beat of the last sensor reading (R326)
  fcAt : Nat := 0              -- 1 + beat of the last forecast (R329)
  deriving DecidableEq, Repr, Inhabited

/-! ### The herd (R230 to R251) -/

structure HLinkSt where
  seq : Option Nat := none     -- SEQ expected next; none before the first flit
  missing : Nat := 0           -- flits found missing by SEQ (R235)
  txSeq : Nat := 0             -- SEQ of the next flit sent
  txSlots : List Nat := []     -- slots sent since training, per VC (R231)
  rxSlots : List Nat := []     -- slots freed at this end since training, per VC
  peerDist : Option Nat := none    -- distance in the last marker
  peerPhase : Int := 0
  lastMarker : Option Nat := none  -- beat of the last marker
  peerBeat : Nat := 0
  peerMembers : Nat := 0
  peer : Option HelloF := none
  credit : List Nat := []      -- slots freed at the neighbour since training, per VC
  cap : List (List Byte) := [] -- captured flits (R250)
  redVoid : Option Bool := none
  trainAt : Nat := 0           -- beat at which training began (R230)
  missOut : Bool := false      -- down for its misses until ENABLE is written again (R219)
  deriving DecidableEq, Repr, Inhabited

/-- A message the device originates (R232): port or broadcast, kind and contents as words. -/
structure OutMsg where
  port : Option Nat
  kind : Nat
  src : Nat
  dest : Nat
  args : List Int
  sent : Nat := 0              -- slots of it that have left
  deriving DecidableEq, Repr

/-- An ordered commit the device holds (R248). -/
structure HerdOrder where
  seq : Nat
  c : Nat
  kind : CommitKind
  ver : Nat
  armed : Bool
  deriving DecidableEq, Repr

/-- A remote request that arrived and waits for the next beat (R243). -/
structure RemoteReq where
  kind : Nat                   -- 17 RD, 18 WR, 19 HGET, 20 HADD
  port : Nat
  src : Nat
  win : Nat
  addr : Nat
  len : Nat
  data : List Byte
  tag : DWord
  vals : List Word
  beat : Nat
  at_ : Nat := 0               -- herd time of its arrival
  tok : Nat := 0               -- what its answer names it by
  deriving DecidableEq, Repr

/-- A reduction of one window (R245, R246). -/
structure RedSt where
  acc : List Int := []
  count : Nat := 0
  void : Bool := false
  started : Bool := false
  have_ : Bool := false
  window : Nat := 0
  deriving DecidableEq, Repr, Inhabited

/-- A piece of an aperture COPY whose answer has not come (R242): its token, the core, its core memory address and its place among the
core's drains. -/
structure RemPend where
  tok : Nat
  core : ACoreId
  write : Bool
  addr : Nat
  len : Nat
  seq : Nat
  beat : Nat := 0              -- beat of the COPY
  deriving DecidableEq, Repr

structure HerdSt where
  remote : List RemPend := []
  homePend : List (Nat × Nat) := []    -- fetches of flow homes not answered: token and invocation (R244)
  routes : List Nat := []      -- member list of the epoch for transit through a device that has departed in it (R234)
  nextTok : Nat := 0
  members : List Nat := []     -- member list of the epoch, ascending; empty when ALONE
  quorum : Nat := 0            -- previous epoch's member count
  joins : List (Nat × Nat) := []   -- admitted devices and their beat E
  departs : List (Nat × Nat) := [] -- departing members and the beat at which they leave
  excl : List (Nat × Nat) := []    -- departing members and the first window that excludes them
  joinWant : Bool := false
  lockBeats : Nat := 0         -- beats in lock (R239)
  lostBeats : Nat := 0         -- consecutive beats out of lock (R237)
  joinE : Option Nat := none
  leaveAt : Option Nat := none
  t0 : Option Nat := none
  best : Option (Nat × Nat) := none    -- best candidate: BW_PRIO, member
  votes : List (Nat × Nat) := []       -- voter, candidate
  winner : Option (Nat × Nat) := none  -- member, beat of taking office
  orders : List HerdOrder := []
  nextSeq : Nat := 0
  lastOrderSeq : Nat := 0
  creqPend : List (CommitKind × Nat) := []  -- requested commits not yet ordered, and their versions (R247)
  vtab : Tbl (List (BitVec 16)) := []  -- VTABLE blocks received
  vtabRule : Nat := 0
  stopAt : Option Nat := none
  resumeAt : Option Nat := none
  stopped : Bool := false      -- from boundary S (R250)
  cut : Bool := false          -- from boundary S + 1
  reqs : List RemoteReq := []
  out : List OutMsg := []      -- messages that wait to leave, transit included
  red : Tbl RedSt := []
  rootVoid : Option Bool := none   -- the root's status for the latest window
  ownVoid : Option Bool := none
  steer : Int := 0
  prevMembers : List Nat := [] -- member list of the epoch before (R245)
  heard : Nat := 0             -- beat of the last marker on any port, or of entering FOLD (R238)
  bwGone : Bool := false       -- the bellwether's departure was announced (R238)
  nackers : List (Nat × Nat) := []     -- orders and members that answered NACK to them (R248)
  hrep : List Word := []       -- the last HREP: values and HOME_NEW (R244)
  hrepNew : Bool := false
  deriving DecidableEq, Repr, Inhabited

/-- A watch in force (R362). -/
structure Watch where
  ctx : Nat := 0
  mv : Nat := 0
  core : Nat := 0
  instr : Nat := 0
  mode : Nat := 0
  period : Nat := 0
  armedAt : Nat := 0
  beat : Nat := 0              -- beat of the execution being taken
  acc : Tbl (List (Nat × Int)) := []   -- its elements so far, code and v, by chunk × 4 + array position
  void : Bool := false
  deriving DecidableEq, Repr, Inhabited

/-- What waits for the next beat boundary (R379 and the rules that say so). -/
inductive Act where
  | fragFlush
  | treeOff (f : Nat) (mask : DWord)
  | arrayOff (f : Nat) (mask : DWord)
  | patch (core : Nat) (table : Bool) (index : Nat) (word : DWord)
  | lanePass (mask : Nat)
  | lanePassOne (l : Nat) (dev : Bool)
  | devSafe (dev : Bool)
  | verdPatch (ctx code slot : Nat) (word : Word)
  | forceRetire (c : Nat)
  | syncSet (cell v : Nat)
  | syncMiss (f : Nat)
  | tokSet (pol : Nat) (te : Bool) (v : Nat)
  | qTokSet (pq : Nat) (v : Int)
  | restoreCtx (c : Nat)
  | ctxDown (c : Nat) (why : Nat) (dev : Bool)
  | flockWd (f : Nat) (dev : Bool)
  | unitOut (u : Nat)
  | readmit (u : Nat)
  | laneRst (l : Nat) (on : Bool)
  | dbgEnter (f : Nat)
  | dbgLeave (f : Nat)
  | halt (f : Nat) (v : Bool)
  | stepf (f : Nat)
  | offerInjected (port q : Nat) (fr : EgFrame)
  | tokenEnd
  | tokenStart (t : Token) (jtag : Bool)
  | hqStart (q : Nat)
  | speedChange (g : Nat)
  | learnCmd (op : Nat) (mac vlan loc : Nat)
  | selArm (n : Nat) (x : List Nat)
  | watchOff (n : Nat)
  deriving DecidableEq, Repr

/-- The whole state. -/
structure State where
  pending : List Instr         -- commands waiting, first in first out
  regs : Tbl Nat               -- register file: value of each field that differs from its reset value, by field key
  acting : Tbl Nat             -- the register values in force (R379): `regs` as it stood at the last beat boundary
  time : TimeSt
  rx : Tbl (Option RxFrame)    -- frame being received, by port (R49)
  pkts : Tbl (Option Pkt)      -- resident packets, by number (R274)
  nextPkt : Nat
  laneAcc : Tbl Nat            -- 1 + schedule cycle of the lane's last acceptance of this beat (R31)
  cls : Classifier
  frag : Tbl FragEnt           -- fragment table: bucket × 4 + way (R46)
  flow : FlowSt
  ep : Tbl EpEnt               -- endpoint table: bucket × 4 + way (R82)
  fcores : Tbl FCore           -- feature cores: lane × 192 + core (R88)
  fsets : Tbl FSet             -- feature sets: half × 16 + set (R99)
  fhalf : Bool                 -- active half of the feature cores
  tree : TreeSt
  arr : ArraySt
  ctxs : Tbl Ctx               -- model contexts (R202)
  layout : Ctx                 -- the layout's two slots (R215)
  eg : EgressSt
  rxTs : Tbl (List TsEnt)      -- timestamp FIFOs, by port group (R229)
  txTs : Tbl (List TsEnt)
  hq : Tbl HqSt
  obs : ObsSt
  watches : Tbl (Option Watch)
  host : HostSt
  hbm : Mem                    -- HBM by device address (R24, R401)
  lanes : Tbl LaneSt
  flocks : Tbl FlockSt
  flt : FaultSt
  sec : SecSt
  auth : AuthSt
  cal : CalSt
  hl : Tbl HLinkSt
  herd : HerdSt
  acts : List Act              -- effects waiting for the next beat boundary
  devSafe : Bool               -- device safe forwarding state (R199)
  globals : GlobSt             -- GLOBAL words of the input record (R22, R91)
  free : Nat                   -- the model's own counter of free values drawn (not the manual's)
  deriving DecidableEq, Repr

/-- The machine right after a cold reset: every register at its reset value, every table and memory empty, no command waiting. -/
def State.reset : State :=
  { pending := [], regs := [], acting := [], time := {}, rx := [], pkts := [], nextPkt := 0, laneAcc := [],
    cls := {}, frag := [], flow := {}, ep := [], fcores := [], fsets := [], fhalf := false, tree := {}, arr := {},
    ctxs := [], layout := {}, eg := {}, rxTs := [], txTs := [], hq := [], obs := {}, watches := [], host := {},
    hbm := [], lanes := [], flocks := [], flt := {}, sec := { nonce := Config.rand 0, chal := (Config.rand 1).setWidth 16, draws := 2 },
    auth := {}, cal := {}, hl := [], herd := {}, acts := [], devSafe := false, globals := {}, free := 0 }

end Sys2Proof.Machine
end

