-- ==== Sys2Proof/Machine/Ops.lean ====
section
/-! DEFINITION. The named operations the meanings share: bit fields, sparse tables, byte memories, the register file, events,
host-bound queues, fault and audit records, units in and out of service. -/

namespace Sys2Proof

/-- Number of an island (R323). -/
def Island.num : Island → Nat
  | .lane l => l.val
  | .replica r => 16 + r.val
  | .portCore => 24
  | .flock f => 32 + f.val
  | .hbmc n => 288 + n.val
  | .hlink p => 296 + p.val
/-- Code of a unit: RETEST_KIND and RETEST_UNIT (R316). -/
def Unit7.code : Unit7 → Nat
  | .lane l => 1 * 65536 + l.val
  | .flock f => 2 * 65536 + f.val
  | .array f a => 3 * 65536 + f.val * 64 + a.val
  | .treeCore f t => 4 * 65536 + f.val * 64 + t.val
  | .replica r => 5 * 65536 + r.val
  | .hbmc n => 6 * 65536 + n.val
  | .hport p => 7 * 65536 + p.val

/-- Number of an access source (R344). -/
def Source.num : Source → Nat
  | .bar0 => 0
  | .sideband => 1
  | .jtag => 2

end Sys2Proof

namespace Sys2Proof.Machine

/-! ### Bits and bytes (R8) -/

/-- Bits [lo + w − 1 : lo] of v. -/
def bits (v lo w : Nat) : Nat := v / 2 ^ lo % 2 ^ w
/-- v with its bits [lo + w − 1 : lo] replaced by x. -/
def setBits (v lo w x : Nat) : Nat := v - bits v lo w * 2 ^ lo + x % 2 ^ w * 2 ^ lo
/-- The two's-complement value of the low w bits of v. -/
def toSigned (w v : Nat) : Int := if bits v (w - 1) 1 = 1 then (v % 2 ^ w : Nat) - (2 ^ w : Nat) else (v % 2 ^ w : Nat)
/-- The low w bits of an integer in two's complement. -/
def ofSigned (w : Nat) (i : Int) : Nat := (i % ((2 ^ w : Nat) : Int)).toNat
/-- i held to lo … hi. -/
def clampInt (lo hi i : Int) : Int := if i < lo then lo else if hi < i then hi else i
/-- 1 for true. -/
def b2n (b : Bool) : Nat := if b then 1 else 0
/-- Quotient rounded up. -/
def ceilDiv (a b : Nat) : Nat := (a + b - 1) / b

/-- The n low bytes of v, least significant first (R8: registers and records). -/
def leBytes : Nat → Nat → List Byte
  | 0, _ => []
  | n + 1, v => BitVec.ofNat 8 v :: leBytes n (v / 256)
/-- The n low bytes of v, most significant first (R8: headers on the wire). -/
def beBytes (n v : Nat) : List Byte := (leBytes n v).reverse
/-- The number little-endian bytes spell. -/
def leNat : List Byte → Nat
  | [] => 0
  | b :: t => b.toNat + 256 * leNat t
/-- The number big-endian bytes spell. -/
def beNat (bs : List Byte) : Nat := bs.foldl (fun a b => a * 256 + b.toNat) 0
/-- Bytes off … off + n − 1; bytes past the end are absent. -/
def slice (bs : List Byte) (off n : Nat) : List Byte := (bs.drop off).take n
/-- Little-endian field of a record. -/
def leAt (bs : List Byte) (off n : Nat) : Nat := leNat (slice bs off n)
/-- Big-endian field of a header. -/
def beAt (bs : List Byte) (off n : Nat) : Nat := beNat (slice bs off n)
/-- n zero bytes. -/
def zeros (n : Nat) : List Byte := List.replicate n 0
/-- bs with bytes from off on replaced by xs. -/
def putBytes (bs : List Byte) (off : Nat) (xs : List Byte) : List Byte := bs.take off ++ xs ++ bs.drop (off + xs.length)

/-! ### Sparse tables -/

/-- The listed entry of a key. -/
def Tbl.find? {α : Type} : Tbl α → Nat → Option α
  | [], _ => none
  | (a, v) :: t, k => if a = k then some v else Tbl.find? t k
/-- The entry of a key; the default value where none is listed. -/
def Tbl.get {α : Type} [Inhabited α] (t : Tbl α) (k : Nat) : α := (t.find? k).getD default
/-- List an entry, replacing the one its key has, keys rising. -/
def Tbl.put {α : Type} : Tbl α → Nat → α → Tbl α
  | [], k, v => [(k, v)]
  | (a, x) :: t, k, v => if k < a then (k, v) :: (a, x) :: t else if k = a then (k, v) :: t else (a, x) :: Tbl.put t k v
/-- Remove the entry of a key. -/
def Tbl.erase {α : Type} (t : Tbl α) (k : Nat) : Tbl α := t.filter (fun e => e.1 ≠ k)
/-- Set a key's value; the value d that an unlisted key holds is not listed. -/
def Tbl.setD {α : Type} [DecidableEq α] (t : Tbl α) (d : α) (k : Nat) (v : α) : Tbl α := if v = d then t.erase k else t.put k v
/-- Set a key's value over the default value of its type. -/
def Tbl.set {α : Type} [Inhabited α] [DecidableEq α] (t : Tbl α) (k : Nat) (v : α) : Tbl α := t.setD default k v
/-- Change a key's value. -/
def Tbl.mod {α : Type} [Inhabited α] [DecidableEq α] (t : Tbl α) (k : Nat) (f : α → α) : Tbl α := t.set k (f (t.get k))
/-- The listed keys. -/
def Tbl.keys {α : Type} (t : Tbl α) : List Nat := t.map (·.1)
/-- Keys strictly rising. -/
def Tbl.sorted {α : Type} : Tbl α → Bool
  | [] => true
  | [_] => true
  | (a, _) :: (b, v) :: t => decide (a < b) && Tbl.sorted ((b, v) :: t)
/-- The canonical form: keys strictly rising, no entry equal to the value an unlisted key holds. -/
def Tbl.wf {α : Type} [DecidableEq α] (t : Tbl α) (d : α) : Bool := t.sorted && t.all (fun e => decide (e.2 ≠ d))

/-! ### Byte memories -/

/-- One byte; an unlisted address reads as zero. -/
def Mem.read (m : Mem) (a : Nat) : Byte := (Tbl.find? m a).getD 0
/-- Store one byte, keeping the canonical form. -/
def Mem.write (m : Mem) (a : Nat) (b : Byte) : Mem := Tbl.setD m 0 a b
/-- Bytes a … a + n − 1. -/
def Mem.readN (m : Mem) (a n : Nat) : List Byte := (List.range n).map (fun i => Mem.read m (a + i))
/-- Store bytes from a on. -/
def Mem.writeN (m : Mem) (a : Nat) : List Byte → Mem
  | [] => m
  | b :: bs => Mem.writeN (Mem.write m a b) (a + 1) bs
/-- Zero bytes lo … hi − 1. -/
def Mem.clear (m : Mem) (lo hi : Nat) : Mem := m.filter (fun c => decide (c.1 < lo) || decide (hi ≤ c.1))
/-- Little-endian number of n bytes. -/
def Mem.readLE (m : Mem) (a n : Nat) : Nat := leNat (Mem.readN m a n)
/-- Canonical form of a memory. -/
def Mem.wf (m : Mem) : Bool := Tbl.wf m (0 : Byte)

/-! ### The register file (R10, R355, R379) -/

/-- Key of a field's element: its BAR0 address and low bit, and the unit a select register banks it by. -/
def Field.key (f : Field) (inst idx sel : Nat) : Nat :=
  ((pageBase f.block inst + f.off + f.stride * idx) * 64 + f.lo + f.bstride * idx) * 65536 + sel
/-- Reset value of a field's element. -/
def Field.resetAt (f : Field) (idx : Nat) : Nat := f.rsts.getD idx f.rst
/-- A common register (R375) of a block's page. -/
def Field.on (f : Field) (block : Nat) : Field := { f with block := block }

/-- Value of a field as a read returns it. -/
def State.rd (s : State) (f : Field) (inst : Nat := 0) (idx : Nat := 0) (sel : Nat := 0) : Nat :=
  (s.regs.find? (f.key inst idx sel)).getD (f.resetAt idx)
/-- Value of a field in force: writes act at the next beat boundary (R379). -/
def State.act (s : State) (f : Field) (inst : Nat := 0) (idx : Nat := 0) (sel : Nat := 0) : Nat :=
  (s.acting.find? (f.key inst idx sel)).getD (f.resetAt idx)
/-- Set a field, cut to its width. -/
def State.wr (s : State) (f : Field) (v : Nat) (inst : Nat := 0) (idx : Nat := 0) (sel : Nat := 0) : State :=
  { s with regs := s.regs.setD (f.resetAt idx) (f.key inst idx sel) (v % 2 ^ f.width) }
/-- Set a field and put the value in force at once, where the field's rule says so. -/
def State.wrNow (s : State) (f : Field) (v : Nat) (inst : Nat := 0) (idx : Nat := 0) (sel : Nat := 0) : State :=
  let s := s.wr f v inst idx sel
  { s with acting := s.acting.setD (f.resetAt idx) (f.key inst idx sel) (v % 2 ^ f.width) }
/-- Count n events: a 64-bit counter wraps, a counter of 32 bits or fewer saturates (R355). -/
def State.bump (s : State) (f : Field) (inst : Nat := 0) (idx : Nat := 0) (sel : Nat := 0) (n : Nat := 1) : State :=
  let v := s.rd f inst idx sel + n
  s.wr f (if f.width = 64 then v else Nat.min v (2 ^ f.width - 1)) inst idx sel

/-! ### Stage, time and islands -/

/-- Stage READY or RUN: the register pages are open (R335, R336). -/
def State.pagesOpen (s : State) : Bool := decide (s.rd Reg.DEV.STAGE = 4) || decide (s.rd Reg.DEV.STAGE = 5)
/-- Capture time of the present schedule cycle (R91). -/
def State.now (s : State) : Nat := s.time.beat * 512 + s.time.cycle
/-- Nominal MHz of flock f's clock (R220); before the planner has set one, the schedule clock's own 1,200. -/
def State.islMhz (s : State) (f : Nat) : Nat := let m := s.rd Reg.AGE.CLK_MHZ 0 0 (32 + f); if m = 0 then 1200 else m
/-- Island cycles of flock f in a beat (R220). -/
def State.islLen (s : State) (f : Nat) : Nat := 512 * s.islMhz f / 1200
/-- Island cycles of flock f up to the start of the present beat. -/
def State.islStart (s : State) (f : Nat) : Nat := (s.flocks.get f).clkBase + (s.time.beat - (s.flocks.get f).clkBeat) * s.islLen f
/-- The flock's present island cycle within its beat. -/
def State.islCycle (s : State) (f : Nat) : Nat := s.time.cycle * s.islMhz f / 1200
/-- The flock's present island cycle, counted on from beat to beat. -/
def State.islNow (s : State) (f : Nat) : Nat := s.islStart f + s.islCycle f
/-- Beat and island cycle within it of a counted island cycle. -/
def State.islSplit (s : State) (f x : Nat) : Nat × Nat :=
  if x < s.islStart f ∨ s.islLen f = 0 then (s.time.beat, s.islCycle f) else (s.time.beat + (x - s.islStart f) / s.islLen f, (x - s.islStart f) % s.islLen f)
/-- A value the manual leaves open, and the state that has drawn it. -/
def State.fresh (s : State) : DWord × State := (Config.free s.free, { s with free := s.free + 1 })

/-- Draw the next random number for CHAL (R381). -/
def State.drawChal (s : State) : State :=
  { s with sec := { s.sec with chal := (Config.rand s.sec.draws).setWidth 16, draws := s.sec.draws + 1 } }
/-- Draw the next random number for DBG_NONCE (R351). -/
def State.drawNonce (s : State) : State :=
  { s with sec := { s.sec with nonce := Config.rand s.sec.draws, draws := s.sec.draws + 1 } }

/-- Queue an effect for the next beat boundary. -/
def State.later (s : State) (a : Act) : State := { s with acts := s.acts ++ [a] }

/-! ### MSI-X and events (R287, R375 to R378) -/

/-- Raise an MSI-X vector: a message already pending takes it in; nothing is kept while the host is lost (R287, R291). -/
def State.raiseVec (s : State) (v : Nat) : State :=
  if s.rd Reg.CXL.LINK_UP = 0 ∨ s.host.lost then s
  else { s with host := { s.host with msix := s.host.msix.mod v (fun m => { m with pending := true }) } }

/-- The EVENT word of a page. -/
def State.eventWord (s : State) (block inst : Nat) : Nat :=
  s.rd (Reg.COMMON.EVENT.on block) inst + s.rd (Reg.COMMON.EV_STATE.on block) inst * 2 ^ 30 + s.rd (Reg.COMMON.EV_FAULT.on block) inst * 2 ^ 31
/-- The EVENT bits of a page whose EVENT_MASK bit is clear (R378). -/
def State.eventLive (s : State) (block inst : Nat) : Nat :=
  s.eventWord block inst - (s.eventWord block inst &&& s.rd (Reg.COMMON.EVENT_MASK.on block) inst)
/-- Set the EVENT word of a page. -/
def State.wrEvent (s : State) (block inst v : Nat) : State :=
  ((s.wr (Reg.COMMON.EVENT.on block) v inst).wr (Reg.COMMON.EV_STATE.on block) (v / 2 ^ 30) inst).wr (Reg.COMMON.EV_FAULT.on block) (v / 2 ^ 31) inst
/-- Vector 0 is raised when a page's bit of EVT_SUM becomes set (R378). `old` is the state before the change. -/
def State.evtEdge (s old : State) (block inst : Nat) : State :=
  if old.eventLive block inst = 0 ∧ s.eventLive block inst ≠ 0 then s.raiseVec 0 else s
/-- Set EVENT bits of a page. -/
def State.events (s : State) (block inst mask : Nat) : State :=
  (s.wrEvent block inst (s.eventWord block inst ||| mask)).evtEdge s block inst
/-- Set one EVENT bit of a page (R377). -/
def State.event (s : State) (block inst bit : Nat) : State := s.events block inst (2 ^ bit)

/-! ### HBM (R24, R282, R296, R401) -/

/-- Size of region k in bytes (R282). -/
def State.regionSize (s : State) (k : Nat) : Nat := s.rd Reg.CXL.REGION_GIB 0 k * 2 ^ 30
/-- First device address of region k (R282). -/
def State.regionBase (s : State) (k : Nat) : Nat := ((List.range k).map s.regionSize).sum
/-- The region a device address lies in (R282). -/
def State.regionOf (s : State) (a : Nat) : Option Nat :=
  (List.range 6).find? (fun k => decide (s.regionBase k ≤ a) && decide (a < s.regionBase k + s.regionSize k))
/-- A range that lies wholly in region k. -/
def State.inRegion (s : State) (k a len : Nat) : Bool :=
  decide (s.regionBase k ≤ a) && decide (a + len ≤ s.regionBase k + s.regionSize k)
/-- The stack, and so the controller, of a device address (R401). -/
def stackOf (a : Nat) : Nat := a / 256 % 8
/-- The lines a range of bytes touches (64-byte lines, R296). -/
def linesOf (a len : Nat) : List Nat := if len = 0 then [] else (List.range ((a + len - 1) / 64 - a / 64 + 1)).map (fun i => a / 64 + i)
/-- Whether a range covers line l whole. -/
def coversLine (a len l : Nat) : Bool := decide (a ≤ l * 64) && decide (l * 64 + 64 ≤ a + len)
/-- The error state of line l after a write of the range: written whole it takes a fresh code, in part an uncorrectable line stays so (R296).
A write to a line cancels its write-back. -/
def State.touchLine (s : State) (a len l : Nat) : State :=
  let n := stackOf (l * 64)
  let f := s.flt
  let bad := if coversLine a len l then f.hbmBad.filter (· ≠ l) else f.hbmBad
  let inj := f.eccInj.get n
  { s with flt := { f with hbmBad := if inj then (bad.filter (· ≠ l)) ++ [l] else bad,
                           wback := f.wback.erase l,
                           eccInj := f.eccInj.set n false } }
/-- What the writes of the present cycle left behind: nothing when the last write was in another cycle. -/
def State.cycLate (s : State) : List (Nat × Nat × List Byte) := if s.flt.cycAt = s.now then s.flt.cycLate else []
def State.cycOld (s : State) : List Host.Cell := if s.flt.cycAt = s.now then s.flt.cycOld else []
/-- Bytes written into HBM. Within one cycle the device's own writes (rank 0) come first, then remote ones (1), then the host's (2), whatever order
they are commanded in (R243, R283). -/
def State.hbmPutAs (s : State) (rank a : Nat) (bs : List Byte) : State :=
  let n := bs.length
  let late := s.cycLate
  let old : List Host.Cell := if rank = 2 then [] else
    ((List.range n).filter (fun i => !(s.cycOld.any (fun e => e.1 == a + i)))).map (fun i => (a + i, Mem.read s.hbm (a + i)))
  let m := (late.filter (fun w => decide (rank < w.1))).foldl (fun m w =>
    (List.range w.2.2.length).foldl (fun m i => if a ≤ w.2.1 + i ∧ w.2.1 + i < a + n then Mem.write m (w.2.1 + i) (w.2.2.getD i 0) else m) m) (Mem.writeN s.hbm a bs)
  let t := (linesOf a n).foldl (fun t l => t.touchLine a n l) { s with hbm := m }
  { t with flt := { t.flt with cycAt := s.now, cycOld := s.cycOld ++ old, cycLate := if rank = 0 then late else late ++ [(rank, a, bs)] } }
def State.hbmPut (s : State) (a : Nat) (bs : List Byte) : State := s.hbmPutAs 0 a bs
/-- A byte as it was before the device writes of the present cycle. -/
def State.byteBefore (s : State) (a : Nat) : Byte := ((s.cycOld.find? (fun e => e.1 == a)).map (·.2)).getD (Mem.read s.hbm a)
/-- The lines an image range covers: first and last byte plus one. -/
def lineRange (addr len : Nat) : Nat × Nat := (addr, (addr + len + 63) / 64 * 64)
/-- The protected image ranges (R207), layout and running checks included: offsets in the context images region. -/
def State.protectedRanges (s : State) : List (Nat × Nat) :=
  let of (x : Ctx) : List (Nat × Nat) :=
    ([x.v0, x.v1].reduceOption.filter (·.protect)).map (fun v => lineRange v.addr v.len) ++ (if x.st = .checking ∧ x.chkProtect then [lineRange x.chkAddr x.chkLen] else [])
  s.ctxs.flatMap (fun e => of e.2) ++ of s.layout
/-- Two ranges meet. -/
def meets (a b : Nat × Nat) : Bool := decide (a.1 < b.2) && decide (b.1 < a.2)
/-- A line of HBM lies in a protected range. -/
def State.lineProtected (s : State) (l : Nat) : Bool := s.protectedRanges.any (fun r => meets (s.regionBase 2 + r.1, s.regionBase 2 + r.2) (l * 64, l * 64 + 64))
/-- The pieces of a write, line by line: address and bytes. -/
def pieces (addr : Nat) (data : List Byte) : List (Nat × List Byte) :=
  (linesOf addr data.length).map (fun l =>
    let a := Nat.max addr (l * 64)
    let b := Nat.min (addr + data.length) (l * 64 + 64)
    (a, slice data (a - addr) (b - a)))
/-- A write of HBM by the device itself, which never writes a protected range (R207). -/
def State.hbmWrite (s : State) (a : Nat) (bs : List Byte) : State :=
  if (linesOf a bs.length).any s.lineProtected then
    ((pieces a bs).filter (fun p => !s.lineProtected (p.1 / 64))).foldl (fun t p => t.hbmPut p.1 p.2) s
  else s.hbmPut a bs
/-- An uncorrectable line that a range meets. -/
def State.hbmUe (s : State) (a len : Nat) : Option Nat := s.flt.hbmBad.find? (fun l => decide (0 < len) && decide (a / 64 ≤ l) && decide (l * 64 < a + len))

/-! ### Host-bound queues (R266 to R271, R291) -/

/-- Slots of queue q. -/
def State.hqSlots (s : State) (q : Nat) : Nat := 2 ^ s.act Reg.HQ.LOG2_SLOTS 0 q
/-- Queue q writes nothing to memory: it is disabled (R268) or suspended by a host loss (R291). -/
def State.hqOff (s : State) (q : Nat) : Bool :=
  decide (s.act Reg.HQ.EN 0 q = 0) || (s.hq.get q).suspended || (decide (s.act Reg.HQ.LOC 0 q = 1) && s.host.lost)
/-- The stream that the device's accesses to host memory travel on is insecure, and its traffic is discarded: CXL.cachemem in CXL mode, else CXL.io
(R284, R285). -/
def State.hostMemOff (s : State) : Bool := if s.rd Reg.CXL.CXL_MODE = 1 then s.host.ideMem == .insecure else s.host.ideIo == .insecure
/-- Store bytes in the memory a LOC bit selects. -/
def State.locWrite (s : State) (loc a : Nat) (bs : List Byte) : State :=
  if loc = 1 then if s.hostMemOff then s else { s with host := { s.host with mem := Mem.writeN s.host.mem a bs } } else s.hbmWrite a bs
/-- Raise the queue's vector. -/
def State.hqIrq (s : State) (q : Nat) : State :=
  if s.act Reg.HQ.IRQ_EN 0 q = 1 then
    { s.raiseVec (s.act Reg.HQ.VECTOR 0 q) with hq := s.hq.mod q (fun h => { h with irqBeat := s.time.beat }) }
  else s
/-- The item goes to the slot of its number, then its tag (R267); the producer's count rises (R302). -/
def State.hqPlace (s : State) (q : Nat) (bs : List Byte) : State :=
  let n := s.rd Reg.HQ.PROD 0 q
  let slot := n % s.hqSlots q
  let loc := s.act Reg.HQ.LOC 0 q
  let s1 := s.locWrite loc (s.act Reg.HQ.RING_BASE 0 q + slot * s.rd Reg.HQ.SLOT_BYTES 0 q) bs
  let s2 := s1.locWrite loc (s.act Reg.HQ.TAG_BASE 0 q + slot * 8) (leBytes 8 (n % 2 ^ 63 + 2 ^ 63))
  let s3 := s2.wr Reg.HQ.PROD (n + 1) 0 q
  { s3 with hq := s3.hq.mod q (fun h => { h with produced := h.produced + 1 }) }
/-- The value of CONS that NEXT, the full test and the producer see: a write of this schedule cycle is not seen before the next (R270). -/
def State.consSeen (s : State) (q : Nat) : Nat :=
  match (s.hq.get q).consWr with
  | some (t, old) => if t = s.now then old else s.rd Reg.HQ.CONS 0 q
  | none => s.rd Reg.HQ.CONS 0 q
/-- The oldest item, or an item a queue that is off takes, counts as overwritten: CONS and LOST rise. Where a write of CONS fell in the same schedule
cycle, CONS keeps the larger of the two values (R270). -/
def State.hqLose (s : State) (q : Nat) : State :=
  let seen := s.consSeen q + 1
  let cons := s.rd Reg.HQ.CONS 0 q
  let s1 := (s.wr Reg.HQ.CONS (Nat.max cons seen) 0 q).bump Reg.HQ.LOST 0 q
  { s1 with hq := s1.hq.mod q (fun h => { h with
      overwritten := h.overwritten + 1, consumed := if cons < seen then h.consumed else h.consumed - 1,
      consWr := match h.consWr with
        | some (t, _) => if t = s.now then some (t, seen) else none
        | none => none }) }
/-- A producer places an item in queue q (R268). In the device safe forwarding state only queue 6 produces (R271). -/
def State.hqProduce (s : State) (q : Nat) (bs : List Byte) : State :=
  if s.devSafe ∧ q ≠ 6 then s
  else if s.hqOff q then
    let s1 := s.wr Reg.HQ.PROD (s.rd Reg.HQ.PROD 0 q + 1) 0 q
    ({ s1 with hq := s1.hq.mod q (fun h => { h with produced := h.produced + 1 }) }).hqLose q
  else
    let held := s.rd Reg.HQ.PROD 0 q - s.consSeen q
    if held = s.hqSlots q then
      if bits (s.act Reg.HQ.DROP_NEW) q 1 = 1 then
        let s1 := s.bump Reg.HQ.LOST 0 q
        { s1 with hq := s1.hq.mod q (fun h => { h with dropped := h.dropped + 1 }) }
      else (s.hqLose q).hqPlace q bs
    else
      let s1 := s.hqPlace q bs
      if held = 0 then s1.hqIrq q else s1

/-! ### Fault records (R300, R301, R375) -/

/-- What a fault record says beside its SEQ, BEAT, SEV and DETAIL (R300). -/
structure FaultRec where
  cls : Nat := 0
  scope : Nat := 0
  reason : Nat := 0
  action : Nat := 0
  block : Nat := 0
  inst : Nat := 0
  ctx : Nat := 0
  unit : Nat := 0
  addr : Nat := 0
  count : Nat := 0
  expect : Nat := 0
  seen : Nat := 0
  deriving DecidableEq, Repr, Inhabited

/-- SEV of a record (R301). -/
def FaultRec.sev (r : FaultRec) : Nat :=
  if r.cls = 6 ∨ r.cls = 7 ∨ r.cls = 9 ∨ r.cls = 10 ∨ r.cls = 11 ∨ r.action = 3 ∨ r.action = 4 ∨ r.action = 5 then 2
  else if (r.cls = 1 ∨ r.cls = 2 ∨ r.cls = 3) ∧ (r.action = 1 ∨ r.action = 2) then 1 else 0
/-- The FAULT_INFO word after the record (R375). -/
def FaultRec.info (r : FaultRec) : Nat := r.unit % 65536 + r.reason % 256 * 2 ^ 16 + r.sev * 2 ^ 24
/-- The 128 bytes of a record (R300). -/
def FaultRec.bytes (r : FaultRec) (seq beat : Nat) : List Byte :=
  leBytes 8 seq ++ leBytes 8 beat ++ leBytes 1 r.cls ++ leBytes 1 r.sev ++ leBytes 1 r.scope ++ leBytes 1 r.reason ++ leBytes 1 r.action
    ++ zeros 1 ++ leBytes 2 r.block ++ leBytes 2 r.inst ++ leBytes 2 (r.ctx % 4096) ++ leBytes 4 r.unit ++ leBytes 8 r.addr ++ leBytes 8 r.count
    ++ leBytes 8 r.expect ++ leBytes 8 r.seen ++ leBytes 8 r.info ++ zeros 56
/-- FAULT and FAULT_INFO of the block's page take the record (R375). -/
def State.faultRegs (s : State) (r : FaultRec) : State :=
  let s := (s.wr (Reg.COMMON.FLT_CLASS.on r.block) r.cls r.inst).wr (Reg.COMMON.FLT_SCOPE.on r.block) r.scope r.inst
  let s := (s.wr (Reg.COMMON.FLT_ACTION.on r.block) r.action r.inst).wr (Reg.COMMON.INFO_UNIT.on r.block) r.unit r.inst
  (s.wr (Reg.COMMON.INFO_REASON.on r.block) r.reason r.inst).wr (Reg.COMMON.INFO_SEV.on r.block) r.sev r.inst
/-- Write a fault record: the page's FAULT registers and EVENT bit 31, the item of queue 6, and ALERT_PEND for SEV 2. -/
def State.fault (s : State) (r : FaultRec) : State :=
  let s1 := (s.faultRegs r).event r.block r.inst 31
  let s2 := s1.hqProduce 6 (r.bytes s.flt.seq s.time.beat)
  let s3 := { s2 with flt := { s2.flt with seq := s2.flt.seq + 1 } }
  if r.sev = 2 then s3.wr Reg.LEDG.ALERT_PEND 1 else s3

/-! ### Audit records (R344) -/

/-- What an audit record says beside its SEQ and BEAT. -/
structure AuditRec where
  block : Nat := 0
  inst : Nat := 0
  off : Nat := 0
  source : Nat := 0
  result : Nat := 0
  old : Nat := 0
  new : Nat := 0
  signer : Nat := 0
  ctx : Nat := 0
  kind : Nat := 0
  deriving DecidableEq, Repr, Inhabited

/-- The 64 bytes of a record (R344). -/
def AuditRec.bytes (r : AuditRec) (seq beat : Nat) : List Byte :=
  leBytes 8 seq ++ leBytes 8 beat ++ leBytes 2 r.block ++ leBytes 2 r.inst ++ leBytes 2 r.off ++ leBytes 1 r.source ++ leBytes 1 r.result
    ++ leBytes 8 r.old ++ leBytes 8 r.new ++ leBytes 8 r.signer ++ leBytes 2 r.ctx ++ leBytes 1 r.kind ++ zeros 13
/-- Write an audit record to queue 7, or count it as suppressed in the device safe forwarding state (R271, R344). -/
def State.audit (s : State) (r : AuditRec) : State :=
  if s.devSafe then s.bump Reg.SEC.AUDIT_SUPPRESSED
  else
    let s1 := s.hqProduce 7 (r.bytes s.flt.auditSeq s.time.beat)
    { s1 with flt := { s1.flt with auditSeq := s1.flt.auditSeq + 1 } }
/-- The audit record of a command written to field f. -/
def State.auditCmd (s : State) (src : Source) (f : Field) (inst new res : Nat) (ctx : Nat := 0) (kind : Nat := 5) : State :=
  s.audit { block := f.block, inst := inst, off := f.off, source := src.num, result := res, new := new * 2 ^ f.lo, ctx := ctx, kind := kind }

/-! ### Commands written to registers (R11, R374, R379 to R382) -/

/-- A register write from a source arrives: a low half it held is dropped (R374), and an unlock sequence waiting for its second key from
that source ends as interrupted (R381). -/
def State.wrote (s : State) (src : Source) : State :=
  let s := { s with sec := { s.sec with low := s.sec.low.erase src.num } }
  match s.sec.unlock with
  | some (src1, _) =>
    if src1 = src then ({ s with sec := { s.sec with unlock := none } }.wr Reg.DEV.SEQ_RESULT 4).drawChal else s
  | none => s
/-- What a source may write (R285, R343, R352): the host driver every page unless CXL.io is insecure, the sideband only DEV.CTRL, ALERT_PEND and the mailboxes of SET and SEC
(`mail`), and JTAG what the host driver may while its port is open. -/
def State.mayWrite (s : State) (src : Source) (mail : Bool) : Bool :=
  match src with
  | .bar0 => s.host.ideIo != .insecure
  | .sideband => mail
  | .jtag => s.sec.jtag
/-- A write of a basic command field: nothing before the pages are open (R336). -/
def State.basicCmd (s : State) (src : Source) (k : State → State) (mail : Bool := false) : Host.Outcome State Fault Refusal :=
  if s.pagesOpen ∧ s.mayWrite src mail then .next (k (s.wrote src)) else .next s
/-- A write of an expert command field: without UNLOCK it has no effect, and is audited so (R11, R382). -/
def State.expertCmd (s : State) (src : Source) (f : Field) (inst new : Nat) (k : State → State) : Host.Outcome State Fault Refusal :=
  s.basicCmd src (fun s => if s.auth.unlocked then k (s.auditCmd src f inst new 0) else s.auditCmd src f inst new 2)

/-! ### The packet ledger (R274, R316) -/

/-- Count a packet of a lane: category 0 received, 1 forwarded, 2 dropped by rule, 3 as malformed, 4 by policer, 5 by queue,
6 host only (R316). The port core keeps device totals of its own beside the register's (R302). -/
def State.ledger (s : State) (lane cat : Nat) : State :=
  let s := (s.bump Reg.LEDG.LANE_LEDGER 0 (lane * 8 + cat)).bump Reg.LEDG.DEV_LEDGER 0 cat
  { s with flt := { s.flt with devTotals := s.flt.devTotals.mod cat (· + 1) } }
/-- The resident counts, from the lane's entries in the hold-buffer descriptor table (R302). -/
def State.setResident (s : State) (lane : Nat) (up : Bool) : State :=
  let n := (s.lanes.get lane).resident
  let n' := if up then n + 1 else n - 1
  let d := s.rd Reg.LEDG.DEV_LEDGER 0 7
  let s := { s with lanes := s.lanes.mod lane (fun l => { l with resident := n' }) }
  (s.wr Reg.LEDG.LANE_LEDGER n' 0 (lane * 8 + 7)).wr Reg.LEDG.DEV_LEDGER (if up then d + 1 else d - 1) 0 7

/-- Take or return hold-buffer cells (R49): ALLOC, and the census of R316. -/
def State.cells (s : State) (d : Int) : State :=
  let a := ((s.rd Reg.HOLD.ALLOC : Int) + d).toNat
  ((s.wr Reg.HOLD.ALLOC a).wr Reg.LEDG.ALLOC_CELLS a).wr Reg.LEDG.FREE_CELLS (524288 - a)
/-- Free cells of the hold buffer (R49). -/
def State.freeCells (s : State) : Nat := 524288 - s.rd Reg.HOLD.ALLOC

/-! ### Packets -/

/-- The resident packet of a number. -/
def State.pkt? (s : State) (k : PktId) : Option Pkt := (s.pkts.find? k).join
/-- Change a resident packet. -/
def State.modPkt (s : State) (k : PktId) (f : Pkt → Pkt) : State :=
  match s.pkt? k with
  | some p => { s with pkts := s.pkts.put k (some (f p)) }
  | none => s
/-- The resident packets, by number. -/
def State.resident (s : State) : List (PktId × Pkt) := s.pkts.filterMap (fun e => e.2.map (fun p => (e.1, p)))

/-! ### A context's slots (R208) -/

def Ctx.active (x : Ctx) : Option Version := if x.slot then x.v1 else x.v0
def Ctx.other (x : Ctx) : Option Version := if x.slot then x.v0 else x.v1
def Ctx.setOther (x : Ctx) (v : Option Version) : Ctx := if x.slot then { x with v0 := v } else { x with v1 := v }
/-- Content of a section in the version's image in HBM (R202, R205). -/
def State.imgBytes (s : State) (v : Version) (t : Sect) : List Byte := Mem.readN s.hbm (s.regionBase 2 + v.addr + t.off) t.len
def Ctx.setActive (x : Ctx) (v : Option Version) : Ctx := if x.slot then { x with v1 := v } else { x with v0 := v }
/-- The version staged beside the active one; one that retires is not, nor one whose staging goes on. -/
def Ctx.staged (x : Ctx) : Option Version := if x.st = .staged ∨ x.st = .armed then x.other else none

/-! ### Units (R199, R219, R305) -/

/-- The data path's view: the unit is withdrawn. -/
def State.isOut (s : State) (u : Unit7) : Bool :=
  match u with
  | .lane l => (s.lanes.get l.val).pass
  | .flock f => (s.flocks.get f.val).withdrawn
  | .array f a => bits (s.rd Reg.FLOCK.ARRAY_WD f.val) a.val 1 = 1
  | .treeCore f t => bits (s.rd Reg.FLOCK.TREE_WD f.val) t.val 1 = 1
  | u => s.flt.wd.get u.code
/-- Set the DMC's view of a unit (R305). -/
def State.dmcView (s : State) (u : Unit7) (v : DmcView) : State := { s with flt := { s.flt with dmc := s.flt.dmc.set u.code v } }

end Sys2Proof.Machine
end

