-- ==== Sys2Proof/Machine/Parse.lean ====
section
/-! DEFINITION. The parser (R36, R38 to R41, R44): the parse result of a frame. -/

namespace Sys2Proof.Machine

/-- A parse in progress: what it has located, and where the fixed part of the last located header ends. -/
structure Walk where
  d : List Byte          -- the frame's data after any tap header, FCS left out
  p : Parse := {}
  fin : Nat := 0
  csum : Bool := false
  vxlan : Nat := 4789
  geneve : Nat := 6081

/-- A byte of the window (R38): one past byte 63 is absent, and read as zero where a field lies in part in the window. -/
def Walk.at (w : Walk) (i : Nat) : Nat := if i < 64 then (w.d.getD i 0).toNat else 0
/-- Two bytes of the window, network order. -/
def Walk.u16 (w : Walk) (i : Nat) : Nat := w.at i * 256 + w.at (i + 1)
/-- Stop with a malformed reason (R41). -/
def Walk.stop (w : Walk) (c : Nat) : Walk := { w with p := { w.p with mal := c } }
/-- The reason why n bytes at off cannot be located (R39, R41: TRUNCATED or CHAIN_PAST_64). -/
def Walk.cannot (w : Walk) (off n : Nat) : Option Nat :=
  if off + n ≤ Nat.min 64 w.d.length then none else if 64 < w.d.length then some 9 else some 1
/-- Locate a header at off whose type and length fields end before off + need and whose fixed part has len bytes, then go on (R39, R41). -/
def Walk.header (w : Walk) (off need : Nat) (len : Walk → Nat) (seen : Walk → Walk) (k : Walk → Walk) : Walk :=
  match w.cannot off need with
  | some c => w.stop c
  | none =>
    let w1 := { seen w with fin := off + len w }
    if w.d.length < off + len w then w1.stop 1 else k w1

/-- Sum of 16-bit words of n bytes at off. -/
def Walk.sum16 (w : Walk) (off n : Nat) : Nat := ((List.range (n / 2)).map (fun i => w.u16 (off + 2 * i))).sum
/-- The IPv4 header checksum fails: the words' ones' complement sum is not all ones. -/
def Walk.badCsum (w : Walk) (off n : Nat) : Bool :=
  let a := w.sum16 off n
  let b := a / 65536 + a % 65536
  (b / 65536 + b % 65536) != 65535

/-- L4_TYPE of a protocol (R39, R40). -/
def l4TypeOf (proto : Nat) : Nat :=
  if proto = 6 then 1 else if proto = 17 then 2 else if proto = 1 then 3 else if proto = 58 then 4 else if proto = 47 then 5 else 6

/-- VXLAN and GENEVE behind a UDP header at off (R39). -/
def Walk.tunnel (w : Walk) (off : Nat) : Walk :=
  let port := w.u16 (off + 2)
  let t := if port = w.vxlan then 1 else if port = w.geneve then 2 else 0
  if t = 0 then w
  else w.header (off + 8) 1 (fun _ => 8) (fun w => { w with p := { w.p with tunType := t, tunOff := off + 8 } }) id

/-- The upper-layer header at off, with the bytes the IP header gives its payload (R39 to R41). Which bytes are the fields that give a header's type and
length is the model's choice: up to the data offset of TCP, the length of UDP, the flags of GRE, the first byte of ICMP, VXLAN and GENEVE; so is the order
of the checks, TRUNCATED before a header's own fields. -/
def Walk.upper (w : Walk) (off proto payload : Nat) : Walk :=
  let t := l4TypeOf proto
  let seen (w : Walk) : Walk := { w with p := { w.p with l4Type := t, l4Off := if off < 64 then off else 0 } }
  match t with
  | 1 => w.header off 13 (fun _ => 20) seen (fun w => if w.at (off + 12) / 16 < 5 then w.stop 10 else w)
  | 2 => w.header off 6 (fun _ => 8) seen (fun w =>
      let n := w.u16 (off + 4)
      if n < 8 ∨ payload < n then w.stop 11 else w.tunnel off)
  | 3 => w.header off 1 (fun _ => 4) seen id
  | 4 => w.header off 1 (fun _ => 4) seen id
  | 5 => w.header off 2 (fun w => 4 + 4 * bits (w.at off) 7 1 + 4 * bits (w.at off) 5 1 + 4 * bits (w.at off) 4 1)
      (fun w => { seen w with p := { (seen w).p with tunType := 3, tunOff := off } }) id
  | _ => seen w

/-- Offset + payload of an IPv4 fragment, in bytes (R41). -/
def Walk.ipv4Frag (w : Walk) (off hl : Nat) : Walk :=
  let fl := w.u16 (off + 6)
  let fo := fl % 8192
  let proto := w.at (off + 9)
  let tot := w.u16 (off + 2)
  let w := { w with p := { w.p with proto := some proto } }
  let isFrag := fo ≠ 0 ∨ bits fl 13 1 = 1
  let w := if isFrag then { w with p := { w.p with frag := if fo = 0 then 1 else 2, fragId := some (w.u16 (off + 4)), fragNh := some proto } } else w
  if isFrag ∧ 65535 < 8 * fo + (tot - hl) then w.stop 12
  else if w.p.frag = 2 then w
  else w.upper (off + hl) proto (tot - hl)

/-- An IPv4 header at off (R39, R41). The order of the checks within it is the model's choice: version and IHL, TRUNCATED, total length, checksum. -/
def Walk.ipv4 (w : Walk) (off : Nat) : Walk :=
  match w.cannot off 10 with
  | some c => w.stop c
  | none =>
    let ihl := w.at off % 16
    let hl := 4 * ihl
    let w := { w with fin := off + 4 * Nat.max ihl 5, p := { w.p with l3Type := 1, l3Off := off } }
    if w.at off / 16 ≠ 4 ∨ ihl < 5 then w.stop 4
    else if w.d.length < off + hl then w.stop 1
    else if w.u16 (off + 2) < hl ∨ w.d.length - off < w.u16 (off + 2) then w.stop 5
    else if w.csum ∧ off + hl ≤ Nat.min 64 w.d.length ∧ w.badCsum off hl then w.stop 6
    else w.ipv4Frag off hl

/-- Next headers that are extension headers (R39). -/
def isExt (nh : Nat) : Bool := nh == 0 || nh == 43 || nh == 44 || nh == 60

/-- The fragment extension header at off (R41, R44): it must stand first; offset 0 with M = 0 is no fragment. Its length is fixed, so its type field alone
locates it; an offset or M bit past the window reads as zero. -/
def Walk.ipv6Frag (w : Walk) (off : Nat) : Walk :=
  if w.p.extN ≠ 1 then w.stop 12
  else
    let v := w.u16 (off + 2)
    if v / 8 = 0 ∧ v % 2 = 0 then w
    else { w with p := { w.p with frag := if v / 8 = 0 then 1 else 2, fragNh := some (w.at off),
                                  fragId := if off + 8 ≤ Nat.min 64 w.d.length then some (w.u16 (off + 4) * 65536 + w.u16 (off + 6)) else none } }

/-- The chain of extension headers from off on, with the bytes of payload left; `fuel` is one more than the limit of two headers. -/
def Walk.ipv6Ext : Nat → Walk → Nat → Nat → Nat → Walk
  | 0, w, _, _, _ => w
  | fuel + 1, w, nh, off, payload =>
    if isExt nh then
      if w.p.extN = 2 then w.stop 8
      else w.header off (if nh = 44 then 1 else 2) (fun w => if nh = 44 then 8 else 8 * (w.at (off + 1) + 1))
        (fun w => { w with p := { w.p with extN := w.p.extN + 1 } })
        (fun w =>
          let n := if nh = 44 then 8 else 8 * (w.at (off + 1) + 1)
          let w := if nh = 44 then w.ipv6Frag off else w
          if w.p.mal ≠ 0 then w
          else if w.p.frag = 2 then { w with p := { w.p with proto := some (w.at off) } }
          else Walk.ipv6Ext fuel w (w.at off) (off + n) (payload - n))
    else
      { w with p := { w.p with proto := some nh } }.upper off nh payload

/-- An IPv6 header at off (R39, R41). -/
def Walk.ipv6 (w : Walk) (off : Nat) : Walk :=
  match w.cannot off 7 with
  | some c => w.stop c
  | none =>
    let w := { w with fin := off + 40, p := { w.p with l3Type := 2, l3Off := off } }
    let plen := w.u16 (off + 4)
    if w.at off / 16 ≠ 6 then w.stop 7
    else if w.d.length < off + 40 then w.stop 1
    else if plen = 0 ∨ w.d.length - off < 40 + plen then w.stop 7
    else Walk.ipv6Ext 3 w (w.at (off + 6)) (off + 40) plen

/-- What lies below the bottom MPLS label, told by its first nibble (R39, R40). Data that ends right after the label calls for no header: the model's choice. -/
def Walk.belowMpls (w : Walk) (off : Nat) : Walk :=
  let w := { w with p := { w.p with l3Off := if off < 64 then off else 0 } }
  if w.d.length ≤ off then w
  else if w.at off / 16 = 4 then w.ipv4 off
  else if w.at off / 16 = 6 then w.ipv6 off
  else w

/-- The MPLS stack from off on: at most four labels (R39, R41). -/
def Walk.mpls : Nat → Walk → Nat → Walk
  | 0, w, _ => w.stop 3
  | fuel + 1, w, off =>
    w.header off 3 (fun _ => 4) (fun w => { w with p := { w.p with mplsN := w.p.mplsN + 1 } })
      (fun w => if w.at (off + 2) % 2 = 1 then w.belowMpls (off + 4) else Walk.mpls fuel w (off + 4))

/-- VLAN tags, then what the last EtherType calls for (R39, R41). -/
def Walk.ether : Nat → Walk → Nat → Nat → Walk
  | 0, w, _, _ => w
  | fuel + 1, w, ty, off =>
    if ty = 0x8100 ∨ ty = 0x88A8 then
      if w.p.vlanN = 2 then w.stop 2
      else w.header off 4 (fun _ => 4) (fun w => { w with p := { w.p with vlanN := w.p.vlanN + 1 } })
        (fun w => Walk.ether fuel w (w.u16 (off + 2)) (off + 4))
    else if ty = 0x8847 ∨ ty = 0x8848 then Walk.mpls 4 w off
    else if ty = 0x0800 then w.ipv4 off
    else if ty = 0x86DD then w.ipv6 off
    else { w with p := { w.p with l3Type := 3, l3Off := off } }

/-- The chain of headers from the Ethernet header on. -/
def Walk.run (w : Walk) : Walk := w.header 0 14 (fun _ => 14) id (fun w => Walk.ether 3 w (w.u16 12) 14)

/-- The frame carries a valid tap header (R35, R36). -/
def tapValid (frame : List Byte) : Bool := beAt frame 0 2 == 0x88B6 && beAt frame 2 2 / 4096 == 1

/-- The parse result of a frame, FCS included in `frame` (R40). L4_CUT looks at the fixed part of the last located header, not at options: the model's choice. -/
def parse (frame : List Byte) (tapPort csum : Bool) (vxlan geneve : Nat) : Parse :=
  let data := frame.take (frame.length - 4)
  if tapPort ∧ ¬ tapValid frame then { mal := if beAt frame 0 2 = 0x88B6 then 14 else 13 }
  else
    let d := if tapPort then data.drop 16 else data
    let w := Walk.run { d := d, csum := csum, vxlan := vxlan, geneve := geneve }
    { w.p with tap := tapPort, l4Cut := decide (Nat.min 64 d.length < w.fin) }

/-- The 64-bit parse result word (R40). -/
def Parse.word (p : Parse) : Nat :=
  p.l3Off % 64 + p.l4Off % 64 * 2 ^ 6 + p.tunOff % 64 * 2 ^ 12 + p.vlanN * 2 ^ 18 + p.mplsN * 2 ^ 20 + p.l3Type * 2 ^ 23 + p.l4Type * 2 ^ 26
    + p.tunType * 2 ^ 29 + p.frag * 2 ^ 31 + p.extN * 2 ^ 33 + p.mal * 2 ^ 35 + b2n p.tap * 2 ^ 40 + b2n p.l4Cut * 2 ^ 41

/-- The packet's bytes after any tap header, FCS left out. -/
def PktIn.data (i : PktIn) : List Byte := (i.frame.take (i.frame.length - 4)).drop i.tapLen
/-- The window (R38): the first 64 of them. -/
def PktIn.window (i : PktIn) : List Byte := i.data.take 64
/-- Frame length L: bytes after any tap header, FCS included (R91). -/
def PktIn.len (i : PktIn) : Nat := i.frame.length - i.tapLen

/-- The DS byte of the IP header (R93, R102, R262), absent without one. -/
def PktIn.dsByte (i : PktIn) : Option Nat :=
  let b (k : Nat) : Option Nat := (i.window[k]?).map (·.toNat)
  if i.parse.l3Type = 1 then b (i.parse.l3Off + 1)
  else if i.parse.l3Type = 2 then do
    let x ← b i.parse.l3Off
    let y ← b (i.parse.l3Off + 1)
    pure (x % 16 * 16 + y / 16)
  else none

end Sys2Proof.Machine
end

