-- ==== Sys2Proof/Machine/Egress.lean ====
section
/-! DEFINITION. Ports and egress queues: port configuration, offers, the end of a packet's stay, shapers and priority pause
(R30, R33, R50, R257 to R261, R274). -/

namespace Sys2Proof.Machine

open Sys2Proof

/-! ### Ports (R30, R33) -/

/-- SPEED of a port's group in force. -/
def State.speedOf (s : State) (p : Nat) : Nat := s.act Reg.PORT.SPEED (p / 2)
/-- The port exists in the present configuration (R30). -/
def State.portExists (s : State) (p : Nat) : Bool :=
  let v := s.speedOf p
  decide (p < 32) && ((v == 1 && p % 2 == 0) || v == 2 || (v == 3 && p % 4 == 0))
/-- The port is in tap mode (R33). -/
def State.isTap (s : State) (p : Nat) : Bool :=
  decide ((if p % 2 = 0 then s.act Reg.PORT.MODE_S0 (p / 2) else s.act Reg.PORT.MODE_S1 (p / 2)) = 1)
/-- PAIR of a port. -/
def State.pairOf (s : State) (p : Nat) : Nat := if p % 2 = 0 then s.act Reg.PORT.PAIR_S0 (p / 2) else s.act Reg.PORT.PAIR_S1 (p / 2)
/-- The port puts a verdict header on every frame (R34): its VHDR bit, and always on a tap port. -/
def State.hasVhdr (s : State) (p : Nat) : Bool :=
  s.isTap p || decide ((if p % 2 = 0 then s.act Reg.PORT.VHDR_S0 (p / 2) else s.act Reg.PORT.VHDR_S1 (p / 2)) = 1)
/-- The link of a port is up (R377). -/
def State.linkUp (s : State) (p : Nat) : Bool :=
  decide ((if p % 2 = 0 then s.rd Reg.PORT.LINK_S0 (p / 2) else s.rd Reg.PORT.LINK_S1 (p / 2)) = 1)
/-- The pair of in-line port p is valid by the configuration in force (R33); PAIR_ANY lifts the condition on speeds (R37). On which of the two pages it must be
set the manual does not say: on either is enough, the model's choice. -/
def State.pairRight (s : State) (p : Nat) : Bool :=
  let q := s.pairOf p
  s.portExists p && s.portExists q && decide (p ≠ q) && !s.isTap p && !s.isTap q && decide (s.pairOf q = p) &&
    (decide (s.speedOf p = s.speedOf q) || decide (s.act Reg.PORT.PAIR_ANY (p / 2) = 1) || decide (s.act Reg.PORT.PAIR_ANY (q / 2) = 1))
/-- PAIR_ERR of a port as last settled at a beat boundary (R33, R37). -/
def State.pairErr (s : State) (p : Nat) : Bool :=
  decide ((if p % 2 = 0 then s.rd Reg.PORT.PAIR_ERR_S0 (p / 2) else s.rd Reg.PORT.PAIR_ERR_S1 (p / 2)) = 1)
/-- Received frames enter a lane: a tap port, or an in-line port whose pair is valid (R33). -/
def State.portOpen (s : State) (p : Nat) : Bool := s.portExists p && (s.isTap p || !s.pairErr p)
/-- Default destination of a port (R34). -/
def State.defaultDest (s : State) (p : Nat) : Nat := if s.isTap p then p else s.pairOf p
/-- Cut-through lead of a port in schedule cycles (R37, R53). -/
def State.ctLead (s : State) (p : Nat) : Nat :=
  if s.act Reg.PORT.CT_LEAD_EN (p / 2) = 1 then s.act Reg.PORT.CT_LEAD_CYC (p / 2) else 32 * s.act Reg.PORT.CT_LEAD (p / 2)
/-- Three times the bytes a port sends in one schedule cycle (R53). -/
def State.rate3 (s : State) (p : Nat) : Nat := if s.speedOf p = 2 then 125 else if s.speedOf p = 1 then 250 else 500

/-! ### The end of a packet's stay (R50, R274) -/

/-- A packet stops being resident: its cells are freed and it is counted in its category. -/
def State.finishPkt (s : State) (k : PktId) : State :=
  match s.pkt? k with
  | none => s
  | some p =>
    if p.vd.gone then s
    else
      let s := s.modPkt k (fun p => { p with vd := { p.vd with gone := true, cells := 0 } })
      let s := if p.vd.done then s.cells (-(p.vd.cells : Int)) else s
      (s.ledger p.i.lane p.vd.category).setResident p.i.lane false
/-- One destination of a packet is done with its frame; `lost` when an egress queue dropped it. -/
def State.destDone (s : State) (k : PktId) (lost : Bool) : State :=
  match s.pkt? k with
  | none => s
  | some p =>
    let n := p.vd.dests - 1
    let s := s.modPkt k (fun p => { p with vd := { p.vd with dests := n, category := if lost then 5 else p.vd.category } })
    if n = 0 ∧ p.vd.released then s.finishPkt k else s
/-- What a frame's leaving a queue means for the packet it came from: a mirror holds the packet's cells but not its category. An injected frame returns
its own cells (R49). -/
def State.frameDone (s : State) (fr : EgFrame) (lost : Bool) : State :=
  match fr.pkt with
  | some k => s.destDone k (lost && fr.kind == 0)
  | none => if fr.own = 0 then s else s.cells (-(fr.own : Int))

/-! ### Offers (R257) -/

/-- Cells of a frame: 128-byte cells of its bytes as sent. -/
def EgFrame.cells (f : EgFrame) : Nat := ceilDiv f.size 128

/-- Change an egress queue. -/
def State.modQ (s : State) (pq : Nat) (f : EgQ → EgQ) : State := { s with eg := { s.eg with q := s.eg.q.mod pq f } }
/-- Change a port's transmitter. -/
def State.modTx (s : State) (p : Nat) (f : PortTx → PortTx) : State := { s with eg := { s.eg with tx := s.eg.tx.mod p f } }

/-- The offer is admitted: the link is up and both limits hold. -/
def State.admits (s : State) (port q : Nat) (fr : EgFrame) : Bool :=
  let pq := port * 8 + q
  s.portExists port && s.linkUp port && decide ((s.eg.q.get pq).cells + fr.cells ≤ s.act Reg.SHAPE.QMAX 0 0 pq) &&
    decide ((s.eg.tx.get port).cells + fr.cells ≤ s.act Reg.SHAPE.PMAX 0 0 port)
/-- Offer a frame to queue q of a port (R257). A packet's or mirror's frame that is admitted is one more destination of its packet. -/
def State.offer (s : State) (port q : Nat) (fr : EgFrame) : State × Bool :=
  let pq := port * 8 + q
  if s.admits port q fr then
    let s := s.modQ pq (fun e => { e with frames := e.frames ++ [fr], cells := e.cells + fr.cells, offered := e.offered + 1, admitted := e.admitted + 1 })
    let s := s.modTx port (fun t => { t with cells := t.cells + fr.cells })
    (match fr.pkt with
     | some k => s.modPkt k (fun p => { p with vd := { p.vd with dests := p.vd.dests + 1 } })
     | none => s, true)
  else
    ((s.modQ pq (fun e => { e with offered := e.offered + 1, refused := e.refused + 1 })).bump Reg.SHAPE.Q_DROP 0 0 pq, false)

/-! ### Flushing (R261) -/

/-- Discard the frames of one queue. -/
def State.flushQ (s : State) (port q : Nat) : State :=
  let pq := port * 8 + q
  let e := s.eg.q.get pq
  let n := e.frames.length
  let c := (e.frames.map EgFrame.cells).sum
  let s := s.modQ pq (fun e => { e with frames := [], cells := e.cells - c, deficit := 0, flushed := e.flushed + n })
  let s := s.modTx port (fun t => { t with cells := t.cells - c })
  let s := if n = 0 then s else s.bump Reg.SHAPE.Q_FLUSH 0 0 pq n
  e.frames.foldl (fun t fr => t.frameDone fr true) s
/-- Discard the frame on the wire of a port whose link is gone. -/
def State.flushWire (s : State) (port : Nat) : State :=
  let t := s.eg.tx.get port
  match t.cur with
  | none => s
  | some fr =>
    let pq := port * 8 + t.curQ
    let s := s.modQ pq (fun e => { e with cells := e.cells - fr.cells, flushed := e.flushed + 1 })
    let s := s.modTx port (fun t => { t with cur := none, stomp := false, cut := 0, cells := t.cells - fr.cells })
    (s.bump Reg.SHAPE.Q_FLUSH 0 0 pq).frameDone fr true
/-- All queues of a port. -/
def State.flushPort (s : State) (port : Nat) : State :=
  (List.range 8).foldl (fun t q => t.flushQ port q) (s.flushWire port)

/-! ### Shapers (R260) -/

/-- The queue's shaper holds tokens: unshaped, or a balance of 0 or above. -/
def State.qTokens (s : State) (pq : Nat) : Bool := decide (s.act Reg.SHAPE.Q_RATE 0 0 pq = 0) || decide (0 ≤ (s.eg.q.get pq).tok)
/-- The port's shaper holds tokens. -/
def State.pTokens (s : State) (port : Nat) : Bool := decide (s.act Reg.SHAPE.P_RATE 0 0 port = 0) || decide (0 ≤ (s.eg.tx.get port).tok)
/-- Spend S + OVH bytes of both shapers for a picked frame. -/
def State.spend (s : State) (port q size : Nat) : State :=
  let pq := port * 8 + q
  let n := (size + s.act Reg.SHAPE.OVH 0 0 port) * 65536
  let s := if s.act Reg.SHAPE.Q_RATE 0 0 pq = 0 then s
    else s.modQ pq (fun e => { e with tok := e.tok - n, spent := e.spent + n })
  if s.act Reg.SHAPE.P_RATE 0 0 port = 0 then s else s.modTx port (fun t => { t with tok := t.tok - n, spent := t.spent + n })
/-- One schedule cycle's refill of a bucket: it never holds more than its burst. -/
def refill (tok : Int) (rate burst : Nat) : Int := if tok + rate ≤ burst * 65536 then tok + rate else Nat.max 0 (burst * 65536)
/-- Refill of one queue's shaper, with the counts of its balance (R274). -/
def State.refillQ (s : State) (pq : Nat) : State :=
  let r := s.act Reg.SHAPE.Q_RATE 0 0 pq
  if r = 0 then s
  else s.modQ pq (fun e =>
    let t := refill e.tok r (s.act Reg.SHAPE.Q_BURST 0 0 pq)
    { e with tok := t, added := e.added + r, capped := e.capped + (e.tok + r - t).toNat })
/-- Refill of one port's shaper, with the counts of its balance. -/
def State.refillP (s : State) (port : Nat) : State :=
  let r := s.act Reg.SHAPE.P_RATE 0 0 port
  if r = 0 then s
  else s.modTx port (fun t =>
    let v := refill t.tok r (s.act Reg.SHAPE.P_BURST 0 0 port)
    { t with tok := v, added := t.added + r, capped := t.capped + (t.tok + r - v).toNat })

/-! ### The wire -/

/-- One byte through the CRC-32 of IEEE 802.3 (reflected polynomial 0xEDB8_8320). -/
def crc32Byte (c : BitVec 32) (b : Byte) : BitVec 32 :=
  (List.range 8).foldl (fun c _ => if c.getLsbD 0 then (c >>> 1) ^^^ 0xEDB88320#32 else c >>> 1) (c ^^^ b.setWidth 32)
/-- FCS of a frame's bytes. -/
def fcsOf (bs : List Byte) : BitVec 32 := ~~~ (bs.foldl crc32Byte 0xFFFFFFFF#32)
/-- The four FCS bytes as sent. -/
def fcsBytes (bs : List Byte) : List Byte := leBytes 4 (fcsOf bs).toNat
/-- The four bytes a stomped frame ends with: the inverse of the correct CRC of the bytes sent (R54). -/
def stompBytes (bs : List Byte) : List Byte := leBytes 4 (~~~ fcsOf bs).toNat

/-- The transmitter has sent its frame: the queue's counts, the cells and the packet (R274). `cut` is the length a stomped frame was cut at. -/
def State.wireDone (s : State) (port : Nat) (cut : Option Nat) : State :=
  let t := s.eg.tx.get port
  match t.cur with
  | none => s
  | some fr =>
    let pq := port * 8 + t.curQ
    let s := match cut with
      | some _ => s.modQ pq (fun e => { e with cells := e.cells - fr.cells, stomped := e.stomped + 1 })
      | none => ((s.modQ pq (fun e => { e with cells := e.cells - fr.cells, sent := e.sent + 1 })).bump Reg.SHAPE.Q_TX 0 0 pq).bump Reg.SHAPE.Q_TX_BYTES 0 0 pq fr.size
    let out := match cut with
      | some n => fr.bytes.take n ++ stompBytes (fr.bytes.take n)
      | none => fr.bytes ++ fcsBytes fr.bytes
    (s.modTx port (fun t => { t with cur := none, stomp := false, cut := 0, cells := t.cells - fr.cells, last := out })).frameDone fr false

/-- Put the head frame of queue q on the wire (R258): the shapers pay, and a queue that empties has its deficit set to 0. -/
def State.startFrame (s : State) (port q : Nat) : State :=
  let pq := port * 8 + q
  match (s.eg.q.get pq).frames with
  | [] => s
  | fr :: rest =>
    let s := s.modQ pq (fun e => { e with frames := rest, deficit := if rest = [] then 0 else e.deficit })
    (s.modTx port (fun t => { t with cur := some fr, curQ := q, stomp := false, cut := 0 })).spend port q fr.size

/-- Queue q of a port is eligible (R258). -/
def State.eligible (s : State) (port q : Nat) : Bool :=
  let pq := port * 8 + q
  let e := s.eg.q.get pq
  !e.frames.isEmpty && !e.paused && s.qTokens pq && s.pTokens port
/-- Size of the head frame of queue q. -/
def State.headSize (s : State) (pq : Nat) : Nat := ((s.eg.q.get pq).frames.head?.map (·.size)).getD 0
/-- The strict-priority pick: the highest-numbered eligible queue whose SP bit is set. -/
def State.spPick (s : State) (port : Nat) : Option Nat :=
  (List.range 8).reverse.find? (fun q => s.eligible port q && decide (s.act Reg.SHAPE.SP 0 0 (port * 8 + q) = 1))
/-- A queue the round robin serves. -/
def State.wrr (s : State) (port q : Nat) : Bool := s.eligible port q && decide (s.act Reg.SHAPE.SP 0 0 (port * 8 + q) = 0)
/-- Visits of the deficit round robin from queue q on, until a queue's head frame fits its deficit (R258). -/
def State.wrrVisit : Nat → State → Nat → Nat → State × Option Nat
  | 0, s, _, _ => (s, none)
  | fuel + 1, s, port, q =>
    let pq := port * 8 + q
    if s.wrr port q then
      let s := s.modQ pq (fun e => { e with deficit := e.deficit + s.act Reg.SHAPE.QUANTUM 0 0 pq * 64 })
      if s.headSize pq ≤ (s.eg.q.get pq).deficit then (s.modTx port (fun t => { t with rr := q + 1 }), some q)
      else State.wrrVisit fuel s port ((q + 1) % 8)
    else State.wrrVisit fuel s port ((q + 1) % 8)
/-- The round-robin pick: the queue being visited while its head frame fits its deficit, else the next visit. The fuel covers the
largest frame at the smallest quantum. -/
def State.wrrPick (s : State) (port : Nat) : State × Option Nat :=
  if (List.range 8).any (fun q => s.wrr port q) then
    let r := (s.eg.tx.get port).rr
    if r ≠ 0 ∧ s.wrr port (r - 1) ∧ s.headSize (port * 8 + (r - 1)) ≤ (s.eg.q.get (port * 8 + (r - 1))).deficit then (s, some (r - 1))
    else State.wrrVisit 1200 s port (r % 8)
  else (s, none)
/-- The scheduler's pick (R258): the frame's size is taken from the deficit of a round-robin queue. -/
def State.pickQueue (s : State) (port : Nat) : State × Option Nat :=
  match s.spPick port with
  | some q => (s, some q)
  | none =>
    match s.wrrPick port with
    | (s, some q) =>
      let n := s.headSize (port * 8 + q)
      (s.modQ (port * 8 + q) (fun e => { e with deficit := e.deficit - n }), some q)
    | (s, none) => (s, none)

/-! ### Commands -/

/-- TRANSMIT_COMPLETE (R50, R297): the last byte of the frame on the wire has left. An uncorrectable hold-buffer word ends the frame as a
stomp does; where it is cut, the manual leaves open. -/
def execTransmitComplete (p : Port) (holdUe : Bool) (s : State) : Host.Outcome State Fault Refusal :=
  let t := s.eg.tx.get p.val
  match t.cur with
  | none => .next s
  | some fr =>
    if holdUe then
      let (v, s) := s.fresh
      let s := (s.wireDone p.val (some (v.toNat % (fr.bytes.length + 1)))).bump Reg.LEDG.HOLD_UE
      let s := s.bump Reg.LEDG.AV_FLOSS
      .next (s.fault { cls := 1, scope := 1, block := Blk.HOLD, unit := p.val, count := s.rd Reg.LEDG.HOLD_UE })
    else if t.stomp then .next (s.wireDone p.val (some t.cut))
    else .next (s.wireDone p.val none)

/-- SHAPER_REFILL (R260): the refill of one schedule cycle. -/
def execShaperRefill (s : State) : Host.Outcome State Fault Refusal :=
  .next ((List.range 32).foldl (fun t p => t.refillP p) ((List.range 256).foldl (fun t pq => t.refillQ pq) s))

/-- PAUSE_FRAME (R7, R259, R275): priority pause received. Quanta of 0 end the pause (IEEE 802.1Qbb). -/
def execPauseFrame (p : Port) (enable : BitVec 8) (quanta : List (BitVec 16)) (s : State) : Host.Outcome State Fault Refusal :=
  if s.time.started ∧ s.portExists p.val ∧ s.linkUp p.val ∧ bits (s.act Reg.SHAPE.PAUSE_IGNORE) p.val 1 = 0 then
    .next ((List.range 8).foldl (fun t k =>
      if enable.getLsbD k then
        let n := (quanta.getD k 0).toNat
        t.modQ (p.val * 8 + k) (fun e => { e with paused := decide (n ≠ 0), quanta := n })
      else t) s)
  else .next s

/-- PAUSE_EXPIRE (R259): the pause time of queue k of port p has run out. -/
def execPauseExpire (p : Port) (k : QNum) (s : State) : Host.Outcome State Fault Refusal :=
  .next (s.modQ (p.val * 8 + k.val) (fun e => { e with paused := false, quanta := 0 }))

/-- The state of a port's link changes (R377): the link bit, its event, and OOS when the other sub-port is down too. -/
def State.setLink (s : State) (p : Nat) (up : Bool) : State :=
  let f := if p % 2 = 0 then Reg.PORT.LINK_S0 else Reg.PORT.LINK_S1
  if s.linkUp p = up then s
  else
    let other := s.linkUp (if p % 2 = 0 then p + 1 else p - 1)
    let s := (s.wr f (b2n up) (p / 2)).event Blk.PORT (p / 2) (p % 2)
    if other then s else s.event Blk.PORT (p / 2) 30
/-- A port's link goes down (R261): its queues are flushed, and the frame it was receiving is lost. -/
def State.linkDown (s : State) (p : Nat) : State :=
  let s := s.setLink p false
  let s := match s.rx.get p with
    | some r =>
      let s := { s with rx := s.rx.erase p }
      match r.pkt with
      | some k =>
        let t := s.modPkt k (fun (x : Pkt) => { x with vd := { x.vd with done := true, cells := if x.vd.gone then 0 else 73, fcs := some false, voidPkt := true, mal := 15 } })
        if ((s.pkt? k).map (fun (x : Pkt) => x.vd.gone)).getD true then t.cells (-73) else t
      | none => if r.dropped then s else s.cells (-73)
    | none => s
  s.flushPort p

/-- ETH_LINK_UP (R37, R337): the link trains; nothing trains before START. -/
def execEthLinkUp (p : Port) (s : State) : Host.Outcome State Fault Refusal :=
  if s.time.started ∧ s.portExists p.val ∧ s.rd Reg.DEV.STAGE = 5 then .next (s.setLink p.val true) else .next s

/-- ETH_LINK_DOWN (R261). -/
def execEthLinkDown (p : Port) (s : State) : Host.Outcome State Fault Refusal :=
  if s.linkUp p.val then .next (s.linkDown p.val) else .next s

end Sys2Proof.Machine
end

