-- ==== Sys2Proof/Machine/Time.lean ====
section
/-! DEFINITION. Herd time, steering, PPS and IEEE 1588 timestamps (R226 to R229, R252, R256), and the start of transmissions (R258). -/

namespace Sys2Proof.Machine

open Sys2Proof

/-- TAI nanoseconds since ORIGIN at which schedule cycle T begins, rounded down (R226: T × 5/6 ns). -/
def nsOf (t : Nat) : Nat := t * 5 / 6
/-- The schedule cycle in progress ns nanoseconds after ORIGIN. -/
def cycleOf (ns : Nat) : Nat := ns * 6 / 5

/-- The device obeys time adjustments: it is ALONE or the bellwether (R227). -/
def State.obeysTime (s : State) : Bool := decide (s.rd Reg.HERD.STATE = 0) || decide (s.rd Reg.HERD.BELLWETHER = 1)

/-- SET_GO (R227): acts before the data path starts. -/
def execSetGo (src : Source) (s : State) : Host.Outcome State Fault Refusal :=
  s.basicCmd src (fun s =>
    if s.time.started then s.auditCmd src Reg.TIME.SET_GO 0 1 1
    else
      { s with time := { s.time with setDone := true, setSec := s.rd Reg.TIME.SET_SEC, setNs := s.rd Reg.TIME.SET_NS } }.auditCmd src Reg.TIME.SET_GO 0 1 0)

/-- FREQ_ADJ (R220, R227, R252): a value outside ±100,000 ppb leaves the field unchanged, and a device that follows a bellwether ignores the write. -/
def execFreqAdj (src : Source) (ppb : Int) (s : State) : Host.Outcome State Fault Refusal :=
  s.basicCmd src (fun s =>
    let old := s.rd Reg.TIME.FREQ_ADJ
    let rec_ (res : Nat) : AuditRec := { block := Blk.TIME, off := Reg.TIME.FREQ_ADJ.off, source := src.num, result := res, old := old, new := if res = 0 then ofSigned 32 ppb else old }
    if ppb < -100000 ∨ 100000 < ppb then s.audit (rec_ 1)
    else if ¬ s.obeysTime then (s.bump Reg.TIME.ADJ_IGNORED).audit (rec_ 1)
    else (s.wr Reg.TIME.FREQ_ADJ (ofSigned 32 ppb)).audit (rec_ 0))

/-- PHASE_ADJ (R227): the offset to slew replaces what is left of an earlier one. -/
def execPhaseAdj (src : Source) (ns : Int) (s : State) : Host.Outcome State Fault Refusal :=
  s.basicCmd src (fun s =>
    if ¬ s.obeysTime then (s.bump Reg.TIME.ADJ_IGNORED).auditCmd src Reg.TIME.PHASE_ADJ 0 (ofSigned 32 ns) 1
    else { s with time := { s.time with phaseLeft := toSigned 32 (ofSigned 32 ns) * 3000000000 } }.auditCmd src Reg.TIME.PHASE_ADJ 0 (ofSigned 32 ns) 0)

/-- PHASE_SLEW_END (R227): the offset is done. -/
def execPhaseSlewEnd (s : State) : Host.Outcome State Fault Refusal :=
  if s.time.phaseLeft.natAbs ≤ 64000000 then .next { s with time := { s.time with phaseLeft := 0 } } else .next s

/-- Steering of a device that leads its own time (R227): FREQ_ADJ, and ±50 ppm while an offset is slewed, within the steering limit. -/
def State.steer (s : State) : Int :=
  let lim : Int := s.act Reg.TIME.STEER_LIMIT
  let f := toSigned 32 (s.act Reg.TIME.FREQ_ADJ)
  let d : Int := if s.time.phaseLeft > 0 then 50000 else if s.time.phaseLeft < 0 then -50000 else 0
  clampInt (-lim) lim (f + d)
/-- One beat of slewing: the offset shrinks by what the steering added, and stops at zero. -/
def State.slew (s : State) : State :=
  let d := s.steer - toSigned 32 (s.act Reg.TIME.FREQ_ADJ)
  let l := s.time.phaseLeft
  let l' := l - d * 1280
  { s with time := { s.time with ppb := s.steer, phaseLeft := if (0 < l ∧ l' < 0) ∨ (l < 0 ∧ 0 < l') then 0 else if l = 0 then 0 else l' } }
/-- PHASE_LEFT in ns. -/
def State.phaseLeftNs (s : State) : Int := Int.tdiv s.time.phaseLeft 3000000000

/-- TIME_BEAT_READ (R252): reading BEAT latches CYCLE. -/
def execTimeBeatRead (_src : Source) (s : State) : Host.Outcome State Fault Refusal :=
  if s.pagesOpen then .next { s.wr Reg.TIME.CYCLE s.time.cycle with host := { s.host with regData := s.time.beat } }
  else .next { s with host := { s.host with regData := 0 } }

/-- PPS_IN (R228): the herd time of the first schedule cycle after the edge. -/
def execPpsIn (s : State) : Host.Outcome State Fault Refusal :=
  .next ((s.wr Reg.TIME.PPS_IN_T (s.now + 1)).bump Reg.TIME.PPS_IN_CNT)
/-- The rise of PPS_OUT falls in the present schedule cycle (R228, R252): a whole TAI second, moved by the signed picoseconds of PPS_OUT_OFS. A schedule
cycle is 2,500/3 ps, and ORIGIN is a whole second, so a second is 3 × 10^12 thirds of a picosecond of herd time. -/
def State.ppsDue (s : State) : Bool :=
  let x : Int := (s.now : Int) * 2500 - 3 * toSigned 16 (s.act Reg.TIME.PPS_OUT_OFS)
  decide (Int.emod (-x) 3000000000000 < 2500)
/-- PPS_OUT_RISE (R228): at a whole TAI second of herd time, while PPS_OUT_EN is set. -/
def execPpsOutRise (s : State) : Host.Outcome State Fault Refusal :=
  if s.act Reg.TIME.PPS_OUT_EN = 1 ∧ s.ppsDue then .next { s with time := { s.time with ppsOut := true, ppsAt := s.now } } else .next s
/-- PPS_OUT_FALL (R228): 100 ms, which are 120,000,000 schedule cycles, after the rise. -/
def execPpsOutFall (s : State) : Host.Outcome State Fault Refusal :=
  if s.time.ppsOut ∧ s.time.ppsAt + 120000000 ≤ s.now then .next { s with time := { s.time with ppsOut := false } } else .next s

/-! ### Timestamps (R229, R256) -/

/-- Where a PTP event message lies in a frame, and whether it travels over UDP/IPv4 or UDP/IPv6. -/
structure PtpMsg where
  off : Nat
  udp4 : Option Nat := none   -- offset of the UDP header over IPv4
  udp6 : Bool := false
  deriving DecidableEq, Repr

/-- Skip up to two VLAN tags: the EtherType and the offset behind it. -/
def skipVlan (d : List Byte) : Nat × Nat :=
  let ty (o : Nat) := beAt d o 2
  let tag (t : Nat) : Bool := t == 0x8100 || t == 0x88A8
  if tag (ty 12) then if tag (ty 16) then (ty 20, 22) else (ty 16, 18) else (ty 12, 14)
/-- The event message in a frame, if it carries a recognised one (R229). -/
def ptpMsg (d : List Byte) : Option PtpMsg :=
  let (ty, o) := skipVlan d
  let found (m : PtpMsg) : Option PtpMsg := if m.off + 34 ≤ d.length ∧ (d.getD m.off 0).toNat % 16 ≤ 3 then some m else none
  if ty = 0x88F7 then found { off := o }
  else if ty = 0x0800 then
    let hl := (d.getD o 0).toNat % 16 * 4
    if (d.getD (o + 9) 0).toNat = 17 ∧ beAt d (o + hl + 2) 2 = 319 then found { off := o + hl + 8, udp4 := some (o + hl) } else none
  else if ty = 0x86DD then
    if (d.getD (o + 6) 0).toNat = 17 ∧ beAt d (o + 42) 2 = 319 then found { off := o + 48, udp6 := true } else none
  else none

/-- A timestamp in 2^-16 ns moved by a signed delay in ps. -/
def delayTs (ts delay : Nat) (back : Bool) : Nat :=
  let d := toSigned 16 delay * 65536 / 1000
  (if back then (ts : Int) - d else (ts : Int) + d).toNat

/-- Put an entry in a 64-entry timestamp FIFO; a full one loses its oldest entry (R229). -/
def pushTs (l : List TsEnt) (e : TsEnt) : List TsEnt × Bool := if l.length < 64 then (l ++ [e], false) else (l.drop 1 ++ [e], true)

/-- Ingress: with TS_EN set a recognised message records an entry (R229). -/
def State.ptpRx (s : State) (p : Nat) (frame : List Byte) (ts : Nat) : State :=
  let g := p / 2
  let en := if p % 2 = 0 then s.act Reg.PORT.TS_EN_S0 g else s.act Reg.PORT.TS_EN_S1 g
  if en = 0 then s
  else
    let data := frame.take (frame.length - 4)
    let d := if s.isTap p ∧ tapValid frame then data.drop 16 else data
    match ptpMsg d with
    | none => s
    | some m =>
      let e : TsEnt := { a := (d.getD m.off 0).toNat % 16, dom := (d.getD (m.off + 4) 0).toNat, seqId := beAt d (m.off + 30) 2, sub := p % 2,
                         ts := delayTs ts (s.act Reg.PORT.TS_DELAY_RX g) true }
      let (l, lost) := pushTs (s.rxTs.get g) e
      let s := { s with rxTs := s.rxTs.set g l }
      if lost then s.bump Reg.PORT.RX_TS_LOST g else s

/-- A transmit entry (R229). -/
def State.ptpTx (s : State) (p itag ts : Nat) (oneStep : Bool) : State :=
  let g := p / 2
  let (l, lost) := pushTs (s.txTs.get g) { a := itag, sub := p % 2, oneStep := oneStep, ts := ts }
  let s := { s with txTs := s.txTs.set g l }
  if lost then s.bump Reg.PORT.TX_TS_LOST g else s

/-- The one-step rewrite of a Sync message (R229): originTimestamp, correctionField, and a UDP/IPv4 checksum of zero. -/
def oneStepRewrite (bs : List Byte) (m : PtpMsg) (originSec ts : Nat) : List Byte :=
  let ns := ts / 65536
  let bs := putBytes bs (m.off + 34) (beBytes 6 (originSec + ns / 1000000000) ++ beBytes 4 (ns % 1000000000))
  let bs := putBytes bs (m.off + 8) (beBytes 8 ((beAt bs (m.off + 8) 8 + ts % 65536) % 2 ^ 64))
  match m.udp4 with
  | some u => putBytes bs (u + 6) (zeros 2)
  | none => bs

/-- The timestamp request of an injected frame is served as it starts (R229). -/
def State.ptpStart (s : State) (p : Nat) (fr : EgFrame) (ts : Nat) : State :=
  if fr.kind ≠ 3 ∨ fr.tsreq = 0 then s
  else
    let t := delayTs ts (s.act Reg.PORT.TS_DELAY_TX (p / 2)) false
    if fr.tsreq = 2 then
      match ptpMsg fr.bytes with
      | some m =>
        if (fr.bytes.getD m.off 0).toNat % 16 = 0 ∧ ¬ m.udp6 then
          s.modTx p (fun x => { x with cur := some { fr with bytes := oneStepRewrite fr.bytes m (s.act Reg.TIME.ORIGIN_SEC) t } })
        else (s.bump Reg.PORT.ONESTEP_REJ (p / 2)).ptpTx p fr.itag t true
      | none => (s.bump Reg.PORT.ONESTEP_REJ (p / 2)).ptpTx p fr.itag t true
    else s.ptpTx p fr.itag t false

/-- SCHEDULER_PICK (R258, R260): an idle transmitter takes the next frame of the eligible queues. `ts` is the herd time of its first bit. -/
def execSchedulerPick (p : Port) (ts : Nat) (s : State) : Host.Outcome State Fault Refusal :=
  if (s.eg.tx.get p.val).cur ≠ none ∨ ¬ s.portExists p.val ∨ ¬ s.linkUp p.val then .next s
  else
    match s.pickQueue p.val with
    | (s, none) => .next s
    | (s, some q) =>
      let s := s.startFrame p.val q
      match (s.eg.tx.get p.val).cur with
      | some fr => .next (s.ptpStart p.val fr ts)
      | none => .next s

/-- TS_FIFO_POP (R229, R256): a read of an INFO field pops the oldest entry; NS and FRAC then show it. An empty FIFO reads VALID clear. -/
def execTsFifoPop (_src : Source) (g : Group) (dir : TsDir) (s : State) : Host.Outcome State Fault Refusal :=
  let data (s : State) (v : Nat) : State := { s with host := { s.host with regData := v } }
  if ¬ s.pagesOpen then .next (data s 0)
  else
    match dir with
    | .rx =>
      match s.rxTs.get g.val with
      | [] => .next (data s 0)
      | e :: rest =>
        let s := (({ s with rxTs := s.rxTs.set g.val rest }).wr Reg.PORT.RX_TS_NS (e.ts / 65536) g.val).wr Reg.PORT.RX_TS_FRAC (e.ts % 65536) g.val
        .next (data s (e.a % 16 + e.dom % 256 * 2 ^ 4 + e.seqId % 65536 * 2 ^ 12 + e.sub * 2 ^ 28 + 2 ^ 31))
    | .tx =>
      match s.txTs.get g.val with
      | [] => .next (data s 0)
      | e :: rest =>
        let s := (({ s with txTs := s.txTs.set g.val rest }).wr Reg.PORT.TX_TS_NS (e.ts / 65536) g.val).wr Reg.PORT.TX_TS_FRAC (e.ts % 65536) g.val
        .next (data s (e.a % 65536 + e.sub * 2 ^ 16 + b2n e.oneStep * 2 ^ 17 + 2 ^ 31))

end Sys2Proof.Machine
end

