-- ==== Sys2Proof/Machine/Ports.lean ====
section
/-! DEFINITION. Reception: the MAC, acceptance by a packet lane, the FCS result and port configuration (R30 to R37, R42, R43, R49). -/

namespace Sys2Proof.Machine

open Sys2Proof

/-- The lanes a port's packets enter (R30). -/
def State.lanesOf (s : State) (p : Nat) : List Nat := if s.speedOf p = 3 then [p / 2, p / 2 + 1] else [p / 2]

/-- What acceptance fixes of a frame on a lane (R31, R35, R36, R66). A lane in pass mode does not parse (R199). -/
def State.pktIn (s : State) (p l : Nat) (frame : List Byte) (inj : Bool) : PktIn :=
  let tap := s.isTap p
  let ok := tap && tapValid frame
  let w := beAt frame 2 2
  let ps := if (s.lanes.get l).pass then {} else
      parse frame tap (s.act Reg.PORT.V4_CSUM (p / 2) == 1) (s.act Reg.PORT.VXLAN_UDP l) (s.act Reg.PORT.GENEVE_UDP l)
  { port := p, lane := l, t := s.now, b := s.time.beat + 1, frame := frame, tapLen := if ok then 16 else 0,
    colour := if ok then bits w 10 2 else 3, swPort := if ok then w % 1024 else 0, tag := if ok then beAt frame 4 4 else 0,
    swMeta := if ok then beAt frame 8 8 else 0, tapPort := tap,
    parse := ps, malAct := s.act Reg.PORT.MAL_ACT (p / 2) ps.mal,
    slot := s.rd Reg.TCAM.ACTIVE_SLOT,
    rv := if s.rd Reg.TCAM.ACTIVE_SLOT = 0 then s.rd Reg.TCAM.SLOT_VER0 else s.rd Reg.TCAM.SLOT_VER1, injected := inj }

/-- Bytes of a frame that the MAC must have received before a lane accepts it (R31): 64 after any tap header, or all of a shorter one. -/
def State.reachBytes (s : State) (p : Nat) (r : RxFrame) : Nat := Nat.min r.data.length (64 + if s.isTap p ∧ tapValid r.data then 16 else 0)
/-- Where a frame reaches its acceptance point, in 1/125 of a schedule cycle of herd time at 41⅔ bytes a cycle (R31, R53). -/
def State.reachAt (s : State) (p : Nat) (r : RxFrame) : Nat := 125 * r.start + 3 * s.reachBytes p r
/-- Count a received packet of a lane (R274, R308). -/
def State.received (s : State) (l : Nat) : State :=
  let s := (s.ledger l 0).bump Reg.LEDG.AV_PKTS
  { s with flt := { s.flt with epochPkts := s.flt.epochPkts + 1 } }

/-- A lane accepts a packet (R31): it is stamped, counted and resident from now on. -/
def State.accept (s : State) (p l : Nat) (frame : List Byte) (inj : Bool) (vd : PktVd) : State :=
  let k := s.nextPkt
  let pk : Pkt := { i := s.pktIn p l frame inj, vd := vd }
  let s := { s with pkts := s.pkts.put k (some pk), nextPkt := k + 1, laneAcc := s.laneAcc.set l (s.time.cycle + 1) }
  (s.received l).setResident l true

/-- FRAME_START (R32, R49, R229, R312). A frame that starts without 73 free cells is counted as received and dropped at intake whatever else would have
become of it, a runt or one of an unpaired port included: the model's choice. -/
def execFrameStart (p : Port) (data : List Byte) (ts : Nat) (s : State) : Host.Outcome State Fault Refusal :=
  if ¬ s.time.started ∨ ¬ s.portExists p.val ∨ ¬ s.linkUp p.val ∨ (s.rx.get p.val).isSome then .next s
  else
    let put (s : State) (r : RxFrame) : State := { s with rx := s.rx.put p.val (some r) }
    let s := s.ptpRx p.val data ts
    if (s.lanesOf p.val).any (fun l => (s.lanes.get l).resetting) then
      .next (put (s.bump Reg.LEDG.RST_DISCARD) { data := data, dropped := true, ts := ts, start := s.now })
    else if s.freeCells < 73 then
      let s := ((s.received (p.val / 2)).ledger (p.val / 2) 5).bump Reg.HOLD.INTAKE_DROP
      .next (put s { data := data, dropped := true, ts := ts, start := s.now })
    else .next (put (s.cells 73) { data := data, ts := ts, start := s.now })

/-- The frame can be accepted: 64 bytes or more, on an open port (R32, R33). -/
def State.takes (s : State) (p : Nat) (r : RxFrame) : Bool :=
  !r.dropped && r.pkt.isNone && decide (64 ≤ r.data.length) && s.portOpen p

/-- Sub-port 0 of a 2 × 400GbE lane goes first (R31): its frame waits, and reached its acceptance point in no later schedule cycle than this one's. -/
def State.yields (s : State) (p : Nat) (r : RxFrame) : Bool :=
  s.speedOf p == 2 && p % 2 == 1 && (match s.rx.get (p - 1) with
    | some r0 => s.takes (p - 1) r0 && decide (s.reachAt (p - 1) r0 / 125 ≤ s.reachAt p r / 125)
    | none => false)
/-- The stored length of a frame: at most 9,216 bytes after any tap header (R32). -/
def storedCells (frame : List Byte) (tapLen : Nat) : Nat := ceilDiv (Nat.min frame.length (9216 + tapLen)) 128

/-- The last byte of an accepted frame is received (R32, R49): the cells it does not use return, and an oversize frame is void. A packet
that has already left (a deadline bypass) returns all 73. A frame that also failed its FCS keeps the reason BAD_FCS: the model's choice. -/
def State.endPkt (s : State) (k : PktId) : State :=
  match s.pkt? k with
  | none => s.cells (-73)
  | some x =>
    if x.vd.gone then (s.modPkt k (fun x => { x with vd := { x.vd with done := true } })).cells (-73)
    else
      let used := storedCells x.i.frame x.i.tapLen
      let big := decide (9216 < x.i.len)
      (s.modPkt k (fun x => { x with
        vd := { x.vd with done := true, cells := used, voidPkt := x.vd.voidPkt || big, mal := if big ∧ x.vd.mal = 0 then 16 else x.vd.mal } })).cells ((used : Int) - 73)

/-- PACKET_ACCEPT (R31). A lane accepts one packet in a schedule cycle; of a 1.6TbE port's lanes the even one takes the first, and of two sub-ports on one lane
sub-port 0 goes first. A frame with fewer than 64 bytes after its tap header waits for its last byte. -/
def execPacketAccept (p : Port) (l : Lane) (s : State) : Host.Outcome State Fault Refusal :=
  match s.rx.get p.val with
  | none => .next s
  | some r =>
    let busy (l : Nat) : Bool := s.laneAcc.get l == s.time.cycle + 1
    let turn := s.speedOf p.val ≠ 3 ∨ l.val % 2 = 0 ∨ busy (l.val - 1)
    let short := s.isTap p.val ∧ tapValid r.data ∧ r.data.length < 80
    if s.time.started ∧ s.takes p.val r ∧ (short → r.ended) ∧ ¬ s.yields p.val r ∧ l.val ∈ s.lanesOf p.val ∧ ¬ busy l.val ∧ turn ∧
        ¬ (s.lanes.get l.val).resetting then
      let k := s.nextPkt
      let s1 := s.accept p.val l.val r.data false {}
      if r.ended then .next ({ s1 with rx := s1.rx.erase p.val }.endPkt k)
      else .next { s1 with rx := s1.rx.put p.val (some { r with pkt := some k }) }
    else .next s

/-- FRAME_END (R32, R33, R49): the unused cells return. -/
def execFrameEnd (p : Port) (s : State) : Host.Outcome State Fault Refusal :=
  match s.rx.get p.val with
  | none => .next s
  | some r =>
    let gone := { s with rx := s.rx.erase p.val }
    if r.dropped then .next gone
    else
      match r.pkt with
      | some k => .next (gone.endPkt k)
      | none =>
        if r.data.length < 64 then .next ((gone.cells (-73)).bump Reg.PORT.RX_RUNT (p.val / 2))
        else if ¬ s.portOpen p.val then .next ((gone.cells (-73)).bump Reg.PORT.RX_UNPAIRED (p.val / 2))
        else .next { s with rx := s.rx.put p.val (some { r with ended := true }) }

/-- The value a basic write of SPEED stores (R37): 3 only on an even group; 4 is a result, not a choice. -/
def speedStored (g old v : Nat) : Nat := if old = 4 then 4 else if v ≤ 2 then v else if v = 3 ∧ g % 2 = 0 then 3 else old

/-- The PORT_CFG word of a group (R37). -/
def State.portCfgWord (s : State) (g : Nat) : Nat :=
  s.rd Reg.PORT.SPEED g + s.rd Reg.PORT.MODE_S0 g * 2 ^ 3 + s.rd Reg.PORT.MODE_S1 g * 2 ^ 4 + s.rd Reg.PORT.VHDR_S0 g * 2 ^ 5
    + s.rd Reg.PORT.VHDR_S1 g * 2 ^ 6 + s.rd Reg.PORT.V4_CSUM g * 2 ^ 7 + s.rd Reg.PORT.CT_LEAD g * 2 ^ 8 + s.rd Reg.PORT.PAIR_S0 g * 2 ^ 16
    + s.rd Reg.PORT.PAIR_S1 g * 2 ^ 21
/-- A write of PORT_CFG (R37, R344). -/
def State.portCfg (s : State) (src : Source) (g n : Nat) : State :=
  let old := s.rd Reg.PORT.SPEED g
  let new := speedStored g old (bits n 0 3)
  let s1 := (((s.wr Reg.PORT.SPEED new g).wr Reg.PORT.MODE_S0 (bits n 3 1) g).wr Reg.PORT.MODE_S1 (bits n 4 1) g).wr Reg.PORT.VHDR_S0 (bits n 5 1) g
  let s2 := (((s1.wr Reg.PORT.VHDR_S1 (bits n 6 1) g).wr Reg.PORT.V4_CSUM (bits n 7 1) g).wr Reg.PORT.CT_LEAD (bits n 8 2) g).wr Reg.PORT.PAIR_S0 (bits n 16 5) g
  let s3 := s2.wr Reg.PORT.PAIR_S1 (bits n 21 5) g
  let s4 := if new = old then s3
    else
      let s3 := s3.later (.speedChange g)
      if new = 3 then (s3.wr Reg.PORT.SPEED 4 (g + 1)).later (.speedChange (g + 1))
      else if old = 3 then s3.wr Reg.PORT.SPEED 0 (g + 1) else s3
  let res := if bits n 0 3 = new then 0 else 1
  if s4.portCfgWord g = s.portCfgWord g ∧ res = 0 then s4
  else s4.audit { block := Blk.PORT, inst := g, off := 0x40, source := src.num, result := res, old := s.portCfgWord g, new := s4.portCfgWord g }

/-- PORT_CFG_WRITE (R30, R33, R37): a change of SPEED retrains the group at the next beat boundary, and joins or frees the odd partner. -/
def execPortCfgWrite (src : Source) (g : Group) (v : Word) (s : State) : Host.Outcome State Fault Refusal :=
  s.basicCmd src (fun s => s.portCfg src g.val v.toNat)

/-- The pair status of a port settles at a beat boundary (R33): PAIR_ERR, and its event when it changes. A tap port has no pair, and none in error. -/
def State.settlePair (s : State) (p : Nat) : State :=
  let f := if p % 2 = 0 then Reg.PORT.PAIR_ERR_S0 else Reg.PORT.PAIR_ERR_S1
  let err := !(s.isTap p) && !(s.pairRight p)
  if s.pairErr p = err then s else (s.wr f (b2n err) (p / 2)).event Blk.PORT (p / 2) 2

end Sys2Proof.Machine
end

