-- ==== Sys2Proof/Machine/Classifier.lean ====
section
/-! DEFINITION. The classifier memory (R55 to R71, R402): searches, entry commands, bulk loads, parity, and the steps of a rule commit. -/

namespace Sys2Proof.Machine

open Sys2Proof

/-! ### Which packets make lookups (R42, R43, R199, R250) -/

/-- The final malformed reason of a packet (R41). -/
def Pkt.mal (x : Pkt) : Nat := if x.vd.mal ≠ 0 then x.vd.mal else x.i.parse.mal
/-- The action of the packet's final reason (R42): BAD_FCS and OVERSIZE always DROP; no reason acts as CLASSIFY. -/
def Pkt.malAction (x : Pkt) : Nat := if x.vd.mal ≠ 0 then 1 else if x.i.parse.mal = 0 then 3 else x.i.malAct
/-- A stop is in force for packets of boundary b (R250, R251). -/
def State.stoppedFor (s : State) (b : Nat) : Bool :=
  match s.herd.stopAt with
  | some S => decide (S ≤ b) && (match s.herd.resumeAt with | some S2 => decide (b ≤ S2) | none => true)
  | none => false
/-- The packet was accepted by a lane that parses and looks up, and its reason lets it be classified. -/
def State.looksUp (s : State) (x : Pkt) : Bool :=
  !(s.lanes.get x.i.lane).pass && !s.stoppedFor x.i.b && (decide (x.i.parse.mal = 0) || decide (x.i.malAct = 3))

/-! ### Keys (R56, R59, R60) -/

/-- The rule key. -/
def ruleKey (x : PktIn) : KeyWord :=
  let p := x.parse
  let win := beNat (x.window ++ zeros (64 - x.window.length))
  let m := x.port + x.lane * 2 ^ 5 + b2n p.tap * 2 ^ 9 + x.swPort * 2 ^ 10 + x.colour * 2 ^ 20 + p.l3Type % 4 * 2 ^ 22 + p.l4Type * 2 ^ 24
    + p.tunType * 2 ^ 27 + p.frag * 2 ^ 29 + p.mal * 2 ^ 31 + p.l3Off * 2 ^ 36 + p.l4Off * 2 ^ 42 + p.vlanN * 2 ^ 48 + p.mplsN * 2 ^ 50
    + p.extN * 2 ^ 53 + b2n p.l4Cut * 2 ^ 55 + x.window.length * 2 ^ 56
  BitVec.ofNat 576 (win + m * 2 ^ 512)
/-- The preselect index. -/
def preselIndex (p : Parse) : Nat :=
  p.vlanN % 4 + p.l3Type % 4 * 2 ^ 2 + p.l4Type % 8 * 2 ^ 4 + p.tunType % 4 * 2 ^ 7 + p.frag % 4 * 2 ^ 9 + (if p.mal ≠ 0 then 2 ^ 11 else 0)
/-- The destination address of the LPM key, none where any byte is absent. -/
def lpmDest (x : PktIn) : Option Nat :=
  let (off, n) := if x.parse.l3Type = 1 then (x.parse.l3Off + 16, 4) else (x.parse.l3Off + 24, 16)
  if off + n ≤ x.window.length then some (beAt x.window off n) else none

/-! ### The memory -/

/-- Key of an entry of a replica. -/
def entKey (r bank entry : Nat) : Nat := (r * 48 + bank) * 1024 + entry
def State.entry (s : State) (r bank entry : Nat) : TcamEntry := s.cls.tcam.get (entKey r bank entry)
def State.bankType (s : State) (r slot bank : Nat) : Nat := s.cls.banks.get ((r * 2 + slot) * 48 + bank)
def State.preselMask (s : State) (r slot idx : Nat) : Nat := s.cls.presel.get ((r * 2 + slot) * 4096 + idx)
def State.lpmDomain (s : State) (r slot port : Nat) : Nat := s.cls.lpmDom.get ((r * 2 + slot) * 32 + port)
def State.defAct (s : State) (slot : Nat) : ActWord := if slot = 0 then s.cls.defAct0 else s.cls.defAct1
/-- The entry's bit of a slot. -/
def TcamEntry.inSlot (e : TcamEntry) (slot : Nat) : Bool := if slot = 0 then e.s0 else e.s1
def TcamEntry.setSlot (e : TcamEntry) (slot : Nat) (v : Bool) : TcamEntry := if slot = 0 then { e with s0 := v } else { e with s1 := v }
def State.setEntry (s : State) (r bank entry : Nat) (e : TcamEntry) : State :=
  { s with cls := { s.cls with tcam := s.cls.tcam.set (entKey r bank entry) e } }

/-- The first match in search order among the entries of the enabled banks (R57). The index is bank × 1,024 + entry. -/
def State.firstMatch (s : State) (r slot : Nat) (key : KeyWord) (on : Nat → Bool) : Option (Nat × TcamEntry) :=
  let lo := r * 48 * 1024
  (List.find? (fun (e : Nat × TcamEntry) => decide (lo ≤ e.1) && decide (e.1 < lo + 48 * 1024) && on ((e.1 - lo) / 1024) &&
    e.2.inSlot slot && !e.2.disabled && decide (key &&& e.2.mask = e.2.value &&& e.2.mask)) s.cls.tcam).map (fun e => (e.1 - lo, e.2))

/-- Disable an entry found failing, and report it (R70). The index is bank × 1,024 + entry. -/
def State.tcamBad (s : State) (r i scope : Nat) : State :=
  let e := s.entry r (i / 1024) (i % 1024)
  let s := (((s.setEntry r (i / 1024) (i % 1024) { e with disabled := true }).bump Reg.TCAM.PARITY r).wr Reg.TCAM.LAST_BAD i r)
  s.fault { cls := 1, scope := scope, action := 2, block := Blk.TCAM, inst := r, unit := i, count := s.rd Reg.TCAM.PARITY r }

/-- A rule search: winner, whether a failing winner puts the packet in the safe forwarding state, and the state after the failures.
The failing entry's content goes to no consumer (R296): the default action record stands in for it. With PARITY_NEXT the search goes on
to the next match (R71). -/
def State.ruleMatch : Nat → State → Nat → Nat → KeyWord → (Nat → Bool) → List Nat → State × Option TcamEntry × Bool
  | 0, s, _, _, _, _, _ => (s, none, false)
  | fuel + 1, s, r, slot, key, on, bad =>
    match s.firstMatch r slot key on with
    | none => (s, none, false)
    | some (i, e) =>
      if bad.contains i then
        let s := s.tcamBad r i 1
        if s.act Reg.TCAM.PARITY_NEXT = 1 then State.ruleMatch fuel s r slot key on bad else (s, none, true)
      else (s, some e, false)

/-- The LPM search of a packet (R60, R62, R70). -/
def State.lpmSearch (s : State) (k : PktId) (x : Pkt) (bad : List Nat) : State :=
  let r := x.i.lane / 2
  let t := x.i.parse.l3Type
  if t ≠ 1 ∧ t ≠ 2 then s
  else
    match lpmDest x.i with
    | none => (s.modPkt k (fun x => { x with lk := { x.lk with lpmAbsent := true } })).bump Reg.TCAM.LPM_ABSENT r
    | some d =>
      let key := BitVec.ofNat 576 (d + s.lpmDomain r x.i.slot x.i.port * 2 ^ 128)
      let s := s.modPkt k (fun x => { x with lk := { x.lk with lpmMade := true } })
      match s.firstMatch r x.i.slot key (fun b => s.bankType r x.i.slot b == t + 1) with
      | none => s.bump Reg.TCAM.LPM_MISS r
      | some (i, e) =>
        if bad.contains i then (s.tcamBad r i 0).bump Reg.TCAM.LPM_MISS r
        else s.modPkt k (fun x => { x with lk := { x.lk with lpmHit := true, lpmRes := e.act.toNat % 2 ^ 32, lpmLen := e.plen } })

/-- The version of a context that a packet accepted in a beat is stamped with (R203, R211, R214): from beat C of an armed commit the staged one, from
the last switch on the active one, before it the old one, which keeps its slot for six beats. -/
def Ctx.verAt (c : Ctx) (beat : Nat) : Option Version :=
  if c.st = .armed ∧ c.armC ≤ beat then c.other
  else if c.switchBeat ≤ beat then c.active
  else if c.st = .retiring then c.other else none
/-- Stamped model version of a context; 0 without one. -/
def State.mvAt (s : State) (c beat : Nat) : Nat := (((s.ctxs.get c).verAt beat).map (·.ver)).getD 0

/-! Fields of an action record (R63). -/
def actBits (a : ActWord) (lo w : Nat) : Nat := bits a.toNat lo w
def Rule.fwd (a : ActWord) : Bool := a.getLsbD 0
def Rule.copy (a : ActWord) : Bool := a.getLsbD 1
def Rule.mirror (a : ActWord) : Bool := a.getLsbD 2
def Rule.follow (a : ActWord) : Bool := a.getLsbD 3
def Rule.ses (a : ActWord) : Nat := actBits a 4 4
def Rule.ctxA (a : ActWord) : Nat := actBits a 8 12
def Rule.enA (a : ActWord) : Bool := a.getLsbD 20
def Rule.ctxB (a : ActWord) : Nat := actBits a 21 12
def Rule.enB (a : ActWord) : Bool := a.getLsbD 33
def Rule.ctxF (a : ActWord) : Nat := actBits a 34 12
def Rule.enF (a : ActWord) : Bool := a.getLsbD 46
def Rule.hist (a : ActWord) : Bool := a.getLsbD 47
def Rule.fkey (a : ActWord) : Nat := actBits a 48 2
def Rule.policer (a : ActWord) : Nat := actBits a 50 14
def Rule.queue (a : ActWord) : Nat := actBits a 64 3
def Rule.ruleTag (a : ActWord) : Nat := actBits a 80 16
def Rule.tenant (a : ActWord) : Nat := actBits a 96 32
/-- An action record with its reserved bits [79:67] zero (R9, R63). -/
def Rule.clean (a : ActWord) : ActWord := BitVec.ofNat 128 (setBits a.toNat 67 13 0)
/-- The faults R64 refuses. -/
def Rule.bad (a : ActWord) : Bool :=
  (Rule.copy a && Rule.mirror a) || (Rule.mirror a && Rule.ses a == 0) || (Rule.enF a && Rule.fkey a == 0) || (Rule.hist a && !Rule.enF a)

/-- RULE_SEARCH (R55 to R63, R70): both searches of a packet under its stamped rule version, and its model-version stamps (R203).
`bad` lists the entries, bank × 1,024 + entry, whose parity fails. -/
def execRuleSearch (pk : PktId) (bad : List Nat) (s : State) : Host.Outcome State Fault Refusal :=
  match s.pkt? pk with
  | none => .next s
  | some x =>
    if x.lk.searched ∨ ¬ s.looksUp x ∨ s.time.beat < x.i.b then .next s
    else
      let r := x.i.lane / 2
      let slot := x.i.slot
      let mask := s.preselMask r slot (preselIndex x.i.parse)
      let s := s.bump Reg.TCAM.SEARCHES r
      let (s, win, par) := State.ruleMatch (bad.length + 1) s r slot (ruleKey x.i) (fun b => s.bankType r slot b == 1 && bits mask b 1 == 1) bad
      let act := (win.map (·.act)).getD (s.defAct slot)
      let s := if win.isNone ∧ ¬ par then s.bump Reg.TCAM.RULE_MISS r else s
      let acc := x.i.b - 1
      let s := s.modPkt pk (fun x => { x with
        lk := { x.lk with searched := true, act := act, ruleHit := win.isSome, parityHit := par },
        ft := { x.ft with mvA := if Rule.enA act then s.mvAt (Rule.ctxA act) acc else 0,
                          mvB := if Rule.enB act then s.mvAt (Rule.ctxB act) acc else 0,
                          mvF := if Rule.enF act then s.mvAt (Rule.ctxF act) acc else 0 },
        vd := if par then { x.vd with reasons := 19 :: x.vd.reasons } else x.vd })
      .next (s.lpmSearch pk x bad)

/-- The period SCRUB_BEATS asks for (R71). -/
def State.scrubAsked (s : State) : Nat := Nat.max 256 (s.act Reg.TCAM.SCRUB_BEATS)
/-- A beat whose count is a multiple of the period asked for starts a period of it (R70). -/
def State.scrubBeat (s : State) : State := if s.time.beat % s.scrubAsked = 0 then { s with cls := { s.cls with scrub := s.scrubAsked } } else s
/-- The beat of the present period in which the scrub reads an entry (R70). -/
def State.scrubDue (s : State) (bank entry : Nat) : Nat :=
  s.time.beat - s.time.beat % s.cls.scrub + (1024 * bank + entry) * s.cls.scrub / 49152
/-- TCAM_SCRUB (R70): the scrub reads an entry in its beat of the period; one found failing is disabled. -/
def execTcamScrub (r : Replica) (bank : Fin 48) (entry : Fin 1024) (bad : Bool) (s : State) : Host.Outcome State Fault Refusal :=
  if s.time.beat ≠ s.scrubDue bank.val entry.val then .next s
  else if bad ∧ ¬ (s.entry r.val bank.val entry.val).disabled then .next (s.tcamBad r.val (bank.val * 1024 + entry.val) 0) else .next s

/-! ### Entry commands (R69, R71, R402) -/

/-- The active slot and the state of a commit (R67). -/
def State.activeSlot (s : State) : Nat := s.rd Reg.TCAM.ACTIVE_SLOT
def State.stagedSlot (s : State) : Nat := 1 - s.activeSlot
def State.commitState (s : State) : Nat := s.rd Reg.TCAM.COMMIT_STATE
/-- Move to another commit state (R67, R377). -/
def State.setCommitState (s : State) (v : Nat) : State :=
  if s.commitState = v then s else (s.wr Reg.TCAM.COMMIT_STATE v).event Blk.TCAM 0 1

/-- The words of an array register, word 0 lowest. -/
def State.regWords (s : State) (f : Field) (inst n : Nat) : Nat := ((List.range n).map (fun i => s.rd f inst i * 2 ^ (f.width * i))).sum
/-- The data registers of a page. -/
def State.entData (s : State) (r : Nat) : EntData :=
  { value := BitVec.ofNat 576 (s.regWords Reg.TCAM.ENT_VAL r 18), mask := BitVec.ofNat 576 (s.regWords Reg.TCAM.ENT_MASK r 18),
    act := BitVec.ofNat 128 (s.regWords Reg.TCAM.ENT_ACT r 4) }

/-- The entry's bit is set for the active slot, or for a retiring slot (R69). -/
def State.entLocked (s : State) (e : TcamEntry) : Bool := e.inSlot s.activeSlot || (decide (s.commitState = 3) && e.inSlot s.stagedSlot)

/-- Checks of the content by the form the bank's type gives (R402): ENTRY_BAD 2, PLEN_BAD 4. -/
def formBad (type plen : Nat) (d : EntData) : Nat :=
  if type = 2 then (if 32 < plen then 4 else 0)
  else if type = 3 then (if 128 < plen then 4 else 0)
  else if Rule.bad d.act then 2 else 0
/-- The entry stored in the form of the bank's type: the device builds an LPM entry's mask from its prefix length (R60, R402). -/
def formEntry (type plen : Nat) (d : EntData) (e : TcamEntry) : TcamEntry :=
  let lpm (w : Nat) : TcamEntry :=
    { e with value := BitVec.ofNat 576 (d.value.toNat % 2 ^ w + bits d.value.toNat 128 8 * 2 ^ 128),
             mask := BitVec.ofNat 576 (2 ^ w - 2 ^ (w - plen) + 255 * 2 ^ 128), act := BitVec.ofNat 128 (d.act.toNat % 2 ^ 32), plen := plen, disabled := false }
  if type = 2 then lpm 32 else if type = 3 then lpm 128
  else { e with value := d.value, mask := d.mask, act := Rule.clean d.act, plen := 0, disabled := false }

/-- ENT_RESULT of a command on one replica: 0 when it may act. Where several refusals apply, the lowest code is given. -/
def State.entCheck (s : State) (op : EntOp) (c : EntCmd) (d : EntData) (r : Nat) : Nat :=
  if op = .reserved then 6
  else if 48 ≤ c.bank.val then 7
  else
    let e := s.entry r c.bank.val c.entry.val
    let open_ := decide (s.commitState = 0)
    let first (l : List Nat) : Nat := (l.filter (· ≠ 0)).foldl Nat.min 15 % 15
    match op with
    | .write => first [if s.entLocked e then 1 else 0, formBad (s.bankType r s.stagedSlot c.bank.val) c.plen.val d, if open_ then 0 else 3]
    | .setStaged => if open_ then 0 else 3
    | .clearStaged => if open_ then 0 else 3
    | .read => 0
    | .repair =>
      let slot := if e.inSlot s.activeSlot then s.activeSlot else s.stagedSlot
      first [formBad (s.bankType r slot c.bank.val) c.plen.val d, if s.entLocked e ∨ open_ then 0 else 3, if e.disabled then 0 else 5]
    | .reserved => 6

/-- The effect of a command that may act, on one replica. -/
def State.entApply (s : State) (op : EntOp) (c : EntCmd) (d : EntData) (r : Nat) : State :=
  let e := s.entry r c.bank.val c.entry.val
  match op with
  | .write => s.setEntry r c.bank.val c.entry.val ((formEntry (s.bankType r s.stagedSlot c.bank.val) c.plen.val d e).setSlot s.stagedSlot true)
  | .setStaged => s.setEntry r c.bank.val c.entry.val (e.setSlot s.stagedSlot true)
  | .clearStaged => s.setEntry r c.bank.val c.entry.val (e.setSlot s.stagedSlot false)
  | .repair =>
    let slot := if e.inSlot s.activeSlot then s.activeSlot else s.stagedSlot
    s.setEntry r c.bank.val c.entry.val (formEntry (s.bankType r slot c.bank.val) c.plen.val d e)
  | .read =>
    let s := (List.range 18).foldl (fun t i => (t.wr Reg.TCAM.ENT_VAL (bits e.value.toNat (32 * i) 32) r i).wr Reg.TCAM.ENT_MASK (bits e.mask.toNat (32 * i) 32) r i) s
    let s := (List.range 4).foldl (fun t i => t.wr Reg.TCAM.ENT_ACT (bits e.act.toNat (32 * i) 32) r i) s
    s.wr Reg.TCAM.ENT_FLAGS (b2n e.s0 + 2 * b2n e.s1 + 4 * b2n e.disabled) r
  | .reserved => s

/-- A command acts (R402): a broadcast is checked in every replica before it changes any. -/
def State.entRun (s : State) (op : EntOp) (c : EntCmd) (d : EntData) : State × Nat :=
  let rs := if c.bcast ∧ c.replica.val = 0 then List.range 8 else [c.replica.val]
  match (rs.map (fun r => s.entCheck op c d r)).find? (· ≠ 0) with
  | some code => (s, code)
  | none => (rs.foldl (fun t r => t.entApply op c d r) s, 0)

/-- A write of ENT_CMD (R402): sets ENT_BUSY at once; while it is set a further write has no effect. -/
def State.entStart (s : State) (src : Source) (op : EntOp) (c : EntCmd) : State :=
  let r := c.replica.val
  if s.rd Reg.TCAM.ENT_BUSY r = 1 then s.auditCmd src Reg.TCAM.ENT_CMD_ENTRY r 0 1
  else
    let s := { s with cls := { s.cls with entPend := s.cls.entPend.set r (some { op := op, cmd := c }) } }
    (s.wr Reg.TCAM.ENT_BUSY 1 r).auditCmd src Reg.TCAM.ENT_CMD_ENTRY r (c.entry.val + c.bank.val * 2 ^ 10) 0

/-- ENT_WRITE. -/
def execEntWrite (src : Source) (e : EntCmd) (s : State) : Host.Outcome State Fault Refusal :=
  s.basicCmd src (fun s => s.entStart src .write e)
/-- ENT_SET_STAGED. -/
def execEntSetStaged (src : Source) (e : EntCmd) (s : State) : Host.Outcome State Fault Refusal :=
  s.basicCmd src (fun s => s.entStart src .setStaged e)
/-- ENT_CLEAR_STAGED. -/
def execEntClearStaged (src : Source) (e : EntCmd) (s : State) : Host.Outcome State Fault Refusal :=
  s.basicCmd src (fun s => s.entStart src .clearStaged e)
/-- ENT_READ. -/
def execEntRead (src : Source) (e : EntCmd) (s : State) : Host.Outcome State Fault Refusal :=
  s.basicCmd src (fun s => s.entStart src .read e)
/-- ENT_REPAIR. -/
def execEntRepair (src : Source) (e : EntCmd) (s : State) : Host.Outcome State Fault Refusal :=
  s.basicCmd src (fun s => s.entStart src .repair e)

/-- The pending commands act at a beat boundary (R402). -/
def State.entBoundary (s : State) : State :=
  (List.range 8).foldl (fun t r =>
    match t.cls.entPend.get r with
    | some p =>
      if p.result.isSome then t
      else
        let (t, code) := t.entRun p.op p.cmd (p.load.getD (t.entData r))
        { t with cls := { t.cls with entPend := t.cls.entPend.set r (some { p with result := some code, acted := t.time.beat }) } }
    | none => t) s

/-- A bulk load's record is done: the next one follows, or the load stops at the first refused record (R71, R402). -/
def State.loadStep (s : State) (code : Nat) : State :=
  if code ≠ 0 then { s with cls := { s.cls with loadRun := false } }
  else
    let left := s.cls.loadLeft - 1
    let s := { s with cls := { s.cls with loadAddr := s.cls.loadAddr + 192, loadLeft := left, loadRun := decide (left ≠ 0) } }
    s.bump Reg.TCAM.LOAD_DONE
/-- ENT_CMD_END (R402): at the boundary after the one at which the command acted, ENT_RESULT is written, ENT_BUSY clears and the event is set, whatever the
result. -/
def execEntCmdEnd (r : Replica) (s : State) : Host.Outcome State Fault Refusal :=
  match s.cls.entPend.get r.val with
  | some p =>
    match p.result with
    | some code =>
      if s.time.beat ≤ p.acted then .next s
      else
        let s := { s with cls := { s.cls with entPend := s.cls.entPend.set r.val none } }
        let s := if p.load.isSome then s.loadStep code else s
        .next (((s.wr Reg.TCAM.ENT_BUSY 0 r.val).wr Reg.TCAM.ENT_RESULT code r.val).event Blk.TCAM r.val 0)
    | none => .next s
  | none => .next s

/-- OP of an ENT_CMD word (R71, R402). -/
def entOpOf (n : Nat) : EntOp :=
  if n = 1 then .write else if n = 2 then .setStaged else if n = 3 then .clearStaged else if n = 4 then .read else if n = 5 then .repair else .reserved
/-- The fields of an ENT_CMD word written through replica r's page. -/
def entCmdOf (r : Fin 8) (w : Nat) : EntCmd :=
  { replica := r, bank := ⟨bits w 10 6, Nat.mod_lt _ (by decide)⟩, entry := ⟨bits w 0 10, Nat.mod_lt _ (by decide)⟩, bcast := bits w 19 1 == 1,
    plen := ⟨bits w 20 8, Nat.mod_lt _ (by decide)⟩ }

/-- LOAD_GO (R71): the bulk load starts. -/
def execLoadGo (src : Source) (s : State) : Host.Outcome State Fault Refusal :=
  s.basicCmd src (fun s =>
    if s.cls.loadRun then s.auditCmd src Reg.TCAM.LOAD_GO 0 1 3
    else
      let n := s.rd Reg.TCAM.LOAD_COUNT
      let s := { s with cls := { s.cls with loadRun := decide (n ≠ 0), loadAddr := s.rd Reg.TCAM.LOAD_ADDR, loadLeft := n } }
      (s.wr Reg.TCAM.LOAD_DONE 0).auditCmd src Reg.TCAM.LOAD_GO 0 1 0)

/-- TCAM_LOAD_RECORD (R71, R402): one record runs as the command its ENT_CMD word gives, issued through TCAM 0 once no entry command is in progress there: it
acts at the next beat boundary, and ENT_CMD_END ends it. -/
def execTcamLoadRecord (s : State) : Host.Outcome State Fault Refusal :=
  if ¬ s.cls.loadRun ∨ s.rd Reg.TCAM.ENT_BUSY = 1 then .next s
  else
    let b := Mem.readN s.hbm s.cls.loadAddr 192
    let w := leAt b 160 4
    let d : EntData := { value := BitVec.ofNat 576 (leAt b 0 72), mask := BitVec.ofNat 576 (leAt b 72 72), act := BitVec.ofNat 128 (leAt b 144 16) }
    .next ({ s with cls := { s.cls with entPend := s.cls.entPend.set 0 (some { op := entOpOf (bits w 16 3), cmd := entCmdOf 0 w, load := some d }) } }.wr Reg.TCAM.ENT_BUSY 1)

/-! ### Commits (R61, R64, R67, R68) -/

/-- The entries of a replica that carry a slot's bit, in search order: index, value, mask, action and prefix length. -/
def State.slotEntries (s : State) (r slot : Nat) : List (Nat × KeyWord × KeyWord × ActWord × Nat) :=
  let lo := r * 48 * 1024
  (s.cls.tcam.filter (fun e => decide (lo ≤ e.1) && decide (e.1 < lo + 48 * 1024) && e.2.inSlot slot)).map (fun e => (e.1 - lo, e.2.value, e.2.mask, e.2.act, e.2.plen))
/-- Non-increasing. -/
def nonIncreasing : List Nat → Bool
  | [] => true
  | [_] => true
  | a :: b :: t => decide (b ≤ a) && nonIncreasing (b :: t)
/-- The LPM entries of a slot stand in the order R61 asks for. -/
def State.lpmOrdered (s : State) (r slot : Nat) : Bool :=
  [2, 3].all (fun ty => nonIncreasing (((s.slotEntries r slot).filter (fun e => s.bankType r slot (e.1 / 1024) == ty)).map (fun e => e.2.2.2.2)))
/-- A replica's tables of a slot: the listed entries, each at its place in the table of slot 0 of replica 0. -/
def slotPart (t : Tbl Nat) (r slot n : Nat) : Tbl Nat :=
  (t.filter (fun e => decide (e.1 / n = r * 2 + slot))).map (fun e => (e.1 % n, e.2))
/-- The staged slot of a replica equals that of replica 0 (R67, REPLICA_DIFF). -/
def State.replicaSame (s : State) (r slot : Nat) : Bool :=
  decide (s.slotEntries r slot = s.slotEntries 0 slot) && decide (slotPart s.cls.banks r slot 48 = slotPart s.cls.banks 0 slot 48) &&
    decide (slotPart s.cls.presel r slot 4096 = slotPart s.cls.presel 0 slot 4096) && decide (slotPart s.cls.lpmDom r slot 32 = slotPart s.cls.lpmDom 0 slot 32)

/-- REFUSE of a commit of the staged slot at beat C, written in beat w (R67): the first failure; 0 when it passes. `soon` is off for a
commit the bellwether has ordered, whose lead R247 settles. -/
def State.ruleCheck (s : State) (ver c w : Nat) (soon : Bool) : Nat :=
  let slot := s.stagedSlot
  let active := if s.activeSlot = 0 then s.rd Reg.TCAM.SLOT_VER0 else s.rd Reg.TCAM.SLOT_VER1
  if soon ∧ c < w + 256 then 1
  else if ver = active then 2
  else if (List.range 8).any (fun r => !s.lpmOrdered r slot) then 3
  else if (List.range 8).any (fun r => !s.replicaSame r slot) then 4
  else if Rule.bad (s.defAct slot) then 5
  else 0
/-- Arm a commit for beat C. -/
def State.ruleArm (s : State) (c : Nat) (herd : Bool) : State :=
  ({ s with cls := { s.cls with armC := c, armHerd := herd } }).setCommitState 2

/-- RULE_CHECK_END (R67). A commit that a member has sent to the bellwether waits for its ORDER (R247). -/
def execRuleCheckEnd (s : State) : Host.Outcome State Fault Refusal :=
  if s.commitState ≠ 1 ∨ s.cls.waitOrder then .next s
  else
    let code := s.ruleCheck (s.rd Reg.TCAM.STAGED_VER) (s.rd Reg.TCAM.COMMIT_BEAT) s.cls.commitWrite true
    if code = 0 then .next ((s.wr Reg.TCAM.REFUSE 0).ruleArm (s.rd Reg.TCAM.COMMIT_BEAT) false)
    else .next ((s.wr Reg.TCAM.REFUSE code).setCommitState 0)

/-- As beat C begins the staged slot becomes the active one and the old one retires (R66, R67, R214). -/
def State.ruleSwitch (s : State) : State :=
  if s.commitState = 2 ∧ s.cls.armC ≤ s.time.beat then
    let slot := s.stagedSlot
    let s := (s.wr (if slot = 0 then Reg.TCAM.SLOT_VER0 else Reg.TCAM.SLOT_VER1) (s.rd Reg.TCAM.STAGED_VER)).wr Reg.TCAM.ACTIVE_SLOT slot
    { s with cls := { s.cls with switchBeat := s.cls.armC, retired := false } }.setCommitState 3
  else s
/-- RULE_VERSION_SWITCH (R66, R67, R214). The marker that starts beat C makes the switch too, so that every packet of the beat is stamped with the new version. -/
def execRuleVersionSwitch (s : State) : Host.Outcome State Fault Refusal := .next s.ruleSwitch

/-- RULE_RETIRE (R68): from boundary C + 5 the old slot retires once every lane's count for it is zero; a lane in pass mode counts as zero. -/
def execRuleRetire (s : State) : Host.Outcome State Fault Refusal :=
  let free (l : Nat) : Bool := (s.lanes.get l).pass || s.cls.occ.get (l * 2 + s.stagedSlot) == 0
  if s.commitState = 3 ∧ ¬ s.cls.retired ∧ s.cls.switchBeat + 5 ≤ s.time.beat ∧ (List.range 16).all free then
    .next { s with cls := { s.cls with retired := true } }
  else .next s

/-- One slot's part of a table becomes equal to the other's, in every replica. -/
def copySlot (t : Tbl Nat) (n src dst : Nat) : Tbl Nat :=
  let keep := t.filter (fun e => decide (e.1 / n % 2 ≠ dst))
  (keep.filter (fun e => decide (e.1 / n % 2 = src))).foldl (fun u e => u.put ((e.1 / n / 2 * 2 + dst) * n + e.1 % n) e.2) keep
/-- The active slot copied into the other (R68). -/
def State.copyActive (s : State) : State :=
  let a := s.activeSlot
  let o := s.stagedSlot
  { s with cls := { s.cls with
      tcam := s.cls.tcam.map (fun e => (e.1, e.2.setSlot o (e.2.inSlot a))),
      banks := copySlot s.cls.banks 48 a o, presel := copySlot s.cls.presel 4096 a o, lpmDom := copySlot s.cls.lpmDom 32 a o,
      defAct0 := if o = 0 then s.defAct a else s.cls.defAct0, defAct1 := if o = 1 then s.defAct a else s.cls.defAct1 } }

/-- RULE_SLOT_COPY_END (R68): the copy ends and the state returns to OPEN. -/
def execRuleSlotCopyEnd (s : State) : Host.Outcome State Fault Refusal :=
  if s.commitState = 3 ∧ s.cls.retired then .next ({ s.copyActive with cls := { s.copyActive.cls with retired := false } }.setCommitState 0)
  else .next s

end Sys2Proof.Machine
end

