-- ==== Sys2Proof/Machine/FlowRec.lean ====
section
/-! DEFINITION. Flow keys, hashes and the layout of flow records, tags and history rings (R72 to R76, R80, R102, R104). -/

namespace Sys2Proof.Machine

open Sys2Proof

/-! ### Hashes (R73) -/

/-- One byte through CRC-32C (Castagnoli polynomial, reflected). -/
def crc32cByte (c : BitVec 32) (b : Byte) : BitVec 32 :=
  (List.range 8).foldl (fun c _ => if c.getLsbD 0 then (c >>> 1) ^^^ 0x82F63B78#32 else c >>> 1) (c ^^^ b.setWidth 32)
/-- CRC-32C with initial value and final XOR of all ones. -/
def crc32c (bs : List Byte) : Nat := (~~~ (bs.foldl crc32cByte 0xFFFFFFFF#32)).toNat
/-- H(s, key). -/
def hashH (seed : Nat) (key : List Byte) : Nat := crc32c (beBytes 4 seed ++ key)
/-- Store buckets of a key. -/
def bucket1 (key : List Byte) : Nat := hashH 1 key % 2 ^ 27
def bucket2 (key : List Byte) : Nat := hashH 2 key % 2 ^ 27
/-- Cache buckets of a key. -/
def cbucket1 (key : List Byte) : Nat := hashH 1 key % 2 ^ 18
def cbucket2 (key : List Byte) : Nat := hashH 2 key % 2 ^ 18
/-- Fingerprint and flow identifier of a key. -/
def fingerprint (key : List Byte) : Nat := hashH 3 key

/-! ### Flow keys (R72) -/

/-- Bytes off … off + n − 1 of the window, absent ones zero, and whether any is absent. -/
def winBytes (w : List Byte) (off n : Nat) : List Byte × Bool :=
  let bs := slice w off n
  (bs ++ zeros (n - bs.length), decide (bs.length < n))
/-- The packet's upper-layer header has port bytes (R72). -/
def Parse.portBytes (p : Parse) : Bool := [1, 6, 17, 58].any (fun n => decide (p.proto = some n))
/-- The flow key of a packet under a form and a tenant. Where the parser could not locate the upper-layer header, its port bytes count as absent (DEDUCED). -/
def flowKey (x : PktIn) (form tenant : Nat) : List Byte :=
  let w := x.window
  let p := x.parse
  let v6 := p.l3Type == 2
  let (src, c1) := if v6 then winBytes w (p.l3Off + 8) 16 else winBytes w (p.l3Off + 12) 4
  let (dst, c2) := if v6 then winBytes w (p.l3Off + 24) 16 else winBytes w (p.l3Off + 16) 4
  let pad := if v6 then [] else zeros 12
  let (sp, c3) := if p.l4Type = 0 ∨ 5 ≤ p.l4Type then (zeros 2, false) else winBytes w p.l4Off 2
  let (dp, c4) := if p.l4Type = 1 ∨ p.l4Type = 2 then winBytes w (p.l4Off + 2) 2 else (zeros 2, false)
  let tun := p.tunType == 1 || p.tunType == 2
  let (vni, c5) := if tun then winBytes w (p.tunOff + 4) 3 else (zeros 3, false)
  let (seg, vn, c6) := if form = 1 then (zeros 4, false, false) else if tun then (zeros 1 ++ vni, true, c5)
    else (beBytes 4 (if p.vlanN = 0 then 0 else beAt w 14 2 % 4096), false, false)
  let cut := c1 || c2 || c3 || c4 || c6 || p.proto.isNone || (decide (p.l4Type = 0) && p.portBytes)
  let f := form % 4 + b2n v6 * 4 + b2n vn * 8 + b2n cut * 16
  pad ++ src ++ pad ++ dst ++ leBytes 1 (p.proto.getD 0) ++ leBytes 1 f ++ sp ++ dp ++ seg
    ++ (if form = 3 then beBytes 4 tenant else zeros 4) ++ zeros 2

/-! ### Records (R102) -/

/-- Bytes 48 to 127 of a record. -/
def HotRec.enc (h : HotRec) : List Byte :=
  leBytes 8 h.firstSeen ++ leBytes 8 h.lastSeen ++ leBytes 4 h.pkts
    ++ leBytes 4 (h.tcpOr % 256 + h.tcpLast % 256 * 2 ^ 8 + b2n h.histFull * 2 ^ 16 + b2n h.fragSeen * 2 ^ 17 + b2n h.malSeen * 2 ^ 18 + h.dscpLast % 256 * 2 ^ 24)
    ++ leBytes 8 h.bytes ++ leBytes 4 h.iatLast ++ leBytes 4 h.iatEwma ++ leBytes 2 h.lenMin ++ leBytes 2 h.lenMax
    ++ leBytes 4 (h.fvCode % 256 + h.fvCtx % 4096 * 2 ^ 8 + b2n h.fvValid * 2 ^ 20) ++ leBytes 2 h.score0 ++ leBytes 2 h.score1
    ++ leBytes 4 h.res0 ++ leBytes 4 h.res1 ++ leBytes 2 h.fvMv ++ leBytes 2 h.resSeq
    ++ leBytes 4 (h.uacc.getD 0 0) ++ leBytes 4 (h.uacc.getD 1 0) ++ leBytes 4 (h.uacc.getD 2 0)
    ++ leBytes 4 (h.histRing % 2 ^ 26 + h.histHead % 32 * 2 ^ 26 + b2n h.histValid * 2 ^ 31)
/-- The hot part a record's first 128 bytes hold. -/
def HotRec.ofBytes (b : List Byte) : HotRec :=
  let fl := leAt b 68 4
  let fv := leAt b 92 4
  let hi := leAt b 124 4
  { firstSeen := leAt b 48 8, lastSeen := leAt b 56 8, pkts := leAt b 64 4, tcpOr := bits fl 0 8, tcpLast := bits fl 8 8, histFull := bits fl 16 1 == 1,
    fragSeen := bits fl 17 1 == 1, malSeen := bits fl 18 1 == 1, dscpLast := bits fl 24 8, bytes := leAt b 72 8, iatLast := leAt b 80 4, iatEwma := leAt b 84 4,
    lenMin := leAt b 88 2, lenMax := leAt b 90 2, fvCode := bits fv 0 8, fvCtx := bits fv 8 12, fvValid := bits fv 20 1 == 1, score0 := leAt b 96 2,
    score1 := leAt b 98 2, res0 := leAt b 100 4, res1 := leAt b 104 4, fvMv := leAt b 108 2, resSeq := leAt b 110 2,
    uacc := [leAt b 112 4, leAt b 116 4, leAt b 120 4], histRing := bits hi 0 26, histHead := bits hi 26 5, histValid := bits hi 31 1 == 1 }

/-! ### The store (R74, R75) -/

/-- Device address of the record of a store slot (8 × bucket + slot). -/
def State.recAddr (s : State) (loc : Nat) : Nat := s.regionBase 0 + 256 * loc
/-- Device address of its tag: the tag lines fill the first 8 GiB of the journal region (assumption 8). -/
def State.tagAddr (s : State) (loc : Nat) : Nat := s.regionBase 5 + 8 * loc
/-- The tag of a slot. -/
def State.tag (s : State) (loc : Nat) : Nat := Mem.readLE s.hbm (s.tagAddr loc) 8
def tagValid (t : Nat) : Bool := bits t 32 1 == 1
def tagFp (t : Nat) : Nat := t % 2 ^ 32
/-- Write a tag. -/
def State.setTag (s : State) (loc t : Nat) : State := s.hbmWrite (s.tagAddr loc) (leBytes 8 t)
/-- The tag of a key in the store. -/
def tagOf (key : List Byte) (cached histr : Bool) : Nat := fingerprint key + 2 ^ 32 + b2n cached * 2 ^ 33 + b2n histr * 2 ^ 34
/-- The record of a slot. -/
def State.record (s : State) (loc : Nat) : List Byte := Mem.readN s.hbm (s.recAddr loc) 256
/-- The key a slot's record holds. -/
def State.keyAt (s : State) (loc : Nat) : List Byte := Mem.readN s.hbm (s.recAddr loc) 48
/-- Change the CACHED bit of a slot's tag. -/
def State.setCached (s : State) (loc : Nat) (v : Bool) : State := s.setTag loc (setBits (s.tag loc) 33 1 (b2n v))
/-- The valid slot of a bucket that holds a fingerprint. -/
def State.fpSlot (s : State) (bk fp : Nat) : Option Nat :=
  ((List.range 8).map (8 * bk + ·)).find? (fun l => tagValid (s.tag l) && tagFp (s.tag l) == fp)
/-- The lowest free slot of a bucket. -/
def State.freeSlot (s : State) (bk : Nat) : Option Nat := ((List.range 8).map (8 * bk + ·)).find? (fun l => !tagValid (s.tag l))
/-- Where the store holds a key, with whether a second record was read (R75). -/
def State.storeFind (s : State) (key : List Byte) : Option Nat × Bool :=
  let fp := fingerprint key
  let b1 := bucket1 key
  let b2 := bucket2 key
  let l1 := s.fpSlot b1 fp
  match l1 with
  | some l =>
    if s.keyAt l = key then (some l, false)
    else if b1 = b2 then (none, false)
    else
      match s.fpSlot b2 fp with
      | some l2 => (if s.keyAt l2 = key then some l2 else none, true)
      | none => (none, false)
  | none =>
    if b1 = b2 then (none, false)
    else
      match s.fpSlot b2 fp with
      | some l2 => (if s.keyAt l2 = key then some l2 else none, false)
      | none => (none, false)

/-! ### The flow cache (R77) -/

/-- The ways of a key's two buckets, hash-1 bucket first. -/
def cacheWays (key : List Byte) : List Nat :=
  let w (b : Nat) := (List.range 4).map (4 * b + ·)
  if cbucket1 key = cbucket2 key then w (cbucket1 key) else w (cbucket1 key) ++ w (cbucket2 key)
/-- The way that holds a key. -/
def State.cacheFind (s : State) (key : List Byte) : Option Nat :=
  (cacheWays key).find? (fun w => (s.flow.cache.get w).live && decide ((s.flow.cache.get w).key = key))
/-- The victim-buffer entry of a key. -/
def State.victimFind (s : State) (key : List Byte) : Option CacheEnt := s.flow.victims.find? (fun e => decide (e.key = key))
def State.setFlow (s : State) (f : FlowSt → FlowSt) : State := { s with flow := f s.flow }
def State.setWay (s : State) (w : Nat) (e : CacheEnt) : State := s.setFlow (fun f => { f with cache := f.cache.set w e })
/-- Change the cached copy of a key, in the cache or the victim buffer. -/
def State.modCached (s : State) (key : List Byte) (g : CacheEnt → CacheEnt) : State :=
  match s.cacheFind key with
  | some w => s.setWay w (g (s.flow.cache.get w))
  | none => s.setFlow (fun f => { f with victims := f.victims.map (fun e => if e.key = key then g e else e) })
/-- The cached copy of a key. -/
def State.cached (s : State) (key : List Byte) : Option CacheEnt :=
  match s.cacheFind key with
  | some w => some (s.flow.cache.get w)
  | none => s.victimFind key
/-- The cached copy whose store location is a slot moves with it, or loses its location (R76, R80). -/
def State.relocate (s : State) (old : Nat) (new : Option Nat) : State :=
  let g (e : CacheEnt) : CacheEnt := if e.live ∧ e.loc = some old then { e with loc := new } else e
  s.setFlow (fun f => { f with cache := f.cache.map (fun e => (e.1, g e.2)), victims := f.victims.map g })
/-- Some cached copy has this store location. -/
def State.cachedAt (s : State) (loc : Nat) : Bool :=
  s.flow.cache.any (fun e => e.2.live && decide (e.2.loc = some loc)) || s.flow.victims.any (fun e => decide (e.loc = some loc))

/-! ### History rings (R104) -/

/-- Free rings. -/
def State.histFree (s : State) : Nat := s.rd Reg.FLOW.HIST_RINGS - s.flow.ringNext + s.flow.ringRet.length
/-- Return a ring to the end of the free list. -/
def State.ringFree (s : State) (ring : Nat) : State := s.setFlow (fun f => { f with ringRet := f.ringRet ++ [ring] })
/-- Return the ring of a hot record that has one. -/
def State.freeRingOf (s : State) (h : HotRec) : State := if h.histValid then s.ringFree h.histRing else s
/-- Take the first ring of the free list. -/
def State.ringTake (s : State) : Option (Nat × State) :=
  if s.flow.ringNext < s.rd Reg.FLOW.HIST_RINGS then some (s.flow.ringNext, s.setFlow (fun f => { f with ringNext := f.ringNext + 1 }))
  else
    match s.flow.ringRet with
    | r :: rest => some (r, s.setFlow (fun f => { f with ringRet := rest }))
    | [] => none

/-! ### Clearing slots (R80, R311) -/

/-- Change RECORDS. -/
def State.records (s : State) (d : Int) : State := s.wr Reg.FLOW.RECORDS ((s.rd Reg.FLOW.RECORDS : Int) + d).toNat
/-- Clear a slot: its tag, its place in any cached copy, and its ring where the number is readable and no cached copy keeps it. -/
def State.clearSlot (s : State) (loc : Nat) (readable : Bool) : State :=
  let h := HotRec.ofBytes (s.record loc)
  let keep := s.cachedAt loc
  let s := ((s.setTag loc 0).records (-1)).relocate loc none
  if readable ∧ ¬ keep then s.freeRingOf h else s
/-- Count an uncorrectable line in its controller (R296, R401). -/
def State.countUe (s : State) (line : Nat) : State :=
  (s.bump Reg.HBMC.UNCORRECTED (stackOf (line * 64))).wr Reg.HBMC.LAST_UE_ADDR (line * 64) (stackOf (line * 64))
/-- An uncorrectable line is counted and recorded. -/
def State.ueRecord (s : State) (line action ctx : Nat) : State :=
  let n := stackOf (line * 64)
  let s := s.countUe line
  s.fault { cls := 2, action := action, block := Blk.HBMC, inst := n, unit := n, ctx := ctx, addr := line * 64, count := s.rd Reg.HBMC.UNCORRECTED n }
/-- The fault record of an uncorrectable line met by the flow tables (R80). -/
def State.flowUeFault (s : State) (line : Nat) : State :=
  s.fault { cls := 2, action := 2, block := Blk.FLOW, addr := line * 64, count := s.rd Reg.FLOW.ECC_LOST }
/-- An uncorrectable error in a record: the slot is cleared, and a ring whose number is lost stays out of use (R80). -/
def State.recordUe (s : State) (loc line : Nat) : State :=
  let s := s.countUe line
  if tagValid (s.tag loc) then ((s.clearSlot loc false).bump Reg.FLOW.ECC_LOST).flowUeFault line else s.flowUeFault line
/-- An uncorrectable error in a tag line: the line is rewritten as empty (R80). -/
def State.tagLineUe (s : State) (bk line : Nat) : State :=
  let locs := ((List.range 8).map (8 * bk + ·)).filter (fun l => tagValid (s.tag l))
  let s := s.countUe line
  let s := locs.foldl (fun t l => t.clearSlot l (t.hbmUe (t.recAddr l) 256).isNone) s
  let s := if locs.isEmpty then s else s.bump Reg.FLOW.ECC_LOST 0 0 0 locs.length
  (s.hbmWrite (s.regionBase 5 + 64 * bk) (zeros 64)).flowUeFault line

/-! ### Insertion (R76) -/

/-- The other bucket of a key. -/
def otherBucket (key : List Byte) (bk : Nat) : Nat := if bk = bucket1 key then bucket2 key else bucket1 key
/-- A bucket can take a key: a free slot, and no valid slot with its fingerprint. -/
def State.takesKey (s : State) (bk : Nat) (key : List Byte) : Bool := (s.freeSlot bk).isSome && (s.fpSlot bk (fingerprint key)).isNone
/-- A tag line is read: one with an uncorrectable error is rewritten as empty (R80). -/
def State.tagCheck (s : State) (bk : Nat) : State :=
  match s.hbmUe (s.regionBase 5 + 64 * bk) 64 with | some l => s.tagLineUe bk l | none => s
/-- The record of a valid slot is read: with an uncorrectable error the slot is cleared (R80). -/
def State.recCheck (s : State) (loc : Nat) : State :=
  if tagValid (s.tag loc) then (match s.hbmUe (s.recAddr loc) 256 with | some line => s.recordUe loc line | none => s) else s
/-- The path of relocations of an insertion, in the order found: slot and the bucket its key moves to; none when MAX_MOVES runs out. The tag lines and records
it reads are checked, and a slot cleared by an error is a free one. -/
def State.insertPath : Nat → State → Nat → Nat → Nat → List (Nat × Nat) → State × Option (List (Nat × Nat))
  | 0, s, _, _, _, _ => (s, none)
  | fuel + 1, s, h3, bk, step, path =>
    let l := 8 * bk + (h3 + step) % 8
    let s := s.recCheck l
    if ¬ tagValid (s.tag l) then State.insertPath fuel s h3 bk (step + 1) path
    else
      let v := s.keyAt l
      let alt := otherBucket v bk
      let s := s.tagCheck alt
      let path := path ++ [(l, alt)]
      if s.takesKey alt v then (s, some path) else State.insertPath fuel s h3 alt (step + 1) path
/-- A record is copied to the free slot of a bucket before its own slot is cleared; the tag and the cached copy's location follow. -/
def State.copySlot (s : State) (l alt : Nat) : State :=
  match s.freeSlot alt with
  | none => s
  | some t =>
    let s1 := (s.hbmWrite (s.recAddr t) (s.record l)).setTag t (s.tag l)
    (s1.relocate l (some t)).setTag l 0
/-- The journal's entry of a move (R76). -/
def State.journalMove (s : State) (m : Option (Nat × Nat)) : State := s.setFlow (fun f => { f with moveJ := m })
/-- One relocation of an insertion: journalled before it starts, and done when its source is clear (R76). -/
def State.moveSlot (s : State) (l alt : Nat) : State :=
  match s.freeSlot alt with
  | some t => if tagValid (s.tag l) then (((s.journalMove (some (l, t))).copySlot l alt).bump Reg.FLOW.MOVES).journalMove none else s
  | none => s
/-- A move that a warm reset left incomplete is completed (R76): the source is cleared where the destination holds the key, else the destination's tag is. -/
def State.completeMove (s : State) : State :=
  match s.flow.moveJ with
  | none => s
  | some (l, t) =>
    let s := s.journalMove none
    if tagValid (s.tag t) ∧ s.keyAt t = s.keyAt l then s.setTag l 0 else s.setTag t 0
/-- Relocations allowed (R86). -/
def State.maxMoves (s : State) : Nat := Nat.max 1 (Nat.min 32 (s.act Reg.FLOW.MAX_MOVES))
/-- Insert a key with its record; the slot it takes, or none when the insertion is refused and counted. -/
def State.storeInsert (s : State) (key rec_ : List Byte) (cached histr : Bool) : State × Option Nat :=
  let s := (s.tagCheck (bucket1 key)).tagCheck (bucket2 key)
  let put (s : State) (l : Nat) : State × Option Nat :=
    (((s.hbmWrite (s.recAddr l) rec_).setTag l (tagOf key cached histr)).records 1, some l)
  match [bucket1 key, bucket2 key].find? (fun bk => s.takesKey bk key) with
  | some bk =>
    match s.freeSlot bk with
    | some l => put s l
    | none => (s, none)
  | none =>
    match State.insertPath s.maxMoves s (fingerprint key) (bucket1 key) 0 [] with
    | (s, none) => (s.bump Reg.FLOW.INSERT_FAIL, none)
    | (s, some path) =>
      let s := path.reverse.foldl (fun t m => t.moveSlot m.1 m.2) s
      match path.head? with
      | some m => put s m.1
      | none => (s, none)

/-- The cold part of a record a packet creates (R102). -/
def newCold (origin : Nat) : List Byte := zeros 20 ++ leBytes 4 origin ++ zeros 104
/-- The 256 bytes of a record (R102). -/
def recordBytes (key : List Byte) (h : HotRec) (cold : List Byte) : List Byte := key ++ h.enc ++ (cold ++ zeros (128 - cold.length))
/-- Write a cached copy to the store: its location, or an insertion (R78, R79). `keep` leaves the CACHED bit set. -/
def State.writeBack (s : State) (e : CacheEnt) (keep : Bool) : State × Option Nat :=
  match e.loc with
  | some l =>
    let s := s.hbmWrite (s.recAddr l) (e.key ++ e.hot.enc)
    (s.setTag l (tagOf e.key keep e.hot.histValid), some l)
  | none => s.storeInsert e.key (recordBytes e.key e.hot e.cold) keep e.hot.histValid
/-- The store slot of a key's record: a cached copy's location, or where the store holds it. -/
def State.slotOf (s : State) (key : List Byte) : Option Nat :=
  match s.cached key with
  | some e => e.loc
  | none => (s.storeFind key).1
/-- Change the cold part of a key's record: in the store, with a cached copy that has no store record yet, or with the working copy of a record just created. -/
def State.modCold (s : State) (key : List Byte) (g : List Byte → List Byte) : State :=
  if s.flow.upd.any (fun u => decide (u.key = key) && u.fresh) then
    s.setFlow (fun f => { f with upd := f.upd.map (fun u => if u.key = key then { u with cold := g u.cold } else u) })
  else
  match s.slotOf key with
  | some l => s.hbmWrite (s.recAddr l + 128) (g (Mem.readN s.hbm (s.recAddr l + 128) 128))
  | none => s.modCached key (fun e => { e with cold := g (e.cold ++ zeros (128 - e.cold.length)) })
/-- Add to a 32-bit count of a cold part. -/
def coldAdd (off n : Nat) (c : List Byte) : List Byte := putBytes c off (leBytes 4 (leAt c off 4 + n))

end Sys2Proof.Machine
end

