-- ==== Sys2Proof/Machine/FlowTables.lean ====
section
/-! DEFINITION. The fragment table (R44 to R48, R297), flow lookups (R75, R77, R78, R80) and the ageing sweep (R81). -/

namespace Sys2Proof.Machine

open Sys2Proof

/-! ### Fragments (R44 to R47) -/

/-- A fragment whose rule gives the slow class (R45). -/
def Pkt.slow (x : Pkt) : Bool := decide (x.i.parse.frag ≠ 0) && x.lk.searched && !Rule.follow x.lk.act
/-- A fragment whose rule gives the follow class (R46). -/
def Pkt.follows (x : Pkt) : Bool := decide (x.i.parse.frag ≠ 0) && x.lk.searched && Rule.follow x.lk.act
/-- The fragment key, none where any of its bytes is absent (R46). -/
def fragKey (x : PktIn) : Option (List Byte) :=
  let w := x.window
  let p := x.parse
  let v6 := p.l3Type == 2
  let (a, c) := if v6 then winBytes w (p.l3Off + 8) 32 else winBytes w (p.l3Off + 12) 8
  match c, p.fragNh, p.fragId with
  | false, some nh, some id => some (leBytes 1 p.l3Type ++ a ++ leBytes 1 nh ++ beBytes 4 id)
  | _, _, _ => none
/-- The ways of a key's bucket. -/
def fragWays (key : List Byte) : List Nat := (List.range 4).map (4 * (Config.fragHash key).toNat + ·)
def State.setFrag (s : State) (w : Nat) (e : FragEnt) : State := { s with frag := s.frag.set w e }
/-- Free a live entry. -/
def State.fragFree (s : State) (w : Nat) : State :=
  if (s.frag.get w).live then (s.setFrag w {}).wr Reg.FRAG.IN_USE (s.rd Reg.FRAG.IN_USE - 1) else s
/-- An access to a bucket reads all four ways; `bad` lists the ways of it whose parity fails, and a failing entry is freed (R297). -/
def State.fragAccess (s : State) (key : List Byte) (bad : List Nat) : State :=
  bad.foldl (fun t i =>
    match (fragWays key)[i]? with
    | some w =>
      if (t.frag.get w).live then (t.fragFree w).fault { cls := 1, action := 2, block := Blk.FRAG, unit := w } else t
    | none => t) s
/-- The live entry of a key for a later fragment of boundary b: 0 ≤ b − its boundary ≤ 63 (R47). -/
def State.fragFind (s : State) (key : List Byte) (b : Nat) : Option FragEnt :=
  ((fragWays key).map s.frag.get).find? (fun e => e.live && decide (e.key = key) && decide (e.b ≤ b) && decide (b - e.b ≤ 63))
/-- A follow-class first fragment creates its entry; a key with an absent byte is counted, of a first or a later fragment (R46). -/
def State.fragCreate (s : State) (x : Pkt) (bad : List Nat) : State :=
  if ¬ x.follows then s
  else
    match fragKey x.i with
    | none => s.bump Reg.FRAG.KEY_ABSENT
    | some key =>
      if x.i.parse.frag ≠ 1 then s else
      let s := s.fragAccess key bad
      let e : FragEnt := { live := true, key := key, b := x.i.b, flowKey := x.lk.key, flowId := x.lk.flowId }
      match (fragWays key).find? (fun w => (s.frag.get w).live && decide ((s.frag.get w).key = key)) with
      | some w => (s.setFrag w e).bump Reg.FRAG.REPLACED
      | none =>
        match (fragWays key).find? (fun w => !(s.frag.get w).live) with
        | some w => (s.setFrag w e).wr Reg.FRAG.IN_USE (s.rd Reg.FRAG.IN_USE + 1)
        | none => s.bump Reg.FRAG.INSERT_FAIL

/-- FRAG_ENTRY_FREE (R46): an entry is freed at boundary b + 69. -/
def execFragEntryFree (bucket : Fin 16384) (way : Fin 4) (s : State) : Host.Outcome State Fault Refusal :=
  let w := 4 * bucket.val + way.val
  if (s.frag.get w).b + 69 ≤ s.time.beat ∧ ¬ s.herd.cut then .next (s.fragFree w) else .next s
/-- FRAG_FLUSH (R48): every entry is freed at the next beat boundary. -/
def execFragFlush (src : Source) (s : State) : Host.Outcome State Fault Refusal :=
  s.expertCmd src Reg.FRAG.FLUSH 0 1 (fun s => s.later .fragFlush)
/-- What FRAG_FLUSH does at the boundary. -/
def State.fragFlushNow (s : State) : State := { s with frag := [] }.wr Reg.FRAG.IN_USE 0

/-- FCS_RESULT (R32, R41, R43): a failed check voids the packet with reason BAD_FCS. A first fragment makes its entry no sooner than a
good result, and a void packet none. -/
def execFcsResult (pk : PktId) (ok : Bool) (s : State) : Host.Outcome State Fault Refusal :=
  match s.pkt? pk with
  | none => .next s
  | some x =>
    if x.vd.fcs.isSome then .next s
    else if ok then
      let s := s.modPkt pk (fun x => { x with vd := { x.vd with fcs := some true } })
      .next (if x.lk.looked ∧ ¬ x.vd.voidPkt then s.fragCreate x [] else s)
    else .next (s.modPkt pk (fun x => { x with vd := { x.vd with fcs := some false, voidPkt := true, mal := 15 } }))

/-! ### Flow lookups (R72, R75, R77, R78, R105) -/

/-- The packet makes a flow lookup of its own (R105). -/
def Pkt.keyed (x : Pkt) : Bool :=
  x.lk.searched && !x.vd.voidPkt && (x.i.parse.l3Type == 1 || x.i.parse.l3Type == 2) && decide (Rule.fkey x.lk.act ≠ 0)
    && !x.slow && decide (x.i.parse.frag ≠ 2)

/-- Entries of a key's buckets whose parity fails are dropped without write-back, with the updates they have not had written back (R80): `bad` counts ways, 0 to 3 of the hash-1 bucket and
4 to 7 of the hash-2 bucket. -/
def State.cacheDrop (s : State) (key : List Byte) (bad : List Nat) : State :=
  bad.foldl (fun t i =>
    let w := if i < 4 then 4 * cbucket1 key + i else 4 * cbucket2 key + (i - 4)
    let e := t.flow.cache.get w
    if i < 8 ∧ e.live then
      let t := t.setWay w {}
      let t := t.setFlow (fun f => { f with upd := f.upd.filter (fun u => decide (u.key ≠ e.key)) })
      let t := match e.loc with | some l => t.setCached l false | none => t
      let t := t.bump Reg.FLOW.CACHE_PARITY
      t.fault { cls := 1, action := 2, block := Blk.FLOW, unit := w, count := t.rd Reg.FLOW.CACHE_PARITY }
    else t) s

/-- A store lookup that meets uncorrectable lines: a tag line reads as empty, and a record is a store miss (R75, R80). -/
def State.storeLookup (s : State) (key : List Byte) : State × Option Nat :=
  let bks := if bucket1 key = bucket2 key then [bucket1 key] else [bucket1 key, bucket2 key]
  let s := bks.foldl State.tagCheck s
  let fp := fingerprint key
  let ue (bk : Nat) : Option (Nat × Nat) := (s.fpSlot bk fp).bind (fun l => (s.hbmUe (s.recAddr l) 256).map (fun line => (l, line)))
  let hit1 := match s.fpSlot (bucket1 key) fp with | some l => decide (s.keyAt l = key) | none => false
  match ue (bucket1 key), (if hit1 then none else ue (bucket2 key)) with
  | some (l, line), _ => (s.recordUe l line, none)
  | none, some (l, line) => ((if (s.fpSlot (bucket1 key) fp).isSome ∧ bucket1 key ≠ bucket2 key then s.bump Reg.FLOW.FP_EXTRA else s).recordUe l line, none)
  | none, none =>
    let (r, second) := s.storeFind key
    (if second then s.bump Reg.FLOW.FP_EXTRA else s, r)

/-- Install a copy in a way of its key's buckets (R78); none where the packet is uncached. -/
def State.install (s : State) (e : CacheEnt) : Option State :=
  let ways := cacheWays e.key
  match ways.find? (fun w => !(s.flow.cache.get w).live) with
  | some w => some (s.setWay w e)
  | none =>
    let free := ways.filter (fun w => (s.flow.cache.get w).pins == 0)
    match free with
    | [] => none
    | w0 :: rest =>
      let w := rest.foldl (fun a w => if (s.flow.cache.get w).touch < (s.flow.cache.get a).touch then w else a) w0
      if 8192 ≤ s.flow.victims.length then none
      else
        let old := s.flow.cache.get w
        some ((s.setFlow (fun f => { f with victims := f.victims ++ [old] })).setWay w e)

/-- The lookup of a key (R77): the state after it, and how it ended. -/
def State.flowSearch (s : State) (key : List Byte) : State × FlowHow :=
  let n := s.time.beat
  match s.cacheFind key with
  | some w =>
    let e := s.flow.cache.get w
    ((s.setWay w { e with touch := n, pins := n + 1 }).bump Reg.FLOW.CACHE_HIT, .hit)
  | none =>
    match s.victimFind key with
    | some e =>
      let s := s.bump Reg.FLOW.CACHE_HIT
      let s1 := s.setFlow (fun f => { f with victims := f.victims.filter (fun e => decide (e.key ≠ key)) })
      match s1.install { e with touch := n, pins := n + 1 } with
      | some s2 => (s2, .hit)
      | none => (s.bump Reg.FLOW.UNCACHED, .uncachedHit)
    | none =>
      match s.storeLookup key with
      | (s, some l) =>
        let s := s.bump Reg.FLOW.STORE_HIT
        match s.install { live := true, key := key, hot := HotRec.ofBytes (s.record l), loc := some l, touch := n, pins := n + 1 } with
        | some s1 => (s1.setCached l true, .storeHit)
        | none => (s.bump Reg.FLOW.UNCACHED, .uncachedHit)
      | (s, none) =>
        let s := s.bump Reg.FLOW.NEW_FLOWS
        match s.install { live := true, key := key, fresh := true, touch := n, pins := n + 1 } with
        | some s1 => (s1, .newFlow)
        | none => (s.bump Reg.FLOW.UNCACHED, .uncachedNew)

/-- ORIGIN of a record a packet creates (R102). -/
def Pkt.origin (x : Pkt) : Nat := x.i.port + x.i.lane * 2 ^ 5 + Rule.ruleTag x.lk.act * 2 ^ 16

/-- FLOW_LOOKUP (R46, R77): the flow lookup of a packet in beat b, and the entry of a first fragment. `badCache` and `badFrag` list the ways
of its buckets whose parity fails. -/
def execFlowLookup (pk : PktId) (badCache badFrag : List Nat) (s : State) : Host.Outcome State Fault Refusal :=
  match s.pkt? pk with
  | none => .next s
  | some x =>
    if x.lk.looked ∨ ¬ x.lk.searched then .next s
    else
      let s := s.modPkt pk (fun x => { x with lk := { x.lk with looked := true } })
      let s :=
        if x.keyed then
          let key := flowKey x.i (Rule.fkey x.lk.act) (Rule.tenant x.lk.act)
          let (s, how) := (s.cacheDrop key badCache).flowSearch key
          s.modPkt pk (fun x => { x with lk := { x.lk with key := key, flowId := fingerprint key, how := how } })
        else s
      match s.pkt? pk with
      | some x => .next (if x.vd.fcs = some true ∧ ¬ x.vd.voidPkt then s.fragCreate x badFrag else s)
      | none => .next s

/-- VICTIM_WRITEBACK (R78): the n-th entry of the victim buffer is written back or inserted, and leaves. A NEW entry whose insertion is
refused is lost, and its ring returns. -/
def execVictimWriteback (n : Nat) (s : State) : Host.Outcome State Fault Refusal :=
  match if s.herd.cut then none else s.flow.victims[n]? with
  | none => .next s
  | some e =>
    let s := s.setFlow (fun f => { f with victims := f.victims.eraseIdx n })
    match s.writeBack e false with
    | (s, some _) => .next s
    | (s, none) => .next (s.freeRingOf e.hot)

/-- FLOW_AGE_SWEEP (R81): one bucket of the sweep. It passes over the buckets of a rehash step in progress (R314). -/
def execFlowAgeSweep (bucket : Fin 134217728) (s : State) : Host.Outcome State Fault Refusal :=
  let bk := bucket.val
  let idle := s.act Reg.FLOW.IDLE_EPOCHS
  if idle = 0 ∨ s.herd.cut ∨ s.act Reg.FLOW.NO_AGE_SWEEP = 1 ∨ s.flow.journal = some (bk / 256) then .next s
  else
    let s := s.tagCheck bk
    .next (((List.range 8).map (8 * bk + ·)).foldl (fun t l =>
      let g := t.tag l
      if tagValid g ∧ bits g 33 1 = 0 then
        match t.hbmUe (t.recAddr l) 256 with
        | some line => t.recordUe l line
        | none =>
          let h := HotRec.ofBytes (t.record l)
          if idle * 65536 + h.lastSeen / 512 < t.time.beat then ((t.setTag l 0).records (-1)).freeRingOf h else t
      else t) s)

end Sys2Proof.Machine
end

