-- ==== Sys2Proof/Machine/Endpoint.lean ====
section
/-! DEFINITION. The endpoint table (R82 to R85, R87). -/

namespace Sys2Proof.Machine

open Sys2Proof

/-- The 8-byte key of a MAC address and a VLAN ID (R82). That the VLAN ID stands with its high byte first, as on the wire, is the model's choice. -/
def epKey (mac vlan : Nat) : List Byte := beBytes 6 mac ++ beBytes 2 (vlan % 4096)
/-- The ways of a key's two buckets. -/
def epWays (mac vlan : Nat) : List Nat :=
  let b1 := hashH 4 (epKey mac vlan) % 65536
  let b2 := hashH 5 (epKey mac vlan) % 65536
  let w (b : Nat) := (List.range 4).map (4 * b + ·)
  if b1 = b2 then w b1 else w b1 ++ w b2
def State.epFind (s : State) (mac vlan : Nat) : Option Nat :=
  (epWays mac vlan).find? (fun w => let e := s.ep.get w; e.live && decide (e.mac = mac) && decide (e.vlan = vlan))
def State.setEp (s : State) (w : Nat) (e : EpEnt) : State := { s with ep := s.ep.set w e }
def State.epCount (s : State) (d : Int) : State := s.wr Reg.LEARN.IN_USE ((s.rd Reg.LEARN.IN_USE : Int) + d).toNat
/-- The epoch in progress, low 16 bits. -/
def State.epoch16 (s : State) : Nat := s.time.beat / 65536 % 65536

/-- A learn event (R85), on host-bound queue 2. -/
structure LearnEv where
  type : Nat
  lane : Nat := 0
  vlan : Nat := 0
  mac : Nat := 0
  old : Nat := 0
  new : Nat := 0
  moves : Nat := 0
  deriving DecidableEq, Repr, Inhabited
def LearnEv.bytes (e : LearnEv) (beat : Nat) : List Byte :=
  leBytes 1 (e.type % 16) ++ leBytes 1 (e.lane % 16) ++ leBytes 2 (e.vlan % 4096) ++ beBytes 6 e.mac ++ leBytes 2 (e.old % 2048) ++ leBytes 2 (e.new % 2048)
    ++ leBytes 2 e.moves ++ leBytes 8 beat ++ zeros 8
def State.learnEvent (s : State) (e : LearnEv) : State := s.hqProduce 2 (e.bytes s.time.beat)

/-- An entry whose parity fails is cleared (R84). The failing word goes to no consumer (R296): what the event says of its content is open. -/
def State.epLost (s : State) (w : Nat) : State :=
  if (s.ep.get w).live then
    let s := ((s.setEp w {}).epCount (-1)).bump Reg.LEARN.PARITY
    let (x, s) := s.fresh
    let (y, s) := s.fresh
    let s := s.learnEvent { type := 6, mac := x.toNat % 2 ^ 48, vlan := x.toNat / 2 ^ 48, old := y.toNat % 2048, new := y.toNat / 2048 % 2048, moves := y.toNat / 2 ^ 32 % 65536 }
    s.fault { cls := 1, action := 2, block := Blk.LEARN, unit := w, count := s.rd Reg.LEARN.PARITY }
  else s

/-- The outer VLAN ID of a packet. -/
def Pkt.vlanId (x : Pkt) : Nat := if x.i.parse.vlanN = 0 then 0 else beAt x.i.window 14 2 % 4096
/-- The location a packet came from (R82). -/
def Pkt.loc (x : Pkt) : Nat := if x.i.tapPort then 1024 + x.i.swPort else x.i.port

/-- The source search and what it learns (R83): move count after it and the source-new flag, with the state. Two points are the model's choice: a new entry takes the
first free way of the H(4) bucket, else of the H(5) bucket; a MOVE sets the last-seen epoch as a sighting at the same location does. -/
def State.learn (s : State) (mac vlan loc lane : Nat) : State × Nat × Bool :=
  let off := s.act Reg.LEARN.LEARN_OFF = 1
  match s.epFind mac vlan with
  | none =>
    if off then (s, 0, true)
    else
      match (epWays mac vlan).find? (fun w => !(s.ep.get w).live) with
      | some w =>
        let s := (s.setEp w { live := true, mac := mac, vlan := vlan, loc := loc, epoch := s.epoch16 }).epCount 1
        (s.learnEvent { type := 1, lane := lane, vlan := vlan, mac := mac, new := loc }, 0, true)
      | none => ((s.bump Reg.LEARN.INSERT_FAIL).learnEvent { type := 5, lane := lane, vlan := vlan, mac := mac, new := loc }, 0, true)
  | some w =>
    let e := s.ep.get w
    let ev (t m : Nat) : LearnEv := { type := t, lane := lane, vlan := vlan, mac := mac, old := e.loc, new := loc, moves := m }
    if e.loc = loc then (s.setEp w { e with epoch := s.epoch16 }, e.moves, false)
    else if e.static then (s.learnEvent (ev 4 e.moves), e.moves, false)
    else if off then (s, e.moves, false)
    else
      let m := Nat.min 65535 (e.moves + 1)
      let s := (s.setEp w { e with loc := loc, moves := m, epoch := s.epoch16 }).bump Reg.LEARN.MOVES
      (s.learnEvent (ev 2 m), m, false)

/-- ENDPOINT_SEARCH (R83). `bad` lists the entries, bucket × 4 + way, whose parity fails when the packet's searches read them. -/
def execEndpointSearch (pk : PktId) (bad : List Nat) (s : State) : Host.Outcome State Fault Refusal :=
  match s.pkt? pk with
  | none => .next s
  | some x =>
    if x.lk.epDone ∨ ¬ s.looksUp x ∨ x.vd.voidPkt ∨ s.time.beat < x.i.b then .next s
    else
      let dst := beNat (winBytes x.i.window 0 6).1
      let srcM := beNat (winBytes x.i.window 6 6).1
      let vlan := x.vlanId
      let read := epWays dst vlan ++ epWays srcM vlan
      let s := (bad.filter read.contains).foldl State.epLost s
      let hit := (s.epFind dst vlan).map (fun w => (s.ep.get w).loc)
      let uni := bits srcM 40 1 == 0
      let (s, m, isNew) := if uni then s.learn srcM vlan x.loc x.i.lane else (s, 0, false)
      .next (s.modPkt pk (fun x => { x with
        lk := { x.lk with epDone := true, epMoves := m, epNew := isNew, epUnicast := uni, epDstLoc := hit.getD 0, epDstKnown := hit.isSome } }))

/-- ENDPOINT_AGEING (R84): the pass at the start of an epoch, once in it. -/
def execEndpointAgeing (bad : List Nat) (s : State) : Host.Outcome State Fault Refusal :=
  if s.time.beat % 65536 ≠ 0 ∨ s.time.aged = s.time.beat / 65536 + 1 then .next s
  else
  let s := bad.foldl State.epLost { s with time := { s.time with aged := s.time.beat / 65536 + 1 } }
  let age := s.act Reg.LEARN.AGE_EPOCHS
  if age = 0 ∨ s.herd.cut then .next s
  else
    .next (s.ep.keys.foldl (fun t w =>
      let e := t.ep.get w
      if e.live ∧ ¬ e.static ∧ age ≤ (t.epoch16 + 65536 - e.epoch) % 65536 then
        ((t.setEp w {}).epCount (-1)).learnEvent { type := 3, vlan := e.vlan, mac := e.mac, old := e.loc, moves := e.moves }
      else t) s)

/-- A write of LEARN.CMD: the command takes effect at the next beat boundary, before that beat's learning (R84). -/
def State.learnStart (s : State) (src : Source) (op : Nat) : State :=
  ((s.later (.learnCmd op (s.rd Reg.LEARN.CMD_MAC) (s.rd Reg.LEARN.CMD_VLAN) (s.rd Reg.LEARN.CMD_LOC))).wr Reg.LEARN.CMD_BUSY 1).auditCmd src Reg.LEARN.CMD 0 op 0
/-- LEARN_ADD_STATIC (R87). -/
def execLearnAddStatic (src : Source) (s : State) : Host.Outcome State Fault Refusal := s.basicCmd src (fun s => s.learnStart src 1)
/-- LEARN_DELETE (R87). -/
def execLearnDelete (src : Source) (s : State) : Host.Outcome State Fault Refusal := s.basicCmd src (fun s => s.learnStart src 2)
/-- LEARN_READ (R87). -/
def execLearnRead (src : Source) (s : State) : Host.Outcome State Fault Refusal := s.basicCmd src (fun s => s.learnStart src 3)

/-- The command at the boundary (R87): its result. -/
def State.learnNow (s : State) (op mac vlan loc : Nat) : State :=
  let done (s : State) (r : Nat) : State := ((s.wr Reg.LEARN.CMD_RESULT r).wr Reg.LEARN.CMD_BUSY 0).event Blk.LEARN 0 0
  match s.epFind mac vlan with
  | some w =>
    let e := s.ep.get w
    if op = 1 then done (s.setEp w { e with static := true, loc := loc }) 0
    else if op = 2 then done ((s.setEp w {}).epCount (-1)) 0
    else done (s.wr Reg.LEARN.CMD_ENTRY (e.loc + b2n e.static * 2 ^ 11 + e.moves * 2 ^ 16)) 0
  | none =>
    if op = 1 then
      match (epWays mac vlan).find? (fun w => !(s.ep.get w).live) with
      | some w => done ((s.setEp w { live := true, mac := mac, vlan := vlan, loc := loc, static := true, epoch := s.epoch16 }).epCount 1) 0
      | none => done s 2
    else done s 1

end Sys2Proof.Machine
end

