-- ==== Sys2Proof/Machine/Home.lean ====
section
/-! DEFINITION. The herd's geometry: members, routes, aperture reach and flow homes (R230, R233, R234, R242, R244). -/

namespace Sys2Proof.Machine

open Sys2Proof

/-- Coordinate d (0 X, 1 Y, 2 Z) of a member ID (R233). -/
def coordOf (id d : Nat) : Nat := if d = 0 then id % 32 else if d = 1 then id / 32 % 32 else id / 1024
/-- The member ID of coordinates. -/
def idOf (x y z : Nat) : Nat := x + 32 * y + 1024 * z
/-- A member ID with one coordinate replaced. -/
def withCoord (id d v : Nat) : Nat :=
  idOf (if d = 0 then v else coordOf id 0) (if d = 1 then v else coordOf id 1) (if d = 2 then v else coordOf id 2)
/-- This device's member ID. -/
def State.ownId (s : State) : Nat := idOf (s.rd Reg.HERD.COORD_X) (s.rd Reg.HERD.COORD_Y) (s.rd Reg.HERD.COORD_Z)
/-- Size of dimension d. -/
def State.dimSize (s : State) (d : Nat) : Nat := if d = 0 then s.rd Reg.HERD.NX else if d = 1 then s.rd Reg.HERD.NY else s.rd Reg.HERD.NZ
/-- The herd state (R236): 0 ALONE, 1 FOLD, 2 MEMBER, 3 LEAVING. -/
def State.herdState (s : State) : Nat := s.rd Reg.HERD.STATE
/-- This device is in the epoch's member list. -/
def State.isMember (s : State) : Bool := decide (2 ≤ s.herdState)
/-- The member list of the epoch; a device outside a herd is a herd of one (R236). -/
def State.memberList (s : State) : List Nat := if s.isMember then s.herd.members else [s.ownId]

/-- The coordinates entered from one to another along a dimension, the shorter way round, the positive way on a tie (R234). -/
def dimPath (size a b : Nat) : List Nat :=
  let up := (b + size - a) % size
  let down := (a + size - b) % size
  if up ≤ down then (List.range up).map (fun i => (a + i + 1) % size) else (List.range down).map (fun i => (a + size - i - 1) % size)
/-- The members a route enters, taking the dimensions in an order. -/
def State.routeBy (s : State) (dims : List Nat) (src dst : Nat) : List Nat :=
  (dims.foldl (fun (acc : Nat × List Nat) d =>
    let steps := (dimPath (s.dimSize d) (coordOf acc.1 d) (coordOf dst d)).map (withCoord acc.1 d)
    (withCoord acc.1 d (coordOf dst d), acc.2 ++ steps)) (src, [])).2
/-- The three routes of R234, the one preferred first. -/
def State.routesOf (s : State) (src dst : Nat) : List (List Nat) := [[0, 1, 2], [1, 2, 0], [2, 0, 1]].map (fun o => s.routeBy o src dst)
/-- The route from one member to another (R234): none when the destination is unreachable. -/
def State.route (s : State) (src dst : Nat) : Option (List Nat) :=
  (s.routesOf src dst).find? (fun r => r.all s.memberList.contains && s.memberList.contains dst)
/-- The port of a first hop to a neighbour: dimension, sign and pair index (R230, R234). -/
def State.portFor (s : State) (src next pair : Nat) : Nat :=
  let d := ([0, 1, 2].find? (fun d => decide (coordOf src d ≠ coordOf next d))).getD 0
  let up := (coordOf src d + 1) % s.dimSize d == coordOf next d
  d * 4 + (if up then 0 else 2) + pair % 2
/-- A herd port carries messages: LINK_STATE 4, accepted (R254). -/
def State.hlUp (s : State) (p : Nat) : Bool := decide (s.rd Reg.HLINK.LINK_STATE p = 4)
/-- The other port of a pair. -/
def pairPort (p : Nat) : Nat := p - p % 2 + (1 - p % 2)
/-- A port, or the other of its pair while it is down (R234). -/
def State.upPort (s : State) (p : Nat) : Option Nat := if s.hlUp p then some p else if s.hlUp (pairPort p) then some (pairPort p) else none
/-- The port a message leaves by, of the pair index of R234. -/
def State.outPort (s : State) (dst : Nat) : Option Nat :=
  match s.route s.ownId dst with
  | some (n :: _) => s.upPort (s.portFor s.ownId n (s.ownId + dst))
  | _ => none
/-- The member that a message in transit goes to next: the one after this on the source's route, by the epoch's list. A message that the route does not
bring here, such as one that floods toward a device still joining, goes on by X, Y, Z. -/
def State.transitNext (s : State) (src dst : Nat) : Option Nat :=
  let lst := if s.isMember then s.herd.members else s.herd.routes
  match (s.routesOf src dst).find? (fun r => r.contains s.ownId && r.all lst.contains) with
  | some r => ((r.dropWhile (· != s.ownId)).drop 1).head?
  | none => (s.routeBy [0, 1, 2] s.ownId dst).head?

/-- A message leaves by a port (R232). -/
def State.sendAs (s : State) (port : Option Nat) (kind src dest : Nat) (args : List Int) : State :=
  { s with herd := { s.herd with out := s.herd.out ++ [{ port := port, kind := kind, src := src, dest := dest, args := args }] } }
/-- Originate a message: from boundary S of a global stop nothing on VC 1 to VC 3 (R250). -/
def State.send (s : State) (port : Option Nat) (kind dest : Nat) (args : List Int) : State :=
  if 16 ≤ kind ∧ s.herd.stopped then s else s.sendAs port kind s.ownId dest args
/-- Send a message to a member by its route, on both ports of the pair where it is a control message (R231); false when the member is
unreachable or no port of the pair is up. -/
def State.sendTo (s : State) (kind dst : Nat) (args : List Int) : State × Bool :=
  match s.outPort dst with
  | some p =>
    let t := s.send (some p) kind dst args
    (if kind < 16 ∧ s.hlUp (pairPort p) then t.send (some (pairPort p)) kind dst args else t, true)
  | none => (s, false)
/-- Send a message on every accepted port but one. -/
def State.flood (s : State) (kind dest but : Nat) (args : List Int) : State :=
  ((List.range 12).filter (fun p => s.hlUp p && p != but)).foldl (fun t p => t.send (some p) kind dest args) s

/-- The route to aperture a's member is there and no longer than HMAX: what each epoch boundary checks (R242). -/
def State.aptReach (s : State) (a : Nat) : Bool :=
  match s.route s.ownId (s.act Reg.HERD.APT_MEMBER 0 a) with
  | some r => decide (r.length ≤ s.act Reg.HERD.APT_HMAX 0 a)
  | none => false
/-- Aperture a can be used: bound, not found out of reach at the epoch's boundary, and with a port to its member (R242). -/
def State.aptOk (s : State) (a : Nat) : Bool :=
  decide (0 < s.act Reg.HERD.APT_HMAX 0 a) && s.rd Reg.HERD.APT_OOR 0 a == 0 && (s.outPort (s.act Reg.HERD.APT_MEMBER 0 a)).isSome
/-- The aperture a device address lies in (R242). -/
def apertureOf (a : Nat) : Option Nat := if 0xC000000000 ≤ a ∧ a < 0x10000000000 then some ((a - 0xC000000000) / 2 ^ 34) else none

/-! ### Flow homes (R244) -/

/-- HOME_SIDE is legal for the shape: 1, 2, 4 or 8, dividing each dimension. -/
def State.homeCfgOk (s : State) : Bool :=
  let d := s.act Reg.HERD.HOME_SIDE
  (d == 1 || d == 2 || d == 4 || d == 8) && [0, 1, 2].all (fun i => s.dimSize i % d == 0)
/-- The home member of a key, none while homes are off. -/
def State.homeOf (s : State) (key : List Byte) : Option Nat :=
  if ¬ s.homeCfgOk then none
  else
    let d := s.act Reg.HERD.HOME_SIDE
    let blk := s.memberList.filter (fun m => [0, 1, 2].all (fun i => coordOf m i / d == coordOf s.ownId i / d))
    blk[hashH 6 key % blk.length]?
/-- The home-table index of a key, and the tag. -/
def State.homeIdx (s : State) (key : List Byte) : Nat := hashH 7 key % 2 ^ s.act Reg.HERD.HOME_LOG2
def homeTag (key : List Byte) : Nat := fingerprint key + hashH 6 key * 2 ^ 32
/-- Device address of a home entry. -/
def State.homeAddr (s : State) (idx : Nat) : Nat := s.regionBase 3 + s.act Reg.HERD.HOME_BASE + 64 * idx
/-- HADD at the home (R244): the sums wrap where the tag matches, else the entry is replaced. -/
def State.homeAdd (s : State) (idx tag : Nat) (vals : List Word) : State :=
  let a := s.homeAddr idx
  let e := Mem.readN s.hbm a 64
  let old (i : Nat) : Nat := if leAt e 0 8 = tag then leAt e (16 + 4 * i) 4 else 0
  let sums := (List.range 8).flatMap (fun i => leBytes 4 (old i + (vals.getD i 0).toNat))
  s.hbmWrite a (leBytes 8 tag ++ leBytes 8 s.time.beat ++ sums ++ zeros 16)
/-- HGET at the home (R244): the eight sums and HOME_NEW. -/
def State.homeRead (s : State) (idx tag : Nat) : List Word × Bool :=
  let e := Mem.readN s.hbm (s.homeAddr idx) 64
  if leAt e 0 8 = tag then ((List.range 8).map (fun i => BitVec.ofNat 32 (leAt e (16 + 4 * i) 4)), false) else (List.replicate 8 0, true)
/-- A flow result's add (R244): applied here when this member is the home, sent as HADD otherwise, counted when lost. -/
def State.homeAddSend (s : State) (key : List Byte) (vals : List Word) : State :=
  match s.homeOf key with
  | none => s.bump Reg.HERD.HOME_LOST
  | some m =>
    if m = s.ownId then s.homeAdd (s.homeIdx key) (homeTag key) vals
    else
      match s.sendTo 20 m ((s.homeIdx key : Int) :: (homeTag key : Int) :: vals.map (fun w => (w.toNat : Int))) with
      | (s, true) => s
      | (s, false) => s.bump Reg.HERD.HOME_LOST
/-- The flow home's part of an invocation's input. Its place in the input is set by the INVOKE section, whose layout the manual does not give. -/
def State.homeInput (s : State) (inv : Nat) (vals : List Word) (isNew lost : Bool) : State :=
  let v : List Word := if isNew ∨ lost then List.replicate 8 0 else (vals ++ List.replicate 8 0).take 8
  { s with flow := { s.flow with invs := s.flow.invs.map (fun i => if i.id = inv then { i with homeVals := v, homeNew := isNew, homeLost := lost } else i) } }
/-- A fetch that is lost: HOME_LOST, and sums of zero. -/
def State.homeGone (s : State) (inv : Nat) : State := (s.bump Reg.HERD.HOME_LOST).homeInput inv [] false true
/-- An invocation's fetch at its start (R244): read here when this member is the home, else sent as HGET. Until an answer comes it stands as lost. -/
def State.homeFetch (s : State) (inv : Nat) (key : List Byte) : State :=
  match s.homeOf key with
  | none => s.homeGone inv
  | some m =>
    if m = s.ownId then
      let (v, isNew) := s.homeRead (s.homeIdx key) (homeTag key)
      s.homeInput inv v isNew false
    else
      let tok := s.herd.nextTok
      match s.sendTo 19 m [(s.homeIdx key : Int), (homeTag key : Int), (tok : Int)] with
      | (s, true) => ({ s with herd := { s.herd with nextTok := tok + 1, homePend := s.herd.homePend ++ [(tok, inv)] } }).homeInput inv [] false true
      | (s, false) => s.homeGone inv
/-- An invocation ends: an answer that never came was lost. -/
def State.homeEnd (s : State) (inv : Nat) : State :=
  if s.herd.homePend.any (fun e => e.2 == inv) then
    { s with herd := { s.herd with homePend := s.herd.homePend.filter (fun e => e.2 != inv) } }.bump Reg.HERD.HOME_LOST
  else s

end Sys2Proof.Machine
end

