-- ==== Sys2Proof/Machine/FlowUpdate.lean ====
section
/-! DEFINITION. The flow update engine and flow results (R92 to R95, R99, R102 to R105, R108), and the FLOW commands (R79, R86). -/

namespace Sys2Proof.Machine

open Sys2Proof

/-! ### Feature sets of a packet (R99, R107) -/

/-- A held version of a context, version 0 apart (R203). -/
def State.version? (s : State) (c mv : Nat) : Option Version :=
  if mv = 0 then none else [(s.ctxs.get c).v0, (s.ctxs.get c).v1].reduceOption.find? (fun v => decide (v.ver = mv))
/-- The stamped versions of the packet's contexts. -/
def State.verA (s : State) (x : Pkt) : Option Version := if Rule.enA x.lk.act then s.version? (Rule.ctxA x.lk.act) x.ft.mvA else none
def State.verB (s : State) (x : Pkt) : Option Version := if Rule.enB x.lk.act then s.version? (Rule.ctxB x.lk.act) x.ft.mvB else none
def State.verF (s : State) (x : Pkt) : Option Version := if Rule.enF x.lk.act then s.version? (Rule.ctxF x.lk.act) x.ft.mvF else none
/-- The version that chooses the packet's set: that of its first enabled context. -/
def State.chooser (s : State) (x : Pkt) : Option Version :=
  if Rule.enA x.lk.act then s.verA x else if Rule.enB x.lk.act then s.verB x else s.verF x
/-- A packet or an invocation stamped with version mv of context c is skipped by each shadow of c that runs beside another version (R216). -/
def State.countSkips (s : State) (c mv : Nat) : State :=
  let n := (s.ctxs.filter (fun e => e.2.kind == 4 && (e.2.active.map (fun v => decide (v.ver ≠ 0) && v.shadowCtx == c && v.shadowMv != mv)).getD false)).length
  if n = 0 then s else s.bump Reg.CTX.SHADOW_SKIP 0 0 0 n
/-- FORCE_SET is in use on the packet's lane (R107). -/
def State.forced (s : State) (x : Pkt) : Bool := decide (s.act Reg.LANE.FORCE_EN x.i.lane = 1)
/-- The set and the half the packet uses. -/
def State.fsetOf (s : State) (x : Pkt) : Option (Nat × Bool) :=
  if s.forced x then some (s.act Reg.LANE.FORCE_SET x.i.lane, ((s.chooser x).map (·.half)).getD s.fhalf)
  else (s.chooser x).map (fun v => (v.fset, v.half))
/-- CTX_B names another set than CTX_A and is not run. -/
def State.misB (s : State) (x : Pkt) : Bool :=
  match s.verA x, s.verB x with
  | some a, some b => !s.forced x && decide (a.fset ≠ b.fset)
  | _, _ => false
/-- CTX_F names another set than the packet uses. -/
def State.misF (s : State) (x : Pkt) : Bool :=
  match s.fsetOf x, s.verF x with
  | some (u, _), some f => decide (u ≠ f.fset)
  | _, _ => false
/-- The packet runs a feature program (R105): it makes lookups, is no slow-class or later fragment, is not void, and an enabled context names a set. -/
def State.runsProgram (s : State) (x : Pkt) : Bool :=
  x.lk.searched && !x.vd.voidPkt && !x.slow && decide (x.i.parse.frag ≠ 2) && (Rule.enA x.lk.act || Rule.enB x.lk.act || Rule.enF x.lk.act)
    && (s.fsetOf x).isSome

/-! ### One update (R93, R94) -/

/-- A window byte at an offset from a base, with the base numbers of LD (R97). -/
def winByte (x : PktIn) (base off : Nat) : Option Nat :=
  let p := x.parse
  let b := if base = 1 then p.l3Off else if base = 2 then p.l4Off else if base = 3 then p.tunOff else 0
  if base ≠ 0 ∧ b = 0 then none else (x.window[b + off]?).map (·.toNat)
/-- Operand of a user accumulator descriptor (R94, R108). -/
def State.udOperand (s : State) (x : PktIn) (h : HotRec) (i : Nat) : Option Nat :=
  let base := s.act Reg.FLOW.UD_BASE 0 i
  let off := s.act Reg.FLOW.UD_OFF 0 i
  match s.act Reg.FLOW.UD_SRC 0 i with
  | 1 => some x.len
  | 2 => some 1
  | 3 => some h.iatLast
  | 4 => (winByte x base off).bind (fun a => (winByte x base (off + 1)).map (fun b => a * 256 + b))
  | 5 => winByte x base off
  | _ => none
/-- The condition of a descriptor holds. -/
def State.udCond (s : State) (x : PktIn) (i : Nat) : Bool :=
  s.act Reg.FLOW.COND_EN 0 i == 0 ||
    match winByte x (s.act Reg.FLOW.COND_BASE 0 i) (s.act Reg.FLOW.COND_OFF 0 i) with
    | some b => b &&& s.act Reg.FLOW.COND_MASK 0 i == s.act Reg.FLOW.COND_VAL 0 i
    | none => false
/-- OP of a descriptor (R94). -/
def uaccOp (op ew u x : Nat) : Nat :=
  if op = 0 then Nat.min (u + x) 0xFFFFFFFF
  else if op = 1 then Nat.max u x
  else if op = 2 then Nat.min u x
  else if op = 3 then ((u : Int) + ((x : Int) - u) / (2 ^ ew : Nat)).toNat
  else if op = 4 then u ||| x
  else if op = 5 then x
  else u
/-- Descriptor (FKEY, u) applied to UACC[u]. -/
def State.uaccApply (s : State) (x : PktIn) (form : Nat) (h : HotRec) (u : Nat) : HotRec :=
  let i := 4 * (form - 1) + u
  match s.udOperand x h i with
  | some v =>
    if s.udCond x i then { h with uacc := h.uacc.set u (uaccOp (s.act Reg.FLOW.UD_OP 0 i) (s.act Reg.FLOW.EWMA_SHIFT) (h.uacc.getD u 0) v) } else h
  | none => h

/-- A record as the packet that creates it finds it (R93). -/
def State.freshHot (s : State) (form t len : Nat) : HotRec :=
  { firstSeen := t, lastSeen := t, lenMin := len, lenMax := len,
    uacc := (List.range 3).map (fun u => if s.act Reg.FLOW.UD_OP 0 (4 * (form - 1) + u) = 2 then 0xFFFFFFFF else 0) }
/-- The interval fields of a later packet (R93). -/
def HotRec.interval (h : HotRec) (ew t len : Nat) : HotRec :=
  let iat := if h.lastSeen < t then Nat.min (t - h.lastSeen) 0xFFFFFFFF else 0
  { h with iatLast := iat, iatEwma := ((h.iatEwma : Int) + ((iat : Int) - h.iatEwma) / (2 ^ ew : Nat)).toNat,
           lastSeen := Nat.max h.lastSeen t, lenMin := Nat.min h.lenMin len, lenMax := Nat.max h.lenMax len }
/-- TCP flags byte of a packet (R93). -/
def tcpFlags (x : PktIn) : Option Nat := if x.parse.l4Type = 1 then winByte x 2 13 else none
/-- The update of R93 but for the history position. -/
def State.updateHot (s : State) (x : Pkt) (form : Nat) (old : Option HotRec) : HotRec :=
  let t := x.i.t
  let len := x.i.len
  let h := match old with | none => s.freshHot form t len | some h => h.interval (s.act Reg.FLOW.EWMA_SHIFT) t len
  let h := { h with pkts := Nat.min (h.pkts + 1) 0xFFFFFFFF, bytes := (h.bytes + len) % 2 ^ 64 }
  let h := match tcpFlags x.i with | some f => { h with tcpOr := h.tcpOr ||| f, tcpLast := f } | none => h
  let h := match x.i.dsByte with | some d => { h with dscpLast := d } | none => h
  let h := { h with fragSeen := h.fragSeen || decide (x.i.parse.frag ≠ 0), malSeen := h.malSeen || decide (x.mal ≠ 0) }
  if s.act Reg.FLOW.UACC_OFF = 1 then h else [0, 1, 2].foldl (s.uaccApply x.i form) h
/-- Give a flow a history ring (R104). -/
def State.histAlloc (s : State) (h : HotRec) : State × HotRec :=
  if h.histValid ∨ s.act Reg.FLOW.HIST_OFF = 1 then (s, h)
  else
    match s.ringTake with
    | some (r, s) => (s, { h with histValid := true, histRing := r, histHead := 0, histFull := false })
    | none => (s.bump Reg.FLOW.HIST_NOFREE, h)
/-- Take a history position (R93). -/
def HotRec.takePos (h : HotRec) : HotRec :=
  let n := (h.histHead + 1) % 32
  { h with histHead := n, histFull := h.histFull || decide (n = 0) }

/-- The present hot record of a key, none when its next update finds it NEW. -/
def State.hotOf (s : State) (key : List Byte) : State × Option HotRec :=
  match s.flow.upd.find? (fun u => decide (u.key = key)) with
  | some u => (s, some u.hot)
  | none =>
    match s.cached key with
    | some e => (s, if e.fresh then none else some e.hot)
    | none =>
      match s.storeLookup key with
      | (s, some l) => (s, some (HotRec.ofBytes (s.record l)))
      | (s, none) => (s, none)
/-- Keep the working copy of a key after an update. -/
def State.putUpd (s : State) (key : List Byte) (h : HotRec) (isNew : Bool) (origin inv : Nat) : State :=
  s.setFlow (fun f =>
    match f.upd.find? (fun u => decide (u.key = key)) with
    | some _ => { f with upd := f.upd.map (fun u => if u.key = key then { u with hot := h, beat := s.time.beat, inv := u.inv + inv } else u) }
    | none => { f with upd := f.upd ++ [{ key := key, hot := h, fresh := isNew, origin := origin, beat := s.time.beat, inv := inv, cold := if isNew then newCold origin else [] }] })

/-- The INVOKE descriptor of a version: exports its results, uses the flow home (R244, R266). -/
def State.invokeOf (s : State) (c mv : Nat) : Bool × Bool :=
  match s.version? c mv with
  | some v =>
    match v.sects.find? (fun t => t.type == 13) with
    | some t => Config.invoke t.body
    | none => (false, false)
  | none => (false, false)
/-- The packet starts a flow invocation of CTX_F (R23, R99, R203): a live flow context of its stamped version whose set it runs. -/
def State.startsInv (s : State) (x : Pkt) : Bool :=
  let c := s.ctxs.get (Rule.ctxF x.lk.act)
  Rule.enF x.lk.act && (s.verF x).isSome && decide (c.kind = 2) && decide (c.down = 0) && s.runsProgram x && !s.misF x && !s.devSafe && !s.herd.stopped
def State.startInv (s : State) (x : Pkt) : State :=
  let c := Rule.ctxF x.lk.act
  let s1 := s.setFlow (fun f => { f with
    nextInv := f.nextInv + 1,
    invs := f.invs ++ [{ id := f.nextInv, ctx := c, mv := x.ft.mvF, key := x.lk.key, startBeat := s.time.beat }] })
  let s1 := s1.countSkips c x.ft.mvF
  if (s.invokeOf c x.ft.mvF).2 then s1.homeFetch s.flow.nextInv x.lk.key else s1

/-- The update of one packet (R92, R93, R104). -/
def State.updatePkt (s : State) (k : PktId) : State :=
  match s.pkt? k with
  | none => s
  | some x =>
    if x.lk.key = [] ∨ x.lk.updated ∨ x.vd.voidPkt then s
    else
      let (s, old) := s.hotOf x.lk.key
      let h := s.updateHot x (Rule.fkey x.lk.act) old
      let takes := Rule.hist x.lk.act && (s.verF x).isSome && s.runsProgram x && !s.misF x
      let (s, h) := if takes then s.histAlloc h else (s, h)
      let pos := if takes ∧ h.histValid then some h.histHead else none
      let ring := h.histRing
      let h := if pos.isSome then h.takePos else h
      let inv := s.startsInv x
      let s := s.putUpd x.lk.key h old.isNone x.origin (b2n inv)
      let s := s.modPkt k (fun x => { x with
        lk := { x.lk with updated := true, view := some h, created := old.isNone, histPos := pos, histRing := ring } })
      if inv then s.startInv x else s
/-- The update of a later fragment (R47, R105): to the record its entry names, with no history position. -/
def State.updateFrag (s : State) (k : PktId) : State :=
  match s.pkt? k with
  | none => s
  | some x =>
    match (if x.follows ∧ x.i.parse.frag = 2 ∧ ¬ x.lk.updated ∧ ¬ x.vd.voidPkt then fragKey x.i else none) with
    | none => s
    | some fk =>
      match s.fragFind fk x.i.b with
      | none => s
      | some e =>
        if e.flowKey = [] then s
        else
          let (s, old) := s.hotOf e.flowKey
          let form := (e.flowKey.getD 33 0).toNat % 4
          let s := s.putUpd e.flowKey (s.updateHot x form old) old.isNone x.origin 0
          s.modPkt k (fun x => { x with lk := { x.lk with updated := true } })

/-- Capture order (R21): capture time, then lane. -/
def insertByTime (p : PktId × Pkt) : List (PktId × Pkt) → List (PktId × Pkt)
  | [] => [p]
  | q :: t => if p.2.i.t < q.2.i.t ∨ (p.2.i.t = q.2.i.t ∧ p.2.i.lane < q.2.i.lane) then p :: q :: t else q :: insertByTime p t
/-- The resident packets of boundary b in capture order. -/
def State.byCapture (s : State) (b : Nat) : List PktId :=
  ((s.resident.filter (fun p => decide (p.2.i.b = b))).foldr insertByTime []).map (·.1)

/-! ### Commands on a key (R86) -/

/-- The whole record of a key: its present hot part and its cold part. -/
def State.wholeRecord (s : State) (key : List Byte) : Option (List Byte) :=
  let cold : List Byte :=
    match s.slotOf key with
    | some l => Mem.readN s.hbm (s.recAddr l + 128) 128
    | none => ((s.cached key).map (·.cold)).getD []
  match s.flow.upd.find? (fun u => decide (u.key = key)) with
  | some u => some (recordBytes key u.hot (if u.fresh then u.cold else cold))
  | none =>
    match s.cached key with
    | some e => if e.fresh then none else some (recordBytes key e.hot cold)
    | none => (s.storeFind key).1.map (fun l => s.record l)
/-- Remove a record, wherever it stands; its ring returns to the free list (R104). -/
def State.deleteRecord (s : State) (key : List Byte) : State :=
  let h := ((s.wholeRecord key).map HotRec.ofBytes).getD {}
  let slot := s.slotOf key
  let s := match s.cacheFind key with | some w => s.setWay w {} | none => s
  let s := s.setFlow (fun f => { f with upd := f.upd.filter (fun u => decide (u.key ≠ key)) })
  let s := match slot with | some l => (s.setTag l 0).records (-1) | none => s
  s.freeRingOf h
/-- A key's record is looked for in the store, where no copy of it stands on the die (R75, R80). -/
def State.keyRead (s : State) (key : List Byte) : State :=
  if (s.cached key).isSome ∨ s.flow.upd.any (fun u => decide (u.key = key)) then s else (s.storeLookup key).1
/-- The command in progress acts (R86): a key in the victim buffer is being written back, so it is busy. -/
def State.flowCmdNow (s : State) : State :=
  match s.flow.cmd with
  | none => s
  | some (op, key) =>
    if s.time.beat ≤ s.flow.cmdBeat ∨ s.herd.cut then s
    else
      let done (s : State) (r : Nat) : State :=
        (((s.setFlow (fun f => { f with cmd := none })).wr Reg.FLOW.CMD_BUSY 0).wr Reg.FLOW.CMD_RESULT r).event Blk.FLOW 0 0
      if (s.victimFind key).isSome then done s 2
      else
        let s := s.keyRead key
        let s := match s.slotOf key with | some l => s.recCheck l | none => s
        match s.wholeRecord key with
        | none => done s 1
        | some bs =>
          if op = 1 then done ((List.range 64).foldl (fun t i => t.wr Reg.FLOW.REC (leAt bs (4 * i) 4) 0 i) s) 0
          else done (s.deleteRecord key) 0
/-- A write of FLOW.CMD (R86): one command runs at a time. -/
def State.flowCmd (s : State) (src : Source) (op : Nat) : State :=
  if s.flow.cmd.isSome then s.auditCmd src Reg.FLOW.CMD 0 op 3
  else
    let key := (List.range 12).flatMap (fun i => leBytes 4 (s.rd Reg.FLOW.KEY 0 i))
    ((s.setFlow (fun f => { f with cmd := some (op, key), cmdBeat := s.time.beat })).wr Reg.FLOW.CMD_BUSY 1).auditCmd src Reg.FLOW.CMD 0 op 0
/-- FLOW_READ (R86). -/
def execFlowRead (src : Source) (s : State) : Host.Outcome State Fault Refusal := s.basicCmd src (fun s => s.flowCmd src 1)
/-- FLOW_DELETE (R86). -/
def execFlowDelete (src : Source) (s : State) : Host.Outcome State Fault Refusal := s.basicCmd src (fun s => s.flowCmd src 2)

/-- Write back every cache entry (R79). With `lose`, a NEW entry whose insertion is refused is lost (a warm reset). -/
def State.flushCache (s : State) (lose : Bool) : State :=
  s.flow.cache.keys.foldl (fun t w =>
    let e := t.flow.cache.get w
    if ¬ e.live ∨ e.fresh then t
    else
      match t.writeBack e true with
      | (t, some l) => t.setWay w { t.flow.cache.get w with loc := some l, cold := [] }
      | (t, none) => if lose then t.setWay w {} else t) s
/-- FLOW_FLUSH (R79): every entry is written back in this step; the manual asks for one epoch. -/
def execFlowFlush (src : Source) (s : State) : Host.Outcome State Fault Refusal :=
  s.basicCmd src (fun s => (if s.herd.cut then s else s.flushCache false).auditCmd src Reg.FLOW.FLUSH 0 1 0)

/-! ### Records written -/

/-- One working copy goes to the cached copy or the store record (R92, R103, R105). -/
def State.writeUpd (s : State) (u : UpdRec) : State :=
  let s :=
    match s.cached u.key with
    | some e =>
      let s := s.modCached u.key (fun e => { e with hot := u.hot, fresh := false, cold := if e.fresh then u.cold else e.cold })
      match e.loc with
      | some l => if u.hot.histValid ∧ bits (s.tag l) 34 1 = 0 then s.setTag l (setBits (s.tag l) 34 1 1) else s
      | none => s
    | none =>
      match (s.storeFind u.key).1 with
      | some l => (s.hbmWrite (s.recAddr l) (u.key ++ u.hot.enc)).setTag l (tagOf u.key false u.hot.histValid)
      | none =>
        match s.storeInsert u.key (recordBytes u.key u.hot (if u.fresh then u.cold else newCold u.origin)) false u.hot.histValid with
        | (s, some _) => s
        | (s, none) => s.freeRingOf u.hot
  if u.inv = 0 then s else s.modCold u.key (coldAdd 12 u.inv)
/-- FLOW_RECORD_WRITE (R19, R78): the updates of earlier passes are written, and their pins end. -/
def execFlowRecordWrite (s : State) : Host.Outcome State Fault Refusal :=
  let n := s.time.beat
  let due := s.flow.upd.filter (fun u => decide (u.beat < n))
  let s := due.foldl State.writeUpd (s.setFlow (fun f => { f with upd := f.upd.filter (fun u => decide (n ≤ u.beat)) }))
  .next (s.setFlow (fun f => { f with cache := f.cache.map (fun e => (e.1, if e.2.pins ≤ n then { e.2 with pins := 0 } else e.2)) }))

/-! ### Flow results (R103, R266) -/

/-- The fields of the hot part a result writes. -/
def HotRec.result (h : HotRec) (r : FlowRes) : HotRec :=
  { h with fvCode := r.vals.code.val, fvCtx := r.ctx, fvValid := true, score0 := r.vals.score0.toNat, score1 := r.vals.score1.toNat,
           res0 := r.vals.res0.toNat, res1 := r.vals.res1.toNat, fvMv := r.mv, resSeq := (h.resSeq + 1) % 65536 }
/-- RES_X as bytes. -/
def resxBytes (r : FlowRes) : List Byte := (List.range 8).flatMap (fun i => leBytes 4 (r.vals.resx.getD i 0).toNat)
/-- The cold part after a result that lands at a boundary. -/
def coldResult (r : FlowRes) (land_ : Nat) (c : List Byte) : List Byte :=
  putBytes (putBytes c 0 (leBytes 8 land_ ++ leBytes 2 r.ctx)) 32 (resxBytes r)
/-- An FV_EXPORT item (R266). -/
def fvExport (r : FlowRes) (h : HotRec) (land_ : Nat) : List Byte :=
  r.key ++ slice h.enc 44 4 ++ leBytes 2 h.score0 ++ leBytes 2 h.score1 ++ leBytes 4 h.res0 ++ leBytes 4 h.res1 ++ leBytes 2 h.fvMv
    ++ leBytes 2 h.resSeq ++ leBytes 2 r.ctx ++ zeros 2 ++ leBytes 8 land_ ++ resxBytes r ++ zeros 16
/-- One result is applied, or is an orphan. -/
def State.applyResult (s : State) (r : FlowRes) : State :=
  let s := s.keyRead r.key
  match s.wholeRecord r.key with
  | none => s.bump Reg.FLOW.RESULT_ORPHAN
  | some bs =>
    let land_ := s.time.beat + 1
    let h := (HotRec.ofBytes bs).result r
    let s := s.setFlow (fun f => { f with upd := f.upd.map (fun u => if u.key = r.key then { u with hot := u.hot.result r } else u) })
    let s :=
      match s.cached r.key with
      | some _ => s.modCached r.key (fun e => { e with hot := e.hot.result r })
      | none =>
        match (s.storeFind r.key).1 with
        | some l => s.hbmWrite (s.recAddr l + 48) ((HotRec.ofBytes (s.record l)).result r).enc
        | none => s
    let s := (s.modCold r.key (coldResult r land_)).bump Reg.FLOW.RESULTS
    let (exp, home) := s.invokeOf r.ctx r.mv
    let s := if exp then s.hqProduce 3 (fvExport r h land_) else s
    if home then s.homeAddSend r.key r.vals.resx else s
/-- The results that reached the port core in an earlier beat are applied. -/
def State.resultsDue (s : State) : State :=
  let due := s.flow.results.filter (fun r => decide (r.beat < s.time.beat))
  if s.herd.stopped then s
  else due.foldl State.applyResult (s.setFlow (fun f => { f with results := f.results.filter (fun r => decide (s.time.beat ≤ r.beat)) }))
/-- FLOW_RESULT (R103): from schedule cycle 256. -/
def execFlowResult (s : State) : Host.Outcome State Fault Refusal := if s.time.cycle < 256 then .next s else .next s.resultsDue

/-! ### The update pass -/

/-- UPDATE_PASS (R19, R86, R92, R103): from schedule cycle 256, the command in progress and the results that are due, then the packets of this boundary in
capture order, then the later fragments of the last one. -/
def execUpdatePass (s : State) : Host.Outcome State Fault Refusal :=
  if s.time.cycle < 256 then .next s
  else
    let s := s.flowCmdNow.resultsDue
    let s := (s.byCapture s.time.beat).foldl State.updatePkt s
    .next ((s.byCapture (s.time.beat - 1)).foldl State.updateFrag s)

/-- An invocation ends as lost (R17, R102). -/
def State.invLost (s : State) (i : Inv) : State :=
  ((s.homeEnd i.id).setFlow (fun f => { f with invs := f.invs.filter (fun j => decide (j.id ≠ i.id)) })).modCold i.key (coldAdd 16 1)
/-- Core keys of a version's bulk and tree programs (R211). -/
def Version.coreKeys (v : Version) : List Nat :=
  (v.sects.filterMap (fun t =>
    if t.type = 7 then some ((t.flock * 2 + 1) * 16 + t.unit % 256) else if t.type = 4 then some (65536 + t.flock * 64 + t.phys) else none)).eraseDups
/-- An invocation has started on its cores: each has switched to its version (R212). -/
def State.invRuns (s : State) (i : Inv) : Bool :=
  match s.version? i.ctx i.mv with
  | some v => v.coreKeys.all v.runs.contains
  | none => true
/-- FLOW_INVOCATION_END (R103, R212): the result reaches the port core, or the invocation counts as lost. -/
def execFlowInvocationEnd (inv : Nat) (res : Option FlowVals) (s : State) : Host.Outcome State Fault Refusal :=
  match s.flow.invs.find? (fun i => decide (i.id = inv)) with
  | none => .next s
  | some i =>
    match res with
    | some v =>
      if ¬ s.invRuns i then .next s
      else if i.lost then .next (s.invLost i)
      else
        .next ((s.homeEnd i.id).setFlow (fun f => { f with
          invs := f.invs.filter (fun j => decide (j.id ≠ i.id)),
          results := f.results ++ [{ key := i.key, ctx := i.ctx, mv := i.mv, beat := s.time.beat, vals := v }] }))
    | none => .next (s.invLost i)

/-! ### User accumulator descriptors (R108) -/

/-- The words of a descriptor. -/
def State.udWord1 (s : State) (i : Nat) : Nat :=
  s.rd Reg.FLOW.UD_SRC 0 i + s.rd Reg.FLOW.UD_OP 0 i * 2 ^ 3 + s.rd Reg.FLOW.UD_BASE 0 i * 2 ^ 6 + s.rd Reg.FLOW.UD_OFF 0 i * 2 ^ 8
def State.udWord2 (s : State) (i : Nat) : Nat :=
  s.rd Reg.FLOW.COND_EN 0 i + s.rd Reg.FLOW.COND_BASE 0 i * 2 + s.rd Reg.FLOW.COND_OFF 0 i * 2 ^ 3 + s.rd Reg.FLOW.COND_MASK 0 i * 2 ^ 16
    + s.rd Reg.FLOW.COND_VAL 0 i * 2 ^ 24
/-- A descriptor the check refuses. -/
def udBad (w1 w2 : Nat) : Bool := decide (5 < bits w1 0 3) || decide (5 < bits w1 3 3) || (decide (bits w1 0 3 = 0) && decide (bits w2 0 1 = 1))
/-- Store a descriptor. -/
def State.udStore (s : State) (i w1 w2 : Nat) : State :=
  let s := (((s.wr Reg.FLOW.UD_SRC (bits w1 0 3) 0 i).wr Reg.FLOW.UD_OP (bits w1 3 3) 0 i).wr Reg.FLOW.UD_BASE (bits w1 6 2) 0 i).wr Reg.FLOW.UD_OFF (bits w1 8 6) 0 i
  let s := ((s.wr Reg.FLOW.COND_EN (bits w2 0 1) 0 i).wr Reg.FLOW.COND_BASE (bits w2 1 2) 0 i).wr Reg.FLOW.COND_OFF (bits w2 3 6) 0 i
  (s.wr Reg.FLOW.COND_MASK (bits w2 16 8) 0 i).wr Reg.FLOW.COND_VAL (bits w2 24 8) 0 i
/-- UACC_DESCRIPTOR_WRITE (R108): the whole descriptor the write would form is judged. `f` is the FKEY form less 1. -/
def execUaccDescriptorWrite (src : Source) (f u : Fin 3) (w : UaccWord) (v : DWord) (s : State) : Host.Outcome State Fault Refusal :=
  s.basicCmd src (fun s =>
    let i := 4 * f.val + u.val
    let lo := v.toNat % 2 ^ 32
    let (w1, w2) := match w with | .first => (lo, s.udWord2 i) | .second => (s.udWord1 i, lo) | .both => (lo, v.toNat / 2 ^ 32)
    let old := s.udWord1 i + s.udWord2 i * 2 ^ 32
    let rec_ (res new : Nat) : AuditRec := { block := Blk.FLOW, off := Reg.FLOW.UD_SRC.off + 8 * i, source := src.num, result := res, old := old, new := new }
    if udBad w1 w2 then s.audit (rec_ 1 old)
    else
      let t := s.udStore i w1 w2
      let new := t.udWord1 i + t.udWord2 i * 2 ^ 32
      if new = old then t else t.audit (rec_ 0 new))

end Sys2Proof.Machine
end

