-- ==== Sys2Proof/Machine/Doubt.lean ====
section
/-! DEFINITION. The scopes at which doubt is resolved (R199, R200, R295, R305) and the fields of page VERD that enter or leave them (R201). -/

namespace Sys2Proof.Machine

open Sys2Proof

/-! ### The herd's part (R199, R240) -/

/-- Set HERD.STATE, with its event when it changes (R236, R377). -/
def State.setHerdState (s : State) (v : Nat) : State := if s.herdState = v then s else (s.wr Reg.HERD.STATE v).event Blk.HERD 0 0
/-- The next epoch boundary after the present beat. -/
def State.nextEpoch (s : State) : Nat := (s.time.beat / 65536 + 1) * 65536
/-- The first window that excludes a member whose departure is announced now: a multiple of 16,384 beats at least 64 beats away (R240). -/
def State.exclWindow (s : State) : Nat := (s.time.beat + 64 + 16383) / 16384 * 16384
/-- Result of the last commit request (R253), with its event (R377). -/
def State.cmtResult (s : State) (r : Nat) : State := (s.wr Reg.HERD.CMT_RESULT r).event Blk.HERD 0 2
/-- A requested commit that was not ordered is lost (R247): its context returns to STAGED, a rule commit to OPEN. -/
def State.creqDrop (s : State) (k : CommitKind) : State :=
  match k with
  | .rules => if s.commitState = 1 then s.setCommitState 0 else s
  | .context c => { s with ctxs := s.ctxs.mod c.val (fun x => { x with cmtHerd := false }) }
/-- Every commit request not yet ordered is lost (R247). -/
def State.creqLost (s : State) : State :=
  if s.herd.creqPend.isEmpty then s
  else
    let t := s.herd.creqPend.foldl (fun t e => t.creqDrop e.1) s
    { t with herd := { t.herd with creqPend := [] } }.cmtResult 4
/-- The device becomes ALONE with JOIN cleared; its time and versions run on (R240). -/
def State.becomeAlone (s : State) : State :=
  let s := s.creqLost
  let s := { s with herd := { s.herd with routes := if s.isMember then s.herd.members else s.herd.routes } }
  let s := (((s.setHerdState 0).wrNow Reg.HERD.JOIN 0).wr Reg.HERD.BELLWETHER 0).wr Reg.HERD.MEMBERS 1
  let s := (s.wr Reg.HERD.ELECTING 0).wr Reg.HERD.BW_HOPS 0
  { s with herd := { s.herd with members := [], prevMembers := [], leaveAt := none, joinE := none, joinWant := false, lockBeats := 0, lostBeats := 0, joins := [], departs := [], excl := [], orders := [], t0 := none, best := none, votes := [], winner := none, bwGone := false } }
/-- A departure is announced in a DEPART message: to the bellwether, or by it to every neighbour (R240). -/
def State.sendDepart (s : State) (member : Nat) : State :=
  let args : List Int := [(member : Int), (s.exclWindow : Int)]
  if s.rd Reg.HERD.BELLWETHER = 1 then s.flood 7 member 12 args else (s.sendTo 7 (s.rd Reg.HERD.BW_ID) args).1
/-- A member announces its departure and leaves at a boundary, or at an earlier one it has announced. -/
def State.departBy (s : State) (at_ : Nat) : State :=
  let s := (s.setHerdState 3).sendDepart s.ownId
  { s with herd := { s.herd with leaveAt := some (Nat.min at_ (s.herd.leaveAt.getD at_)) } }
/-- Announce this device's departure (R240): a member leaves at the next epoch boundary; a joining device gives up. -/
def State.announceLeave (s : State) : State :=
  if s.herdState = 2 then s.departBy s.nextEpoch
  else if s.herdState = 1 then s.becomeAlone
  else s

/-! ### Units out of service (R199, R294) -/

/-- A lane enters pass mode: `own` for a cause of its own rather than its replica's. -/
def State.lanePass (s : State) (l : Nat) (dev own : Bool) : State :=
  let x := s.lanes.get l
  if x.pass then { s with lanes := s.lanes.set l { x with own := x.own || own, dev := x.dev || dev }, flt := { s.flt with dmc := s.flt.dmc.set (65536 + l) .withdrawn } }
  else
    let s := { s with lanes := s.lanes.set l { x with pass := true, own := own, dev := dev } }
    let s := { s with flt := { s.flt with dmc := s.flt.dmc.set (65536 + l) .withdrawn } }
    (s.event Blk.LANE l 30).fault { cls := 13, scope := 5, action := 4, block := Blk.LANE, inst := l, unit := l }
/-- A context goes down for a reason: 3 CONTEXT_DOWN or 4 FLOCK_DOWN (R197, R200). -/
def State.ctxDown (s : State) (c why : Nat) (dev : Bool) : State :=
  let x := s.ctxs.get c
  if x.down = why ∨ x.down = 4 then s
  else
    let s := { s with ctxs := s.ctxs.set c { x with down := why, downDev := dev } }
    let s := (s.wr Reg.VERD.LAST_DOWN_CTX c).wr Reg.VERD.LAST_DOWN_WHY why
    s.fault { cls := 13, scope := 3, reason := why, block := Blk.VERD, ctx := c, count := x.voidSets }
/-- A context comes up again. -/
def State.ctxUp (s : State) (c : Nat) : State :=
  let x := s.ctxs.get c
  if x.down = 0 then { s with ctxs := s.ctxs.set c { x with voidSets := 0 } }
  else
    let s := { s with ctxs := s.ctxs.set c { x with down := 0, downDev := false, voidSets := 0 } }
    s.fault { cls := 13, scope := 3, block := Blk.VERD, ctx := c }
/-- The contexts whose active or staged plan uses a flock. -/
def State.ctxsOn (s : State) (f : Nat) : List Nat :=
  s.ctxs.filterMap (fun e =>
    if e.2.active.any (fun v => v.flocks.contains f) || e.2.staged.any (fun v => v.flocks.contains f) then some e.1 else none)
/-- Running jobs for which p holds end as ABORTED, whatever they have met before (R289). -/
def State.abortJobs (s : State) (p : Nat → JobRun → Bool) : State :=
  { s with host := { s.host with jobs := s.host.jobs.map (fun (e : Nat × Option JobRun) => (e.1, e.2.map (fun j => if p e.1 j then { j with status := 10 } else j))) } }
/-- A flock is withdrawn: every context whose active or staged plan uses it goes down with FLOCK_DOWN, and jobs whose version uses it are aborted
(R199, R289). -/
def State.flockOut (s : State) (f : Nat) (dev : Bool) : State :=
  let x := s.flocks.get f
  if x.withdrawn then s
  else
    let s := { s with flocks := s.flocks.set f { x with withdrawn := true, dev := dev } }
    let s := { s with flt := { s.flt with dmc := s.flt.dmc.set (2 * 65536 + f) .withdrawn } }
    let s := (s.event Blk.FLOCK f 30).fault { cls := 13, scope := 4, action := 3, block := Blk.FLOCK, inst := f, unit := f }
    let s := s.abortJobs (fun c j => ([(s.ctxs.get c).v0, (s.ctxs.get c).v1].reduceOption).any (fun v => v.ver == j.mv && v.flocks.contains f))
    (s.ctxsOn f).foldl (fun t c => t.ctxDown c 4 dev) s
/-- A classifier replica is withdrawn, and both its lanes enter pass mode (R219, R305, R377). -/
def State.replicaOut (s : State) (r : Nat) (dev : Bool) : State :=
  if s.flt.wd.get (5 * 65536 + r) then s
  else
    let s := { s with flt := { s.flt with wd := s.flt.wd.set (5 * 65536 + r) true, dmc := s.flt.dmc.set (5 * 65536 + r) .withdrawn } }
    let s := (s.event Blk.TCAM r 30).fault { cls := 13, scope := 5, action := 3, block := Blk.TCAM, inst := r, unit := r }
    (s.lanePass (2 * r) dev false).lanePass (2 * r + 1) dev false
/-- The device enters the safe forwarding state (R199): every lane in pass mode, flocks stopped, and the herd told. -/
def State.devSafeIn (s : State) (dev : Bool) : State :=
  if s.devSafe then s
  else
    let s := ({ s with devSafe := true }.event Blk.DEV 0 1).fault { cls := 13, scope := 6, action := 5, block := Blk.DEV }
    let s := (List.range 16).foldl (fun t l =>
      let x := t.lanes.get l
      { t with lanes := t.lanes.set l { x with pass := true, dev := x.dev || dev } }) s
    let s := { s with obs := { s.obs with new := [], wait := [] } }
    (s.abortJobs (fun _ _ => true)).announceLeave

/-- LANE_PASS_ENTRY (R199). -/
def execLanePassEntry (l : Lane) (s : State) : Host.Outcome State Fault Refusal := .next (s.lanePass l.val true true)
/-- FLOCK_WITHDRAW (R199). -/
def execFlockWithdraw (f : Flock) (s : State) : Host.Outcome State Fault Refusal := .next (s.flockOut f.val true)
/-- DEVICE_SAFE_ENTRY (R295). A write of FORCE_SAFE and an environment reading are no device-caused faults (R294, R308). Control-state parity has
no other record. -/
def execDeviceSafeEntry (why : SafeCause) (s : State) : Host.Outcome State Fault Refusal :=
  let s := if why = .controlParity ∧ ¬ s.devSafe then s.fault { cls := 1, scope := 6, action := 5, block := Blk.DEV } else s
  .next (s.devSafeIn (!(why == .forced || why == .environment)))
/-- A context whose void sets of the epoch exceed CTX_FAULT_MAX goes down (R200). -/
def State.ctxDue (s : State) (c : Nat) : State :=
  let x := s.ctxs.get c
  if s.act Reg.VERD.CTX_FAULT_MAX < x.voidSets then s.ctxDown c 3 x.voidDev else s
/-- CONTEXT_DOWN (R200). -/
def execContextDown (c : CtxNum) (s : State) : Host.Outcome State Fault Refusal := .next (s.ctxDue c.val)
/-- RESTORE_CTX (R199, R201): at the next beat boundary. -/
def execRestoreCtx (src : Source) (c : CtxNum) (s : State) : Host.Outcome State Fault Refusal :=
  s.basicCmd src (fun s => (s.later (.restoreCtx c.val)).auditCmd src Reg.VERD.RESTORE_CTX 0 c.val 0 c.val)
/-- What RESTORE_CTX does: a context down for its void sets comes up; FLOCK_DOWN is left by a commit only (R199). -/
def State.restoreNow (s : State) (c : Nat) : State := if (s.ctxs.get c).down = 4 then s else s.ctxUp c
/-- LANE_PASS_SET (R201): the marked lanes enter pass mode at the next beat boundary. -/
def execLanePassSet (src : Source) (mask : BitVec 16) (s : State) : Host.Outcome State Fault Refusal :=
  s.expertCmd src Reg.VERD.LANE_PASS_SET 0 mask.toNat (fun s => (s.wr Reg.VERD.LANE_PASS_SET mask.toNat).later (.lanePass mask.toNat))
/-- FORCE_SAFE (R201, R295). -/
def execForceSafe (src : Source) (s : State) : Host.Outcome State Fault Refusal :=
  s.expertCmd src Reg.VERD.FORCE_SAFE 0 1 (fun s => s.later (.devSafe false))
/-- VERD_PATCH_GO (R201): PATCH_DATA goes to the named entry at the next beat boundary. -/
def execVerdPatchGo (src : Source) (s : State) : Host.Outcome State Fault Refusal :=
  s.expertCmd src Reg.VERD.PATCH_GO 0 1 (fun s =>
    s.later (.verdPatch (s.rd Reg.VERD.PATCH_CTX) (s.rd Reg.VERD.PATCH_CODE) (s.rd Reg.VERD.PATCH_SLOT) (BitVec.ofNat 32 (s.rd Reg.VERD.PATCH_DATA))))
/-- The patch at the boundary; code 0 is not patched. -/
def State.verdPatchNow (s : State) (c code slot : Nat) (w : Word) : State :=
  if code = 0 then s
  else
    let g (v : Version) : Version := { v with acts := v.acts.set code w }
    let x := s.ctxs.get c
    { s with ctxs := s.ctxs.set c (if slot = 0 then { x with v0 := x.v0.map g } else { x with v1 := x.v1.map g }) }

end Sys2Proof.Machine
end

