-- ==== Sys2Proof/Machine/Feature.lean ====
section
/-! DEFINITION. Feature programs and the vector assembler (R88 to R91, R96 to R101, R104, R106). -/

namespace Sys2Proof

/-- I and the second operand in an arithmetic instruction's word (R97). -/
def FOperand.low (o : FOperand) : Nat :=
  match o with
  | .reg b => b.val
  | .imm v => 2 ^ 13 + v.toNat

end Sys2Proof

namespace Sys2Proof.Machine

open Sys2Proof

/-! ### The input record (R91) -/

/-- META of a packet. -/
def metaWord (x : PktIn) : Nat :=
  x.port + x.lane * 2 ^ 5 + x.window.length * 2 ^ 9 + x.len % 2 ^ 14 * 2 ^ 16 + x.rv * 2 ^ 30 + x.swPort * 2 ^ 46 + x.colour * 2 ^ 56
/-- The GLOBAL words of a packet's feature beat b + 1 (R22): a window that ended after it has left them as they were. -/
def State.globalsOf (s : State) (x : Pkt) : Tbl Word := if s.globals.window ≤ x.i.b + 2 then s.globals.now else s.globals.old
/-- Byte i of the input record, none where absent. -/
def State.inputByte (s : State) (x : Pkt) (i : Nat) : Option Nat :=
  let byte (v j : Nat) : Option Nat := some (bits v (8 * j) 8)
  if i < 64 then (x.i.window[i]?).map (·.toNat)
  else if i < 72 then byte x.i.parse.word (i - 64)
  else if i < 80 then byte (metaWord x.i) (i - 72)
  else if i < 84 then byte (Rule.ruleTag x.lk.act) (i - 80)
  else if i < 88 then (if x.lk.lpmMade then byte x.lk.lpmRes (i - 84) else none)
  else if i < 92 then byte (x.lk.lpmLen + b2n x.lk.lpmHit * 2 ^ 8 + b2n x.lk.lpmAbsent * 2 ^ 9) (i - 88)
  else if i < 96 then (if x.lk.epUnicast then byte (x.lk.epMoves + b2n x.lk.epNew * 2 ^ 16) (i - 92) else none)
  else if i < 100 then byte (x.lk.epDstLoc + b2n x.lk.epDstKnown * 2 ^ 11) (i - 96)
  else if i < 128 then some 0
  else if i < 256 then
    match x.lk.view with
    | some h => ((x.lk.key ++ h.enc)[i - 128]?).map (·.toNat)
    | none => none
  else if i < 264 then byte x.i.t (i - 256)
  else if i < 272 then some 0
  else if i < 512 then ((s.globalsOf x).find? ((i - 272) / 4)).bind (fun w => byte w.toNat ((i - 272) % 4))
  else none
/-- The value of bytes in wire or little-endian order, none where any is absent. -/
def fieldValue (bs : List (Option Nat)) (le : Bool) : Option Nat :=
  (bs.mapM id).map (fun l => if le then l.foldr (fun b a => b + 256 * a) 0 else l.foldl (fun a b => a * 256 + b) 0)
/-- Bytes of a width code: 0 one, 1 two, 2 four (R97). -/
def widthBytes (w : Nat) : Nat := if w = 0 then 1 else if w = 1 then 2 else 4
/-- The field an LD names, with absent bytes read as zero, and whether any is absent (R91, R97). -/
def State.ldField (s : State) (x : Pkt) (f : LdF) : Nat × Bool :=
  let n := widthBytes f.width.val
  let bs := (List.range n).map (fun j => if f.base.val = 0 then s.inputByte x (f.off.val + j) else winByte x.i f.base.val (f.off.val + j))
  ((fieldValue (bs.map (fun b => some (b.getD 0))) f.littleEndian).getD 0, bs.any (·.isNone))

/-! ### Feature cores (R88, R96) -/

/-- Key of a feature core. -/
def FCoreId.key (c : FCoreId) : Nat := c.lane.val * 192 + c.core.val
/-- The core a packet runs on (R88): capture cycle mod 192 of its lane. -/
def Pkt.fcore (x : Pkt) : Nat := x.i.lane * 192 + x.i.t % 512 % 192
def State.fcore (s : State) (c : FCoreId) : FCore := s.fcores.get (FCoreId.key c)
/-- A set in a half of one core. -/
def FCore.fset (k : FCore) (s : State) (half : Bool) (n : Nat) : FSet := (k.own.find? (b2n half * 16 + n)).getD (s.fsets.get (b2n half * 16 + n))
/-- The instruction word at the core's pc, in the program of its packet's set (R97, R99); none past the program's end. -/
def State.fword (s : State) (c : FCoreId) : Option Word :=
  let k := s.fcore c
  (k.pkt.bind s.pkt?).bind (fun x => (k.fset s x.ft.half (x.ft.fset.getD 0)).prog[k.pc]?)
/-- An instruction word of R97: its opcode, D, A and low 14 bits. -/
def fenc (op d a low : Nat) : Word := BitVec.ofNat 32 (op * 2 ^ 26 + d * 2 ^ 20 + a * 2 ^ 14 + low)
/-- Run the instruction of word w on a core whose program has that word at its pc: `g` is its effect on the core, and the program goes on at pc + 1. -/
def State.fstep (s : State) (c : FCoreId) (w : Word) (g : Pkt → FCore → FCore) : State :=
  let k := s.fcore c
  match k.pkt.bind s.pkt? with
  | some x => if s.fword c = some w then { s with fcores := s.fcores.set (FCoreId.key c) { g x k with pc := (g x k).pc + 1 } } else s
  | none => s
def FCore.reg (k : FCore) (r : Fin 64) : Word := k.regs.get r.val
def FCore.setReg (k : FCore) (r : Fin 64) (v : Word) : FCore := { k with regs := k.regs.set r.val v }
/-- The second operand of an arithmetic instruction (R97). -/
def FCore.operand (k : FCore) (o : FOperand) : Word :=
  match o with
  | .reg b => k.reg b
  | .imm v => v.signExtend 32
/-- The arithmetic instruction of an opcode. -/
def State.falu (s : State) (c : FCoreId) (code : Nat) (d a : Fin 64) (o : FOperand) (op : Word → Word → Word) : State :=
  s.fstep c (fenc code d.val a.val o.low) (fun _ k => k.setReg d (op (k.reg a) (k.operand o)))
/-- The branch of a word: taken, execution goes on at pc + 1 + distance. -/
def State.fbranch (s : State) (c : FCoreId) (w : Word) (dist : Nat) (cond : FCore → Bool) : State :=
  s.fstep c w (fun _ k => if cond k then { k with pc := k.pc + dist } else k)
/-- Floor of log2. -/
def floorLog2 (v : Nat) : Nat := ((List.range 32).filter (fun e => decide (2 ^ e ≤ v))).length - 1
/-- LOG2 of R97. -/
def log2Fixed (a : Word) : Word :=
  if a.toInt ≤ 0 then 0x80000000
  else
    let v := a.toNat
    let e := floorLog2 v
    BitVec.ofNat 32 (256 * e + (if 8 ≤ e then v / 2 ^ (e - 8) % 256 else v * 2 ^ (8 - e) % 256))
/-- The encoding table lookup of LUT (R97, R99). -/
def FTable.lookup (t : FTable) (a : Word) : Word := if a.toInt < 0 then t.dflt else (t.vals[a.toNat]?).getD t.dflt

/-- FEATURE_PROGRAM (R88, R99, R106): the packet's core, once reloaded, starts its program. A parity failure voids the packet's vector; a second one of the core
in an epoch withdraws the lane. -/
def execFeatureProgram (pk : PktId) (parity : Bool) (s : State) : Host.Outcome State Fault Refusal :=
  match s.pkt? pk with
  | none => .next s
  | some x =>
    if x.ft.ran ∨ ¬ s.runsProgram x ∨ s.time.beat ≠ x.i.b + 1 ∨ (s.lanes.get x.i.lane).pass ∨ (s.fcores.get x.fcore).reload then .next s
    else
      let l := x.i.lane
      let mb := s.misB x
      let mf := s.misF x
      let s := (s.bump Reg.LANE.FEAT_PKTS l)
      let s := if mb ∨ mf then s.bump Reg.LANE.FSET_MISMATCH l else s
      let u := s.fsetOf x
      let s := s.modPkt pk (fun x => { x with ft := { x.ft with ran := true, mismB := mb, mismF := mf, fset := u.map (·.1), half := (u.map (·.2)).getD false } })
      let k := s.fcores.get x.fcore
      if parity then
        let s := (s.bump Reg.LANE.FEAT_PARITY l).modPkt pk (fun x => { x with ft := { x.ft with voidVec := true, houtOpen := true }, vd := { x.vd with reasons := 20 :: x.vd.reasons } })
        let s := { s with fcores := s.fcores.set x.fcore { k with pkt := none, faults := k.faults + 1, reload := true } }
        let s := s.fault { cls := 1, scope := 1, reason := 20, action := if k.faults = 0 then 1 else 4, block := Blk.LANE, inst := l, unit := x.fcore % 192,
                           count := s.rd Reg.LANE.FEAT_PARITY l }
        .next (if k.faults = 0 then s else s.later (.lanePassOne l true))
      else .next { s with fcores := s.fcores.set x.fcore { k with pkt := some pk, pc := 0, regs := [], absent := false, outs := [], hout := [], flags := 0 } }

/-! ### Instructions (R97) -/

/-- NOP. -/
def execNop (c : FCoreId) (s : State) : Host.Outcome State Fault Refusal := .next (s.fstep c (fenc 0 0 0 0) (fun _ k => k))
/-- Word of an LD. -/
def LdF.word (f : LdF) : Word :=
  fenc 1 f.d.val 0 (f.base.val * 2 ^ 18 + f.width.val * 2 ^ 16 + b2n f.signed * 2 ^ 15 + b2n f.littleEndian * 2 ^ 14 + f.off.val)
/-- LD: the field, sign- or zero-extended, and the absence flag. -/
def execLd (c : FCoreId) (f : LdF) (s : State) : Host.Outcome State Fault Refusal :=
  .next (s.fstep c (LdF.word f) (fun x k =>
    let (v, absent) := s.ldField x f
    let w := 8 * widthBytes f.width.val
    { k.setReg f.d (if f.signed then BitVec.ofInt 32 (toSigned w v) else BitVec.ofNat 32 v) with absent := absent }))
/-- MOVI. -/
def execMovi (c : FCoreId) (d : Fin 64) (imm : BitVec 20) (s : State) : Host.Outcome State Fault Refusal :=
  .next (s.fstep c (fenc 2 d.val 0 imm.toNat) (fun _ k => k.setReg d (imm.signExtend 32)))
/-- LUI. -/
def execLui (c : FCoreId) (d : Fin 64) (imm : BitVec 12) (s : State) : Host.Outcome State Fault Refusal :=
  .next (s.fstep c (fenc 3 d.val 0 imm.toNat) (fun _ k => k.setReg d (BitVec.ofNat 32 (imm.toNat * 2 ^ 20 + (k.reg d).toNat % 2 ^ 20))))
/-- ADD. -/
def execAdd (c : FCoreId) (d a : Fin 64) (o : FOperand) (s : State) : Host.Outcome State Fault Refusal := .next (s.falu c 4 d a o (fun x y => x + y))
/-- SUB. -/
def execSub (c : FCoreId) (d a : Fin 64) (o : FOperand) (s : State) : Host.Outcome State Fault Refusal := .next (s.falu c 5 d a o (fun x y => x - y))
/-- MUL keeps the low 32 bits. -/
def execMul (c : FCoreId) (d a : Fin 64) (o : FOperand) (s : State) : Host.Outcome State Fault Refusal := .next (s.falu c 6 d a o (fun x y => x * y))
/-- AND. -/
def execAnd (c : FCoreId) (d a : Fin 64) (o : FOperand) (s : State) : Host.Outcome State Fault Refusal := .next (s.falu c 7 d a o (fun x y => x &&& y))
/-- OR. -/
def execOr (c : FCoreId) (d a : Fin 64) (o : FOperand) (s : State) : Host.Outcome State Fault Refusal := .next (s.falu c 8 d a o (fun x y => x ||| y))
/-- XOR. -/
def execXor (c : FCoreId) (d a : Fin 64) (o : FOperand) (s : State) : Host.Outcome State Fault Refusal := .next (s.falu c 9 d a o (fun x y => x ^^^ y))
/-- SHL by an amount mod 32 (R96). -/
def execShl (c : FCoreId) (d a : Fin 64) (o : FOperand) (s : State) : Host.Outcome State Fault Refusal :=
  .next (s.falu c 0xA d a o (fun x y => x <<< (y.toNat % 32)))
/-- SHR, arithmetic, by an amount mod 32. -/
def execShr (c : FCoreId) (d a : Fin 64) (o : FOperand) (s : State) : Host.Outcome State Fault Refusal :=
  .next (s.falu c 0xB d a o (fun x y => x.sshiftRight (y.toNat % 32)))
/-- MIN, signed. -/
def execMin (c : FCoreId) (d a : Fin 64) (o : FOperand) (s : State) : Host.Outcome State Fault Refusal :=
  .next (s.falu c 0xC d a o (fun x y => if x.toInt ≤ y.toInt then x else y))
/-- MAX, signed. -/
def execMax (c : FCoreId) (d a : Fin 64) (o : FOperand) (s : State) : Host.Outcome State Fault Refusal :=
  .next (s.falu c 0xD d a o (fun x y => if x.toInt ≤ y.toInt then y else x))
/-- SLT, signed: 1 or 0. -/
def execSlt (c : FCoreId) (d a : Fin 64) (o : FOperand) (s : State) : Host.Outcome State Fault Refusal :=
  .next (s.falu c 0xE d a o (fun x y => if x.toInt < y.toInt then 1 else 0))
/-- LUT: an encoding table of the packet's set and half. -/
def execLut (c : FCoreId) (d a : Fin 64) (t : Fin 16) (s : State) : Host.Outcome State Fault Refusal :=
  .next (s.fstep c (fenc 0x10 d.val a.val t.val) (fun x k =>
    let fs := k.fset s x.ft.half (x.ft.fset.getD 0)
    k.setReg d (((fs.tables[t.val]?).getD {}).lookup (k.reg a))))
/-- LOG2. -/
def execLog2 (c : FCoreId) (d a : Fin 64) (s : State) : Host.Outcome State Fault Refusal := .next (s.fstep c (fenc 0x11 d.val a.val 0) (fun _ k => k.setReg d (log2Fixed (k.reg a))))
/-- BZ. -/
def execBz (c : FCoreId) (a : Fin 64) (dist : Fin 4096) (s : State) : Host.Outcome State Fault Refusal := .next (s.fbranch c (fenc 0x18 0 a.val dist.val) dist.val (fun k => k.reg a == 0))
/-- BNZ. -/
def execBnz (c : FCoreId) (a : Fin 64) (dist : Fin 4096) (s : State) : Host.Outcome State Fault Refusal := .next (s.fbranch c (fenc 0x19 0 a.val dist.val) dist.val (fun k => k.reg a != 0))
/-- BABS. -/
def execBabs (c : FCoreId) (dist : Fin 4096) (s : State) : Host.Outcome State Fault Refusal := .next (s.fbranch c (fenc 0x1A 0 0 dist.val) dist.val (fun k => k.absent))
/-- OUT: the word, marked written. -/
def execOut (c : FCoreId) (a : Fin 64) (k : Fin 64) (s : State) : Host.Outcome State Fault Refusal :=
  .next (s.fstep c (fenc 0x20 0 a.val k.val) (fun _ x => { x with outs := x.outs.put k.val (x.reg a) }))
/-- HOUT: the byte, saturated to int8. -/
def execHout (c : FCoreId) (a : Fin 64) (k : Fin 64) (s : State) : Host.Outcome State Fault Refusal :=
  .next (s.fstep c (fenc 0x21 0 a.val k.val) (fun _ x => { x with hout := x.hout.set k.val (BitVec.ofInt 8 (clampInt (-128) 127 (x.reg a).toInt)) }))
/-- SETF: a flag bit of 16 to 63. -/
def execSetf (c : FCoreId) (a : Fin 64) (bit : Fin 64) (s : State) : Host.Outcome State Fault Refusal :=
  .next (s.fstep c (fenc 0x22 0 a.val bit.val) (fun _ x =>
    if bit.val < 16 then x
    else { x with flags := if x.reg a = 0 then x.flags &&& ~~~(1#64 <<< bit.val) else x.flags ||| (1#64 <<< bit.val) }))
/-- END: the program's outputs belong to the packet, and the core is free. -/
def execEndp (c : FCoreId) (s : State) : Host.Outcome State Fault Refusal :=
  let k := s.fcore c
  match k.pkt with
  | none => .next s
  | some pk =>
    if s.fword c ≠ some (fenc 0x3F 0 0 0) then .next s
    else
      let s := s.modPkt pk (fun x => { x with ft := { x.ft with outs := k.outs, hout := k.hout, flags := k.flags } })
      .next { s with fcores := s.fcores.set (FCoreId.key c) { faults := k.faults, reload := k.reload, own := k.own } }
/-- The feature set of a FEATURE section's content (R99, R206). -/
def setOf (bs : List Byte) : FSet :=
  let (p, tb, m) := Config.featureSection bs
  { present := true, prog := p, tables := tb.map (fun e => { vals := e.1, dflt := e.2 }), slotMap := m }
/-- The sets of the active half that the active versions' images give otherwise than the half holds them (R106, R202). -/
def State.reloadSets (s : State) : Tbl FSet :=
  s.ctxs.foldl (fun t (e : Nat × Ctx) =>
    match e.2.active with
    | some v =>
      match v.sects.find? (fun x => x.type == 2) with
      | some x =>
        let k := b2n s.fhalf * 16 + v.fset
        let u := setOf (s.imgBytes v x)
        if u = s.fsets.get k then t else t.put k u
      | none => t
    | none => t) []
/-- FEATURE_CORE_RELOAD (R106): after a failure the core's active half takes the content of the context images again. -/
def execFeatureCoreReload (c : FCoreId) (s : State) : Host.Outcome State Fault Refusal :=
  let k := s.fcore c
  if ¬ k.reload then .next s
  else
    let other : Tbl FSet := k.own.filter (fun (e : Nat × FSet) => decide (e.1 / 16 ≠ b2n s.fhalf))
    .next { s with fcores := s.fcores.set (FCoreId.key c) { k with reload := false, own := s.reloadSets.foldl (fun t e => t.put e.1 e.2) other } }

/-! ### The assembler (R89, R100, R101) -/

/-- Slot j of a packet under a slot-map entry (R100). An OUT word is taken whole. -/
def State.slotValue (s : State) (x : Pkt) (e : DWord) : Word :=
  let v := e.toNat
  let off := bits v 2 9
  let n := widthBytes (bits v 11 2)
  let dflt : Word := BitVec.ofNat 32 (bits v 32 32)
  let place (i : Int) : Word := BitVec.ofInt 32 (clampInt (-(2 ^ 31)) (2 ^ 31 - 1) (i * 2 ^ bits v 16 5))
  let ext (w raw : Nat) : Int := if bits v 13 1 = 1 then toSigned w raw else (raw : Int)
  match bits v 0 2 with
  | 1 =>
    match fieldValue ((List.range n).map (fun j => s.inputByte x (off + j))) (bits v 14 1 == 1) with
    | some raw => place (ext (8 * n) raw)
    | none => dflt
  | 2 =>
    match x.ft.outs.find? (off % 64) with
    | some w => place (ext (8 * n) (w.toNat % 2 ^ (8 * n)))
    | none => dflt
  | _ => dflt
/-- FLAGS [15:0], set by the hardware (R101). -/
def hwFlags (x : Pkt) : Nat :=
  let b (i : Nat) (v : Bool) : Nat := b2n v * 2 ^ i
  let view (f : HotRec → Bool) : Bool := (x.lk.view.map f).getD false
  b 0 x.lk.created + b 1 x.lk.view.isSome + b 2 (view (·.fvValid)) + b 3 x.lk.lpmHit + b 4 x.lk.lpmAbsent + b 5 x.lk.epNew + b 6 x.lk.epDstKnown
    + b 7 (decide (x.mal ≠ 0)) + b 8 (decide (x.i.parse.frag = 1)) + b 9 x.i.parse.tap + b 10 x.i.parse.l4Cut
    + b 11 (x.lk.how == .uncachedHit || x.lk.how == .uncachedNew) + b 12 (view (·.histValid))
/-- FLAGS of a packet. -/
def Pkt.flagWord (x : Pkt) : DWord := BitVec.ofNat 64 (hwFlags x + x.ft.flags.toNat / 2 ^ 16 * 2 ^ 16)
/-- The 2,112 bytes of a vector (R101). -/
def vectorBytes (x : Pkt) (slots : List Word) : List Byte :=
  slots.flatMap (fun w => leBytes 4 w.toNat) ++ leBytes 8 x.flagWord.toNat ++ leBytes 8 x.i.b ++ leBytes 2 (x.i.lane + x.i.t % 512 * 2 ^ 4)
    ++ leBytes 2 (Rule.ctxA x.lk.act + b2n (Rule.enA x.lk.act) * 2 ^ 12)
    ++ leBytes 2 (Rule.ctxB x.lk.act + b2n (Rule.enB x.lk.act) * 2 ^ 12 + b2n x.ft.mismB * 2 ^ 13)
    ++ leBytes 2 x.ft.mvA ++ leBytes 2 x.ft.mvB ++ leBytes 2 x.i.rv ++ leBytes 4 x.lk.flowId ++ zeros 32

/-- VECTOR_ASSEMBLE (R100, R101, R106), once the packet's program has ended. A bad slot map voids every vector of the lane's beat, those to come among
them, and withdraws the lane. -/
def execVectorAssemble (pk : PktId) (slotMapBad : Bool) (s : State) : Host.Outcome State Fault Refusal :=
  match s.pkt? pk with
  | none => .next s
  | some x =>
    if s.time.beat ≠ x.i.b + 1 ∨ ¬ x.ft.ran ∨ x.ft.vec.isSome ∨ ¬ (Rule.enA x.lk.act ∨ Rule.enB x.lk.act) ∨ (s.fcores.get x.fcore).pkt = some pk then .next s
    else if slotMapBad then
      let ks := (s.resident.filter (fun p => decide (p.2.i.lane = x.i.lane) && decide (p.2.i.b = x.i.b) && s.runsProgram p.2 && (Rule.enA p.2.lk.act || Rule.enB p.2.lk.act))).map (·.1)
      let s := ks.foldl (fun t k => t.modPkt k (fun x => { x with
        ft := { x.ft with voidVec := true, vec := none }, vd := { x.vd with reasons := if x.vd.reasons.contains 20 then x.vd.reasons else 20 :: x.vd.reasons } })) s
      .next ((s.fault { cls := 1, scope := 5, reason := 20, action := 4, block := Blk.LANE, inst := x.i.lane }).later (.lanePassOne x.i.lane true))
    else if x.ft.voidVec then .next s
    else
      let fs := s.fsets.get (b2n x.ft.half * 16 + x.ft.fset.getD 0)
      let slots := (List.range 512).map (fun j => s.slotValue x (fs.slotMap.getD j 0))
      let s := s.modPkt pk (fun x => { x with ft := { x.ft with vec := some slots } })
      let s := if Rule.enA x.lk.act then s.countSkips (Rule.ctxA x.lk.act) x.ft.mvA else s
      .next (if Rule.enB x.lk.act ∧ ¬ x.ft.mismB then s.countSkips (Rule.ctxB x.lk.act) x.ft.mvB else s)

/-- VECTOR_HANDOVER (R89): the lane's vectors of this feature beat go to the bridge queues, its history entries to the port core. -/
def execVectorHandover (l : Lane) (s : State) : Host.Outcome State Fault Refusal :=
  let ks := (s.resident.filter (fun p => decide (p.2.i.lane = l.val) && decide (p.2.i.b + 1 = s.time.beat) && p.2.ft.ran)).map (·.1)
  .next (ks.foldl (fun t k => t.modPkt k (fun x => { x with ft := { x.ft with handed := true } })) s)

/-- n bytes the manual leaves open. -/
def State.freshBytes (s : State) (n : Nat) : List Byte × State :=
  ((List.range n).map (fun i => (Config.free (s.free + i)).setWidth 8), { s with free := s.free + n })
/-- HISTORY_WRITE (R104): the packet's 64 HOUT bytes go to its position. What a program voided for parity leaves in HOUT is open. -/
def execHistoryWrite (pk : PktId) (s : State) : Host.Outcome State Fault Refusal :=
  match s.pkt? pk with
  | none => .next s
  | some x =>
    match x.lk.histPos with
    | none => .next s
    | some pos =>
      if ¬ x.ft.handed then .next s
      else
        let a := s.regionBase 1 + 2048 * x.lk.histRing + 64 * pos
        let s := s.modPkt pk (fun x => { x with lk := { x.lk with histPos := none } })
        if x.ft.houtOpen then
          let (bs, s) := s.freshBytes 64
          .next (s.hbmWrite a bs)
        else .next (s.hbmWrite a ((List.range 64).map (fun i => x.ft.hout.get i)))

end Sys2Proof.Machine
end

