-- ==== Sys2Proof/Machine/Tree.lean ====
section
/-! DEFINITION. Vectors in the flocks and the tree cores (R109 to R124, R299). -/

namespace Sys2Proof.Machine

open Sys2Proof

/-! ### Plans on a flock -/

/-- The section is for flock f (R205). -/
def Sect.onFlock (t : Sect) (f : Nat) : Bool := decide (t.flock = f) || decide (t.flock = 0xFFFF)
/-- Every held version, with its context. -/
def State.versions (s : State) : List (Nat × Version) :=
  s.ctxs.flatMap (fun e => ([e.2.v0, e.2.v1].reduceOption).map (fun v => (e.1, v)))
/-- A loaded plan uses tree core t of flock f. -/
def State.treeUsed (s : State) (f t : Nat) : Bool :=
  s.versions.any (fun v => v.2.flocks.contains f && v.2.sects.any (fun x => (x.type == 3 || x.type == 4) && x.onFlock f && x.phys == t))
/-- The flock issues work: not withdrawn unless in debug mode, not halted, and the device neither safe nor stopped (R199, R250, R295, R367). -/
def State.flockIssues (s : State) (f : Nat) : Bool :=
  let x := s.flocks.get f
  !s.devSafe && !s.herd.stopped && (!x.withdrawn || x.debug) && (!x.halted || x.step)

/-- Work that flock f has issued goes on to its end: also from boundary S of a global stop to its cut (R250), and where the flock issues no more. -/
def State.flockRuns (s : State) (f : Nat) : Bool := !s.herd.cut && (!(s.flocks.get f).withdrawn || (s.flocks.get f).debug)

/-- A void transfer over a bridge of a die (R299): the sixteenth of an epoch withdraws every flock of the die. -/
def State.xferVoid (s : State) (f reason : Nat) : State :=
  let die := f / 64
  let n := s.flt.bridgeVoid.get die + 1
  let s := { s with flt := { s.flt with bridgeVoid := s.flt.bridgeVoid.set die n } }
  let s := s.fault { cls := 3, scope := 1, reason := reason, action := if n = 16 then 3 else 0, block := Blk.FLOCK, inst := f, unit := die, count := n }
  if n = 16 then (List.range 64).foldl (fun t i => t.later (.flockWd (die * 64 + i) true)) s else s

/-! ### Vector buffers (R117, R118) -/

def vslotKey (f : Nat) (bank : Bool) (slot : Nat) : Nat := (f * 2 + b2n bank) * 64 + slot
def State.vslot (s : State) (f : Nat) (bank : Bool) (slot : Nat) : VecSlot := s.tree.vbuf.get (vslotKey f bank slot)
/-- A flock's beat begins: the bank filled in the last beat is read, the other is emptied, the packets whose trees issued in the last beat are
gathered, and the partial sums of this beat's issue start at zero (R115, R118). -/
def State.treeBeat (s : State) (f : Nat) : State :=
  let old := s.tree.readBank.get f
  let par := s.time.beat % 2
  let gset := (List.range 64).foldl (fun t i => t.set (f * 64 + i) (s.vslot f old i).pkt) s.tree.gset
  let lo := vslotKey f old 0
  let vbuf : Tbl VecSlot := s.tree.vbuf.filter (fun e => decide (e.1 < lo) || decide (lo + 64 ≤ e.1))
  let part : Tbl Int := s.tree.part.filter (fun e => !(decide (e.1 / 512 / 2 / 64 = f) && decide (e.1 / 512 % 2 = par)))
  let n := s.time.beat
  let cores : Tbl TCore := s.tree.cores.map (fun e => if e.1 / 64 = f then (e.1, { e.2 with voidBeats := e.2.voidBeats.filter (fun b => decide (n ≤ b + 2)) }) else e)
  { s with tree := { s.tree with readBank := s.tree.readBank.set f (!old), gset := gset, vbuf := vbuf, part := part, cores := cores } }

/-- The layout in force at a packet's acceptance and its DISPATCH section (R211, R215). -/
def State.dispatchOf (s : State) (x : Pkt) : Option (Nat × Nat) × Option (Nat × Nat) :=
  match s.layout.verAt (x.i.b - 1) with
  | some v =>
    match v.sects.find? (fun t => t.type == 12) with
    | some t => Config.dispatch t.body x.i.lane (x.i.t % 512)
    | none => (none, none)
  | none => (none, none)
/-- Place a packet's slots in the bank of a flock that is not being read. -/
def State.placeVec (s : State) (pk : PktId) (slots : List Word) (at_ : Option (Nat × Nat)) : State :=
  match at_ with
  | some (f, slot) => { s with tree := { s.tree with vbuf := s.tree.vbuf.set (vslotKey f (!s.tree.readBank.get f) (slot % 64)) { pkt := some pk, slots := slots } } }
  | none => s
/-- A flock has started the present beat. -/
def State.flockAt (s : State) (f : Nat) : Bool := decide (s.time.islBeat.get (32 + f) = s.time.beat)
/-- A vector crosses in beat b + 2, into flocks that have started that beat (R15, R19, R118). -/
def State.crosses (s : State) (x : Pkt) : Bool :=
  let (ex, tr) := s.dispatchOf x
  x.ft.handed && !x.ft.crossed && !x.ft.voidVec && !x.vd.voidPkt && decide (s.time.beat = x.i.b + 2) &&
    ex.all (fun e => s.flockAt e.1) && tr.all (fun e => s.flockAt e.1)
/-- VECTOR_CROSS (R20, R117, R299): the vector goes to the slots that the dispatch table names for express and for tree work. -/
def execVectorCross (pk : PktId) (voidXfer : Bool) (s : State) : Host.Outcome State Fault Refusal :=
  match s.pkt? pk with
  | none => .next s
  | some x =>
    match x.ft.vec with
    | none => .next s
    | some slots =>
      if ¬ s.crosses x then .next s
      else
        let (ex, tr) := s.dispatchOf x
        let s := (s.modPkt pk (fun x => { x with ft := { x.ft with crossed := true } })).bump Reg.LANE.VEC_SENT x.i.lane
        if voidXfer then
          let s := s.modPkt pk (fun x => { x with ft := { x.ft with voidVec := true }, vd := { x.vd with reasons := 20 :: x.vd.reasons } })
          let f := ((tr.orElse (fun _ => ex)).getD (0, 0)).1
          .next (s.xferVoid f 20)
        else .next ((s.placeVec pk slots ex).placeVec pk slots tr)

/-! ### Tree cores (R109 to R116, R123) -/

def tcoreKey (f t : Nat) : Nat := f * 64 + t
def State.tcore (s : State) (f t : Nat) : TCore := s.tree.cores.get (tcoreKey f t)
def State.setTcore (s : State) (f t : Nat) (x : TCore) : State := { s with tree := { s.tree with cores := s.tree.cores.set (tcoreKey f t) x } }
/-- n bytes of a tree core's memory. -/
def State.treeRead (s : State) (f t a n : Nat) : Nat := Mem.readLE s.tree.mem (tcoreKey f t * 65536 + a) n
/-- Issue entry c of a bank (R114, R115). -/
def State.issueWord (s : State) (f t : Nat) (bank : Bool) (c : Nat) : Nat := s.treeRead f t (0xF000 + b2n bank * 0x800 + 4 * c) 4
/-- The comparison of a node (R111). -/
def goesLeft (level : Nat) (slot thresh : Int) : Bool := if level = 1 then decide (slot ≤ thresh) else decide (slot < thresh)
/-- Walk d levels from entry i: the entry reached. `node` gives threshold and feature of a node. -/
def treeWalk (level : Nat) (node : Nat → Int × Nat) (slot : Nat → Int) : Nat → Nat → Nat
  | 0, i => i
  | d + 1, i =>
    let (th, f) := node i
    treeWalk level node slot d (if goesLeft level (slot f) th then 2 * i + 1 else 2 * i + 2)
/-- The leaf value a tree of depth d at byte address a gives for a vector (R109 to R111). -/
def State.treeEval (s : State) (f t a d : Nat) (slots : List Word) : Int :=
  let node (i : Nat) : Int × Nat :=
    let w := s.treeRead f t (a + 8 * i) 8
    (toSigned 32 w, bits w 32 9)
  let e := treeWalk s.sec.level node (fun j => (slots.getD j 0).toInt) d 0
  toSigned 32 (s.treeRead f t (a + 8 * (2 ^ d - 1) + 4 * (e - (2 ^ d - 1))) 4)
/-- Valid issue entries of a TREE_PROG content: cycle and word. -/
def issues (bs : List Byte) : List (Nat × Nat) := ((List.range 512).map (fun c => (c, leAt bs (4 * c) 4))).filter (fun e => bits e.2 29 1 == 1)
/-- Key of a tree core among the cores of flow and host-job work (R211); an array core's is its number. -/
def treeKey (f t : Nat) : Nat := 65536 + tcoreKey f t
/-- A version runs on tree core t of flock f (R211). -/
def Version.onTree (v : Version) (f t : Nat) : Bool := v.treeOn || v.runs.contains (treeKey f t)
/-- A section is an issue program, or with 3 a tree image, of tree core t of flock f. -/
def Sect.forTree (x : Sect) (type f t : Nat) : Bool := x.type == type && x.onFlock f && x.phys == t
/-- The issue word of a cycle: that of the one program that issues in it. -/
def mergeIssues (ls : List (List (Nat × Nat))) (c : Nat) : Nat := ((ls.flatten).find? (fun e => e.1 == c)).map (·.2) |>.getD 0
/-- The beat program of a tree core: the issue entries of some versions on it (R114, R117). -/
def treeProgram (f t : Nat) (vs : List Version) (content : Version → Sect → List Byte) : List Byte :=
  let ls := vs.flatMap (fun v => (v.sects.filter (fun e => e.forTree 4 f t)).map (fun e => issues (content v e)))
  (List.range 512).flatMap (fun c => leBytes 4 (mergeIssues ls c))
/-- The versions that run on a tree core. -/
def State.onCore (s : State) (f t : Nat) : List Version := (s.versions.map (·.2)).filter (fun v => v.onTree f t)
/-- Write a bank of a tree core's beat programs (R114). -/
def State.putTreeBank (s : State) (f t : Nat) (bank : Bool) (bs : List Byte) : State :=
  { s with tree := { s.tree with mem := Mem.writeN s.tree.mem (tcoreKey f t * 65536 + 0xF000 + b2n bank * 0x800) bs } }
/-- A version has work in progress: an invocation, or a job (R122, R212). -/
def State.working? (s : State) (c : Nat) (v : Version) : Bool :=
  (v.kind == 2 && s.flow.invs.any (fun i => i.ctx == c && i.mv == v.ver)) || (v.kind == 6 && ((s.host.jobs.get c).map (fun j => j.mv == v.ver)).getD false)
/-- The plan of flow or host-job work that runs on a tree core places its vector in an empty slot (R122): what it holds the manual leaves to the plan. -/
def State.planVec (s : State) (f t slot : Nat) : State :=
  let v := s.vslot f (s.tree.readBank.get f) slot
  if v.pkt.isSome ∨ v.job ∨ ¬ s.versions.any (fun e => e.2.runs.contains (treeKey f t) && s.working? e.1 e.2) then s
  else
    let ws : List Word := (List.range 512).map (fun i => (Config.free (s.free + i)).setWidth 32)
    { s with free := s.free + 512, tree := { s.tree with vbuf := s.tree.vbuf.set (vslotKey f (s.tree.readBank.get f) slot) { job := true, slots := ws } } }
/-- The gather cell that a core's issue of cycle 511 increments when it retires (R119, R122, R223): that of in-line work, or of flow and host-job work,
where the active program issues for a version with a gather list. -/
def State.gatherPost (s : State) (f t : Nat) : Option Nat :=
  if (List.range 512).all (fun c => bits (s.issueWord f t (s.tcore f t).bank c) 29 1 == 0) then none
  else if (s.onCore f t).any (fun v => v.kind == 1 && v.sects.any (fun e => e.forTree 4 f t)) then some 255
  else if (s.onCore f t).any (fun v => (v.kind == 2 || v.kind == 6) && v.sects.any (fun e => e.forTree 4 f t)) then some 254
  else none
/-- A parity failure of a tree core (R123): this beat's contribution and the reload beat's are void; a second failure in an epoch withdraws the
core and its flock. -/
def State.treeParity (s : State) (f t : Nat) : State :=
  let x := s.tcore f t
  let n := s.time.beat
  let s := (s.setTcore f t { x with voidBeats := x.voidBeats ++ [n, n + 1], faults := x.faults + 1, reload := true }).bump Reg.FLOCK.TREE_PARITY f
  let s := s.fault { cls := 1, scope := 4, reason := 21, action := if x.faults = 0 then 1 else 3, block := Blk.FLOCK, inst := f, unit := t, count := s.rd Reg.FLOCK.TREE_PARITY f }
  if x.faults = 0 then s
  else
    let s := s.wr Reg.FLOCK.TREE_WD (setBits (s.rd Reg.FLOCK.TREE_WD f) t 1 1) f
    ({ s with flt := { s.flt with dmc := s.flt.dmc.set (4 * 65536 + f * 64 + t) .withdrawn } }).later (.flockWd f true)
/-- TREE_ISSUE (R111, R115 to R117): issue entry `cycle` against the bank being read. -/
def execTreeIssue (f : Flock) (core : Fin 64) (cycle : Fin 512) (bad : Bool) (s : State) : Host.Outcome State Fault Refusal :=
  if ¬ s.flockIssues f.val then .next s
  else
    let k := s.tcore f.val core.val
    let w := s.issueWord f.val core.val k.bank cycle.val
    let s := if bits w 29 1 = 1 then s.planVec f.val core.val (bits w 14 6) else s
    let v := s.vslot f.val (s.tree.readBank.get f.val) (bits w 14 6)
    let live := bits w 29 1 == 1 && (v.pkt.isSome || v.job)
    let val := if live then some (s.treeEval f.val core.val (bits w 0 10 * 64) (bits w 10 4 + 1) v.slots) else none
    let post := if cycle.val = 511 then s.gatherPost f.val core.val else none
    let s := s.setTcore f.val core.val { k with pend := k.pend ++ [{ part := bits w 20 9, val := val, cycle := cycle.val, beat := s.time.beat, post := post }] }
    let s := if live then s.bump Reg.FLOCK.TREE_EVALS f.val else s.bump Reg.FLOCK.TREE_BUBBLES f.val
    .next (if bad then s.treeParity f.val core.val else s)
/-- A sync cell's key in the table of cells (R221). -/
def cellKey (f cell : Nat) : Nat := f * 256 + cell
/-- PARTIAL_ADD (R116, R119): the oldest add of the core retires; that of issue cycle 511 increments the gather cell of its program's work. -/
def execPartialAdd (f : Flock) (core : Fin 64) (s : State) : Host.Outcome State Fault Refusal :=
  let k := s.tcore f.val core.val
  match k.pend with
  | [] => .next s
  | p :: rest =>
    let s := s.setTcore f.val core.val { k with pend := rest }
    let key := (tcoreKey f.val core.val * 2 + p.beat % 2) * 512 + p.part
    let s := match p.val with
      | some v => { s with tree := { s.tree with part := s.tree.part.mod key (fun a => toSigned 64 (ofSigned 64 (a + v))) } }
      | none => s
    match p.post with
    | some c => .next { s with arr := { s.arr with cells := s.arr.cells.mod (cellKey f.val c) (fun n => Nat.min (n + 1) 65535) } }
    | none => .next s
/-- TREE_RELOAD (R123, R202): after a failure the tree region and the active beat program take the content of the context images again. -/
def execTreeReload (f : Flock) (core : Fin 64) (s : State) : Host.Outcome State Fault Refusal :=
  let k := s.tcore f.val core.val
  if ¬ k.reload then .next s
  else
    let vs := s.onCore f.val core.val
    let s := s.setTcore f.val core.val { k with reload := false }
    let trees := vs.flatMap (fun v => (v.sects.filter (fun e => e.forTree 3 f.val core.val)).map (fun e => (e.dest, s.imgBytes v e)))
    let mem := trees.foldl (fun m e => Mem.writeN m (tcoreKey f.val core.val * 65536 + e.1) e.2) s.tree.mem
    let s := { s with tree := { s.tree with mem := mem } }
    .next (s.putTreeBank f.val core.val k.bank (treeProgram f.val core.val vs s.imgBytes))

/-! ### Gathering (R118 to R122) -/

/-- The in-line versions whose gather lists run on flock f. -/
def State.gathering (s : State) (f : Nat) : List (Nat × Version) :=
  s.versions.filter (fun v => v.2.kind == 1 && v.2.gatherOn && v.2.flocks.contains f && v.2.sects.any (fun t => t.type == 5 && t.onFlock f))
/-- The flow and host-job versions whose gather lists run on flock f (R122). -/
def State.jobGathering (s : State) (f : Nat) : List (Nat × Version) :=
  s.versions.filter (fun v => (v.2.kind == 2 || v.2.kind == 6) && v.2.runs.any (fun k => decide (65536 ≤ k) && decide ((k - 65536) / 64 = f)) && v.2.sects.any (fun t => t.type == 5 && t.onFlock f))
/-- A version's gather list, contributor count and output descriptors for flock f (R119 to R121). -/
def Version.gatherOf (v : Version) (f : Nat) : List Word × Nat × List DWord :=
  match v.sects.find? (fun t => t.type == 5 && t.onFlock f) with
  | some t => Config.gatherSection t.body
  | none => ([], 0, [])
/-- The tree cores of a version on flock f. -/
def Version.treeCores (v : Version) (f : Nat) : List Nat :=
  (List.range 64).filter (fun c => v.sects.any (fun t => t.type == 4 && t.onFlock f && t.phys == c))
/-- Partial sum of a core for the set issued in the last beat. -/
def State.partial_ (s : State) (f core reg : Nat) : Int := s.tree.part.get ((tcoreKey f core * 2 + (s.time.beat + 1) % 2) * 512 + reg)
/-- A core's contribution to the set issued in the last beat is void. -/
def State.coreVoid (s : State) (f core : Nat) : Bool := (s.tcore f core).voidBeats.contains (s.time.beat - 1)
/-- The outputs of one version's gather list on flock f (R120). -/
def State.gatherVersion (s : State) (f : Nat) (short : Bool) (cv : Nat × Version) : List GatherOut :=
  let (words, _, descs) := cv.2.gatherOf f
  let cores := cv.2.treeCores f
  let void : Option Nat := if short then some 16 else if cores.any (s.coreVoid f) then some 21 else none
  words.filterMap (fun w =>
    let w := w.toNat
    let vec := bits w 9 6
    match s.tree.gset.get (f * 64 + vec) with
    | none => none
    | some pk =>
      if bits w 20 1 = 0 then none
      else
        let out := bits w 16 4
        let desc := descs.getD out 0
        some { pkt := some pk, vec := vec, ctx := cv.1, ctxsel := bits w 15 1 == 1, output := out, desc := desc, void := void,
               sum := toSigned 32 desc.toNat + (cores.map (fun c => s.partial_ f c (bits w 0 9))).sum })
/-- The key of a core is one that an invocation holds now (R211, R212). -/
def State.invHolds (s : State) (i : Inv) (key : Nat) : Bool :=
  match s.version? i.ctx i.mv with
  | some v => ((v.sects.find? (fun t => t.type == 13)).map (fun t => Config.invHolds t.body (s.time.beat - i.startBeat) key)).getD true
  | none => true
/-- Work of a flow, aggregate or host-job context is void (R17, R160): the invocations for which `p` holds, or the run, end as lost; a job ends with a
STATUS (R289). -/
def State.workLost (s : State) (ctx kind status : Nat) (p : Inv → Bool) : State :=
  match kind with
  | 2 => s.setFlow (fun w => { w with invs := w.invs.map (fun i => if i.ctx = ctx ∧ p i then { i with lost := true } else i) })
  | 3 => { s with ctxs := s.ctxs.mod ctx (fun x => { x with runVoid := x.runVoid || x.running }) }
  | 6 => { s with host := { s.host with jobs := s.host.jobs.mod ctx (Option.map (fun j => if j.status = 0 then { j with status := status } else j)) } }
  | _ => s
/-- Contributors that some versions' plans declare on a flock (R119). -/
def contributors (f : Nat) (vs : List (Nat × Version)) : Nat := (vs.map (fun v => (v.2.gatherOf f).2.1)).sum
/-- The gather of flow and host-job work (R122): a full one is marked, a short one ends the work without a result. -/
def State.gatherJobs (s : State) (f : Nat) : State :=
  let js := s.jobGathering f
  let full := decide (contributors f js = s.arr.cells.get (cellKey f 254))
  let s := { s with arr := { s.arr with cells := s.arr.cells.set (cellKey f 254) 0 } }
  if full then { s with tree := { s.tree with jobFull := s.tree.jobFull.set f (s.time.beat + 1) } }
  else js.foldl (fun t v => t.workLost v.1 v.2.kind 2 (fun i => i.mv == v.2.ver)) s
/-- GATHER (R119, R120, R122): the gather cells are compared with the plans' contributor counts, and reset. -/
def execGather (f : Flock) (s : State) : Host.Outcome State Fault Refusal :=
  let vs := s.gathering f.val
  let short := decide (contributors f.val vs ≠ s.arr.cells.get (cellKey f.val 255))
  let outs := vs.flatMap (s.gatherVersion f.val short)
  let s := { s with tree := { s.tree with outs := s.tree.outs.set f.val outs } }
  let s := { s with arr := { s.arr with cells := s.arr.cells.set (cellKey f.val 255) 0 } }.gatherJobs f.val
  if vs.isEmpty then .next s
  else if short then .next ((s.bump Reg.FLOCK.GATHER_VOID f.val).event Blk.FLOCK f.val 0)
  else .next (s.bump Reg.FLOCK.GATHER_DONE f.val)

/-- S / 2^k, to nearest with ties to even (R121). -/
def roundShift (v : Int) (k : Nat) : Int :=
  let q := v / (2 ^ k : Nat)
  let r := (v % (2 ^ k : Nat)) * 2
  if r < (2 ^ k : Nat) ∨ (r = (2 ^ k : Nat) ∧ q % 2 = 0) then q else q + 1
/-- Bits of FORMAT (R121): int32, int16, int8. -/
def formatBits (f : Nat) : Nat := if f = 1 then 16 else if f = 2 then 8 else 32
/-- A sum held to FORMAT. -/
def saturate (w : Nat) (v : Int) : Int := clampInt (-(2 ^ (w - 1) : Nat)) ((2 ^ (w - 1) : Nat) - 1) v
/-- The conversion of an output descriptor: the output and whether it saturated. -/
def convertOut (desc : DWord) (sum : Int) : Int × Bool :=
  let r := roundShift sum (bits desc.toNat 32 6)
  let v := saturate (formatBits (bits desc.toNat 38 2)) r
  (v, decide (v ≠ r))
/-- A void output of a context keeps its lowest reason. -/
def CtxRes.voided (r : CtxRes) (why : Nat) : CtxRes := { r with void := some (Nat.min why (r.void.getD why)) }
/-- Change the result of a context of a packet, where the packet's rule names that context on that side and runs it. -/
def State.modRes (s : State) (pk : PktId) (ctx : Nat) (ctxsel : Bool) (g : CtxRes → CtxRes) : State :=
  s.modPkt pk (fun x =>
    if ctxsel then (if Rule.enB x.lk.act ∧ Rule.ctxB x.lk.act = ctx ∧ ¬ x.ft.mismB then { x with vd := { x.vd with b := g x.vd.b } } else x)
    else if Rule.enA x.lk.act ∧ Rule.ctxA x.lk.act = ctx then { x with vd := { x.vd with a := g x.vd.a } } else x)
/-- OUTPUT_CONVERSION (R121, R299): the n-th gathered sum of the flock is converted and returned. -/
def execOutputConversion (f : Flock) (n : Fin 512) (voidXfer : Bool) (s : State) : Host.Outcome State Fault Refusal :=
  match (s.tree.outs.get f.val)[n.val]? with
  | none => .next s
  | some g =>
    match g.pkt with
    | none => .next s
    | some pk =>
      match g.void with
      | some why => .next (s.modRes pk g.ctx g.ctxsel (·.voided why))
      | none =>
        if voidXfer then .next ((s.modRes pk g.ctx g.ctxsel (·.voided 21)).xferVoid f.val 21)
        else
          let (v, sat) := convertOut g.desc g.sum
          let s := if sat then s.bump Reg.FLOCK.OUT_SAT f.val else s
          .next (s.modRes pk g.ctx g.ctxsel (fun r => { r with tree := r.tree.put g.output v }))
/-- The version of a context whose trees the gathers of flow and host-job work read: the one that runs on its tree cores. -/
def Ctx.treeVersion (x : Ctx) : Option Version := ([x.active, x.other].reduceOption).find? (fun v => v.runs.any (fun k => decide (65536 ≤ k)))
/-- DIE_GATHER (R122): once every flock's gather of this beat was full, the flock sums of a flow or host-job ensemble are added in ascending flock
number, and converted once. A core whose contribution is void ends the work it serves without a result (R17). -/
def execDieGather (c : CtxNum) (output : Fin 16) (s : State) : Host.Outcome State Fault Refusal :=
  let x := s.ctxs.get c.val
  match x.treeVersion with
  | none => .next s
  | some v =>
    let lists := v.flocks.filter (fun f => v.sects.any (fun t => t.type == 5 && t.onFlock f))
    let bad := v.flocks.flatMap (fun f => ((v.treeCores f).filter (s.coreVoid f)).map (treeKey f))
    let entries (f : Nat) : List Word := (v.gatherOf f).1.filter (fun w => bits w.toNat 20 1 == 1 && bits w.toNat 16 4 == output.val)
    let flockSum (f : Nat) : Int := ((entries f).map (fun w => ((v.treeCores f).map (fun t => s.partial_ f t (bits w.toNat 0 9))).sum)).sum
    let desc := (v.flocks.findSome? (fun f => (v.gatherOf f).2.2[output.val]?)).getD 0
    if lists.any (fun f => decide (s.tree.jobFull.get f ≠ s.time.beat + 1)) then .next s
    else if bad ≠ [] then .next (s.workLost c.val v.kind 2 (fun i => bad.any (s.invHolds i)))
    else
      let (r, sat) := convertOut desc (toSigned 32 desc.toNat + (v.flocks.map flockSum).sum)
      let s := if sat then s.bump Reg.FLOCK.OUT_SAT (v.flocks.headD 0) else s
      .next { s with tree := { s.tree with dieSums := s.tree.dieSums.set (c.val * 16 + output.val) r } }

/-! ### Withdrawing tree cores (R124) -/

/-- TREE_WD_REQ: accepted only while no loaded plan uses the core; it acts at the next plan load. -/
def execTreeWdReq (src : Source) (f : Flock) (core : Fin 64) (s : State) : Host.Outcome State Fault Refusal :=
  s.basicCmd src (fun s =>
    if s.treeUsed f.val core.val then s.auditCmd src Reg.FLOCK.TREE_WD_REQ f.val core.val 1
    else
      let x := s.flocks.get f.val
      { s with flocks := s.flocks.set f.val { x with wdTree := x.wdTree ||| (1#64 <<< core.val) } }.auditCmd src Reg.FLOCK.TREE_WD_REQ f.val core.val 0)
/-- TREE_OFF: the marked cores are withdrawn at the next beat boundary, whatever plan uses them. -/
def execTreeOff (src : Source) (f : Flock) (mask : DWord) (s : State) : Host.Outcome State Fault Refusal :=
  s.expertCmd src Reg.FLOCK.TREE_OFF f.val mask.toNat (fun s => (s.wr Reg.FLOCK.TREE_OFF mask.toNat f.val).later (.treeOff f.val mask))
/-- Tree cores leave service; a flock whose plan uses one is withdrawn (R123). -/
def State.treeOut (s : State) (f : Nat) (mask : Nat) (dev : Bool) : State :=
  let s1 := s.wr Reg.FLOCK.TREE_WD (s.rd Reg.FLOCK.TREE_WD f ||| mask) f
  let ts := (List.range 64).filter (fun t => bits mask t 1 == 1)
  let s2 := { s1 with flt := { s1.flt with dmc := ts.foldl (fun d t => d.set (4 * 65536 + f * 64 + t) .withdrawn) s1.flt.dmc } }
  if ts.any (s.treeUsed f) then s2.flockOut f dev else s2

end Sys2Proof.Machine
end

