-- ==== Sys2Proof/Machine/Dyads.lean ====
section
/-! DEFINITION. Exact dyadic numbers, the number formats of the arrays (R147 to R149, R155, R156), conversion (R174, R175), activations and
segment tables (R171 to R173). -/

namespace Sys2Proof.Machine

/-! ### Dyadic rationals -/

/-- The number m × 2^e. -/
structure Dy where
  m : Int
  e : Int
  deriving DecidableEq, Repr, Inhabited

/-- 2^n as an integer, for n at or above 0. -/
def pow2 (n : Int) : Int := (2 ^ n.toNat : Nat)
def Dy.ofInt (i : Int) : Dy := ⟨i, 0⟩
/-- x × 2^k. -/
def Dy.shift (x : Dy) (k : Int) : Dy := ⟨x.m, x.e + k⟩
def Dy.mul (x y : Dy) : Dy := ⟨x.m * y.m, x.e + y.e⟩
def Dy.add (x y : Dy) : Dy :=
  let e := min x.e y.e
  ⟨x.m * pow2 (x.e - e) + y.m * pow2 (y.e - e), e⟩
def Dy.neg (x : Dy) : Dy := ⟨-x.m, x.e⟩
def Dy.sub (x y : Dy) : Dy := x.add y.neg
/-- x < y. -/
def Dy.lt (x y : Dy) : Bool := decide ((x.sub y).m < 0)
/-- Floor of x. -/
def Dy.floor (x : Dy) : Int := if x.e < 0 then x.m / pow2 (-x.e) else x.m * pow2 x.e
/-- x rounded to an integer, to nearest with ties to even. -/
def Dy.round (x : Dy) : Int := if x.e < 0 then roundShift x.m (-x.e).toNat else x.m * pow2 x.e
/-- Floor of log2 |x|, for x other than 0. -/
def Dy.log2 (x : Dy) : Int := (x.m.natAbs.log2 : Int) + x.e

/-! ### Element formats (R147, R148) -/

/-- The formats an array element, a source element or an output element can have. -/
inductive EFmt where
  | int (bits : Nat)
  | e4m3 | e5m2 | e2m1 | mxint8
  deriving DecidableEq, Repr, Inhabited

/-- Half bytes of an element. -/
def EFmt.nibs : EFmt → Nat
  | .int b => b / 4
  | .e2m1 => 1
  | _ => 2
/-- Mantissa bits. -/
def EFmt.mant : EFmt → Nat
  | .e4m3 => 3
  | .e5m2 => 2
  | .e2m1 => 1
  | _ => 0
/-- log2 of the unit u: the smallest non-zero magnitude (R147, R162). -/
def EFmt.unit : EFmt → Int
  | .int _ => 0
  | .e4m3 => -9
  | .e5m2 => -16
  | .e2m1 => -1
  | .mxint8 => -6
/-- Largest finite magnitude of a floating format, in units. -/
def EFmt.maxUnits : EFmt → Nat
  | .e4m3 => 448 * 2 ^ 9
  | .e5m2 => 57344 * 2 ^ 16
  | .e2m1 => 12
  | _ => 0
/-- Bits of an element. -/
def EFmt.bits (f : EFmt) : Nat := f.nibs * 4
/-- A code with a special encoding (R147). -/
def EFmt.special (f : EFmt) (c : Nat) : Bool :=
  match f with
  | .e4m3 => decide (c % 128 = 0x7F)
  | .e5m2 => decide (0x7C ≤ c % 128)
  | _ => false
/-- The value of a code in units (R148). -/
def EFmt.value (f : EFmt) (c : Nat) : Int :=
  match f with
  | .int b => toSigned b c
  | .mxint8 => toSigned 8 c
  | f =>
    let k := f.bits
    let e := Machine.bits c f.mant (k - 1 - f.mant)
    let m := Machine.bits c 0 f.mant
    let v : Nat := if e = 0 then m else (2 ^ f.mant + m) * 2 ^ (e - 1)
    if Machine.bits c (k - 1) 1 = 1 then -(v : Int) else v

/-- Element format of FMT (R140). -/
def fmtElem (fmt : Nat) : EFmt :=
  match fmt with
  | 0 => .int 8
  | 1 => .int 4
  | 2 => .e4m3
  | 3 => .e5m2
  | 4 => .e2m1
  | 5 => .e4m3
  | 6 => .e5m2
  | 7 => .mxint8
  | _ => .e2m1
/-- The MX formats. -/
def fmtMx (fmt : Nat) : Bool := decide (5 ≤ fmt)
/-- Formats that take two reduction indices a cycle (R125). -/
def fmtPairs (fmt : Nat) : Bool := fmt == 1 || fmt == 4 || fmt == 8
/-- Width of an accumulator lane (R155). -/
def laneBits (fmt : Nat) : Nat := if fmt = 1 then 32 else if fmt = 0 ∨ fmt = 4 then 64 else 128
/-- log2 of the LSB weight W (R156). -/
def laneUnit (fmt scaleLo : Nat) : Int := 2 * (fmtElem fmt).unit + (if fmtMx fmt then (scaleLo : Int) - 127 else 0)
/-- Element format of OFMT and IFMT codes (R174, R181). -/
def ofmtElem (o : Nat) : EFmt :=
  match o with
  | 1 => .int 4
  | 2 => .int 8
  | 3 => .int 16
  | 4 => .int 32
  | 5 => .e4m3
  | 6 => .e5m2
  | 7 => .e2m1
  | 8 => .e4m3
  | 9 => .e5m2
  | 10 => .mxint8
  | _ => .e2m1
def ofmtMx (o : Nat) : Bool := decide (8 ≤ o)

/-! ### Conversion (R174, R175) -/

/-- The code of a magnitude in units of a floating format. -/
def EFmt.encode (f : EFmt) (u : Nat) : Nat :=
  if u < 2 ^ f.mant then u
  else
    let l := u.log2
    (l - f.mant + 1) * 2 ^ f.mant + (u / 2 ^ (l - f.mant) - 2 ^ f.mant)
/-- CONV: the code, its value in units, and whether the element saturates. -/
def EFmt.conv (f : EFmt) (y : Dy) : Nat × Int × Bool :=
  match f with
  | .int b =>
    let r := y.round
    let v := saturate b r
    (ofSigned b v, v, decide (v ≠ r))
  | .mxint8 =>
    let r := (y.shift 6).round
    let v := saturate 8 r
    (ofSigned 8 v, v, decide (v ≠ r))
  | f =>
    if y.m = 0 then (0, 0, false)
    else
      let q := max (y.log2 - f.mant) f.unit
      let n := (Dy.round ⟨y.m.natAbs, y.e - q⟩).toNat
      let r := n * 2 ^ (q - f.unit).toNat
      let v := Nat.min r f.maxUnits
      let neg := decide (y.m < 0) && decide (v ≠ 0)
      (f.encode v + (if neg then 2 ^ (f.bits - 1) else 0), if neg then -(v : Int) else v, decide (v ≠ r))
/-- EMAX of an MX element format (R175). -/
def EFmt.emax : EFmt → Int
  | .e4m3 => 8
  | .e5m2 => 15
  | .e2m1 => 2
  | _ => 0
/-- The scale code of an MX block (R175). -/
def mxCode (f : EFmt) (zcode : Nat) (vs : List Dy) : Nat :=
  let live := vs.filter (fun v => decide (v.m ≠ 0))
  match live with
  | [] => zcode
  | v :: r => (clampInt 0 254 ((r.foldl (fun a x => max a x.log2) v.log2) - f.emax + 127)).toNat
/-- An MX block converted: its scale code, the element codes and how many saturated. -/
def mxBlock (f : EFmt) (zcode : Nat) (vs : List Dy) : Nat × List Nat × Nat :=
  let c := mxCode f zcode vs
  let rs := vs.map (fun v => f.conv (v.shift (127 - (c : Int))))
  (c, rs.map (·.1), (rs.filter (·.2.2)).length)

/-! ### Built-in segment tables (R173)

The tables hold real functions rounded to integers. The functions are evaluated in fixed point with 256 fraction bits, far past the 64 bits
that a rounding needs. -/

/-- One, in fixed point. -/
def fx : Int := (2 ^ 256 : Nat)
def fxMul (a b : Int) : Int := a * b / fx
def fxDiv (a b : Int) : Int := a * fx / b
/-- Sum of a Taylor series of e^x: the terms from the k-th on. -/
def fxExpGo (x : Int) : Nat → Nat → Int → Int
  | 0, _, _ => 0
  | n + 1, k, t => t + fxExpGo x n (k + 1) (fxMul t x / ((k : Int) + 1))
def fxSquares : Nat → Int → Int
  | 0, x => x
  | n + 1, x => fxSquares n (fxMul x x)
/-- e^x for |x| at most 32. -/
def fxExp (x : Int) : Int := if x < 0 then fxDiv fx (fxSquares 8 (fxExpGo (-x / 256) 48 0 fx)) else fxSquares 8 (fxExpGo (x / 256) 48 0 fx)
/-- Integer square root, one result bit a step. -/
def isqrtGo : Nat → Nat → Nat → Nat
  | 0, _, r => r
  | b + 1, v, r => isqrtGo b v (if (r + 2 ^ b) * (r + 2 ^ b) ≤ v then r + 2 ^ b else r)
def isqrt (v : Nat) : Nat := isqrtGo (v.log2 / 2 + 1) v 0
/-- arctan (1 / n). -/
def fxAtanInvGo (n2 : Int) : Nat → Int → Int → Int
  | 0, _, _ => 0
  | c + 1, k, t => t / k - fxAtanInvGo n2 c (k + 2) (t / n2)
def fxAtanInv (n : Int) : Int := fxAtanInvGo (n * n) 120 1 (fx / n)
def fxPi : Int := 4 * (4 * fxAtanInv 5 - fxAtanInv 239)
/-- Sum over n from k on of (−1)^n x^(2n+1) / (n! 2^n (2n + 1)). -/
def fxPhiGo (x2 : Int) : Nat → Nat → Int → Int
  | 0, _, _ => 0
  | c + 1, k, t => t / (2 * (k : Int) + 1) - fxPhiGo x2 c (k + 1) (fxMul t x2 / (2 * ((k : Int) + 1)))
/-- Φ: the standard normal distribution function, for |x| at most 4. -/
def fxPhi (x : Int) : Int := fx / 2 + fxDiv (fxPhiGo (fxMul x x) 160 0 x) (isqrt (2 * fxPi * fx).toNat)
/-- F of R173. -/
def builtinF (tbl : Nat) (x : Int) : Int :=
  match tbl with
  | 1 => fxMul x (fxPhi x)
  | 2 => fxDiv x (fx + fxExp (-x))
  | 3 => fxDiv fx (fx + fxExp (-x))
  | 4 => let e := fxExp (2 * x); fxDiv (e - fx) (e + fx)
  | _ => fxExp x
/-- A fixed-point value × 2^k to the nearest integer. -/
def fxRound (v : Int) (k : Int) : Int := Dy.round ⟨v, k - 256⟩

/-- A segment table (R172). -/
structure SegTable where
  x0 : Int
  g : Int
  vf : Int
  sf : Int
  low : Nat
  high : Nat
  c0 : Nat → Int
  c1 : Nat → Int

/-- The built-in tables (R173). -/
def builtinTable (tbl : Nat) : SegTable :=
  let (x0, g, vf, low, high) : Int × Int × Int × Nat × Nat :=
    match tbl with
    | 1 => (-128, -5, 24, 3, 2)
    | 2 => (-128, -3, 24, 3, 2)
    | 3 => (-128, -3, 24, 0, 0)
    | 4 => (-128, -4, 24, 0, 0)
    | _ => (-192, -3, 18, 3, 0)
  let at_ (i : Nat) : Int := builtinF tbl ((x0 + i) * fx / pow2 (-g))
  { x0 := x0, g := g, vf := vf, sf := vf, low := low, high := high,
    c0 := fun i => fxRound (at_ i) vf,
    c1 := fun i => fxRound (at_ (i + 1) - at_ i) (vf - g) }
/-- A user table from its bytes. -/
def userTable (bs : List Byte) : SegTable :=
  let h := leAt bs 0 16
  { x0 := toSigned 32 h, g := toSigned 8 (bits h 32 8), vf := bits h 40 6, sf := bits h 48 6, low := bits h 56 2, high := bits h 58 2,
    c0 := fun i => toSigned 32 (leAt bs (16 + 8 * i) 4), c1 := fun i => toSigned 32 (leAt bs (20 + 8 * i) 4) }
/-- Segment i's line at y. -/
def SegTable.line (t : SegTable) (i : Nat) (y : Dy) : Dy :=
  (Dy.mk (t.c0 i) (-t.vf)).add ((Dy.mk (t.c1 i) (-t.sf)).mul (y.sub ⟨t.x0 + i, t.g⟩))
/-- The value a table gives (R172). -/
def SegTable.eval (t : SegTable) (y : Dy) : Dy :=
  let n := (y.shift (-t.g)).floor - t.x0
  if n < 0 then
    match t.low with
    | 0 => ⟨t.c0 0, -t.vf⟩
    | 1 => t.line 0 y
    | 2 => y
    | _ => ⟨0, 0⟩
  else if 255 < n then
    match t.high with
    | 0 => t.line 255 ⟨t.x0 + 256, t.g⟩
    | 1 => t.line 255 y
    | 2 => y
    | _ => ⟨0, 0⟩
  else t.line n.toNat y

/-- The activation fields of a descriptor (R170, R181). -/
structure ActF where
  act : Nat
  leak : Nat
  clo : Dy
  chi : Dy
/-- ACT (R171); `seg` gives the selected segment table. -/
def activate (a : ActF) (seg : Dy → Dy) (y : Dy) : Dy :=
  match a.act with
  | 1 => if y.m < 0 then ⟨0, 0⟩ else y
  | 2 =>
    let z := if y.lt a.clo then a.clo else y
    if a.chi.lt z then a.chi else z
  | 3 => if y.m < 0 then y.shift (-(a.leak : Int)) else y
  | 4 => seg y
  | _ => y

/-! ### Rounding of fractions and roots (R164, R178) -/

/-- num / den × 2^-q, to nearest with ties to even. -/
def ratRound (num den : Nat) (q : Int) : Nat :=
  let n := if q < 0 then num * 2 ^ (-q).toNat else num
  let d := if q < 0 then den else den * 2 ^ q.toNat
  let f := n / d
  let r := 2 * (n % d)
  if r < d ∨ (r = d ∧ f % 2 = 0) then f else f + 1
/-- The fp32 nearest to ±num / den, ties to even; subnormal results are kept. -/
def fp32Round (neg : Bool) (num den : Nat) : Nat :=
  if num = 0 then 0
  else
    let l0 := (num.log2 : Int) - den.log2
    -- num / den lies in [2^(l0 − 1), 2^(l0 + 1))
    let l := if (if l0 < 0 then decide (num * 2 ^ (-l0).toNat < den) else decide (num < den * 2 ^ l0.toNat)) then l0 - 1 else l0
    let q := max (l - 23) (-149)
    let n := ratRound num den q
    -- n < 2^23 only at q = −149: a subnormal
    let code := if n < 2 ^ 23 then n else (q + 150).toNat * 2 ^ 23 + (n - 2 ^ 23)
    code + (if neg then 2 ^ 31 else 0)
/-- 1 / √d rounded to nearest, ties to even, to a 32-bit significand, for d above 0 (R178). -/
def rsqrt (d : Dy) : Dy :=
  let h := -((d.log2 + 2) / 2)
  let e := h - 31
  -- m is the greatest integer with m² × d at most 2^(−2e); both sides scaled to integers
  let k := -2 * e - d.e
  let m := isqrt ((pow2 k).toNat / d.m.toNat)
  -- (2m + 1)² × d compared with 2^(2 − 2e)
  let lhs := (2 * m + 1) * (2 * m + 1) * d.m.toNat
  let rhs := (pow2 (k + 2)).toNat
  ⟨if lhs < rhs ∨ (lhs = rhs ∧ m % 2 = 1) then (m : Int) + 1 else m, e⟩
/-- The value of an fp32 code that is finite. -/
def fp32Value (c : Nat) : Dy :=
  let e := bits c 23 8
  let m := bits c 0 23
  let v : Dy := if e = 0 then ⟨m, -149⟩ else ⟨(2 ^ 23 + m : Nat), (e : Int) - 150⟩
  if bits c 31 1 = 1 then v.neg else v

end Sys2Proof.Machine
end

