-- ==== Sys2Proof/Machine/Misses.lean ====
section
/-! DEFINITION. Counting a missed beat (R219), the disabled-unit map (R27, R28), the cores and arrays of a flock: geometry, core memory and
programs, and the work a core serves (R126 to R131, R135, R160, R166, R210). -/

namespace Sys2Proof

/-- A bulk core. -/
def ACoreId.bulk (c : ACoreId) : Bool := c.cls == .bulk
/-- Number of a core among all: (flock × 2 + class) × 16 + core. -/
def ACoreId.num (c : ACoreId) : Nat := (c.flock.val * 2 + (if c.bulk then 1 else 0)) * 16 + c.core.val
/-- The core exists: 16 express and 8 bulk cores in a flock (R18). -/
def ACoreId.exists_ (c : ACoreId) : Bool := !c.bulk || decide (c.core.val < 8)

end Sys2Proof

namespace Sys2Proof.Machine

open Sys2Proof

/-! ### Misses (R219) -/

/-- An island has missed a beat: its counter and its count since the epoch boundary rise, and a fault record is written (R294). -/
def State.countMiss (s : State) (i : Island) : State :=
  let n := s.time.misses.get i.num + 1
  let s := { s with time := { s.time with misses := s.time.misses.set i.num n, missAt := s.time.missAt.set i.num s.time.beat } }
  let rec_ (block inst scope : Nat) (f : Field) (s : State) : State :=
    (s.bump f inst).fault { cls := 5, scope := scope, reason := 16, block := block, inst := inst, count := s.rd f inst + 1 }
  match i with
  | .lane l => rec_ Blk.LANE l.val 5 Reg.LANE.MISSED s
  | .replica r => rec_ Blk.TCAM r.val 5 Reg.TCAM.MISSED s
  | .portCore => rec_ Blk.TIME 0 6 Reg.TIME.PC_MISSED s
  | .flock f => rec_ Blk.FLOCK f.val 4 Reg.FLOCK.MISSED (s.wr Reg.FLOCK.MISS_EPOCH (Nat.min n 7) f.val)
  | .hbmc m => rec_ Blk.HBMC m.val 6 Reg.HBMC.MISSED s
  | .hlink p => rec_ Blk.HLINK p.val 7 Reg.HLINK.MISSED s

/-! ### The disabled-unit map (R26 to R28) -/

/-- The device's grade code (R26): 1 SKX-7240, 2 SKX-7232, 3 SKX-7224. -/
def gradeCode : Nat := if Config.gradeRaw.toNat = 0 then 1 else Config.gradeRaw.toNat
/-- Working arrays of each class, and tree cores, that a grade has at least in every flock. -/
def gradeMin (g : Nat) : Nat × Nat := if g = 1 then (32, 64) else if g = 2 then (28, 60) else (24, 56)
/-- Bits set in the low n bits. -/
def ones (n v : Nat) : Nat := ((List.range n).filter (fun i => bits v i 1 == 1)).length
/-- The map of a flock: express arrays, bulk arrays, tree cores, 1 for a working unit. -/
def unitMapOf (f : Nat) : Nat × Nat × Nat :=
  let (e, b, t) := Config.unitMap f
  let held (n least v : Nat) : Nat := if least ≤ ones n v then v else 2 ^ n - 1
  let (a, c) := gradeMin gradeCode
  (held 32 a e.toNat, held 32 a b.toNat, held 64 c t.toNat)
/-- Bit of logical array n of a class in the flock's array map: the n-th working array that is not withdrawn (R28). -/
def State.physArray (s : State) (f : Nat) (bulk : Bool) (n : Nat) : Option Nat :=
  let m := if bulk then (unitMapOf f).2.1 else (unitMapOf f).1
  let lo := if bulk then 32 else 0
  (((List.range 32).filter (fun i => bits m i 1 == 1 && bits (s.rd Reg.FLOCK.ARRAY_WD f) (lo + i) 1 == 0))[n]?).map (· + lo)
/-- Physical tree core of a logical one (R28). -/
def State.physTree (s : State) (f n : Nat) : Option Nat :=
  ((List.range 64).filter (fun i => bits (unitMapOf f).2.2 i 1 == 1 && bits (s.rd Reg.FLOCK.TREE_WD f) i 1 == 0))[n]?
/-- Arrays of a core. -/
def ACoreId.arrays (c : ACoreId) : Nat := if c.bulk then 4 else 2

/-! ### Geometry (R126, R143) -/

structure Geo where
  rows : Nat
  cols : Nat
  held : Nat
  w : Nat
  slab : Nat
  drain : Nat
  deriving DecidableEq, Repr, Inhabited

def geoOf (bulk ws : Bool) : Geo :=
  if ¬ bulk then { rows := 16, cols := 16, held := 512, w := 16, slab := 0, drain := 16 }
  else if ws then { rows := 4, cols := 1024, held := 1024, w := 32, slab := 256, drain := 32 }
  else { rows := 32, cols := 32, held := 1024, w := 32, slab := 32, drain := 32 }

def State.acore (s : State) (c : ACoreId) : ACore := s.arr.cores.get c.num
def State.setAcore (s : State) (c : ACoreId) (k : ACore) : State := { s with arr := { s.arr with cores := s.arr.cores.set c.num k } }
def State.modAcore (s : State) (c : ACoreId) (g : ACore → ACore) : State := s.setAcore c (g (s.acore c))
/-- Geometry of a core in its present form. -/
def State.geo (s : State) (c : ACoreId) : Geo := geoOf c.bulk (s.acore c).ws
/-- The arrays an AMASK names; the wide-shallow form is one array, kept as array 0. -/
def State.named (s : State) (c : ACoreId) (amask : Nat) : List Nat :=
  if c.bulk && (s.acore c).ws then [0] else (List.range (ACoreId.arrays c)).filter (fun a => bits amask a 1 == 1)

/-! ### Core memory (R129, R135) -/

/-- First address of a core's memory in the table of core memories. -/
def ACoreId.base (c : ACoreId) : Nat := c.num * 2 ^ 19
/-- nibs half bytes at a half-byte address of a core's memory. -/
def State.coreNib (s : State) (c : ACoreId) (a nibs : Nat) : Nat :=
  if nibs = 1 then bits (Mem.read s.arr.mem (ACoreId.base c + a / 2)).toNat (4 * (a % 2)) 4 else Mem.readLE s.arr.mem (ACoreId.base c + a / 2) (nibs / 2)
/-- Bytes of a core's memory. -/
def State.coreBytes (s : State) (c : ACoreId) (a n : Nat) : List Byte := Mem.readN s.arr.mem (ACoreId.base c + a) n
def State.coreLE (s : State) (c : ACoreId) (a n : Nat) : Nat := leNat (s.coreBytes c a n)
/-- Store bytes in a core's memory. -/
def State.coreStore (s : State) (c : ACoreId) (a : Nat) (bs : List Byte) : State :=
  { s with arr := { s.arr with mem := Mem.writeN s.arr.mem (ACoreId.base c + a) bs } }
/-- Store nibs half bytes at a half-byte address. -/
def State.coreStoreNib (s : State) (c : ACoreId) (a nibs v : Nat) : State :=
  if nibs = 1 then s.coreStore c (a / 2) [BitVec.ofNat 8 (setBits (Mem.read s.arr.mem (ACoreId.base c + a / 2)).toNat (4 * (a % 2)) 4 v)]
  else s.coreStore c (a / 2) (leBytes (nibs / 2) v)
/-- Index of element (i, k) of a matrix of m rows in tile layout with block width w (R135). -/
def tileIdx (m w i k : Nat) : Nat := k / w * (m * w) + i * w + k % w
/-- Element (i, k) of an m × n matrix at a byte address; `xp`: the matrix stands there transposed. -/
def State.matElem (s : State) (c : ACoreId) (addr m n w nibs : Nat) (xp : Bool) (i k : Nat) : Nat :=
  s.coreNib c (2 * addr + (if xp then tileIdx n w k i else tileIdx m w i k) * nibs) nibs
/-- Bytes of the element area of an m × n matrix, up to the next 64-byte line (R152). -/
def areaBytes (m n w nibs : Nat) : Nat := ceilDiv (m * ceilDiv n w * w * nibs) 128 * 64

/-- Byte address of the active program of a core. -/
def ACoreId.progBase (c : ACoreId) (bank : Bool) : Nat := if c.bulk then 0x7C000 + b2n bank * 0x2000 else 0x1E000 + b2n bank * 0x1000
/-- Instructions a program bank holds. -/
def ACoreId.progLen (c : ACoreId) : Nat := if c.bulk then 512 else 256
/-- The instruction word at an index of the active program (R131). -/
def State.instrWord (s : State) (c : ACoreId) (pc : Nat) : Nat := s.coreLE c (ACoreId.progBase c (s.acore c).progBank + 16 * pc) 16
/-- First byte of a descriptor and table bank of a core (R166). -/
def ACoreId.descBase (c : ACoreId) (bank : Bool) : Nat := (c.num * 2 + b2n bank) * 2 ^ 15
/-- Descriptor e of a bank. -/
def State.descAt (s : State) (c : ACoreId) (bank : Bool) (e : Nat) : Nat := Mem.readLE s.arr.desc (ACoreId.descBase c bank + 32 * e) 32
/-- Descriptor e of the active bank. -/
def State.descOf (s : State) (c : ACoreId) (e : Nat) : Nat := s.descAt c (s.acore c).progBank e
/-- The segment table TBL names: 1 to 5 built in, 8 to 11 of a bank. -/
def State.segTable (s : State) (c : ACoreId) (bank : Bool) (tbl : Nat) : SegTable :=
  if tbl < 8 then builtinTable tbl else userTable (Mem.readN s.arr.desc (ACoreId.descBase c bank + 8192 + 2064 * (tbl - 8)) 2064)

/-! ### Instruction words (R131 to R134) -/

/-- Bits [95:0] of the word of a LOADH. -/
def LoadhF.word (f : LoadhF) : Nat :=
  1 + 2 ^ 6 * f.amask.toNat + 2 ^ 10 * b2n f.bank + 2 ^ 11 * f.fmt.val + 2 ^ 15 * b2n f.xp + 2 ^ 16 * b2n f.src + 2 ^ 17 * f.pro.val + 2 ^ 25 * f.klen.val + 2 ^ 36 * f.saddr.val
/-- Bits [95:0] of the word of a STREAM. -/
def StreamF.word (f : StreamF) : Nat :=
  2 + 2 ^ 6 * f.amask.toNat + 2 ^ 10 * b2n f.bank + 2 ^ 11 * f.lane.val + 2 ^ 13 * b2n f.acc + 2 ^ 14 * b2n f.final + 2 ^ 15 * b2n f.stat + 2 ^ 16 * f.fmt.val
    + 2 ^ 20 * f.epi.val + 2 ^ 28 * b2n f.xpw + 2 ^ 29 * f.k.val + 2 ^ 40 * f.nm1.val + 2 ^ 56 * f.waddr.val + 2 ^ 69 * f.daddr.val + 2 ^ 82 * f.scaleLo.val
    + 2 ^ 90 * f.scaleSpan.val + 2 ^ 95 * b2n f.bc
/-- Bits [95:0] of the word of a FORM. -/
def formWord (ws : Bool) : Nat := 3 + 2 ^ 6 * b2n ws
/-- Bits [95:0] of the word of a RET. -/
def RetF.word (f : RetF) : Nat :=
  6 + 2 ^ 6 * f.saddr.val + 2 ^ 19 * f.vec0.val + 2 ^ 25 * b2n f.ctxsel + 2 ^ 26 * f.noutM1.val + 2 ^ 30 * f.format.val + 2 ^ 32 * f.amask.val
/-- Bits [95:0] of the word of a COPY. -/
def CopyF.word (f : CopyF) : Nat := 7 + 2 ^ 6 * b2n f.dir + 2 ^ 7 * f.caddr.val + 2 ^ 20 * f.lenM1.val + 2 ^ 36 * f.haddr.val
/-- Bits [95:0] of the word of a SYNCP. -/
def syncpWord (cell : Fin 256) (spanM1 : Fin 16) : Nat := 8 + 2 ^ 6 * cell.val + 2 ^ 14 * spanM1.val
/-- Bits [95:0] of the word of a SYNCW. -/
def syncwWord (cell : Fin 256) (count : BitVec 16) : Nat := 9 + 2 ^ 6 * cell.val + 2 ^ 14 * count.toNat
/-- Bits [95:0] of the word of an END. -/
def endWord : Nat := 0x3F

/-! ### The work a core serves (R160, R210) -/

/-- o of a program (R210): it serves in beat b + o the set with boundary b. -/
def Sect.setBeat (t : Sect) : Nat := 3 + t.flags % 2
/-- UNIT of a core's sections (R205). -/
def ACoreId.unit (c : ACoreId) : Nat := c.core.val + (if c.bulk then 256 else 0)
/-- The version whose program a core runs, its context and its program section. -/
def State.coreSect (s : State) (c : ACoreId) : Option (Nat × Version × Sect) :=
  s.versions.findSome? (fun v =>
    if v.2.flocks.contains c.flock.val then
      (v.2.sects.find? (fun t => t.type == (if c.bulk then 7 else 6) && t.onFlock c.flock.val && t.unit == ACoreId.unit c &&
        (if c.bulk then v.2.runs.contains c.num else if Sect.setBeat t = 4 then v.2.express4On else v.2.expressOn))).map (fun t => (v.1, v.2, t))
    else none)
/-- Bit in the array map of array a of a core, as the load of the version it runs bound it (R28). -/
def State.arrayBit (s : State) (c : ACoreId) (a : Nat) : Option Nat := (s.coreSect c).bind (fun v => v.2.2.arrays[a]?)
/-- The packet in a vector slot of the set a program with that o serves now. -/
def State.setPkt (s : State) (f o slot : Nat) : Option PktId :=
  if 64 ≤ slot then none else if o = 3 then (s.vslot f (s.tree.readBank.get f) slot).pkt else s.tree.gset.get (f * 64 + slot)
/-- Work of a core is void (R17, R145, R160): in-line, every packet of the set gets NONE from the context; the flow invocations that hold the core, or an
aggregate run, are lost; a job ends with a STATUS (R289). A shadow context's statistics are voided where they are taken (R216). -/
def State.voidWork (s : State) (c : ACoreId) (reason status : Nat) : State :=
  match s.coreSect c with
  | none => s
  | some (ctx, v, t) =>
    match v.kind with
    | 1 => (List.range 64).foldl (fun s i =>
        match s.setPkt c.flock.val (Sect.setBeat t) i with
        | some pk => (s.modRes pk ctx false (·.voided reason)).modRes pk ctx true (·.voided reason)
        | none => s) s
    | k => s.workLost ctx k status (fun i => i.mv == v.ver && s.invHolds i c.num)
/-- Work of the context a core runs is void, so that its COPYs to HBM are suppressed (R160). -/
def State.workVoid (s : State) (c : ACoreId) : Bool :=
  match s.coreSect c with
  | none => false
  | some (ctx, v, _) =>
    match v.kind with
    | 2 => s.flow.invs.any (fun i => i.ctx == ctx && i.lost && s.invHolds i c.num)
    | 3 => (s.ctxs.get ctx).runVoid
    | 6 => ((s.host.jobs.get ctx).map (fun j => j.status != 0)).getD false
    | _ => false

end Sys2Proof.Machine
end

