-- ==== Sys2Proof/Machine/Watching.lean ====
section
/-! DEFINITION. Operator counters (R357, R358), and watched tensors with their records (R362 to R365). -/

namespace Sys2Proof.Machine

open Sys2Proof

/-! ### Operator counters (R357, R358) -/

/-- Cycles before x in which an index of the core's last STREAM entered. -/
def OpCnt.entered (o : OpCnt) (x : Nat) : Nat :=
  if x ≤ o.wStart ∨ o.wPeriod = 0 then 0
  else
    let d := x - o.wStart
    if o.wChunks ≤ d / o.wPeriod then o.wChunks * o.wCycles else d / o.wPeriod * o.wCycles + Nat.min (d % o.wPeriod) o.wCycles
/-- An index enters in cycle x. -/
def OpCnt.enters (o : OpCnt) (x : Nat) : Bool := decide (o.entered x < o.entered (x + 1))
/-- CYCLES, ENTER, IDLE and SAT as a capture in cycle x returns them. -/
def OpCnt.counts (o : OpCnt) (x : Nat) : List Nat :=
  let enter := o.entered x - o.entered o.start
  [x - o.start, enter, x - o.start - enter - o.issues, o.sat]
/-- An instruction issues in cycle x; `ids` are its layer and operator identifiers where it becomes current (R358). -/
def OpCnt.issue (o : OpCnt) (x : Nat) (ids : Option (Nat × Nat)) : OpCnt :=
  let one := if o.enters x then 0 else 1
  match ids with
  | some (l, p) => { o with start := x, issues := one, sat := 0, layer := l, oper := p }
  | none => { o with issues := o.issues + one }
/-- The core-cycles spent waiting under the issue rule since they were last counted (R137). -/
def State.countWait (s : State) (c : ACoreId) : State :=
  match (s.acore c).waitAt with
  | none => s
  | some t => s.bump Reg.FLOCK.ISSUE_WAIT c.flock.val 0 0 (s.islNow c.flock.val - t)
/-- The instruction at the core's pc does not issue in this cycle (R137): the core waits. -/
def State.issueWait (s : State) (c : ACoreId) : State := (s.countWait c).modAcore c (fun k => { k with waitAt := some (s.islNow c.flock.val) })
/-- The instruction at the core's pc issues and takes n issue cycles: the pc goes on, and the operator counters take it. -/
def State.issueInstr (s : State) (c : ACoreId) (counted : Bool) (n : Nat := 1) : State :=
  let w := s.instrWord c (s.acore c).pc
  let t := s.islNow c.flock.val
  (s.countWait c).modAcore c (fun k =>
    let opc := k.opc.issue t (if counted then some (bits w 96 16, bits w 112 16) else none)
    { k with pc := k.pc + 1, next := t + n, waitAt := none, opc := opc })
/-- The core can issue an instruction now (R130, R131, R199): it runs the program of this beat, it waits at no SYNCW and for no issue cycle, its flock
issues, and the instruction is the one its active program bank holds at its pc. -/
def State.coreIssues (s : State) (c : ACoreId) (word : Nat) : Bool :=
  let k := s.acore c
  ACoreId.exists_ c && s.flockIssues c.flock.val && k.running && k.wait.isNone && decide (k.startBeat = s.time.beat) &&
    decide (k.next ≤ s.islNow c.flock.val) && decide (s.instrWord c k.pc % 2 ^ 96 = word)

/-! ### What lands and takes effect with time (R137, R138, R222) -/

/-- A broadcast write in its place: by island cycle, then by the number of the core that drains, so that of two writes of one cycle the
higher-numbered core's is applied last (R137). -/
def insertBc (b : BcWrite) : List BcWrite → List BcWrite
  | [] => [b]
  | x :: xs => if b.due < x.due ∨ (b.due = x.due ∧ b.src < x.src) then b :: x :: xs else x :: insertBc b xs
/-- Store nibs half bytes in the memory of a core named by its number. -/
def Mem.nibs (m : Mem) (core at_ nibs v : Nat) : Mem :=
  let a := core * 2 ^ 19 + at_ / 2
  if nibs = 1 then Mem.writeN m a [BitVec.ofNat 8 (setBits (Mem.read m a).toNat (4 * (at_ % 2)) 4 v)] else Mem.writeN m a (leBytes (nibs / 2) v)
/-- The core is one of flock f. -/
def BcWrite.onFlock (b : BcWrite) (f : Nat) : Bool := b.dst / 32 == f
/-- A sync cell of flock f (R221). -/
def State.cell (s : State) (f cell : Nat) : Nat := s.arr.cells.get (cellKey f cell)
/-- Set a cell; 248 to 255 are the device's own and never change here (R223). -/
def State.setCell (s : State) (f cell v : Nat) : State :=
  if 248 ≤ cell then s else { s with arr := { s.arr with cells := s.arr.cells.set (cellKey f cell) v } }
/-- The flock misses the present beat for the overflow of a cell (R225): it counts once a beat, and the effects of a miss follow at the boundary. -/
def State.ovfMiss (s : State) (f : Flock) : State :=
  if (s.flocks.get f.val).ovf = s.time.beat + 1 then s
  else ({ s with flocks := s.flocks.mod f.val (fun x => { x with ovf := s.time.beat + 1 }) }.countMiss (.flock f)).later (.syncMiss f.val)
/-- One cell takes a post; a cell at 65,535 stays there, and the flock has missed the beat (R225). -/
def State.postCell (s : State) (f : Flock) (cell : Nat) : State :=
  if s.cell f.val cell = 65535 then (s.bump Reg.FLOCK.SYNC_OVF f.val).ovfMiss f else s.setCell f.val cell (s.cell f.val cell + 1)
/-- The cells a post names take it. -/
def State.postSpan (s : State) (f : Flock) (cell span : Nat) : State := (List.range span).foldl (fun t i => t.postCell f (cell + i)) s
/-- What a test or a read in the present island cycle finds done: posts that took effect by the end of the cycle before (R222), and broadcast writes of
earlier cycles (R137). -/
def State.land (s : State) (f : Flock) : State :=
  let n := s.islNow f.val
  if s.herd.cut then s
  else
    let ps := s.arr.posts.get f.val
    let done := s.arr.bcast.filter (fun b => b.onFlock f.val && decide (b.due < n))
    let m := (done.foldl (fun l b => insertBc b l) []).foldl (fun m b => Mem.nibs m b.dst b.at_ b.nibs b.val) s.arr.mem
    let left := s.arr.bcast.filter (fun b => !(b.onFlock f.val && decide (b.due < n)))
    let s := { s with arr := { s.arr with mem := m, bcast := left, posts := s.arr.posts.set f.val (ps.filter (fun p => decide (n ≤ p.2.2 + 3))) } }
    (ps.filter (fun p => decide (p.2.2 + 3 < n))).foldl (fun t p => t.postSpan f p.1 p.2.1) s

/-! ### Watches (R362 to R364) -/

/-- An observation item is produced (R365): it waits for its write, or for a queue that is off counts as produced and overwritten at once. -/
def State.observe (s : State) (it : ObsItem) : State :=
  if it.addr = 0 ∧ s.hqOff it.q then s.hqProduce it.q it.bytes
  else { s with obs := { s.obs with new := s.obs.new ++ [it] } }

/-- One bit of the CRC-64 of ECMA-182 (R363). -/
def crc64Bit (c : Nat) : Nat := let d := c * 2; if 2 ^ 64 ≤ d then (d - 2 ^ 64) ^^^ 0x42F0E1EBA9EA3693 else d
/-- CRC-64 of ECMA-182: initial value 0, no reflection, no final XOR. -/
def crc64 (bs : List Byte) : Nat :=
  bs.foldl (fun c b => (List.range 8).foldl (fun c _ => crc64Bit c) (c ^^^ (b.toNat * 2 ^ 56))) 0

/-- The watch in force on an instruction that issued in a beat, with its number. -/
def State.watchOn (s : State) (c : ACoreId) (instr beat : Nat) : Option (Nat × Watch) :=
  match s.coreSect c with
  | none => none
  | some (ctx, v, _) =>
    s.watches.findSome? (fun e =>
      match e.2 with
      | some w => if w.core = c.num ∧ w.instr = instr ∧ w.ctx = ctx ∧ w.mv = v.ver ∧ beat % 2 ^ w.period = 0 ∧ w.armedAt ≤ beat then some (e.1, w) else none
      | none => none)
/-- The beat a record carries (R364): the boundary of the set of in-line work, else the present beat. -/
def State.recordBeat (s : State) (c : ACoreId) (beat : Nat) : Nat :=
  match s.coreSect c with
  | some (_, v, t) => if v.kind = 1 then beat - Sect.setBeat t else s.time.beat
  | none => s.time.beat

/-- What a watch record says beside its statistics. -/
structure WatchRec where
  layer : Nat
  oper : Nat
  ofmt : Nat
  unit : Int
  void : Bool
  bc : Bool
  ebytes : Nat
  tail : List Byte

/-- The 128 bytes of a tensor record (R364). -/
def watchBytes (beat n : Nat) (w : Watch) (c : ACoreId) (r : WatchRec) (es : List (Nat × Int)) : List Byte :=
  let st := bits w.mode 0 1 == 1
  let vs := es.map (·.2)
  let lo := vs.foldl min (vs.headD 0)
  let hi := vs.foldl max (vs.headD 0)
  let dg := if bits w.mode 1 1 = 1 then crc64 (es.flatMap (fun e => leBytes r.ebytes e.1) ++ r.tail) else 0
  leBytes 8 beat ++ leBytes 1 2 ++ leBytes 1 w.mode ++ leBytes 2 n ++ leBytes 2 w.ctx ++ leBytes 2 w.mv ++ leBytes 2 r.layer ++ leBytes 2 r.oper
    ++ leBytes 2 c.flock.val ++ leBytes 1 ((if c.bulk then 1 else 0) + 2 * c.core.val) ++ leBytes 1 r.ofmt
    ++ leBytes 16 (if st then ofSigned 128 vs.sum else 0) ++ leBytes 8 (if st then ofSigned 64 lo else 0) ++ leBytes 8 (if st then ofSigned 64 hi else 0)
    ++ leBytes 8 es.length ++ leBytes 8 dg ++ leBytes 1 (ofSigned 8 r.unit) ++ leBytes 1 (b2n r.void + 2 * b2n r.bc) ++ zeros 54
/-- Produce the record of one execution. -/
def State.watchRecord (s : State) (n : Nat) (w : Watch) (c : ACoreId) (beat : Nat) (r : WatchRec) (es : List (Nat × Int)) : State :=
  (s.bump Reg.SAMP.W_RECORDS 0 0 n).observe { q := 5, bytes := watchBytes (s.recordBeat c beat) n w c r es, rank := 2 ^ 20 + n }

end Sys2Proof.Machine
end

