-- ==== Sys2Proof/Machine/Held.lean ====
section
/-! DEFINITION. Held operands: LOADH, prologues and held writes (R132, R141, R142, R149 to R154, R177 to R181). -/

namespace Sys2Proof.Machine

open Sys2Proof

/-! ### What is still to be written (R137) -/

/-- Key of an array's state, of a held bank, of an accumulator lane. -/
def arrKey (c : ACoreId) (a : Nat) : Nat := c.num * 4 + a
def bankKey (c : ACoreId) (a : Nat) (bank : Bool) : Nat := arrKey c a * 2 + b2n bank
def laneKey (c : ACoreId) (a l : Nat) : Nat := arrKey c a * 4 + l
/-- Half bytes of an element a STREAM drains. -/
def State.outNibs (s : State) (c : ACoreId) (bank : Bool) (f : StreamF) : Nat :=
  if f.epi.val = 0 then laneBits f.fmt.val / 4 else (ofmtElem (bits (s.descAt c bank f.epi.val) 2 4)).nibs
/-- Bytes of the element area of a STREAM's output (R135, R152). -/
def State.outArea (s : State) (c : ACoreId) (bank : Bool) (f : StreamF) (named : Nat) : Nat :=
  areaBytes ((s.geo c).rows * named) (f.nm1.val + 1) (s.geo c).w (s.outNibs c bank f)
/-- What a tile's drain is still to write, as byte ranges of core memory: its rows, block by block, and under an MX format its scale codes and tags
(R135, R152, R176). -/
def State.tileRanges (s : State) (c : ACoreId) (d : DrainTile) : List (Nat × Nat) :=
  let w := (s.geo c).w
  let nibs := s.outNibs c d.bank d.f
  let m := d.rows * d.named
  let base := 64 * d.f.daddr.val
  let col := d.chunk * d.cols
  let n := Nat.min d.cols (d.f.nm1.val + 1 - col)
  let nc := ceilDiv (d.f.nm1.val + 1) 32 * 32
  let sc := base + s.outArea c d.bank d.f d.named
  let tg := sc + ceilDiv (8 * d.named * (nc / 4)) 64 * 64
  (List.range d.rows).flatMap (fun i => (List.range (ceilDiv n w)).map (fun b =>
    (base + ((col / w + b) * (m * w) + (d.pos * d.rows + i) * w) * nibs / 2, w * nibs / 2))) ++
  (if d.f.epi.val ≠ 0 ∧ ofmtMx (bits (s.descAt c d.bank d.f.epi.val) 2 4) then
    [(sc + 8 * (d.pos * (nc / 4) + col / 4), 2 * n), (tg + (d.pos * nc + col) / 2, ceilDiv n 2)] else [])
/-- The records a STREAM with STAT writes for one array (R163). -/
def State.statRange (s : State) (c : ACoreId) (bank : Bool) (f : StreamF) (pos named : Nat) : Nat × Nat :=
  (64 * f.daddr.val + s.outArea c bank f named + 128 * (pos * (s.geo c).rows), 128 * (s.geo c).rows)
/-- Two byte ranges, a start and a length each, share a 64-byte line. -/
def sameLine (a n b k : Nat) : Bool := decide (0 < n) && decide (0 < k) && decide (a / 64 ≤ (b + k - 1) / 64) && decide (b / 64 ≤ (a + n - 1) / 64)
/-- An earlier drain, record or COPY of the core is still to write a line of the range (R137). -/
def State.toWrite (s : State) (c : ACoreId) (lo len : Nat) : Bool :=
  let hit (r : Nat × Nat) : Bool := sameLine r.1 r.2 lo len
  s.herd.remote.any (fun r => r.core == c && !r.write && hit (r.addr, r.len)) ||
  (s.acore c).copies.any (fun r => decide (s.islNow c.flock.val ≤ r.2.2.1) && hit (r.1, r.2.1)) ||
  (List.range 4).any (fun a =>
    (s.arr.drains.get (arrKey c a)).any (fun d => (s.tileRanges c d).any hit || (d.f.stat && hit (s.statRange c d.bank d.f d.pos d.named))) ||
    (let u := s.arr.stats.get (arrKey c a); u.ready && hit (s.statRange c u.bank u.f u.pos u.named)))

/-! ### Sources (R132, R135, R152, R177, R178) -/

/-- The fields of a prologue descriptor (R181). -/
structure ProF where
  ifmt : Nat
  norm : Bool
  fp32 : Bool
  raddr : Nat
  sexp : Nat
  bexp : Nat
  a : ActF
  tbl : Nat
  tag0 : Nat
  iexp : Nat
  naddr : Nat
  nsets : Nat
  nstride : Nat
  eps : Nat
  zcode : Nat

/-- The activation fields shared by epilogue and prologue descriptors (R170, R181). -/
def actFields (d : Nat) : ActF :=
  let bexp : Int := bits d 28 7
  { act := bits d 35 4, leak := bits d 43 5, clo := ⟨toSigned 32 (bits d 128 32), -bexp⟩, chi := ⟨toSigned 32 (bits d 160 32), -bexp⟩ }
def proFields (d : Nat) : ProF :=
  { ifmt := bits d 2 4, norm := bits d 6 1 == 1, fp32 := bits d 7 1 == 1, raddr := bits d 8 13, sexp := bits d 21 7, bexp := bits d 28 7,
    a := actFields d, tbl := bits d 39 4, tag0 := bits d 48 4, iexp := bits d 52 6, naddr := bits d 64 13, nsets := bits d 77 3 + 1,
    nstride := bits d 80 13, eps := bits d 96 7, zcode := bits d 104 8 }

/-- Entry j of a rescale table (R169): m_j and b_j. -/
def State.rescale (s : State) (c : ACoreId) (raddr j : Nat) : Int × Int :=
  (toSigned 32 (s.coreLE c (64 * raddr + 8 * j) 4), toSigned 32 (s.coreLE c (64 * raddr + 8 * j + 4) 4))

/-- One held row's source: an element of the source, and whether it has a special encoding. -/
def State.heldSource (s : State) (c : ACoreId) (f : LoadhF) (p : ProF) (a pos m i k : Nat) : Dy × Bool :=
  if f.src then
    let slot := f.saddr.val % 64 + 16 * a + i
    let v := s.vslot c.flock.val (s.tree.readBank.get c.flock.val) slot
    (⟨if slot < 64 then (v.slots.getD (8 * (f.saddr.val / 64) + k) 0).toInt else 0, -(p.iexp : Int)⟩, false)
  else
    let e := ofmtElem p.ifmt
    let code := s.matElem c (64 * f.saddr.val) m f.klen.val (s.geo c).w e.nibs f.xp (pos * (s.geo c).rows + i) k
    if e.special code then (⟨0, 0⟩, true) else (⟨e.value code, if 5 ≤ p.ifmt then e.unit else e.unit - (p.iexp : Int)⟩, false)
/-- The vector slot of a held row of a LOADH with SRC 1 is empty. -/
def State.emptyRow (s : State) (c : ACoreId) (f : LoadhF) (a i : Nat) : Bool :=
  let slot := f.saddr.val % 64 + 16 * a + i
  f.src && (decide (64 ≤ slot) || (s.vslot c.flock.val (s.tree.readBank.get c.flock.val) slot).pkt.isNone)

/-- Statistics of a row for normalisation (R178): (C, S, r) with z = (C × x − S) × r × …; none under the flat rule. -/
def State.normOf (s : State) (c : ACoreId) (p : ProF) (row : Nat) : Option (Dy × Dy × Dy) :=
  let eps : Dy := if p.eps = 127 then ⟨0, 0⟩ else ⟨1, -(p.eps : Int)⟩
  let rec_ (n : Nat) : List Byte := s.coreBytes c (64 * p.naddr + 64 * p.nstride * n + 128 * row) 128
  if p.fp32 then
    let r := rec_ 0
    let d := (fp32Value (leAt r 56 4)).add eps
    if d.m ≤ 0 ∨ leAt r 48 4 = 0 then none else some (⟨1, 0⟩, fp32Value (leAt r 52 4), rsqrt d)
  else
    let rs := (List.range p.nsets).map rec_
    let u (r : List Byte) : Int := toSigned 8 (leAt r 60 1)
    let sm := rs.foldl (fun t r => t.add ⟨toSigned 192 (leAt r 0 24), u r⟩) (Dy.ofInt 0)
    let q := rs.foldl (fun t r => t.add ⟨toSigned 192 (leAt r 24 24), 2 * u r⟩) (Dy.ofInt 0)
    let n : Dy := ⟨((rs.map (fun r => leAt r 48 4)).sum : Nat), 0⟩
    let d := ((n.mul q).sub (sm.mul sm)).add ((n.mul n).mul eps)
    if d.m ≤ 0 ∨ n.m = 0 then none else some (n, sm, rsqrt d)

/-- A part of a held row: its element codes, MX scales and tags, saturations, and the marks of R178 and R179. -/
structure RowPart where
  elems : List Nat := []
  scales : List (Nat × Nat × Nat) := []
  sat : Nat := 0
  marked : Bool := false
  flat : Bool := false
  deriving DecidableEq, Repr, Inhabited

/-- Elements lo … hi − 1 of held row i of array a without a prologue (R132, R152). -/
def State.rawPart (s : State) (c : ACoreId) (f : LoadhF) (pos m i lo hi : Nat) : RowPart :=
  let g := s.geo c
  let fmt := f.fmt.val
  let e := fmtElem fmt
  let row := pos * g.rows + i
  let es := (List.range (hi - lo)).map (fun k => s.matElem c (64 * f.saddr.val) m f.klen.val g.w e.nibs f.xp row (lo + k))
  if fmtMx fmt then
    let blocks := f.klen.val / 32
    let groups := ceilDiv blocks 4
    let sc := 64 * f.saddr.val + areaBytes m f.klen.val g.w e.nibs
    let tg := sc + ceilDiv (8 * m * groups) 64 * 64
    let one (q : Nat) : Nat × Nat × Nat :=
      let w := s.coreLE c (sc + 8 * (row * groups + q / 4)) 8
      (bits w (8 * (q % 4)) 8, s.coreNib c (2 * tg + row * blocks + q) 1, bits w 32 4)
    { elems := es, scales := (List.range ((hi - lo) / 32)).map (fun q => one (lo / 32 + q)) }
  else { elems := es }
/-- Elements lo … hi − 1 of held row i through its prologue (R177 to R179). -/
def State.proPart (s : State) (c : ACoreId) (bank : Bool) (f : LoadhF) (a pos m i lo hi : Nat) : RowPart :=
  let p := proFields (s.descAt c bank f.pro.val)
  let e := fmtElem f.fmt.val
  let empty := s.emptyRow c f a i
  let st := if p.norm then s.normOf c p (pos * (s.geo c).rows + i) else none
  let seg (y : Dy) : Dy := (s.segTable c bank p.tbl).eval y
  let src (k : Nat) : Dy × Bool := s.heldSource c f p a pos m i k
  let z (k : Nat) : Dy :=
    if empty ∨ (src k).2 then ⟨0, 0⟩
    else
      let (mul, bk) := s.rescale c p.raddr k
      let b : Dy := ⟨bk, -(p.bexp : Int)⟩
      let x := (src k).1
      let y : Dy :=
        if p.norm then
          match st with
          | some (n, sm, r) => (((((n.mul x).sub sm).mul r).mul ⟨mul, -(p.sexp : Int)⟩)).add b
          | none => b
        else (x.mul ⟨mul, -(p.sexp : Int)⟩).add b
      activate p.a seg y
  let ks := (List.range (hi - lo)).map (lo + ·)
  let marked := !empty && ks.any (fun k => (src k).2)
  let flat := p.norm && st.isNone
  if fmtMx f.fmt.val then
    let bs := (List.range ((hi - lo) / 32)).map (fun q => (lo / 32 + q, mxBlock e p.zcode ((List.range 32).map (fun k => z (lo + 32 * q + k)))))
    let tag (q : Nat) : Nat := (p.tag0 + q) % 16
    { elems := bs.flatMap (fun b => b.2.2.1), scales := bs.map (fun b => (b.2.1, tag b.1, tag b.1)), sat := (bs.map (fun b => b.2.2.2)).sum,
      marked := marked, flat := flat }
  else
    let rs := ks.map (fun k => e.conv (z k))
    { elems := rs.map (·.1), sat := (rs.filter (·.2.2)).length, marked := marked, flat := flat }
def State.heldPart (s : State) (c : ACoreId) (p : HeldPend) (m i lo hi : Nat) : RowPart :=
  if p.f.pro.val = 0 then s.rawPart c p.f p.pos m i lo hi else s.proPart c p.dbank p.f p.a p.pos m i lo hi

/-! ### LOADH and its writes -/

/-- Add a part to a held row; a row's flat and special counts are taken once (R178, R179). -/
def State.putPart (s : State) (c : ACoreId) (a : Nat) (f : LoadhF) (i : Nat) (first : Bool) (r : RowPart) : State :=
  let fl := c.flock.val
  let b := s.arr.banks.get (bankKey c a f.bank)
  let row := b.rows.get i
  let row' : HeldRow := { elems := row.elems ++ r.elems, scales := row.scales ++ r.scales, marked := row.marked || r.marked }
  let s := { s with arr := { s.arr with banks := s.arr.banks.set (bankKey c a f.bank) { b with rows := b.rows.set i row' } } }
  let s := if r.sat = 0 then s else s.bump Reg.FLOCK.PRO_SAT fl 0 0 r.sat
  let s := if r.flat ∧ first then s.bump Reg.FLOCK.NORM_FLAT fl else s
  if r.marked ∧ ¬ row.marked then s.bump Reg.FLOCK.PRO_SPECIAL fl else s
/-- Row or slab n of a held load is written (R141, R142). -/
def State.heldStep (s : State) (c : ACoreId) (p : HeldPend) (n named : Nat) : State :=
  let g := s.geo c
  let m := g.rows * named
  let kl := p.f.klen.val
  let s1 :=
    if c.bulk then
      let lo := n * g.slab
      let hi := Nat.min kl (lo + g.slab)
      (List.range g.rows).foldl (fun t i => t.putPart c p.a p.f i (n == 0) (s.heldPart c p m i lo hi)) s
    else (s.putPart c p.a p.f n true (s.heldPart c p m n 0 kl)).bump Reg.FLOCK.HELD_STALL c.flock.val
  { s1 with arr := { s1.arr with banks := s1.arr.banks.mod (bankKey c p.a p.f.bank) (fun b => { b with written := n + 1 }) } }
/-- The held loads of a core without those of one array and bank that are complete. -/
def State.setHeld (s : State) (c : ACoreId) (held : List HeldPend) : State := s.modAcore c (fun k => { k with held := held })
/-- LOADH (R132, R137, R141, R142, R180): it issues once no drain or COPY of the core is still to write its source lines and the transposing port is
free; its writes begin once no index of an issued STREAM reads the bank any more. -/
def execLoadh (c : ACoreId) (f : LoadhF) (s : State) : Host.Outcome State Fault Refusal :=
  let s := s.land c.flock
  if ¬ s.coreIssues c (LoadhF.word f) then .next s
  else
    let g := s.geo c
    let k := s.acore c
    let now := s.islNow c.flock.val
    let named := s.named c f.amask.toNat
    let m := g.rows * named.length
    let p := proFields (s.descOf c f.pro.val)
    let nibs := if f.pro.val = 0 then (fmtElem f.fmt.val).nibs else (ofmtElem p.ifmt).nibs
    let mx := if f.pro.val = 0 ∧ fmtMx f.fmt.val then ceilDiv (8 * m * ceilDiv (f.klen.val / 32) 4) 64 * 64 + ceilDiv (m * (f.klen.val / 32)) 128 * 64 else 0
    let busy :=
      (!f.src && s.toWrite c (64 * f.saddr.val) (areaBytes m f.klen.val g.w nibs + mx)) ||
      (decide (f.pro.val ≠ 0) && p.norm && (List.range p.nsets).any (fun n => s.toWrite c (64 * p.naddr + 64 * p.nstride * n) (128 * m))) ||
      (f.xp && decide (now < k.port))
    if busy then .next (s.issueWait c)
    else
      let total := if c.bulk then ceilDiv f.klen.val g.slab else g.rows
      let mine (h : HeldPend) : Bool := named.contains h.a && h.f.bank == f.bank
      let free := (named.map (fun a => (s.arr.banks.get (bankKey c a f.bank)).readEnd)) ++ (k.held.filter mine).map (fun h => h.writeAt + (h.total - h.next))
      let at_ := free.foldl Nat.max (now + if f.pro.val ≠ 0 ∧ p.norm then 20 else 8)
      let pends := named.mapIdx (fun i a => ({ a := a, pos := i, f := f, next := 0, total := total, dbank := k.progBank, writeAt := at_ } : HeldPend))
      let old := k.held.filter (fun h => !mine h)
      let fresh (b : HeldBank) : HeldBank := { loaded := true, fmt := f.fmt.val, klen := f.klen.val, rows := [], written := 0, readEnd := b.readEnd }
      let s := named.foldl (fun t a => { t with arr := { t.arr with banks := t.arr.banks.mod (bankKey c a f.bank) fresh } }) s
      let s := if f.xp then s.modAcore c (fun k => { k with port := at_ + total }) else s
      .next ((s.issueInstr c true).setHeld c (old ++ pends))
/-- A parity failure of a core or of its arrays (R145): work void, a reload due; a second failure in an epoch withdraws the arrays and the flock. In the
wide-shallow form the core's arrays are one. -/
def State.arrayParity (s : State) (c : ACoreId) (arrays : List Nat) : State :=
  let f := c.flock.val
  let k := s.acore c
  let s := (s.setAcore c { k with faults := k.faults + 1, reload := true }).bump Reg.FLOCK.ARRAY_PARITY f
  let s := s.fault { cls := 1, scope := 4, reason := 22, action := if k.faults = 0 then 1 else 3, block := Blk.FLOCK, inst := f, unit := ACoreId.unit c, count := s.rd Reg.FLOCK.ARRAY_PARITY f }
  let s := s.voidWork c 22 2
  if k.faults = 0 then s
  else
    let bitsOut := (if k.ws then List.range (ACoreId.arrays c) else arrays).filterMap (s.arrayBit c)
    let s := bitsOut.foldl (fun t b =>
      let t := t.wr Reg.FLOCK.ARRAY_WD (setBits (t.rd Reg.FLOCK.ARRAY_WD f) b 1 1) f
      { t with flt := { t.flt with dmc := t.flt.dmc.set (3 * 65536 + f * 64 + b) .withdrawn } }) s
    s.later (.flockWd f true)
/-- HELD_WRITE (R141, R142): row or slab n, in ascending order, one a cycle. `parity`: a word of core memory that the load reads, or the row segment in
the held store, fails (R145). -/
def execHeldWrite (c : ACoreId) (a : Fin 4) (n : HeldAt) (s : State) : Host.Outcome State Fault Refusal :=
  let s := s.land c.flock
  let held := (s.acore c).held
  match held.find? (fun h => h.a == a.val && h.next == n.row.val) with
  | none => .next s
  | some p =>
    if ¬ s.flockRuns c.flock.val ∨ p.total ≤ p.next ∨ s.islNow c.flock.val < p.writeAt then .next s
    else
      let named := (s.named c p.f.amask.toNat).length
      let next := s.islNow c.flock.val + 1
      let held' := (held.map (fun h => if h = p then { h with next := h.next + 1, writeAt := next } else h)).filter (fun h => decide (h.next < h.total))
      let s := (s.heldStep c p n.row.val named).setHeld c held'
      .next (if n.parity then s.arrayParity c [a.val] else s)
/-- The slabs of a bulk load that a STREAM follows are written before their indices enter (R142). -/
def State.finishHeld (s : State) (c : ACoreId) (a : Nat) (bank : Bool) : State :=
  let held := (s.acore c).held
  let mine := held.filter (fun h => h.a == a && h.f.bank == bank)
  let s1 := mine.foldl (fun t p => (List.range (p.total - p.next)).foldl (fun t j => t.heldStep c p (p.next + j) (s.named c p.f.amask.toNat).length) t) s
  s1.setHeld c (held.filter (fun h => !(h.a == a && h.f.bank == bank)))

end Sys2Proof.Machine
end

