-- ==== Sys2Proof/Machine/Streams.lean ====
section
/-! DEFINITION. STREAM: the issue rule, the multiply-stage checks and the exact sums (R125, R128, R133, R137 to R140, R145, R151 to R161, R165). -/

namespace Sys2Proof.Machine

open Sys2Proof

/-! ### One tile (R156 to R159) -/

/-- What the cells of one array meet for one chunk: element codes and scale blocks of both operands. Rows i, columns j, indices k, blocks q. -/
structure TileOps where
  fmt : Nat
  rows : Nat
  ncols : Nat                               -- columns below N
  held : Nat → Nat → Nat
  marked : Nat → Bool
  hscale : Nat → Nat → Nat × Nat × Nat
  weight : Nat → Nat → Nat
  wscale : Nat → Nat → Nat × Nat × Nat
  count0 : Nat                              -- the lane's product count before index 0
  lo : Nat
  span : Nat

/-- The product scale code of a block pair (R151), or none outside every window. -/
def prodScale (h w : Nat) : Option Int := if h = 255 ∨ w = 255 then none else some ((h : Int) + w - 127)
/-- All rows and columns of a chunk, rows first. -/
def TileOps.pairs (t : TileOps) : List (Nat × Nat) := (List.range t.rows).flatMap (fun i => (List.range t.ncols).map (fun j => (i, j)))
/-- The product count when index k enters. -/
def TileOps.count (t : TileOps) (k : Nat) : Nat := t.count0 + k
/-- What fails at index k (R159): kind of AF_KIND, AF_CODE, AF_TAG_SEEN, AF_TAG_EXP. -/
def TileOps.checkAt (t : TileOps) (k : Nat) : Option (Nat × Nat × Nat × Nat) :=
  let q := k / 32
  let exp := t.count k / 32 % 16
  let first := fmtMx t.fmt && k % 32 == 0
  let badTag : Option Nat := t.pairs.findSome? (fun ij =>
    let h := t.hscale ij.1 q
    let w := t.wscale q ij.2
    [h.2.1, h.2.2, w.2.1, w.2.2].find? (fun g => decide (g ≠ exp)))
  let badSpan : Option Nat := t.pairs.findSome? (fun ij =>
    match prodScale (t.hscale ij.1 q).1 (t.wscale q ij.2).1 with
    | none => some 0x1FF
    | some x => if (t.lo : Int) ≤ x ∧ x < t.lo + t.span then none else some (ofSigned 9 x))
  let special := (List.range t.rows).any (fun i => t.marked i || (fmtElem t.fmt).special (t.held i k)) ||
    (List.range t.ncols).any (fun j => (fmtElem t.fmt).special (t.weight k j))
  if 2 ^ 24 ≤ t.count k then some (1, 0, 0, 0)
  else
    match (if first then badTag else none), (if first then badSpan else none) with
    | some g, _ => some (2, 0, g, exp)
    | none, some x => some (3, x, 0, 0)
    | none, none => if special then some (4, 0, 0, 0) else none
/-- Product of index k in cell (i, j), in LSBs of W (R156). -/
def TileOps.product (t : TileOps) (i j k : Nat) : Int :=
  let e := fmtElem t.fmt
  let v := e.value (t.held i k) * e.value (t.weight k j)
  if fmtMx t.fmt then
    match prodScale (t.hscale i (k / 32)).1 (t.wscale (k / 32) j).1 with
    | some x => v * pow2 (x - t.lo)
    | none => 0
  else v
/-- The sum that indices 0 to n − 1 add in cell (i, j) (R157). -/
def TileOps.sum (t : TileOps) (i j n : Nat) : Int := ((List.range n).map (t.product i j)).sum
/-- The first failing index below K, and what fails there. -/
def TileOps.firstFault (t : TileOps) (k : Nat) : Option (Nat × Nat × Nat × Nat × Nat) :=
  (List.range k).findSome? (fun n => (t.checkAt n).map (fun r => (n, r)))

/-! ### Faults and parity (R145, R159, R160, R165) -/

/-- Counter of a fault kind. -/
def faultField (kind : Nat) : Field :=
  match kind with
  | 1 => Reg.FLOCK.LEN_FAULT
  | 2 => Reg.FLOCK.STEP_FAULT
  | 3 => Reg.FLOCK.SPAN_FAULT
  | _ => Reg.FLOCK.VALUE_FAULT
/-- A tile is void (R160): its counter, a fault record, the work it belongs to, and the AF fields, which keep the flock's first fault in time
since they were last read: chunks run side by side on several arrays and cores. -/
def State.accFault (s : State) (c : ACoreId) (a lane kind code seen exp at_ : Nat) : State :=
  let f := c.flock.val
  let s := s.bump (faultField kind) f
  let (beat, cycle) := s.islSplit f at_
  let s :=
    if s.rd Reg.FLOCK.AF_KIND f = 0 ∨ beat * 65536 + cycle < s.rd Reg.FLOCK.AF_BEAT f * 65536 + s.rd Reg.FLOCK.AF_CYCLE f then
      let s := ((s.wr Reg.FLOCK.AF_KIND kind f).wr Reg.FLOCK.AF_CLASS (b2n c.bulk) f).wr Reg.FLOCK.AF_CORE c.core.val f
      let s := ((s.wr Reg.FLOCK.AF_ARRAY a f).wr Reg.FLOCK.AF_LANE lane f).wr Reg.FLOCK.AF_CYCLE cycle f
      let s := ((s.wr Reg.FLOCK.AF_CODE code f).wr Reg.FLOCK.AF_TAG_SEEN seen f).wr Reg.FLOCK.AF_TAG_EXP exp f
      s.wr Reg.FLOCK.AF_BEAT beat f
    else s
  let ctx := (s.coreSect c).map (·.1)
  let s := s.fault { cls := 4, scope := (if ctx.isSome then 3 else 0), reason := 22 + kind, block := Blk.FLOCK, inst := f, ctx := ctx.getD 0, unit := ACoreId.unit c, count := s.rd (faultField kind) f }
  s.voidWork c (22 + kind) (2 + kind)
/-! ### STREAM -/

/-- Key of one chunk of a STREAM on one of its arrays. -/
structure ChunkAt where
  a : Nat
  pos : Nat
  chunk : Nat
  lane : Nat
  deriving DecidableEq, Repr

/-- Lane of chunk n (R133). -/
def StreamF.laneOf (f : StreamF) (n : Nat) : Nat := if f.acc || !f.final then f.lane.val + n else f.lane.val
/-- Tiles in progress of a format (R140). -/
def tilesOf (fmt : Nat) : Nat := if fmt = 1 then 4 else if fmt = 0 ∨ fmt = 4 then 2 else 1
/-- Cycles of a chunk, and the period of chunks (R139). -/
def chunkCycles (f : StreamF) : Nat := if fmtPairs f.fmt.val then ceilDiv f.k.val 2 else f.k.val
def chunkPeriod (f : StreamF) (g : Geo) : Nat := if f.final then Nat.max (chunkCycles f) g.rows else chunkCycles f

/-- The operands of one chunk on one array. -/
def State.tileOps (s : State) (c : ACoreId) (f : StreamF) (x : ChunkAt) (count0 : Nat) : TileOps :=
  let g := s.geo c
  let fmt := f.fmt.val
  let n := f.nm1.val + 1
  let kk := f.k.val
  let e := fmtElem fmt
  let b := s.arr.banks.get (bankKey c x.a f.bank)
  let addr := 64 * f.waddr.val
  let col (j : Nat) : Nat := x.chunk * g.cols + j
  let nc := ceilDiv n g.w * g.w
  let sc := addr + areaBytes kk n g.w e.nibs
  let tg := sc + ceilDiv (8 * (kk / 32) * (nc / 4)) 64 * 64
  { fmt := fmt, rows := g.rows, ncols := Nat.min g.cols (n - x.chunk * g.cols)
    held := fun i k => (b.rows.get i).elems.getD k 0
    marked := fun i => (b.rows.get i).marked
    hscale := fun i q => (b.rows.get i).scales.getD q (0, 0, 0)
    weight := fun k j => s.matElem c addr kk n g.w e.nibs f.xpw k (col j)
    wscale := fun q j =>
      let w := s.coreLE c (sc + 8 * (q * (nc / 4) + col j / 4)) 8
      (bits w (8 * (col j % 4)) 8, s.coreNib c (2 * tg + q * nc + col j) 1, bits w 32 4)
    count0 := count0, lo := f.scaleLo.val, span := f.scaleSpan.val }
/-- Bytes of a weight matrix with its scales and tags (R152). -/
def weightBytes (f : StreamF) (w : Nat) : Nat :=
  let n := f.nm1.val + 1
  let nc := ceilDiv n w * w
  areaBytes f.k.val n w (fmtElem f.fmt.val).nibs +
    (if fmtMx f.fmt.val then ceilDiv (8 * (f.k.val / 32) * (nc / 4)) 64 * 64 + ceilDiv (f.k.val / 32 * nc) 128 * 64 else 0)
/-- The held block an array's STREAM first needs is written (R137, R141, R142). -/
def State.heldReady (s : State) (c : ACoreId) (f : StreamF) (a : Nat) : Bool :=
  let b := s.arr.banks.get (bankKey c a f.bank)
  let loading := (s.acore c).held.any (fun h => h.a == a && h.f.bank == f.bank)
  b.loaded && (!loading || (c.bulk && decide (0 < b.written)))
/-- The lanes a STREAM uses are as R133 requires, and every tile in the array's main set has the STREAM's format (R140). -/
def State.lanesReady (s : State) (c : ACoreId) (f : StreamF) (a chunks : Nat) : Bool :=
  ((List.range 4).all (fun l => let x := s.arr.lanes.get (laneKey c a l); !x.live || x.fmt == f.fmt.val)) && (List.range chunks).all (fun n =>
    let l := StreamF.laneOf f n
    let x := s.arr.lanes.get (laneKey c a l)
    decide (l < tilesOf f.fmt.val) && (if f.acc then x.live && x.fmt == f.fmt.val else !x.live))

/-- Stream one chunk through one array; `inj` is an armed fault (R165), taken at the chunk's first index. -/
def State.streamChunk (s : State) (c : ACoreId) (f : StreamF) (chunks named instr : Nat) (ids : Nat × Nat) (inj : Nat) (x : ChunkAt) : State :=
  let g := s.geo c
  let k := laneKey c x.a x.lane
  let lane := s.arr.lanes.get k
  let old : LaneAcc := if f.acc then lane else { live := true, fmt := f.fmt.val, vals := List.replicate (g.rows * g.cols) 0, cols := g.cols, scaleLo := f.scaleLo.val, scaleSpan := f.scaleSpan.val }
  let t := s.tileOps c f x old.count
  let (code, seen, s) :=
    if inj = 0 then (0, 0, s) else ((s.fresh.1.toNat % 512), (s.fresh.2.fresh.1.toNat % 16), s.fresh.2.fresh.2)
  let flt : Option (Nat × Nat × Nat × Nat × Nat) :=
    if old.void ≠ 0 then none
    else if inj ≠ 0 then some (0, inj, if inj = 3 then code else 0, if inj = 2 then seen else 0, if inj = 2 then t.count 0 / 32 % 16 else 0)
    else t.firstFault f.k.val
  let n := if old.void ≠ 0 then 0 else (flt.map (·.1)).getD f.k.val
  let vals := old.vals.mapIdx (fun i v => if i % old.cols < t.ncols then v + t.sum (i / old.cols) (i % old.cols) n else v)
  let void := if old.void ≠ 0 then old.void else (flt.map (·.2.1)).getD 0
  let start := s.islNow c.flock.val + x.chunk * chunkPeriod f g
  let at_ := start + (if fmtPairs f.fmt.val then n / 2 else n)
  let s := match flt with
    | some (_, kind, code, seen, exp) => s.accFault c x.a x.lane kind code seen exp at_
    | none => s
  if f.final then
    let d : DrainTile := { vals := vals, rows := g.rows, cols := g.cols, chunk := x.chunk, pos := x.pos, named := named, f := f, void := void, layer := ids.1, oper := ids.2, last := x.chunk + 1 == chunks, chunks := chunks, instr := instr, beat := s.time.beat, seq := (s.acore c).seq, laneNo := x.lane, bank := (s.acore c).progBank, endAt := start + chunkCycles f - 1 }
    let s := s.modAcore c (fun k => { k with seq := k.seq + 1 })
    { s with arr := { s.arr with lanes := s.arr.lanes.set k {}, drains := s.arr.drains.mod (arrKey c x.a) (· ++ [d]) } }
  else { s with arr := { s.arr with lanes := s.arr.lanes.set k { old with vals := vals, void := void, count := Nat.min (old.count + f.k.val) (2 ^ 25 - 1) } } }
/-- A tile of the array is due in core memory and has not been drained: the shadow set still holds it (R138, R139). -/
def State.overdue (s : State) (c : ACoreId) (a : Nat) : Bool :=
  (s.arr.drains.get (arrKey c a)).any (fun d => decide (d.endAt + (s.geo c).drain + d.rows ≤ s.islNow c.flock.val))
/-- What keeps a STREAM from issuing now (R128, R137, R139): its held blocks or lanes, a line of its weights still to be written, the core's last
STREAM, the transposing port, or the spacing of its first final chunk from the array's last. -/
def State.streamWaits (s : State) (c : ACoreId) (f : StreamF) : Bool :=
  let g := s.geo c
  let k := s.acore c
  let now := s.islNow c.flock.val
  let chunks := ceilDiv (f.nm1.val + 1) g.cols
  !(s.named c f.amask.toNat).all (fun a => s.heldReady c f a && s.lanesReady c f a chunks) ||
    s.toWrite c (64 * f.waddr.val) (weightBytes f g.w) || decide (now < k.streamEnd) || (f.xpw && decide (now < k.port)) ||
    (s.named c f.amask.toNat).any (fun a => s.overdue c a || (f.final && decide (k.finals.get a ≠ 0) && decide (now + chunkCycles f < k.finals.get a + g.rows)))
/-- The core's times after a STREAM has issued (R128, R137, R139, R141, R142). -/
def State.streamTimes (s : State) (c : ACoreId) (f : StreamF) (named : List Nat) (last : Nat) : State :=
  let s := named.foldl (fun t a => { t with arr := { t.arr with banks := t.arr.banks.mod (bankKey c a f.bank) (fun b => { b with readEnd := Nat.max b.readEnd (last + 1) }) } }) s
  s.modAcore c (fun k =>
    let finals := if f.final then named.foldl (fun t a => t.set a (last + 1)) k.finals else k.finals
    { k with streamEnd := last + 1, port := if f.xpw then last + 1 else k.port, finals := finals })
/-- STREAM (R133, R137): the whole instruction, chunk by chunk and within a chunk array by array. -/
def execStream (c : ACoreId) (f : StreamF) (parity : Bool) (s : State) : Host.Outcome State Fault Refusal :=
  let s := s.land c.flock
  if ¬ s.coreIssues c (StreamF.word f) then .next s
  else
    let g := s.geo c
    let named := s.named c f.amask.toNat
    let chunks := ceilDiv (f.nm1.val + 1) g.cols
    let now := s.islNow c.flock.val
    if s.streamWaits c f then .next (s.issueWait c)
    else
      let s := named.foldl (fun t a => t.finishHeld c a f.bank) s
      let k := s.acore c
      let w := s.instrWord c k.pc
      let s := (s.issueInstr c true).streamTimes c f named (now + (chunks - 1) * chunkPeriod f g + chunkCycles f - 1)
      let s := s.modAcore c (fun k => { k with inj := 0, opc := { k.opc with wStart := now, wChunks := chunks, wCycles := chunkCycles f, wPeriod := chunkPeriod f g, issues := 0 } })
      let xs := (List.range chunks).flatMap (fun n => named.mapIdx (fun i a => ({ a := a, pos := i, chunk := n, lane := StreamF.laneOf f n } : ChunkAt)))
      let s := xs.foldl (fun t x => t.streamChunk c f chunks named.length k.pc (bits w 96 16, bits w 112 16) (if x.chunk = 0 then k.inj else 0) x) s
      let cyc := chunks * chunkCycles f * named.length
      let s := if c.bulk then s.bump Reg.FLOCK.BULK_STREAM c.flock.val 0 0 (if k.ws then 4 * cyc else cyc) else s.bump Reg.FLOCK.EXP_STREAM c.flock.val 0 0 cyc
      .next (if parity then s.arrayParity c named else s)
/-- INJ_ARM (R165): the named core's next STREAM faults at its first index. -/
def execInjArm (src : Source) (f : Flock) (kind : Fin 8) (cls : CoreClass) (core : Fin 16) (s : State) : Host.Outcome State Fault Refusal :=
  s.expertCmd src Reg.FLOCK.INJ_ARM f.val 1 (fun s => s.modAcore { flock := f, cls := cls, core := core } (fun k => { k with inj := if kind.val ≤ 4 then kind.val else 0 }))
/-- AF_READ (R10, R165): the word's fields are returned and cleared together. -/
def execAfRead (_src : Source) (f : Flock) (s : State) : Host.Outcome State Fault Refusal :=
  let data (s : State) (v : Nat) : State := { s with host := { s.host with regData := v } }
  let fs := [Reg.FLOCK.AF_KIND, Reg.FLOCK.AF_CLASS, Reg.FLOCK.AF_CORE, Reg.FLOCK.AF_ARRAY, Reg.FLOCK.AF_LANE, Reg.FLOCK.AF_CYCLE, Reg.FLOCK.AF_CODE,
    Reg.FLOCK.AF_TAG_SEEN, Reg.FLOCK.AF_TAG_EXP, Reg.FLOCK.AF_BEAT]
  if ¬ s.pagesOpen then .next (data s 0)
  else
    let v := (fs.map (fun x => s.rd x f.val * 2 ^ x.lo)).sum
    .next (data (fs.foldl (fun t x => t.wr x 0 f.val) s) v)

end Sys2Proof.Machine
end

