-- ==== Sys2Proof/Machine/Drains.lean ====
section
/-! DEFINITION. Draining a tile: epilogues, matrix writes, broadcast, row statistics and watch records (R135, R138, R145, R162 to R164, R167 to R176). -/

namespace Sys2Proof.Machine

open Sys2Proof

/-! ### The epilogue (R167 to R176) -/

/-- One element as written: its code, its value in units of its format, and whether it saturated. -/
abbrev OutEl := Nat × Int × Bool

/-- Columns of a tile below N. -/
def DrainTile.ncols (d : DrainTile) : Nat := Nat.min d.cols (d.f.nm1.val + 1 - d.chunk * d.cols)
/-- The lane integer of cell (i, j); a void tile drains zeros (R160). -/
def DrainTile.lane (d : DrainTile) (i j : Nat) : Int := if d.void ≠ 0 then 0 else d.vals.getD (i * d.cols + j) 0
/-- y3 of cell (i, j) (R168): exact up to the conversion. -/
def State.epiValue (s : State) (c : ACoreId) (d : DrainTile) (desc i j : Nat) : Dy :=
  if d.void ≠ 0 then ⟨0, 0⟩
  else
    let bexp : Int := bits desc 28 7
    let (mul, add) : Int × Int :=
      match bits desc 6 2 with
      | 0 => (1, 0)
      | 1 => s.rescale c (bits desc 8 13) (d.chunk * d.cols + j)
      | _ => (toSigned 32 (bits desc 64 32), toSigned 32 (bits desc 96 32))
    let y0 : Dy := ⟨d.lane i j, laneUnit d.f.fmt.val d.f.scaleLo.val⟩
    let y1 := if bits desc 6 2 = 0 then y0.shift (-(bits desc 21 7 : Int)) else y0.mul ⟨mul, -(bits desc 21 7 : Int)⟩
    let y2 := y1.add ⟨add, -bexp⟩
    activate (actFields desc) (fun y => (s.segTable c d.bank (bits desc 39 4)).eval y) y2
/-- The elements a tile's drain writes, by row, and under an MX format the scale code of each column's block. -/
def State.epiTile (s : State) (c : ACoreId) (d : DrainTile) : List (List OutEl) × List Nat :=
  let n := d.ncols
  let rows := List.range d.rows
  if d.f.epi.val = 0 then
    (rows.map (fun i => (List.range n).map (fun j => (ofSigned (laneBits d.f.fmt.val) (d.lane i j), d.lane i j, false))), [])
  else
    let desc := s.descAt c d.bank d.f.epi.val
    let o := bits desc 2 4
    let e := ofmtElem o
    if ofmtMx o then
      let blocks := (List.range n).map (fun j => (rows.map (fun i => s.epiValue c d desc i j)))
      let codes := blocks.map (mxCode e (bits desc 192 8))
      (rows.map (fun i => (List.range n).map (fun j => e.conv ((s.epiValue c d desc i j).shift (127 - ((codes.getD j 0 : Nat) : Int))))), codes)
    else (rows.map (fun i => (List.range n).map (fun j => e.conv (s.epiValue c d desc i j))), [])

/-! ### The writes (R135, R138, R176) -/

/-- What a tile's drain writes: half-byte address, half bytes, value, and the island cycle of the write. Row i is written in cycle s + C + i, the scale
codes and tags of an MX tile with its last row. -/
def State.tileWrites (s : State) (c : ACoreId) (d : DrainTile) (w nibs : Nat) (rows : List (List OutEl)) (scales : List Nat) (tag0 : Nat) : List (Nat × Nat × Nat × Nat) :=
  let m := d.rows * d.named
  let base := 64 * d.f.daddr.val
  let n := d.f.nm1.val + 1
  let col (j : Nat) : Nat := d.chunk * d.cols + j
  let t0 := d.endAt + (s.geo c).drain
  let nc := ceilDiv n 32 * 32
  let sc := base + areaBytes m n 32 nibs
  let tg := sc + ceilDiv (8 * d.named * (nc / 4)) 64 * 64
  let tag := (tag0 + d.pos) % 16
  let at_ := t0 + d.rows - 1
  (rows.mapIdx (fun i r => r.mapIdx (fun j e => (2 * base + tileIdx m w (d.pos * d.rows + i) (col j) * nibs, nibs, e.1, t0 + i)))).flatten ++
    (scales.mapIdx (fun j x =>
      let a := 2 * (sc + 8 * (d.pos * (nc / 4) + col j / 4))
      [(a + 2 * (col j % 4), 2, x, at_), (a + 8, 8, tag, at_), (2 * tg + d.pos * nc + col j, 1, tag, at_)])).flatten
/-- The other express cores of the flock, which a broadcast reaches (R138). -/
def bcCores (c : ACoreId) (bc : Bool) : List ACoreId :=
  if bc && !c.bulk then ((List.finRange 16).filter (fun k => k != c.core)).map (fun k => { c with core := k }) else []
/-- Writes of a core in its own memory, and with BC set their broadcast 8 island cycles later. -/
def State.drainWrites (s : State) (c : ACoreId) (bc : Bool) (ws : List (Nat × Nat × Nat × Nat)) : State :=
  let s := ws.foldl (fun t x => t.coreStoreNib c x.1 x.2.1 x.2.2.1) s
  let far : List BcWrite := (bcCores c bc).flatMap (fun k => ws.map (fun x => { due := x.2.2.2 + 8, src := c.num, dst := k.num, at_ := x.1, nibs := x.2.1, val := x.2.2.1 }))
  { s with arr := { s.arr with bcast := s.arr.bcast ++ far } }

/-! ### Row statistics (R162 to R164) -/

/-- A row's registers take one element. -/
def RowStat.take (r : RowStat) (int : Bool) (v : Int) : RowStat :=
  let w : Word := BitVec.ofInt 32 v
  { sum := r.sum + v, ssq := r.ssq + v * v, count := r.count + 1,
    bor := if int then r.bor ||| w else 0, band := if int then (if r.count = 0 then w else r.band &&& w) else 0, bxor := if int then r.bxor ^^^ w else 0 }
/-- Output format code of a STREAM: 0 for the raw export. -/
def State.ofmtOf (s : State) (c : ACoreId) (bank : Bool) (f : StreamF) : Nat := if f.epi.val = 0 then 0 else bits (s.descAt c bank f.epi.val) 2 4
/-- The unit takes a tile: cleared when the first chunk begins to drain, ready when the last chunk has drained. -/
def StatUnit.takeTile (u : StatUnit) (d : DrainTile) (int : Bool) (rows : List (List OutEl)) : StatUnit :=
  let u : StatUnit := if d.chunk = 0 then { rows := List.replicate d.rows {}, f := d.f, pos := d.pos, named := d.named, cols := d.cols, layer := d.layer, oper := d.oper, bank := d.bank } else u
  { u with rows := u.rows.mapIdx (fun i r => (rows.getD i []).foldl (fun r e => r.take int e.2.1) r), ready := d.last, void := u.void || d.void != 0, endAt := d.endAt }
/-- The 128 bytes of a row's record (R163, R164). -/
def statBytes (r : RowStat) (unit : Int) (ofmt layer oper : Nat) : List Byte :=
  let sc := 2 ^ (-unit).toNat
  let var := (r.count : Int) * r.ssq - r.sum * r.sum
  leBytes 24 (ofSigned 192 r.sum) ++ leBytes 24 r.ssq.toNat ++ leBytes 4 r.count
    ++ leBytes 4 (fp32Round (decide (r.sum < 0)) r.sum.natAbs (r.count * sc)) ++ leBytes 4 (fp32Round false var.toNat (r.count * r.count * (sc * sc)))
    ++ leBytes 1 (ofSigned 8 unit) ++ leBytes 1 ofmt ++ zeros 2 ++ leBytes 4 r.bor.toNat ++ leBytes 4 r.band.toNat ++ leBytes 4 r.bxor.toNat
    ++ leBytes 2 layer ++ leBytes 2 oper ++ zeros 48
/-- A drain, record or COPY of the core lands everywhere by an island cycle (R134). -/
def State.landsBy (s : State) (c : ACoreId) (t : Nat) : State := s.modAcore c (fun k => { k with landAt := Nat.max k.landAt t })
/-- STAT_RECORD_WRITE (R163): one record for each output row, row i in cycle s + C + rows + i; none for a void tile (R160). -/
def execStatRecordWrite (c : ACoreId) (a : Fin 4) (s : State) : Host.Outcome State Fault Refusal :=
  let s := s.land c.flock
  let u := s.arr.stats.get (arrKey c a.val)
  let g := s.geo c
  if ¬ s.flockRuns c.flock.val ∨ ¬ u.ready ∨ s.islNow c.flock.val + 1 < u.endAt + g.drain + 2 * g.rows then .next s
  else
    let s := { s with arr := { s.arr with stats := s.arr.stats.set (arrKey c a.val) {} } }
    if u.void then .next s
    else
      let o := s.ofmtOf c u.bank u.f
      let base := (s.statRange c u.bank u.f u.pos u.named).1
      let ws := (u.rows.mapIdx (fun i r => (statBytes r (ofmtElem o).unit o u.layer u.oper).mapIdx (fun j b =>
        (2 * (base + 128 * i + j), 2, b.toNat, u.endAt + g.drain + g.rows + i)))).flatten
      let s := (s.drainWrites c u.f.bc ws).landsBy c (u.endAt + g.drain + 2 * g.rows - 1 + if u.f.bc then 8 else 0)
      .next (s.bump Reg.FLOCK.STAT_RECORDS c.flock.val 0 0 u.rows.length)

/-! ### TILE_DRAIN -/

/-- A watch on the tile's STREAM takes its elements (R363); the last tile of an execution makes the record. -/
def State.watchTile (s : State) (c : ACoreId) (d : DrainTile) (nibs : Nat) (rows : List (List OutEl)) : State :=
  match s.watchOn c d.instr d.beat with
  | none => s
  | some (n, w) =>
    let w := if w.beat = d.beat then w else { w with beat := d.beat, acc := [], void := false }
    let acc := w.acc.put (d.chunk * 4 + d.pos) (rows.flatMap (fun r => r.map (fun e => (e.1, e.2.1))))
    let w := { w with acc := acc, void := w.void || d.void != 0 }
    if acc.length < d.chunks * d.named then { s with watches := s.watches.put n (some w) }
    else
      let o := s.ofmtOf c d.bank d.f
      let m := d.rows * d.named
      let cols := d.f.nm1.val + 1
      let body := areaBytes m cols 32 nibs
      let nc := ceilDiv cols 32 * 32
      let tail := if o ≠ 0 ∧ ofmtMx o then
          let sc := 64 * d.f.daddr.val + body
          s.coreBytes c sc (8 * d.named * (nc / 4)) ++ s.coreBytes c (sc + ceilDiv (8 * d.named * (nc / 4)) 64 * 64) (ceilDiv (d.named * nc) 2)
        else []
      let (unit, s) : Int × State := if o = 0 then (toSigned 8 s.fresh.1.toNat, s.fresh.2) else ((ofmtElem o).unit, s)
      let r : WatchRec := { layer := d.layer, oper := d.oper, ofmt := o, unit := unit, void := w.void, bc := d.f.bc, ebytes := Nat.max 1 (nibs / 2), tail := tail }
      let s := { s with watches := s.watches.put n (some { w with acc := [], void := false }) }
      s.watchRecord n w c d.beat r (acc.flatMap (·.2))
/-- The posts of a core whose earlier drains and COPYs have been made are on their way (R134, R222): each is made in the island cycle after the last
of them has landed everywhere. -/
def State.releasePosts (s : State) (c : ACoreId) : State :=
  let k := s.acore c
  let left := (List.range 4).flatMap (fun a => (s.arr.drains.get (arrKey c a)).map (·.seq)) ++ (s.herd.remote.filter (·.core == c)).map (·.seq)
  let ready (p : Nat × Nat × Nat × Nat) : Bool := left.all (fun q => decide (p.2.2.1 ≤ q))
  let made := (k.posts.filter ready).map (fun p => (p.1, p.2.1, Nat.max (s.islNow c.flock.val) (k.landAt + 1)))
  let s := s.setAcore c { k with posts := k.posts.filter (fun p => !ready p) }
  { s with arr := { s.arr with posts := s.arr.posts.mod c.flock.val (· ++ made) } }
/-- TILE_DRAIN (R138): the array's shadow set leaves through the epilogue, by the cycle of its last row. A lane that fails parity as it drains voids the
work (R145). -/
def execTileDrain (c : ACoreId) (a : Fin 4) (parity : Bool) (s : State) : Host.Outcome State Fault Refusal :=
  let key := arrKey c a.val
  let s := s.land c.flock
  match s.arr.drains.get key with
  | [] => .next s
  | d :: rest =>
    let last := d.endAt + (s.geo c).drain + d.rows - 1
    if ¬ s.flockRuns c.flock.val ∨ s.islNow c.flock.val < last then .next s
    else
      let f := c.flock.val
      let s := { s with arr := { s.arr with drains := s.arr.drains.set key rest } }
      let (rows, scales) := s.epiTile c d
      let nibs := s.outNibs c d.bank d.f
      let o := s.ofmtOf c d.bank d.f
      let tag0 := bits (s.descAt c d.bank d.f.epi.val) 48 4
      let s := (s.drainWrites c d.f.bc (s.tileWrites c d (s.geo c).w nibs rows scales tag0)).landsBy c (last + if d.f.bc then 8 else 0)
      let sat := (rows.map (fun r => (r.filter (·.2.2)).length)).sum
      let satRows := (rows.filter (fun r => r.any (·.2.2))).length
      let s := if sat = 0 then s else (s.bump Reg.FLOCK.EPI_SAT f 0 0 sat).modAcore c (fun k => { k with opc := { k.opc with sat := k.opc.sat + satRows } })
      let int := match ofmtElem o with
        | .int _ => true
        | _ => false
      let s := if d.f.stat then { s with arr := { s.arr with stats := s.arr.stats.mod key (fun u => u.takeTile d (int && o != 0) rows) } } else s
      let s := s.watchTile c d nibs rows
      let s := s.releasePosts c
      .next (if parity then s.arrayParity c [a.val] else s)

end Sys2Proof.Machine
end

