-- ==== Sys2Proof/Machine/CoreOps.lean ====
section
/-! DEFINITION. The other array instructions: program start and end, FORM, RET, COPY and the sync cells (R129 to R131, R134, R143 to R146, R184,
R221 to R225, R242). -/

namespace Sys2Proof.Machine

open Sys2Proof

/-! ### Programs (R129 to R131) -/

/-- A program broke a limit of R130: counted with the miss that follows from it (R17). -/
def State.progLate (s : State) (f : Nat) : State := s.bump Reg.FLOCK.PROG_LATE f
/-- BEAT_PROGRAM_START (R130): at island cycle 0, once in a beat. A program of an earlier beat that still runs has missed its beat: the core starts once
BEAT_MISS has abandoned it. -/
def execBeatProgramStart (c : ACoreId) (s : State) : Host.Outcome State Fault Refusal :=
  let s := s.land c.flock
  let k := s.acore c
  if ¬ ACoreId.exists_ c ∨ ¬ s.flockIssues c.flock.val ∨ s.islCycle c.flock.val ≠ 0 ∨ k.running ∨ (k.startBeat = s.time.beat ∧ k.pc ≠ 0) then .next s
  else .next (s.modAcore c (fun k => { k with running := true, pc := 0, wait := none, waitAt := none, startBeat := s.time.beat, next := s.islNow c.flock.val }))
/-- NOP (R131): one issue cycle. -/
def execCoreNop (c : ACoreId) (s : State) : Host.Outcome State Fault Refusal :=
  let s := s.land c.flock
  if s.coreIssues c 0 then .next (s.issueInstr c false) else .next s
/-- END (R131): the program ends. -/
def execBeatProgramEnd (c : ACoreId) (s : State) : Host.Outcome State Fault Refusal :=
  let s := s.land c.flock
  if ¬ s.coreIssues c endWord then .next s else .next ((s.issueInstr c false).modAcore c (fun k => { k with running := false }))
/-- FORM (R134, R143): 4 island cycles. -/
def execForm (c : ACoreId) (ws : Bool) (s : State) : Host.Outcome State Fault Refusal :=
  let s := s.land c.flock
  if ¬ s.coreIssues c (formWord ws) ∨ ¬ c.bulk then .next s
  else
    let f := c.flock.val
    let s := (s.issueInstr c false 4).modAcore c (fun k => { k with ws := ws })
    .next (s.wr Reg.FLOCK.WS_FORM (setBits (s.rd Reg.FLOCK.WS_FORM f) c.core.val 1 (b2n ws)) f)

/-! ### RET (R134, R144) -/

/-- Half bytes of an element a RET returns. -/
def RetF.nibs (f : RetF) : Nat := formatBits f.format.val / 4
/-- The rows a RET returns: vector slot, packet, and outputs as written. -/
def State.retRows (s : State) (c : ACoreId) (f : RetF) (o : Nat) : List (Option PktId × List Nat) :=
  let n := ones 2 f.amask.val * 16
  (List.range n).map (fun r => (s.setPkt c.flock.val o (f.vec0.val + r),
    (List.range (f.noutM1.val + 1)).map (fun k => s.matElem c (64 * f.saddr.val) n (f.noutM1.val + 1) 16 (RetF.nibs f) false r k)))
/-- A watch on a RET takes its elements and makes the record (R363, R364). -/
def State.watchRet (s : State) (c : ACoreId) (f : RetF) (instr layer oper : Nat) (els : List Nat) : State :=
  match s.watchOn c instr s.time.beat with
  | none => s
  | some (n, w) =>
    let b := formatBits f.format.val
    let r : WatchRec := { layer := layer, oper := oper, ofmt := if b = 32 then 4 else if b = 16 then 3 else 2, unit := 0, void := false, bc := false, ebytes := b / 8, tail := [] }
    s.watchRecord n w c s.time.beat r (els.map (fun e => (e, toSigned b e)))
/-- Bytes a RET sends. -/
def RetF.bytes (f : RetF) : Nat := ones 2 f.amask.val * 16 * (f.noutM1.val + 1) * RetF.nibs f / 2
/-- RET (R134, R144): the outputs go to the verdict unit, row by row, 64 bytes an island cycle, once the core's drains of them have landed; those of
empty vector slots are discarded, those that arrive past schedule cycle 192 of beat b + 4 are void, and a flock in debug mode returns none (R367).
`parity`: a word it reads fails (R145). -/
def execRet (c : ACoreId) (f : RetF) (voidXfer : MoveErr) (s : State) : Host.Outcome State Fault Refusal :=
  let s := s.land c.flock
  let fl := c.flock.val
  if ¬ s.coreIssues c (RetF.word f) ∨ c.bulk then .next s
  else if s.toWrite c (64 * f.saddr.val) (areaBytes (ones 2 f.amask.val * 16) (f.noutM1.val + 1) 16 (RetF.nibs f)) then .next (s.issueWait c)
  else
    let k := s.acore c
    let w := s.instrWord c k.pc
    let n := Nat.max 1 (ceilDiv (RetF.bytes f) 64)
    let late4 := decide (192 * s.islMhz fl < (s.islCycle fl + n) * 1200)
    let s := s.issueInstr c true n
    match s.coreSect c with
    | none => .next s
    | some (ctx, _, t) =>
      let o := Sect.setBeat t
      let rows := s.retRows c f o
      let late := decide (o = 4) && late4
      let s := s.watchRet c f k.pc (bits w 96 16) (bits w 112 16) (rows.flatMap (·.2))
      if voidXfer = .parity then .next (s.arrayParity c (List.range (ACoreId.arrays c)))
      else if (s.flocks.get fl).debug then .next s
      else
        let give (r : CtxRes) (es : List Nat) : CtxRes :=
          if late then r.voided 16
          else if voidXfer = .transfer then r.voided 22
          else { r with mat := (es.mapIdx (fun j e => (j, e))).foldl (fun m je => m.put je.1 (toSigned (formatBits f.format.val) je.2)) r.mat }
        let s := rows.foldl (fun t r =>
          match r.1 with
          | some pk => t.modRes pk ctx f.ctxsel (give · r.2)
          | none => t) s
        .next (if voidXfer = .transfer then s.xferVoid fl 22 else s)

/-! ### COPY (R134, R242) -/

/-- The aperture COPY is void: its invocation is lost (R242). -/
def State.copyVoid (s : State) (c : ACoreId) : State := (s.bump Reg.HERD.APT_VOID).voidWork c 16 2
/-- Send the pieces of an aperture COPY: RD or WR messages of at most 256 bytes (R231, R232). -/
def State.copySend (s : State) (c : ACoreId) (f : CopyF) (a : Nat) : Nat → Nat → State
  | 0, _ => s
  | n + 1, i =>
    let len := 64 * (f.lenM1.val + 1)
    let k := 256 * i
    let sz := Nat.min 256 (len - k)
    let h := 64 * f.haddr.val + k
    let at_ := 64 * f.caddr.val + k
    let args : List Int := [(s.act Reg.HERD.APT_WIN 0 a : Int), ((h - 0xC000000000) % 2 ^ 34 : Nat), (sz : Int), (s.herd.nextTok : Int)]
      ++ (if f.dir then (s.coreBytes c at_ sz).map (fun b => (b.toNat : Int)) else [])
    let s := (s.sendTo (if f.dir then 18 else 17) (s.act Reg.HERD.APT_MEMBER 0 a) args).1
    let p : RemPend := { tok := s.herd.nextTok, core := c, write := f.dir, addr := at_, len := sz, seq := (s.acore c).seq, beat := s.time.beat }
    State.copySend { s with herd := { s.herd with remote := s.herd.remote ++ [p], nextTok := s.herd.nextTok + 1 } } c f a n (i + 1)
/-- The range meets the destination of a reduction whose latest result is VOID (R246). -/
def State.readsVoid (s : State) (a len : Nat) : Bool :=
  (List.range 4).any (fun r =>
    let x := s.herd.red.get r
    let dst := s.act Reg.HERD.RED_DST 0 r
    x.have_ && x.void && decide (a < dst + 16 * (s.act Reg.HERD.RED_LEN_M1 0 r + 1) + 64) && decide (dst < a + len))
/-- What a COPY to HBM may write: work that is void, or a flock in debug mode outside the observation rings, writes nothing (R160, R367). -/
def State.copyAllowed (s : State) (c : ACoreId) (f : CopyF) : Bool :=
  !s.workVoid c && (!(s.flocks.get c.flock.val).debug || s.inRegion 4 (64 * f.haddr.val) (64 * (f.lenM1.val + 1)))
/-- The flock's memory mover takes a COPY (R134): 64 bytes an island cycle, after the COPYs issued before it. -/
def State.moverTakes (s : State) (c : ACoreId) (f : CopyF) : State :=
  let fl := c.flock.val
  let start := Nat.max (s.islNow fl) (s.flocks.get fl).mover
  let last := start + f.lenM1.val
  let s := { s with flocks := s.flocks.mod fl (fun x => { x with mover := last + 1 }) }
  let s := s.landsBy c last
  s.modAcore c (fun k =>
    { k with copies := (k.copies.filter (fun r => decide (start ≤ r.2.2.1))) ++ [(64 * f.caddr.val, if f.dir then 0 else 64 * (f.lenM1.val + 1), last, s.time.beat)] })
/-- COPY (R134, R145, R298): the whole length moves through the flock's memory mover; one out of the core issues once its source has landed.
`lost`: a flit of an aperture COPY was lost. `parity`: a word of core memory it reads fails. A copy into the core that meets an uncorrectable line moves
nothing and voids the work. -/
def execCopy (c : ACoreId) (f : CopyF) (lost : MoveErr) (s : State) : Host.Outcome State Fault Refusal :=
  let s := s.land c.flock
  let len := 64 * (f.lenM1.val + 1)
  let h := 64 * f.haddr.val
  if ¬ s.coreIssues c (CopyF.word f) then .next s
  else if f.dir ∧ s.toWrite c (64 * f.caddr.val) len then .next (s.issueWait c)
  else
    let s := s.issueInstr c true
    if f.dir ∧ lost = .parity then .next (s.arrayParity c (List.range (ACoreId.arrays c)))
    else
      match apertureOf h with
      | some a =>
        if f.dir ∧ ¬ s.copyAllowed c f then .next s
        else if lost = .transfer ∨ ¬ s.aptOk a then .next (s.copyVoid c)
        else .next ((s.copySend c f a (ceilDiv len 256) 0).modAcore c (fun k => { k with seq := k.seq + 1 }))
      | none =>
        let s := s.moverTakes c f
        if f.dir then (if s.copyAllowed c f then .next (s.hbmWrite h (s.coreBytes c (64 * f.caddr.val) len)) else .next s)
        else
          match s.hbmUe h len with
          | some line => .next ((s.ueRecord line 0 0).voidWork c 22 2)
          | none =>
          let agg : Bool := match s.coreSect c with
            | some (_, v, _) => v.kind == 3
            | none => false
          let s := if agg && s.readsVoid h len then s.voidWork c 16 2 else s
          .next (s.coreStore c (64 * f.caddr.val) (Mem.readN s.hbm h len))

/-! ### Sync cells (R134, R221 to R225) -/

/-- SYNCP: the post is made once the drains and COPYs of earlier instructions have landed. -/
def execSyncp (c : ACoreId) (cell : Fin 256) (spanM1 : Fin 16) (s : State) : Host.Outcome State Fault Refusal :=
  let s := s.land c.flock
  if ¬ s.coreIssues c (syncpWord cell spanM1) then .next s
  else .next (((s.issueInstr c false).modAcore c (fun k => { k with posts := k.posts ++ [(cell.val, spanM1.val + 1, k.seq, s.time.beat)] })).releasePosts c)
/-- SYNC_POST_EFFECT (R222): the flock's oldest post takes effect, at the end of the third cycle after the one in which it was made. -/
def execSyncPostEffect (f : Flock) (s : State) : Host.Outcome State Fault Refusal :=
  let s := s.land f
  match s.arr.posts.get f.val with
  | [] => .next s
  | (cell, span, made) :: rest =>
    if ¬ s.flockRuns f.val ∨ s.islNow f.val < made + 3 then .next s
    else .next ({ s with arr := { s.arr with posts := s.arr.posts.set f.val rest } }.postSpan f cell span)
/-- A core of the flock that is served earlier waits on the same cell and is satisfied (R222: express cores 0 to 15, then bulk cores 0 to 7). -/
def State.servedFirst (s : State) (c : ACoreId) (cell : Nat) : Bool :=
  (List.range (c.num % 32)).any (fun n =>
    match (s.arr.cores.get (c.flock.val * 32 + n)).wait with
    | some (e, k) => decide (e = cell) && decide (k ≤ s.cell c.flock.val cell)
    | none => false)
/-- SYNCW: satisfied at once, or the core waits. A core served before it takes its count first. -/
def execSyncw (c : ACoreId) (cell : Fin 256) (count : BitVec 16) (s : State) : Host.Outcome State Fault Refusal :=
  let s := s.land c.flock
  if ¬ s.coreIssues c (syncwWord cell count) then .next s
  else
    let f := c.flock.val
    let s := s.issueInstr c false
    if count.toNat ≤ s.cell f cell.val ∧ (count = 0 ∨ ¬ s.servedFirst c cell.val) then .next (s.setCell f cell.val (s.cell f cell.val - count.toNat))
    else .next (s.modAcore c (fun k => { k with wait := some (cell.val, count.toNat) }))
/-- SYNCW_SATISFIED (R222): a waiting core's cell holds its COUNT, which is subtracted. -/
def execSyncwSatisfied (c : ACoreId) (s : State) : Host.Outcome State Fault Refusal :=
  let f := c.flock.val
  let s := s.land c.flock
  match (s.acore c).wait with
  | none => .next s
  | some (cell, count) =>
    if ¬ s.flockIssues f ∨ s.cell f cell < count ∨ s.servedFirst c cell then .next s
    else .next ((s.setCell f cell (s.cell f cell - count)).modAcore c (fun k => { k with wait := none }))

/-! ### Reload, withdrawal and patches (R145, R146, R184) -/

/-- Copy a section's content to its destination in a core: program banks, data, descriptors or tables (R129, R166, R206). -/
def State.placeSect (s : State) (c : ACoreId) (v : Version) (t : Sect) (bank : Bool) : State :=
  let bs := s.imgBytes v t
  let d := (c.num * 2 + b2n bank) * 2 ^ 15
  match t.type with
  | 6 => s.coreStore c (ACoreId.progBase c bank) bs
  | 7 => s.coreStore c (ACoreId.progBase c bank) bs
  | 8 => s.coreStore c t.dest bs
  | 9 => { s with arr := { s.arr with desc := Mem.writeN s.arr.desc (d + t.dest) bs } }
  | 10 => { s with arr := { s.arr with desc := Mem.writeN s.arr.desc (d + 8192 + t.dest) bs } }
  | _ => s
/-- Sections of a version for a core. -/
def Version.coreSects (v : Version) (c : ACoreId) : List Sect :=
  v.sects.filter (fun t => decide (6 ≤ t.type) && decide (t.type ≤ 10) && t.onFlock c.flock.val && t.unit == ACoreId.unit c)
/-- ARRAY_RELOAD (R145): the active program bank and the data are as their images give them, and this beat's output is void too. -/
def execArrayReload (c : ACoreId) (s : State) : Host.Outcome State Fault Refusal :=
  let k := s.acore c
  if ¬ k.reload then .next s
  else
    let s := (s.setAcore c { k with reload := false }).voidWork c 22 2
    match s.coreSect c with
    | none => .next s
    | some (_, v, _) => .next (((v.coreSects c).filter (fun t => decide (t.type ≤ 8))).foldl (fun u t => u.placeSect c v t k.progBank) s)
/-- A loaded plan binds array n of flock f (R127, R146). -/
def State.arrayUsed (s : State) (f n : Nat) : Bool :=
  s.versions.any (fun v => v.2.flocks.contains f && v.2.sects.any (fun t => (t.type == 6 || t.type == 7) && t.onFlock f &&
    t.arrays.contains n))
/-- ARRAY_WD_REQ (R146): accepted only while no loaded plan binds the array; it acts at the next plan load. -/
def execArrayWdReq (src : Source) (f : Flock) (n : Fin 64) (s : State) : Host.Outcome State Fault Refusal :=
  s.basicCmd src (fun s =>
    if s.arrayUsed f.val n.val then s.auditCmd src Reg.FLOCK.ARRAY_WD_REQ f.val n.val 1
    else
      let x := s.flocks.get f.val
      { s with flocks := s.flocks.set f.val { x with wdArray := x.wdArray ||| (1#64 <<< n.val) } }.auditCmd src Reg.FLOCK.ARRAY_WD_REQ f.val n.val 0)
/-- ARRAY_OFF (R146): the marked arrays are withdrawn at the next beat boundary, whatever plan uses them. -/
def execArrayOff (src : Source) (f : Flock) (mask : DWord) (s : State) : Host.Outcome State Fault Refusal :=
  s.expertCmd src Reg.FLOCK.ARRAY_OFF f.val mask.toNat (fun s => (s.wr Reg.FLOCK.ARRAY_OFF mask.toNat f.val).later (.arrayOff f.val mask))
/-- Arrays leave service; a flock whose plan uses one is withdrawn (R145, R305). -/
def State.arrayOut (s : State) (f : Nat) (mask : Nat) (dev : Bool) : State :=
  let ns := (List.range 64).filter (fun n => bits mask n 1 == 1)
  let used := ns.any (s.arrayUsed f)
  let s1 := s.wr Reg.FLOCK.ARRAY_WD (s.rd Reg.FLOCK.ARRAY_WD f ||| mask) f
  let s2 := { s1 with flt := { s1.flt with dmc := ns.foldl (fun d n => d.set (3 * 65536 + f * 64 + n) .withdrawn) s1.flt.dmc } }
  if used then s2.flockOut f dev else s2
/-- FLOCK_PATCH_GO (R184): PATCH_DATA goes to the word that the PATCH fields name, in the bank that is active at the next beat boundary. -/
def execFlockPatchGo (src : Source) (f : Flock) (s : State) : Host.Outcome State Fault Refusal :=
  s.expertCmd src Reg.FLOCK.PATCH_GO f.val 1 (fun s =>
    s.later (.patch ((f.val * 2 + s.rd Reg.FLOCK.PATCH_CLASS f.val) * 16 + s.rd Reg.FLOCK.PATCH_CORE f.val) (s.rd Reg.FLOCK.PATCH_AREA f.val == 1)
      (s.rd Reg.FLOCK.PATCH_WORD f.val) (BitVec.ofNat 64 (s.rd Reg.FLOCK.PATCH_DATA f.val))))

end Sys2Proof.Machine
end

