-- ==== Sys2Proof/Machine/Programs.lean ====
section
/-! DEFINITION. What the device checks of an image's content at load: feature programs and slot maps (R97, R98, R100), tree words (R115,
R120, R121), verdict descriptors and action entries (R186, R187), and the load-time simulation of beat programs (R136, R150, R161, R183, R223). -/

namespace Sys2Proof.Machine

open Sys2Proof

/-- A failed check: its code (R209) and the byte offset in the section's content. -/
abbrev Bad := Nat × Nat

/-- 32-bit and 64-bit words of a content, with their byte offsets. -/
def words4 (bs : List Byte) : List (Nat × Nat) := (List.range (bs.length / 4)).map (fun i => (4 * i, leAt bs (4 * i) 4))
/-- A failure where a condition holds. -/
def badIf (b : Bool) (code off : Nat) : List Bad := if b then [(code, off)] else []

/-! ### Feature programs (R97, R98, R100) -/

/-- A feature instruction that R97 does not allow. `last` is the index of the last instruction, `tables` the tables the set has. -/
def featBad (w pc last tables : Nat) : Bool :=
  let op := bits w 26 6
  let far := bits w 0 12 == 0 || decide (last < pc + 1 + bits w 0 12)
  if op = 0 ∨ op = 0x3F then decide (bits w 0 26 ≠ 0)
  else if op = 1 then decide (bits w 9 5 ≠ 0) || decide (bits w 16 2 = 3)
  else if op = 2 then false
  else if op = 3 then decide (bits w 12 8 ≠ 0)
  else if 4 ≤ op ∧ op ≤ 0xE then bits w 13 1 == 0 && decide (bits w 6 7 ≠ 0)
  else if op = 0x10 then decide (bits w 4 10 ≠ 0) || decide (tables ≤ bits w 0 4)
  else if op = 0x11 then decide (bits w 0 14 ≠ 0)
  else if op = 0x18 ∨ op = 0x19 then decide (bits w 20 6 ≠ 0) || decide (bits w 12 2 ≠ 0) || far
  else if op = 0x1A then decide (bits w 12 14 ≠ 0) || far
  else if op = 0x20 ∨ op = 0x21 then decide (bits w 20 6 ≠ 0) || decide (bits w 6 8 ≠ 0)
  else if op = 0x22 then decide (bits w 20 6 ≠ 0) || decide (bits w 6 8 ≠ 0) || decide (bits w 0 6 < 16)
  else true
/-- The longest path from each instruction on, END counted; none where some path has no END (R98). -/
def featPaths : List Word → List (Option Nat)
  | [] => []
  | w :: t =>
    let rest := featPaths t
    let at_ (i : Nat) : Option Nat := (rest[i]?).join
    let op := bits w.toNat 26 6
    let here : Option Nat :=
      if op = 0x3F then some 1
      else if op = 0x18 ∨ op = 0x19 ∨ op = 0x1A then
        match at_ 0, at_ (bits w.toNat 0 12) with
        | some a, some b => some (Nat.max a b + 1)
        | _, _ => none
      else (at_ 0).map (· + 1)
    here :: rest
/-- A program of a set is refused (R97, R98). -/
def featProgBad (prog : List Word) (tables : Nat) : Bool :=
  (prog.mapIdx (fun i w => featBad w.toNat i (prog.length - 1) tables)).any id ||
    (match (featPaths prog).head?.join with
     | some n => decide (160 < n)
     | none => true)
/-- A slot map entry that R100 refuses. -/
def slotBad (e : Nat) : Bool :=
  let w := 2 ^ bits e 11 2
  decide (bits e 0 2 = 3) || decide (bits e 11 2 = 3) || decide (bits e 15 1 ≠ 0) || decide (bits e 21 11 ≠ 0) ||
    (decide (bits e 0 2 = 1) && decide (512 < bits e 2 9 + w)) || (decide (bits e 0 2 = 2) && decide (bits e 8 3 ≠ 0))

/-! ### Trees (R115, R120, R121) -/

/-- Issue entries: a depth outside 1 to 12 in an entry that issues, or a reserved bit. -/
def issueBad (bs : List Byte) : List Bad :=
  (words4 bs).flatMap (fun e => badIf (decide (bits e.2 30 2 ≠ 0) || (bits e.2 29 1 == 1 && decide (12 < bits e.2 10 4 + 1))) 23 e.1)
/-- Gather words and output descriptors. The section's own layout is not given, so a failure is located at its first byte. -/
def gatherBad (bs : List Byte) : List Bad :=
  let (ws, _, ds) := Config.gatherSection bs
  badIf (ws.any (fun w => decide (bits w.toNat 21 11 ≠ 0)) ||
    ds.any (fun d => decide (48 < bits d.toNat 32 6) || decide (bits d.toNat 38 2 = 3) || decide (bits d.toNat 40 24 ≠ 0)) ||
    decide (512 < ws.length)) 23 0

/-! ### Verdict descriptors and action tables (R186, R187) -/

/-- Outputs that a VERDICT section's descriptor reads. -/
def vdReads (d : Nat → Nat) : List Nat :=
  (if bits (d 0) 2 2 = 1 then (List.range (bits (d 0) 12 4 + 1)).map (bits (d 0) 8 4 + ·) else [bits (d 0) 4 4]) ++ [bits (d 0) 20 4, bits (d 0) 24 4]
/-- A verdict descriptor refused under R186; `tree` and `mat` are the outputs the plan produces on each path. -/
def vdBad (bs : List Byte) (tree mat : List Nat) : List Bad :=
  let d (i : Nat) : Nat := leAt bs (4 * i) 4
  let w := d 0
  let made (k : Nat) : Bool := if bits w 0 2 = 0 then tree.contains k else if bits w 0 2 = 1 then mat.contains k else tree.contains k && mat.contains k
  let nt := bits w 16 4
  badIf (decide (bits w 0 2 = 3) || decide (bits w 2 2 = 3)) 24 0 ++ badIf (decide (bits w 2 2 = 1) && decide (15 < bits w 8 4 + bits w 12 4)) 24 0 ++
    badIf ((vdReads d).any (fun k => !made k)) 24 0 ++
    (List.range 14).flatMap (fun i => badIf (decide (bits w 2 2 = 2) && decide (i + 2 ≤ nt) && decide (toSigned 32 (d (i + 3)) < toSigned 32 (d (i + 2)))) 24 (4 * (i + 3)))
/-- Action entries refused under R187; entry 0 is fixed at zero. -/
def actBad (bs : List Byte) : List Bad :=
  (List.range 15).flatMap (fun i =>
    let e := leAt bs (80 + 4 * (i + 1)) 4
    badIf ((bits e 1 1 == 1 && bits e 2 1 == 1) || (bits e 2 1 == 1 && decide (bits e 3 4 = 0)) || decide (bits e 14 18 ≠ 0)) 24 (80 + 4 * (i + 1)))

/-! ### Beat programs (R136, R150, R161, R183) -/

/-- What a program is checked against: the core's class, its instructions, its descriptors and its user tables that the image fills. -/
structure ProgEnv where
  bulk : Bool
  words : List Nat
  descs : Mem := []
  tabled : List Nat := []      -- user tables that the image fills
  inl : Bool := false          -- the image is an in-line version, which addresses no aperture (R242)
  hmax : List Nat := []        -- HMAX of the apertures (R242)
  deriving DecidableEq, Repr, Inhabited

/-- Bytes of the data area (R129). -/
def ProgEnv.area (p : ProgEnv) : Nat := if p.bulk then 0x7C000 else 0x1E000
/-- Descriptor e of the image. -/
def ProgEnv.desc (p : ProgEnv) (e : Nat) : Nat := Mem.readLE p.descs (32 * e) 32

/-- A tile that stays in a lane: format, window and indices added. -/
structure OpenTile where
  fmt : Nat
  lo : Nat
  span : Nat
  count : Nat
  deriving DecidableEq, Repr, Inhabited

/-- The simulation of a program: what its instructions leave behind. -/
structure Sim where
  ws : Bool := false
  loads : Tbl (Nat × Nat) := []    -- array × 2 + bank: format and KLEN of the last LOADH; kept with find?
  tiles : Tbl OpenTile := []       -- array × 4 + lane: a tile not final; kept with find?
  fresh : List Nat := []           -- banks of `loads` that no STREAM has read yet
  grows : List Nat := []           -- keys of tiles whose chain has grown over the beat before
  ended : Bool := false
  pc : Nat := 0
  errs : List Bad := []
  deriving DecidableEq, Repr, Inhabited

/-- Add failures at the present instruction. -/
def Sim.fail (s : Sim) (l : List (Bool × Nat)) : Sim := { s with errs := s.errs ++ l.flatMap (fun e => badIf e.1 e.2 (16 * s.pc)) }
/-- Arrays an instruction names. -/
def Sim.arrays (s : Sim) (bulk : Bool) (amask : Nat) : List Nat :=
  if bulk && s.ws then [0] else (List.range (if bulk then 4 else 2)).filter (fun a => bits amask a 1 == 1)
/-- AMASK, BANK and FMT that the core does not allow (R127, R132, R133). -/
def Sim.maskFails (s : Sim) (bulk : Bool) (amask bank fmt : Nat) : List (Bool × Nat) :=
  [(!bulk && decide (3 < amask), 7), (s.ws && decide (amask ≠ 15), 16), (!bulk && decide (bank = 1), 16), (decide (8 < fmt), 16)]
/-- Descriptor fields shared by epilogues and prologues (R183). -/
def ProgEnv.actFails (p : ProgEnv) (d : Nat) : List (Bool × Nat) :=
  let act := bits d 35 4
  let tbl := bits d 39 4
  [(decide (4 < act), 22), (decide (act = 2) && decide (toSigned 32 (bits d 160 32) < toSigned 32 (bits d 128 32)), 22), (decide (act = 3) && decide (bits d 43 5 = 0), 22),
    ((decide (act = 4) && decide (tbl = 0)) || decide (tbl = 6) || decide (tbl = 7) || decide (11 < tbl), 22),
    (decide (8 ≤ tbl) && decide (tbl ≤ 11) && !p.tabled.contains tbl, 22)]
/-- Bytes of an MX operand past its element area (R152): scale words and tags of `blocks` blocks in `groups` groups. -/
def mxTail (groups blocks : Nat) : Nat := ceilDiv (8 * groups) 64 * 64 + ceilDiv blocks 128 * 64
/-- Bytes of a STREAM's output, its row-statistics records among them (R152, R163, R176). -/
def simOut (m named n w nibs : Nat) (mx stat : Bool) : Nat :=
  areaBytes m n w nibs + (if mx then mxTail (named * (ceilDiv n 32 * 32 / 4)) (named * (ceilDiv n 32 * 32)) else 0) + (if stat then 128 * m else 0)

/-- LOADH (R132, R136, R150, R177 to R183). -/
def Sim.loadh (s : Sim) (p : ProgEnv) (w : Nat) : Sim :=
  let amask := bits w 6 4
  let bank := bits w 10 1
  let fmt := bits w 11 4
  let src := bits w 16 1 == 1
  let pro := bits w 17 8
  let klen := bits w 25 11
  let arrs := s.arrays p.bulk amask
  let g := geoOf p.bulk s.ws
  let m := g.rows * arrs.length
  let d := p.desc pro
  let ifmt := bits d 2 4
  let norm := bits d 6 1 == 1
  let nib := if pro = 0 then (fmtElem fmt).nibs else (ofmtElem ifmt).nibs
  let span := areaBytes m klen g.w nib + (if pro = 0 ∧ fmtMx fmt then mxTail (m * ceilDiv klen 128) (m * (klen / 32)) else 0)
  let past (a n : Nat) : Bool := decide (p.area < a + n)
  let s := s.fail (s.maskFails p.bulk amask bank fmt ++
    [(decide (bits w 49 47 ≠ 0), 16), (decide (klen = 0) || decide (g.held < klen), 16), (src && p.bulk, 16), (src && (decide (pro = 0) || decide (ifmt ≠ 4)), 16),
     (!src && past (64 * bits w 36 13) span, 17), (fmtMx fmt && decide (klen % 32 ≠ 0), 19)] ++
    (if pro = 0 then [] else
      [(decide (bits d 0 2 ≠ 2), 22), (decide (ifmt = 0) || decide (7 < ifmt), 22), (decide (5 ≤ ifmt) && decide (bits d 52 6 ≠ 0), 22), (norm && src, 22),
       (bits d 7 1 == 1 && decide (bits d 77 3 ≠ 0), 22), (past (64 * bits d 8 13) (8 * klen), 17),
       (norm && past (64 * bits d 64 13 + 64 * bits d 80 13 * bits d 77 3) (128 * m), 17)] ++ p.actFails d))
  { s with loads := arrs.foldl (fun t a => t.put (a * 2 + bank) (fmt, klen)) s.loads, fresh := (s.fresh ++ arrs.map (fun a => a * 2 + bank)).eraseDups }
/-- STREAM (R133, R136, R150, R161, R183). -/
def Sim.stream (s : Sim) (p : ProgEnv) (w : Nat) : Sim :=
  let amask := bits w 6 4
  let bank := bits w 10 1
  let lane := bits w 11 2
  let acc := bits w 13 1 == 1
  let final := bits w 14 1 == 1
  let stat := bits w 15 1 == 1
  let fmt := bits w 16 4
  let epi := bits w 20 8
  let k := bits w 29 11
  let n := bits w 40 16 + 1
  let lo := bits w 82 8
  let sp := bits w 90 5
  let arrs := s.arrays p.bulk amask
  let g := geoOf p.bulk s.ws
  let m := g.rows * arrs.length
  let cols := if s.ws then 1024 else g.cols
  let chunks := ceilDiv n cols
  let lanes := if acc ∨ ¬ final then (List.range chunks).map (lane + ·) else [lane]
  let d := p.desc epi
  let ofmt := bits d 2 4
  let omx := decide (epi ≠ 0) && ofmtMx ofmt
  let nib := if epi = 0 then laneBits fmt / 4 else (ofmtElem ofmt).nibs
  let cells := arrs.flatMap (fun a => lanes.map (fun l => a * 4 + l))
  let held := arrs.map (fun a => s.loads.find? (a * 2 + bank))
  let past (a n : Nat) : Bool := decide (p.area < a + n)
  let wcols := ceilDiv n g.w * g.w
  let wspan := areaBytes k n g.w (fmtElem fmt).nibs + (if fmtMx fmt then mxTail (k / 32 * (wcols / 4)) (k / 32 * wcols) else 0)
  let old (c : Nat) : Nat := if acc then ((s.tiles.find? c).map (·.count)).getD 0 else 0
  let mixed := arrs.any (fun a => s.tiles.any (fun t => t.1 / 4 == a && t.2.fmt != fmt))
  let out := simOut m arrs.length n g.w nib omx stat
  let s := s.fail (s.maskFails p.bulk amask bank fmt ++
    [(p.bulk && bits w 95 1 == 1, 16), (decide (k = 0) || held.any (fun h => (h.map (fun x => decide (x.2 < k))).getD false), 16),
     (past (64 * bits w 56 13) wspan, 17), (final && past (64 * bits w 69 13) out, 17),
     (decide (tilesOf fmt < lane + (if acc ∨ ¬ final then chunks else 1)), 18), (held.any (fun h => (h.map (·.1)) != some fmt), 18),
     (cells.any (fun c => match s.tiles.find? c with
       | some t => !acc || decide (t.fmt ≠ fmt) || decide (t.lo ≠ lo) || decide (t.span ≠ sp)
       | none => acc) || mixed, 18),
     (fmtMx fmt && (decide (sp = 0) || decide (24 < sp) || decide (k % 32 ≠ 0)), 19), (omx && (!p.bulk || s.ws), 19),
     (cells.any (fun c => decide (2 ^ 24 < old c + k) || (acc && s.grows.contains c)), 20), (stat && (!final || decide (epi = 0) || omx), 21)] ++
    (if epi = 0 then [] else
      [(decide (bits d 0 2 ≠ 1), 22), (decide (ofmt = 0) || decide (11 < ofmt), 22), (decide (bits d 6 2 = 3), 22),
       (decide (bits d 6 2 = 1) && past (64 * bits d 8 13) (8 * n), 17)] ++ p.actFails d))
  let tiles := if final then cells.foldl (fun t c => t.erase c) s.tiles
    else cells.foldl (fun t c => t.put c { fmt := fmt, lo := lo, span := sp, count := old c + k }) s.tiles
  { s with tiles := tiles, fresh := s.fresh.filter (fun b => !(arrs.map (fun a => a * 2 + bank)).contains b) }
/-- OFMT of RET's FORMAT. -/
def retOfmt (f : Nat) : Nat := if f = 0 then 4 else if f = 1 then 3 else 2
/-- RET (R134, R136, R183). -/
def Sim.ret (s : Sim) (p : ProgEnv) (w : Nat) : Sim :=
  let a := 64 * bits w 6 13
  let m := 16 * ones 2 (bits w 32 2)
  let span := areaBytes m (bits w 26 4 + 1) 16 (formatBits (bits w 30 2) / 4)
  s.fail [(p.bulk, 16), (decide (bits w 34 62 ≠ 0), 16), (decide (bits w 30 2 = 3), 16), (decide (p.area < a + span), 17)]
/-- One instruction (R131, R136). What stands after END is not run. -/
def Sim.instr (p : ProgEnv) (s : Sim) (w : Nat) : Sim :=
  let op := bits w 0 6
  let s' :=
    if s.ended then s
    else if op = 0 then s.fail [(decide (bits w 6 90 ≠ 0), 16)]
    else if op = 1 then s.loadh p w
    else if op = 2 then s.stream p w
    else if op = 3 then
      { s.fail [(!p.bulk, 16), (decide (bits w 7 89 ≠ 0), 16), (!s.tiles.isEmpty || !s.fresh.isEmpty, 16)] with ws := bits w 6 1 == 1 }
    else if op = 6 then s.ret p w
    else if op = 7 then s.fail [(decide (bits w 70 26 ≠ 0), 16), (decide (p.area < 64 * bits w 7 13 + 64 * (bits w 20 16 + 1)), 17),
      (p.inl && decide (0xC000000000 < 64 * bits w 36 34 + 64 * (bits w 20 16 + 1)), 17)]
    else if op = 8 then s.fail [(decide (bits w 18 78 ≠ 0), 16), (decide (255 < bits w 6 8 + bits w 14 4), 16), (decide (247 < bits w 6 8 + bits w 14 4), 8)]
    else if op = 9 then s.fail [(decide (bits w 30 66 ≠ 0), 16), (decide (247 < bits w 6 8), 8)]
    else if op = 0x3F then { s.fail [(decide (bits w 6 90 ≠ 0), 16)] with ended := true }
    else s.fail [(true, 16)]
  { s' with pc := s.pc + 1 }
/-- Run a program once from what the beat before left. -/
def Sim.beat (p : ProgEnv) (s : Sim) : Sim := p.words.foldl (Sim.instr p) { s with pc := 0, errs := [], ended := false }
/-- The failures of a program (R136): those of a beat that follows two beats of the same program. A tile whose chain has grown from the one beat to the
other goes on growing beat by beat, past every bound (R161). A program without END cannot meet R130. -/
def progBad (p : ProgEnv) : List Bad :=
  let s1 := Sim.beat p {}
  let s2 := Sim.beat p s1
  let grows := (s2.tiles.filter (fun t => decide (((s1.tiles.find? t.1).map (·.count)).getD t.2.count < t.2.count))).map (·.1)
  let s := Sim.beat p { s2 with grows := grows }
  s.errs ++ badIf (!s.ended) 10 0 ++ badIf (decide ((if p.bulk then 512 else 256) < p.words.length)) 9 0
/-- The instruction words of a program section. -/
def progWords (bs : List Byte) : List Nat := (List.range (bs.length / 16)).map (fun i => leAt bs (16 * i) 16)
/-- The instructions that run: those before END. -/
def liveWords (ws : List Nat) : List Nat := ws.takeWhile (fun w => decide (bits w 0 6 ≠ 0x3F))
/-- Posts and waits of a program, as amounts added to cells: cell, +1 for a post, −COUNT for a wait (R134). -/
def cellDeltas (ws : List Nat) : List (Nat × Int) :=
  (liveWords ws).flatMap (fun w =>
    if bits w 0 6 = 8 then (List.range (bits w 14 4 + 1)).map (fun i => (bits w 6 8 + i, (1 : Int)))
    else if bits w 0 6 = 9 then [(bits w 6 8, -(bits w 14 16 : Int))] else [])
/-- Bytes the COPYs of a program move to or from HBM in a beat (R209, BANDWIDTH). -/
def copyBytes (ws : List Nat) : Nat :=
  ((liveWords ws).map (fun w => if bits w 0 6 = 7 ∧ 64 * bits w 36 34 < 0xC000000000 then 64 * (bits w 20 16 + 1) else 0)).sum
/-- Multiply-accumulates a program makes for each of its rows (R6). -/
def streamMacs (ws : List Nat) : Nat := ((liveWords ws).map (fun w => if bits w 0 6 = 2 then bits w 29 11 * (bits w 40 16 + 1) else 0)).sum
/-- Outputs a program's RETs return for a side (R134). -/
def retOutputs (ws : List Nat) : List Nat := (liveWords ws).flatMap (fun w => if bits w 0 6 = 6 then List.range (bits w 26 4 + 1) else [])

end Sys2Proof.Machine
end

