-- ==== Sys2Proof/Machine/Sched.lean ====
section
/-! DEFINITION. The static schedule of a flock's beat programs (R136): the load-time simulation in island cycles, which decides whether the programs meet
R130 and R144 at a clock, the boundary values of the sync cells they name (R223), the posts they make after the boundary (R224), and which drain wrote
the source of a RET (R183). Programs without branches run at the same cycles in every beat. -/

namespace Sys2Proof.Machine

open Sys2Proof

/-- A write in a core's memory: its bytes, the island cycle from which it stands there, 1 + its OFMT (0 for a COPY), and whether the core tracks it
(R137: its own, not another core's broadcast). -/
structure SchWrite where
  lo : Nat
  len : Nat
  at_ : Nat
  fmt : Nat
  own : Bool
  deriving DecidableEq, Repr, Inhabited

/-- A core in the simulation. Tables by array × 2 + bank, `finals` by array. -/
structure SchCore where
  env : ProgEnv
  id : Nat                     -- place in the service order of R222: express 0 to 15, bulk 16 to 23
  o4 : Bool := false           -- its set is that of beat b + 4 (R210)
  ws : Bool := false
  run : Bool := false
  pc : Nat := 0
  next : Nat := 0              -- first cycle in which it may issue
  wait : Option (Nat × Nat) := none
  streamEnd : Nat := 0
  port : Nat := 0
  landAt : Nat := 0            -- first cycle in which all it has started has landed
  written : Tbl (Nat × Nat) := []  -- cycles of the first held write, and after the last
  readEnd : Tbl Nat := []
  finals : Tbl Nat := []       -- 1 + end of the last final chunk
  writes : List SchWrite := []
  late : Bool := false         -- it broke a limit of R130 or the deadline of R144
  wrong : List Nat := []       -- instructions: RETs of another format than their source (R183)
  after : List (Nat × Nat × Nat) := []  -- posts made after the boundary: cycles past it, cell, span (R224)
  deriving DecidableEq, Repr, Inhabited

/-- A flock in the simulation. -/
structure SchFlock where
  mhz : Nat
  len : Nat                    -- island cycles in a beat (R220)
  cores : List SchCore
  cells : Tbl Nat := []
  posts : List (Nat × Nat × Nat) := []  -- cycle in which it is made, cell, span
  mover : Nat := 0
  full : Bool := false         -- a cell would pass 65,535
  deriving DecidableEq, Repr, Inhabited

/-- A write that the core tracks is still to come to a line of the range (R137). -/
def SchCore.toWrite (c : SchCore) (t lo len : Nat) : Bool := c.writes.any (fun x => x.own && decide (t < x.at_) && sameLine x.lo x.len lo len)
/-- The core starts what ends before cycle `till`: past the end of the next beat it breaks R130. -/
def SchCore.lands (c : SchCore) (start len till : Nat) : SchCore :=
  { c with landAt := Nat.max c.landAt till, late := c.late || decide (start + len + Nat.min len 512 < till) }
/-- The instruction issues in cycle t and takes n issue cycles. -/
def SchCore.issued (c : SchCore) (t n : Nat) : SchCore := { c with pc := c.pc + 1, next := t + n }

/-- Cycles from the issue of a COPY to its first data: 192 HMAX + 640 ns from an aperture (R242). -/
def SchCore.aptDelay (c : SchCore) (mhz w : Nat) : Nat :=
  match apertureOf (64 * bits w 36 34) with
  | some a => if bits w 6 1 = 1 then 0 else ceilDiv ((192 * c.env.hmax.getD a 0 + 640) * mhz) 1000
  | none => 0
/-- LOADH in cycle t (R132, R137, R141, R142, R180). -/
def SchCore.loadh (c : SchCore) (t w : Nat) : SchCore :=
  let bank := bits w 10 1
  let fmt := bits w 11 4
  let xp := bits w 15 1 == 1
  let pro := bits w 17 8
  let klen := bits w 25 11
  let arrs := ({ ws := c.ws } : Sim).arrays c.env.bulk (bits w 6 4)
  let g := geoOf c.env.bulk c.ws
  let m := g.rows * arrs.length
  let d := c.env.desc pro
  let norm := decide (pro ≠ 0) && bits d 6 1 == 1
  let nib := if pro = 0 then (fmtElem fmt).nibs else (ofmtElem (bits d 2 4)).nibs
  let span := areaBytes m klen g.w nib + (if pro = 0 ∧ fmtMx fmt then mxTail (m * ceilDiv klen 128) (m * (klen / 32)) else 0)
  let busy := (bits w 16 1 == 0 && c.toWrite t (64 * bits w 36 13) span) || (xp && decide (t < c.port)) ||
    (norm && (List.range (bits d 77 3 + 1)).any (fun n => c.toWrite t (64 * bits d 64 13 + 64 * bits d 80 13 * n) (128 * m)))
  if busy then c
  else
    let n := if c.env.bulk then ceilDiv klen g.slab else g.rows
    let keys := arrs.map (fun a => a * 2 + bank)
    let at_ := (keys.map (fun k => Nat.max (c.readEnd.get k) (c.written.get k).2)).foldl Nat.max (t + if norm then 20 else 8)
    let written := keys.foldl (fun u k => u.set k (at_, at_ + n)) c.written
    { c.issued t 1 with written := written, port := if xp then at_ + n else c.port }
/-- What a STREAM that issues in cycle t writes: one range of element area for each chunk and array, MX scales and tags, and row records (R135, R138,
R152, R163). -/
def SchCore.streamWrites (c : SchCore) (t w : Nat) : List SchWrite :=
  let f := bits w 16 4
  let epi := bits w 20 8
  let k := bits w 29 11
  let n := bits w 40 16 + 1
  let arrs := ({ ws := c.ws } : Sim).arrays c.env.bulk (bits w 6 4)
  let g := geoOf c.env.bulk c.ws
  let m := g.rows * arrs.length
  let chunks := ceilDiv n g.cols
  let cyc := if fmtPairs f then ceilDiv k 2 else k
  let per := Nat.max cyc g.rows
  let ofmt := if epi = 0 then 0 else bits (c.env.desc epi) 2 4
  let nib := if epi = 0 then laneBits f / 4 else (ofmtElem ofmt).nibs
  let base := 64 * bits w 69 13
  let area := areaBytes m n g.w nib
  let nc := ceilDiv n 32 * 32
  let tg := base + area + ceilDiv (8 * arrs.length * (nc / 4)) 64 * 64
  let done (x : Nat) : Nat := t + x * per + cyc - 1 + g.drain + g.rows
  (List.range chunks).flatMap (fun x => (List.range arrs.length).flatMap (fun pos =>
    let col := x * g.cols
    let cols := Nat.min g.cols (n - col)
    let wr (lo len : Nat) : SchWrite := { lo := lo, len := len, at_ := done x, fmt := ofmt + 1, own := true }
    wr (base + (col * m + pos * g.rows * g.w) * nib / 2) (ceilDiv cols g.w * g.rows * g.w * nib / 2) ::
      (if epi ≠ 0 ∧ ofmtMx ofmt then [wr (base + area + 8 * (pos * (nc / 4) + col / 4)) (2 * cols), wr (tg + (pos * nc + col) / 2) (ceilDiv cols 2)] else []))) ++
  (if bits w 15 1 = 1 then (List.range arrs.length).map (fun pos =>
      { lo := base + area + 128 * (pos * g.rows), len := 128 * g.rows, at_ := done (chunks - 1) + g.rows, fmt := 0, own := true }) else [])
/-- STREAM in cycle t (R128, R137 to R142); the writes that its broadcast makes in the other express cores. -/
def SchCore.stream (c : SchCore) (start len t w : Nat) : SchCore × List SchWrite :=
  let bank := bits w 10 1
  let final := bits w 14 1 == 1
  let f := bits w 16 4
  let xpw := bits w 28 1 == 1
  let k := bits w 29 11
  let n := bits w 40 16 + 1
  let arrs := ({ ws := c.ws } : Sim).arrays c.env.bulk (bits w 6 4)
  let g := geoOf c.env.bulk c.ws
  let chunks := ceilDiv n g.cols
  let cyc := if fmtPairs f then ceilDiv k 2 else k
  let per := if final then Nat.max cyc g.rows else cyc
  let last := t + (chunks - 1) * per + cyc - 1
  let wcols := ceilDiv n g.w * g.w
  let wspan := areaBytes k n g.w (fmtElem f).nibs + (if fmtMx f then mxTail (k / 32 * (wcols / 4)) (k / 32 * wcols) else 0)
  let keys := arrs.map (fun a => a * 2 + bank)
  let held (x : Nat) : Bool := let h := c.written.get x; if c.env.bulk then decide (h.1 < t) else decide (h.2 ≤ t)
  let spaced (a : Nat) : Bool := !final || decide (c.finals.get a = 0) || decide (c.finals.get a + g.rows ≤ t + cyc)
  if !(keys.all held) || !(arrs.all spaced) || c.toWrite t (64 * bits w 56 13) wspan || decide (t < c.streamEnd) || (xpw && decide (t < c.port)) then (c, [])
  else
    let ws := if final then c.streamWrites t w else []
    let bc := if bits w 95 1 = 1 ∧ ¬ c.env.bulk then ws.map (fun x => { x with at_ := x.at_ + 8, own := false }) else []
    let till := (ws ++ bc).foldl (fun u x => Nat.max u x.at_) 0
    let readEnd := keys.foldl (fun u x => u.set x (last + 1)) c.readEnd
    let finals := if final then arrs.foldl (fun u a => u.set a (last + 1)) c.finals else c.finals
    let c := (c.issued t 1).lands start len till
    ({ c with streamEnd := last + 1, port := if xpw then last + 1 else c.port, readEnd := readEnd, finals := finals, writes := c.writes ++ ws }, bc)

/-- A write in its place, the newest first; of two of one cycle the one listed later is the newer. -/
def insertNew (x : SchWrite) : List SchWrite → List SchWrite
  | [] => [x]
  | y :: ys => if y.at_ ≤ x.at_ then x :: y :: ys else y :: insertNew x ys
/-- Some byte of the ranges `left` was last written by a drain of another format. -/
def otherFormat (fmt : Nat) : List SchWrite → List (Nat × Nat) → Bool
  | [], _ => false
  | x :: xs, left =>
    let hit := left.any (fun r => decide (x.lo < r.2) && decide (r.1 < x.lo + x.len))
    if hit ∧ x.fmt ≠ 0 ∧ x.fmt ≠ fmt + 1 then true
    else otherFormat fmt xs (left.flatMap (fun r => [(r.1, Nat.min r.2 x.lo), (Nat.max r.1 (x.lo + x.len), r.2)].filter (fun q => decide (q.1 < q.2))))
/-- RET in cycle t (R134, R144, R183). -/
def SchCore.ret (c : SchCore) (start mhz t w : Nat) : SchCore :=
  let a := 64 * bits w 6 13
  let m := 16 * ones 2 (bits w 32 2)
  let nib := formatBits (bits w 30 2) / 4
  let nout := bits w 26 4 + 1
  let span := areaBytes m nout 16 nib
  if c.toWrite t a span then c
  else
    let n := Nat.max 1 (ceilDiv (m * nout * nib / 2) 64)
    let past := (c.writes.filter (fun x => decide (x.at_ ≤ t))).foldl (fun l x => insertNew x l) []
    let bad := otherFormat (retOfmt (bits w 30 2)) past [(a, a + span)]
    let late := c.o4 && decide (192 * mhz < (t + n - start) * 1200)
    { c.issued t n with wrong := if bad then c.wrong ++ [c.pc] else c.wrong, late := c.late || late }

/-- Core i of the flock takes its cycle t: a wait that ends lets the next instruction issue in the same cycle (R144's worked example). -/
def SchFlock.coreStep (x : SchFlock) (t i : Nat) : SchFlock :=
  match x.cores[i]? with
  | none => x
  | some c =>
    let start := t / x.len * x.len
    let (cells, c) : Tbl Nat × SchCore := match c.wait with
      | some (cell, n) => if n ≤ x.cells.get cell then (x.cells.set cell (x.cells.get cell - n), { c with wait := none }) else (x.cells, c)
      | none => (x.cells, c)
    let x := { x with cells := cells }
    let put (c : SchCore) : SchFlock := { x with cores := x.cores.set i c }
    if ¬ c.run ∨ c.wait.isSome ∨ t < c.next then put c
    else
      let w := c.env.words.getD c.pc 0
      let op := bits w 0 6
      if op = 1 then put (c.loadh t w)
      else if op = 2 then
        let (c, bc) := c.stream start x.len t w
        let y := put c
        if bc.isEmpty then y else { y with cores := y.cores.map (fun k => if k.env.bulk ∨ k.id = c.id then k else { k with writes := k.writes ++ bc }) }
      else if op = 3 then put { c.issued t 4 with ws := bits w 6 1 == 1 }
      else if op = 6 then put (c.ret start x.mhz t w)
      else if op = 7 then
        let a := 64 * bits w 7 13
        let n := bits w 20 16 + 1
        if bits w 6 1 = 1 ∧ c.toWrite t a (64 * n) then put c
        else
          let moved := Nat.max t x.mover + n
          let till := Nat.max moved (t + c.aptDelay x.mhz w + n)
          let c := (c.issued t 1).lands start x.len till
          { put { c with writes := if bits w 6 1 = 1 then c.writes else c.writes ++ [{ lo := a, len := 64 * n, at_ := till, fmt := 0, own := true }] } with mover := moved }
      else if op = 8 then
        let made := Nat.max t c.landAt
        let c := { (c.issued t 1) with late := c.late || decide (start + x.len + Nat.min x.len 512 < made + 4) }
        let c := if made < start + x.len then c else { c with after := c.after ++ [(made - (start + x.len), bits w 6 8, bits w 14 4 + 1)] }
        { put c with posts := x.posts ++ [(made, bits w 6 8, bits w 14 4 + 1)] }
      else if op = 9 then
        let cell := bits w 6 8
        let n := bits w 14 16
        if n ≤ x.cells.get cell then { put (c.issued t 1) with cells := x.cells.set cell (x.cells.get cell - n) }
        else put { c.issued t 1 with wait := some (cell, n) }
      else if op = 0x3F then put { c.issued t 1 with run := false, late := c.late || decide (511 < t - start) }
      else put (c.issued t 1)
/-- Posts that took effect before cycle t are in the cells (R222). -/
def SchFlock.settle (x : SchFlock) (t : Nat) : SchFlock :=
  let due := x.posts.filter (fun p => decide (p.1 + 3 < t))
  let cells := due.foldl (fun u p => (List.range p.2.2).foldl (fun u j => u.mod (p.2.1 + j) (· + 1)) u) x.cells
  { x with cells := cells, posts := x.posts.filter (fun p => decide (t ≤ p.1 + 3)), full := x.full || cells.any (fun e => decide (65535 < e.2)) }
/-- One island cycle of the flock. Programs start in the first cycle of a beat, those that serve the set of beat b + 4 from the second beat on; one that
still runs then is late. -/
def SchFlock.step (x : SchFlock) (t : Nat) : SchFlock :=
  let x := x.settle t
  let x :=
    if t % x.len = 0 then
      { x with cores := x.cores.map (fun c => if c.o4 ∧ t = 0 then c else { c with late := c.late || c.run, run := true, pc := 0, wait := none, next := t }) }
    else x
  (List.range x.cores.length).foldl (fun x i => x.coreStep t i) x
/-- The flock from cycle a on, for n cycles. -/
def SchFlock.runFor (x : SchFlock) (a n : Nat) : SchFlock := (List.range n).foldl (fun x i => x.step (a + i)) x
/-- The flock at the boundary before a beat in which its programs have filled every stage between them, and at the next boundary. -/
def schedule (mhz : Nat) (cores : List SchCore) : SchFlock × SchFlock :=
  let len := 512 * mhz / 1200
  let x : SchFlock := { mhz := mhz, len := len, cores := cores }
  let y := (x.runFor 0 (4 * len)).settle (4 * len)
  let y := { y with cores := y.cores.map (fun c => { c with late := false, wrong := [], after := [] }) }
  let z := (y.runFor (4 * len) len).settle (5 * len)
  (y, { z with cores := z.cores.map (fun c => { c with late := c.late || c.run }) })

end Sys2Proof.Machine
end

