-- ==== Sys2Proof/Machine/Images.lean ====
section
/-! DEFINITION. Plan images: their header and section table, and the checks of a LOAD in the order of R209 (R6, R20, R28, R99, R112, R127, R203 to
R209, R213, R215, R223, R322). -/

namespace Sys2Proof.Machine

open Sys2Proof

/-- A failed check: code, section index or 0xFFFF, byte offset (R209). -/
abbrev Refusal3 := Nat × Nat × Nat
/-- A failure at a byte of the header or the section table. -/
def hdrIf (b : Bool) (code off : Nat) : List Refusal3 := if b then [(code, 0xFFFF, off)] else []
/-- The first failure: the lowest code, then the place in the list. -/
def firstBad : List Refusal3 → Option Refusal3
  | [] => none
  | r :: t =>
    match firstBad t with
    | some q => if q.1 < r.1 then some q else some r
    | none => some r

/-- An image under check: its bytes and its sections. -/
structure Img where
  b : List Byte
  sects : List Sect
  deriving DecidableEq, Repr, Inhabited

def Img.at (g : Img) (off n : Nat) : Nat := leAt g.b off n
def Img.kind (g : Img) : Nat := g.at 6 1
def Img.parts (g : Img) : Nat := g.at 7 1
def Img.level (g : Img) : Nat := g.at 8 1
def Img.target (g : Img) : Nat := g.at 9 1
def Img.grade (g : Img) : Nat := g.at 10 1
def Img.layoutId (g : Img) : Nat := g.at 24 4
def Img.fset (g : Img) : Nat := bits (g.at 28 1) 0 4
/-- FSET [4]: the image carries the content of its set. -/
def Img.carries (g : Img) : Bool := bits (g.at 28 1) 4 1 == 1
def Img.shadows (g : Img) : Nat := bits (g.at 30 2) 0 12
def Img.shadowMv (g : Img) : Nat := g.at 38 2
def Img.nsect (g : Img) : Nat := g.at 36 2
/-- Content of a section. -/
def Img.content (g : Img) (t : Sect) : List Byte := slice g.b t.off t.len
/-- Entry i of the section table of a byte string (R205). -/
def sectAt (b : List Byte) (i : Nat) : Sect :=
  let o := 64 + 24 * i
  { type := leAt b o 1, flags := leAt b (o + 1) 1, flock := leAt b (o + 2) 2, unit := leAt b (o + 4) 2, off := leAt b (o + 8) 4, len := leAt b (o + 12) 4,
    dest := leAt b (o + 16) 4 }
/-- The image of a byte string. -/
def imgOf (b : List Byte) : Img := { b := b, sects := (List.range (Nat.min (leAt b 36 2) ((b.length - 64) / 24))).map (sectAt b) }
/-- The indexed sections of some types. -/
def Img.of (g : Img) (types : List Nat) : List (Nat × Sect) := ((g.sects.mapIdx (fun i t => (i, t))).filter (fun t => types.contains t.2.type))
/-- Failures found in each section of some types, at their sections. -/
def Img.each (g : Img) (types : List Nat) (f : Sect → List Bad) : List Refusal3 :=
  (g.of types).flatMap (fun t => (f t.2).map (fun e => (e.1, t.1, e.2)))
/-- CRC-32C of an image with its CRC field taken as zero (R204). -/
def imgCrc (b : List Byte) : Nat := crc32c (b.take 12 ++ zeros 4 ++ b.drop 16)

/-! ### Code 1, INTEGRITY (R204 to R206, R209) -/

/-- Failures of the header. -/
def Img.hdrBad (g : Img) (imgLen : Nat) : List Refusal3 :=
  hdrIf (decide (g.at 0 4 ≠ 0x5A50494D)) 1 0 ++ hdrIf (decide (g.at 4 2 ≠ 1)) 1 4 ++ hdrIf (decide (bits g.parts 3 5 ≠ 0)) 1 7 ++ hdrIf (decide (bits g.level 5 3 ≠ 0)) 1 8
    ++ hdrIf (decide (g.at 11 1 ≠ 0)) 1 11 ++ hdrIf (decide (g.target = 0) && decide (g.at 16 8 ≠ 0)) 1 16 ++ hdrIf (decide (bits (g.at 28 1) 5 3 ≠ 0)) 1 28
    ++ hdrIf (decide (g.at 29 1 ≠ 0)) 1 29 ++ hdrIf (decide (bits (g.at 30 2) 12 4 ≠ 0) || (decide (g.kind ≠ 4) && decide (g.at 30 2 ≠ 0))) 1 30
    ++ hdrIf (decide (g.at 32 4 ≠ imgLen)) 1 32 ++ hdrIf (decide (g.nsect = 0) || decide (g.b.length < 64 + 24 * g.nsect)) 1 36
    ++ hdrIf (decide (g.kind ≠ 4) && decide (g.shadowMv ≠ 0)) 1 38 ++ hdrIf (decide (g.at 40 24 ≠ 0)) 1 40
/-- Failures of entry i of the section table. -/
def Img.entryBad (g : Img) (imgLen i : Nat) (t : Sect) : List Refusal3 :=
  let o := 64 + 24 * i
  let sig := t.type == 15
  hdrIf (decide (t.type = 0) || decide (15 < t.type) || (sig && decide (i + 1 ≠ g.sects.length))) 1 o ++ hdrIf (decide (bits t.flags 1 7 ≠ 0)) 1 (o + 1)
    ++ hdrIf (decide (bits t.unit 10 6 ≠ 0)) 1 (o + 4) ++ hdrIf (decide (g.at (o + 6) 2 ≠ 0)) 1 (o + 6)
    ++ hdrIf (decide (t.off % 64 ≠ 0) || decide (imgLen < t.off) || (sig && decide (t.off + 96 ≠ imgLen))) 1 (o + 8)
    ++ hdrIf ((decide (t.off ≤ imgLen) && decide (imgLen < t.off + t.len)) || (sig && decide (t.len ≠ 96))) 1 (o + 12) ++ hdrIf (decide (g.at (o + 20) 4 ≠ 0)) 1 (o + 20)
/-- INTEGRITY. -/
def Img.integrity (g : Img) (imgLen : Nat) : List Refusal3 :=
  let h := g.hdrBad imgLen ++ (g.sects.mapIdx (fun i t => g.entryBad imgLen i t)).flatten
  h ++ hdrIf (decide (imgCrc g.b ≠ g.at 12 4)) 1 12

/-! ### Codes 2 to 6 (R28, R29, R203, R206) -/

/-- The value of a settings-ledger slot: that of its last committed record (R345). -/
def State.ledgerValue (s : State) (slot : Nat) : Option (List Byte) := ((s.sec.slots.get slot).filter (·.committed)).getLast?.map (·.value)
/-- The anti-rollback count: committed records of slot 3 (R345). -/
def State.arbCount (s : State) : Nat := ((s.sec.slots.get 3).filter (·.committed)).length
/-- A root key is revoked (R345). -/
def State.revoked (s : State) (k : Nat) : Bool := ((s.sec.slots.get 4).filter (·.committed)).any (fun r => leAt r.value 0 1 == k)
/-- Owner signatures are required (R348). -/
def State.sigRequired (s : State) : Bool := (s.sec.owner.map (fun v => bits (leAt v 48 1) 0 1 == 1)).getD false
/-- SIGNATURE. -/
def State.sigBad (s : State) (g : Img) : List Refusal3 :=
  if ¬ s.sigRequired then []
  else
    match g.of [15], s.sec.owner with
    | (i, t) :: _, some v =>
      if Config.ecdsaVerify (Config.ownerKey (v.take 48)) (Config.sha384 (g.b.take (g.b.length - 96))) (g.content t) then [] else [(2, i, 0)]
    | _, _ => [(2, 0xFFFF, 0)]
/-- Section types that belong to a kind (R202, R206). -/
def kindTypes (kind : Nat) : List Nat :=
  if kind = 1 then [1, 2, 3, 4, 5, 6, 8, 9, 10, 11, 15]
  else if kind = 2 then [1, 2, 3, 4, 5, 7, 8, 9, 10, 11, 13, 15]
  else if kind = 3 then [1, 7, 8, 9, 10, 13, 15]
  else if kind = 4 then [1, 3, 4, 5, 6, 7, 8, 9, 10, 14, 15]
  else if kind = 5 then [1, 12, 15]
  else if kind = 6 then [1, 3, 4, 5, 7, 8, 9, 10, 13, 15]
  else []
/-- KIND. -/
def State.kindBad (s : State) (g : Img) (layout : Bool) (x : Ctx) : List Refusal3 :=
  let k := g.kind
  let sc := s.ctxs.get g.shadows
  hdrIf (if layout then decide (k ≠ 5) else k == 5 || (kindTypes k).isEmpty || (decide (x.kind ≠ 0) && decide (x.kind ≠ k))) 3 6
    ++ hdrIf (!layout && decide (bits g.parts 0 3 = 0)) 3 7 ++ hdrIf (decide (k = 4) && (decide (sc.st = .empty) || !(sc.kind == 1 || sc.kind == 2))) 3 30
    ++ ((g.sects.mapIdx (fun i t => hdrIf (!(kindTypes k).contains t.type) 3 (64 + 24 * i))).flatten)
/-- VERSION. -/
def versionBad (x : Ctx) (ver : Nat) : List Refusal3 :=
  hdrIf (decide (ver = 0) || (if x.slot then x.v1 else x.v0).any (fun v => v.ver == ver)) 4 0
/-- LEVEL (R4, R112). -/
def State.levelBad (s : State) (g : Img) : List Refusal3 := hdrIf (decide (bits g.level 0 4 ≠ 2) || decide (bits g.level 4 1 ≠ (if s.sec.level = 1 then 1 else 0))) 5 8
/-- The device's 4,096-byte map (R27). -/
def mapBytes : List Byte := (List.range 256).flatMap (fun f => leBytes 4 (unitMapOf f).1 ++ leBytes 4 (unitMapOf f).2.1 ++ leBytes 8 (unitMapOf f).2.2)
/-- Logical arrays a program section needs: the first one past them. -/
def arraysEnd (t : Sect) : Nat := if t.type = 7 then 4 * (t.unit % 256) + 4 else 2 * (t.unit % 256) + 2
/-- TARGET (R29). -/
def targetBad (g : Img) : List Refusal3 :=
  if g.target = 1 then hdrIf (decide (slice g.b 16 8 ≠ (Config.sha384 mapBytes).take 8)) 6 16
  else
    let (a, c) := gradeMin g.grade
    hdrIf (decide (g.target ≠ 0)) 6 9 ++ hdrIf (decide (g.grade < gradeCode) || decide (3 < g.grade)) 6 10
      ++ (g.of [6, 7]).flatMap (fun t => if a < arraysEnd t.2 then [(6, t.1, 0)] else []) ++ (g.of [3, 4]).flatMap (fun t => if c ≤ t.2.unit % 256 then [(6, t.1, 0)] else [])

/-! ### Flocks and units -/

/-- A layout with an identifier, active or staged (R209, LAYOUT). -/
def State.layoutNamed (s : State) (id : Nat) : Option Version :=
  if id = 0 then none else [s.layout.active, s.layout.staged].reduceOption.find? (fun v => decide (v.ver = id))
/-- The layout an image's sections mean by "every in-line flock": the one an in-line or shadow image names, else the one in force (R204, R205). -/
def State.layoutOf (s : State) (g : Img) : Option Version := if g.kind = 1 ∨ g.kind = 4 then s.layoutNamed g.layoutId else s.layout.active
/-- The flocks a section stands for: FLOCK, or every in-line flock of the layout (R205). -/
def sectFlocks (lay : Option Version) (t : Sect) : List Nat := if t.flock = 0xFFFF then (lay.map (·.flocks)).getD [] else [t.flock]
/-- Logical arrays of a program section's core: four of a bulk core, two of an express core (R127). -/
def Sect.logical (t : Sect) : List Nat := let per := if t.type = 7 then 4 else 2; (List.range per).map (t.unit % 256 * per + ·)
/-- The sections of an image with their content, one for each flock, tree cores and arrays bound (R28). The content of a set that FSET does not announce is
no part of the version (R204). -/
def State.bindSects (s : State) (lay : Option Version) (g : Img) : List Sect :=
  (g.sects.filter (fun t => t.type ≠ 2 || g.carries)).flatMap (fun t =>
    let t := { t with body := g.content t }
    if 3 ≤ t.type ∧ t.type ≤ 10 then
      (sectFlocks lay t).map (fun f => { t with
        flock := f, phys := (s.physTree f (t.unit % 256)).getD 0,
        arrays := if t.type = 6 ∨ t.type = 7 then t.logical.map (fun n => (s.physArray f (t.type == 7) n).getD 64) else [] })
    else [t])
/-- Flocks whose units an image uses. -/
def usedFlocks (ts : List Sect) : List Nat := ((ts.filter (fun t => decide (3 ≤ t.type) && decide (t.type ≤ 10))).map (·.flock)).eraseDups
/-- A flock that no plan load may use: withdrawn, or worn (R199, R331). -/
def State.flockBarred (s : State) (f : Nat) : Bool := decide (255 < f) || (s.flocks.get f).withdrawn || (s.flocks.get f).worn
/-- UNITS (R127, R331). -/
def State.unitsBad (s : State) (lay : Option Version) (g : Img) : List Refusal3 :=
  (g.of [3, 4, 5, 6, 7, 8, 9, 10]).flatMap (fun t =>
    let u := t.2.unit % 256
    let bulk := bits t.2.unit 8 2 == 1
    let core := [6, 7, 8, 9, 10].contains t.2.type
    let per := if bulk then 4 else 2
    if (sectFlocks lay t.2).any (fun f =>
      s.flockBarred f || (core && ((List.range per).any (fun a => (s.physArray f bulk (u * per + a)).isNone) || decide ((if bulk then 8 else 16) ≤ u) || decide (1 < bits t.2.unit 8 2)))
        || ([3, 4].contains t.2.type && (s.physTree f u).isNone)) then [(7, t.1, 0)] else [])
/-- Sections of the other held versions: context, version, section. -/
def State.otherSects (s : State) (skip : Nat) : List (Nat × Version × Sect) :=
  (s.versions.filter (fun v => decide (v.1 ≠ skip))).flatMap (fun v => v.2.sects.map (fun t => (v.1, v.2, t)))
/-- The context whose vectors a version's trees read: none for the packets' vectors, which in-line contexts and their shadows share (R117, R216); a flow or
host-job context and a shadow of it share that context's. -/
def State.vecOwner (s : State) (ctx kind shadows : Nat) : Option Nat :=
  if kind = 1 then none
  else if kind = 4 then (if (s.ctxs.get shadows).kind = 1 then none else some shadows)
  else some ctx
/-- Cells the programs of a section name (R134). -/
def cellsOf (bs : List Byte) : List Nat := ((cellDeltas (progWords bs)).map (·.1)).eraseDups
/-- OCCUPIED: units, sync cells and vector slots that another context holds (R223). -/
def State.occupiedBad (s : State) (ctx : Nat) (lay : Option Version) (g : Img) : List Refusal3 :=
  let other := s.otherSects ctx
  let mineOf := s.vecOwner ctx g.kind g.shadows
  (g.of [6, 7]).flatMap (fun t =>
    let cells := cellsOf (g.content t.2)
    if (sectFlocks lay t.2).any (fun f => other.any (fun o =>
      o.2.2.onFlock f && ((o.2.2.type == t.2.type && o.2.2.unit == t.2.unit) || ([6, 7].contains o.2.2.type && (cellsOf o.2.2.body).any cells.contains)))) then [(8, t.1, 0)] else []) ++
  (g.of [4]).flatMap (fun t =>
    let mine := issues (g.content t.2)
    if (sectFlocks lay t.2).any (fun f => other.any (fun o =>
      o.2.2.type == 4 && o.2.2.onFlock f &&
        (let theirs := issues o.2.2.body
         (some o.2.2.phys == s.physTree f (t.2.unit % 256) && theirs.any (fun e => mine.any (fun m => m.1 == e.1 || bits m.2 20 9 == bits e.2 20 9))) ||
           (mineOf != s.vecOwner o.1 o.2.1.kind o.2.1.shadowCtx && theirs.any (fun e => mine.any (fun m => bits m.2 14 6 == bits e.2 14 6)))))) then [(8, t.1, 0)] else [])

/-! ### Code 9, SPACE (R99, R114, R129, R166, R207) -/

/-- Last byte plus one that a section may fill at its destination. -/
def destEnd (t : Sect) : Nat :=
  let bulk := bits t.unit 8 2 == 1
  if t.type = 3 then 61440 else if t.type = 4 then 2048 else if t.type = 6 then 4096 else if t.type = 7 then 8192
  else if t.type = 8 then (if bulk then 0x7C000 else 0x1E000) else if t.type = 9 then 8192 else if t.type = 10 then 8256 else 2 ^ 32
/-- A tree image or a data section meets one that a held version keeps on the same unit. -/
def State.destTaken (s : State) (lay : Option Version) (t : Sect) : Bool :=
  [3, 8].contains t.type && (sectFlocks lay t).any (fun f => s.versions.any (fun v => v.2.sects.any (fun o =>
    o.type == t.type && o.onFlock f && (if t.type = 3 then some o.phys == s.physTree f (t.unit % 256) else o.unit == t.unit)
      && meets (t.dest, t.dest + t.len) (o.dest, o.dest + o.len))))
/-- Instructions and table words of a feature set: programs, then tables with their defaults. -/
def FSet.space (x : FSet) : Nat × Nat := (x.prog.length, (x.tables.map (fun t => t.vals.length + 1)).sum)
/-- The feature set whose content an image carries (R204). -/
def Img.set (g : Img) : Option FSet := if g.carries then ((g.of [2]).head?).map (fun t => setOf (g.content t.2)) else none
/-- Content of set k in the active half. -/
def State.setNow (s : State) (k : Nat) : FSet := s.fsets.get (b2n s.fhalf * 16 + k)
/-- Taps of a SHADOW section, and its window (R322). -/
def taps (bs : List Byte) : List Nat := (List.range (bits (leAt bs 0 8) 8 8)).map (fun i => leAt bs (24 + 8 * i) 8)
/-- SPACE. `allowed`: the image range was allowed when the LOAD was accepted, and has been protected since (R207). -/
def State.spaceBad (s : State) (lay : Option Version) (g : Img) (allowed : Bool) : List Refusal3 :=
  hdrIf (!allowed) 9 0 ++
  (g.of [3, 4, 6, 7, 8, 9, 10]).flatMap (fun t =>
    let d := if [4, 6, 7].contains t.2.type then 0 else t.2.dest
    if destEnd t.2 < d + t.2.len ∨ s.destTaken lay t.2 then [(9, t.1, 0)] else []) ++
  (match g.set, g.of [2] with
   | some x, (i, _) :: _ =>
     let sets := (List.range 16).map (fun k => FSet.space (if k = g.fset then x else s.setNow k))
     if 2048 < (sets.map (·.1)).sum ∨ 6144 < (sets.map (·.2)).sum then [(9, i, 0)] else []
   | _, _ => []) ++
  g.each [14] (fun t => badIf (decide (2048 < ((taps (g.content t)).map (fun w => bits w 37 12 + 1)).sum)) 9 0)

/-! ### Codes 10 to 25 -/

/-- The clock floor of a flock in an image, in MHz (R206); none without a FLOORS section or at 0. -/
def Img.floorOf (g : Img) (f : Nat) : Nat :=
  match g.of [1] with
  | (_, t) :: _ => leAt (g.content t) (2 * f) 2
  | [] => 0
/-- The program environment of a core of an image (R166). -/
def Img.env (g : Img) (t : Sect) : ProgEnv :=
  let near := g.sects.filter (fun o => o.unit == t.unit && (o.flock == t.flock || o.flock == 0xFFFF || t.flock == 0xFFFF))
  let fill (ty : Nat) : Mem := (near.filter (fun o => o.type == ty)).foldl (fun m o => Mem.writeN m o.dest (g.content o)) []
  { inl := g.kind == 1, bulk := t.type == 7, words := progWords (g.content t), descs := fill 9,
    tabled := [8, 9, 10, 11].filter (fun n => near.any (fun o => o.type == 10 && decide (o.dest ≤ 2064 * (n - 8)) && decide (2064 * (n - 7) ≤ o.dest + o.len))) }
/-- The static schedule of the image's programs on each flock they use, at its floor: the flock, the section of each core, and its state at two boundaries
(R136). -/
def Img.schedules (hmax : List Nat) (lay : Option Version) (g : Img) : List (Nat × List Nat × SchFlock × SchFlock) :=
  let ps := g.of [6, 7]
  ((ps.flatMap (fun t => sectFlocks lay t.2)).eraseDups).map (fun f =>
    let on := ps.filter (fun t => (sectFlocks lay t.2).contains f)
    (f, on.map (·.1), schedule (g.floorOf f) (on.map (fun t =>
      { env := { g.env t.2 with hmax := hmax }, id := (if t.2.type = 7 then 16 else 0) + t.2.unit % 16, o4 := t.2.type == 6 && Sect.setBeat t.2 == 4 }))))
/-- HMAX of the apertures (R242). -/
def State.hmaxs (s : State) : List Nat := (List.range 16).map (fun a => s.act Reg.HERD.APT_HMAX 0 a)
/-- FLOOR (R16, R130, R209, R328). -/
def State.floorBad (s : State) (lay : Option Version) (g : Img) : List Refusal3 :=
  (g.of [1]).flatMap (fun t => if (List.range 256).any (fun f => decide (s.rd Reg.AGE.CEIL_MHZ 0 0 (32 + f) < leAt (g.content t.2) (2 * f) 2)) then [(10, t.1, 0)] else []) ++
  (g.schedules s.hmaxs lay).flatMap (fun e => (e.2.1.zip e.2.2.2.cores).flatMap (fun c => if c.2.late ∨ e.2.2.2.len = 0 then [(10, c.1, 0)] else []))
/-- In-line work per packet of a set of sections (R6): the largest sum over a flock of express multiply-accumulates for a row, and the most issue
entries for a vector slot. -/
def inlineWork (flocks : List Nat) (ts : List (Sect × List Byte)) : Nat × Nat :=
  let on (f ty : Nat) : List (List Byte) := (ts.filter (fun t => t.1.type == ty && t.1.onFlock f)).map (·.2)
  ((flocks.map (fun f => ((on f 6).map (fun b => streamMacs (progWords b))).sum)).foldl Nat.max 0,
   (flocks.map (fun f => ((List.range 64).map (fun v => ((on f 4).map (fun b => ((issues b).filter (fun e => bits e.2 14 6 == v)).length)).sum)).foldl Nat.max 0)).foldl Nat.max 0)
/-- Working express arrays and tree cores of the device (R6). -/
def State.working (s : State) : Nat × Nat :=
  ((List.range 256).map (fun f => ((List.range 32).filter (fun n => (s.physArray f false n).isSome)).length) |>.sum,
   (List.range 256).map (fun f => ((List.range 64).filter (fun n => (s.physTree f n).isSome)).length) |>.sum)
/-- PER_PACKET: this image beside the heaviest other in-line context, since a rule may name any two (R6). -/
def State.packetBad (s : State) (ctx : Nat) (lay : Option Version) (g : Img) : List Refusal3 :=
  if g.kind ≠ 1 then []
  else
    let mine := inlineWork ((lay.map (·.flocks)).getD [] ++ usedFlocks g.sects) (g.sects.map (fun t => (t, g.content t)))
    let others := (s.versions.filter (fun v => decide (v.1 ≠ ctx) && decide (v.2.kind = 1))).map (fun v => inlineWork v.2.flocks (v.2.sects.map (fun t => (t, t.body))))
    let (e, t) := s.working
    hdrIf (decide (16 * e < mine.1 + (others.map (·.1)).foldl Nat.max 0) || decide (t / 16 < mine.2 + (others.map (·.2)).foldl Nat.max 0)) 11 0
/-- FEATURE_PROG, FEATURE_SET and FEATURE_BUSY (R97 to R100, R213). -/
def State.featureBad (s : State) (ctx : Nat) (g : Img) : List Refusal3 :=
  if ¬ (g.kind = 1 ∨ g.kind = 2) then []
  else
    match g.set, g.of [2] with
    | some x, (i, _) :: _ =>
      let differs := decide (x ≠ s.setNow g.fset)
      let others := s.ctxs.filter (fun e => decide (e.1 ≠ ctx))
      let named := others.any (fun e => ([e.2.v0, e.2.v1].reduceOption).any (fun v => decide (v.ver ≠ 0) && v.fset == g.fset))
      let busy := others.any (fun e =>
        match e.2.st with
        | .staging | .staged | .armed => e.2.other.any (·.carries)
        | .retiring => e.2.active.any (·.carries)
        | _ => false)
      (if featProgBad x.prog x.tables.length then [(13, i, 0)] else []) ++ (if x.slotMap.any (fun e => slotBad e.toNat) then [(13, i, 0)] else [])
        ++ (if differs && named then [(14, i, 0)] else []) ++ (if differs && busy then [(15, i, 0)] else [])
    | _, _ => hdrIf (!(s.setNow g.fset).present) 14 28
/-- Reserved bits of a user segment table (R172, R183): table n stands at byte 2,064 × (n − 8) of the table store. -/
def tableBad (dest : Nat) (bs : List Byte) : List Bad :=
  [0, 1, 2, 3].flatMap (fun n =>
    let o := 2064 * n - dest
    let h := leAt bs o 16
    badIf (decide (dest ≤ 2064 * n) && decide (o + 16 ≤ bs.length) && (decide (bits h 46 2 ≠ 0) || decide (bits h 54 2 ≠ 0) || decide (bits h 60 68 ≠ 0))) 22 o)
/-- Beat programs: the load-time simulation, cells that repeat from beat to beat and stay below 65,536, and the formats of RETs (R136, R183, R223). -/
def Img.programs (hmax : List Nat) (lay : Option Version) (g : Img) : List Refusal3 :=
  g.each [6, 7] (fun t => progBad (g.env t)) ++ g.each [10] (fun t => tableBad t.dest (g.content t)) ++
  (g.schedules hmax lay).flatMap (fun e =>
    let (idx, y, z) := e.2
    (idx.zip z.cores).flatMap (fun c =>
      let cells := ((cellDeltas c.2.env.words).map (·.1)).eraseDups
      (if z.full ∨ cells.any (fun k => y.cells.get k ≠ z.cells.get k) then [(16, c.1, 0)] else []) ++ c.2.wrong.map (fun pc => (22, c.1, 16 * pc))))
/-- TREE and VERDICT (R115, R120, R121, R186, R187). -/
def Img.verdicts (g : Img) : List Refusal3 :=
  let tree := (g.of [5]).flatMap (fun t => ((Config.gatherSection (g.content t.2)).1.filter (fun w => bits w.toNat 20 1 == 1)).map (fun w => bits w.toNat 16 4))
  let mat := (g.of [6]).flatMap (fun t => retOutputs (progWords (g.content t.2)))
  g.each [4] (fun t => issueBad (g.content t)) ++ g.each [5] (fun t => gatherBad (g.content t)) ++
    g.each [11] (fun t => (if g.kind = 1 then vdBad (g.content t) tree mat else []) ++ actBad (g.content t))
/-- Shadow taps (R322): a reserved KIND, or a tap on a STREAM without FINAL. -/
def Img.shadowBad (g : Img) : List Refusal3 :=
  g.each [14] (fun t => (taps (g.content t)).mapIdx (fun i w =>
    let prog := g.sects.find? (fun o => o.type == (if bits w 2 2 = 0 then 6 else 7) && o.unit % 256 == bits w 4 8)
    let op := (prog.map (fun o => leAt (g.content o) (16 * bits w 12 9) 16)).getD 0
    badIf (decide (bits w 0 2 = 0)) 22 (24 + 8 * i) ++ badIf (decide (bits w 0 2 = 1) && !(bits op 0 6 == 2 && bits op 14 1 == 1)) 16 (24 + 8 * i)) |>.flatten)
/-- HBM bytes per beat of a version's COPYs and invocations. -/
def demand (ts : List (Sect × List Byte)) : Nat :=
  (ts.map (fun t => if t.1.type = 6 ∨ t.1.type = 7 then copyBytes (progWords t.2) else if t.1.type = 13 then Config.hbmDemand t.2 else 0)).sum
/-- Bytes of a beat that the flow store and observation leave (R75, R365): 20.48 TB/s less 11.0 TB/s over 1,280/3 ns, less 262,144. -/
def hbmShare : Nat := 3782656
/-- BANDWIDTH, at the first section with which the demand exceeds the share; a section for every in-line flock counts once for each. -/
def State.bandwidthBad (s : State) (ctx : Nat) (lay : Option Version) (g : Img) : List Refusal3 :=
  let others := ((s.versions.filter (fun v => decide (v.1 ≠ ctx))).map (fun v => demand (v.2.sects.map (fun t => (t, t.body))))).sum
  let need := (g.sects.map (fun t => (if t.type = 6 ∨ t.type = 7 then (sectFlocks lay t).length else 1) * demand [(t, g.content t)]))
  match (List.range need.length).find? (fun i => decide (hbmShare < others + (need.take (i + 1)).sum)) with
  | some i => [(25, i, 0)]
  | none => []

/-! ### Layouts (R20, R215) -/

/-- The entries of a dispatch table: for each kind of work, the flock and vector slot of every position that has one. -/
def dispatchEntries (bs : List Byte) (tree : Bool) : List (Nat × Nat) :=
  (List.range 8192).filterMap (fun i => let e := Config.dispatch bs (i / 512) (i % 512); if tree then e.2 else e.1)
/-- A kind of work's shares are out of proportion to the dies' working units (R20). The manual gives no tolerance: DESIGN CHOICE (assumption 248), a die's share
must lie less than one vector from the exact proportion. -/
def sharesBad (n w : Nat → Nat) : Bool :=
  let tot := ((List.range 4).map n).sum
  let all := ((List.range 4).map w).sum
  (List.range 4).any (fun d => decide (all ≤ ((n d * all : Nat) - (tot * w d : Nat) : Int).natAbs) && decide (0 < all))
/-- Working units of a die: express arrays, or tree cores. -/
def State.dieUnits (s : State) (tree : Bool) (d : Nat) : Nat :=
  ((List.range 64).map (fun i => ((List.range 64).filter (fun n => if tree then (s.physTree (64 * d + i) n).isSome else (s.physArray (64 * d + i) false n).isSome)).length)).sum
/-- LAYOUT, for a layout image. -/
def State.layoutBad (s : State) (g : Img) : List Refusal3 :=
  hdrIf (decide (g.layoutId = 0)) 12 0 ++
  (match g.of [12] with
   | (i, t) :: _ =>
     let bs := g.content t
     let ex := dispatchEntries bs false
     let tr := dispatchEntries bs true
     let per (l : List (Nat × Nat)) (d : Nat) : Nat := (l.filter (fun e => e.1 / 64 == d)).length
     let crossing (d : Nat) : Nat := ((List.range 8192).filter (fun i =>
       let e := Config.dispatch bs (i / 512) (i % 512)
       e.1.any (fun x => x.1 / 64 == d) || e.2.any (fun x => x.1 / 64 == d))).length
     let all := (List.range 8192).flatMap (fun i => let e := Config.dispatch bs (i / 512) (i % 512); (e.1.toList ++ e.2.toList).eraseDups)
     let held (e : Nat × Nat) : Bool := s.versions.any (fun v => decide (v.2.kind ≠ 1) && v.2.sects.any (fun o => o.type == 4 && o.onFlock e.1 && (issues o.body).any (fun w => bits w.2 14 6 == e.2)))
     if (List.range 4).any (fun d => decide (4096 < crossing d)) || sharesBad (per ex) (s.dieUnits false) || sharesBad (per tr) (s.dieUnits true)
       || all.any (fun e => s.flockBarred e.1 || held e) || decide (all.eraseDups.length ≠ all.length) then [(12, i, 0)] else []
   | [] => hdrIf true 12 0)

/-! ### The check of a LOAD -/

/-- The first failure of a LOAD (R209). `layout`: of LOAD_LAYOUT; `allowed`: its range was allowed. -/
def State.loadCheck (s : State) (ctx : Nat) (x : Ctx) (layout : Bool) (g : Img) (len ver : Nat) (allowed : Bool) : Option Refusal3 :=
  match firstBad (g.integrity len) with
  | some r => some r
  | none =>
    let lay := s.layoutOf g
    let generic := s.sigBad g ++ s.kindBad g layout x ++ s.levelBad g ++ targetBad g
    if layout then firstBad (generic ++ s.spaceBad none g allowed ++ s.layoutBad g)
    else
      firstBad (generic ++ versionBad x ver ++ s.unitsBad lay g ++ s.occupiedBad ctx lay g ++ s.spaceBad lay g allowed ++ s.floorBad lay g ++ s.packetBad ctx lay g
        ++ hdrIf ((g.kind == 1 || g.kind == 4) && lay.isNone) 12 0 ++ s.featureBad ctx g ++ g.programs s.hmaxs lay ++ g.verdicts ++ g.shadowBad
        ++ s.bandwidthBad ctx lay g)
/-- The version an accepted image makes. -/
def State.versionOf (s : State) (g : Img) (layout : Bool) (addr len ver : Nat) (protect : Bool) : Version :=
  let sects := s.bindSects (s.layoutOf g) g
  let changes := (g.set.map (fun x => decide (x ≠ s.setNow g.fset))).getD false
  let vd := (g.of [11]).head?.map (fun t => g.content t.2)
  let runs := g.schedules s.hmaxs (s.layoutOf g)
  { ver := if layout then g.layoutId else ver, kind := g.kind, addr := addr, len := len, sects := sects, layoutId := g.layoutId, fset := g.fset, carries := changes,
    half := if changes then !s.fhalf else s.fhalf, vdesc := (vd.map (fun b => (List.range 20).map (fun i => BitVec.ofNat 32 (leAt b (4 * i) 4)))).getD [],
    acts := (vd.map (fun b => (List.range 16).map (fun i => if i = 0 then 0 else BitVec.ofNat 32 (leAt b (80 + 4 * i) 4)))).getD [],
    shadowCtx := g.shadows, shadowMv := g.shadowMv, crc := g.at 12 4, protect := protect,
    bounds := runs.flatMap (fun e => ((e.2.2.2.cores.flatMap (fun c => (cellDeltas c.env.words).map (·.1))).eraseDups).map (fun k => (e.1 * 256 + k, e.2.2.2.cells.get k))),
    after := runs.flatMap (fun e => e.2.2.2.cores.flatMap (fun c => c.after.map (fun p => ((e.1 * 2 + c.id / 16) * 16 + c.id % 16, p)))),
    flocks := if layout then ((g.of [12]).flatMap (fun t => (dispatchEntries (g.content t.2) true ++ dispatchEntries (g.content t.2) false).map (·.1))).eraseDups else usedFlocks sects }

end Sys2Proof.Machine
end

