-- ==== Sys2Proof/Machine/Contexts.lean ====
section
/-! DEFINITION. Rule and context commits, staging, version switches and retirement (R67, R99, R202 to R218, R247, R248). -/

namespace Sys2Proof.Machine

open Sys2Proof

/-! ### Requests to the bellwether (R247, R248) -/

/-- Kind, context and version of a commit as words of a message. -/
def commitWords (k : CommitKind) (ver : Nat) : List Int :=
  match k with
  | .rules => [0, 0, ver]
  | .context c => [1, c.val, ver]
/-- Send a CREQ for a commit and the requested beat; one that finds no way is lost (R247). The bellwether's own request is a message to
itself, which it takes at the next boundary. -/
def State.creq (s : State) (k : CommitKind) (ver c : Nat) : State :=
  let s := { s with herd := { s.herd with creqPend := s.herd.creqPend ++ [(k, ver)] } }
  let words := commitWords k ver ++ [(c : Int)]
  if s.rd Reg.HERD.BELLWETHER = 1 then s.send none 10 s.ownId words
  else
    match s.sendTo 10 (s.rd Reg.HERD.BW_ID) words with
    | (s, true) => s
    | (s, false) => s.creqLost
/-- Answer NACK to an ORDER and depart at its C (R240, R248). -/
def State.nackOrder (s : State) (o : HerdOrder) : State :=
  let s := if s.rd Reg.HERD.BELLWETHER = 1 then s.bump Reg.HERD.CMT_NACKS else (s.sendTo 12 (s.rd Reg.HERD.BW_ID) [(o.seq : Int), 1]).1
  let s := s.setHerdState 3
  { s with herd := { s.herd with orders := s.herd.orders.filter (fun p => decide (p.seq ≠ o.seq)), leaveAt := some (Nat.min o.c (s.herd.leaveAt.getD o.c)) } }
/-- A local abort of a commit that an ORDER armed (R248). -/
def State.abortOrder (s : State) (k : CommitKind) : State :=
  match s.herd.orders.find? (fun o => decide (o.kind = k) && o.armed) with
  | some o => s.nackOrder o
  | none => s
/-- Orders whose beat has come are done once their commit has switched. -/
def State.orderDone (s : State) (k : CommitKind) : State :=
  { s with herd := { s.herd with orders := s.herd.orders.filter (fun o => !(decide (o.kind = k) && decide (o.c ≤ s.time.beat))) } }

/-! ### Rule commits (R67) -/

/-- RULE_COMMIT (R67, R247): in OPEN the checks start; a member's commit goes to the bellwether. -/
def execRuleCommit (src : Source) (s : State) : Host.Outcome State Fault Refusal :=
  s.basicCmd src (fun s =>
    if s.commitState ≠ 0 then s.auditCmd src Reg.TCAM.COMMIT 0 1 1
    else
      let s := s.auditCmd src Reg.TCAM.COMMIT 0 1 0
      if 2 ≤ s.herdState then
        if s.rd Reg.HERD.ELECTING = 1 then s.cmtResult 3 else
          let s := { s with cls := { s.cls with waitOrder := true } }
          (s.creq .rules (s.rd Reg.TCAM.STAGED_VER) (s.rd Reg.TCAM.COMMIT_BEAT)).setCommitState 1
      else ({ s with cls := { s.cls with commitWrite := s.time.beat, waitOrder := false } }).setCommitState 1)
/-- RULE_ABORT (R67, R248). -/
def execRuleAbort (src : Source) (s : State) : Host.Outcome State Fault Refusal :=
  s.basicCmd src (fun s =>
    if s.commitState ≠ 2 then s.auditCmd src Reg.TCAM.ABORT 0 2 1
    else
      let s := (s.setCommitState 0).auditCmd src Reg.TCAM.ABORT 0 2 0
      if s.cls.armHerd then ({ s with cls := { s.cls with armHerd := false } }).abortOrder .rules else s)

/-! ### A context's slots -/

/-- Context c, or the layout. -/
def State.slotOf2 (s : State) (c : Option Nat) : Ctx :=
  match c with
  | some c => s.ctxs.get c
  | none => s.layout
def State.setSlot2 (s : State) (c : Option Nat) (x : Ctx) : State :=
  match c with
  | some c => { s with ctxs := s.ctxs.set c x }
  | none => { s with layout := x }
/-- RESULT of a context command, with its event (R208, R377). -/
def State.ctxResult (s : State) (r : Nat) : State := (s.wr Reg.CTX.RESULT r).event Blk.CTX 0 0
/-- A LOAD or a COMMIT is refused (R209, R210). -/
def State.ctxRefuse (s : State) (r : Refusal3) : State :=
  ((((s.wr Reg.CTX.REFUSE r.1).wr Reg.CTX.REFUSE_SECT r.2.1).wr Reg.CTX.REFUSE_OFF r.2.2).bump Reg.CTX.REFUSALS).ctxResult 1
/-- Cells a version's programs name: flock × 256 + cell. -/
def Version.cells (v : Version) : List Nat :=
  (v.sects.filter (fun t => t.type == 6 || t.type == 7)).flatMap (fun t => (cellsOf t.body).map (fun c => t.flock * 256 + c))
/-- Free the cells of a version that another one does not name (R223). -/
def State.freeCellsOf (s : State) (v keep : Option Version) : State :=
  let kept := (keep.map Version.cells).getD []
  let gone := ((v.map Version.cells).getD []).filter (fun c => !kept.contains c)
  { s with arr := { s.arr with cells := s.arr.cells.filter (fun e => !gone.contains e.1), bound := s.arr.bound.filter (fun e => !gone.contains e.1) } }
/-- The state with the slot beside the active one empty. -/
def Ctx.dropOther (x : Ctx) : Ctx :=
  let y := x.setOther none
  if y.active.isNone then { y with st := .empty, kind := 0, cmtPend := false, cmtHerd := false, emptying := false }
  else { y with st := .active, cmtPend := false, cmtHerd := false, emptying := false }

/-- A command of page CTX on the selected context, or on the layout, where its state allows it (R208). -/
def State.ctxCmd (s : State) (src : Source) (op : Nat) (c : Option Nat) (ok : Ctx → Bool) (k : Ctx → State → State) : State :=
  let x := s.slotOf2 c
  let res := if ok x then 0 else 3
  let s := s.auditCmd src Reg.CTX.CMD 0 op res (c.getD 0)
  if ok x then k x s else s.ctxResult 2
/-- CTX_SEL. -/
def State.ctxSel (s : State) : Nat := s.rd Reg.CTX.CTX_SEL

/-! ### LOAD (R206 to R209, R215) -/

/-- Withdrawals that wait for a plan load (R124, R146). -/
def State.planWithdrawals (s : State) : State :=
  (s.flocks.filter (fun e => decide (e.2.wdTree ≠ 0) || decide (e.2.wdArray ≠ 0))).foldl (fun t e =>
    let x := t.flocks.get e.1
    let t := { t with flocks := t.flocks.set e.1 { x with wdTree := 0, wdArray := 0 } }
    (t.treeOut e.1 x.wdTree.toNat false).arrayOut e.1 x.wdArray.toNat false) s
/-- The image range of a LOAD is allowed (R207). -/
def State.rangeAllowed (s : State) (addr len : Nat) : Bool :=
  addr % 65536 == 0 && decide (addr + len ≤ s.regionSize 2) && !s.protectedRanges.any (meets (lineRange addr len))
/-- Start a LOAD: a staged version is discarded, and the image's range is protected. -/
def State.startLoad (s : State) (c : Option Nat) (x : Ctx) : State :=
  let s := if x.st = .staged then (s.freeCellsOf x.other x.active).setSlot2 c x.dropOther else s
  let s := s.planWithdrawals
  let x := s.slotOf2 c
  let addr := s.rd Reg.CTX.IMG_ADDR
  let len := s.rd Reg.CTX.IMG_LEN
  (s.setSlot2 c { x with prev := x.st, st := .checking, chkAddr := addr, chkLen := len, chkVer := s.rd Reg.CTX.NEW_VER, chkProtect := s.rangeAllowed addr len, loadBeat := s.time.beat }).bump Reg.CTX.LOADS
/-- End of the checks: the image is refused, or its version takes the slot beside the active one. -/
def State.endChecks (s : State) (c : Option Nat) : State :=
  let x := s.slotOf2 c
  let y := { x with st := x.prev, chkProtect := false }
  let s0 := s.setSlot2 c y
  let g := imgOf (Mem.readN s.hbm (s.regionBase 2 + x.chkAddr) x.chkLen)
  match s0.hbmUe (s.regionBase 2 + x.chkAddr) x.chkLen with
  | some line => (s0.ueRecord line 0 (c.getD 0)).ctxRefuse (1, 0xFFFF, 0)
  | none =>
  match s0.loadCheck (c.getD 4096) y c.isNone g x.chkLen x.chkVer x.chkProtect with
  | some r => s0.ctxRefuse r
  | none =>
    let v := s0.versionOf g c.isNone x.chkAddr x.chkLen x.chkVer x.chkProtect
    s0.setSlot2 c { (y.setOther (some v)) with st := .staging, kind := if y.kind = 0 then v.kind else y.kind }
/-- One section of a version goes to its staged place (R99, R114, R129, R166, R208). Issue entries go to the core's standby bank, beside those of the
versions of other contexts that run on the core. -/
def State.stageSect (s : State) (c : Nat) (v : Version) (t : Sect) : State :=
  if t.type = 3 then
    { s with tree := { s.tree with mem := Mem.writeN s.tree.mem (tcoreKey t.flock t.phys * 65536 + t.dest) (s.imgBytes v t) } }
  else if t.type = 4 then
    let others := (s.versions.filter (fun e => decide (e.1 ≠ c) && e.2.onTree t.flock t.phys)).map (·.2)
    s.putTreeBank t.flock t.phys (!(s.tcore t.flock t.phys).bank) (treeProgram t.flock t.phys (others ++ [v]) (fun _ e => e.body))
  else if 6 ≤ t.type ∧ t.type ≤ 10 then
    let c : ACoreId := { flock := ⟨t.flock % 256, Nat.mod_lt _ (by decide)⟩, cls := if bits t.unit 8 2 = 1 then .bulk else .express, core := ⟨t.unit % 16, Nat.mod_lt _ (by decide)⟩ }
    s.placeSect c v t (!(s.acore c).progBank)
  else s
/-- The standby half of the feature cores: a copy of every set but the one a version changes (R99, R213). -/
def State.stageSets (s : State) (v : Version) : State :=
  if ¬ v.carries then s
  else
    match v.sects.find? (fun t => t.type == 2) with
    | some t =>
      let x := setOf (s.imgBytes v t)
      { s with
        fsets := (List.range 16).foldl (fun u k => u.set (b2n v.half * 16 + k) (if k = v.fset then x else s.setNow k)) s.fsets,
        fcores := s.fcores.map (fun (e : Nat × FCore) => (e.1, { e.2 with own := e.2.own.filter (fun (o : Nat × FSet) => decide (o.1 / 16 ≠ b2n v.half)) })) }
    | none => s
/-- A version with its content as its image now gives it, as staging reads it. -/
def State.readImage (s : State) (v : Version) : Version := { v with sects := v.sects.map (fun t => { t with body := s.imgBytes v t }) }
/-- Every section of a version goes to its staged place, and its cells have their boundary values (R208, R223). -/
def State.stageParts (s : State) (c : Nat) (v : Version) : State :=
  let s := (v.sects.foldl (fun t e => t.stageSect c v e) s).stageSets v
  { s with arr := { s.arr with bound := v.bounds.foldl (fun b e => b.set e.1 e.2) s.arr.bound } }
/-- End of staging: every section stands in its staged place. An image that meets an uncorrectable line is refused (R298). -/
def State.endStaging (s : State) (c : Option Nat) : State :=
  let x := s.slotOf2 c
  match x.other with
  | none => s
  | some v =>
    match s.hbmUe (s.regionBase 2 + v.addr) v.len with
    | some line => ((s.ueRecord line 0 (c.getD 0)).setSlot2 c x.dropOther).ctxRefuse (1, 0xFFFF, 0)
    | none =>
    let v := s.readImage v
    ((s.stageParts (c.getD 4096) v).setSlot2 c { (x.setOther (some v)) with st := .staged }).ctxResult 0
def loadable (x : Ctx) : Bool := x.st == .empty || x.st == .active || x.st == .staged
/-- LOAD (R208). -/
def execLoad (src : Source) (s : State) : Host.Outcome State Fault Refusal :=
  s.basicCmd src (fun s => s.ctxCmd src 1 (some s.ctxSel) loadable (fun x s => s.startLoad (some s.ctxSel) x))
/-- CONTEXT_CHECK_END (R209). -/
def execContextCheckEnd (c : CtxNum) (s : State) : Host.Outcome State Fault Refusal :=
  if (s.ctxs.get c.val).st = .checking ∧ ¬ s.herd.cut then .next (s.endChecks (some c.val)) else .next s
/-- CONTEXT_STAGING_END (R208). -/
def execContextStagingEnd (c : CtxNum) (s : State) : Host.Outcome State Fault Refusal :=
  if (s.ctxs.get c.val).st = .staging ∧ ¬ s.herd.cut then .next (s.endStaging (some c.val)) else .next s
/-- LOAD_LAYOUT (R215): the table has no other command for a layout's checks and staging, so they end in this one. -/
def execLoadLayout (src : Source) (s : State) : Host.Outcome State Fault Refusal :=
  s.basicCmd src (fun s => s.ctxCmd src 6 none loadable (fun x s =>
    let s := (s.startLoad none x).endChecks none
    if s.layout.st = .staging then s.endStaging none else s))
/-- DISCARD (R208). -/
def execDiscard (src : Source) (s : State) : Host.Outcome State Fault Refusal :=
  s.basicCmd src (fun s => s.ctxCmd src 4 (some s.ctxSel) (fun x => x.st == .staged) (fun x s =>
    ((s.freeCellsOf x.other x.active).setSlot2 (some s.ctxSel) x.dropOther).ctxResult 0))
/-- UNLOAD (R208): version 0 is staged. -/
def execUnload (src : Source) (s : State) : Host.Outcome State Fault Refusal :=
  s.basicCmd src (fun s => s.ctxCmd src 5 (some s.ctxSel) (fun x => x.st == .active) (fun x s =>
    (s.setSlot2 (some s.ctxSel) { (x.setOther (some { kind := x.kind })) with st := .staged, emptying := true }).ctxResult 0))

/-! ### COMMIT (R210, R215, R247) -/

/-- A commit is armed, or its checks run, for beat C. -/
def Ctx.armedFor (x : Ctx) (c : Nat) : Bool := (x.st == .armed && x.armC == c) || (x.cmtPend && x.cmtBeat == c)
/-- Identifier of the layout in force at C (R210). -/
def State.layoutAt (s : State) (c : Nat) : Nat :=
  match s.layout.other with
  | some v => if s.layout.armedFor c then v.ver else (s.layout.active.map (·.ver)).getD 0
  | none => (s.layout.active.map (·.ver)).getD 0
/-- A layout commit at C would leave an active in-line context without a version for it. -/
def State.orphans (s : State) (id c : Nat) : Bool :=
  s.ctxs.any (fun e => e.2.kind == 1 && (e.2.active.map (fun v => decide (v.ver ≠ 0) && v.layoutId != id)).getD false &&
    !(e.2.armedFor c && (e.2.other.map (fun v => v.ver == 0 || v.layoutId == id)).getD false))
/-- Refusal of a commit of a context or the layout for beat C, written in beat w (R210); 0 when it passes. -/
def State.commitCheck (s : State) (c : Option Nat) (x : Ctx) (beat w : Nat) (soon : Bool) : Nat :=
  match x.other with
  | none => 0
  | some v =>
    let early := if s.rd Reg.CTX.SKIP_BEAT_CHECK = 1 then decide (beat ≤ w) else decide (beat < w + 256)
    if soon ∧ early then 32
    else if c.isSome ∧ (v.kind = 1 ∨ v.kind = 4) ∧ v.ver ≠ 0 ∧ v.layoutId ≠ s.layoutAt beat then 33
    else if c.isNone ∧ s.orphans v.ver beat then 34
    else if v.kind = 4 ∧ v.ver ≠ 0 ∧
        !(((s.ctxs.get v.shadowCtx).active.map (·.ver)) == some v.shadowMv || ((s.ctxs.get v.shadowCtx).staged.map (·.ver)) == some v.shadowMv) then 35
    else 0
/-- Kinds whose commits a member sends to the bellwether (R247). -/
def herdKind (k : Nat) : Bool := k == 1 || k == 2 || k == 3
/-- A COMMIT is taken: its checks start. -/
def State.startCommit (s : State) (c : Option Nat) (x : Ctx) : State :=
  s.setSlot2 c { x with cmtPend := true, cmtHerd := false, cmtBeat := s.rd Reg.CTX.COMMIT_BEAT, cmtWrite := s.time.beat }
/-- A COMMIT with HERD goes to the bellwether as a CREQ. -/
def State.herdCommit (s : State) (c : Nat) (x : Ctx) : State :=
  if s.herdState < 2 then ((s.cmtResult 2).bump Reg.CTX.REFUSALS).ctxResult 1
  else if s.rd Reg.HERD.ELECTING = 1 then ((s.cmtResult 3).bump Reg.CTX.REFUSALS).ctxResult 1
  else
    let k : CommitKind := .context ⟨c % 4096, Nat.mod_lt _ (by decide)⟩
    (s.setSlot2 (some c) { x with cmtHerd := true, cmtBeat := s.rd Reg.CTX.COMMIT_BEAT }).creq k ((x.other.map (·.ver)).getD 0) (s.rd Reg.CTX.COMMIT_BEAT)
/-- COMMIT (R208, R210, R247). -/
def execCommit (src : Source) (herd : Bool) (s : State) : Host.Outcome State Fault Refusal :=
  s.basicCmd src (fun s =>
    let c := s.ctxSel
    let x0 := s.ctxs.get c
    let local_ := decide (2 ≤ s.herdState) && herdKind x0.kind && !herd && x0.st == .staged
    let s := if local_ then s.bump Reg.HERD.LOCAL_REFUSED else s
    s.ctxCmd src (if herd then 10 else 2) (some c) (fun x => x.st == .staged && !x.cmtPend && !x.cmtHerd && !local_) (fun x s =>
      if herd ∧ herdKind x.kind then s.herdCommit c x else s.startCommit (some c) x))
/-- COMMIT_LAYOUT (R215, R247): layout commits stay local. -/
def execCommitLayout (src : Source) (herd : Bool) (s : State) : Host.Outcome State Fault Refusal :=
  s.basicCmd src (fun s => s.ctxCmd src (if herd then 15 else 7) none (fun x => x.st == .staged && !x.cmtPend) (fun x s => s.startCommit none x))
/-- COMMIT_CHECK_END (R210). -/
def execCommitCheckEnd (c : Option CtxNum) (s : State) : Host.Outcome State Fault Refusal :=
  let k := c.map (·.val)
  let x := s.slotOf2 k
  if ¬ x.cmtPend ∨ x.st ≠ .staged then .next s
  else
    let code := s.commitCheck k x x.cmtBeat x.cmtWrite true
    let s := s.setSlot2 k (if code = 0 then { x with cmtPend := false, st := .armed, armC := x.cmtBeat } else { x with cmtPend := false })
    if code = 0 then .next (s.ctxResult 0) else .next (s.ctxRefuse (code, 0xFFFF, 0))
/-- ABORT (R208, R248). -/
def execAbort (src : Source) (s : State) : Host.Outcome State Fault Refusal :=
  s.basicCmd src (fun s => s.ctxCmd src 3 (some s.ctxSel) (fun x => x.st == .armed) (fun x s =>
    let c := s.ctxSel
    let s := (s.setSlot2 (some c) { x with st := .staged, cmtHerd := false }).ctxResult 0
    if x.cmtHerd then s.abortOrder (.context ⟨c % 4096, Nat.mod_lt _ (by decide)⟩) else s))

/-! ### The switch (R210, R211) -/

/-- FSET_LOADED shows the sets of the active half (R107). -/
def State.showSets (s : State) : State :=
  let map_ := ((List.range 16).map (fun k => if (s.setNow k).present then 2 ^ k else 0)).sum
  (List.range 16).foldl (fun t l => t.wr Reg.LANE.FSET_LOADED map_ l) s
/-- Feature content of a switched version comes into force (R99, R107, R211). -/
def State.switchSets (s : State) (v : Version) : State :=
  if ¬ v.carries then s
  else
    { s with fhalf := v.half }.showSets
/-- CONTEXT_VERSION_SWITCH (R199, R210): the new slot becomes active at beat C. A commit of a new version brings a down context up, unless the
version needs a withdrawn flock. -/
def execContextVersionSwitch (c : Option CtxNum) (s : State) : Host.Outcome State Fault Refusal :=
  let k := c.map (·.val)
  let x := s.slotOf2 k
  if x.st ≠ .armed ∨ s.time.beat < x.armC then .next s
  else
    let y := { x with slot := !x.slot, st := if x.active.isSome then .retiring else .active, switchBeat := x.armC, retired := false, cmtHerd := false }
    let s := ((s.setSlot2 k y).bump Reg.CTX.COMMITS).event Blk.CTX 0 1
    match y.active, c with
    | some v, some n =>
      let s := (s.switchSets v).orderDone (.context n)
      if v.ver ≠ 0 ∧ !v.flocks.any (fun f => (s.flocks.get f).withdrawn) then .next (s.ctxUp n.val) else .next s
    | _, _ => .next s
/-- A tree core switches to the other bank (R118). The staged program of several contexts that share the core is formed for the versions now in force. -/
def State.switchTree (s : State) (f t : Nat) : State :=
  let k := s.tcore f t
  let bank := !k.bank
  (s.putTreeBank f t bank (treeProgram f t (s.onCore f t) (fun _ e => e.body))).setTcore f t { k with bank := bank }
/-- Tree cores of a version: flock and physical core. -/
def Version.trees (v : Version) : List (Nat × Nat) := ((v.sects.filter (fun t => t.type == 4)).map (fun t => (t.flock, t.phys))).eraseDups
/-- Array cores of a version with programs of one type and o (0: any). -/
def Version.acores (v : Version) (type o : Nat) : List ACoreId :=
  (v.sects.filter (fun t => t.type == type && (o == 0 || Sect.setBeat t == o))).map (fun t =>
    { flock := ⟨t.flock % 256, Nat.mod_lt _ (by decide)⟩, cls := if type = 7 then .bulk else .express, core := ⟨t.unit % 16, Nat.mod_lt _ (by decide)⟩ })
/-- The banks of some cores switch (R129, R166), and DESC_BANK shows it. -/
def State.switchCores (s : State) (cs : List ACoreId) : State :=
  cs.foldl (fun t c =>
    let b := !(t.acore c).progBank
    let t := t.modAcore c (fun k => { k with progBank := b })
    let f := c.flock.val
    let r := if c.bulk then Reg.FLOCK.DESC_BANK_B else Reg.FLOCK.DESC_BANK
    t.wr r (setBits (t.rd r f) c.core.val 1 (b2n b)) f) s
/-- Change the active and the old version of a context. -/
def State.modVers (s : State) (c : Nat) (new old : Version → Version) : State :=
  let x := s.ctxs.get c
  { s with ctxs := s.ctxs.set c ((x.setActive (x.active.map new)).setOther (if x.st = .retiring then x.other.map old else x.other)) }
/-- The old version's and the new version's tree cores switch. -/
def State.switchTrees (s : State) (c : Nat) : State :=
  let x := s.ctxs.get c
  let ts := ((x.active.map Version.trees).getD [] ++ (if x.st = .retiring then (x.other.map Version.trees).getD [] else [])).eraseDups
  let s := s.modVers c (fun v => { v with treeOn := true }) (fun v => { v with treeOn := false })
  ts.foldl (fun t e => t.switchTree e.1 e.2) s
/-- The express cores with o of the context switch. -/
def State.switchExpress (s : State) (c o : Nat) : State :=
  let x := s.ctxs.get c
  let s := s.switchCores ((x.active.map (fun v => v.acores 6 o)).getD [])
  if o = 4 then s.modVers c (fun v => { v with express4On := true }) (fun v => { v with express4On := false })
  else s.modVers c (fun v => { v with expressOn := true }) (fun v => { v with expressOn := false })
/-- Bulk and tree cores for which `p` holds switch from the old version of a context to its new one (R211). -/
def State.switchRuns (s : State) (c : Nat) (p : Nat → Bool) : State :=
  let x := s.ctxs.get c
  let new := (x.active.map (fun v => v.coreKeys.filter (fun k => p k && !v.runs.contains k))).getD []
  let old := if x.st = .retiring then (x.other.map (fun v => v.runs.filter p)).getD [] else []
  let s := s.switchCores ((x.active.map (fun v => (v.acores 7 0).filter (fun a => new.contains a.num))).getD [])
  let s := s.modVers c (fun v => { v with runs := v.runs ++ new }) (fun v => { v with runs := v.runs.filter (fun k => !p k) })
  ((new ++ old).eraseDups.filter (fun k => decide (65536 ≤ k))).foldl (fun t k => t.switchTree ((k - 65536) / 64) ((k - 65536) % 64)) s
/-- Invocations of a version of a context run. -/
def State.invsOf (s : State) (c mv : Nat) : List Inv := s.flow.invs.filter (fun i => i.ctx == c && i.mv == mv)
/-- The old version of a context, until it is freed. -/
def Ctx.old (x : Ctx) : Option Version := if x.st = .retiring then x.other else none
/-- Some core of a context still has to switch (R211). -/
def Ctx.runsDue (x : Ctx) : Bool := x.active.any (fun v => !v.coreKeys.all v.runs.contains) || x.old.any (fun v => !v.runs.isEmpty)
/-- The cores of a shadow context of a flow context, as those of the flow context, switch core by core; every other shadow is one of an in-line context. -/
def State.flowLike (s : State) (x : Ctx) : Bool := x.kind == 2 || (x.kind == 4 && x.active.any (fun v => (s.ctxs.get v.shadowCtx).kind == 2))
/-- The context whose invocations hold a context's cores: itself, or the one it shadows. -/
def Ctx.invCtx (x : Ctx) (c : Nat) : Nat := if x.kind = 4 then (x.active.map (·.shadowCtx)).getD c else c
/-- An invocation of the old version holds a core (R211, R212): for a shadow, one that started before its beat C. -/
def State.oldHolds (s : State) (c : Nat) (x : Ctx) (key : Nat) : Bool :=
  if x.kind = 4 then s.flow.invs.any (fun i => i.ctx == x.invCtx c && decide (i.startBeat < x.switchBeat))
  else x.old.any (fun v => (s.invsOf c v.ver).any (fun i => s.invHolds i key))
/-- VERSION_PART_SWITCH (R211): a part of the context first uses the new version. -/
def execVersionPartSwitch (c : CtxNum) (part : VerPart) (s : State) : Host.Outcome State Fault Refusal :=
  let x := s.ctxs.get c.val
  let n := s.time.beat
  let inline := x.kind == 1 || (x.kind == 4 && !s.flowLike x)
  match x.active with
  | none => .next s
  | some v =>
    if n < x.switchBeat then .next s
    else
      match part with
      | .tree =>
        if v.treeOn ∨ ¬ inline ∨ n < x.switchBeat + 4 then .next s
        else .next (if x.kind = 4 then (s.switchTrees c.val).switchRuns c.val (fun k => decide (k < 65536)) else s.switchTrees c.val)
      | .gather =>
        if v.gatherOn ∨ ¬ inline ∨ n < x.switchBeat + 5 then .next s
        else .next (s.modVers c.val (fun v => { v with gatherOn := true }) (fun v => { v with gatherOn := false }))
      | .express =>
        if x.kind ≠ 1 ∧ x.kind ≠ 4 then .next s
        else
          let s := if ¬ v.expressOn ∧ x.switchBeat + 4 ≤ n then s.switchExpress c.val 3 else s
          .next (if ¬ v.express4On ∧ x.switchBeat + 5 ≤ n then s.switchExpress c.val 4 else s)
      | .flowCore => if ¬ s.flowLike x ∨ ¬ x.runsDue then .next s else .next (s.switchRuns c.val (fun k => !s.oldHolds c.val x k))
      | .aggregate => if ¬ x.runsDue ∨ x.kind ≠ 3 ∨ n % 16384 ≠ 0 then .next s else .next (s.switchRuns c.val (fun _ => true))
      | .hostJob => if ¬ x.runsDue ∨ x.kind ≠ 6 ∨ (s.host.jobs.get c.val).isSome then .next s else .next (s.switchRuns c.val (fun _ => true))

/-! ### Retirement (R212, R218) -/

/-- A resident packet holds a version of a context (R212): stamped with it, or accepted before C and not yet searched. A lane in pass mode counts as
zero (R68, R199). -/
def State.holdsVersion (s : State) (c ver switchBeat lane : Nat) : Bool :=
  !(s.lanes.get lane).pass && s.resident.any (fun p =>
    let x := p.2
    x.i.lane == lane && decide (s.time.beat < x.i.b + 5) &&
      (if x.lk.searched then (Rule.enA x.lk.act && Rule.ctxA x.lk.act == c && x.ft.mvA == ver) || (Rule.enB x.lk.act && Rule.ctxB x.lk.act == c && x.ft.mvB == ver)
       else !x.vd.released && decide (x.i.b ≤ switchBeat)))
/-- The old version of a context is occupied (R212). At boundary C + 6 a count that is still not zero is taken as zero. -/
def State.occupied (s : State) (c : Option Nat) (x : Ctx) : Bool :=
  match c, x.other with
  | none, _ => decide (s.time.beat < x.switchBeat + 5)
  | some n, some v =>
    match x.kind with
    | 1 => decide (s.time.beat < x.switchBeat + 6) && (List.range 16).any (s.holdsVersion n v.ver x.switchBeat)
    | 2 => !(s.invsOf n v.ver).isEmpty
    | 3 => x.running && x.runMv == v.ver
    | 4 => if s.flowLike x then s.oldHolds n x 0 else decide (s.time.beat < x.switchBeat + 5)
    | 6 => ((s.host.jobs.get n).map (fun j => j.mv == v.ver)).getD false
    | _ => false
  | _, none => false
/-- CONTEXT_RETIRE (R212). -/
def execContextRetire (c : Option CtxNum) (s : State) : Host.Outcome State Fault Refusal :=
  let k := c.map (·.val)
  let x := s.slotOf2 k
  if x.st ≠ .retiring ∨ x.retired ∨ s.time.beat < x.switchBeat ∨ s.occupied k x then .next s
  else .next ((s.setSlot2 k { x with retired := true }).event Blk.CTX 0 2)
/-- The old version's units and space are freed, its range is unprotected, and its slot is empty; a commit of version 0 ends in EMPTY. -/
def State.freeOld (s : State) (c : Option Nat) : State :=
  let x := s.slotOf2 c
  let s := s.freeCellsOf x.other x.active
  if x.emptying then s.setSlot2 c { x with v0 := none, v1 := none, st := .empty, kind := 0, emptying := false, retired := false }
  else s.setSlot2 c { (x.setOther none) with st := .active, retired := false }
/-- Some part of the device still runs the old version of a context, or a packet accepted before C may still be on its way (R203, R211). -/
def State.oldInUse (s : State) (x : Ctx) : Bool :=
  decide (s.time.beat < x.switchBeat + 6) || x.old.any (fun v => v.treeOn || v.gatherOn || v.expressOn || v.express4On || !v.runs.isEmpty)
/-- CONTEXT_RETIRE_END (R212): within the 64 beats after retirement, once no part of the device runs the old version. -/
def execContextRetireEnd (c : Option CtxNum) (s : State) : Host.Outcome State Fault Refusal :=
  let k := c.map (·.val)
  let x := s.slotOf2 k
  if x.st = .retiring ∧ x.retired ∧ (c.isNone ∨ ¬ s.oldInUse x) then .next (s.freeOld k) else .next s
/-- The invocations of the old version end as lost. -/
def State.endOldInvs (s : State) (c : Nat) : State :=
  let x := s.ctxs.get c
  ((s.invsOf c ((x.other.map (·.ver)).getD 0))).foldl State.invLost s
/-- FLOW_DRAIN_EXPIRE (R212): the invocations of the old version still running end as lost, and their cores switch. -/
def execFlowDrainExpire (c : CtxNum) (s : State) : Host.Outcome State Fault Refusal :=
  let x := s.ctxs.get c.val
  if x.st = .retiring ∧ x.kind = 2 ∧ x.switchBeat + s.act Reg.CTX.FLOW_DRAIN ≤ s.time.beat then .next ((s.endOldInvs c.val).switchRuns c.val (fun _ => true)) else .next s
/-- The old version of a context is retired. -/
def State.setRetired (s : State) (c : Nat) : State := { s with ctxs := s.ctxs.mod c (fun x => { x with retired := true }) }
/-- FORCE_RETIRE (R218): at the next beat boundary. -/
def execForceRetire (src : Source) (s : State) : Host.Outcome State Fault Refusal :=
  s.expertCmd src Reg.CTX.FORCE_RETIRE 0 1 (fun s => s.later (.forceRetire s.ctxSel))
/-- What FORCE_RETIRE does: the old slot holds no version number any more, so its packets find no version, and it is retired; its parts are freed as
after any retirement. -/
def State.forceRetireNow (s : State) (c : Nat) : State :=
  let x := s.ctxs.get c
  if x.st = .retiring then
    let s := (s.endOldInvs c).event Blk.CTX 0 2
    s.modVers c id (fun v => { v with ver := 0 }) |>.setRetired c
  else s

end Sys2Proof.Machine
end

