-- ==== Sys2Proof/Machine/Links.lean ====
section
/-! DEFINITION. Herd ports and their flits, and how a message reaches its member (R230 to R235, R250, R254). -/

namespace Sys2Proof.Machine

open Sys2Proof

/-! ### Port states (R230, R233, R254) -/

def State.linkState (s : State) (p : Nat) : Nat := s.rd Reg.HLINK.LINK_STATE p
/-- Set LINK_STATE, with its event; OOS shows a port that is not accepted (R377). -/
def State.setHl (s : State) (p v : Nat) : State :=
  let old := s.linkState p
  if old = v then s
  else
    let t := (s.wr Reg.HLINK.LINK_STATE v p).event Blk.HLINK p 0
    if (old = 4) = (v = 4) then t else t.event Blk.HLINK p 30
/-- A port that may run: the data path has started, HERD_EN is high and its dimension has more than one coordinate (R233, R337). -/
def State.portUsed (s : State) (p : Nat) : Bool := s.time.started && s.sec.herdEn && decide (1 < s.dimSize (p / 4))
/-- A port starts to train, or goes to the state that keeps it from training. -/
def State.trainPort (s : State) (p : Nat) : State :=
  let s := { s with hl := s.hl.set p { trainAt := s.time.beat, missOut := (s.hl.get p).missOut } }
  if ¬ s.portUsed p ∨ s.rd Reg.HLINK.ENABLE p = 0 ∨ (s.hl.get p).missOut ∨ s.flt.wd.get (7 * 65536 + p) then s.setHl p 0
  else if s.sec.domain.isNone then s.setHl p 7
  else s.setHl p 1
/-- Ports in service again after a change of the shape or the domain: those that are down, and those that a change has taken out. -/
def State.retrainPorts (s : State) : State :=
  (List.range 12).foldl (fun t p => if t.linkState p = 0 ∨ t.linkState p = 7 ∨ ¬ t.portUsed p then t.trainPort p else t) s

/-- HLINK_ENABLE (R219, R230, R254). -/
def execHlinkEnable (src : Source) (h : HPort) (v : Bool) (s : State) : Host.Outcome State Fault Refusal :=
  s.basicCmd src (fun s => 
    let s := (s.wrNow Reg.HLINK.ENABLE (b2n v) h.val).auditCmd src Reg.HLINK.ENABLE h.val (b2n v) 0
    { s with hl := s.hl.mod h.val (fun x => { x with missOut := false }) }.trainPort h.val)
/-- HLINK_TRAINED (R230, R233): the port is trained and sends HELLO from the next beat on. -/
def execHlinkTrained (h : HPort) (delay : BitVec 16) (s : State) : Host.Outcome State Fault Refusal :=
  if s.linkState h.val = 1 then .next ((s.wr Reg.HLINK.LINK_DELAY delay.toNat h.val).setHl h.val 3) else .next s
/-- TRAIN_FAIL (R230): not trained within 2^20 beats. -/
def execTrainFail (h : HPort) (s : State) : Host.Outcome State Fault Refusal :=
  if s.linkState h.val = 1 ∧ (s.hl.get h.val).trainAt + 2 ^ 20 ≤ s.time.beat then .next (s.setHl h.val 2) else .next s
/-- HLINK_LOCK_LOSS (R230): a trained port trains again. -/
def execHlinkLockLoss (h : HPort) (s : State) : Host.Outcome State Fault Refusal :=
  if 3 ≤ s.linkState h.val ∧ s.linkState h.val ≤ 6 then .next (s.trainPort h.val) else .next s

/-! ### Flits (R231, R235, R250) -/

/-- A lost reduction flit voids the reductions in progress (R246). -/
def State.redLost (s : State) : State :=
  { s with herd := { s.herd with red := s.herd.red.map (fun e => if e.2.have_ then e else (e.1, { e.2 with void := true })) } }
/-- Slots counted per VC. -/
def addSlots (l : List Nat) (vcs : List (Fin 4)) : List Nat := (List.range 4).map (fun v => l.getD v 0 + (vcs.filter (fun c => c.val == v)).length)
/-- FLIT_RECEIVE (R231, R235, R250): a bad flit is discarded; a gap in SEQ shows flits that are missing; CRED gives credit back, and the slots of the
flit are freed here. `vcs` lists the slots that carry something. From boundary S + 1 of a stop a flit of VC 1 to VC 3 goes to the capture buffer, which
holds 512. -/
def execFlitReceive (h : HPort) (f : FlitF) (s : State) : Host.Outcome State Fault Refusal :=
  let p := h.val
  if ¬ (3 ≤ s.linkState p ∧ s.linkState p ≤ 6) then .next s
  else
    let s := s.bump Reg.HLINK.FLITS_RX p
    let s := if f.codewordOk ∧ f.corrected then s.bump Reg.HLINK.CORRECTED p else s
    let s := { s with hl := s.hl.mod p (fun x => { x with rxSlots := addSlots x.rxSlots f.vcs }) }
    let x := s.hl.get p
    if ¬ f.codewordOk ∨ ¬ f.crcOk then
      let s := s.bump Reg.HLINK.FLIT_LOST p
      let s := s.fault { cls := 8, scope := 7, block := Blk.HLINK, inst := p, unit := p, count := s.rd Reg.HLINK.FLIT_LOST p }
      .next (if f.vcs.any (fun v => v.val == 1) then s.redLost else s)
    else
      let gap := (x.seq.map (fun e => (f.seq + 2 ^ 32 - e) % 2 ^ 32)).getD 0
      let y := { x with seq := some ((f.seq + 1) % 2 ^ 32), missing := x.missing + gap, credit := (List.range 4).map (fun v => x.credit.getD v 0 + leAt f.bytes (8 + v) 1) }
      let s := { s with hl := s.hl.set p y }
      if s.herd.cut ∧ f.vcs.any (fun v => v.val != 0) then
        if x.cap.length < 512 then .next { s with hl := s.hl.mod p (fun z => { z with cap := z.cap ++ [(f.bytes ++ zeros 256).take 256] }) }
        else .next (s.bump Reg.HLINK.CAP_LOST p)
      else .next s
/-- A capture line of 16 bytes (R254). -/
def State.capLine (s : State) (p line : Nat) : List Byte := slice ((s.hl.get p).cap.getD (line / 16) []) (line % 16 * 16) 16

/-! ### Messages (R232, R234) -/

/-- VC of a message kind. -/
def vcOf (kind : Nat) : Nat := if kind < 16 then 0 else if kind = 16 then 1 else if kind < 24 then 2 else 3
/-- A message arrives for this device on an accepted port. One for another member is passed on by the link controllers, in every state; from the
cut of a stop VC 1 to VC 3 are captured with their flit and go no further (R234, R250). The two copies of a control message keep their ports of the
pair (R231). -/
def State.recv (s : State) (h : HPort) (m : MsgHdr) (kind : Nat) (args : List Int) (k : State → State) : Host.Outcome State Fault Refusal :=
  if ¬ s.hlUp h.val ∨ (16 ≤ kind ∧ s.herd.cut) then .next s
  else if m.dest.val = s.ownId then .next (k s)
  else
    match (s.transitNext m.src.val m.dest.val).bind (fun n => s.upPort (s.portFor s.ownId n (if kind < 16 then h.val else m.src.val + m.dest.val))) with
    | some p => .next (s.sendAs (some p) kind m.src.val m.dest.val args)
    | none => .next s
/-- A message to every neighbour arrives. -/
def State.recvAll (s : State) (h : HPort) (k : State → State) : Host.Outcome State Fault Refusal :=
  if s.hlUp h.val then .next (k s) else .next s
/-- The words of an optional value: −1 for none. -/
def optInt (o : Option Nat) : Int := (o.map (fun n => (n : Int))).getD (-1)

/-! ### Windows and flow homes (R241 to R244) -/

/-- A request of a kind that changes the window's memory. -/
def RemoteReq.isWrite (r : RemoteReq) : Bool := r.kind == 18
/-- First device address of a window request. -/
def State.winAddr (s : State) (r : RemoteReq) : Nat := s.regionBase (s.act Reg.HERD.WIN_REGION 0 r.win) + s.act Reg.HERD.WIN_BASE 0 r.win + r.addr
/-- A request lies in its window and is permitted (R241). The flow store exports read access only, and no write reaches a protected image range. -/
def State.winOk (s : State) (r : RemoteReq) : Bool :=
  let acc := s.act Reg.HERD.WIN_ACCESS 0 r.win
  let reg := s.act Reg.HERD.WIN_REGION 0 r.win
  let base := s.act Reg.HERD.WIN_BASE 0 r.win
  let size := s.act Reg.HERD.WIN_SIZE 0 r.win * 65536
  decide (reg < 6) && base % 65536 == 0 && decide (base + size ≤ s.regionSize reg) && decide (r.addr + r.len ≤ size) &&
    (if r.isWrite then acc == 2 && reg != 0 && !(reg == 2 && s.protectedRanges.any (meets (lineRange (base + r.addr) r.len))) else acc == 1 || acc == 2)
/-- Behind the requests of earlier cycles and, of the same cycle, of ports no higher (R243). -/
def insertReq (r : RemoteReq) : List RemoteReq → List RemoteReq
  | [] => [r]
  | q :: t => if q.at_ = r.at_ ∧ r.port < q.port then r :: q :: t else q :: insertReq r t
/-- Queue a request until the beat after it arrived (R243). -/
def State.queueReq (s : State) (r : RemoteReq) : State := { s with herd := { s.herd with reqs := insertReq { r with at_ := s.now } s.herd.reqs } }
def bytesInts (bs : List Byte) : List Int := bs.map (fun b => (b.toNat : Int))
/-- Apply one remote request. A refused read is answered by nothing, a refused write by its status; the requester counts either as lost. -/
def State.applyReq (s : State) (r : RemoteReq) : State :=
  if r.kind = 19 then
    let (v, isNew) := s.homeRead r.addr r.tag.toNat
    (s.sendTo 26 r.src (((r.tok : Int) :: v.map (fun w => (w.toNat : Int))) ++ [(b2n isNew : Int)])).1
  else if r.kind = 20 then s.homeAdd r.addr r.tag.toNat r.vals
  else if ¬ s.winOk r then
    let s := s.bump Reg.HERD.WIN_REFUSED
    if r.isWrite then (s.sendTo 25 r.src [(r.tok : Int), 0]).1 else s
  else if r.isWrite then ((s.hbmPutAs 1 (s.winAddr r) r.data).sendTo 25 r.src [(r.tok : Int), 1]).1
  else
    let a := s.winAddr r
    let (bs, s) := if (s.hbmUe a r.len).isSome then s.freshBytes r.len else (Mem.readN s.hbm a r.len, s)
    (s.sendTo 24 r.src ((r.tok : Int) :: bytesInts bs)).1

/-- RD (R241, R243). -/
def execRd (h : HPort) (m : MsgHdr) (win : Fin 16) (addr : Nat) (len : Nat) (s : State) : Host.Outcome State Fault Refusal :=
  s.recv h m 17 [(win.val : Int), (addr : Int), (len : Int), (m.tok : Int)] (fun s =>
    s.queueReq { kind := 17, port := h.val, src := m.src.val, win := win.val, addr := addr, len := Nat.min len 256, data := [], tag := 0, vals := [], beat := s.time.beat, tok := m.tok })
/-- WR (R241, R243). -/
def execWr (h : HPort) (m : MsgHdr) (win : Fin 16) (addr : Nat) (data : List Byte) (s : State) : Host.Outcome State Fault Refusal :=
  s.recv h m 18 ([(win.val : Int), (addr : Int), (data.length : Int), (m.tok : Int)] ++ bytesInts data) (fun s =>
    s.queueReq { kind := 18, port := h.val, src := m.src.val, win := win.val, addr := addr, len := data.length, data := data, tag := 0, vals := [], beat := s.time.beat, tok := m.tok })
/-- HGET (R244). -/
def execHget (h : HPort) (m : MsgHdr) (idx : Nat) (tag : DWord) (s : State) : Host.Outcome State Fault Refusal :=
  s.recv h m 19 [(idx : Int), (tag.toNat : Int), (m.tok : Int)] (fun s =>
    s.queueReq { kind := 19, port := h.val, src := m.src.val, win := 0, addr := idx % 2 ^ s.act Reg.HERD.HOME_LOG2, len := 64, data := [], tag := tag, vals := [], beat := s.time.beat, tok := m.tok })
/-- HADD (R244). -/
def execHadd (h : HPort) (m : MsgHdr) (idx : Nat) (tag : DWord) (vals : List Word) (s : State) : Host.Outcome State Fault Refusal :=
  s.recv h m 20 ([(idx : Int), (tag.toNat : Int)] ++ vals.map (fun w => (w.toNat : Int))) (fun s =>
    s.queueReq { kind := 20, port := h.val, src := m.src.val, win := 0, addr := idx % 2 ^ s.act Reg.HERD.HOME_LOG2, len := 64, data := [], tag := tag, vals := vals, beat := s.time.beat })
/-- REMOTE_REQUEST_APPLY (R243): the requests of earlier beats, in arrival order. -/
def execRemoteRequestApply (s : State) : Host.Outcome State Fault Refusal :=
  let due := s.herd.reqs.filter (fun r => decide (r.beat < s.time.beat))
  .next (due.foldl State.applyReq { s with herd := { s.herd with reqs := s.herd.reqs.filter (fun r => decide (s.time.beat ≤ r.beat)) } })

/-- The answer to a piece of an aperture COPY: its place in `remote` is given up. -/
def State.takeRemote (s : State) (tok : Nat) (k : RemPend → State → State) : State :=
  match s.herd.remote.find? (fun p => decide (p.tok = tok)) with
  | none => s
  | some p => k p { s with herd := { s.herd with remote := s.herd.remote.filter (fun q => decide (q.tok ≠ tok)) } }
/-- RDR (R242): read data lands in core memory; an answer that is not whole is a lost access. -/
def execRdr (h : HPort) (m : MsgHdr) (tok : Nat) (data : List Byte) (s : State) : Host.Outcome State Fault Refusal :=
  s.recv h m 24 ((tok : Int) :: bytesInts data) (fun s => s.takeRemote tok (fun p s =>
    if p.write ∨ data.length ≠ p.len then (s.copyVoid p.core).releasePosts p.core else (s.coreStore p.core p.addr data).releasePosts p.core))
/-- WRA (R242): the status of a remote write. -/
def execWra (h : HPort) (m : MsgHdr) (tok : Nat) (ok : Bool) (s : State) : Host.Outcome State Fault Refusal :=
  s.recv h m 25 [(tok : Int), (b2n ok : Int)] (fun s => s.takeRemote tok (fun p s =>
    (if ok ∧ p.write then s else s.copyVoid p.core).releasePosts p.core))
/-- HREP (R244): the values and HOME_NEW of a fetch enter the input of the invocation that made it. -/
def execHrep (h : HPort) (m : MsgHdr) (tok : Nat) (vals : List Word) (isNew : Bool) (s : State) : Host.Outcome State Fault Refusal :=
  s.recv h m 26 (((tok : Int) :: vals.map (fun w => (w.toNat : Int))) ++ [(b2n isNew : Int)]) (fun s =>
    let s := { s with herd := { s.herd with hrep := if isNew then List.replicate 8 0 else (vals ++ List.replicate 8 0).take 8, hrepNew := isNew } }
    match s.herd.homePend.find? (fun e => e.1 == tok) with
    | some e => ({ s with herd := { s.herd with homePend := s.herd.homePend.filter (fun q => q.1 != tok) } }).homeInput e.2 vals isNew false
    | none => s)

/-! ### HELLO (R233) -/

/-- Domain identity as a number. -/
def State.domainId (s : State) : Nat := leNat (s.sec.domain.getD [])
/-- Domain, shape, EXPECTED and ORIGIN are equal at both ends. -/
def State.helloSame (s : State) (f : HelloF) : Bool :=
  f.domain == s.domainId && f.nx == s.dimSize 0 && f.ny == s.dimSize 1 && f.nz == s.dimSize 2 &&
    f.expected == s.rd Reg.HERD.EXPECTED && f.origin == s.rd Reg.TIME.ORIGIN_SEC
/-- The wiring of port p holds: the neighbour one step away in p's dimension and sign, on its port of the opposite sign. -/
def State.wiringOk (s : State) (p : Nat) (f : HelloF) : Bool :=
  let d := p / 4
  let size := s.dimSize d
  let own := coordOf s.ownId d
  idOf f.x f.y f.z == withCoord s.ownId d ((own + (if p / 2 % 2 = 0 then 1 else size - 1)) % size) &&
    f.port.val == d * 4 + (1 - p / 2 % 2) * 2 + p % 2
/-- A device with JOIN set enters FOLD when a port is accepted (R239). -/
def State.enterFold (s : State) : State :=
  if s.herdState = 0 ∧ s.herd.joinWant ∧ (List.range 12).any s.hlUp then
    let s := s.setHerdState 1
    { s with herd := { s.herd with heard := s.time.beat, lockBeats := 0, vtab := [] } }
  else s
/-- HELLO (R233): the port is accepted, or enters DOMAIN_ERR or WIRING_ERR. -/
def execHello (h : HPort) (_m : MsgHdr) (f : HelloF) (s : State) : Host.Outcome State Fault Refusal :=
  let p := h.val
  if ¬ (3 ≤ s.linkState p ∧ s.linkState p ≤ 6) then .next s
  else
    let s := (s.wr Reg.HLINK.PEER_ID (idOf f.x f.y f.z) p).wr Reg.HLINK.PEER_PORT f.port.val p
    let s := { s with hl := s.hl.mod p (fun x => { x with peer := some f }) }
    .next ((s.setHl p (if ¬ s.helloSame f then 6 else if ¬ s.wiringOk p f then 5 else 4)).enterFold)
/-- Contents of this device's HELLO on a port. -/
def State.helloArgs (s : State) (p : Nat) : List Int :=
  [(s.domainId : Int), (s.dimSize 0 : Int), (s.dimSize 1 : Int), (s.dimSize 2 : Int), (coordOf s.ownId 0 : Int), (coordOf s.ownId 1 : Int),
   (coordOf s.ownId 2 : Int), (s.rd Reg.HERD.EXPECTED : Int), (s.rd Reg.TIME.ORIGIN_SEC : Int), (p : Int), (s.herdState : Int)]

end Sys2Proof.Machine
end

