-- ==== Sys2Proof/Machine/Members.lean ====
section
/-! DEFINITION. Herd membership, elections and herd commits (R236 to R240, R247, R248). -/

namespace Sys2Proof.Machine

open Sys2Proof

def State.isBw (s : State) : Bool := s.rd Reg.HERD.BELLWETHER == 1
def State.electing (s : State) : Bool := s.rd Reg.HERD.ELECTING == 1
def State.bwId (s : State) : Nat := s.rd Reg.HERD.BW_ID
/-- First epoch boundary at or after a beat. -/
def epochFrom (b : Nat) : Nat := (b + 65535) / 65536 * 65536
/-- Insert into an ascending list without repeats. -/
def insertId : List Nat → Nat → List Nat
  | [], a => [a]
  | b :: t, a => if a < b then a :: b :: t else if a = b then b :: t else b :: insertId t a

/-! ### The version table (R232, R239) -/

/-- Entry c: the active version of an in-line, flow or aggregate context. -/
def State.vEntry (s : State) (c : Nat) : Nat :=
  let x := s.ctxs.get c
  if herdKind x.kind then (x.active.map (·.ver)).getD 0 else 0
/-- The active rule version. -/
def State.activeRule (s : State) : Nat := if s.activeSlot = 0 then s.rd Reg.TCAM.SLOT_VER0 else s.rd Reg.TCAM.SLOT_VER1
/-- Block k of the version table: entries 128 k to 128 k + 127. -/
def State.vBlock (s : State) (k : Nat) : List Nat := (List.range 128).map (fun i => s.vEntry (128 * k + i))
/-- The digest of a READY: SHA-384 of the table with the active rule version appended, first 32 bytes. -/
def State.vDigest (s : State) : List Byte :=
  (Config.sha384 ((List.range 32).flatMap (fun k => (s.vBlock k).flatMap (leBytes 2)) ++ leBytes 2 s.activeRule)).take 32
/-- First context in which the received table differs from the device's own. -/
def State.vDiff (s : State) : Option Nat :=
  (List.range 32).findSome? (fun k =>
    ((List.range 128).find? (fun i => ((s.herd.vtab.get k).getD i 0).toNat != s.vEntry (128 * k + i))).map (128 * k + ·))

/-! ### Joining (R239) -/

/-- JOIN_RESULT. -/
def State.joinResult (s : State) (r : Nat) : State := s.wr Reg.HERD.JOIN_RESULT r
/-- The join ends with JOIN cleared. -/
def State.joinOver (s : State) (r : Nat) : State :=
  let s := (s.joinResult r).wrNow Reg.HERD.JOIN 0
  { s with herd := { s.herd with joinWant := false, joinE := none, lockBeats := 0, vtab := [] } }
/-- HERD_JOIN (R239, R253): without HERD_EN the device stays ALONE; without a domain the result is NO_DOMAIN. Writing 0 in FOLD gives the join up. -/
def execHerdJoin (src : Source) (v : Bool) (s : State) : Host.Outcome State Fault Refusal :=
  s.basicCmd src (fun s =>
    let s := (s.wrNow Reg.HERD.JOIN (b2n v)).auditCmd src Reg.HERD.JOIN 0 (b2n v) 0
    if ¬ v then (if s.herdState = 1 then s.becomeAlone else { s with herd := { s.herd with joinWant := false } })
    else if ¬ s.sec.herdEn ∨ 2 ≤ s.herdState then s
    else if s.sec.domain.isNone then (s.joinResult 6).retrainPorts
    else
      let s := s.joinResult 0
      (({ s with herd := { s.herd with joinWant := true, lockBeats := 0, vtab := [] } }).retrainPorts).enterFold)
/-- JOIN_LOCKED (R239): the device asks the bellwether for admission. -/
def execJoinLocked (s : State) : Host.Outcome State Fault Refusal :=
  if s.herdState = 1 ∧ s.herd.joinWant ∧ 1024 ≤ s.herd.lockBeats ∧ ¬ s.electing then
    let t := { s with herd := { s.herd with lockBeats := 0, vtab := [] } }
    match t.sendTo 3 t.bwId [(t.activeRule : Int)] with
    | (t, true) => .next t
    | (t, false) => .next (t.flood 3 t.bwId 12 [(t.activeRule : Int)])
  else .next s
/-- A message to a joining device, which the epoch's routes do not list: by its route, or to the neighbours. -/
def State.sendJoiner (s : State) (kind dst : Nat) (args : List Int) : State :=
  match s.sendTo kind dst args with
  | (s, true) => s
  | (s, false) => s.flood kind dst 12 args
/-- JOIN (R239): the bellwether answers BUSY while an ordered commit has not switched, and else sends its version table. -/
def execJoin (h : HPort) (m : MsgHdr) (ruleVer : BitVec 16) (s : State) : Host.Outcome State Fault Refusal :=
  s.recv h m 3 [(ruleVer.toNat : Int)] (fun s =>
    if ¬ s.isBw then s
    else if s.herd.orders.any (fun o => decide (s.time.beat < o.c)) then s.sendJoiner 6 m.src.val [-4]
    else (List.range 32).foldl (fun t (k : Nat) => t.sendJoiner 4 m.src.val ([(k : Int), (t.activeRule : Int)] ++ (t.vBlock k).map (fun v => (v : Int)))) s)
/-- VTABLE (R239): with the whole table received, the device compares it and the rule version with its own, and answers READY or gives up. -/
def execVtable (h : HPort) (m : MsgHdr) (blk : Fin 32) (vers : List (BitVec 16)) (ruleVer : BitVec 16) (s : State) : Host.Outcome State Fault Refusal :=
  s.recv h m 4 ([(blk.val : Int), (ruleVer.toNat : Int)] ++ vers.map (fun v => (v.toNat : Int))) (fun s =>
    if s.herdState ≠ 1 ∨ ¬ s.herd.joinWant then s
    else
      let s := { s.wr Reg.HERD.BW_ID m.src.val with herd := { s.herd with vtab := s.herd.vtab.put blk.val vers, vtabRule := ruleVer.toNat } }
      if s.herd.vtab.length < 32 then s
      else
        match s.vDiff with
        | some c => ((s.wr Reg.HERD.JOIN_DIFF c).wr Reg.HERD.RULES (b2n (s.herd.vtabRule != s.activeRule))).joinOver 3
        | none =>
          if s.herd.vtabRule ≠ s.activeRule then (s.wr Reg.HERD.RULES 1).joinOver 3
          else ({ s with herd := { s.herd with vtab := [] } }).sendJoiner 5 m.src.val (bytesInts s.vDigest))
/-- READY (R239): the bellwether admits the device at the first epoch boundary at least 2,048 beats later. A second copy gets the same beat. -/
def execReady (h : HPort) (m : MsgHdr) (digest : List Byte) (s : State) : Host.Outcome State Fault Refusal :=
  s.recv h m 5 (bytesInts digest) (fun s =>
    if ¬ s.isBw then s
    else if digest ≠ s.vDigest then s.sendJoiner 6 m.src.val [-3]
    else
      match s.herd.joins.find? (fun j => j.1 == m.src.val) with
      | some j => s.sendJoiner 6 m.src.val [(j.2 : Int)]
      | none =>
        let e := epochFrom (s.time.beat + 2048)
        ({ s with herd := { s.herd with joins := s.herd.joins ++ [(m.src.val, e)] } }).sendJoiner 6 m.src.val [(e : Int)])
/-- ADMIT (R239): beat E, or a refusal reason. -/
def execHerdAdmit (h : HPort) (m : MsgHdr) (res : Nat ⊕ Fin 16) (s : State) : Host.Outcome State Fault Refusal :=
  s.recv h m 6 [match res with | .inl e => (e : Int) | .inr r => -(r.val : Int)] (fun s =>
    if s.herdState ≠ 1 ∨ ¬ s.herd.joinWant then s
    else
      match res with
      | .inl e => { (s.wr Reg.HERD.ADMIT_BEAT e).wr Reg.HERD.BW_ID m.src.val with herd := { s.herd with joinE := some e } }
      | .inr r => if r.val = 4 then s.joinResult 4 else s.joinOver r.val)
/-- ADMISSION (R239): at beat E the device becomes a MEMBER. -/
def execAdmission (s : State) : Host.Outcome State Fault Refusal :=
  match s.herd.joinE with
  | some e =>
    if s.herdState = 1 ∧ e ≤ s.time.beat then
      let ms := insertId ((Config.epochAdded e).foldl insertId [s.bwId]) s.ownId
      let s := ((s.setHerdState 2).joinResult 1).wr Reg.HERD.MEMBERS ms.length
      .next { s with herd := { s.herd with joinE := none, members := ms, prevMembers := [s.ownId], quorum := ms.length, lostBeats := 0 } }
    else .next s
  | none => .next s

/-! ### Departures (R237, R240) -/

/-- HERD_LEAVE (R240). A device that only folds gives its join up. -/
def execHerdLeave (src : Source) (s : State) : Host.Outcome State Fault Refusal :=
  s.basicCmd src (fun s => (s.auditCmd src Reg.HERD.LEAVE 0 2 0).announceLeave)
/-- DEPARTURE (R240). -/
def execDeparture (s : State) : Host.Outcome State Fault Refusal :=
  match s.herd.leaveAt with
  | some b => if b ≤ s.time.beat ∧ 2 ≤ s.herdState then .next s.becomeAlone else .next s
  | none => .next s
/-- LOCK_LOST (R237): |PHASE_ERR| above 256 for 16 consecutive beats. -/
def execLockLost (s : State) : Host.Outcome State Fault Refusal :=
  if s.herdState = 2 ∧ 16 ≤ s.herd.lostBeats then .next s.announceLeave else .next s
/-- A member is known to depart: it leaves the list at the next epoch boundary, and reductions with the first window that excludes it. A member that
answered NACK is in both until the order's C, which the window of its DEPART then names. Requests its bellwether had not ordered are lost (R238, R240,
R247). -/
def State.memberGone (s : State) (member window : Nat) : State :=
  let h := s.herd
  let leaves := if window ≤ s.nextEpoch + 16384 then s.nextEpoch else epochFrom window
  let h := { h with departs := if h.departs.any (fun d => d.1 == member) then h.departs else h.departs ++ [(member, leaves)],
                    excl := if h.excl.any (fun d => d.1 == member) then h.excl else h.excl ++ [(member, window)] }
  let s := { s with herd := h }
  if member = s.bwId ∧ member ≠ s.ownId then { s with herd := { s.herd with bwGone := true } }.creqLost else s
/-- The bellwether takes a departure and rebroadcasts it (R240). -/
def State.rebroadcast (s : State) (member w : Nat) : State :=
  if s.herd.departs.any (fun d => d.1 == member) then s
  else
    (s.herd.members.filter (fun x => x != s.ownId && x != member)).foldl (fun t x => (t.sendTo 7 x [(member : Int), (w : Int)]).1) (s.memberGone member w)
/-- DEPART (R240). The bellwether's own announcement floods from neighbour to neighbour. -/
def execDepart (h : HPort) (m : MsgHdr) (member : Fin 32768) (window : Nat) (s : State) : Host.Outcome State Fault Refusal :=
  if s.hlUp h.val ∧ member.val = s.bwId ∧ member.val ≠ s.ownId then
    if s.herd.bwGone then .next s
    else .next ((s.memberGone member.val window).flood 7 m.dest.val h.val [(member.val : Int), (window : Int)])
  else
    s.recv h m 7 [(member.val : Int), (window : Int)] (fun s =>
      if s.herdState < 2 then s else if s.isBw then s.rebroadcast member.val s.exclWindow else s.memberGone member.val window)

/-! ### Markers (R237, R239, R240, R249) -/

/-- The hop distance that a device with no reference neighbour reports: all ones. Such a marker names no way to a bellwether, and is not heard as one. -/
def noHops : Nat := 127
/-- A marker of a port is present: no older than DETECT_BEATS, after which its sender counts as silent (R240, R253). -/
def State.markerFresh (s : State) (p : Nat) : Bool :=
  match (s.hl.get p).lastMarker with
  | some b => decide (s.time.beat < b + s.act Reg.HERD.DETECT_BEATS)
  | none => false
/-- The reference port: accepted, with the least distance in its present markers; ties go to the lower port. -/
def State.refPort (s : State) : Option Nat :=
  ((List.range 12).filterMap (fun p => if s.hlUp p && s.markerFresh p then ((s.hl.get p).peerDist.filter (fun d => decide (d < noHops))).map (fun d => (d, p)) else none)).foldl (fun (best : Option (Nat × Nat)) e =>
    match best with
    | some b => if e.1 < b.1 then some e else best
    | none => some e) none |>.map (·.2)
/-- An election at this device is over: the new bellwether's markers are heard (R238). -/
def State.electionOver (s : State) (bw : Nat) : State :=
  { (s.wr Reg.HERD.ELECTING 0).wr Reg.HERD.BW_ID bw with herd := { s.herd with t0 := none, votes := [], best := none, winner := none, bwGone := false } }
/-- The steering that holds the offset at zero. The manual gives its limit and no control law: a free value within the limit. -/
def State.herdSteer (s : State) : State :=
  if s.electing then s
  else
    let lim : Int := s.act Reg.TIME.STEER_LIMIT
    let (v, s) := s.fresh
    { s with herd := { s.herd with steer := toSigned 64 v.toNat % (2 * lim + 1) - lim } }
/-- What the marker of the reference neighbour does: its arrival against the own boundary of its beat plus LINK_DELAY, and its phase error, give this
device's offset from the bellwether in schedule cycles. -/
def State.refMarker (s : State) (p : Nat) (f : MarkerF) : State :=
  let far := 64 < (f.beat : Int) - s.time.beat ∨ (f.beat : Int) - s.time.beat < -64
  if s.herdState = 0 ∨ s.isBw then s
  else if s.herdState = 1 ∧ far then (s.joinOver 2).becomeAlone
  else
    let own : Int := s.now
    let offset : Int := own - (f.beat : Int) * 512 - s.rd Reg.HLINK.LINK_DELAY p
    let err := clampInt (-32768) 32767 (offset + f.phaseErr)
    let s := (s.wr Reg.HERD.PHASE_ERR (ofSigned 16 err)).wr Reg.HERD.BW_HOPS (Nat.min (f.dist + 1) noHops)
    let s := if f.dist = 0 then s.wr Reg.HERD.BW_ID (s.rd Reg.HLINK.PEER_ID p) else s
    let s := s.herdSteer
    let inOffice : Bool := match s.herd.t0 with
      | some t => decide (epochFrom (t + 1024) ≤ s.time.beat)
      | none => false
    let s := if s.electing ∧ inOffice then
        s.electionOver ((s.herd.best.map (·.2)).getD s.bwId) else s
    if s.herdState = 2 ∧ f.beat ≠ s.time.beat then s.departBy (s.time.beat + 1)
    else if s.herdState = 2 ∧ f.members ≠ s.herd.members.length then (s.sendDepart s.ownId).becomeAlone
    else { s with herd := { s.herd with rootVoid := f.redVoid.or s.herd.rootVoid } }
/-- A stop or resume beat that a marker carries (R249, R251). -/
def State.markerStop (s : State) (f : MarkerF) : State :=
  if s.herdState < 2 then s
  else
    let s := match f.stopBeat with
      | some b =>
        if s.herd.stopAt = some b ∨ s.herd.stopped ∨ b ≤ s.time.beat then s
        else { (s.wr Reg.HERD.STOP_STATE 1).event Blk.HERD 0 3 with herd := { s.herd with stopAt := some b, resumeAt := none } }
      | none => s
    match f.resumeBeat with
    | some b =>
      if s.herd.resumeAt = some b ∨ s.herd.stopAt.isNone ∨ b ≤ s.time.beat then s
      else { (s.wr Reg.HERD.STOP_STATE 3).event Blk.HERD 0 3 with herd := { s.herd with resumeAt := some b } }
    | none => s
/-- MARKER (R237). -/
def execMarker (h : HPort) (_m : MsgHdr) (f : MarkerF) (s : State) : Host.Outcome State Fault Refusal :=
  s.recvAll h (fun s =>
    let p := h.val
    let s := { s with hl := s.hl.mod p (fun x => { x with peerDist := some f.dist, peerPhase := f.phaseErr, lastMarker := some s.time.beat, peerBeat := f.beat, peerMembers := f.members, credit := f.credits, redVoid := f.redVoid }),
                      herd := { s.herd with heard := if f.dist < noHops then s.time.beat else s.herd.heard } }
    let s := s.markerStop f
    if s.refPort = some p then s.refMarker p f else s)
/-- Contents of this device's MARKER on a port; last the slots freed at this end, per VC (R232, R235). -/
def State.markerArgs (s : State) (p : Nat) : List Int :=
  [(s.time.beat : Int), if s.isBw then 0 else if s.refPort.isNone then (noHops : Int) else (s.rd Reg.HERD.BW_HOPS : Int), if s.isBw then 0 else toSigned 16 (s.rd Reg.HERD.PHASE_ERR),
   (s.herd.members.length : Int), if s.rd Reg.HERD.STOP_STATE = 1 then optInt s.herd.stopAt else -1,
   if s.rd Reg.HERD.STOP_STATE = 3 then optInt s.herd.resumeAt else -1, optInt (s.herd.rootVoid.map b2n)]
    ++ (List.range 4).map (fun v => ((s.hl.get p).rxSlots.getD v 0 : Int))

/-! ### Elections (R238) -/

/-- A device starts an election, or takes part in one it hears of. -/
def State.startElection (s : State) : State :=
  let prio := s.rd Reg.HERD.BW_PRIO
  let s := ((s.wr Reg.HERD.ELECTING 1).bump Reg.HERD.ELECTIONS).event Blk.HERD 0 1
  let s := { s with herd := { s.herd with t0 := some s.time.beat, best := if prio = 0 then none else some (prio, s.ownId), votes := [], winner := none } }
  if prio = 0 then s else s.flood 8 0 12 [(prio : Int), (s.ownId : Int)]
/-- No marker on any port for a number of beats. -/
def State.silent (s : State) (n : Nat) : Bool := decide (s.herd.heard + n ≤ s.time.beat)
/-- The cases in which an election starts. -/
def State.electionDue (s : State) : Bool :=
  !s.electing && !s.isBw && ((s.herdState == 1 && s.silent 256) || (s.herdState == 2 && (s.silent (s.act Reg.HERD.DETECT_BEATS) || s.herd.bwGone)))
/-- ELECTION_START (R238). -/
def execElectionStart (s : State) : Host.Outcome State Fault Refusal :=
  if s.electionDue then .next s.startElection else .next s
/-- MARKER_TIMEOUT (R238, R240): an election starts, or the neighbour on a port whose pair has brought no marker for DETECT_BEATS is reported to the
bellwether. Where that neighbour is the bellwether, nobody is left to report to, and its departure floods from here. -/
def execMarkerTimeout (h : Option HPort) (s : State) : Host.Outcome State Fault Refusal :=
  match h with
  | none => if s.electionDue then .next s.startElection else .next s
  | some h =>
    let p := h.val
    let quiet (p : Nat) : Bool := decide ((s.hl.get p).lastMarker.getD 0 + s.act Reg.HERD.DETECT_BEATS ≤ s.time.beat)
    let peer := s.rd Reg.HLINK.PEER_ID p
    if 2 ≤ s.herdState ∧ s.herd.members.contains peer ∧ peer ≠ s.ownId ∧ quiet p ∧ quiet (pairPort p) then
      if s.isBw then .next (s.rebroadcast peer s.exclWindow)
      else if peer = s.bwId then
        if s.herd.bwGone then .next s
        else .next ((s.memberGone peer s.exclWindow).flood 7 peer 12 [(peer : Int), (s.exclWindow : Int)])
      else .next (s.sendTo 7 s.bwId [(peer : Int), (s.exclWindow : Int)]).1
    else .next s
/-- A candidate is better: higher BW_PRIO, then lower member ID. -/
def betterCand (a b : Nat × Nat) : Bool := decide (b.1 < a.1) || (decide (a.1 = b.1) && decide (a.2 < b.2))
/-- CANDIDATE (R238): kept when it is the best heard, and flooded on, in the first 256 beats of the election. -/
def execCandidate (h : HPort) (_m : MsgHdr) (prio : BitVec 8) (member : Fin 32768) (s : State) : Host.Outcome State Fault Refusal :=
  s.recvAll h (fun s =>
    if s.herdState = 0 ∨ s.isBw ∨ prio = 0 then s
    else
      let s := if s.electing then s else s.startElection
      let c := (prio.toNat, member.val)
      if (s.herd.t0.getD 0) + 255 < s.time.beat then s
      else if (s.herd.best.map (betterCand c)).getD true then
        ({ s with herd := { s.herd with best := some c } }).flood 8 0 h.val [(prio.toNat : Int), (member.val : Int)]
      else s)
/-- A vote for this device. -/
def State.takeVote (s : State) (voter member : Nat) : State :=
  if ¬ s.electing ∨ member ≠ s.ownId ∨ s.herd.votes.any (fun v => v.1 == voter) then s
  else { s with herd := { s.herd with votes := s.herd.votes ++ [(voter, member)] } }
/-- ELECTION_VOTE (R238): at T0 + 256, once. -/
def execElectionVote (s : State) : Host.Outcome State Fault Refusal :=
  match s.herd.t0, s.herd.best with
  | some t, some (prio, c) =>
    if ¬ s.electing ∨ s.time.beat ≠ t + 256 then .next s
    else if c = s.ownId then .next (s.takeVote s.ownId c)
    else .next (s.sendJoiner 9 c [(prio : Int), (c : Int)])
  | _, _ => .next s
/-- VOTE (R238). -/
def execVote (h : HPort) (m : MsgHdr) (prio : BitVec 8) (member : Fin 32768) (s : State) : Host.Outcome State Fault Refusal :=
  s.recv h m 9 [(prio.toNat : Int), (member.val : Int)] (fun s => s.takeVote m.src.val member.val)
/-- The quorum base: the previous epoch's member count, or EXPECTED when a herd forms. -/
def State.quorumBase (s : State) : Nat := if s.herdState = 1 then s.rd Reg.HERD.EXPECTED else s.herd.quorum
/-- ELECTION_RESULT (R238, R253): at T0 + 512 a candidate whose votes exceed half the base wins; NO_QUORUM lets any count win. -/
def execElectionResult (s : State) : Host.Outcome State Fault Refusal :=
  match s.herd.t0 with
  | some t =>
    if ¬ s.electing ∨ s.time.beat < t + 512 ∨ s.herd.winner.isSome then .next s
    else
      let n := s.herd.votes.length
      if s.quorumBase < 2 * n ∨ (s.act Reg.HERD.NO_QUORUM = 1 ∧ s.rd Reg.HERD.BW_PRIO ≠ 0) then
        .next { s with herd := { s.herd with winner := some (s.ownId, epochFrom (t + 1024)) } }
      else .next s
  | none => .next s
/-- BELLWETHER_TAKE_OFFICE (R238): its markers then carry distance 0, and it numbers its orders on from those it has had. A winner in FOLD becomes a herd
of one. -/
def execBellwetherTakeOffice (s : State) : Host.Outcome State Fault Refusal :=
  match s.herd.winner with
  | some (w, b) =>
    if ¬ s.electing ∨ w ≠ s.ownId ∨ s.time.beat < b then .next s
    else
      let s := { s with herd := { s.herd with nextSeq := Nat.max s.herd.nextSeq s.herd.lastOrderSeq } }
      let s := (((s.electionOver s.ownId).wr Reg.HERD.BELLWETHER 1).wr Reg.HERD.BW_HOPS 0).wr Reg.HERD.PHASE_ERR 0
      if s.herdState = 1 then
        let t := ((s.setHerdState 2).wr Reg.HERD.MEMBERS 1).joinResult 1
        .next { t with herd := { t.herd with members := [s.ownId], prevMembers := [s.ownId], quorum := 1, joinE := none } }
      else .next s
  | none => .next s
/-- ELECTION_FAIL (R238): every device that was a MEMBER becomes ALONE. A device in FOLD has found no bellwether. -/
def execElectionFail (s : State) : Host.Outcome State Fault Refusal :=
  match s.herd.t0 with
  | some t =>
    if ¬ s.electing ∨ s.time.beat < t + 4096 then .next s
    else if 2 ≤ s.herdState then .next s.becomeAlone
    else
      let s := (s.electionOver s.bwId).joinResult 5
      .next { s with herd := { s.herd with heard := s.time.beat } }
  | none => .next s

/-! ### Herd commits (R247, R248) -/

/-- The device can arm an order: its staged version is the ordered one and its own checks pass. -/
def State.canArm (s : State) (k : CommitKind) (ver c : Nat) : Bool :=
  match k with
  | .rules => (s.commitState == 0 || s.commitState == 1) && s.rd Reg.TCAM.STAGED_VER == ver && s.ruleCheck ver c s.time.beat false == 0
  | .context n =>
    let x := s.ctxs.get n.val
    x.st == .staged && (x.other.map (·.ver)) == some ver && s.commitCheck (some n.val) x c s.time.beat false == 0
/-- Arm it for C. -/
def State.armOrder (s : State) (k : CommitKind) (c : Nat) : State :=
  match k with
  | .rules => (s.ruleArm c true).audit { block := Blk.TCAM, off := Reg.TCAM.COMMIT.off, source := 4, new := 1, kind := 5 }
  | .context n =>
    let s := s.audit { block := Blk.CTX, off := Reg.CTX.CMD.off, source := 4, new := 2, ctx := n.val, kind := 5 }
    { s with ctxs := s.ctxs.mod n.val (fun x => { x with st := .armed, armC := c, cmtPend := false, cmtHerd := true }) }.ctxResult 0
/-- An order reaches the device (R248). A second copy does nothing. A joining device that cannot arm gives its join up (R239). -/
def State.takeOrder (s : State) (seq c : Nat) (k : CommitKind) (ver : Nat) : State :=
  if s.herdState = 0 ∨ s.herd.orders.any (fun o => o.seq == seq) ∨ c < s.time.beat then s
  else
    let ok := s.canArm k ver c
    let o : HerdOrder := { seq := seq, c := c, kind := k, ver := ver, armed := ok }
    let mine := s.herd.creqPend.contains (k, ver)
    let s := { s with herd := { s.herd with orders := s.herd.orders ++ [o], lastOrderSeq := seq, creqPend := s.herd.creqPend.filter (fun e => e != (k, ver)) } }
    let s := if mine then ((s.wr Reg.HERD.CMT_SEQ seq).wr Reg.HERD.CMT_BEAT c).cmtResult 1 else s
    if ok then
      let s := s.armOrder k c
      if s.isBw then s else s.sendJoiner 12 s.bwId [(seq : Int), 0]
    else if s.herdState = 1 then { (s.joinOver 3) with herd := { (s.joinOver 3).herd with orders := [] } }
    else s.nackOrder o
/-- ORDER (R248). -/
def execOrder (h : HPort) (m : MsgHdr) (seq : BitVec 32) (beat : Nat) (k : CommitKind) (ver : BitVec 16) (s : State) : Host.Outcome State Fault Refusal :=
  s.recv h m 11 ([(seq.toNat : Int), (beat : Int)] ++ commitWords k ver.toNat) (fun s => s.takeOrder seq.toNat beat k ver.toNat)
/-- The bellwether orders a commit (R247): C is the first epoch boundary at or after the requested beat and 8,192 beats after the arrival. Joining
devices already admitted get the order too (R239). A second copy of the request finds its order standing. -/
def State.orderCommit (s : State) (src : Nat) (k : CommitKind) (ver beat : Nat) : State :=
  if ¬ s.isBw ∨ s.electing ∨ ¬ s.herd.members.contains src ∨ s.herd.orders.any (fun o => decide (o.kind = k) && o.ver == ver) then s
  else
    let c := epochFrom (Nat.max beat (s.time.beat + 8192))
    let seq := s.herd.nextSeq + 1
    let s := { s with herd := { s.herd with nextSeq := seq, nackers := [] } }.wr Reg.HERD.CMT_NACKS 0
    let args : List Int := [(seq : Int), (c : Int)] ++ commitWords k ver
    let s := (s.herd.members.filter (· != s.ownId)).foldl (fun t x => (t.sendTo 11 x args).1) s
    let s := (s.herd.joins.filter (fun j => decide (s.time.beat < j.2))).foldl (fun t j => t.sendJoiner 11 j.1 args) s
    s.takeOrder seq c k ver
/-- CREQ (R247). -/
def execCreq (h : HPort) (m : MsgHdr) (k : CommitKind) (ver : BitVec 16) (beat : Nat) (s : State) : Host.Outcome State Fault Refusal :=
  s.recv h m 10 (commitWords k ver.toNat ++ [(beat : Int)]) (fun s => s.orderCommit m.src.val k ver.toNat beat)
/-- ACK (R248): the bellwether counts the NACKs to its last order. A member that answers NACK to an order departs at that order's C, and contributes to
reductions until then (R240). -/
def execAck (h : HPort) (m : MsgHdr) (seq : BitVec 32) (nack : Bool) (s : State) : Host.Outcome State Fault Refusal :=
  s.recv h m 12 [(seq.toNat : Int), (b2n nack : Int)] (fun s =>
    if ¬ s.isBw ∨ ¬ nack ∨ s.herd.nackers.contains (seq.toNat, m.src.val) then s
    else
      let s := { s with herd := { s.herd with nackers := s.herd.nackers ++ [(seq.toNat, m.src.val)] } }
      let s := if seq.toNat = s.herd.nextSeq then s.bump Reg.HERD.CMT_NACKS else s
      s.rebroadcast m.src.val (((s.herd.orders.find? (fun o => o.seq == seq.toNat)).map (·.c)).getD s.exclWindow))
/-- A request the bellwether wrote itself is taken at the boundary after it (R247). -/
def State.takeOwnReqs (s : State) : State :=
  (s.herd.out.filter (fun m => m.port.isNone && m.kind == 10)).foldl (fun t m =>
    let c := ((m.args.getD 1 0).toNat) % 4096
    let k : CommitKind := if m.args.getD 0 0 = 0 then .rules else .context ⟨c % 4096, Nat.mod_lt _ (by decide)⟩
    t.orderCommit s.ownId k ((m.args.getD 2 0).toNat) ((m.args.getD 3 0).toNat)) s

/-! ### The herd's part of a beat (R231, R233, R234, R237) -/

/-- Slots of a message: its header slot and its data slots (R232). -/
def OutMsg.slots (m : OutMsg) : Nat :=
  match m.kind with
  | 1 => 3 | 2 => 2 | 4 => 17 | 5 => 3 | 10 => 2 | 11 => 2 | 19 => 2 | 20 => 4 | 26 => 3
  | 16 => 1 + Nat.min 16 (Nat.max 1 (m.args.length - 5))
  | 18 => 1 + Nat.min 16 (Nat.max 1 (ceilDiv (m.args.length - 4) 16))
  | 24 => 1 + Nat.min 16 (Nat.max 1 (ceilDiv (m.args.length - 2) 16))
  | _ => 1
/-- Slots of the messages, in order, that leave within a number of slots, and the messages that are left; a message may span beats. -/
def sendSlots : List OutMsg → Nat → Nat × List OutMsg
  | [], _ => (0, [])
  | m :: t, n =>
    let need := m.slots - m.sent
    if need ≤ n then
      let r := sendSlots t (n - need)
      (need + r.1, r.2)
    else (n, { m with sent := m.sent + n } :: t)
/-- Credit held at a port for a VC: the allotment, the slots freed at the neighbour, less those sent (R231, R303). -/
def HLinkSt.held (x : HLinkSt) (vc : Nat) : Nat := Config.linkAllot vc + x.credit.getD vc 0 - x.txSlots.getD vc 0
/-- A message may leave now: during a stop nothing that originates here on VC 1 to VC 3, and from the cut nothing on them (R250). -/
def State.mayLeave (s : State) (m : OutMsg) : Bool := decide (m.kind < 16) || (!s.herd.cut && (!s.herd.stopped || m.src != s.ownId))
/-- A port's messages of the beat leave: 11,200 slots a beat (R230), of which VC 0 and VC 1 have their reservations of 15 slots a flit, and VC 3 and then
VC 2 what these leave; each VC within its credit (R231, R254). -/
def State.sendPort (s : State) (p : Nat) : State :=
  let mine := s.herd.out.filter (fun m => m.port == some p)
  if mine.isEmpty then s
  else if ¬ (3 ≤ s.linkState p ∧ s.linkState p ≤ 6) then { s with herd := { s.herd with out := s.herd.out.filter (fun m => m.port != some p) } }
  else
    let x := s.hl.get p
    let of (vc : Nat) : List OutMsg := mine.filter (fun m => vcOf m.kind == vc && s.mayLeave m)
    let r0 := sendSlots (of 0) (Nat.min (15 * s.act Reg.HLINK.RES_VC0 p) (x.held 0))
    let r1 := sendSlots (of 1) (Nat.min (15 * s.act Reg.HLINK.RES_VC1 p) (x.held 1))
    let rest := 11200 - r0.1 - r1.1
    let r3 := sendSlots (of 3) (Nat.min rest (x.held 3))
    let r2 := sendSlots (of 2) (Nat.min (rest - r3.1) (x.held 2))
    let sent := [r0.1, r1.1, r2.1, r3.1]
    let flits := ceilDiv sent.sum 15
    let y := { x with txSlots := (List.range 4).map (fun v => x.txSlots.getD v 0 + sent.getD v 0), txSeq := (x.txSeq + flits) % 2 ^ 32 }
    let left := s.herd.out.filter (fun m => m.port != some p) ++ r0.2 ++ r1.2 ++ r3.2 ++ r2.2 ++ mine.filter (fun m => !s.mayLeave m)
    ({ s with hl := s.hl.set p y, herd := { s.herd with out := left } }).bump Reg.HLINK.FLITS_TX p 0 0 flits
/-- The messages of the beat that ends leave, and FLITS_TX counts their flits. -/
def State.sendFlits (s : State) : State :=
  (List.range 12).foldl State.sendPort { s with herd := { s.herd with out := s.herd.out.filter (fun m => m.port.isSome) } }
/-- HELLO on every trained port, a marker on every accepted port of a device in FOLD, MEMBER or LEAVING; beats without a neighbour's marker count. -/
def State.herdSends (s : State) : State :=
  (List.range 12).foldl (fun t p =>
    let l := t.linkState p
    if 3 ≤ l ∧ l ≤ 6 then
      let t := t.send (some p) 2 0 (t.helloArgs p)
      if l = 4 ∧ 1 ≤ t.herdState then
        let t := t.send (some p) 1 0 (t.markerArgs p)
        match (t.hl.get p).lastMarker with
        | some b => if b + 1 < t.time.beat then t.bump Reg.HLINK.MARK_MISS p else t
        | none => t.bump Reg.HLINK.MARK_MISS p
      else t
    else t) s
/-- Beats in lock and out of lock (R237, R239). -/
def State.lockCount (s : State) : State :=
  let e := toSigned 16 (s.rd Reg.HERD.PHASE_ERR)
  let n := e.natAbs
  let h := s.herd
  { s with herd := { h with lockBeats := if s.herdState = 1 ∧ n ≤ 64 ∧ h.heard + 2 ≥ s.time.beat then h.lockBeats + 1 else 0,
                            lostBeats := if 2 ≤ s.herdState ∧ 256 < n then h.lostBeats + 1 else 0 } }
/-- An epoch boundary: the member list of the new epoch, routes, apertures and homes (R234, R239, R240, R242, R244). -/
def State.herdEpoch (s : State) : State :=
  let b := s.time.beat
  let s := if ¬ s.isMember then s else
    let h := s.herd
    let kept := h.members.filter (fun m => !(h.departs.any (fun d => d.1 == m && decide (d.2 ≤ b))))
    let new := (h.joins.filter (fun j => decide (j.2 ≤ b))).map (·.1) ++ (if s.isBw then [] else Config.epochAdded b)
    let ms := new.foldl insertId kept
    { s.wr Reg.HERD.MEMBERS ms.length with herd := { h with quorum := h.members.length, prevMembers := h.members, members := ms, departs := h.departs.filter (fun d => decide (b < d.2)), joins := h.joins.filter (fun j => decide (b < j.2)), excl := h.excl.filter (fun e => decide (b < e.2 + 65536)) } }
  let s := if s.isMember then s else { s with herd := { s.herd with routes := [] } }
  let s := (List.range 16).foldl (fun t a => t.wr Reg.HERD.APT_OOR (b2n (decide (0 < t.act Reg.HERD.APT_HMAX 0 a) && !t.aptReach a)) 0 a) s
  s.wr Reg.HERD.HOME_CFG_ERR (b2n (decide (s.act Reg.HERD.HOME_SIDE ≠ 0) && !s.homeCfgOk))
/-- Orders whose C lies behind are forgotten. -/
def State.dropOrders (s : State) : State :=
  { s with herd := { s.herd with orders := s.herd.orders.filter (fun o => decide (s.time.beat ≤ o.c + 1)) } }
/-- The herd's part of a beat boundary. -/
def State.herdBeat (s : State) : State :=
  let t : State := s.takeOwnReqs.sendFlits.dropOrders
  (if t.time.beat % 65536 = 0 then t.herdEpoch else t).lockCount.herdSends

end Sys2Proof.Machine
end

