-- ==== Sys2Proof/Machine/Reduce.lean ====
section
/-! DEFINITION. Herd-wide reductions (R245, R246) and the global stop (R249 to R251, R255). -/

namespace Sys2Proof.Machine

open Sys2Proof

/-! ### Reductions -/

/-- The contributors of the window that ends at W: the members listed for the epoch that holds W − 1, less those excluded (R240, R245). -/
def State.contributors (s : State) (w : Nat) : List Nat :=
  if ¬ s.isMember then [s.ownId]
  else
    let lst := if w % 65536 = 0 ∧ ¬ s.herd.prevMembers.isEmpty then s.herd.prevMembers else s.herd.members
    lst.filter (fun m => !(s.herd.excl.any (fun e => e.1 == m && decide (e.2 ≤ w - 16384))))
/-- The next contributor on a contributor's way to the root. -/
def State.redParent (s : State) (cs : List Nat) (m root : Nat) : Option Nat := ((s.route m root).getD []).find? cs.contains
/-- Contributors whose way to the root passes this member, itself included. -/
def State.redBelow (s : State) (cs : List Nat) (root : Nat) : Nat :=
  (cs.filter (fun m => m == s.ownId || ((s.route m root).getD []).contains s.ownId)).length
/-- Contributors whose next one is this member. -/
def State.redKids (s : State) (cs : List Nat) (root : Nat) : List Nat :=
  cs.filter (fun m => m != s.ownId && s.redParent cs m root == some s.ownId)
/-- One step of a reduction's operation: 0 SUM, 1 MIN, 2 MAX, 3 OR (R245, R246). -/
def redOp (op : Nat) (a b : Int) : Int :=
  match op with
  | 0 => a + b
  | 1 => if b < a then b else a
  | 2 => if a < b then b else a
  | _ => ((a.toNat ||| b.toNat : Nat) : Int)
/-- What an operation starts from. -/
def redUnit (op : Nat) : Int := match op with | 1 => 2 ^ 63 - 1 | 2 => -(2 ^ 63) | _ => 0
def State.redLen (s : State) (r : Nat) : Nat := s.act Reg.HERD.RED_LEN_M1 0 r + 1
/-- The state of reduction r for the window that ends at W: fresh when it has another window. -/
def State.redFor (s : State) (r w : Nat) : RedSt :=
  let x := s.herd.red.get r
  if x.window = w then x else { window := w, acc := List.replicate (s.redLen r) (redUnit (s.act Reg.HERD.RED_OP 0 r)) }
def State.setRed (s : State) (r : Nat) (x : RedSt) : State := { s with herd := { s.herd with red := s.herd.red.put r x } }
/-- Combine values from word off on, standing for n contributions. -/
def RedSt.combine (x : RedSt) (op off : Nat) (vals : List Int) (n : Nat) (void : Bool) : RedSt :=
  { x with acc := x.acc.take off ++ (List.zipWith (redOp op) (x.acc.drop off) vals) ++ x.acc.drop (off + vals.length),
           count := x.count + n * vals.length, void := x.void || void }
/-- Words from off on replaced. -/
def putInts (l : List Int) (off : Nat) (v : List Int) : List Int := l.take off ++ v ++ l.drop (off + v.length)
/-- Send a reduction's words to members, 16 to a message (R232). -/
def State.redSend (s : State) (r w : Nat) (dests : List Nat) (vals : List Int) (fromRoot : Bool) (n : Nat) (void : Bool) : State :=
  (List.range (ceilDiv vals.length 16)).foldl (fun t i =>
    dests.foldl (fun t m => (t.sendTo 16 m ([(r : Int), (w : Int), ((16 * i : Nat) : Int), (n : Int), ((b2n void + 2 * b2n fromRoot : Nat) : Int)] ++ (vals.drop (16 * i)).take 16)).1) t) s
/-- The result reaches the destination: 16-byte results and the status. A VOID result's words are open: free values. The device's status for the window
is VOID when a reduction of that window is. -/
def State.redResult (s : State) (r w : Nat) (vals : List Int) (n : Nat) (void : Bool) : State :=
  let dst := s.act Reg.HERD.RED_DST 0 r
  let (words, s) := if void then s.freshBytes (16 * s.redLen r) else (vals.flatMap (fun v => leBytes 16 (ofSigned 128 v)), s)
  let status := leBytes 8 (w - 16384) ++ leBytes 2 n ++ leBytes 1 (b2n void) ++ zeros 53
  let s := (s.hbmWrite dst (words ++ status)).bump Reg.HERD.RED_DONE
  let s := if void then s.bump Reg.HERD.RED_VOID else s
  let x := s.redFor r w
  let s := s.setRed r { x with have_ := true, void := void, acc := vals }
  { s with herd := { s.herd with ownVoid := some ((List.range 4).any (fun k => let y := s.herd.red.get k; y.window == w && y.have_ && y.void)) } }
/-- A complete partial result goes on: from the root back along the paths, from others toward the root. -/
def State.redAdvance (s : State) (r w : Nat) : State :=
  let cs := s.contributors w
  let root := cs.headD s.ownId
  let x := s.redFor r w
  let below := s.redBelow cs root
  if ¬ x.started ∨ x.have_ ∨ x.count < below * s.redLen r then s
  else if root = s.ownId then
    let t := (s.redResult r w x.acc cs.length x.void).redSend r w (s.redKids cs root) x.acc true cs.length x.void
    { t with herd := { t.herd with rootVoid := t.herd.ownVoid } }
  else
    match s.redParent cs s.ownId root with
    | some p => (s.setRed r { x with started := false, count := 0 }).redSend r w [p] x.acc false below x.void
    | none => s
/-- REDUCTION_START (R245, R246, R251, R298): at W + 8 the device reads its source. A source with an uncorrectable line gives no contribution, and a
reduction due during a stop is VOID. -/
def execReductionStart (r : Fin 4) (s : State) : Host.Outcome State Fault Refusal :=
  let k := r.val
  let w := s.time.beat / 16384 * 16384
  let cs := s.contributors w
  let x := s.redFor k w
  if s.act Reg.HERD.RED_EN 0 k = 0 ∨ w = 0 ∨ s.time.beat ≠ w + 8 ∨ x.started ∨ x.have_ ∨ ¬ cs.contains s.ownId then .next s
  else if s.herd.stopped then .next (s.redResult k w [] cs.length true)
  else
    let n := s.redLen k
    let src := s.act Reg.HERD.RED_SRC 0 k
    let op := s.act Reg.HERD.RED_OP 0 k
    let word (i : Nat) : Int := let v := Mem.readLE s.hbm (src + 8 * i) 8; if op = 3 then (v : Int) else toSigned 64 v
    let bad := (s.hbmUe src (8 * n)).isSome
    let y := if bad then { x with count := x.count + n, void := true } else x.combine op 0 ((List.range n).map word) 1 false
    .next ((s.setRed k { y with started := true }).redAdvance k w)
/-- RED (R245): a partial result from below, or the result from the root. -/
def execRed (h : HPort) (m : MsgHdr) (r : Fin 4) (window : Nat) (off : Nat) (vals : List Int) (fromRoot : Bool) (count : Nat) (void : Bool)
    (s : State) : Host.Outcome State Fault Refusal :=
  s.recv h m 16 ([(r.val : Int), (window : Int), (off : Int), (count : Int), ((b2n void + 2 * b2n fromRoot : Nat) : Int)] ++ vals) (fun s =>
    let k := r.val
    let cs := s.contributors window
    if s.herd.stopped ∨ s.act Reg.HERD.RED_EN 0 k = 0 ∨ ¬ cs.contains s.ownId ∨ s.redLen k < off + vals.length then s
    else
      let x := s.redFor k window
      if x.have_ then s
      else if ¬ fromRoot then (s.setRed k (x.combine (s.act Reg.HERD.RED_OP 0 k) off vals count void)).redAdvance k window
      else
        let y := { x with acc := putInts x.acc off vals, count := x.count + vals.length, void := void }
        if y.count < s.redLen k then s.setRed k y
        else (s.redResult k window y.acc count void).redSend k window (s.redKids cs (cs.headD s.ownId)) y.acc true count void)
/-- REDUCTION_DEADLINE (R240, R246): at W + 64 the root's incomplete result is VOID; a contributor without a result, or with another status than the
root's, departs at the next beat boundary. A reduction due during a stop is VOID (R251). -/
def execReductionDeadline (r : Fin 4) (s : State) : Host.Outcome State Fault Refusal :=
  let k := r.val
  let w := s.time.beat / 16384 * 16384
  let cs := s.contributors w
  let x := s.redFor k w
  if s.act Reg.HERD.RED_EN 0 k = 0 ∨ w = 0 ∨ s.time.beat < w + 64 ∨ ¬ cs.contains s.ownId then .next s
  else if s.herd.stopped then .next (if x.have_ then s else s.redResult k w [] cs.length true)
  else if cs.headD s.ownId = s.ownId then
    if x.have_ then .next s
    else
      let t := (s.redResult k w [] cs.length true).redSend k w (s.redKids cs s.ownId) x.acc true cs.length true
      .next { t with herd := { t.herd with rootVoid := some true } }
  else
    let differs : Bool := match s.herd.rootVoid with
      | some v => s.herd.ownVoid != some v
      | none => false
    if x.have_ ∧ ¬ differs then .next s
    else if 2 ≤ s.herdState then .next (s.departBy (s.time.beat + 1))
    else .next s

/-! ### The global stop -/

/-- STOP_STATE, with its event (R253, R377). -/
def State.setStopState (s : State) (v : Nat) : State := if s.rd Reg.HERD.STOP_STATE = v then s else (s.wr Reg.HERD.STOP_STATE v).event Blk.HERD 0 3
/-- An ordered stop or resume. -/
def State.takeStop (s : State) (resume : Bool) (b : Nat) : State :=
  if resume then { s.setStopState 3 with herd := { s.herd with resumeAt := some b } }
  else { s.setStopState 1 with herd := { s.herd with stopAt := some b, resumeAt := none } }
/-- Why a stop or resume is refused (R249, R251); 0 when it is ordered. -/
def State.stopRefusal (s : State) (src : Nat) (resume : Bool) (b : Nat) (alone : Bool) : Nat :=
  let st := s.rd Reg.HERD.STOP_STATE
  if ¬ alone ∧ ¬ s.herd.members.contains src then 4
  else if s.electing ∨ (if resume then st ≠ 2 else st ≠ 0) then 3
  else if b < s.time.beat + 1024 then 2
  else 0
/-- The bellwether orders it: every marker until S carries S, and every member is told. A second copy of a request finds its order standing. -/
def State.orderStop (s : State) (src : Nat) (resume : Bool) (b : Nat) : State :=
  if (if resume then s.herd.resumeAt == some b && s.rd Reg.HERD.STOP_STATE == 3 else s.herd.stopAt == some b && s.rd Reg.HERD.STOP_STATE == 1) then s
  else
    let r := s.stopRefusal src resume b false
    if r ≠ 0 then
      if src = s.ownId then s.wr Reg.HERD.STOP_REFUSE r
      else (s.sendTo 13 src [0, (b2n resume : Int), (b : Int), (r : Int)]).1
    else
      (s.herd.members.filter (· != s.ownId)).foldl (fun t x => (t.sendTo 13 x [1, (b2n resume : Int), (b : Int), 0]).1) (s.takeStop resume b)
/-- A host's request: it needs a debug authorisation that permits a herd stop (R249, R350). -/
def State.askStop (s : State) (src : Source) (resume : Bool) : State :=
  let b := s.rd (if resume then Reg.HERD.RESUME_BEAT else Reg.HERD.STOP_BEAT)
  let allowed := (s.auth.token.map (fun t => bits t.perms 1 1 == 1)).getD false
  let f := if resume then Reg.HERD.RESUME else Reg.HERD.STOP
  if ¬ allowed then (s.wr Reg.HERD.STOP_REFUSE 1).auditCmd src f 0 1 2
  else
    let s := (s.wr Reg.HERD.STOP_REFUSE 0).auditCmd src f 0 1 0
    if s.herdState < 2 then
      if ¬ resume ∨ ¬ s.herd.stopped then s.wr Reg.HERD.STOP_REFUSE 4
      else
        let r := s.stopRefusal s.ownId true b true
        if r = 0 then s.takeStop true b else s.wr Reg.HERD.STOP_REFUSE r
    else if s.isBw then s.orderStop s.ownId resume b
    else
      match s.sendTo 13 s.bwId [0, (b2n resume : Int), (b : Int), 0] with
      | (s, true) => s
      | (s, false) => s.wr Reg.HERD.STOP_REFUSE 5
/-- STOP_REQUEST (R249). -/
def execStopRequest (src : Source) (s : State) : Host.Outcome State Fault Refusal := s.basicCmd src (fun s => s.askStop src false)
/-- RESUME_REQUEST (R251). -/
def execResumeRequest (src : Source) (s : State) : Host.Outcome State Fault Refusal := s.basicCmd src (fun s => s.askStop src true)
/-- STOP (R249): an order from the bellwether, its refusal, or a member's request to it. -/
def execStop (h : HPort) (m : MsgHdr) (isOrder : Bool) (resume : Bool) (beat : Nat) (refuse : Fin 16) (s : State) : Host.Outcome State Fault Refusal :=
  s.recv h m 13 [(b2n isOrder : Int), (b2n resume : Int), (beat : Int), (refuse.val : Int)] (fun s =>
    if s.herdState < 2 then s
    else if refuse ≠ 0 then s.wr Reg.HERD.STOP_REFUSE refuse.val
    else if isOrder then s.takeStop resume beat
    else if s.isBw then s.orderStop m.src.val resume beat
    else s)
/-- STOP_TAKE_EFFECT (R250): boundary S. -/
def execStopTakeEffect (s : State) : Host.Outcome State Fault Refusal :=
  match s.herd.stopAt with
  | some b =>
    if s.rd Reg.HERD.STOP_STATE = 1 ∧ b ≤ s.time.beat then .next { s.setStopState 2 with herd := { s.herd with stopped := true } } else .next s
  | none => .next s
/-- STOP_CUT (R250): boundary S + 1. -/
def execStopCut (s : State) : Host.Outcome State Fault Refusal :=
  match s.herd.stopAt with
  | some b => if s.herd.stopped ∧ b + 1 ≤ s.time.beat then .next { s with herd := { s.herd with cut := true } } else .next s
  | none => .next s
/-- The sync cells that versions hold (R223). -/
def State.heldCells (s : State) : List Nat := (s.versions.flatMap (fun v => v.2.cells)).eraseDups
/-- Held sync cells, or those of them that `own` names, at their boundary values (R223, R224, R251); every other cell stays as it is. -/
def State.restoreCells (s : State) (own : Nat → Bool) : State :=
  { s with arr := { s.arr with cells := (s.heldCells.filter own).foldl (fun t k => t.set k (s.arr.bound.get k)) s.arr.cells } }
/-- RESUME_TAKE_EFFECT (R251): boundary S2. Packets stamped before it keep HERD_STOP, so S and S2 stand until the next order. -/
def execResumeTakeEffect (s : State) : Host.Outcome State Fault Refusal :=
  match s.herd.resumeAt with
  | some b =>
    if s.rd Reg.HERD.STOP_STATE ≠ 3 ∨ s.time.beat < b then .next s
    else
      let s : State := (List.range 12).foldl (fun (t : State) p => { t with hl := t.hl.mod p (fun x => { x with cap := [] }) }) s
      let s : State := s.flow.invs.foldl State.invLost s
      let s : State := { s with ctxs := s.ctxs.map (fun (e : Nat × Ctx) => (e.1, if e.2.running then { e.2 with runVoid := true } else e.2)), host := { s.host with jobs := s.host.jobs.map (fun (e : Nat × Option JobRun) => (e.1, e.2.map (fun j => if j.status = 0 then { j with status := 2 } else j))) } }
      let s := s.restoreCells (fun _ => true)
      let s : State := { s with arr := { s.arr with cores := s.arr.cores.map (fun (e : Nat × ACore) => (e.1, { e.2 with running := false, wait := none, held := [], posts := [] })), posts := [] } }
      let out := s.herd.out.filter (fun m => decide (m.kind < 16) || m.src != s.ownId)
      .next { s.setStopState 0 with herd := { s.herd with stopped := false, cut := false, out := out } }
  | none => .next s

/-! ### An expert write of a sync cell (R255) -/

/-- SYNC_SET_GO (R255): SYNC_SET goes to cell SYNC_SEL at the next beat boundary. -/
def execSyncSetGo (src : Source) (f : Flock) (s : State) : Host.Outcome State Fault Refusal :=
  s.expertCmd src Reg.FLOCK.SYNC_SET_GO f.val 1 (fun s =>
    s.later (.syncSet (cellKey f.val (s.rd Reg.FLOCK.SYNC_SEL f.val)) (s.rd Reg.FLOCK.SYNC_SET f.val)))

end Sys2Proof.Machine
end

