-- ==== Sys2Proof/Machine/HostQueues.lean ====
section
/-! DEFINITION. Host-bound queues and host injection (R266 to R277), and expert writes of buckets. -/

namespace Sys2Proof.Machine

open Sys2Proof

/-! ### Host-bound queues -/

/-- HQ_PRODUCE (R268): a producer places an item, at most one slot long. -/
def execHqProduce (it : HqItem) (s : State) : Host.Outcome State Fault Refusal :=
  .next (s.hqProduce it.q.val (it.bytes.take (s.rd Reg.HQ.SLOT_BYTES 0 it.q.val)))
/-- The region of a queue's ring in HBM (R267). -/
def hqRegion (q : Nat) : Nat := if q = 6 then 5 else 4
/-- The ring and its tag array lie in the region, as the registers are written (R277). -/
def State.hqFits (s : State) (q : Nat) : Bool :=
  let n := 2 ^ s.rd Reg.HQ.LOG2_SLOTS 0 q
  s.rd Reg.HQ.LOC 0 q == 1 ||
    (s.inRegion (hqRegion q) (s.rd Reg.HQ.RING_BASE 0 q) (n * s.rd Reg.HQ.SLOT_BYTES 0 q) && s.inRegion (hqRegion q) (s.rd Reg.HQ.TAG_BASE 0 q) (8 * n))
/-- A write that sets EN (R277): judged, and in force from the next beat boundary. -/
def State.hqSetEn (s : State) (src : Source) (q : Nat) : State :=
  let rec_ (res : Nat) : AuditRec := { block := Blk.HQ, off := Reg.HQ.EN.off + 64 * q, source := src.num, result := res, old := s.rd Reg.HQ.EN 0 q * 512, new := 512 }
  if ¬ s.hqFits q then s.audit (rec_ 1)
  else if s.rd Reg.HQ.EN 0 q = 1 ∧ ¬ (s.hq.get q).suspended then s
  else ((s.wr Reg.HQ.EN 1 0 q).later (.hqStart q)).audit (rec_ 0)
/-- HQ_ENABLE (R267, R277). -/
def execHqEnable (src : Source) (q : QNum) (s : State) : Host.Outcome State Fault Refusal := s.basicCmd src (fun s => s.hqSetEn src q.val)
/-- Enabling at the boundary (R267): every tag word zero, PROD and CONS 0. -/
def State.hqStartNow (s : State) (q : Nat) : State :=
  if s.rd Reg.HQ.EN 0 q = 0 then s
  else
    let a := s.rd Reg.HQ.TAG_BASE 0 q
    let n := 8 * 2 ^ s.rd Reg.HQ.LOG2_SLOTS 0 q
    let s := if s.rd Reg.HQ.LOC 0 q = 1 then { s with host := { s.host with mem := Mem.clear s.host.mem a (a + n) } }
      else { s with hbm := Mem.clear s.hbm a (a + n), flt := { s.flt with hbmBad := s.flt.hbmBad.filter (fun l => !coversLine a n l) } }
    { (s.wr Reg.HQ.PROD 0 0 q).wr Reg.HQ.CONS 0 0 q with hq := s.hq.set q { lost0 := s.rd Reg.HQ.LOST 0 q } }
/-- HQ_CONS_WRITE (R270): acts at once; a value below CONS or above PROD changes nothing. NEXT, the full test and the producer see it from the next schedule
cycle on (`consSeen`). -/
def execHqConsWrite (src : Source) (q : QNum) (v : DWord) (s : State) : Host.Outcome State Fault Refusal :=
  s.basicCmd src (fun s =>
    let old := s.rd Reg.HQ.CONS 0 q.val
    let rec_ (res new : Nat) : AuditRec := { block := Blk.HQ, off := Reg.HQ.CONS.off + 64 * q.val, source := src.num, result := res, old := old, new := new }
    if v.toNat < old ∨ s.rd Reg.HQ.PROD 0 q.val < v.toNat then s.audit (rec_ 1 old)
    else
      let seen := s.consSeen q.val
      let s := s.wrNow Reg.HQ.CONS v.toNat 0 q.val
      let s := { s with hq := s.hq.mod q.val (fun h => { h with consumed := h.consumed + (v.toNat - old), consWr := some (s.now, seen) }) }
      s.audit (rec_ 0 v.toNat))
/-- HQ_IRQ_REPEAT (R270). -/
def execHqIrqRepeat (q : QNum) (s : State) : Host.Outcome State Fault Refusal :=
  if s.consSeen q.val < s.rd Reg.HQ.PROD 0 q.val ∧ s.act Reg.HQ.IRQ_EN 0 q.val = 1 ∧
      (s.hq.get q.val).irqBeat + s.act Reg.HQ.IRQ_BEATS 0 q.val ≤ s.time.beat then .next (s.hqIrq q.val)
  else .next s
/-- NEXT (R269). -/
def State.hqNext (s : State) (q : Nat) : Nat := s.consSeen q % 2 ^ 63 + b2n (decide (s.consSeen q < s.rd Reg.HQ.PROD 0 q)) * 2 ^ 63

/-! ### Injection (R272, R273) -/

/-- INJ_PROD_WRITE (R272). -/
def execInjProdWrite (src : Source) (v : DWord) (s : State) : Host.Outcome State Fault Refusal :=
  s.basicCmd src (fun s =>
    let old := s.rd Reg.HQ.INJ_PROD
    let rec_ (res new : Nat) : AuditRec := { block := Blk.HQ, off := Reg.HQ.INJ_PROD.off, source := src.num, result := res, old := old, new := new }
    if s.rd Reg.HQ.INJ_CONS + 2 ^ s.rd Reg.HQ.INJ_LOG2 < v.toNat then (s.bump Reg.HQ.INJ_OVERRUN).audit (rec_ 1 old)
    else { s.wrNow Reg.HQ.INJ_PROD v.toNat with host := { s.host with injPosted := v.toNat } }.audit (rec_ 0 v.toNat))
/-- Bytes of the memory a LOC bit selects. -/
def State.locRead (s : State) (loc a n : Nat) : List Byte := if loc = 1 then Mem.readN s.host.mem a n else Mem.readN s.hbm a n
/-- An injection descriptor (R272). -/
structure InjDesc where
  addr : Nat
  len : Nat
  port : Nat
  mode : Nat
  queue : Nat
  tsreq : Nat
  dloc : Nat
  itag : Nat
  reserved : Bool
  deriving DecidableEq, Repr
def injDesc (b : List Byte) : InjDesc :=
  let f := leAt b 11 1
  { addr := leAt b 0 8, len := leAt b 8 2 % 2 ^ 14, port := leAt b 10 1 % 32, mode := f % 2, queue := bits f 1 3, tsreq := bits f 4 2 % 3, dloc := bits f 6 1,
    itag := leAt b 12 2, reserved := decide (leAt b 8 2 / 2 ^ 14 ≠ 0) || decide (leAt b 10 1 / 32 ≠ 0) || decide (f / 128 ≠ 0) || (b.drop 14).any (· ≠ 0) }
/-- A descriptor is refused (R273, R291). -/
def State.injBad (s : State) (d : InjDesc) (frame : List Byte) : Bool :=
  let tap := if s.isTap d.port ∧ tapValid frame then 16 else 0
  let n := d.len + 4 - tap
  d.reserved || !s.portOpen d.port || decide (n < 64) || decide (9216 < n) || (d.dloc == 1 && s.host.lost)
/-- The head of the ring is passed. -/
def State.injDone (s : State) (ok : Bool) : State :=
  let s := s.wr Reg.HQ.INJ_CONS (s.rd Reg.HQ.INJ_CONS + 1)
  let s := { s with host := { s.host with injRead := s.host.injRead + 1, injAccepted := s.host.injAccepted + b2n ok, injRefused := s.host.injRefused + b2n (!ok) } }
  if ok then s else (s.bump Reg.HQ.INJ_REFUSED).event Blk.HQ 0 0
/-- A lane of the port that can take an injected frame in this schedule cycle. -/
def State.injLaneFor (s : State) (p : Nat) : Option Nat :=
  (s.lanesOf p).find? (fun l => s.laneAcc.get l != s.time.cycle + 1 && !(s.lanes.get l).resetting && decide (s.host.injLane.get l < s.act Reg.HQ.INJ_PER_BEAT))
/-- INJ_DESCRIPTOR (R273): the descriptor at the head of the ring is refused, waits, or injects its frame, which
takes hold-buffer cells in both modes (R49). -/
def execInjDescriptor (s : State) : Host.Outcome State Fault Refusal :=
  let loc := s.act Reg.HQ.INJ_LOC
  let n := s.rd Reg.HQ.INJ_CONS
  if s.devSafe ∨ ¬ s.time.started ∨ s.act Reg.HQ.INJ_EN = 0 ∨ s.rd Reg.HQ.INJ_PROD ≤ n ∨ (loc = 1 ∧ (s.host.lost ∨ s.host.injOff ∨ s.hostMemOff)) then .next s
  else
    let d := injDesc (s.locRead loc (s.act Reg.HQ.INJ_BASE + 32 * (n % 2 ^ s.act Reg.HQ.INJ_LOG2)) 32)
    let data := s.locRead d.dloc d.addr d.len
    if d.dloc = 1 ∧ s.hostMemOff then .next s
    else if s.injBad d data then .next (s.injDone false)
    else if s.freeCells < 73 then .next s
    else if d.mode = 1 then
      let own := storedCells (data ++ fcsBytes data) 0
      .next (((s.injDone true).cells own).later (.offerInjected d.port d.queue { kind := 3, size := d.len + 4, bytes := data, tsreq := d.tsreq, itag := d.itag, own := own }))
    else
      match s.injLaneFor d.port with
      | none => .next s
      | some l =>
        let frame := data ++ fcsBytes data
        let used := storedCells frame (if s.isTap d.port ∧ tapValid frame then 16 else 0)
        let s := (s.injDone true).cells used
        let s := { s with host := { s.host with injLane := s.host.injLane.mod l (· + 1) } }
        .next (s.accept d.port l frame true { done := true, cells := used, fcs := some true })

/-! ### Expert writes of buckets (R275, R276) -/

/-- Q_TOKENS_SET (R275): signed bytes for the selected queue shaper, at the next beat boundary. -/
def execQTokensSet (src : Source) (v : Word) (s : State) : Host.Outcome State Fault Refusal :=
  s.expertCmd src Reg.SHAPE.Q_TOKENS_SET 0 v.toNat (fun s =>
    s.later (.qTokSet (s.rd Reg.SHAPE.PORT_SEL * 8 + s.rd Reg.SHAPE.Q_SEL) (toSigned 32 v.toNat)))
/-- TOK_GO (R276): TOK_VAL goes to a bucket of the selected policer at the next beat boundary. -/
def execTokGo (src : Source) (s : State) : Host.Outcome State Fault Refusal :=
  s.expertCmd src Reg.POLICE.TOK_GO 0 1 (fun s =>
    if s.rd Reg.POLICE.POL_SEL = 0 then s
    else s.later (.tokSet (s.rd Reg.POLICE.POL_SEL) (s.rd Reg.POLICE.TOK_SEL == 1) (s.rd Reg.POLICE.TOK_VAL)))

end Sys2Proof.Machine
end

