-- ==== Sys2Proof/Machine/HostLink.lean ====
section
/-! DEFINITION. The host link: training, host accesses, losses and returns, IDE, DOE and MSI-X (R278 to R287, R290 to R293, R336, R341, R342). -/

namespace Sys2Proof.Machine

open Sys2Proof

/-! ### Host accesses (R281 to R283) -/

/-- A device address the host can reach: by the HDM range in CXL mode once the decoder is committed, or by BAR2 (R279 to R281). An insecure stream carries
nothing: CXL.cachemem has the HDM range, CXL.io BAR2 (R285). -/
def State.hostReach (s : State) (a len : Nat) : Bool :=
  let base := s.rd Reg.CXL.BAR2_BASE
  s.rd Reg.CXL.LINK_UP == 1 && !s.host.lost &&
    ((s.rd Reg.CXL.CXL_MODE == 1 && s.host.hdm && s.host.ideMem != .insecure) ||
     (s.host.ideIo != .insecure && decide (base ≤ a) && decide (a + len ≤ base + 2 ^ 32)))
/-- One byte as a host read sees it: before the device's writes of the cycle; zero where no region lies (R281, R283). -/
def State.hostByte (s : State) (a : Nat) : Byte := if (s.regionOf a).isSome then s.byteBefore a else 0
def State.hostData (s : State) (bs : List Byte) (poison : Bool) : State := { s with host := { s.host with readData := bs, readPoison := poison } }
/-- The RD or WR of a host access through an aperture (R242); what answers it is the command's operand. -/
def State.aptAccess (s : State) (a kind addr len : Nat) (data : List Byte) : State :=
  let args : List Int := [(s.act Reg.HERD.APT_WIN 0 a : Int), ((addr - 0xC000000000) % 2 ^ 34 : Nat), (len : Int), (s.herd.nextTok : Int)]
  let s := (s.sendTo kind (s.act Reg.HERD.APT_MEMBER 0 a) (args ++ data.map (fun b => (b.toNat : Int)))).1
  { s with herd := { s.herd with nextTok := s.herd.nextTok + 1 } }
/-- HOST_READ (R281, R283). `apt` is what the remote window answers to an aperture read; none when it refuses or a flit is lost. -/
def execHostRead (addr : Nat) (len : Nat) (apt : Option (List Byte)) (s : State) : Host.Outcome State Fault Refusal :=
  if 2 ^ 40 < addr + len then .fault (.noDeviceAddress addr)
  else if ¬ s.hostReach addr len then .next s
  else
    match apertureOf addr with
    | some a =>
      if ¬ s.aptOk a then .next ((s.hostData (zeros len) true).bump Reg.CXL.APT_ERR)
      else
        let s := s.aptAccess a 17 addr len []
        match apt with
        | some bs => .next (s.hostData ((bs ++ zeros len).take len) false)
        | none => .next ((s.hostData (zeros len) true).bump Reg.CXL.APT_ERR)
    | none =>
      let data := (List.range len).map (fun i => s.hostByte (addr + i))
      match s.hbmUe addr len with
      | some l =>
        let s := (s.countUe l).bump Reg.CXL.POISON_RD
        .next ((s.hostData data true).fault { cls := 12, block := Blk.CXL, addr := l * 64, count := s.rd Reg.CXL.POISON_RD })
      | none => .next (s.hostData data false)

/-- What becomes of one line of a host write: 0 applied, 1 discarded for its address, 2 in a protected range (R207, R281, R282). -/
def State.hostLine (s : State) (a len : Nat) : Nat :=
  match s.regionOf a with
  | none => 1
  | some r =>
    let off := a - s.regionBase 2
    if r = 2 ∧ s.act Reg.CTX.NO_PROTECT = 0 ∧ s.protectedRanges.any (meets (lineRange off len)) then 2
    else if r = 2 ∨ r = 3 ∨ r = 4 ∨ s.act Reg.CXL.NO_REGION_CHECK = 1 then 0 else 1
/-- HOST_WRITE (R207, R282, R283). `aptOk`: the remote window takes an aperture write. -/
def execHostWrite (addr : Nat) (data : List Byte) (aptOk : Bool) (s : State) : Host.Outcome State Fault Refusal :=
  if 2 ^ 40 < addr + data.length then .fault (.noDeviceAddress addr)
  else if ¬ s.hostReach addr data.length then .next s
  else
    match apertureOf addr with
    | some a =>
      if ¬ s.aptOk a then .next (s.bump Reg.CXL.APT_ERR)
      else
        let s := s.aptAccess a 18 addr data.length data
        .next (if aptOk then s else s.bump Reg.CXL.APT_ERR)
    | none =>
      let ps := pieces addr data
      let fate := ps.map (fun p => (p, s.hostLine p.1 p.2.length))
      let t := (fate.filter (fun e => e.2 == 0)).foldl (fun t e => t.hbmPutAs 2 e.1.1 e.1.2) s
      let t := if fate.any (fun e => e.2 == 1) then t.bump Reg.CXL.WR_DISCARD else t
      .next (if fate.any (fun e => e.2 == 2) then t.bump Reg.CTX.PROTECT_VIOL else t)

/-! ### The link (R279, R281, R290 to R292, R336) -/

/-- The CXL controller island resets: link, configuration space, HDM decoder, IDE keys, MSI-X table. -/
def State.cxlReset (s : State) : State :=
  let s := (((s.wr Reg.CXL.LINK_UP 0).wr Reg.CXL.CXL_MODE 0).wr Reg.CXL.WIDTH 0).wr Reg.CXL.SPEED 0
  let s := (s.wr Reg.CXL.CACHE_EN 0).wr Reg.CXL.MEM_EN 0
  { s with host := { s.host with hdm := false, hdmErr := false, msixTab := [], comp := [], ideIo := .noKeys, ideMem := .noKeys, msix := [], cfg := [], sessions := [] } }
/-- A host loss (R290, R291): rings in host memory are suspended. -/
def State.hostLossNow (s : State) : State :=
  if s.host.lost then s.cxlReset
  else
    let s := (s.cxlReset.bump Reg.CXL.HOST_LOSSES).wr Reg.CXL.LAST_LOSS_BEAT s.time.beat
    let s := { s with host := { s.host with lost := true, injOff := s.host.injOff || s.act Reg.HQ.INJ_LOC == 1 } }
    let s := (List.range 8).foldl (fun (t : State) q =>
      if t.act Reg.HQ.LOC 0 q = 1 ∧ t.act Reg.HQ.EN 0 q = 1 then { t with hq := t.hq.mod q (fun h => { h with suspended := true }) } else t) s
    (s.event Blk.CXL 0 0).fault { cls := 12, block := Blk.CXL, count := s.rd Reg.CXL.HOST_LOSSES }
/-- CXL_LINK_TRAIN (R279, R336): CXL mode only when negotiation selects it at 32 GT/s and x16 or x8; narrower than x4 stays in Detect. -/
def execCxlLinkTrain (r : LinkResult) (s : State) : Host.Outcome State Fault Refusal :=
  if s.rd Reg.CXL.LINK_UP = 1 ∨ s.host.perst ∨ r.width < 4 ∨ ¬ (r.width = 4 ∨ r.width = 8 ∨ r.width = 16) ∨ r.speed < 1 ∨ 5 < r.speed then .next s
  else
    let cxl := r.cxlNegotiated && r.speed == 5 && (r.width == 16 || r.width == 8) && s.act Reg.CXL.FORCE_PCIE == 0
    let s := (((s.wr Reg.CXL.LINK_UP 1).wr Reg.CXL.CXL_MODE (b2n cxl)).wr Reg.CXL.WIDTH r.width).wr Reg.CXL.SPEED r.speed
    .next ((s.wr Reg.CXL.CACHE_EN (b2n cxl)).wr Reg.CXL.MEM_EN (b2n cxl))
/-- HDM_DECODER_COMMIT (R281): ways other than 1 fail the commit, and the range is unmapped. -/
def execHdmDecoderCommit (ways : Nat) (s : State) : Host.Outcome State Fault Refusal :=
  if s.rd Reg.CXL.LINK_UP = 1 ∧ s.rd Reg.CXL.CXL_MODE = 1 then .next { s with host := { s.host with hdm := decide (ways = 1), hdmErr := decide (ways ≠ 1) } } else .next s
/-- HOST_LOSS (R290): while the data path runs. -/
def execHostLoss (s : State) : Host.Outcome State Fault Refusal :=
  if s.time.started ∧ s.rd Reg.CXL.LINK_UP = 1 then .next s.hostLossNow else .next s
/-- HOST_RETURN (R292): the link is up again and the decoder, if used, is committed. -/
def execHostReturn (s : State) : Host.Outcome State Fault Refusal :=
  if s.host.lost ∧ s.rd Reg.CXL.LINK_UP = 1 ∧ (s.rd Reg.CXL.CXL_MODE = 0 ∨ s.host.hdm) then
    let s := (s.wr Reg.CXL.LAST_RETURN_BEAT s.time.beat).event Blk.CXL 0 1
    .next { s with host := { s.host with lost := false } }
  else .next s
/-- PERST_N (R290, R336): before the data path starts it resets the CXL island only; later it is a host loss. The link trains when it is released. -/
def execPerstN (s : State) : Host.Outcome State Fault Refusal :=
  if s.time.started then .next s.hostLossNow else .next s.cxlReset
/-- Vendor identifier of the function: the manual does not give it (R278). -/
def cfgVendor : Nat := Config.vendorId.toNat
/-- A configuration space word as it reads (R278, R280, R281): Device ID and class code; the BARs' types and sizes; in the CXL DVSEC the Cache Size of 256
KiB, four units of 64 KiB, and the one range of 1 TiB; the AER capability's ID. Other words read as written. -/
def State.cfgWord (s : State) (w : Nat) : Nat :=
  let v := s.host.cfg.get w
  if w = 0 then cfgVendor + 0x7240 * 65536
  else if w = 2 then 0x120000 * 256
  else if w = 4 then v / 2 ^ 26 * 2 ^ 26 + 4
  else if w = 6 then 12
  else if w = 8 then v / 2 ^ 18 * 2 ^ 18 + 4
  else if w = Config.dvsecWord + 5 then 0x0401 * 65536 + v % 65536
  else if w = Config.dvsecWord + 6 then 0x100
  else if w = Config.dvsecWord + 7 then 3
  else if w = Config.aerWord then v / 65536 * 65536 + 1
  else v
/-- CONFIG_REQUEST (R278, R336): Configuration Request Retry Status before stage READY. -/
def execConfigRequest (write : Bool) (off : Nat) (v : Word) (s : State) : Host.Outcome State Fault Refusal :=
  if s.rd Reg.CXL.LINK_UP = 0 then .next s
  else if ¬ s.pagesOpen then .next { s with host := { s.host with cfgRetry := true, cfgData := 0 } }
  else
    let w := off / 4
    if write then
      .next { s with host := { s.host with cfgRetry := false, cfg := if w = 0 ∨ w = 2 then s.host.cfg else s.host.cfg.set w v.toNat } }
    else
      .next { s with host := { s.host with cfgRetry := false, cfgData := BitVec.ofNat 32 (s.cfgWord w) } }

/-! ### MSI-X (R287) -/

/-- A pending message leaves: unmasked, CXL.io not insecure, and none of its vector this beat (R285, R287). -/
def State.msixTry (s : State) (v : Nat) : State :=
  let m := s.host.msix.get v
  if m.pending ∧ m.unmasked ∧ s.host.ideIo ≠ .insecure ∧ m.sentBeat ≠ some s.time.beat ∧ s.rd Reg.CXL.LINK_UP = 1 ∧ ¬ s.host.lost then
    { s with host := { s.host with msix := s.host.msix.set v { m with pending := false, sentBeat := some s.time.beat } } }
  else s
/-- MSIX_SEND (R287). -/
def execMsixSend (v : Fin 2048) (s : State) : Host.Outcome State Fault Refusal := .next (s.msixTry v.val)
/-- MSIX_UNMASK (R287). -/
def execMsixUnmask (v : Fin 2048) (s : State) : Host.Outcome State Fault Refusal :=
  if s.rd Reg.CXL.LINK_UP = 0 then .next s
  else .next ({ s with host := { s.host with msix := s.host.msix.mod v.val (fun m => { m with unmasked := true }) } }.msixTry v.val)

/-! ### IDE and DOE (R285, R286) -/

def State.ideOf (s : State) (st : IdeStream) : IdeSt := match st with | .io => s.host.ideIo | .cachemem => s.host.ideMem
def State.setIde (s : State) (st : IdeStream) (v : IdeSt) : State :=
  match st with
  | .io => { s with host := { s.host with ideIo := v } }
  | .cachemem => { s with host := { s.host with ideMem := v } }
/-- IDE_FAIL (R285). -/
def execIdeFail (st : IdeStream) (s : State) : Host.Outcome State Fault Refusal :=
  if s.ideOf st = .secure then
    let s := (s.setIde st .insecure).bump Reg.CXL.IDE_FAIL
    .next (s.fault { cls := 12, block := Blk.CXL, unit := (match st with | .io => 0 | .cachemem => 1), count := s.rd Reg.CXL.IDE_FAIL })
  else .next s
/-- IDE_KM (R285): keys are set inside a secured session only. -/
def execIdeKm (st : IdeStream) (secured : Bool) (s : State) : Host.Outcome State Fault Refusal :=
  if secured ∧ ¬ s.host.sessions.isEmpty ∧ s.rd Reg.CXL.LINK_UP = 1 then .next (s.setIde st .secure) else .next s
/-- Answer a DOE object. DOE travels in configuration requests, which are no part of the insecure stream's traffic: new keys come by them (R285). -/
def State.doeAnswer (s : State) (bs : List Byte) : Host.Outcome State Fault Refusal :=
  if s.rd Reg.CXL.LINK_UP = 0 ∨ ¬ s.pagesOpen then .next s else .next { s with host := { s.host with doe := bs } }
/-- A DSMAS structure of the CDAT: handle, base and length of an address range. -/
def dsmas (h base len : Nat) : List Byte := leBytes 1 0 ++ zeros 1 ++ leBytes 2 24 ++ leBytes 1 h ++ leBytes 1 0 ++ zeros 2 ++ leBytes 8 base ++ leBytes 8 len
/-- A DSLBIS structure: handle, data type (1 and 2 read and write latency in ns, 4 and 5 read and write bandwidth in GB/s), value. -/
def dslbis (h type v : Nat) : List Byte :=
  leBytes 1 1 ++ zeros 1 ++ leBytes 2 24 ++ leBytes 1 h ++ leBytes 1 0 ++ leBytes 1 type ++ zeros 1 ++ leBytes 8 1000 ++ leBytes 2 v ++ zeros 6
/-- The CDAT's entries (R286). The structures' form is that of the CDAT specification. -/
def cdatEntries : List Byte :=
  dsmas 0 0 0xC000000000 ++ dsmas 1 0xC000000000 0x4000000000 ++ dslbis 0 1 400 ++ dslbis 0 2 350 ++ dslbis 0 4 64 ++ dslbis 0 5 64
    ++ dslbis 1 1 12736 ++ dslbis 1 2 12736
/-- The CDAT: its header with length, revision and a checksum that makes the bytes sum to zero. -/
def cdatTable : List Byte :=
  let n := 16 + cdatEntries.length
  let head (c : Nat) : List Byte := leBytes 4 n ++ leBytes 1 1 ++ leBytes 1 c ++ zeros 10
  let sum := ((head 0 ++ cdatEntries).map (·.toNat)).sum
  head ((256 - sum % 256) % 256) ++ cdatEntries
/-- Answer a request object of a length: one larger than 64 KiB is aborted (R286). -/
def State.doeObject (s : State) (len : Nat) (bs : List Byte) : Host.Outcome State Fault Refusal := s.doeAnswer (if 65536 < len then [] else bs)
/-- CDAT (R286). -/
def execCdat (len : Nat) (s : State) : Host.Outcome State Fault Refusal := s.doeObject len cdatTable
/-- DOE_DISCOVERY (R286): vendor, protocol and the next index; protocols as the DOE and CXL specifications number them. -/
def execDoeDiscovery (inst : Fin 2) (index : Nat) (s : State) : Host.Outcome State Fault Refusal :=
  let ps : List (Nat × Nat) := if inst = 0 then [(0x0001, 0), (0x1E98, 2)] else [(0x0001, 0), (0x0001, 1), (0x0001, 2)]
  match ps[index]? with
  | some (v, t) => s.doeAnswer (leBytes 2 v ++ leBytes 1 t ++ leBytes 1 (if index + 1 < ps.length then index + 1 else 0))
  | none => s.doeAnswer []

/-! ### Measurements and SPDM (R341, R342) -/

/-- Committed records and write counts of every slot. -/
def State.ledgerSubject (s : State) : List Byte :=
  (List.range 7).flatMap (fun k =>
    let rs := s.sec.slots.get k
    leBytes 1 rs.length ++ (rs.filter (·.committed)).flatMap (fun r => r.value ++ leBytes 8 r.beat ++ r.signer))
/-- The subject of a measurement. Where a subject has several parts the manual does not give their order in the digest: as it lists them. -/
def State.subject (s : State) (i : Nat) : List Byte :=
  let img := s.sec.running.getD []
  match i with
  | 2 => (img.take (leAt img 8 4)).drop 4096
  | 3 => leBytes 1 (s.rd Reg.SEC.BANK) ++ leBytes 1 (s.rd Reg.SEC.KEY) ++ leBytes 1 (s.rd Reg.SEC.SVN) ++ leBytes 1 s.arbCount
  | 4 => s.ledgerSubject
  | 5 => leBytes 1 (s.sec.bootSrc + 4 * b2n s.sec.compat + 8 * b2n s.sec.herdEn) ++ leBytes 1 s.sec.level
  | 6 => s.cal.recs.flatMap (fun e => leBytes 4 e.1 ++ leBytes 4 e.2.value.toNat)
  | 7 =>
    leBytes 4 ((s.layout.active.map (·.ver)).getD 0) ++ s.ctxs.flatMap (fun e =>
      match e.2.active with
      | some v => leBytes 2 e.1 ++ leBytes 2 v.ver ++ leBytes 4 v.crc
      | none => [])
  | _ =>
    (match s.auth.token with
      | some t => leBytes 4 t.perms ++ leBytes 32 t.flocks.toNat
      | none => []) ++ s.flocks.flatMap (fun e => if e.2.debug then leBytes 2 e.1 else [])
/-- Measurement i, 1 to 8: a SHA-384 digest; index 1 is the ROM's. -/
def State.measurement (s : State) (i : Nat) : List Byte := if i = 1 then Config.romDigest else Config.sha384 (s.subject i)
/-- A signed SPDM answer for slot 0; other slots are empty. -/
def State.spdm (s : State) (slot len : Nat) (body : List Byte) : Host.Outcome State Fault Refusal := s.doeObject len (if slot = 0 then body ++ Config.aliasSign body else [])
/-- CHALLENGE (R342). -/
def execChallenge (slot : Nat) (nonce : List Byte) (s : State) : Host.Outcome State Fault Refusal :=
  s.spdm slot nonce.length (nonce ++ Config.sha384 ((List.range 8).flatMap (fun i => s.measurement (i + 1))))
/-- MEASUREMENTS (R341): one measurement by index, all of them for index 255, their count for index 0. -/
def execMeasurements (slot : Nat) (index : Nat) (nonce : List Byte) (s : State) : Host.Outcome State Fault Refusal :=
  let body := if index = 0 then leBytes 1 8 else if index ≤ 8 then leBytes 1 index ++ s.measurement index
    else if index = 255 then (List.range 8).flatMap (fun i => leBytes 1 (i + 1) ++ s.measurement (i + 1)) else []
  if 8 < index ∧ index ≠ 255 then s.doeAnswer [] else s.spdm slot nonce.length (body ++ nonce)
/-- KEY_EXCHANGE (R342): a secured session. -/
def execKeyExchange (slot : Nat) (session : BitVec 16) (data : List Byte) (s : State) : Host.Outcome State Fault Refusal :=
  if slot = 0 ∧ s.rd Reg.CXL.LINK_UP = 1 ∧ s.pagesOpen ∧ data.length ≤ 65536 then
    ({ s with host := { s.host with sessions := session.toNat :: s.host.sessions.filter (· != session.toNat) } }).spdm 0 data.length (leBytes 2 session.toNat ++ data)
  else s.doeAnswer []
/-- GET_CERTIFICATE (R342): slot 0 only. -/
def execGetCertificate (slot : Nat) (off len : Nat) (s : State) : Host.Outcome State Fault Refusal :=
  s.doeAnswer (if slot = 0 then slice Config.certChain off len else [])

end Sys2Proof.Machine
end

