-- ==== Sys2Proof/Machine/Jobs.lean ====
section
/-! DEFINITION. Host jobs (R288, R289). -/

namespace Sys2Proof.Machine

open Sys2Proof

/-- Device address of the descriptor of a count. -/
def State.jobAddr (s : State) (n : Nat) : Nat := s.act Reg.CXL.JOB_BASE + 64 * (n % 2 ^ s.act Reg.CXL.JOB_LOG2)
/-- JOB_PROD_WRITE (R288). -/
def execJobProdWrite (src : Source) (v : DWord) (s : State) : Host.Outcome State Fault Refusal :=
  s.basicCmd src (fun s =>
    let old := s.rd Reg.CXL.JOB_PROD
    let rec_ (res new : Nat) : AuditRec := { block := Blk.CXL, off := Reg.CXL.JOB_PROD.off, source := src.num, result := res, old := old, new := new }
    if s.rd Reg.CXL.JOB_DONE + 2 ^ s.rd Reg.CXL.JOB_LOG2 < v.toNat then s.audit (rec_ 1 old)
    else (s.wrNow Reg.CXL.JOB_PROD v.toNat).audit (rec_ 0 v.toNat))
/-- A job is complete (R289): STATUS, RUN_MV and DONE_BEAT, the vector, then JOB_DONE. -/
def State.jobDone (s : State) (n status mv : Nat) (vec : Option Nat) : State :=
  let a := s.jobAddr n
  let s := ((s.hbmWrite (a + 48) (leBytes 1 status)).hbmWrite (a + 50) (leBytes 2 mv)).hbmWrite (a + 56) (leBytes 8 s.time.beat)
  let s := match vec with
    | some v => s.raiseVec v
    | none => s
  let s := s.bump Reg.CXL.JOB_DONE
  if 2 ≤ status then s.bump Reg.CXL.JOB_FAULTED else s
/-- INVOKE section of a version. -/
def State.invokeSect (s : State) (v : Version) : List Byte :=
  match v.sects.find? (fun t => t.type == 13) with
  | some t => Mem.readN s.hbm (s.regionBase 2 + v.addr + t.off) t.len
  | none => []
/-- The refusal of a descriptor: 0 when it is accepted. -/
def State.jobRefusal (s : State) (d : List Byte) : Nat :=
  let c := leAt d 0 2 % 4096
  let x := s.ctxs.get c
  match x.active with
  | none => 7
  | some v =>
    let (maxItems, inLen, outLen) := Config.invokeJob (s.invokeSect v) (leAt d 4 4)
    let reserved := decide (leAt d 0 2 / 4096 ≠ 0) || decide (bits (leAt d 40 2) 11 4 ≠ 0) || decide (leAt d 44 4 ≠ 0) || decide (leAt d 49 1 ≠ 0) || decide (leAt d 52 4 ≠ 0)
    if v.ver = 0 ∨ x.kind ≠ 6 ∨ x.down ≠ 0 then 7
    else if leAt d 2 2 ≠ 0 ∧ leAt d 2 2 ≠ v.ver then 8
    else if reserved ∨ maxItems < leAt d 4 4 ∨ leAt d 16 8 ≠ inLen ∨ leAt d 32 8 ≠ outLen ∨ ¬ s.inRegion 3 (leAt d 8 8) (leAt d 16 8) ∨
        ¬ s.inRegion 3 (leAt d 24 8) (leAt d 32 8) then 9
    else 0
/-- JOB_ACCEPT (R288, R289): the descriptor at the head of the ring is refused, waits for its context, or starts. -/
def execJobAccept (s : State) : Host.Outcome State Fault Refusal :=
  let n := s.rd Reg.CXL.JOB_CONS
  if ¬ s.time.started ∨ s.act Reg.CXL.JOB_EN = 0 ∨ s.rd Reg.CXL.JOB_PROD ≤ n ∨ s.devSafe ∨ s.herd.stopped then .next s
  else
    let d := Mem.readN s.hbm (s.jobAddr n) 64
    let c := leAt d 0 2 % 4096
    if (s.host.jobs.get c).isSome then .next s
    else
      let r := s.jobRefusal d
      let s := s.wr Reg.CXL.JOB_CONS (n + 1)
      if r ≠ 0 then .next (s.jobDone n r 0 (some (s.act Reg.CXL.JOB_VECTOR)))
      else
        let mv := ((s.ctxs.get c).active.map (·.ver)).getD 0
        .next { s with host := { s.host with jobs := s.host.jobs.set c (some { idx := n, mv := mv, vec := leAt d 40 2 }) } }
/-- JOB_COMPLETE (R289): void work of the job, or what aborts it, has fixed its STATUS. The codes of acceptance complete nothing. -/
def execJobComplete (c : CtxNum) (status : Fin 11) (s : State) : Host.Outcome State Fault Refusal :=
  match s.host.jobs.get c.val with
  | none => .next s
  | some j =>
    let st := if j.status ≠ 0 then j.status else status.val
    if st = 0 ∨ 7 ≤ st ∧ st ≤ 9 then .next s
    else
      let s := { s with host := { s.host with jobs := s.host.jobs.set c.val none } }
      .next (s.jobDone j.idx st j.mv (if bits j.vec 15 1 = 1 then some (bits j.vec 0 11) else none))

end Sys2Proof.Machine
end

