-- ==== Sys2Proof/Machine/Faults.lean ====
section
/-! DEFINITION. HBM errors (R296 to R298), fault records (R300), the conservation ledger (R302 to R304) and state disputes (R305). -/

namespace Sys2Proof.Machine

open Sys2Proof

/-! ### Units by code -/

/-- The unit a RETEST_KIND and RETEST_UNIT name (R316). -/
def unitOf (kind u : Nat) : Option Unit7 :=
  let half : Fin 64 := ⟨u % 64, Nat.mod_lt _ (by decide)⟩
  let fl : Flock := ⟨u / 64 % 256, Nat.mod_lt _ (by decide)⟩
  match kind with
  | 1 => if h : u < 16 then some (.lane ⟨u, h⟩) else none
  | 2 => if h : u < 256 then some (.flock ⟨u, h⟩) else none
  | 3 => if u < 16384 then some (.array fl half) else none
  | 4 => if u < 16384 then some (.treeCore fl half) else none
  | 5 => if h : u < 8 then some (.replica ⟨u, h⟩) else none
  | 6 => if h : u < 8 then some (.hbmc ⟨u, h⟩) else none
  | 7 => if h : u < 12 then some (.hport ⟨u, h⟩) else none
  | _ => none
/-- The unit of a code. -/
def unitOfCode (code : Nat) : Option Unit7 := unitOf (code / 65536) (code % 65536)
/-- Block, page number and SCOPE of a unit's records (R300). -/
def unitPage : Unit7 → Nat × Nat × Nat
  | .lane l => (Blk.LANE, l.val, 5)
  | .flock f => (Blk.FLOCK, f.val, 4)
  | .array f _ => (Blk.FLOCK, f.val, 4)
  | .treeCore f _ => (Blk.FLOCK, f.val, 4)
  | .replica r => (Blk.TCAM, r.val, 5)
  | .hbmc n => (Blk.HBMC, n.val, 6)
  | .hport p => (Blk.HLINK, p.val, 7)
/-- ACTION of a unit's withdrawal (R300). -/
def unitAction : Unit7 → Nat
  | .lane _ => 4
  | .hbmc _ => 5
  | _ => 3
/-- A unit is withdrawn at the scope that R199 gives its kind (R305). -/
def State.unitOut (s : State) (u : Unit7) (dev : Bool) : State :=
  match u with
  | .lane l => s.lanePass l.val dev true
  | .flock f => s.flockOut f.val dev
  | .array f a => (s.arrayOut f.val (2 ^ a.val) dev).flockOut f.val dev
  | .treeCore f t => (s.treeOut f.val (2 ^ t.val) dev).flockOut f.val dev
  | .replica r => s.replicaOut r.val dev
  | .hbmc n => ({ s with flt := { s.flt with wd := s.flt.wd.set (Unit7.code (.hbmc n)) true } }.dmcView (.hbmc n) .withdrawn).devSafeIn dev
  | .hport p => ({ s with flt := { s.flt with wd := s.flt.wd.set (Unit7.code (.hport p)) true } }.dmcView (.hport p) .withdrawn).setHl p.val 0

/-! ### HBM lines (R296 to R298) -/

/-- HBM_WRITEBACK (R296): a corrected line is written back in a beat past that of the correction, unless a write has cancelled it. -/
def execHbmWriteback (n : Hbmc) (line : Nat) (s : State) : Host.Outcome State Fault Refusal :=
  if stackOf (line * 64) = n.val ∧ s.flt.wback.get line < s.time.beat then .next { s with flt := { s.flt with wback := s.flt.wback.erase line } } else .next s
/-- Lines of a stack: 96 GiB of 64 bytes (R24, R401). -/
def stackLines : Nat := 1610612736
/-- The patrol scrub's period number of controller n: periods of 2^SCRUB_LOG2 beats (R296, R317). -/
def State.scrubPeriod (s : State) (n : Nat) : Nat := s.time.beat / 2 ^ s.act Reg.HBMC.SCRUB_LOG2 n
/-- Lines the present pass of controller n has read: a pass starts with each period. -/
def State.scrubCount (s : State) (n : Nat) : Nat := if s.flt.scrubPer.get n = s.scrubPeriod n + 1 then s.flt.scrubbed.get n else 0
/-- HBM_SCRUB (R296): the patrol scrub reads a line of stack n. `err` is what the line code says of it: 0 nothing, 1 corrected, 2 uncorrectable. -/
def execHbmScrub (n : Hbmc) (line : Nat) (err : Fin 3) (s : State) : Host.Outcome State Fault Refusal :=
  if stackOf (line * 64) ≠ n.val ∨ 8 * stackLines ≤ line then .next s
  else
    let k := s.scrubCount n.val + 1
    let s := { s with flt := { s.flt with scrubbed := s.flt.scrubbed.set n.val k, scrubPer := s.flt.scrubPer.set n.val (s.scrubPeriod n.val + 1) } }
    let s := if k = stackLines then s.bump Reg.HBMC.SCRUB_PASSES n.val else s
    if s.flt.hbmBad.contains line ∨ err = 2 then
      let s := if s.flt.hbmBad.contains line then s else { s with flt := { s.flt with hbmBad := s.flt.hbmBad ++ [line] } }
      .next (s.ueRecord line 0 0)
    else if err = 1 then
      let s := s.bump Reg.HBMC.CORRECTED n.val
      .next { s with flt := { s.flt with wback := s.flt.wback.put line s.time.beat } }
    else .next s
/-- Flow invocations an uncorrectable line ends, or the job (R17, R289). -/
def State.loseWork (s : State) (inv : Nat) : State :=
  match s.flow.invs.find? (fun i => decide (i.id = inv)) with
  | some i => s.invLost i
  | none => s
/-- The set of an in-line version on a core is void. -/
def State.copyUe (s : State) (c : ACoreId) : State :=
  match s.coreSect c with
  | some (_, v, _) => if v.kind = 1 then s.voidWork c 22 2 else s
  | none => s
/-- The flow's HIST is cleared and its ring freed, in the cached copy or the store record (R298). -/
def State.histClear (s : State) (key : List Byte) (ring : Nat) : State :=
  let g (h : HotRec) : HotRec := { h with histValid := false, histFull := false, histHead := 0 }
  match s.cached key with
  | some e => if e.hot.histValid ∧ e.hot.histRing = ring then (s.modCached key (fun e => { e with hot := g e.hot })).ringFree ring else s
  | none =>
    match (s.storeFind key).1 with
    | none => s
    | some l =>
      let h := HotRec.ofBytes (s.record l)
      if h.histValid ∧ h.histRing = ring then ((s.hbmWrite (s.recAddr l) (key ++ (g h).enc)).setTag l (tagOf key false false)).ringFree ring else s
/-- The invocation that reads a history ring is lost, and the flow's ring is freed (R298). -/
def State.historyUe (s : State) (ring inv : Nat) : State :=
  match s.flow.invs.find? (fun i => decide (i.id = inv)) with
  | some i => (s.invLost i).histClear i.key ring
  | none => s
/-- A copy of an entry of the journal failed: the second is used, and both failing loses the entry (R298, taken up at the revalidation). -/
def State.journalFail (s : State) (k : Nat) : State := { s with flt := { s.flt with jFail := s.flt.jFail.mod k (· + 1) } }
/-- HBM_UE (R298): a consumer meets an uncorrectable line. -/
def execHbmUe (c : UeConsumer) (line : Nat) (s : State) : Host.Outcome State Fault Refusal :=
  if ¬ s.flt.hbmBad.contains line then .next s
  else
    let rec_ (action ctx : Nat) : State := s.ueRecord line action ctx
    match c with
    | .flowRecord => .next (s.recordUe ((line * 64 - s.regionBase 0) / 256) line)
    | .flowTag => .next (s.tagLineUe (line - s.regionBase 5 / 64) line)
    | .history ring inv => .next ((rec_ 2 0).historyUe ring inv)
    | .imageLoad k =>
      let x := s.ctxs.get k.val
      if x.st = .checking then .next (((rec_ 0 k.val).setSlot2 (some k.val) { x with st := x.prev, chkProtect := false }).ctxRefuse (1, 0xFFFF, 0))
      else if x.st = .staging then .next (((rec_ 0 k.val).setSlot2 (some k.val) x.dropOther).ctxRefuse (1, 0xFFFF, 0))
      else .next (rec_ 0 k.val)
    | .imageReload k => .next ((rec_ 0 k.val).later (.ctxDown k.val 3 true))
    | .copyInline f => .next ((List.range 16).foldl (fun t k => t.copyUe { flock := f, cls := .express, core := ⟨k % 16, Nat.mod_lt _ (by decide)⟩ }) (rec_ 0 0))
    | .copyOther inv => .next ((rec_ 0 0).loseWork inv)
    | .reduction r =>
      let w := s.time.beat / 16384 * 16384
      .next ((rec_ 0 0).setRed r.val { s.redFor r.val w with void := true })
    | .versionWord k => .next ((rec_ 0 k.val).journalFail k.val)
    | .ruleSlotCopy => .next ((rec_ 0 0).journalFail 4097)
    | .rehashJournal => .next ((rec_ 0 0).journalFail 4098)
/-- ECC_INJ (R317): the next line the controller writes is corrupted. -/
def execEccInj (src : Source) (n : Hbmc) (s : State) : Host.Outcome State Fault Refusal :=
  s.expertCmd src Reg.HBMC.ECC_INJ n.val 1 (fun s => { s with flt := { s.flt with eccInj := s.flt.eccInj.set n.val true } })

/-! ### Fault records and ALERT_N (R300, R301) -/

/-- FAULT_RECORD (R300): a block of the device reports a fault. -/
def execFaultRecord (cls : Fin 16) (scope : Fin 9) (reason : Fin 256) (action : Fin 9) (block inst u addr count : Nat) (s : State) :
    Host.Outcome State Fault Refusal :=
  if inst < instancesOf block then
    .next (s.fault { cls := cls.val, scope := scope.val, reason := reason.val, action := action.val, block := block, inst := inst, unit := u, addr := addr, count := count })
  else .next s
/-- The level of the ALERT_N output: low while ALERT_PEND is set (R301), and in BOOT_FAIL (R335). -/
def State.alertN (s : State) : Bool := s.rd Reg.LEDG.ALERT_PEND == 0 && s.rd Reg.DEV.STAGE != 7
/-- ALERT_PEND_CLEAR (R301): writing 1 clears ALERT_PEND, and ALERT_N rises. -/
def execAlertPendClear (src : Source) (v : Bool) (s : State) : Host.Outcome State Fault Refusal :=
  s.basicCmd src (fun s => if v then s.wr Reg.LEDG.ALERT_PEND 0 else s) true

/-! ### The conservation ledger (R302 to R304) -/

/-- BRK_SUBJ of a balance (R316). -/
def subjCode : LedgerSubj → Nat
  | .lane => 1
  | .device => 2
  | .census => 3
  | .egress => 4
  | .hostq => 5
  | .injection => 6
  | .bucket => 7
  | .credit => 8
  | .occupancy => 9
/-- The balance of a code. -/
def subjOf (n : Nat) : Option LedgerSubj :=
  [LedgerSubj.lane, .device, .census, .egress, .hostq, .injection, .bucket, .credit, .occupancy].find? (fun j => subjCode j == n)
/-- ACTION of a break's consequence (R300, R303). -/
def breakAction : LedgerSubj → Nat
  | .lane => 4
  | .occupancy => 4
  | .device => 5
  | .census => 5
  | .egress => 6
  | .hostq => 7
  | .injection => 2
  | .bucket => 6
  | .credit => 8
/-- SCOPE of a break's record. -/
def breakScope : LedgerSubj → Nat
  | .lane => 5
  | .occupancy => 5
  | .device => 6
  | .census => 6
  | .credit => 7
  | _ => 8
/-- Units of a balance. -/
def breakUnits : LedgerSubj → Nat
  | .lane => 16
  | .occupancy => 16
  | .device => 1
  | .census => 1
  | .egress => 256
  | .hostq => 8
  | .injection => 1
  | .bucket => 1024
  | .credit => 12
/-- Buckets are numbered 0 to 255 queue shapers, 256 to 287 port shapers, 288 to 290 copy meters, 291 to 305 mirror meters of sessions 1 to 15, and
512 + 2p and 513 + 2p the two buckets of policer p (assumption 66). A bucket is set to its size. -/
def State.bucketFull (s : State) (u : Nat) : State :=
  if u < 256 then
    let b : Int := ((s.act Reg.SHAPE.Q_BURST 0 0 u * 65536 : Nat) : Int)
    s.modQ u (fun e => { e with tok := b })
  else if u < 288 then s.modTx (u - 256) (fun t => { t with tok := ((s.act Reg.SHAPE.P_BURST 0 0 (u - 256) * 65536 : Nat) : Int) })
  else if u < 291 then { s with eg := { s.eg with copyTok := s.eg.copyTok.set (u - 287) ((s.act Reg.POLICE.COPY_BURST 0 (u - 288) * 256 : Nat) : Int) } }
  else if u < 306 then { s with eg := { s.eg with mirTok := s.eg.mirTok.set (u - 290) ((s.act Reg.POLICE.MIR_BURST 0 (u - 291) * 256 : Nat) : Int) } }
  else if u < 512 then s
  else
    let p := (u - 512) / 2
    let x := s.eg.pol.get p
    let y : PolB := if u % 2 = 0 then { x with tc := ((s.act Reg.POLICE.CBS 0 0 p * 256 : Nat) : Int) } else { x with te := ((s.act Reg.POLICE.PBS_EBS 0 0 p * 256 : Nat) : Int) }
    { s with eg := { s.eg with pol := s.eg.pol.set p y } }
/-- Tokens of a bucket, and the same by its counts of tokens added, spent and capped (R274, R302). -/
def State.bucketPair (s : State) (u : Nat) : Int × Int :=
  let of (c : BucketCnt) : Int := c.added - c.spent - c.capped
  if u < 256 then let e := s.eg.q.get u; (e.tok, (e.added : Int) - e.spent - e.capped)
  else if u < 288 then let t := s.eg.tx.get (u - 256); (t.tok, (t.added : Int) - t.spent - t.capped)
  else if u < 291 then (s.eg.copyTok.get (u - 287), of (s.eg.copyCnt.get (u - 287)))
  else if u < 306 then (s.eg.mirTok.get (u - 290), of (s.eg.mirCnt.get (u - 290)))
  else if u < 512 then (0, 0)
  else
    let x := s.eg.pol.get ((u - 512) / 2)
    if u % 2 = 0 then (x.tc, of x.cntC) else (x.te, of x.cntE)
/-- Buckets that hold or have held tokens. -/
def State.bucketsUsed (s : State) : List Nat :=
  s.eg.q.keys ++ s.eg.tx.keys.map (256 + ·) ++ s.eg.copyTok.keys.map (287 + ·) ++ s.eg.mirTok.keys.map (290 + ·) ++ s.eg.pol.keys.flatMap (fun p => [512 + 2 * p, 513 + 2 * p])
/-- Every bucket's tokens against its counts. -/
def State.bucketSides (s : State) : List (LedgerSubj × Nat × Int × Int) := s.bucketsUsed.map (fun u => (.bucket, u, s.bucketPair u))
/-- The rebase of a balance (R304). -/
def State.setRebase (s : State) (j : LedgerSubj) (u : Nat) (d : Int) : State :=
  { s with flt := { s.flt with rebase := s.flt.rebase.set (subjCode j * 4096 + u) d } }
/-- PROD, CONS, LOST and the injection counters against the producer's counts; no more items than slots. -/
def State.hostSides (s : State) : List (LedgerSubj × Nat × Nat × Nat) :=
  (List.range 8).flatMap (fun q =>
    let h := s.hq.get q
    let held := s.rd Reg.HQ.PROD 0 q - s.rd Reg.HQ.CONS 0 q
    [(.hostq, q, h.produced, s.rd Reg.HQ.PROD 0 q), (.hostq, q + 8, h.produced, h.consumed + h.overwritten + held), (.hostq, q + 16, held - s.hqSlots q, 0),
     (.hostq, q + 24, h.lost0 + h.overwritten + h.dropped, s.rd Reg.HQ.LOST 0 q)]) ++
    [(.injection, 0, s.host.injPosted, s.rd Reg.HQ.INJ_PROD), (.injection, 1, s.host.injRead, s.rd Reg.HQ.INJ_CONS),
     (.injection, 2, s.host.injRead, s.host.injAccepted + s.host.injRefused)]
/-- What a break does (R303). A break of the device balance that a lane break accounts for has no further consequence. -/
def State.breakEffect (s : State) (j : LedgerSubj) (u : Nat) : State :=
  if s.act Reg.LEDG.NO_BREAK_ACT = 1 then s
  else
    match j with
    | .lane => s.lanePass u true true
    | .occupancy => s.lanePass u true true
    | .device => if s.time.beat ≤ s.flt.laneBreak ∧ s.flt.laneBreak ≠ 0 then s else s.devSafeIn true
    | .census => s.devSafeIn true
    | .egress => s
    | .hostq =>
      let t := (s.bump Reg.HQ.LOST 0 u 0 (s.rd Reg.HQ.PROD 0 u - s.rd Reg.HQ.CONS 0 u)).hqStartNow u
      (t.hostSides.filter (fun e => e.1 == .hostq && e.2.1 % 8 == u)).foldl (fun t e => t.setRebase .hostq e.2.1 ((e.2.2.1 : Int) - e.2.2.2)) t
    | .injection => s.wrNow Reg.HQ.INJ_EN 0
    | .bucket =>
      let t := s.bucketFull u
      t.setRebase .bucket u ((t.bucketPair u).1 - (t.bucketPair u).2)
    | .credit =>
      let t := s.trainPort u
      (List.range 4).foldl (fun t v => t.setRebase .credit (4 * u + v) 0) t
/-- A break is found (R303, R304): counted, recorded with its difference, and its balance rebased by that difference. -/
def State.breakFound (s : State) (j : LedgerSubj) (u : Nat) (delta : Int) (expect seen : Nat) : State :=
  let shown := if j = .device ∨ j = .census then 0 else u % 4096
  let s := (((s.bump Reg.LEDG.BREAKS).wr Reg.LEDG.BRK_SUBJ (subjCode j)).wr Reg.LEDG.BRK_UNIT shown).wr Reg.LEDG.BREAK_DELTA (ofSigned 64 delta)
  let s := if j = .lane then { s with flt := { s.flt with laneBreak := s.time.beat + 1 } } else s
  (s.event Blk.LEDG 0 0).fault { cls := if j = .credit then 8 else 6, scope := breakScope j, action := if s.act Reg.LEDG.NO_BREAK_ACT = 1 then 0 else breakAction j, block := if j = .credit then Blk.HLINK else Blk.LEDG, inst := if j = .credit then u % 12 else 0, unit := u, count := s.rd Reg.LEDG.BREAKS, expect := expect, seen := seen }
/-- LEDGER_BREAK (R303): a balance whose two sides differ in the hardware, at boundary N + 1. -/
def execLedgerBreak (subj : LedgerSubj) (u : Nat) (delta : Int) (expect seen : Nat) (s : State) : Host.Outcome State Fault Refusal :=
  if u < breakUnits subj then .next ((s.breakFound subj u delta expect seen).breakEffect subj u) else .next s

/-- The two sides of every balance of R274 and R302 at a boundary: balance, unit with the number of the check, and sides. -/
def State.laneSides (s : State) : List (LedgerSubj × Nat × Nat × Nat) :=
  (List.range 16).map (fun l =>
    (.lane, l, s.rd Reg.LEDG.LANE_LEDGER 0 (l * 8),
      ((List.range 6).map (fun c => s.rd Reg.LEDG.LANE_LEDGER 0 (l * 8 + c + 1))).sum + (s.lanes.get l).resident))
/-- The port core's own device totals against the sums over lanes. -/
def State.deviceSides (s : State) : List (LedgerSubj × Nat × Nat × Nat) :=
  (List.range 7).map (fun c => (.device, c, s.flt.devTotals.get c, ((List.range 16).map (fun l => s.rd Reg.LEDG.LANE_LEDGER 0 (l * 8 + c))).sum))
/-- Q_CELLS against the cells of the queue's descriptors, and the frame counts of R274. -/
def State.egressSides (s : State) : List (LedgerSubj × Nat × Nat × Nat) :=
  s.eg.q.flatMap (fun e =>
    let x := e.2
    let t := s.eg.tx.get (e.1 / 8)
    let cur := if t.curQ = e.1 % 8 then t.cur.toList else []
    let fs := x.frames ++ cur
    [(.egress, e.1, x.cells, (fs.map EgFrame.cells).sum), (.egress, e.1 + 256, x.offered, x.admitted + x.refused),
     (.egress, e.1 + 512, x.admitted, x.sent + x.stomped + x.flushed + fs.length)])
/-- Cells that descriptors hold and that the MACs have reserved, frame by frame. -/
def State.cellsHeld (s : State) : Nat :=
  let frames := (s.eg.q.flatMap (fun e => e.2.frames)) ++ s.eg.tx.filterMap (fun e => e.2.cur) ++ s.eg.inj.map (fun e => e.2.2) ++
    s.acts.filterMap (fun a => match a with
      | .offerInjected _ _ fr => some fr
      | _ => none)
  (s.pkts.map (fun e => match e.2 with
    | some x => if x.vd.done then x.vd.cells else 73
    | none => 0)).sum + (s.rx.map (fun e => match e.2 with
    | some r => if r.pkt.isNone && !r.dropped then 73 else 0
    | none => 0)).sum + (frames.map (·.own)).sum
/-- The buffer census: the free list, the cells held and the reservations make 524,288. -/
def State.censusSides (s : State) : List (LedgerSubj × Nat × Nat × Nat) := [(.census, 0, 524288, s.freeCells + s.cellsHeld)]
/-- Slots sent cannot be fewer than those the neighbour has freed: the rest is in flight or buffered there. -/
def State.creditSides (s : State) : List (LedgerSubj × Nat × Nat × Nat) :=
  s.hl.flatMap (fun e => (List.range 4).map (fun v => (.credit, 4 * e.1 + v, e.2.credit.getD v 0 - e.2.txSlots.getD v 0, 0)))
/-- A lane's count for the old rule slot is zero at C + 6, or the lane is withdrawn (R68). -/
def State.occupancySides (s : State) : List (LedgerSubj × Nat × Nat × Nat) :=
  if s.commitState = 3 ∧ ¬ s.cls.retired ∧ s.cls.switchBeat + 6 = s.time.beat then
    (List.range 16).map (fun l => (.occupancy, l, 0, if (s.lanes.get l).pass then 0 else s.cls.occ.get (l * 2 + (1 - s.activeSlot))))
  else []
/-- A lane holds no packet of the old version of an in-line context at C + 6 (R212). -/
def State.ctxOccupancySides (s : State) : List (LedgerSubj × Nat × Nat × Nat) :=
  (s.ctxs.filter (fun e => e.2.st == .retiring && !e.2.retired && e.2.kind == 1 && e.2.switchBeat + 6 == s.time.beat)).flatMap (fun e =>
    match e.2.other with
    | some v => (List.range 16).map (fun l => (.occupancy, l, 0, b2n (s.holdsVersion e.1 v.ver e.2.switchBeat l)))
    | none => [])
/-- One balance is checked against its rebase (R304); a break takes its consequence at the next boundary. -/
def State.checkSide (s : State) (j : LedgerSubj) (u : Nat) (expect seen : Int) : State :=
  let key := subjCode j * 4096 + u
  let d := expect - seen - (if j = .occupancy then 0 else s.flt.rebase.get key)
  if d = 0 then s
  else
    let unit := match j with
      | .egress => u % 256
      | .hostq => u % 8
      | .injection => 0
      | .credit => u / 4
      | _ => u
    let s := s.breakFound j unit d (ofSigned 64 expect) (ofSigned 64 seen)
    { s with flt := { s.flt with rebase := s.flt.rebase.mod key (· + d), breakPend := s.flt.breakPend ++ [(j, unit, d, ofSigned 64 expect, ofSigned 64 seen)] } }
/-- The checks of boundary N (R302): the breaks of boundary N − 1 take their consequence, then every balance is checked, then a forced break is made
(R316). -/
def State.ledgerBeat (s : State) : State :=
  let due := s.flt.breakPend
  let s := due.foldl (fun t e => t.breakEffect e.1 e.2.1) { s with flt := { s.flt with breakPend := [] } }
  let sides := s.laneSides ++ s.deviceSides ++ s.censusSides ++ s.creditSides ++ s.egressSides ++ s.hostSides ++ s.occupancySides ++ s.ctxOccupancySides
  let s := sides.foldl (fun t e => t.checkSide e.1 e.2.1 (e.2.2.1 : Int) (e.2.2.2 : Int)) s
  let s := s.bucketSides.foldl (fun t e => t.checkSide e.1 e.2.1 e.2.2.1 e.2.2.2) s
  match s.flt.breakForce.bind subjOf with
  | none => { s with flt := { s.flt with breakForce := none } }
  | some j =>
    let (u, s) := s.fresh
    let (d, s) := s.fresh
    let (x, s) := s.fresh
    let u := u.toNat % breakUnits j
    let delta := toSigned 64 d.toNat
    let seen := ofSigned 64 ((x.toNat : Int) - delta)
    let s := s.breakFound j u delta x.toNat seen
    { s with flt := { s.flt with breakForce := none, breakPend := s.flt.breakPend ++ [(j, u, delta, x.toNat, seen)] } }
/-- NO_BREAK_ACT (R316): the checks and the records go on, the consequences do not. -/
def execNoBreakAct (src : Source) (v : Bool) (s : State) : Host.Outcome State Fault Refusal :=
  s.expertCmd src Reg.LEDG.NO_BREAK_ACT 0 (b2n v) (fun s => s.wr Reg.LEDG.NO_BREAK_ACT (b2n v))
/-- BREAK_INJ (R316): a break of the named balance at the next boundary. -/
def execBreakInj (src : Source) (v : Fin 16) (s : State) : Host.Outcome State Fault Refusal :=
  s.expertCmd src Reg.LEDG.BREAK_INJ 0 v.val (fun s => { s with flt := { s.flt with breakForce := some v.val } })

/-! ### Disputes (R305) -/

/-- The DMC's state word in a record: 0 in service, 1 withdrawn, 2 under test (assumption 67). -/
def dmcWord : DmcView → Nat
  | .inService => 0
  | .withdrawn => 1
  | .underTest => 2
/-- A unit is in dispute: the pessimistic view wins at the next beat boundary, and only a re-test readmits it. -/
def State.dispute (s : State) (u : Unit7) : State :=
  let code := Unit7.code u
  let (blk, inst, scope) := unitPage u
  let s := (s.bump Reg.LEDG.DISPUTES).event Blk.LEDG 0 1
  let s := s.fault { cls := 7, scope := scope, action := unitAction u, block := blk, inst := inst, unit := code % 65536, count := s.rd Reg.LEDG.DISPUTES, expect := dmcWord (s.flt.dmc.get code), seen := b2n (s.isOut u) }
  { s with flt := { s.flt with disputed := s.flt.disputed.filter (· ≠ code) ++ [code] } }.later (.unitOut code)
/-- One view holds the unit in service and the other holds it withdrawn. Pass mode that the device state causes is no withdrawal of the lane. -/
def State.viewsDiffer (s : State) (u : Unit7) : Bool :=
  match u with
  | .lane _ => !s.devSafe && ((s.flt.dmc.get (Unit7.code u) == .inService) == s.isOut u)
  | _ => (s.flt.dmc.get (Unit7.code u) == .inService) == s.isOut u
/-- STATE_COMPARE (R305): every 1,024 beats the DMC compares its states with the data path's enable bits. -/
def execStateCompare (s : State) : Host.Outcome State Fault Refusal :=
  let codes := s.flt.dmc.keys ++ s.flt.wd.keys ++ (s.lanes.map (fun e => 65536 + e.1)) ++ (s.flocks.map (fun e => 2 * 65536 + e.1))
  let units := codes.eraseDups.filterMap unitOfCode
  .next (units.foldl (fun t u => if t.viewsDiffer u ∧ ¬ t.flt.disputed.contains (Unit7.code u) then t.dispute u else t) s)
/-- STATE_DISPUTE (R305). -/
def execStateDispute (k : DisputeKind) (u : Unit7) (s : State) : Host.Outcome State Fault Refusal :=
  match k with
  | .enable => if s.viewsDiffer u then .next (s.dispute u) else .next s
  | .health => if s.isOut u then .next s else .next (s.dispute u)
  | .silent => if s.isOut u ∨ s.flt.dmc.get (Unit7.code u) ≠ .inService then .next s else .next (s.dispute u)
/-- DMC_HEARTBEAT_LOSS (R295): no heartbeat for 65,536 beats. -/
def execDmcHeartbeatLoss (s : State) : Host.Outcome State Fault Refusal :=
  if s.devSafe then .next s else .next ((s.fault { cls := 11, scope := 6, action := 5, block := Blk.DEV }).later (.devSafe true))

end Sys2Proof.Machine
end

