-- ==== Sys2Proof/Machine/Resets.lean ====
section
/-! DEFINITION. Re-tests, lane and flock resets (R306, R312, R313), the rehash (R311, R314, R315), availability (R307, R308), warm and cold resets
(R309, R310, R217, R69, R355). -/

namespace Sys2Proof.Machine

open Sys2Proof

/-! ### Re-tests (R306) -/

/-- The re-test's result returns a unit to service in both views at one boundary. A lane stays in pass mode in the device safe forwarding state and while
its replica is withdrawn; a lane that its replica alone put in pass mode leaves it with the replica (assumption 68). -/
def State.readmit (s : State) (u : Unit7) : State :=
  let (blk, inst, scope) := unitPage u
  let isl := match u with
    | .lane l => l.val
    | .replica r => 16 + r.val
    | .flock f => 32 + f.val
    | _ => 24
  let s := if isl ≠ 24 ∧ s.rd Reg.AGE.ISL_STATE 0 0 isl = 3 then s.wr Reg.AGE.ISL_STATE 0 0 0 isl else s
  let s := (s.dmcView u .inService).fault { cls := 13, scope := scope, block := blk, inst := inst, unit := Unit7.code u % 65536 }
  let leave (s : State) (l : Nat) : State :=
    let x := s.lanes.get l
    if s.devSafe then s else ({ s with lanes := s.lanes.set l { x with pass := false, own := false, dev := false } }).event Blk.LANE l 30
  match u with
  | .lane l =>
    if s.flt.wd.get (5 * 65536 + l.val / 2) then { s with lanes := s.lanes.mod l.val (fun x => { x with own := false }) } else leave s l.val
  | .flock f => { s with flocks := s.flocks.mod f.val (fun x => { x with withdrawn := false, dev := false, worn := false }) }.event Blk.FLOCK f.val 30
  | .array f a => s.wr Reg.FLOCK.ARRAY_WD (setBits (s.rd Reg.FLOCK.ARRAY_WD f.val) a.val 1 0) f.val
  | .treeCore f t => s.wr Reg.FLOCK.TREE_WD (setBits (s.rd Reg.FLOCK.TREE_WD f.val) t.val 1 0) f.val
  | .replica r =>
    let s := { s with flt := { s.flt with wd := s.flt.wd.set (Unit7.code u) false } }.event Blk.TCAM r.val 30
    [2 * r.val, 2 * r.val + 1].foldl (fun t l => if (t.lanes.get l).pass ∧ ¬ (t.lanes.get l).own then (leave t l).dmcView (.lane ⟨l % 16, Nat.mod_lt _ (by decide)⟩) .inService else t) s
  | .hbmc _ => { s with flt := { s.flt with wd := s.flt.wd.set (Unit7.code u) false } }
  | .hport p => ({ s with flt := { s.flt with wd := s.flt.wd.set (Unit7.code u) false } }).trainPort p.val
/-- A worn flock that no version uses any more counts as withdrawn for a re-test (R331). -/
def State.wornFree (s : State) (u : Unit7) : Bool :=
  match u with
  | .flock f => (s.flocks.get f.val).worn && (s.ctxsOn f.val).isEmpty
  | _ => false
/-- RETEST_GO (R306, R316). -/
def execRetestGo (src : Source) (s : State) : Host.Outcome State Fault Refusal :=
  s.basicCmd src (fun s =>
    let u := unitOf (s.rd Reg.LEDG.RETEST_KIND) (s.rd Reg.LEDG.RETEST_UNIT)
    match if s.rd Reg.LEDG.RETEST_STATE = 1 then none else u.filter (fun u => s.isOut u || s.wornFree u) with
    | none => (s.wr Reg.LEDG.RETEST_REFUSED 1).auditCmd src Reg.LEDG.RETEST_GO 0 1 3
    | some u =>
      let s := (((s.wr Reg.LEDG.RETEST_REFUSED 0).wr Reg.LEDG.RETEST_STATE 1).dmcView u .underTest).auditCmd src Reg.LEDG.RETEST_GO 0 1 0
      { s with flt := { s.flt with retest := some (Unit7.code u) } })
/-- RETEST_END (R306). -/
def execRetestEnd (pass : Bool) (s : State) : Host.Outcome State Fault Refusal :=
  match s.flt.retest with
  | none => .next s
  | some code =>
    let s := ({ s with flt := { s.flt with retest := none } }.wr Reg.LEDG.RETEST_STATE (if pass then 2 else 3)).event Blk.LEDG 0 2
    match unitOfCode code with
    | none => .next s
    | some u =>
      if pass then .next ({ s with flt := { s.flt with disputed := s.flt.disputed.filter (· ≠ code) } }.later (.readmit code))
      else .next (s.dmcView u .withdrawn)

/-! ### Lane and flock resets (R312, R313, R316) -/

/-- A RST_GO is refused. -/
def State.rstRefuse (s : State) (src : Source) : State := (s.wr Reg.LEDG.RST_REFUSED 1).auditCmd src Reg.LEDG.RST_GO 0 1 3
/-- LANE_RESET (R312): only for a lane in pass mode. RST_KIND and RST_UNIT take the operands, as the write that precedes RST_GO leaves them. -/
def execLaneReset (src : Source) (l : Lane) (s : State) : Host.Outcome State Fault Refusal :=
  s.basicCmd src (fun s =>
    let s := (s.wr Reg.LEDG.RST_KIND 1).wr Reg.LEDG.RST_UNIT l.val
    if s.rd Reg.LEDG.RST_STATE = 1 ∨ ¬ (s.lanes.get l.val).pass then s.rstRefuse src
    else
      let s := (((s.wr Reg.LEDG.RST_REFUSED 0).wr Reg.LEDG.RST_STATE 1).later (.laneRst l.val true)).auditCmd src Reg.LEDG.RST_GO 0 1 0
      { s with flt := { s.flt with rst := some (1, l.val) } })
/-- A reset ends with its re-test. A unit withdrawn for a dispute is not readmitted by it (R305). -/
def State.rstEnd (s : State) (u : Unit7) (pass : Bool) : State :=
  let code := Unit7.code u
  let s := ({ s with flt := { s.flt with rst := none } }.wr Reg.LEDG.RST_STATE (if pass then 2 else 3)).event Blk.LEDG 0 3
  let back := pass && !s.flt.disputed.contains code
  if back then s.later (.readmit code) else s.dmcView u .withdrawn
/-- LANE_RESET_DRAINED (R312): the resident count is zero; the parser and the feature cores are reset, and the re-test ends. Frames are accepted again
from the next boundary. -/
def execLaneResetDrained (pass : Bool) (s : State) : Host.Outcome State Fault Refusal :=
  match s.flt.rst with
  | some (1, l) =>
    let x := s.lanes.get l
    if ¬ x.resetting ∨ x.resident ≠ 0 then .next s
    else
      let s := { s with fcores := s.fcores.filter (fun e => decide (e.1 / 192 ≠ l)) }
      .next ((s.rstEnd (.lane ⟨l % 16, Nat.mod_lt _ (by decide)⟩) pass).later (.laneRst l false))
  | _ => .next s
/-- Core memories, accumulators, sync cells and program banks of a flock are cleared (R309). -/
def State.clearFlock (s : State) (f : Nat) : State :=
  let own {α : Type} (per : Nat) (t : Tbl α) : Tbl α := t.filter (fun e => decide (e.1 / per ≠ f))
  let a := s.arr
  let tr := s.tree
  { s with arr := { a with mem := own (32 * 2 ^ 19) a.mem, desc := own (64 * 2 ^ 15) a.desc, cores := own 32 a.cores, banks := own 256 a.banks, lanes := own 512 a.lanes, drains := own 128 a.drains, stats := own 128 a.stats, cells := own 256 a.cells, bound := own 256 a.bound, posts := own 1 a.posts, bcast := a.bcast.filter (fun b => !b.onFlock f) }, tree := { tr with mem := own (64 * 65536) tr.mem, cores := own 64 tr.cores, part := own (64 * 1024) tr.part, jobFull := own 1 tr.jobFull, gset := own 64 tr.gset, vbuf := own 128 tr.vbuf, readBank := own 1 tr.readBank, outs := own 1 tr.outs } }
/-- FLOCK_RESET (R313): only for a withdrawn flock; it is cleared and runs its re-test in this one step. -/
def execFlockReset (src : Source) (f : Flock) (pass : Bool) (s : State) : Host.Outcome State Fault Refusal :=
  s.basicCmd src (fun s =>
    let s := (s.wr Reg.LEDG.RST_KIND 2).wr Reg.LEDG.RST_UNIT f.val
    if s.rd Reg.LEDG.RST_STATE = 1 ∨ ¬ (s.flocks.get f.val).withdrawn then s.rstRefuse src
    else (((s.wr Reg.LEDG.RST_REFUSED 0).auditCmd src Reg.LEDG.RST_GO 0 1 0).clearFlock f.val).rstEnd (.flock f) pass)

/-! ### The rehash (R311, R314, R315) -/

/-- A valid slot fails the verification: its record is unreadable, its fingerprint or its bucket is wrong, or the key's hash-1 copy is kept (R311). -/
def State.slotBad (s : State) (l : Nat) : Bool :=
  let g := s.tag l
  let key := s.keyAt l
  let bk := l / 8
  tagValid g && ((s.hbmUe (s.recAddr l) 256).isSome || tagFp g != fingerprint key || (bk != bucket1 key && bk != bucket2 key) ||
    (bk != bucket1 key && ((s.fpSlot (bucket1 key) (fingerprint key)).map (fun l1 => decide (s.keyAt l1 = key))).getD false))
/-- One slot is verified; a slot cleared is counted. A second copy of a key leaves its ring with the hash-1 copy. -/
def State.verifySlot (s : State) (l : Nat) : State :=
  if s.slotBad l then
    let key := s.keyAt l
    match s.hbmUe (s.recAddr l) 256 with
    | some line => ((s.ueRecord line 2 0).clearSlot l false).bump Reg.FLOW.REVAL_CLEARED
    | none =>
      let second := l / 8 = bucket2 key ∧ tagFp (s.tag l) = fingerprint key
      let s := if second then s.relocate l (s.fpSlot (bucket1 key) (fingerprint key)) else s
      (s.clearSlot l (!decide second)).bump Reg.FLOW.REVAL_CLEARED
  else s
/-- Slots of a bucket. -/
def slotsOf (bk : Nat) : List Nat := (List.range 8).map (8 * bk + ·)
/-- Every valid slot of a step's 256 buckets is verified. An unreadable tag line is rewritten as empty (R80). -/
def State.verifyStep (s : State) (n : Nat) : State :=
  ((List.range 256).map (256 * n + ·)).foldl (fun t bk =>
    let t := t.tagCheck bk
    (slotsOf bk).foldl State.verifySlot t) s
/-- A key moves back to its hash-1 bucket where that can hold it. -/
def State.moveBack (s : State) (l : Nat) : State :=
  let v := s.keyAt l
  if tagValid (s.tag l) ∧ bucket2 v ≠ bucket1 v ∧ l / 8 = bucket2 v ∧ s.takesKey (bucket1 v) v then (s.copySlot l (bucket1 v)).bump Reg.FLOW.REHASH_MOVES else s
/-- A record of CLASS 15 (R294, R315). -/
def State.rehashRecord (s : State) : State := s.fault { cls := 15, block := Blk.FLOW, count := s.rd Reg.FLOW.REHASH_STEP }
/-- The rehash ends. -/
def State.rehashEnd (s : State) : State :=
  let s := ((s.wr Reg.FLOW.REHASH_RUN 0).event Blk.FLOW 0 1).rehashRecord
  s.setFlow (fun f => { f with journal := none })
/-- REHASH_GO (R314). -/
def execRehashGo (src : Source) (s : State) : Host.Outcome State Fault Refusal :=
  s.basicCmd src (fun s =>
    if s.rd Reg.FLOW.REHASH_RUN = 1 then s.auditCmd src Reg.FLOW.REHASH_GO 0 1 3
    else
      let s := (((s.wr Reg.FLOW.REHASH_RUN 1).wr Reg.FLOW.REHASH_STEP 0).auditCmd src Reg.FLOW.REHASH_GO 0 1 0).rehashRecord
      s.setFlow (fun f => { f with rehashAt := s.time.beat + 1, journal := none }))
/-- The step n runs whole: it is journalled until the next one starts. -/
def State.rehashStepNow (s : State) (n : Nat) : State :=
  let s := (s.setFlow (fun f => { f with journal := some n })).verifyStep n
  let s := (((List.range 256).flatMap (fun i => slotsOf (256 * n + i))).foldl State.moveBack s).wr Reg.FLOW.REHASH_STEP (n + 1)
  let s := s.setFlow (fun f => { f with rehashAt := s.time.beat + Nat.max 64 (s.act Reg.FLOW.REHASH_PACE) })
  if n + 1 = 524288 then s.rehashEnd else s
/-- REHASH_STEP (R314): one step starts every REHASH_PACE beats. -/
def execRehashStep (s : State) : Host.Outcome State Fault Refusal :=
  if s.rd Reg.FLOW.REHASH_RUN = 0 ∨ s.time.beat < s.flow.rehashAt ∨ s.herd.cut then .next s
  else .next (s.rehashStepNow (s.rd Reg.FLOW.REHASH_STEP))
/-- REHASH_STOP (R314): the rehash ends after the current step, which this model runs whole. -/
def execRehashStop (src : Source) (s : State) : Host.Outcome State Fault Refusal :=
  s.basicCmd src (fun s =>
    let s := s.auditCmd src Reg.FLOW.REHASH_STOP 0 2 0
    if s.rd Reg.FLOW.REHASH_RUN = 1 then s.rehashEnd else s)

/-! ### Availability (R307, R308) -/

/-- Calendar year of a day counted from 1970-01-01 (proleptic Gregorian calendar). -/
def yearOf (days : Nat) : Nat :=
  let z := days + 719468
  let doe := z % 146097
  let yoe := (doe - doe / 1460 + doe / 36524 - doe / 146096) / 365
  let doy := doe - (365 * yoe + yoe / 4 - yoe / 100)
  yoe + z / 146097 * 400 + (if 10 ≤ (5 * doy + 2) / 153 then 1 else 0)
/-- TAI calendar year of the herd time (R226). -/
def State.taiYear (s : State) : Nat := yearOf ((s.act Reg.TIME.ORIGIN_SEC + nsOf (s.time.beat * 512) / 1000000000) / 86400)
/-- The availability registers: year and four counts, then the previous year and its counts. -/
def State.avRegs (s : State) : List Nat :=
  [s.rd Reg.LEDG.AV_YEAR, s.rd Reg.LEDG.AV_PKTS, s.rd Reg.LEDG.AV_FLOSS, s.rd Reg.LEDG.AV_VPKTS, s.rd Reg.LEDG.AV_VLOSS, s.rd Reg.LEDG.AV_PREV_YEAR]
    ++ (List.range 4).map (s.rd Reg.LEDG.AV_PREV 0)
/-- The registers as the flash copy gives them. -/
def State.avLoad (s : State) (v : List Nat) : State :=
  let g (i : Nat) := v.getD i 0
  let s := (((s.wr Reg.LEDG.AV_YEAR (g 0)).wr Reg.LEDG.AV_PKTS (g 1)).wr Reg.LEDG.AV_FLOSS (g 2)).wr Reg.LEDG.AV_VPKTS (g 3)
  (List.range 4).foldl (fun t i => t.wr Reg.LEDG.AV_PREV (g (6 + i)) 0 i) ((s.wr Reg.LEDG.AV_VLOSS (g 4)).wr Reg.LEDG.AV_PREV_YEAR (g 5))
/-- A new calendar year begins: the counts become the previous year's. -/
def State.avYear (s : State) : State :=
  let y := s.taiYear
  if s.rd Reg.LEDG.AV_YEAR = y then s
  else s.avLoad ([y, 0, 0, 0, 0] ++ (s.avRegs.take 5))
/-- The counts go to flash. -/
def State.avSave (s : State) : State :=
  let s := s.avYear
  { s with flt := { s.flt with flashAv := s.avRegs } }
/-- AVAILABILITY_SAVE (R308): every 2^33 beats. -/
def execAvailabilitySave (s : State) : Host.Outcome State Fault Refusal :=
  if s.time.beat % 2 ^ 33 = 0 then .next s.avSave else .next s

/-! ### What a reset keeps (R309, R310, R355) -/

/-- A reset tears the flash writes in progress: a firmware bank, a ledger record, a calibration record (R319, R340, R347). -/
def State.tearWrites (s : State) : State :=
  let s := match s.sec.fwPend with
    | some (true, img) => { s with sec := { s.sec with bankB := { img := img, order := s.sec.writes + 1, torn := true }, writes := s.sec.writes + 1 } }
    | some (false, img) => { s with sec := { s.sec with bankA := { img := img, order := s.sec.writes + 1, torn := true }, writes := s.sec.writes + 1 } }
    | none => s
  let s := match s.sec.setPend with
    | some (slot, r) => { s with sec := { s.sec with slots := s.sec.slots.mod slot (fun l => l ++ [{ r with committed := false }]) } }
    | none => s
  match s.cal.pend with
  | some (i, v) =>
    let (d, s) := s.fresh
    let old := (s.cal.recs.find? i).getD { value := (Config.calFactory i).1, factory := true }
    let new : CalRec := if d.getLsbD 0 then { value := v, factory := false, count := old.count + 1 } else { old with count := old.count + 1 }
    { s with cal := { s.cal with recs := s.cal.recs.put i new } }
  | none => s
/-- A flock in debug mode leaves it at any reset, and stays withdrawn until a management re-test readmits it (R351, R368; assumption 76). -/
def State.debugOut (s : State) : Tbl FlockSt := (s.flocks.filter (fun e => e.2.debug)).map (fun (e : Nat × FlockSt) => (e.1, ({ withdrawn := true } : FlockSt)))
/-- The DMC's view of those flocks. -/
def State.debugViews (s : State) : Tbl DmcView := s.debugOut.map (fun (e : Nat × FlockSt) => (2 * 65536 + e.1, DmcView.withdrawn))
/-- What flash, the pins and the world outside keep over any reset: firmware banks, the settings ledger, the calibration store, the availability counts. -/
def State.flashOnly (s : State) : State :=
  let s := s.tearWrites
  let sec : SecSt := { pwrGood := s.sec.pwrGood, resetN := s.sec.resetN, bootSrc := s.sec.bootSrc, compat := s.sec.compat, herdEn := s.sec.herdEn, level := s.sec.level, bankA := s.sec.bankA, bankB := s.sec.bankB, writes := s.sec.writes, slots := s.sec.slots, draws := s.sec.draws, booting := true }
  let t : State := { State.reset with pending := s.pending, sec := sec, cal := { recs := s.cal.recs }, flocks := s.debugOut, flt := { flashAv := s.flt.flashAv, tripRecord := s.flt.tripRecord, dmc := s.debugViews }, host := { mem := s.host.mem, perst := s.host.perst }, free := s.free }
  ((t.avLoad s.flt.flashAv).drawNonce).drawChal
/-- A cold reset (R309). -/
def State.coldNow (s : State) (cause : Nat) : State :=
  let s := if s.rd Reg.FLOW.REHASH_RUN = 1 ∧ s.time.started then s.rehashRecord else s
  s.flashOnly.wr Reg.DEV.RESET_CAUSE cause

/-- A context or the layout after a warm reset (R217): the old version or the new one, with nothing staged. -/
def Ctx.afterReset (x : Ctx) (rb : Nat) : Ctx :=
  let new : Bool := match x.st with
    | .retiring => true
    | .armed => decide (x.armC ≤ rb)
    | _ => false
  let y : Ctx := if new && x.st == .armed then { x with slot := !x.slot } else x
  let gone := new && x.emptying
  let v := (if y.slot then y.v1 else y.v0).map (fun v => { v with half := false, treeOn := false, gatherOn := false, expressOn := false, express4On := false, runs := [] })
  match if gone then none else v with
  | none => {}
  | some v => { st := .active, kind := v.kind, slot := y.slot, v0 := if y.slot then none else some v, v1 := if y.slot then some v else none }
/-- A context whose surviving version uses one of the flocks stays down with FLOCK_DOWN (R199, R368). -/
def Ctx.downOn (x : Ctx) (fs : List Nat) : Ctx :=
  if [x.v0, x.v1].any (fun v => v.any (fun v => v.flocks.any fs.contains)) then { x with down := 4 } else x
/-- Registers a warm reset keeps: the herd time's origin, the region sizes, WARM_RESETS, RESET_LOST and the reset's cause, the availability counts, and
what the journal in HBM holds of the rule slot and the rehash. -/
def warmKeys : List Nat :=
  [Reg.TIME.ORIGIN_SEC, Reg.DEV.WARM_RESETS, Reg.LEDG.RESET_LOST, Reg.DEV.RESET_CAUSE, Reg.TCAM.SLOT_VER0, Reg.TCAM.SLOT_VER1, Reg.TCAM.ACTIVE_SLOT, Reg.FLOW.REHASH_RUN, Reg.FLOW.REHASH_STEP].map (fun f => f.key 0 0 0)
    ++ (List.range 6).map (fun i => Reg.CXL.REGION_GIB.key 0 i 0)
/-- On-die logic resets; HBM, the journal and what R309 names stay. -/
def State.onDie (s : State) : State :=
  let t := s.flashOnly
  let regs : Tbl Nat := s.regs.filter (fun e => warmKeys.contains e.1)
  let f : FaultSt := { seq := s.flt.seq, auditSeq := s.flt.auditSeq, hbmBad := s.flt.hbmBad, flashAv := s.flt.flashAv, jFail := s.flt.jFail, resetBeat := s.flt.resetBeat, resetDev := s.flt.resetDev, totals := s.flt.totals, lastEpochPkts := s.flt.lastEpochPkts, tripped := s.flt.tripped, tripRecord := s.flt.tripRecord, dmc := s.debugViews }
  let tcam : Tbl TcamEntry := s.cls.tcam.map (fun (e : Nat × TcamEntry) => (e.1, ({ e.2 with disabled := false } : TcamEntry)))
  let cls : Classifier := { tcam := tcam, banks := s.cls.banks, presel := s.cls.presel, lpmDom := s.cls.lpmDom, defAct0 := s.cls.defAct0, defAct1 := s.cls.defAct1 }
  let time : TimeSt := { beat := s.time.beat, cycle := s.time.cycle, setDone := s.time.setDone, setSec := s.time.setSec, setNs := s.time.setNs, phaseLeft := 0, seq := s.time.seq }
  { t with regs := regs, acting := regs, time := time, hbm := s.hbm, flt := f, cls := cls, flow := { journal := s.flow.journal, moveJ := s.flow.moveJ }, ctxs := s.ctxs.map (fun (e : Nat × Ctx) => (e.1, (e.2.afterReset s.flt.resetBeat).downOn (Tbl.keys s.debugOut))), layout := s.layout.afterReset s.flt.resetBeat }.avLoad s.flt.flashAv
/-- Boot restarts from stage ROM before the data path starts (R334). -/
def State.bootRestart (s : State) (cause : Nat) : State :=
  let warm := s.sec.warm
  let t := s.onDie.wr Reg.DEV.RESET_CAUSE cause
  { t with sec := { t.sec with warm := warm } }
/-- Packets resident in the lanes. -/
def State.residentNow (s : State) : Nat := ((List.range 16).map (fun l => (s.lanes.get l).resident)).sum
/-- A warm reset, steps 2 to 4 (R310): the lanes stop, the links go down, the device leaves the herd, a requested reset writes the flow cache back, and
on-die logic resets. A reset is device-caused when it is requested in pass mode for a device-caused fault (R308). -/
def State.warmNow (s : State) (req : Bool) (cause : Nat) : State :=
  let dev := (List.range 16).any (fun l => (s.lanes.get l).pass && (s.lanes.get l).dev)
  let s := (List.range 12).foldl (fun t p => t.setHl p 0) s.announceLeave
  let s := if req then (s.flow.victims.foldl (fun t e => (t.writeBack e false).1) (s.flushCache true)) else s
  let lost := s.residentNow
  let s := (s.wr Reg.LEDG.RESET_LOST lost).bump Reg.DEV.WARM_RESETS
  let s := if dev then s.bump Reg.LEDG.AV_FLOSS 0 0 0 lost else s
  let s := if req then s.avSave else s
  let s := { s with flt := { s.flt with resetBeat := s.time.beat, resetDev := dev, totals := (List.range 8).map (s.rd Reg.LEDG.DEV_LEDGER 0) } }
  let t := s.onDie.wr Reg.DEV.RESET_CAUSE cause
  let t := if dev ∧ ¬ req then t.bump Reg.LEDG.AV_FLOSS 0 0 0 lost else t
  { t with sec := { t.sec with warm := true } }
/-- A reset input or request acts: a warm reset of a running data path, else a restart of boot. -/
def State.resetNow (s : State) (req : Bool) (cause : Nat) : State := if s.time.started then s.warmNow req cause else s.bootRestart cause

/-- RESET_N_LOW (R310, R334): acts at once. -/
def execResetNLow (s : State) : Host.Outcome State Fault Refusal :=
  if s.sec.pwrGood ∧ s.sec.resetN then
    let t := s.resetNow false 3
    .next { t with sec := { t.sec with resetN := false, booting := false } }
  else .next s
/-- RESET_N_RELEASE (R335): with PWR_GOOD high, stage ROM starts. -/
def execResetNRelease (s : State) : Host.Outcome State Fault Refusal :=
  if s.sec.resetN then .next s else .next { s with sec := { s.sec with resetN := true, booting := s.sec.pwrGood } }
/-- A DEV.CTRL request (R310, R384): a request that waits is replaced only by a cold one. Before the data path starts no boundary comes, and it acts
at once. -/
def State.requestReset (s : State) (src : Source) (cold : Bool) (rkey : Nat) : State :=
  let blocked := ¬ s.sec.pwrGood ∨ ¬ s.sec.resetN ∨ ¬ s.mayWrite src true
  let s := if blocked then s else s.wrote src
  let f := if cold then Reg.DEV.COLD else Reg.DEV.WARM
  let new := rkey * 65536 + (if cold then 4 else 2)
  let rec_ (res : Nat) : AuditRec := { block := Blk.DEV, off := f.off, source := src.num, result := res, new := new, kind := 5 }
  if blocked then s
  else if rkey ≠ 0x5253 then s.audit (rec_ 1)
  else if s.sec.reqReset.isSome ∧ ¬ cold then s.audit (rec_ 3)
  else
    let s := s.audit (rec_ 0)
    if s.time.started then { s with sec := { s.sec with reqReset := some cold, reqBeat := s.time.beat } }
    else if cold then s.coldNow 5 else s.resetNow true 4
/-- WARM_REQUEST (R310, R384). -/
def execWarmRequest (src : Source) (rkey : BitVec 16) (s : State) : Host.Outcome State Fault Refusal := .next (s.requestReset src false rkey.toNat)
/-- COLD_REQUEST (R309, R384). A write with WARM and COLD both set is this command. -/
def execColdRequest (src : Source) (rkey : BitVec 16) (s : State) : Host.Outcome State Fault Refusal := .next (s.requestReset src true rkey.toNat)
/-- WARM_RESET (R310): a requested warm reset acts at the beat boundary after its request. -/
def execWarmReset (s : State) : Host.Outcome State Fault Refusal :=
  if s.sec.reqReset = some false ∧ s.time.started ∧ s.sec.reqBeat < s.time.beat then .next (s.warmNow true 4) else .next s
/-- A requested cold reset at the boundary (R309). The counts are saved first (R308). -/
def State.coldDue (s : State) : State := if s.sec.reqReset = some true ∧ s.time.started then s.avSave.coldNow 5 else s
/-- PWR_GOOD_LOW (R309): a cold reset. -/
def execPwrGoodLow (s : State) : Host.Outcome State Fault Refusal :=
  let t := s.coldNow 2
  .next { t with sec := { t.sec with pwrGood := false, booting := false } }

/-! ### Revalidation (R69, R217, R311, R315) -/

/-- The content a surviving version's image carries stands in the active half again (R99, R217). -/
def State.putSet (s : State) (v : Version) : State :=
  match v.sects.find? (fun t => t.type == 2) with
  | some t =>
    let s := { s with fsets := s.fsets.set (b2n s.fhalf * 16 + v.fset) (setOf t.body) }
    s.showSets
  | none => s
/-- A surviving version's parts stand in its units again, in force (R217). -/
def State.restoreVersion (s : State) (c : Nat) (v : Version) : State :=
  let v := s.readImage v
  let s := (s.setSlot2 (some c) ((s.ctxs.get c).setActive (some v))).stageParts c v
  let s := s.putSet v
  let s := (((s.switchTrees c).switchExpress c 3).switchExpress c 4).switchRuns c (fun _ => true)
  s.modVers c (fun v => { v with gatherOn := true }) id
/-- A version does not survive: its journal entry or its image is unreadable, or its CRC fails. -/
def State.versionBad (s : State) (c : Nat) (v : Version) : Bool :=
  let a := s.regionBase 2 + v.addr
  decide (2 ≤ s.flt.jFail.get c) || (s.hbmUe a v.len).isSome || imgCrc (Mem.readN s.hbm a v.len) != v.crc || leAt (Mem.readN s.hbm a 16) 12 4 != v.crc
/-- One context, or the layout, is revalidated. -/
def State.revalCtx (s : State) (c : Option Nat) : State :=
  let x := s.slotOf2 c
  match x.active with
  | none => s
  | some v =>
    if s.versionBad (c.getD 4096) v then
      let s := (s.setSlot2 c {}).bump Reg.CTX.CRC_LOST
      s.fault { cls := 2, scope := 3, action := 2, block := Blk.CTX, ctx := c.getD 0, count := s.rd Reg.CTX.CRC_LOST }
    else match c with
      | some n => s.restoreVersion n v
      | none => s.setSlot2 none (x.setActive (some (s.readImage v)))
/-- The rule slot returns from its copy in the journal; with no readable copy it comes back empty, with a default action that forwards (R69, R298). -/
def State.revalRules (s : State) : State :=
  if 2 ≤ s.flt.jFail.get 4097 then { s with cls := {} } else s.copyActive
/-- Valid slots of the flow store. -/
def State.validSlots (s : State) : List Nat :=
  let base := s.regionBase 5
  ((s.hbm.filter (fun c => decide (base ≤ c.1) && decide (c.1 < base + 8 * 2 ^ 30))).map (fun c => (c.1 - base) / 8)).eraseDups.filter (fun l => tagValid (s.tag l))
/-- The flow store: every valid slot is verified, CACHED bits are cleared, and the free list of history rings is rebuilt in rising order (R311). -/
def State.revalFlow (s : State) : State :=
  let s := s.completeMove
  let s := s.wr Reg.FLOW.RECORDS s.validSlots.length
  let bad := s.flt.hbmBad.filter (fun l => decide (s.regionBase 5 ≤ l * 64) && decide (l * 64 < s.regionBase 5 + 8 * 2 ^ 30))
  let s := bad.foldl (fun t l => t.tagLineUe (l - t.regionBase 5 / 64) l) s
  let s := s.validSlots.foldl State.verifySlot s
  let s := s.validSlots.foldl (fun t l => t.setCached l false) s
  let named := s.validSlots.filterMap (fun l => let h := HotRec.ofBytes (s.record l); if h.histValid then some h.histRing else none)
  let top := (named.map (· + 1)).foldl Nat.max 0
  s.setFlow (fun f => { f with ringNext := top, ringRet := (List.range top).filter (fun r => !named.contains r) })
/-- A rehash in progress goes on: the journalled step starts again, or, where its journal entry is unreadable, its buckets are revalidated (R315). -/
def State.revalRehash (s : State) : State :=
  if s.rd Reg.FLOW.REHASH_RUN = 0 then s
  else
    let s := match s.flow.journal with
      | none => s
      | some n => if s.flt.jFail.get 4098 ≠ 0 then (s.verifyStep n).wr Reg.FLOW.REHASH_STEP (n + 1) else s.wr Reg.FLOW.REHASH_STEP n
    (s.setFlow (fun f => { f with rehashAt := s.time.beat })).rehashRecord
/-- REVALIDATION (R310, step 6): after the boot of a warm reset. -/
def execRevalidation (s : State) : Host.Outcome State Fault Refusal :=
  if ¬ s.sec.warm ∨ s.sec.reval ∨ s.rd Reg.DEV.STAGE ≠ 4 then .next s
  else
    let s := s.ctxs.keys.foldl (fun t c => t.revalCtx (some c)) (s.revalCtx none)
    let s := ((s.revalRules.revalFlow).revalRehash).restoreCells (fun _ => true)
    .next { s with sec := { s.sec with reval := true }, flt := { s.flt with jFail := [] } }
/-- A record of CLASS 14 (R294, R310): ADDR holds R_B, COUNT and SEEN the packets received and resident before the reset, EXPECT those that had left
(assumption 69). -/
def State.resetRecord (s : State) : State :=
  let t := s.flt.totals
  s.fault { cls := 14, scope := 6, block := Blk.DEV, addr := s.flt.resetBeat, count := t.getD 0 0, expect := ((t.drop 1).take 6).sum, seen := t.getD 7 0 }
/-- What both a START and the end of a warm reset do: the links train, and the packet path runs. -/
def State.dataPath (s : State) : State :=
  let s := { s with time := { s.time with started := true } }.wr Reg.DEV.STAGE 5
  (s.wr Reg.FLOW.HIST_RINGS (Nat.min (s.regionSize 1 / 2048) 67108864)).retrainPorts
/-- SERVICE_RESUME (R310, step 7): service resumes without a START. A device-caused outage is charged (R308). -/
def execServiceResume (s : State) : Host.Outcome State Fault Refusal :=
  if ¬ s.sec.warm ∨ ¬ s.sec.reval then .next s
  else
    let s := { s with sec := { s.sec with warm := false, reval := false } }
    let out := (s.time.beat - s.flt.resetBeat) * s.flt.lastEpochPkts / 65536
    let s := if s.flt.resetDev then (s.bump Reg.LEDG.AV_FLOSS 0 0 0 out).bump Reg.LEDG.AV_PKTS 0 0 0 out else s
    .next (((s.event Blk.DEV 0 0).dataPath).resetRecord)

end Sys2Proof.Machine
end

