-- ==== Sys2Proof/Machine/Boot.lean ====
section
/-! DEFINITION. Power-up and boot (R334 to R336), firmware (R338 to R340), the settings ledger (R345 to R349) and debug tokens (R350 to R352). -/

namespace Sys2Proof.Machine

open Sys2Proof

/-! ### Firmware images (R338, R339) -/

/-- An image against R339, as BOOT_WHY and FW_RESULT code the first failure (R353): 0 valid, 1 format, 2 body digest, 3 key digest, 4 ECDSA, 5 LMS,
6 key revoked, 7 rollback, 8 empty. -/
def State.fwCheck (s : State) (img : List Byte) : Nat :=
  let key := leAt img 6 1
  let len := leAt img 8 4
  let digest := Config.sha384 (img.take 64)
  let ecPub := slice img 160 96
  let lmsPub := slice img 256 56
  let zero (off n : Nat) : Bool := (slice img off n).all (· == 0)
  if img.isEmpty then 8
  else if leAt img 0 4 ≠ 0x5A46574D ∨ leAt img 4 2 ≠ 1 ∨ 4 < key ∨ 64 < leAt img 7 1 ∨ len ≠ img.length ∨ len < 4096 ∨ 16777216 < len ∨ ¬ zero 12 4 ∨ ¬ zero 2084 2012 then 1
  else if slice img 16 48 ≠ Config.sha384 (img.drop 4096) then 2
  else if Config.romKeyDigest key ≠ Config.sha384 (ecPub ++ lmsPub) then 3
  else if ¬ Config.ecdsaVerify ecPub digest (slice img 64 96) then 4
  else if ¬ Config.lmsVerify lmsPub digest (slice img 312 1772) then 5
  else if s.revoked key then 6
  else if leAt img 7 1 < s.arbCount then 7
  else 0
/-- Why a bank is not valid. A bank whose write was torn is not valid: its format is incomplete (R340). -/
def State.bankWhy (s : State) (b : FwBank) : Nat := if b.torn then 1 else s.fwCheck b.img
/-- The image ROM boots, with its BANK code: the valid bank of higher SVN, of equal ones the bank written last, else an allowed recovery image (R334, R339). -/
def State.bootImage (s : State) : Option (Nat × List Byte) :=
  let a := s.sec.bankA
  let b := s.sec.bankB
  let flash := decide (s.sec.bootSrc ≤ 1)
  let okA := flash && s.bankWhy a == 0
  let okB := flash && s.bankWhy b == 0
  let rec_ := if s.sec.bootSrc = 1 ∨ s.sec.bootSrc = 2 then s.sec.recovery.map (fun r => (2, r)) else none
  if okA && okB then
    if leAt a.img 7 1 = leAt b.img 7 1 then (if b.order < a.order then some (0, a.img) else some (1, b.img))
    else if leAt b.img 7 1 < leAt a.img 7 1 then some (0, a.img) else some (1, b.img)
  else if okA then some (0, a.img)
  else if okB then some (1, b.img)
  else rec_

/-! ### Stages (R334, R335) -/

/-- Set STAGE, with its event (R377). -/
def State.setStage (s : State) (n : Nat) : State := (s.wr Reg.DEV.STAGE n).event Blk.DEV 0 0
/-- Stage n of a boot in progress. After a thermal trip only a cold reset boots again (R399). -/
def State.inStage (s : State) (n : Nat) : Bool := s.sec.booting && s.sec.pwrGood && s.sec.resetN && !s.flt.tripped && decide (s.rd Reg.DEV.STAGE = n)
/-- The active Zormi level of a cold reset (R4, R349). -/
def State.coldLevel (s : State) : Nat :=
  match s.ledgerValue 1 with
  | some v => if leAt v 0 1 = 1 then 1 else 2
  | none => if s.sec.compat then 1 else 2
/-- PWR_GOOD_RISE (R334, R335): the straps are sampled, and ROM starts once RESET_N is high too. -/
def execPwrGoodRise (bootSrc : Fin 4) (compatL1 herdEn : Bool) (s : State) : Host.Outcome State Fault Refusal :=
  if s.sec.pwrGood then .next s
  else
    let s := if s.rd Reg.DEV.RESET_CAUSE = 0 then s.wr Reg.DEV.RESET_CAUSE 1 else s
    .next { s with sec := { s.sec with pwrGood := true, bootSrc := bootSrc.val, compat := compatL1, herdEn := herdEn, booting := s.sec.resetN } }
/-- STAGE_FIRMWARE (R335, R339): ROM has read the settings ledger and selected an image. -/
def execStageFirmware (s : State) : Host.Outcome State Fault Refusal :=
  if ¬ s.inStage 1 then .next s
  else
    let s := (s.wr Reg.SEC.BOOT_WHY_A (s.bankWhy s.sec.bankA)).wr Reg.SEC.BOOT_WHY_B (s.bankWhy s.sec.bankB)
    match s.bootImage with
    | none => .next s
    | some (bank, img) =>
      let s := ((s.wr Reg.SEC.BANK bank).wr Reg.SEC.KEY (leAt img 6 1)).wr Reg.SEC.SVN (leAt img 7 1)
      let level := if s.sec.warm then s.sec.level else s.coldLevel
      .next (({ s with sec := { s.sec with running := some img, level := level, domain := s.ledgerValue 2, owner := s.ledgerValue 6 } }).setStage 2)
/-- STAGE_CAPABILITY (R335): a unit whose built-in test fails is reported withdrawn. -/
def execStageCapability (failed : List Unit7) (s : State) : Host.Outcome State Fault Refusal :=
  if s.inStage 2 then .next (failed.foldl (fun t u => t.unitOut u true) (s.setStage 3)) else .next s
/-- STAGE_READY (R335): the pages open. A thermal trip is recorded (R399). -/
def execStageReady (s : State) : Host.Outcome State Fault Refusal :=
  if ¬ s.inStage 3 then .next s
  else
    let s := { s with sec := { s.sec with booting := false } }.setStage 4
    if s.flt.tripRecord then .next { s.fault { cls := 10, scope := 6, action := 5, block := Blk.DEV } with flt := { (s.fault { cls := 10, scope := 6, action := 5, block := Blk.DEV }).flt with tripRecord := false } }
    else .next s
/-- BOOT_FAIL (R335): no valid firmware, and no recovery allowed or received. -/
def execBootFail (s : State) : Host.Outcome State Fault Refusal :=
  if s.inStage 1 ∧ s.bootImage.isNone then
    .next ((((s.wr Reg.SEC.BOOT_WHY_A (s.bankWhy s.sec.bankA)).wr Reg.SEC.BOOT_WHY_B (s.bankWhy s.sec.bankB))).setStage 7)
  else .next s
/-- RECOVERY_IMAGE (R339): received over the sideband, it must pass the same checks. -/
def execRecoveryImage (img : List Byte) (s : State) : Host.Outcome State Fault Refusal :=
  if s.inStage 1 ∧ (s.sec.bootSrc = 1 ∨ s.sec.bootSrc = 2) ∧ s.fwCheck img = 0 then .next { s with sec := { s.sec with recovery := some img } } else .next s

/-! ### Firmware update (R340) -/

/-- FW_RESULT, with the event (R377). -/
def State.fwResult (s : State) (n : Nat) : State := (s.wr Reg.SEC.FW_RESULT n).event Blk.SEC 0 0
/-- FW_GO (R340, R353): the image is checked, then written into the bank that is not running. A recovery image runs from no bank; the update goes to
bank A (assumption 70). -/
def execFwGo (src : Source) (s : State) : Host.Outcome State Fault Refusal :=
  s.basicCmd src (fun s =>
    let a := s.rd Reg.SEC.FW_ADDR
    let n := s.rd Reg.SEC.FW_LEN
    let img := Mem.readN s.hbm a n
    if s.sec.fwPend.isSome then s.auditCmd src Reg.SEC.FW_GO 0 1 3 0 3
    else if ¬ s.inRegion 3 a n then (s.auditCmd src Reg.SEC.FW_GO 0 1 3 0 3).fwResult 9
    else if s.fwCheck img ≠ 0 then (s.auditCmd src Reg.SEC.FW_GO 0 1 3 0 3).fwResult (s.fwCheck img)
    else
      let s := s.auditCmd src Reg.SEC.FW_GO 0 1 0 0 3
      { s with sec := { s.sec with fwPend := some (s.rd Reg.SEC.BANK == 0, img) } }) true
/-- FW_WRITE_END (R340): the new image runs from the next reset. -/
def execFwWriteEnd (s : State) : Host.Outcome State Fault Refusal :=
  match s.sec.fwPend with
  | none => .next s
  | some (b, img) =>
    let bank : FwBank := { img := img, order := s.sec.writes + 1 }
    let sec := if b then { s.sec with bankB := bank } else { s.sec with bankA := bank }
    .next ({ s with sec := { sec with fwPend := none, writes := s.sec.writes + 1 } }.fwResult 0)

/-! ### The settings ledger (R345 to R348) -/

/-- The bytes an array of 32-bit registers holds, byte 4i in bits [7:0] of word i. -/
def State.regBytes (s : State) (f : Field) : List Byte := (List.range f.count).flatMap (fun i => leBytes 4 (s.rd f 0 i))
/-- Records a slot may hold (R345). -/
def slotCap (k : Nat) : Nat := match k with | 1 => 4 | 2 => 8 | 3 => 64 | 4 => 4 | 5 => 4 | 6 => 4 | _ => 0
/-- Bytes of a slot's value. -/
def slotLen (k : Nat) : Nat := match k with | 1 => 1 | 2 => 16 | 4 => 1 | 5 => 4 | 6 => 49 | _ => 0
/-- A value inside the table of R345, with the rest of the field zero. -/
def slotValueOk (k : Nat) (v : List Byte) : Bool :=
  let x := v.take (slotLen k)
  let body := match k with
    | 1 => leNat x == 1 || leNat x == 2
    | 2 => x.any (· != 0)
    | 3 => true
    | 4 => decide (leNat x ≤ 4)
    | 5 => decide (leNat x < 32)
    | 6 => decide (leAt x 48 1 < 2)
    | _ => false
  body && (v.drop (slotLen k)).all (· == 0)
/-- RESULT of a ledger message (R346, R354), by the first failure in the manual's order. A wrong MAGIC, SLOT or reserved byte counts as a value outside the
table (assumption 71). -/
def State.ledgerCheck (s : State) (msg pub sig : List Byte) : Nat :=
  let slot := leAt msg 4 1
  let value := slice msg 16 64
  let first := slot == 6 && (s.ledgerValue 6).isNone
  let digest := Config.sha384 pub
  let owner := if first then some (value.take 48) else (s.ledgerValue 6).map (·.take 48)
  let n := (s.sec.slots.get slot).length
  match if s.sec.setPend.isSome then some 7 else if owner.isNone then some 6 else none with
  | some r => r
  | none =>
    if owner ≠ some digest ∨ ¬ Config.ecdsaVerify pub (Config.sha384 msg) sig then 1
    else if leAt msg 8 8 ≠ Config.serial.toNat then 3
    else if leAt msg 5 1 ≠ n + 1 then 2
    else if 1 ≤ slot ∧ slot ≤ 6 ∧ slotCap slot ≤ n then 4
    else if leAt msg 0 4 ≠ 0x5A534554 ∨ leAt msg 6 2 ≠ 0 ∨ ¬ slotValueOk slot value then 5
    else if slot = 3 ∧ s.rd Reg.SEC.SVN < s.arbCount + 1 then 8
    else if slot = 4 ∧ (leAt value 0 1 = s.rd Reg.SEC.KEY ∨ s.revoked (leAt value 0 1)) then 8
    else 0
/-- LEDGER_WRITE (R346, R347). -/
def execLedgerWrite (src : Source) (s : State) : Host.Outcome State Fault Refusal :=
  s.basicCmd src (fun s =>
    let msg := s.regBytes Reg.SET.MSG
    let pub := s.regBytes Reg.SET.PUBKEY
    let r := s.ledgerCheck msg pub (s.regBytes Reg.SET.SIG)
    let slot := leAt msg 4 1
    let signer := (Config.sha384 pub).take 8
    let s := s.audit { block := Blk.SET, off := Reg.SET.GO.off, source := src.num, result := if r = 0 then 0 else 3, new := 1, signer := leNat signer, ctx := slot, kind := 1 }
    if r ≠ 0 then s.wr Reg.SET.RESULT r
    else { s with sec := { s.sec with setPend := some (slot, { value := slice msg 16 (slotLen slot), beat := s.time.beat, signer := signer, committed := true }) } }) true
/-- LEDGER_WRITE_END (R347): the record and its commit word are programmed, or the record stays torn. Before the data path starts no boundary comes, and
an OWNER or a HERD_DOMAIN is in effect at once. -/
def execLedgerWriteEnd (torn : Bool) (s : State) : Host.Outcome State Fault Refusal :=
  match s.sec.setPend with
  | none => .next s
  | some (slot, r) =>
    let s : State := { s with sec := { s.sec with setPend := none, slots := s.sec.slots.mod slot (fun l => l ++ [{ r with committed := !torn }]) } }
    let s := if s.time.started then s else { s with sec := { s.sec with owner := s.ledgerValue 6, domain := s.ledgerValue 2 } }
    .next (((if torn then s else s.wr Reg.SET.RESULT 0)).event Blk.SET 0 0)
/-- What the ledger puts into effect at a beat boundary (R345): the owner, and the domain while the device is ALONE. -/
def State.ledgerEffects (s : State) : State :=
  let s := { s with sec := { s.sec with owner := s.ledgerValue 6 } }
  if s.herdState = 0 ∧ s.sec.domain ≠ s.ledgerValue 2 then { s with sec := { s.sec with domain := s.ledgerValue 2 } }.retrainPorts else s

/-! ### Debug tokens (R350 to R352) -/

/-- Flocks in debug mode leave it and stay withdrawn until a re-test (R351, R368). -/
def State.leaveDebug (s : State) (f : Nat) : State := { s with flocks := s.flocks.mod f (fun x => { x with debug := false, halted := false, step := false }) }
/-- A token ends (R351): UNLOCK clears, the JTAG port closes, and debug mode is left. -/
def State.endToken (s : State) : State :=
  match s.auth.token with
  | none => s
  | some _ =>
    let s := (s.flocks.filter (fun e => e.2.debug)).foldl (fun t e => t.leaveDebug e.1) s
    ({ s with auth := {}, sec := { s.sec with jtag := false, unlock := none } }).event Blk.DEV 0 2
/-- A token starts at the boundary of its acceptance, where any other one ends. -/
def State.startToken (s : State) (t : Token) (jtag : Bool) : State :=
  let s := s.endToken
  { s with auth := { token := some t }, sec := { s.sec with jtag := jtag && bits t.perms 3 1 == 1 } }
/-- DBG_RESULT of a token (R351, R353). -/
def State.tokenCheck (s : State) (tok pub : List Byte) : Nat :=
  match s.sec.owner with
  | none => 6
  | some o =>
    if leAt tok 0 4 ≠ 0x5A444247 ∨ Config.sha384 pub ≠ o.take 48 ∨ ¬ Config.ecdsaVerify pub (Config.sha384 (tok.take 64)) (slice tok 64 96) then 1
    else if leAt tok 8 8 ≠ Config.serial.toNat then 2
    else if leAt tok 16 8 ≠ s.sec.nonce.toNat then 3
    else if 32 ≤ leAt tok 4 4 ∨ leAt tok 4 4 &&& ((s.ledgerValue 5).map leNat).getD 0 ≠ leAt tok 4 4 then 4
    else if leAt tok 24 8 ≤ s.time.beat then 5
    else 0
/-- A token is presented. -/
def State.present (s : State) (tok pub : List Byte) (jtag : Bool) : State :=
  let r := s.tokenCheck tok pub
  let s := (s.wr Reg.SEC.DBG_RESULT r).event Blk.SEC 0 1
  if r ≠ 0 then s
  else
    let t : Token := { perms := leAt tok 4 4, expiry := leAt tok 24 8, flocks := BitVec.ofNat 256 (leAt tok 32 32) }
    let s := s.drawNonce
    if s.time.started then s.later (.tokenStart t jtag) else s.startToken t jtag
/-- The audit record of a token. -/
def State.tokenAudit (s : State) (src : Source) (pub : List Byte) (r : Nat) : State :=
  s.audit { block := Blk.SEC, off := Reg.SEC.DBG_GO.off, source := src.num, result := if r = 0 then 0 else 3, new := 1, signer := leNat ((Config.sha384 pub).take 8), kind := 4 }
/-- DBG_GO (R351). -/
def execDbgGo (src : Source) (s : State) : Host.Outcome State Fault Refusal :=
  s.basicCmd src (fun s =>
    let tok := s.regBytes Reg.SEC.DBG_TOKEN
    let pub := s.regBytes Reg.SEC.DBG_PUBKEY
    (s.tokenAudit src pub (s.tokenCheck tok pub)).present tok pub false) true
/-- DBG_REVOKE (R351). -/
def execDbgRevoke (src : Source) (s : State) : Host.Outcome State Fault Refusal :=
  s.basicCmd src (fun s =>
    let s := s.auditCmd src Reg.SEC.DBG_REVOKE 0 2 0 0 4
    if s.time.started then s.later .tokenEnd else s.endToken) true
/-- A token whose EXPIRY beat has come ends (R351). -/
def State.tokenBeat (s : State) : State :=
  match s.auth.token with
  | some t => if t.expiry ≤ s.time.beat then s.endToken else s
  | none => s
/-- TOKEN_EXPIRY (R351): the boundary of the EXPIRY beat does it too. -/
def execTokenExpiry (s : State) : Host.Outcome State Fault Refusal := .next s.tokenBeat
/-- JTAG_MAILBOX (R352): a token presented exactly as through SEC; one that holds JTAG opens the port. -/
def execJtagMailbox (token : List Word) (pubkey : List Word) (s : State) : Host.Outcome State Fault Refusal :=
  let tok := (token.flatMap (fun w => leBytes 4 w.toNat)).take 160
  let pub := (pubkey.flatMap (fun w => leBytes 4 w.toNat)).take 96
  if s.pagesOpen then .next ((s.tokenAudit .jtag pub (s.tokenCheck tok pub)).present tok pub true) else .next s

end Sys2Proof.Machine
end

