-- ==== Sys2Proof/Machine/Calib.lean ====
section
/-! DEFINITION. Calibration (R318 to R321, R332), ageing sensors, the margin planner and its forecast (R326 to R331, R333), and the environment
(R391, R394, R398, R399). -/

namespace Sys2Proof.Machine

open Sys2Proof

/-! ### The calibration store (R318 to R320) -/

/-- A record exists at the index. -/
def calExists (i : Nat) : Bool :=
  decide (i ≤ 0x2FF) || (decide (0x400 ≤ i) && decide (i ≤ 0x7FF)) || (decide (0x800 ≤ i) && decide (i ≤ 0x933)) || (decide (0x1000 ≤ i) && decide (i ≤ 0x21FF))
/-- The record of an index: as the factory wrote it until a user write. -/
def State.calRec (s : State) (i : Nat) : CalRec := (s.cal.recs.find? i).getD { value := (Config.calFactory i).1, factory := true }
/-- A value lies in the record's range; thermal offsets are signed. -/
def calInRange (i : Nat) (v : Word) : Bool :=
  let (_, lo, hi) := Config.calFactory i
  if 0x280 ≤ i ∧ i ≤ 0x2BF then decide (lo.toInt ≤ v.toInt) && decide (v.toInt ≤ hi.toInt) else decide (lo.toNat ≤ v.toNat) && decide (v.toNat ≤ hi.toNat)
/-- CAL_RESULT of a write: 0 accepted. -/
def State.calCheck (s : State) (i : Nat) (v : Word) (force : Bool) : Nat :=
  if ¬ calExists i then 3 else if ¬ force ∧ ¬ calInRange i v then 1 else if 10000 ≤ (s.calRec i).count then 2 else 0
/-- A write of a record starts, or is refused. The calibration command itself is audited with KIND 2. -/
def State.calGo (s : State) (src : Source) (f : Field) (force : Bool) : State :=
  let i := s.rd Reg.CAL.CAL_SEL
  let v := BitVec.ofNat 32 (s.rd Reg.CAL.CAL_NEW)
  let r := s.calCheck i v force
  let res := if s.cal.pend.isSome ∨ r = 2 ∨ r = 3 then 3 else if r = 1 then 1 else 0
  let s := s.audit { block := Blk.CAL, off := f.off, source := src.num, result := res, old := (s.calRec i).value.toNat, new := v.toNat, ctx := i, kind := 2 }
  if s.cal.pend.isSome then s
  else if r ≠ 0 then s.wr Reg.CAL.CAL_RESULT r
  else { s with cal := { s.cal with pend := some (i, v) } }
/-- CAL_WRITE (R319). -/
def execCalWrite (src : Source) (s : State) : Host.Outcome State Fault Refusal := s.basicCmd src (fun s => s.calGo src Reg.CAL.CAL_WRITE false)
/-- CAL_FORCE (R319). -/
def execCalForce (src : Source) (s : State) : Host.Outcome State Fault Refusal :=
  s.basicCmd src (fun s => if s.auth.unlocked then s.calGo src Reg.CAL.CAL_FORCE true else s.auditCmd src Reg.CAL.CAL_FORCE 0 1 2)
/-- CAL_WRITE_END (R319, R320): the value stands; a torn write leaves the old or the new one, and its count is consumed in either case. -/
def execCalWriteEnd (torn : Bool) (s : State) : Host.Outcome State Fault Refusal :=
  match s.cal.pend with
  | none => .next s
  | some (i, v) =>
    let (d, s) := if torn then s.fresh else (1, s)
    let old := s.calRec i
    let new : CalRec := if d.getLsbD 0 then { value := v, factory := false, count := old.count + 1 } else { old with count := old.count + 1 }
    let dirty := if 0x1000 ≤ i then s.cal.dirty.filter (· ≠ (i - 0x1000) / 16) ++ [(i - 0x1000) / 16] else s.cal.dirty
    .next (({ s with cal := { s.cal with pend := none, recs := s.cal.recs.put i new, dirty := dirty } }.wr Reg.CAL.CAL_RESULT 0).event Blk.CAL 0 0)

/-! ### SerDes adaptation (R321) -/

/-- A lane is frozen at its present coefficients. -/
def State.frozen (s : State) (herd : Bool) (lane : Nat) : Bool :=
  if herd then (if lane < 64 then bits (s.act Reg.CAL.ADAPT_FREEZE_H0) lane 1 else bits (s.act Reg.CAL.ADAPT_FREEZE_H1) (lane - 64) 1) == 1
  else bits (s.act Reg.CAL.ADAPT_FREEZE_E) lane 1 == 1
/-- ADAPT_STEP (R321): Ethernet lanes are 0 to 63; a lane steps at most once every 1,024 schedule cycles. -/
def execAdaptStep (herd : Bool) (lane : Fin 96) (atLimit : Bool) (s : State) : Host.Outcome State Fault Refusal :=
  let k := if herd then 64 + lane.val else lane.val
  if s.frozen herd lane.val ∨ (¬ herd ∧ 64 ≤ lane.val) ∨ s.now < s.cal.adaptAt.get k then .next s
  else
    let s := { s with cal := { s.cal with adaptAt := s.cal.adaptAt.set k (s.now + 1024) } }.bump Reg.CAL.ADAPT_STEPS
    if ¬ atLimit then .next s
    else if herd then .next (s.wr Reg.CAL.HERD_EYE (setBits (s.rd Reg.CAL.HERD_EYE 0 lane.val) 16 1 1) 0 lane.val)
    else .next (s.wr Reg.CAL.ADAPT_AT_LIMIT 1 0 lane.val)
/-- EYE_UPDATE (R321): every 2^16 beats. -/
def execEyeUpdate (herd : Bool) (lane : Fin 96) (h v : BitVec 8) (s : State) : Host.Outcome State Fault Refusal :=
  if s.time.beat % 65536 ≠ 0 then .next s
  else if herd then .next (s.wr Reg.CAL.HERD_EYE (setBits (s.rd Reg.CAL.HERD_EYE 0 lane.val) 0 16 (h.toNat + 256 * v.toNat)) 0 lane.val)
  else if 64 ≤ lane.val then .next s
  else .next ((s.wr Reg.CAL.EYE_H h.toNat 0 lane.val).wr Reg.CAL.EYE_V v.toNat 0 lane.val)

/-! ### Ageing (R326 to R331) -/

/-- An island with ageing sensors (R323). -/
def sensorIsland (i : Nat) : Bool := decide (i ≤ 24) || (decide (32 ≤ i) && decide (i ≤ 287))
/-- VMIN and VMAX of an island in mV (R393). -/
def voltRange (i : Nat) : Nat × Nat := if 16 ≤ i ∧ i ≤ 23 then (750, 900) else if i ≤ 24 then (700, 850) else (620, 850)
/-- Required clock of an island in MHz; 0 for a flock without one (R327). -/
def State.required (s : State) (i : Nat) : Nat :=
  if 16 ≤ i ∧ i ≤ 23 then 2400
  else if i ≤ 24 then 1200
  else
    let f := i - 32
    ((s.versions.filter (fun v => v.2.flocks.contains f)).map (fun v =>
      match v.2.sects.find? (fun t => t.type == 1) with
      | some t => leAt t.body (2 * f) 2
      | none => 0)).foldl Nat.max 0
/-- The clock the planner gives a flock (R327). -/
def flockClock (policy req ceil : Nat) : Nat :=
  if req = 0 then 0 else if policy = 1 then Nat.max req (Nat.min 1200 ceil) else ceilDiv req 25 * 25
/-- Voltage after a reading (R327): a step of 5 mV by SLACK, held to the island's range. -/
def nextVolt (i v : Nat) (slack : Int) : Nat :=
  let (lo, hi) := voltRange i
  let w := if slack < 20 then v + 5 else if 40 < slack then v - 5 else v
  Nat.max lo (Nat.min hi w)
/-- The unit of an island, where the DMC keeps a state for it (R305). -/
def islandUnit (i : Nat) : Option Unit7 := if i < 16 then unitOf 1 i else if i < 24 then unitOf 5 (i - 16) else if 32 ≤ i then unitOf 2 (i - 32) else none
/-- A change of an island's state (R330): its event and a record of CLASS 13. -/
def State.setIsland (s : State) (i st : Nat) : State :=
  if s.rd Reg.AGE.ISL_STATE 0 0 i = st then s
  else
    let s := s.wr Reg.AGE.ISL_STATE st 0 0 i
    let s := if st = 1 then s.bump Reg.AGE.ALERTS else if st = 2 then s.bump Reg.AGE.LIMITS else s
    let s := if 1 ≤ st ∧ st ≤ 3 then s.event Blk.AGE 0 (st - 1) else s
    s.fault { cls := 13, block := Blk.AGE, unit := i }
/-- An island's clock is set (R327); a flock's island cycles are counted on from here at the new rate (R220). -/
def State.setClock (s : State) (i v : Nat) : State :=
  let f := i - 32
  let base := s.islStart f
  let s := if 32 ≤ i ∧ i < 288 ∧ s.rd Reg.AGE.CLK_MHZ 0 0 i ≠ v then { s with flocks := s.flocks.mod f (fun x => { x with clkBase := base, clkBeat := s.time.beat }) } else s
  s.wr Reg.AGE.CLK_MHZ v 0 0 i
/-- The planner acts on a reading (R327). -/
def State.planIsland (s : State) (i : Nat) (slack : Int) : State :=
  if s.act Reg.AGE.PLANNER_HOLD = 1 then s
  else
    let req := s.rd Reg.AGE.REQ_MHZ 0 0 i
    let v := s.rd Reg.AGE.VOLT_MV 0 0 i
    let w := if 32 ≤ i ∧ req = 0 then (voltRange i).1 else nextVolt i v slack
    let s := if w = v then s else (s.wr Reg.AGE.VOLT_MV w 0 0 i).bump Reg.AGE.VSTEPS
    s.setClock i (if i < 32 then req else flockClock (s.act Reg.AGE.CLK_POLICY 0 0 i) req (s.rd Reg.AGE.CEIL_MHZ 0 0 i))
/-- SENSOR_READING (R326 to R328, R330): island i is read in the beat whose count mod 2^20 is 4i, once. An edge tap that fails at the present voltage and clock
is a dispute of kind HEALTH; for the port core, for which the DMC keeps no state, it puts the device in the safe forwarding state (assumption 72). -/
def execSensorReading (i : Fin 320) (slack : Int) (ro : BitVec 16) (ceil : BitVec 16) (edgeFail : Bool) (s : State) : Host.Outcome State Fault Refusal :=
  let i := i.val
  if ¬ sensorIsland i ∨ s.time.beat % 2 ^ 20 ≠ 4 * i ∨ s.cal.readAt = s.time.beat + 1 then .next s
  else
    let s := { s with cal := { s.cal with readAt := s.time.beat + 1 } }.bump Reg.AGE.READINGS
    let s := if s.cal.dirty.contains i then { s with cal := { s.cal with dirty := s.cal.dirty.filter (· ≠ i), hist := s.cal.hist.erase i } } else s
    let cap := if 16 ≤ i ∧ i ≤ 23 then 2400 else 1200
    let s := (s.wr Reg.AGE.SLACK_PS (ofSigned 16 slack) 0 0 i).wr Reg.AGE.RO_COUNT ro.toNat 0 0 i
    let s := ((s.wr Reg.AGE.CEIL_MHZ (Nat.min cap ceil.toNat) 0 0 i).wr Reg.AGE.REQ_MHZ (s.required i) 0 0 i).planIsland i slack
    if ¬ edgeFail ∨ s.rd Reg.AGE.ISL_STATE 0 0 i = 3 then .next s
    else
      let s := s.setIsland i 3
      match islandUnit i with
      | some u => if s.isOut u then .next s else .next (s.dispute u)
      | none => .next (s.later (.devSafe true))
/-- Numerator and denominator of the least-squares slope of values, newest first, in MHz per interval (R329). -/
def fitLine (ys : List Int) : Int × Int :=
  let n : Int := ys.length
  let pts := ys.reverse.zipIdx
  let sx : Int := (pts.map (fun p => (p.2 : Int))).sum
  let sy : Int := ys.sum
  let sxx : Int := (pts.map (fun p => (p.2 : Int) * p.2)).sum
  let sxy : Int := (pts.map (fun p => (p.2 : Int) * p.1)).sum
  (n * sxy - sx * sy, n * sxx - sx * sx)
/-- Seconds of a forecast interval, times 3 × 10^9: 2^33 beats of 1,280 / 3 ns. -/
def intervalNs3 : Nat := 2 ^ 33 * 1280
/-- TTL_DAYS: the margin over the line's fall per interval, in whole days; 65,535 where the line does not fall or has fewer than 24 points. -/
def ttlDays (ys : List Int) (margin : Int) : Nat :=
  let (a, b) := fitLine ys
  if ys.length < 24 ∨ 0 ≤ a ∨ b ≤ 0 then 65535
  else Nat.min 65535 ((margin * b * intervalNs3) / (-a * (3000000000 * 86400 : Nat))).toNat
/-- ALERT_DAYS in force. -/
def State.alertDays (s : State) : Nat :=
  let x := s.act Reg.AGE.ALERT_DAYS_X
  if x = 0 then s.act Reg.AGE.ALERT_DAYS else Nat.min 365 x
/-- The forecast of one island that has been read. -/
def State.forecastIsland (s : State) (i : Nat) : State :=
  let ceil := s.rd Reg.AGE.CEIL_MHZ 0 0 i
  if ceil = 0 then s
  else
    let req := s.required i
    let ys := ((ceil : Int) :: s.cal.hist.get i).take 720
    let ttl := ttlDays ys ((ceil : Int) - req)
    let (a, b) := fitLine ys
    let s := { s with cal := { s.cal with hist := s.cal.hist.put i ys } }
    let s := ((s.wr Reg.AGE.REQ_MHZ req 0 0 i).wr Reg.AGE.TTL_DAYS ttl 0 0 i).wr Reg.AGE.FC_SLOPE (ofSigned 32 (if b = 0 then 0 else a * 1000 / b)) 0 0 i
    if s.rd Reg.AGE.ISL_STATE 0 0 i = 3 then s
    else
      let st := if 32 ≤ i ∧ req = 0 then 4 else if ceil < req then 2 else if ttl < s.alertDays then 1 else 0
      let s := s.setIsland i st
      if st = 2 ∧ 32 ≤ i then { s with flocks := s.flocks.mod (i - 32) (fun x => { x with worn := true }) } else s
/-- FORECAST (R329, R330): once every 2^33 beats. -/
def execForecast (s : State) : Host.Outcome State Fault Refusal :=
  if s.time.beat = 0 ∨ s.time.beat % 2 ^ 33 ≠ 0 ∨ s.cal.fcAt = s.time.beat + 1 then .next s
  else .next (((List.range 288).filter sensorIsland).foldl State.forecastIsland { s with cal := { s.cal with fcAt := s.time.beat + 1 } })
/-- VOLT_OVR (R333): of the island in ISL_SEL. -/
def execVoltOvr (src : Source) (mv : BitVec 16) (en : Bool) (s : State) : Host.Outcome State Fault Refusal :=
  s.expertCmd src Reg.AGE.VOLT_OVR_MV 0 (mv.toNat + 65536 * b2n en) (fun s =>
    let i := s.rd Reg.AGE.ISL_SEL
    (s.wr Reg.AGE.VOLT_OVR_MV mv.toNat 0 0 i).wr Reg.AGE.VOLT_OVR_EN (b2n en) 0 0 i)
/-- PLANNER_HOLD (R333). -/
def execPlannerHold (src : Source) (v : Bool) (s : State) : Host.Outcome State Fault Refusal :=
  s.expertCmd src Reg.AGE.PLANNER_HOLD 0 (b2n v) (fun s => s.wr Reg.AGE.PLANNER_HOLD (b2n v))

/-! ### The environment (R220, R295, R391, R394, R399) -/

/-- PLL_LOCK_LOSS (R220): a record, and the device safe forwarding state at the next beat boundary. -/
def State.pllLoss (s : State) : State := (s.fault { cls := 9, scope := 6, action := 5, block := Blk.TIME }).later (.devSafe true)
def execPllLockLoss (s : State) : Host.Outcome State Fault Refusal := .next s.pllLoss
/-- ENV_CRITICAL (R295, R398): a reading beyond a critical limit is an ENV fault. -/
def execEnvCritical (monitor : Nat) (s : State) : Host.Outcome State Fault Refusal :=
  .next ((s.fault { cls := 10, scope := 6, action := 5, block := Blk.DEV, unit := monitor }).later (.devSafe false))
/-- RAIL_EXCURSION (R394): recorded; nothing else changes. -/
def execRailExcursion (rail : Nat) (s : State) : Host.Outcome State Fault Refusal := .next (s.fault { cls := 10, scope := 6, block := Blk.DEV, unit := rail })
/-- REFCLK_FAULT (R391): while the data path runs. -/
def execRefclkFault (k : RefClock) (s : State) : Host.Outcome State Fault Refusal :=
  if ¬ s.time.started then .next s
  else
    match k with
    | .sys => .next s.pllLoss
    | .eth => .next ((List.range 32).foldl State.linkDown s)
    | .hl => .next ((List.range 12).foldl (fun t p => if 3 ≤ t.linkState p ∧ t.linkState p ≤ 6 then t.trainPort p else t) s)
    | .cxl => .next s.hostLossNow
/-- THERMTRIP (R399): THERMTRIP_N falls and stays low until the rails go. -/
def execThermtrip (s : State) : Host.Outcome State Fault Refusal := .next { s with flt := { s.flt with tripped := true, tripRecord := true } }

end Sys2Proof.Machine
end

