-- ==== Sys2Proof/Machine/Flags.lean ====
section
/-! DEFINITION. The computed words of the common page layout (R375 to R378): identification, capability, STATUS, OOS and the event summary. -/

namespace Sys2Proof.Machine

open Sys2Proof

/-! ### Pages (R372) -/

/-- Block and instance of page n, the page at BAR0 offset n × 0x1000; none where no page lies. -/
def pageOf (n : Nat) : Option (Nat × Nat) :=
  if n = 0 then some (Blk.DEV, 0)
  else if n ≤ 3 then some (Blk.ZCT, n - 1)
  else if n ≤ 12 then some (n - 1, 0)
  else if 16 ≤ n ∧ n ≤ 31 then some (Blk.PORT, n - 16)
  else if 32 ≤ n ∧ n ≤ 47 then some (Blk.LANE, n - 32)
  else if 48 ≤ n ∧ n ≤ 55 then some (Blk.TCAM, n - 48)
  else if 56 ≤ n ∧ n ≤ 63 then some (n - 37, 0)
  else if 64 ≤ n ∧ n ≤ 71 then some (Blk.HBMC, n - 64)
  else if 72 ≤ n ∧ n ≤ 83 then some (Blk.HLINK, n - 72)
  else if n = 84 then some (Blk.HERD, 0)
  else if n = 85 then some (Blk.CTX, 0)
  else if 256 ≤ n ∧ n ≤ 511 then some (Blk.FLOCK, n - 256)
  else none
/-- A page with expert fields of its own in 0x800 to 0xEFF (R372, R375). -/
def hasExpert (block : Nat) : Bool := block != Blk.ZCT && block != Blk.SET && block != Blk.SEC && block != Blk.DBG
/-- A page with debug registers (R375, R383). -/
def hasDebug (block : Nat) : Bool := block == Blk.FLOCK || block == Blk.HLINK

/-! ### CAP1, STATUS, OOS (R376, R377) -/

/-- CAP1 (R376). -/
def cap1 (block inst : Nat) : Nat :=
  if block = Blk.FLOCK then
    let (e, b, t) := unitMapOf inst
    ones 32 e + ones 32 b * 2 ^ 8 + ones 64 t * 2 ^ 16
  else if block = Blk.PORT then 1 - inst % 2
  else if block = Blk.HLINK then inst / 4 + inst / 2 % 2 * 4 + inst % 2 * 8
  else 0
/-- A replica is withdrawn. -/
def State.replicaWd (s : State) (r : Nat) : Bool := s.flt.wd.get (5 * 65536 + r)
/-- OOS of a page (R377). -/
def State.oos (s : State) (block inst : Nat) : Bool :=
  if block = Blk.PORT then !s.linkUp (2 * inst) && !s.linkUp (2 * inst + 1)
  else if block = Blk.LANE then (s.lanes.get inst).pass
  else if block = Blk.TCAM then s.replicaWd inst
  else if block = Blk.HLINK then s.linkState inst != 4
  else if block = Blk.FLOCK then (s.flocks.get inst).withdrawn
  else false
/-- STATUS of a page (R377, R384). -/
def State.status (s : State) (block inst : Nat) : Nat :=
  if block = Blk.DEV then
    s.rd Reg.DEV.STAGE + b2n s.devSafe * 2 ^ 3 + b2n s.auth.unlocked * 2 ^ 4 + b2n s.auth.token.isSome * 2 ^ 5 + s.sec.level * 2 ^ 6
  else if block = Blk.SET then b2n s.sec.setPend.isSome
  else if block = Blk.SEC then b2n s.sec.fwPend.isSome
  else if block = Blk.CXL then s.rd Reg.CXL.LINK_UP + s.rd Reg.CXL.CXL_MODE * 2
  else if block = Blk.LEDG then s.rd Reg.LEDG.ALERT_PEND
  else if block = Blk.CAL then b2n s.cal.pend.isSome
  else if block = Blk.PORT then
    s.rd Reg.PORT.PAIR_ERR_S0 inst + s.rd Reg.PORT.PAIR_ERR_S1 inst * 2 + b2n (s.linkUp (2 * inst)) * 4 + b2n (s.linkUp (2 * inst + 1)) * 8
  else if block = Blk.TCAM then s.rd Reg.TCAM.ENT_BUSY inst
  else if block = Blk.FLOW then s.rd Reg.FLOW.CMD_BUSY + s.rd Reg.FLOW.REHASH_RUN * 2
  else if block = Blk.LEARN then s.rd Reg.LEARN.CMD_BUSY
  else if block = Blk.HLINK then s.linkState inst
  else if block = Blk.HERD then s.herdState
  else if block = Blk.CTX then
    let x := s.ctxs.get s.ctxSel
    b2n (x.st == .checking || x.st == .staging || x.cmtPend || s.layout.cmtPend)
  else if block = Blk.FLOCK then
    let x := s.flocks.get inst
    b2n x.debug + b2n x.halted * 2 + b2n x.worn * 4
  else 0

/-! ### The event summary (R378) -/

/-- A page has an EVENT bit set whose EVENT_MASK bit is clear. -/
def State.pageEvent (s : State) (n : Nat) : Bool :=
  match pageOf n with
  | some (block, inst) => decide (s.eventLive block inst ≠ 0)
  | none => false
/-- Word i of EVT_SUM: bit k for page k; page 256 + f is that of FLOCK f. -/
def State.evtSum (s : State) (i : Nat) : Nat := ((List.range 32).map (fun b => b2n (s.pageEvent (32 * i + b)) * 2 ^ b)).sum

end Sys2Proof.Machine
end

