-- ==== Sys2Proof/Machine/Verdict.lean ====
section
/-! DEFINITION. Forming codes and the final action (R185 to R191, R197, R200), and policers (R262 to R264). -/

namespace Sys2Proof.Machine

open Sys2Proof

/-! ### Verdict descriptors (R185, R186) -/

/-- Word i of a version's verdict descriptor. -/
def Version.vd (v : Version) (i : Nat) : Nat := (v.vdesc.getD i 0).toNat
def Version.comb (v : Version) : Nat := bits (v.vd 0) 0 2
def Version.vmode (v : Version) : Nat := bits (v.vd 0) 2 2
def Version.kout (v : Version) : Nat := bits (v.vd 0) 4 4
def Version.first (v : Version) : Nat := bits (v.vd 0) 8 4
def Version.ncls (v : Version) : Nat := bits (v.vd 0) 12 4 + 1
def Version.nt (v : Version) : Nat := bits (v.vd 0) 16 4
def Version.sc (v : Version) (i : Nat) : Nat := bits (v.vd 0) (20 + 4 * i) 4
/-- The outputs a descriptor reads. -/
def Version.outputs (v : Version) : List Nat :=
  (if v.vmode = 1 then (List.range v.ncls).map (v.first + ·) else [v.kout]) ++ [v.sc 0, v.sc 1]
/-- Output k as an int32; none where a part of it has not arrived. -/
def CtxRes.output (r : CtxRes) (comb k : Nat) : Option Int :=
  match comb with
  | 0 => r.tree.find? k
  | 1 => r.mat.find? k
  | _ =>
    match r.tree.find? k, r.mat.find? k with
    | some a, some b => some (saturate 32 (a + b))
    | _, _ => none
/-- An output the descriptor reads has not arrived. -/
def CtxRes.missing (r : CtxRes) (v : Version) : Bool := v.outputs.any (fun k => (r.output v.comb k).isNone)
/-- The lowest index of the largest of a list of outputs, and that output. -/
def argmax : List (Nat × Int) → Option (Nat × Int)
  | [] => none
  | x :: t =>
    match argmax t with
    | some y => if x.2 < y.2 then some y else some x
    | none => some x
/-- The code of R186; none for a value outside 0 to 15 under DIRECT (CODE_RANGE). -/
def formCode (v : Version) (o : Nat → Int) : Option Nat :=
  match v.vmode with
  | 0 => if 0 ≤ o v.kout ∧ o v.kout ≤ 15 then some (o v.kout).toNat else none
  | 1 =>
    match argmax ((List.range v.ncls).map (fun i => (i, o (v.first + i)))) with
    | some (i, x) => some (if toSigned 32 (v.vd 1) ≤ x then (if i = 15 then (Config.wideCode v.ver).toNat else i + 1) else 0)
    | none => some 0
  | _ => some ((List.range v.nt).filter (fun i => decide (toSigned 32 (v.vd (2 + i)) ≤ o v.kout))).length

/-! ### Contexts of a packet -/

/-- The packet may have in-line work: it makes lookups, is not void, no slow-class and no later fragment (R43, R45, R47). -/
def Pkt.inlineWork (x : Pkt) : Bool := x.lk.searched && !x.vd.voidPkt && !x.slow && decide (x.i.parse.frag ≠ 2)
/-- Reason for which an enabled context gives NONE: down, or without a version of the right kind (R200, R203). -/
def State.ctxNone (s : State) (c kind : Nat) (v : Option Version) : Option Nat :=
  match v with
  | none => some (if (s.ctxs.get c).down = 4 then 4 else 3)
  | some v => if (s.ctxs.get c).down ≠ 0 then some (s.ctxs.get c).down else if v.kind ≠ kind then some 3 else none
/-- The version of CTX_A, or of CTX_B, where the context runs for the packet. -/
def State.runA (s : State) (x : Pkt) : Option Version :=
  if x.inlineWork ∧ Rule.enA x.lk.act ∧ s.ctxNone (Rule.ctxA x.lk.act) 1 (s.verA x) = none then s.verA x else none
def State.runB (s : State) (x : Pkt) : Option Version :=
  if x.inlineWork ∧ Rule.enB x.lk.act ∧ ¬ x.ft.mismB ∧ s.ctxNone (Rule.ctxB x.lk.act) 1 (s.verB x) = none then s.verB x else none

/-- A void set of a context (R200): counted once for a boundary. -/
def State.voidSet (s : State) (c b why : Nat) : State :=
  let x := s.ctxs.get c
  if x.voidAt.contains b then s
  else { s with ctxs := s.ctxs.set c { x with voidAt := (b :: x.voidAt).take 8, voidSets := x.voidSets + 1, voidDev := x.voidDev || decide (why ≤ 22) } }
/-- The reason of an output that has not arrived: the packet's feature vector was void (R106), or work was late (R144). -/
def Pkt.lateWhy (x : Pkt) : Nat := if x.ft.voidVec then 20 else 16
/-- Form the result of one context of a packet (R186). `why` is the reason of an output that has not arrived. -/
def formRes (v : Version) (why : Nat) (r : CtxRes) : CtxRes :=
  let r := if r.missing v then r.voided why else r
  match r.void with
  | some _ => { r with formed := true }
  | none =>
    let o (k : Nat) : Int := (r.output v.comb k).getD 0
    match formCode v o with
    | some c => { r with formed := true, code := c, s0 := saturate 16 (o (v.sc 0)), s1 := saturate 16 (o (v.sc 1)) }
    | none => { r.voided 27 with formed := true }
/-- A void result puts the packet in the safe forwarding state and counts a void set of its context. -/
def State.noteVoid (s : State) (pk : PktId) (b c : Nat) (r : CtxRes) : State :=
  match r.void with
  | some why => (s.modPkt pk (fun x => { x with vd := { x.vd with reasons := x.vd.reasons ++ [why] } })).voidSet c b why
  | none => s
/-- A verdict descriptor failed parity (R297): the context's result is void for every packet applied at the boundary; the second failure in an
epoch puts the context down. -/
def State.descBad (s : State) (c b : Nat) : State :=
  let x := s.ctxs.get c
  let s := { s with ctxs := s.ctxs.set c { x with vdFaults := x.vdFaults + 1 } }
  let s := s.fault { cls := 1, scope := 3, reason := 27, action := 1, block := Blk.VERD, ctx := c, count := x.vdFaults + 1 }
  let s := (s.resident.filter (fun p => decide (p.2.i.b = b) && !p.2.vd.released)).foldl (fun t p =>
    (t.modRes p.1 c false (·.voided 27)).modRes p.1 c true (·.voided 27)) s
  if x.vdFaults = 0 then s else s.later (.ctxDown c 3 true)
/-- VERDICT_FORM (R51, R186, R199, R200): in beat b + 4 the codes of the packet's in-line contexts are formed. The work of a packet released by deadline
bypass runs too: its result is discarded, its void sets count. -/
def execVerdictForm (pk : PktId) (badDesc : Bool) (s : State) : Host.Outcome State Fault Refusal :=
  match s.pkt? pk with
  | none => .next s
  | some x0 =>
    if (x0.vd.released ∧ ¬ x0.vd.bypass) ∨ s.time.beat < x0.i.b + 4 ∨ x0.vd.a.formed ∨ x0.vd.b.formed then .next s
    else
      let va := s.runA x0
      let vb := s.runB x0
      let s := if badDesc ∧ va.isSome then s.descBad (Rule.ctxA x0.lk.act) x0.i.b
        else if badDesc ∧ vb.isSome then s.descBad (Rule.ctxB x0.lk.act) x0.i.b else s
      match s.pkt? pk with
      | none => .next s
      | some x =>
        let a := va.map (fun v => formRes v x.lateWhy x.vd.a)
        let b := vb.map (fun v => formRes v x.lateWhy x.vd.b)
        let s := s.modPkt pk (fun x => { x with vd := { x.vd with a := a.getD x.vd.a, b := b.getD x.vd.b } })
        let s := match a with
          | some r => s.noteVoid pk x.i.b (Rule.ctxA x.lk.act) r
          | none => s
        .next (match b with
          | some r => s.noteVoid pk x.i.b (Rule.ctxB x.lk.act) r
          | none => s)
/-- RETURN_DEADLINE (R144): at schedule cycle 192 of beat b + 4 outputs that have not arrived at the flock's packets are void. -/
def execReturnDeadline (f : Flock) (s : State) : Host.Outcome State Fault Refusal :=
  let pks := ((List.range 64).map (fun i => s.tree.gset.get (f.val * 64 + i))).reduceOption
  .next (pks.foldl (fun t pk =>
    match t.pkt? pk with
    | none => t
    | some x =>
      if x.i.b + 4 ≠ t.time.beat ∨ t.time.cycle < 192 then t
      else
        let late (v : Option Version) (r : CtxRes) : Bool := (v.map (fun v => decide (v.comb ≠ 0) && r.missing v)).getD false
        t.modPkt pk (fun x => { x with vd := { x.vd with
          a := if late (t.runA x) x.vd.a then x.vd.a.voided x.lateWhy else x.vd.a,
          b := if late (t.runB x) x.vd.b then x.vd.b.voided x.lateWhy else x.vd.b } })) s)

/-! ### The final action (R187 to R192, R197, R198) -/

/-- What boundary b + 5 decides for a packet, before policing. `disp`: 0 released by FWD, 1 discarded as malformed, 2 host only as malformed
TO_HOST, 3 host only as slow-class fragment. -/
structure Final where
  disp : Nat := 0
  dec : Decision := {}
  reason : Nat := 0
  fvCand : Bool := false
  deriving DecidableEq, Repr, Inhabited

/-- Entry fields of an action table (R187). -/
def actEntry (v : Option Version) (code : Nat) : Nat := if code = 0 then 0 else ((v.map (fun v => (v.acts.getD code 0).toNat)).getD 0)
/-- The standing flow verdict applies (R191): its code and view. -/
def State.standing (s : State) (x : Pkt) : Option HotRec :=
  match x.lk.view with
  | some h => if x.inlineWork ∧ Rule.enF x.lk.act ∧ h.fvValid ∧ h.fvCtx = Rule.ctxF x.lk.act ∧ h.fvMv = x.ft.mvF ∧
      s.ctxNone (Rule.ctxF x.lk.act) 2 (s.verF x) = none then some h else none
  | none => none
/-- A stale flow verdict (R191). -/
def Pkt.stale (x : Pkt) : Bool :=
  x.inlineWork && Rule.enF x.lk.act && (x.lk.view.map (fun h => h.fvValid && h.fvCtx == Rule.ctxF x.lk.act && h.fvMv != x.ft.mvF)).getD false
/-- The candidates in the order A, B, F (R188): SRC, code, entry. -/
def State.candidates (s : State) (x : Pkt) : List (Nat × Nat × Nat) :=
  let a := if (s.runA x).isSome ∧ x.vd.a.code ≠ 0 then [(1, x.vd.a.code, actEntry (s.verA x) x.vd.a.code)] else []
  let b := if (s.runB x).isSome ∧ x.vd.b.code ≠ 0 then [(2, x.vd.b.code, actEntry (s.verB x) x.vd.b.code)] else []
  let f := match s.standing x with
    | some h => if h.fvCode ≠ 0 then [(3, h.fvCode, actEntry (s.verF x) h.fvCode)] else []
    | none => []
  a ++ b ++ f
/-- The winner (R188): the highest PRIO, equal PRIO in the order of the list. -/
def winnerOf (cs : List (Nat × Nat × Nat)) : Option (Nat × Nat × Nat) :=
  cs.foldl (fun w c =>
    match w with
    | none => some c
    | some b => if bits b.2.2 11 3 < bits c.2.2 11 3 then some c else some b) none
/-- The rule's action with the winner's entry over it (R189). -/
def applyEntry (act : ActWord) (e : Nat) : Decision :=
  let d : Decision := { fwd := Rule.fwd act, copy := Rule.copy act, mirror := Rule.mirror act, ses := Rule.ses act, queue := Rule.queue act }
  let d := if bits e 0 1 = 1 then { d with fwd := false } else d
  let d := if bits e 1 1 = 1 then { d with copy := true, mirror := false } else d
  let d := if bits e 2 1 = 1 then { d with mirror := true, ses := bits e 3 4, copy := false } else d
  if bits e 7 1 = 1 then { d with queue := bits e 8 3 } else d
/-- Reasons below 16 that hold for a classified packet (R197). -/
def State.softReasons (s : State) (x : Pkt) : List Nat :=
  let act := x.lk.act
  let down (en : Bool) (c kind : Nat) (v : Option Version) : List Nat := if en then (s.ctxNone c kind v).toList else []
  (if ¬ Rule.enA act ∧ ¬ Rule.enB act ∧ (s.standing x).isNone then [1] else []) ++ (if x.ft.mismB ∨ x.ft.mismF then [2] else [])
    ++ down (Rule.enA act) (Rule.ctxA act) 1 (s.verA x) ++ down (Rule.enB act) (Rule.ctxB act) 1 (s.verB x) ++ down (Rule.enF act) (Rule.ctxF act) 2 (s.verF x)
/-- The least of some reasons, and of none 0. -/
def leastReason : List Nat → Nat
  | [] => 0
  | a :: t => t.foldl Nat.min a
/-- The boundary at which a packet is applied (R51, R192). -/
def Pkt.applyAt (x : Pkt) : Nat := if x.vd.bypass then x.i.b else x.i.b + 5
/-- A stop holds the packet (R250, R251): it is applied at S or later, and was not accepted at or after S2. -/
def State.stopHolds (s : State) (x : Pkt) : Bool :=
  match s.herd.stopAt with
  | some S => decide (S ≤ x.applyAt) && (match s.herd.resumeAt with | some S2 => decide (x.i.b ≤ S2) | none => true)
  | none => false
/-- Scope reasons of 28 to 30 and deadline bypass, which take the packet whatever its lookups gave (R51, R199). -/
def State.hardReasons (s : State) (x : Pkt) : List Nat :=
  (if x.vd.bypass then [17] else []) ++ (if (s.lanes.get x.i.lane).pass then [if s.devSafe then 29 else 28] else []) ++ (if s.stopHolds x then [30] else [])
/-- Reasons of the results that are void, those voided after they were formed among them (R199). -/
def State.voidReasons (s : State) (x : Pkt) : List Nat :=
  (if (s.runA x).isSome then x.vd.a.void.toList else []) ++ (if (s.runB x).isSome then x.vd.b.void.toList else [])
/-- Reasons of 16 to 27 of a packet's own work; work that was due and not done counts as a missed beat (R17). Of a packet that leaves by a reason of its
scope, what was not done is not due (R51, R199). -/
def State.workReasons (s : State) (x : Pkt) : List Nat :=
  x.vd.reasons.filter (fun r => decide (16 ≤ r)) ++ s.voidReasons x ++
    (if s.hardReasons x = [] ∧ s.looksUp x ∧ (¬ x.lk.searched ∨ ((s.runA x).isSome ∧ ¬ x.vd.a.formed) ∨ ((s.runB x).isSome ∧ ¬ x.vd.b.formed)) then [16] else [])
/-- Scores with no winner (R193): CTX_A's if it ran, else CTX_B's if it ran. -/
def State.idleScores (s : State) (x : Pkt) : Int × Int :=
  let ran (v : Option Version) (r : CtxRes) : Bool := v.isSome && r.formed && r.void.isNone
  if ran (s.runA x) x.vd.a then (x.vd.a.s0, x.vd.a.s1) else if ran (s.runB x) x.vd.b then (x.vd.b.s0, x.vd.b.s1) else (0, 0)
/-- Stamps of a packet in a decision. -/
def Pkt.stamped (x : Pkt) (d : Decision) : Decision :=
  { d with act := x.lk.act, rv := x.i.rv, mvA := x.ft.mvA, mvB := x.ft.mvB, mvF := x.ft.mvF, policer := Rule.policer x.lk.act }
/-- The safe action (R198). -/
def State.safeFinal (s : State) (x : Pkt) (rs : List Nat) : Final :=
  let sc := s.idleScores x
  { dec := x.stamped { fwd := true, queue := s.act Reg.VERD.SAFE_QUEUE, safe := true, s0 := sc.1, s1 := sc.2 }, reason := leastReason rs }
/-- The final action of a classified packet with no doubt about it (R188, R189). -/
def State.normalFinal (s : State) (x : Pkt) : Final :=
  let cs := s.candidates x
  let fv := cs.any (fun c => c.1 == 3)
  match winnerOf cs with
  | none =>
    let sc := s.idleScores x
    { dec := x.stamped { applyEntry x.lk.act 0 with s0 := sc.1, s1 := sc.2 }, reason := leastReason (s.softReasons x), fvCand := fv }
  | some (src, code, e) =>
    let sc : Int × Int := if src = 1 then (x.vd.a.s0, x.vd.a.s1) else if src = 2 then (x.vd.b.s0, x.vd.b.s1)
      else ((x.lk.view.map (fun h => (toSigned 16 h.score0, toSigned 16 h.score1))).getD (0, 0))
    { dec := x.stamped { applyEntry x.lk.act e with code := code, src := src, s0 := sc.1, s1 := sc.2 }, reason := leastReason (s.softReasons x), fvCand := fv }
/-- The final action of a packet other than a following fragment (R42, R43, R45, R198, R199). `q` is the queue of a malformed packet with the
FORWARD action, which the manual does not give. -/
def State.finalOf (s : State) (x : Pkt) (q : Nat) : Final :=
  let hard := s.hardReasons x
  if x.vd.voidPkt then { disp := 1 }
  else if hard ≠ [] then s.safeFinal x (hard ++ s.workReasons x)
  else if x.mal ≠ 0 ∧ x.malAction = 1 then { disp := 1 }
  else if x.mal ≠ 0 ∧ x.malAction = 2 then { disp := 2, dec := x.stamped { copy := true } }
  else if x.mal ≠ 0 ∧ x.malAction = 0 then { dec := x.stamped { fwd := true, queue := q }, reason := 5 }
  else if s.workReasons x ≠ [] then s.safeFinal x (s.workReasons x)
  else if x.slow then { disp := 3, dec := x.stamped { copy := true }, reason := leastReason (s.softReasons x) }
  else s.normalFinal x

/-! ### Policers and meters (R262 to R265) -/

/-- The colour of a packet of B units of 2^-8 bytes and the two buckets after it: 0 green, 1 yellow, 2 red (R262). -/
def policeColour (mode pre : Nat) (tc te b : Int) : Nat × Int × Int :=
  if mode = 0 then
    if pre = 2 ∨ te < b then (2, tc, te)
    else if pre = 1 ∨ tc < b then (1, tc, te - b)
    else (0, tc - b, te - b)
  else if pre = 0 ∧ b ≤ tc then (0, tc - b, te)
  else if pre ≤ 1 ∧ b ≤ te then (1, tc, te - b)
  else (2, tc, te)
/-- DSCP_COLOUR of a packet; green where the DSCP byte is absent. An entry of 3, "none", colours nothing. -/
def State.dscpColour (s : State) (x : PktIn) : Nat :=
  match x.dsByte with
  | some ds =>
    let d := ds / 4
    let c := bits (s.act Reg.POLICE.DSCP_COLOUR 0 (d / 16)) (2 * (d % 16)) 2
    if c = 3 then 0 else c
  | none => 0
/-- The pre-colour (R262). CSRC 3 has no meaning in the manual: `w` stands for it. -/
def State.preColour (s : State) (x : PktIn) (pol w : Nat) : Nat :=
  match s.act Reg.POLICE.CSRC 0 0 pol with
  | 0 => 0
  | 1 => if x.colour = 3 then s.dscpColour x else x.colour
  | 2 => s.dscpColour x
  | _ => w % 3
/-- Tokens spent, in the counts of a bucket's balance (R274). -/
def BucketCnt.pay (c : BucketCnt) (n : Int) : BucketCnt := { c with spent := c.spent + n.toNat }
/-- A refill to the balance `now`, in the counts of a bucket's balance. -/
def BucketCnt.fill (c : BucketCnt) (rate : Nat) (tok now : Int) : BucketCnt :=
  { c with added := c.added + rate, capped := c.capped + (tok + rate - now).toNat }
/-- Meter a packet with a policer: its colour, none where it is not policed. -/
def State.police (s : State) (x : Pkt) (pol : Nat) : State × Option Nat :=
  if pol = 0 ∨ s.act Reg.POLICE.EN 0 0 pol = 0 then (s, none)
  else
    let (w, s) : Nat × State := if s.act Reg.POLICE.CSRC 0 0 pol = 3 then (s.fresh.1.toNat, s.fresh.2) else (0, s)
    let b := s.eg.pol.get pol
    let (c, tc, te) := policeColour (s.act Reg.POLICE.MODE 0 0 pol) (s.preColour x.i pol w) b.tc b.te (256 * x.i.len)
    let s := { s with eg := { s.eg with pol := s.eg.pol.set pol { tc := tc, te := te, cntC := b.cntC.pay (b.tc - tc), cntE := b.cntE.pay (b.te - te) } } }
    (s.bump (if c = 0 then Reg.POLICE.GREEN else if c = 1 then Reg.POLICE.YELLOW else Reg.POLICE.RED) 0 0 pol, some c)
/-- The meter of copy KIND k (R265): the item is allowed and paid for, or denied. -/
def State.copyMeter (s : State) (k n : Nat) : State × Bool :=
  if s.act Reg.POLICE.COPY_RATE 0 (k - 1) = 0 then (s, true)
  else if 0 ≤ s.eg.copyTok.get k then ({ s with eg := { s.eg with copyTok := s.eg.copyTok.mod k (· - 256 * (n : Int)), copyCnt := s.eg.copyCnt.mod k (·.pay (256 * n)) } }, true)
  else (s.bump Reg.POLICE.COPY_DENY 0 (k - 1), false)
/-- The meter of mirror session k. -/
def State.mirrorMeter (s : State) (k n : Nat) : State × Bool :=
  if s.act Reg.POLICE.MIR_RATE 0 (k - 1) = 0 then (s, true)
  else if 0 ≤ s.eg.mirTok.get k then ({ s with eg := { s.eg with mirTok := s.eg.mirTok.mod k (· - 256 * (n : Int)), mirCnt := s.eg.mirCnt.mod k (·.pay (256 * n)) } }, true)
  else (s.bump Reg.POLICE.MIRROR_DENY 0 (k - 1), false)
/-- A bucket's refill at a beat boundary (R263): rate in 2^-8 bytes per beat, size in bytes. -/
def meterRefill (tok : Int) (rate size : Nat) : Int := min (tok + rate) (256 * (size : Int))
/-- Refill of a policer's two buckets, with the counts of their balances (R263, R274). -/
def State.refillPol (s : State) (p : Nat) (b : PolB) : PolB :=
  let r := s.act Reg.POLICE.CIR 0 0 p
  let q := s.act Reg.POLICE.PIR_EIR 0 0 p
  let tc := meterRefill b.tc r (s.act Reg.POLICE.CBS 0 0 p)
  let te := meterRefill b.te q (s.act Reg.POLICE.PBS_EBS 0 0 p)
  { tc := tc, te := te, cntC := b.cntC.fill r b.tc tc, cntE := b.cntE.fill q b.te te }
/-- Refill of the meter of copy KIND k. -/
def State.refillCopy (s : State) (k : Nat) : State :=
  let r := s.act Reg.POLICE.COPY_RATE 0 (k - 1)
  if r = 0 then s
  else
    let t := s.eg.copyTok.get k
    let v := meterRefill t r (s.act Reg.POLICE.COPY_BURST 0 (k - 1))
    { s with eg := { s.eg with copyTok := s.eg.copyTok.set k v, copyCnt := s.eg.copyCnt.mod k (·.fill r t v) } }
/-- Refill of the meter of mirror session k. -/
def State.refillMir (s : State) (k : Nat) : State :=
  let r := s.act Reg.POLICE.MIR_RATE 0 (k - 1)
  if r = 0 then s
  else
    let t := s.eg.mirTok.get k
    let v := meterRefill t r (s.act Reg.POLICE.MIR_BURST 0 (k - 1))
    { s with eg := { s.eg with mirTok := s.eg.mirTok.set k v, mirCnt := s.eg.mirCnt.mod k (·.fill r t v) } }
/-- BUCKET_REFILL (R263, R265): every policer with a rate or a balance, and every meter. -/
def State.refillMeters (s : State) : State :=
  let rated (f : Field) : List Nat := (s.acting.filter (fun e => e.1 / 65536 == f.key 0 0 0 / 65536)).map (·.1 % 65536)
  let pols := (rated Reg.POLICE.CIR ++ rated Reg.POLICE.PIR_EIR ++ s.eg.pol.keys).eraseDups
  let pol : Tbl PolB := pols.foldl (fun t p => t.mod p (s.refillPol p)) s.eg.pol
  let s := [1, 2, 3].foldl State.refillCopy { s with eg := { s.eg with pol := pol } }
  ((List.range 15).map (· + 1)).foldl State.refillMir s

end Sys2Proof.Machine
end

