-- ==== Sys2Proof/Machine/Release.lean ====
section
/-! DEFINITION. Release at boundary b + 5: verdict headers, copies, mirrors, settlements, cut-through and stomping (R34, R46, R47, R50, R53, R54,
R189 to R198, R257). -/

namespace Sys2Proof.Machine

open Sys2Proof

/-! ### Headers and records (R193 to R195) -/

/-- The action byte of a final action. -/
def Final.byte (f : Final) : Nat :=
  b2n f.dec.fwd + 2 * b2n f.dec.copy + 4 * b2n f.dec.mirror + 8 * b2n f.fvCand + 32 * f.dec.queue
/-- IN_CTX with IN_EN, and its stamped version. -/
def Final.inCtx (f : Final) : Nat × Nat :=
  let a := f.dec.act
  let ctxA := (Rule.ctxA a + 4096, f.dec.mvA)
  let ctxB := (Rule.ctxB a + 4096, f.dec.mvB)
  if f.dec.src = 1 then ctxA else if f.dec.src = 2 then ctxB
  else if Rule.enA a then ctxA else if Rule.enB a then ctxB else (0, 0)
/-- FLOW_CTX with FL_EN. -/
def Final.flowCtx (f : Final) : Nat := Rule.ctxF f.dec.act + b2n (Rule.enF f.dec.act) * 4096
/-- A verdict header of the active level: FORM 1 on a tap return, else FORM 0 with its flags and MSEQ. -/
def State.header (s : State) (x : Pkt) (f : Final) (form1 : Bool) (flags mseq : Nat) : List Byte :=
  let ic := f.inCtx
  let tail1 := beBytes 4 x.i.tag
  if s.sec.level = 1 then
    beBytes 2 0x88B5 ++ beBytes 1 (0x10 + 8 * b2n f.dec.safe) ++ beBytes 1 f.dec.code ++ beBytes 1 f.byte ++ beBytes 1 f.reason ++ beBytes 2 ic.1
      ++ beBytes 2 (ofSigned 16 f.dec.s0) ++ beBytes 2 f.dec.rv ++ (if form1 then tail1 else beBytes 4 x.i.b)
  else
    beBytes 2 0x88B5 ++ beBytes 1 (0x40 + 16 * b2n form1 + 4 * f.dec.src + 2 * b2n f.dec.safe) ++ beBytes 1 f.dec.code ++ beBytes 1 f.byte
      ++ beBytes 1 f.reason ++ beBytes 2 ic.1 ++ beBytes 2 f.flowCtx ++ beBytes 2 (ofSigned 16 f.dec.s0) ++ beBytes 2 (ofSigned 16 f.dec.s1)
      ++ beBytes 2 f.dec.rv ++ beBytes 2 ic.2 ++ beBytes 2 f.dec.mvF
      ++ (if form1 then tail1 ++ beBytes 8 x.i.swMeta else beBytes 4 x.lk.flowId ++ beBytes 5 x.i.b ++ beBytes 1 flags ++ beBytes 2 mseq)
/-- A copy record (R195). -/
def copyRecord (seq kind flags : Nat) (x : Pkt) (f : Final) (stored ref : Nat) : List Byte :=
  let ic := f.inCtx
  leBytes 4 seq ++ leBytes 1 kind ++ leBytes 1 flags ++ leBytes 1 f.dec.code ++ leBytes 1 f.reason ++ leBytes 8 x.i.b ++ leBytes 2 x.i.len
    ++ leBytes 2 stored ++ leBytes 1 x.i.port ++ leBytes 1 x.i.lane ++ leBytes 1 f.byte ++ leBytes 1 f.dec.src ++ leBytes 2 ic.1 ++ leBytes 2 f.flowCtx
    ++ leBytes 2 (ofSigned 16 f.dec.s0) ++ leBytes 2 (ofSigned 16 f.dec.s1) ++ leBytes 2 f.dec.rv ++ leBytes 2 ic.2 ++ leBytes 2 f.dec.mvF ++ zeros 2
    ++ leBytes 4 x.lk.flowId ++ leBytes 4 x.i.tag ++ leBytes 8 x.i.swMeta ++ leBytes 4 ref ++ zeros 4

/-! ### Copies and mirrors (R195, R196, R265) -/

/-- Make a copy of a KIND: the record and the frame, FCS included. The answer is its SEQ, none when the meter denies it. -/
def State.makeCopy (s : State) (x : Pkt) (f : Final) (kind : Nat) (early : Bool) : State × Option Nat :=
  let frame := x.i.frame.drop x.i.tapLen
  let n := Nat.min frame.length (s.act Reg.VERD.COPY_LEN)
  match s.copyMeter kind (64 + n) with
  | (s, false) => (s, none)
  | (s, true) =>
    let seq := s.eg.copySeq
    let rec_ := copyRecord seq kind (b2n early + 4 * b2n (decide (n < frame.length))) x f n 0
    let s := { s with eg := { s.eg with copySeq := (seq + 1) % 2 ^ 32 } }
    (s.hqProduce 0 (rec_ ++ frame.take n), some seq)
/-- Send a mirror frame of a session to its port or, under MIR_HOST, to queue 1. -/
def State.mirrorOut (s : State) (pk : PktId) (ses kind : Nat) (bytes : List Byte) : State :=
  if bits (s.act Reg.HQ.MIR_HOST) (ses - 1) 1 = 1 then s.hqProduce 1 (bytes ++ fcsBytes bytes)
  else
    let fr : EgFrame := { kind := kind, pkt := if kind = 1 then some pk else none, size := bytes.length + 4, bytes := bytes }
    (s.offer (s.act Reg.VERD.SES_PORT 0 (ses - 1)) (s.act Reg.SHAPE.MIR_Q 0 0 ses) fr).1
/-- Make a mirror for a session; the answer is its MSEQ. None for a disabled session or a denied mirror. -/
def State.makeMirror (s : State) (pk : PktId) (x : Pkt) (f : Final) (ses : Nat) (early : Bool) : State × Option Nat :=
  if ses = 0 ∨ s.act Reg.VERD.SES_EN 0 (ses - 1) = 0 then (s, none)
  else
    let t := s.act Reg.VERD.SES_TRUNC 0 (ses - 1)
    let body := if t = 0 then x.i.data else x.i.data.take (64 * t)
    let m := s.eg.mseq.get ses
    let bytes := s.header x f false (b2n early + 8) m ++ body
    match s.mirrorMeter ses (bytes.length + 4) with
    | (s, false) => (s, none)
    | (s, true) =>
      let s := { s with eg := { s.eg with mseq := s.eg.mseq.set ses ((m + 1) % 2 ^ 16) } }
      (s.mirrorOut pk ses 1 bytes, some m)
/-- Count a settlement (R196). -/
def State.settled (s : State) (sup : Bool) : State :=
  let s := s.bump Reg.VERD.SETTLES
  if sup then s.bump Reg.VERD.SUPERSEDED else s
/-- Settle an early copy and an early mirror (R196); level 1 settles none (R194). -/
def State.settle (s : State) (pk : PktId) (x : Pkt) (f : Final) : State :=
  if s.sec.level = 1 then s
  else
    let s := match x.vd.earlyCopy with
      | some ref =>
        let sup := !f.dec.copy
        let seq := s.eg.copySeq
        let s := { s with eg := { s.eg with copySeq := (seq + 1) % 2 ^ 32 } }
        (s.hqProduce 0 (copyRecord seq 4 (2 * b2n sup) x f 0 ref)).settled sup
      | none => s
    match x.vd.earlyMirror with
    | some (ses, m) =>
      let sup := !(f.dec.mirror && f.dec.ses == ses)
      ((s.mirrorOut pk ses 2 (s.header x f false (2 + 4 * b2n sup + 8) m ++ zeros 28)).settled sup)
    | none => s
/-- Fix a packet's category. -/
def State.categorise (s : State) (pk : PktId) (cat : Nat) : State := s.modPkt pk (fun x => { x with vd := { x.vd with category := cat } })
/-- The copy of the final action (R195). Denied where it is the packet's only destination, the packet counts as dropped by policer (R265). -/
def State.ruleCopy (s : State) (pk : PktId) (x : Pkt) (f : Final) : State :=
  let only := ((s.pkt? pk).map (fun y => decide (y.vd.category = 6))).getD false
  match s.makeCopy x f 1 false with
  | (s, some _) => s
  | (s, none) => if only then s.categorise pk 4 else s
/-- Step 5 of R192: the copy and the mirror of the final action, unless an early one stands, and the settlements. -/
def State.copies (s : State) (pk : PktId) (x : Pkt) (f : Final) : State :=
  let s := if f.dec.copy ∧ ¬ f.dec.safe ∧ x.vd.earlyCopy.isNone then s.ruleCopy pk x f else s
  let stands : Bool := match x.vd.earlyMirror with
    | some (ses, _) => ses == f.dec.ses
    | none => false
  let s := if f.dec.mirror ∧ ¬ f.dec.safe ∧ ¬ stands then (s.makeMirror pk x f f.dec.ses false).1 else s
  s.settle pk x f

/-! ### Injected frames (R34, R257, R273) -/

/-- Bytes of an injected frame as its port sends it. A port that puts a verdict header on every frame puts one on it too (R34): FORM 0, of a packet no context
saw; what its fields hold is the model's choice. -/
def State.injBytes (s : State) (port q : Nat) (fr : EgFrame) : List Byte :=
  if s.hasVhdr port then s.header { i := { port := port, b := s.time.beat } } { dec := { fwd := true, queue := q }, reason := 1 } false 0 0 ++ fr.bytes
  else fr.bytes
/-- Offer one injected frame; refused, it returns its cells. -/
def State.offerInj (s : State) (port q : Nat) (fr : EgFrame) : State :=
  let bytes := s.injBytes port q fr
  match s.offer port q { fr with bytes := bytes, size := bytes.length + 4 } with
  | (s, true) => s
  | (s, false) => s.frameDone fr true
/-- A packet of this boundary has still to be applied. -/
def State.applyDue (s : State) : Bool := s.resident.any (fun p => !p.2.vd.released && decide (p.2.applyAt ≤ s.time.beat))
/-- Injected frames follow the packets applied at the boundary (R257). -/
def State.offerDue (s : State) : State :=
  if s.applyDue then s else s.eg.inj.foldl (fun t e => t.offerInj e.1 e.2.1 e.2.2) { s with eg := { s.eg with inj := [] } }

/-! ### Leaving the hold buffer (R50, R54, R189, R190) -/

/-- Frame of a packet as its port sends it (R34). -/
def State.egressBytes (s : State) (x : Pkt) (f : Final) : List Byte :=
  if x.i.tapPort then s.header x f true 0 0 ++ x.i.data
  else if s.hasVhdr (s.defaultDest x.i.port) then s.header x f false 0 0 ++ x.i.data
  else x.i.data
/-- The packet has been applied: with nothing left to send it stops being resident. -/
def State.applied (s : State) (pk : PktId) (f : Final) : State :=
  let s := s.modPkt pk (fun x => { x with vd := { x.vd with
    released := true, code := f.dec.code, winner := f.dec.src, fwd := f.dec.fwd, copy := f.dec.copy, mirror := f.dec.mirror, ses := f.dec.ses,
    queue := f.dec.queue, safe := f.dec.safe, fvCand := f.fvCand } })
  match s.pkt? pk with
  | some x => if x.vd.dests = 0 then s.finishPkt pk else s
  | none => s
/-- Stomp the early-started frame of a packet (R54). Where within the 8 cycles its data stops, the manual leaves open. -/
def State.stomp (s : State) (pk : PktId) (port : Nat) : State :=
  match (s.eg.tx.get port).cur with
  | some fr =>
    if fr.pkt = some pk ∧ fr.kind = 0 then
      let lead := s.ctLead port
      let (w, s) := s.fresh
      let sent := lead * s.rate3 port / 3
      let cut := Nat.min fr.bytes.length (sent + w.toNat % (8 * s.rate3 port / 3 + 1))
      (s.modTx port (fun t => { t with stomp := true, cut := cut })).bump Reg.HOLD.STOMPED
    else s
  | none => s
/-- The colour of a forwarded packet under its policer (step 3 of R192), none where it is not policed, and the packet's action with its egress queue: a yellow
packet enters queue YQ, but for a frame that started early (R264). -/
def State.policed (s : State) (x : Pkt) (f : Final) : State × Option Nat × Final :=
  let pol := f.dec.policer
  let (s, colour) : State × Option Nat := if f.dec.fwd ∧ ¬ f.dec.safe then s.police x pol else (s, none)
  let yq := decide (colour = some 1) && decide (s.act Reg.POLICE.YQ_EN 0 0 pol = 1) && !x.vd.early
  (s, colour, if yq then { f with dec := { f.dec with queue := s.act Reg.POLICE.YQ 0 0 pol } } else f)
/-- Step 4 of R192 for a packet of a colour whose final action is f. A frame that is stomped without a red colour counts as dropped by rule (R54). -/
def State.release (s : State) (pk : PktId) (x : Pkt) (colour : Option Nat) (f : Final) : State :=
  let port := s.defaultDest x.i.port
  let red := colour = some 2 ∧ s.act Reg.POLICE.RED_DROP 0 0 f.dec.policer = 1
  let back := x.i.tapPort ∧ ¬ f.dec.fwd ∧ bits (s.act Reg.VERD.TAP_LOCAL_DROP) x.i.port 1 = 0
  if red then (if x.vd.early then s.stomp pk port else s).categorise pk 4
  else if f.dec.fwd ∨ back then
    let s := if back then s.bump Reg.VERD.TAP_DROP_RET else s
    let s := s.categorise pk 1
    if x.vd.early then s
    else
      let bytes := s.egressBytes x f
      match s.offer port f.dec.queue { kind := 0, pkt := some pk, size := bytes.length + 4, bytes := bytes } with
      | (s, true) => s
      | (s, false) => s.categorise pk 5
  else if x.vd.early then (s.stomp pk port).categorise pk 2
  else s.categorise pk (if f.dec.copy then 6 else 2)
/-- Copy only (R42, R45): the packet's one destination is the COPY queue; denied, it counts as dropped by policer (R265). -/
def State.hostOnly (s : State) (pk : PktId) (x : Pkt) (f : Final) (kind : Nat) : State :=
  match s.makeCopy x f kind false with
  | (s, some _) => s.categorise pk 6
  | (s, none) => s.categorise pk 4
/-- Record the decision of a follow-class first fragment (R46). -/
def State.recordDecision (s : State) (x : Pkt) (f : Final) (bad : List Nat) : State :=
  if ¬ x.follows ∨ x.i.parse.frag ≠ 1 then s
  else
    match fragKey x.i with
    | none => s
    | some key =>
      let s := s.fragAccess key bad
      match (fragWays key).find? (fun w => (s.frag.get w).live && decide ((s.frag.get w).key = key) && decide ((s.frag.get w).b = x.i.b)) with
      | some w => s.setFrag w { s.frag.get w with dec := some f.dec }
      | none => s
/-- The decision an entry holds; at the boundary at which its first fragment is applied too, that fragment's decision (R46). A first fragment
released by deadline bypass before its entry existed took the safe action. -/
def State.decisionOf (s : State) (e : FragEnt) : Decision :=
  match e.dec with
  | some d => d
  | none =>
    match s.resident.find? (fun p => p.2.follows && decide (p.2.i.parse.frag = 1) && decide (p.2.i.b = e.b) && !p.2.vd.released && decide (fragKey p.2.i = some e.key)) with
    | some p => (s.finalOf p.2 0).dec
    | none => { fwd := true, queue := s.act Reg.VERD.SAFE_QUEUE, safe := true }
/-- The final action of a follow-class later fragment (R47). -/
def State.followFinal (s : State) (x : Pkt) (bad : List Nat) : State × Final :=
  match fragKey x.i with
  | none => (s.bump Reg.FRAG.UNMATCHED, s.safeFinal x [18])
  | some key =>
    let s := s.fragAccess key bad
    match s.fragFind key x.i.b with
    | some e => (s.bump Reg.FRAG.FOLLOWED, { dec := s.decisionOf e, reason := 6 })
    | none => (s.bump Reg.FRAG.UNMATCHED, s.safeFinal x [18])
/-- Counters of page VERD for an applied packet (R201). -/
def State.countApplied (s : State) (x : Pkt) (f : Final) : State :=
  let s := if x.stale then s.bump Reg.VERD.FV_STALE else s
  let s := if f.dec.safe then s.bump Reg.VERD.SAFE_PKTS else if f.dec.code = 0 then s.bump Reg.VERD.NONE_PKTS else s.bump Reg.VERD.VERDICT_PKTS
  if f.dec.src = 3 ∧ ¬ f.dec.safe then s.bump Reg.VERD.FV_WON else s
/-- A result of an enabled context is void, or the context down, for a device-caused fault (R308). -/
def State.devLost (s : State) (x : Pkt) : Bool :=
  let lane := s.lanes.get x.i.lane
  let down (en : Bool) (c : Nat) : Bool := en && (s.ctxs.get c).down != 0 && (s.ctxs.get c).downDev
  (s.workReasons x).any (fun r => r == 16 || (decide (19 ≤ r) && decide (r ≤ 22))) || (lane.pass && lane.dev)
    || down (Rule.enA x.lk.act) (Rule.ctxA x.lk.act) || down (Rule.enB x.lk.act) (Rule.ctxB x.lk.act) || down (Rule.enF x.lk.act) (Rule.ctxF x.lk.act)
/-- The verdict availability counts (R308), for a packet applied at its boundary b + 5 whose rule enables a context. -/
def State.countVerdict (s : State) (x : Pkt) (f : Final) : State :=
  let enabled := x.lk.searched && (Rule.enA x.lk.act || Rule.enB x.lk.act || Rule.enF x.lk.act)
  if ¬ enabled ∨ x.vd.bypass then s
  else
    let lost := f.dec.code == 0 && s.devLost x
    let s := s.bump Reg.LEDG.AV_VPKTS
    if lost then s.bump Reg.LEDG.AV_VLOSS else s
/-- A packet before another in capture order (R21). -/
def earlier (a b : PktIn) : Bool := decide (a.t < b.t) || (decide (a.t = b.t) && decide (a.lane < b.lane))
/-- A packet that is applied before this one and has not been. -/
def State.behind (s : State) (x : Pkt) : Bool :=
  s.resident.any (fun p => !p.2.vd.released && (decide (p.2.applyAt < x.applyAt) || (decide (p.2.applyAt = x.applyAt) && earlier p.2.i x.i)))
/-- Void outputs of a packet's contexts count as void sets, those voided after the codes were formed too (R200). -/
def State.noteVoids (s : State) (x : Pkt) : State :=
  let one (s : State) (c : Nat) (v : Option Version) (r : CtxRes) : State :=
    match v, r.void with
    | some _, some why => s.voidSet c x.i.b why
    | _, _ => s
  one (one s (Rule.ctxA x.lk.act) (s.runA x) x.vd.a) (Rule.ctxB x.lk.act) (s.runB x) x.vd.b
/-- VERDICT_APPLY (R51, R192): at boundary b + 5, or at b for a deadline bypass, in capture order and once the FCS result is known. After the last packet of
the boundary the injected frames are offered (R257). -/
def execVerdictApply (pk : PktId) (badFrag : List Nat) (s : State) : Host.Outcome State Fault Refusal :=
  match s.pkt? pk with
  | none => .next s
  | some x =>
    if x.vd.released ∨ s.time.beat < x.applyAt ∨ x.vd.fcs.isNone ∨ s.behind x then .next s
    else
      let s := if x.mal ≠ 0 then s.bump Reg.LANE.MAL_CNT x.i.lane (x.mal - 1) else s
      let s := s.noteVoids x
      let (w, s) : Nat × State := if x.mal ≠ 0 ∧ x.malAction = 0 then (s.fresh.1.toNat % 8, s.fresh.2) else (0, s)
      let f0 := s.finalOf x w
      let follower := x.follows && decide (x.i.parse.frag = 2) && f0.disp == 0 && !f0.dec.safe
      let (s, f) := if follower then s.followFinal x badFrag else (s, f0)
      let s := s.countVerdict x f
      if f.disp = 1 then .next ((s.categorise pk 3).applied pk f).offerDue
      else
        let s := s.countApplied x f
        if f.disp = 2 then .next ((s.hostOnly pk x f 3).applied pk f).offerDue
        else if f.disp = 3 then .next ((s.hostOnly pk x f 2).applied pk f).offerDue
        else
          let s := s.recordDecision x f badFrag
          let s := if x.vd.bypass then s.bump Reg.HOLD.BYPASS_PKTS else s
          let (s, colour, f) := s.policed x f
          .next (((s.release pk x colour f).copies pk x f).applied pk f).offerDue

/-! ### Cut-through (R53) -/

/-- Least length for an early start: the bytes a port sends in L + 16 schedule cycles. -/
def State.ctMin (s : State) (port : Nat) : Nat := ceilDiv ((s.ctLead port + 16) * s.rate3 port) 3
/-- The packet is eligible at this instant. A later fragment never is, one of the follow class among them: the model's choice, since its own rule's FWD does
not decide it. -/
def State.ctEligible (s : State) (x : Pkt) : Bool :=
  let port := s.defaultDest x.i.port
  let lead := s.ctLead port
  let q := Rule.queue x.lk.act
  let pq := port * 8 + q
  let size := x.i.data.length + 4
  let need : Int := (size + s.act Reg.SHAPE.OVH 0 0 port) * 65536
  decide (0 < lead) && decide (s.now + lead = (x.i.b + 5) * 512) && x.inlineWork && Rule.fwd x.lk.act && !x.vd.bypass && !x.vd.released && !x.vd.early
    && decide (x.vd.fcs = some true) && !(s.lanes.get x.i.lane).pass && !s.hasVhdr port && decide (s.ctMin port ≤ x.i.len)
    && (s.eg.tx.get port).cur.isNone && (s.eg.q.get pq).frames.isEmpty && !(s.eg.q.get pq).paused
    && (decide (s.act Reg.SHAPE.Q_RATE 0 0 pq = 0) || decide (need ≤ (s.eg.q.get pq).tok)) && s.pTokens port
/-- CUT_THROUGH_START (R53, R54, R196, R258): the frame is taken through its queue at its start, as the scheduler's pick takes it, and the rule's copy and mirror are issued early. -/
def execCutThroughStart (pk : PktId) (s : State) : Host.Outcome State Fault Refusal :=
  match s.pkt? pk with
  | none => .next s
  | some x =>
    let port := s.defaultDest x.i.port
    let q := Rule.queue x.lk.act
    let fr : EgFrame := { kind := 0, pkt := some pk, size := x.i.data.length + 4, bytes := x.i.data, early := true }
    if ¬ s.ctEligible x ∨ ¬ s.admits port q fr then .next s
    else
      let f : Final := { dec := x.stamped (applyEntry x.lk.act 0) }
      let s := if s.act Reg.SHAPE.SP 0 0 (port * 8 + q) = 0 then s.modTx port (fun t => { t with rr := q + 1 }) else s
      let s := ((s.offer port q fr).1.startFrame port q).bump Reg.HOLD.CT_STARTS
      let (s, ec) := if f.dec.copy then s.makeCopy x f 1 true else (s, none)
      let (s, em) := if f.dec.mirror then s.makeMirror pk x f f.dec.ses true else (s, none)
      .next (s.modPkt pk (fun x => { x with vd := { x.vd with early := true, earlyCopy := ec, earlyMirror := em.map (fun m => (f.dec.ses, m)) } }))

end Sys2Proof.Machine
end

