-- ==== Sys2Proof/Machine/Operands.lean ====
section
/-! DEFINITION. The operands of register accesses: which field elements an access meets, and the value each returns to a read (R8 to R11, R355,
R372 to R386). -/

namespace Sys2Proof.Machine

open Sys2Proof

/-! ### The Zormi capability table (R25 to R27, R385, R386) -/

/-- Cores of every flock, by what the map of a flock holds. -/
def mapSum (g : Nat × Nat × Nat → Nat) : Nat := ((List.range 256).map (fun f => g (unitMapOf f))).sum
/-- Cores of n arrays each that have at least one working array. -/
def liveCores (n m : Nat) : Nat := ((List.range (32 / n)).filter (fun c => bits m (c * n) n != 0)).length
/-- Word at an offset of page 0x0000_1000 (R26, R385). -/
def State.zctWord (s : State) (off : Nat) : Nat :=
  match off with
  | 0x40 => 2 + 1 * 2 ^ 8 + gradeCode * 2 ^ 16 + s.sec.level * 2 ^ 24
  | 0x44 => 16
  | 0x48 => 256
  | 0x4C => 3072
  | 0x50 => mapSum (fun m => liveCores 2 m.1)
  | 0x54 => mapSum (fun m => liveCores 4 m.2.1)
  | 0x58 => mapSum (fun m => ones 64 m.2.2)
  | 0x5C => mapSum (fun m => ones 32 m.1)
  | 0x60 => mapSum (fun m => ones 32 m.2.1)
  | 0x64 => 0x02001010
  | 0x68 => 0x04002020
  | 0x6C => 64
  | 0x70 => 128
  | 0x74 => 512
  | 0x78 => 64
  | 0x7C => 0x10000100
  | 0x80 => 512
  | 0x84 => 65536
  | 0x88 => 5
  | 0x8C => 4096
  | 0x90 => 0x00400200
  | 0x94 => 0x48100308
  | 0x98 => 1048576
  | 0x9C => 30
  | 0xA0 => 67108864
  | 0xA4 => 262144
  | 0xA8 => 65536
  | 0xAC => 0x1818
  | 0xB0 => 0x0100000C
  | 0xC0 => 256
  | 0xC4 => 128
  | 0xC8 => 192
  | 0xCC => 128
  | 0xD0 => 32
  | 0xD4 => 32
  | 0xD8 => 16
  | _ => 0
/-- Word at an offset of the map pages (R27, R386). -/
def mapWord (inst off : Nat) : Nat :=
  if off < 0x100 ∨ 0x900 ≤ off then 0
  else
    let f := (inst - 1) * 128 + (off - 0x100) / 16
    let (e, b, t) := unitMapOf f
    match (off - 0x100) / 4 % 4 with
    | 0 => e
    | 1 => b
    | 2 => t % 2 ^ 32
    | _ => t / 2 ^ 32

/-! ### Fields that show other state -/

/-- The core a class field and a core field of a FLOCK page select. -/
def State.pickCore (s : State) (f : Nat) (cls core : Field) : ACoreId :=
  { flock := ⟨f % 256, Nat.mod_lt _ (by decide)⟩, cls := if s.rd cls f = 1 then .bulk else .express, core := ⟨s.rd core f % 16, Nat.mod_lt _ (by decide)⟩ }
/-- The whole register of the selected cell, its lanes at the bits of R155. A cell without a tile shows no stated content. -/
def State.accRegister (s : State) (f : Nat) : Nat :=
  let c := s.pickCore f Reg.FLOCK.ACC_CLASS Reg.FLOCK.ACC_CORE
  let a := s.rd Reg.FLOCK.ACC_ARRAY f
  let row := s.rd Reg.FLOCK.ACC_ROW f
  let col := s.rd Reg.FLOCK.ACC_COL f
  let idle := (Config.idleCell s.now (((arrKey c a) * 2 + s.rd Reg.FLOCK.ACC_SET f) * 32768 + row * 1024 + col)).toNat
  if s.rd Reg.FLOCK.ACC_SET f = 1 then
    ((s.arr.drains.get (arrKey c a)).reverse).foldl (fun v d =>
      let w := laneBits d.f.fmt.val
      if row < d.rows ∧ col < d.cols then setBits v (w * d.laneNo) w (ofSigned w (d.vals.getD (row * d.cols + col) 0)) else v) idle
  else
    (List.range 4).foldl (fun v l =>
      let x := s.arr.lanes.get (laneKey c a l)
      let w := laneBits x.fmt
      if x.live && decide (col < x.cols) then setBits v (w * l) w (ofSigned w (x.vals.getD (row * x.cols + col) 0)) else v) idle
/-- The operator counter set OPC_CLASS and OPC_CORE select, read live (R358, R371). -/
def State.opcSel (s : State) (f : Nat) : OpCnt := (s.acore (s.pickCore f Reg.FLOCK.OPC_CLASS Reg.FLOCK.OPC_CORE)).opc
/-- The core memory address of MEM_WORD. -/
def State.memWordAt (s : State) (f : Nat) : ACoreId × Nat := (s.pickCore f Reg.FLOCK.MEM_CLASS Reg.FLOCK.MEM_CORE, 8 * s.rd Reg.FLOCK.MEM_WORD f)
/-- Bytes of a core memory (R129). -/
def ACoreId.memBytes (c : ACoreId) : Nat := if c.bulk then 2 ^ 19 else 2 ^ 17
/-- The greatest tree depth in the active beat programs of a flock's cores (R116). -/
def State.pipeD (s : State) (f : Nat) : Nat :=
  ((s.versions.filter (fun v => v.2.treeOn)).flatMap (fun v => (v.2.sects.filter (fun e => e.type == 4 && e.onFlock f)).flatMap (fun e =>
    (issues e.body).map (fun w => bits w.2 10 4 + 1)))).foldl Nat.max 0
def State.viewFlock (s : State) (g : Field) (f : Nat) : Nat :=
  match g.off with
  | 0x32C => if g.lo = 0 then b2n (s.sec.level == 1) else s.pipeD f
  | 0xF08 => ofSigned 64 (s.partial_ f (s.rd Reg.FLOCK.PART_CORE f) (s.rd Reg.FLOCK.PART_REG f))
  | 0xF18 => s.accRegister f % 2 ^ 64
  | 0xF20 => s.accRegister f / 2 ^ 64
  | 0xF2C => (s.arr.lanes.get (laneKey (s.pickCore f Reg.FLOCK.ACC_CLASS Reg.FLOCK.ACC_CORE) (s.rd Reg.FLOCK.ACC_ARRAY f) (s.rd Reg.FLOCK.CNT_LANE f))).count
  | 0xF48 =>
    let (c, a) := s.memWordAt f
    if a < ACoreId.memBytes c then s.coreLE c a 8 else 0
  | 0x504 => s.cell f (s.rd Reg.FLOCK.SYNC_SEL f)
  | 0x608 => ((s.opcSel f).counts (s.islNow f)).getD 0 0
  | 0x610 => ((s.opcSel f).counts (s.islNow f)).getD 1 0
  | 0x618 => ((s.opcSel f).counts (s.islNow f)).getD 2 0
  | 0x620 => ((s.opcSel f).counts (s.islNow f)).getD 3 0
  | 0x628 => if g.lo = 0 then (s.opcSel f).layer else (s.opcSel f).oper
  | _ => 0
/-- A table of the classifier's slots, as page TCAM r shows it. -/
def State.viewTcam (s : State) (g : Field) (r i : Nat) : Nat :=
  match g.off with
  | 0x100 => s.bankType r (if g.lo = 0 then s.stagedSlot else if g.lo = 4 then 0 else 1) i
  | 0x328 => s.preselMask r s.stagedSlot (s.rd Reg.TCAM.PRESEL_IDX r)
  | 0x340 => s.lpmDomain r s.stagedSlot i
  | 0x420 => s.cls.occ.get (i * 2 + (if g.lo = 0 then 0 else 1))
  | 0x480 => ((s.defAct s.stagedSlot).toNat / 2 ^ (32 * i)) % 2 ^ 32
  | _ => 0
/-- The version VERD's selectors name. -/
def State.verdSel (s : State) : Option Version :=
  let x := s.ctxs.get (s.rd Reg.VERD.CTX_SEL)
  if s.rd Reg.VERD.SLOT_SEL = 1 then x.v1 else x.v0
/-- Word i of a bit map. -/
def mapBits (i : Nat) (p : Nat → Bool) : Nat := ((List.range 32).map (fun b => b2n (p (32 * i + b)) * 2 ^ b)).sum
def State.viewVerd (s : State) (g : Field) (i : Nat) : Nat :=
  match g.off with
  | 0x44 => actEntry s.verdSel (s.rd Reg.VERD.CODE_SEL)
  | 0x48 => (s.verdSel.map (·.ver)).getD 0
  | 0x80 => (s.verdSel.map (fun v => (v.vdesc.getD i 0).toNat)).getD 0
  | 0x154 => if g.lo = 0 then ((List.range 16).map (fun l => b2n (s.lanes.get l).pass * 2 ^ l)).sum else b2n s.devSafe
  | 0x400 => mapBits i (fun c => (s.ctxs.get c).down != 0)
  | _ => 0
/-- STATE of a context or of the layout (R208). -/
def ctxCode (x : Ctx) : Nat :=
  match x.st with
  | .empty => 0
  | .active => 1
  | .checking => 2
  | .staging => 3
  | .staged => 4
  | .armed => 5
  | .retiring => 6
/-- Packets of a lane stamped with a version of the selected context (R212). -/
def State.ctxOcc (s : State) (v : Option Version) (lane : Nat) : Nat :=
  match v with
  | none => 0
  | some v =>
    let c := s.ctxSel
    if (s.lanes.get lane).pass then 0
    else
      (s.resident.filter (fun p =>
        let x := p.2
        x.i.lane == lane && decide (s.time.beat < x.i.b + 5) && x.lk.searched &&
          ((Rule.enA x.lk.act && Rule.ctxA x.lk.act == c && x.ft.mvA == v.ver) || (Rule.enB x.lk.act && Rule.ctxB x.lk.act == c && x.ft.mvB == v.ver)))).length
def State.viewCtx (s : State) (g : Field) (i : Nat) : Nat :=
  let x := s.ctxs.get s.ctxSel
  match g.off with
  | 0x48 => s.status Blk.CTX 0
  | 0x68 => if g.lo = 0 then ctxCode x else if g.lo = 3 then b2n x.slot else if g.lo = 4 then x.kind else s.rd g
  | 0x6C => s.rd g
  | 0x70 => ((if g.lo = 0 then x.v0 else x.v1).map (·.ver)).getD 0
  | 0x74 => ctxCode s.layout
  | 0x78 => if x.st = .retiring then (x.other.map (fun v => (s.invsOf s.ctxSel v.ver).length)).getD 0 else 0
  | 0x80 => s.ctxOcc (if g.lo = 0 then x.v0 else x.v1) i
  | 0xE0 => (s.protectedRanges.map (fun r => r.2 - r.1)).sum
  | 0xEC => (s.layout.active.map (·.layoutId)).getD 0
  | 0xF0 => if s.layout.st = .staged ∨ s.layout.st = .armed then (s.layout.other.map (·.layoutId)).getD 0 else 0
  | 0x100 => mapBits i (fun c => (s.ctxs.get c).st != .empty)
  | _ => 0
def State.viewShape (s : State) (g : Field) : Nat :=
  let q := s.eg.q.get (s.rd Reg.SHAPE.PORT_SEL * 8 + s.rd Reg.SHAPE.Q_SEL)
  match g.off with
  | 0xA0 => q.cells
  | 0xA4 => ofSigned 32 (q.tok / 65536)
  | 0xA8 => ((List.range 8).map (fun k => b2n (s.eg.q.get (s.rd Reg.SHAPE.PORT_SEL * 8 + k)).paused * 2 ^ k)).sum
  | _ => 0
def State.viewPolice (s : State) (g : Field) : Nat :=
  let p := s.rd Reg.POLICE.POL_SEL
  if p = 0 then 0
  else if g.off = 0x58 then ofSigned 64 (s.eg.pol.get p).tc
  else ofSigned 64 (s.eg.pol.get p).te
def State.viewCal (s : State) (g : Field) : Nat :=
  let i := s.rd Reg.CAL.CAL_SEL
  if g.off = 0x5C then b2n s.cal.pend.isSome
  else if ¬ calExists i then 0
  else
    match g.off with
    | 0x44 => (s.calRec i).value.toNat
    | 0x48 => (Config.calFactory i).2.1.toNat
    | 0x4C => (Config.calFactory i).2.2.toNat
    | _ => if g.lo = 0 then (s.calRec i).count else b2n (s.calRec i).factory
/-- The record of the settings ledger RD_SLOT and RD_WRITE select: record 0 is the current value. -/
def State.setRec (s : State) : Option LedRec :=
  let rs := s.sec.slots.get (s.rd Reg.SET.RD_SLOT)
  let n := s.rd Reg.SET.RD_WRITE
  if n = 0 then (rs.filter (·.committed)).getLast? else rs[n - 1]?
def State.viewSet (s : State) (g : Field) (i : Nat) : Nat :=
  match g.off with
  | 0x48 => b2n s.sec.setPend.isSome
  | 0x304 =>
    if g.lo = 0 then b2n ((s.setRec.map (·.committed)).getD false)
    else if g.lo = 1 then b2n ((s.setRec.map (fun r => !r.committed)).getD false)
    else if g.lo = 2 then b2n s.setRec.isNone
    else (s.sec.slots.get (s.rd Reg.SET.RD_SLOT)).length
  | 0x308 => (s.setRec.map (·.beat)).getD 0
  | 0x310 => (s.setRec.map (fun r => leNat r.signer)).getD 0
  | 0x340 => (s.setRec.map (fun r => leAt r.value (4 * i) 4)).getD 0
  | _ => 0
def State.viewSec (s : State) (g : Field) : Nat :=
  match g.off with
  | 0x40 => Config.serial.toNat
  | 0x48 => if g.lo = 0 then s.sec.bootSrc else if g.lo = 2 then b2n s.sec.compat else b2n s.sec.herdEn
  | 0x4C => if g.lo = 16 then s.arbCount else ((List.range 5).map (fun k => b2n (s.revoked k) * 2 ^ k)).sum
  | 0x70 => b2n s.sec.fwPend.isSome
  | 0x80 => s.sec.nonce.toNat
  | 0x88 => if g.lo = 0 then b2n s.auth.token.isSome else (s.auth.token.map (·.perms)).getD 0
  | 0x90 => (s.auth.token.map (·.expiry)).getD 0
  | 0xA4 => if g.lo = 0 then b2n s.sec.owner.isSome else b2n s.sigRequired
  | _ => 0
def State.viewDev (s : State) (g : Field) (i : Nat) : Nat :=
  match g.off with
  | 0x40 => if g.lo = 0 then gradeCode else Config.stepping.toNat
  | 0x60 => if g.lo = 0 then b2n s.auth.unlocked else s.sec.chal.toNat
  | 0x100 => s.evtSum i
  | _ => 0
def State.viewDbg (s : State) (g : Field) (i : Nat) : Nat :=
  let x := s.flocks.get (s.rd Reg.DBG.DBG_FLOCK)
  if g.off = 0x4C then (if g.lo = 0 then b2n x.debug else b2n x.halted) else mapBits i (fun f => (s.flocks.get f).debug)
/-- The capture fields work only during a global stop (R254). -/
def State.viewHlink (s : State) (g : Field) (p i : Nat) : Nat :=
  if ¬ s.herd.stopped then 0
  else if g.off = 0x80 then 256 * (s.hl.get p).cap.length
  else leAt (s.capLine p (s.rd Reg.HLINK.CAP_ADDR p)) (8 * i) 8
/-- A voltage override that acts shows as the present voltage (R333). -/
def State.voltNow (s : State) (i : Nat) : Nat :=
  if s.act Reg.AGE.VOLT_OVR_EN 0 0 i = 1 then s.act Reg.AGE.VOLT_OVR_MV 0 0 i else s.rd Reg.AGE.VOLT_MV 0 0 i
def State.viewAge (s : State) (g : Field) (i : Nat) : Nat :=
  if g.off = 0x80 then mapBits i (fun n => decide (1 ≤ s.rd Reg.AGE.ISL_STATE 0 0 n) && decide (s.rd Reg.AGE.ISL_STATE 0 0 n ≤ 3)) else 0
/-- The common registers a page computes (R375). -/
def State.viewCommon (s : State) (g : Field) (block inst : Nat) : Nat :=
  match g.off with
  | 0x0 => if g.lo = 0 then inst else block
  | 0x8 => if g.lo = 0 then instancesOf block else if g.lo = 16 then b2n (hasExpert block) else b2n (hasDebug block)
  | 0xC => cap1 block inst
  | 0x14 => if g.lo = 0 then s.status block inst else b2n (s.oos block inst)
  | _ => 0
/-- The value of a field that shows other state. -/
def State.view (s : State) (g : Field) (inst idx : Nat) : Nat :=
  match g.block with
  | 48 => s.viewFlock g inst
  | 18 => s.viewTcam g inst idx
  | 23 => s.viewVerd g idx
  | 35 => s.viewCtx g idx
  | 24 => s.viewShape g
  | 25 => s.viewPolice g
  | 7 => s.viewCal g
  | 8 => s.viewAge g idx
  | 3 => s.viewSet g idx
  | 4 => s.viewSec g
  | 1 => s.viewDev g idx
  | 11 => s.viewDbg g idx
  | 33 => s.viewHlink g inst idx
  | 21 => s.rd g
  | 20 => s.rd g
  | 19 => s.histFree
  | 6 => if g.off = 0x40 then s.time.beat else ofSigned 32 s.phaseLeftNs
  | 34 => s.ownId
  | 26 => s.hqNext idx
  | 5 => s.regionBase idx / 2 ^ 30
  | _ => 0

/-! ### Field elements (R10, R372) -/

/-- An element of a field on a page. -/
structure Elem where
  f : Field
  inst : Nat
  idx : Nat
  deriving DecidableEq, Repr

/-- First bit of an element, from the first bit of its page. -/
def Elem.pos (e : Elem) : Nat := (e.f.off + e.f.stride * e.idx) * 8 + e.f.lo + e.f.bstride * e.idx
/-- Elements that lie at reserved offsets (R9): the fourth accumulator of a form (R108), MAL_ACT[0] (R37), and the fields at 0x400 and above of
TCAM pages other than TCAM 0 (R71). -/
def Elem.reserved (e : Elem) : Bool :=
  (e.f.block == Blk.TCAM && decide (0x400 ≤ e.f.off) && e.inst != 0) ||
  (e.f.block == Blk.FLOW && decide (0x210 ≤ e.f.off) && decide (e.f.off ≤ 0x217) && e.idx % 4 == 3) || (e.f.block == Blk.PORT && e.f.off == 0x44 && e.idx == 0)
/-- Every element of a field on a page. -/
def elemsOf (inst : Nat) (f : Field) : List Elem := (List.range f.count).map (fun i => { f := f, inst := inst, idx := i })
/-- The common fields of a block's page; STATUS and OOS stand for the fields that a block's own table puts at 0x014. -/
def commonOf (block : Nat) : List Field := Reg.fieldsCOMMON.map (fun f => f.on block)
/-- Elements of a page that meet the bits [lo, hi). -/
def elemsAt (block inst lo hi : Nat) : List Elem :=
  let fs := commonOf block ++ (fieldsOf block).filter (fun f => f.off != 0x14)
  (fs.flatMap (elemsOf inst)).filter (fun e => decide (Elem.pos e < hi) && decide (lo < Elem.pos e + e.f.width) && !e.reserved)
/-- The unit a banked field shows (R275, R276, R333, R369). -/
def State.selOf (s : State) (f : Field) : Nat :=
  match f.bank with
  | .none => 0
  | .portQueue => s.rd Reg.SHAPE.PORT_SEL * 8 + s.rd Reg.SHAPE.Q_SEL
  | .port => s.rd Reg.SHAPE.PORT_SEL
  | .mirror => s.rd Reg.SHAPE.MIR_SEL
  | .policer => s.rd Reg.POLICE.POL_SEL
  | .selector => s.rd Reg.SAMP.SEL_SEL
  | .watch => s.rd Reg.SAMP.WATCH_SEL
  | .island => s.rd Reg.AGE.ISL_SEL
/-- The debug registers of a page work (R367, R383): on a FLOCK page in debug mode or from the cut of a global stop, elsewhere while a token holds
UNIT_DEBUG, on an HLINK page (R254) only in that stop too. -/
def State.debugOpen (s : State) (block inst : Nat) : Bool :=
  if block = Blk.FLOCK then (s.flocks.get inst).debug || s.herd.cut
  else (s.auth.token.map (fun t => bits t.perms 4 1 == 1)).getD false && (block != Blk.HLINK || s.herd.cut)
/-- A common field that the page computes. -/
def commonView (f : Field) : Bool := f.off == 0 || f.off == 8 || f.off == 0xC || f.off == 0x14
/-- The value of an element as a read returns it: a WO field reads as zero (R10), and so does a debug register that does not work (R11). -/
def State.elemValue (s : State) (e : Elem) : Nat :=
  let f := e.f
  if f.acc = .wo then 0
  else if 0xF00 ≤ f.off ∧ ¬ s.debugOpen f.block e.inst then 0
  else if f.off < 0x40 ∧ commonView f then s.viewCommon f f.block e.inst % 2 ^ f.width
  else if f.view ∨ (f.block = Blk.TCAM ∧ f.off = 0x100) then s.view f e.inst e.idx % 2 ^ f.width
  else if f.block = Blk.AGE ∧ f.off = 0x48 ∧ f.lo = 0 then s.voltNow (s.rd Reg.AGE.ISL_SEL)
  else s.rd f e.inst e.idx (s.selOf f)
/-- Bits [lo, lo + n) of a page as a read returns them. -/
def State.pageBits (s : State) (block inst lo n : Nat) : Nat :=
  ((elemsAt block inst lo (lo + n)).map (fun e =>
    let p := Elem.pos e
    let v := s.elemValue e
    if lo ≤ p then (v * 2 ^ (p - lo)) % 2 ^ n else v / 2 ^ (lo - p) % 2 ^ n)).sum
/-- The 32-bit word at an offset of a ZCT page beyond the common registers. -/
def State.zctAt (s : State) (inst off : Nat) : Nat := if inst = 0 then s.zctWord off else mapWord inst off
/-- n bytes at a BAR0 address, as a read of the pages returns them: zero outside every page (R373). -/
def State.barRead (s : State) (addr n : Nat) : Nat :=
  match pageOf (addr / 4096) with
  | none => 0
  | some (block, inst) =>
    let off := addr % 4096
    if block = Blk.ZCT ∧ 0x40 ≤ off then
      let w0 := off / 4 * 4
      (s.zctAt inst w0 + s.zctAt inst (w0 + 4) * 2 ^ 32 + s.zctAt inst (w0 + 8) * 2 ^ 64) / 2 ^ (8 * (off - w0)) % 2 ^ (8 * n)
    else s.pageBits block inst (8 * off) (8 * n)

end Sys2Proof.Machine
end

