-- ==== Sys2Proof/Machine/Shadows.lean ====
section
/-! DEFINITION. Shadow contexts' channel statistics and their blocks (R216, R322 to R325), and aggregate windows (R22, R23, R91). -/

namespace Sys2Proof.Machine

open Sys2Proof

/-! ### Channel statistics (R322, R323) -/

/-- Key of a shadow context's statistics in a flock. -/
def shadowKey (c f : Nat) : Nat := c * 256 + f
/-- The SHADOW section of a version: its content. -/
def Version.shadow (v : Version) : List Byte := ((v.sects.find? (fun t => t.type == 14)).map (·.body)).getD []
/-- floor(log2 n) of a positive number. -/
def ilog2 (n : Nat) : Nat := Nat.log2 n
/-- The histogram bin of a value (R323). -/
def binOf (lo : Nat) (x : Int) : Nat :=
  let e := ilog2 x.natAbs
  if x = 0 ∨ e < lo then 0 else Nat.min 63 (e - lo + 1)
/-- A channel takes one value. -/
def ChanStat.take (h : ChanStat) (x : Int) : ChanStat :=
  let b := binOf h.binLo x
  { h with count := (h.count + 1) % 2 ^ 64, mn := if h.count = 0 then x else min h.mn x, mx := if h.count = 0 then x else max h.mx x,
           absMax := Nat.max h.absMax x.natAbs, bins := h.bins.set b (Nat.min (h.bins.get b + 1) 0xFFFFFFFF) }
/-- log2 of a tap's value unit: that of the STREAM for KIND 1, else 0 (R156, R324). -/
def Version.tapExp (v : Version) (w : Nat) : Int :=
  if bits w 0 2 ≠ 1 then 0
  else
    match v.sects.find? (fun t => t.type == (if bits w 2 2 = 0 then 6 else 7) && t.unit % 256 == bits w 4 8) with
    | some t =>
      let op := leAt t.body (16 * bits w 12 9) 16
      laneUnit (bits op 16 4) (bits op 82 8)
    | none => 0
/-- A tap's values go to its channels. -/
def takeVals (w : Nat) (unit : Int) (chans : Tbl ChanStat) (vals : List (Nat × Int)) : Tbl ChanStat :=
  vals.foldl (fun t e =>
    if bits w 37 12 < e.1 then t
    else
      let chan := bits w 25 12 + e.1
      let k := bits w 21 4 * 4096 + chan
      let h := (t.find? k).getD { tensor := bits w 21 4, chan := chan, binLo := bits w 49 6, wExp := unit }
      t.put k (h.take e.2)) chans
/-- Change a shadow context's statistics in a flock. -/
def State.modShadow (s : State) (c f : Nat) (g : ShadowSt → ShadowSt) : State :=
  { s with obs := { s.obs with shadow := s.obs.shadow.set (shadowKey c f) (g (s.obs.shadow.get (shadowKey c f))) } }
/-- The version of context c that a packet is stamped with, where its rule names c (R203). -/
def Pkt.stampOf (x : Pkt) (c : Nat) : Option Nat :=
  if Rule.enA x.lk.act ∧ Rule.ctxA x.lk.act = c then some x.ft.mvA
  else if Rule.enB x.lk.act ∧ Rule.ctxB x.lk.act = c ∧ ¬ x.ft.mismB then some x.ft.mvB else none
/-- The stamp of the packet in a vector slot of the set that a tap of that KIND meets on flock f: the gathered set for KIND 2, else the one being read. -/
def State.slotStamp (s : State) (c f kind slot : Nat) : Option Nat :=
  let pk := if kind = 2 then s.tree.gset.get (f * 64 + slot) else (s.vslot f (s.tree.readBank.get f) slot).pkt
  ((pk.bind s.pkt?)).bind (fun x => x.stampOf c)
/-- The stamps of what a shadow of context c meets on flock f (R216): those of the set's packets; outside in-line work that of the invocation it meets,
of version mv, where one of that version runs. -/
def State.shadowSees (s : State) (c f kind mv : Nat) : List Nat :=
  if (s.ctxs.get c).kind = 1 then (List.range 64).filterMap (s.slotStamp c f kind)
  else ((s.flow.invs.filter (fun i => decide (i.ctx = c ∧ i.mv = mv))).take 1).map (·.mv)
/-- What a tap takes (R323): of KIND 2 the gather sums, of KIND 3 the feature slots of the vectors it computes on, as pairs of a channel past CHAN_BASE
and a value; of KIND 1 the lane integers of its STREAM's final tiles, as they drain. -/
def State.tapVals (s : State) (c : Nat) (v : Version) (f kind : Nat) (drained : List (Nat × Int)) : List (Nat × Int) :=
  let mine (slot : Nat) : Bool := s.slotStamp v.shadowCtx f kind slot == some v.shadowMv
  if (s.ctxs.get v.shadowCtx).kind ≠ 1 then
    if kind = 3 then (List.range 64).flatMap (fun i => let x := s.vslot f (s.tree.readBank.get f) i; if x.job then x.slots.mapIdx (fun j w => (j, w.toInt)) else []) else drained
  else if kind = 2 then ((s.gatherVersion f false (c, v)).filter (fun g => mine g.vec)).map (fun g => (g.output, g.sum))
  else if kind = 3 then (List.range 64).flatMap (fun i => if mine i then (s.vslot f (s.tree.readBank.get f) i).slots.mapIdx (fun j w => (j, w.toInt)) else [])
  else drained
/-- SHADOW_STATISTICS (R216, R323): one tap for a set, or for an invocation of version `mvSeen`; `drained` are the lane integers of a tap of KIND 1. A set is counted once a beat,
by its first tap: as skipped where nothing in it is stamped with SHADOW_MV, as void or as taken. -/
def execShadowStatistics (c : CtxNum) (f : Flock) (tap : Fin 32) (drained : List (Nat × Int)) (mvSeen : Nat) (void : Bool) (s : State) :
    Host.Outcome State Fault Refusal :=
  let x := s.ctxs.get c.val
  match x.active with
  | none => .next s
  | some v =>
    let ws := taps (v.shadow)
    let w := ws.getD tap.val 0
    let kind := bits w 0 2
    let sees := s.shadowSees v.shadowCtx f.val kind mvSeen
    if x.kind ≠ 4 ∨ ¬ s.flockIssues f.val ∨ ¬ v.flocks.contains f.val ∨ ws.length ≤ tap.val ∨ sees = [] then .next s
    else
      let one := b2n (decide ((s.obs.shadow.get (shadowKey c.val f.val)).seenAt ≠ s.time.beat + 1))
      let seen (g : ShadowSt → ShadowSt) : State := s.modShadow c.val f.val (fun h => { g h with seenAt := s.time.beat + 1 })
      if ¬ sees.contains v.shadowMv then .next (seen (fun h => { h with skipped := h.skipped + one }))
      else if void then .next (seen (fun h => { h with void := h.void + one }))
      else .next (seen (fun h => { h with taken := h.taken + one, chans := takeVals w (v.tapExp w) h.chans (s.tapVals c.val v f.val kind drained) }))

/-! ### Blocks (R324) -/

/-- The header of a block. -/
def blockHeader (start c mv f chans : Nat) (h : ShadowSt) (win : Nat) (valid : Bool) : List Byte :=
  leBytes 8 start ++ leBytes 2 c ++ leBytes 2 mv ++ leBytes 2 f ++ leBytes 2 chans ++ leBytes 8 h.taken ++ leBytes 8 h.skipped ++ leBytes 8 h.void
    ++ leBytes 8 (win % 2 ^ 63 + b2n valid * 2 ^ 63) ++ zeros 16
/-- A channel record. -/
def chanRecord (h : ChanStat) : List Byte :=
  leBytes 16 (ofSigned 128 h.mn) ++ leBytes 16 (ofSigned 128 h.mx) ++ leBytes 16 h.absMax ++ leBytes 8 h.count ++ leBytes 2 h.tensor ++ leBytes 2 h.chan
    ++ leBytes 2 (ofSigned 16 h.wExp) ++ leBytes 1 h.binLo ++ zeros 1 ++ (List.range 64).flatMap (fun i => leBytes 4 (h.bins.get i)) ++ zeros 64
/-- The channels of a tap list, in channel order of each tensor: those that saw no value too. -/
def allChans (v : Version) (ws : List Nat) (h : ShadowSt) : List ChanStat :=
  let empty : Tbl ChanStat := ws.foldl (fun t w => (List.range (bits w 37 12 + 1)).foldl (fun t i =>
    let chan := bits w 25 12 + i
    t.put (bits w 21 4 * 4096 + chan) { tensor := bits w 21 4, chan := chan, binLo := bits w 49 6, wExp := v.tapExp w }) t) []
  (h.chans.foldl (fun t e => t.put e.1 e.2) empty).map (·.2)
/-- SHADOW_WINDOW_END (R324, R365): the window that ends at the present beat leaves a block, which goes with the observation traffic. Until the block
is written its header stands with VALID clear. -/
def execShadowWindowEnd (c : CtxNum) (f : Flock) (s : State) : Host.Outcome State Fault Refusal :=
  let x := s.ctxs.get c.val
  match x.active with
  | none => .next s
  | some v =>
    let bs := v.shadow
    let span := 2 ^ bits (leAt bs 0 8) 0 5
    let n := s.time.beat
    if x.kind ≠ 4 ∨ ¬ v.flocks.contains f.val ∨ n % span ≠ 0 ∨ n = 0 ∨ (s.obs.shadow.get (shadowKey c.val f.val)).endAt = n + 1 then .next s
    else
      let h := s.obs.shadow.get (shadowKey c.val f.val)
      let chans := allChans v (taps bs) h
      let addr := leAt bs 8 8 + (256 * (n / span % 2) + f.val) * leAt bs 16 8
      let hdr (valid : Bool) : List Byte := blockHeader (n - span) c.val v.shadowMv f.val chans.length h (n / span) valid
      let s := (s.hbmWrite addr (hdr false)).modShadow c.val f.val (fun _ => { endAt := n + 1 })
      .next (s.observe { q := 5, bytes := hdr true ++ chans.flatMap chanRecord, rank := 2 ^ 21 + f.val, addr := addr, due := n + 64 })

/-! ### Aggregate windows (R22, R23, R91) -/

/-- The results of an aggregate run land: the GLOBAL words its INVOKE section names take values that the manual leaves to the plan. A run with void
work leaves none (R17). -/
def State.landAggregate (s : State) (c : Nat) : State :=
  let x := s.ctxs.get c
  if ¬ x.running then s
  else
    let s := { s with ctxs := s.ctxs.set c { x with running := false, runVoid := false } }
    if x.runVoid ∨ s.devSafe ∨ s.herd.stopped then s
    else
      match ([x.v0, x.v1].reduceOption.find? (fun v => v.ver == x.runMv)) with
      | none => s
      | some v =>
        let ws := ((v.sects.find? (fun t => t.type == 13)).map (fun t => Config.globalWords t.body)).getD []
        ws.foldl (fun t i => if i < 60 then { t.fresh.2 with globals := { t.globals with now := t.globals.now.put i (t.fresh.1.setWidth 32) } } else t) s
/-- A run starts under the active version. -/
def State.startAggregate (s : State) (c : Nat) : State :=
  let x := s.ctxs.get c
  match x.active with
  | some v =>
    if x.kind ≠ 3 ∨ v.ver = 0 ∨ x.down ≠ 0 ∨ s.devSafe ∨ s.herd.stopped then s
    else { s with ctxs := s.ctxs.set c { x with running := true, runMv := v.ver, runVoid := false, windows := x.windows + 1 } }
  | none => s
/-- AGGREGATE_WINDOW (R22, R23): at the end of each window of 2^14 beats, once, the last runs land and the next ones start. -/
def execAggregateWindow (s : State) : Host.Outcome State Fault Refusal :=
  if s.time.beat % 16384 ≠ 0 ∨ s.globals.window = s.time.beat + 1 then .next s
  else
    let cs := s.ctxs.keys
    let s := { s with globals := { s.globals with old := s.globals.now, window := s.time.beat + 1 } }
    .next (cs.foldl State.startAggregate (cs.foldl State.landAggregate s))

end Sys2Proof.Machine
end

