-- ==== Sys2Proof/Machine/Observe.lean ====
section
/-! DEFINITION. The interval sampler, watches, the bandwidth cap and debug mode (R359 to R370). -/

namespace Sys2Proof.Machine

open Sys2Proof

/-! ### Selectors (R359 to R361, R369) -/

/-- A selector as its fields state it. -/
structure Sel where
  src : Nat
  log2 : Nat
  phase : Nat
  addr : Nat
  ncnt : Nat
  nrep : Nat
  flock0 : Nat
  cls : Nat
  core : Nat
  cap : Nat
  deriving DecidableEq, Repr

/-- The numbers `ObsSt.armed` holds of a selector. -/
def Sel.nums (x : Sel) : List Nat := [x.src, x.log2, x.phase, x.addr, x.ncnt, x.nrep, x.flock0, x.cls, x.core, x.cap]
/-- The selector that numbers spell. -/
def selOfNums (l : List Nat) : Sel :=
  { src := l.getD 0 0, log2 := l.getD 1 0, phase := l.getD 2 0, addr := l.getD 3 0, ncnt := l.getD 4 0, nrep := l.getD 5 0, flock0 := l.getD 6 0, cls := l.getD 7 0, core := l.getD 8 0, cap := l.getD 9 0 }
/-- Selector n as its fields stand. -/
def State.selFields (s : State) (n : Nat) : Sel :=
  let g (f : Field) : Nat := s.rd f 0 0 n
  { src := g Reg.SAMP.SRC, log2 := g Reg.SAMP.LOG2, phase := g Reg.SAMP.PHASE, addr := g Reg.SAMP.ADDR, ncnt := g Reg.SAMP.NCNT_M1 + 1, nrep := g Reg.SAMP.NREP_M1 + 1, flock0 := g Reg.SAMP.FLOCK0, cls := g Reg.SAMP.CLASS, core := g Reg.SAMP.CORE, cap := g Reg.SAMP.CAP_CYCLE }
/-- SEL_RESULT of an arm (R359, R361): 1 address, 2 level, 3 range. -/
def Sel.result (x : Sel) (level : Nat) : Nat :=
  let off := x.addr % 4096
  let addrBad := x.src == 1 && (x.addr % 8 != 0 || decide (2 ^ 26 < x.addr + 4096 * (x.nrep - 1) + 8 * x.ncnt) || decide (0x800 < off + 8 * x.ncnt))
  let flockBad := x.src == 2 && decide (256 < x.flock0 + x.nrep)
  let levelBad := level == 1 && (decide (2 < x.ncnt) || decide (1 < x.nrep) || (x.src == 2 && x.cls == 1))
  if addrBad || flockBad then 1 else if levelBad then 2 else if x.src = 3 ∨ 24 < x.log2 ∨ 2 ^ x.log2 ≤ x.phase then 3 else 0
/-- SELECTOR_ARM (R359, R369): the selector applies from the next boundary, or is refused and stays as it was. -/
def execSelectorArm (src : Source) (s : State) : Host.Outcome State Fault Refusal :=
  s.basicCmd src (fun s =>
    let n := s.rd Reg.SAMP.SEL_SEL
    let x := s.selFields n
    let r := x.result s.sec.level
    let s := (s.wr Reg.SAMP.SEL_RESULT r 0 0 n).auditCmd src Reg.SAMP.ARM 0 1 (if r = 0 then 0 else 3)
    if r = 0 then s.later (.selArm n x.nums) else s)
/-- The arm at the boundary: SSEQ starts again. -/
def State.selArmNow (s : State) (n : Nat) (x : List Nat) : State :=
  { s with obs := { s.obs with armed := s.obs.armed.put n (some x), sseq := s.obs.sseq.erase n } }

/-- The selectors that sample in the present beat. -/
def State.dueSels (s : State) : List (Nat × Sel) :=
  if ¬ s.time.started ∨ s.act Reg.SAMP.SAMP_EN = 0 then []
  else s.obs.armed.filterMap (fun (e : Nat × Option (List Nat)) =>
    match e.2 with
    | some l => let x := selOfNums l; if x.src ≠ 0 ∧ s.time.beat % 2 ^ x.log2 = x.phase then some (e.1, x) else none
    | none => none)
/-- The core of repetition i of an operator selector. -/
def Sel.coreOf (x : Sel) (i : Nat) : ACoreId :=
  { flock := ⟨(x.flock0 + i) % 256, Nat.mod_lt _ (by decide)⟩, cls := if x.cls = 1 then .bulk else .express, core := ⟨x.core % 16, Nat.mod_lt _ (by decide)⟩ }
/-- What a capture in island cycle t takes of a core (R358 to R360): the four counts, CTX with its valid bit, MV, LAYER and OPER; zero where the core
is unbound or its flock withdrawn. -/
def State.capture (s : State) (c : ACoreId) (t : Nat) : List Nat :=
  let x := s.flocks.get c.flock.val
  match s.coreSect c with
  | some (ctx, v, _) =>
    if x.withdrawn ∧ ¬ x.debug then List.replicate 8 0
    else
      let o := (s.acore c).opc
      o.counts t ++ [ctx + 2 ^ 15, v.ver, o.layer, o.oper]
  | none => List.replicate 8 0
/-- The flock's island cycle x begins in the present schedule cycle (R220). -/
def State.islEnters (s : State) (f x : Nat) : Bool :=
  decide (s.islCycle f = x) && (s.time.cycle == 0 || decide ((s.time.cycle - 1) * s.islMhz f / 1200 ≠ x))
/-- The captures of the present schedule cycle, taken before anything else that happens in it (R358). -/
def State.captureCycle (s : State) : State :=
  let caps := (s.dueSels.filter (fun (e : Nat × Sel) => e.2.src == 2)).flatMap (fun (e : Nat × Sel) =>
    (List.range e.2.nrep).flatMap (fun i =>
      let c := e.2.coreOf i
      if s.islEnters c.flock.val e.2.cap then [(e.1 * 256 + i, s.capture c (s.islNow c.flock.val))] else []))
  if caps.isEmpty then s else { s with obs := { s.obs with capt := caps.foldl (fun t e => t.put e.1 e.2) s.obs.capt } }
/-- The bytes of a sample record: version 2 of R360, or version 1 of R361. -/
def sampleBytes (level beat n i sseq : Nat) (x : Sel) (vals ids : List Nat) : List Byte :=
  let v (k : Nat) : Nat := vals.getD k 0
  let id (k : Nat) : Nat := ids.getD k 0
  if level = 1 then
    leBytes 5 beat ++ leBytes 1 1 ++ leBytes 2 n ++ leBytes 2 (id 2) ++ leBytes 2 (id 3) ++ zeros 4 ++ leBytes 8 (v 0) ++ leBytes 8 (v 1) ++ zeros 32
  else
    leBytes 8 beat ++ leBytes 1 2 ++ leBytes 1 x.src ++ leBytes 2 n ++ leBytes 2 i ++ leBytes 2 (id 0) ++ leBytes 2 (id 1) ++ leBytes 2 (id 2) ++ leBytes 2 (id 3)
      ++ leBytes 2 (if x.src = 2 then x.cap else 0) ++ leBytes 8 (v 0) ++ leBytes 8 (v 1) ++ leBytes 8 (v 2) ++ leBytes 8 (v 3) ++ leBytes 4 sseq ++ zeros 4
/-- The record of repetition i. Register counters are taken as frozen at the beat's boundary (R302); an operator counter whose capture cycle has
not come is taken as it will stand then (assumption 73). -/
def State.sampleOne (s : State) (n : Nat) (x : Sel) (i : Nat) : List Byte :=
  let sseq := s.obs.sseq.get n
  if x.src = 1 then
    let frozen : State := { s with regs := s.acting }
    sampleBytes s.sec.level s.time.beat n i sseq x ((List.range x.ncnt).map (fun j => frozen.barRead (x.addr + 4096 * i + 8 * j) 8)) []
  else
    let c := (s.obs.capt.find? (n * 256 + i)).getD (s.capture (x.coreOf i) (s.islStart (x.coreOf i).flock.val + x.cap))
    sampleBytes s.sec.level s.time.beat n i sseq x (c.take 4) (c.drop 4)
/-- SAMPLE (R359): the records of every selector that samples in this beat, once a beat. -/
def execSample (s : State) : Host.Outcome State Fault Refusal :=
  if s.obs.sampled = s.time.beat + 1 then .next s
  else
    let due := s.dueSels
    let s : State := { s with obs := { s.obs with sampled := s.time.beat + 1 } }
    .next (due.foldl (fun t (e : Nat × Sel) =>
      let t := (List.range e.2.nrep).foldl (fun t i => t.observe { q := 4, bytes := t.sampleOne e.1 e.2 i, rank := e.1 * 256 + i }) t
      { t with obs := { t.obs with sseq := t.obs.sseq.set e.1 ((t.obs.sseq.get e.1 + 1) % 2 ^ 32) } }) s)

/-! ### Watches (R362) -/

/-- The beat program of a version for a core. -/
def Version.progOf (v : Version) (c : ACoreId) : List Nat :=
  match v.sects.find? (fun t => t.type == (if c.bulk then 7 else 6) && t.onFlock c.flock.val && t.unit == ACoreId.unit c) with
  | some t => progWords t.body
  | none => []
/-- Descriptor e of a version for a core. -/
def Version.descIn (v : Version) (c : ACoreId) (e : Nat) : Nat :=
  let m : Mem := (v.sects.filter (fun t => t.type == 9 && t.onFlock c.flock.val && t.unit == ACoreId.unit c)).foldl (fun m t => Mem.writeN m t.dest t.body) []
  Mem.readLE m (32 * e) 32
/-- The version, active or staged, that a context holds under a number. -/
def Ctx.held (x : Ctx) (mv : Nat) : Option Version :=
  let staged := if x.st = .staged ∨ x.st = .armed then x.other else none
  ([x.active, staged].reduceOption).find? (fun v => v.ver == mv && mv != 0)
/-- W_RESULT of an arm (R362): the lowest that applies. -/
def State.watchResult (s : State) (w : Watch) (c : ACoreId) : Nat :=
  match (s.ctxs.get w.ctx).held w.mv with
  | none => 1
  | some v =>
    let word := (v.progOf c).getD w.instr 0
    let op := bits word 0 6
    let stream := op == 2 && bits word 14 1 == 1
    let epi := bits word 20 8
    if ¬ (stream || op == 6) ∨ 24 < w.period then 2
    else if stream ∧ bits w.mode 0 1 = 1 ∧ (epi = 0 ∨ ofmtMx (bits (v.descIn c epi) 2 4)) then 3
    else if s.watches.any (fun (e : Nat × Option Watch) => (e.2.map (fun o => o.core == w.core)).getD false) then 4
    else 0
/-- W_ARM (R362, R369): the watch takes effect at the next beat boundary, or is refused. -/
def execWArm (src : Source) (s : State) : Host.Outcome State Fault Refusal :=
  s.basicCmd src (fun s =>
    let n := s.rd Reg.SAMP.WATCH_SEL
    let g (f : Field) : Nat := s.rd f 0 0 n
    let c : ACoreId := { flock := ⟨g Reg.SAMP.W_FLOCK % 256, Nat.mod_lt _ (by decide)⟩, cls := if g Reg.SAMP.W_CLASS = 1 then .bulk else .express, core := ⟨g Reg.SAMP.W_CORE % 16, Nat.mod_lt _ (by decide)⟩ }
    let w : Watch := { ctx := g Reg.SAMP.W_CTX, mv := g Reg.SAMP.W_MV, core := c.num, instr := g Reg.SAMP.W_INSTR, mode := g Reg.SAMP.W_MODE, period := g Reg.SAMP.W_PERIOD, armedAt := s.time.beat + b2n s.time.started }
    let r := s.watchResult w c
    let s := (s.wr Reg.SAMP.W_RESULT r 0 0 n).auditCmd src Reg.SAMP.W_ARM 0 1 (if r = 0 then 0 else 3)
    if r = 0 then { s.wr Reg.SAMP.W_STATE 1 0 0 n with watches := s.watches.put n (some w) } else s)
/-- W_DISARM (R369): the watch is off from the next boundary. -/
def execWDisarm (src : Source) (s : State) : Host.Outcome State Fault Refusal :=
  s.basicCmd src (fun s => (s.later (.watchOff (s.rd Reg.SAMP.WATCH_SEL))).auditCmd src Reg.SAMP.W_DISARM 0 1 0)
/-- The watch is off. -/
def State.watchOffNow (s : State) (n : Nat) : State := { s.wr Reg.SAMP.W_STATE 0 0 0 n with watches := s.watches.erase n }
/-- A watch whose version is neither active nor staged any more goes to DONE (R362). -/
def State.watchSweep (s : State) : State :=
  s.watches.foldl (fun t (e : Nat × Option Watch) =>
    match e.2 with
    | some w =>
      let x := t.ctxs.get w.ctx
      if ([x.v0, x.v1].reduceOption).any (fun v => v.ver == w.mv) then t
      else { t.wr Reg.SAMP.W_STATE 2 0 0 e.1 with watches := t.watches.erase e.1 }
    | none => t) s

/-! ### The bandwidth cap and aperture copies (R365, R366) -/

/-- Copy a record to the aperture FWD_APT, its tag word behind it (assumption 74). -/
def State.forward (s : State) (q n : Nat) (bs : List Byte) : State :=
  if s.act Reg.SAMP.FWD_EN = 0 then s
  else
    let a := s.act Reg.SAMP.FWD_APT
    let cost := bs.length + 64
    let off : Nat := (64 * s.act Reg.SAMP.FWD_OFF + n % s.hqSlots q * s.rd Reg.HQ.SLOT_BYTES 0 q) % 2 ^ 34
    if 45875 < s.obs.fwdSpent + cost ∨ ¬ s.aptOk a then s.bump Reg.SAMP.FWD_DROP
    else
      let data := bs ++ leBytes 8 (n % 2 ^ 63 + 2 ^ 63)
      let args : List Int := [(s.act Reg.HERD.APT_WIN 0 a : Int), (off : Int), (data.length : Int), (s.herd.nextTok : Int)] ++ data.map (fun b => (b.toNat : Int))
      let t := s.sendTo 18 (s.act Reg.HERD.APT_MEMBER 0 a) args
      if t.2 then { t.1 with herd := { t.1.herd with nextTok := t.1.herd.nextTok + 1 }, obs := { t.1.obs with fwdSpent := t.1.obs.fwdSpent + cost } }
      else s.bump Reg.SAMP.FWD_DROP
/-- Write an item whole. -/
def State.writeItem (s : State) (it : ObsItem) : State :=
  if it.addr ≠ 0 then (s.hbmWrite (it.addr + 64 + it.done) (it.bytes.drop (64 + it.done))).hbmWrite it.addr (it.bytes.take 64)
  else
    let n := s.rd Reg.HQ.PROD 0 it.q
    let s := s.hqProduce it.q it.bytes
    (if it.q = 4 then s.bump Reg.SAMP.RECORDS else s).forward it.q n it.bytes
/-- Cost of what is left of an item (R365). -/
def ObsItem.cost (it : ObsItem) : Nat := it.bytes.length + 64 - it.done
/-- The bytes an item takes in the observation buffer: a block whose writing has begun waits in its flock's statistics unit (assumption 75). -/
def ObsItem.room (it : ObsItem) : Nat := if it.done = 0 then it.bytes.length else 0
/-- How far OBSERVATION_WRITE has come: the budget left, whether an item did not fit, and the items that wait. -/
structure ObsRun where
  s : State
  left : Nat
  stop : Bool
  wait : List ObsItem
/-- Take one item, in order. `new` for an item of this beat. -/
def ObsRun.item (r : ObsRun) (new : Bool) (it : ObsItem) : ObsRun :=
  if it.addr ≠ 0 ∧ it.due ≤ r.s.time.beat then { r with s := r.s.bump Reg.CAL.SHADOW_DROP }
  else if it.addr = 0 ∧ r.s.hqOff it.q then { r with s := r.s.hqProduce it.q it.bytes }
  else if ¬ r.stop ∧ (it.cost ≤ r.left ∨ r.s.act Reg.SAMP.CAP_OFF = 1) then { r with s := r.s.writeItem it, left := r.left - it.cost }
  else
    let k := if it.addr ≠ 0 ∧ ¬ r.stop then Nat.min (r.left / 384 * 384) (it.bytes.length - 64 - it.done) else 0
    let s := if k = 0 then r.s else r.s.hbmWrite (it.addr + 64 + it.done) (slice it.bytes (64 + it.done) k)
    let it := { it with done := it.done + k }
    let r := { r with s := s, left := r.left - k, stop := true }
    if ¬ new then { r with wait := r.wait ++ [it] }
    else if it.done ≠ 0 ∨ (r.wait.map ObsItem.room).sum + it.room ≤ 262144 then { r with s := r.s.bump Reg.SAMP.CAP_WAIT, wait := r.wait ++ [it] }
    else
      let s := r.s.bump Reg.SAMP.CAP_DROP
      { r with s := if it.addr ≠ 0 then s.bump Reg.CAL.SHADOW_DROP else s }
/-- An item in its place among items of rising rank. -/
def insertItem (it : ObsItem) : List ObsItem → List ObsItem
  | [] => [it]
  | x :: xs => if it.rank < x.rank then it :: x :: xs else x :: insertItem it xs
/-- The items of this beat in the order of R365. -/
def rankItems (l : List ObsItem) : List ObsItem := l.foldl (fun a it => insertItem it a) []
/-- OBSERVATION_WRITE (R365, R366). -/
def execObservationWrite (s : State) : Host.Outcome State Fault Refusal :=
  if s.devSafe then .next s
  else
    let cap := s.act Reg.SAMP.CAP_BYTES
    let r : ObsRun := { s := s, left := cap - s.obs.spent, stop := false, wait := [] }
    let r := s.obs.wait.foldl (fun r it => r.item false it) r
    let r := (rankItems s.obs.new).foldl (fun r it => r.item true it) r
    .next { r.s with obs := { r.s.obs with new := [], wait := r.wait, spent := cap - r.left } }

/-! ### Debug mode (R367, R368, R370) -/

/-- DBG_RESULT. -/
def State.dbgResult (s : State) (r : Nat) : State := s.wr Reg.DBG.DBG_RESULT r
/-- DBG_ENTER (R367). -/
def execDbgEnter (src : Source) (s : State) : Host.Outcome State Fault Refusal :=
  s.basicCmd src (fun s =>
    let f := s.rd Reg.DBG.DBG_FLOCK
    let r := match s.auth.token with
      | none => 1
      | some t => if bits t.perms 0 1 = 0 then 1 else if t.flocks.getLsbD f then 0 else 2
    let s := (s.dbgResult r).auditCmd src Reg.DBG.ENTER 0 1 (if r = 0 then 0 else 3)
    if r = 0 then s.later (.dbgEnter f) else s)
/-- The flock enters debug mode: it is withdrawn, and the contexts whose plans use it go down (R199). A token that has ended since the write
grants nothing. -/
def State.dbgEnterNow (s : State) (f : Nat) : State :=
  match s.auth.token with
  | none => s
  | some t =>
    if bits t.perms 0 1 = 0 ∨ ¬ t.flocks.getLsbD f then s
    else
      let s := s.flockOut f false
      { s with flocks := s.flocks.mod f (fun x => { x with debug := true }) }
/-- DBG_LEAVE (R368). -/
def execDbgLeave (src : Source) (s : State) : Host.Outcome State Fault Refusal :=
  s.basicCmd src (fun s =>
    let f := s.rd Reg.DBG.DBG_FLOCK
    let ok := (s.flocks.get f).debug
    let s := (s.dbgResult (if ok then 0 else 3)).auditCmd src Reg.DBG.LEAVE 0 1 (if ok then 0 else 3)
    if ok then s.later (.dbgLeave f) else s)
/-- HALT (R367): of the flock DBG_FLOCK names, from the next boundary. -/
def execHalt (src : Source) (v : Bool) (s : State) : Host.Outcome State Fault Refusal :=
  s.basicCmd src (fun s =>
    let f := s.rd Reg.DBG.DBG_FLOCK
    let ok := (s.flocks.get f).debug
    let a : AuditRec := { block := Blk.DBG, off := 0x48, source := src.num, old := s.rd Reg.DBG.HALT, new := b2n v, result := if ok then 0 else 3 }
    let s := (s.dbgResult (if ok then 0 else 3)).audit a
    if ok then (s.wr Reg.DBG.HALT (b2n v)).later (.halt f v) else s)
/-- STEP (R367): the programs of the next beat run, then the flock halts again. -/
def execStepf (src : Source) (s : State) : Host.Outcome State Fault Refusal :=
  s.basicCmd src (fun s =>
    let f := s.rd Reg.DBG.DBG_FLOCK
    let ok := (s.flocks.get f).debug && (s.flocks.get f).halted
    let s := (s.dbgResult (if ok then 0 else 3)).auditCmd src Reg.DBG.STEP 0 1 (if ok then 0 else 3)
    if ok then s.later (.stepf f) else s)
/-- MEM_DATA_WRITE (R367, R371): the word goes to core memory while the flock is halted; at any other time it is ignored. -/
def execMemDataWrite (src : Source) (f : Flock) (v : DWord) (s : State) : Host.Outcome State Fault Refusal :=
  s.basicCmd src (fun s =>
    let (c, a) := s.memWordAt f.val
    let ok := (s.flocks.get f.val).halted
    let old := if a < ACoreId.memBytes c then s.coreLE c a 8 else 0
    let s := s.audit { block := Blk.FLOCK, inst := f.val, off := 0xF48, source := src.num, old := old, new := v.toNat, result := if ok then 0 else 3 }
    if ¬ ok then s.dbgResult 3
    else if a < ACoreId.memBytes c then (s.dbgResult 0).coreStore c a (leBytes 8 v.toNat) else s.dbgResult 0)

end Sys2Proof.Machine
end

