-- ==== Sys2Proof/Machine/Beat.lean ====
section
/-! DEFINITION. Beats: the markers and what happens at a beat boundary, missed beats, and the start of the data path (R15 to R17, R51, R219, R224,
R337). -/

namespace Sys2Proof.Machine

open Sys2Proof

/-! ### The work a missed beat loses (R17, R219, R224) -/

/-- Packets that take the safe action with BEAT_MISS. -/
def State.missPkts (s : State) (p : Pkt → Bool) (g : Pkt → Pkt) : State :=
  { s with pkts := s.pkts.map (fun (e : Nat × Option Pkt) =>
    (e.1, e.2.map (fun x => if !x.vd.gone && !x.vd.released && p x then
      let x := g x
      { x with vd := { x.vd with reasons := if x.vd.reasons.contains 16 then x.vd.reasons else x.vd.reasons ++ [16] } } else x))) }
/-- The packet's feature program is abandoned: it has no vector and writes no history entry. -/
def Pkt.noFeature (x : Pkt) : Pkt := { x with ft := { x.ft with ran := true, vec := none, handed := false, crossed := true }, lk := { x.lk with histPos := none } }
/-- The feature cores of a lane stop. -/
def State.stopCores (s : State) (l : Nat) : State :=
  { s with fcores := s.fcores.map (fun (e : Nat × FCore) => if e.1 / 192 = l then (e.1, { faults := e.2.faults, reload := e.2.reload, own := e.2.own }) else e) }
/-- The stacks whose lines a packet's flow lookup reads in the store (R75, R401); none where the cache answers. -/
def State.lookupStacks (s : State) (x : Pkt) : List Nat :=
  let key := flowKey x.i (Rule.fkey x.lk.act) (Rule.tenant x.lk.act)
  if ¬ x.keyed ∨ (s.cached key).isSome then []
  else
    [bucket1 key, bucket2 key].flatMap (fun bk =>
      stackOf (s.tagAddr (8 * bk)) :: ((s.fpSlot bk (fingerprint key)).map (fun l => stackOf (s.recAddr l))).toList)
/-- Whether a piece of flow, aggregate or host-job work had an access to a controller under way at its miss is open: the n-th free value from here on. -/
def State.openAccess (s : State) (n : Nat) : Bool := (Config.free (s.free + n)).getLsbD 0
/-- Unfinished accesses at an HBM controller end their flow invocations, aggregate runs and jobs as lost (R219). -/
def State.missAccesses (s : State) : State :=
  let n := s.flow.invs.length
  let t := s.setFlow (fun w => { w with invs := w.invs.mapIdx (fun i v => if s.openAccess i then { v with lost := true } else v) })
  let t := (s.ctxs.keys.mapIdx (fun i c => (i, c))).foldl (fun t (e : Nat × Nat) =>
    if s.openAccess (n + e.1) then (t.workLost e.2 3 2 (fun _ => true)).workLost e.2 6 2 (fun _ => true) else t) t
  { t with free := s.free + n + s.ctxs.length }
/-- The packet makes no lookup and no update any more. -/
def Pkt.noFlow (x : Pkt) : Pkt := { x with lk := { x.lk with looked := true, how := if x.lk.looked then x.lk.how else .noLookup, updated := true } }
/-- The packets of the set that a program with that o served in the beat before (R17): before the flock's own marker the set still stands, after it
it has moved on by one buffer. -/
def State.missedSet (s : State) (f o slot : Nat) : Option PktId :=
  if s.time.islBeat.get (32 + f) < s.time.beat then s.setPkt f o slot else if o = 3 then s.setPkt f 4 slot else none
/-- The cores that have programs on flock f. -/
def State.flockCores (s : State) (f : Nat) : List ACoreId :=
  ((s.versions.filter (fun v => v.2.flocks.contains f)).flatMap (fun v => (v.2.sects.filter (fun t => (t.type == 6 || t.type == 7) && t.onFlock f)).map (fun t =>
    { flock := ⟨f % 256, Nat.mod_lt _ (by decide)⟩, cls := if t.type = 7 then .bulk else .express, core := ⟨t.unit % 16, Nat.mod_lt _ (by decide)⟩ }))).eraseDups
/-- Drains of a core that began before beat n. -/
def State.lateDrains (s : State) (c : ACoreId) (n : Nat) : Bool :=
  (List.range 4).any (fun a => (s.arr.drains.get (arrKey c a)).any (fun d => decide (d.beat < n)))
/-- The core has not retired its work of beat n: it has not issued END, or a drain, a broadcast write, a post or a COPY of an earlier beat is under way
(R130). -/
def State.unfinished (s : State) (c : ACoreId) (n : Nat) : Bool :=
  let k := s.acore c
  (k.running && decide (k.startBeat ≤ n)) || s.lateDrains c n || k.posts.any (fun p => decide (p.2.2.2 < n)) ||
    k.copies.any (fun r => decide (r.2.2.2 < n) && decide (s.islNow c.flock.val ≤ r.2.2.1)) || s.herd.remote.any (fun r => r.core == c && decide (r.beat < n))
/-- Work of a context that flock f served in the missed beat is void. -/
def State.missCtx (s : State) (f : Nat) (ctx : Nat) (v : Version) (o : Nat) : State :=
  if v.kind = 1 then
    (List.range 64).foldl (fun s i =>
      match s.missedSet f o i with
      | some pk => (s.modRes pk ctx false (·.voided 16)).modRes pk ctx true (·.voided 16)
      | none => s) s
  else s.workLost ctx v.kind 2 (fun i => i.mv == v.ver)
/-- A core's unfinished work is abandoned: its program, the held writes and drains it has under way and the posts that wait for them; the posts its
schedule places after the boundary are made all the same (R224). -/
def State.abandon (s : State) (c : ACoreId) (n : Nat) : State :=
  let s := s.progLate c.flock.val
  let start := s.islStart c.flock.val
  let (posts, s) : List (Nat × Nat × Nat) × State := match s.coreSect c with
    | some (ctx, v, t) => ((v.after.filter (fun p => p.1 == c.num)).map (fun p => (p.2.2.1, p.2.2.2, start + p.2.1)), s.missCtx c.flock.val ctx v (Sect.setBeat t))
    | none => ([], s)
  let s := (List.range 4).foldl (fun (t : State) a => { t with arr := { t.arr with drains := t.arr.drains.mod (arrKey c a) (fun l => l.filter (fun d => decide (n < d.beat))) } }) s
  let s := s.modAcore c (fun k =>
    let posts := k.posts.filter (fun p => decide (n < p.2.2.2))
    let copies := k.copies.filter (fun r => decide (n < r.2.2.2))
    if k.startBeat ≤ n then { k with running := false, wait := none, held := [], posts := posts, copies := copies } else { k with posts := posts, copies := copies })
  let s := { s with arr := { s.arr with bcast := s.arr.bcast.filter (fun b => b.src != c.num) }, herd := { s.herd with remote := s.herd.remote.filter (fun r => r.core != c || decide (n < r.beat)) } }
  { s with arr := { s.arr with posts := s.arr.posts.mod c.flock.val (· ++ posts) } }
/-- A tree core of flock f has adds of a beat before n that have not retired (R116). -/
def State.treeLate (s : State) (f n : Nat) : Bool := (List.range 64).any (fun t => (s.tcore f t).pend.any (fun p => decide (p.beat < n)))
/-- The adds that tree cores of flock f have not retired are abandoned, and the versions that run on them lose their work. -/
def State.missTrees (s : State) (f n : Nat) : State :=
  let s := (List.range 64).foldl (fun (t : State) c => t.setTcore f c { t.tcore f c with pend := (t.tcore f c).pend.filter (fun p => decide (n ≤ p.beat)) }) s
  (s.versions.filter (fun v => v.2.sects.any (fun t => t.type == 4 && t.onFlock f) && (v.2.trees.any (fun e => e.1 == f && v.2.onTree e.1 e.2)))).foldl (fun t v => t.missCtx f v.1 v.2 3) s
/-- A flock's miss: unfinished cores abandon their work, and its tree cores theirs where adds are late or every core has ended. Cells of the versions
whose work was abandoned return to their boundary values (R224). -/
def State.missFlock (s : State) (f n : Nat) : State :=
  let s := s.land ⟨f % 256, Nat.mod_lt _ (by decide)⟩
  let late := (s.flockCores f).filter (fun c => s.unfinished c n)
  let vers := late.filterMap (fun c => (s.coreSect c).map (fun x => x.2.1))
  let cells := (vers.flatMap (fun v => v.cells)).eraseDups
  let s := if late = [] ∨ s.treeLate f n then s.missTrees f n else s
  (late.foldl (fun t c => t.abandon c n) s).restoreCells (fun k => decide (k / 256 = f) && cells.contains k)
/-! ### What waits for a boundary (R379) -/

/-- Tokens placed in a queue shaper: its balance, with the counts that explain it (R275, R302). -/
def State.placeTokens (s : State) (pq : Nat) (bytes : Int) : State :=
  s.modQ pq (fun e =>
    let d := bytes * 65536 - e.tok
    { e with tok := bytes * 65536, added := e.added + d.toNat, spent := e.spent + (-d).toNat })
/-- One effect that waited for the boundary. -/
def State.runAct (s : State) (a : Act) : State :=
  match a with
  | .fragFlush => s.fragFlushNow
  | .treeOff f m => s.treeOut f m.toNat false
  | .arrayOff f m => s.arrayOut f m.toNat false
  | .patch core table i w =>
    let a := (core * 2 + b2n (s.arr.cores.get core).progBank) * 2 ^ 15 + (if table then 8192 else 0) + 8 * i
    { s with arr := { s.arr with desc := Mem.writeN s.arr.desc a (leBytes 8 w.toNat) } }
  | .lanePass m => (List.range 16).foldl (fun t l => if bits m l 1 = 1 then t.lanePass l false true else t) s
  | .lanePassOne l dev => s.lanePass l dev true
  | .devSafe dev => s.devSafeIn dev
  | .verdPatch ctx code slot w => s.verdPatchNow ctx code slot w
  | .forceRetire c => s.forceRetireNow c
  | .syncSet key v => if 248 ≤ key % 256 ∧ key % 256 ≤ 253 then s else { s with arr := { s.arr with cells := s.arr.cells.set key v } }
  | .syncMiss f => s.missFlock f (s.time.beat - 1)
  | .tokSet p te v =>
    let x := toSigned 64 v
    { s with eg := { s.eg with pol := s.eg.pol.mod p (fun b =>
      if te then { b with te := x, cntE := { b.cntE with added := b.cntE.added + (x - b.te) } }
      else { b with tc := x, cntC := { b.cntC with added := b.cntC.added + (x - b.tc) } }) } }
  | .qTokSet pq v => s.placeTokens pq v
  | .restoreCtx c => s.restoreNow c
  | .ctxDown c why dev => s.ctxDown c why dev
  | .flockWd f dev => s.flockOut f dev
  | .unitOut u => match unitOfCode u with
    | some u => s.unitOut u true
    | none => s
  | .readmit u => match unitOfCode u with
    | some u => s.readmit u
    | none => s
  | .laneRst l on => { s with lanes := s.lanes.mod l (fun x => { x with resetting := on }) }
  | .dbgEnter f => s.dbgEnterNow f
  | .dbgLeave f => s.leaveDebug f
  | .halt f v => { s with flocks := s.flocks.mod f (fun x => { x with halted := v && x.debug }) }
  | .stepf f => { s with flocks := s.flocks.mod f (fun x => { x with step := x.halted && x.debug }) }
  | .offerInjected port q fr => { s with eg := { s.eg with inj := s.eg.inj ++ [(port, q, fr)] } }
  | .tokenEnd => s.endToken
  | .tokenStart t jtag => s.startToken t jtag
  | .hqStart q => s.hqStartNow q
  | .speedChange g => [2 * g, 2 * g + 1].foldl (fun t p => if t.linkUp p then t.linkDown p else t) s
  | .learnCmd op mac vlan loc => s.learnNow op mac vlan loc
  | .selArm n x => s.selArmNow n x
  | .watchOff n => s.watchOffNow n
/-- Every effect that waited, in the order of the writes. -/
def State.runActs (s : State) : State := s.acts.foldl State.runAct { s with acts := [] }
/-- Register writes act from here on (R379). -/
def State.actNow (s : State) : State := { s with acting := s.regs }

/-! ### The hold buffer at a boundary (R50, R51, R66, R274) -/

/-- The high and low marks in force (R51, R52). -/
def State.marks (s : State) : Nat × Nat :=
  if s.act Reg.HOLD.MARK_X = 1 then (s.act Reg.HOLD.HIGH_CELLS, s.act Reg.HOLD.LOW_CELLS)
  else (s.act Reg.HOLD.HIGH_SEL * 32768, s.act Reg.HOLD.LOW_SEL * 32768)
/-- HOLD_BYPASS_CHECK (R51). -/
def State.bypassCheck (s : State) : State :=
  let n := s.rd Reg.HOLD.ALLOC
  if s.marks.1 < n then s.wr Reg.HOLD.BYPASS 1 else if n < s.marks.2 then s.wr Reg.HOLD.BYPASS 0 else s
/-- DEADLINE_BYPASS (R51): packets whose boundary b falls in bypass. -/
def State.deadlineBypass (s : State) : State :=
  if s.rd Reg.HOLD.BYPASS = 0 then s
  else
    { s with pkts := s.pkts.map (fun (e : Nat × Option Pkt) =>
      (e.1, e.2.map (fun p => if p.i.b = s.time.beat ∧ ¬ p.vd.gone ∧ ¬ p.vd.released then { p with vd := { p.vd with bypass := true } } else p))) }
/-- Packets that have left and whose boundary b + 5 is past are forgotten, and the lanes' occupancy counts are taken again (R66). -/
def State.purge (s : State) : State :=
  let n := s.time.beat
  let pkts : Tbl (Option Pkt) := s.pkts.filter (fun (e : Nat × Option Pkt) =>
    match e.2 with
    | some p => !(p.vd.gone && p.vd.done && decide (p.i.b + 5 < n))
    | none => false)
  let occ : Tbl Nat := pkts.foldl (fun (t : Tbl Nat) (e : Nat × Option Pkt) =>
    match e.2 with
    | some p => if n < p.i.b + 5 then t.mod (p.i.lane * 2 + p.i.slot) (· + 1) else t
    | none => t) []
  { s with pkts := pkts, cls := { s.cls with occ := occ } }

/-! ### The epoch boundary (R17, R106, R123, R145, R200, R219, R297, R299, R308) -/

/-- Change every entry of a table; entries that hold the default value are dropped. -/
def Tbl.mapD {α : Type} [Inhabited α] [DecidableEq α] (t : Tbl α) (g : α → α) : Tbl α :=
  t.filterMap (fun (e : Nat × α) => let v := g e.2; if v = default then none else some (e.1, v))
/-- Misses at which an island is withdrawn (R219): two for the port core, four for every other. -/
def missLimit (i : Nat) : Nat := if i = 24 then 2 else 4
/-- Counts that run from one epoch boundary to the next start again. A count that has reached its limit stays until its MISS_WITHDRAW; a context whose void
sets exceed the limit goes down first (R200). -/
def State.epochStart (s : State) : State :=
  let s := s.ctxs.keys.foldl State.ctxDue s
  let s := s.time.misses.foldl (fun t (e : Nat × Nat) => if 32 ≤ e.1 ∧ e.1 < 288 then t.wr Reg.FLOCK.MISS_EPOCH 0 (e.1 - 32) else t) s
  { s with
    time := { s.time with misses := s.time.misses.filter (fun (e : Nat × Nat) => decide (missLimit e.1 ≤ e.2)) },
    fcores := s.fcores.mapD (fun x => { x with faults := 0 }),
    tree := { s.tree with cores := s.tree.cores.mapD (fun x => { x with faults := 0 }) },
    arr := { s.arr with cores := s.arr.cores.mapD (fun x => { x with faults := 0 }) },
    ctxs := s.ctxs.mapD (fun x => { x with voidSets := 0, vdFaults := 0, voidDev := false }),
    flt := { s.flt with bridgeVoid := [], lastEpochPkts := s.flt.epochPkts, epochPkts := 0 } }

/-! ### BEAT_MARKER (R15) -/

/-- Counts of the beat that ends are done with; a flock that stepped halts again (R367). -/
def State.newBeat (s : State) : State :=
  let n := s.time.beat + 1
  { s with
    time := { s.time with beat := n, cycle := 0, islBeat := s.time.islBeat.set 24 n },
    laneAcc := [],
    host := { s.host with injLane := [] },
    flocks := s.flocks.mapD (fun x => { x with step := false }),
    obs := { s.obs with spent := 0, fwdSpent := 0, capt := [] } }
/-- The frequency in force: its own steering where the device leads its time, else what the herd's marks give (R227, R237). -/
def State.steerBeat (s : State) : State :=
  if s.obeysTime then s.slew else { s with time := { s.time with ppb := s.herd.steer, phaseLeft := 0 } }
/-- The boundary of the device: what the port core, the DMC and the meters do as beat n starts. -/
def State.boundary (s : State) : State :=
  let s := s.newBeat.actNow.runActs.actNow
  let s := if s.time.beat % 65536 = 0 then s.epochStart else s
  let s := s.tokenBeat.ledgerEffects.ruleSwitch.scrubBeat.entBoundary.steerBeat
  let s := (List.range 32).foldl State.settlePair s
  let s := if s.act Reg.CXL.JOB_EN = 0 then s.abortJobs (fun _ _ => true) else s
  let s := s.purge.bypassCheck.deadlineBypass.refillMeters
  (s.herdBeat.watchSweep.ledgerBeat).captureCycle.offerDue
/-- BEAT_MARKER: the marker of the port core starts beat n of the device, with every effect of the boundary; the marker of another island starts the
beat there. While a warm reset runs, only the beat count goes on (R310, R337). -/
def execBeatMarker (i : Island) (s : State) : Host.Outcome State Fault Refusal :=
  match i with
  | .portCore =>
    if s.time.started then
      if s.sec.reqReset = some true then .next s.coldDue else .next s.boundary
    else if s.sec.warm then .next { s with time := { s.time with beat := s.time.beat + 1, cycle := 0 } }
    else .next s
  | i =>
    if ¬ s.time.started ∨ s.time.beat ≤ s.time.islBeat.get i.num then .next s
    else
      let t := { s with time := { s.time with islBeat := s.time.islBeat.set i.num s.time.beat } }
      match i with
      | .flock f => .next (t.treeBeat f.val)
      | _ => .next t

/-! ### BEAT_MISS (R17, R219, R224) -/

/-- BEAT_MISS: commanded once the device's marker has started the next beat, for the beat before it. -/
def execBeatMiss (i : Island) (s : State) : Host.Outcome State Fault Refusal :=
  if ¬ s.time.started ∨ s.time.beat = 0 then .next s
  else
    let n := s.time.beat - 1
    let t := s.countMiss i
    match i with
    | .lane l => .next ((t.missPkts (fun x => x.i.lane == l.val && (x.i.b == n + 1 || x.i.b + 1 == n)) (fun x => if x.i.b + 1 = n then x.noFeature else x)).stopCores l.val)
    | .replica r => if s.replicaWd r.val then .next s else .next (t.missPkts (fun x => x.i.lane / 2 == r.val && x.i.b == n) Pkt.noFlow)
    | .portCore => .next (t.missPkts (fun x => x.i.b == n || (x.i.b + 1 == n && x.lk.updated && !x.lk.key.isEmpty) || x.i.b + 4 == n || x.i.b + 5 == n)
        (fun x => if x.i.b = n then x.noFlow else x))
    | .flock f =>
      if ((s.flocks.get f.val).withdrawn ∧ ¬ (s.flocks.get f.val).debug) ∨ (s.flocks.get f.val).ovf = n + 1 then .next s else .next (t.missFlock f.val n)
    | .hbmc m => .next ((t.missPkts (fun x => x.i.b == n && x.lk.searched && !x.lk.looked && (s.lookupStacks x).contains m.val) Pkt.noFlow).missAccesses)
    | .hlink p => if s.hlUp p.val then .next { t with herd := { t.herd with out := t.herd.out.filter (fun m => m.port != some p.val) } } else .next s

/-- MISS_WITHDRAW (R219): the island whose count has reached its limit is withdrawn, at a beat boundary after the miss that brought it there. -/
def execMissWithdraw (i : Island) (s : State) : Host.Outcome State Fault Refusal :=
  if s.time.misses.get i.num < missLimit i.num ∨ s.time.beat ≤ s.time.missAt.get i.num then .next s
  else
    let s := { s with time := { s.time with misses := s.time.misses.set i.num 0 } }
    match i with
    | .lane l => .next (s.lanePass l.val true true)
    | .replica r => .next (s.replicaOut r.val true)
    | .portCore => .next (s.devSafeIn true)
    | .flock f => .next (s.flockOut f.val true)
    | .hbmc _ => .next (s.devSafeIn true)
    | .hlink p => .next ({ s with hl := s.hl.mod p.val (fun x => { x with missOut := true }) }.setHl p.val 0)

/-! ### START (R226, R227, R337) -/

/-- The herd time at which the data path starts: SET_SEC and SET_NS against ORIGIN, or 0 without a SET_GO. -/
def State.startTime (s : State) : Nat :=
  if s.time.setDone then cycleOf ((s.time.setSec * 1000000000 + s.time.setNs) - s.rd Reg.TIME.ORIGIN_SEC * 1000000000) else 0
/-- START: in stage READY, and not in the boot of a warm reset. -/
def execStart (src : Source) (s : State) : Host.Outcome State Fault Refusal :=
  s.basicCmd src (fun s =>
    let s := s.auditCmd src Reg.DEV.START 0 1 (if s.rd Reg.DEV.STAGE = 4 ∧ ¬ s.sec.warm then 0 else 3)
    if s.rd Reg.DEV.STAGE ≠ 4 ∨ s.sec.warm then s
    else
      let t := s.startTime
      let s : State := { s with time := { s.time with beat := t / 512, cycle := t % 512 }, sec := { s.sec with domain := s.ledgerValue 2, owner := s.ledgerValue 6 } }
      ((((s.actNow.runActs.actNow).event Blk.DEV 0 0).dataPath).resetRecord).actNow) true

end Sys2Proof.Machine
end

