-- ==== Sys2Proof/Machine/Registers.lean ====
section
/-! DEFINITION. Register pages (R9 to R11, R344, R355, R372 to R384): the accesses of a source, the expert window, and the common EVENT registers. -/

namespace Sys2Proof.Machine

open Sys2Proof

/-- The state a meaning leaves; the state before where it leaves none. -/
def nextOf (s : State) (k : State → Host.Outcome State Fault Refusal) : State :=
  match k s with
  | .next t => t
  | .fault _ => s
  | .refused _ => s
/-- The number of the page of a block's instance (R372). -/
def pageNum (block inst : Nat) : Fin 512 := ⟨pageBase block inst / 4096 % 512, Nat.mod_lt _ (by decide)⟩

/-! ### EVENT, EVENT_MASK, EVENT_FORCE (R375, R377, R378) -/

/-- The EVENT bits that R375 and R377 name on a page; the others are reserved. -/
def eventBits (block inst : Nat) : Nat :=
  3 * 2 ^ 30 +
    (match block with
     | 1 => 7
     | 3 => 1
     | 4 => 3
     | 5 => 3
     | 8 => 7
     | 9 => 15
     | 7 => 1
     | 16 => 7
     | 18 => if inst = 0 then 3 else 1
     | 19 => 3
     | 20 => 1
     | 26 => 1
     | 33 => 1
     | 34 => 15
     | 35 => 7
     | 48 => 3
     | _ => 0)
/-- A page all of whose writes are audited (R344). -/
def auditedPage (block : Nat) : Bool := block == Blk.DEV || block == Blk.SEC || block == Blk.SET || block == Blk.CAL
/-- EVENT_CLEAR (R10, R378): each bit written 1 clears; an event that falls in the same schedule cycle leaves its bit set. -/
def execEventClear (src : Source) (page : Fin 512) (v sameCycle : Word) (s : State) : Host.Outcome State Fault Refusal :=
  match pageOf page.val with
  | none => .next s
  | some (block, inst) =>
    s.basicCmd src (fun s =>
      let w := s.eventWord block inst
      let new := (w - (w &&& v.toNat)) ||| (sameCycle.toNat &&& eventBits block inst)
      let t := (s.wrEvent block inst new).evtEdge s block inst
      if auditedPage block then t.audit { block := block, inst := inst, off := 0x18, source := src.num, old := w, new := new } else t)
/-- EVENT_FORCE (R375): an expert write sets the bits written 1. -/
def execEventForce (src : Source) (page : Fin 512) (v : Word) (s : State) : Host.Outcome State Fault Refusal :=
  match pageOf page.val with
  | none => .next s
  | some (block, inst) => s.expertCmd src (Reg.COMMON.EVENT_FORCE.on block) inst v.toNat (fun s => s.events block inst (v.toNat &&& eventBits block inst))
/-- EVENT_MASK_WRITE (R378): in force from the next schedule cycle; clearing a mask bit over a set EVENT bit raises vector 0. -/
def execEventMaskWrite (src : Source) (page : Fin 512) (v : Word) (s : State) : Host.Outcome State Fault Refusal :=
  match pageOf page.val with
  | none => .next s
  | some (block, inst) =>
    s.basicCmd src (fun s =>
      let f := Reg.COMMON.EVENT_MASK.on block
      let old := s.rd f inst
      let t := s.wrNow f v.toNat inst
      let t := if s.eventWord block inst &&& (old - (old &&& v.toNat)) = 0 then t else t.raiseVec 0
      if old = v.toNat ∧ ¬ auditedPage block then t
      else t.audit { block := block, inst := inst, off := 0x1C, source := src.num, old := old, new := v.toNat })

/-! ### The unlock (R381, R382) -/

/-- A token that grants EXPERT is active (R350). -/
def State.expertToken (s : State) : Bool := (s.auth.token.map (fun t => bits t.perms 2 1 == 1)).getD false
/-- A sequence ends: its result, and a new challenge. -/
def State.seqEnd (s : State) (r : Nat) : State := (({ s with sec := { s.sec with unlock := none } }).wr Reg.DEV.SEQ_RESULT r).drawChal
/-- The result of a write of EXPERT_KEY; 0 where it is the first key of a sequence. -/
def State.keyResult (s : State) (src : Source) (v : Nat) : Nat :=
  if ¬ s.expertToken then 2
  else
    match s.sec.unlock with
    | none => if v = 0x4B310000 + s.sec.chal.toNat then 0 else 3
    | some (src1, b) =>
      if src1 ≠ src then 4
      else if v ≠ 0x4B320000 + s.sec.chal.toNat then 3
      else if b + 64 < s.time.beat then 5
      else 1
/-- What a write of EXPERT_KEY does. -/
def State.expertKey (s : State) (src : Source) (v : Nat) : State :=
  let r := s.keyResult src v
  let s := (({ s with sec := { s.sec with low := s.sec.low.erase src.num } }).auditCmd src Reg.DEV.EXPERT_KEY 0 v (if r ≤ 1 then 0 else if r = 2 then 2 else 3))
  if r = 0 then { s with sec := { s.sec with unlock := some (src, s.time.beat) } }
  else if r = 1 then { (s.wr Reg.DEV.EXPERT_SRC src.num).seqEnd 1 with auth := { s.auth with unlocked := s.expertToken } }
  else s.seqEnd r
/-- EXPERT_KEY (R381). -/
def execExpertKey (src : Source) (v : Word) (s : State) : Host.Outcome State Fault Refusal :=
  if s.pagesOpen ∧ s.mayWrite src false then .next (s.expertKey src v.toNat) else .next s
/-- LOCK (R382). -/
def execLock (src : Source) (s : State) : Host.Outcome State Fault Refusal :=
  s.basicCmd src (fun s => ({ s with auth := { s.auth with unlocked := false } }).auditCmd src Reg.DEV.LOCK 0 1 0)
/-- VEC0_FORCE (R384): a vector 0 message, whatever EVT_SUM holds. -/
def execVec0Force (src : Source) (s : State) : Host.Outcome State Fault Refusal :=
  s.expertCmd src Reg.DEV.VEC0_FORCE 0 1 (fun s => s.raiseVec 0)

/-! ### Words that are commands -/

/-- A DEV.CTRL word (R384): with WARM and COLD both set it acts as COLD. -/
def State.devCtrl (s : State) (src : Source) (v : Nat) : State :=
  let key : BitVec 16 := BitVec.ofNat 16 (v / 65536)
  let s := if bits v 0 1 = 1 then nextOf s (execStart src) else s
  if bits v 2 1 = 1 then nextOf s (execColdRequest src key) else if bits v 1 1 = 1 then nextOf s (execWarmRequest src key) else s
/-- An ENT_CMD word (R71, R402). -/
def State.entWord (s : State) (src : Source) (r : Fin 8) (v : Nat) : State :=
  let e := entCmdOf r v
  match entOpOf (bits v 16 3) with
  | .write => nextOf s (execEntWrite src e)
  | .setStaged => nextOf s (execEntSetStaged src e)
  | .clearStaged => nextOf s (execEntClearStaged src e)
  | .read => nextOf s (execEntRead src e)
  | .repair => nextOf s (execEntRepair src e)
  | .reserved => nextOf s (fun s => s.basicCmd src (fun s => s.entStart src .reserved e))
/-- A CTX.CMD word (R218); value 0 names no command. -/
def State.ctxWord (s : State) (src : Source) (v : Nat) : Option State :=
  let herd := bits v 3 1 == 1
  match bits v 0 3 with
  | 1 => some (nextOf s (execLoad src))
  | 2 => some (nextOf s (execCommit src herd))
  | 3 => some (nextOf s (execAbort src))
  | 4 => some (nextOf s (execDiscard src))
  | 5 => some (nextOf s (execUnload src))
  | 6 => some (nextOf s (execLoadLayout src))
  | 7 => some (nextOf s (execCommitLayout src herd))
  | _ => none
/-- RST_GO for the unit that RST_KIND and RST_UNIT name (R316). The outcome of a flock's re-test is a free value. -/
def State.rstGo (s : State) (src : Source) : State :=
  let u := s.rd Reg.LEDG.RST_UNIT
  if s.rd Reg.LEDG.RST_KIND = 1 ∧ u < 16 then nextOf s (execLaneReset src ⟨u % 16, Nat.mod_lt _ (by decide)⟩)
  else if s.rd Reg.LEDG.RST_KIND = 2 then
    let (x, s) := s.fresh
    nextOf s (execFlockReset src ⟨u % 256, Nat.mod_lt _ (by decide)⟩ (x.toNat % 2 == 1))
  else nextOf s (fun s => s.basicCmd src (fun s => s.rstRefuse src))
/-- Both bits of a word that holds two commands, the lower first. -/
def twoBits (v : Nat) (s : State) (a b : State → Host.Outcome State Fault Refusal) : Option State :=
  if bits v 0 2 = 0 then none
  else
    let s := if bits v 0 1 = 1 then nextOf s a else s
    some (if bits v 1 1 = 1 then nextOf s b else s)
/-- A 32-bit word whose field has a command of its own: what that command leaves; none for any other word. -/
def State.cmdWord (s : State) (src : Source) (block inst off v : Nat) : Option State :=
  let go (k : State → Host.Outcome State Fault Refusal) : Option State := some (nextOf s k)
  let one (k : State → Host.Outcome State Fault Refusal) : Option State := if bits v 0 1 = 1 then some (nextOf s k) else none
  let w : Word := BitVec.ofNat 32 v
  let f : Flock := ⟨inst % 256, Nat.mod_lt _ (by decide)⟩
  if off = 0x18 then go (execEventClear src (pageNum block inst) w 0)
  else if off = 0x1C then go (execEventMaskWrite src (pageNum block inst) w)
  else if off = 0x20 then go (execEventForce src (pageNum block inst) w)
  else
    match block, off with
    | 1, 0x10 => if bits v 0 3 = 0 then none else some (s.devCtrl src v)
    | 1, 0x60 => if bits v 1 1 = 1 then go (execLock src) else none
    | 1, 0x64 => go (execExpertKey src w)
    | 1, 0x800 => one (execVec0Force src)
    | 3, 0x44 => one (execLedgerWrite src)
    | 4, 0x6C => one (execFwGo src)
    | 4, 0x98 => twoBits v s (execDbgGo src) (execDbgRevoke src)
    | 6, 0x64 => one (execSetGo src)
    | 6, 0x68 => go (execFreqAdj src (toSigned 32 v))
    | 6, 0x6C => go (execPhaseAdj src (toSigned 32 v))
    | 7, 0x58 => one (execCalWrite src)
    | 7, 0x800 => one (execCalForce src)
    | 8, 0x800 => go (execVoltOvr src (BitVec.ofNat 16 v) (bits v 16 1 == 1))
    | 8, 0x808 => go (execPlannerHold src (bits v 0 1 == 1))
    | 9, 0x54 => go (execAlertPendClear src (bits v 0 1 == 1))
    | 9, 0x64 => one (execRetestGo src)
    | 9, 0x74 => if bits v 0 1 = 1 then some (s.rstGo src) else none
    | 9, 0x800 => go (execNoBreakAct src (bits v 0 1 == 1))
    | 9, 0x804 => go (execBreakInj src ⟨bits v 0 4, Nat.mod_lt _ (by decide)⟩)
    | 10, 0x54 => one (execSelectorArm src)
    | 10, 0x110 => twoBits v s (execWArm src) (execWDisarm src)
    | 11, 0x44 => twoBits v s (execDbgEnter src) (execDbgLeave src)
    | 11, 0x48 =>
      let t := if bits v 1 1 = 1 ∧ bits v 0 1 = s.rd Reg.DBG.HALT then s else nextOf s (execHalt src (bits v 0 1 == 1))
      some (if bits v 1 1 = 1 then nextOf t (execStepf src) else t)
    | 16, 0x40 => go (execPortCfgWrite src ⟨inst % 16, Nat.mod_lt _ (by decide)⟩ w)
    | 18, 0x310 => some (s.entWord src ⟨inst % 8, Nat.mod_lt _ (by decide)⟩ v)
    | 18, 0x418 => if inst = 0 then twoBits v s (execRuleCommit src) (execRuleAbort src) else none
    | 18, 0x50C => if inst = 0 then one (execLoadGo src) else none
    | 19, 0x88 => one (execFlowFlush src)
    | 19, 0xF0 => if bits v 0 2 = 1 then go (execFlowRead src) else if bits v 0 2 = 2 then go (execFlowDelete src) else none
    | 19, 0x2A0 => twoBits v s (execRehashGo src) (execRehashStop src)
    | 20, 0x8C => if bits v 0 2 = 1 then go (execLearnAddStatic src) else if bits v 0 2 = 2 then go (execLearnDelete src) else if bits v 0 2 = 3 then go (execLearnRead src) else none
    | 21, 0x800 => one (execFragFlush src)
    | 23, 0x150 => go (execRestoreCtx src ⟨bits v 0 12, Nat.mod_lt _ (by decide)⟩)
    | 23, 0x800 => go (execLanePassSet src (BitVec.ofNat 16 v))
    | 23, 0x804 => one (execForceSafe src)
    | 23, 0x810 => one (execVerdPatchGo src)
    | 24, 0x804 => go (execQTokensSet src w)
    | 25, 0x810 => one (execTokGo src)
    | 32, 0x800 => one (execEccInj src ⟨inst % 8, Nat.mod_lt _ (by decide)⟩)
    | 33, 0x48 => go (execHlinkEnable src ⟨inst % 12, Nat.mod_lt _ (by decide)⟩ (bits v 0 1 == 1))
    | 34, 0x58 =>
      let t := if bits v 1 1 = 1 ∧ bits v 0 1 = s.rd Reg.HERD.JOIN then s else nextOf s (execHerdJoin src (bits v 0 1 == 1))
      some (if bits v 1 1 = 1 then nextOf t (execHerdLeave src) else t)
    | 34, 0xA8 => twoBits v s (execStopRequest src) (execResumeRequest src)
    | 35, 0x44 => s.ctxWord src v
    | 35, 0x800 => one (execForceRetire src)
    | 48, 0x330 => go (execTreeWdReq src f ⟨bits v 0 6, Nat.mod_lt _ (by decide)⟩)
    | 48, 0x438 => go (execArrayWdReq src f ⟨bits v 0 6, Nat.mod_lt _ (by decide)⟩)
    | 48, 0x8C0 =>
      if bits v 8 1 = 1 then
        go (execInjArm src f ⟨bits v 0 3, Nat.mod_lt _ (by decide)⟩ (if bits v 3 1 = 1 then .bulk else .express) ⟨bits v 4 4, Nat.mod_lt _ (by decide)⟩)
      else none
    | 48, 0x910 => one (execFlockPatchGo src f)
    | 48, 0x944 => one (execSyncSetGo src f)
    | _, _ =>
      if block = Blk.FLOW ∧ 0x210 ≤ off ∧ off < 0x270 ∧ (off - 0x210) % 32 < 24 then
        go (execUaccDescriptorWrite src ⟨(off - 0x210) / 32 % 3, Nat.mod_lt _ (by decide)⟩ ⟨(off - 0x210) % 32 / 8 % 3, Nat.mod_lt _ (by decide)⟩
          (if off % 8 = 0 then .first else .second) (BitVec.ofNat 64 v))
      else none
/-- A 64-bit word whose field has a command of its own. -/
def State.cmdWide (s : State) (src : Source) (block inst off v : Nat) : Option State :=
  let go (k : State → Host.Outcome State Fault Refusal) : Option State := some (nextOf s k)
  let d : DWord := BitVec.ofNat 64 v
  let f : Flock := ⟨inst % 256, Nat.mod_lt _ (by decide)⟩
  match block, off with
  | 5, 0x210 => go (execJobProdWrite src d)
  | 26, 0x50 => go (execInjProdWrite src d)
  | 48, 0x840 => go (execTreeOff src f d)
  | 48, 0x880 => go (execArrayOff src f d)
  | 48, 0xF48 => if s.debugOpen block inst then go (execMemDataWrite src f d) else some (s.wrote src)
  | _, _ =>
    if block = Blk.HQ ∧ 0x120 ≤ off ∧ off < 0x320 ∧ (off - 0x120) % 64 = 0 then go (execHqConsWrite src ⟨(off - 0x120) / 64 % 8, Nat.mod_lt _ (by decide)⟩ d)
    else if block = Blk.FLOW ∧ 0x210 ≤ off ∧ off < 0x270 ∧ (off - 0x210) % 32 < 24 then
      go (execUaccDescriptorWrite src ⟨(off - 0x210) / 32 % 3, Nat.mod_lt _ (by decide)⟩ ⟨(off - 0x210) % 32 / 8 % 3, Nat.mod_lt _ (by decide)⟩ .both d)
    else none

/-! ### The basic checks (R380) -/

/-- The size of region k may become v GiB (R24, R282, R293): before the data path starts, and not while a warm reset boots. -/
def State.regionOk (s : State) (k v : Nat) : Bool :=
  !s.time.started && !s.sec.warm && k != 0 && decide (v ≤ [256, 128, 192, 128, 32, 32].getD k 0) && (k != 5 || decide (16 ≤ v)) &&
    decide ((((List.range 6).filter (· ≠ k)).map (fun j => s.rd Reg.CXL.REGION_GIB 0 j)).sum + v ≤ 768)
/-- What the check of a basic field makes of a value: what the field stores, or nothing where it stays unchanged. -/
def State.basicCheck (s : State) (e : Elem) (v : Nat) : Option Nat :=
  let when_ (b : Bool) : Option Nat := if b then some v else none
  let lo := e.f.lo
  let ringOff := s.rd Reg.HQ.EN 0 e.idx == 0
  let injOff := s.rd Reg.HQ.INJ_EN == 0
  let jobOff := s.rd Reg.CXL.JOB_EN == 0
  let opened := s.rd Reg.TCAM.COMMIT_STATE == 0
  match e.f.block, e.f.off with
  | 5, 0x68 => when_ (v % 2 ^ 32 == 0)
  | 5, 0x100 => when_ (s.regionOk e.idx v)
  | 5, 0x200 => when_ (jobOff && v % 64 == 0)
  | 5, 0x208 => if lo = 0 then when_ (jobOff && decide (4 ≤ v) && decide (v ≤ 16)) else some v
  | 6, 0x50 => when_ (!s.time.started)
  | 6, 0x58 => when_ (!s.time.started)
  | 6, 0x60 => when_ (!s.time.started)
  | 8, 0x5C => when_ (decide (32 ≤ s.rd Reg.AGE.ISL_SEL) && decide (s.rd Reg.AGE.ISL_SEL < 288))
  | 8, 0x60 => when_ (decide (90 ≤ v) && decide (v ≤ 365))
  | 16, 0x44 => when_ (e.idx != 15 && (v != 3 || e.idx == 2 || e.idx == 3 || e.idx == 8 || e.idx == 9))
  | 18, 0x100 => when_ opened
  | 18, 0x328 => when_ opened
  | 18, 0x340 => when_ opened
  | 18, 0x480 => when_ opened
  | 18, 0x408 => when_ opened
  | 18, 0x410 => when_ opened
  | 18, 0x500 => when_ (v % 64 == 0)
  | 19, 0x200 => when_ (decide (1 ≤ v) && decide (v ≤ 8))
  | 19, 0x2A4 => some (Nat.max v 64)
  | 22, 0x40 => if lo = 0 then some (Nat.max v 8) else some v
  | 23, 0x140 => when_ (v != 0)
  | 23, 0x14C => some (Nat.min (Nat.max v 64) 9216)
  | 24, 0x44 => if lo = 1 then some (Nat.max v 1) else if lo = 12 then some (Nat.min v 524288) else some v
  | 24, 0x58 => if lo = 0 then some (Nat.min v 524288) else some v
  | 24, 0x5C => if lo = 8 then when_ (s.rd Reg.SHAPE.MIR_SEL != 0) else some v
  | 25, 0x4C => if s.rd Reg.POLICE.POL_SEL = 0 then none else some (Nat.max v 9216)
  | 25, 0x54 => if s.rd Reg.POLICE.POL_SEL = 0 then none else some (Nat.max v 9216)
  | 25, 0x44 => when_ (s.rd Reg.POLICE.POL_SEL != 0)
  | 25, 0x48 => when_ (s.rd Reg.POLICE.POL_SEL != 0)
  | 25, 0x50 => when_ (s.rd Reg.POLICE.POL_SEL != 0)
  | 26, 0x40 => when_ injOff
  | 26, 0x48 => if lo = 0 then when_ (injOff && decide (4 ≤ v) && decide (v ≤ 16)) else if lo = 8 then when_ injOff else some v
  | 26, 0x100 => when_ ringOff
  | 26, 0x108 => when_ ringOff
  | 26, 0x110 => if lo = 0 then when_ (ringOff && decide (4 ≤ v) && decide (v ≤ 24)) else if lo = 8 then when_ ringOff else some v
  | 32, 0x60 => when_ (decide (22 ≤ v) && decide (v ≤ 30))
  | 35, 0xE8 => when_ (decide (64 ≤ v))
  | _, _ => some v
/-- A word that is refused as a whole: the hold marks (R52), and the shape and coordinates of a herd (R253). -/
def State.wordRefused (s : State) (block off v : Nat) : Bool :=
  match block, off with
  | 22, 0x40 => decide (Nat.max (bits v 0 4) 8 ≤ bits v 4 4)
  | 34, 0x48 => s.herdState != 0 || decide (s.rd Reg.HERD.NX ≤ bits v 0 5) || decide (s.rd Reg.HERD.NY ≤ bits v 8 5) || decide (s.rd Reg.HERD.NZ ≤ bits v 16 5)
  | 34, 0x4C => s.herdState != 0 || bits v 0 6 == 0 || decide (32 < bits v 0 6) || bits v 8 6 == 0 || decide (32 < bits v 8 6) || bits v 16 5 == 0 || decide (20 < bits v 16 5)
  | _, _ => false

/-! ### Plain writes -/

/-- Fields whose names end in SEL: a change of one is not audited (R344). -/
def selFields : List Field :=
  [Reg.HOLD.HIGH_SEL, Reg.HOLD.LOW_SEL, Reg.VERD.CTX_SEL, Reg.VERD.CODE_SEL, Reg.VERD.SLOT_SEL, Reg.CTX.CTX_SEL, Reg.FLOCK.SYNC_SEL, Reg.SHAPE.PORT_SEL,
   Reg.SHAPE.Q_SEL, Reg.SHAPE.MIR_SEL, Reg.POLICE.POL_SEL, Reg.POLICE.TOK_SEL, Reg.CAL.CAL_SEL, Reg.AGE.ISL_SEL, Reg.SAMP.SEL_SEL, Reg.SAMP.WATCH_SEL]
/-- Store an element. The staged tables of the classifier stand in the replica's staged slot (R58 to R60, R63). -/
def State.putElem (s : State) (e : Elem) (v : Nat) : State :=
  let f := e.f
  let slot := s.stagedSlot
  match f.block, f.off with
  | 18, 0x100 => { s with cls := { s.cls with banks := s.cls.banks.set ((e.inst * 2 + slot) * 48 + e.idx) v } }
  | 18, 0x328 => { s with cls := { s.cls with presel := s.cls.presel.set ((e.inst * 2 + slot) * 4096 + s.rd Reg.TCAM.PRESEL_IDX e.inst) v } }
  | 18, 0x340 => { s with cls := { s.cls with lpmDom := s.cls.lpmDom.set ((e.inst * 2 + slot) * 32 + e.idx) v } }
  | 18, 0x480 =>
    let w : ActWord := Rule.clean (BitVec.ofNat 128 (setBits (s.defAct slot).toNat (32 * e.idx) 32 v))
    if slot = 0 then { s with cls := { s.cls with defAct0 := w } } else { s with cls := { s.cls with defAct1 := w } }
  | 18, 0x300 => s.wr f (if e.idx = 2 then v / 65536 * 65536 + v % 8 else v) e.inst e.idx (s.selOf f)
  | 26, 0x48 =>
    let s := s.wr f v e.inst e.idx (s.selOf f)
    if f.lo = 9 then { s with host := { s.host with injOff := false } } else s
  | _, _ => s.wr f v e.inst e.idx (s.selOf f)
/-- The progress of a write through the elements of a word: an element a check left unchanged, and a change that is audited. -/
structure Wrote where
  s : State
  left : Bool
  changed : Bool
/-- Write one element: basic fields check the value (R380), expert and debug fields take it. -/
def Wrote.elem (p : Wrote) (src : Source) (e : Elem) (v : Nat) : Wrote :=
  if e.f.acc ≠ .rw then p
  else
    let old := p.s.elemValue e
    if e.f.block = Blk.HQ ∧ e.f.off = 0x110 ∧ e.f.lo = 9 ∧ v = 1 then { p with s := p.s.hqSetEn src e.idx }
    else
      match if e.f.off < 0x800 then p.s.basicCheck e v else some v with
      | none => { p with left := p.left || v != old || (e.f.block == Blk.TCAM && (e.f.off == 0x408 || e.f.off == 0x410)) }
      | some w => { p with s := p.s.putElem e w, changed := p.changed || (w != old && !selFields.contains e.f) }
/-- A write of n bytes, 4 or 8, of fields without a command of their own: checked, stored, audited (R344, R379 to R383). -/
def State.plainWrite (s : State) (src : Source) (block inst off n v : Nat) : State :=
  let s := s.wrote src
  let es := elemsAt block inst (8 * off) (8 * (off + n))
  let expert := decide (0x800 ≤ off) && decide (off < 0xF00) && block != Blk.ZCT
  if 0xF00 ≤ off ∧ ¬ s.debugOpen block inst then s
  else
    let old := s.pageBits block inst (8 * off) (8 * n)
    let p : Wrote :=
      if expert && !s.auth.unlocked then { s := s, left := false, changed := false }
      else if s.wordRefused block off v then { s := s, left := v % 2 ^ 32 != old % 2 ^ 32, changed := false }
      else es.foldl (fun (p : Wrote) (e : Elem) => p.elem src e (v / 2 ^ (Elem.pos e - 8 * off) % 2 ^ e.f.width)) { s := s, left := false, changed := false }
    let t := p.s
    let t := if block = Blk.HERD ∧ off = 0x4C ∧ p.changed then t.retrainPorts else t
    if expert || auditedPage block || es.any (fun e => e.f.acc == .wo) || p.left || p.changed then
      t.audit { block := block, inst := inst, off := off, source := src.num, result := if expert ∧ ¬ s.auth.unlocked then 2 else if p.left then 1 else 0,
                old := old, new := t.pageBits block inst (8 * off) (8 * n) }
    else t
/-- A write of one 32-bit word. -/
def State.writeWord (s : State) (src : Source) (block inst off v : Nat) : State :=
  match s.cmdWord src block inst off v with
  | some t => t
  | none => s.plainWrite src block inst off 4 v
/-- The element of more than 32 bits in the 64-bit word that holds a page offset. -/
def wideAt (block inst off : Nat) : Option Elem :=
  (elemsAt block inst (off / 8 * 64) (off / 8 * 64 + 64)).find? (fun e => decide (32 < e.f.width))
/-- A write of one 64-bit word: a wide field whole, else its two 32-bit words, the lower first. -/
def State.writeDword (s : State) (src : Source) (block inst off v : Nat) : State :=
  match s.cmdWide src block inst off v with
  | some t => t
  | none =>
    if (wideAt block inst off).isSome then s.plainWrite src block inst off 8 v
    else (s.writeWord src block inst off (v % 2 ^ 32)).writeWord src block inst (off + 4) (v / 2 ^ 32)
/-- The low half of a wide field is held; it does not act (R374). A locked expert field holds nothing. -/
def State.holdLow (s : State) (src : Source) (block inst off v : Nat) : State :=
  let expert := decide (0x800 ≤ off) && decide (off < 0xF00)
  if (expert && !s.auth.unlocked) || (decide (0xF00 ≤ off) && !s.debugOpen block inst) then s.plainWrite src block inst off 4 v
  else
    let t := s.wrote src
    let t := { t with sec := { t.sec with low := t.sec.low.set src.num (some (pageBase block inst + off, v)) } }
    let old := t.pageBits block inst (8 * off) 32
    if expert || auditedPage block then t.audit { block := block, inst := inst, off := off, source := src.num, old := old, new := old } else t
/-- The high half applies the field, with the low half the source held for it in its previous write, else with the field's own (R374). -/
def State.writeHigh (s : State) (src : Source) (block inst off v : Nat) : State :=
  let base := off / 8 * 8
  let lowNow := s.pageBits block inst (8 * base) 32
  let low := match s.sec.low.get src.num with
    | some (a, x) => if a = pageBase block inst + base then x else lowNow
    | none => lowNow
  s.writeDword src block inst base (low + v * 2 ^ 32)
/-- What the sideband may write: DEV.CTRL, ALERT_PEND, and the mailboxes of SET and SEC (R343). -/
def mailPage (block off : Nat) : Bool :=
  (block == Blk.DEV && off == 0x10) || (block == Blk.LEDG && off == 0x54) || ((block == Blk.SET || block == Blk.SEC) && decide (0x40 ≤ off) && decide (off < 0x800))
/-- A write access of 32 or 64 bits to a page. Before stage READY only DEV.CTRL takes requests (R336). -/
def State.pageWrite (s : State) (src : Source) (block inst off size v : Nat) : State :=
  if ¬ s.mayWrite src (mailPage block off) then s
  else if ¬ s.pagesOpen then (if block = Blk.DEV ∧ off = 0x10 then s.devCtrl src (v % 2 ^ 32) else s)
  else if size = 64 then s.writeDword src block inst off v
  else if (wideAt block inst off).isNone then s.writeWord src block inst off v
  else if off % 8 = 0 then s.holdLow src block inst off v
  else s.writeHigh src block inst off v

/-! ### Reads -/

/-- The data of a read. -/
def State.readData (s : State) (v : Nat) : State := { s with host := { s.host with regData := v } }
/-- A read pops, clears or latches what lies in its bytes: RX_TS_INFO and TX_TS_INFO (R256), AF (R165), BEAT (R252). The state after it, and the bits
that a popped entry adds to the data. -/
def State.readEffects (s : State) (src : Source) (block inst off n : Nat) : State × Nat :=
  let meets (a k : Nat) : Bool := decide (off < a + k) && decide (a < off + n)
  let pop (s : State) (a : Nat) (d : TsDir) : State × Nat :=
    if meets a 4 then
      let t := nextOf s (execTsFifoPop src ⟨inst % 16, Nat.mod_lt _ (by decide)⟩ d)
      (t, t.host.regData * 2 ^ (8 * a) / 2 ^ (8 * off) % 2 ^ (8 * n))
    else (s, 0)
  if block = Blk.PORT then
    let (s, x) := pop s 0xC4 .rx
    let (s, y) := pop s 0xD8 .tx
    (s, x + y)
  else if block = Blk.FLOCK ∧ meets 0x450 8 then (nextOf s (execAfRead src ⟨inst % 256, Nat.mod_lt _ (by decide)⟩), 0)
  else if block = Blk.TIME ∧ meets 0x40 8 then (nextOf s (execTimeBeatRead src), 0)
  else (s, 0)
/-- A register wider than 32 bits: a wide field, or AF, whose fields share one word of 64 bits. -/
def wideRead (block inst off : Nat) : Bool := (wideAt block inst off).isSome || (block == Blk.FLOCK && off / 8 == 0x450 / 8)
/-- Bytes of a page as a read returns them, with the read's effects. -/
def State.readNow (s : State) (src : Source) (block inst off n : Nat) : State × Nat :=
  let v := s.barRead (pageBase block inst + off) n
  let (t, x) := s.readEffects src block inst off n
  (t, v + x)
/-- A read of n bytes of a page. A 32-bit read of the low half of a wide register latches the high half, and the source's next 32-bit read of that high
half returns it (R355, R374). -/
def State.pageRead (s : State) (src : Source) (block inst off n : Nat) : State :=
  let key := pageBase block inst + off / 8 * 8
  let plain (u : Unit) : State := let _ := u; let (t, v) := s.readNow src block inst off n; t.readData v
  if n = 4 ∧ off % 4 = 0 ∧ wideRead block inst off then
    if off % 8 = 0 then
      let (t, v) := s.readNow src block inst off 8
      ({ t with sec := { t.sec with latch := t.sec.latch.set src.num (some (key, v / 2 ^ 32)) } }).readData (v % 2 ^ 32)
    else
      match s.sec.latch.get src.num with
      | some (a, h) => if a = key then ({ s with sec := { s.sec with latch := s.sec.latch.erase src.num } }).readData h else plain ()
      | none => plain ()
  else plain ()
/-- A source can read: JTAG only through an open port (R352), the host while CXL.io is not insecure (R285). -/
def State.mayRead (s : State) (src : Source) : Bool :=
  match src with
  | .bar0 => s.host.ideIo != .insecure
  | .sideband => true
  | .jtag => s.sec.jtag

/-! ### REGISTER_WRITE and LOW_HALF_READ (R355, R373, R374) -/

/-- An access R373 counts: of a size other than 32 or 64 bits, not naturally aligned, a write with partial byte enables, or of an unmapped address. -/
def badAccess (a : RegAccess) : Bool :=
  (a.size != 32 && a.size != 64) || a.addr % (a.size / 8) != 0 || (a.write && !a.fullBytes) || (pageOf (a.addr / 4096)).isNone
/-- One register access. -/
def State.access (s : State) (src : Source) (a : RegAccess) : State :=
  if src = .bar0 ∧ s.host.ideIo = .insecure then (if a.write then s else s.readData 0) else
  let s := if badAccess a then s.bump Reg.DEV.BAD_ACCESS else s
  match pageOf (a.addr / 4096) with
  | none => if a.write then s else s.readData 0
  | some (block, inst) =>
    if a.write then (if badAccess a then s else s.pageWrite src block inst (a.addr % 4096) a.size (a.value % 2 ^ a.size))
    else if ¬ s.mayRead src ∨ (block ≠ Blk.DEV ∧ ¬ s.pagesOpen) then s.readData 0
    else s.pageRead src block inst (a.addr % 4096) ((a.size + 7) / 8)
/-- A 32-bit word of BAR4 as it reads (R280): MSI-X table entries of four words, the last with the mask in bit 0; the pending-bit array; the component
registers, of which the HDM decoder's control register shows committed in bit 10 and a failed commit in bit 11. -/
def State.bar4Word (s : State) (w : Nat) : Nat :=
  if w < 0x2000 then s.host.msixTab.get w + (if w % 4 = 3 then b2n (!(s.host.msix.get (w / 4)).unmasked) else 0)
  else if w < 0x4000 then ((List.range 32).map (fun i => b2n (s.host.msix.get (32 * (w - 0x2000) + i)).pending * 2 ^ i)).sum
  else
    let v := s.host.comp.get w
    if w = Config.hdmControl then v % 2 ^ 10 + b2n s.host.hdm * 2 ^ 10 + b2n s.host.hdmErr * 2 ^ 11 + v / 2 ^ 12 * 2 ^ 12 else v
/-- A write of one of them. -/
def State.setBar4Word (s : State) (w v : Nat) : State :=
  if w < 0x2000 then
    if w % 4 = 3 then
      ({ s with host := { s.host with msixTab := s.host.msixTab.set w (v / 2 * 2), msix := s.host.msix.mod (w / 4) (fun m => { m with unmasked := decide (v % 2 = 0) }) } }).msixTry (w / 4)
    else { s with host := { s.host with msixTab := s.host.msixTab.set w v } }
  else if w < 0x4000 then s
  else { s with host := { s.host with comp := s.host.comp.set w v } }
/-- A host access to BAR4 (R280, R285): 32 or 64 bits, aligned; any other size reads zeros and writes nothing. -/
def State.bar4Access (s : State) (a : RegAccess) : State :=
  if s.rd Reg.CXL.LINK_UP = 0 ∨ s.host.ideIo = .insecure then s
  else if (a.size ≠ 32 ∧ a.size ≠ 64) ∨ a.addr % (a.size / 8) ≠ 0 ∨ (a.write ∧ ¬ a.fullBytes) then (if a.write then s else s.readData 0)
  else if a.write then (List.range (a.size / 32)).foldl (fun t i => t.setBar4Word (a.addr / 4 + i) (bits a.value (32 * i) 32)) s
  else s.readData ((List.range (a.size / 32)).map (fun i => s.bar4Word (a.addr / 4 + i) * 2 ^ (32 * i))).sum
/-- REGISTER_WRITE (R280, R372 to R374, R379): a register access of a source; past the 64 MiB of BAR0, or the 256 KiB of BAR4, there is no register. -/
def execRegisterWrite (src : Source) (a : RegAccess) (s : State) : Host.Outcome State Fault Refusal :=
  if a.bar4 then (if 2 ^ 18 ≤ a.addr then .fault (.noBarAddress a.addr) else if src = .bar0 then .next (s.bar4Access a) else .next s)
  else if 2 ^ 26 ≤ a.addr then .fault (.noBarAddress a.addr) else .next (s.access src a)
/-- LOW_HALF_READ (R355): a 32-bit read, which latches the high half of a wide counter. -/
def execLowHalfRead (src : Source) (addr : Nat) (s : State) : Host.Outcome State Fault Refusal :=
  if 2 ^ 26 ≤ addr then .fault (.noBarAddress addr) else .next (s.access src { addr := addr, size := 32, value := 0, write := false, fullBytes := true })

end Sys2Proof.Machine
end

