-- ==== Sys2Proof/Machine/Dispatch.lean ====
section
/-! DEFINITION. The meaning of each command: one arm per constructor of `Instr`. -/

namespace Sys2Proof.Machine

open Sys2Proof

/-- The effect of a command on everything but the queue. -/
def exec (i : Instr) (s : State) : Host.Outcome State Fault Refusal :=
  match i with
  | .beatMarker x => Sys2Proof.Machine.execBeatMarker x s
  | .beatMiss x => Sys2Proof.Machine.execBeatMiss x s
  | .missWithdraw x => Sys2Proof.Machine.execMissWithdraw x s
  | .pllLockLoss => Sys2Proof.Machine.execPllLockLoss s
  | .frameStart p data ts => Sys2Proof.Machine.execFrameStart p data ts s
  | .packetAccept p l => Sys2Proof.Machine.execPacketAccept p l s
  | .frameEnd p => Sys2Proof.Machine.execFrameEnd p s
  | .fcsResult pk ok => Sys2Proof.Machine.execFcsResult pk ok s
  | .pauseFrame p enable quanta => Sys2Proof.Machine.execPauseFrame p enable quanta s
  | .pauseExpire p k => Sys2Proof.Machine.execPauseExpire p k s
  | .ethLinkUp p => Sys2Proof.Machine.execEthLinkUp p s
  | .ethLinkDown p => Sys2Proof.Machine.execEthLinkDown p s
  | .portCfgWrite src g v => Sys2Proof.Machine.execPortCfgWrite src g v s
  | .ruleSearch pk bad => Sys2Proof.Machine.execRuleSearch pk bad s
  | .tcamScrub r bank entry bad => Sys2Proof.Machine.execTcamScrub r bank entry bad s
  | .fragEntryFree bucket way => Sys2Proof.Machine.execFragEntryFree bucket way s
  | .fragFlush src => Sys2Proof.Machine.execFragFlush src s
  | .flowLookup pk badCache badFrag => Sys2Proof.Machine.execFlowLookup pk badCache badFrag s
  | .victimWriteback n => Sys2Proof.Machine.execVictimWriteback n s
  | .flowAgeSweep bucket => Sys2Proof.Machine.execFlowAgeSweep bucket s
  | .endpointSearch pk bad => Sys2Proof.Machine.execEndpointSearch pk bad s
  | .endpointAgeing bad => Sys2Proof.Machine.execEndpointAgeing bad s
  | .learnAddStatic src => Sys2Proof.Machine.execLearnAddStatic src s
  | .learnDelete src => Sys2Proof.Machine.execLearnDelete src s
  | .learnRead src => Sys2Proof.Machine.execLearnRead src s
  | .updatePass => Sys2Proof.Machine.execUpdatePass s
  | .flowRecordWrite => Sys2Proof.Machine.execFlowRecordWrite s
  | .flowResult => Sys2Proof.Machine.execFlowResult s
  | .flowInvocationEnd inv res => Sys2Proof.Machine.execFlowInvocationEnd inv res s
  | .flowFlush src => Sys2Proof.Machine.execFlowFlush src s
  | .flowRead src => Sys2Proof.Machine.execFlowRead src s
  | .flowDelete src => Sys2Proof.Machine.execFlowDelete src s
  | .uaccDescriptorWrite src f u w v => Sys2Proof.Machine.execUaccDescriptorWrite src f u w v s
  | .featureProgram pk parity => Sys2Proof.Machine.execFeatureProgram pk parity s
  | .nop c => Sys2Proof.Machine.execNop c s
  | .ld c f => Sys2Proof.Machine.execLd c f s
  | .movi c d imm => Sys2Proof.Machine.execMovi c d imm s
  | .lui c d imm => Sys2Proof.Machine.execLui c d imm s
  | .add c d a o => Sys2Proof.Machine.execAdd c d a o s
  | .sub c d a o => Sys2Proof.Machine.execSub c d a o s
  | .mul c d a o => Sys2Proof.Machine.execMul c d a o s
  | .and c d a o => Sys2Proof.Machine.execAnd c d a o s
  | .or c d a o => Sys2Proof.Machine.execOr c d a o s
  | .xor c d a o => Sys2Proof.Machine.execXor c d a o s
  | .shl c d a o => Sys2Proof.Machine.execShl c d a o s
  | .shr c d a o => Sys2Proof.Machine.execShr c d a o s
  | .min c d a o => Sys2Proof.Machine.execMin c d a o s
  | .max c d a o => Sys2Proof.Machine.execMax c d a o s
  | .slt c d a o => Sys2Proof.Machine.execSlt c d a o s
  | .lut c d a t => Sys2Proof.Machine.execLut c d a t s
  | .log2 c d a => Sys2Proof.Machine.execLog2 c d a s
  | .bz c a dist => Sys2Proof.Machine.execBz c a dist s
  | .bnz c a dist => Sys2Proof.Machine.execBnz c a dist s
  | .babs c dist => Sys2Proof.Machine.execBabs c dist s
  | .out c a k => Sys2Proof.Machine.execOut c a k s
  | .hout c a k => Sys2Proof.Machine.execHout c a k s
  | .setf c a bit => Sys2Proof.Machine.execSetf c a bit s
  | .endp c => Sys2Proof.Machine.execEndp c s
  | .featureCoreReload c => Sys2Proof.Machine.execFeatureCoreReload c s
  | .vectorAssemble pk slotMapBad => Sys2Proof.Machine.execVectorAssemble pk slotMapBad s
  | .vectorHandover l => Sys2Proof.Machine.execVectorHandover l s
  | .vectorCross pk voidXfer => Sys2Proof.Machine.execVectorCross pk voidXfer s
  | .historyWrite pk => Sys2Proof.Machine.execHistoryWrite pk s
  | .treeIssue f core cycle bad => Sys2Proof.Machine.execTreeIssue f core cycle bad s
  | .partialAdd f core => Sys2Proof.Machine.execPartialAdd f core s
  | .treeReload f core => Sys2Proof.Machine.execTreeReload f core s
  | .gather f => Sys2Proof.Machine.execGather f s
  | .outputConversion f n voidXfer => Sys2Proof.Machine.execOutputConversion f n voidXfer s
  | .dieGather c output => Sys2Proof.Machine.execDieGather c output s
  | .treeWdReq src f core => Sys2Proof.Machine.execTreeWdReq src f core s
  | .treeOff src f mask => Sys2Proof.Machine.execTreeOff src f mask s
  | .beatProgramStart c => Sys2Proof.Machine.execBeatProgramStart c s
  | .coreNop c => Sys2Proof.Machine.execCoreNop c s
  | .loadh c f => Sys2Proof.Machine.execLoadh c f s
  | .heldWrite c a n => Sys2Proof.Machine.execHeldWrite c a n s
  | .stream c f parity => Sys2Proof.Machine.execStream c f parity s
  | .tileDrain c a parity => Sys2Proof.Machine.execTileDrain c a parity s
  | .statRecordWrite c a => Sys2Proof.Machine.execStatRecordWrite c a s
  | .arrayReload c => Sys2Proof.Machine.execArrayReload c s
  | .form c ws => Sys2Proof.Machine.execForm c ws s
  | .ret c f voidXfer => Sys2Proof.Machine.execRet c f voidXfer s
  | .copy c f lost => Sys2Proof.Machine.execCopy c f lost s
  | .syncp c cell spanM1 => Sys2Proof.Machine.execSyncp c cell spanM1 s
  | .syncPostEffect f => Sys2Proof.Machine.execSyncPostEffect f s
  | .syncw c cell count => Sys2Proof.Machine.execSyncw c cell count s
  | .syncwSatisfied c => Sys2Proof.Machine.execSyncwSatisfied c s
  | .beatProgramEnd c => Sys2Proof.Machine.execBeatProgramEnd c s
  | .arrayWdReq src f n => Sys2Proof.Machine.execArrayWdReq src f n s
  | .arrayOff src f mask => Sys2Proof.Machine.execArrayOff src f mask s
  | .injArm src f kind cls core => Sys2Proof.Machine.execInjArm src f kind cls core s
  | .afRead src f => Sys2Proof.Machine.execAfRead src f s
  | .flockPatchGo src f => Sys2Proof.Machine.execFlockPatchGo src f s
  | .returnDeadline f => Sys2Proof.Machine.execReturnDeadline f s
  | .verdictForm pk badDesc => Sys2Proof.Machine.execVerdictForm pk badDesc s
  | .verdictApply pk badFrag => Sys2Proof.Machine.execVerdictApply pk badFrag s
  | .cutThroughStart pk => Sys2Proof.Machine.execCutThroughStart pk s
  | .schedulerPick p ts => Sys2Proof.Machine.execSchedulerPick p ts s
  | .transmitComplete p holdUe => Sys2Proof.Machine.execTransmitComplete p holdUe s
  | .shaperRefill => Sys2Proof.Machine.execShaperRefill s
  | .contextDown c => Sys2Proof.Machine.execContextDown c s
  | .restoreCtx src c => Sys2Proof.Machine.execRestoreCtx src c s
  | .lanePassEntry l => Sys2Proof.Machine.execLanePassEntry l s
  | .flockWithdraw f => Sys2Proof.Machine.execFlockWithdraw f s
  | .deviceSafeEntry why => Sys2Proof.Machine.execDeviceSafeEntry why s
  | .lanePassSet src mask => Sys2Proof.Machine.execLanePassSet src mask s
  | .forceSafe src => Sys2Proof.Machine.execForceSafe src s
  | .verdPatchGo src => Sys2Proof.Machine.execVerdPatchGo src s
  | .ruleCommit src => Sys2Proof.Machine.execRuleCommit src s
  | .ruleCheckEnd => Sys2Proof.Machine.execRuleCheckEnd s
  | .ruleAbort src => Sys2Proof.Machine.execRuleAbort src s
  | .ruleVersionSwitch => Sys2Proof.Machine.execRuleVersionSwitch s
  | .ruleRetire => Sys2Proof.Machine.execRuleRetire s
  | .ruleSlotCopyEnd => Sys2Proof.Machine.execRuleSlotCopyEnd s
  | .entWrite src e => Sys2Proof.Machine.execEntWrite src e s
  | .entSetStaged src e => Sys2Proof.Machine.execEntSetStaged src e s
  | .entClearStaged src e => Sys2Proof.Machine.execEntClearStaged src e s
  | .entRead src e => Sys2Proof.Machine.execEntRead src e s
  | .entRepair src e => Sys2Proof.Machine.execEntRepair src e s
  | .entCmdEnd r => Sys2Proof.Machine.execEntCmdEnd r s
  | .loadGo src => Sys2Proof.Machine.execLoadGo src s
  | .tcamLoadRecord => Sys2Proof.Machine.execTcamLoadRecord s
  | .load src => Sys2Proof.Machine.execLoad src s
  | .contextCheckEnd c => Sys2Proof.Machine.execContextCheckEnd c s
  | .contextStagingEnd c => Sys2Proof.Machine.execContextStagingEnd c s
  | .commit src herd => Sys2Proof.Machine.execCommit src herd s
  | .commitCheckEnd c => Sys2Proof.Machine.execCommitCheckEnd c s
  | .abort src => Sys2Proof.Machine.execAbort src s
  | .discard src => Sys2Proof.Machine.execDiscard src s
  | .unload src => Sys2Proof.Machine.execUnload src s
  | .loadLayout src => Sys2Proof.Machine.execLoadLayout src s
  | .commitLayout src herd => Sys2Proof.Machine.execCommitLayout src herd s
  | .contextVersionSwitch c => Sys2Proof.Machine.execContextVersionSwitch c s
  | .versionPartSwitch c part => Sys2Proof.Machine.execVersionPartSwitch c part s
  | .contextRetire c => Sys2Proof.Machine.execContextRetire c s
  | .contextRetireEnd c => Sys2Proof.Machine.execContextRetireEnd c s
  | .flowDrainExpire c => Sys2Proof.Machine.execFlowDrainExpire c s
  | .forceRetire src => Sys2Proof.Machine.execForceRetire src s
  | .shadowStatistics c f tap vals mvSeen void => Sys2Proof.Machine.execShadowStatistics c f tap vals mvSeen void s
  | .shadowWindowEnd c f => Sys2Proof.Machine.execShadowWindowEnd c f s
  | .aggregateWindow => Sys2Proof.Machine.execAggregateWindow s
  | .setGo src => Sys2Proof.Machine.execSetGo src s
  | .freqAdj src ppb => Sys2Proof.Machine.execFreqAdj src ppb s
  | .phaseAdj src ns => Sys2Proof.Machine.execPhaseAdj src ns s
  | .phaseSlewEnd => Sys2Proof.Machine.execPhaseSlewEnd s
  | .timeBeatRead src => Sys2Proof.Machine.execTimeBeatRead src s
  | .ppsIn => Sys2Proof.Machine.execPpsIn s
  | .ppsOutRise => Sys2Proof.Machine.execPpsOutRise s
  | .ppsOutFall => Sys2Proof.Machine.execPpsOutFall s
  | .tsFifoPop src g dir => Sys2Proof.Machine.execTsFifoPop src g dir s
  | .hlinkEnable src h v => Sys2Proof.Machine.execHlinkEnable src h v s
  | .hlinkTrained h delay => Sys2Proof.Machine.execHlinkTrained h delay s
  | .trainFail h => Sys2Proof.Machine.execTrainFail h s
  | .flitReceive h f => Sys2Proof.Machine.execFlitReceive h f s
  | .marker h m f => Sys2Proof.Machine.execMarker h m f s
  | .hello h m f => Sys2Proof.Machine.execHello h m f s
  | .join h m ruleVer => Sys2Proof.Machine.execJoin h m ruleVer s
  | .vtable h m blk vers ruleVer => Sys2Proof.Machine.execVtable h m blk vers ruleVer s
  | .ready h m digest => Sys2Proof.Machine.execReady h m digest s
  | .herdAdmit h m res => Sys2Proof.Machine.execHerdAdmit h m res s
  | .depart h m member window => Sys2Proof.Machine.execDepart h m member window s
  | .candidate h m prio member => Sys2Proof.Machine.execCandidate h m prio member s
  | .vote h m prio member => Sys2Proof.Machine.execVote h m prio member s
  | .creq h m k ver beat => Sys2Proof.Machine.execCreq h m k ver beat s
  | .order h m seq beat k ver => Sys2Proof.Machine.execOrder h m seq beat k ver s
  | .ack h m seq nack => Sys2Proof.Machine.execAck h m seq nack s
  | .stop h m isOrder resume beat refuse => Sys2Proof.Machine.execStop h m isOrder resume beat refuse s
  | .red h m r window off vals fromRoot count void => Sys2Proof.Machine.execRed h m r window off vals fromRoot count void s
  | .rd h m win addr len => Sys2Proof.Machine.execRd h m win addr len s
  | .wr h m win addr data => Sys2Proof.Machine.execWr h m win addr data s
  | .hget h m idx tag => Sys2Proof.Machine.execHget h m idx tag s
  | .hadd h m idx tag vals => Sys2Proof.Machine.execHadd h m idx tag vals s
  | .rdr h m tok data => Sys2Proof.Machine.execRdr h m tok data s
  | .wra h m tok ok => Sys2Proof.Machine.execWra h m tok ok s
  | .hrep h m tok vals isNew => Sys2Proof.Machine.execHrep h m tok vals isNew s
  | .remoteRequestApply => Sys2Proof.Machine.execRemoteRequestApply s
  | .herdJoin src v => Sys2Proof.Machine.execHerdJoin src v s
  | .joinLocked => Sys2Proof.Machine.execJoinLocked s
  | .admission => Sys2Proof.Machine.execAdmission s
  | .herdLeave src => Sys2Proof.Machine.execHerdLeave src s
  | .departure => Sys2Proof.Machine.execDeparture s
  | .lockLost => Sys2Proof.Machine.execLockLost s
  | .markerTimeout h => Sys2Proof.Machine.execMarkerTimeout h s
  | .electionStart => Sys2Proof.Machine.execElectionStart s
  | .electionVote => Sys2Proof.Machine.execElectionVote s
  | .electionResult => Sys2Proof.Machine.execElectionResult s
  | .bellwetherTakeOffice => Sys2Proof.Machine.execBellwetherTakeOffice s
  | .electionFail => Sys2Proof.Machine.execElectionFail s
  | .reductionStart r => Sys2Proof.Machine.execReductionStart r s
  | .reductionDeadline r => Sys2Proof.Machine.execReductionDeadline r s
  | .stopRequest src => Sys2Proof.Machine.execStopRequest src s
  | .resumeRequest src => Sys2Proof.Machine.execResumeRequest src s
  | .stopTakeEffect => Sys2Proof.Machine.execStopTakeEffect s
  | .stopCut => Sys2Proof.Machine.execStopCut s
  | .resumeTakeEffect => Sys2Proof.Machine.execResumeTakeEffect s
  | .syncSetGo src f => Sys2Proof.Machine.execSyncSetGo src f s
  | .hqProduce it => Sys2Proof.Machine.execHqProduce it s
  | .hqEnable src q => Sys2Proof.Machine.execHqEnable src q s
  | .hqConsWrite src q v => Sys2Proof.Machine.execHqConsWrite src q v s
  | .hqIrqRepeat q => Sys2Proof.Machine.execHqIrqRepeat q s
  | .injProdWrite src v => Sys2Proof.Machine.execInjProdWrite src v s
  | .injDescriptor => Sys2Proof.Machine.execInjDescriptor s
  | .qTokensSet src v => Sys2Proof.Machine.execQTokensSet src v s
  | .tokGo src => Sys2Proof.Machine.execTokGo src s
  | .hostRead addr len apt => Sys2Proof.Machine.execHostRead addr len apt s
  | .hostWrite addr data aptOk => Sys2Proof.Machine.execHostWrite addr data aptOk s
  | .cxlLinkTrain r => Sys2Proof.Machine.execCxlLinkTrain r s
  | .hdmDecoderCommit ways => Sys2Proof.Machine.execHdmDecoderCommit ways s
  | .hostLoss => Sys2Proof.Machine.execHostLoss s
  | .hostReturn => Sys2Proof.Machine.execHostReturn s
  | .perstN => Sys2Proof.Machine.execPerstN s
  | .ideFail st => Sys2Proof.Machine.execIdeFail st s
  | .ideKm st secured => Sys2Proof.Machine.execIdeKm st secured s
  | .cdat len => Sys2Proof.Machine.execCdat len s
  | .challenge slot nonce => Sys2Proof.Machine.execChallenge slot nonce s
  | .measurements slot index nonce => Sys2Proof.Machine.execMeasurements slot index nonce s
  | .keyExchange slot session data => Sys2Proof.Machine.execKeyExchange slot session data s
  | .msixSend v => Sys2Proof.Machine.execMsixSend v s
  | .jobProdWrite src v => Sys2Proof.Machine.execJobProdWrite src v s
  | .jobAccept => Sys2Proof.Machine.execJobAccept s
  | .jobComplete c status => Sys2Proof.Machine.execJobComplete c status s
  | .ledgerBreak subj u delta expect seen => Sys2Proof.Machine.execLedgerBreak subj u delta expect seen s
  | .stateCompare => Sys2Proof.Machine.execStateCompare s
  | .stateDispute k u => Sys2Proof.Machine.execStateDispute k u s
  | .dmcHeartbeatLoss => Sys2Proof.Machine.execDmcHeartbeatLoss s
  | .hbmWriteback n line => Sys2Proof.Machine.execHbmWriteback n line s
  | .hbmScrub n line err => Sys2Proof.Machine.execHbmScrub n line err s
  | .hbmUe c line => Sys2Proof.Machine.execHbmUe c line s
  | .faultRecord cls scope reason action block inst u addr count => Sys2Proof.Machine.execFaultRecord cls scope reason action block inst u addr count s
  | .alertPendClear src v => Sys2Proof.Machine.execAlertPendClear src v s
  | .retestGo src => Sys2Proof.Machine.execRetestGo src s
  | .retestEnd pass => Sys2Proof.Machine.execRetestEnd pass s
  | .laneReset src l => Sys2Proof.Machine.execLaneReset src l s
  | .laneResetDrained pass => Sys2Proof.Machine.execLaneResetDrained pass s
  | .flockReset src f pass => Sys2Proof.Machine.execFlockReset src f pass s
  | .noBreakAct src v => Sys2Proof.Machine.execNoBreakAct src v s
  | .breakInj src v => Sys2Proof.Machine.execBreakInj src v s
  | .eccInj src n => Sys2Proof.Machine.execEccInj src n s
  | .rehashGo src => Sys2Proof.Machine.execRehashGo src s
  | .rehashStep => Sys2Proof.Machine.execRehashStep s
  | .rehashStop src => Sys2Proof.Machine.execRehashStop src s
  | .availabilitySave => Sys2Proof.Machine.execAvailabilitySave s
  | .resetNLow => Sys2Proof.Machine.execResetNLow s
  | .warmRequest src rkey => Sys2Proof.Machine.execWarmRequest src rkey s
  | .coldRequest src rkey => Sys2Proof.Machine.execColdRequest src rkey s
  | .warmReset => Sys2Proof.Machine.execWarmReset s
  | .revalidation => Sys2Proof.Machine.execRevalidation s
  | .serviceResume => Sys2Proof.Machine.execServiceResume s
  | .pwrGoodLow => Sys2Proof.Machine.execPwrGoodLow s
  | .pwrGoodRise bootSrc compatL1 herdEn => Sys2Proof.Machine.execPwrGoodRise bootSrc compatL1 herdEn s
  | .stageFirmware => Sys2Proof.Machine.execStageFirmware s
  | .stageCapability failed => Sys2Proof.Machine.execStageCapability failed s
  | .stageReady => Sys2Proof.Machine.execStageReady s
  | .bootFail => Sys2Proof.Machine.execBootFail s
  | .recoveryImage img => Sys2Proof.Machine.execRecoveryImage img s
  | .start src => Sys2Proof.Machine.execStart src s
  | .fwGo src => Sys2Proof.Machine.execFwGo src s
  | .fwWriteEnd => Sys2Proof.Machine.execFwWriteEnd s
  | .ledgerWrite src => Sys2Proof.Machine.execLedgerWrite src s
  | .ledgerWriteEnd torn => Sys2Proof.Machine.execLedgerWriteEnd torn s
  | .dbgGo src => Sys2Proof.Machine.execDbgGo src s
  | .dbgRevoke src => Sys2Proof.Machine.execDbgRevoke src s
  | .tokenExpiry => Sys2Proof.Machine.execTokenExpiry s
  | .jtagMailbox token pubkey => Sys2Proof.Machine.execJtagMailbox token pubkey s
  | .calWrite src => Sys2Proof.Machine.execCalWrite src s
  | .calForce src => Sys2Proof.Machine.execCalForce src s
  | .calWriteEnd torn => Sys2Proof.Machine.execCalWriteEnd torn s
  | .adaptStep herd lane atLimit => Sys2Proof.Machine.execAdaptStep herd lane atLimit s
  | .eyeUpdate herd lane h v => Sys2Proof.Machine.execEyeUpdate herd lane h v s
  | .sensorReading x slack ro ceil edgeFail => Sys2Proof.Machine.execSensorReading x slack ro ceil edgeFail s
  | .forecast => Sys2Proof.Machine.execForecast s
  | .voltOvr src mv en => Sys2Proof.Machine.execVoltOvr src mv en s
  | .plannerHold src v => Sys2Proof.Machine.execPlannerHold src v s
  | .envCritical monitor => Sys2Proof.Machine.execEnvCritical monitor s
  | .railExcursion rail => Sys2Proof.Machine.execRailExcursion rail s
  | .refclkFault k => Sys2Proof.Machine.execRefclkFault k s
  | .thermtrip => Sys2Proof.Machine.execThermtrip s
  | .sample => Sys2Proof.Machine.execSample s
  | .selectorArm src => Sys2Proof.Machine.execSelectorArm src s
  | .wArm src => Sys2Proof.Machine.execWArm src s
  | .wDisarm src => Sys2Proof.Machine.execWDisarm src s
  | .observationWrite => Sys2Proof.Machine.execObservationWrite s
  | .dbgEnter src => Sys2Proof.Machine.execDbgEnter src s
  | .dbgLeave src => Sys2Proof.Machine.execDbgLeave src s
  | .halt src v => Sys2Proof.Machine.execHalt src v s
  | .stepf src => Sys2Proof.Machine.execStepf src s
  | .memDataWrite src f v => Sys2Proof.Machine.execMemDataWrite src f v s
  | .expertKey src v => Sys2Proof.Machine.execExpertKey src v s
  | .lock src => Sys2Proof.Machine.execLock src s
  | .vec0Force src => Sys2Proof.Machine.execVec0Force src s
  | .eventClear src page v sameCycle => Sys2Proof.Machine.execEventClear src page v sameCycle s
  | .eventForce src page v => Sys2Proof.Machine.execEventForce src page v s
  | .eventMaskWrite src page v => Sys2Proof.Machine.execEventMaskWrite src page v s
  | .registerWrite src a => Sys2Proof.Machine.execRegisterWrite src a s
  | .hlinkLockLoss h => Sys2Proof.Machine.execHlinkLockLoss h s
  | .resetNRelease => Sys2Proof.Machine.execResetNRelease s
  | .msixUnmask v => Sys2Proof.Machine.execMsixUnmask v s
  | .configRequest write off v => Sys2Proof.Machine.execConfigRequest write off v s
  | .lowHalfRead src addr => Sys2Proof.Machine.execLowHalfRead src addr s
  | .getCertificate slot off len => Sys2Proof.Machine.execGetCertificate slot off len s
  | .doeDiscovery inst index => Sys2Proof.Machine.execDoeDiscovery inst index s

end Sys2Proof.Machine
end

