-- ==== Sys2Proof/Machine/Tick.lean ====
section
/-! DEFINITION. The schedule clock (R14, R15, R226): what passes when no command waits. -/

namespace Sys2Proof.Machine

/-- One schedule cycle passes within the beat (assumption 2), and operator counters whose capture cycle has come are captured (R358). The boundary
itself is the command BEAT_MARKER. -/
def tick (s : State) : State :=
  if s.time.started ∧ s.time.cycle < 511 then ({ s with time := { s.time with cycle := s.time.cycle + 1 } }).captureCycle else s

end Sys2Proof.Machine
end

