-- ==== Sys2Proof/Safety.lean ====
section
/-! DEFINITION. The terms claims use: when a write reaches the block, what a frame says, and the invariants every step keeps. -/

namespace Sys2Proof.Machine

open Sys2Proof

/-! ### When a command reaches the block -/

/-- A write of a basic command field from a source reaches the block: the register pages are open (R336), and the source may write there
(R343, R352). `mail`: the field is one the sideband may write. -/
abbrev State.Takes (s : State) (src : Source) (mail : Bool := false) : Prop := s.pagesOpen = true ∧ s.mayWrite src mail = true

/-- A write of an expert command field reaches the block and has its effect: the expert fields are unlocked (R11, R382). -/
abbrev State.TakesExpert (s : State) (src : Source) : Prop := s.Takes src ∧ s.auth.unlocked = true

/-- The data path runs (R337). -/
abbrev State.Runs (s : State) : Prop := s.time.started = true

/-! ### Frames -/

/-- t differs from s at most in what a report changes: the register file, the host-bound queues and the memory of their rings, MSI-X, and the
state of the fault unit. -/
def State.ReportsOnly (s t : State) : Prop := t = { s with regs := t.regs, hq := t.hq, host := t.host, hbm := t.hbm, flt := t.flt }

/-- t differs from s at most in what a register write that reports changes (R344, R374, R375, R381): what a report changes, and the state of the unlock
sequence and of the half words. -/
def State.WriteOnly (s t : State) : Prop := t = { s with regs := t.regs, hq := t.hq, host := t.host, hbm := t.hbm, flt := t.flt, sec := t.sec }

/-- The same of a write whose effect waits for the next beat boundary. -/
def State.WriteLater (s t : State) : Prop :=
  t = { s with regs := t.regs, hq := t.hq, host := t.host, hbm := t.hbm, flt := t.flt, sec := t.sec, acts := t.acts }

/-- t differs from s at most in the register file, and there at most in the fields whose keys are listed. -/
def State.OnlyFields (s t : State) (ks : List Nat) : Prop := t = { s with regs := t.regs } ∧ ∀ k, k ∉ ks → t.regs.find? k = s.regs.find? k

/-- The key of a register that a report may change: EVENT, FAULT and FAULT_INFO of a page (R375), page HQ, ALERT_PEND and AUDIT_SUPPRESSED. -/
def reportKey (k : Nat) : Bool :=
  decide (k / 4194304 % 4096 ∈ [0x18, 0x24, 0x28]) || decide (k / 4194304 / 4096 = 258048 / 4096) || decide (k = Reg.LEDG.ALERT_PEND.key 0 0 0)
    || decide (k = Reg.SEC.AUDIT_SUPPRESSED.key 0 0 0)

/-- Every register field keeps its value but the ones a report may change and those whose keys are listed. -/
def State.KeepsFields (s t : State) (ks : List Nat) : Prop := ∀ k, reportKey k = false → k ∉ ks → t.regs.find? k = s.regs.find? k

/-- The value of a counter after one more event (R355): a 64-bit counter wraps, a shorter one saturates. -/
def countUp (f : Field) (v : Nat) : Nat := if f.width = 64 then (v + 1) % 2 ^ 64 else Nat.min (v + 1) (2 ^ f.width - 1)

/-- t has counted one event more than s in a counter. -/
def State.Counts (s t : State) (f : Field) (inst : Nat := 0) (idx : Nat := 0) (sel : Nat := 0) : Prop := t.rd f inst idx sel = countUp f (s.rd f inst idx sel)

/-- The command waits in t for the next beat boundary, behind what waited in s. -/
def State.Queued (s t : State) (a : Act) : Prop := t.acts = s.acts ++ [a]

/-- s with a feature core after an instruction: `k` is the core with the instruction's effect, and the program goes on at pc + 1 (R97). -/
def State.fcoreDone (s : State) (c : FCoreId) (k : FCore) : State := { s with fcores := s.fcores.set (FCoreId.key c) { k with pc := k.pc + 1 } }

/-- The feature core runs the program of a resident packet (R88). -/
def State.FRuns (s : State) (c : FCoreId) : Prop := ∃ pk x, (s.fcore c).pkt = some pk ∧ s.pkt? pk = some x

/-- The instruction word at the feature core's pc is w, in the program of a resident packet's set (R97, R99). -/
def State.FAt (s : State) (c : FCoreId) (w : Word) : Prop := s.fword c = some w

/-! ### Invariants -/

/-- The expert fields are unlocked only under a debug token that grants EXPERT (R350, R381). -/
def State.AuthOk (s : State) : Prop := s.auth.unlocked = true → ∃ k, s.auth.token = some k ∧ bits k.perms 2 1 = 1

/-- HBM and host memory are in canonical form: addresses strictly rising, no listed byte equal to what an unlisted one reads as. -/
def State.MemOk (s : State) : Prop := Mem.wf s.hbm = true ∧ Mem.wf s.host.mem = true

/-- A safe run of n steps: none of them ends in a fault or a refusal. -/
def SafeRun : Nat → State → Prop
  | 0, _ => True
  | n + 1, s => ∃ t, step s = .next t ∧ SafeRun n t

end Sys2Proof.Machine
end

