-- ==== Sys2Proof/Certificates/Slice0/Obligations.lean ====
section
/-! DEFINITION. The statements for the provers: what the commands do, family by family, with what they leave unchanged; the whole-machine rules; and
the invariants every step keeps. Each docstring names the rules of spec/ it rests on. -/

open Sys2Proof Sys2Proof.Machine

/-- Beats (R15, R17, R199, R219, R295, R337). The port core's marker starts the next beat; an island's marker starts the beat in progress there; a miss is
counted and its packets take the safe action with BEAT_MISS; an island that reaches its limit is withdrawn at a later boundary; the loss of PLL lock waits as a device safe
entry for the boundary; START in stage READY starts the data path. Where a clause leaves the state as it is because the event cannot come, that is the model's choice (assumption 1); so are its readings in assumptions 9, 97 and 287. -/
def Obligations.BeatCommands : Prop :=
  (∀ s : State, s.Runs → s.sec.reqReset ≠ some true →
    ∃ t, exec (.beatMarker .portCore) s = .next t ∧ t.time.beat = s.time.beat + 1) ∧
  (∀ (s : State) (i : Island), i ≠ .portCore → s.Runs → s.time.islBeat.get i.num < s.time.beat →
    ∃ t, exec (.beatMarker i) s = .next t ∧ t.time.islBeat.get i.num = s.time.beat ∧ t.regs = s.regs ∧ t.pkts = s.pkts ∧ t.hbm = s.hbm) ∧
  (∀ (s : State) (l : Lane), s.Runs → s.time.beat ≠ 0 →
    ∃ t, exec (.beatMiss (.lane l)) s = .next t ∧ t.time.misses.get l.val = s.time.misses.get l.val + 1 ∧
      (∀ k x, s.pkts.find? k = some (some x) → x.vd.gone = false → x.vd.released = false → x.i.lane = l.val → x.i.b = s.time.beat →
        ∃ y, t.pkts.find? k = some (some y) ∧ 16 ∈ y.vd.reasons) ∧
      (∀ k x, s.pkts.find? k = some (some x) → x.i.lane ≠ l.val → t.pkts.find? k = some (some x))) ∧
  (∀ (s : State) (f : Flock), s.Runs → s.time.beat ≠ 0 → (s.flocks.get f.val).withdrawn = false →
    (s.flocks.get f.val).ovf ≠ s.time.beat →
    ∃ t, exec (.beatMiss (.flock f)) s = .next t ∧ s.time.misses.get (32 + f.val) < t.time.misses.get (32 + f.val) ∧
      (∀ g, (t.flocks.get g).withdrawn = (s.flocks.get g).withdrawn) ∧ t.lanes = s.lanes) ∧
  (∀ (s : State) (l : Lane), 4 ≤ s.time.misses.get l.val → s.time.missAt.get l.val < s.time.beat →
    ∃ t, exec (.missWithdraw (.lane l)) s = .next t ∧ (t.lanes.get l.val).pass = true ∧ t.time.misses.get l.val = 0) ∧
  (∀ (s : State) (f : Flock), 4 ≤ s.time.misses.get (32 + f.val) → s.time.missAt.get (32 + f.val) < s.time.beat →
    ∃ t, exec (.missWithdraw (.flock f)) s = .next t ∧ (t.flocks.get f.val).withdrawn = true) ∧
  (∀ s : State, 2 ≤ s.time.misses.get 24 → s.time.missAt.get 24 < s.time.beat → ∃ t, exec (.missWithdraw .portCore) s = .next t ∧ t.devSafe = true) ∧
  (∀ s : State, ∃ t, exec .pllLockLoss s = .next t ∧ s.Queued t (.devSafe true) ∧ t.pkts = s.pkts ∧ t.lanes = s.lanes ∧ t.ctxs = s.ctxs) ∧
  (∀ (s : State) (src : Source), s.Takes src true → s.rd Reg.DEV.STAGE = 4 → s.sec.warm = false →
    ∃ t, exec (.start src) s = .next t ∧ t.Runs ∧ t.acting = t.regs)

/-- Reception (R31, R32, R37, R43, R49, R261, R337). With 73 cells free a frame's reception begins; without them the MAC discards the frame, which is
counted by HOLD.INTAKE_DROP and captured nowhere. A lane accepts a frame of 64 bytes or more: the packet is resident, with boundary b one beat on. The
frame's last byte ends its reception. A failed FCS voids the packet. Links come up only in stage RUN. Where a clause leaves the state as it is because the event cannot come, that is the model's choice (assumption 1); so are its readings in assumptions 36, 37, 254 and 255. -/
def Obligations.ReceptionCommands : Prop :=
  (∀ (s : State) (p : Port) (d : List Byte) (ts : Nat), s.Runs → s.portExists p.val = true → s.linkUp p.val = true → s.rx.get p.val = none →
    (∀ l ∈ s.lanesOf p.val, (s.lanes.get l).resetting = false) → 73 ≤ s.freeCells →
    ∃ t, exec (.frameStart p d ts) s = .next t ∧ t.rx.get p.val = some { data := d, ts := ts, start := s.now } ∧ t.pkts = s.pkts ∧ t.nextPkt = s.nextPkt ∧ t.hbm = s.hbm) ∧
  (∀ (s : State) (p : Port) (d : List Byte) (ts : Nat), s.Runs → s.portExists p.val = true → s.linkUp p.val = true → s.rx.get p.val = none →
    (∀ l ∈ s.lanesOf p.val, (s.lanes.get l).resetting = false) → s.freeCells < 73 →
    ∃ t, exec (.frameStart p d ts) s = .next t ∧ t.rx.get p.val = some { data := d, dropped := true, ts := ts, start := s.now } ∧ t.pkts = s.pkts ∧ t.nextPkt = s.nextPkt ∧
      t.cls = s.cls ∧ t.flow = s.flow ∧ t.hbm = s.hbm) ∧
  (∀ (s : State) (p : Port) (l : Lane) (r : RxFrame), s.Runs → s.rx.get p.val = some r → r.dropped = false → r.pkt = none → 64 ≤ r.data.length →
    s.portOpen p.val = true → s.speedOf p.val ≠ 3 → l.val = p.val / 2 → s.laneAcc.get l.val ≠ s.time.cycle + 1 → (s.lanes.get l.val).resetting = false →
    r.ended = false → (s.isTap p.val = true → tapValid r.data = true → 80 ≤ r.data.length) → s.yields p.val r = false →
    ∃ t x, exec (.packetAccept p l) s = .next t ∧ t.pkt? s.nextPkt = some x ∧ x.i.b = s.time.beat + 1 ∧ x.i.t = s.time.beat * 512 + s.time.cycle ∧
      x.i.lane = l.val ∧ x.i.port = p.val ∧ x.i.frame = r.data ∧ t.rx.get p.val = some { r with pkt := some s.nextPkt } ∧ t.nextPkt = s.nextPkt + 1 ∧
      (t.lanes.get l.val).resident = (s.lanes.get l.val).resident + 1 ∧ (∀ k, k ≠ s.nextPkt → t.pkts.find? k = s.pkts.find? k)) ∧
  (∀ (s : State) (p : Port) (r : RxFrame), s.rx.get p.val = some r → r.dropped = true →
    exec (.frameEnd p) s = .next { s with rx := s.rx.erase p.val }) ∧
  (∀ (s : State) (p : Port) (r : RxFrame), s.rx.get p.val = some r → r.dropped = false → r.pkt = none → 64 ≤ r.data.length → s.portOpen p.val = true →
    exec (.frameEnd p) s = .next { s with rx := s.rx.put p.val (some { r with ended := true }) }) ∧
  (∀ (s : State) (p : Port) (r : RxFrame), s.rx.get p.val = some r → r.dropped = false → r.pkt = none → r.data.length < 64 →
    ∃ t, exec (.frameEnd p) s = .next t ∧ t.rx.get p.val = none ∧ s.Counts t Reg.PORT.RX_RUNT (p.val / 2) ∧
      t.pkts = s.pkts) ∧
  (∀ (s : State) (pk : PktId) (x : Pkt), s.pkt? pk = some x → x.vd.fcs = none →
    exec (.fcsResult pk false) s = .next { s with pkts := s.pkts.put pk (some { x with vd := { x.vd with fcs := some false, voidPkt := true, mal := 15 } }) }) ∧
  (∀ (s : State) (pk : PktId) (x : Pkt), s.pkt? pk = some x → x.vd.fcs = none → x.lk.looked = false →
    exec (.fcsResult pk true) s = .next { s with pkts := s.pkts.put pk (some { x with vd := { x.vd with fcs := some true } }) }) ∧
  (∀ (s : State) (p : Port), s.Runs → s.portExists p.val = true → s.rd Reg.DEV.STAGE = 5 →
    ∃ t, exec (.ethLinkUp p) s = .next t ∧ t.linkUp p.val = true ∧ t.pkts = s.pkts ∧ t.eg = s.eg) ∧
  (∀ (s : State) (p : Port), s.linkUp p.val = true →
    ∃ t, exec (.ethLinkDown p) s = .next t ∧ t.rx.get p.val = none ∧ (t.eg.tx.get p.val).cur = none ∧ (∀ q < 8, (t.eg.q.get (p.val * 8 + q)).frames = [])) ∧
  (∀ (s : State) (src : Source) (g : Group) (v : Word), s.Takes src → v.toNat % 8 ≤ 2 → s.rd Reg.PORT.SPEED g.val ≤ 2 →
    ∃ t, exec (.portCfgWrite src g v) s = .next t ∧ t.rd Reg.PORT.SPEED g.val = v.toNat % 8 ∧ t.rd Reg.PORT.PAIR_S0 g.val = v.toNat / 65536 % 32 ∧ t.pkts = s.pkts)

/-- Priority pause (R259) and the shapers (R260). The pause of an enabled priority begins with nonzero quanta and ends with quanta of zero or when its time
runs out; other queues are left alone. A bucket's refill never lifts it above its burst. Where a clause leaves the state as it is because the event cannot come, that is the model's choice (assumption 1); so are its readings in assumption 117. -/
def Obligations.PauseAndShaperCommands : Prop :=
  (∀ (s : State) (p : Port) (en : BitVec 8) (q : List (BitVec 16)), s.Runs → s.portExists p.val = true → s.linkUp p.val = true →
    bits (s.act Reg.SHAPE.PAUSE_IGNORE) p.val 1 = 0 →
    ∃ t, exec (.pauseFrame p en q) s = .next t ∧ t = { s with eg := { s.eg with q := t.eg.q } } ∧
      (∀ k < 8, en.getLsbD k = true → (t.eg.q.get (p.val * 8 + k)).paused = decide ((q.getD k 0).toNat ≠ 0)) ∧
      (∀ n, (∀ k < 8, en.getLsbD k = true → n ≠ p.val * 8 + k) → t.eg.q.get n = s.eg.q.get n)) ∧
  (∀ (s : State) (p : Port) (k : QNum), ∃ t, exec (.pauseExpire p k) s = .next t ∧ t = { s with eg := { s.eg with q := t.eg.q } } ∧
      t.eg.q.get (p.val * 8 + k.val) = { s.eg.q.get (p.val * 8 + k.val) with paused := false, quanta := 0 } ∧
      (∀ n, n ≠ p.val * 8 + k.val → t.eg.q.get n = s.eg.q.get n)) ∧
  (∀ s : State, ∃ t, exec .shaperRefill s = .next t ∧ t = { s with eg := { s.eg with q := t.eg.q, tx := t.eg.tx } } ∧
      (∀ n < 256, s.act Reg.SHAPE.Q_RATE 0 0 n ≠ 0 →
        (t.eg.q.get n).tok = min ((s.eg.q.get n).tok + s.act Reg.SHAPE.Q_RATE 0 0 n) (s.act Reg.SHAPE.Q_BURST 0 0 n * 65536 : Nat)) ∧
      (∀ n < 256, s.act Reg.SHAPE.Q_RATE 0 0 n = 0 → t.eg.q.get n = s.eg.q.get n)) ∧
  (∀ (s : State) (p : Port), (s.eg.tx.get p.val).cur = none → s.portExists p.val = true → s.linkUp p.val = true →
    (∀ q < 8, (s.eg.q.get (p.val * 8 + q)).frames = []) → exec (.schedulerPick p 0) s = .next s) ∧
  (∀ (s : State) (p : Port) (ts q : Nat) (fr : EgFrame) (rest : List EgFrame), (s.eg.tx.get p.val).cur = none → s.portExists p.val = true → s.linkUp p.val = true →
    s.spPick p.val = some q → (s.eg.q.get (p.val * 8 + q)).frames = fr :: rest → fr.kind ≠ 3 →
    ∃ t, exec (.schedulerPick p ts) s = .next t ∧ (t.eg.tx.get p.val).cur = some fr ∧ (t.eg.tx.get p.val).curQ = q ∧ (t.eg.q.get (p.val * 8 + q)).frames = rest ∧
      t = { s with eg := t.eg }) ∧
  (∀ (s : State) (p : Port) (fr : EgFrame), (s.eg.tx.get p.val).cur = some fr → (s.eg.tx.get p.val).stomp = false → fr.pkt = none →
    ∃ t, exec (.transmitComplete p false) s = .next t ∧ (t.eg.tx.get p.val).cur = none ∧ (t.eg.tx.get p.val).last = fr.bytes ++ fcsBytes fr.bytes ∧
      (t.eg.q.get (p.val * 8 + (s.eg.tx.get p.val).curQ)).sent = (s.eg.q.get (p.val * 8 + (s.eg.tx.get p.val).curQ)).sent + 1 ∧ t.pkts = s.pkts)

/-- Rule searches, the TCAM scrub and the fragment table (R46, R48, R55, R63, R70). A packet that is due is searched; with no entry in its replica the rule
search misses and the default action applies. The scrub reads an entry in its beat of the period, disables a failing one and counts it. An entry of the fragment table is freed at boundary
b + 69; FRAG_FLUSH waits for the next boundary. Where a clause leaves the state as it is because the event cannot come, that is the model's choice (assumption 1); so are its readings in assumptions 45 and 50. -/
def Obligations.ClassifierCommands : Prop :=
  (∀ (s : State) (pk : PktId) (bad : List Nat) (x : Pkt), s.pkt? pk = some x → x.lk.searched = false → s.looksUp x = true → x.i.b ≤ s.time.beat →
    ∃ t y, exec (.ruleSearch pk bad) s = .next t ∧ t.pkt? pk = some y ∧ y.lk.searched = true ∧ y.i = x.i ∧ t.eg = s.eg ∧ t.flow = s.flow) ∧
  (∀ (s : State) (pk : PktId) (x : Pkt), s.pkt? pk = some x → x.lk.searched = false → s.looksUp x = true → x.i.b ≤ s.time.beat → s.cls.tcam = [] →
    x.i.parse.l3Type = 0 → x.i.lane < 16 →
    ∃ t y, exec (.ruleSearch pk []) s = .next t ∧ t.pkt? pk = some y ∧ y.lk.act = s.defAct x.i.slot ∧ y.lk.ruleHit = false ∧
      s.Counts t Reg.TCAM.SEARCHES (x.i.lane / 2) ∧ s.Counts t Reg.TCAM.RULE_MISS (x.i.lane / 2) ∧ t.cls = s.cls) ∧
  (∀ (s : State) (r : Replica) (bank : Fin 48) (entry : Fin 1024), (s.entry r.val bank.val entry.val).disabled = false →
    s.time.beat = s.scrubDue bank.val entry.val →
    ∃ t, exec (.tcamScrub r bank entry true) s = .next t ∧ (t.entry r.val bank.val entry.val).disabled = true ∧ s.Counts t Reg.TCAM.PARITY r.val ∧ t.pkts = s.pkts) ∧
  (∀ (s : State) (r : Replica) (bank : Fin 48) (entry : Fin 1024), exec (.tcamScrub r bank entry false) s = .next s) ∧
  (∀ (s : State) (r : Replica) (bank : Fin 48) (entry : Fin 1024) (b : Bool), s.time.beat ≠ s.scrubDue bank.val entry.val →
    exec (.tcamScrub r bank entry b) s = .next s) ∧
  (∀ (s : State) (bucket : Fin 16384) (way : Fin 4), (s.frag.get (4 * bucket.val + way.val)).live = true → s.herd.cut = false →
    (s.frag.get (4 * bucket.val + way.val)).b + 69 ≤ s.time.beat →
    ∃ t, exec (.fragEntryFree bucket way) s = .next t ∧ (t.frag.get (4 * bucket.val + way.val)).live = false ∧
      (∀ w, w ≠ 4 * bucket.val + way.val → t.frag.get w = s.frag.get w) ∧ t.pkts = s.pkts) ∧
  (∀ (s : State) (bucket : Fin 16384) (way : Fin 4), s.time.beat < (s.frag.get (4 * bucket.val + way.val)).b + 69 → exec (.fragEntryFree bucket way) s = .next s) ∧
  (∀ (s : State) (src : Source), s.TakesExpert src →
    ∃ t, exec (.fragFlush src) s = .next t ∧ s.Queued t .fragFlush ∧ s.WriteLater t)

/-- Flow lookups, the victim buffer and the ageing sweep (R75, R77, R78, R81, R105). A packet that makes a lookup of its own gets its key and the key's
fingerprint; one that makes none is only marked. A victim leaves the buffer when it is written back. Without ageing a sweep changes nothing. Where a clause leaves the state as it is because the event cannot come, that is the model's choice (assumption 1); so are its readings in assumption 59. -/
def Obligations.FlowLookupCommands : Prop :=
  (∀ (s : State) (pk : PktId) (c f : List Nat) (x : Pkt), s.pkt? pk = some x → x.lk.searched = true → x.lk.looked = false → x.keyed = true → x.vd.fcs = none →
    ∃ t y, exec (.flowLookup pk c f) s = .next t ∧ t.pkt? pk = some y ∧ y.lk.looked = true ∧
      y.lk.key = flowKey x.i (Rule.fkey x.lk.act) (Rule.tenant x.lk.act) ∧ y.lk.flowId = fingerprint y.lk.key ∧ y.i = x.i ∧ t.eg = s.eg ∧ t.cls = s.cls) ∧
  (∀ (s : State) (pk : PktId) (c f : List Nat) (x : Pkt), s.pkt? pk = some x → x.lk.searched = true → x.lk.looked = false → x.keyed = false → x.vd.fcs = none →
    exec (.flowLookup pk c f) s = .next { s with pkts := s.pkts.put pk (some { x with lk := { x.lk with looked := true } }) }) ∧
  (∀ (s : State) (n : Nat) (e : CacheEnt), s.flow.victims[n]? = some e → s.herd.cut = false →
    ∃ t, exec (.victimWriteback n) s = .next t ∧ t.flow.victims.map (fun e => (e.key, e.hot)) = (s.flow.victims.eraseIdx n).map (fun e => (e.key, e.hot)) ∧
      (e.loc ≠ none → t.flow.victims = s.flow.victims.eraseIdx n) ∧ t.pkts = s.pkts ∧ t.ctxs = s.ctxs) ∧
  (∀ (s : State) (bucket : Fin 134217728), s.act Reg.FLOW.IDLE_EPOCHS = 0 → exec (.flowAgeSweep bucket) s = .next s) ∧
  (∀ (s : State) (bucket : Fin 134217728), ∃ t, exec (.flowAgeSweep bucket) s = .next t ∧ t.pkts = s.pkts ∧
    t.flow.victims.map (fun e => (e.key, e.hot)) = s.flow.victims.map (fun e => (e.key, e.hot)) ∧ t.ep = s.ep ∧
    t.cls = s.cls)

/-- The endpoint table (R82, R83, R84, R87). A source address that is not in the table is learned in a free way, with the location of its packet; a known
address at its own location keeps its entry but for the epoch; a packet from a group address learns nothing. Static entries do not age, and a pass of ageing runs once at the start of each epoch. The
commands of page LEARN wait for the next boundary with the operands of the write. Where a clause leaves the state as it is because the event cannot come, that is the model's choice (assumption 1); so are its readings in assumptions 52, 258 and 259. -/
def Obligations.EndpointCommands : Prop :=
  (∀ (s : State) (pk : PktId) (x : Pkt) (w : Nat), s.pkt? pk = some x → x.lk.epDone = false → s.looksUp x = true → x.vd.voidPkt = false → x.i.b ≤ s.time.beat →
    bits (beNat (winBytes x.i.window 6 6).1) 40 1 = 0 → s.epFind (beNat (winBytes x.i.window 6 6).1) x.vlanId = none → s.act Reg.LEARN.LEARN_OFF = 0 →
    (epWays (beNat (winBytes x.i.window 6 6).1) x.vlanId).find? (fun w => !(s.ep.get w).live) = some w →
    ∃ t y, exec (.endpointSearch pk []) s = .next t ∧ t.pkt? pk = some y ∧ y.lk.epDone = true ∧ y.lk.epNew = true ∧
      t.ep = s.ep.set w { live := true, mac := beNat (winBytes x.i.window 6 6).1, vlan := x.vlanId, loc := x.loc, epoch := s.epoch16 }) ∧
  (∀ (s : State) (pk : PktId) (x : Pkt) (w : Nat), s.pkt? pk = some x → x.lk.epDone = false → s.looksUp x = true → x.vd.voidPkt = false → x.i.b ≤ s.time.beat →
    bits (beNat (winBytes x.i.window 6 6).1) 40 1 = 0 → s.epFind (beNat (winBytes x.i.window 6 6).1) x.vlanId = some w → (s.ep.get w).loc = x.loc →
    ∃ t y, exec (.endpointSearch pk []) s = .next t ∧ t.pkt? pk = some y ∧ y.lk.epDone = true ∧ y.lk.epNew = false ∧ y.lk.epMoves = (s.ep.get w).moves ∧
      t.ep = s.ep.set w { s.ep.get w with epoch := s.epoch16 }) ∧
  (∀ (s : State) (pk : PktId) (x : Pkt), s.pkt? pk = some x → x.lk.epDone = false → s.looksUp x = true → x.vd.voidPkt = false → x.i.b ≤ s.time.beat →
    bits (beNat (winBytes x.i.window 6 6).1) 40 1 = 1 →
    ∃ t y, exec (.endpointSearch pk []) s = .next t ∧ t.pkt? pk = some y ∧ y.lk.epDone = true ∧ y.lk.epUnicast = false ∧ t.ep = s.ep ∧ t.regs = s.regs) ∧
  (∀ s : State, s.act Reg.LEARN.AGE_EPOCHS = 0 → s.time.beat % 65536 = 0 → s.time.aged ≠ s.time.beat / 65536 + 1 →
    exec (.endpointAgeing []) s = .next { s with time := { s.time with aged := s.time.beat / 65536 + 1 } }) ∧
  (∀ (s : State) (bad : List Nat), s.time.beat % 65536 ≠ 0 ∨ s.time.aged = s.time.beat / 65536 + 1 → exec (.endpointAgeing bad) s = .next s) ∧
  (∀ s : State, ∃ t, exec (.endpointAgeing []) s = .next t ∧ (∀ w, (s.ep.get w).static = true → t.ep.get w = s.ep.get w) ∧ t.pkts = s.pkts) ∧
  (∀ (s : State) (src : Source), s.Takes src →
    ∃ t, exec (.learnAddStatic src) s = .next t ∧ t.rd Reg.LEARN.CMD_BUSY = 1 ∧ s.WriteLater t ∧
      s.Queued t (.learnCmd 1 (s.rd Reg.LEARN.CMD_MAC) (s.rd Reg.LEARN.CMD_VLAN) (s.rd Reg.LEARN.CMD_LOC))) ∧
  (∀ (s : State) (src : Source), s.Takes src →
    ∃ t, exec (.learnDelete src) s = .next t ∧ t.rd Reg.LEARN.CMD_BUSY = 1 ∧ s.WriteLater t ∧
      s.Queued t (.learnCmd 2 (s.rd Reg.LEARN.CMD_MAC) (s.rd Reg.LEARN.CMD_VLAN) (s.rd Reg.LEARN.CMD_LOC))) ∧
  (∀ (s : State) (src : Source), s.Takes src →
    ∃ t, exec (.learnRead src) s = .next t ∧ t.rd Reg.LEARN.CMD_BUSY = 1 ∧ s.WriteLater t ∧
      s.Queued t (.learnCmd 3 (s.rd Reg.LEARN.CMD_MAC) (s.rd Reg.LEARN.CMD_VLAN) (s.rd Reg.LEARN.CMD_LOC)))

/-- The update pass and the record writes (R19, R78, R86, R92, R93, R103). A lone packet with a cached record is updated: its view is R93's update of that
record. A pass over nothing changes nothing. Updates of earlier passes leave the working set. Results of earlier beats are applied, in a herd-wide stop
held back. An invocation whose cores have all switched to its version ends with a result that waits for the next beat; any ends as lost. The pass and the results run from schedule cycle 256. Where a clause leaves the state as it is because the event cannot come, that is the model's choice (assumption 1). -/
def Obligations.FlowUpdateCommands : Prop :=
  (∀ (s : State) (k : PktId) (x : Pkt) (e : CacheEnt), s.pkts = [(k, some x)] → x.i.b = s.time.beat → 0 < s.time.beat → x.lk.key ≠ [] → x.lk.updated = false →
    x.vd.voidPkt = false → s.flow.cmd = none → s.flow.results = [] → 256 ≤ s.time.cycle →
    s.flow.upd.find? (fun u => decide (u.key = x.lk.key)) = none → s.cached x.lk.key = some e → e.fresh = false →
    Rule.hist x.lk.act = false → Rule.enF x.lk.act = false →
    ∃ t y, exec .updatePass s = .next t ∧ t.pkt? k = some y ∧ y.lk.updated = true ∧ y.lk.created = false ∧
      y.lk.view = some (s.updateHot x (Rule.fkey x.lk.act) (some e.hot)) ∧ t.hbm = s.hbm ∧ t.flow.cache = s.flow.cache) ∧
  (∀ s : State, s.pkts = [] → s.flow.cmd = none → s.flow.results = [] → exec .updatePass s = .next s) ∧
  (∀ s : State, s.time.cycle < 256 → exec .updatePass s = .next s ∧ exec .flowResult s = .next s) ∧
  (∀ s : State, ∃ t, exec .updatePass s = .next t ∧ t.ctxs = s.ctxs ∧ t.eg = s.eg ∧ t.cls = s.cls ∧ t.ep = s.ep ∧ t.lanes = s.lanes) ∧
  (∀ s : State, ∃ t, exec .flowRecordWrite s = .next t ∧
    t.flow.upd.map (fun u => { u with cold := [] }) = (s.flow.upd.filter (fun u => decide (s.time.beat ≤ u.beat))).map (fun u => { u with cold := [] }) ∧
    t.flow.invs = s.flow.invs ∧ t.pkts = s.pkts ∧ t.ctxs = s.ctxs) ∧
  (∀ s : State, s.herd.stopped = false → 256 ≤ s.time.cycle → ∃ t, exec .flowResult s = .next t ∧
    t.flow.results = s.flow.results.filter (fun r => decide (s.time.beat ≤ r.beat)) ∧ t.pkts = s.pkts ∧ t.ctxs = s.ctxs ∧ t.cls = s.cls) ∧
  (∀ s : State, s.herd.stopped = true → exec .flowResult s = .next s) ∧
  (∀ (s : State) (n : Nat) (i : Inv) (v : FlowVals), s.flow.invs.find? (fun i => decide (i.id = n)) = some i → i.lost = false →
    s.invRuns i = true → s.herd.homePend.any (fun e => e.2 == i.id) = false →
    exec (.flowInvocationEnd n (some v)) s = .next { s with flow := { s.flow with
      invs := s.flow.invs.filter (fun j => decide (j.id ≠ i.id)),
      results := s.flow.results ++ [{ key := i.key, ctx := i.ctx, mv := i.mv, beat := s.time.beat, vals := v }] } }) ∧
  (∀ (s : State) (n : Nat) (i : Inv) (v : FlowVals), s.flow.invs.find? (fun i => decide (i.id = n)) = some i → s.invRuns i = false →
    exec (.flowInvocationEnd n (some v)) s = .next s) ∧
  (∀ (s : State) (n : Nat) (i : Inv), s.flow.invs.find? (fun i => decide (i.id = n)) = some i → s.herd.homePend.any (fun e => e.2 == i.id) = false →
    ∃ t, exec (.flowInvocationEnd n none) s = .next t ∧ t.flow.invs = s.flow.invs.filter (fun j => decide (j.id ≠ i.id)) ∧
      t.flow.results = s.flow.results ∧ t.pkts = s.pkts ∧ t.regs = s.regs)

/-- The commands of page FLOW (R79, R86, R108, R401). FLOW_FLUSH leaves working copies and invocations as they are, and in a cut changes no record. One
FLOW.CMD waits at a time: a second is only audited. A descriptor the check refuses is not stored; another is, field by field. Where a clause leaves the state as it is because the event cannot come, that is the model's choice (assumption 1); so are its readings in assumptions 53 and 54. -/
def Obligations.FlowPageCommands : Prop :=
  (∀ (s : State) (src : Source), s.Takes src →
    ∃ t, exec (.flowFlush src) s = .next t ∧ t.flow.upd = s.flow.upd ∧ t.flow.invs = s.flow.invs ∧ t.pkts = s.pkts ∧ t.ep = s.ep) ∧
  (∀ (s : State) (src : Source), s.Takes src → s.herd.cut = true → ∃ t, exec (.flowFlush src) s = .next t ∧ s.WriteOnly t) ∧
  (∀ (s : State) (src : Source), s.Takes src → s.flow.cmd = none →
    ∃ t, exec (.flowRead src) s = .next t ∧ t.rd Reg.FLOW.CMD_BUSY = 1 ∧
      t.flow = { s.flow with cmd := some (1, (List.range 12).flatMap (fun i => leBytes 4 (s.rd Reg.FLOW.KEY 0 i))), cmdBeat := s.time.beat } ∧
      ({ s with flow := t.flow } : State).WriteOnly t) ∧
  (∀ (s : State) (src : Source), s.Takes src → s.flow.cmd = none →
    ∃ t, exec (.flowDelete src) s = .next t ∧ t.rd Reg.FLOW.CMD_BUSY = 1 ∧
      t.flow = { s.flow with cmd := some (2, (List.range 12).flatMap (fun i => leBytes 4 (s.rd Reg.FLOW.KEY 0 i))), cmdBeat := s.time.beat } ∧
      ({ s with flow := t.flow } : State).WriteOnly t) ∧
  (∀ (s : State) (src : Source), s.Takes src → s.flow.cmd.isSome = true →
    ∃ t u, exec (.flowRead src) s = .next t ∧ exec (.flowDelete src) s = .next u ∧ s.WriteOnly t ∧ s.WriteOnly u) ∧
  (∀ (s : State) (src : Source) (f u : Fin 3) (v : DWord), s.Takes src → udBad (v.toNat % 2 ^ 32) (v.toNat / 2 ^ 32) = true →
    ∃ t, exec (.uaccDescriptorWrite src f u .both v) s = .next t ∧ t.udWord1 (4 * f.val + u.val) = s.udWord1 (4 * f.val + u.val) ∧ s.WriteOnly t) ∧
  (∀ (s : State) (src : Source) (f u : Fin 3) (v : DWord), s.Takes src → udBad (v.toNat % 2 ^ 32) (v.toNat / 2 ^ 32) = false →
    ∃ t, exec (.uaccDescriptorWrite src f u .both v) s = .next t ∧ t.rd Reg.FLOW.UD_SRC 0 (4 * f.val + u.val) = bits v.toNat 0 3 ∧
      t.rd Reg.FLOW.UD_OP 0 (4 * f.val + u.val) = bits v.toNat 3 3 ∧ t.rd Reg.FLOW.COND_MASK 0 (4 * f.val + u.val) = bits v.toNat 48 8 ∧ s.WriteOnly t)

/-- Feature programs and vectors (R88, R89, R100, R104, R106, R117). In beat b + 1 a packet's core starts its program at 0 with no register written; a parity failure voids
the packet's vector and marks the core for reload, and the core's second failure withdraws the lane. The assembler makes 512 slots by the slot map,
and hands over the lane's finished packets. A vector crosses once, in beat b + 2, once the flocks it goes to are in that beat. The 64 bytes of the history entry go to its position. Where a clause leaves the state as it is because the event cannot come, that is the model's choice (assumption 1); so are its readings in assumptions 61 and 269. -/
def Obligations.FeaturePrograms : Prop :=
  (∀ (s : State) (pk : PktId) (x : Pkt), s.pkt? pk = some x → x.ft.ran = false → s.runsProgram x = true → s.time.beat = x.i.b + 1 →
    (s.lanes.get x.i.lane).pass = false → (s.fcores.get x.fcore).reload = false →
    ∃ t y, exec (.featureProgram pk false) s = .next t ∧ t.pkt? pk = some y ∧ y.ft.ran = true ∧ y.i = x.i ∧ y.lk = x.lk ∧
      t.fcores = s.fcores.set x.fcore { s.fcores.get x.fcore with pkt := some pk, pc := 0, regs := [], absent := false, outs := [], hout := [], flags := 0 } ∧
      s.Counts t Reg.LANE.FEAT_PKTS x.i.lane ∧ t = { s with regs := t.regs, pkts := t.pkts, fcores := t.fcores }) ∧
  (∀ (s : State) (pk : PktId) (x : Pkt), s.pkt? pk = some x → x.ft.ran = false → s.runsProgram x = true → s.time.beat = x.i.b + 1 →
    (s.lanes.get x.i.lane).pass = false → (s.fcores.get x.fcore).reload = false →
    ∃ t y, exec (.featureProgram pk true) s = .next t ∧ t.pkt? pk = some y ∧ y.ft.ran = true ∧ y.ft.voidVec = true ∧ 20 ∈ y.vd.reasons ∧
      (t.fcores.get x.fcore).reload = true ∧ (t.fcores.get x.fcore).faults = (s.fcores.get x.fcore).faults + 1 ∧
      ((s.fcores.get x.fcore).faults = 0 → t.acts = s.acts) ∧ ((s.fcores.get x.fcore).faults ≠ 0 → s.Queued t (.lanePassOne x.i.lane true))) ∧
  (∀ (s : State) (c : FCoreId), (s.fcore c).reload = false → exec (.featureCoreReload c) s = .next s) ∧
  (∀ (s : State) (c : FCoreId), (s.fcore c).reload = true →
    ∃ t, exec (.featureCoreReload c) s = .next t ∧ t = { s with fcores := t.fcores } ∧ (t.fcore c).reload = false ∧ (t.fcore c).pc = (s.fcore c).pc ∧
      (t.fcore c).faults = (s.fcore c).faults ∧ (∀ n, n / 16 ≠ b2n s.fhalf → s.reloadSets.find? n = none → (t.fcore c).own.find? n = (s.fcore c).own.find? n) ∧
      (∀ k, k ≠ FCoreId.key c → t.fcores.get k = s.fcores.get k)) ∧
  (∀ (s : State) (pk : PktId) (x : Pkt), s.pkt? pk = some x → x.ft.ran = true → x.ft.vec = none → x.ft.voidVec = false → (Rule.enA x.lk.act = true ∨ Rule.enB x.lk.act = true) →
    s.time.beat = x.i.b + 1 → (s.fcores.get x.fcore).pkt ≠ some pk →
    ∃ t y v, exec (.vectorAssemble pk false) s = .next t ∧ t.pkt? pk = some y ∧ y.ft.vec = some v ∧ v.length = 512 ∧
      ({ s with pkts := t.pkts } : State).OnlyFields t [Reg.CTX.SHADOW_SKIP.key 0 0 0] ∧
      (∀ j < 512, v.getD j 0 = s.slotValue x ((s.fsets.get (b2n x.ft.half * 16 + x.ft.fset.getD 0)).slotMap.getD j 0))) ∧
  (∀ (s : State) (pk : PktId) (x : Pkt), s.pkt? pk = some x → x.ft.ran = true → x.ft.vec = none → (Rule.enA x.lk.act = true ∨ Rule.enB x.lk.act = true) →
    s.time.beat = x.i.b + 1 → (s.fcores.get x.fcore).pkt ≠ some pk →
    ∃ t, exec (.vectorAssemble pk true) s = .next t ∧ s.Queued t (.lanePassOne x.i.lane true) ∧ t.fcores = s.fcores ∧ t.eg = s.eg) ∧
  (∀ (s : State) (l : Lane), ∃ t, exec (.vectorHandover l) s = .next t ∧ t = { s with pkts := t.pkts } ∧
    (∀ k x, s.pkt? k = some x → x.i.lane = l.val → x.i.b + 1 = s.time.beat → x.ft.ran = true → (k, some x) ∈ s.pkts →
      ∃ y, t.pkt? k = some y ∧ y.ft.handed = true)) ∧
  (∀ (s : State) (pk : PktId) (x : Pkt) (v : List Word), s.pkt? pk = some x → x.ft.vec = some v → s.crosses x = true →
    ∃ t y, exec (.vectorCross pk false) s = .next t ∧ t.pkt? pk = some y ∧ y = { x with ft := { x.ft with crossed := true } } ∧ s.Counts t Reg.LANE.VEC_SENT x.i.lane ∧
      t = { s with regs := t.regs, pkts := t.pkts, tree := t.tree }) ∧
  (∀ (s : State) (pk : PktId) (x : Pkt) (p : Nat), s.pkt? pk = some x → x.lk.histPos = some p → x.ft.handed = true → x.ft.houtOpen = false → s.cycLate = [] →
    (linesOf (s.regionBase 1 + 2048 * x.lk.histRing + 64 * p) 64).any s.lineProtected = false →
    ∃ t y, exec (.historyWrite pk) s = .next t ∧ t.pkt? pk = some y ∧ y.lk.histPos = none ∧
      t.hbm = Mem.writeN s.hbm (s.regionBase 1 + 2048 * x.lk.histRing + 64 * p) ((List.range 64).map (fun i => x.ft.hout.get i)) ∧
      t = { s with pkts := t.pkts, hbm := t.hbm, flt := t.flt })

/-- The arithmetic of feature programs (R96, R97): each instruction writes its destination and nothing else but the program counter. Sums, differences
and products wrap; MIN, MAX and SLT compare signed; shifts take their amount mod 32, and SHR keeps the sign; LOG2 is fixed point with eight fraction
bits; LUT reads an encoding table of the packet's set. An instruction runs where its word stands at the core's pc. Where a clause leaves the state as it is because the event cannot come, that is the model's choice (assumption 1). -/
def Obligations.FeatureArithmetic : Prop :=
  (∀ (s : State) (c : FCoreId),
    (s.FAt c (fenc 0 0 0 0) → exec (.nop c) s = .next (s.fcoreDone c (s.fcore c))) ∧
    (∀ d imm, s.FAt c (fenc 2 d.val 0 imm.toNat) → exec (.movi c d imm) s = .next (s.fcoreDone c ((s.fcore c).setReg d (BitVec.ofInt 32 imm.toInt)))) ∧
    (∀ d imm, s.FAt c (fenc 3 d.val 0 imm.toNat) →
      ∃ k, exec (.lui c d imm) s = .next (s.fcoreDone c k) ∧ k = (s.fcore c).setReg d (imm ++ ((s.fcore c).reg d).extractLsb' 0 20)) ∧
    (∀ d a, s.FAt c (fenc 0x11 d.val a.val 0) → exec (.log2 c d a) s = .next (s.fcoreDone c ((s.fcore c).setReg d (log2Fixed ((s.fcore c).reg a)))))) ∧
  (∀ (s : State) (c : FCoreId) (d a : Fin 64) (o : FOperand),
    let x := (s.fcore c).reg a
    let y := (s.fcore c).operand o
    let gives (code : Nat) (i : Instr) (v : Word) : Prop :=
      s.FAt c (fenc code d.val a.val o.low) → exec i s = .next (s.fcoreDone c ((s.fcore c).setReg d v))
    gives 4 (.add c d a o) (BitVec.ofInt 32 (x.toInt + y.toInt)) ∧ gives 5 (.sub c d a o) (BitVec.ofInt 32 (x.toInt - y.toInt)) ∧
    gives 6 (.mul c d a o) (BitVec.ofInt 32 (x.toInt * y.toInt)) ∧ gives 7 (.and c d a o) (x &&& y) ∧ gives 8 (.or c d a o) (x ||| y) ∧
    gives 9 (.xor c d a o) (x ^^^ y) ∧ gives 0xA (.shl c d a o) (BitVec.ofNat 32 (x.toNat * 2 ^ (y.toNat % 32))) ∧
    gives 0xB (.shr c d a o) (BitVec.ofInt 32 (x.toInt / 2 ^ (y.toNat % 32))) ∧
    gives 0xC (.min c d a o) (BitVec.ofInt 32 (min x.toInt y.toInt)) ∧ gives 0xD (.max c d a o) (BitVec.ofInt 32 (max x.toInt y.toInt)) ∧
    gives 0xE (.slt c d a o) (if x.toInt < y.toInt then 1 else 0)) ∧
  (∀ (s : State) (c : FCoreId) (pk : PktId) (x : Pkt), (s.fcore c).pkt = some pk → s.pkt? pk = some x →
    (∀ d a (t : Fin 16), s.FAt c (fenc 0x10 d.val a.val t.val) → exec (.lut c d a t) s = .next (s.fcoreDone c ((s.fcore c).setReg d
      (((((s.fcore c).fset s x.ft.half (x.ft.fset.getD 0)).tables[t.val]?).getD {}).lookup ((s.fcore c).reg a))))) ∧
    (∀ f : LdF, f.signed = false → s.FAt c (LdF.word f) →
      exec (.ld c f) s = .next (s.fcoreDone c { (s.fcore c).setReg f.d (BitVec.ofNat 32 (s.ldField x f).1) with absent := (s.ldField x f).2 }))) ∧
  (∀ (s : State) (c : FCoreId) (d a : Fin 64) (o : FOperand), ¬ s.FAt c (fenc 4 d.val a.val o.low) → exec (.add c d a o) s = .next s)

/-- Branches, outputs and the end of a feature program (R97). A taken branch goes on behind its distance; OUT and HOUT mark what they write; SETF sets or
clears a bit of 16 to 63 and leaves the hardware's bits alone; END hands the outputs to the packet and frees the core. Without a program nothing runs. Where a clause leaves the state as it is because the event cannot come, that is the model's choice (assumption 1). -/
def Obligations.FeatureControl : Prop :=
  (∀ (s : State) (c : FCoreId) (a : Fin 64) (n : Fin 4096),
    (s.FAt c (fenc 0x18 0 a.val n.val) →
      exec (.bz c a n) s = .next (s.fcoreDone c (if (s.fcore c).reg a = 0 then { s.fcore c with pc := (s.fcore c).pc + n.val } else s.fcore c))) ∧
    (s.FAt c (fenc 0x19 0 a.val n.val) →
      exec (.bnz c a n) s = .next (s.fcoreDone c (if (s.fcore c).reg a = 0 then s.fcore c else { s.fcore c with pc := (s.fcore c).pc + n.val }))) ∧
    (s.FAt c (fenc 0x1A 0 0 n.val) →
      exec (.babs c n) s = .next (s.fcoreDone c (if (s.fcore c).absent = true then { s.fcore c with pc := (s.fcore c).pc + n.val } else s.fcore c)))) ∧
  (∀ (s : State) (c : FCoreId) (a k : Fin 64),
    (s.FAt c (fenc 0x20 0 a.val k.val) → exec (.out c a k) s = .next (s.fcoreDone c { s.fcore c with outs := (s.fcore c).outs.put k.val ((s.fcore c).reg a) })) ∧
    (s.FAt c (fenc 0x21 0 a.val k.val) →
      exec (.hout c a k) s = .next (s.fcoreDone c { s.fcore c with hout := (s.fcore c).hout.set k.val (BitVec.ofInt 8 (max (-128) (min 127 ((s.fcore c).reg a).toInt))) }))) ∧
  (∀ (s : State) (c : FCoreId) (a k : Fin 64), s.FAt c (fenc 0x22 0 a.val k.val) →
    ∃ f : BitVec 64, exec (.setf c a k) s = .next (s.fcoreDone c { s.fcore c with flags := f }) ∧
      (∀ i < 64, f.getLsbD i = if i = k.val ∧ 16 ≤ k.val then decide ((s.fcore c).reg a ≠ 0) else (s.fcore c).flags.getLsbD i)) ∧
  (∀ (s : State) (c : FCoreId) (pk : PktId) (x : Pkt), (s.fcore c).pkt = some pk → s.pkt? pk = some x → s.FAt c (fenc 0x3F 0 0 0) →
    ∃ t y, exec (.endp c) s = .next t ∧ t.pkt? pk = some y ∧ y.ft.outs = (s.fcore c).outs ∧ y.ft.hout = (s.fcore c).hout ∧ y.ft.flags = (s.fcore c).flags ∧
      (t.fcore c).pkt = none ∧ t = { s with pkts := t.pkts, fcores := t.fcores }) ∧
  (∀ (s : State) (c : FCoreId) (d a : Fin 64) (o : FOperand), (s.fcore c).pkt = none → exec (.add c d a o) s = .next s ∧ exec (.endp c) s = .next s)

/-- Tree cores (R111, R114 to R116, R119 to R124). An issue entry that is not valid is a bubble; a valid one against a filled slot takes the tree's leaf value,
and its add waits. An add retires into its partial sum, wrapped to 64 bits; that of issue cycle 511 also counts in the gather cell of its work. A short gather is
void for every output. An output of a packet's context is the converted sum. A core in a loaded plan is not withdrawn on request; TREE_OFF waits for
the boundary. Where a clause leaves the state as it is because the event cannot come, that is the model's choice (assumption 1); so are its readings in assumptions 63, 65, 265 and 270. -/
def Obligations.TreeCommands : Prop :=
  (∀ (s : State) (f : Flock) (c : Fin 64) (n : Fin 512), s.flockIssues f.val = true → bits (s.issueWord f.val c.val (s.tcore f.val c.val).bank n.val) 29 1 = 0 →
    ∃ t, exec (.treeIssue f c n false) s = .next t ∧ s.Counts t Reg.FLOCK.TREE_BUBBLES f.val ∧
      (t.tcore f.val c.val).pend = (s.tcore f.val c.val).pend ++
        [{ part := bits (s.issueWord f.val c.val (s.tcore f.val c.val).bank n.val) 20 9, val := none, cycle := n.val, beat := s.time.beat,
           post := if n.val = 511 then s.gatherPost f.val c.val else none }] ∧
      t = { s with regs := t.regs, tree := t.tree }) ∧
  (∀ (s : State) (f : Flock) (c : Fin 64) (n : Fin 512) (pk : PktId) (slots : List Word) (w : Nat), s.flockIssues f.val = true →
    w = s.issueWord f.val c.val (s.tcore f.val c.val).bank n.val → bits w 29 1 = 1 →
    s.vslot f.val (s.tree.readBank.get f.val) (bits w 14 6) = { pkt := some pk, slots := slots } →
    ∃ t, exec (.treeIssue f c n false) s = .next t ∧ s.Counts t Reg.FLOCK.TREE_EVALS f.val ∧
      (t.tcore f.val c.val).pend = (s.tcore f.val c.val).pend ++
        [{ part := bits w 20 9, val := some (s.treeEval f.val c.val (bits w 0 10 * 64) (bits w 10 4 + 1) slots), cycle := n.val, beat := s.time.beat,
           post := if n.val = 511 then s.gatherPost f.val c.val else none }] ∧
      t = { s with regs := t.regs, tree := t.tree }) ∧
  (∀ (s : State) (f : Flock) (c : Fin 64) (p : PendAdd) (rest : List PendAdd) (v : Int), (s.tcore f.val c.val).pend = p :: rest → p.val = some v →
    ∃ t, exec (.partialAdd f c) s = .next t ∧ (t.tcore f.val c.val).pend = rest ∧ t = { s with tree := t.tree, arr := t.arr } ∧
      t.tree.part.get ((tcoreKey f.val c.val * 2 + p.beat % 2) * 512 + p.part) =
        (s.tree.part.get ((tcoreKey f.val c.val * 2 + p.beat % 2) * 512 + p.part) + v).bmod (2 ^ 64) ∧
      (p.post = none → t.arr = s.arr) ∧
      (∀ k, p.post = some k → t.arr = { s.arr with cells := s.arr.cells.set (cellKey f.val k) (Nat.min (s.arr.cells.get (cellKey f.val k) + 1) 65535) })) ∧
  (∀ (s : State) (f : Flock) (c : Fin 64), (s.tcore f.val c.val).reload = false → exec (.treeReload f c) s = .next s) ∧
  (∀ (s : State) (f : Flock) (c : Fin 64), (s.tcore f.val c.val).reload = true →
    ∃ t, exec (.treeReload f c) s = .next t ∧ t.tcore f.val c.val = { s.tcore f.val c.val with reload := false } ∧
      t = { s with tree := t.tree } ∧ t.tree.part = s.tree.part ∧ t.tree.vbuf = s.tree.vbuf) ∧
  (∀ (s : State) (f : Flock), s.gathering f.val = [] → ∃ t, exec (.gather f) s = .next t ∧ t.tree.outs.get f.val = [] ∧
    t.arr.cells.get (cellKey f.val 255) = 0 ∧ t.arr.cells.get (cellKey f.val 254) = 0 ∧ t.pkts = s.pkts ∧ t.regs = s.regs) ∧
  (∀ (s : State) (f : Flock), s.gathering f.val ≠ [] →
    contributors f.val (s.gathering f.val) ≠ s.arr.cells.get (cellKey f.val 255) →
    ∃ t, exec (.gather f) s = .next t ∧ s.Counts t Reg.FLOCK.GATHER_VOID f.val ∧ (∀ g ∈ t.tree.outs.get f.val, g.void = some 16) ∧
      t.arr.cells.get (cellKey f.val 255) = 0 ∧ t.pkts = s.pkts) ∧
  (∀ (s : State) (f : Flock), s.gathering f.val ≠ [] → contributors f.val (s.gathering f.val) = s.arr.cells.get (cellKey f.val 255) →
    ∃ t, exec (.gather f) s = .next t ∧ s.Counts t Reg.FLOCK.GATHER_DONE f.val ∧ t.arr.cells.get (cellKey f.val 255) = 0 ∧ t.pkts = s.pkts) ∧
  (∀ (s : State) (f : Flock) (n : Fin 512) (g : GatherOut) (pk : PktId) (x : Pkt), (s.tree.outs.get f.val)[n.val]? = some g → g.pkt = some pk → g.void = none →
    g.ctxsel = false → s.pkt? pk = some x → Rule.enA x.lk.act = true → Rule.ctxA x.lk.act = g.ctx →
    ∃ t y, exec (.outputConversion f n false) s = .next t ∧ t.pkt? pk = some y ∧ y.vd.a.tree.find? g.output = some (convertOut g.desc g.sum).1 ∧
      t = { s with regs := t.regs, pkts := t.pkts }) ∧
  (∀ (s : State) (c : CtxNum) (o : Fin 16), (s.ctxs.get c.val).treeVersion = none → exec (.dieGather c o) s = .next s) ∧
  (∀ (s : State) (c : CtxNum) (o : Fin 16) (v : Version), (s.ctxs.get c.val).treeVersion = some v →
    (∀ f ∈ v.flocks, s.tree.jobFull.get f = s.time.beat + 1) → (∀ f ∈ v.flocks, ∀ k ∈ v.treeCores f, s.coreVoid f k = false) →
    ∃ t x, exec (.dieGather c o) s = .next t ∧ t.tree.dieSums = s.tree.dieSums.set (c.val * 16 + o.val) x ∧ t = { s with regs := t.regs, tree := t.tree }) ∧
  (∀ (s : State) (c : CtxNum) (o : Fin 16) (v : Version), (s.ctxs.get c.val).treeVersion = some v →
    (∃ f ∈ v.flocks, ∃ k ∈ v.treeCores f, s.coreVoid f k = true) → ∃ t, exec (.dieGather c o) s = .next t ∧ t.tree = s.tree ∧ t.regs = s.regs) ∧
  (∀ (s : State) (src : Source) (f : Flock) (c : Fin 64), s.Takes src → s.treeUsed f.val c.val = false →
    ∃ t, exec (.treeWdReq src f c) s = .next t ∧ (t.flocks.get f.val).wdTree = (s.flocks.get f.val).wdTree ||| (1#64 <<< c.val) ∧
      ({ s with flocks := t.flocks } : State).WriteOnly t ∧ (∀ g, g ≠ f.val → t.flocks.get g = s.flocks.get g)) ∧
  (∀ (s : State) (src : Source) (f : Flock) (c : Fin 64), s.Takes src → s.treeUsed f.val c.val = true →
    ∃ t, exec (.treeWdReq src f c) s = .next t ∧ s.WriteOnly t) ∧
  (∀ (s : State) (src : Source) (f : Flock) (m : DWord), s.TakesExpert src →
    ∃ t, exec (.treeOff src f m) s = .next t ∧ s.Queued t (.treeOff f.val m) ∧ t.rd Reg.FLOCK.TREE_OFF f.val = m.toNat ∧ s.WriteLater t)

/-- Beat programs (R130, R131, R134, R143, R222, R225). At the start of its flock's beat a program starts at 0; an instruction issues only when the
word at the program counter is its own and the cycle has come, in order. A core waits at a SYNCW until its cell holds the count and no core before it is
served; the count is subtracted. A post adds one three cycles after it is made; a cell at 65,535 stays there. Each event first lands the posts and
broadcast writes due before it (State.land). Where a clause leaves the state as it is because the event cannot come, that is the model's choice (assumption 1); so are its readings in assumptions 13, 95, 96, 268 and 291. -/
def Obligations.BeatProgramCommands : Prop :=
  (∀ (s u : State) (c : ACoreId), u = s.land c.flock → ACoreId.exists_ c = true → u.flockIssues c.flock.val = true → u.islCycle c.flock.val = 0 →
    (u.acore c).running = false → ((u.acore c).startBeat = u.time.beat → (u.acore c).pc = 0) →
    ∃ t, exec (.beatProgramStart c) s = .next t ∧ t.acore c = { u.acore c with running := true, pc := 0, wait := none, waitAt := none, startBeat := u.time.beat,
                                                                               next := u.islNow c.flock.val } ∧
      (∀ n, n ≠ c.num → t.arr.cores.get n = u.arr.cores.get n) ∧ t = { u with arr := { u.arr with cores := t.arr.cores } }) ∧
  (∀ (s u : State) (c : ACoreId), u = s.land c.flock → u.coreIssues c 0 = true →
    ∃ t, exec (.coreNop c) s = .next t ∧ (t.acore c).pc = (u.acore c).pc + 1 ∧ (t.acore c).running = true ∧ (t.acore c).next = u.islNow c.flock.val + 1 ∧
      t.arr.mem = u.arr.mem ∧ t = { u with regs := t.regs, arr := t.arr } ∧ ((u.acore c).waitAt = none → t.regs = u.regs)) ∧
  (∀ (s u : State) (c : ACoreId), u = s.land c.flock → u.coreIssues c endWord = true →
    ∃ t, exec (.beatProgramEnd c) s = .next t ∧ (t.acore c).running = false ∧ t.arr.mem = u.arr.mem ∧ t = { u with regs := t.regs, arr := t.arr } ∧
      ((u.acore c).waitAt = none → t.regs = u.regs)) ∧
  (∀ (s u : State) (c : ACoreId) (ws : Bool), u = s.land c.flock → u.coreIssues c (formWord ws) = true → c.bulk = true →
    ∃ t, exec (.form c ws) s = .next t ∧ (t.acore c).ws = ws ∧ (t.acore c).next = u.islNow c.flock.val + 4 ∧
      bits (t.rd Reg.FLOCK.WS_FORM c.flock.val) c.core.val 1 = b2n ws ∧ t = { u with regs := t.regs, arr := t.arr }) ∧
  (∀ (s u : State) (c : ACoreId) (e : Fin 256) (n : Fin 16), u = s.land c.flock → u.coreIssues c (syncpWord e n) = true → (u.acore c).posts = [] →
    (∀ a < 4, u.arr.drains.get (arrKey c a) = []) → u.herd.remote = [] →
    ∃ t, exec (.syncp c e n) s = .next t ∧ (t.acore c).pc = (u.acore c).pc + 1 ∧
      t.arr.posts.get c.flock.val = u.arr.posts.get c.flock.val ++ [(e.val, n.val + 1, Nat.max (u.islNow c.flock.val) ((u.acore c).landAt + 1))] ∧
      t.arr.cells = u.arr.cells ∧ t = { u with regs := t.regs, arr := t.arr }) ∧
  (∀ (s u : State) (f : Flock) (e made : Nat) (rest : List (Nat × Nat × Nat)), u = s.land f → u.flockRuns f.val = true → u.arr.posts.get f.val = (e, 1, made) :: rest →
    made + 3 ≤ u.islNow f.val → e < 248 → u.cell f.val e ≠ 65535 →
    ∃ t, exec (.syncPostEffect f) s = .next t ∧ t.cell f.val e = u.cell f.val e + 1 ∧ t.arr.posts.get f.val = rest ∧ t = { u with arr := t.arr } ∧
      (∀ k, k ≠ cellKey f.val e → t.arr.cells.get k = u.arr.cells.get k)) ∧
  (∀ (s u : State) (f : Flock) (e made : Nat) (rest : List (Nat × Nat × Nat)), u = s.land f → u.flockRuns f.val = true → u.arr.posts.get f.val = (e, 1, made) :: rest →
    made + 3 ≤ u.islNow f.val → u.cell f.val e = 65535 →
    ∃ t, exec (.syncPostEffect f) s = .next t ∧ t.cell f.val e = 65535 ∧ t.arr.posts.get f.val = rest ∧ t.arr.cells = u.arr.cells) ∧
  (∀ (s : State) (f : Flock) (e n made : Nat) (rest : List (Nat × Nat × Nat)), (s.land f).arr.posts.get f.val = (e, n, made) :: rest →
    (s.land f).islNow f.val < made + 3 → exec (.syncPostEffect f) s = .next (s.land f)) ∧
  (∀ (s u : State) (c : ACoreId) (e : Fin 256) (n : BitVec 16), u = s.land c.flock → u.coreIssues c (syncwWord e n) = true → n.toNat ≤ u.cell c.flock.val e.val →
    u.servedFirst c e.val = false → e.val < 248 →
    ∃ t, exec (.syncw c e n) s = .next t ∧ (t.acore c).pc = (u.acore c).pc + 1 ∧ (t.acore c).wait = none ∧ t.cell c.flock.val e.val + n.toNat = u.cell c.flock.val e.val ∧
      t = { u with regs := t.regs, arr := t.arr }) ∧
  (∀ (s u : State) (c : ACoreId) (e : Fin 256) (n : BitVec 16), u = s.land c.flock → u.coreIssues c (syncwWord e n) = true → n.toNat ≤ u.cell c.flock.val e.val →
    u.servedFirst c e.val = false → 248 ≤ e.val → ∃ t, exec (.syncw c e n) s = .next t ∧ (t.acore c).wait = none ∧ t.arr.cells = u.arr.cells) ∧
  (∀ (s u : State) (c : ACoreId) (e : Fin 256) (n : BitVec 16), u = s.land c.flock → u.coreIssues c (syncwWord e n) = true →
    (u.cell c.flock.val e.val < n.toNat ∨ (n ≠ 0 ∧ u.servedFirst c e.val = true)) →
    ∃ t, exec (.syncw c e n) s = .next t ∧ (t.acore c).wait = some (e.val, n.toNat) ∧ t.arr.cells = u.arr.cells ∧ t = { u with regs := t.regs, arr := t.arr }) ∧
  (∀ (s u : State) (c : ACoreId) (e n : Nat), u = s.land c.flock → (u.acore c).wait = some (e, n) → u.flockIssues c.flock.val = true → n ≤ u.cell c.flock.val e →
    u.servedFirst c e = false → e < 248 →
    ∃ t, exec (.syncwSatisfied c) s = .next t ∧ (t.acore c).wait = none ∧ t.cell c.flock.val e + n = u.cell c.flock.val e ∧ t = { u with arr := t.arr }) ∧
  (∀ (s u : State) (c : ACoreId) (e n : Nat), u = s.land c.flock → (u.acore c).wait = some (e, n) → (u.cell c.flock.val e < n ∨ u.servedFirst c e = true) →
    exec (.syncwSatisfied c) s = .next u)

/-- Array instructions (R132 to R134, R137 to R139, R141 to R145, R160, R163, R242, R298). LOADH opens the banks it names with its format and length, and a
write of its row is counted there once its cycle has come; a STREAM that may not issue yet waits and is counted; a drained tile leaves its array when its
last row is out, not before; a void tile leaves no statistics record; a reload ends the mark; a COPY moves its whole length between HBM and the core, and
one out of the core waits for the lines still to be written. Each event first lands what is due before it (State.land). Where a clause leaves the state as it is because the event cannot come, that is the model's choice (assumption 1); so are its readings in assumptions 88, 89, 90, 91, 101, 266 and 267. -/
def Obligations.ArrayInstructions : Prop :=
  (∀ (s u : State) (c : ACoreId) (f : LoadhF), u = s.land c.flock → u.coreIssues c (LoadhF.word f) = true → (∀ a n, u.toWrite c a n = false) →
    (f.xp = true → (u.acore c).port ≤ u.islNow c.flock.val) →
    ∃ t, exec (.loadh c f) s = .next t ∧ (t.acore c).pc = (u.acore c).pc + 1 ∧
      (∀ a ∈ u.named c f.amask.toNat, (t.arr.banks.get (bankKey c a f.bank)).loaded = true ∧ (t.arr.banks.get (bankKey c a f.bank)).fmt = f.fmt.val ∧
        (t.arr.banks.get (bankKey c a f.bank)).klen = f.klen.val ∧ (t.arr.banks.get (bankKey c a f.bank)).written = 0) ∧
      t.arr.mem = u.arr.mem ∧ t = { u with regs := t.regs, arr := t.arr }) ∧
  (∀ (s u : State) (c : ACoreId) (f : LoadhF), u = s.land c.flock → u.coreIssues c (LoadhF.word f) = true → f.xp = true → u.islNow c.flock.val < (u.acore c).port →
    ∃ t, exec (.loadh c f) s = .next t ∧ (t.acore c).pc = (u.acore c).pc ∧ (t.acore c).waitAt = some (u.islNow c.flock.val) ∧ t.arr.banks = u.arr.banks ∧
      t.arr.mem = u.arr.mem ∧ t = { u with regs := t.regs, arr := t.arr }) ∧
  (∀ (s u : State) (c : ACoreId) (a : Fin 4) (n : HeldAt) (p : HeldPend), u = s.land c.flock → u.flockRuns c.flock.val = true →
    (u.acore c).held.find? (fun h => h.a == a.val && h.next == n.row.val) = some p → n.parity = false → p.next < p.total → p.writeAt ≤ u.islNow c.flock.val →
    ∃ t, exec (.heldWrite c a n) s = .next t ∧ (t.arr.banks.get (bankKey c p.a p.f.bank)).written = n.row.val + 1 ∧ t.arr.mem = u.arr.mem ∧
      t = { u with regs := t.regs, arr := t.arr }) ∧
  (∀ (s u : State) (c : ACoreId) (f : StreamF) (b : Bool), u = s.land c.flock → u.coreIssues c (StreamF.word f) = true → u.streamWaits c f = true →
    ∃ t, exec (.stream c f b) s = .next t ∧ (t.acore c).pc = (u.acore c).pc ∧ (t.acore c).waitAt = some (u.islNow c.flock.val) ∧
      t.arr.banks = u.arr.banks ∧ t.arr.lanes = u.arr.lanes ∧ t.arr.mem = u.arr.mem ∧ t = { u with regs := t.regs, arr := t.arr } ∧
      ((u.acore c).waitAt = none → t.regs = u.regs)) ∧
  (∀ (s u : State) (c : ACoreId) (f : StreamF), u = s.land c.flock → u.coreIssues c (StreamF.word f) = true → u.streamWaits c f = false →
    ∃ t, exec (.stream c f false) s = .next t ∧ (t.acore c).pc = (u.acore c).pc + 1 ∧ (t.acore c).inj = 0 ∧ t.arr.mem = u.arr.mem ∧ t.eg = u.eg) ∧
  (∀ (s u : State) (c : ACoreId) (a : Fin 4) (d : DrainTile) (rest : List DrainTile), u = s.land c.flock → u.flockRuns c.flock.val = true →
    u.arr.drains.get (arrKey c a.val) = d :: rest → d.endAt + (u.geo c).drain + d.rows - 1 ≤ u.islNow c.flock.val →
    ∃ t, exec (.tileDrain c a false) s = .next t ∧ t.arr.drains.get (arrKey c a.val) = rest ∧ (t.acore c).pc = (u.acore c).pc ∧ t.pkts = u.pkts ∧ t.eg = u.eg) ∧
  (∀ (s u : State) (c : ACoreId) (a : Fin 4) (p : Bool) (d : DrainTile) (rest : List DrainTile), u = s.land c.flock →
    u.arr.drains.get (arrKey c a.val) = d :: rest → u.islNow c.flock.val < d.endAt + (u.geo c).drain + d.rows - 1 → exec (.tileDrain c a p) s = .next u) ∧
  (∀ (s u : State) (c : ACoreId) (a : Fin 4), u = s.land c.flock → u.flockRuns c.flock.val = true → (u.arr.stats.get (arrKey c a.val)).ready = true →
    (u.arr.stats.get (arrKey c a.val)).endAt + (u.geo c).drain + 2 * (u.geo c).rows ≤ u.islNow c.flock.val + 1 → (u.arr.stats.get (arrKey c a.val)).void = true →
    exec (.statRecordWrite c a) s = .next { u with arr := { u.arr with stats := u.arr.stats.set (arrKey c a.val) {} } }) ∧
  (∀ (s u : State) (c : ACoreId) (a : Fin 4), u = s.land c.flock → u.flockRuns c.flock.val = true → (u.arr.stats.get (arrKey c a.val)).ready = true →
    (u.arr.stats.get (arrKey c a.val)).endAt + (u.geo c).drain + 2 * (u.geo c).rows ≤ u.islNow c.flock.val + 1 →
    ∃ t, exec (.statRecordWrite c a) s = .next t ∧ t.arr.stats.get (arrKey c a.val) = {} ∧ t.arr.drains = u.arr.drains ∧ t = { u with regs := t.regs, arr := t.arr }) ∧
  (∀ (s : State) (c : ACoreId), (s.acore c).reload = false → exec (.arrayReload c) s = .next s) ∧
  (∀ (s : State) (c : ACoreId), (s.acore c).reload = true → ∃ t, exec (.arrayReload c) s = .next t ∧ (t.acore c).reload = false ∧ t.regs = s.regs ∧ t.eg = s.eg) ∧
  (∀ (s u : State) (c : ACoreId) (f : RetF) (v : MoveErr), v ≠ .parity → u = s.land c.flock → u.coreIssues c (RetF.word f) = true → c.bulk = false → (∀ a n, u.toWrite c a n = false) →
    ∃ t, exec (.ret c f v) s = .next t ∧ (t.acore c).pc = (u.acore c).pc + 1 ∧ t.arr.mem = u.arr.mem ∧ t.eg = u.eg ∧
      ((u.flocks.get c.flock.val).debug = true → t.pkts = u.pkts)) ∧
  (∀ (s u : State) (c : ACoreId) (f : CopyF) (p : MoveErr), u = s.land c.flock → u.coreIssues c (CopyF.word f) = true → apertureOf (64 * f.haddr.val) = none →
    f.dir = false → u.hbmUe (64 * f.haddr.val) (64 * (f.lenM1.val + 1)) = none → (∀ z, u.coreSect c = some z → z.2.1.kind ≠ 3) →
    ∃ t, exec (.copy c f p) s = .next t ∧ (t.acore c).pc = (u.acore c).pc + 1 ∧
      t.arr.mem = Mem.writeN u.arr.mem (ACoreId.base c + 64 * f.caddr.val) (Mem.readN u.hbm (64 * f.haddr.val) (64 * (f.lenM1.val + 1))) ∧
      t = { u with regs := t.regs, arr := t.arr, flocks := t.flocks }) ∧
  (∀ (s u : State) (c : ACoreId) (f : CopyF), u = s.land c.flock → u.coreIssues c (CopyF.word f) = true → apertureOf (64 * f.haddr.val) = none →
    f.dir = true → u.toWrite c (64 * f.caddr.val) (64 * (f.lenM1.val + 1)) = false → u.copyAllowed c f = true →
    (linesOf (64 * f.haddr.val) (64 * (f.lenM1.val + 1))).any u.lineProtected = false → u.cycLate = [] →
    ∃ t, exec (.copy c f .none) s = .next t ∧ (t.acore c).pc = (u.acore c).pc + 1 ∧
      t.hbm = Mem.writeN u.hbm (64 * f.haddr.val) (u.coreBytes c (64 * f.caddr.val) (64 * (f.lenM1.val + 1))) ∧ t.arr.mem = u.arr.mem) ∧
  (∀ (s u : State) (c : ACoreId) (f : CopyF), u = s.land c.flock → u.coreIssues c (CopyF.word f) = true → apertureOf (64 * f.haddr.val) = none →
    f.dir = true → u.toWrite c (64 * f.caddr.val) (64 * (f.lenM1.val + 1)) = false → u.copyAllowed c f = false →
    ∃ t, exec (.copy c f .none) s = .next t ∧ t.hbm = u.hbm ∧ t.arr.mem = u.arr.mem ∧ t = { u with regs := t.regs, arr := t.arr, flocks := t.flocks }) ∧
  (∀ (s u : State) (c : ACoreId) (f : CopyF) (p : MoveErr), u = s.land c.flock → u.coreIssues c (CopyF.word f) = true → f.dir = true →
    u.toWrite c (64 * f.caddr.val) (64 * (f.lenM1.val + 1)) = true →
    ∃ t, exec (.copy c f p) s = .next t ∧ (t.acore c).pc = (u.acore c).pc ∧ (t.acore c).waitAt = some (u.islNow c.flock.val) ∧ t.hbm = u.hbm ∧
      t = { u with regs := t.regs, arr := t.arr }) ∧
  (∀ (s u : State) (c : ACoreId) (f : CopyF) (a : Nat), u = s.land c.flock → u.coreIssues c (CopyF.word f) = true →
    apertureOf (64 * f.haddr.val) = some a → f.dir = false → u.aptOk a = true →
    ∃ t, exec (.copy c f .none) s = .next t ∧ (t.acore c).pc = (u.acore c).pc + 1 ∧ t.arr.mem = u.arr.mem ∧ t.hbm = u.hbm) ∧
  (∀ (s u : State) (c : ACoreId) (f : CopyF) (a : Nat) (lost : MoveErr), u = s.land c.flock → u.coreIssues c (CopyF.word f) = true →
    apertureOf (64 * f.haddr.val) = some a → f.dir = false → (lost = .transfer ∨ u.aptOk a = false) →
    ∃ t, exec (.copy c f lost) s = .next t ∧ (t.acore c).pc = (u.acore c).pc + 1 ∧ u.Counts t Reg.HERD.APT_VOID ∧ t.arr.mem = u.arr.mem)
/-- The command fields of page FLOCK (R10, R146, R165, R184). An array that no loaded plan binds is marked for withdrawal at the next plan load, one that is
bound is not; ARRAY_OFF and a patch wait for the boundary; INJ_ARM arms one core; a read of AF returns its fields and clears them. Where a clause leaves the state as it is because the event cannot come, that is the model's choice (assumption 1); so are its readings in assumptions 81 and 205. -/
def Obligations.FlockPageCommands : Prop :=
  (∀ (s : State) (src : Source) (f : Flock) (n : Fin 64), s.Takes src → s.arrayUsed f.val n.val = false →
    ∃ t, exec (.arrayWdReq src f n) s = .next t ∧ (t.flocks.get f.val).wdArray = (s.flocks.get f.val).wdArray ||| (1#64 <<< n.val) ∧
      ({ s with flocks := t.flocks } : State).WriteOnly t ∧ (∀ g, g ≠ f.val → t.flocks.get g = s.flocks.get g)) ∧
  (∀ (s : State) (src : Source) (f : Flock) (n : Fin 64), s.Takes src → s.arrayUsed f.val n.val = true →
    ∃ t, exec (.arrayWdReq src f n) s = .next t ∧ s.WriteOnly t) ∧
  (∀ (s : State) (src : Source) (f : Flock) (m : DWord), s.TakesExpert src →
    ∃ t, exec (.arrayOff src f m) s = .next t ∧ s.Queued t (.arrayOff f.val m) ∧ t.rd Reg.FLOCK.ARRAY_OFF f.val = m.toNat ∧ s.WriteLater t) ∧
  (∀ (s : State) (src : Source) (f : Flock) (k : Fin 8) (c : CoreClass) (n : Fin 16), s.TakesExpert src →
    ∃ t, exec (.injArm src f k c n) s = .next t ∧ (k.val ≤ 4 → (t.acore { flock := f, cls := c, core := n }).inj = k.val) ∧
      (∀ d : ACoreId, d ≠ { flock := f, cls := c, core := n } → t.acore d = s.acore d) ∧ ({ s with arr := t.arr } : State).WriteOnly t) ∧
  (∀ (s : State) (src : Source) (f : Flock), s.pagesOpen = true →
    ∃ t, exec (.afRead src f) s = .next t ∧ t = { s with regs := t.regs, host := { s.host with regData := t.host.regData } } ∧
      (∀ x ∈ [Reg.FLOCK.AF_KIND, Reg.FLOCK.AF_CLASS, Reg.FLOCK.AF_CORE, Reg.FLOCK.AF_ARRAY, Reg.FLOCK.AF_LANE, Reg.FLOCK.AF_CYCLE, Reg.FLOCK.AF_CODE,
        Reg.FLOCK.AF_TAG_SEEN, Reg.FLOCK.AF_TAG_EXP, Reg.FLOCK.AF_BEAT], t.rd x f.val = 0 ∧ (s.rd x f.val < 2 ^ x.width → (∀ y ∈ [Reg.FLOCK.AF_KIND,
        Reg.FLOCK.AF_CLASS, Reg.FLOCK.AF_CORE, Reg.FLOCK.AF_ARRAY, Reg.FLOCK.AF_LANE, Reg.FLOCK.AF_CYCLE, Reg.FLOCK.AF_CODE, Reg.FLOCK.AF_TAG_SEEN,
        Reg.FLOCK.AF_TAG_EXP, Reg.FLOCK.AF_BEAT], s.rd y f.val < 2 ^ y.width) → t.host.regData / 2 ^ x.lo % 2 ^ x.width = s.rd x f.val))) ∧
  (∀ (s : State) (src : Source) (f : Flock), s.TakesExpert src →
    ∃ t, exec (.flockPatchGo src f) s = .next t ∧ s.WriteLater t ∧
      s.Queued t (.patch ((f.val * 2 + s.rd Reg.FLOCK.PATCH_CLASS f.val) * 16 + s.rd Reg.FLOCK.PATCH_CORE f.val) (decide (s.rd Reg.FLOCK.PATCH_AREA f.val = 1))
        (s.rd Reg.FLOCK.PATCH_WORD f.val) (BitVec.ofNat 64 (s.rd Reg.FLOCK.PATCH_DATA f.val)))) ∧
  (∀ (s : State) (n w : Nat) (area : Bool) (d : BitVec 64),
    (s.runAct (.patch n area w d)).arr.desc =
      Mem.writeN s.arr.desc ((n * 2 + b2n (s.arr.cores.get n).progBank) * 2 ^ 15 + (if area then 8192 else 0) + 8 * w) (leBytes 8 d.toNat) ∧
    s.runAct (.patch n area w d) = { s with arr := { s.arr with desc := (s.runAct (.patch n area w d)).arr.desc } })
/-- Verdicts and release (R32, R51, R53, R144, R186, R192, R198, R199). A packet's context result is formed once. At schedule cycle 192 an output that has not
arrived is void. A void packet is discarded as malformed and offered to no queue; one of a lane in pass mode takes the safe action: forwarded, with no
verdict. A packet waits for its boundary and for its FCS result. An eligible packet starts early. Where a clause leaves the state as it is because the event cannot come, that is the model's choice (assumption 1); so are its readings in assumptions 105, 113, 256 and 271. -/
def Obligations.VerdictCommands : Prop :=
  (∀ (s : State) (pk : PktId) (x : Pkt) (v : Version), s.pkt? pk = some x → x.vd.released = false → x.i.b + 4 ≤ s.time.beat → x.vd.a.formed = false →
    x.vd.b.formed = false → s.runA x = some v → s.runB x = none →
    ∃ t y, exec (.verdictForm pk false) s = .next t ∧ t.pkt? pk = some y ∧ y.vd.a = formRes v x.lateWhy x.vd.a ∧ y.vd.b = x.vd.b ∧ y.i = x.i ∧ t.eg = s.eg ∧
      t.regs = s.regs) ∧
  (∀ (s : State) (pk : PktId) (x : Pkt), s.pkt? pk = some x → s.time.beat < x.i.b + 4 → exec (.verdictForm pk false) s = .next s) ∧
  (∀ (s : State) (f : Flock), ∃ t, exec (.returnDeadline f) s = .next t ∧ t = { s with pkts := t.pkts } ∧ (s.time.cycle < 192 → t = s) ∧
    (∀ (i : Nat) (pk : PktId) (x : Pkt) (v : Version), i < 64 → s.tree.gset.get (f.val * 64 + i) = some pk → s.pkt? pk = some x → x.i.b + 4 = s.time.beat →
      192 ≤ s.time.cycle → s.runA x = some v → v.comb ≠ 0 → x.vd.a.missing v = true → ∃ y, t.pkt? pk = some y ∧ y.vd.a.void.isSome = true ∧ y.i = x.i)) ∧
  (∀ (s : State) (pk : PktId) (x : Pkt) (bad : List Nat), s.pkt? pk = some x → x.vd.released = false → x.vd.fcs = some false → x.vd.voidPkt = true → x.vd.dests = 0 →
    x.applyAt ≤ s.time.beat → s.behind x = false → s.eg.inj = [] →
    ∃ t y, exec (.verdictApply pk bad) s = .next t ∧ t.pkt? pk = some y ∧ y.vd.released = true ∧ y.vd.category = 3 ∧ y.vd.fwd = false ∧ t.eg = s.eg) ∧
  (∀ (s : State) (pk : PktId) (x : Pkt) (bad : List Nat), s.pkt? pk = some x → x.vd.released = false → x.vd.fcs = some true → x.vd.voidPkt = false →
    (s.lanes.get x.i.lane).pass = true → x.applyAt ≤ s.time.beat → s.behind x = false → (∀ e ∈ s.eg.inj, e.2.2.pkt = none) →
    ∃ t y, exec (.verdictApply pk bad) s = .next t ∧ t.pkt? pk = some y ∧ y.vd.released = true ∧ y.vd.safe = true ∧ y.vd.fwd = true ∧ y.vd.code = 0) ∧
  (∀ (s : State) (pk : PktId) (x : Pkt) (bad : List Nat), s.pkt? pk = some x → (x.vd.fcs = none ∨ s.time.beat < x.applyAt) → exec (.verdictApply pk bad) s = .next s) ∧
  (∀ (s : State) (pk : PktId) (x : Pkt) (fr : EgFrame), s.pkt? pk = some x → s.ctEligible x = true →
    fr = { kind := 0, pkt := some pk, size := x.i.data.length + 4, bytes := x.i.data, early := true } →
    s.admits (s.defaultDest x.i.port) (Rule.queue x.lk.act) fr = true → Rule.copy x.lk.act = false → Rule.mirror x.lk.act = false →
    ∃ t y, exec (.cutThroughStart pk) s = .next t ∧ t.pkt? pk = some y ∧ y.vd.early = true ∧ y.vd.dests = x.vd.dests + 1 ∧
      (t.eg.tx.get (s.defaultDest x.i.port)).cur = some fr ∧ s.Counts t Reg.HOLD.CT_STARTS ∧ t = { s with regs := t.regs, pkts := t.pkts, eg := t.eg })

/-- Doubt (R199 to R201, R295). A context goes down past CTX_FAULT_MAX void sets. A lane enters pass mode, a flock is withdrawn, the device enters its safe
state with every lane in pass mode; each stays so when commanded again. The commands of page VERD wait for the boundary. Where a clause leaves the state as it is because the event cannot come, that is the model's choice (assumption 1); so are its readings in assumption 107. -/
def Obligations.DoubtCommands : Prop :=
  (∀ (s : State) (c : CtxNum), s.act Reg.VERD.CTX_FAULT_MAX < (s.ctxs.get c.val).voidSets → (s.ctxs.get c.val).down = 0 →
    ∃ t, exec (.contextDown c) s = .next t ∧ (t.ctxs.get c.val).down = 3 ∧ (∀ k, k ≠ c.val → t.ctxs.get k = s.ctxs.get k) ∧
      t.rd Reg.VERD.LAST_DOWN_CTX = c.val ∧ t.rd Reg.VERD.LAST_DOWN_WHY = 3 ∧ t.pkts = s.pkts) ∧
  (∀ (s : State) (c : CtxNum), (s.ctxs.get c.val).voidSets ≤ s.act Reg.VERD.CTX_FAULT_MAX → exec (.contextDown c) s = .next s) ∧
  (∀ (s : State) (l : Lane), ∃ t, exec (.lanePassEntry l) s = .next t ∧ (t.lanes.get l.val).pass = true ∧ (∀ k, k ≠ l.val → t.lanes.get k = s.lanes.get k) ∧
    t.flt.dmc.get (65536 + l.val) = .withdrawn ∧ ({ s with lanes := t.lanes } : State).ReportsOnly t) ∧
  (∀ (s : State) (f : Flock), (s.flocks.get f.val).withdrawn = false →
    ∃ t, exec (.flockWithdraw f) s = .next t ∧ (t.flocks.get f.val).withdrawn = true ∧ (∀ k, k ≠ f.val → t.flocks.get k = s.flocks.get k) ∧
      t.flt.dmc.get (2 * 65536 + f.val) = .withdrawn ∧ ({ s with flocks := t.flocks, ctxs := t.ctxs } : State).ReportsOnly t) ∧
  (∀ (s : State) (f : Flock), (s.flocks.get f.val).withdrawn = true → exec (.flockWithdraw f) s = .next s) ∧
  (∀ (s : State) (why : SafeCause), s.devSafe = false →
    ∃ t, exec (.deviceSafeEntry why) s = .next t ∧ t.devSafe = true ∧ (∀ l : Lane, (t.lanes.get l.val).pass = true) ∧ t.pkts = s.pkts ∧ t.eg = s.eg ∧ t.cls = s.cls) ∧
  (∀ (s : State) (src : Source) (c : CtxNum), s.Takes src → ∃ t, exec (.restoreCtx src c) s = .next t ∧ s.Queued t (.restoreCtx c.val) ∧ s.WriteLater t) ∧
  (∀ (s : State) (src : Source) (m : BitVec 16), s.TakesExpert src →
    ∃ t, exec (.lanePassSet src m) s = .next t ∧ s.Queued t (.lanePass m.toNat) ∧ t.rd Reg.VERD.LANE_PASS_SET = m.toNat ∧ s.WriteLater t) ∧
  (∀ (s : State) (src : Source), s.TakesExpert src → ∃ t, exec (.forceSafe src) s = .next t ∧ s.Queued t (.devSafe false) ∧ s.WriteLater t) ∧
  (∀ (s : State) (src : Source), s.TakesExpert src → ∃ t, exec (.verdPatchGo src) s = .next t ∧
    s.Queued t (.verdPatch (s.rd Reg.VERD.PATCH_CTX) (s.rd Reg.VERD.PATCH_CODE) (s.rd Reg.VERD.PATCH_SLOT) (BitVec.ofNat 32 (s.rd Reg.VERD.PATCH_DATA))) ∧ s.WriteLater t)

/-- Rule commits (R61, R66 to R68, R247, R402). A COMMIT in OPEN starts the checks; they end in ARMED, or back in OPEN with the reason; an ABORT goes back to
OPEN; at beat C the staged slot becomes the active one; the old slot retires once no lane counts it, and is then made equal to the active one. Where a clause leaves the state as it is because the event cannot come, that is the model's choice (assumption 1); so are its readings in assumptions 149 and 262. -/
def Obligations.RuleCommitCommands : Prop :=
  (∀ (s : State) (src : Source), s.Takes src → s.commitState = 0 → s.herdState < 2 →
    ∃ t, exec (.ruleCommit src) s = .next t ∧ t.commitState = 1 ∧ t.cls = { s.cls with commitWrite := s.time.beat, waitOrder := false } ∧ ({ s with cls := t.cls } : State).WriteOnly t) ∧
  (∀ (s : State) (src : Source), s.Takes src → s.commitState ≠ 0 →
    ∃ t, exec (.ruleCommit src) s = .next t ∧ t.commitState = s.commitState ∧ s.WriteOnly t) ∧
  (∀ (s : State) (src : Source), s.Takes src → s.commitState = 0 → 2 ≤ s.herdState → s.rd Reg.HERD.ELECTING = 1 →
    ∃ t, exec (.ruleCommit src) s = .next t ∧ t.commitState = 0 ∧ t.rd Reg.HERD.CMT_RESULT = 3 ∧ s.WriteOnly t) ∧
  (∀ (s : State) (src : Source), s.Takes src → s.commitState = 2 → s.cls.armHerd = false →
    ∃ t, exec (.ruleAbort src) s = .next t ∧ t.commitState = 0 ∧ s.WriteOnly t) ∧
  (∀ (s : State) (src : Source), s.Takes src → s.commitState ≠ 2 →
    ∃ t, exec (.ruleAbort src) s = .next t ∧ t.commitState = s.commitState ∧ s.WriteOnly t) ∧
  (∀ s : State, s.commitState = 1 → s.cls.waitOrder = false →
    s.ruleCheck (s.rd Reg.TCAM.STAGED_VER) (s.rd Reg.TCAM.COMMIT_BEAT) s.cls.commitWrite true = 0 →
    ∃ t, exec .ruleCheckEnd s = .next t ∧ t.commitState = 2 ∧ t.cls.armC = s.rd Reg.TCAM.COMMIT_BEAT ∧ t.rd Reg.TCAM.REFUSE = 0 ∧ t.cls.tcam = s.cls.tcam) ∧
  (∀ s : State, s.commitState = 1 → s.cls.waitOrder = true → exec .ruleCheckEnd s = .next s) ∧
  (∀ s : State, s.commitState = 1 → s.cls.waitOrder = false →
    s.ruleCheck (s.rd Reg.TCAM.STAGED_VER) (s.rd Reg.TCAM.COMMIT_BEAT) s.cls.commitWrite true ≠ 0 →
    ∃ t, exec .ruleCheckEnd s = .next t ∧ t.commitState = 0 ∧ t.cls = s.cls ∧
      t.rd Reg.TCAM.REFUSE = s.ruleCheck (s.rd Reg.TCAM.STAGED_VER) (s.rd Reg.TCAM.COMMIT_BEAT) s.cls.commitWrite true) ∧
  (∀ s : State, s.commitState = 2 → s.cls.armC ≤ s.time.beat →
    ∃ t, exec .ruleVersionSwitch s = .next t ∧ t.activeSlot = 1 - s.activeSlot ∧ t.commitState = 3 ∧ t.cls = { s.cls with switchBeat := s.cls.armC, retired := false } ∧
      t.pkts = s.pkts) ∧
  (∀ s : State, s.commitState = 2 → s.time.beat < s.cls.armC → exec .ruleVersionSwitch s = .next s) ∧
  (∀ s : State, s.commitState = 3 → s.cls.retired = false → s.cls.switchBeat + 5 ≤ s.time.beat →
    (∀ l < 16, (s.lanes.get l).pass = true ∨ s.cls.occ.get (l * 2 + s.stagedSlot) = 0) →
    exec .ruleRetire s = .next { s with cls := { s.cls with retired := true } }) ∧
  (∀ (s : State) (l : Lane), (s.lanes.get l.val).pass = false → s.cls.occ.get (l.val * 2 + s.stagedSlot) ≠ 0 → exec .ruleRetire s = .next s) ∧
  (∀ s : State, s.commitState = 3 → s.cls.retired = true →
    ∃ t, exec .ruleSlotCopyEnd s = .next t ∧ t.commitState = 0 ∧ t.cls.retired = false ∧ (∀ p ∈ t.cls.tcam, p.2.s0 = p.2.s1) ∧ t.defAct 0 = t.defAct 1 ∧
      t.pkts = s.pkts)

/-- Entry commands and bulk loads (R69, R71, R402). A write of ENT_CMD sets ENT_BUSY and keeps the command; while it is set another write has no effect. The
command's end writes its result and clears ENT_BUSY. A bulk load runs its records one by one, each as an entry command of replica 0, and stops at a refusal. Where a clause leaves the state as it is because the event cannot come, that is the model's choice (assumption 1); so are its readings in assumptions 47 and 48. -/
def Obligations.EntryCommands : Prop :=
  (∀ (s : State) (src : Source) (e : EntCmd), s.Takes src → s.rd Reg.TCAM.ENT_BUSY e.replica.val = 0 →
    let takes (i : Instr) (op : EntOp) : Prop := ∃ t, exec i s = .next t ∧ t.rd Reg.TCAM.ENT_BUSY e.replica.val = 1 ∧
      t.cls = { s.cls with entPend := s.cls.entPend.set e.replica.val (some { op := op, cmd := e }) } ∧ ({ s with cls := t.cls } : State).WriteOnly t
    takes (.entWrite src e) .write ∧ takes (.entSetStaged src e) .setStaged ∧ takes (.entClearStaged src e) .clearStaged ∧ takes (.entRead src e) .read ∧
      takes (.entRepair src e) .repair) ∧
  (∀ (s : State) (src : Source) (e : EntCmd), s.Takes src → s.rd Reg.TCAM.ENT_BUSY e.replica.val = 1 →
    ∃ t, exec (.entWrite src e) s = .next t ∧ t.rd Reg.TCAM.ENT_BUSY e.replica.val = 1 ∧ s.WriteOnly t) ∧
  (∀ (s : State) (r : Replica) (op : EntOp) (c : EntCmd) (n a : Nat), s.cls.entPend.get r.val = some { op := op, cmd := c, result := some n, acted := a } → a < s.time.beat → n < 16 →
    ∃ t, exec (.entCmdEnd r) s = .next t ∧ t.rd Reg.TCAM.ENT_BUSY r.val = 0 ∧ t.rd Reg.TCAM.ENT_RESULT r.val = n ∧
      t.cls = { s.cls with entPend := s.cls.entPend.set r.val none } ∧ t.pkts = s.pkts) ∧
  (∀ (s : State) (src : Source), s.Takes src → s.cls.loadRun = false →
    ∃ t, exec (.loadGo src) s = .next t ∧ t.rd Reg.TCAM.LOAD_DONE = 0 ∧ t.cls = { s.cls with
      loadRun := decide (s.rd Reg.TCAM.LOAD_COUNT ≠ 0), loadAddr := s.rd Reg.TCAM.LOAD_ADDR, loadLeft := s.rd Reg.TCAM.LOAD_COUNT } ∧
      ({ s with cls := t.cls } : State).WriteOnly t) ∧
  (∀ (s : State) (src : Source), s.Takes src → s.cls.loadRun = true → ∃ t, exec (.loadGo src) s = .next t ∧ s.WriteOnly t) ∧
  (∀ s : State, s.cls.loadRun = false → exec .tcamLoadRecord s = .next s) ∧
  (∀ s : State, s.cls.loadRun = true → s.rd Reg.TCAM.ENT_BUSY = 1 → exec .tcamLoadRecord s = .next s) ∧
  (∀ (s : State) (b : List Byte), s.cls.loadRun = true → s.rd Reg.TCAM.ENT_BUSY = 0 → b = Mem.readN s.hbm s.cls.loadAddr 192 →
    ∃ t d, exec .tcamLoadRecord s = .next t ∧ t.rd Reg.TCAM.ENT_BUSY = 1 ∧
      d = { value := BitVec.ofNat 576 (leAt b 0 72), mask := BitVec.ofNat 576 (leAt b 72 72), act := BitVec.ofNat 128 (leAt b 144 16) } ∧
      t.cls = { s.cls with entPend := s.cls.entPend.set 0 (some { op := entOpOf (bits (leAt b 160 4) 16 3), cmd := entCmdOf 0 (leAt b 160 4), load := some d }) } ∧
      t = { s with regs := t.regs, cls := t.cls }) ∧
  (∀ (s : State) (op : EntOp) (c : EntCmd) (d : EntData) (n a : Nat),
    s.cls.entPend.get 0 = some { op := op, cmd := c, result := some n, acted := a, load := some d } → a < s.time.beat → n ≠ 0 → n < 16 →
    ∃ t, exec (.entCmdEnd ⟨0, by decide⟩) s = .next t ∧ t.rd Reg.TCAM.ENT_RESULT = n ∧ t.cls = { s.cls with entPend := s.cls.entPend.set 0 none, loadRun := false }) ∧
  (∀ (s : State) (op : EntOp) (c : EntCmd) (d : EntData) (a : Nat),
    s.cls.entPend.get 0 = some { op := op, cmd := c, result := some 0, acted := a, load := some d } → a < s.time.beat →
    ∃ t, exec (.entCmdEnd ⟨0, by decide⟩) s = .next t ∧ t.rd Reg.TCAM.ENT_RESULT = 0 ∧ s.Counts t Reg.TCAM.LOAD_DONE ∧
      t.cls = { s.cls with
        entPend := s.cls.entPend.set 0 none, loadAddr := s.cls.loadAddr + 192, loadLeft := s.cls.loadLeft - 1, loadRun := decide (s.cls.loadLeft - 1 ≠ 0) })

/-- Loading a context or the layout (R206 to R209, R215). A LOAD starts the checks with the image's place, length and version; a context in another state
refuses it with RESULT 2. The checks end in staging or with a refusal; staging ends in STAGED or, at an uncorrectable line, with a refusal. A staged
version can be discarded; UNLOAD stages version 0. Where a clause leaves the state as it is because the event cannot come, that is the model's choice (assumption 1); so are its readings in assumptions 100, 124, 125, 145 and 292. -/
def Obligations.ContextLoadCommands : Prop :=
  (∀ (s : State) (src : Source), s.Takes src → ((s.ctxs.get s.ctxSel).st = .empty ∨ (s.ctxs.get s.ctxSel).st = .active) →
    ∃ t, exec (.load src) s = .next t ∧ (t.ctxs.get s.ctxSel).st = .checking ∧ (t.ctxs.get s.ctxSel).prev = (s.ctxs.get s.ctxSel).st ∧
      (t.ctxs.get s.ctxSel).chkAddr = s.rd Reg.CTX.IMG_ADDR ∧ (t.ctxs.get s.ctxSel).chkLen = s.rd Reg.CTX.IMG_LEN ∧
      (t.ctxs.get s.ctxSel).chkVer = s.rd Reg.CTX.NEW_VER ∧ t.layout = s.layout ∧ t.pkts = s.pkts) ∧
  (∀ (s : State) (src : Source), s.Takes src → (s.ctxs.get s.ctxSel).st = .armed →
    ∃ t, exec (.load src) s = .next t ∧ t.rd Reg.CTX.RESULT = 2 ∧ s.WriteOnly t) ∧
  (∀ (s : State) (c : CtxNum), (s.ctxs.get c.val).st = .checking → (s.ctxs.get c.val).prev ≠ .checking → s.herd.cut = false →
    ∃ t, exec (.contextCheckEnd c) s = .next t ∧
      ((t.ctxs.get c.val).st = .staging ∨ ((t.ctxs.get c.val).st = (s.ctxs.get c.val).prev ∧ t.rd Reg.CTX.RESULT = 1)) ∧
      (∀ k, k ≠ c.val → t.ctxs.get k = s.ctxs.get k) ∧ t.arr = s.arr ∧ t.tree = s.tree ∧ t.pkts = s.pkts) ∧
  (∀ (s : State) (c : CtxNum) (v : Version), (s.ctxs.get c.val).st = .staging → s.herd.cut = false → (s.ctxs.get c.val).other = some v →
    s.hbmUe (s.regionBase 2 + v.addr) v.len = none →
    ∃ t, exec (.contextStagingEnd c) s = .next t ∧ t.ctxs.get c.val = { ((s.ctxs.get c.val).setOther (some (s.readImage v))) with st := .staged } ∧ t.rd Reg.CTX.RESULT = 0 ∧
      (∀ k, k ≠ c.val → t.ctxs.get k = s.ctxs.get k) ∧ t.pkts = s.pkts ∧ t.hbm = s.hbm) ∧
  (∀ (s : State) (c : CtxNum) (v : Version) (line : Nat), (s.ctxs.get c.val).st = .staging → s.herd.cut = false → (s.ctxs.get c.val).other = some v →
    s.hbmUe (s.regionBase 2 + v.addr) v.len = some line →
    ∃ t, exec (.contextStagingEnd c) s = .next t ∧ (t.ctxs.get c.val).other = none ∧ t.rd Reg.CTX.RESULT = 1 ∧ t.rd Reg.CTX.REFUSE = 1 ∧ t.arr = s.arr) ∧
  (∀ (s : State) (src : Source), s.Takes src → (s.ctxs.get s.ctxSel).st = .staged →
    ∃ t, exec (.discard src) s = .next t ∧ (t.ctxs.get s.ctxSel).other = none ∧ (t.ctxs.get s.ctxSel).active = (s.ctxs.get s.ctxSel).active ∧
      t.rd Reg.CTX.RESULT = 0 ∧ t.pkts = s.pkts) ∧
  (∀ (s : State) (src : Source), s.Takes src → (s.ctxs.get s.ctxSel).st = .active →
    ∃ t, exec (.unload src) s = .next t ∧ (t.ctxs.get s.ctxSel).st = .staged ∧ (t.ctxs.get s.ctxSel).emptying = true ∧
      (t.ctxs.get s.ctxSel).active = (s.ctxs.get s.ctxSel).active ∧ t.rd Reg.CTX.RESULT = 0 ∧ ({ s with ctxs := t.ctxs } : State).WriteOnly t) ∧
  (∀ (s : State) (src : Source), s.Takes src → (s.ctxs.get s.ctxSel).st = .empty →
    ∃ t u, exec (.discard src) s = .next t ∧ exec (.unload src) s = .next u ∧ t.rd Reg.CTX.RESULT = 2 ∧ u.rd Reg.CTX.RESULT = 2 ∧ s.WriteOnly t ∧ s.WriteOnly u) ∧
  (∀ (s : State) (src : Source), s.Takes src → s.layout = {} →
    ∃ t, exec (.loadLayout src) s = .next t ∧ ((t.layout.st = .staged ∧ t.rd Reg.CTX.RESULT = 0) ∨ (t.layout.st = .empty ∧ t.rd Reg.CTX.RESULT = 1)) ∧ t.pkts = s.pkts) ∧
  (∀ (s : State) (src : Source), s.Takes src → s.layout.st = .armed →
    ∃ t, exec (.loadLayout src) s = .next t ∧ t.rd Reg.CTX.RESULT = 2 ∧ s.WriteOnly t)

/-- Commits of a context or the layout (R208, R210 to R212, R215, R218, R247). A COMMIT of a staged version starts its checks; they arm it for beat C or refuse
it. A HERD commit of a device that is ALONE is refused. At C the staged slot becomes the active one and the old one retires; its end empties the old slot. Where a clause leaves the state as it is because the event cannot come, that is the model's choice (assumption 1); so are its readings in assumptions 142, 144, 147 and 148. -/
def Obligations.ContextCommitCommands : Prop :=
  (∀ (s : State) (src : Source), s.Takes src → s.herdState < 2 → (s.ctxs.get s.ctxSel).st = .staged → (s.ctxs.get s.ctxSel).cmtPend = false →
    (s.ctxs.get s.ctxSel).cmtHerd = false →
    ∃ t, exec (.commit src false) s = .next t ∧ t.ctxs.get s.ctxSel = { s.ctxs.get s.ctxSel with
      cmtPend := true, cmtHerd := false, cmtBeat := s.rd Reg.CTX.COMMIT_BEAT, cmtWrite := s.time.beat } ∧ ({ s with ctxs := t.ctxs } : State).WriteOnly t) ∧
  (∀ (s : State) (src : Source), s.Takes src → s.herdState < 2 → (s.ctxs.get s.ctxSel).st = .staged → (s.ctxs.get s.ctxSel).cmtPend = false →
    (s.ctxs.get s.ctxSel).cmtHerd = false → herdKind (s.ctxs.get s.ctxSel).kind = true →
    ∃ t, exec (.commit src true) s = .next t ∧ t.rd Reg.HERD.CMT_RESULT = 2 ∧ t.rd Reg.CTX.RESULT = 1 ∧ s.WriteOnly t) ∧
  (∀ (s : State) (src : Source), s.Takes src → 2 ≤ s.herdState → (s.ctxs.get s.ctxSel).st = .staged → herdKind (s.ctxs.get s.ctxSel).kind = true →
    ∃ t, exec (.commit src false) s = .next t ∧ s.Counts t Reg.HERD.LOCAL_REFUSED ∧ t.rd Reg.CTX.RESULT = 2 ∧ s.WriteOnly t) ∧
  (∀ (s : State) (src : Source) (h : Bool), s.Takes src → s.layout.st = .staged → s.layout.cmtPend = false →
    ∃ t, exec (.commitLayout src h) s = .next t ∧ t.layout = { s.layout with
      cmtPend := true, cmtHerd := false, cmtBeat := s.rd Reg.CTX.COMMIT_BEAT, cmtWrite := s.time.beat } ∧ ({ s with layout := t.layout } : State).WriteOnly t) ∧
  (∀ (s : State) (c : Option CtxNum) (x : Ctx), x = s.slotOf2 (c.map (·.val)) → x.cmtPend = true → x.st = .staged →
    s.commitCheck (c.map (·.val)) x x.cmtBeat x.cmtWrite true = 0 →
    ∃ t, exec (.commitCheckEnd c) s = .next t ∧ t.slotOf2 (c.map (·.val)) = { x with cmtPend := false, st := .armed, armC := x.cmtBeat } ∧ t.rd Reg.CTX.RESULT = 0 ∧
      t.pkts = s.pkts) ∧
  (∀ (s : State) (c : Option CtxNum) (x : Ctx), x = s.slotOf2 (c.map (·.val)) → x.cmtPend = true → x.st = .staged →
    s.commitCheck (c.map (·.val)) x x.cmtBeat x.cmtWrite true ≠ 0 →
    ∃ t, exec (.commitCheckEnd c) s = .next t ∧ t.slotOf2 (c.map (·.val)) = { x with cmtPend := false } ∧ t.rd Reg.CTX.RESULT = 1 ∧
      t.rd Reg.CTX.REFUSE = s.commitCheck (c.map (·.val)) x x.cmtBeat x.cmtWrite true) ∧
  (∀ (s : State) (src : Source), s.Takes src → (s.ctxs.get s.ctxSel).st = .armed → (s.ctxs.get s.ctxSel).cmtHerd = false →
    ∃ t, exec (.abort src) s = .next t ∧ (t.ctxs.get s.ctxSel).st = .staged ∧ t.rd Reg.CTX.RESULT = 0 ∧ ({ s with ctxs := t.ctxs } : State).WriteOnly t) ∧
  (∀ (s : State) (c : Option CtxNum) (x : Ctx), x = s.slotOf2 (c.map (·.val)) → x.st = .armed → x.armC ≤ s.time.beat →
    ∃ t, exec (.contextVersionSwitch c) s = .next t ∧ (t.slotOf2 (c.map (·.val))).slot = !x.slot ∧
      (t.slotOf2 (c.map (·.val))).st = (if x.active.isSome then .retiring else .active) ∧ (t.slotOf2 (c.map (·.val))).switchBeat = x.armC ∧
      s.Counts t Reg.CTX.COMMITS ∧ t.pkts = s.pkts) ∧
  (∀ (s : State) (c : CtxNum) (p : VerPart) (v : Version), (s.ctxs.get c.val).active = some v → s.time.beat < (s.ctxs.get c.val).switchBeat →
    exec (.versionPartSwitch c p) s = .next s) ∧
  (∀ (s : State) (c : CtxNum) (v : Version), (s.ctxs.get c.val).active = some v → v.gatherOn = false → (s.ctxs.get c.val).kind = 1 →
    (s.ctxs.get c.val).switchBeat + 5 ≤ s.time.beat →
    ∃ t, exec (.versionPartSwitch c .gather) s = .next t ∧ (t.ctxs.get c.val).active = some { v with gatherOn := true } ∧ t = { s with ctxs := t.ctxs }) ∧
  (∀ (s : State) (c : Option CtxNum) (x : Ctx), x = s.slotOf2 (c.map (·.val)) → x.st = .retiring → x.retired = false → x.switchBeat ≤ s.time.beat →
    s.occupied (c.map (·.val)) x = false →
    ∃ t, exec (.contextRetire c) s = .next t ∧ t.slotOf2 (c.map (·.val)) = { x with retired := true } ∧ t.pkts = s.pkts) ∧
  (∀ (s : State) (c : Option CtxNum) (x : Ctx), x = s.slotOf2 (c.map (·.val)) → x.st = .retiring → x.retired = true → (c = none ∨ s.oldInUse x = false) →
    ∃ t, exec (.contextRetireEnd c) s = .next t ∧ (t.slotOf2 (c.map (·.val))).other = none ∧
      (t.slotOf2 (c.map (·.val))).st = (if x.emptying then .empty else .active) ∧ t.pkts = s.pkts) ∧
  (∀ (s : State) (c : CtxNum), s.oldInUse (s.ctxs.get c.val) = true → exec (.contextRetireEnd (some c)) s = .next s) ∧
  (∀ (s : State) (src : Source), s.TakesExpert src → ∃ t, exec (.forceRetire src) s = .next t ∧ s.Queued t (.forceRetire s.ctxSel) ∧ s.WriteLater t)

/-- Flow drains, shadow statistics and aggregate windows (R22, R23, R212, R216, R323, R324). At the drain limit the old version's invocations end. A tap's set
of another version is skipped; a void one is not taken; another is counted as taken. At a window's end the statistics start again, and every live
aggregate context starts a run. Where a clause leaves the state as it is because the event cannot come, that is the model's choice (assumption 1); so are its readings in assumptions 152, 154 and 272. -/
def Obligations.ShadowAndAggregateCommands : Prop :=
  (∀ (s : State) (c : CtxNum), (s.ctxs.get c.val).st = .retiring → (s.ctxs.get c.val).kind = 2 →
    (s.ctxs.get c.val).switchBeat + s.act Reg.CTX.FLOW_DRAIN ≤ s.time.beat →
    ∃ t, exec (.flowDrainExpire c) s = .next t ∧ t.invsOf c.val (((s.ctxs.get c.val).other.map (·.ver)).getD 0) = [] ∧ t.pkts = s.pkts ∧
      (∀ k, k ≠ c.val → t.ctxs.get k = s.ctxs.get k)) ∧
  (∀ (s : State) (c : CtxNum), s.time.beat < (s.ctxs.get c.val).switchBeat + s.act Reg.CTX.FLOW_DRAIN → exec (.flowDrainExpire c) s = .next s) ∧
  (∀ (s : State) (c : CtxNum) (f : Flock) (n : Fin 32) (vals : List (Nat × Int)) (m : Nat) (b : Bool) (v : Version) (h : ShadowSt), (s.ctxs.get c.val).active = some v →
    (s.ctxs.get c.val).kind = 4 → s.flockIssues f.val = true → v.flocks.contains f.val = true → n.val < (taps (v.shadow)).length →
    s.shadowSees v.shadowCtx f.val (bits ((taps v.shadow).getD n.val 0) 0 2) m ≠ [] →
    v.shadowMv ∉ s.shadowSees v.shadowCtx f.val (bits ((taps v.shadow).getD n.val 0) 0 2) m → h = s.obs.shadow.get (shadowKey c.val f.val) → h.seenAt ≠ s.time.beat + 1 →
    ∃ t, exec (.shadowStatistics c f n vals m b) s = .next t ∧
      t.obs.shadow.get (shadowKey c.val f.val) = { h with skipped := h.skipped + 1, seenAt := s.time.beat + 1 } ∧ t = { s with regs := t.regs, obs := t.obs }) ∧
  (∀ (s : State) (c : CtxNum) (f : Flock) (n : Fin 32) (vals : List (Nat × Int)) (m : Nat) (v : Version) (h : ShadowSt), (s.ctxs.get c.val).active = some v →
    (s.ctxs.get c.val).kind = 4 → s.flockIssues f.val = true → v.flocks.contains f.val = true → n.val < (taps (v.shadow)).length →
    v.shadowMv ∈ s.shadowSees v.shadowCtx f.val (bits ((taps v.shadow).getD n.val 0) 0 2) m → h = s.obs.shadow.get (shadowKey c.val f.val) → h.seenAt ≠ s.time.beat + 1 →
    ∃ t u, exec (.shadowStatistics c f n vals m true) s = .next t ∧ exec (.shadowStatistics c f n vals m false) s = .next u ∧
      (t.obs.shadow.get (shadowKey c.val f.val)).void = h.void + 1 ∧ (t.obs.shadow.get (shadowKey c.val f.val)).taken = h.taken ∧
      (u.obs.shadow.get (shadowKey c.val f.val)).taken = h.taken + 1 ∧ t = { s with obs := t.obs } ∧ u = { s with obs := u.obs }) ∧
  (∀ (s : State) (c : CtxNum) (f : Flock) (v : Version), (s.ctxs.get c.val).active = some v → (s.ctxs.get c.val).kind = 4 → v.flocks.contains f.val = true →
    s.time.beat ≠ 0 → s.time.beat % 2 ^ bits (leAt (v.shadow) 0 8) 0 5 = 0 → (s.obs.shadow.get (shadowKey c.val f.val)).endAt ≠ s.time.beat + 1 →
    ∃ t, exec (.shadowWindowEnd c f) s = .next t ∧ t.obs.shadow.get (shadowKey c.val f.val) = { endAt := s.time.beat + 1 } ∧ t.pkts = s.pkts ∧ t.ctxs = s.ctxs) ∧
  (∀ s : State, s.time.beat % 16384 ≠ 0 → exec .aggregateWindow s = .next s) ∧
  (∀ s : State, s.globals.window = s.time.beat + 1 → exec .aggregateWindow s = .next s) ∧
  (∀ s : State, s.time.beat % 16384 = 0 → s.globals.window ≠ s.time.beat + 1 → s.devSafe = false → s.herd.stopped = false →
    ∃ t, exec .aggregateWindow s = .next t ∧ t.pkts = s.pkts ∧ t.regs = s.regs ∧ t.globals.old = s.globals.now ∧ t.globals.window = s.time.beat + 1 ∧
      (∀ c v, c ∈ s.ctxs.keys → (s.ctxs.get c).active = some v → (s.ctxs.get c).kind = 3 → v.ver ≠ 0 → (s.ctxs.get c).down = 0 →
        (t.ctxs.get c).running = true ∧ (t.ctxs.get c).runMv = v.ver))

/-- Time (R226 to R229, R252, R256). Before START SET_GO takes the instant to apply; after it, it changes nothing. FREQ_ADJ takes 100,000 ppb either
way and only from a device that leads its own time; PHASE_ADJ replaces what is left to slew. A read of BEAT latches CYCLE. PPS_IN records the next
schedule cycle. PPS_OUT rises in the cycle of a whole TAI second and falls 100 ms (120,000,000 cycles) later. A read of an INFO field takes the oldest timestamp of its FIFO, and shows its time. Where a clause leaves the state as it is because the event cannot come, that is the model's choice (assumption 1); so are its readings in assumptions 29, 31, 288 and 289. -/
def Obligations.TimeCommands : Prop :=
  (∀ (s : State) (src : Source), s.Takes src → s.time.started = false →
    ∃ t, exec (.setGo src) s = .next t ∧ t.time = { s.time with setDone := true, setSec := s.rd Reg.TIME.SET_SEC, setNs := s.rd Reg.TIME.SET_NS } ∧
      ({ s with time := t.time } : State).WriteOnly t) ∧
  (∀ (s : State) (src : Source), s.Takes src → s.time.started = true → ∃ t, exec (.setGo src) s = .next t ∧ s.WriteOnly t) ∧
  (∀ (s : State) (src : Source) (ppb : Int), s.Takes src → s.obeysTime = true → -100000 ≤ ppb → ppb ≤ 100000 →
    ∃ t, exec (.freqAdj src ppb) s = .next t ∧ t.rd Reg.TIME.FREQ_ADJ = ofSigned 32 ppb ∧ s.WriteOnly t) ∧
  (∀ (s : State) (src : Source) (ppb : Int), s.Takes src → (ppb < -100000 ∨ 100000 < ppb) →
    ∃ t, exec (.freqAdj src ppb) s = .next t ∧ t.rd Reg.TIME.FREQ_ADJ = s.rd Reg.TIME.FREQ_ADJ ∧ s.WriteOnly t) ∧
  (∀ (s : State) (src : Source) (ppb : Int), s.Takes src → s.obeysTime = false → -100000 ≤ ppb → ppb ≤ 100000 →
    ∃ t, exec (.freqAdj src ppb) s = .next t ∧ t.rd Reg.TIME.FREQ_ADJ = s.rd Reg.TIME.FREQ_ADJ ∧ s.Counts t Reg.TIME.ADJ_IGNORED ∧ s.WriteOnly t) ∧
  (∀ (s : State) (src : Source) (ns : Int), s.Takes src → s.obeysTime = true → -(2 ^ 31) ≤ ns → ns < 2 ^ 31 →
    ∃ t, exec (.phaseAdj src ns) s = .next t ∧ t.time = { s.time with phaseLeft := ns * 3000000000 } ∧ ({ s with time := t.time } : State).WriteOnly t) ∧
  (∀ (s : State) (src : Source) (ns : Int), s.Takes src → s.obeysTime = false →
    ∃ t, exec (.phaseAdj src ns) s = .next t ∧ t.time = s.time ∧ s.Counts t Reg.TIME.ADJ_IGNORED ∧ s.WriteOnly t) ∧
  (∀ s : State, s.time.phaseLeft.natAbs ≤ 50000 * 1280 → exec .phaseSlewEnd s = .next { s with time := { s.time with phaseLeft := 0 } }) ∧
  (∀ s : State, 50000 * 1280 < s.time.phaseLeft.natAbs → exec .phaseSlewEnd s = .next s) ∧
  (∀ (s : State) (src : Source), s.pagesOpen = true →
    ∃ t, exec (.timeBeatRead src) s = .next t ∧ t.host = { s.host with regData := s.time.beat } ∧ t.rd Reg.TIME.CYCLE = s.time.cycle % 512 ∧
      t = { s with regs := t.regs, host := t.host }) ∧
  (∀ s : State, ∃ t, exec .ppsIn s = .next t ∧ t.rd Reg.TIME.PPS_IN_T = (s.now + 1) % 2 ^ 64 ∧ s.Counts t Reg.TIME.PPS_IN_CNT ∧
    s.OnlyFields t [Reg.TIME.PPS_IN_T.key 0 0 0, Reg.TIME.PPS_IN_CNT.key 0 0 0]) ∧
  (∀ s : State, s.act Reg.TIME.PPS_OUT_EN = 1 → s.ppsDue = true → exec .ppsOutRise s = .next { s with time := { s.time with ppsOut := true, ppsAt := s.now } }) ∧
  (∀ s : State, s.act Reg.TIME.PPS_OUT_OFS = 0 → (s.ppsDue = true ↔ s.now % 1200000000 = 0)) ∧
  (∀ s : State, s.ppsDue = false → exec .ppsOutRise s = .next s) ∧
  (∀ s : State, s.act Reg.TIME.PPS_OUT_EN = 0 → exec .ppsOutRise s = .next s) ∧
  (∀ s : State, s.time.ppsOut = true → s.time.ppsAt + 120000000 ≤ s.now → exec .ppsOutFall s = .next { s with time := { s.time with ppsOut := false } }) ∧
  (∀ s : State, (s.time.ppsOut = false ∨ s.now < s.time.ppsAt + 120000000) → exec .ppsOutFall s = .next s) ∧
  (∀ (s : State) (src : Source) (g : Group) (e : TsEnt) (l : List TsEnt), s.pagesOpen = true → s.rxTs.get g.val = e :: l → e.a < 16 → e.dom < 256 →
    e.seqId < 65536 →
    ∃ t, exec (.tsFifoPop src g .rx) s = .next t ∧ t.rxTs.get g.val = l ∧ (∀ k, k ≠ g.val → t.rxTs.get k = s.rxTs.get k) ∧
      t.host = { s.host with regData := 2 ^ 31 + e.sub * 2 ^ 28 + e.seqId * 2 ^ 12 + e.dom * 16 + e.a } ∧
      t.rd Reg.PORT.RX_TS_NS g.val = e.ts / 65536 % 2 ^ 64 ∧ t.rd Reg.PORT.RX_TS_FRAC g.val = e.ts % 65536 ∧
      t = { s with regs := t.regs, rxTs := t.rxTs, host := t.host }) ∧
  (∀ (s : State) (src : Source) (g : Group) (e : TsEnt) (l : List TsEnt), s.pagesOpen = true → s.txTs.get g.val = e :: l → e.a < 65536 →
    ∃ t, exec (.tsFifoPop src g .tx) s = .next t ∧ t.txTs.get g.val = l ∧ (∀ k, k ≠ g.val → t.txTs.get k = s.txTs.get k) ∧
      t.host = { s.host with regData := 2 ^ 31 + b2n e.oneStep * 2 ^ 17 + e.sub * 2 ^ 16 + e.a } ∧
      t.rd Reg.PORT.TX_TS_NS g.val = e.ts / 65536 % 2 ^ 64 ∧ t.rd Reg.PORT.TX_TS_FRAC g.val = e.ts % 65536 ∧
      t = { s with regs := t.regs, txTs := t.txTs, host := t.host }) ∧
  (∀ (s : State) (src : Source) (g : Group) (dir : TsDir), s.pagesOpen = true → s.rxTs.get g.val = [] → s.txTs.get g.val = [] →
    exec (.tsFifoPop src g dir) s = .next { s with host := { s.host with regData := 0 } })

/-- Herd ports (R230, R231, R233, R235, R237, R246, R250, R254). An enabled port of a used dimension trains; a trained one sends HELLO; a port that does not train within
2^20 beats fails; a port that loses lock trains again. A good flit is counted and read; a bad one is discarded, counted as lost, and voids reductions
when it carried VC 1; from the cut of a stop a flit of VC 1 to 3 goes to the capture buffer of 512. HELLO accepts a port whose neighbour agrees in
domain and wiring. A marker on an accepted port is heard. Where a clause leaves the state as it is because the event cannot come, that is the model's choice (assumption 1); so are its readings in assumptions 156, 162, 274, 276, 277 and 278. -/
def Obligations.HerdLinkCommands : Prop :=
  (∀ (s : State) (src : Source) (h : HPort), s.Takes src → s.portUsed h.val = true → s.flt.wd.get (7 * 65536 + h.val) = false → s.sec.domain.isSome = true →
    ∃ t, exec (.hlinkEnable src h true) s = .next t ∧ t.linkState h.val = 1 ∧ t.hl.get h.val = { trainAt := s.time.beat } ∧
      (∀ k, k ≠ h.val → t.hl.get k = s.hl.get k) ∧ t.rd Reg.HLINK.ENABLE h.val = 1 ∧ t.herd = s.herd ∧ t.pkts = s.pkts) ∧
  (∀ (s : State) (src : Source) (h : HPort), s.Takes src →
    ∃ t, exec (.hlinkEnable src h false) s = .next t ∧ t.linkState h.val = 0 ∧ t.rd Reg.HLINK.ENABLE h.val = 0 ∧ t.herd = s.herd ∧ t.pkts = s.pkts) ∧
  (∀ (s : State) (h : HPort) (d : BitVec 16), s.linkState h.val = 1 →
    ∃ t, exec (.hlinkTrained h d) s = .next t ∧ t.linkState h.val = 3 ∧ t.rd Reg.HLINK.LINK_DELAY h.val = d.toNat ∧ s.ReportsOnly t) ∧
  (∀ (s : State) (h : HPort), s.linkState h.val = 1 → (s.hl.get h.val).trainAt + 2 ^ 20 ≤ s.time.beat →
    ∃ t, exec (.trainFail h) s = .next t ∧ t.linkState h.val = 2 ∧ s.ReportsOnly t) ∧
  (∀ (s : State) (h : HPort), s.time.beat < (s.hl.get h.val).trainAt + 2 ^ 20 → exec (.trainFail h) s = .next s) ∧
  (∀ (s : State) (h : HPort), 3 ≤ s.linkState h.val → s.linkState h.val ≤ 6 → s.portUsed h.val = true → s.rd Reg.HLINK.ENABLE h.val = 1 →
    (s.hl.get h.val).missOut = false → s.flt.wd.get (7 * 65536 + h.val) = false → s.sec.domain.isSome = true →
    ∃ t, exec (.hlinkLockLoss h) s = .next t ∧ t.linkState h.val = 1 ∧ t.hl.get h.val = { trainAt := s.time.beat } ∧
      ({ s with hl := t.hl } : State).ReportsOnly t) ∧
  (∀ (s : State) (h : HPort), 3 ≤ s.linkState h.val → s.linkState h.val ≤ 6 → (s.hl.get h.val).missOut = true →
    ∃ t, exec (.hlinkLockLoss h) s = .next t ∧ t.linkState h.val = 0 ∧ (t.hl.get h.val).missOut = true ∧ ({ s with hl := t.hl } : State).ReportsOnly t) ∧
  (∀ (s : State) (h : HPort) (f : FlitF), 3 ≤ s.linkState h.val → s.linkState h.val ≤ 6 → f.codewordOk = true → f.crcOk = true → s.herd.cut = false →
    ∃ t, exec (.flitReceive h f) s = .next t ∧ (t.hl.get h.val).seq = some ((f.seq + 1) % 2 ^ 32) ∧
      (t.hl.get h.val).rxSlots = addSlots (s.hl.get h.val).rxSlots f.vcs ∧ (t.hl.get h.val).cap = (s.hl.get h.val).cap ∧
      (∀ e, (s.hl.get h.val).seq = some e → (t.hl.get h.val).missing = (s.hl.get h.val).missing + (f.seq + 2 ^ 32 - e) % 2 ^ 32) ∧
      (∀ k, k ≠ h.val → t.hl.get k = s.hl.get k) ∧ s.Counts t Reg.HLINK.FLITS_RX h.val ∧
      t = { s with regs := t.regs, hl := t.hl }) ∧
  (∀ (s : State) (h : HPort) (f : FlitF), 3 ≤ s.linkState h.val → s.linkState h.val ≤ 6 → (f.codewordOk = false ∨ f.crcOk = false) →
    ∃ t, exec (.flitReceive h f) s = .next t ∧ s.Counts t Reg.HLINK.FLIT_LOST h.val ∧ s.Counts t Reg.HLINK.FLITS_RX h.val ∧
      t.hl.get h.val = { s.hl.get h.val with rxSlots := addSlots (s.hl.get h.val).rxSlots f.vcs } ∧
      (f.vcs.any (fun v => v.val == 1) = false → t.herd = s.herd) ∧
      (f.vcs.any (fun v => v.val == 1) = true → ∀ r x, s.herd.red.find? r = some x → x.have_ = false → t.herd.red.find? r = some { x with void := true }) ∧
      ({ s with herd := t.herd, hl := t.hl } : State).ReportsOnly t) ∧
  (∀ (s : State) (h : HPort) (f : FlitF), 3 ≤ s.linkState h.val → s.linkState h.val ≤ 6 → f.codewordOk = true → f.crcOk = true → s.herd.cut = true →
    f.vcs.any (fun v => v.val != 0) = true → f.bytes.length = 256 →
    ∃ t, exec (.flitReceive h f) s = .next t ∧ t = { s with regs := t.regs, hl := t.hl } ∧
      ((s.hl.get h.val).cap.length < 512 → (t.hl.get h.val).cap = (s.hl.get h.val).cap ++ [f.bytes]) ∧
      (512 ≤ (s.hl.get h.val).cap.length → (t.hl.get h.val).cap = (s.hl.get h.val).cap ∧ s.Counts t Reg.HLINK.CAP_LOST h.val)) ∧
  (∀ (s : State) (h : HPort) (m : MsgHdr) (f : HelloF), 3 ≤ s.linkState h.val → s.linkState h.val ≤ 6 →
    ∃ t, exec (.hello h m f) s = .next t ∧ (t.hl.get h.val).peer = some f ∧ (∀ k, k ≠ h.val → t.hl.get k = s.hl.get k) ∧
      (s.helloSame f = false → t.linkState h.val = 6) ∧ (s.helloSame f = true → s.wiringOk h.val f = false → t.linkState h.val = 5) ∧
      (s.helloSame f = true → s.wiringOk h.val f = true → t.linkState h.val = 4 ∧ (s.herdState = 0 → s.herd.joinWant = true → t.herdState = 1)) ∧
      t.pkts = s.pkts ∧ t.time = s.time) ∧
  (∀ (s : State) (h : HPort) (m : MsgHdr) (f : MarkerF), s.hlUp h.val = true →
    ∃ t, exec (.marker h m f) s = .next t ∧ t.herd.heard = (if f.dist < noHops then s.time.beat else s.herd.heard) ∧
      t.hl.get h.val = { s.hl.get h.val with peerDist := some f.dist, peerPhase := f.phaseErr, lastMarker := some s.time.beat, peerBeat := f.beat,
                                             peerMembers := f.members, credit := f.credits, redVoid := f.redVoid } ∧
      (∀ k, k ≠ h.val → t.hl.get k = s.hl.get k) ∧ t.time = s.time ∧ t.pkts = s.pkts) ∧
  (∀ (s : State) (h : HPort) (m : MsgHdr) (f : MarkerF), s.hlUp h.val = false → exec (.marker h m f) s = .next s)

/-- What an accepted port carries to this device (R232, R241 to R244): a remote request waits for the next beat and is then applied in the order of
arrival; an answer gives up the place of its request, and read data lands in core memory; a message for another member goes on by its route; nothing
arrives on a port that is not accepted, and from the cut of a stop nothing on VC 1 to 3. Where a clause leaves the state as it is because the event cannot come, that is the model's choice (assumption 1); so are its readings in assumptions 156, 171 and 275. -/
def Obligations.RemoteAccessCommands : Prop :=
  (∀ (s : State) (h : HPort) (m : MsgHdr) (w : Fin 16) (a n : Nat) (r : RemoteReq), s.hlUp h.val = true → s.herd.cut = false → m.dest.val = s.ownId → n ≤ 256 →
    r = { kind := 17, port := h.val, src := m.src.val, win := w.val, addr := a, len := n, data := [], tag := 0, vals := [], beat := s.time.beat, at_ := s.now, tok := m.tok } →
    exec (.rd h m w a n) s = .next { s with herd := { s.herd with reqs := insertReq r s.herd.reqs } }) ∧
  (∀ (s : State) (h : HPort) (m : MsgHdr) (w : Fin 16) (a : Nat) (d : List Byte) (r : RemoteReq), s.hlUp h.val = true → s.herd.cut = false → m.dest.val = s.ownId →
    r = { kind := 18, port := h.val, src := m.src.val, win := w.val, addr := a, len := d.length, data := d, tag := 0, vals := [], beat := s.time.beat,
          at_ := s.now, tok := m.tok } →
    exec (.wr h m w a d) s = .next { s with herd := { s.herd with reqs := insertReq r s.herd.reqs } }) ∧
  (∀ (s : State) (h : HPort) (m : MsgHdr) (i : Nat) (tag : DWord), s.hlUp h.val = true → s.herd.cut = false → m.dest.val = s.ownId →
    ∃ r, exec (.hget h m i tag) s = .next { s with herd := { s.herd with reqs := insertReq r s.herd.reqs } } ∧ r.kind = 19 ∧ r.tag = tag ∧ r.beat = s.time.beat ∧
      r.at_ = s.now ∧ r.tok = m.tok ∧ r.port = h.val ∧ r.src = m.src.val ∧ r.addr = i % 2 ^ s.act Reg.HERD.HOME_LOG2) ∧
  (∀ (s : State) (h : HPort) (m : MsgHdr) (i : Nat) (tag : DWord) (v : List Word), s.hlUp h.val = true → s.herd.cut = false → m.dest.val = s.ownId →
    ∃ r, exec (.hadd h m i tag v) s = .next { s with herd := { s.herd with reqs := insertReq r s.herd.reqs } } ∧ r.kind = 20 ∧ r.tag = tag ∧ r.vals = v ∧
      r.beat = s.time.beat ∧ r.at_ = s.now ∧ r.port = h.val ∧ r.src = m.src.val ∧ r.addr = i % 2 ^ s.act Reg.HERD.HOME_LOG2) ∧
  (∀ (r : RemoteReq) (l : List RemoteReq), (∀ q ∈ l, q.at_ ≠ r.at_ ∨ q.port ≤ r.port) → insertReq r l = l ++ [r]) ∧
  (∀ (r q : RemoteReq) (l : List RemoteReq), (∀ x ∈ l, x.at_ ≠ r.at_ ∨ x.port ≤ r.port) → q.at_ = r.at_ → r.port < q.port → insertReq r (l ++ [q]) = l ++ [r, q]) ∧
  (∀ (s : State) (h : HPort) (m : MsgHdr) (w : Fin 16) (a n : Nat), (s.hlUp h.val = false ∨ s.herd.cut = true) → exec (.rd h m w a n) s = .next s) ∧
  (∀ (s : State) (h : HPort) (m : MsgHdr) (w : Fin 16) (a : Nat) (d : List Byte) (n p : Nat), s.hlUp h.val = true → s.herd.cut = false → m.dest.val ≠ s.ownId →
    s.transitNext m.src.val m.dest.val = some n → s.upPort (s.portFor s.ownId n (m.src.val + m.dest.val)) = some p →
    ∃ o, exec (.wr h m w a d) s = .next { s with herd := { s.herd with out := s.herd.out ++ [o] } } ∧ o.port = some p ∧ o.kind = 18 ∧ o.src = m.src.val ∧
      o.dest = m.dest.val) ∧
  (∀ s : State, ∃ t, exec .remoteRequestApply s = .next t ∧ t.herd.reqs = s.herd.reqs.filter (fun r => decide (s.time.beat ≤ r.beat)) ∧ t.pkts = s.pkts ∧
    t.time = s.time ∧ t.eg = s.eg) ∧
  (∀ (s : State) (r : RemoteReq), s.herd.reqs = [r] → r.kind = 18 → r.len = r.data.length → r.beat < s.time.beat → s.winOk r = true → s.cycLate = [] →
    ∃ t, exec .remoteRequestApply s = .next t ∧ Mem.readN t.hbm (s.winAddr r) r.len = r.data ∧
      (∀ a, (a < s.winAddr r ∨ s.winAddr r + r.len ≤ a) → Mem.read t.hbm a = Mem.read s.hbm a) ∧ t.rd Reg.HERD.WIN_REFUSED = s.rd Reg.HERD.WIN_REFUSED) ∧
  (∀ (s : State) (r : RemoteReq) (p : Nat), s.herd.reqs = [r] → r.kind = 17 → r.beat < s.time.beat → s.winOk r = true → s.hbmUe (s.winAddr r) r.len = none →
    s.outPort r.src = some p → s.herd.stopped = false →
    ∃ t o, exec .remoteRequestApply s = .next t ∧ t.hbm = s.hbm ∧ t.herd.out = s.herd.out ++ [o] ∧ o.port = some p ∧ o.kind = 24 ∧ o.dest = r.src ∧
      o.args = (r.tok : Int) :: (Mem.readN s.hbm (s.winAddr r) r.len).map (fun b => (b.toNat : Int))) ∧
  (∀ (s : State) (r : RemoteReq), s.herd.reqs = [r] → (r.kind = 17 ∨ r.kind = 18) → r.beat < s.time.beat → s.winOk r = false →
    ∃ t, exec .remoteRequestApply s = .next t ∧ t.hbm = s.hbm ∧ s.Counts t Reg.HERD.WIN_REFUSED) ∧
  (∀ (s : State) (h : HPort) (m : MsgHdr) (tok : Nat) (d : List Byte) (p : RemPend), s.hlUp h.val = true → s.herd.cut = false → m.dest.val = s.ownId →
    s.herd.remote.find? (fun q => decide (q.tok = tok)) = some p → p.write = false → d.length = p.len →
    ∃ t, exec (.rdr h m tok d) s = .next t ∧ t.herd.remote = s.herd.remote.filter (fun q => decide (q.tok ≠ tok)) ∧
      Mem.readN t.arr.mem (ACoreId.base p.core + p.addr) p.len = d ∧ t = { s with herd := t.herd, arr := t.arr }) ∧
  (∀ (s : State) (h : HPort) (m : MsgHdr) (tok : Nat) (p : RemPend), s.hlUp h.val = true → s.herd.cut = false → m.dest.val = s.ownId →
    s.herd.remote.find? (fun q => decide (q.tok = tok)) = some p → p.write = true →
    ∃ t, exec (.wra h m tok true) s = .next t ∧ t.herd.remote = s.herd.remote.filter (fun q => decide (q.tok ≠ tok)) ∧ t.arr.mem = s.arr.mem ∧
      t = { s with herd := t.herd, arr := t.arr }) ∧
  (∀ (s : State) (h : HPort) (m : MsgHdr) (tok : Nat) (ok : Bool) (d : List Byte), s.hlUp h.val = true → s.herd.cut = false → m.dest.val = s.ownId →
    s.herd.remote.find? (fun q => decide (q.tok = tok)) = none → exec (.wra h m tok ok) s = .next s ∧ exec (.rdr h m tok d) s = .next s) ∧
  (∀ (s : State) (h : HPort) (m : MsgHdr) (tok : Nat) (v : List Word) (new : Bool), s.hlUp h.val = true → s.herd.cut = false → m.dest.val = s.ownId → v.length = 8 →
    (∀ e ∈ s.herd.homePend, e.1 ≠ tok) →
    ∃ t, exec (.hrep h m tok v new) s = .next t ∧ t.herd = { s.herd with hrep := if new then List.replicate 8 0 else v, hrepNew := new } ∧ t = { s with herd := t.herd }) ∧
  (∀ (s : State) (h : HPort) (m : MsgHdr) (tok id : Nat) (v : List Word) (new : Bool) (i : Inv), s.hlUp h.val = true → s.herd.cut = false → m.dest.val = s.ownId →
    v.length = 8 → s.herd.homePend.find? (fun e => e.1 == tok) = some (tok, id) → i ∈ s.flow.invs → i.id = id →
    ∃ t j, exec (.hrep h m tok v new) s = .next t ∧ j ∈ t.flow.invs ∧ j.id = id ∧ j.homeVals = (if new then List.replicate 8 0 else v) ∧ j.homeNew = new ∧
      j.homeLost = false ∧ (∀ e ∈ t.herd.homePend, e.1 ≠ tok) ∧ t = { s with herd := t.herd, flow := t.flow })
/-- Joining and leaving (R236, R237, R239, R240, R247, R253). A joining device asks the bellwether once it has been in lock for 1,024 beats; the bellwether answers
with its version table, or BUSY while an ordered commit has not switched; the device answers READY when the tables agree, and gives up with the first
context that differs; the bellwether admits it at the first epoch boundary at least 2,048 beats later; at that beat it is a member. A member leaves at the
next epoch boundary, a device that folds at once. Where a clause leaves the state as it is because the event cannot come, that is the model's choice (assumption 1); so are its readings in assumptions 156, 159, 163, 280 and 281. -/
def Obligations.MembershipCommands : Prop :=
  (∀ (s : State) (src : Source), s.Takes src → s.sec.herdEn = true → s.herdState < 2 → s.sec.domain = none →
    ∃ t, exec (.herdJoin src true) s = .next t ∧ t.rd Reg.HERD.JOIN_RESULT = 6 ∧ t.herdState = s.herdState ∧ t.pkts = s.pkts) ∧
  (∀ (s : State) (src : Source), s.Takes src → s.sec.herdEn = true → s.herdState < 2 → s.sec.domain.isSome = true →
    ∃ t, exec (.herdJoin src true) s = .next t ∧ t.rd Reg.HERD.JOIN_RESULT = 0 ∧ t.herd.joinWant = true ∧ t.rd Reg.HERD.JOIN = 1 ∧ t.pkts = s.pkts) ∧
  (∀ (s : State) (src : Source), s.Takes src → s.herdState = 1 →
    ∃ t, exec (.herdJoin src false) s = .next t ∧ t.herdState = 0 ∧ t.herd.joinWant = false ∧ t.rd Reg.HERD.JOIN = 0 ∧ t.pkts = s.pkts) ∧
  (∀ (s : State) (p : Nat), s.herdState = 1 → s.herd.joinWant = true → 1024 ≤ s.herd.lockBeats → s.electing = false → p < 12 → s.hlUp p = true →
    ∃ t, exec .joinLocked s = .next t ∧ { port := some p, kind := 3, src := s.ownId, dest := s.bwId, args := [(s.activeRule : Int)] } ∈ t.herd.out ∧
      t.herd.lockBeats = 0 ∧ t = { s with herd := t.herd }) ∧
  (∀ s : State, s.herd.lockBeats < 1024 → exec .joinLocked s = .next s) ∧
  (∀ (s : State) (h : HPort) (m : MsgHdr) (r : BitVec 16) (p : Nat), s.hlUp h.val = true → m.dest.val = s.ownId → s.isBw = true →
    (s.outPort m.src.val = some p ∨ (s.outPort m.src.val = none ∧ p < 12 ∧ s.hlUp p = true)) →
    ∃ t, exec (.join h m r) s = .next t ∧ t = { s with herd := { s.herd with out := t.herd.out } } ∧
      (s.herd.orders.any (fun o => decide (s.time.beat < o.c)) = true → { port := some p, kind := 6, src := s.ownId, dest := m.src.val, args := [-4] } ∈ t.herd.out) ∧
      (s.herd.orders.any (fun o => decide (s.time.beat < o.c)) = false → ∀ k : Nat, k < 32 →
        { port := some p, kind := 4, src := s.ownId, dest := m.src.val, args := [(k : Int), (s.activeRule : Int)] ++ (s.vBlock k).map (fun v => (v : Int)) } ∈ t.herd.out)) ∧
  (∀ (s : State) (h : HPort) (m : MsgHdr) (b : Fin 32) (v : List (BitVec 16)) (r : BitVec 16), s.hlUp h.val = true → m.dest.val = s.ownId → s.herdState = 1 →
    s.herd.joinWant = true → (s.herd.vtab.put b.val v).length < 32 →
    ∃ t, exec (.vtable h m b v r) s = .next t ∧ t.herd = { s.herd with vtab := s.herd.vtab.put b.val v, vtabRule := r.toNat } ∧ t.rd Reg.HERD.BW_ID = m.src.val ∧
      t = { s with regs := t.regs, herd := t.herd }) ∧
  (∀ (s : State) (h : HPort) (m : MsgHdr) (b : Fin 32) (v : List (BitVec 16)) (r : BitVec 16) (c : Nat), s.hlUp h.val = true → m.dest.val = s.ownId →
    s.herdState = 1 → s.herd.joinWant = true → 32 ≤ (s.herd.vtab.put b.val v).length →
    ({ s with herd := { s.herd with vtab := s.herd.vtab.put b.val v } } : State).vDiff = some c →
    ∃ t, exec (.vtable h m b v r) s = .next t ∧ t.rd Reg.HERD.JOIN_RESULT = 3 ∧ t.rd Reg.HERD.JOIN_DIFF = c % 4096 ∧ t.rd Reg.HERD.JOIN = 0 ∧
      t.herd.joinWant = false ∧ t.pkts = s.pkts) ∧
  (∀ (s : State) (h : HPort) (m : MsgHdr) (b : Fin 32) (v : List (BitVec 16)) (r : BitVec 16) (p : Nat), s.hlUp h.val = true → m.dest.val = s.ownId →
    s.herdState = 1 → s.herd.joinWant = true → 32 ≤ (s.herd.vtab.put b.val v).length →
    ({ s with herd := { s.herd with vtab := s.herd.vtab.put b.val v } } : State).vDiff = none → r.toNat = s.activeRule → p < 12 → s.hlUp p = true →
    ∃ t, exec (.vtable h m b v r) s = .next t ∧
      { port := some p, kind := 5, src := s.ownId, dest := m.src.val, args := bytesInts s.vDigest } ∈ t.herd.out ∧ t.herd.vtab = [] ∧
      t = { s with regs := t.regs, herd := t.herd }) ∧
  (∀ (s : State) (h : HPort) (m : MsgHdr) (d : List Byte) (p : Nat), s.hlUp h.val = true → m.dest.val = s.ownId → s.isBw = true →
    (s.outPort m.src.val = some p ∨ (s.outPort m.src.val = none ∧ p < 12 ∧ s.hlUp p = true)) →
    ∃ t, exec (.ready h m d) s = .next t ∧ t = { s with herd := { s.herd with joins := t.herd.joins, out := t.herd.out } } ∧
      (d ≠ s.vDigest → t.herd.joins = s.herd.joins ∧ { port := some p, kind := 6, src := s.ownId, dest := m.src.val, args := [-3] } ∈ t.herd.out) ∧
      (d = s.vDigest → (∀ j ∈ s.herd.joins, j.1 ≠ m.src.val) → t.herd.joins = s.herd.joins ++ [(m.src.val, epochFrom (s.time.beat + 2048))] ∧
        { port := some p, kind := 6, src := s.ownId, dest := m.src.val, args := [(epochFrom (s.time.beat + 2048) : Int)] } ∈ t.herd.out)) ∧
  (∀ (s : State) (h : HPort) (m : MsgHdr) (e : Nat), s.hlUp h.val = true → m.dest.val = s.ownId → s.herdState = 1 → s.herd.joinWant = true →
    ∃ t, exec (.herdAdmit h m (.inl e)) s = .next t ∧ t.herd = { s.herd with joinE := some e } ∧ t.rd Reg.HERD.ADMIT_BEAT = e % 2 ^ 64 ∧
      t = { s with regs := t.regs, herd := t.herd }) ∧
  (∀ (s : State) (h : HPort) (m : MsgHdr) (r : Fin 16), s.hlUp h.val = true → m.dest.val = s.ownId → s.herdState = 1 → s.herd.joinWant = true →
    ∃ t, exec (.herdAdmit h m (.inr r)) s = .next t ∧ t.rd Reg.HERD.JOIN_RESULT = r.val ∧ (r.val = 4 → t.herd = s.herd) ∧
      (r.val ≠ 4 → t.herd.joinWant = false ∧ t.rd Reg.HERD.JOIN = 0) ∧ t.pkts = s.pkts) ∧
  (∀ (s : State) (e : Nat), s.herd.joinE = some e → s.herdState = 1 → e ≤ s.time.beat →
    ∃ t, exec .admission s = .next t ∧ t.herdState = 2 ∧ s.ownId ∈ t.herd.members ∧ s.bwId ∈ t.herd.members ∧ t.herd.joinE = none ∧ t.rd Reg.HERD.JOIN_RESULT = 1 ∧
      ({ s with herd := t.herd } : State).ReportsOnly t) ∧
  (∀ (s : State) (e : Nat), s.herd.joinE = some e → s.time.beat < e → exec .admission s = .next s) ∧
  (∀ (s : State) (src : Source), s.Takes src → s.herdState = 2 → s.herd.leaveAt = none →
    ∃ t, exec (.herdLeave src) s = .next t ∧ t.herdState = 3 ∧ t.herd.leaveAt = some s.nextEpoch ∧ ({ s with herd := t.herd } : State).WriteOnly t) ∧
  (∀ (s : State) (src : Source), s.Takes src → s.herdState = 1 →
    ∃ t, exec (.herdLeave src) s = .next t ∧ t.herdState = 0 ∧ t.herd.joinWant = false ∧ t.pkts = s.pkts) ∧
  (∀ (s : State) (b : Nat), s.herd.leaveAt = some b → b ≤ s.time.beat → 2 ≤ s.herdState →
    ∃ t, exec .departure s = .next t ∧ t.herdState = 0 ∧ t.herd.members = [] ∧ t.herd.leaveAt = none ∧ t.rd Reg.HERD.JOIN = 0 ∧ t.time = s.time ∧ t.pkts = s.pkts) ∧
  (∀ (s : State) (b : Nat), s.herd.leaveAt = some b → s.time.beat < b → exec .departure s = .next s) ∧
  (∀ s : State, s.herdState = 2 → 16 ≤ s.herd.lostBeats → s.herd.leaveAt = none →
    ∃ t, exec .lockLost s = .next t ∧ t.herdState = 3 ∧ t.herd.leaveAt = some s.nextEpoch ∧ ({ s with herd := t.herd } : State).ReportsOnly t) ∧
  (∀ s : State, s.herd.lostBeats < 16 → exec .lockLost s = .next s) ∧
  (∀ (s : State) (h : HPort) (m : MsgHdr) (x : Fin 32768) (w : Nat), s.hlUp h.val = true → m.dest.val = s.ownId → x.val ≠ s.bwId → 2 ≤ s.herdState → s.isBw = false →
    s.herd.departs = [] → s.herd.excl = [] →
    exec (.depart h m x w) s = .next { s with herd := { s.herd with departs := [(x.val, if w ≤ s.nextEpoch + 16384 then s.nextEpoch else epochFrom w)],
                                                                       excl := [(x.val, w)] } }) ∧
  (∀ (s : State) (h : HPort) (m : MsgHdr) (x : Fin 32768) (w : Nat), s.hlUp h.val = true → x.val = s.bwId → x.val ≠ s.ownId → s.herd.bwGone = false →
    ∃ t, exec (.depart h m x w) s = .next t ∧ t.herd.bwGone = true ∧ t.herd.creqPend = [] ∧ t.pkts = s.pkts)

/-- Elections (R238, R253). An election starts when no marker has come for DETECT_BEATS, or the bellwether's departure is known; a candidate that is better is
kept and flooded on; each device votes once, at T0 + 256; at T0 + 512 a candidate with more than half of the base has won; it takes office at its epoch
boundary; an election without a bellwether at T0 + 4,096 has failed. A quiet neighbour is reported. Where a clause leaves the state as it is because the event cannot come, that is the model's choice (assumption 1); so are its readings in assumptions 164, 165, 166 and 279. -/
def Obligations.ElectionCommands : Prop :=
  (∀ s : State, s.electionDue = true → ∃ t, exec .electionStart s = .next t ∧ t.electing = true ∧ t.herd.t0 = some s.time.beat ∧ t.herd.votes = [] ∧
    s.Counts t Reg.HERD.ELECTIONS ∧ t.herd.best = (if s.rd Reg.HERD.BW_PRIO = 0 then none else some (s.rd Reg.HERD.BW_PRIO, s.ownId)) ∧
    ({ s with herd := t.herd } : State).ReportsOnly t) ∧
  (∀ s : State, s.electionDue = false → exec .electionStart s = .next s ∧ exec (.markerTimeout none) s = .next s) ∧
  (∀ s : State, s.electionDue = true → ∃ t, exec (.markerTimeout none) s = .next t ∧ t.electing = true) ∧
  (∀ (s : State) (h : HPort) (p : Nat), 2 ≤ s.herdState → s.rd Reg.HLINK.PEER_ID h.val ∈ s.herd.members → s.rd Reg.HLINK.PEER_ID h.val ≠ s.ownId →
    (s.hl.get h.val).lastMarker.getD 0 + s.act Reg.HERD.DETECT_BEATS ≤ s.time.beat →
    (s.hl.get (pairPort h.val)).lastMarker.getD 0 + s.act Reg.HERD.DETECT_BEATS ≤ s.time.beat → s.isBw = false →
    s.rd Reg.HLINK.PEER_ID h.val ≠ s.bwId → s.outPort s.bwId = some p →
    ∃ t, exec (.markerTimeout (some h)) s = .next t ∧ t = { s with herd := { s.herd with out := t.herd.out } } ∧
      { port := some p, kind := 7, src := s.ownId, dest := s.bwId, args := [(s.rd Reg.HLINK.PEER_ID h.val : Int), (s.exclWindow : Int)] } ∈ t.herd.out) ∧
  (∀ (s : State) (h : HPort), 2 ≤ s.herdState → s.rd Reg.HLINK.PEER_ID h.val ∈ s.herd.members → s.rd Reg.HLINK.PEER_ID h.val ≠ s.ownId →
    (s.hl.get h.val).lastMarker.getD 0 + s.act Reg.HERD.DETECT_BEATS ≤ s.time.beat →
    (s.hl.get (pairPort h.val)).lastMarker.getD 0 + s.act Reg.HERD.DETECT_BEATS ≤ s.time.beat → s.isBw = false → s.rd Reg.HLINK.PEER_ID h.val = s.bwId →
    s.herd.bwGone = false → ∃ t, exec (.markerTimeout (some h)) s = .next t ∧ t.herd.bwGone = true ∧ t.pkts = s.pkts) ∧
  (∀ (s : State) (h : HPort) (m : MsgHdr) (prio : BitVec 8) (x : Fin 32768) (t0 : Nat), s.hlUp h.val = true → s.herdState ≠ 0 → s.isBw = false → s.electing = true →
    s.herd.t0 = some t0 → t0 + 255 < s.time.beat → exec (.candidate h m prio x) s = .next s) ∧
  (∀ (s : State) (h : HPort) (m : MsgHdr) (prio : BitVec 8) (x : Fin 32768), s.hlUp h.val = true → s.herdState ≠ 0 → s.isBw = false → prio ≠ 0 → s.electing = true →
    s.time.beat ≤ s.herd.t0.getD 0 + 255 →
    ∃ t, exec (.candidate h m prio x) s = .next t ∧ t = { s with herd := t.herd } ∧
      ((∀ c, s.herd.best = some c → betterCand (prio.toNat, x.val) c = true) → t.herd.best = some (prio.toNat, x.val)) ∧
      (∀ c, s.herd.best = some c → betterCand (prio.toNat, x.val) c = false → t = s)) ∧
  (∀ (s : State) (h : HPort) (m : MsgHdr) (prio : BitVec 8) (x : Fin 32768), s.hlUp h.val = true → s.herdState ≠ 0 → s.isBw = false → prio ≠ 0 → s.electing = false →
    ∃ t, exec (.candidate h m prio x) s = .next t ∧ t.electing = true ∧ s.Counts t Reg.HERD.ELECTIONS ∧ t.herd.t0 = some s.time.beat) ∧
  (∀ (s : State) (t0 c prio : Nat) (p : Nat), s.herd.t0 = some t0 → s.herd.best = some (prio, c) → s.electing = true → s.time.beat = t0 + 256 → c ≠ s.ownId →
    s.outPort c = some p →
    ∃ t, exec .electionVote s = .next t ∧ t = { s with herd := { s.herd with out := t.herd.out } } ∧
      { port := some p, kind := 9, src := s.ownId, dest := c, args := [(prio : Int), (c : Int)] } ∈ t.herd.out) ∧
  (∀ (s : State) (t0 : Nat), s.herd.t0 = some t0 → s.time.beat ≠ t0 + 256 → exec .electionVote s = .next s) ∧
  (∀ (s : State) (h : HPort) (m : MsgHdr) (prio : BitVec 8) (x : Fin 32768), s.hlUp h.val = true → m.dest.val = s.ownId → s.electing = true → x.val = s.ownId →
    (∀ v ∈ s.herd.votes, v.1 ≠ m.src.val) →
    exec (.vote h m prio x) s = .next { s with herd := { s.herd with votes := s.herd.votes ++ [(m.src.val, x.val)] } }) ∧
  (∀ (s : State) (h : HPort) (m : MsgHdr) (prio : BitVec 8) (x : Fin 32768), s.hlUp h.val = true → m.dest.val = s.ownId → (∃ v ∈ s.herd.votes, v.1 = m.src.val) →
    exec (.vote h m prio x) s = .next s) ∧
  (∀ (s : State) (t0 : Nat), s.herd.t0 = some t0 → s.electing = true → t0 + 512 ≤ s.time.beat → s.herd.winner = none → s.quorumBase < 2 * s.herd.votes.length →
    exec .electionResult s = .next { s with herd := { s.herd with winner := some (s.ownId, epochFrom (t0 + 1024)) } }) ∧
  (∀ (s : State) (t0 : Nat), s.herd.t0 = some t0 → s.electing = true → t0 + 512 ≤ s.time.beat → s.herd.winner = none → s.act Reg.HERD.NO_QUORUM = 1 →
    s.rd Reg.HERD.BW_PRIO ≠ 0 → exec .electionResult s = .next { s with herd := { s.herd with winner := some (s.ownId, epochFrom (t0 + 1024)) } }) ∧
  (∀ s : State, 2 * s.herd.votes.length ≤ s.quorumBase → s.act Reg.HERD.NO_QUORUM = 0 → exec .electionResult s = .next s) ∧
  (∀ (s : State) (b : Nat), s.herd.winner = some (s.ownId, b) → s.electing = true → b ≤ s.time.beat →
    ∃ t, exec .bellwetherTakeOffice s = .next t ∧ t.isBw = true ∧ t.electing = false ∧ t.bwId = s.ownId % 32768 ∧ t.rd Reg.HERD.BW_HOPS = 0 ∧
      (s.herdState = 1 → t.herdState = 2 ∧ t.herd.members = [s.ownId] ∧ t.rd Reg.HERD.JOIN_RESULT = 1) ∧ (s.herdState ≠ 1 → t.herdState = s.herdState) ∧
      ({ s with herd := t.herd } : State).ReportsOnly t) ∧
  (∀ (s : State) (w b : Nat), s.herd.winner = some (w, b) → s.time.beat < b → exec .bellwetherTakeOffice s = .next s) ∧
  (∀ (s : State) (t0 : Nat), s.herd.t0 = some t0 → s.electing = true → t0 + 4096 ≤ s.time.beat → 2 ≤ s.herdState →
    ∃ t, exec .electionFail s = .next t ∧ t.herdState = 0 ∧ t.electing = false ∧ t.herd.members = [] ∧ t.time = s.time ∧ t.pkts = s.pkts) ∧
  (∀ (s : State) (t0 : Nat), s.herd.t0 = some t0 → s.time.beat < t0 + 4096 → exec .electionFail s = .next s)

/-- Herd commits (R247, R248). The bellwether orders a request: the next sequence number, at the first epoch boundary not before the requested beat and
8,192 beats from now, sent to every member. A device that passes its own checks arms the ordered version; one that does not answers NACK and leaves at the
order's beat. A second copy of an order does nothing. The bellwether counts the NACKs to its last order. Where a clause leaves the state as it is because the event cannot come, that is the model's choice (assumption 1); so are its readings in assumptions 158, 166 and 167. -/
def Obligations.HerdCommitCommands : Prop :=
  (∀ (s : State) (h : HPort) (m : MsgHdr) (k : CommitKind) (v : BitVec 16) (b : Nat), s.hlUp h.val = true → m.dest.val = s.ownId → s.isBw = true → s.electing = false →
    s.herdState = 2 → m.src.val ∈ s.herd.members → s.herd.orders = [] →
    ∃ t, exec (.creq h m k v b) s = .next t ∧ t.herd.nextSeq = s.herd.nextSeq + 1 ∧ t.herd.lastOrderSeq = s.herd.nextSeq + 1 ∧
      (∀ x p, x ∈ s.herd.members → x ≠ s.ownId → s.outPort x = some p →
        { port := some p, kind := 11, src := s.ownId, dest := x,
          args := [((s.herd.nextSeq + 1 : Nat) : Int), (epochFrom (Nat.max b (s.time.beat + 8192)) : Int)] ++ commitWords k v.toNat } ∈ t.herd.out) ∧
      t.time = s.time ∧ t.pkts = s.pkts) ∧
  (∀ (s : State) (h : HPort) (m : MsgHdr) (k : CommitKind) (v : BitVec 16) (b : Nat), s.hlUp h.val = true → m.dest.val = s.ownId → s.isBw = false →
    exec (.creq h m k v b) s = .next s) ∧
  (∀ (s : State) (h : HPort) (m : MsgHdr) (seq : BitVec 32) (b : Nat) (n : CtxNum) (v : BitVec 16), s.hlUp h.val = true → m.dest.val = s.ownId → s.herdState = 2 →
    s.herd.orders = [] → s.time.beat ≤ b → s.canArm (.context n) v.toNat b = true →
    ∃ t, exec (.order h m seq b (.context n) v) s = .next t ∧ (t.ctxs.get n.val).st = .armed ∧ (t.ctxs.get n.val).armC = b ∧ t.herdState = 2 ∧
      t.herd.lastOrderSeq = seq.toNat ∧ (∃ o ∈ t.herd.orders, o.seq = seq.toNat ∧ o.c = b ∧ o.armed = true) ∧ (∀ k, k ≠ n.val → t.ctxs.get k = s.ctxs.get k) ∧ t.pkts = s.pkts) ∧
  (∀ (s : State) (h : HPort) (m : MsgHdr) (seq : BitVec 32) (b : Nat) (v : BitVec 16), s.hlUp h.val = true → m.dest.val = s.ownId → s.herdState = 2 →
    s.herd.orders = [] → s.time.beat ≤ b → s.canArm .rules v.toNat b = true →
    ∃ t, exec (.order h m seq b .rules v) s = .next t ∧ t.commitState = 2 ∧ t.cls = { s.cls with armC := b, armHerd := true } ∧ t.herdState = 2 ∧
      t.herd.lastOrderSeq = seq.toNat ∧ t.ctxs = s.ctxs ∧ t.pkts = s.pkts) ∧
  (∀ (s : State) (h : HPort) (m : MsgHdr) (seq : BitVec 32) (b : Nat) (k : CommitKind) (v : BitVec 16), s.hlUp h.val = true → m.dest.val = s.ownId → s.herdState = 2 →
    s.herd.orders = [] → s.time.beat ≤ b → s.herd.leaveAt = none → s.canArm k v.toNat b = false →
    ∃ t, exec (.order h m seq b k v) s = .next t ∧ t.herdState = 3 ∧ t.herd.leaveAt = some b ∧ t.ctxs = s.ctxs ∧ t.cls = s.cls ∧ t.pkts = s.pkts) ∧
  (∀ (s : State) (h : HPort) (m : MsgHdr) (seq : BitVec 32) (b : Nat) (k : CommitKind) (v : BitVec 16), s.hlUp h.val = true → m.dest.val = s.ownId →
    (s.herdState = 0 ∨ ∃ o ∈ s.herd.orders, o.seq = seq.toNat) → exec (.order h m seq b k v) s = .next s) ∧
  (∀ (s : State) (h : HPort) (m : MsgHdr) (seq : BitVec 32), s.hlUp h.val = true → m.dest.val = s.ownId → s.isBw = true → seq.toNat = s.herd.nextSeq →
    (seq.toNat, m.src.val) ∉ s.herd.nackers →
    ∃ t, exec (.ack h m seq true) s = .next t ∧ t.herd.nackers = s.herd.nackers ++ [(seq.toNat, m.src.val)] ∧ s.Counts t Reg.HERD.CMT_NACKS ∧ t.pkts = s.pkts ∧ t.cls = s.cls) ∧
  (∀ (s : State) (h : HPort) (m : MsgHdr) (seq : BitVec 32), s.hlUp h.val = true → m.dest.val = s.ownId → exec (.ack h m seq false) s = .next s)

/-- Reductions and the global stop (R245, R246, R249 to R251, R255). A contributor's partial result is kept until every one below it has come; a result
from the root is written at the destination. A deadline that has not come changes nothing. The bellwether's order starts a stop or a resume; S stops new
messages and S + 1 cuts; S2 ends the stop with empty capture buffers. A host may ask with a debug token that permits it. Where a clause leaves the state as it is because the event cannot come, that is the model's choice (assumption 1); so are its readings in assumptions 169, 173, 175 and 282. -/
def Obligations.ReductionAndStopCommands : Prop :=
  (∀ (s : State) (r : Fin 4), s.act Reg.HERD.RED_EN 0 r.val = 0 → exec (.reductionStart r) s = .next s ∧ exec (.reductionDeadline r) s = .next s) ∧
  (∀ (s : State) (r : Fin 4), s.time.beat % 16384 ≠ 8 → exec (.reductionStart r) s = .next s) ∧
  (∀ (s : State) (r : Fin 4), s.isMember = false → s.act Reg.HERD.RED_EN 0 r.val = 1 → 16384 ≤ s.time.beat → s.time.beat % 16384 = 8 →
    (s.redFor r.val (s.time.beat / 16384 * 16384)).started = false → (s.redFor r.val (s.time.beat / 16384 * 16384)).have_ = false → s.herd.stopped = true →
    ∃ t, exec (.reductionStart r) s = .next t ∧ s.Counts t Reg.HERD.RED_DONE ∧ s.Counts t Reg.HERD.RED_VOID ∧ t.pkts = s.pkts ∧ t.time = s.time) ∧
  (∀ (s : State) (r : Fin 4) (p : Nat), s.isMember = true → s.act Reg.HERD.RED_EN 0 r.val = 1 → 16384 ≤ s.time.beat → s.time.beat % 16384 = 8 → s.herd.stopped = false →
    (s.redFor r.val (s.time.beat / 16384 * 16384)) = { window := s.time.beat / 16384 * 16384, acc := List.replicate (s.redLen r.val) 0 } →
    s.act Reg.HERD.RED_OP 0 r.val = 0 → s.hbmUe (s.act Reg.HERD.RED_SRC 0 r.val) (8 * s.redLen r.val) = none →
    s.ownId ∈ s.contributors (s.time.beat / 16384 * 16384) → (s.contributors (s.time.beat / 16384 * 16384)).headD s.ownId = p → p ≠ s.ownId →
    1 < s.redBelow (s.contributors (s.time.beat / 16384 * 16384)) p →
    ∃ t, exec (.reductionStart r) s = .next t ∧ (t.herd.red.get r.val).started = true ∧ (t.herd.red.get r.val).count = s.redLen r.val ∧
      (t.herd.red.get r.val).acc = (List.range (s.redLen r.val)).map (fun i => toSigned 64 (Mem.readLE s.hbm (s.act Reg.HERD.RED_SRC 0 r.val + 8 * i) 8)) ∧
      t.hbm = s.hbm ∧ t = { s with herd := t.herd }) ∧
  (∀ (s : State) (h : HPort) (m : MsgHdr) (r : Fin 4) (w off n : Nat) (v : List Int) (void : Bool), s.hlUp h.val = true → s.herd.cut = false → m.dest.val = s.ownId →
    s.herd.stopped = false → s.act Reg.HERD.RED_EN 0 r.val = 1 → s.ownId ∈ s.contributors w → off + v.length ≤ s.redLen r.val →
    (s.redFor r.val w).have_ = false → (s.redFor r.val w).started = false →
    ∃ t, exec (.red h m r w off v false n void) s = .next t ∧
      t.herd.red.get r.val = (s.redFor r.val w).combine (s.act Reg.HERD.RED_OP 0 r.val) off v n void ∧ t = { s with herd := t.herd }) ∧
  (∀ (s : State) (h : HPort) (m : MsgHdr) (r : Fin 4) (w n : Nat) (v : List Int), s.hlUp h.val = true → s.herd.cut = false → m.dest.val = s.ownId →
    s.herd.stopped = false → s.act Reg.HERD.RED_EN 0 r.val = 1 → s.ownId ∈ s.contributors w → v.length = s.redLen r.val → (s.redFor r.val w).acc.length = v.length →
    (s.redFor r.val w).have_ = false → (linesOf (s.act Reg.HERD.RED_DST 0 r.val) (16 * v.length + 64)).any s.lineProtected = false → s.cycLate = [] →
    ∃ t, exec (.red h m r w 0 v true n false) s = .next t ∧ s.Counts t Reg.HERD.RED_DONE ∧ (t.herd.red.get r.val).have_ = true ∧ (t.herd.red.get r.val).acc = v ∧
      Mem.readN t.hbm (s.act Reg.HERD.RED_DST 0 r.val) (16 * v.length) = v.flatMap (fun x => leBytes 16 (ofSigned 128 x)) ∧ t.pkts = s.pkts) ∧
  (∀ (s : State) (r : Fin 4), s.time.beat % 16384 < 64 → exec (.reductionDeadline r) s = .next s) ∧
  (∀ (s : State) (r : Fin 4), s.isMember = false → s.act Reg.HERD.RED_EN 0 r.val = 1 → 16384 ≤ s.time.beat → 64 ≤ s.time.beat % 16384 →
    (s.redFor r.val (s.time.beat / 16384 * 16384)).have_ = false → s.herd.stopped = false →
    ∃ t, exec (.reductionDeadline r) s = .next t ∧ s.Counts t Reg.HERD.RED_DONE ∧ s.Counts t Reg.HERD.RED_VOID ∧ t.herd.rootVoid = some true ∧ t.pkts = s.pkts) ∧
  (∀ (s : State) (src : Source), s.Takes src → s.auth.token = none →
    (∃ t, exec (.stopRequest src) s = .next t ∧ t.rd Reg.HERD.STOP_REFUSE = 1 ∧ s.WriteOnly t) ∧
    (∃ t, exec (.resumeRequest src) s = .next t ∧ t.rd Reg.HERD.STOP_REFUSE = 1 ∧ s.WriteOnly t)) ∧
  (∀ (s : State) (src : Source) (k : Token), s.Takes src → s.auth.token = some k → bits k.perms 1 1 = 1 → s.isBw = true → s.electing = false → s.herdState = 2 →
    s.ownId ∈ s.herd.members → s.rd Reg.HERD.STOP_STATE = 0 → s.time.beat + 1024 ≤ s.rd Reg.HERD.STOP_BEAT →
    ∃ t, exec (.stopRequest src) s = .next t ∧ t.rd Reg.HERD.STOP_STATE = 1 ∧ t.herd.stopAt = some (s.rd Reg.HERD.STOP_BEAT) ∧ t.rd Reg.HERD.STOP_REFUSE = 0 ∧
      ({ s with herd := t.herd } : State).WriteOnly t) ∧
  (∀ (s : State) (src : Source) (k : Token), s.Takes src → s.auth.token = some k → bits k.perms 1 1 = 1 → s.isBw = true → s.electing = false → s.herdState = 2 →
    s.ownId ∈ s.herd.members → s.rd Reg.HERD.STOP_STATE = 2 → s.time.beat + 1024 ≤ s.rd Reg.HERD.RESUME_BEAT →
    ∃ t, exec (.resumeRequest src) s = .next t ∧ t.rd Reg.HERD.STOP_STATE = 3 ∧ t.herd.resumeAt = some (s.rd Reg.HERD.RESUME_BEAT) ∧
      ({ s with herd := t.herd } : State).WriteOnly t) ∧
  (∀ (s : State) (h : HPort) (m : MsgHdr) (b : Nat), s.hlUp h.val = true → m.dest.val = s.ownId → 2 ≤ s.herdState →
    (∃ t, exec (.stop h m true false b 0) s = .next t ∧ t.rd Reg.HERD.STOP_STATE = 1 ∧ t.herd = { s.herd with stopAt := some b, resumeAt := none } ∧
      ({ s with herd := t.herd } : State).ReportsOnly t) ∧
    (∃ t, exec (.stop h m true true b 0) s = .next t ∧ t.rd Reg.HERD.STOP_STATE = 3 ∧ t.herd = { s.herd with resumeAt := some b } ∧
      ({ s with herd := t.herd } : State).ReportsOnly t)) ∧
  (∀ (s : State) (b : Nat), s.herd.stopAt = some b → s.rd Reg.HERD.STOP_STATE = 1 → b ≤ s.time.beat →
    ∃ t, exec .stopTakeEffect s = .next t ∧ t.rd Reg.HERD.STOP_STATE = 2 ∧ t.herd = { s.herd with stopped := true } ∧ ({ s with herd := t.herd } : State).ReportsOnly t) ∧
  (∀ (s : State) (b : Nat), s.herd.stopAt = some b → s.time.beat < b → exec .stopTakeEffect s = .next s ∧ exec .stopCut s = .next s) ∧
  (∀ (s : State) (b : Nat), s.herd.stopAt = some b → s.herd.stopped = true → b + 1 ≤ s.time.beat →
    exec .stopCut s = .next { s with herd := { s.herd with cut := true } }) ∧
  (∀ (s : State) (b : Nat), s.herd.resumeAt = some b → s.rd Reg.HERD.STOP_STATE = 3 → b ≤ s.time.beat →
    ∃ t, exec .resumeTakeEffect s = .next t ∧ t.rd Reg.HERD.STOP_STATE = 0 ∧ t.herd.stopped = false ∧ t.herd.cut = false ∧
      (∀ p : HPort, (t.hl.get p.val).cap = []) ∧ t.pkts = s.pkts ∧ t.time = s.time) ∧
  (∀ (s : State) (b : Nat), s.herd.resumeAt = some b → s.time.beat < b → exec .resumeTakeEffect s = .next s) ∧
  (∀ (s : State) (src : Source) (f : Flock), s.TakesExpert src →
    ∃ t, exec (.syncSetGo src f) s = .next t ∧ s.Queued t (.syncSet (cellKey f.val (s.rd Reg.FLOCK.SYNC_SEL f.val)) (s.rd Reg.FLOCK.SYNC_SET f.val)) ∧ s.WriteLater t)

/-- Host-bound queues, injection and expert writes of buckets (R266 to R277, R292). An item goes to the slot of its number and its tag is written behind it;
with the ring full the oldest item counts as lost, or the new one where DROP_NEW says so; a queue that is off counts and loses. A write of EN waits for the
boundary. CONS may move between CONS and PROD; the producer sees it from the following cycle. An interrupt repeats after IRQ_BEATS. A descriptor is refused, offered to a queue, or becomes a packet. Where a clause leaves the state as it is because the event cannot come, that is the model's choice (assumption 1); so are its readings in assumptions 121, 122, 260 and 285. -/
def Obligations.HostQueueCommands : Prop :=
  (∀ (s : State) (it : HqItem), (s.devSafe = false ∨ it.q.val = 6) → s.hqOff it.q.val = false → s.act Reg.HQ.LOC 0 it.q.val = 0 →
    s.rd Reg.HQ.PROD 0 it.q.val - s.consSeen it.q.val ≠ s.hqSlots it.q.val → s.cycLate = [] → it.bytes.length ≤ s.rd Reg.HQ.SLOT_BYTES 0 it.q.val →
    (∀ a, a = s.act Reg.HQ.RING_BASE 0 it.q.val + s.rd Reg.HQ.PROD 0 it.q.val % s.hqSlots it.q.val * s.rd Reg.HQ.SLOT_BYTES 0 it.q.val →
      ∀ b, b = s.act Reg.HQ.TAG_BASE 0 it.q.val + s.rd Reg.HQ.PROD 0 it.q.val % s.hqSlots it.q.val * 8 → (a + it.bytes.length ≤ b ∨ b + 8 ≤ a) →
      (linesOf a it.bytes.length ++ linesOf b 8).any s.lineProtected = false →
      ∃ t, exec (.hqProduce it) s = .next t ∧ Mem.readN t.hbm a it.bytes.length = it.bytes ∧
        Mem.readN t.hbm b 8 = leBytes 8 (s.rd Reg.HQ.PROD 0 it.q.val % 2 ^ 63 + 2 ^ 63) ∧
        (∀ c, (c < a ∨ a + it.bytes.length ≤ c) → (c < b ∨ b + 8 ≤ c) → Mem.read t.hbm c = Mem.read s.hbm c) ∧
        t.rd Reg.HQ.PROD 0 it.q.val = (s.rd Reg.HQ.PROD 0 it.q.val + 1) % 2 ^ 64 ∧ t.rd Reg.HQ.CONS 0 it.q.val = s.rd Reg.HQ.CONS 0 it.q.val ∧
        s.ReportsOnly t)) ∧
  (∀ (s : State) (it : HqItem), (s.devSafe = false ∨ it.q.val = 6) → s.hqOff it.q.val = true →
    s.consSeen it.q.val = s.rd Reg.HQ.CONS 0 it.q.val →
    ∃ t, exec (.hqProduce it) s = .next t ∧ t.rd Reg.HQ.PROD 0 it.q.val = (s.rd Reg.HQ.PROD 0 it.q.val + 1) % 2 ^ 64 ∧
      t.rd Reg.HQ.CONS 0 it.q.val = (s.rd Reg.HQ.CONS 0 it.q.val + 1) % 2 ^ 64 ∧ s.Counts t Reg.HQ.LOST 0 it.q.val ∧ t = { s with regs := t.regs, hq := t.hq }) ∧
  (∀ (s : State) (it : HqItem), (s.devSafe = false ∨ it.q.val = 6) → s.hqOff it.q.val = false →
    s.rd Reg.HQ.PROD 0 it.q.val - s.consSeen it.q.val = s.hqSlots it.q.val →
    (bits (s.act Reg.HQ.DROP_NEW) it.q.val 1 = 1 → ∃ t, exec (.hqProduce it) s = .next t ∧ s.Counts t Reg.HQ.LOST 0 it.q.val ∧
      ({ s with hq := t.hq } : State).OnlyFields t [Reg.HQ.LOST.key 0 it.q.val 0]) ∧
    (bits (s.act Reg.HQ.DROP_NEW) it.q.val 1 = 0 → s.consSeen it.q.val = s.rd Reg.HQ.CONS 0 it.q.val → ∃ t, exec (.hqProduce it) s = .next t ∧ s.Counts t Reg.HQ.LOST 0 it.q.val ∧
      t.rd Reg.HQ.CONS 0 it.q.val = (s.rd Reg.HQ.CONS 0 it.q.val + 1) % 2 ^ 64 ∧ t.rd Reg.HQ.PROD 0 it.q.val = (s.rd Reg.HQ.PROD 0 it.q.val + 1) % 2 ^ 64)) ∧
  (∀ (s : State) (it : HqItem), s.devSafe = true → it.q.val ≠ 6 → exec (.hqProduce it) s = .next s) ∧
  (∀ (s : State) (src : Source) (q : QNum), s.Takes src → s.hqFits q.val = true → s.rd Reg.HQ.EN 0 q.val = 0 →
    ∃ t, exec (.hqEnable src q) s = .next t ∧ s.Queued t (.hqStart q.val) ∧ t.rd Reg.HQ.EN 0 q.val = 1 ∧ s.WriteLater t) ∧
  (∀ (s : State) (src : Source) (q : QNum), s.Takes src → s.hqFits q.val = false →
    ∃ t, exec (.hqEnable src q) s = .next t ∧ t.rd Reg.HQ.EN 0 q.val = s.rd Reg.HQ.EN 0 q.val ∧ s.WriteOnly t) ∧
  (∀ (s : State) (src : Source) (q : QNum) (v : DWord), s.Takes src → s.rd Reg.HQ.CONS 0 q.val ≤ v.toNat → v.toNat ≤ s.rd Reg.HQ.PROD 0 q.val →
    ∃ t, exec (.hqConsWrite src q v) s = .next t ∧ ({ s with acting := t.acting } : State).WriteOnly t ∧
      ((q.val ≠ 7 ∨ s.devSafe = true ∨ (s.hqOff 7 = false ∧ s.rd Reg.HQ.PROD 0 7 - s.consSeen 7 < s.hqSlots 7)) →
        t.rd Reg.HQ.CONS 0 q.val = v.toNat ∧ t.consSeen q.val = s.consSeen q.val ∧
        (∀ u : State, u.hq = t.hq → u.regs = t.regs → u.now ≠ s.now → u.consSeen q.val = v.toNat))) ∧
  (∀ (s : State) (src : Source) (q : QNum) (v : DWord), s.Takes src → (v.toNat < s.rd Reg.HQ.CONS 0 q.val ∨ s.rd Reg.HQ.PROD 0 q.val < v.toNat) →
    ∃ t, exec (.hqConsWrite src q v) s = .next t ∧ s.WriteOnly t ∧
      ((q.val ≠ 7 ∨ s.devSafe = true ∨ (s.hqOff 7 = false ∧ s.rd Reg.HQ.PROD 0 7 - s.consSeen 7 < s.hqSlots 7)) →
        t.rd Reg.HQ.CONS 0 q.val = s.rd Reg.HQ.CONS 0 q.val)) ∧
  (∀ (s : State) (q : QNum), s.consSeen q.val < s.rd Reg.HQ.PROD 0 q.val → s.act Reg.HQ.IRQ_EN 0 q.val = 1 →
    (s.hq.get q.val).irqBeat + s.act Reg.HQ.IRQ_BEATS 0 q.val ≤ s.time.beat → s.rd Reg.CXL.LINK_UP = 1 → s.host.lost = false →
    ∃ t, exec (.hqIrqRepeat q) s = .next t ∧ (t.hq.get q.val).irqBeat = s.time.beat ∧ (t.host.msix.get (s.act Reg.HQ.VECTOR 0 q.val)).pending = true ∧
      t = { s with hq := t.hq, host := { s.host with msix := t.host.msix } }) ∧
  (∀ (s : State) (q : QNum), s.rd Reg.HQ.PROD 0 q.val ≤ s.consSeen q.val → exec (.hqIrqRepeat q) s = .next s) ∧
  (∀ (s : State) (src : Source) (v : DWord), s.Takes src → v.toNat ≤ s.rd Reg.HQ.INJ_CONS + 2 ^ s.rd Reg.HQ.INJ_LOG2 →
    ∃ t, exec (.injProdWrite src v) s = .next t ∧ t.rd Reg.HQ.INJ_PROD = v.toNat ∧ t.host.injPosted = v.toNat ∧ ({ s with acting := t.acting } : State).WriteOnly t) ∧
  (∀ (s : State) (src : Source) (v : DWord), s.Takes src → s.rd Reg.HQ.INJ_CONS + 2 ^ s.rd Reg.HQ.INJ_LOG2 < v.toNat →
    ∃ t, exec (.injProdWrite src v) s = .next t ∧ s.Counts t Reg.HQ.INJ_OVERRUN ∧ t.rd Reg.HQ.INJ_PROD = s.rd Reg.HQ.INJ_PROD ∧ s.WriteOnly t) ∧
  (∀ s : State, s.rd Reg.HQ.INJ_PROD ≤ s.rd Reg.HQ.INJ_CONS → exec .injDescriptor s = .next s) ∧
  (∀ (s : State) (d : InjDesc) (data : List Byte), s.Runs → s.devSafe = false → s.act Reg.HQ.INJ_EN = 1 → s.rd Reg.HQ.INJ_CONS < s.rd Reg.HQ.INJ_PROD →
    s.act Reg.HQ.INJ_LOC = 0 →
    d = injDesc (Mem.readN s.hbm (s.act Reg.HQ.INJ_BASE + 32 * (s.rd Reg.HQ.INJ_CONS % 2 ^ s.act Reg.HQ.INJ_LOG2)) 32) → data = s.locRead d.dloc d.addr d.len →
    (d.dloc = 1 → s.hostMemOff = true → exec .injDescriptor s = .next s) ∧
    ((d.dloc = 1 → s.hostMemOff = false) →
    (s.injBad d data = true → ∃ t, exec .injDescriptor s = .next t ∧ t.rd Reg.HQ.INJ_CONS = (s.rd Reg.HQ.INJ_CONS + 1) % 2 ^ 64 ∧
      s.Counts t Reg.HQ.INJ_REFUSED ∧ t.pkts = s.pkts ∧ t.acts = s.acts) ∧
    (s.injBad d data = false → 73 ≤ s.freeCells → d.mode = 1 → ∃ t, exec .injDescriptor s = .next t ∧
      t.rd Reg.HQ.INJ_CONS = (s.rd Reg.HQ.INJ_CONS + 1) % 2 ^ 64 ∧ t.pkts = s.pkts ∧
      s.Queued t (.offerInjected d.port d.queue { kind := 3, size := d.len + 4, bytes := data, tsreq := d.tsreq, itag := d.itag,
                                                       own := storedCells (data ++ fcsBytes data) 0 }) ∧
      t.rd Reg.HOLD.ALLOC = (s.rd Reg.HOLD.ALLOC + storedCells (data ++ fcsBytes data) 0) % 2 ^ Reg.HOLD.ALLOC.width) ∧
    (s.injBad d data = false → 73 ≤ s.freeCells → d.mode ≠ 1 → ∀ l, s.injLaneFor d.port = some l → ∃ t x, exec .injDescriptor s = .next t ∧
      t.rd Reg.HQ.INJ_CONS = (s.rd Reg.HQ.INJ_CONS + 1) % 2 ^ 64 ∧ t.pkt? s.nextPkt = some x ∧ x.i.frame = data ++ fcsBytes data ∧ x.i.lane = l ∧
      t.nextPkt = s.nextPkt + 1 ∧ (∀ k, k ≠ s.nextPkt → t.pkts.find? k = s.pkts.find? k)) ∧
    (s.injBad d data = false → s.freeCells < 73 → exec .injDescriptor s = .next s))) ∧
  (∀ (s : State) (src : Source) (v : Word), s.TakesExpert src → ∃ t, exec (.qTokensSet src v) s = .next t ∧
    s.Queued t (.qTokSet (s.rd Reg.SHAPE.PORT_SEL * 8 + s.rd Reg.SHAPE.Q_SEL) (toSigned 32 v.toNat)) ∧ s.WriteLater t) ∧
  (∀ (s : State) (src : Source), s.TakesExpert src → s.rd Reg.POLICE.POL_SEL ≠ 0 → ∃ t, exec (.tokGo src) s = .next t ∧
    s.Queued t (.tokSet (s.rd Reg.POLICE.POL_SEL) (s.rd Reg.POLICE.TOK_SEL == 1) (s.rd Reg.POLICE.TOK_VAL)) ∧ s.WriteLater t)

/-- Host accesses to device memory (R207, R281 to R283). Nothing lies at 1 TiB and above: the access faults. A reachable read returns the bytes, poisoned where a
line is uncorrectable; a write reaches the regions the host owns, is discarded elsewhere, and is turned away from a protected image. An aperture access is
sent to its window and answered, or counted as an error. A host read sees no byte that the device writes in its own cycle, and a host write of that cycle stands. Where a clause leaves the state as it is because the event cannot come, that is the model's choice (assumption 1); so are its readings in assumptions 177, 179, 183 and 239. -/
def Obligations.HostAccessCommands : Prop :=
  (∀ (s : State) (a n : Nat) (apt : Option (List Byte)), 2 ^ 40 < a + n → exec (.hostRead a n apt) s = .fault (.noDeviceAddress a)) ∧
  (∀ (s : State) (a : Nat) (d : List Byte) (ok : Bool), 2 ^ 40 < a + d.length → exec (.hostWrite a d ok) s = .fault (.noDeviceAddress a)) ∧
  (∀ (s : State) (a n : Nat) (apt : Option (List Byte)), a + n ≤ 2 ^ 40 → s.hostReach a n = false → exec (.hostRead a n apt) s = .next s) ∧
  (∀ (s : State) (a : Nat) (d : List Byte) (ok : Bool), a + d.length ≤ 2 ^ 40 → s.hostReach a d.length = false → exec (.hostWrite a d ok) s = .next s) ∧
  (∀ (s : State) (a n : Nat) (apt : Option (List Byte)), a + n ≤ 2 ^ 40 → s.hostReach a n = true → apertureOf a = none → s.hbmUe a n = none →
    (∀ k < n, (s.regionOf (a + k)).isSome = true) → s.cycOld = [] →
    exec (.hostRead a n apt) s = .next { s with host := { s.host with readData := Mem.readN s.hbm a n, readPoison := false } }) ∧
  (∀ (s : State) (a n : Nat) (apt : Option (List Byte)), a + n ≤ 2 ^ 40 → s.hostReach a n = true → apertureOf a = none → s.hbmUe a n = none →
    exec (.hostRead a n apt) s = .next { s with host := { s.host with readData := (List.range n).map (fun i => s.hostByte (a + i)), readPoison := false } }) ∧
  (∀ (s : State) (a n l : Nat) (apt : Option (List Byte)), a + n ≤ 2 ^ 40 → s.hostReach a n = true → apertureOf a = none → s.hbmUe a n = some l →
    ∃ t, exec (.hostRead a n apt) s = .next t ∧ t.host.readPoison = true ∧ s.Counts t Reg.CXL.POISON_RD ∧ s.ReportsOnly t) ∧
  (∀ (s : State) (a n k : Nat) (d : List Byte), a + n ≤ 2 ^ 40 → s.hostReach a n = true → apertureOf a = some k → s.aptOk k = true → d.length = n →
    ∃ t, exec (.hostRead a n (some d)) s = .next t ∧ t.host = { s.host with readData := d, readPoison := false } ∧ t.herd.nextTok = s.herd.nextTok + 1 ∧
      t = { s with host := t.host, herd := t.herd }) ∧
  (∀ (s : State) (a n k : Nat) (apt : Option (List Byte)), a + n ≤ 2 ^ 40 → s.hostReach a n = true → apertureOf a = some k → (apt = none ∨ s.aptOk k = false) →
    ∃ t, exec (.hostRead a n apt) s = .next t ∧ t.host = { s.host with readData := zeros n, readPoison := true } ∧ s.Counts t Reg.CXL.APT_ERR ∧
      t = { s with regs := t.regs, host := t.host, herd := t.herd } ∧ (s.aptOk k = false → t.herd = s.herd)) ∧
  (∀ (s : State) (a : Nat) (d : List Byte) (ok : Bool), a + d.length ≤ 2 ^ 40 → s.hostReach a d.length = true → apertureOf a = none →
    (∀ p ∈ pieces a d, s.hostLine p.1 p.2.length = 0) → s.cycLate = [] →
    ∃ t, exec (.hostWrite a d ok) s = .next t ∧ Mem.readN t.hbm a d.length = d ∧ (∀ c, (c < a ∨ a + d.length ≤ c) → Mem.read t.hbm c = Mem.read s.hbm c) ∧
      t = { s with hbm := t.hbm, flt := t.flt }) ∧
  (∀ (s : State) (a : Nat) (d : List Byte) (ok : Bool), a + d.length ≤ 2 ^ 40 → s.hostReach a d.length = true → apertureOf a = none → d ≠ [] →
    (∀ p ∈ pieces a d, s.hostLine p.1 p.2.length = 1) →
    ∃ t, exec (.hostWrite a d ok) s = .next t ∧ s.Counts t Reg.CXL.WR_DISCARD ∧ s.OnlyFields t [Reg.CXL.WR_DISCARD.key 0 0 0]) ∧
  (∀ (s : State) (a : Nat) (d : List Byte) (ok : Bool), a + d.length ≤ 2 ^ 40 → s.hostReach a d.length = true → apertureOf a = none → d ≠ [] →
    (∀ p ∈ pieces a d, s.hostLine p.1 p.2.length = 2) →
    ∃ t, exec (.hostWrite a d ok) s = .next t ∧ s.Counts t Reg.CTX.PROTECT_VIOL ∧ s.OnlyFields t [Reg.CTX.PROTECT_VIOL.key 0 0 0]) ∧
  (∀ (s : State) (a k : Nat) (d : List Byte), a + d.length ≤ 2 ^ 40 → s.hostReach a d.length = true → apertureOf a = some k →
    (s.aptOk k = true → ∃ t, exec (.hostWrite a d true) s = .next t ∧ t.herd.nextTok = s.herd.nextTok + 1 ∧ t = { s with herd := t.herd }) ∧
    (∃ t, exec (.hostWrite a d false) s = .next t ∧ s.Counts t Reg.CXL.APT_ERR ∧ ({ s with herd := t.herd } : State).OnlyFields t [Reg.CXL.APT_ERR.key 0 0 0]))

/-- The host link, its interrupts, its security and its jobs (R278, R279, R285 to R293, R336, R341, R342). A link of width 4, 8 or 16 comes up, in CXL mode where
negotiation and speed allow. A loss takes the link, the decoder and the keys down and is reported; a return ends it. A message of a vector leaves when it is
unmasked. IDE keys are set within a secured session; a failed check makes the stream insecure. DOE answers come once the pages are open. A job is refused with
its status in its descriptor, or runs; it completes with its status. Where a clause leaves the state as it is because the event cannot come, that is the model's choice (assumption 1); so are its readings in assumptions 180, 181, 184, 185 and 284. -/
def Obligations.HostLinkCommands : Prop :=
  (∀ (s : State) (r : LinkResult), s.rd Reg.CXL.LINK_UP = 0 → s.host.perst = false → (r.width = 4 ∨ r.width = 8 ∨ r.width = 16) → 1 ≤ r.speed → r.speed ≤ 5 →
    ∃ t, exec (.cxlLinkTrain r) s = .next t ∧ t.rd Reg.CXL.LINK_UP = 1 ∧ t.rd Reg.CXL.WIDTH = r.width ∧ t.rd Reg.CXL.SPEED = r.speed ∧
      (t.rd Reg.CXL.CXL_MODE = 1 ↔ r.cxlNegotiated = true ∧ r.speed = 5 ∧ 8 ≤ r.width ∧ s.act Reg.CXL.FORCE_PCIE = 0) ∧ t = { s with regs := t.regs }) ∧
  (∀ (s : State) (r : LinkResult), (s.rd Reg.CXL.LINK_UP = 1 ∨ r.width < 4) → exec (.cxlLinkTrain r) s = .next s) ∧
  (∀ (s : State) (w : Nat), s.rd Reg.CXL.LINK_UP = 1 → s.rd Reg.CXL.CXL_MODE = 1 →
    exec (.hdmDecoderCommit w) s = .next { s with host := { s.host with hdm := decide (w = 1), hdmErr := decide (w ≠ 1) } }) ∧
  (∀ (s : State) (w : Nat), s.rd Reg.CXL.CXL_MODE = 0 → exec (.hdmDecoderCommit w) s = .next s) ∧
  (∀ s : State, s.Runs → s.rd Reg.CXL.LINK_UP = 1 → s.host.lost = false →
    (∃ t, exec .hostLoss s = .next t ∧ t.host.lost = true ∧ t.host.hdm = false ∧ t.host.ideMem = .noKeys ∧ t.rd Reg.CXL.LINK_UP = 0 ∧
      s.Counts t Reg.CXL.HOST_LOSSES ∧ t.rd Reg.CXL.LAST_LOSS_BEAT = s.time.beat % 2 ^ 64 ∧ s.ReportsOnly t) ∧
    (∃ t, exec .perstN s = .next t ∧ t.host.lost = true ∧ t.rd Reg.CXL.LINK_UP = 0 ∧ s.Counts t Reg.CXL.HOST_LOSSES ∧ s.ReportsOnly t)) ∧
  (∀ s : State, s.time.started = false → exec .hostLoss s = .next s ∧
    (∃ t, exec .perstN s = .next t ∧ t.host.lost = s.host.lost ∧ t.rd Reg.CXL.LINK_UP = 0 ∧ t.rd Reg.CXL.HOST_LOSSES = s.rd Reg.CXL.HOST_LOSSES ∧
      t = { s with regs := t.regs, host := t.host })) ∧
  (∀ s : State, s.host.lost = true → s.rd Reg.CXL.LINK_UP = 1 → (s.rd Reg.CXL.CXL_MODE = 0 ∨ s.host.hdm = true) →
    ∃ t, exec .hostReturn s = .next t ∧ t.host.lost = false ∧ t.rd Reg.CXL.LAST_RETURN_BEAT = s.time.beat % 2 ^ 64 ∧ t = { s with regs := t.regs, host := t.host }) ∧
  (∀ s : State, s.rd Reg.CXL.LINK_UP = 0 → exec .hostReturn s = .next s) ∧
  (∀ s : State, s.host.ideIo = .secure → ∃ t, exec (.ideFail .io) s = .next t ∧ t.host.ideIo = .insecure ∧ s.Counts t Reg.CXL.IDE_FAIL ∧ s.ReportsOnly t) ∧
  (∀ s : State, s.host.ideMem = .secure → ∃ t, exec (.ideFail .cachemem) s = .next t ∧ t.host.ideMem = .insecure ∧ s.Counts t Reg.CXL.IDE_FAIL ∧ s.ReportsOnly t) ∧
  (∀ s : State, s.host.sessions ≠ [] → s.rd Reg.CXL.LINK_UP = 1 → exec (.ideKm .io true) s = .next { s with host := { s.host with ideIo := .secure } } ∧
    exec (.ideKm .cachemem true) s = .next { s with host := { s.host with ideMem := .secure } }) ∧
  (∀ (s : State) (st : IdeStream), exec (.ideKm st false) s = .next s) ∧
  (∀ s : State, s.rd Reg.CXL.LINK_UP = 1 → s.pagesOpen = true →
    (∀ n, n ≤ 65536 → exec (.cdat n) s = .next { s with host := { s.host with doe := cdatTable } }) ∧
    (∀ n, 65536 < n → exec (.cdat n) s = .next { s with host := { s.host with doe := [] } }) ∧
    (∀ nonce, nonce.length ≤ 65536 → ∃ bs, exec (.challenge 0 nonce) s = .next { s with host := { s.host with doe := bs } } ∧ bs.take nonce.length = nonce) ∧
    (∀ i nonce, 1 ≤ i → i ≤ 8 → nonce.length ≤ 65536 → ∃ sg, exec (.measurements 0 i nonce) s =
      .next { s with host := { s.host with doe := leBytes 1 i ++ s.measurement i ++ nonce ++ sg } }) ∧
    (∀ i slot nonce, 8 < i → i ≠ 255 → exec (.measurements slot i nonce) s = .next { s with host := { s.host with doe := [] } }) ∧
    (∀ k d, 65536 < d.length → exec (.keyExchange 0 k d) s = .next { s with host := { s.host with doe := [] } }) ∧
    (∀ k d, d.length ≤ 65536 → ∃ t, exec (.keyExchange 0 k d) s = .next t ∧ k.toNat ∈ t.host.sessions ∧ t = { s with host := { s.host with sessions := t.host.sessions, doe := t.host.doe } }) ∧
    (∀ a n, exec (.getCertificate 0 a n) s = .next { s with host := { s.host with doe := slice Config.certChain a n } }) ∧
    (∀ k a n, k ≠ 0 → exec (.getCertificate k a n) s = .next { s with host := { s.host with doe := [] } }) ∧
    (∀ i, ∃ bs, exec (.doeDiscovery i 0) s = .next { s with host := { s.host with doe := bs } } ∧ bs.length = 4) ∧
    (∀ off v, ∃ t, exec (.configRequest true off v) s = .next t ∧ t.host.cfgRetry = false ∧ t = { s with host := { s.host with cfg := t.host.cfg, cfgRetry := t.host.cfgRetry } } ∧
      (off / 4 ≠ 0 → off / 4 ≠ 2 → t.host.cfg.get (off / 4) = v.toNat)) ∧
    exec (.configRequest false 0 0) s = .next { s with host := { s.host with cfgRetry := false, cfgData := BitVec.ofNat 32 (cfgVendor + 0x7240 * 65536) } }) ∧
  (∀ (s : State) (w : Bool) (off : Nat) (v : Word), s.rd Reg.CXL.LINK_UP = 1 → s.pagesOpen = false →
    exec (.configRequest w off v) s = .next { s with host := { s.host with cfgRetry := true, cfgData := 0 } }) ∧
  (∀ (s : State) (v : Fin 2048), (s.host.msix.get v.val).pending = true → (s.host.msix.get v.val).sentBeat ≠ some s.time.beat → s.rd Reg.CXL.LINK_UP = 1 → s.host.lost = false →
    s.host.ideIo ≠ .insecure →
    ((s.host.msix.get v.val).unmasked = true → exec (.msixSend v) s = .next { s with host := { s.host with
      msix := s.host.msix.set v.val { unmasked := true, pending := false, sentBeat := some s.time.beat } } }) ∧
    ((s.host.msix.get v.val).unmasked = false → exec (.msixSend v) s = .next s) ∧
    (∃ t, exec (.msixUnmask v) s = .next t ∧ t.host.msix.get v.val = { unmasked := true, pending := false, sentBeat := some s.time.beat } ∧
      t = { s with host := { s.host with msix := t.host.msix } })) ∧
  (∀ (s : State) (src : Source) (v : DWord), s.Takes src → v.toNat ≤ s.rd Reg.CXL.JOB_DONE + 2 ^ s.rd Reg.CXL.JOB_LOG2 →
    ∃ t, exec (.jobProdWrite src v) s = .next t ∧ t.rd Reg.CXL.JOB_PROD = v.toNat ∧ ({ s with acting := t.acting } : State).WriteOnly t) ∧
  (∀ (s : State) (src : Source) (v : DWord), s.Takes src → s.rd Reg.CXL.JOB_DONE + 2 ^ s.rd Reg.CXL.JOB_LOG2 < v.toNat →
    ∃ t, exec (.jobProdWrite src v) s = .next t ∧ t.rd Reg.CXL.JOB_PROD = s.rd Reg.CXL.JOB_PROD ∧ s.WriteOnly t) ∧
  (∀ s : State, s.rd Reg.CXL.JOB_PROD ≤ s.rd Reg.CXL.JOB_CONS → exec .jobAccept s = .next s) ∧
  (∀ (s : State) (d : List Byte), s.Runs → s.act Reg.CXL.JOB_EN = 1 → s.rd Reg.CXL.JOB_CONS < s.rd Reg.CXL.JOB_PROD → s.devSafe = false → s.herd.stopped = false →
    d = Mem.readN s.hbm (s.jobAddr (s.rd Reg.CXL.JOB_CONS)) 64 → s.host.jobs.get (leAt d 0 2 % 4096) = none →
    (s.jobRefusal d ≠ 0 → (linesOf (s.jobAddr (s.rd Reg.CXL.JOB_CONS)) 64).any s.lineProtected = false → s.cycLate = [] → ∃ t, exec .jobAccept s = .next t ∧ t.rd Reg.CXL.JOB_CONS = (s.rd Reg.CXL.JOB_CONS + 1) % 2 ^ 64 ∧ s.Counts t Reg.CXL.JOB_DONE ∧
      s.Counts t Reg.CXL.JOB_FAULTED ∧ (Mem.read t.hbm (s.jobAddr (s.rd Reg.CXL.JOB_CONS) + 48)).toNat = s.jobRefusal d ∧ t.host.jobs = s.host.jobs) ∧
    (s.jobRefusal d = 0 → ∃ t j, exec .jobAccept s = .next t ∧ t.rd Reg.CXL.JOB_CONS = (s.rd Reg.CXL.JOB_CONS + 1) % 2 ^ 64 ∧
      t.host.jobs.get (leAt d 0 2 % 4096) = some j ∧ j.idx = s.rd Reg.CXL.JOB_CONS ∧ j.status = 0 ∧ t.hbm = s.hbm)) ∧
  (∀ (s : State) (c : CtxNum) (st : Fin 11), s.host.jobs.get c.val = none → exec (.jobComplete c st) s = .next s) ∧
  (∀ (s : State) (c : CtxNum) (st : Fin 11) (j : JobRun), s.host.jobs.get c.val = some j → j.status = 0 → (st.val < 7 ∨ st.val = 10) → st.val ≠ 0 →
    (linesOf (s.jobAddr j.idx) 64).any s.lineProtected = false → s.cycLate = [] →
    ∃ t, exec (.jobComplete c st) s = .next t ∧ t.host.jobs.get c.val = none ∧ (∀ k, k ≠ c.val → t.host.jobs.get k = s.host.jobs.get k) ∧ s.Counts t Reg.CXL.JOB_DONE ∧
      (Mem.read t.hbm (s.jobAddr j.idx + 48)).toNat = st.val) ∧
  (∀ (s : State) (c : CtxNum) (st : Fin 11) (j : JobRun), s.host.jobs.get c.val = some j → j.status = 10 →
    (linesOf (s.jobAddr j.idx) 64).any s.lineProtected = false → s.cycLate = [] →
    ∃ t, exec (.jobComplete c st) s = .next t ∧ t.host.jobs.get c.val = none ∧ s.Counts t Reg.CXL.JOB_FAULTED ∧ (Mem.read t.hbm (s.jobAddr j.idx + 48)).toNat = 10)
/-- HBM errors, fault records, the ledger and disputes (R295 to R305, R316, R317). A corrected line is written back in the following beat. The patrol scrub
counts a corrected line and lists an uncorrectable one. A consumer that meets an uncorrectable line suffers what its use of the line costs. A break is
counted, named and recorded with its difference, and takes its consequence unless NO_BREAK_ACT holds it off. Two views that differ are a dispute, which
withdraws the unit at the next boundary; views that agree are none. Where a clause leaves the state as it is because the event cannot come, that is the model's choice (assumption 1); so are its readings in assumptions 186, 189, 190 and 191. -/
def Obligations.FaultAndLedgerCommands : Prop :=
  (∀ (s : State) (n : Hbmc) (l : Nat), stackOf (l * 64) = n.val → s.flt.wback.get l < s.time.beat →
    exec (.hbmWriteback n l) s = .next { s with flt := { s.flt with wback := s.flt.wback.erase l } }) ∧
  (∀ (s : State) (n : Hbmc) (l : Nat), s.time.beat ≤ s.flt.wback.get l → exec (.hbmWriteback n l) s = .next s) ∧
  (∀ (s : State) (n : Hbmc) (l : Nat), stackOf (l * 64) = n.val → l < 12884901888 → s.flt.hbmBad.contains l = false →
    (∃ t, exec (.hbmScrub n l 1) s = .next t ∧ s.Counts t Reg.HBMC.CORRECTED n.val ∧ t.flt.wback.get l = s.time.beat ∧ t.flt.hbmBad = s.flt.hbmBad ∧
      t = { s with regs := t.regs, flt := t.flt }) ∧
    (∃ t, exec (.hbmScrub n l 2) s = .next t ∧ (s.hqOff 6 = true → l ∈ t.flt.hbmBad) ∧ s.ReportsOnly t) ∧
    (∃ t, exec (.hbmScrub n l 0) s = .next t ∧ t.flt = { s.flt with scrubbed := t.flt.scrubbed, scrubPer := t.flt.scrubPer } ∧
      t.flt.scrubbed.get n.val = s.scrubCount n.val + 1 ∧ t.rd Reg.HBMC.CORRECTED n.val = s.rd Reg.HBMC.CORRECTED n.val ∧
      t = { s with regs := t.regs, flt := t.flt })) ∧
  (∀ (s : State) (c : UeConsumer) (l : Nat), s.flt.hbmBad.contains l = false → exec (.hbmUe c l) s = .next s) ∧
  (∀ (s : State) (c : UeConsumer) (l : Nat), ∃ t, exec (.hbmUe c l) s = .next t) ∧
  (∀ (s : State) (k : CtxNum) (l : Nat), s.flt.hbmBad.contains l = true →
    (∃ t, exec (.hbmUe (.imageReload k) l) s = .next t ∧ s.Queued t (.ctxDown k.val 3 true) ∧ ({ s with acts := t.acts } : State).ReportsOnly t) ∧
    (∃ t, exec (.hbmUe (.versionWord k) l) s = .next t ∧ t.flt.jFail.get k.val = s.flt.jFail.get k.val + 1 ∧ s.ReportsOnly t) ∧
    ((s.ctxs.get k.val).st = .checking → ∃ t, exec (.hbmUe (.imageLoad k) l) s = .next t ∧ (t.ctxs.get k.val).st = (s.ctxs.get k.val).prev ∧
      s.Counts t Reg.CTX.REFUSALS ∧ ({ s with ctxs := t.ctxs } : State).ReportsOnly t)) ∧
  (∀ (s : State) (cls : Fin 16) (scope : Fin 9) (reason : Fin 256) (action : Fin 9) (block inst u addr count : Nat), inst < instancesOf block →
    ∃ t, exec (.faultRecord cls scope reason action block inst u addr count) s = .next t ∧ t.flt.seq = s.flt.seq + 1 ∧
      t.rd (Reg.COMMON.FLT_CLASS.on block) inst = cls.val ∧ (action.val = 5 → t.rd Reg.LEDG.ALERT_PEND = 1) ∧ s.ReportsOnly t) ∧
  (∀ (s : State) (src : Source), s.Takes src true →
    (∃ t, exec (.alertPendClear src true) s = .next t ∧ t.rd Reg.LEDG.ALERT_PEND = 0 ∧ t = { s with regs := t.regs, sec := t.sec }) ∧
    (∃ t, exec (.alertPendClear src false) s = .next t ∧ t.rd Reg.LEDG.ALERT_PEND = s.rd Reg.LEDG.ALERT_PEND ∧ t = { s with regs := t.regs, sec := t.sec })) ∧
  (∀ (s : State) (j : LedgerSubj) (u : Nat) (d : Int) (e x : Nat), breakUnits j ≤ u → exec (.ledgerBreak j u d e x) s = .next s) ∧
  (∀ (s : State) (j : LedgerSubj) (u : Nat) (d : Int) (e x : Nat), u < breakUnits j → s.act Reg.LEDG.NO_BREAK_ACT = 1 →
    ∃ t, exec (.ledgerBreak j u d e x) s = .next t ∧ s.Counts t Reg.LEDG.BREAKS ∧ t.rd Reg.LEDG.BRK_SUBJ = subjCode j ∧
      t.rd Reg.LEDG.BREAK_DELTA = ofSigned 64 d ∧ s.ReportsOnly t) ∧
  (∀ (s : State) (u : Nat) (d : Int) (e x : Nat), s.act Reg.LEDG.NO_BREAK_ACT = 0 →
    (u < 16 → ∃ t, exec (.ledgerBreak .lane u d e x) s = .next t ∧ (t.lanes.get u).pass = true ∧ (∀ k, k ≠ u → t.lanes.get k = s.lanes.get k) ∧
      ({ s with lanes := t.lanes } : State).ReportsOnly t) ∧
    (u < 256 → ∃ t, exec (.ledgerBreak .egress u d e x) s = .next t ∧ s.Counts t Reg.LEDG.BREAKS ∧ s.ReportsOnly t) ∧
    (s.devSafe = false → ∃ t, exec (.ledgerBreak .census 0 d e x) s = .next t ∧ t.devSafe = true) ∧
    (∃ t, exec (.ledgerBreak .injection 0 d e x) s = .next t ∧ t.rd Reg.HQ.INJ_EN = 0 ∧ ({ s with acting := t.acting } : State).ReportsOnly t)) ∧
  (∀ s : State, (∀ u, s.viewsDiffer u = false) → exec .stateCompare s = .next s) ∧
  (∀ (s : State) (u : Unit7), s.flt.dmc.keys = [Unit7.code u] → s.flt.wd = [] → s.lanes = [] → s.flocks = [] → s.viewsDiffer u = true →
    s.flt.disputed.contains (Unit7.code u) = false →
    ∃ t, exec .stateCompare s = .next t ∧ s.Queued t (.unitOut (Unit7.code u)) ∧ s.Counts t Reg.LEDG.DISPUTES ∧ ({ s with acts := t.acts } : State).ReportsOnly t) ∧
  (∀ (s : State) (k : DisputeKind) (u : Unit7), (k = .enable → s.viewsDiffer u = true) → (k ≠ .enable → s.isOut u = false) →
    (k = .silent → s.flt.dmc.get (Unit7.code u) = .inService) →
    ∃ t, exec (.stateDispute k u) s = .next t ∧ s.Queued t (.unitOut (Unit7.code u)) ∧ s.Counts t Reg.LEDG.DISPUTES ∧ Unit7.code u ∈ t.flt.disputed ∧
      ({ s with acts := t.acts } : State).ReportsOnly t) ∧
  (∀ (s : State) (u : Unit7), s.isOut u = true → exec (.stateDispute .health u) s = .next s ∧ exec (.stateDispute .silent u) s = .next s) ∧
  (∀ (s : State) (u : Unit7), s.viewsDiffer u = false → exec (.stateDispute .enable u) s = .next s) ∧
  (∀ s : State, s.devSafe = false → ∃ t, exec .dmcHeartbeatLoss s = .next t ∧ s.Queued t (.devSafe true) ∧ ({ s with acts := t.acts } : State).ReportsOnly t) ∧
  (∀ s : State, s.devSafe = true → exec .dmcHeartbeatLoss s = .next s) ∧
  (∀ (s : State) (src : Source) (v : Bool), s.TakesExpert src →
    ∃ t, exec (.noBreakAct src v) s = .next t ∧ t.rd Reg.LEDG.NO_BREAK_ACT = b2n v ∧ s.WriteOnly t) ∧
  (∀ (s : State) (src : Source) (v : Fin 16), s.TakesExpert src → ∃ t, exec (.breakInj src v) s = .next t ∧ t.flt.breakForce = some v.val ∧ s.WriteOnly t) ∧
  (∀ (s : State) (src : Source) (n : Hbmc), s.TakesExpert src →
    ∃ t, exec (.eccInj src n) s = .next t ∧ t.flt.eccInj.get n.val = true ∧ (∀ k, k ≠ n.val → t.flt.eccInj.get k = s.flt.eccInj.get k ∨ t.flt.eccInj.get k = false) ∧
      s.WriteOnly t)

/-- Re-tests, unit resets, the rehash and availability (R306 to R308, R312 to R316). A re-test starts for a unit that is out of service, and its pass readmits the
unit at the next boundary. A lane in pass mode and a withdrawn flock may be reset; the flock's memories are cleared. A rehash takes one step every REHASH_PACE
beats and ends after the last step or at a stop. The availability counts go to flash every 2^33 beats. Where a clause leaves the state as it is because the event cannot come, that is the model's choice (assumption 1); so are its readings in assumptions 55, 68 and 192. -/
def Obligations.RetestAndRehashCommands : Prop :=
  (∀ (s : State) (src : Source) (u : Unit7), s.Takes src → unitOf (s.rd Reg.LEDG.RETEST_KIND) (s.rd Reg.LEDG.RETEST_UNIT) = some u → s.rd Reg.LEDG.RETEST_STATE ≠ 1 →
    s.isOut u = true →
    ∃ t, exec (.retestGo src) s = .next t ∧ t.rd Reg.LEDG.RETEST_STATE = 1 ∧ t.flt.retest = some (Unit7.code u) ∧ t.flt.dmc.get (Unit7.code u) = .underTest ∧
      t.rd Reg.LEDG.RETEST_REFUSED = 0 ∧ s.WriteOnly t) ∧
  (∀ (s : State) (src : Source), s.Takes src → (s.rd Reg.LEDG.RETEST_STATE = 1 ∨ unitOf (s.rd Reg.LEDG.RETEST_KIND) (s.rd Reg.LEDG.RETEST_UNIT) = none) →
    ∃ t, exec (.retestGo src) s = .next t ∧ t.rd Reg.LEDG.RETEST_REFUSED = 1 ∧ t.flt.retest = s.flt.retest ∧ s.WriteOnly t) ∧
  (∀ (s : State) (u : Unit7), s.flt.retest = some (Unit7.code u) →
    (∃ t, exec (.retestEnd true) s = .next t ∧ t.rd Reg.LEDG.RETEST_STATE = 2 ∧ s.Queued t (.readmit (Unit7.code u)) ∧ t.flt.retest = none ∧
      ({ s with acts := t.acts } : State).ReportsOnly t) ∧
    (∃ t, exec (.retestEnd false) s = .next t ∧ t.rd Reg.LEDG.RETEST_STATE = 3 ∧ t.flt.dmc.get (Unit7.code u) = .withdrawn ∧ t.flt.retest = none ∧ s.ReportsOnly t)) ∧
  (∀ (s : State) (b : Bool), s.flt.retest = none → exec (.retestEnd b) s = .next s) ∧
  (∀ (s : State) (src : Source) (l : Lane), s.Takes src → s.rd Reg.LEDG.RST_STATE ≠ 1 → (s.lanes.get l.val).pass = true →
    ∃ t, exec (.laneReset src l) s = .next t ∧ s.Queued t (.laneRst l.val true) ∧ t.rd Reg.LEDG.RST_STATE = 1 ∧ t.rd Reg.LEDG.RST_REFUSED = 0 ∧
      t.flt.rst = some (1, l.val) ∧ s.WriteLater t) ∧
  (∀ (s : State) (src : Source) (l : Lane), s.Takes src → (s.rd Reg.LEDG.RST_STATE = 1 ∨ (s.lanes.get l.val).pass = false) →
    ∃ t, exec (.laneReset src l) s = .next t ∧ t.rd Reg.LEDG.RST_REFUSED = 1 ∧ t.flt.rst = s.flt.rst ∧ s.WriteOnly t) ∧
  (∀ (s : State) (l : Lane) (b : Bool), s.flt.rst = some (1, l.val) → (s.lanes.get l.val).resetting = true → (s.lanes.get l.val).resident = 0 →
    ∃ t, exec (.laneResetDrained b) s = .next t ∧ t.flt.rst = none ∧ t.rd Reg.LEDG.RST_STATE = (if b then 2 else 3) ∧ .laneRst l.val false ∈ t.acts ∧
      (b = true → s.flt.disputed.contains (65536 + l.val) = false → t.acts = s.acts ++ [.readmit (65536 + l.val), .laneRst l.val false]) ∧
      (b = false → t.flt.dmc.get (65536 + l.val) = .withdrawn) ∧ ({ s with fcores := t.fcores, acts := t.acts } : State).ReportsOnly t) ∧
  (∀ (s : State) (l : Lane) (b : Bool), s.flt.rst = some (1, l.val) → (s.lanes.get l.val).resident ≠ 0 → exec (.laneResetDrained b) s = .next s) ∧
  (∀ (s : State) (src : Source) (f : Flock) (b : Bool), s.Takes src → s.rd Reg.LEDG.RST_STATE ≠ 1 → (s.flocks.get f.val).withdrawn = true →
    ∃ t, exec (.flockReset src f b) s = .next t ∧ t.rd Reg.LEDG.RST_STATE = (if b then 2 else 3) ∧ (∀ a, a / 16777216 = f.val → Mem.read t.arr.mem a = 0) ∧
      (∀ a, a / 16777216 ≠ f.val → Mem.read t.arr.mem a = Mem.read s.arr.mem a) ∧
      (b = true → s.flt.disputed.contains (131072 + f.val) = false → s.Queued t (.readmit (131072 + f.val))) ∧ t.pkts = s.pkts ∧ t.flocks = s.flocks) ∧
  (∀ (s : State) (src : Source) (f : Flock) (b : Bool), s.Takes src → (s.flocks.get f.val).withdrawn = false →
    ∃ t, exec (.flockReset src f b) s = .next t ∧ t.rd Reg.LEDG.RST_REFUSED = 1 ∧ s.WriteOnly t) ∧
  (∀ (s : State) (src : Source), s.Takes src → s.rd Reg.FLOW.REHASH_RUN = 0 →
    ∃ t, exec (.rehashGo src) s = .next t ∧ t.rd Reg.FLOW.REHASH_RUN = 1 ∧ t.rd Reg.FLOW.REHASH_STEP = 0 ∧ t.flow = { s.flow with rehashAt := s.time.beat + 1, journal := none } ∧
      ({ s with flow := t.flow } : State).WriteOnly t) ∧
  (∀ (s : State) (src : Source), s.Takes src → s.rd Reg.FLOW.REHASH_RUN = 1 →
    (∃ t, exec (.rehashGo src) s = .next t ∧ s.WriteOnly t) ∧
    (∃ t, exec (.rehashStop src) s = .next t ∧ t.rd Reg.FLOW.REHASH_RUN = 0 ∧ t.flow = { s.flow with journal := none } ∧ ({ s with flow := t.flow } : State).WriteOnly t)) ∧
  (∀ s : State, (s.rd Reg.FLOW.REHASH_RUN = 0 ∨ s.time.beat < s.flow.rehashAt) → exec .rehashStep s = .next s) ∧
  (∀ s : State, s.rd Reg.FLOW.REHASH_RUN = 1 → s.flow.rehashAt ≤ s.time.beat → s.herd.cut = false → s.rd Reg.FLOW.REHASH_STEP < 524287 →
    ∃ t, exec .rehashStep s = .next t ∧ t.rd Reg.FLOW.REHASH_STEP = s.rd Reg.FLOW.REHASH_STEP + 1 ∧ t.time = s.time) ∧
  (∀ s : State, s.rd Reg.FLOW.REHASH_RUN = 1 → s.flow.rehashAt ≤ s.time.beat → s.herd.cut = false → s.rd Reg.FLOW.REHASH_STEP = 524287 →
    ∃ t, exec .rehashStep s = .next t ∧ t.rd Reg.FLOW.REHASH_RUN = 0 ∧ t.flow.journal = none) ∧
  (∀ s : State, s.time.beat % 2 ^ 33 ≠ 0 → exec .availabilitySave s = .next s) ∧
  (∀ s : State, s.time.beat % 2 ^ 33 = 0 → ∃ t, exec .availabilitySave s = .next t ∧ t.flt = { s.flt with flashAv := t.avRegs } ∧ t = { s with regs := t.regs, flt := t.flt })

/-- Resets (R309, R310, R334, R335, R384). RESET_N acts at once and stops the data path; a request needs its key and, while the data path runs, waits for the
boundary; a requested warm reset keeps the beat count and is counted; power loss is a cold reset; after a warm reset the revalidation comes, and then service
resumes without a START. Where a clause leaves the state as it is because the event cannot come, that is the model's choice (assumption 1); so are its readings in assumptions 11 and 235. -/
def Obligations.ResetCommands : Prop :=
  (∀ s : State, s.sec.pwrGood = true → s.sec.resetN = true →
    ∃ t, exec .resetNLow s = .next t ∧ t.sec.resetN = false ∧ t.sec.booting = false ∧ t.time.started = false ∧ t.rd Reg.DEV.RESET_CAUSE = 3 ∧ t.auth = {} ∧ t.pkts = [] ∧
      t.pending = s.pending) ∧
  (∀ s : State, (s.sec.pwrGood = false ∨ s.sec.resetN = false) → exec .resetNLow s = .next s) ∧
  (∀ s : State, s.sec.resetN = false → exec .resetNRelease s = .next { s with sec := { s.sec with resetN := true, booting := s.sec.pwrGood } }) ∧
  (∀ s : State, s.sec.resetN = true → exec .resetNRelease s = .next s) ∧
  (∀ (s : State) (src : Source) (k : BitVec 16), s.sec.pwrGood = true → s.sec.resetN = true → s.mayWrite src true = true → k ≠ 0x5253#16 →
    (∃ t, exec (.warmRequest src k) s = .next t ∧ t.sec.reqReset = s.sec.reqReset ∧ s.WriteOnly t) ∧
    (∃ t, exec (.coldRequest src k) s = .next t ∧ t.sec.reqReset = s.sec.reqReset ∧ s.WriteOnly t)) ∧
  (∀ (s : State) (src : Source), s.sec.pwrGood = true → s.sec.resetN = true → s.mayWrite src true = true → s.Runs →
    (s.sec.reqReset = none → ∃ t, exec (.warmRequest src 0x5253#16) s = .next t ∧ t.sec.reqReset = some false ∧ t.sec.reqBeat = s.time.beat ∧ s.WriteOnly t) ∧
    (s.sec.reqReset ≠ none → ∃ t, exec (.warmRequest src 0x5253#16) s = .next t ∧ t.sec.reqReset = s.sec.reqReset ∧ s.WriteOnly t) ∧
    (∃ t, exec (.coldRequest src 0x5253#16) s = .next t ∧ t.sec.reqReset = some true ∧ t.sec.reqBeat = s.time.beat ∧ s.WriteOnly t)) ∧
  (∀ (s : State) (src : Source), s.sec.pwrGood = true → s.sec.resetN = true → s.mayWrite src true = true → s.time.started = false → s.sec.reqReset = none →
    (∃ t, exec (.warmRequest src 0x5253#16) s = .next t ∧ t.rd Reg.DEV.RESET_CAUSE = 4 ∧ t.sec.booting = true ∧ t.auth = {}) ∧
    (∃ t, exec (.coldRequest src 0x5253#16) s = .next t ∧ t.rd Reg.DEV.RESET_CAUSE = 5 ∧ t.sec.booting = true ∧ t.auth = {})) ∧
  (∀ s : State, s.sec.reqReset = some false → s.Runs → s.sec.reqBeat < s.time.beat →
    ∃ t, exec .warmReset s = .next t ∧ t.time.started = false ∧ t.time.beat = s.time.beat ∧ t.sec.warm = true ∧ t.sec.booting = true ∧ t.rd Reg.DEV.RESET_CAUSE = 4 ∧
      s.Counts t Reg.DEV.WARM_RESETS ∧ t.rd Reg.LEDG.RESET_LOST = s.residentNow % 2 ^ Reg.LEDG.RESET_LOST.width ∧ t.pkts = [] ∧ t.auth = {} ∧ t.pending = s.pending) ∧
  (∀ s : State, (s.sec.reqReset ≠ some false ∨ s.time.beat ≤ s.sec.reqBeat) → exec .warmReset s = .next s) ∧
  (∀ s : State, s.sec.warm = true → s.sec.reval = false → s.rd Reg.DEV.STAGE = 4 → ∃ t, exec .revalidation s = .next t ∧ t.sec.reval = true ∧ t.flt.jFail = []) ∧
  (∀ s : State, (s.sec.warm = false ∨ s.rd Reg.DEV.STAGE ≠ 4) → exec .revalidation s = .next s) ∧
  (∀ s : State, s.sec.warm = true → s.sec.reval = true →
    ∃ t, exec .serviceResume s = .next t ∧ t.time = { s.time with started := true } ∧ t.rd Reg.DEV.STAGE = 5 ∧ t.sec = { s.sec with warm := false, reval := false } ∧
      t.pkts = s.pkts ∧ t.cls = s.cls ∧ t.ctxs = s.ctxs) ∧
  (∀ s : State, (s.sec.warm = false ∨ s.sec.reval = false) → exec .serviceResume s = .next s) ∧
  (∀ s : State, ∃ t, exec .pwrGoodLow s = .next t ∧ t.sec.pwrGood = false ∧ t.sec.booting = false ∧ t.rd Reg.DEV.RESET_CAUSE = 2 ∧ t.time = State.reset.time ∧ t.auth = {} ∧
    t.pkts = [] ∧ t.ctxs = [] ∧ t.cls = State.reset.cls ∧ t.pending = s.pending) ∧
  (∀ (s : State) (b : Fin 4) (c h : Bool), s.sec.pwrGood = false →
    ∃ t, exec (.pwrGoodRise b c h) s = .next t ∧ t.sec = { s.sec with pwrGood := true, bootSrc := b.val, compat := c, herdEn := h, booting := s.sec.resetN } ∧
      t = { s with regs := t.regs, sec := t.sec } ∧ (s.rd Reg.DEV.RESET_CAUSE = 0 → t.rd Reg.DEV.RESET_CAUSE = 1)) ∧
  (∀ (s : State) (b : Fin 4) (c h : Bool), s.sec.pwrGood = true → exec (.pwrGoodRise b c h) s = .next s)

/-- Boot and START (R334 to R340). ROM selects a valid image and goes on; without one the boot fails. The built-in tests withdraw what fails; in stage READY the pages open,
and START makes the packet path run. A firmware update is checked, then written into the bank that does not run. Where a clause leaves the state as it is because the event cannot come, that is the model's choice (assumption 1); so are its readings in assumptions 11 and 215. -/
def Obligations.BootCommands : Prop :=
  (∀ (s : State) (bank : Nat) (img : List Byte), s.inStage 1 = true → s.bootImage = some (bank, img) →
    ∃ t, exec .stageFirmware s = .next t ∧ t.rd Reg.DEV.STAGE = 2 ∧ t.sec.running = some img ∧ t.rd Reg.SEC.BANK = bank ∧ t.sec.domain = s.ledgerValue 2 ∧
      t.sec.owner = s.ledgerValue 6 ∧ (s.sec.warm = false → t.sec.level = s.coldLevel) ∧ t = { s with regs := t.regs, host := t.host, sec := t.sec }) ∧
  (∀ s : State, (s.inStage 1 = false ∨ s.bootImage = none) → exec .stageFirmware s = .next s) ∧
  (∀ s : State, s.inStage 1 = true → s.bootImage = none →
    ∃ t, exec .bootFail s = .next t ∧ t.rd Reg.DEV.STAGE = 7 ∧ t.rd Reg.SEC.BOOT_WHY_A = s.bankWhy s.sec.bankA ∧ t.rd Reg.SEC.BOOT_WHY_B = s.bankWhy s.sec.bankB ∧
      t = { s with regs := t.regs, host := t.host }) ∧
  (∀ s : State, s.bootImage.isSome = true → exec .bootFail s = .next s) ∧
  (∀ (s : State) (img : List Byte), s.inStage 1 = true → (s.sec.bootSrc = 1 ∨ s.sec.bootSrc = 2) → s.fwCheck img = 0 →
    exec (.recoveryImage img) s = .next { s with sec := { s.sec with recovery := some img } }) ∧
  (∀ (s : State) (img : List Byte), s.fwCheck img ≠ 0 → exec (.recoveryImage img) s = .next s) ∧
  (∀ s : State, s.inStage 2 = true →
    (∃ t, exec (.stageCapability []) s = .next t ∧ t.rd Reg.DEV.STAGE = 3 ∧ t = { s with regs := t.regs, host := t.host }) ∧
    (∀ l : Lane, ∃ t, exec (.stageCapability [.lane l]) s = .next t ∧ t.rd Reg.DEV.STAGE = 3 ∧ (t.lanes.get l.val).pass = true) ∧
    (∀ us, ∃ t, exec (.stageCapability us) s = .next t)) ∧
  (∀ (s : State) (us : List Unit7), s.inStage 2 = false → exec (.stageCapability us) s = .next s) ∧
  (∀ s : State, s.inStage 3 = true → ∃ t, exec .stageReady s = .next t ∧ t.rd Reg.DEV.STAGE = 4 ∧ t.pagesOpen = true ∧ t.sec = { s.sec with booting := false } ∧
    t.flt.tripRecord = false) ∧
  (∀ s : State, s.inStage 3 = false → exec .stageReady s = .next s) ∧
  (∀ (s : State) (src : Source), s.Takes src true → s.rd Reg.DEV.STAGE = 4 → s.sec.warm = false →
    ∃ t, exec (.start src) s = .next t ∧ t.time.started = true ∧ t.rd Reg.DEV.STAGE = 5) ∧
  (∀ (s : State) (src : Source), s.Takes src true → (s.rd Reg.DEV.STAGE ≠ 4 ∨ s.sec.warm = true) → ∃ t, exec (.start src) s = .next t ∧ s.WriteOnly t) ∧
  (∀ (s : State) (src : Source), s.Takes src true → s.sec.fwPend = none →
    (s.inRegion 3 (s.rd Reg.SEC.FW_ADDR) (s.rd Reg.SEC.FW_LEN) = false → ∃ t, exec (.fwGo src) s = .next t ∧ t.rd Reg.SEC.FW_RESULT = 9 ∧ t.sec.fwPend = none ∧ s.WriteOnly t) ∧
    (s.inRegion 3 (s.rd Reg.SEC.FW_ADDR) (s.rd Reg.SEC.FW_LEN) = true → ∀ img, img = Mem.readN s.hbm (s.rd Reg.SEC.FW_ADDR) (s.rd Reg.SEC.FW_LEN) →
      (s.fwCheck img ≠ 0 → ∃ t, exec (.fwGo src) s = .next t ∧ t.rd Reg.SEC.FW_RESULT = s.fwCheck img ∧ t.sec.fwPend = none ∧ s.WriteOnly t) ∧
      (s.fwCheck img = 0 → ∃ t, exec (.fwGo src) s = .next t ∧ t.sec.fwPend = some (s.rd Reg.SEC.BANK == 0, img) ∧ s.WriteOnly t))) ∧
  (∀ (s : State) (src : Source), s.Takes src true → s.sec.fwPend.isSome = true → ∃ t, exec (.fwGo src) s = .next t ∧ t.sec.fwPend = s.sec.fwPend ∧ s.WriteOnly t) ∧
  (∀ (s : State) (img : List Byte), s.sec.fwPend = some (true, img) →
    ∃ t, exec .fwWriteEnd s = .next t ∧ t.sec = { s.sec with bankB := { img := img, order := s.sec.writes + 1 }, fwPend := none, writes := s.sec.writes + 1 } ∧
      t.rd Reg.SEC.FW_RESULT = 0 ∧ t = { s with regs := t.regs, host := t.host, sec := t.sec }) ∧
  (∀ (s : State) (img : List Byte), s.sec.fwPend = some (false, img) →
    ∃ t, exec .fwWriteEnd s = .next t ∧ t.sec = { s.sec with bankA := { img := img, order := s.sec.writes + 1 }, fwPend := none, writes := s.sec.writes + 1 } ∧
      t.rd Reg.SEC.FW_RESULT = 0 ∧ t = { s with regs := t.regs, host := t.host, sec := t.sec }) ∧
  (∀ s : State, s.sec.fwPend = none → exec .fwWriteEnd s = .next s)

/-- The settings ledger and debug tokens (R345 to R348, R350 to R352). A ledger message that passes its checks is written as one record behind the slot's others; a torn
record is not committed. A token that passes its checks is in effect, at once before START and at the boundary after it; it ends by expiry or by DBG_REVOKE,
and takes the unlock with it. Where a clause leaves the state as it is because the event cannot come, that is the model's choice (assumption 1); so are its readings in assumptions 11, 71, 199 and 263. -/
def Obligations.LedgerAndTokenCommands : Prop :=
  (∀ (s : State) (src : Source) (msg pub : List Byte), s.Takes src true → msg = s.regBytes Reg.SET.MSG → pub = s.regBytes Reg.SET.PUBKEY →
    (s.ledgerCheck msg pub (s.regBytes Reg.SET.SIG) ≠ 0 → ∃ t, exec (.ledgerWrite src) s = .next t ∧
      t.rd Reg.SET.RESULT = s.ledgerCheck msg pub (s.regBytes Reg.SET.SIG) ∧ t.sec.setPend = s.sec.setPend ∧ s.WriteOnly t) ∧
    (s.ledgerCheck msg pub (s.regBytes Reg.SET.SIG) = 0 → ∃ t r, exec (.ledgerWrite src) s = .next t ∧ t.sec.setPend = some (leAt msg 4 1, r) ∧
      r.value = slice msg 16 (slotLen (leAt msg 4 1)) ∧ r.beat = s.time.beat ∧ r.signer = (Config.sha384 pub).take 8 ∧ r.committed = true ∧ s.WriteOnly t)) ∧
  (∀ (s : State) (torn : Bool) (slot : Nat) (r : LedRec), s.sec.setPend = some (slot, r) →
    ∃ t, exec (.ledgerWriteEnd torn) s = .next t ∧ t.sec.setPend = none ∧ t.sec.slots.get slot = s.sec.slots.get slot ++ [{ r with committed := !torn }] ∧
      (∀ k, k ≠ slot → t.sec.slots.get k = s.sec.slots.get k) ∧ (torn = false → t.rd Reg.SET.RESULT = 0) ∧ t = { s with regs := t.regs, host := t.host, sec := t.sec }) ∧
  (∀ (s : State) (torn : Bool), s.sec.setPend = none → exec (.ledgerWriteEnd torn) s = .next s) ∧
  (∀ (s : State) (src : Source) (tok pub : List Byte), s.Takes src true → tok = s.regBytes Reg.SEC.DBG_TOKEN → pub = s.regBytes Reg.SEC.DBG_PUBKEY →
    (s.tokenCheck tok pub ≠ 0 → ∃ t, exec (.dbgGo src) s = .next t ∧ t.rd Reg.SEC.DBG_RESULT = s.tokenCheck tok pub ∧ s.WriteOnly t) ∧
    (s.tokenCheck tok pub = 0 → s.time.started = false → ∃ t, exec (.dbgGo src) s = .next t ∧ t.rd Reg.SEC.DBG_RESULT = 0 ∧
      t.auth = { token := some { perms := leAt tok 4 4, expiry := leAt tok 24 8, flocks := BitVec.ofNat 256 (leAt tok 32 32) } } ∧
      ({ s with auth := t.auth, flocks := t.flocks } : State).WriteOnly t) ∧
    (s.tokenCheck tok pub = 0 → s.time.started = true → ∃ t, exec (.dbgGo src) s = .next t ∧ s.WriteLater t ∧
      s.Queued t (.tokenStart { perms := leAt tok 4 4, expiry := leAt tok 24 8, flocks := BitVec.ofNat 256 (leAt tok 32 32) } false))) ∧
  (∀ (s : State) (src : Source), s.Takes src true → s.time.started = true → ∃ t, exec (.dbgRevoke src) s = .next t ∧ s.Queued t .tokenEnd ∧ s.WriteLater t) ∧
  (∀ (s : State) (src : Source), s.Takes src true → s.time.started = false → s.auth.token.isSome = true →
    ∃ t, exec (.dbgRevoke src) s = .next t ∧ t.auth = {} ∧ t.sec.jtag = false ∧ (∀ f, (t.flocks.get f).debug = false) ∧
      ({ s with auth := t.auth, flocks := t.flocks } : State).WriteOnly t) ∧
  (∀ (s : State) (k : Token), s.auth.token = some k → k.expiry ≤ s.time.beat →
    ∃ t, exec .tokenExpiry s = .next t ∧ t.auth = {} ∧ t.sec = { s.sec with jtag := false, unlock := none } ∧
      t = { s with regs := t.regs, host := t.host, flocks := t.flocks, sec := t.sec, auth := t.auth }) ∧
  (∀ s : State, (∀ k, s.auth.token = some k → s.time.beat < k.expiry) → exec .tokenExpiry s = .next s) ∧
  (∀ (s : State) (token pubkey : List Word) (tok pub : List Byte), s.pagesOpen = true → s.time.started = false →
    tok = (token.flatMap (fun w => leBytes 4 w.toNat)).take 160 → pub = (pubkey.flatMap (fun w => leBytes 4 w.toNat)).take 96 →
    (s.tokenCheck tok pub = 0 → ∃ t, exec (.jtagMailbox token pubkey) s = .next t ∧
      t.auth.token = some { perms := leAt tok 4 4, expiry := leAt tok 24 8, flocks := BitVec.ofNat 256 (leAt tok 32 32) } ∧
      t.sec.jtag = (bits (leAt tok 4 4) 3 1 == 1)) ∧
    (s.tokenCheck tok pub ≠ 0 → ∃ t, exec (.jtagMailbox token pubkey) s = .next t ∧ t.rd Reg.SEC.DBG_RESULT = s.tokenCheck tok pub ∧ s.ReportsOnly t)) ∧
  (∀ (s : State) (token pubkey : List Word), s.pagesOpen = false → exec (.jtagMailbox token pubkey) s = .next s)

/-- Calibration, adaptation, ageing and the environment (R220, R295, R318 to R321, R326 to R333, R391, R394, R399). A record that passes its checks is written in one
flash write, which consumes a count even when torn. An adaptation step of a lane that is not frozen is counted, and the lane's next comes 1,024 cycles later. An island's reading shows its slack, its ring
oscillator and its ceiling; without a hold the planner steps the voltage; a failing edge tap is a dispute. The forecast takes one interval's ceilings. A lost clock
and a critical reading put the device in its safe state at the next boundary. Where a clause leaves the state as it is because the event cannot come, that is the model's choice (assumption 1); so are its readings in assumptions 72, 222, 223 and 286. -/
def Obligations.CalibrationAndAgeingCommands : Prop :=
  (∀ (s : State) (src : Source) (i : Nat) (v : Word), s.Takes src → i = s.rd Reg.CAL.CAL_SEL → v = BitVec.ofNat 32 (s.rd Reg.CAL.CAL_NEW) → s.cal.pend = none →
    (s.calCheck i v false = 0 → ∃ t, exec (.calWrite src) s = .next t ∧ t.cal = { s.cal with pend := some (i, v) } ∧ ({ s with cal := t.cal } : State).WriteOnly t) ∧
    (s.calCheck i v false ≠ 0 → ∃ t, exec (.calWrite src) s = .next t ∧ t.rd Reg.CAL.CAL_RESULT = s.calCheck i v false ∧ s.WriteOnly t) ∧
    (s.auth.unlocked = true → s.calCheck i v true = 0 →
      ∃ t, exec (.calForce src) s = .next t ∧ t.cal = { s.cal with pend := some (i, v) } ∧ ({ s with cal := t.cal } : State).WriteOnly t)) ∧
  (∀ (s : State) (src : Source), s.Takes src → (s.auth.unlocked = false → ∃ t, exec (.calForce src) s = .next t ∧ s.WriteOnly t) ∧
    (s.cal.pend.isSome = true → ∃ t, exec (.calWrite src) s = .next t ∧ s.WriteOnly t)) ∧
  (∀ (s : State) (i : Nat) (v : Word), s.cal.pend = some (i, v) →
    (∃ t, exec (.calWriteEnd false) s = .next t ∧ t.calRec i = { value := v, factory := false, count := (s.calRec i).count + 1 } ∧ t.cal.pend = none ∧
      (∀ k, k ≠ i → t.calRec k = s.calRec k) ∧ t.rd Reg.CAL.CAL_RESULT = 0 ∧ t = { s with regs := t.regs, host := t.host, cal := t.cal }) ∧
    (∃ t, exec (.calWriteEnd true) s = .next t ∧ ((t.calRec i).value = v ∨ (t.calRec i).value = (s.calRec i).value) ∧ (t.calRec i).count = (s.calRec i).count + 1 ∧
      t.cal.pend = none ∧ (∀ k, k ≠ i → t.calRec k = s.calRec k))) ∧
  (∀ (s : State) (torn : Bool), s.cal.pend = none → exec (.calWriteEnd torn) s = .next s) ∧
  (∀ (s : State) (h : Bool) (l : Fin 96) (b : Bool), (s.frozen h l.val = true ∨ s.now < s.cal.adaptAt.get (if h then 64 + l.val else l.val)) →
    exec (.adaptStep h l b) s = .next s) ∧
  (∀ (s : State) (h : Bool) (l : Fin 96) (b : Bool), s.frozen h l.val = false → (h = false → l.val < 64) →
    s.cal.adaptAt.get (if h then 64 + l.val else l.val) ≤ s.now →
    ∃ t, exec (.adaptStep h l b) s = .next t ∧ s.Counts t Reg.CAL.ADAPT_STEPS ∧ (h = false → b = true → t.rd Reg.CAL.ADAPT_AT_LIMIT 0 l.val = 1) ∧
      (h = true → b = true → bits (t.rd Reg.CAL.HERD_EYE 0 l.val) 16 1 = 1) ∧
      t.cal = { s.cal with adaptAt := s.cal.adaptAt.set (if h then 64 + l.val else l.val) (s.now + 1024) } ∧ t = { s with regs := t.regs, cal := t.cal }) ∧
  (∀ (s : State) (h : Bool) (l : Fin 96) (x y : BitVec 8), s.time.beat % 65536 ≠ 0 → exec (.eyeUpdate h l x y) s = .next s) ∧
  (∀ (s : State) (l : Fin 96) (x y : BitVec 8), s.time.beat % 65536 = 0 →
    (l.val < 64 → ∃ t, exec (.eyeUpdate false l x y) s = .next t ∧ t.rd Reg.CAL.EYE_H 0 l.val = x.toNat ∧ t.rd Reg.CAL.EYE_V 0 l.val = y.toNat ∧
      s.OnlyFields t [Reg.CAL.EYE_H.key 0 l.val 0, Reg.CAL.EYE_V.key 0 l.val 0]) ∧
    (∃ t, exec (.eyeUpdate true l x y) s = .next t ∧ t.rd Reg.CAL.HERD_EYE 0 l.val % 65536 = x.toNat + 256 * y.toNat ∧ s.OnlyFields t [Reg.CAL.HERD_EYE.key 0 l.val 0])) ∧
  (∀ (s : State) (i : Fin 320) (slack : Int) (ro ceil : BitVec 16) (e : Bool), (sensorIsland i.val = false ∨ s.time.beat % 2 ^ 20 ≠ 4 * i.val ∨ s.cal.readAt = s.time.beat + 1) →
    exec (.sensorReading i slack ro ceil e) s = .next s) ∧
  (∀ (s : State) (i : Fin 320) (slack : Int) (ro ceil : BitVec 16), sensorIsland i.val = true → s.time.beat % 2 ^ 20 = 4 * i.val →
    s.cal.readAt ≠ s.time.beat + 1 →
    ∃ t, exec (.sensorReading i slack ro ceil false) s = .next t ∧ s.Counts t Reg.AGE.READINGS ∧ t.rd Reg.AGE.SLACK_PS 0 0 i.val = ofSigned 16 slack ∧
      t.rd Reg.AGE.RO_COUNT 0 0 i.val = ro.toNat ∧
      t.rd Reg.AGE.CEIL_MHZ 0 0 i.val = Nat.min (if 16 ≤ i.val ∧ i.val ≤ 23 then 2400 else 1200) ceil.toNat ∧ t = { s with regs := t.regs, flocks := t.flocks, cal := t.cal } ∧
      (s.act Reg.AGE.PLANNER_HOLD = 1 → t.rd Reg.AGE.VOLT_MV 0 0 i.val = s.rd Reg.AGE.VOLT_MV 0 0 i.val) ∧
      (s.act Reg.AGE.PLANNER_HOLD = 0 → i.val < 32 → t.rd Reg.AGE.VOLT_MV 0 0 i.val = nextVolt i.val (s.rd Reg.AGE.VOLT_MV 0 0 i.val) slack)) ∧
  (∀ (s : State) (i : Fin 320) (f : Flock) (slack : Int) (ro ceil : BitVec 16), i.val = 32 + f.val → s.time.beat % 2 ^ 20 = 4 * i.val →
    s.cal.readAt ≠ s.time.beat + 1 →
    s.rd Reg.AGE.ISL_STATE 0 0 i.val ≠ 3 → (s.flocks.get f.val).withdrawn = false →
    ∃ t, exec (.sensorReading i slack ro ceil true) s = .next t ∧ t.rd Reg.AGE.ISL_STATE 0 0 i.val = 3 ∧ s.Queued t (.unitOut (131072 + f.val)) ∧
      s.Counts t Reg.LEDG.DISPUTES) ∧
  (∀ s : State, (s.time.beat = 0 ∨ s.time.beat % 2 ^ 33 ≠ 0 ∨ s.cal.fcAt = s.time.beat + 1) → exec .forecast s = .next s) ∧
  (∀ s : State, s.time.beat ≠ 0 → s.time.beat % 2 ^ 33 = 0 → s.cal.fcAt ≠ s.time.beat + 1 →
    ∃ t, exec .forecast s = .next t ∧ ({ s with flocks := t.flocks, cal := t.cal } : State).ReportsOnly t ∧
      (∀ i, i < 288 → sensorIsland i = true → s.rd Reg.AGE.CEIL_MHZ 0 0 i ≠ 0 →
        t.cal.hist.find? i = some (((s.rd Reg.AGE.CEIL_MHZ 0 0 i : Int) :: s.cal.hist.get i).take 720))) ∧
  (∀ (s : State) (src : Source) (mv : BitVec 16) (en : Bool), s.TakesExpert src →
    ∃ t, exec (.voltOvr src mv en) s = .next t ∧ t.rd Reg.AGE.VOLT_OVR_MV 0 0 (s.rd Reg.AGE.ISL_SEL) = mv.toNat ∧
      t.rd Reg.AGE.VOLT_OVR_EN 0 0 (s.rd Reg.AGE.ISL_SEL) = b2n en ∧ s.WriteOnly t) ∧
  (∀ (s : State) (src : Source) (v : Bool), s.TakesExpert src → ∃ t, exec (.plannerHold src v) s = .next t ∧ t.rd Reg.AGE.PLANNER_HOLD = b2n v ∧ s.WriteOnly t) ∧
  (∀ (s : State) (n : Nat), ∃ t, exec (.envCritical n) s = .next t ∧ s.Queued t (.devSafe false) ∧ ({ s with acts := t.acts } : State).ReportsOnly t) ∧
  (∀ (s : State) (n : Nat), ∃ t, exec (.railExcursion n) s = .next t ∧ t.flt.seq = s.flt.seq + 1 ∧ s.ReportsOnly t) ∧
  (∀ (s : State) (k : RefClock), s.time.started = false → exec (.refclkFault k) s = .next s) ∧
  (∀ s : State, s.Runs →
    (∃ t, exec (.refclkFault .sys) s = .next t ∧ s.Queued t (.devSafe true) ∧ ({ s with acts := t.acts } : State).ReportsOnly t) ∧
    (∃ t, exec (.refclkFault .eth) s = .next t ∧ (∀ p : Port, t.linkUp p.val = false ∧ t.rx.get p.val = none) ∧ t.time = s.time) ∧
    (∃ t, exec (.refclkFault .hl) s = .next t ∧ (∀ p : HPort, s.linkState p.val = 4 → t.hlUp p.val = false) ∧ t.pkts = s.pkts ∧ t.time = s.time) ∧
    (s.host.lost = false → ∃ t, exec (.refclkFault .cxl) s = .next t ∧ t.host.lost = true ∧ s.Counts t Reg.CXL.HOST_LOSSES ∧ s.ReportsOnly t)) ∧
  (∀ s : State, exec .thermtrip s = .next { s with flt := { s.flt with tripped := true, tripRecord := true } })

/-- Observation and debug mode (R359 to R370). The sampler records once a beat; a record takes 64 bytes. A selector or a watch that passes its checks is armed, any other one
is refused with its reason. An item is written when it fits in the beat's budget, and waits else. A flock that the token names enters debug mode at the next
boundary; only there it can be halted or stepped, and only a halted flock takes a memory word. Where a clause leaves the state as it is because the event cannot come, that is the model's choice (assumption 1); so are its readings in assumptions 228, 229 and 231. -/
def Obligations.ObservationCommands : Prop :=
  (∀ s : State, s.obs.sampled = s.time.beat + 1 → exec .sample s = .next s) ∧
  (∀ s : State, s.obs.sampled ≠ s.time.beat + 1 → s.dueSels = [] → exec .sample s = .next { s with obs := { s.obs with sampled := s.time.beat + 1 } }) ∧
  (∀ (s : State) (n : Nat) (x : Sel), s.obs.sampled ≠ s.time.beat + 1 → s.dueSels = [(n, x)] → x.nrep = 1 → s.hqOff 4 = false →
    ∃ t b, exec .sample s = .next t ∧ b.length = 64 ∧ t.obs.new = s.obs.new ++ [{ q := 4, bytes := b, rank := n * 256 }] ∧
      t.obs.sseq.get n = (s.obs.sseq.get n + 1) % 2 ^ 32 ∧ t = { s with obs := t.obs }) ∧
  (∀ (s : State) (src : Source) (n : Nat) (x : Sel), s.Takes src → n = s.rd Reg.SAMP.SEL_SEL → n < 64 → x = s.selFields n →
    (x.result s.sec.level = 0 → ∃ t, exec (.selectorArm src) s = .next t ∧ s.Queued t (.selArm n x.nums) ∧ t.rd Reg.SAMP.SEL_RESULT 0 0 n = 0 ∧ s.WriteLater t) ∧
    (x.result s.sec.level ≠ 0 → ∃ t, exec (.selectorArm src) s = .next t ∧ t.rd Reg.SAMP.SEL_RESULT 0 0 n = x.result s.sec.level ∧ s.WriteOnly t)) ∧
  (∀ (s : State) (src : Source) (n : Nat) (c : ACoreId) (w : Watch), s.Takes src → n = s.rd Reg.SAMP.WATCH_SEL → n < 64 →
    c.flock.val = s.rd Reg.SAMP.W_FLOCK 0 0 n % 256 → c.cls = (if s.rd Reg.SAMP.W_CLASS 0 0 n = 1 then .bulk else .express) →
    c.core.val = s.rd Reg.SAMP.W_CORE 0 0 n % 16 →
    w = { ctx := s.rd Reg.SAMP.W_CTX 0 0 n, mv := s.rd Reg.SAMP.W_MV 0 0 n, core := c.num, instr := s.rd Reg.SAMP.W_INSTR 0 0 n, mode := s.rd Reg.SAMP.W_MODE 0 0 n,
          period := s.rd Reg.SAMP.W_PERIOD 0 0 n, armedAt := s.time.beat + b2n s.time.started } →
    (s.watchResult w c = 0 → ∃ t, exec (.wArm src) s = .next t ∧ t.watches.get n = some w ∧ (∀ k, k ≠ n → t.watches.find? k = s.watches.find? k) ∧
      t.rd Reg.SAMP.W_STATE 0 0 n = 1 ∧ ({ s with watches := t.watches } : State).WriteOnly t) ∧
    (s.watchResult w c ≠ 0 → ∃ t, exec (.wArm src) s = .next t ∧ t.rd Reg.SAMP.W_RESULT 0 0 n = s.watchResult w c ∧ s.WriteOnly t)) ∧
  (∀ (s : State) (src : Source), s.Takes src → ∃ t, exec (.wDisarm src) s = .next t ∧ s.Queued t (.watchOff (s.rd Reg.SAMP.WATCH_SEL)) ∧ s.WriteLater t) ∧
  (∀ s : State, s.devSafe = true → exec .observationWrite s = .next s) ∧
  (∀ (s : State) (it : ObsItem), s.devSafe = false → s.obs.wait = [] → s.obs.new = [it] → it.addr = 0 → it.q = 4 → it.done = 0 → s.hqOff 4 = false →
    s.act Reg.SAMP.FWD_EN = 0 → s.obs.spent ≤ s.act Reg.SAMP.CAP_BYTES →
    (it.bytes.length + 64 ≤ s.act Reg.SAMP.CAP_BYTES - s.obs.spent → ∃ t, exec .observationWrite s = .next t ∧ t.obs.new = [] ∧ t.obs.wait = [] ∧
      s.Counts t Reg.SAMP.RECORDS ∧ t.obs.spent = s.obs.spent + it.bytes.length + 64 ∧ ({ s with obs := t.obs } : State).ReportsOnly t) ∧
    (s.act Reg.SAMP.CAP_BYTES - s.obs.spent < it.bytes.length + 64 → s.act Reg.SAMP.CAP_OFF = 0 → it.bytes.length ≤ 262144 →
      ∃ t, exec .observationWrite s = .next t ∧ t.obs.new = [] ∧ t.obs.wait = [it] ∧ s.Counts t Reg.SAMP.CAP_WAIT ∧ t.obs.spent = s.obs.spent ∧
        t = { s with regs := t.regs, obs := t.obs })) ∧
  (∀ (s : State) (src : Source) (f : Nat), s.Takes src → f = s.rd Reg.DBG.DBG_FLOCK →
    (s.auth.token = none → ∃ t, exec (.dbgEnter src) s = .next t ∧ t.rd Reg.DBG.DBG_RESULT = 1 ∧ s.WriteOnly t) ∧
    (∀ k, s.auth.token = some k → bits k.perms 0 1 = 1 → k.flocks.getLsbD f = true → ∃ t, exec (.dbgEnter src) s = .next t ∧ s.Queued t (.dbgEnter f) ∧
      t.rd Reg.DBG.DBG_RESULT = 0 ∧ s.WriteLater t) ∧
    (∀ k, s.auth.token = some k → bits k.perms 0 1 = 1 → k.flocks.getLsbD f = false → ∃ t, exec (.dbgEnter src) s = .next t ∧ t.rd Reg.DBG.DBG_RESULT = 2 ∧ s.WriteOnly t) ∧
    ((s.flocks.get f).debug = true → ∃ t, exec (.dbgLeave src) s = .next t ∧ s.Queued t (.dbgLeave f) ∧ t.rd Reg.DBG.DBG_RESULT = 0 ∧ s.WriteLater t) ∧
    ((s.flocks.get f).debug = false → ∃ t, exec (.dbgLeave src) s = .next t ∧ t.rd Reg.DBG.DBG_RESULT = 3 ∧ s.WriteOnly t) ∧
    ((s.flocks.get f).debug = true → ∀ v, ∃ t, exec (.halt src v) s = .next t ∧ s.Queued t (.halt f v) ∧ t.rd Reg.DBG.HALT = b2n v ∧ t.rd Reg.DBG.DBG_RESULT = 0 ∧ s.WriteLater t) ∧
    ((s.flocks.get f).debug = false → ∀ v, ∃ t, exec (.halt src v) s = .next t ∧ t.rd Reg.DBG.DBG_RESULT = 3 ∧ s.WriteOnly t) ∧
    ((s.flocks.get f).debug = true → (s.flocks.get f).halted = true → ∃ t, exec (.stepf src) s = .next t ∧ s.Queued t (.stepf f) ∧ s.WriteLater t) ∧
    ((s.flocks.get f).halted = false → ∃ t, exec (.stepf src) s = .next t ∧ t.rd Reg.DBG.DBG_RESULT = 3 ∧ s.WriteOnly t)) ∧
  (∀ (s : State) (src : Source) (f : Flock) (v : DWord) (c : ACoreId) (a : Nat), s.Takes src → (c, a) = s.memWordAt f.val →
    ((s.flocks.get f.val).halted = true → a < ACoreId.memBytes c → ∃ t, exec (.memDataWrite src f v) s = .next t ∧
      Mem.readN t.arr.mem (ACoreId.base c + a) 8 = leBytes 8 v.toNat ∧
      (∀ b, (b < ACoreId.base c + a ∨ ACoreId.base c + a + 8 ≤ b) → Mem.read t.arr.mem b = Mem.read s.arr.mem b) ∧
      t.rd Reg.DBG.DBG_RESULT = 0 ∧ ({ s with arr := t.arr } : State).WriteOnly t) ∧
    ((s.flocks.get f.val).halted = false → ∃ t, exec (.memDataWrite src f v) s = .next t ∧ t.rd Reg.DBG.DBG_RESULT = 3 ∧ s.WriteOnly t))


/-- Register pages (R10, R11, R355, R372 to R384). The unlock sequence: the first key is kept with its source and beat; the second key, from the same source within 64
beats, unlocks the expert fields; a wrong value, another source, a late key, or no token that grants EXPERT, ends the sequence with its result, and every end draws a
new challenge. LOCK ends the unlock. EVENT bits written 1 clear, but for an event of the same cycle; EVENT_FORCE sets the named bits; a mask is in force at once. A
register access past BAR0 has no address; a misfit access is counted and does nothing; a field that is a command acts as the command; a locked expert field keeps its
value; the low half of a wide counter latches the high half. Where a clause leaves the state as it is because the event cannot come, that is the model's choice (assumption 1); so are its readings in assumptions 200, 204, 208 and 209. -/
def Obligations.RegisterCommands : Prop :=
  (∀ (s : State) (src : Source) (v : Word), s.Takes src →
    (s.expertToken = false → ∃ t, exec (.expertKey src v) s = .next t ∧ t.rd Reg.DEV.SEQ_RESULT = 2 ∧ t.sec.unlock = none ∧
      t.sec.chal = (Config.rand s.sec.draws).setWidth 16 ∧ s.WriteOnly t) ∧
    (s.expertToken = true → s.sec.unlock = none →
      (v.toNat = 0x4B310000 + s.sec.chal.toNat → ∃ t, exec (.expertKey src v) s = .next t ∧ t.sec.unlock = some (src, s.time.beat) ∧ t.sec.chal = s.sec.chal ∧ s.WriteOnly t) ∧
      (v.toNat ≠ 0x4B310000 + s.sec.chal.toNat → ∃ t, exec (.expertKey src v) s = .next t ∧ t.rd Reg.DEV.SEQ_RESULT = 3 ∧ t.sec.unlock = none ∧
        t.sec.chal = (Config.rand s.sec.draws).setWidth 16 ∧ s.WriteOnly t)) ∧
    (∀ (src1 : Source) (b : Nat), s.expertToken = true → s.sec.unlock = some (src1, b) →
      (src1 = src → v.toNat = 0x4B320000 + s.sec.chal.toNat → s.time.beat ≤ b + 64 → ∃ t, exec (.expertKey src v) s = .next t ∧
        t.auth = { s.auth with unlocked := true } ∧ t.rd Reg.DEV.SEQ_RESULT = 1 ∧ t.rd Reg.DEV.EXPERT_SRC = src.num ∧ t.sec.unlock = none ∧
        t.sec.chal = (Config.rand s.sec.draws).setWidth 16 ∧ ({ s with auth := t.auth } : State).WriteOnly t) ∧
      (src1 = src → v.toNat = 0x4B320000 + s.sec.chal.toNat → b + 64 < s.time.beat → ∃ t, exec (.expertKey src v) s = .next t ∧
        t.rd Reg.DEV.SEQ_RESULT = 5 ∧ t.sec.unlock = none ∧ s.WriteOnly t) ∧
      (src1 = src → v.toNat ≠ 0x4B320000 + s.sec.chal.toNat → ∃ t, exec (.expertKey src v) s = .next t ∧
        t.rd Reg.DEV.SEQ_RESULT = 3 ∧ t.sec.unlock = none ∧ s.WriteOnly t) ∧
      (src1 ≠ src → ∃ t, exec (.expertKey src v) s = .next t ∧ t.rd Reg.DEV.SEQ_RESULT = 4 ∧ t.sec.unlock = none ∧ s.WriteOnly t))) ∧
  (∀ (s : State) (src : Source), s.Takes src →
    ∃ t, exec (.lock src) s = .next t ∧ t.auth = { s.auth with unlocked := false } ∧ ({ s with auth := t.auth } : State).WriteOnly t) ∧
  (∀ (s : State) (src : Source), s.TakesExpert src → s.rd Reg.CXL.LINK_UP ≠ 0 → s.host.lost = false →
    ∃ t, exec (.vec0Force src) s = .next t ∧ (t.host.msix.get 0).pending = true ∧ s.WriteOnly t) ∧
  (∀ (s : State) (src : Source) (p : Fin 512) (v now : Word) (block inst : Nat), s.Takes src → pageOf p.val = some (block, inst) →
    (∃ t, exec (.eventClear src p v now) s = .next t ∧
      t.eventWord block inst = ((s.eventWord block inst - (s.eventWord block inst &&& v.toNat)) ||| (now.toNat &&& eventBits block inst)) % 2 ^ 32 ∧ s.WriteOnly t) ∧
    (s.auth.unlocked = true → ∃ t, exec (.eventForce src p v) s = .next t ∧
      t.eventWord block inst = (s.eventWord block inst ||| (v.toNat &&& eventBits block inst)) % 2 ^ 32 ∧ s.WriteOnly t) ∧
    (∃ t, exec (.eventMaskWrite src p v) s = .next t ∧ t.rd (Reg.COMMON.EVENT_MASK.on block) inst = v.toNat ∧
      ({ s with acting := t.acting } : State).WriteOnly t)) ∧
  (∀ (s : State) (src : Source) (p : Fin 512) (v now : Word), pageOf p.val = none →
    exec (.eventClear src p v now) s = .next s ∧ exec (.eventForce src p v) s = .next s ∧ exec (.eventMaskWrite src p v) s = .next s) ∧
  (∀ (s : State) (src : Source) (a : RegAccess), a.bar4 = true → 2 ^ 18 ≤ a.addr → exec (.registerWrite src a) s = .fault (.noBarAddress a.addr)) ∧
  (∀ (s : State) (src : Source) (a : RegAccess), a.bar4 = true → a.addr < 2 ^ 18 → (src ≠ .bar0 ∨ s.rd Reg.CXL.LINK_UP = 0 ∨ s.host.ideIo = .insecure) →
    exec (.registerWrite src a) s = .next s) ∧
  (∀ (s : State) (src : Source) (a : RegAccess), a.bar4 = false → 2 ^ 26 ≤ a.addr →
    exec (.registerWrite src a) s = .fault (.noBarAddress a.addr) ∧ exec (.lowHalfRead src a.addr) s = .fault (.noBarAddress a.addr)) ∧
  (∀ (s : State) (src : Source) (a : RegAccess), a.bar4 = false → a.addr < 2 ^ 26 → badAccess a = true → a.write = true → s.mayWrite src true = true →
    ∃ t, exec (.registerWrite src a) s = .next t ∧ s.Counts t Reg.DEV.BAD_ACCESS ∧ s.OnlyFields t [Reg.DEV.BAD_ACCESS.key 0 0 0]) ∧
  (∀ (s : State) (src : Source), s.Takes src →
    exec (.registerWrite src { addr := 0x60, size := 32, value := 2, write := true, fullBytes := true }) s = exec (.lock src) s) ∧
  (∀ (s : State) (src : Source) (v : Nat), s.Takes src → v < 256 →
    ∃ t, exec (.registerWrite src { addr := 0x54054, size := 32, value := v, write := true, fullBytes := true }) s = .next t ∧
      t.rd Reg.HERD.BW_PRIO = v ∧ s.WriteOnly t) ∧
  (∀ (s : State) (src : Source) (v : Nat), s.Takes src → s.auth.unlocked = false →
    ∃ t, exec (.registerWrite src { addr := 0x54804, size := 32, value := v, write := true, fullBytes := true }) s = .next t ∧
      t.rd Reg.HERD.DETECT_BEATS = s.rd Reg.HERD.DETECT_BEATS ∧ s.WriteOnly t) ∧
  (∀ (s : State) (src : Source), s.pagesOpen = true → s.mayRead src = true →
    ∃ t, exec (.lowHalfRead src 0x7040) s = .next t ∧ t.host.regData = s.time.beat % 2 ^ 32 ∧
      t.sec.latch.get src.num = some (0x7040, s.time.beat % 2 ^ 64 / 2 ^ 32) ∧ t = { s with regs := t.regs, host := t.host, sec := t.sec } ∧
      ∃ u, exec (.lowHalfRead src 0x7044) t = .next u ∧ u.host.regData = s.time.beat % 2 ^ 64 / 2 ^ 32)

/-- R271: in the device safe forwarding state only queue 6 produces; what lies in the other queues stays readable, and a write of CONS still acts. -/
def Obligations.SafeStateQueues : Prop :=
  ∀ s : State, s.devSafe = true →
    (∀ (q : Nat) (b : List Byte), q ≠ 6 → s.hqProduce q b = s) ∧
    (∀ it : HqItem, it.q.val ≠ 6 → exec (.hqProduce it) s = .next s) ∧
    (∀ it : HqItem, it.q.val = 6 → (s.hqOff 6 = true ∨ s.rd Reg.HQ.PROD 0 6 - s.consSeen 6 ≠ s.hqSlots 6) →
      ∃ t, exec (.hqProduce it) s = .next t ∧ t.rd Reg.HQ.PROD 0 6 = (s.rd Reg.HQ.PROD 0 6 + 1) % 2 ^ 64) ∧
    (∀ (a n : Nat) (apt : Option (List Byte)), a + n ≤ 2 ^ 40 → s.hostReach a n = true → apertureOf a = none → s.hbmUe a n = none →
      (∀ k < n, (s.regionOf (a + k)).isSome = true) → s.cycOld = [] →
      exec (.hostRead a n apt) s = .next { s with host := { s.host with readData := Mem.readN s.hbm a n, readPoison := false } }) ∧
    (∀ (src : Source) (q : QNum) (v : DWord), s.Takes src → s.rd Reg.HQ.CONS 0 q.val ≤ v.toNat → v.toNat ≤ s.rd Reg.HQ.PROD 0 q.val →
      ∃ t, exec (.hqConsWrite src q v) s = .next t ∧ t.rd Reg.HQ.CONS 0 q.val = v.toNat ∧ t.rd Reg.HQ.PROD 0 q.val = s.rd Reg.HQ.PROD 0 q.val ∧
        t.hbm = s.hbm ∧ t.host.mem = s.host.mem)

/-- R301: the severity of a fault record, what a record of severity 2 does to ALERT_PEND and ALERT_N, and what clears it. -/
def Obligations.AlertRecords : Prop :=
  (∀ r : FaultRec, (r.sev = 2 ↔ r.cls ∈ [6, 7, 9, 10, 11] ∨ r.action ∈ [3, 4, 5]) ∧
    (r.sev = 1 ↔ ¬ (r.cls ∈ [6, 7, 9, 10, 11] ∨ r.action ∈ [3, 4, 5]) ∧ r.cls ∈ [1, 2, 3] ∧ r.action ∈ [1, 2]) ∧ r.sev ≤ 2) ∧
  (∀ (s : State) (r : FaultRec), r.inst < instancesOf r.block →
    (s.fault r).rd (Reg.COMMON.INFO_SEV.on r.block) r.inst = r.sev ∧
    (s.fault r).rd Reg.LEDG.ALERT_PEND = (if r.sev = 2 then 1 else s.rd Reg.LEDG.ALERT_PEND)) ∧
  (∀ (s : State) (cls : Fin 16) (scope : Fin 9) (reason : Fin 256) (action : Fin 9) (block inst u addr count : Nat), inst < instancesOf block →
    ∃ t, exec (.faultRecord cls scope reason action block inst u addr count) s = .next t ∧
      t.rd Reg.LEDG.ALERT_PEND = (if cls.val ∈ [6, 7, 9, 10, 11] ∨ action.val ∈ [3, 4, 5] then 1 else s.rd Reg.LEDG.ALERT_PEND)) ∧
  (∀ s : State, s.rd Reg.LEDG.ALERT_PEND ≠ 0 → s.alertN = false) ∧
  (∀ (s : State) (src : Source), s.Takes src true →
    ∃ t, exec (.alertPendClear src true) s = .next t ∧ t.rd Reg.LEDG.ALERT_PEND = 0 ∧ t.alertN = true)

/-- R382: what ends the unlock, and what a write of an expert field does while UNLOCK is clear. -/
def Obligations.UnlockEnds : Prop :=
  (∀ (s : State) (src : Source), s.Takes src → ∃ t, exec (.lock src) s = .next t ∧ t.auth.unlocked = false) ∧
  (∀ s : State, s.auth.token ≠ none → s.endToken.auth.unlocked = false ∧ (s.runAct .tokenEnd).auth.unlocked = false) ∧
  (∀ (s : State) (k : Token), s.auth.token = some k → k.expiry ≤ s.time.beat → ∃ t, exec .tokenExpiry s = .next t ∧ t.auth.unlocked = false) ∧
  (∀ (s : State) (src : Source), s.Takes src true → s.auth.token ≠ none →
    (s.time.started = false → ∃ t, exec (.dbgRevoke src) s = .next t ∧ t.auth.unlocked = false) ∧
    (s.time.started = true → ∃ t, exec (.dbgRevoke src) s = .next t ∧ s.Queued t .tokenEnd)) ∧
  (∀ s : State, s.sec.pwrGood = true → s.sec.resetN = true → ∃ t, exec .resetNLow s = .next t ∧ t.auth.unlocked = false) ∧
  (∀ s : State, ∃ t, exec .pwrGoodLow s = .next t ∧ t.auth.unlocked = false) ∧
  (∀ s : State, s.sec.reqReset = some false → s.Runs → s.sec.reqBeat < s.time.beat → ∃ t, exec .warmReset s = .next t ∧ t.auth.unlocked = false) ∧
  (∀ s : State, s.sec.reqReset = some true → s.Runs → ∃ t, exec (.beatMarker .portCore) s = .next t ∧ t.auth.unlocked = false) ∧
  (∀ (s : State) (src : Source), s.sec.pwrGood = true → s.sec.resetN = true → s.mayWrite src true = true → s.time.started = false → s.sec.reqReset = none →
    (∃ t, exec (.warmRequest src 0x5253#16) s = .next t ∧ t.auth.unlocked = false) ∧
    (∃ t, exec (.coldRequest src 0x5253#16) s = .next t ∧ t.auth.unlocked = false)) ∧
  (∀ (s : State) (src : Source) (a : RegAccess) (block inst : Nat), s.Takes src → s.auth.unlocked = false → a.bar4 = false → a.write = true → a.fullBytes = true → a.size = 32 →
    a.addr < 2 ^ 26 → a.addr % 4 = 0 → pageOf (a.addr / 4096) = some (block, inst) → block ≠ Blk.ZCT → 0x800 ≤ a.addr % 4096 → a.addr % 4096 < 0xF00 →
    ∃ r : AuditRec, r.result = 2 ∧ r.block = block ∧ r.inst = inst ∧ r.source = src.num ∧ exec (.registerWrite src a) s = .next ((s.wrote src).audit r)) ∧
  (∀ (s : State) (src : Source) (p : Fin 512) (v : Word) (block inst : Nat), s.Takes src → s.auth.unlocked = false → pageOf p.val = some (block, inst) →
    ∃ r : AuditRec, r.result = 2 ∧ r.block = block ∧ r.inst = inst ∧ r.source = src.num ∧ exec (.eventForce src p v) s = .next ((s.wrote src).audit r))

/-- R361: the sample record under level 1, byte by byte, and the selectors that the device refuses to arm under it. -/
def Obligations.LevelOneRecords : Prop :=
  (∀ (s : State) (n : Nat) (x : Sel), s.sec.level = 1 → s.obs.sampled ≠ s.time.beat + 1 → s.dueSels = [(n, x)] → x.nrep = 1 → s.hqOff 4 = false →
    ∀ u : State, u = { s with obs := { s.obs with sampled := s.time.beat + 1 } } →
    ∃ t it lay op v0 v1, exec .sample s = .next t ∧ t.obs.new = s.obs.new ++ [it] ∧ it.q = 4 ∧
      it.bytes = leBytes 5 (s.time.beat % 2 ^ 40) ++ [1] ++ leBytes 2 n ++ leBytes 2 lay ++ leBytes 2 op ++ zeros 4 ++ leBytes 8 v0 ++ leBytes 8 v1 ++ zeros 32 ∧
      it.bytes.length = 64 ∧ (x.src = 1 → lay = 0 ∧ op = 0) ∧
      (x.src = 1 → 0 < x.ncnt → v0 = ({ u with regs := s.acting } : State).barRead x.addr 8) ∧
      (x.src = 1 → 1 < x.ncnt → v1 = ({ u with regs := s.acting } : State).barRead (x.addr + 8) 8) ∧
      (x.src = 2 → s.obs.capt.find? (n * 256) = none →
        [v0, v1] = (u.capture (x.coreOf 0) (s.islStart (x.coreOf 0).flock.val + x.cap)).take 2 ∧
        [lay, op] = ((u.capture (x.coreOf 0) (s.islStart (x.coreOf 0).flock.val + x.cap)).drop 6).take 2)) ∧
  (∀ (s : State) (src : Source) (n : Nat) (x : Sel), s.Takes src → s.sec.level = 1 → n = s.rd Reg.SAMP.SEL_SEL → n < 64 → x = s.selFields n →
    (2 < x.ncnt ∨ 1 < x.nrep ∨ (x.src = 2 ∧ x.cls = 1)) →
    ∃ t, exec (.selectorArm src) s = .next t ∧ t.rd Reg.SAMP.SEL_RESULT 0 0 n ≠ 0 ∧ s.WriteOnly t)

/-- A step takes the command at the front of the queue and runs it on the state with the queue's rest (the block's queue of waiting commands; R379: commands act in the order
they are applied). -/
def Obligations.StepRunsTheFront : Prop :=
  ∀ (c : Instr) (rest : List Instr) (s : State), s.pending = c :: rest → step s = exec c { s with pending := rest }

/-- With no command waiting, one schedule cycle of the beat passes (R15, R226; that an empty queue is a schedule cycle is the model's choice, assumption 2): nothing
changes but the cycle and the operator counts captured in it, and never the beat. Before the data path starts, and in the last cycle of a beat, nothing happens. -/
def Obligations.IdleStep : Prop :=
  (∀ s : State, s.pending = [] → s.time.started = true → s.time.cycle < 511 →
    ∃ t, step s = .next t ∧ t.time = { s.time with cycle := s.time.cycle + 1 } ∧ t.obs = { s.obs with capt := t.obs.capt } ∧ t = { s with time := t.time, obs := t.obs }) ∧
  (∀ s : State, s.pending = [] → (s.time.started = false ∨ 511 ≤ s.time.cycle) → step s = .next s)

/-- What reset leaves, where the spec gives values (R287, R301, R334, R344, R365, R369, R375, R379): no command waits, no stage is reached, no packet is resident, the expert
fields are locked, no event is set and every event is masked on every page, and the named fields hold their tables' values. -/
def Obligations.ResetValues : Prop :=
  State.reset.pending = [] ∧ State.reset.time.started = false ∧ State.reset.auth = {} ∧ State.reset.pkts = [] ∧ State.reset.devSafe = false ∧
  State.reset.pagesOpen = false ∧ State.reset.alertN = true ∧
  (∀ p block inst, pageOf p = some (block, inst) → State.reset.eventWord block inst = 0 ∧ State.reset.rd (Reg.COMMON.EVENT_MASK.on block) inst = 0xFFFFFFFF ∧
    State.reset.rd (Reg.COMMON.REV.on block) inst = 1 ∧ State.reset.rd (Reg.COMMON.ZLEVEL.on block) inst = 2) ∧
  State.reset.rd Reg.SAMP.CAP_BYTES = 262144 ∧ State.reset.rd Reg.HERD.DETECT_BEATS = 64 ∧ State.reset.acting = State.reset.regs

/-- Before stage READY the register pages other than DEV read as zero and ignore writes (R336). Where a clause leaves the state as it is because the event cannot come, that is the model's choice (assumption 1). -/
def Obligations.PagesClosed : Prop :=
  (∀ (s : State) (src : Source) (a : RegAccess) (block inst : Nat), s.pagesOpen = false → a.bar4 = false → a.addr < 2 ^ 26 → badAccess a = false →
    pageOf (a.addr / 4096) = some (block, inst) → block ≠ Blk.DEV →
    (a.write = true → exec (.registerWrite src a) s = .next s) ∧
    (a.write = false → exec (.registerWrite src a) s = .next { s with host := { s.host with regData := 0 } })) ∧
  (∀ (s : State) (src : Source) (a : RegAccess), s.pagesOpen = false → a.bar4 = false → a.addr < 2 ^ 26 → badAccess a = false → pageOf (a.addr / 4096) = some (Blk.DEV, 0) →
    a.write = true → a.addr % 4096 ≠ 0x10 → exec (.registerWrite src a) s = .next s) ∧
  (∀ (s : State) (src : Source) (v : Word) (p : Fin 512), s.pagesOpen = false →
    exec (.lock src) s = .next s ∧ exec (.expertKey src v) s = .next s ∧ exec (.eventClear src p v 0) s = .next s ∧ exec (.eventMaskWrite src p v) s = .next s ∧
    exec (.load src) s = .next s ∧ exec (.commit src false) s = .next s ∧ exec (.ruleCommit src) s = .next s ∧ exec (.dbgGo src) s = .next s ∧
    exec (.setGo src) s = .next s ∧ exec (.forceSafe src) s = .next s ∧ exec (.start src) s = .next s)

/-- The sideband writes only DEV.CTRL, ALERT_PEND and the mailboxes of SET and SEC, and a closed JTAG port writes nothing (R343, R352): any other write of theirs leaves the
device as it was. Where a clause leaves the state as it is because the event cannot come, that is the model's choice (assumption 1); so are its readings in assumption 201. -/
def Obligations.SourceRights : Prop :=
  (∀ (s : State) (a : RegAccess) (block inst : Nat), a.bar4 = false → a.addr < 2 ^ 26 → badAccess a = false → a.write = true → pageOf (a.addr / 4096) = some (block, inst) →
    (mailPage block (a.addr % 4096) = false → exec (.registerWrite .sideband a) s = .next s) ∧
    (s.sec.jtag = false → exec (.registerWrite .jtag a) s = .next s)) ∧
  (∀ (s : State) (v : Word), exec (.lock .sideband) s = .next s ∧ exec (.expertKey .sideband v) s = .next s ∧ exec (.forceSafe .sideband) s = .next s ∧
    exec (.load .sideband) s = .next s ∧ exec (.ruleCommit .sideband) s = .next s) ∧
  (∀ (s : State) (v : Word), s.sec.jtag = false → exec (.lock .jtag) s = .next s ∧ exec (.expertKey .jtag v) s = .next s ∧ exec (.dbgGo .jtag) s = .next s)

/-- Every command answers a next state, but an access past the device's addresses (R281, R372): no other command ends in a fault, and none in a refusal. -/
def Obligations.EveryCommandCompletes : Prop :=
  ∀ (c : Instr) (s : State),
    (∀ a n apt, c = .hostRead a n apt → a + n ≤ 2 ^ 40) → (∀ a d ok, c = .hostWrite a d ok → a + d.length ≤ 2 ^ 40) →
    (∀ src a, c = .registerWrite src a → a.addr < (if a.bar4 then 2 ^ 18 else 2 ^ 26)) → (∀ src a, c = .lowHalfRead src a → a < 2 ^ 26) → ∃ t, exec c s = .next t

/-- After reset no expert field is unlocked (R381). -/
def Obligations.LockedAtReset : Prop := State.reset.AuthOk

/-- The expert fields are unlocked only while a debug token that grants EXPERT is active, whatever a step does (R350, R351, R381, R382). -/
def Obligations.UnlockedOnlyUnderToken : Prop := ∀ s t : State, s.AuthOk → step s = .next t → t.AuthOk

/-- HBM and host memory are in canonical form after reset (the model's form of memory, assumption 4). -/
def Obligations.MemoryCanonicalAtReset : Prop := State.reset.MemOk

/-- Every step keeps HBM and host memory in canonical form (the model's form of memory, assumption 4): addresses strictly rising, no listed byte equal to what an unlisted one
reads as, so that equal memories are equal data. -/
def Obligations.MemoryStaysCanonical : Prop := ∀ s t : State, s.MemOk → step s = .next t → t.MemOk

/-- No command touches the queue of waiting commands, not even a reset: each step takes exactly the command at the front, and an idle step none. The
queue is the model's own (assumption 237). -/
def Obligations.QueueIsTakenInOrder : Prop :=
  (∀ (c : Instr) (s t : State), exec c s = .next t → t.pending = s.pending) ∧
  (∀ s t : State, step s = .next t → t.pending = s.pending.tail)

/-- The device safe forwarding state is left by a warm or a cold reset alone, after which the data path does not run (R199, R295): a step that leaves the data path running
leaves the device in that state. -/
def Obligations.SafeStateEndsOnlyByReset : Prop :=
  ∀ s t : State, s.devSafe = true → step s = .next t → t.time.started = true → t.devSafe = true

/-- When the commands of page FLOCK complete, whatever else the device holds (R10, R146, R165, R184). From a source that may write, each answers a next state: a
request to withdraw an unbound array is noted and stops no array now; ARRAY_OFF and a patch wait for the boundary, and nothing is patched before it; an armed kind of fault stands at
the named core; and a read of AF clears its kind and its beat. Where a clause leaves the state as it is because the event cannot come, that is the model's choice (assumption 1); so are its readings in assumptions 81 and 205. -/
def Obligations.FlockPageCompletes : Prop :=
  (∀ (s : State) (src : Source) (f : Flock) (n : Fin 64), s.Takes src → ∃ t, exec (.arrayWdReq src f n) s = .next t ∧
    (s.arrayUsed f.val n.val = false → (t.flocks.get f.val).wdArray = (s.flocks.get f.val).wdArray ||| (1#64 <<< n.val)) ∧ t.arr = s.arr ∧ t.ctxs = s.ctxs ∧ t.acts = s.acts) ∧
  (∀ (s : State) (src : Source) (f : Flock) (m : DWord), s.TakesExpert src → ∃ t, exec (.arrayOff src f m) s = .next t ∧ t.acts = s.acts ++ [.arrayOff f.val m] ∧ t.arr = s.arr) ∧
  (∀ (s : State) (src : Source) (f : Flock) (k : Fin 8) (c : CoreClass) (n : Fin 16), s.TakesExpert src →
    ∃ t, exec (.injArm src f k c n) s = .next t ∧ (t.acore { flock := f, cls := c, core := n }).inj = (if k.val ≤ 4 then k.val else 0) ∧ t.arr.mem = s.arr.mem ∧
      t.arr.lanes = s.arr.lanes) ∧
  (∀ (s : State) (src : Source) (f : Flock), s.pagesOpen = true →
    ∃ t, exec (.afRead src f) s = .next t ∧ t.rd Reg.FLOCK.AF_KIND f.val = 0 ∧ t.rd Reg.FLOCK.AF_BEAT f.val = 0 ∧ t.arr = s.arr ∧ t.flt = s.flt) ∧
  (∀ (s : State) (src : Source) (f : Flock), s.TakesExpert src → ∃ t, exec (.flockPatchGo src f) s = .next t ∧ t.acts.length = s.acts.length + 1 ∧ t.arr = s.arr)

/-- When the commands of pages TIME and PORT about time complete, whatever else the device holds (R226 to R229, R256). From a source that may write, each write
answers a next state, sets what it names where the device obeys it, and moves no herd time; PHASE_ADJ and FREQ_ADJ of a device that obeys its herd are ignored; a slew ends when it is
within one beat's slew, a pulse in comes in any state, and the output rises when its second is due and falls 120,000,000 cycles later; and a read of an INFO field takes the oldest timestamp of its own FIFO, and none of the other. Where a clause leaves the state as it is because the event cannot come, that is the model's choice (assumption 1); so are its readings in assumptions 288 and 289. -/
def Obligations.TimeCommandsComplete : Prop :=
  (∀ (s : State) (src : Source), s.Takes src → ∃ t, exec (.setGo src) s = .next t ∧
    (s.time.started = false → t.time.setDone = true ∧ t.time.setSec = s.rd Reg.TIME.SET_SEC ∧ t.time.setNs = s.rd Reg.TIME.SET_NS) ∧ t.now = s.now ∧ t.time.beat = s.time.beat) ∧
  (∀ (s : State) (src : Source) (ppb : Int), s.Takes src →
    ∃ t, exec (.freqAdj src ppb) s = .next t ∧ t.time = s.time ∧ (s.obeysTime = true → -100000 ≤ ppb → ppb ≤ 100000 → t.rd Reg.TIME.FREQ_ADJ = ofSigned 32 ppb) ∧
      (s.obeysTime = false → t.rd Reg.TIME.FREQ_ADJ = s.rd Reg.TIME.FREQ_ADJ)) ∧
  (∀ (s : State) (src : Source) (ns : Int), s.Takes src →
    ∃ t, exec (.phaseAdj src ns) s = .next t ∧ t.now = s.now ∧
      (s.obeysTime = true → -(2 ^ 31) ≤ ns → ns < 2 ^ 31 → t.time.phaseLeft = ns * 3000000000) ∧ (s.obeysTime = false → t.time.phaseLeft = s.time.phaseLeft)) ∧
  (∀ s : State, ∃ t, exec .phaseSlewEnd s = .next t ∧ (s.time.phaseLeft.natAbs ≤ 64000000 → t.time.phaseLeft = 0) ∧ t.time.phaseLeft.natAbs ≤ s.time.phaseLeft.natAbs ∧ t.now = s.now) ∧
  (∀ (s : State) (src : Source), s.pagesOpen = true → ∃ t, exec (.timeBeatRead src) s = .next t ∧ t.host.regData = s.time.beat ∧ t.time = s.time) ∧
  (∀ s : State, ∃ t, exec .ppsIn s = .next t ∧ t.rd Reg.TIME.PPS_IN_T = (s.now + 1) % 2 ^ 64 ∧ t.time = s.time) ∧
  (∀ s : State, ∃ t, exec .ppsOutRise s = .next t ∧ (s.act Reg.TIME.PPS_OUT_EN = 1 → s.ppsDue = true → t.time.ppsOut = true ∧ t.time.ppsAt = s.now) ∧
    (s.time.ppsOut = true → t.time.ppsOut = true) ∧ t.now = s.now) ∧
  (∀ s : State, ∃ t, exec .ppsOutFall s = .next t ∧ (s.time.ppsAt + 120000000 ≤ s.now → t.time.ppsOut = false) ∧ (s.time.ppsOut = false → t = s) ∧ t.now = s.now) ∧
  (∀ (s : State) (src : Source) (g : Group), s.pagesOpen = true →
    (∃ t, exec (.tsFifoPop src g .rx) s = .next t ∧ t.rxTs.get g.val = (s.rxTs.get g.val).tail ∧ t.txTs = s.txTs) ∧
    (∃ t, exec (.tsFifoPop src g .tx) s = .next t ∧ t.txTs.get g.val = (s.txTs.get g.val).tail ∧ t.rxTs = s.rxTs))
end

