-- ==== Sys2Proof/Laws/State.lean ====
section
/-! SUPPORT. What the plainest updates of the state leave unchanged: one lemma for each field and each update. -/

namespace Sys2Proof.Machine

/-! wr -/

@[simp] theorem State.wr_pending (s : State) (f : Field) (v i j k : Nat) : (s.wr f v i j k).pending = s.pending := rfl
@[simp] theorem State.wr_acting (s : State) (f : Field) (v i j k : Nat) : (s.wr f v i j k).acting = s.acting := rfl
@[simp] theorem State.wr_time (s : State) (f : Field) (v i j k : Nat) : (s.wr f v i j k).time = s.time := rfl
@[simp] theorem State.wr_rx (s : State) (f : Field) (v i j k : Nat) : (s.wr f v i j k).rx = s.rx := rfl
@[simp] theorem State.wr_pkts (s : State) (f : Field) (v i j k : Nat) : (s.wr f v i j k).pkts = s.pkts := rfl
@[simp] theorem State.wr_nextPkt (s : State) (f : Field) (v i j k : Nat) : (s.wr f v i j k).nextPkt = s.nextPkt := rfl
@[simp] theorem State.wr_laneAcc (s : State) (f : Field) (v i j k : Nat) : (s.wr f v i j k).laneAcc = s.laneAcc := rfl
@[simp] theorem State.wr_cls (s : State) (f : Field) (v i j k : Nat) : (s.wr f v i j k).cls = s.cls := rfl
@[simp] theorem State.wr_frag (s : State) (f : Field) (v i j k : Nat) : (s.wr f v i j k).frag = s.frag := rfl
@[simp] theorem State.wr_flow (s : State) (f : Field) (v i j k : Nat) : (s.wr f v i j k).flow = s.flow := rfl
@[simp] theorem State.wr_ep (s : State) (f : Field) (v i j k : Nat) : (s.wr f v i j k).ep = s.ep := rfl
@[simp] theorem State.wr_fcores (s : State) (f : Field) (v i j k : Nat) : (s.wr f v i j k).fcores = s.fcores := rfl
@[simp] theorem State.wr_fsets (s : State) (f : Field) (v i j k : Nat) : (s.wr f v i j k).fsets = s.fsets := rfl
@[simp] theorem State.wr_fhalf (s : State) (f : Field) (v i j k : Nat) : (s.wr f v i j k).fhalf = s.fhalf := rfl
@[simp] theorem State.wr_tree (s : State) (f : Field) (v i j k : Nat) : (s.wr f v i j k).tree = s.tree := rfl
@[simp] theorem State.wr_arr (s : State) (f : Field) (v i j k : Nat) : (s.wr f v i j k).arr = s.arr := rfl
@[simp] theorem State.wr_ctxs (s : State) (f : Field) (v i j k : Nat) : (s.wr f v i j k).ctxs = s.ctxs := rfl
@[simp] theorem State.wr_layout (s : State) (f : Field) (v i j k : Nat) : (s.wr f v i j k).layout = s.layout := rfl
@[simp] theorem State.wr_eg (s : State) (f : Field) (v i j k : Nat) : (s.wr f v i j k).eg = s.eg := rfl
@[simp] theorem State.wr_rxTs (s : State) (f : Field) (v i j k : Nat) : (s.wr f v i j k).rxTs = s.rxTs := rfl
@[simp] theorem State.wr_txTs (s : State) (f : Field) (v i j k : Nat) : (s.wr f v i j k).txTs = s.txTs := rfl
@[simp] theorem State.wr_hq (s : State) (f : Field) (v i j k : Nat) : (s.wr f v i j k).hq = s.hq := rfl
@[simp] theorem State.wr_obs (s : State) (f : Field) (v i j k : Nat) : (s.wr f v i j k).obs = s.obs := rfl
@[simp] theorem State.wr_watches (s : State) (f : Field) (v i j k : Nat) : (s.wr f v i j k).watches = s.watches := rfl
@[simp] theorem State.wr_host (s : State) (f : Field) (v i j k : Nat) : (s.wr f v i j k).host = s.host := rfl
@[simp] theorem State.wr_hbm (s : State) (f : Field) (v i j k : Nat) : (s.wr f v i j k).hbm = s.hbm := rfl
@[simp] theorem State.wr_lanes (s : State) (f : Field) (v i j k : Nat) : (s.wr f v i j k).lanes = s.lanes := rfl
@[simp] theorem State.wr_flocks (s : State) (f : Field) (v i j k : Nat) : (s.wr f v i j k).flocks = s.flocks := rfl
@[simp] theorem State.wr_flt (s : State) (f : Field) (v i j k : Nat) : (s.wr f v i j k).flt = s.flt := rfl
@[simp] theorem State.wr_sec (s : State) (f : Field) (v i j k : Nat) : (s.wr f v i j k).sec = s.sec := rfl
@[simp] theorem State.wr_auth (s : State) (f : Field) (v i j k : Nat) : (s.wr f v i j k).auth = s.auth := rfl
@[simp] theorem State.wr_cal (s : State) (f : Field) (v i j k : Nat) : (s.wr f v i j k).cal = s.cal := rfl
@[simp] theorem State.wr_hl (s : State) (f : Field) (v i j k : Nat) : (s.wr f v i j k).hl = s.hl := rfl
@[simp] theorem State.wr_herd (s : State) (f : Field) (v i j k : Nat) : (s.wr f v i j k).herd = s.herd := rfl
@[simp] theorem State.wr_acts (s : State) (f : Field) (v i j k : Nat) : (s.wr f v i j k).acts = s.acts := rfl
@[simp] theorem State.wr_devSafe (s : State) (f : Field) (v i j k : Nat) : (s.wr f v i j k).devSafe = s.devSafe := rfl
@[simp] theorem State.wr_globals (s : State) (f : Field) (v i j k : Nat) : (s.wr f v i j k).globals = s.globals := rfl
@[simp] theorem State.wr_free (s : State) (f : Field) (v i j k : Nat) : (s.wr f v i j k).free = s.free := rfl

/-! wrNow -/

@[simp] theorem State.wrNow_pending (s : State) (f : Field) (v i j k : Nat) : (s.wrNow f v i j k).pending = s.pending := rfl
@[simp] theorem State.wrNow_time (s : State) (f : Field) (v i j k : Nat) : (s.wrNow f v i j k).time = s.time := rfl
@[simp] theorem State.wrNow_rx (s : State) (f : Field) (v i j k : Nat) : (s.wrNow f v i j k).rx = s.rx := rfl
@[simp] theorem State.wrNow_pkts (s : State) (f : Field) (v i j k : Nat) : (s.wrNow f v i j k).pkts = s.pkts := rfl
@[simp] theorem State.wrNow_nextPkt (s : State) (f : Field) (v i j k : Nat) : (s.wrNow f v i j k).nextPkt = s.nextPkt := rfl
@[simp] theorem State.wrNow_laneAcc (s : State) (f : Field) (v i j k : Nat) : (s.wrNow f v i j k).laneAcc = s.laneAcc := rfl
@[simp] theorem State.wrNow_cls (s : State) (f : Field) (v i j k : Nat) : (s.wrNow f v i j k).cls = s.cls := rfl
@[simp] theorem State.wrNow_frag (s : State) (f : Field) (v i j k : Nat) : (s.wrNow f v i j k).frag = s.frag := rfl
@[simp] theorem State.wrNow_flow (s : State) (f : Field) (v i j k : Nat) : (s.wrNow f v i j k).flow = s.flow := rfl
@[simp] theorem State.wrNow_ep (s : State) (f : Field) (v i j k : Nat) : (s.wrNow f v i j k).ep = s.ep := rfl
@[simp] theorem State.wrNow_fcores (s : State) (f : Field) (v i j k : Nat) : (s.wrNow f v i j k).fcores = s.fcores := rfl
@[simp] theorem State.wrNow_fsets (s : State) (f : Field) (v i j k : Nat) : (s.wrNow f v i j k).fsets = s.fsets := rfl
@[simp] theorem State.wrNow_fhalf (s : State) (f : Field) (v i j k : Nat) : (s.wrNow f v i j k).fhalf = s.fhalf := rfl
@[simp] theorem State.wrNow_tree (s : State) (f : Field) (v i j k : Nat) : (s.wrNow f v i j k).tree = s.tree := rfl
@[simp] theorem State.wrNow_arr (s : State) (f : Field) (v i j k : Nat) : (s.wrNow f v i j k).arr = s.arr := rfl
@[simp] theorem State.wrNow_ctxs (s : State) (f : Field) (v i j k : Nat) : (s.wrNow f v i j k).ctxs = s.ctxs := rfl
@[simp] theorem State.wrNow_layout (s : State) (f : Field) (v i j k : Nat) : (s.wrNow f v i j k).layout = s.layout := rfl
@[simp] theorem State.wrNow_eg (s : State) (f : Field) (v i j k : Nat) : (s.wrNow f v i j k).eg = s.eg := rfl
@[simp] theorem State.wrNow_rxTs (s : State) (f : Field) (v i j k : Nat) : (s.wrNow f v i j k).rxTs = s.rxTs := rfl
@[simp] theorem State.wrNow_txTs (s : State) (f : Field) (v i j k : Nat) : (s.wrNow f v i j k).txTs = s.txTs := rfl
@[simp] theorem State.wrNow_hq (s : State) (f : Field) (v i j k : Nat) : (s.wrNow f v i j k).hq = s.hq := rfl
@[simp] theorem State.wrNow_obs (s : State) (f : Field) (v i j k : Nat) : (s.wrNow f v i j k).obs = s.obs := rfl
@[simp] theorem State.wrNow_watches (s : State) (f : Field) (v i j k : Nat) : (s.wrNow f v i j k).watches = s.watches := rfl
@[simp] theorem State.wrNow_host (s : State) (f : Field) (v i j k : Nat) : (s.wrNow f v i j k).host = s.host := rfl
@[simp] theorem State.wrNow_hbm (s : State) (f : Field) (v i j k : Nat) : (s.wrNow f v i j k).hbm = s.hbm := rfl
@[simp] theorem State.wrNow_lanes (s : State) (f : Field) (v i j k : Nat) : (s.wrNow f v i j k).lanes = s.lanes := rfl
@[simp] theorem State.wrNow_flocks (s : State) (f : Field) (v i j k : Nat) : (s.wrNow f v i j k).flocks = s.flocks := rfl
@[simp] theorem State.wrNow_flt (s : State) (f : Field) (v i j k : Nat) : (s.wrNow f v i j k).flt = s.flt := rfl
@[simp] theorem State.wrNow_sec (s : State) (f : Field) (v i j k : Nat) : (s.wrNow f v i j k).sec = s.sec := rfl
@[simp] theorem State.wrNow_auth (s : State) (f : Field) (v i j k : Nat) : (s.wrNow f v i j k).auth = s.auth := rfl
@[simp] theorem State.wrNow_cal (s : State) (f : Field) (v i j k : Nat) : (s.wrNow f v i j k).cal = s.cal := rfl
@[simp] theorem State.wrNow_hl (s : State) (f : Field) (v i j k : Nat) : (s.wrNow f v i j k).hl = s.hl := rfl
@[simp] theorem State.wrNow_herd (s : State) (f : Field) (v i j k : Nat) : (s.wrNow f v i j k).herd = s.herd := rfl
@[simp] theorem State.wrNow_acts (s : State) (f : Field) (v i j k : Nat) : (s.wrNow f v i j k).acts = s.acts := rfl
@[simp] theorem State.wrNow_devSafe (s : State) (f : Field) (v i j k : Nat) : (s.wrNow f v i j k).devSafe = s.devSafe := rfl
@[simp] theorem State.wrNow_globals (s : State) (f : Field) (v i j k : Nat) : (s.wrNow f v i j k).globals = s.globals := rfl
@[simp] theorem State.wrNow_free (s : State) (f : Field) (v i j k : Nat) : (s.wrNow f v i j k).free = s.free := rfl

/-! bump -/

@[simp] theorem State.bump_pending (s : State) (f : Field) (i j k n : Nat) : (s.bump f i j k n).pending = s.pending := rfl
@[simp] theorem State.bump_acting (s : State) (f : Field) (i j k n : Nat) : (s.bump f i j k n).acting = s.acting := rfl
@[simp] theorem State.bump_time (s : State) (f : Field) (i j k n : Nat) : (s.bump f i j k n).time = s.time := rfl
@[simp] theorem State.bump_rx (s : State) (f : Field) (i j k n : Nat) : (s.bump f i j k n).rx = s.rx := rfl
@[simp] theorem State.bump_pkts (s : State) (f : Field) (i j k n : Nat) : (s.bump f i j k n).pkts = s.pkts := rfl
@[simp] theorem State.bump_nextPkt (s : State) (f : Field) (i j k n : Nat) : (s.bump f i j k n).nextPkt = s.nextPkt := rfl
@[simp] theorem State.bump_laneAcc (s : State) (f : Field) (i j k n : Nat) : (s.bump f i j k n).laneAcc = s.laneAcc := rfl
@[simp] theorem State.bump_cls (s : State) (f : Field) (i j k n : Nat) : (s.bump f i j k n).cls = s.cls := rfl
@[simp] theorem State.bump_frag (s : State) (f : Field) (i j k n : Nat) : (s.bump f i j k n).frag = s.frag := rfl
@[simp] theorem State.bump_flow (s : State) (f : Field) (i j k n : Nat) : (s.bump f i j k n).flow = s.flow := rfl
@[simp] theorem State.bump_ep (s : State) (f : Field) (i j k n : Nat) : (s.bump f i j k n).ep = s.ep := rfl
@[simp] theorem State.bump_fcores (s : State) (f : Field) (i j k n : Nat) : (s.bump f i j k n).fcores = s.fcores := rfl
@[simp] theorem State.bump_fsets (s : State) (f : Field) (i j k n : Nat) : (s.bump f i j k n).fsets = s.fsets := rfl
@[simp] theorem State.bump_fhalf (s : State) (f : Field) (i j k n : Nat) : (s.bump f i j k n).fhalf = s.fhalf := rfl
@[simp] theorem State.bump_tree (s : State) (f : Field) (i j k n : Nat) : (s.bump f i j k n).tree = s.tree := rfl
@[simp] theorem State.bump_arr (s : State) (f : Field) (i j k n : Nat) : (s.bump f i j k n).arr = s.arr := rfl
@[simp] theorem State.bump_ctxs (s : State) (f : Field) (i j k n : Nat) : (s.bump f i j k n).ctxs = s.ctxs := rfl
@[simp] theorem State.bump_layout (s : State) (f : Field) (i j k n : Nat) : (s.bump f i j k n).layout = s.layout := rfl
@[simp] theorem State.bump_eg (s : State) (f : Field) (i j k n : Nat) : (s.bump f i j k n).eg = s.eg := rfl
@[simp] theorem State.bump_rxTs (s : State) (f : Field) (i j k n : Nat) : (s.bump f i j k n).rxTs = s.rxTs := rfl
@[simp] theorem State.bump_txTs (s : State) (f : Field) (i j k n : Nat) : (s.bump f i j k n).txTs = s.txTs := rfl
@[simp] theorem State.bump_hq (s : State) (f : Field) (i j k n : Nat) : (s.bump f i j k n).hq = s.hq := rfl
@[simp] theorem State.bump_obs (s : State) (f : Field) (i j k n : Nat) : (s.bump f i j k n).obs = s.obs := rfl
@[simp] theorem State.bump_watches (s : State) (f : Field) (i j k n : Nat) : (s.bump f i j k n).watches = s.watches := rfl
@[simp] theorem State.bump_host (s : State) (f : Field) (i j k n : Nat) : (s.bump f i j k n).host = s.host := rfl
@[simp] theorem State.bump_hbm (s : State) (f : Field) (i j k n : Nat) : (s.bump f i j k n).hbm = s.hbm := rfl
@[simp] theorem State.bump_lanes (s : State) (f : Field) (i j k n : Nat) : (s.bump f i j k n).lanes = s.lanes := rfl
@[simp] theorem State.bump_flocks (s : State) (f : Field) (i j k n : Nat) : (s.bump f i j k n).flocks = s.flocks := rfl
@[simp] theorem State.bump_flt (s : State) (f : Field) (i j k n : Nat) : (s.bump f i j k n).flt = s.flt := rfl
@[simp] theorem State.bump_sec (s : State) (f : Field) (i j k n : Nat) : (s.bump f i j k n).sec = s.sec := rfl
@[simp] theorem State.bump_auth (s : State) (f : Field) (i j k n : Nat) : (s.bump f i j k n).auth = s.auth := rfl
@[simp] theorem State.bump_cal (s : State) (f : Field) (i j k n : Nat) : (s.bump f i j k n).cal = s.cal := rfl
@[simp] theorem State.bump_hl (s : State) (f : Field) (i j k n : Nat) : (s.bump f i j k n).hl = s.hl := rfl
@[simp] theorem State.bump_herd (s : State) (f : Field) (i j k n : Nat) : (s.bump f i j k n).herd = s.herd := rfl
@[simp] theorem State.bump_acts (s : State) (f : Field) (i j k n : Nat) : (s.bump f i j k n).acts = s.acts := rfl
@[simp] theorem State.bump_devSafe (s : State) (f : Field) (i j k n : Nat) : (s.bump f i j k n).devSafe = s.devSafe := rfl
@[simp] theorem State.bump_globals (s : State) (f : Field) (i j k n : Nat) : (s.bump f i j k n).globals = s.globals := rfl
@[simp] theorem State.bump_free (s : State) (f : Field) (i j k n : Nat) : (s.bump f i j k n).free = s.free := rfl

/-! later -/

@[simp] theorem State.later_pending (s : State) (a : Act) : (s.later a).pending = s.pending := rfl
@[simp] theorem State.later_regs (s : State) (a : Act) : (s.later a).regs = s.regs := rfl
@[simp] theorem State.later_acting (s : State) (a : Act) : (s.later a).acting = s.acting := rfl
@[simp] theorem State.later_time (s : State) (a : Act) : (s.later a).time = s.time := rfl
@[simp] theorem State.later_rx (s : State) (a : Act) : (s.later a).rx = s.rx := rfl
@[simp] theorem State.later_pkts (s : State) (a : Act) : (s.later a).pkts = s.pkts := rfl
@[simp] theorem State.later_nextPkt (s : State) (a : Act) : (s.later a).nextPkt = s.nextPkt := rfl
@[simp] theorem State.later_laneAcc (s : State) (a : Act) : (s.later a).laneAcc = s.laneAcc := rfl
@[simp] theorem State.later_cls (s : State) (a : Act) : (s.later a).cls = s.cls := rfl
@[simp] theorem State.later_frag (s : State) (a : Act) : (s.later a).frag = s.frag := rfl
@[simp] theorem State.later_flow (s : State) (a : Act) : (s.later a).flow = s.flow := rfl
@[simp] theorem State.later_ep (s : State) (a : Act) : (s.later a).ep = s.ep := rfl
@[simp] theorem State.later_fcores (s : State) (a : Act) : (s.later a).fcores = s.fcores := rfl
@[simp] theorem State.later_fsets (s : State) (a : Act) : (s.later a).fsets = s.fsets := rfl
@[simp] theorem State.later_fhalf (s : State) (a : Act) : (s.later a).fhalf = s.fhalf := rfl
@[simp] theorem State.later_tree (s : State) (a : Act) : (s.later a).tree = s.tree := rfl
@[simp] theorem State.later_arr (s : State) (a : Act) : (s.later a).arr = s.arr := rfl
@[simp] theorem State.later_ctxs (s : State) (a : Act) : (s.later a).ctxs = s.ctxs := rfl
@[simp] theorem State.later_layout (s : State) (a : Act) : (s.later a).layout = s.layout := rfl
@[simp] theorem State.later_eg (s : State) (a : Act) : (s.later a).eg = s.eg := rfl
@[simp] theorem State.later_rxTs (s : State) (a : Act) : (s.later a).rxTs = s.rxTs := rfl
@[simp] theorem State.later_txTs (s : State) (a : Act) : (s.later a).txTs = s.txTs := rfl
@[simp] theorem State.later_hq (s : State) (a : Act) : (s.later a).hq = s.hq := rfl
@[simp] theorem State.later_obs (s : State) (a : Act) : (s.later a).obs = s.obs := rfl
@[simp] theorem State.later_watches (s : State) (a : Act) : (s.later a).watches = s.watches := rfl
@[simp] theorem State.later_host (s : State) (a : Act) : (s.later a).host = s.host := rfl
@[simp] theorem State.later_hbm (s : State) (a : Act) : (s.later a).hbm = s.hbm := rfl
@[simp] theorem State.later_lanes (s : State) (a : Act) : (s.later a).lanes = s.lanes := rfl
@[simp] theorem State.later_flocks (s : State) (a : Act) : (s.later a).flocks = s.flocks := rfl
@[simp] theorem State.later_flt (s : State) (a : Act) : (s.later a).flt = s.flt := rfl
@[simp] theorem State.later_sec (s : State) (a : Act) : (s.later a).sec = s.sec := rfl
@[simp] theorem State.later_auth (s : State) (a : Act) : (s.later a).auth = s.auth := rfl
@[simp] theorem State.later_cal (s : State) (a : Act) : (s.later a).cal = s.cal := rfl
@[simp] theorem State.later_hl (s : State) (a : Act) : (s.later a).hl = s.hl := rfl
@[simp] theorem State.later_herd (s : State) (a : Act) : (s.later a).herd = s.herd := rfl
@[simp] theorem State.later_devSafe (s : State) (a : Act) : (s.later a).devSafe = s.devSafe := rfl
@[simp] theorem State.later_globals (s : State) (a : Act) : (s.later a).globals = s.globals := rfl
@[simp] theorem State.later_free (s : State) (a : Act) : (s.later a).free = s.free := rfl

/-! drawChal -/

@[simp] theorem State.drawChal_pending (s : State) : (s.drawChal).pending = s.pending := rfl
@[simp] theorem State.drawChal_regs (s : State) : (s.drawChal).regs = s.regs := rfl
@[simp] theorem State.drawChal_acting (s : State) : (s.drawChal).acting = s.acting := rfl
@[simp] theorem State.drawChal_time (s : State) : (s.drawChal).time = s.time := rfl
@[simp] theorem State.drawChal_rx (s : State) : (s.drawChal).rx = s.rx := rfl
@[simp] theorem State.drawChal_pkts (s : State) : (s.drawChal).pkts = s.pkts := rfl
@[simp] theorem State.drawChal_nextPkt (s : State) : (s.drawChal).nextPkt = s.nextPkt := rfl
@[simp] theorem State.drawChal_laneAcc (s : State) : (s.drawChal).laneAcc = s.laneAcc := rfl
@[simp] theorem State.drawChal_cls (s : State) : (s.drawChal).cls = s.cls := rfl
@[simp] theorem State.drawChal_frag (s : State) : (s.drawChal).frag = s.frag := rfl
@[simp] theorem State.drawChal_flow (s : State) : (s.drawChal).flow = s.flow := rfl
@[simp] theorem State.drawChal_ep (s : State) : (s.drawChal).ep = s.ep := rfl
@[simp] theorem State.drawChal_fcores (s : State) : (s.drawChal).fcores = s.fcores := rfl
@[simp] theorem State.drawChal_fsets (s : State) : (s.drawChal).fsets = s.fsets := rfl
@[simp] theorem State.drawChal_fhalf (s : State) : (s.drawChal).fhalf = s.fhalf := rfl
@[simp] theorem State.drawChal_tree (s : State) : (s.drawChal).tree = s.tree := rfl
@[simp] theorem State.drawChal_arr (s : State) : (s.drawChal).arr = s.arr := rfl
@[simp] theorem State.drawChal_ctxs (s : State) : (s.drawChal).ctxs = s.ctxs := rfl
@[simp] theorem State.drawChal_layout (s : State) : (s.drawChal).layout = s.layout := rfl
@[simp] theorem State.drawChal_eg (s : State) : (s.drawChal).eg = s.eg := rfl
@[simp] theorem State.drawChal_rxTs (s : State) : (s.drawChal).rxTs = s.rxTs := rfl
@[simp] theorem State.drawChal_txTs (s : State) : (s.drawChal).txTs = s.txTs := rfl
@[simp] theorem State.drawChal_hq (s : State) : (s.drawChal).hq = s.hq := rfl
@[simp] theorem State.drawChal_obs (s : State) : (s.drawChal).obs = s.obs := rfl
@[simp] theorem State.drawChal_watches (s : State) : (s.drawChal).watches = s.watches := rfl
@[simp] theorem State.drawChal_host (s : State) : (s.drawChal).host = s.host := rfl
@[simp] theorem State.drawChal_hbm (s : State) : (s.drawChal).hbm = s.hbm := rfl
@[simp] theorem State.drawChal_lanes (s : State) : (s.drawChal).lanes = s.lanes := rfl
@[simp] theorem State.drawChal_flocks (s : State) : (s.drawChal).flocks = s.flocks := rfl
@[simp] theorem State.drawChal_flt (s : State) : (s.drawChal).flt = s.flt := rfl
@[simp] theorem State.drawChal_auth (s : State) : (s.drawChal).auth = s.auth := rfl
@[simp] theorem State.drawChal_cal (s : State) : (s.drawChal).cal = s.cal := rfl
@[simp] theorem State.drawChal_hl (s : State) : (s.drawChal).hl = s.hl := rfl
@[simp] theorem State.drawChal_herd (s : State) : (s.drawChal).herd = s.herd := rfl
@[simp] theorem State.drawChal_acts (s : State) : (s.drawChal).acts = s.acts := rfl
@[simp] theorem State.drawChal_devSafe (s : State) : (s.drawChal).devSafe = s.devSafe := rfl
@[simp] theorem State.drawChal_globals (s : State) : (s.drawChal).globals = s.globals := rfl
@[simp] theorem State.drawChal_free (s : State) : (s.drawChal).free = s.free := rfl

/-! drawNonce -/

@[simp] theorem State.drawNonce_pending (s : State) : (s.drawNonce).pending = s.pending := rfl
@[simp] theorem State.drawNonce_regs (s : State) : (s.drawNonce).regs = s.regs := rfl
@[simp] theorem State.drawNonce_acting (s : State) : (s.drawNonce).acting = s.acting := rfl
@[simp] theorem State.drawNonce_time (s : State) : (s.drawNonce).time = s.time := rfl
@[simp] theorem State.drawNonce_rx (s : State) : (s.drawNonce).rx = s.rx := rfl
@[simp] theorem State.drawNonce_pkts (s : State) : (s.drawNonce).pkts = s.pkts := rfl
@[simp] theorem State.drawNonce_nextPkt (s : State) : (s.drawNonce).nextPkt = s.nextPkt := rfl
@[simp] theorem State.drawNonce_laneAcc (s : State) : (s.drawNonce).laneAcc = s.laneAcc := rfl
@[simp] theorem State.drawNonce_cls (s : State) : (s.drawNonce).cls = s.cls := rfl
@[simp] theorem State.drawNonce_frag (s : State) : (s.drawNonce).frag = s.frag := rfl
@[simp] theorem State.drawNonce_flow (s : State) : (s.drawNonce).flow = s.flow := rfl
@[simp] theorem State.drawNonce_ep (s : State) : (s.drawNonce).ep = s.ep := rfl
@[simp] theorem State.drawNonce_fcores (s : State) : (s.drawNonce).fcores = s.fcores := rfl
@[simp] theorem State.drawNonce_fsets (s : State) : (s.drawNonce).fsets = s.fsets := rfl
@[simp] theorem State.drawNonce_fhalf (s : State) : (s.drawNonce).fhalf = s.fhalf := rfl
@[simp] theorem State.drawNonce_tree (s : State) : (s.drawNonce).tree = s.tree := rfl
@[simp] theorem State.drawNonce_arr (s : State) : (s.drawNonce).arr = s.arr := rfl
@[simp] theorem State.drawNonce_ctxs (s : State) : (s.drawNonce).ctxs = s.ctxs := rfl
@[simp] theorem State.drawNonce_layout (s : State) : (s.drawNonce).layout = s.layout := rfl
@[simp] theorem State.drawNonce_eg (s : State) : (s.drawNonce).eg = s.eg := rfl
@[simp] theorem State.drawNonce_rxTs (s : State) : (s.drawNonce).rxTs = s.rxTs := rfl
@[simp] theorem State.drawNonce_txTs (s : State) : (s.drawNonce).txTs = s.txTs := rfl
@[simp] theorem State.drawNonce_hq (s : State) : (s.drawNonce).hq = s.hq := rfl
@[simp] theorem State.drawNonce_obs (s : State) : (s.drawNonce).obs = s.obs := rfl
@[simp] theorem State.drawNonce_watches (s : State) : (s.drawNonce).watches = s.watches := rfl
@[simp] theorem State.drawNonce_host (s : State) : (s.drawNonce).host = s.host := rfl
@[simp] theorem State.drawNonce_hbm (s : State) : (s.drawNonce).hbm = s.hbm := rfl
@[simp] theorem State.drawNonce_lanes (s : State) : (s.drawNonce).lanes = s.lanes := rfl
@[simp] theorem State.drawNonce_flocks (s : State) : (s.drawNonce).flocks = s.flocks := rfl
@[simp] theorem State.drawNonce_flt (s : State) : (s.drawNonce).flt = s.flt := rfl
@[simp] theorem State.drawNonce_auth (s : State) : (s.drawNonce).auth = s.auth := rfl
@[simp] theorem State.drawNonce_cal (s : State) : (s.drawNonce).cal = s.cal := rfl
@[simp] theorem State.drawNonce_hl (s : State) : (s.drawNonce).hl = s.hl := rfl
@[simp] theorem State.drawNonce_herd (s : State) : (s.drawNonce).herd = s.herd := rfl
@[simp] theorem State.drawNonce_acts (s : State) : (s.drawNonce).acts = s.acts := rfl
@[simp] theorem State.drawNonce_devSafe (s : State) : (s.drawNonce).devSafe = s.devSafe := rfl
@[simp] theorem State.drawNonce_globals (s : State) : (s.drawNonce).globals = s.globals := rfl
@[simp] theorem State.drawNonce_free (s : State) : (s.drawNonce).free = s.free := rfl

/-! dmcView -/

@[simp] theorem State.dmcView_pending (s : State) (u : Unit7) (v : DmcView) : (s.dmcView u v).pending = s.pending := rfl
@[simp] theorem State.dmcView_regs (s : State) (u : Unit7) (v : DmcView) : (s.dmcView u v).regs = s.regs := rfl
@[simp] theorem State.dmcView_acting (s : State) (u : Unit7) (v : DmcView) : (s.dmcView u v).acting = s.acting := rfl
@[simp] theorem State.dmcView_time (s : State) (u : Unit7) (v : DmcView) : (s.dmcView u v).time = s.time := rfl
@[simp] theorem State.dmcView_rx (s : State) (u : Unit7) (v : DmcView) : (s.dmcView u v).rx = s.rx := rfl
@[simp] theorem State.dmcView_pkts (s : State) (u : Unit7) (v : DmcView) : (s.dmcView u v).pkts = s.pkts := rfl
@[simp] theorem State.dmcView_nextPkt (s : State) (u : Unit7) (v : DmcView) : (s.dmcView u v).nextPkt = s.nextPkt := rfl
@[simp] theorem State.dmcView_laneAcc (s : State) (u : Unit7) (v : DmcView) : (s.dmcView u v).laneAcc = s.laneAcc := rfl
@[simp] theorem State.dmcView_cls (s : State) (u : Unit7) (v : DmcView) : (s.dmcView u v).cls = s.cls := rfl
@[simp] theorem State.dmcView_frag (s : State) (u : Unit7) (v : DmcView) : (s.dmcView u v).frag = s.frag := rfl
@[simp] theorem State.dmcView_flow (s : State) (u : Unit7) (v : DmcView) : (s.dmcView u v).flow = s.flow := rfl
@[simp] theorem State.dmcView_ep (s : State) (u : Unit7) (v : DmcView) : (s.dmcView u v).ep = s.ep := rfl
@[simp] theorem State.dmcView_fcores (s : State) (u : Unit7) (v : DmcView) : (s.dmcView u v).fcores = s.fcores := rfl
@[simp] theorem State.dmcView_fsets (s : State) (u : Unit7) (v : DmcView) : (s.dmcView u v).fsets = s.fsets := rfl
@[simp] theorem State.dmcView_fhalf (s : State) (u : Unit7) (v : DmcView) : (s.dmcView u v).fhalf = s.fhalf := rfl
@[simp] theorem State.dmcView_tree (s : State) (u : Unit7) (v : DmcView) : (s.dmcView u v).tree = s.tree := rfl
@[simp] theorem State.dmcView_arr (s : State) (u : Unit7) (v : DmcView) : (s.dmcView u v).arr = s.arr := rfl
@[simp] theorem State.dmcView_ctxs (s : State) (u : Unit7) (v : DmcView) : (s.dmcView u v).ctxs = s.ctxs := rfl
@[simp] theorem State.dmcView_layout (s : State) (u : Unit7) (v : DmcView) : (s.dmcView u v).layout = s.layout := rfl
@[simp] theorem State.dmcView_eg (s : State) (u : Unit7) (v : DmcView) : (s.dmcView u v).eg = s.eg := rfl
@[simp] theorem State.dmcView_rxTs (s : State) (u : Unit7) (v : DmcView) : (s.dmcView u v).rxTs = s.rxTs := rfl
@[simp] theorem State.dmcView_txTs (s : State) (u : Unit7) (v : DmcView) : (s.dmcView u v).txTs = s.txTs := rfl
@[simp] theorem State.dmcView_hq (s : State) (u : Unit7) (v : DmcView) : (s.dmcView u v).hq = s.hq := rfl
@[simp] theorem State.dmcView_obs (s : State) (u : Unit7) (v : DmcView) : (s.dmcView u v).obs = s.obs := rfl
@[simp] theorem State.dmcView_watches (s : State) (u : Unit7) (v : DmcView) : (s.dmcView u v).watches = s.watches := rfl
@[simp] theorem State.dmcView_host (s : State) (u : Unit7) (v : DmcView) : (s.dmcView u v).host = s.host := rfl
@[simp] theorem State.dmcView_hbm (s : State) (u : Unit7) (v : DmcView) : (s.dmcView u v).hbm = s.hbm := rfl
@[simp] theorem State.dmcView_lanes (s : State) (u : Unit7) (v : DmcView) : (s.dmcView u v).lanes = s.lanes := rfl
@[simp] theorem State.dmcView_flocks (s : State) (u : Unit7) (v : DmcView) : (s.dmcView u v).flocks = s.flocks := rfl
@[simp] theorem State.dmcView_sec (s : State) (u : Unit7) (v : DmcView) : (s.dmcView u v).sec = s.sec := rfl
@[simp] theorem State.dmcView_auth (s : State) (u : Unit7) (v : DmcView) : (s.dmcView u v).auth = s.auth := rfl
@[simp] theorem State.dmcView_cal (s : State) (u : Unit7) (v : DmcView) : (s.dmcView u v).cal = s.cal := rfl
@[simp] theorem State.dmcView_hl (s : State) (u : Unit7) (v : DmcView) : (s.dmcView u v).hl = s.hl := rfl
@[simp] theorem State.dmcView_herd (s : State) (u : Unit7) (v : DmcView) : (s.dmcView u v).herd = s.herd := rfl
@[simp] theorem State.dmcView_acts (s : State) (u : Unit7) (v : DmcView) : (s.dmcView u v).acts = s.acts := rfl
@[simp] theorem State.dmcView_devSafe (s : State) (u : Unit7) (v : DmcView) : (s.dmcView u v).devSafe = s.devSafe := rfl
@[simp] theorem State.dmcView_globals (s : State) (u : Unit7) (v : DmcView) : (s.dmcView u v).globals = s.globals := rfl
@[simp] theorem State.dmcView_free (s : State) (u : Unit7) (v : DmcView) : (s.dmcView u v).free = s.free := rfl

/-! wrEvent -/

@[simp] theorem State.wrEvent_pending (s : State) (b i v : Nat) : (s.wrEvent b i v).pending = s.pending := rfl
@[simp] theorem State.wrEvent_acting (s : State) (b i v : Nat) : (s.wrEvent b i v).acting = s.acting := rfl
@[simp] theorem State.wrEvent_time (s : State) (b i v : Nat) : (s.wrEvent b i v).time = s.time := rfl
@[simp] theorem State.wrEvent_rx (s : State) (b i v : Nat) : (s.wrEvent b i v).rx = s.rx := rfl
@[simp] theorem State.wrEvent_pkts (s : State) (b i v : Nat) : (s.wrEvent b i v).pkts = s.pkts := rfl
@[simp] theorem State.wrEvent_nextPkt (s : State) (b i v : Nat) : (s.wrEvent b i v).nextPkt = s.nextPkt := rfl
@[simp] theorem State.wrEvent_laneAcc (s : State) (b i v : Nat) : (s.wrEvent b i v).laneAcc = s.laneAcc := rfl
@[simp] theorem State.wrEvent_cls (s : State) (b i v : Nat) : (s.wrEvent b i v).cls = s.cls := rfl
@[simp] theorem State.wrEvent_frag (s : State) (b i v : Nat) : (s.wrEvent b i v).frag = s.frag := rfl
@[simp] theorem State.wrEvent_flow (s : State) (b i v : Nat) : (s.wrEvent b i v).flow = s.flow := rfl
@[simp] theorem State.wrEvent_ep (s : State) (b i v : Nat) : (s.wrEvent b i v).ep = s.ep := rfl
@[simp] theorem State.wrEvent_fcores (s : State) (b i v : Nat) : (s.wrEvent b i v).fcores = s.fcores := rfl
@[simp] theorem State.wrEvent_fsets (s : State) (b i v : Nat) : (s.wrEvent b i v).fsets = s.fsets := rfl
@[simp] theorem State.wrEvent_fhalf (s : State) (b i v : Nat) : (s.wrEvent b i v).fhalf = s.fhalf := rfl
@[simp] theorem State.wrEvent_tree (s : State) (b i v : Nat) : (s.wrEvent b i v).tree = s.tree := rfl
@[simp] theorem State.wrEvent_arr (s : State) (b i v : Nat) : (s.wrEvent b i v).arr = s.arr := rfl
@[simp] theorem State.wrEvent_ctxs (s : State) (b i v : Nat) : (s.wrEvent b i v).ctxs = s.ctxs := rfl
@[simp] theorem State.wrEvent_layout (s : State) (b i v : Nat) : (s.wrEvent b i v).layout = s.layout := rfl
@[simp] theorem State.wrEvent_eg (s : State) (b i v : Nat) : (s.wrEvent b i v).eg = s.eg := rfl
@[simp] theorem State.wrEvent_rxTs (s : State) (b i v : Nat) : (s.wrEvent b i v).rxTs = s.rxTs := rfl
@[simp] theorem State.wrEvent_txTs (s : State) (b i v : Nat) : (s.wrEvent b i v).txTs = s.txTs := rfl
@[simp] theorem State.wrEvent_hq (s : State) (b i v : Nat) : (s.wrEvent b i v).hq = s.hq := rfl
@[simp] theorem State.wrEvent_obs (s : State) (b i v : Nat) : (s.wrEvent b i v).obs = s.obs := rfl
@[simp] theorem State.wrEvent_watches (s : State) (b i v : Nat) : (s.wrEvent b i v).watches = s.watches := rfl
@[simp] theorem State.wrEvent_host (s : State) (b i v : Nat) : (s.wrEvent b i v).host = s.host := rfl
@[simp] theorem State.wrEvent_hbm (s : State) (b i v : Nat) : (s.wrEvent b i v).hbm = s.hbm := rfl
@[simp] theorem State.wrEvent_lanes (s : State) (b i v : Nat) : (s.wrEvent b i v).lanes = s.lanes := rfl
@[simp] theorem State.wrEvent_flocks (s : State) (b i v : Nat) : (s.wrEvent b i v).flocks = s.flocks := rfl
@[simp] theorem State.wrEvent_flt (s : State) (b i v : Nat) : (s.wrEvent b i v).flt = s.flt := rfl
@[simp] theorem State.wrEvent_sec (s : State) (b i v : Nat) : (s.wrEvent b i v).sec = s.sec := rfl
@[simp] theorem State.wrEvent_auth (s : State) (b i v : Nat) : (s.wrEvent b i v).auth = s.auth := rfl
@[simp] theorem State.wrEvent_cal (s : State) (b i v : Nat) : (s.wrEvent b i v).cal = s.cal := rfl
@[simp] theorem State.wrEvent_hl (s : State) (b i v : Nat) : (s.wrEvent b i v).hl = s.hl := rfl
@[simp] theorem State.wrEvent_herd (s : State) (b i v : Nat) : (s.wrEvent b i v).herd = s.herd := rfl
@[simp] theorem State.wrEvent_acts (s : State) (b i v : Nat) : (s.wrEvent b i v).acts = s.acts := rfl
@[simp] theorem State.wrEvent_devSafe (s : State) (b i v : Nat) : (s.wrEvent b i v).devSafe = s.devSafe := rfl
@[simp] theorem State.wrEvent_globals (s : State) (b i v : Nat) : (s.wrEvent b i v).globals = s.globals := rfl
@[simp] theorem State.wrEvent_free (s : State) (b i v : Nat) : (s.wrEvent b i v).free = s.free := rfl

/-! faultRegs -/

@[simp] theorem State.faultRegs_pending (s : State) (r : FaultRec) : (s.faultRegs r).pending = s.pending := rfl
@[simp] theorem State.faultRegs_acting (s : State) (r : FaultRec) : (s.faultRegs r).acting = s.acting := rfl
@[simp] theorem State.faultRegs_time (s : State) (r : FaultRec) : (s.faultRegs r).time = s.time := rfl
@[simp] theorem State.faultRegs_rx (s : State) (r : FaultRec) : (s.faultRegs r).rx = s.rx := rfl
@[simp] theorem State.faultRegs_pkts (s : State) (r : FaultRec) : (s.faultRegs r).pkts = s.pkts := rfl
@[simp] theorem State.faultRegs_nextPkt (s : State) (r : FaultRec) : (s.faultRegs r).nextPkt = s.nextPkt := rfl
@[simp] theorem State.faultRegs_laneAcc (s : State) (r : FaultRec) : (s.faultRegs r).laneAcc = s.laneAcc := rfl
@[simp] theorem State.faultRegs_cls (s : State) (r : FaultRec) : (s.faultRegs r).cls = s.cls := rfl
@[simp] theorem State.faultRegs_frag (s : State) (r : FaultRec) : (s.faultRegs r).frag = s.frag := rfl
@[simp] theorem State.faultRegs_flow (s : State) (r : FaultRec) : (s.faultRegs r).flow = s.flow := rfl
@[simp] theorem State.faultRegs_ep (s : State) (r : FaultRec) : (s.faultRegs r).ep = s.ep := rfl
@[simp] theorem State.faultRegs_fcores (s : State) (r : FaultRec) : (s.faultRegs r).fcores = s.fcores := rfl
@[simp] theorem State.faultRegs_fsets (s : State) (r : FaultRec) : (s.faultRegs r).fsets = s.fsets := rfl
@[simp] theorem State.faultRegs_fhalf (s : State) (r : FaultRec) : (s.faultRegs r).fhalf = s.fhalf := rfl
@[simp] theorem State.faultRegs_tree (s : State) (r : FaultRec) : (s.faultRegs r).tree = s.tree := rfl
@[simp] theorem State.faultRegs_arr (s : State) (r : FaultRec) : (s.faultRegs r).arr = s.arr := rfl
@[simp] theorem State.faultRegs_ctxs (s : State) (r : FaultRec) : (s.faultRegs r).ctxs = s.ctxs := rfl
@[simp] theorem State.faultRegs_layout (s : State) (r : FaultRec) : (s.faultRegs r).layout = s.layout := rfl
@[simp] theorem State.faultRegs_eg (s : State) (r : FaultRec) : (s.faultRegs r).eg = s.eg := rfl
@[simp] theorem State.faultRegs_rxTs (s : State) (r : FaultRec) : (s.faultRegs r).rxTs = s.rxTs := rfl
@[simp] theorem State.faultRegs_txTs (s : State) (r : FaultRec) : (s.faultRegs r).txTs = s.txTs := rfl
@[simp] theorem State.faultRegs_hq (s : State) (r : FaultRec) : (s.faultRegs r).hq = s.hq := rfl
@[simp] theorem State.faultRegs_obs (s : State) (r : FaultRec) : (s.faultRegs r).obs = s.obs := rfl
@[simp] theorem State.faultRegs_watches (s : State) (r : FaultRec) : (s.faultRegs r).watches = s.watches := rfl
@[simp] theorem State.faultRegs_host (s : State) (r : FaultRec) : (s.faultRegs r).host = s.host := rfl
@[simp] theorem State.faultRegs_hbm (s : State) (r : FaultRec) : (s.faultRegs r).hbm = s.hbm := rfl
@[simp] theorem State.faultRegs_lanes (s : State) (r : FaultRec) : (s.faultRegs r).lanes = s.lanes := rfl
@[simp] theorem State.faultRegs_flocks (s : State) (r : FaultRec) : (s.faultRegs r).flocks = s.flocks := rfl
@[simp] theorem State.faultRegs_flt (s : State) (r : FaultRec) : (s.faultRegs r).flt = s.flt := rfl
@[simp] theorem State.faultRegs_sec (s : State) (r : FaultRec) : (s.faultRegs r).sec = s.sec := rfl
@[simp] theorem State.faultRegs_auth (s : State) (r : FaultRec) : (s.faultRegs r).auth = s.auth := rfl
@[simp] theorem State.faultRegs_cal (s : State) (r : FaultRec) : (s.faultRegs r).cal = s.cal := rfl
@[simp] theorem State.faultRegs_hl (s : State) (r : FaultRec) : (s.faultRegs r).hl = s.hl := rfl
@[simp] theorem State.faultRegs_herd (s : State) (r : FaultRec) : (s.faultRegs r).herd = s.herd := rfl
@[simp] theorem State.faultRegs_acts (s : State) (r : FaultRec) : (s.faultRegs r).acts = s.acts := rfl
@[simp] theorem State.faultRegs_devSafe (s : State) (r : FaultRec) : (s.faultRegs r).devSafe = s.devSafe := rfl
@[simp] theorem State.faultRegs_globals (s : State) (r : FaultRec) : (s.faultRegs r).globals = s.globals := rfl
@[simp] theorem State.faultRegs_free (s : State) (r : FaultRec) : (s.faultRegs r).free = s.free := rfl

/-! cells -/

@[simp] theorem State.cells_pending (s : State) (d : Int) : (s.cells d).pending = s.pending := rfl
@[simp] theorem State.cells_acting (s : State) (d : Int) : (s.cells d).acting = s.acting := rfl
@[simp] theorem State.cells_time (s : State) (d : Int) : (s.cells d).time = s.time := rfl
@[simp] theorem State.cells_rx (s : State) (d : Int) : (s.cells d).rx = s.rx := rfl
@[simp] theorem State.cells_pkts (s : State) (d : Int) : (s.cells d).pkts = s.pkts := rfl
@[simp] theorem State.cells_nextPkt (s : State) (d : Int) : (s.cells d).nextPkt = s.nextPkt := rfl
@[simp] theorem State.cells_laneAcc (s : State) (d : Int) : (s.cells d).laneAcc = s.laneAcc := rfl
@[simp] theorem State.cells_cls (s : State) (d : Int) : (s.cells d).cls = s.cls := rfl
@[simp] theorem State.cells_frag (s : State) (d : Int) : (s.cells d).frag = s.frag := rfl
@[simp] theorem State.cells_flow (s : State) (d : Int) : (s.cells d).flow = s.flow := rfl
@[simp] theorem State.cells_ep (s : State) (d : Int) : (s.cells d).ep = s.ep := rfl
@[simp] theorem State.cells_fcores (s : State) (d : Int) : (s.cells d).fcores = s.fcores := rfl
@[simp] theorem State.cells_fsets (s : State) (d : Int) : (s.cells d).fsets = s.fsets := rfl
@[simp] theorem State.cells_fhalf (s : State) (d : Int) : (s.cells d).fhalf = s.fhalf := rfl
@[simp] theorem State.cells_tree (s : State) (d : Int) : (s.cells d).tree = s.tree := rfl
@[simp] theorem State.cells_arr (s : State) (d : Int) : (s.cells d).arr = s.arr := rfl
@[simp] theorem State.cells_ctxs (s : State) (d : Int) : (s.cells d).ctxs = s.ctxs := rfl
@[simp] theorem State.cells_layout (s : State) (d : Int) : (s.cells d).layout = s.layout := rfl
@[simp] theorem State.cells_eg (s : State) (d : Int) : (s.cells d).eg = s.eg := rfl
@[simp] theorem State.cells_rxTs (s : State) (d : Int) : (s.cells d).rxTs = s.rxTs := rfl
@[simp] theorem State.cells_txTs (s : State) (d : Int) : (s.cells d).txTs = s.txTs := rfl
@[simp] theorem State.cells_hq (s : State) (d : Int) : (s.cells d).hq = s.hq := rfl
@[simp] theorem State.cells_obs (s : State) (d : Int) : (s.cells d).obs = s.obs := rfl
@[simp] theorem State.cells_watches (s : State) (d : Int) : (s.cells d).watches = s.watches := rfl
@[simp] theorem State.cells_host (s : State) (d : Int) : (s.cells d).host = s.host := rfl
@[simp] theorem State.cells_hbm (s : State) (d : Int) : (s.cells d).hbm = s.hbm := rfl
@[simp] theorem State.cells_lanes (s : State) (d : Int) : (s.cells d).lanes = s.lanes := rfl
@[simp] theorem State.cells_flocks (s : State) (d : Int) : (s.cells d).flocks = s.flocks := rfl
@[simp] theorem State.cells_flt (s : State) (d : Int) : (s.cells d).flt = s.flt := rfl
@[simp] theorem State.cells_sec (s : State) (d : Int) : (s.cells d).sec = s.sec := rfl
@[simp] theorem State.cells_auth (s : State) (d : Int) : (s.cells d).auth = s.auth := rfl
@[simp] theorem State.cells_cal (s : State) (d : Int) : (s.cells d).cal = s.cal := rfl
@[simp] theorem State.cells_hl (s : State) (d : Int) : (s.cells d).hl = s.hl := rfl
@[simp] theorem State.cells_herd (s : State) (d : Int) : (s.cells d).herd = s.herd := rfl
@[simp] theorem State.cells_acts (s : State) (d : Int) : (s.cells d).acts = s.acts := rfl
@[simp] theorem State.cells_devSafe (s : State) (d : Int) : (s.cells d).devSafe = s.devSafe := rfl
@[simp] theorem State.cells_globals (s : State) (d : Int) : (s.cells d).globals = s.globals := rfl
@[simp] theorem State.cells_free (s : State) (d : Int) : (s.cells d).free = s.free := rfl

/-! setResident -/

@[simp] theorem State.setResident_pending (s : State) (l : Nat) (up : Bool) : (s.setResident l up).pending = s.pending := rfl
@[simp] theorem State.setResident_acting (s : State) (l : Nat) (up : Bool) : (s.setResident l up).acting = s.acting := rfl
@[simp] theorem State.setResident_time (s : State) (l : Nat) (up : Bool) : (s.setResident l up).time = s.time := rfl
@[simp] theorem State.setResident_rx (s : State) (l : Nat) (up : Bool) : (s.setResident l up).rx = s.rx := rfl
@[simp] theorem State.setResident_pkts (s : State) (l : Nat) (up : Bool) : (s.setResident l up).pkts = s.pkts := rfl
@[simp] theorem State.setResident_nextPkt (s : State) (l : Nat) (up : Bool) : (s.setResident l up).nextPkt = s.nextPkt := rfl
@[simp] theorem State.setResident_laneAcc (s : State) (l : Nat) (up : Bool) : (s.setResident l up).laneAcc = s.laneAcc := rfl
@[simp] theorem State.setResident_cls (s : State) (l : Nat) (up : Bool) : (s.setResident l up).cls = s.cls := rfl
@[simp] theorem State.setResident_frag (s : State) (l : Nat) (up : Bool) : (s.setResident l up).frag = s.frag := rfl
@[simp] theorem State.setResident_flow (s : State) (l : Nat) (up : Bool) : (s.setResident l up).flow = s.flow := rfl
@[simp] theorem State.setResident_ep (s : State) (l : Nat) (up : Bool) : (s.setResident l up).ep = s.ep := rfl
@[simp] theorem State.setResident_fcores (s : State) (l : Nat) (up : Bool) : (s.setResident l up).fcores = s.fcores := rfl
@[simp] theorem State.setResident_fsets (s : State) (l : Nat) (up : Bool) : (s.setResident l up).fsets = s.fsets := rfl
@[simp] theorem State.setResident_fhalf (s : State) (l : Nat) (up : Bool) : (s.setResident l up).fhalf = s.fhalf := rfl
@[simp] theorem State.setResident_tree (s : State) (l : Nat) (up : Bool) : (s.setResident l up).tree = s.tree := rfl
@[simp] theorem State.setResident_arr (s : State) (l : Nat) (up : Bool) : (s.setResident l up).arr = s.arr := rfl
@[simp] theorem State.setResident_ctxs (s : State) (l : Nat) (up : Bool) : (s.setResident l up).ctxs = s.ctxs := rfl
@[simp] theorem State.setResident_layout (s : State) (l : Nat) (up : Bool) : (s.setResident l up).layout = s.layout := rfl
@[simp] theorem State.setResident_eg (s : State) (l : Nat) (up : Bool) : (s.setResident l up).eg = s.eg := rfl
@[simp] theorem State.setResident_rxTs (s : State) (l : Nat) (up : Bool) : (s.setResident l up).rxTs = s.rxTs := rfl
@[simp] theorem State.setResident_txTs (s : State) (l : Nat) (up : Bool) : (s.setResident l up).txTs = s.txTs := rfl
@[simp] theorem State.setResident_hq (s : State) (l : Nat) (up : Bool) : (s.setResident l up).hq = s.hq := rfl
@[simp] theorem State.setResident_obs (s : State) (l : Nat) (up : Bool) : (s.setResident l up).obs = s.obs := rfl
@[simp] theorem State.setResident_watches (s : State) (l : Nat) (up : Bool) : (s.setResident l up).watches = s.watches := rfl
@[simp] theorem State.setResident_host (s : State) (l : Nat) (up : Bool) : (s.setResident l up).host = s.host := rfl
@[simp] theorem State.setResident_hbm (s : State) (l : Nat) (up : Bool) : (s.setResident l up).hbm = s.hbm := rfl
@[simp] theorem State.setResident_flocks (s : State) (l : Nat) (up : Bool) : (s.setResident l up).flocks = s.flocks := rfl
@[simp] theorem State.setResident_flt (s : State) (l : Nat) (up : Bool) : (s.setResident l up).flt = s.flt := rfl
@[simp] theorem State.setResident_sec (s : State) (l : Nat) (up : Bool) : (s.setResident l up).sec = s.sec := rfl
@[simp] theorem State.setResident_auth (s : State) (l : Nat) (up : Bool) : (s.setResident l up).auth = s.auth := rfl
@[simp] theorem State.setResident_cal (s : State) (l : Nat) (up : Bool) : (s.setResident l up).cal = s.cal := rfl
@[simp] theorem State.setResident_hl (s : State) (l : Nat) (up : Bool) : (s.setResident l up).hl = s.hl := rfl
@[simp] theorem State.setResident_herd (s : State) (l : Nat) (up : Bool) : (s.setResident l up).herd = s.herd := rfl
@[simp] theorem State.setResident_acts (s : State) (l : Nat) (up : Bool) : (s.setResident l up).acts = s.acts := rfl
@[simp] theorem State.setResident_devSafe (s : State) (l : Nat) (up : Bool) : (s.setResident l up).devSafe = s.devSafe := rfl
@[simp] theorem State.setResident_globals (s : State) (l : Nat) (up : Bool) : (s.setResident l up).globals = s.globals := rfl
@[simp] theorem State.setResident_free (s : State) (l : Nat) (up : Bool) : (s.setResident l up).free = s.free := rfl

/-! ledger -/

@[simp] theorem State.ledger_pending (s : State) (l c : Nat) : (s.ledger l c).pending = s.pending := rfl
@[simp] theorem State.ledger_acting (s : State) (l c : Nat) : (s.ledger l c).acting = s.acting := rfl
@[simp] theorem State.ledger_time (s : State) (l c : Nat) : (s.ledger l c).time = s.time := rfl
@[simp] theorem State.ledger_rx (s : State) (l c : Nat) : (s.ledger l c).rx = s.rx := rfl
@[simp] theorem State.ledger_pkts (s : State) (l c : Nat) : (s.ledger l c).pkts = s.pkts := rfl
@[simp] theorem State.ledger_nextPkt (s : State) (l c : Nat) : (s.ledger l c).nextPkt = s.nextPkt := rfl
@[simp] theorem State.ledger_laneAcc (s : State) (l c : Nat) : (s.ledger l c).laneAcc = s.laneAcc := rfl
@[simp] theorem State.ledger_cls (s : State) (l c : Nat) : (s.ledger l c).cls = s.cls := rfl
@[simp] theorem State.ledger_frag (s : State) (l c : Nat) : (s.ledger l c).frag = s.frag := rfl
@[simp] theorem State.ledger_flow (s : State) (l c : Nat) : (s.ledger l c).flow = s.flow := rfl
@[simp] theorem State.ledger_ep (s : State) (l c : Nat) : (s.ledger l c).ep = s.ep := rfl
@[simp] theorem State.ledger_fcores (s : State) (l c : Nat) : (s.ledger l c).fcores = s.fcores := rfl
@[simp] theorem State.ledger_fsets (s : State) (l c : Nat) : (s.ledger l c).fsets = s.fsets := rfl
@[simp] theorem State.ledger_fhalf (s : State) (l c : Nat) : (s.ledger l c).fhalf = s.fhalf := rfl
@[simp] theorem State.ledger_tree (s : State) (l c : Nat) : (s.ledger l c).tree = s.tree := rfl
@[simp] theorem State.ledger_arr (s : State) (l c : Nat) : (s.ledger l c).arr = s.arr := rfl
@[simp] theorem State.ledger_ctxs (s : State) (l c : Nat) : (s.ledger l c).ctxs = s.ctxs := rfl
@[simp] theorem State.ledger_layout (s : State) (l c : Nat) : (s.ledger l c).layout = s.layout := rfl
@[simp] theorem State.ledger_eg (s : State) (l c : Nat) : (s.ledger l c).eg = s.eg := rfl
@[simp] theorem State.ledger_rxTs (s : State) (l c : Nat) : (s.ledger l c).rxTs = s.rxTs := rfl
@[simp] theorem State.ledger_txTs (s : State) (l c : Nat) : (s.ledger l c).txTs = s.txTs := rfl
@[simp] theorem State.ledger_hq (s : State) (l c : Nat) : (s.ledger l c).hq = s.hq := rfl
@[simp] theorem State.ledger_obs (s : State) (l c : Nat) : (s.ledger l c).obs = s.obs := rfl
@[simp] theorem State.ledger_watches (s : State) (l c : Nat) : (s.ledger l c).watches = s.watches := rfl
@[simp] theorem State.ledger_host (s : State) (l c : Nat) : (s.ledger l c).host = s.host := rfl
@[simp] theorem State.ledger_hbm (s : State) (l c : Nat) : (s.ledger l c).hbm = s.hbm := rfl
@[simp] theorem State.ledger_lanes (s : State) (l c : Nat) : (s.ledger l c).lanes = s.lanes := rfl
@[simp] theorem State.ledger_flocks (s : State) (l c : Nat) : (s.ledger l c).flocks = s.flocks := rfl
@[simp] theorem State.ledger_sec (s : State) (l c : Nat) : (s.ledger l c).sec = s.sec := rfl
@[simp] theorem State.ledger_auth (s : State) (l c : Nat) : (s.ledger l c).auth = s.auth := rfl
@[simp] theorem State.ledger_cal (s : State) (l c : Nat) : (s.ledger l c).cal = s.cal := rfl
@[simp] theorem State.ledger_hl (s : State) (l c : Nat) : (s.ledger l c).hl = s.hl := rfl
@[simp] theorem State.ledger_herd (s : State) (l c : Nat) : (s.ledger l c).herd = s.herd := rfl
@[simp] theorem State.ledger_acts (s : State) (l c : Nat) : (s.ledger l c).acts = s.acts := rfl
@[simp] theorem State.ledger_devSafe (s : State) (l c : Nat) : (s.ledger l c).devSafe = s.devSafe := rfl
@[simp] theorem State.ledger_globals (s : State) (l c : Nat) : (s.ledger l c).globals = s.globals := rfl
@[simp] theorem State.ledger_free (s : State) (l c : Nat) : (s.ledger l c).free = s.free := rfl

/-! hqLose -/

@[simp] theorem State.hqLose_pending (s : State) (q : Nat) : (s.hqLose q).pending = s.pending := rfl
@[simp] theorem State.hqLose_acting (s : State) (q : Nat) : (s.hqLose q).acting = s.acting := rfl
@[simp] theorem State.hqLose_time (s : State) (q : Nat) : (s.hqLose q).time = s.time := rfl
@[simp] theorem State.hqLose_rx (s : State) (q : Nat) : (s.hqLose q).rx = s.rx := rfl
@[simp] theorem State.hqLose_pkts (s : State) (q : Nat) : (s.hqLose q).pkts = s.pkts := rfl
@[simp] theorem State.hqLose_nextPkt (s : State) (q : Nat) : (s.hqLose q).nextPkt = s.nextPkt := rfl
@[simp] theorem State.hqLose_laneAcc (s : State) (q : Nat) : (s.hqLose q).laneAcc = s.laneAcc := rfl
@[simp] theorem State.hqLose_cls (s : State) (q : Nat) : (s.hqLose q).cls = s.cls := rfl
@[simp] theorem State.hqLose_frag (s : State) (q : Nat) : (s.hqLose q).frag = s.frag := rfl
@[simp] theorem State.hqLose_flow (s : State) (q : Nat) : (s.hqLose q).flow = s.flow := rfl
@[simp] theorem State.hqLose_ep (s : State) (q : Nat) : (s.hqLose q).ep = s.ep := rfl
@[simp] theorem State.hqLose_fcores (s : State) (q : Nat) : (s.hqLose q).fcores = s.fcores := rfl
@[simp] theorem State.hqLose_fsets (s : State) (q : Nat) : (s.hqLose q).fsets = s.fsets := rfl
@[simp] theorem State.hqLose_fhalf (s : State) (q : Nat) : (s.hqLose q).fhalf = s.fhalf := rfl
@[simp] theorem State.hqLose_tree (s : State) (q : Nat) : (s.hqLose q).tree = s.tree := rfl
@[simp] theorem State.hqLose_arr (s : State) (q : Nat) : (s.hqLose q).arr = s.arr := rfl
@[simp] theorem State.hqLose_ctxs (s : State) (q : Nat) : (s.hqLose q).ctxs = s.ctxs := rfl
@[simp] theorem State.hqLose_layout (s : State) (q : Nat) : (s.hqLose q).layout = s.layout := rfl
@[simp] theorem State.hqLose_eg (s : State) (q : Nat) : (s.hqLose q).eg = s.eg := rfl
@[simp] theorem State.hqLose_rxTs (s : State) (q : Nat) : (s.hqLose q).rxTs = s.rxTs := rfl
@[simp] theorem State.hqLose_txTs (s : State) (q : Nat) : (s.hqLose q).txTs = s.txTs := rfl
@[simp] theorem State.hqLose_obs (s : State) (q : Nat) : (s.hqLose q).obs = s.obs := rfl
@[simp] theorem State.hqLose_watches (s : State) (q : Nat) : (s.hqLose q).watches = s.watches := rfl
@[simp] theorem State.hqLose_host (s : State) (q : Nat) : (s.hqLose q).host = s.host := rfl
@[simp] theorem State.hqLose_hbm (s : State) (q : Nat) : (s.hqLose q).hbm = s.hbm := rfl
@[simp] theorem State.hqLose_lanes (s : State) (q : Nat) : (s.hqLose q).lanes = s.lanes := rfl
@[simp] theorem State.hqLose_flocks (s : State) (q : Nat) : (s.hqLose q).flocks = s.flocks := rfl
@[simp] theorem State.hqLose_flt (s : State) (q : Nat) : (s.hqLose q).flt = s.flt := rfl
@[simp] theorem State.hqLose_sec (s : State) (q : Nat) : (s.hqLose q).sec = s.sec := rfl
@[simp] theorem State.hqLose_auth (s : State) (q : Nat) : (s.hqLose q).auth = s.auth := rfl
@[simp] theorem State.hqLose_cal (s : State) (q : Nat) : (s.hqLose q).cal = s.cal := rfl
@[simp] theorem State.hqLose_hl (s : State) (q : Nat) : (s.hqLose q).hl = s.hl := rfl
@[simp] theorem State.hqLose_herd (s : State) (q : Nat) : (s.hqLose q).herd = s.herd := rfl
@[simp] theorem State.hqLose_acts (s : State) (q : Nat) : (s.hqLose q).acts = s.acts := rfl
@[simp] theorem State.hqLose_devSafe (s : State) (q : Nat) : (s.hqLose q).devSafe = s.devSafe := rfl
@[simp] theorem State.hqLose_globals (s : State) (q : Nat) : (s.hqLose q).globals = s.globals := rfl
@[simp] theorem State.hqLose_free (s : State) (q : Nat) : (s.hqLose q).free = s.free := rfl

end Sys2Proof.Machine
end

