-- ==== Sys2Proof/Laws/Tables.lean ====
section
/-! SUPPORT. Sparse tables and byte memories: a read after a write, writes that leave other keys alone, and the canonical form kept by every
operation. -/

namespace Sys2Proof.Machine

open Sys2Proof

/-! ### Reads after writes -/

theorem Tbl.find?_put_self {α : Type} (t : Tbl α) (k : Nat) (v : α) : (t.put k v).find? k = some v := by
  induction t with
  | nil => simp [Tbl.put, Tbl.find?]
  | cons e t ih =>
    obtain ⟨a, x⟩ := e
    unfold Tbl.put
    split
    · simp [Tbl.find?]
    · split
      · simp [Tbl.find?]
      · rename_i h; simp [Tbl.find?, Ne.symm h, ih]

theorem Tbl.find?_put_ne {α : Type} (t : Tbl α) {k j : Nat} (v : α) (h : j ≠ k) : (t.put k v).find? j = t.find? j := by
  induction t with
  | nil => simp [Tbl.put, Tbl.find?, Ne.symm h]
  | cons e t ih =>
    obtain ⟨a, x⟩ := e
    unfold Tbl.put
    split
    · simp [Tbl.find?, Ne.symm h]
    · split
      · rename_i h1; subst h1; simp [Tbl.find?, Ne.symm h]
      · simp [Tbl.find?, ih]

theorem Tbl.find?_erase_self {α : Type} (t : Tbl α) (k : Nat) : (t.erase k).find? k = none := by
  induction t with
  | nil => rfl
  | cons e t ih =>
    obtain ⟨a, x⟩ := e
    by_cases h : a = k
    · subst h; simpa [Tbl.erase, Tbl.find?] using ih
    · have : Tbl.erase ((a, x) :: t) k = (a, x) :: Tbl.erase t k := by simp [Tbl.erase, h]
      rw [this]; simp [Tbl.find?, h, ih]

theorem Tbl.find?_erase_ne {α : Type} (t : Tbl α) {k j : Nat} (h : j ≠ k) : (t.erase k).find? j = t.find? j := by
  induction t with
  | nil => rfl
  | cons e t ih =>
    obtain ⟨a, x⟩ := e
    by_cases h1 : a = k
    · subst h1
      have : Tbl.erase ((a, x) :: t) a = Tbl.erase t a := by simp [Tbl.erase]
      rw [this, ih]; simp [Tbl.find?, Ne.symm h]
    · have : Tbl.erase ((a, x) :: t) k = (a, x) :: Tbl.erase t k := by simp [Tbl.erase, h1]
      rw [this]; simp [Tbl.find?, ih]

theorem Tbl.find?_setD_self {α : Type} [DecidableEq α] (t : Tbl α) (d : α) (k : Nat) (v : α) : ((t.setD d k v).find? k).getD d = v := by
  unfold Tbl.setD
  split
  · rename_i h; simp [Tbl.find?_erase_self, h]
  · simp [Tbl.find?_put_self]

theorem Tbl.find?_setD_ne {α : Type} [DecidableEq α] (t : Tbl α) (d : α) {k j : Nat} (v : α) (h : j ≠ k) : (t.setD d k v).find? j = t.find? j := by
  unfold Tbl.setD
  split
  · exact Tbl.find?_erase_ne t h
  · exact Tbl.find?_put_ne t v h

@[simp] theorem Tbl.get_set_self {α : Type} [Inhabited α] [DecidableEq α] (t : Tbl α) (k : Nat) (v : α) : (t.set k v).get k = v :=
  Tbl.find?_setD_self t default k v

theorem Tbl.get_set_ne {α : Type} [Inhabited α] [DecidableEq α] (t : Tbl α) {k j : Nat} (v : α) (h : j ≠ k) : (t.set k v).get j = t.get j := by
  unfold Tbl.get Tbl.set
  rw [Tbl.find?_setD_ne t default v h]

@[simp] theorem Tbl.get_mod_self {α : Type} [Inhabited α] [DecidableEq α] (t : Tbl α) (k : Nat) (f : α → α) : (t.mod k f).get k = f (t.get k) := by
  simp [Tbl.mod]

theorem Tbl.get_mod_ne {α : Type} [Inhabited α] [DecidableEq α] (t : Tbl α) {k j : Nat} (f : α → α) (h : j ≠ k) : (t.mod k f).get j = t.get j := by
  simp [Tbl.mod, Tbl.get_set_ne _ _ h]

@[simp] theorem Mem.read_write_self (m : Mem) (a : Nat) (b : Byte) : Mem.read (Mem.write m a b) a = b := Tbl.find?_setD_self m 0 a b

theorem Mem.read_write_ne (m : Mem) {a c : Nat} (b : Byte) (h : c ≠ a) : Mem.read (Mem.write m a b) c = Mem.read m c := by
  unfold Mem.read Mem.write
  rw [Tbl.find?_setD_ne m 0 b h]

/-- Every byte outside the stored ones reads as before. -/
theorem Mem.read_writeN_ne (m : Mem) (a : Nat) (bs : List Byte) (c : Nat) (h : c < a ∨ a + bs.length ≤ c) :
    Mem.read (Mem.writeN m a bs) c = Mem.read m c := by
  induction bs generalizing m a with
  | nil => rfl
  | cons b bs ih =>
    simp only [List.length_cons] at h
    rw [Mem.writeN, ih _ _ (by omega), Mem.read_write_ne _ _ (by omega)]

/-- Each stored byte reads as stored. -/
theorem Mem.read_writeN (m : Mem) (a : Nat) (bs : List Byte) (i : Nat) (h : i < bs.length) :
    Mem.read (Mem.writeN m a bs) (a + i) = bs[i] := by
  induction bs generalizing m a i with
  | nil => simp at h
  | cons b bs ih =>
    rw [Mem.writeN]
    cases i with
    | zero => rw [Mem.read_writeN_ne _ _ _ _ (by omega)]; simp
    | succ j =>
      have := ih (Mem.write m a b) (a + 1) j (by simpa using h)
      rw [Nat.add_right_comm] at this
      simpa [Nat.add_assoc, Nat.add_comm 1 j] using this

/-! ### The canonical form -/

theorem Tbl.sorted_cons {α : Type} (a : Nat) (x : α) (t : Tbl α) :
    Tbl.sorted ((a, x) :: t) = true ↔ (∀ e ∈ t, a < e.1) ∧ Tbl.sorted t = true := by
  induction t generalizing a x with
  | nil => simp [Tbl.sorted]
  | cons e t ih =>
    obtain ⟨b, v⟩ := e
    simp only [Tbl.sorted, Bool.and_eq_true, decide_eq_true_eq]
    rw [ih]
    constructor
    · rintro ⟨h, h1, h2⟩
      exact ⟨by intro e he; rcases List.mem_cons.1 he with rfl | he; exacts [h, lt_trans h (h1 e he)], h1, h2⟩
    · rintro ⟨h, h1, h2⟩
      exact ⟨h _ (List.mem_cons_self ..), h1, h2⟩

theorem Tbl.mem_put {α : Type} (t : Tbl α) (k : Nat) (v : α) (e : Nat × α) (h : e ∈ t.put k v) : e = (k, v) ∨ e ∈ t := by
  induction t with
  | nil => simpa [Tbl.put] using h
  | cons p t ih =>
    obtain ⟨a, x⟩ := p
    unfold Tbl.put at h
    split at h
    · simpa using h
    · split at h
      · rcases List.mem_cons.1 h with h | h
        · exact .inl h
        · exact .inr (List.mem_cons_of_mem _ h)
      · rcases List.mem_cons.1 h with h | h
        · exact .inr (by simp [h])
        · exact (ih h).imp_right (List.mem_cons_of_mem _)

theorem Tbl.sorted_put {α : Type} (t : Tbl α) (k : Nat) (v : α) (h : t.sorted = true) : (t.put k v).sorted = true := by
  induction t with
  | nil => rfl
  | cons p t ih =>
    obtain ⟨a, x⟩ := p
    have ⟨h1, h2⟩ := (Tbl.sorted_cons a x t).1 h
    unfold Tbl.put
    split
    · rename_i hk
      rw [Tbl.sorted_cons]
      exact ⟨by intro e he; rcases List.mem_cons.1 he with rfl | he; exacts [hk, lt_trans hk (h1 e he)], h⟩
    · split
      · rename_i hk; subst hk; exact (Tbl.sorted_cons _ v t).2 ⟨h1, h2⟩
      · rename_i hk1 hk2
        rw [Tbl.sorted_cons]
        refine ⟨fun e he => ?_, ih h2⟩
        rcases Tbl.mem_put t k v e he with rfl | he
        · simp only; omega
        · exact h1 e he

theorem Tbl.sorted_filter {α : Type} (t : Tbl α) (p : Nat × α → Bool) (h : t.sorted = true) : Tbl.sorted (t.filter p) = true := by
  induction t with
  | nil => rfl
  | cons e t ih =>
    obtain ⟨a, x⟩ := e
    have ⟨h1, h2⟩ := (Tbl.sorted_cons a x t).1 h
    by_cases hp : p (a, x) = true
    · rw [List.filter_cons_of_pos hp, Tbl.sorted_cons]
      exact ⟨fun e he => h1 e (List.mem_filter.1 he).1, ih h2⟩
    · rw [List.filter_cons_of_neg hp]; exact ih h2

theorem Tbl.wf_setD {α : Type} [DecidableEq α] (t : Tbl α) (d : α) (k : Nat) (v : α) (h : t.wf d = true) : (t.setD d k v).wf d = true := by
  unfold Tbl.wf at h ⊢
  simp only [Bool.and_eq_true, List.all_eq_true, decide_eq_true_eq] at h ⊢
  unfold Tbl.setD
  split
  · exact ⟨Tbl.sorted_filter t _ h.1, fun e he => h.2 e (List.mem_filter.1 he).1⟩
  · rename_i hv
    refine ⟨Tbl.sorted_put t k v h.1, fun e he => ?_⟩
    rcases Tbl.mem_put t k v e he with rfl | he
    · exact hv
    · exact h.2 e he

/-- A byte write keeps the canonical form. -/
theorem Mem.wf_write (m : Mem) (a : Nat) (b : Byte) (h : Mem.wf m = true) : Mem.wf (Mem.write m a b) = true := Tbl.wf_setD m 0 a b h

/-- A write of many bytes keeps the canonical form. -/
theorem Mem.wf_writeN (m : Mem) (a : Nat) (bs : List Byte) (h : Mem.wf m = true) : Mem.wf (Mem.writeN m a bs) = true := by
  induction bs generalizing m a with
  | nil => exact h
  | cons b bs ih => exact ih _ _ (Mem.wf_write m a b h)

/-- Clearing a range keeps the canonical form. -/
theorem Mem.wf_clear (m : Mem) (lo hi : Nat) (h : Mem.wf m = true) : Mem.wf (Mem.clear m lo hi) = true := by
  unfold Mem.wf Tbl.wf at h ⊢
  simp only [Bool.and_eq_true, List.all_eq_true, decide_eq_true_eq] at h ⊢
  exact ⟨Tbl.sorted_filter m _ h.1, fun e he => h.2 e (List.mem_filter.1 he).1⟩

/-! ### The register file -/

@[simp] theorem State.rd_wr_self (s : State) (f : Field) (v i j k : Nat) : (s.wr f v i j k).rd f i j k = v % 2 ^ f.width :=
  Tbl.find?_setD_self s.regs _ _ _

theorem State.rd_wr_ne (s : State) (f g : Field) (v i j k i' j' k' : Nat) (h : g.key i' j' k' ≠ f.key i j k) :
    (s.wr f v i j k).rd g i' j' k' = s.rd g i' j' k' := by
  unfold State.rd State.wr
  rw [Tbl.find?_setD_ne s.regs _ _ h]

/-- A register's value after a counter has risen (R355). -/
theorem State.rd_bump_self (s : State) (f : Field) (i j k n : Nat) :
    (s.bump f i j k n).rd f i j k = (if f.width = 64 then s.rd f i j k + n else Nat.min (s.rd f i j k + n) (2 ^ f.width - 1)) % 2 ^ f.width := by
  unfold State.bump
  simp

end Sys2Proof.Machine
end

