-- ==== Sys2Proof/Laws/Ops.lean ====
section
/-! SUPPORT. What each shared operation can change: an operation's result is its argument with the named fields replaced. -/

namespace Sys2Proof.Machine

open Sys2Proof

/-! ### Vectors and events -/

theorem State.raiseVec_spec (s : State) (v : Nat) : ∃ h, s.raiseVec v = { s with host := h } := by
  unfold State.raiseVec
  split
  · exact ⟨_, rfl⟩
  · exact ⟨_, rfl⟩

theorem State.evtEdge_spec (s old : State) (b i : Nat) : ∃ h, s.evtEdge old b i = { s with host := h } := by
  unfold State.evtEdge
  split
  · exact State.raiseVec_spec s 0
  · exact ⟨_, rfl⟩

theorem State.wr_spec (s : State) (f : Field) (v i j k : Nat) : ∃ r, s.wr f v i j k = { s with regs := r } := ⟨_, rfl⟩

theorem State.wrEvent_spec (s : State) (b i v : Nat) : ∃ r, s.wrEvent b i v = { s with regs := r } := by
  unfold State.wrEvent
  obtain ⟨r1, e1⟩ := State.wr_spec s (Reg.COMMON.EVENT.on b) v i 0 0
  rw [e1]
  obtain ⟨r2, e2⟩ := State.wr_spec { s with regs := r1 } (Reg.COMMON.EV_STATE.on b) (v / 2 ^ 30) i 0 0
  rw [e2]
  exact State.wr_spec { s with regs := r2 } _ _ _ _ _

theorem State.events_spec (s : State) (b i m : Nat) : ∃ r h, s.events b i m = { s with regs := r, host := h } := by
  unfold State.events
  obtain ⟨r, e⟩ := State.wrEvent_spec s b i (s.eventWord b i ||| m)
  rw [e]
  obtain ⟨h, e⟩ := State.evtEdge_spec { s with regs := r } s b i
  exact ⟨r, h, e⟩

theorem State.event_spec (s : State) (b i n : Nat) : ∃ r h, s.event b i n = { s with regs := r, host := h } := by
  unfold State.event
  exact State.events_spec s b i _

/-! ### HBM -/

theorem State.touchLines_spec (l : List Nat) (s : State) (a n : Nat) :
    ∃ f, l.foldl (fun t x => t.touchLine a n x) s = { s with flt := f } := by
  induction l generalizing s with
  | nil => exact ⟨s.flt, rfl⟩
  | cons x l ih =>
    obtain ⟨f, e⟩ := ih (s.touchLine a n x)
    exact ⟨f, by rw [List.foldl_cons, e]; rfl⟩

/-- A store of bytes touches the error state of lines and the notes of the present cycle; it changes nothing else. -/
theorem State.hbmPut_spec (s : State) (a : Nat) (bs : List Byte) : ∃ m f, s.hbmPut a bs = { s with hbm := m, flt := f } := by
  unfold State.hbmPut State.hbmPutAs
  dsimp only
  obtain ⟨f, e⟩ := State.touchLines_spec (linesOf a bs.length) { s with hbm := (s.cycLate.filter (fun w => decide (0 < w.1))).foldl (fun m w =>
    (List.range w.2.2.length).foldl (fun m i => if a ≤ w.2.1 + i ∧ w.2.1 + i < a + bs.length then Mem.write m (w.2.1 + i) (w.2.2.getD i 0) else m) m) (Mem.writeN s.hbm a bs) } a bs.length
  rw [e]
  exact ⟨_, _, rfl⟩

/-- Without a later-ranked write in the present cycle, a store leaves its bytes as they were given. -/
theorem State.hbmPut_hbm (s : State) (a : Nat) (bs : List Byte) (h : s.cycLate = []) : (s.hbmPut a bs).hbm = Mem.writeN s.hbm a bs := by
  unfold State.hbmPut State.hbmPutAs
  dsimp only
  obtain ⟨f, e⟩ := State.touchLines_spec (linesOf a bs.length) { s with hbm := Mem.writeN s.hbm a bs } a bs.length
  rw [h]
  simp only [List.filter_nil, List.foldl_nil]
  rw [e]

theorem State.hbmPuts_spec (l : List (Nat × List Byte)) (s : State) :
    ∃ m f, l.foldl (fun t p => t.hbmPut p.1 p.2) s = { s with hbm := m, flt := f } := by
  induction l generalizing s with
  | nil => exact ⟨s.hbm, s.flt, rfl⟩
  | cons x l ih =>
    obtain ⟨m, f, e⟩ := State.hbmPut_spec s x.1 x.2
    obtain ⟨m', f', e'⟩ := ih { s with hbm := m, flt := f }
    exact ⟨m', f', by rw [List.foldl_cons, e, e']⟩

/-- A write of HBM stores bytes outside the protected ranges and touches the error state of lines; it changes nothing else. -/
theorem State.hbmWrite_spec (s : State) (a : Nat) (bs : List Byte) : ∃ m f, s.hbmWrite a bs = { s with hbm := m, flt := f } := by
  unfold State.hbmWrite
  split
  · exact State.hbmPuts_spec _ s
  · exact State.hbmPut_spec s a bs

/-- A write that meets no protected line, with no later-ranked write in the present cycle, stores its bytes. -/
theorem State.hbmWrite_hbm (s : State) (a : Nat) (bs : List Byte) (hp : (linesOf a bs.length).any s.lineProtected = false) (h : s.cycLate = []) :
    (s.hbmWrite a bs).hbm = Mem.writeN s.hbm a bs := by
  rw [State.hbmWrite, if_neg (by simp [hp])]
  exact State.hbmPut_hbm s a bs h

@[simp] theorem State.hbmWrite_regs (s : State) (a : Nat) (bs : List Byte) : (s.hbmWrite a bs).regs = s.regs := by
  obtain ⟨m, f, e⟩ := State.hbmWrite_spec s a bs
  rw [e]

theorem State.locWrite_spec (s : State) (loc a : Nat) (bs : List Byte) : ∃ h m f, s.locWrite loc a bs = { s with host := h, hbm := m, flt := f } := by
  unfold State.locWrite
  split
  · split
    · exact ⟨s.host, s.hbm, s.flt, rfl⟩
    · exact ⟨_, s.hbm, s.flt, rfl⟩
  · obtain ⟨m, f, e⟩ := State.hbmWrite_spec s a bs
    exact ⟨s.host, m, f, e⟩

/-! ### Host-bound queues, fault and audit records -/

theorem State.hqIrq_spec (s : State) (q : Nat) : ∃ h k, s.hqIrq q = { s with host := h, hq := k } := by
  unfold State.hqIrq
  split
  · obtain ⟨h, e⟩ := State.raiseVec_spec s (s.act Reg.HQ.VECTOR 0 q)
    exact ⟨h, _, by rw [e]⟩
  · exact ⟨_, _, rfl⟩

theorem State.hqPlace_spec (s : State) (q : Nat) (bs : List Byte) :
    ∃ r k h m f, s.hqPlace q bs = { s with regs := r, hq := k, host := h, hbm := m, flt := f } := by
  obtain ⟨h1, m1, f1, e1⟩ := State.locWrite_spec s (s.act Reg.HQ.LOC 0 q) (s.act Reg.HQ.RING_BASE 0 q + s.rd Reg.HQ.PROD 0 q % s.hqSlots q * s.rd Reg.HQ.SLOT_BYTES 0 q) bs
  unfold State.hqPlace
  simp only [e1]
  obtain ⟨h2, m2, f2, e2⟩ := State.locWrite_spec { s with host := h1, hbm := m1, flt := f1 } (s.act Reg.HQ.LOC 0 q) (s.act Reg.HQ.TAG_BASE 0 q + s.rd Reg.HQ.PROD 0 q % s.hqSlots q * 8)
    (leBytes 8 (s.rd Reg.HQ.PROD 0 q % 2 ^ 63 + 2 ^ 63))
  simp only [e2]
  exact ⟨_, _, h2, m2, f2, rfl⟩

theorem State.hqLose_spec (s : State) (q : Nat) : ∃ r k, s.hqLose q = { s with regs := r, hq := k } := ⟨_, _, rfl⟩

/-- A producer's item changes the queue's registers and counts, the memory of its ring, the error state of HBM lines and MSI-X: nothing else. -/
theorem State.hqProduce_spec (s : State) (q : Nat) (bs : List Byte) :
    ∃ r k h m f, s.hqProduce q bs = { s with regs := r, hq := k, host := h, hbm := m, flt := f } := by
  unfold State.hqProduce
  split
  · exact ⟨s.regs, s.hq, s.host, s.hbm, s.flt, rfl⟩
  split
  · obtain ⟨r, k, e⟩ := State.hqLose_spec { s.wr Reg.HQ.PROD (s.rd Reg.HQ.PROD 0 q + 1) 0 q with hq := s.hq.mod q (fun h => { h with produced := h.produced + 1 }) } q
    exact ⟨r, k, s.host, s.hbm, s.flt, e⟩
  dsimp only
  split
  · split
    · exact ⟨_, _, s.host, s.hbm, s.flt, rfl⟩
    · obtain ⟨r0, k0, e0⟩ := State.hqLose_spec s q
      rw [e0]
      obtain ⟨r, k, h, m, f, e⟩ := State.hqPlace_spec { s with regs := r0, hq := k0 } q bs
      exact ⟨r, k, h, m, f, e⟩
  · obtain ⟨r, k, h, m, f, e⟩ := State.hqPlace_spec s q bs
    split
    · obtain ⟨h', k', e'⟩ := State.hqIrq_spec (s.hqPlace q bs) q
      exact ⟨r, k', h', m, f, by rw [e', e]⟩
    · exact ⟨r, k, h, m, f, e⟩

/-- A fault record changes the register file, host-bound queues, the memory of their rings, MSI-X and the fault unit's own state: nothing else. -/
theorem State.fault_spec (s : State) (x : FaultRec) : ∃ r k h m f, s.fault x = { s with regs := r, hq := k, host := h, hbm := m, flt := f } := by
  unfold State.fault
  obtain ⟨r1, h1, e1⟩ := State.event_spec (s.faultRegs x) x.block x.inst 31
  have e1' : (s.faultRegs x).event x.block x.inst 31 = { s with regs := r1, host := h1 } := e1
  obtain ⟨r2, k2, h2, m2, f2, e2⟩ := State.hqProduce_spec { s with regs := r1, host := h1 } 6 (x.bytes s.flt.seq s.time.beat)
  simp only [e1', e2]
  split
  · exact ⟨_, _, _, _, _, rfl⟩
  · exact ⟨_, _, _, _, _, rfl⟩

theorem State.audit_spec (s : State) (x : AuditRec) : ∃ r k h m f, s.audit x = { s with regs := r, hq := k, host := h, hbm := m, flt := f } := by
  unfold State.audit
  split
  · exact ⟨_, _, _, _, _, rfl⟩
  · obtain ⟨r, k, h, m, f, e⟩ := State.hqProduce_spec s 7 (x.bytes s.flt.auditSeq s.time.beat)
    simp only [e]
    exact ⟨_, _, _, _, _, rfl⟩

theorem State.auditCmd_spec (s : State) (src : Source) (g : Field) (i n res c k : Nat) :
    ∃ r q h m f, s.auditCmd src g i n res c k = { s with regs := r, hq := q, host := h, hbm := m, flt := f } := State.audit_spec s _

/-! ### Commands -/

/-- A register write changes the source's held low half and, where it ends an unlock sequence, SEQ_RESULT and CHAL. -/
theorem State.wrote_spec (s : State) (src : Source) : ∃ r c, s.wrote src = { s with regs := r, sec := c } := by
  unfold State.wrote
  dsimp only
  split
  · split
    · exact ⟨_, _, rfl⟩
    · exact ⟨_, _, rfl⟩
  · exact ⟨_, _, rfl⟩

/-- A basic command that may be written runs its meaning. -/
theorem State.basicCmd_next (s : State) (src : Source) (k : State → State) (mail : Bool) (h : s.pagesOpen = true) (h' : s.mayWrite src mail = true) :
    s.basicCmd src k mail = .next (k (s.wrote src)) := by
  simp [State.basicCmd, h, h']

/-- A basic command that may not be written, or before the pages are open, changes nothing. -/
theorem State.basicCmd_blocked (s : State) (src : Source) (k : State → State) (mail : Bool) (h : ¬ (s.pagesOpen = true ∧ s.mayWrite src mail = true)) :
    s.basicCmd src k mail = .next s := by
  simp [State.basicCmd, h]

@[simp] theorem State.wrote_auth (s : State) (src : Source) : (s.wrote src).auth = s.auth := by
  obtain ⟨r, c, e⟩ := State.wrote_spec s src
  rw [e]

/-- An expert command that may be written, unlocked, is audited and runs its meaning. -/
theorem State.expertCmd_next (s : State) (src : Source) (f : Field) (i n : Nat) (k : State → State) (h : s.pagesOpen = true) (h' : s.mayWrite src false = true)
    (hu : s.auth.unlocked = true) : s.expertCmd src f i n k = .next (k ((s.wrote src).auditCmd src f i n 0)) := by
  rw [State.expertCmd, State.basicCmd_next s src _ false h h']
  simp [hu]

/-- An expert command without UNLOCK is audited as not authorised and has no other effect. -/
theorem State.expertCmd_locked (s : State) (src : Source) (f : Field) (i n : Nat) (k : State → State) (h : s.pagesOpen = true) (h' : s.mayWrite src false = true)
    (hu : s.auth.unlocked = false) : s.expertCmd src f i n k = .next ((s.wrote src).auditCmd src f i n 2) := by
  rw [State.expertCmd, State.basicCmd_next s src _ false h h']
  simp [hu]

end Sys2Proof.Machine
end

