-- ==== Sys2Proof/Laws/Frames.lean ====
section
/-! SUPPORT. What the shared operations leave unchanged, field by field: consequences of the lemmas of Laws/Ops.lean. -/

namespace Sys2Proof.Machine

open Sys2Proof

/-! raiseVec -/

@[simp] theorem State.raiseVec_pending (s : State) (v : Nat) : (s.raiseVec v).pending = s.pending := by obtain ⟨_, e⟩ := State.raiseVec_spec s v; rw [e]
@[simp] theorem State.raiseVec_regs (s : State) (v : Nat) : (s.raiseVec v).regs = s.regs := by obtain ⟨_, e⟩ := State.raiseVec_spec s v; rw [e]
@[simp] theorem State.raiseVec_acting (s : State) (v : Nat) : (s.raiseVec v).acting = s.acting := by obtain ⟨_, e⟩ := State.raiseVec_spec s v; rw [e]
@[simp] theorem State.raiseVec_time (s : State) (v : Nat) : (s.raiseVec v).time = s.time := by obtain ⟨_, e⟩ := State.raiseVec_spec s v; rw [e]
@[simp] theorem State.raiseVec_rx (s : State) (v : Nat) : (s.raiseVec v).rx = s.rx := by obtain ⟨_, e⟩ := State.raiseVec_spec s v; rw [e]
@[simp] theorem State.raiseVec_pkts (s : State) (v : Nat) : (s.raiseVec v).pkts = s.pkts := by obtain ⟨_, e⟩ := State.raiseVec_spec s v; rw [e]
@[simp] theorem State.raiseVec_nextPkt (s : State) (v : Nat) : (s.raiseVec v).nextPkt = s.nextPkt := by obtain ⟨_, e⟩ := State.raiseVec_spec s v; rw [e]
@[simp] theorem State.raiseVec_laneAcc (s : State) (v : Nat) : (s.raiseVec v).laneAcc = s.laneAcc := by obtain ⟨_, e⟩ := State.raiseVec_spec s v; rw [e]
@[simp] theorem State.raiseVec_cls (s : State) (v : Nat) : (s.raiseVec v).cls = s.cls := by obtain ⟨_, e⟩ := State.raiseVec_spec s v; rw [e]
@[simp] theorem State.raiseVec_frag (s : State) (v : Nat) : (s.raiseVec v).frag = s.frag := by obtain ⟨_, e⟩ := State.raiseVec_spec s v; rw [e]
@[simp] theorem State.raiseVec_flow (s : State) (v : Nat) : (s.raiseVec v).flow = s.flow := by obtain ⟨_, e⟩ := State.raiseVec_spec s v; rw [e]
@[simp] theorem State.raiseVec_ep (s : State) (v : Nat) : (s.raiseVec v).ep = s.ep := by obtain ⟨_, e⟩ := State.raiseVec_spec s v; rw [e]
@[simp] theorem State.raiseVec_fcores (s : State) (v : Nat) : (s.raiseVec v).fcores = s.fcores := by obtain ⟨_, e⟩ := State.raiseVec_spec s v; rw [e]
@[simp] theorem State.raiseVec_fsets (s : State) (v : Nat) : (s.raiseVec v).fsets = s.fsets := by obtain ⟨_, e⟩ := State.raiseVec_spec s v; rw [e]
@[simp] theorem State.raiseVec_fhalf (s : State) (v : Nat) : (s.raiseVec v).fhalf = s.fhalf := by obtain ⟨_, e⟩ := State.raiseVec_spec s v; rw [e]
@[simp] theorem State.raiseVec_tree (s : State) (v : Nat) : (s.raiseVec v).tree = s.tree := by obtain ⟨_, e⟩ := State.raiseVec_spec s v; rw [e]
@[simp] theorem State.raiseVec_arr (s : State) (v : Nat) : (s.raiseVec v).arr = s.arr := by obtain ⟨_, e⟩ := State.raiseVec_spec s v; rw [e]
@[simp] theorem State.raiseVec_ctxs (s : State) (v : Nat) : (s.raiseVec v).ctxs = s.ctxs := by obtain ⟨_, e⟩ := State.raiseVec_spec s v; rw [e]
@[simp] theorem State.raiseVec_layout (s : State) (v : Nat) : (s.raiseVec v).layout = s.layout := by obtain ⟨_, e⟩ := State.raiseVec_spec s v; rw [e]
@[simp] theorem State.raiseVec_eg (s : State) (v : Nat) : (s.raiseVec v).eg = s.eg := by obtain ⟨_, e⟩ := State.raiseVec_spec s v; rw [e]
@[simp] theorem State.raiseVec_rxTs (s : State) (v : Nat) : (s.raiseVec v).rxTs = s.rxTs := by obtain ⟨_, e⟩ := State.raiseVec_spec s v; rw [e]
@[simp] theorem State.raiseVec_txTs (s : State) (v : Nat) : (s.raiseVec v).txTs = s.txTs := by obtain ⟨_, e⟩ := State.raiseVec_spec s v; rw [e]
@[simp] theorem State.raiseVec_hq (s : State) (v : Nat) : (s.raiseVec v).hq = s.hq := by obtain ⟨_, e⟩ := State.raiseVec_spec s v; rw [e]
@[simp] theorem State.raiseVec_obs (s : State) (v : Nat) : (s.raiseVec v).obs = s.obs := by obtain ⟨_, e⟩ := State.raiseVec_spec s v; rw [e]
@[simp] theorem State.raiseVec_watches (s : State) (v : Nat) : (s.raiseVec v).watches = s.watches := by obtain ⟨_, e⟩ := State.raiseVec_spec s v; rw [e]
@[simp] theorem State.raiseVec_hbm (s : State) (v : Nat) : (s.raiseVec v).hbm = s.hbm := by obtain ⟨_, e⟩ := State.raiseVec_spec s v; rw [e]
@[simp] theorem State.raiseVec_lanes (s : State) (v : Nat) : (s.raiseVec v).lanes = s.lanes := by obtain ⟨_, e⟩ := State.raiseVec_spec s v; rw [e]
@[simp] theorem State.raiseVec_flocks (s : State) (v : Nat) : (s.raiseVec v).flocks = s.flocks := by obtain ⟨_, e⟩ := State.raiseVec_spec s v; rw [e]
@[simp] theorem State.raiseVec_flt (s : State) (v : Nat) : (s.raiseVec v).flt = s.flt := by obtain ⟨_, e⟩ := State.raiseVec_spec s v; rw [e]
@[simp] theorem State.raiseVec_sec (s : State) (v : Nat) : (s.raiseVec v).sec = s.sec := by obtain ⟨_, e⟩ := State.raiseVec_spec s v; rw [e]
@[simp] theorem State.raiseVec_auth (s : State) (v : Nat) : (s.raiseVec v).auth = s.auth := by obtain ⟨_, e⟩ := State.raiseVec_spec s v; rw [e]
@[simp] theorem State.raiseVec_cal (s : State) (v : Nat) : (s.raiseVec v).cal = s.cal := by obtain ⟨_, e⟩ := State.raiseVec_spec s v; rw [e]
@[simp] theorem State.raiseVec_hl (s : State) (v : Nat) : (s.raiseVec v).hl = s.hl := by obtain ⟨_, e⟩ := State.raiseVec_spec s v; rw [e]
@[simp] theorem State.raiseVec_herd (s : State) (v : Nat) : (s.raiseVec v).herd = s.herd := by obtain ⟨_, e⟩ := State.raiseVec_spec s v; rw [e]
@[simp] theorem State.raiseVec_acts (s : State) (v : Nat) : (s.raiseVec v).acts = s.acts := by obtain ⟨_, e⟩ := State.raiseVec_spec s v; rw [e]
@[simp] theorem State.raiseVec_devSafe (s : State) (v : Nat) : (s.raiseVec v).devSafe = s.devSafe := by obtain ⟨_, e⟩ := State.raiseVec_spec s v; rw [e]
@[simp] theorem State.raiseVec_globals (s : State) (v : Nat) : (s.raiseVec v).globals = s.globals := by obtain ⟨_, e⟩ := State.raiseVec_spec s v; rw [e]
@[simp] theorem State.raiseVec_free (s : State) (v : Nat) : (s.raiseVec v).free = s.free := by obtain ⟨_, e⟩ := State.raiseVec_spec s v; rw [e]

/-! evtEdge -/

@[simp] theorem State.evtEdge_pending (s : State) (old : State) (b i : Nat) : (s.evtEdge old b i).pending = s.pending := by obtain ⟨_, e⟩ := State.evtEdge_spec s old b i; rw [e]
@[simp] theorem State.evtEdge_regs (s : State) (old : State) (b i : Nat) : (s.evtEdge old b i).regs = s.regs := by obtain ⟨_, e⟩ := State.evtEdge_spec s old b i; rw [e]
@[simp] theorem State.evtEdge_acting (s : State) (old : State) (b i : Nat) : (s.evtEdge old b i).acting = s.acting := by obtain ⟨_, e⟩ := State.evtEdge_spec s old b i; rw [e]
@[simp] theorem State.evtEdge_time (s : State) (old : State) (b i : Nat) : (s.evtEdge old b i).time = s.time := by obtain ⟨_, e⟩ := State.evtEdge_spec s old b i; rw [e]
@[simp] theorem State.evtEdge_rx (s : State) (old : State) (b i : Nat) : (s.evtEdge old b i).rx = s.rx := by obtain ⟨_, e⟩ := State.evtEdge_spec s old b i; rw [e]
@[simp] theorem State.evtEdge_pkts (s : State) (old : State) (b i : Nat) : (s.evtEdge old b i).pkts = s.pkts := by obtain ⟨_, e⟩ := State.evtEdge_spec s old b i; rw [e]
@[simp] theorem State.evtEdge_nextPkt (s : State) (old : State) (b i : Nat) : (s.evtEdge old b i).nextPkt = s.nextPkt := by obtain ⟨_, e⟩ := State.evtEdge_spec s old b i; rw [e]
@[simp] theorem State.evtEdge_laneAcc (s : State) (old : State) (b i : Nat) : (s.evtEdge old b i).laneAcc = s.laneAcc := by obtain ⟨_, e⟩ := State.evtEdge_spec s old b i; rw [e]
@[simp] theorem State.evtEdge_cls (s : State) (old : State) (b i : Nat) : (s.evtEdge old b i).cls = s.cls := by obtain ⟨_, e⟩ := State.evtEdge_spec s old b i; rw [e]
@[simp] theorem State.evtEdge_frag (s : State) (old : State) (b i : Nat) : (s.evtEdge old b i).frag = s.frag := by obtain ⟨_, e⟩ := State.evtEdge_spec s old b i; rw [e]
@[simp] theorem State.evtEdge_flow (s : State) (old : State) (b i : Nat) : (s.evtEdge old b i).flow = s.flow := by obtain ⟨_, e⟩ := State.evtEdge_spec s old b i; rw [e]
@[simp] theorem State.evtEdge_ep (s : State) (old : State) (b i : Nat) : (s.evtEdge old b i).ep = s.ep := by obtain ⟨_, e⟩ := State.evtEdge_spec s old b i; rw [e]
@[simp] theorem State.evtEdge_fcores (s : State) (old : State) (b i : Nat) : (s.evtEdge old b i).fcores = s.fcores := by obtain ⟨_, e⟩ := State.evtEdge_spec s old b i; rw [e]
@[simp] theorem State.evtEdge_fsets (s : State) (old : State) (b i : Nat) : (s.evtEdge old b i).fsets = s.fsets := by obtain ⟨_, e⟩ := State.evtEdge_spec s old b i; rw [e]
@[simp] theorem State.evtEdge_fhalf (s : State) (old : State) (b i : Nat) : (s.evtEdge old b i).fhalf = s.fhalf := by obtain ⟨_, e⟩ := State.evtEdge_spec s old b i; rw [e]
@[simp] theorem State.evtEdge_tree (s : State) (old : State) (b i : Nat) : (s.evtEdge old b i).tree = s.tree := by obtain ⟨_, e⟩ := State.evtEdge_spec s old b i; rw [e]
@[simp] theorem State.evtEdge_arr (s : State) (old : State) (b i : Nat) : (s.evtEdge old b i).arr = s.arr := by obtain ⟨_, e⟩ := State.evtEdge_spec s old b i; rw [e]
@[simp] theorem State.evtEdge_ctxs (s : State) (old : State) (b i : Nat) : (s.evtEdge old b i).ctxs = s.ctxs := by obtain ⟨_, e⟩ := State.evtEdge_spec s old b i; rw [e]
@[simp] theorem State.evtEdge_layout (s : State) (old : State) (b i : Nat) : (s.evtEdge old b i).layout = s.layout := by obtain ⟨_, e⟩ := State.evtEdge_spec s old b i; rw [e]
@[simp] theorem State.evtEdge_eg (s : State) (old : State) (b i : Nat) : (s.evtEdge old b i).eg = s.eg := by obtain ⟨_, e⟩ := State.evtEdge_spec s old b i; rw [e]
@[simp] theorem State.evtEdge_rxTs (s : State) (old : State) (b i : Nat) : (s.evtEdge old b i).rxTs = s.rxTs := by obtain ⟨_, e⟩ := State.evtEdge_spec s old b i; rw [e]
@[simp] theorem State.evtEdge_txTs (s : State) (old : State) (b i : Nat) : (s.evtEdge old b i).txTs = s.txTs := by obtain ⟨_, e⟩ := State.evtEdge_spec s old b i; rw [e]
@[simp] theorem State.evtEdge_hq (s : State) (old : State) (b i : Nat) : (s.evtEdge old b i).hq = s.hq := by obtain ⟨_, e⟩ := State.evtEdge_spec s old b i; rw [e]
@[simp] theorem State.evtEdge_obs (s : State) (old : State) (b i : Nat) : (s.evtEdge old b i).obs = s.obs := by obtain ⟨_, e⟩ := State.evtEdge_spec s old b i; rw [e]
@[simp] theorem State.evtEdge_watches (s : State) (old : State) (b i : Nat) : (s.evtEdge old b i).watches = s.watches := by obtain ⟨_, e⟩ := State.evtEdge_spec s old b i; rw [e]
@[simp] theorem State.evtEdge_hbm (s : State) (old : State) (b i : Nat) : (s.evtEdge old b i).hbm = s.hbm := by obtain ⟨_, e⟩ := State.evtEdge_spec s old b i; rw [e]
@[simp] theorem State.evtEdge_lanes (s : State) (old : State) (b i : Nat) : (s.evtEdge old b i).lanes = s.lanes := by obtain ⟨_, e⟩ := State.evtEdge_spec s old b i; rw [e]
@[simp] theorem State.evtEdge_flocks (s : State) (old : State) (b i : Nat) : (s.evtEdge old b i).flocks = s.flocks := by obtain ⟨_, e⟩ := State.evtEdge_spec s old b i; rw [e]
@[simp] theorem State.evtEdge_flt (s : State) (old : State) (b i : Nat) : (s.evtEdge old b i).flt = s.flt := by obtain ⟨_, e⟩ := State.evtEdge_spec s old b i; rw [e]
@[simp] theorem State.evtEdge_sec (s : State) (old : State) (b i : Nat) : (s.evtEdge old b i).sec = s.sec := by obtain ⟨_, e⟩ := State.evtEdge_spec s old b i; rw [e]
@[simp] theorem State.evtEdge_auth (s : State) (old : State) (b i : Nat) : (s.evtEdge old b i).auth = s.auth := by obtain ⟨_, e⟩ := State.evtEdge_spec s old b i; rw [e]
@[simp] theorem State.evtEdge_cal (s : State) (old : State) (b i : Nat) : (s.evtEdge old b i).cal = s.cal := by obtain ⟨_, e⟩ := State.evtEdge_spec s old b i; rw [e]
@[simp] theorem State.evtEdge_hl (s : State) (old : State) (b i : Nat) : (s.evtEdge old b i).hl = s.hl := by obtain ⟨_, e⟩ := State.evtEdge_spec s old b i; rw [e]
@[simp] theorem State.evtEdge_herd (s : State) (old : State) (b i : Nat) : (s.evtEdge old b i).herd = s.herd := by obtain ⟨_, e⟩ := State.evtEdge_spec s old b i; rw [e]
@[simp] theorem State.evtEdge_acts (s : State) (old : State) (b i : Nat) : (s.evtEdge old b i).acts = s.acts := by obtain ⟨_, e⟩ := State.evtEdge_spec s old b i; rw [e]
@[simp] theorem State.evtEdge_devSafe (s : State) (old : State) (b i : Nat) : (s.evtEdge old b i).devSafe = s.devSafe := by obtain ⟨_, e⟩ := State.evtEdge_spec s old b i; rw [e]
@[simp] theorem State.evtEdge_globals (s : State) (old : State) (b i : Nat) : (s.evtEdge old b i).globals = s.globals := by obtain ⟨_, e⟩ := State.evtEdge_spec s old b i; rw [e]
@[simp] theorem State.evtEdge_free (s : State) (old : State) (b i : Nat) : (s.evtEdge old b i).free = s.free := by obtain ⟨_, e⟩ := State.evtEdge_spec s old b i; rw [e]

/-! events -/

@[simp] theorem State.events_pending (s : State) (b i m : Nat) : (s.events b i m).pending = s.pending := by obtain ⟨_, _, e⟩ := State.events_spec s b i m; rw [e]
@[simp] theorem State.events_acting (s : State) (b i m : Nat) : (s.events b i m).acting = s.acting := by obtain ⟨_, _, e⟩ := State.events_spec s b i m; rw [e]
@[simp] theorem State.events_time (s : State) (b i m : Nat) : (s.events b i m).time = s.time := by obtain ⟨_, _, e⟩ := State.events_spec s b i m; rw [e]
@[simp] theorem State.events_rx (s : State) (b i m : Nat) : (s.events b i m).rx = s.rx := by obtain ⟨_, _, e⟩ := State.events_spec s b i m; rw [e]
@[simp] theorem State.events_pkts (s : State) (b i m : Nat) : (s.events b i m).pkts = s.pkts := by obtain ⟨_, _, e⟩ := State.events_spec s b i m; rw [e]
@[simp] theorem State.events_nextPkt (s : State) (b i m : Nat) : (s.events b i m).nextPkt = s.nextPkt := by obtain ⟨_, _, e⟩ := State.events_spec s b i m; rw [e]
@[simp] theorem State.events_laneAcc (s : State) (b i m : Nat) : (s.events b i m).laneAcc = s.laneAcc := by obtain ⟨_, _, e⟩ := State.events_spec s b i m; rw [e]
@[simp] theorem State.events_cls (s : State) (b i m : Nat) : (s.events b i m).cls = s.cls := by obtain ⟨_, _, e⟩ := State.events_spec s b i m; rw [e]
@[simp] theorem State.events_frag (s : State) (b i m : Nat) : (s.events b i m).frag = s.frag := by obtain ⟨_, _, e⟩ := State.events_spec s b i m; rw [e]
@[simp] theorem State.events_flow (s : State) (b i m : Nat) : (s.events b i m).flow = s.flow := by obtain ⟨_, _, e⟩ := State.events_spec s b i m; rw [e]
@[simp] theorem State.events_ep (s : State) (b i m : Nat) : (s.events b i m).ep = s.ep := by obtain ⟨_, _, e⟩ := State.events_spec s b i m; rw [e]
@[simp] theorem State.events_fcores (s : State) (b i m : Nat) : (s.events b i m).fcores = s.fcores := by obtain ⟨_, _, e⟩ := State.events_spec s b i m; rw [e]
@[simp] theorem State.events_fsets (s : State) (b i m : Nat) : (s.events b i m).fsets = s.fsets := by obtain ⟨_, _, e⟩ := State.events_spec s b i m; rw [e]
@[simp] theorem State.events_fhalf (s : State) (b i m : Nat) : (s.events b i m).fhalf = s.fhalf := by obtain ⟨_, _, e⟩ := State.events_spec s b i m; rw [e]
@[simp] theorem State.events_tree (s : State) (b i m : Nat) : (s.events b i m).tree = s.tree := by obtain ⟨_, _, e⟩ := State.events_spec s b i m; rw [e]
@[simp] theorem State.events_arr (s : State) (b i m : Nat) : (s.events b i m).arr = s.arr := by obtain ⟨_, _, e⟩ := State.events_spec s b i m; rw [e]
@[simp] theorem State.events_ctxs (s : State) (b i m : Nat) : (s.events b i m).ctxs = s.ctxs := by obtain ⟨_, _, e⟩ := State.events_spec s b i m; rw [e]
@[simp] theorem State.events_layout (s : State) (b i m : Nat) : (s.events b i m).layout = s.layout := by obtain ⟨_, _, e⟩ := State.events_spec s b i m; rw [e]
@[simp] theorem State.events_eg (s : State) (b i m : Nat) : (s.events b i m).eg = s.eg := by obtain ⟨_, _, e⟩ := State.events_spec s b i m; rw [e]
@[simp] theorem State.events_rxTs (s : State) (b i m : Nat) : (s.events b i m).rxTs = s.rxTs := by obtain ⟨_, _, e⟩ := State.events_spec s b i m; rw [e]
@[simp] theorem State.events_txTs (s : State) (b i m : Nat) : (s.events b i m).txTs = s.txTs := by obtain ⟨_, _, e⟩ := State.events_spec s b i m; rw [e]
@[simp] theorem State.events_hq (s : State) (b i m : Nat) : (s.events b i m).hq = s.hq := by obtain ⟨_, _, e⟩ := State.events_spec s b i m; rw [e]
@[simp] theorem State.events_obs (s : State) (b i m : Nat) : (s.events b i m).obs = s.obs := by obtain ⟨_, _, e⟩ := State.events_spec s b i m; rw [e]
@[simp] theorem State.events_watches (s : State) (b i m : Nat) : (s.events b i m).watches = s.watches := by obtain ⟨_, _, e⟩ := State.events_spec s b i m; rw [e]
@[simp] theorem State.events_hbm (s : State) (b i m : Nat) : (s.events b i m).hbm = s.hbm := by obtain ⟨_, _, e⟩ := State.events_spec s b i m; rw [e]
@[simp] theorem State.events_lanes (s : State) (b i m : Nat) : (s.events b i m).lanes = s.lanes := by obtain ⟨_, _, e⟩ := State.events_spec s b i m; rw [e]
@[simp] theorem State.events_flocks (s : State) (b i m : Nat) : (s.events b i m).flocks = s.flocks := by obtain ⟨_, _, e⟩ := State.events_spec s b i m; rw [e]
@[simp] theorem State.events_flt (s : State) (b i m : Nat) : (s.events b i m).flt = s.flt := by obtain ⟨_, _, e⟩ := State.events_spec s b i m; rw [e]
@[simp] theorem State.events_sec (s : State) (b i m : Nat) : (s.events b i m).sec = s.sec := by obtain ⟨_, _, e⟩ := State.events_spec s b i m; rw [e]
@[simp] theorem State.events_auth (s : State) (b i m : Nat) : (s.events b i m).auth = s.auth := by obtain ⟨_, _, e⟩ := State.events_spec s b i m; rw [e]
@[simp] theorem State.events_cal (s : State) (b i m : Nat) : (s.events b i m).cal = s.cal := by obtain ⟨_, _, e⟩ := State.events_spec s b i m; rw [e]
@[simp] theorem State.events_hl (s : State) (b i m : Nat) : (s.events b i m).hl = s.hl := by obtain ⟨_, _, e⟩ := State.events_spec s b i m; rw [e]
@[simp] theorem State.events_herd (s : State) (b i m : Nat) : (s.events b i m).herd = s.herd := by obtain ⟨_, _, e⟩ := State.events_spec s b i m; rw [e]
@[simp] theorem State.events_acts (s : State) (b i m : Nat) : (s.events b i m).acts = s.acts := by obtain ⟨_, _, e⟩ := State.events_spec s b i m; rw [e]
@[simp] theorem State.events_devSafe (s : State) (b i m : Nat) : (s.events b i m).devSafe = s.devSafe := by obtain ⟨_, _, e⟩ := State.events_spec s b i m; rw [e]
@[simp] theorem State.events_globals (s : State) (b i m : Nat) : (s.events b i m).globals = s.globals := by obtain ⟨_, _, e⟩ := State.events_spec s b i m; rw [e]
@[simp] theorem State.events_free (s : State) (b i m : Nat) : (s.events b i m).free = s.free := by obtain ⟨_, _, e⟩ := State.events_spec s b i m; rw [e]

/-! event -/

@[simp] theorem State.event_pending (s : State) (b i n : Nat) : (s.event b i n).pending = s.pending := by obtain ⟨_, _, e⟩ := State.event_spec s b i n; rw [e]
@[simp] theorem State.event_acting (s : State) (b i n : Nat) : (s.event b i n).acting = s.acting := by obtain ⟨_, _, e⟩ := State.event_spec s b i n; rw [e]
@[simp] theorem State.event_time (s : State) (b i n : Nat) : (s.event b i n).time = s.time := by obtain ⟨_, _, e⟩ := State.event_spec s b i n; rw [e]
@[simp] theorem State.event_rx (s : State) (b i n : Nat) : (s.event b i n).rx = s.rx := by obtain ⟨_, _, e⟩ := State.event_spec s b i n; rw [e]
@[simp] theorem State.event_pkts (s : State) (b i n : Nat) : (s.event b i n).pkts = s.pkts := by obtain ⟨_, _, e⟩ := State.event_spec s b i n; rw [e]
@[simp] theorem State.event_nextPkt (s : State) (b i n : Nat) : (s.event b i n).nextPkt = s.nextPkt := by obtain ⟨_, _, e⟩ := State.event_spec s b i n; rw [e]
@[simp] theorem State.event_laneAcc (s : State) (b i n : Nat) : (s.event b i n).laneAcc = s.laneAcc := by obtain ⟨_, _, e⟩ := State.event_spec s b i n; rw [e]
@[simp] theorem State.event_cls (s : State) (b i n : Nat) : (s.event b i n).cls = s.cls := by obtain ⟨_, _, e⟩ := State.event_spec s b i n; rw [e]
@[simp] theorem State.event_frag (s : State) (b i n : Nat) : (s.event b i n).frag = s.frag := by obtain ⟨_, _, e⟩ := State.event_spec s b i n; rw [e]
@[simp] theorem State.event_flow (s : State) (b i n : Nat) : (s.event b i n).flow = s.flow := by obtain ⟨_, _, e⟩ := State.event_spec s b i n; rw [e]
@[simp] theorem State.event_ep (s : State) (b i n : Nat) : (s.event b i n).ep = s.ep := by obtain ⟨_, _, e⟩ := State.event_spec s b i n; rw [e]
@[simp] theorem State.event_fcores (s : State) (b i n : Nat) : (s.event b i n).fcores = s.fcores := by obtain ⟨_, _, e⟩ := State.event_spec s b i n; rw [e]
@[simp] theorem State.event_fsets (s : State) (b i n : Nat) : (s.event b i n).fsets = s.fsets := by obtain ⟨_, _, e⟩ := State.event_spec s b i n; rw [e]
@[simp] theorem State.event_fhalf (s : State) (b i n : Nat) : (s.event b i n).fhalf = s.fhalf := by obtain ⟨_, _, e⟩ := State.event_spec s b i n; rw [e]
@[simp] theorem State.event_tree (s : State) (b i n : Nat) : (s.event b i n).tree = s.tree := by obtain ⟨_, _, e⟩ := State.event_spec s b i n; rw [e]
@[simp] theorem State.event_arr (s : State) (b i n : Nat) : (s.event b i n).arr = s.arr := by obtain ⟨_, _, e⟩ := State.event_spec s b i n; rw [e]
@[simp] theorem State.event_ctxs (s : State) (b i n : Nat) : (s.event b i n).ctxs = s.ctxs := by obtain ⟨_, _, e⟩ := State.event_spec s b i n; rw [e]
@[simp] theorem State.event_layout (s : State) (b i n : Nat) : (s.event b i n).layout = s.layout := by obtain ⟨_, _, e⟩ := State.event_spec s b i n; rw [e]
@[simp] theorem State.event_eg (s : State) (b i n : Nat) : (s.event b i n).eg = s.eg := by obtain ⟨_, _, e⟩ := State.event_spec s b i n; rw [e]
@[simp] theorem State.event_rxTs (s : State) (b i n : Nat) : (s.event b i n).rxTs = s.rxTs := by obtain ⟨_, _, e⟩ := State.event_spec s b i n; rw [e]
@[simp] theorem State.event_txTs (s : State) (b i n : Nat) : (s.event b i n).txTs = s.txTs := by obtain ⟨_, _, e⟩ := State.event_spec s b i n; rw [e]
@[simp] theorem State.event_hq (s : State) (b i n : Nat) : (s.event b i n).hq = s.hq := by obtain ⟨_, _, e⟩ := State.event_spec s b i n; rw [e]
@[simp] theorem State.event_obs (s : State) (b i n : Nat) : (s.event b i n).obs = s.obs := by obtain ⟨_, _, e⟩ := State.event_spec s b i n; rw [e]
@[simp] theorem State.event_watches (s : State) (b i n : Nat) : (s.event b i n).watches = s.watches := by obtain ⟨_, _, e⟩ := State.event_spec s b i n; rw [e]
@[simp] theorem State.event_hbm (s : State) (b i n : Nat) : (s.event b i n).hbm = s.hbm := by obtain ⟨_, _, e⟩ := State.event_spec s b i n; rw [e]
@[simp] theorem State.event_lanes (s : State) (b i n : Nat) : (s.event b i n).lanes = s.lanes := by obtain ⟨_, _, e⟩ := State.event_spec s b i n; rw [e]
@[simp] theorem State.event_flocks (s : State) (b i n : Nat) : (s.event b i n).flocks = s.flocks := by obtain ⟨_, _, e⟩ := State.event_spec s b i n; rw [e]
@[simp] theorem State.event_flt (s : State) (b i n : Nat) : (s.event b i n).flt = s.flt := by obtain ⟨_, _, e⟩ := State.event_spec s b i n; rw [e]
@[simp] theorem State.event_sec (s : State) (b i n : Nat) : (s.event b i n).sec = s.sec := by obtain ⟨_, _, e⟩ := State.event_spec s b i n; rw [e]
@[simp] theorem State.event_auth (s : State) (b i n : Nat) : (s.event b i n).auth = s.auth := by obtain ⟨_, _, e⟩ := State.event_spec s b i n; rw [e]
@[simp] theorem State.event_cal (s : State) (b i n : Nat) : (s.event b i n).cal = s.cal := by obtain ⟨_, _, e⟩ := State.event_spec s b i n; rw [e]
@[simp] theorem State.event_hl (s : State) (b i n : Nat) : (s.event b i n).hl = s.hl := by obtain ⟨_, _, e⟩ := State.event_spec s b i n; rw [e]
@[simp] theorem State.event_herd (s : State) (b i n : Nat) : (s.event b i n).herd = s.herd := by obtain ⟨_, _, e⟩ := State.event_spec s b i n; rw [e]
@[simp] theorem State.event_acts (s : State) (b i n : Nat) : (s.event b i n).acts = s.acts := by obtain ⟨_, _, e⟩ := State.event_spec s b i n; rw [e]
@[simp] theorem State.event_devSafe (s : State) (b i n : Nat) : (s.event b i n).devSafe = s.devSafe := by obtain ⟨_, _, e⟩ := State.event_spec s b i n; rw [e]
@[simp] theorem State.event_globals (s : State) (b i n : Nat) : (s.event b i n).globals = s.globals := by obtain ⟨_, _, e⟩ := State.event_spec s b i n; rw [e]
@[simp] theorem State.event_free (s : State) (b i n : Nat) : (s.event b i n).free = s.free := by obtain ⟨_, _, e⟩ := State.event_spec s b i n; rw [e]

/-! hbmWrite -/

@[simp] theorem State.hbmWrite_pending (s : State) (a : Nat) (bs : List Byte) : (s.hbmWrite a bs).pending = s.pending := by obtain ⟨_, _, e⟩ := State.hbmWrite_spec s a bs; rw [e]
@[simp] theorem State.hbmWrite_acting (s : State) (a : Nat) (bs : List Byte) : (s.hbmWrite a bs).acting = s.acting := by obtain ⟨_, _, e⟩ := State.hbmWrite_spec s a bs; rw [e]
@[simp] theorem State.hbmWrite_time (s : State) (a : Nat) (bs : List Byte) : (s.hbmWrite a bs).time = s.time := by obtain ⟨_, _, e⟩ := State.hbmWrite_spec s a bs; rw [e]
@[simp] theorem State.hbmWrite_rx (s : State) (a : Nat) (bs : List Byte) : (s.hbmWrite a bs).rx = s.rx := by obtain ⟨_, _, e⟩ := State.hbmWrite_spec s a bs; rw [e]
@[simp] theorem State.hbmWrite_pkts (s : State) (a : Nat) (bs : List Byte) : (s.hbmWrite a bs).pkts = s.pkts := by obtain ⟨_, _, e⟩ := State.hbmWrite_spec s a bs; rw [e]
@[simp] theorem State.hbmWrite_nextPkt (s : State) (a : Nat) (bs : List Byte) : (s.hbmWrite a bs).nextPkt = s.nextPkt := by obtain ⟨_, _, e⟩ := State.hbmWrite_spec s a bs; rw [e]
@[simp] theorem State.hbmWrite_laneAcc (s : State) (a : Nat) (bs : List Byte) : (s.hbmWrite a bs).laneAcc = s.laneAcc := by obtain ⟨_, _, e⟩ := State.hbmWrite_spec s a bs; rw [e]
@[simp] theorem State.hbmWrite_cls (s : State) (a : Nat) (bs : List Byte) : (s.hbmWrite a bs).cls = s.cls := by obtain ⟨_, _, e⟩ := State.hbmWrite_spec s a bs; rw [e]
@[simp] theorem State.hbmWrite_frag (s : State) (a : Nat) (bs : List Byte) : (s.hbmWrite a bs).frag = s.frag := by obtain ⟨_, _, e⟩ := State.hbmWrite_spec s a bs; rw [e]
@[simp] theorem State.hbmWrite_flow (s : State) (a : Nat) (bs : List Byte) : (s.hbmWrite a bs).flow = s.flow := by obtain ⟨_, _, e⟩ := State.hbmWrite_spec s a bs; rw [e]
@[simp] theorem State.hbmWrite_ep (s : State) (a : Nat) (bs : List Byte) : (s.hbmWrite a bs).ep = s.ep := by obtain ⟨_, _, e⟩ := State.hbmWrite_spec s a bs; rw [e]
@[simp] theorem State.hbmWrite_fcores (s : State) (a : Nat) (bs : List Byte) : (s.hbmWrite a bs).fcores = s.fcores := by obtain ⟨_, _, e⟩ := State.hbmWrite_spec s a bs; rw [e]
@[simp] theorem State.hbmWrite_fsets (s : State) (a : Nat) (bs : List Byte) : (s.hbmWrite a bs).fsets = s.fsets := by obtain ⟨_, _, e⟩ := State.hbmWrite_spec s a bs; rw [e]
@[simp] theorem State.hbmWrite_fhalf (s : State) (a : Nat) (bs : List Byte) : (s.hbmWrite a bs).fhalf = s.fhalf := by obtain ⟨_, _, e⟩ := State.hbmWrite_spec s a bs; rw [e]
@[simp] theorem State.hbmWrite_tree (s : State) (a : Nat) (bs : List Byte) : (s.hbmWrite a bs).tree = s.tree := by obtain ⟨_, _, e⟩ := State.hbmWrite_spec s a bs; rw [e]
@[simp] theorem State.hbmWrite_arr (s : State) (a : Nat) (bs : List Byte) : (s.hbmWrite a bs).arr = s.arr := by obtain ⟨_, _, e⟩ := State.hbmWrite_spec s a bs; rw [e]
@[simp] theorem State.hbmWrite_ctxs (s : State) (a : Nat) (bs : List Byte) : (s.hbmWrite a bs).ctxs = s.ctxs := by obtain ⟨_, _, e⟩ := State.hbmWrite_spec s a bs; rw [e]
@[simp] theorem State.hbmWrite_layout (s : State) (a : Nat) (bs : List Byte) : (s.hbmWrite a bs).layout = s.layout := by obtain ⟨_, _, e⟩ := State.hbmWrite_spec s a bs; rw [e]
@[simp] theorem State.hbmWrite_eg (s : State) (a : Nat) (bs : List Byte) : (s.hbmWrite a bs).eg = s.eg := by obtain ⟨_, _, e⟩ := State.hbmWrite_spec s a bs; rw [e]
@[simp] theorem State.hbmWrite_rxTs (s : State) (a : Nat) (bs : List Byte) : (s.hbmWrite a bs).rxTs = s.rxTs := by obtain ⟨_, _, e⟩ := State.hbmWrite_spec s a bs; rw [e]
@[simp] theorem State.hbmWrite_txTs (s : State) (a : Nat) (bs : List Byte) : (s.hbmWrite a bs).txTs = s.txTs := by obtain ⟨_, _, e⟩ := State.hbmWrite_spec s a bs; rw [e]
@[simp] theorem State.hbmWrite_hq (s : State) (a : Nat) (bs : List Byte) : (s.hbmWrite a bs).hq = s.hq := by obtain ⟨_, _, e⟩ := State.hbmWrite_spec s a bs; rw [e]
@[simp] theorem State.hbmWrite_obs (s : State) (a : Nat) (bs : List Byte) : (s.hbmWrite a bs).obs = s.obs := by obtain ⟨_, _, e⟩ := State.hbmWrite_spec s a bs; rw [e]
@[simp] theorem State.hbmWrite_watches (s : State) (a : Nat) (bs : List Byte) : (s.hbmWrite a bs).watches = s.watches := by obtain ⟨_, _, e⟩ := State.hbmWrite_spec s a bs; rw [e]
@[simp] theorem State.hbmWrite_host (s : State) (a : Nat) (bs : List Byte) : (s.hbmWrite a bs).host = s.host := by obtain ⟨_, _, e⟩ := State.hbmWrite_spec s a bs; rw [e]
@[simp] theorem State.hbmWrite_lanes (s : State) (a : Nat) (bs : List Byte) : (s.hbmWrite a bs).lanes = s.lanes := by obtain ⟨_, _, e⟩ := State.hbmWrite_spec s a bs; rw [e]
@[simp] theorem State.hbmWrite_flocks (s : State) (a : Nat) (bs : List Byte) : (s.hbmWrite a bs).flocks = s.flocks := by obtain ⟨_, _, e⟩ := State.hbmWrite_spec s a bs; rw [e]
@[simp] theorem State.hbmWrite_sec (s : State) (a : Nat) (bs : List Byte) : (s.hbmWrite a bs).sec = s.sec := by obtain ⟨_, _, e⟩ := State.hbmWrite_spec s a bs; rw [e]
@[simp] theorem State.hbmWrite_auth (s : State) (a : Nat) (bs : List Byte) : (s.hbmWrite a bs).auth = s.auth := by obtain ⟨_, _, e⟩ := State.hbmWrite_spec s a bs; rw [e]
@[simp] theorem State.hbmWrite_cal (s : State) (a : Nat) (bs : List Byte) : (s.hbmWrite a bs).cal = s.cal := by obtain ⟨_, _, e⟩ := State.hbmWrite_spec s a bs; rw [e]
@[simp] theorem State.hbmWrite_hl (s : State) (a : Nat) (bs : List Byte) : (s.hbmWrite a bs).hl = s.hl := by obtain ⟨_, _, e⟩ := State.hbmWrite_spec s a bs; rw [e]
@[simp] theorem State.hbmWrite_herd (s : State) (a : Nat) (bs : List Byte) : (s.hbmWrite a bs).herd = s.herd := by obtain ⟨_, _, e⟩ := State.hbmWrite_spec s a bs; rw [e]
@[simp] theorem State.hbmWrite_acts (s : State) (a : Nat) (bs : List Byte) : (s.hbmWrite a bs).acts = s.acts := by obtain ⟨_, _, e⟩ := State.hbmWrite_spec s a bs; rw [e]
@[simp] theorem State.hbmWrite_devSafe (s : State) (a : Nat) (bs : List Byte) : (s.hbmWrite a bs).devSafe = s.devSafe := by obtain ⟨_, _, e⟩ := State.hbmWrite_spec s a bs; rw [e]
@[simp] theorem State.hbmWrite_globals (s : State) (a : Nat) (bs : List Byte) : (s.hbmWrite a bs).globals = s.globals := by obtain ⟨_, _, e⟩ := State.hbmWrite_spec s a bs; rw [e]
@[simp] theorem State.hbmWrite_free (s : State) (a : Nat) (bs : List Byte) : (s.hbmWrite a bs).free = s.free := by obtain ⟨_, _, e⟩ := State.hbmWrite_spec s a bs; rw [e]

/-! locWrite -/

@[simp] theorem State.locWrite_pending (s : State) (l a : Nat) (bs : List Byte) : (s.locWrite l a bs).pending = s.pending := by obtain ⟨_, _, _, e⟩ := State.locWrite_spec s l a bs; rw [e]
@[simp] theorem State.locWrite_regs (s : State) (l a : Nat) (bs : List Byte) : (s.locWrite l a bs).regs = s.regs := by obtain ⟨_, _, _, e⟩ := State.locWrite_spec s l a bs; rw [e]
@[simp] theorem State.locWrite_acting (s : State) (l a : Nat) (bs : List Byte) : (s.locWrite l a bs).acting = s.acting := by obtain ⟨_, _, _, e⟩ := State.locWrite_spec s l a bs; rw [e]
@[simp] theorem State.locWrite_time (s : State) (l a : Nat) (bs : List Byte) : (s.locWrite l a bs).time = s.time := by obtain ⟨_, _, _, e⟩ := State.locWrite_spec s l a bs; rw [e]
@[simp] theorem State.locWrite_rx (s : State) (l a : Nat) (bs : List Byte) : (s.locWrite l a bs).rx = s.rx := by obtain ⟨_, _, _, e⟩ := State.locWrite_spec s l a bs; rw [e]
@[simp] theorem State.locWrite_pkts (s : State) (l a : Nat) (bs : List Byte) : (s.locWrite l a bs).pkts = s.pkts := by obtain ⟨_, _, _, e⟩ := State.locWrite_spec s l a bs; rw [e]
@[simp] theorem State.locWrite_nextPkt (s : State) (l a : Nat) (bs : List Byte) : (s.locWrite l a bs).nextPkt = s.nextPkt := by obtain ⟨_, _, _, e⟩ := State.locWrite_spec s l a bs; rw [e]
@[simp] theorem State.locWrite_laneAcc (s : State) (l a : Nat) (bs : List Byte) : (s.locWrite l a bs).laneAcc = s.laneAcc := by obtain ⟨_, _, _, e⟩ := State.locWrite_spec s l a bs; rw [e]
@[simp] theorem State.locWrite_cls (s : State) (l a : Nat) (bs : List Byte) : (s.locWrite l a bs).cls = s.cls := by obtain ⟨_, _, _, e⟩ := State.locWrite_spec s l a bs; rw [e]
@[simp] theorem State.locWrite_frag (s : State) (l a : Nat) (bs : List Byte) : (s.locWrite l a bs).frag = s.frag := by obtain ⟨_, _, _, e⟩ := State.locWrite_spec s l a bs; rw [e]
@[simp] theorem State.locWrite_flow (s : State) (l a : Nat) (bs : List Byte) : (s.locWrite l a bs).flow = s.flow := by obtain ⟨_, _, _, e⟩ := State.locWrite_spec s l a bs; rw [e]
@[simp] theorem State.locWrite_ep (s : State) (l a : Nat) (bs : List Byte) : (s.locWrite l a bs).ep = s.ep := by obtain ⟨_, _, _, e⟩ := State.locWrite_spec s l a bs; rw [e]
@[simp] theorem State.locWrite_fcores (s : State) (l a : Nat) (bs : List Byte) : (s.locWrite l a bs).fcores = s.fcores := by obtain ⟨_, _, _, e⟩ := State.locWrite_spec s l a bs; rw [e]
@[simp] theorem State.locWrite_fsets (s : State) (l a : Nat) (bs : List Byte) : (s.locWrite l a bs).fsets = s.fsets := by obtain ⟨_, _, _, e⟩ := State.locWrite_spec s l a bs; rw [e]
@[simp] theorem State.locWrite_fhalf (s : State) (l a : Nat) (bs : List Byte) : (s.locWrite l a bs).fhalf = s.fhalf := by obtain ⟨_, _, _, e⟩ := State.locWrite_spec s l a bs; rw [e]
@[simp] theorem State.locWrite_tree (s : State) (l a : Nat) (bs : List Byte) : (s.locWrite l a bs).tree = s.tree := by obtain ⟨_, _, _, e⟩ := State.locWrite_spec s l a bs; rw [e]
@[simp] theorem State.locWrite_arr (s : State) (l a : Nat) (bs : List Byte) : (s.locWrite l a bs).arr = s.arr := by obtain ⟨_, _, _, e⟩ := State.locWrite_spec s l a bs; rw [e]
@[simp] theorem State.locWrite_ctxs (s : State) (l a : Nat) (bs : List Byte) : (s.locWrite l a bs).ctxs = s.ctxs := by obtain ⟨_, _, _, e⟩ := State.locWrite_spec s l a bs; rw [e]
@[simp] theorem State.locWrite_layout (s : State) (l a : Nat) (bs : List Byte) : (s.locWrite l a bs).layout = s.layout := by obtain ⟨_, _, _, e⟩ := State.locWrite_spec s l a bs; rw [e]
@[simp] theorem State.locWrite_eg (s : State) (l a : Nat) (bs : List Byte) : (s.locWrite l a bs).eg = s.eg := by obtain ⟨_, _, _, e⟩ := State.locWrite_spec s l a bs; rw [e]
@[simp] theorem State.locWrite_rxTs (s : State) (l a : Nat) (bs : List Byte) : (s.locWrite l a bs).rxTs = s.rxTs := by obtain ⟨_, _, _, e⟩ := State.locWrite_spec s l a bs; rw [e]
@[simp] theorem State.locWrite_txTs (s : State) (l a : Nat) (bs : List Byte) : (s.locWrite l a bs).txTs = s.txTs := by obtain ⟨_, _, _, e⟩ := State.locWrite_spec s l a bs; rw [e]
@[simp] theorem State.locWrite_hq (s : State) (l a : Nat) (bs : List Byte) : (s.locWrite l a bs).hq = s.hq := by obtain ⟨_, _, _, e⟩ := State.locWrite_spec s l a bs; rw [e]
@[simp] theorem State.locWrite_obs (s : State) (l a : Nat) (bs : List Byte) : (s.locWrite l a bs).obs = s.obs := by obtain ⟨_, _, _, e⟩ := State.locWrite_spec s l a bs; rw [e]
@[simp] theorem State.locWrite_watches (s : State) (l a : Nat) (bs : List Byte) : (s.locWrite l a bs).watches = s.watches := by obtain ⟨_, _, _, e⟩ := State.locWrite_spec s l a bs; rw [e]
@[simp] theorem State.locWrite_lanes (s : State) (l a : Nat) (bs : List Byte) : (s.locWrite l a bs).lanes = s.lanes := by obtain ⟨_, _, _, e⟩ := State.locWrite_spec s l a bs; rw [e]
@[simp] theorem State.locWrite_flocks (s : State) (l a : Nat) (bs : List Byte) : (s.locWrite l a bs).flocks = s.flocks := by obtain ⟨_, _, _, e⟩ := State.locWrite_spec s l a bs; rw [e]
@[simp] theorem State.locWrite_sec (s : State) (l a : Nat) (bs : List Byte) : (s.locWrite l a bs).sec = s.sec := by obtain ⟨_, _, _, e⟩ := State.locWrite_spec s l a bs; rw [e]
@[simp] theorem State.locWrite_auth (s : State) (l a : Nat) (bs : List Byte) : (s.locWrite l a bs).auth = s.auth := by obtain ⟨_, _, _, e⟩ := State.locWrite_spec s l a bs; rw [e]
@[simp] theorem State.locWrite_cal (s : State) (l a : Nat) (bs : List Byte) : (s.locWrite l a bs).cal = s.cal := by obtain ⟨_, _, _, e⟩ := State.locWrite_spec s l a bs; rw [e]
@[simp] theorem State.locWrite_hl (s : State) (l a : Nat) (bs : List Byte) : (s.locWrite l a bs).hl = s.hl := by obtain ⟨_, _, _, e⟩ := State.locWrite_spec s l a bs; rw [e]
@[simp] theorem State.locWrite_herd (s : State) (l a : Nat) (bs : List Byte) : (s.locWrite l a bs).herd = s.herd := by obtain ⟨_, _, _, e⟩ := State.locWrite_spec s l a bs; rw [e]
@[simp] theorem State.locWrite_acts (s : State) (l a : Nat) (bs : List Byte) : (s.locWrite l a bs).acts = s.acts := by obtain ⟨_, _, _, e⟩ := State.locWrite_spec s l a bs; rw [e]
@[simp] theorem State.locWrite_devSafe (s : State) (l a : Nat) (bs : List Byte) : (s.locWrite l a bs).devSafe = s.devSafe := by obtain ⟨_, _, _, e⟩ := State.locWrite_spec s l a bs; rw [e]
@[simp] theorem State.locWrite_globals (s : State) (l a : Nat) (bs : List Byte) : (s.locWrite l a bs).globals = s.globals := by obtain ⟨_, _, _, e⟩ := State.locWrite_spec s l a bs; rw [e]
@[simp] theorem State.locWrite_free (s : State) (l a : Nat) (bs : List Byte) : (s.locWrite l a bs).free = s.free := by obtain ⟨_, _, _, e⟩ := State.locWrite_spec s l a bs; rw [e]

/-! hqIrq -/

@[simp] theorem State.hqIrq_pending (s : State) (q : Nat) : (s.hqIrq q).pending = s.pending := by obtain ⟨_, _, e⟩ := State.hqIrq_spec s q; rw [e]
@[simp] theorem State.hqIrq_regs (s : State) (q : Nat) : (s.hqIrq q).regs = s.regs := by obtain ⟨_, _, e⟩ := State.hqIrq_spec s q; rw [e]
@[simp] theorem State.hqIrq_acting (s : State) (q : Nat) : (s.hqIrq q).acting = s.acting := by obtain ⟨_, _, e⟩ := State.hqIrq_spec s q; rw [e]
@[simp] theorem State.hqIrq_time (s : State) (q : Nat) : (s.hqIrq q).time = s.time := by obtain ⟨_, _, e⟩ := State.hqIrq_spec s q; rw [e]
@[simp] theorem State.hqIrq_rx (s : State) (q : Nat) : (s.hqIrq q).rx = s.rx := by obtain ⟨_, _, e⟩ := State.hqIrq_spec s q; rw [e]
@[simp] theorem State.hqIrq_pkts (s : State) (q : Nat) : (s.hqIrq q).pkts = s.pkts := by obtain ⟨_, _, e⟩ := State.hqIrq_spec s q; rw [e]
@[simp] theorem State.hqIrq_nextPkt (s : State) (q : Nat) : (s.hqIrq q).nextPkt = s.nextPkt := by obtain ⟨_, _, e⟩ := State.hqIrq_spec s q; rw [e]
@[simp] theorem State.hqIrq_laneAcc (s : State) (q : Nat) : (s.hqIrq q).laneAcc = s.laneAcc := by obtain ⟨_, _, e⟩ := State.hqIrq_spec s q; rw [e]
@[simp] theorem State.hqIrq_cls (s : State) (q : Nat) : (s.hqIrq q).cls = s.cls := by obtain ⟨_, _, e⟩ := State.hqIrq_spec s q; rw [e]
@[simp] theorem State.hqIrq_frag (s : State) (q : Nat) : (s.hqIrq q).frag = s.frag := by obtain ⟨_, _, e⟩ := State.hqIrq_spec s q; rw [e]
@[simp] theorem State.hqIrq_flow (s : State) (q : Nat) : (s.hqIrq q).flow = s.flow := by obtain ⟨_, _, e⟩ := State.hqIrq_spec s q; rw [e]
@[simp] theorem State.hqIrq_ep (s : State) (q : Nat) : (s.hqIrq q).ep = s.ep := by obtain ⟨_, _, e⟩ := State.hqIrq_spec s q; rw [e]
@[simp] theorem State.hqIrq_fcores (s : State) (q : Nat) : (s.hqIrq q).fcores = s.fcores := by obtain ⟨_, _, e⟩ := State.hqIrq_spec s q; rw [e]
@[simp] theorem State.hqIrq_fsets (s : State) (q : Nat) : (s.hqIrq q).fsets = s.fsets := by obtain ⟨_, _, e⟩ := State.hqIrq_spec s q; rw [e]
@[simp] theorem State.hqIrq_fhalf (s : State) (q : Nat) : (s.hqIrq q).fhalf = s.fhalf := by obtain ⟨_, _, e⟩ := State.hqIrq_spec s q; rw [e]
@[simp] theorem State.hqIrq_tree (s : State) (q : Nat) : (s.hqIrq q).tree = s.tree := by obtain ⟨_, _, e⟩ := State.hqIrq_spec s q; rw [e]
@[simp] theorem State.hqIrq_arr (s : State) (q : Nat) : (s.hqIrq q).arr = s.arr := by obtain ⟨_, _, e⟩ := State.hqIrq_spec s q; rw [e]
@[simp] theorem State.hqIrq_ctxs (s : State) (q : Nat) : (s.hqIrq q).ctxs = s.ctxs := by obtain ⟨_, _, e⟩ := State.hqIrq_spec s q; rw [e]
@[simp] theorem State.hqIrq_layout (s : State) (q : Nat) : (s.hqIrq q).layout = s.layout := by obtain ⟨_, _, e⟩ := State.hqIrq_spec s q; rw [e]
@[simp] theorem State.hqIrq_eg (s : State) (q : Nat) : (s.hqIrq q).eg = s.eg := by obtain ⟨_, _, e⟩ := State.hqIrq_spec s q; rw [e]
@[simp] theorem State.hqIrq_rxTs (s : State) (q : Nat) : (s.hqIrq q).rxTs = s.rxTs := by obtain ⟨_, _, e⟩ := State.hqIrq_spec s q; rw [e]
@[simp] theorem State.hqIrq_txTs (s : State) (q : Nat) : (s.hqIrq q).txTs = s.txTs := by obtain ⟨_, _, e⟩ := State.hqIrq_spec s q; rw [e]
@[simp] theorem State.hqIrq_obs (s : State) (q : Nat) : (s.hqIrq q).obs = s.obs := by obtain ⟨_, _, e⟩ := State.hqIrq_spec s q; rw [e]
@[simp] theorem State.hqIrq_watches (s : State) (q : Nat) : (s.hqIrq q).watches = s.watches := by obtain ⟨_, _, e⟩ := State.hqIrq_spec s q; rw [e]
@[simp] theorem State.hqIrq_hbm (s : State) (q : Nat) : (s.hqIrq q).hbm = s.hbm := by obtain ⟨_, _, e⟩ := State.hqIrq_spec s q; rw [e]
@[simp] theorem State.hqIrq_lanes (s : State) (q : Nat) : (s.hqIrq q).lanes = s.lanes := by obtain ⟨_, _, e⟩ := State.hqIrq_spec s q; rw [e]
@[simp] theorem State.hqIrq_flocks (s : State) (q : Nat) : (s.hqIrq q).flocks = s.flocks := by obtain ⟨_, _, e⟩ := State.hqIrq_spec s q; rw [e]
@[simp] theorem State.hqIrq_flt (s : State) (q : Nat) : (s.hqIrq q).flt = s.flt := by obtain ⟨_, _, e⟩ := State.hqIrq_spec s q; rw [e]
@[simp] theorem State.hqIrq_sec (s : State) (q : Nat) : (s.hqIrq q).sec = s.sec := by obtain ⟨_, _, e⟩ := State.hqIrq_spec s q; rw [e]
@[simp] theorem State.hqIrq_auth (s : State) (q : Nat) : (s.hqIrq q).auth = s.auth := by obtain ⟨_, _, e⟩ := State.hqIrq_spec s q; rw [e]
@[simp] theorem State.hqIrq_cal (s : State) (q : Nat) : (s.hqIrq q).cal = s.cal := by obtain ⟨_, _, e⟩ := State.hqIrq_spec s q; rw [e]
@[simp] theorem State.hqIrq_hl (s : State) (q : Nat) : (s.hqIrq q).hl = s.hl := by obtain ⟨_, _, e⟩ := State.hqIrq_spec s q; rw [e]
@[simp] theorem State.hqIrq_herd (s : State) (q : Nat) : (s.hqIrq q).herd = s.herd := by obtain ⟨_, _, e⟩ := State.hqIrq_spec s q; rw [e]
@[simp] theorem State.hqIrq_acts (s : State) (q : Nat) : (s.hqIrq q).acts = s.acts := by obtain ⟨_, _, e⟩ := State.hqIrq_spec s q; rw [e]
@[simp] theorem State.hqIrq_devSafe (s : State) (q : Nat) : (s.hqIrq q).devSafe = s.devSafe := by obtain ⟨_, _, e⟩ := State.hqIrq_spec s q; rw [e]
@[simp] theorem State.hqIrq_globals (s : State) (q : Nat) : (s.hqIrq q).globals = s.globals := by obtain ⟨_, _, e⟩ := State.hqIrq_spec s q; rw [e]
@[simp] theorem State.hqIrq_free (s : State) (q : Nat) : (s.hqIrq q).free = s.free := by obtain ⟨_, _, e⟩ := State.hqIrq_spec s q; rw [e]

/-! hqPlace -/

@[simp] theorem State.hqPlace_pending (s : State) (q : Nat) (bs : List Byte) : (s.hqPlace q bs).pending = s.pending := by obtain ⟨_, _, _, _, _, e⟩ := State.hqPlace_spec s q bs; rw [e]
@[simp] theorem State.hqPlace_acting (s : State) (q : Nat) (bs : List Byte) : (s.hqPlace q bs).acting = s.acting := by obtain ⟨_, _, _, _, _, e⟩ := State.hqPlace_spec s q bs; rw [e]
@[simp] theorem State.hqPlace_time (s : State) (q : Nat) (bs : List Byte) : (s.hqPlace q bs).time = s.time := by obtain ⟨_, _, _, _, _, e⟩ := State.hqPlace_spec s q bs; rw [e]
@[simp] theorem State.hqPlace_rx (s : State) (q : Nat) (bs : List Byte) : (s.hqPlace q bs).rx = s.rx := by obtain ⟨_, _, _, _, _, e⟩ := State.hqPlace_spec s q bs; rw [e]
@[simp] theorem State.hqPlace_pkts (s : State) (q : Nat) (bs : List Byte) : (s.hqPlace q bs).pkts = s.pkts := by obtain ⟨_, _, _, _, _, e⟩ := State.hqPlace_spec s q bs; rw [e]
@[simp] theorem State.hqPlace_nextPkt (s : State) (q : Nat) (bs : List Byte) : (s.hqPlace q bs).nextPkt = s.nextPkt := by obtain ⟨_, _, _, _, _, e⟩ := State.hqPlace_spec s q bs; rw [e]
@[simp] theorem State.hqPlace_laneAcc (s : State) (q : Nat) (bs : List Byte) : (s.hqPlace q bs).laneAcc = s.laneAcc := by obtain ⟨_, _, _, _, _, e⟩ := State.hqPlace_spec s q bs; rw [e]
@[simp] theorem State.hqPlace_cls (s : State) (q : Nat) (bs : List Byte) : (s.hqPlace q bs).cls = s.cls := by obtain ⟨_, _, _, _, _, e⟩ := State.hqPlace_spec s q bs; rw [e]
@[simp] theorem State.hqPlace_frag (s : State) (q : Nat) (bs : List Byte) : (s.hqPlace q bs).frag = s.frag := by obtain ⟨_, _, _, _, _, e⟩ := State.hqPlace_spec s q bs; rw [e]
@[simp] theorem State.hqPlace_flow (s : State) (q : Nat) (bs : List Byte) : (s.hqPlace q bs).flow = s.flow := by obtain ⟨_, _, _, _, _, e⟩ := State.hqPlace_spec s q bs; rw [e]
@[simp] theorem State.hqPlace_ep (s : State) (q : Nat) (bs : List Byte) : (s.hqPlace q bs).ep = s.ep := by obtain ⟨_, _, _, _, _, e⟩ := State.hqPlace_spec s q bs; rw [e]
@[simp] theorem State.hqPlace_fcores (s : State) (q : Nat) (bs : List Byte) : (s.hqPlace q bs).fcores = s.fcores := by obtain ⟨_, _, _, _, _, e⟩ := State.hqPlace_spec s q bs; rw [e]
@[simp] theorem State.hqPlace_fsets (s : State) (q : Nat) (bs : List Byte) : (s.hqPlace q bs).fsets = s.fsets := by obtain ⟨_, _, _, _, _, e⟩ := State.hqPlace_spec s q bs; rw [e]
@[simp] theorem State.hqPlace_fhalf (s : State) (q : Nat) (bs : List Byte) : (s.hqPlace q bs).fhalf = s.fhalf := by obtain ⟨_, _, _, _, _, e⟩ := State.hqPlace_spec s q bs; rw [e]
@[simp] theorem State.hqPlace_tree (s : State) (q : Nat) (bs : List Byte) : (s.hqPlace q bs).tree = s.tree := by obtain ⟨_, _, _, _, _, e⟩ := State.hqPlace_spec s q bs; rw [e]
@[simp] theorem State.hqPlace_arr (s : State) (q : Nat) (bs : List Byte) : (s.hqPlace q bs).arr = s.arr := by obtain ⟨_, _, _, _, _, e⟩ := State.hqPlace_spec s q bs; rw [e]
@[simp] theorem State.hqPlace_ctxs (s : State) (q : Nat) (bs : List Byte) : (s.hqPlace q bs).ctxs = s.ctxs := by obtain ⟨_, _, _, _, _, e⟩ := State.hqPlace_spec s q bs; rw [e]
@[simp] theorem State.hqPlace_layout (s : State) (q : Nat) (bs : List Byte) : (s.hqPlace q bs).layout = s.layout := by obtain ⟨_, _, _, _, _, e⟩ := State.hqPlace_spec s q bs; rw [e]
@[simp] theorem State.hqPlace_eg (s : State) (q : Nat) (bs : List Byte) : (s.hqPlace q bs).eg = s.eg := by obtain ⟨_, _, _, _, _, e⟩ := State.hqPlace_spec s q bs; rw [e]
@[simp] theorem State.hqPlace_rxTs (s : State) (q : Nat) (bs : List Byte) : (s.hqPlace q bs).rxTs = s.rxTs := by obtain ⟨_, _, _, _, _, e⟩ := State.hqPlace_spec s q bs; rw [e]
@[simp] theorem State.hqPlace_txTs (s : State) (q : Nat) (bs : List Byte) : (s.hqPlace q bs).txTs = s.txTs := by obtain ⟨_, _, _, _, _, e⟩ := State.hqPlace_spec s q bs; rw [e]
@[simp] theorem State.hqPlace_obs (s : State) (q : Nat) (bs : List Byte) : (s.hqPlace q bs).obs = s.obs := by obtain ⟨_, _, _, _, _, e⟩ := State.hqPlace_spec s q bs; rw [e]
@[simp] theorem State.hqPlace_watches (s : State) (q : Nat) (bs : List Byte) : (s.hqPlace q bs).watches = s.watches := by obtain ⟨_, _, _, _, _, e⟩ := State.hqPlace_spec s q bs; rw [e]
@[simp] theorem State.hqPlace_lanes (s : State) (q : Nat) (bs : List Byte) : (s.hqPlace q bs).lanes = s.lanes := by obtain ⟨_, _, _, _, _, e⟩ := State.hqPlace_spec s q bs; rw [e]
@[simp] theorem State.hqPlace_flocks (s : State) (q : Nat) (bs : List Byte) : (s.hqPlace q bs).flocks = s.flocks := by obtain ⟨_, _, _, _, _, e⟩ := State.hqPlace_spec s q bs; rw [e]
@[simp] theorem State.hqPlace_sec (s : State) (q : Nat) (bs : List Byte) : (s.hqPlace q bs).sec = s.sec := by obtain ⟨_, _, _, _, _, e⟩ := State.hqPlace_spec s q bs; rw [e]
@[simp] theorem State.hqPlace_auth (s : State) (q : Nat) (bs : List Byte) : (s.hqPlace q bs).auth = s.auth := by obtain ⟨_, _, _, _, _, e⟩ := State.hqPlace_spec s q bs; rw [e]
@[simp] theorem State.hqPlace_cal (s : State) (q : Nat) (bs : List Byte) : (s.hqPlace q bs).cal = s.cal := by obtain ⟨_, _, _, _, _, e⟩ := State.hqPlace_spec s q bs; rw [e]
@[simp] theorem State.hqPlace_hl (s : State) (q : Nat) (bs : List Byte) : (s.hqPlace q bs).hl = s.hl := by obtain ⟨_, _, _, _, _, e⟩ := State.hqPlace_spec s q bs; rw [e]
@[simp] theorem State.hqPlace_herd (s : State) (q : Nat) (bs : List Byte) : (s.hqPlace q bs).herd = s.herd := by obtain ⟨_, _, _, _, _, e⟩ := State.hqPlace_spec s q bs; rw [e]
@[simp] theorem State.hqPlace_acts (s : State) (q : Nat) (bs : List Byte) : (s.hqPlace q bs).acts = s.acts := by obtain ⟨_, _, _, _, _, e⟩ := State.hqPlace_spec s q bs; rw [e]
@[simp] theorem State.hqPlace_devSafe (s : State) (q : Nat) (bs : List Byte) : (s.hqPlace q bs).devSafe = s.devSafe := by obtain ⟨_, _, _, _, _, e⟩ := State.hqPlace_spec s q bs; rw [e]
@[simp] theorem State.hqPlace_globals (s : State) (q : Nat) (bs : List Byte) : (s.hqPlace q bs).globals = s.globals := by obtain ⟨_, _, _, _, _, e⟩ := State.hqPlace_spec s q bs; rw [e]
@[simp] theorem State.hqPlace_free (s : State) (q : Nat) (bs : List Byte) : (s.hqPlace q bs).free = s.free := by obtain ⟨_, _, _, _, _, e⟩ := State.hqPlace_spec s q bs; rw [e]

/-! hqProduce -/

@[simp] theorem State.hqProduce_pending (s : State) (q : Nat) (bs : List Byte) : (s.hqProduce q bs).pending = s.pending := by obtain ⟨_, _, _, _, _, e⟩ := State.hqProduce_spec s q bs; rw [e]
@[simp] theorem State.hqProduce_acting (s : State) (q : Nat) (bs : List Byte) : (s.hqProduce q bs).acting = s.acting := by obtain ⟨_, _, _, _, _, e⟩ := State.hqProduce_spec s q bs; rw [e]
@[simp] theorem State.hqProduce_time (s : State) (q : Nat) (bs : List Byte) : (s.hqProduce q bs).time = s.time := by obtain ⟨_, _, _, _, _, e⟩ := State.hqProduce_spec s q bs; rw [e]
@[simp] theorem State.hqProduce_rx (s : State) (q : Nat) (bs : List Byte) : (s.hqProduce q bs).rx = s.rx := by obtain ⟨_, _, _, _, _, e⟩ := State.hqProduce_spec s q bs; rw [e]
@[simp] theorem State.hqProduce_pkts (s : State) (q : Nat) (bs : List Byte) : (s.hqProduce q bs).pkts = s.pkts := by obtain ⟨_, _, _, _, _, e⟩ := State.hqProduce_spec s q bs; rw [e]
@[simp] theorem State.hqProduce_nextPkt (s : State) (q : Nat) (bs : List Byte) : (s.hqProduce q bs).nextPkt = s.nextPkt := by obtain ⟨_, _, _, _, _, e⟩ := State.hqProduce_spec s q bs; rw [e]
@[simp] theorem State.hqProduce_laneAcc (s : State) (q : Nat) (bs : List Byte) : (s.hqProduce q bs).laneAcc = s.laneAcc := by obtain ⟨_, _, _, _, _, e⟩ := State.hqProduce_spec s q bs; rw [e]
@[simp] theorem State.hqProduce_cls (s : State) (q : Nat) (bs : List Byte) : (s.hqProduce q bs).cls = s.cls := by obtain ⟨_, _, _, _, _, e⟩ := State.hqProduce_spec s q bs; rw [e]
@[simp] theorem State.hqProduce_frag (s : State) (q : Nat) (bs : List Byte) : (s.hqProduce q bs).frag = s.frag := by obtain ⟨_, _, _, _, _, e⟩ := State.hqProduce_spec s q bs; rw [e]
@[simp] theorem State.hqProduce_flow (s : State) (q : Nat) (bs : List Byte) : (s.hqProduce q bs).flow = s.flow := by obtain ⟨_, _, _, _, _, e⟩ := State.hqProduce_spec s q bs; rw [e]
@[simp] theorem State.hqProduce_ep (s : State) (q : Nat) (bs : List Byte) : (s.hqProduce q bs).ep = s.ep := by obtain ⟨_, _, _, _, _, e⟩ := State.hqProduce_spec s q bs; rw [e]
@[simp] theorem State.hqProduce_fcores (s : State) (q : Nat) (bs : List Byte) : (s.hqProduce q bs).fcores = s.fcores := by obtain ⟨_, _, _, _, _, e⟩ := State.hqProduce_spec s q bs; rw [e]
@[simp] theorem State.hqProduce_fsets (s : State) (q : Nat) (bs : List Byte) : (s.hqProduce q bs).fsets = s.fsets := by obtain ⟨_, _, _, _, _, e⟩ := State.hqProduce_spec s q bs; rw [e]
@[simp] theorem State.hqProduce_fhalf (s : State) (q : Nat) (bs : List Byte) : (s.hqProduce q bs).fhalf = s.fhalf := by obtain ⟨_, _, _, _, _, e⟩ := State.hqProduce_spec s q bs; rw [e]
@[simp] theorem State.hqProduce_tree (s : State) (q : Nat) (bs : List Byte) : (s.hqProduce q bs).tree = s.tree := by obtain ⟨_, _, _, _, _, e⟩ := State.hqProduce_spec s q bs; rw [e]
@[simp] theorem State.hqProduce_arr (s : State) (q : Nat) (bs : List Byte) : (s.hqProduce q bs).arr = s.arr := by obtain ⟨_, _, _, _, _, e⟩ := State.hqProduce_spec s q bs; rw [e]
@[simp] theorem State.hqProduce_ctxs (s : State) (q : Nat) (bs : List Byte) : (s.hqProduce q bs).ctxs = s.ctxs := by obtain ⟨_, _, _, _, _, e⟩ := State.hqProduce_spec s q bs; rw [e]
@[simp] theorem State.hqProduce_layout (s : State) (q : Nat) (bs : List Byte) : (s.hqProduce q bs).layout = s.layout := by obtain ⟨_, _, _, _, _, e⟩ := State.hqProduce_spec s q bs; rw [e]
@[simp] theorem State.hqProduce_eg (s : State) (q : Nat) (bs : List Byte) : (s.hqProduce q bs).eg = s.eg := by obtain ⟨_, _, _, _, _, e⟩ := State.hqProduce_spec s q bs; rw [e]
@[simp] theorem State.hqProduce_rxTs (s : State) (q : Nat) (bs : List Byte) : (s.hqProduce q bs).rxTs = s.rxTs := by obtain ⟨_, _, _, _, _, e⟩ := State.hqProduce_spec s q bs; rw [e]
@[simp] theorem State.hqProduce_txTs (s : State) (q : Nat) (bs : List Byte) : (s.hqProduce q bs).txTs = s.txTs := by obtain ⟨_, _, _, _, _, e⟩ := State.hqProduce_spec s q bs; rw [e]
@[simp] theorem State.hqProduce_obs (s : State) (q : Nat) (bs : List Byte) : (s.hqProduce q bs).obs = s.obs := by obtain ⟨_, _, _, _, _, e⟩ := State.hqProduce_spec s q bs; rw [e]
@[simp] theorem State.hqProduce_watches (s : State) (q : Nat) (bs : List Byte) : (s.hqProduce q bs).watches = s.watches := by obtain ⟨_, _, _, _, _, e⟩ := State.hqProduce_spec s q bs; rw [e]
@[simp] theorem State.hqProduce_lanes (s : State) (q : Nat) (bs : List Byte) : (s.hqProduce q bs).lanes = s.lanes := by obtain ⟨_, _, _, _, _, e⟩ := State.hqProduce_spec s q bs; rw [e]
@[simp] theorem State.hqProduce_flocks (s : State) (q : Nat) (bs : List Byte) : (s.hqProduce q bs).flocks = s.flocks := by obtain ⟨_, _, _, _, _, e⟩ := State.hqProduce_spec s q bs; rw [e]
@[simp] theorem State.hqProduce_sec (s : State) (q : Nat) (bs : List Byte) : (s.hqProduce q bs).sec = s.sec := by obtain ⟨_, _, _, _, _, e⟩ := State.hqProduce_spec s q bs; rw [e]
@[simp] theorem State.hqProduce_auth (s : State) (q : Nat) (bs : List Byte) : (s.hqProduce q bs).auth = s.auth := by obtain ⟨_, _, _, _, _, e⟩ := State.hqProduce_spec s q bs; rw [e]
@[simp] theorem State.hqProduce_cal (s : State) (q : Nat) (bs : List Byte) : (s.hqProduce q bs).cal = s.cal := by obtain ⟨_, _, _, _, _, e⟩ := State.hqProduce_spec s q bs; rw [e]
@[simp] theorem State.hqProduce_hl (s : State) (q : Nat) (bs : List Byte) : (s.hqProduce q bs).hl = s.hl := by obtain ⟨_, _, _, _, _, e⟩ := State.hqProduce_spec s q bs; rw [e]
@[simp] theorem State.hqProduce_herd (s : State) (q : Nat) (bs : List Byte) : (s.hqProduce q bs).herd = s.herd := by obtain ⟨_, _, _, _, _, e⟩ := State.hqProduce_spec s q bs; rw [e]
@[simp] theorem State.hqProduce_acts (s : State) (q : Nat) (bs : List Byte) : (s.hqProduce q bs).acts = s.acts := by obtain ⟨_, _, _, _, _, e⟩ := State.hqProduce_spec s q bs; rw [e]
@[simp] theorem State.hqProduce_devSafe (s : State) (q : Nat) (bs : List Byte) : (s.hqProduce q bs).devSafe = s.devSafe := by obtain ⟨_, _, _, _, _, e⟩ := State.hqProduce_spec s q bs; rw [e]
@[simp] theorem State.hqProduce_globals (s : State) (q : Nat) (bs : List Byte) : (s.hqProduce q bs).globals = s.globals := by obtain ⟨_, _, _, _, _, e⟩ := State.hqProduce_spec s q bs; rw [e]
@[simp] theorem State.hqProduce_free (s : State) (q : Nat) (bs : List Byte) : (s.hqProduce q bs).free = s.free := by obtain ⟨_, _, _, _, _, e⟩ := State.hqProduce_spec s q bs; rw [e]

/-! fault -/

@[simp] theorem State.fault_pending (s : State) (x : FaultRec) : (s.fault x).pending = s.pending := by obtain ⟨_, _, _, _, _, e⟩ := State.fault_spec s x; rw [e]
@[simp] theorem State.fault_acting (s : State) (x : FaultRec) : (s.fault x).acting = s.acting := by obtain ⟨_, _, _, _, _, e⟩ := State.fault_spec s x; rw [e]
@[simp] theorem State.fault_time (s : State) (x : FaultRec) : (s.fault x).time = s.time := by obtain ⟨_, _, _, _, _, e⟩ := State.fault_spec s x; rw [e]
@[simp] theorem State.fault_rx (s : State) (x : FaultRec) : (s.fault x).rx = s.rx := by obtain ⟨_, _, _, _, _, e⟩ := State.fault_spec s x; rw [e]
@[simp] theorem State.fault_pkts (s : State) (x : FaultRec) : (s.fault x).pkts = s.pkts := by obtain ⟨_, _, _, _, _, e⟩ := State.fault_spec s x; rw [e]
@[simp] theorem State.fault_nextPkt (s : State) (x : FaultRec) : (s.fault x).nextPkt = s.nextPkt := by obtain ⟨_, _, _, _, _, e⟩ := State.fault_spec s x; rw [e]
@[simp] theorem State.fault_laneAcc (s : State) (x : FaultRec) : (s.fault x).laneAcc = s.laneAcc := by obtain ⟨_, _, _, _, _, e⟩ := State.fault_spec s x; rw [e]
@[simp] theorem State.fault_cls (s : State) (x : FaultRec) : (s.fault x).cls = s.cls := by obtain ⟨_, _, _, _, _, e⟩ := State.fault_spec s x; rw [e]
@[simp] theorem State.fault_frag (s : State) (x : FaultRec) : (s.fault x).frag = s.frag := by obtain ⟨_, _, _, _, _, e⟩ := State.fault_spec s x; rw [e]
@[simp] theorem State.fault_flow (s : State) (x : FaultRec) : (s.fault x).flow = s.flow := by obtain ⟨_, _, _, _, _, e⟩ := State.fault_spec s x; rw [e]
@[simp] theorem State.fault_ep (s : State) (x : FaultRec) : (s.fault x).ep = s.ep := by obtain ⟨_, _, _, _, _, e⟩ := State.fault_spec s x; rw [e]
@[simp] theorem State.fault_fcores (s : State) (x : FaultRec) : (s.fault x).fcores = s.fcores := by obtain ⟨_, _, _, _, _, e⟩ := State.fault_spec s x; rw [e]
@[simp] theorem State.fault_fsets (s : State) (x : FaultRec) : (s.fault x).fsets = s.fsets := by obtain ⟨_, _, _, _, _, e⟩ := State.fault_spec s x; rw [e]
@[simp] theorem State.fault_fhalf (s : State) (x : FaultRec) : (s.fault x).fhalf = s.fhalf := by obtain ⟨_, _, _, _, _, e⟩ := State.fault_spec s x; rw [e]
@[simp] theorem State.fault_tree (s : State) (x : FaultRec) : (s.fault x).tree = s.tree := by obtain ⟨_, _, _, _, _, e⟩ := State.fault_spec s x; rw [e]
@[simp] theorem State.fault_arr (s : State) (x : FaultRec) : (s.fault x).arr = s.arr := by obtain ⟨_, _, _, _, _, e⟩ := State.fault_spec s x; rw [e]
@[simp] theorem State.fault_ctxs (s : State) (x : FaultRec) : (s.fault x).ctxs = s.ctxs := by obtain ⟨_, _, _, _, _, e⟩ := State.fault_spec s x; rw [e]
@[simp] theorem State.fault_layout (s : State) (x : FaultRec) : (s.fault x).layout = s.layout := by obtain ⟨_, _, _, _, _, e⟩ := State.fault_spec s x; rw [e]
@[simp] theorem State.fault_eg (s : State) (x : FaultRec) : (s.fault x).eg = s.eg := by obtain ⟨_, _, _, _, _, e⟩ := State.fault_spec s x; rw [e]
@[simp] theorem State.fault_rxTs (s : State) (x : FaultRec) : (s.fault x).rxTs = s.rxTs := by obtain ⟨_, _, _, _, _, e⟩ := State.fault_spec s x; rw [e]
@[simp] theorem State.fault_txTs (s : State) (x : FaultRec) : (s.fault x).txTs = s.txTs := by obtain ⟨_, _, _, _, _, e⟩ := State.fault_spec s x; rw [e]
@[simp] theorem State.fault_obs (s : State) (x : FaultRec) : (s.fault x).obs = s.obs := by obtain ⟨_, _, _, _, _, e⟩ := State.fault_spec s x; rw [e]
@[simp] theorem State.fault_watches (s : State) (x : FaultRec) : (s.fault x).watches = s.watches := by obtain ⟨_, _, _, _, _, e⟩ := State.fault_spec s x; rw [e]
@[simp] theorem State.fault_lanes (s : State) (x : FaultRec) : (s.fault x).lanes = s.lanes := by obtain ⟨_, _, _, _, _, e⟩ := State.fault_spec s x; rw [e]
@[simp] theorem State.fault_flocks (s : State) (x : FaultRec) : (s.fault x).flocks = s.flocks := by obtain ⟨_, _, _, _, _, e⟩ := State.fault_spec s x; rw [e]
@[simp] theorem State.fault_sec (s : State) (x : FaultRec) : (s.fault x).sec = s.sec := by obtain ⟨_, _, _, _, _, e⟩ := State.fault_spec s x; rw [e]
@[simp] theorem State.fault_auth (s : State) (x : FaultRec) : (s.fault x).auth = s.auth := by obtain ⟨_, _, _, _, _, e⟩ := State.fault_spec s x; rw [e]
@[simp] theorem State.fault_cal (s : State) (x : FaultRec) : (s.fault x).cal = s.cal := by obtain ⟨_, _, _, _, _, e⟩ := State.fault_spec s x; rw [e]
@[simp] theorem State.fault_hl (s : State) (x : FaultRec) : (s.fault x).hl = s.hl := by obtain ⟨_, _, _, _, _, e⟩ := State.fault_spec s x; rw [e]
@[simp] theorem State.fault_herd (s : State) (x : FaultRec) : (s.fault x).herd = s.herd := by obtain ⟨_, _, _, _, _, e⟩ := State.fault_spec s x; rw [e]
@[simp] theorem State.fault_acts (s : State) (x : FaultRec) : (s.fault x).acts = s.acts := by obtain ⟨_, _, _, _, _, e⟩ := State.fault_spec s x; rw [e]
@[simp] theorem State.fault_devSafe (s : State) (x : FaultRec) : (s.fault x).devSafe = s.devSafe := by obtain ⟨_, _, _, _, _, e⟩ := State.fault_spec s x; rw [e]
@[simp] theorem State.fault_globals (s : State) (x : FaultRec) : (s.fault x).globals = s.globals := by obtain ⟨_, _, _, _, _, e⟩ := State.fault_spec s x; rw [e]
@[simp] theorem State.fault_free (s : State) (x : FaultRec) : (s.fault x).free = s.free := by obtain ⟨_, _, _, _, _, e⟩ := State.fault_spec s x; rw [e]

/-! audit -/

@[simp] theorem State.audit_pending (s : State) (x : AuditRec) : (s.audit x).pending = s.pending := by obtain ⟨_, _, _, _, _, e⟩ := State.audit_spec s x; rw [e]
@[simp] theorem State.audit_acting (s : State) (x : AuditRec) : (s.audit x).acting = s.acting := by obtain ⟨_, _, _, _, _, e⟩ := State.audit_spec s x; rw [e]
@[simp] theorem State.audit_time (s : State) (x : AuditRec) : (s.audit x).time = s.time := by obtain ⟨_, _, _, _, _, e⟩ := State.audit_spec s x; rw [e]
@[simp] theorem State.audit_rx (s : State) (x : AuditRec) : (s.audit x).rx = s.rx := by obtain ⟨_, _, _, _, _, e⟩ := State.audit_spec s x; rw [e]
@[simp] theorem State.audit_pkts (s : State) (x : AuditRec) : (s.audit x).pkts = s.pkts := by obtain ⟨_, _, _, _, _, e⟩ := State.audit_spec s x; rw [e]
@[simp] theorem State.audit_nextPkt (s : State) (x : AuditRec) : (s.audit x).nextPkt = s.nextPkt := by obtain ⟨_, _, _, _, _, e⟩ := State.audit_spec s x; rw [e]
@[simp] theorem State.audit_laneAcc (s : State) (x : AuditRec) : (s.audit x).laneAcc = s.laneAcc := by obtain ⟨_, _, _, _, _, e⟩ := State.audit_spec s x; rw [e]
@[simp] theorem State.audit_cls (s : State) (x : AuditRec) : (s.audit x).cls = s.cls := by obtain ⟨_, _, _, _, _, e⟩ := State.audit_spec s x; rw [e]
@[simp] theorem State.audit_frag (s : State) (x : AuditRec) : (s.audit x).frag = s.frag := by obtain ⟨_, _, _, _, _, e⟩ := State.audit_spec s x; rw [e]
@[simp] theorem State.audit_flow (s : State) (x : AuditRec) : (s.audit x).flow = s.flow := by obtain ⟨_, _, _, _, _, e⟩ := State.audit_spec s x; rw [e]
@[simp] theorem State.audit_ep (s : State) (x : AuditRec) : (s.audit x).ep = s.ep := by obtain ⟨_, _, _, _, _, e⟩ := State.audit_spec s x; rw [e]
@[simp] theorem State.audit_fcores (s : State) (x : AuditRec) : (s.audit x).fcores = s.fcores := by obtain ⟨_, _, _, _, _, e⟩ := State.audit_spec s x; rw [e]
@[simp] theorem State.audit_fsets (s : State) (x : AuditRec) : (s.audit x).fsets = s.fsets := by obtain ⟨_, _, _, _, _, e⟩ := State.audit_spec s x; rw [e]
@[simp] theorem State.audit_fhalf (s : State) (x : AuditRec) : (s.audit x).fhalf = s.fhalf := by obtain ⟨_, _, _, _, _, e⟩ := State.audit_spec s x; rw [e]
@[simp] theorem State.audit_tree (s : State) (x : AuditRec) : (s.audit x).tree = s.tree := by obtain ⟨_, _, _, _, _, e⟩ := State.audit_spec s x; rw [e]
@[simp] theorem State.audit_arr (s : State) (x : AuditRec) : (s.audit x).arr = s.arr := by obtain ⟨_, _, _, _, _, e⟩ := State.audit_spec s x; rw [e]
@[simp] theorem State.audit_ctxs (s : State) (x : AuditRec) : (s.audit x).ctxs = s.ctxs := by obtain ⟨_, _, _, _, _, e⟩ := State.audit_spec s x; rw [e]
@[simp] theorem State.audit_layout (s : State) (x : AuditRec) : (s.audit x).layout = s.layout := by obtain ⟨_, _, _, _, _, e⟩ := State.audit_spec s x; rw [e]
@[simp] theorem State.audit_eg (s : State) (x : AuditRec) : (s.audit x).eg = s.eg := by obtain ⟨_, _, _, _, _, e⟩ := State.audit_spec s x; rw [e]
@[simp] theorem State.audit_rxTs (s : State) (x : AuditRec) : (s.audit x).rxTs = s.rxTs := by obtain ⟨_, _, _, _, _, e⟩ := State.audit_spec s x; rw [e]
@[simp] theorem State.audit_txTs (s : State) (x : AuditRec) : (s.audit x).txTs = s.txTs := by obtain ⟨_, _, _, _, _, e⟩ := State.audit_spec s x; rw [e]
@[simp] theorem State.audit_obs (s : State) (x : AuditRec) : (s.audit x).obs = s.obs := by obtain ⟨_, _, _, _, _, e⟩ := State.audit_spec s x; rw [e]
@[simp] theorem State.audit_watches (s : State) (x : AuditRec) : (s.audit x).watches = s.watches := by obtain ⟨_, _, _, _, _, e⟩ := State.audit_spec s x; rw [e]
@[simp] theorem State.audit_lanes (s : State) (x : AuditRec) : (s.audit x).lanes = s.lanes := by obtain ⟨_, _, _, _, _, e⟩ := State.audit_spec s x; rw [e]
@[simp] theorem State.audit_flocks (s : State) (x : AuditRec) : (s.audit x).flocks = s.flocks := by obtain ⟨_, _, _, _, _, e⟩ := State.audit_spec s x; rw [e]
@[simp] theorem State.audit_sec (s : State) (x : AuditRec) : (s.audit x).sec = s.sec := by obtain ⟨_, _, _, _, _, e⟩ := State.audit_spec s x; rw [e]
@[simp] theorem State.audit_auth (s : State) (x : AuditRec) : (s.audit x).auth = s.auth := by obtain ⟨_, _, _, _, _, e⟩ := State.audit_spec s x; rw [e]
@[simp] theorem State.audit_cal (s : State) (x : AuditRec) : (s.audit x).cal = s.cal := by obtain ⟨_, _, _, _, _, e⟩ := State.audit_spec s x; rw [e]
@[simp] theorem State.audit_hl (s : State) (x : AuditRec) : (s.audit x).hl = s.hl := by obtain ⟨_, _, _, _, _, e⟩ := State.audit_spec s x; rw [e]
@[simp] theorem State.audit_herd (s : State) (x : AuditRec) : (s.audit x).herd = s.herd := by obtain ⟨_, _, _, _, _, e⟩ := State.audit_spec s x; rw [e]
@[simp] theorem State.audit_acts (s : State) (x : AuditRec) : (s.audit x).acts = s.acts := by obtain ⟨_, _, _, _, _, e⟩ := State.audit_spec s x; rw [e]
@[simp] theorem State.audit_devSafe (s : State) (x : AuditRec) : (s.audit x).devSafe = s.devSafe := by obtain ⟨_, _, _, _, _, e⟩ := State.audit_spec s x; rw [e]
@[simp] theorem State.audit_globals (s : State) (x : AuditRec) : (s.audit x).globals = s.globals := by obtain ⟨_, _, _, _, _, e⟩ := State.audit_spec s x; rw [e]
@[simp] theorem State.audit_free (s : State) (x : AuditRec) : (s.audit x).free = s.free := by obtain ⟨_, _, _, _, _, e⟩ := State.audit_spec s x; rw [e]

/-! auditCmd -/

@[simp] theorem State.auditCmd_pending (s : State) (src : Source) (g : Field) (i n res c k : Nat) : (s.auditCmd src g i n res c k).pending = s.pending := by obtain ⟨_, _, _, _, _, e⟩ := State.auditCmd_spec s src g i n res c k; rw [e]
@[simp] theorem State.auditCmd_acting (s : State) (src : Source) (g : Field) (i n res c k : Nat) : (s.auditCmd src g i n res c k).acting = s.acting := by obtain ⟨_, _, _, _, _, e⟩ := State.auditCmd_spec s src g i n res c k; rw [e]
@[simp] theorem State.auditCmd_time (s : State) (src : Source) (g : Field) (i n res c k : Nat) : (s.auditCmd src g i n res c k).time = s.time := by obtain ⟨_, _, _, _, _, e⟩ := State.auditCmd_spec s src g i n res c k; rw [e]
@[simp] theorem State.auditCmd_rx (s : State) (src : Source) (g : Field) (i n res c k : Nat) : (s.auditCmd src g i n res c k).rx = s.rx := by obtain ⟨_, _, _, _, _, e⟩ := State.auditCmd_spec s src g i n res c k; rw [e]
@[simp] theorem State.auditCmd_pkts (s : State) (src : Source) (g : Field) (i n res c k : Nat) : (s.auditCmd src g i n res c k).pkts = s.pkts := by obtain ⟨_, _, _, _, _, e⟩ := State.auditCmd_spec s src g i n res c k; rw [e]
@[simp] theorem State.auditCmd_nextPkt (s : State) (src : Source) (g : Field) (i n res c k : Nat) : (s.auditCmd src g i n res c k).nextPkt = s.nextPkt := by obtain ⟨_, _, _, _, _, e⟩ := State.auditCmd_spec s src g i n res c k; rw [e]
@[simp] theorem State.auditCmd_laneAcc (s : State) (src : Source) (g : Field) (i n res c k : Nat) : (s.auditCmd src g i n res c k).laneAcc = s.laneAcc := by obtain ⟨_, _, _, _, _, e⟩ := State.auditCmd_spec s src g i n res c k; rw [e]
@[simp] theorem State.auditCmd_cls (s : State) (src : Source) (g : Field) (i n res c k : Nat) : (s.auditCmd src g i n res c k).cls = s.cls := by obtain ⟨_, _, _, _, _, e⟩ := State.auditCmd_spec s src g i n res c k; rw [e]
@[simp] theorem State.auditCmd_frag (s : State) (src : Source) (g : Field) (i n res c k : Nat) : (s.auditCmd src g i n res c k).frag = s.frag := by obtain ⟨_, _, _, _, _, e⟩ := State.auditCmd_spec s src g i n res c k; rw [e]
@[simp] theorem State.auditCmd_flow (s : State) (src : Source) (g : Field) (i n res c k : Nat) : (s.auditCmd src g i n res c k).flow = s.flow := by obtain ⟨_, _, _, _, _, e⟩ := State.auditCmd_spec s src g i n res c k; rw [e]
@[simp] theorem State.auditCmd_ep (s : State) (src : Source) (g : Field) (i n res c k : Nat) : (s.auditCmd src g i n res c k).ep = s.ep := by obtain ⟨_, _, _, _, _, e⟩ := State.auditCmd_spec s src g i n res c k; rw [e]
@[simp] theorem State.auditCmd_fcores (s : State) (src : Source) (g : Field) (i n res c k : Nat) : (s.auditCmd src g i n res c k).fcores = s.fcores := by obtain ⟨_, _, _, _, _, e⟩ := State.auditCmd_spec s src g i n res c k; rw [e]
@[simp] theorem State.auditCmd_fsets (s : State) (src : Source) (g : Field) (i n res c k : Nat) : (s.auditCmd src g i n res c k).fsets = s.fsets := by obtain ⟨_, _, _, _, _, e⟩ := State.auditCmd_spec s src g i n res c k; rw [e]
@[simp] theorem State.auditCmd_fhalf (s : State) (src : Source) (g : Field) (i n res c k : Nat) : (s.auditCmd src g i n res c k).fhalf = s.fhalf := by obtain ⟨_, _, _, _, _, e⟩ := State.auditCmd_spec s src g i n res c k; rw [e]
@[simp] theorem State.auditCmd_tree (s : State) (src : Source) (g : Field) (i n res c k : Nat) : (s.auditCmd src g i n res c k).tree = s.tree := by obtain ⟨_, _, _, _, _, e⟩ := State.auditCmd_spec s src g i n res c k; rw [e]
@[simp] theorem State.auditCmd_arr (s : State) (src : Source) (g : Field) (i n res c k : Nat) : (s.auditCmd src g i n res c k).arr = s.arr := by obtain ⟨_, _, _, _, _, e⟩ := State.auditCmd_spec s src g i n res c k; rw [e]
@[simp] theorem State.auditCmd_ctxs (s : State) (src : Source) (g : Field) (i n res c k : Nat) : (s.auditCmd src g i n res c k).ctxs = s.ctxs := by obtain ⟨_, _, _, _, _, e⟩ := State.auditCmd_spec s src g i n res c k; rw [e]
@[simp] theorem State.auditCmd_layout (s : State) (src : Source) (g : Field) (i n res c k : Nat) : (s.auditCmd src g i n res c k).layout = s.layout := by obtain ⟨_, _, _, _, _, e⟩ := State.auditCmd_spec s src g i n res c k; rw [e]
@[simp] theorem State.auditCmd_eg (s : State) (src : Source) (g : Field) (i n res c k : Nat) : (s.auditCmd src g i n res c k).eg = s.eg := by obtain ⟨_, _, _, _, _, e⟩ := State.auditCmd_spec s src g i n res c k; rw [e]
@[simp] theorem State.auditCmd_rxTs (s : State) (src : Source) (g : Field) (i n res c k : Nat) : (s.auditCmd src g i n res c k).rxTs = s.rxTs := by obtain ⟨_, _, _, _, _, e⟩ := State.auditCmd_spec s src g i n res c k; rw [e]
@[simp] theorem State.auditCmd_txTs (s : State) (src : Source) (g : Field) (i n res c k : Nat) : (s.auditCmd src g i n res c k).txTs = s.txTs := by obtain ⟨_, _, _, _, _, e⟩ := State.auditCmd_spec s src g i n res c k; rw [e]
@[simp] theorem State.auditCmd_obs (s : State) (src : Source) (g : Field) (i n res c k : Nat) : (s.auditCmd src g i n res c k).obs = s.obs := by obtain ⟨_, _, _, _, _, e⟩ := State.auditCmd_spec s src g i n res c k; rw [e]
@[simp] theorem State.auditCmd_watches (s : State) (src : Source) (g : Field) (i n res c k : Nat) : (s.auditCmd src g i n res c k).watches = s.watches := by obtain ⟨_, _, _, _, _, e⟩ := State.auditCmd_spec s src g i n res c k; rw [e]
@[simp] theorem State.auditCmd_lanes (s : State) (src : Source) (g : Field) (i n res c k : Nat) : (s.auditCmd src g i n res c k).lanes = s.lanes := by obtain ⟨_, _, _, _, _, e⟩ := State.auditCmd_spec s src g i n res c k; rw [e]
@[simp] theorem State.auditCmd_flocks (s : State) (src : Source) (g : Field) (i n res c k : Nat) : (s.auditCmd src g i n res c k).flocks = s.flocks := by obtain ⟨_, _, _, _, _, e⟩ := State.auditCmd_spec s src g i n res c k; rw [e]
@[simp] theorem State.auditCmd_sec (s : State) (src : Source) (g : Field) (i n res c k : Nat) : (s.auditCmd src g i n res c k).sec = s.sec := by obtain ⟨_, _, _, _, _, e⟩ := State.auditCmd_spec s src g i n res c k; rw [e]
@[simp] theorem State.auditCmd_auth (s : State) (src : Source) (g : Field) (i n res c k : Nat) : (s.auditCmd src g i n res c k).auth = s.auth := by obtain ⟨_, _, _, _, _, e⟩ := State.auditCmd_spec s src g i n res c k; rw [e]
@[simp] theorem State.auditCmd_cal (s : State) (src : Source) (g : Field) (i n res c k : Nat) : (s.auditCmd src g i n res c k).cal = s.cal := by obtain ⟨_, _, _, _, _, e⟩ := State.auditCmd_spec s src g i n res c k; rw [e]
@[simp] theorem State.auditCmd_hl (s : State) (src : Source) (g : Field) (i n res c k : Nat) : (s.auditCmd src g i n res c k).hl = s.hl := by obtain ⟨_, _, _, _, _, e⟩ := State.auditCmd_spec s src g i n res c k; rw [e]
@[simp] theorem State.auditCmd_herd (s : State) (src : Source) (g : Field) (i n res c k : Nat) : (s.auditCmd src g i n res c k).herd = s.herd := by obtain ⟨_, _, _, _, _, e⟩ := State.auditCmd_spec s src g i n res c k; rw [e]
@[simp] theorem State.auditCmd_acts (s : State) (src : Source) (g : Field) (i n res c k : Nat) : (s.auditCmd src g i n res c k).acts = s.acts := by obtain ⟨_, _, _, _, _, e⟩ := State.auditCmd_spec s src g i n res c k; rw [e]
@[simp] theorem State.auditCmd_devSafe (s : State) (src : Source) (g : Field) (i n res c k : Nat) : (s.auditCmd src g i n res c k).devSafe = s.devSafe := by obtain ⟨_, _, _, _, _, e⟩ := State.auditCmd_spec s src g i n res c k; rw [e]
@[simp] theorem State.auditCmd_globals (s : State) (src : Source) (g : Field) (i n res c k : Nat) : (s.auditCmd src g i n res c k).globals = s.globals := by obtain ⟨_, _, _, _, _, e⟩ := State.auditCmd_spec s src g i n res c k; rw [e]
@[simp] theorem State.auditCmd_free (s : State) (src : Source) (g : Field) (i n res c k : Nat) : (s.auditCmd src g i n res c k).free = s.free := by obtain ⟨_, _, _, _, _, e⟩ := State.auditCmd_spec s src g i n res c k; rw [e]

/-! wrote -/

@[simp] theorem State.wrote_pending (s : State) (src : Source) : (s.wrote src).pending = s.pending := by obtain ⟨_, _, e⟩ := State.wrote_spec s src; rw [e]
@[simp] theorem State.wrote_acting (s : State) (src : Source) : (s.wrote src).acting = s.acting := by obtain ⟨_, _, e⟩ := State.wrote_spec s src; rw [e]
@[simp] theorem State.wrote_time (s : State) (src : Source) : (s.wrote src).time = s.time := by obtain ⟨_, _, e⟩ := State.wrote_spec s src; rw [e]
@[simp] theorem State.wrote_rx (s : State) (src : Source) : (s.wrote src).rx = s.rx := by obtain ⟨_, _, e⟩ := State.wrote_spec s src; rw [e]
@[simp] theorem State.wrote_pkts (s : State) (src : Source) : (s.wrote src).pkts = s.pkts := by obtain ⟨_, _, e⟩ := State.wrote_spec s src; rw [e]
@[simp] theorem State.wrote_nextPkt (s : State) (src : Source) : (s.wrote src).nextPkt = s.nextPkt := by obtain ⟨_, _, e⟩ := State.wrote_spec s src; rw [e]
@[simp] theorem State.wrote_laneAcc (s : State) (src : Source) : (s.wrote src).laneAcc = s.laneAcc := by obtain ⟨_, _, e⟩ := State.wrote_spec s src; rw [e]
@[simp] theorem State.wrote_cls (s : State) (src : Source) : (s.wrote src).cls = s.cls := by obtain ⟨_, _, e⟩ := State.wrote_spec s src; rw [e]
@[simp] theorem State.wrote_frag (s : State) (src : Source) : (s.wrote src).frag = s.frag := by obtain ⟨_, _, e⟩ := State.wrote_spec s src; rw [e]
@[simp] theorem State.wrote_flow (s : State) (src : Source) : (s.wrote src).flow = s.flow := by obtain ⟨_, _, e⟩ := State.wrote_spec s src; rw [e]
@[simp] theorem State.wrote_ep (s : State) (src : Source) : (s.wrote src).ep = s.ep := by obtain ⟨_, _, e⟩ := State.wrote_spec s src; rw [e]
@[simp] theorem State.wrote_fcores (s : State) (src : Source) : (s.wrote src).fcores = s.fcores := by obtain ⟨_, _, e⟩ := State.wrote_spec s src; rw [e]
@[simp] theorem State.wrote_fsets (s : State) (src : Source) : (s.wrote src).fsets = s.fsets := by obtain ⟨_, _, e⟩ := State.wrote_spec s src; rw [e]
@[simp] theorem State.wrote_fhalf (s : State) (src : Source) : (s.wrote src).fhalf = s.fhalf := by obtain ⟨_, _, e⟩ := State.wrote_spec s src; rw [e]
@[simp] theorem State.wrote_tree (s : State) (src : Source) : (s.wrote src).tree = s.tree := by obtain ⟨_, _, e⟩ := State.wrote_spec s src; rw [e]
@[simp] theorem State.wrote_arr (s : State) (src : Source) : (s.wrote src).arr = s.arr := by obtain ⟨_, _, e⟩ := State.wrote_spec s src; rw [e]
@[simp] theorem State.wrote_ctxs (s : State) (src : Source) : (s.wrote src).ctxs = s.ctxs := by obtain ⟨_, _, e⟩ := State.wrote_spec s src; rw [e]
@[simp] theorem State.wrote_layout (s : State) (src : Source) : (s.wrote src).layout = s.layout := by obtain ⟨_, _, e⟩ := State.wrote_spec s src; rw [e]
@[simp] theorem State.wrote_eg (s : State) (src : Source) : (s.wrote src).eg = s.eg := by obtain ⟨_, _, e⟩ := State.wrote_spec s src; rw [e]
@[simp] theorem State.wrote_rxTs (s : State) (src : Source) : (s.wrote src).rxTs = s.rxTs := by obtain ⟨_, _, e⟩ := State.wrote_spec s src; rw [e]
@[simp] theorem State.wrote_txTs (s : State) (src : Source) : (s.wrote src).txTs = s.txTs := by obtain ⟨_, _, e⟩ := State.wrote_spec s src; rw [e]
@[simp] theorem State.wrote_hq (s : State) (src : Source) : (s.wrote src).hq = s.hq := by obtain ⟨_, _, e⟩ := State.wrote_spec s src; rw [e]
@[simp] theorem State.wrote_obs (s : State) (src : Source) : (s.wrote src).obs = s.obs := by obtain ⟨_, _, e⟩ := State.wrote_spec s src; rw [e]
@[simp] theorem State.wrote_watches (s : State) (src : Source) : (s.wrote src).watches = s.watches := by obtain ⟨_, _, e⟩ := State.wrote_spec s src; rw [e]
@[simp] theorem State.wrote_host (s : State) (src : Source) : (s.wrote src).host = s.host := by obtain ⟨_, _, e⟩ := State.wrote_spec s src; rw [e]
@[simp] theorem State.wrote_hbm (s : State) (src : Source) : (s.wrote src).hbm = s.hbm := by obtain ⟨_, _, e⟩ := State.wrote_spec s src; rw [e]
@[simp] theorem State.wrote_lanes (s : State) (src : Source) : (s.wrote src).lanes = s.lanes := by obtain ⟨_, _, e⟩ := State.wrote_spec s src; rw [e]
@[simp] theorem State.wrote_flocks (s : State) (src : Source) : (s.wrote src).flocks = s.flocks := by obtain ⟨_, _, e⟩ := State.wrote_spec s src; rw [e]
@[simp] theorem State.wrote_flt (s : State) (src : Source) : (s.wrote src).flt = s.flt := by obtain ⟨_, _, e⟩ := State.wrote_spec s src; rw [e]
@[simp] theorem State.wrote_cal (s : State) (src : Source) : (s.wrote src).cal = s.cal := by obtain ⟨_, _, e⟩ := State.wrote_spec s src; rw [e]
@[simp] theorem State.wrote_hl (s : State) (src : Source) : (s.wrote src).hl = s.hl := by obtain ⟨_, _, e⟩ := State.wrote_spec s src; rw [e]
@[simp] theorem State.wrote_herd (s : State) (src : Source) : (s.wrote src).herd = s.herd := by obtain ⟨_, _, e⟩ := State.wrote_spec s src; rw [e]
@[simp] theorem State.wrote_acts (s : State) (src : Source) : (s.wrote src).acts = s.acts := by obtain ⟨_, _, e⟩ := State.wrote_spec s src; rw [e]
@[simp] theorem State.wrote_devSafe (s : State) (src : Source) : (s.wrote src).devSafe = s.devSafe := by obtain ⟨_, _, e⟩ := State.wrote_spec s src; rw [e]
@[simp] theorem State.wrote_globals (s : State) (src : Source) : (s.wrote src).globals = s.globals := by obtain ⟨_, _, e⟩ := State.wrote_spec s src; rw [e]
@[simp] theorem State.wrote_free (s : State) (src : Source) : (s.wrote src).free = s.free := by obtain ⟨_, _, e⟩ := State.wrote_spec s src; rw [e]

end Sys2Proof.Machine
end

