-- ==== Sys2Proof/Laws/Reports.lean ====
section
/-! SUPPORT. Which registers the reporting operations can touch: an event, a fault record, an audit record and a host-bound item leave every field
alone whose key is not one of `reportKey`. -/

namespace Sys2Proof.Machine

open Sys2Proof

theorem pageBase_mod (b i : Nat) : pageBase b i % 4096 = 0 := by
  unfold pageBase
  split <;> omega

theorem State.find_wr_ne (s : State) (f : Field) (v i j k n : Nat) (h : n ≠ f.key i j k) : (s.wr f v i j k).regs.find? n = s.regs.find? n :=
  Tbl.find?_setD_ne s.regs _ _ h

theorem reportKey_common (f : Field) (b i : Nat) (ho : f.off ∈ [0x18, 0x24, 0x28]) (hl : f.lo < 64) (hs : f.stride = 0) (hb : f.bstride = 0) :
    reportKey ((f.on b).key i 0 0) = true := by
  have h := pageBase_mod b i
  simp only [reportKey, Field.key, Field.on, hs, hb, Nat.zero_mul, Nat.add_zero, Bool.or_eq_true, decide_eq_true_eq]
  left; left; left
  have e : ((pageBase b i + f.off) * 64 + f.lo) * 65536 / 4194304 % 4096 = f.off := by
    simp only [List.mem_cons, List.not_mem_nil, or_false] at ho
    omega
  rw [e]; exact ho

theorem reportKey_hq (f : Field) (q : Nat) (hq : q < 8) (hf : f.block = Blk.HQ) (ho : f.off < 2048) (hl : f.lo < 64) (hs : f.stride ≤ 128) (hb : f.bstride = 0) :
    reportKey (f.key 0 q 0) = true := by
  have h1 : f.stride * q ≤ 1024 := le_trans (Nat.mul_le_mul hs (Nat.le_of_lt hq)) (by decide)
  simp only [reportKey, Field.key, hf, hb, Nat.zero_mul, Nat.add_zero, Bool.or_eq_true, decide_eq_true_eq, pageBase]
  left; left; right
  omega

/-! ### Operations -/

theorem State.wrEvent_find (s : State) (b i v k : Nat) (h : reportKey k = false) : (s.wrEvent b i v).regs.find? k = s.regs.find? k := by
  unfold State.wrEvent
  rw [State.find_wr_ne, State.find_wr_ne, State.find_wr_ne]
  all_goals
    rintro rfl
    rw [reportKey_common _ b i (by decide) (by decide) (by decide) (by decide)] at h
    exact absurd h (by decide)

theorem State.events_find (s : State) (b i m k : Nat) (h : reportKey k = false) : (s.events b i m).regs.find? k = s.regs.find? k := by
  unfold State.events
  rw [State.evtEdge_regs, State.wrEvent_find s b i _ k h]

theorem State.event_find (s : State) (b i n k : Nat) (h : reportKey k = false) : (s.event b i n).regs.find? k = s.regs.find? k := by
  unfold State.event
  exact State.events_find s b i _ k h

theorem State.faultRegs_find (s : State) (r : FaultRec) (k : Nat) (h : reportKey k = false) : (s.faultRegs r).regs.find? k = s.regs.find? k := by
  unfold State.faultRegs
  dsimp only
  rw [State.find_wr_ne, State.find_wr_ne, State.find_wr_ne, State.find_wr_ne, State.find_wr_ne, State.find_wr_ne]
  all_goals
    rintro rfl
    rw [reportKey_common _ _ _ (by decide) (by decide) (by decide) (by decide)] at h
    exact absurd h (by decide)

theorem State.hqLose_find (s : State) (q k : Nat) (hq : q < 8) (h : reportKey k = false) : (s.hqLose q).regs.find? k = s.regs.find? k := by
  have e : (s.hqLose q).regs = ((s.wr Reg.HQ.CONS (Nat.max (s.rd Reg.HQ.CONS 0 q) (s.consSeen q + 1)) 0 q).bump Reg.HQ.LOST 0 q).regs := rfl
  rw [e, State.bump, State.find_wr_ne, State.find_wr_ne]
  all_goals
    rintro rfl
    rw [reportKey_hq _ q hq rfl (by decide) (by decide) (by decide) rfl] at h
    exact absurd h (by decide)

theorem State.hqPlace_find (s : State) (q k : Nat) (bs : List Byte) (hq : q < 8) (h : reportKey k = false) :
    (s.hqPlace q bs).regs.find? k = s.regs.find? k := by
  unfold State.hqPlace
  dsimp only
  rw [State.find_wr_ne, State.locWrite_regs, State.locWrite_regs]
  rintro rfl
  rw [reportKey_hq _ q hq rfl (by decide) (by decide) (by decide) rfl] at h
  exact absurd h (by decide)

theorem State.hqProduce_find (s : State) (q k : Nat) (bs : List Byte) (hq : q < 8) (h : reportKey k = false) :
    (s.hqProduce q bs).regs.find? k = s.regs.find? k := by
  have hk (f : Field) (hf : f.block = Blk.HQ) (ho : f.off < 2048) (hl : f.lo < 64) (hs : f.stride ≤ 128) (hb : f.bstride = 0) : k ≠ f.key 0 q 0 := by
    rintro rfl
    rw [reportKey_hq f q hq hf ho hl hs hb] at h
    exact absurd h (by decide)
  unfold State.hqProduce
  split
  · rfl
  split
  · rw [State.hqLose_find _ q k hq h]
    exact State.find_wr_ne s _ _ _ _ _ _ (hk _ rfl (by decide) (by decide) (by decide) rfl)
  dsimp only
  split
  · split
    · exact State.find_wr_ne s _ _ _ _ _ _ (hk _ rfl (by decide) (by decide) (by decide) rfl)
    · rw [State.hqPlace_find _ q k bs hq h, State.hqLose_find s q k hq h]
  · split
    · rw [State.hqIrq_regs, State.hqPlace_find s q k bs hq h]
    · exact State.hqPlace_find s q k bs hq h

theorem State.faultEnd_find (u : State) (c : Prop) [Decidable c] (k : Nat) (hk : k ≠ Reg.LEDG.ALERT_PEND.key 0 0 0) :
    (if c then { u with flt := { u.flt with seq := u.flt.seq + 1 } }.wr Reg.LEDG.ALERT_PEND 1 else { u with flt := { u.flt with seq := u.flt.seq + 1 } }).regs.find? k
      = u.regs.find? k := by
  split
  · exact State.find_wr_ne _ _ _ _ _ _ _ hk
  · rfl

/-- A fault record leaves every register alone that is none of `reportKey`. -/
theorem State.fault_find (s : State) (r : FaultRec) (k : Nat) (h : reportKey k = false) : (s.fault r).regs.find? k = s.regs.find? k := by
  have e : (((s.faultRegs r).event r.block r.inst 31).hqProduce 6 (r.bytes s.flt.seq s.time.beat)).regs.find? k = s.regs.find? k := by
    rw [State.hqProduce_find _ 6 k _ (by decide) h, State.event_find _ _ _ _ _ h, State.faultRegs_find _ _ _ h]
  have hk : k ≠ Reg.LEDG.ALERT_PEND.key 0 0 0 := by
    rintro rfl
    exact absurd h (by decide)
  exact (State.faultEnd_find _ (r.sev = 2) k hk).trans e

/-- An audit record leaves every register alone that is none of `reportKey`. -/
theorem State.audit_find (s : State) (r : AuditRec) (k : Nat) (h : reportKey k = false) : (s.audit r).regs.find? k = s.regs.find? k := by
  unfold State.audit
  split
  · unfold State.bump
    rw [State.find_wr_ne]
    rintro rfl
    exact absurd h (by decide)
  · exact State.hqProduce_find s 7 k _ (by decide) h

theorem State.auditCmd_find (s : State) (src : Source) (f : Field) (i n res c q k : Nat) (h : reportKey k = false) :
    (s.auditCmd src f i n res c q).regs.find? k = s.regs.find? k := State.audit_find s _ k h

/-- A register write leaves every register but SEQ_RESULT alone. -/
theorem State.wrote_find (s : State) (src : Source) (k : Nat) (h : k ≠ Reg.DEV.SEQ_RESULT.key 0 0 0) : (s.wrote src).regs.find? k = s.regs.find? k := by
  unfold State.wrote
  dsimp only
  split
  · split
    · rw [State.drawChal_regs]
      exact State.find_wr_ne _ _ _ _ _ _ _ h
    · rfl
  · rfl

/-! ### Reads -/

theorem State.bump_counts (s : State) (f : Field) (i j k : Nat) : s.Counts (s.bump f i j k) f i j k := by
  unfold State.Counts countUp
  rw [State.rd_bump_self]
  split
  · rename_i h; rw [h]
  · exact Nat.mod_eq_of_lt (lt_of_le_of_lt (Nat.min_le_right _ _) (Nat.sub_lt (Nat.two_pow_pos _) (by decide)))

theorem State.rd_event (s : State) (b i n : Nat) (g : Field) (x y z : Nat) (h : reportKey (g.key x y z) = false) : (s.event b i n).rd g x y z = s.rd g x y z := by
  unfold State.rd; rw [State.event_find s b i n _ h]

theorem State.rd_fault (s : State) (r : FaultRec) (g : Field) (x y z : Nat) (h : reportKey (g.key x y z) = false) : (s.fault r).rd g x y z = s.rd g x y z := by
  unfold State.rd; rw [State.fault_find s r _ h]

theorem State.rd_auditCmd (s : State) (src : Source) (f : Field) (i n res c q : Nat) (g : Field) (x y z : Nat) (h : reportKey (g.key x y z) = false) :
    (s.auditCmd src f i n res c q).rd g x y z = s.rd g x y z := by
  unfold State.rd; rw [State.auditCmd_find s src f i n res c q _ h]

theorem State.rd_wrote (s : State) (src : Source) (g : Field) (x y z : Nat) (h : g.key x y z ≠ Reg.DEV.SEQ_RESULT.key 0 0 0) : (s.wrote src).rd g x y z = s.rd g x y z := by
  unfold State.rd; rw [State.wrote_find s src _ h]

end Sys2Proof.Machine
end

