-- ==== Sys2Proof/WellFormed.lean ====
section
/-! DEFINITION. Which commands are well formed: operands the types of Syntax.lean leave wider than the manual does. A command that is
not well formed is no command of the hardware; the meanings are total on it all the same. -/

namespace Sys2Proof

/-- One check of one command, by name; every check that a command needs must hold. -/
inductive WfCheck where
  /-- A priority pause frame carries one quanta word for each of the 8 priorities (R259). -/
  | pauseQuanta
  /-- An accepted frame holds at least one byte and no more than the 16,383 bytes the frame length field counts (R91, R272). -/
  | frameBytes
  /-- A flow result carries eight RES_X words (R103). -/
  | resWords
  /-- A VTABLE block carries the versions of 128 contexts (R232). -/
  | vtableVersions
  /-- A READY message carries a 32-byte digest (R232, R239). -/
  | readyDigest
  /-- A flit has 256 bytes (R231). -/
  | flitBytes
  /-- RED, HADD and HREP carry at most the words one message holds: eight RES_X words for HADD and HREP (R244). -/
  | homeWords
  /-- A debug token has 40 words and its public key 24 (R350, R353). -/
  | tokenWords
  /-- A nonce of SPDM CHALLENGE or MEASUREMENTS has 32 bytes. -/
  | nonceBytes
  /-- A fragment-table or cache bucket has four ways, so a parity failure names ways 0 to 3 (R46, R77). -/
  | ways
  /-- A host-bound item fits its queue's slot (R266). -/
  | itemFits
  /-- A reference clock failure, an environmental monitor or a rail names a unit the package has (R391, R394, R398). -/
  | monitorNumber
  deriving DecidableEq, Repr

/-- Slot bytes of a host-bound queue (R266). -/
def slotBytes : Nat → Nat
  | 0 => 9280
  | 1 => 9280
  | 2 => 32
  | 4 => 64
  | 7 => 64
  | _ => 128

/-- The checks a command fails. -/
def Instr.failing : Instr → List WfCheck
  | .frameStart _ d _ => if 0 < d.length ∧ d.length ≤ 16383 then [] else [.frameBytes]
  | .pauseFrame _ _ q => if q.length = 8 then [] else [.pauseQuanta]
  | .flowLookup _ c f => if c.all (· < 8) && f.all (· < 4) then [] else [.ways]
  | .verdictApply _ f => if f.all (· < 4) then [] else [.ways]
  | .flowInvocationEnd _ (some v) => if v.resx.length = 8 then [] else [.resWords]
  | .vtable _ _ _ v _ => if v.length = 128 then [] else [.vtableVersions]
  | .ready _ _ d => if d.length = 32 then [] else [.readyDigest]
  | .flitReceive _ f => if f.bytes.length = 256 then [] else [.flitBytes]
  | .hadd _ _ _ _ v => if v.length = 8 then [] else [.homeWords]
  | .hrep _ _ _ v _ => if v.length = 8 then [] else [.homeWords]
  | .jtagMailbox t p => if t.length = 40 ∧ p.length = 24 then [] else [.tokenWords]
  | .challenge _ n => if n.length = 32 then [] else [.nonceBytes]
  | .measurements _ _ n => if n.length = 32 then [] else [.nonceBytes]
  | .hqProduce it => if it.bytes.length ≤ slotBytes it.q.val then [] else [.itemFits]
  | .envCritical m => if m < 32 then [] else [.monitorNumber]
  | .railExcursion r => if r < 32 then [] else [.monitorNumber]
  | _ => []

/-- A command is well formed when it fails no check. -/
def Instr.wf (i : Instr) : Bool := i.failing.isEmpty

end Sys2Proof
end

