-- ==== Sys2Proof/Tests/Slice0.lean ====
section
/-! SUPPORT. Tests: ill-formed commands the checks refuse, worked examples of the manual, and for every statement with hypotheses a state and operands that meet them. -/

namespace Sys2Proof.Tests

open Sys2Proof Sys2Proof.Machine

/-! ### States -/

/-- Stage READY: the register pages are open. -/
def ready : State := { State.reset with sec := { State.reset.sec with pwrGood := true } }.wr Reg.DEV.STAGE 4
/-- Stage RUN, at beat 100. -/
def running : State := { ready.wr Reg.DEV.STAGE 5 with time := { started := true, beat := 100 } }
/-- Stage RUN with a token that grants EXPERT, unlocked. -/
def expert : State := { running with auth := { token := some { perms := 4, expiry := 200 }, unlocked := true } }
/-- Both ports of group 0 have their link up. -/
def linked : State := ((running.wrNow Reg.PORT.SPEED 2).wr Reg.PORT.LINK_S0 1).wr Reg.PORT.LINK_S1 1
/-- A resident packet of lane 0, captured in beat 99. -/
def pkt : Pkt := { i := { t := 99 * 512, b := 100, frame := zeros 64, parse := {} } }
/-- It is resident. -/
def holding (x : Pkt) : State := { running with pkts := [(0, some x)], nextPkt := 1 }
/-- The state after a command. -/
def after (s : State) (k : State → Host.Outcome State Fault Refusal) : State := nextOf s k

/-! ### Hypotheses met -/

theorem witness_BeatCommands :
    (running.Runs ∧ running.sec.reqReset ≠ some true ∧ running.time.islBeat.get (Island.num (.lane 15)) < running.time.beat ∧ running.time.beat ≠ 0 ∧
      (running.flocks.get 255).withdrawn = false ∧ (running.flocks.get 255).ovf ≠ running.time.beat) ∧
    (∃ s : State, s.Runs ∧ s.time.beat = 100 ∧ (∃ x, s.pkts.find? 0 = some (some x) ∧ x.vd.gone = false ∧ x.vd.released = false ∧ x.i.lane = 0 ∧ x.i.b = s.time.beat)) ∧
    (∃ s : State, 4 ≤ s.time.misses.get 15 ∧ 2 ≤ s.time.misses.get 24 ∧ 4 ≤ s.time.misses.get (32 + 255) ∧ s.time.missAt.get 15 < s.time.beat ∧
      s.time.missAt.get 24 < s.time.beat ∧ s.time.missAt.get 287 < s.time.beat) ∧
    (ready.Takes .sideband true ∧ ready.rd Reg.DEV.STAGE = 4 ∧ ready.sec.warm = false) :=
  ⟨by decide, ⟨holding pkt, by decide, by decide, pkt, by decide⟩, ⟨{ running with time := { beat := 100, misses := [(15, 4), (24, 2), (287, 4)], missAt := [(15, 99)] } }, by decide⟩, by decide⟩

theorem witness_ReceptionCommands :
    (linked.Runs ∧ linked.portExists 0 = true ∧ linked.linkUp 0 = true ∧ linked.rx.get 0 = none ∧ (∀ l ∈ linked.lanesOf 0, (linked.lanes.get l).resetting = false) ∧
      73 ≤ linked.freeCells) ∧
    (∃ s : State, s.Runs ∧ s.portExists 0 = true ∧ s.linkUp 0 = true ∧ s.rx.get 0 = none ∧ (∀ l ∈ s.lanesOf 0, (s.lanes.get l).resetting = false) ∧ s.freeCells = 72) ∧
    (∃ (s : State) (r : RxFrame), s.Runs ∧ s.rx.get 0 = some r ∧ r.dropped = false ∧ r.pkt = none ∧ r.data.length = 64 ∧ s.portOpen 0 = true ∧ s.speedOf 0 ≠ 3 ∧
      s.laneAcc.get 0 ≠ s.time.cycle + 1 ∧ (s.lanes.get 0).resetting = false ∧ r.ended = false ∧
      (s.isTap 0 = true → tapValid r.data = true → 80 ≤ r.data.length) ∧ s.yields 0 r = false) ∧
    (∃ (s : State) (r : RxFrame), s.rx.get 0 = some r ∧ r.dropped = false ∧ r.pkt = none ∧ 64 ≤ r.data.length ∧ s.portOpen 0 = true) ∧
    (∃ (s : State) (r : RxFrame), s.rx.get 0 = some r ∧ r.dropped = true) ∧
    (∃ (s : State) (r : RxFrame), s.rx.get 0 = some r ∧ r.dropped = false ∧ r.pkt = none ∧ r.data.length = 63) ∧
    ((holding pkt).pkt? 0 = some pkt ∧ pkt.vd.fcs = none ∧ pkt.lk.looked = false) ∧
    (linked.portExists 0 = true ∧ linked.rd Reg.DEV.STAGE = 5) ∧
    (ready.Takes .bar0 ∧ (2#32).toNat % 8 ≤ 2 ∧ ready.rd Reg.PORT.SPEED 15 ≤ 2) :=
  ⟨by decide, ⟨linked.wr Reg.HOLD.ALLOC (524288 - 72), by decide⟩,
   ⟨{ linked.wrNow Reg.PORT.MODE_S0 1 with rx := [(0, some { data := zeros 64 })] }, { data := zeros 64 }, by decide⟩,
   ⟨{ linked.wrNow Reg.PORT.MODE_S0 1 with rx := [(0, some { data := zeros 64 })] }, { data := zeros 64 }, by decide⟩,
   ⟨{ running with rx := [(0, some { dropped := true })] }, { dropped := true }, by decide⟩,
   ⟨{ running with rx := [(0, some { data := zeros 63 })] }, { data := zeros 63 }, by decide⟩, by decide, by decide, by decide⟩

/-- A frame waiting in queue 7 of port 0. -/
def queued : State := { linked.wrNow Reg.SHAPE.SP 1 0 0 7 with eg := { q := [(7, { frames := [{ size := 64, bytes := zeros 60 }] })] } }

theorem witness_PauseAndShaperCommands :
    (linked.Runs ∧ linked.portExists 0 = true ∧ linked.linkUp 0 = true ∧ bits (linked.act Reg.SHAPE.PAUSE_IGNORE) 0 1 = 0) ∧
    (∃ s : State, s.act Reg.SHAPE.Q_RATE 0 0 255 ≠ 0 ∧ s.act Reg.SHAPE.Q_RATE 0 0 0 = 0) ∧
    ((linked.eg.tx.get 0).cur = none ∧ ∀ q < 8, (linked.eg.q.get (0 * 8 + q)).frames = []) ∧
    (∃ fr : EgFrame, (queued.eg.tx.get 0).cur = none ∧ queued.portExists 0 = true ∧ queued.linkUp 0 = true ∧ queued.spPick 0 = some 7 ∧ (queued.eg.q.get (0 * 8 + 7)).frames = [fr] ∧
      fr.kind ≠ 3) ∧
    (∃ (s : State) (fr : EgFrame), (s.eg.tx.get 31).cur = some fr ∧ (s.eg.tx.get 31).stomp = false ∧ fr.pkt = none) :=
  ⟨by decide, ⟨running.wrNow Reg.SHAPE.Q_RATE 7 0 0 255, by decide⟩, by decide, ⟨{ size := 64, bytes := zeros 60 }, by decide⟩,
   ⟨{ running with eg := { tx := [(31, { cur := some {} })] } }, {}, by decide⟩⟩

theorem witness_ClassifierCommands :
    ((holding pkt).pkt? 0 = some pkt ∧ pkt.lk.searched = false ∧ (holding pkt).looksUp pkt = true ∧ pkt.i.b ≤ (holding pkt).time.beat ∧ (holding pkt).cls.tcam = [] ∧
      pkt.i.parse.l3Type = 0 ∧ pkt.i.lane < 16) ∧
    (∃ s : State, (s.entry 7 47 1023).disabled = false ∧ s.time.beat = s.scrubDue 47 1023) ∧ running.time.beat ≠ running.scrubDue 47 1023 ∧
    (∃ s : State, (s.frag.get (4 * 16383 + 3)).live = true ∧ s.herd.cut = false ∧ (s.frag.get (4 * 16383 + 3)).b + 69 = s.time.beat) ∧
    (running.time.beat < (({ running with frag := [(0, { live := true, b := 32 })] } : State).frag.get 0).b + 69) ∧
    expert.TakesExpert .bar0 :=
  ⟨by decide, ⟨{ running with cls := { running.cls with scrub := 256 }, time := { beat := 255 } }, by decide⟩, by decide, ⟨{ running with frag := [(65535, { live := true, b := 31 })] }, by decide⟩, by decide, by decide⟩

/-- Searched, with a flow key wanted, and not yet looked up. -/
def keyedPkt : Pkt := { pkt with i := { pkt.i with parse := { l3Type := 1 } }, lk := { searched := true, act := 1 <<< 48 } }

theorem witness_FlowLookupCommands :
    ((holding keyedPkt).pkt? 0 = some keyedPkt ∧ keyedPkt.lk.searched = true ∧ keyedPkt.lk.looked = false ∧ keyedPkt.vd.fcs = none) ∧
    (∃ x : Pkt, (holding x).pkt? 0 = some x ∧ x.lk.searched = true ∧ x.lk.looked = false ∧ x.keyed = true ∧ x.vd.fcs = none) ∧
    (∃ x : Pkt, (holding x).pkt? 0 = some x ∧ x.lk.searched = true ∧ x.lk.looked = false ∧ x.keyed = false ∧ x.vd.fcs = none) ∧
    (∃ (s : State) (e : CacheEnt), s.flow.victims[0]? = some e ∧ s.herd.cut = false) ∧
    running.act Reg.FLOW.IDLE_EPOCHS = 0 :=
  ⟨by decide, ⟨keyedPkt, by decide⟩, ⟨{ pkt with lk := { searched := true } }, by decide⟩, ⟨{ running with flow := { victims := [{ live := true }] } }, { live := true }, by decide⟩,
   by decide⟩

/-- A packet whose source address is the individual address 2. -/
def macPkt : Pkt := { pkt with i := { pkt.i with frame := zeros 11 ++ [2] ++ zeros 52 } }
/-- A packet from a group address. -/
def groupPkt : Pkt := { pkt with i := { pkt.i with frame := zeros 6 ++ [1] ++ zeros 57 } }

theorem witness_EndpointCommands :
    ((holding macPkt).pkt? 0 = some macPkt ∧ macPkt.lk.epDone = false ∧ (holding macPkt).looksUp macPkt = true ∧ macPkt.vd.voidPkt = false ∧
      macPkt.i.b ≤ (holding macPkt).time.beat ∧ bits (beNat (winBytes macPkt.i.window 6 6).1) 40 1 = 0 ∧
      (holding macPkt).epFind (beNat (winBytes macPkt.i.window 6 6).1) macPkt.vlanId = none ∧ (holding macPkt).act Reg.LEARN.LEARN_OFF = 0) ∧
    (∃ w, (epWays (beNat (winBytes macPkt.i.window 6 6).1) macPkt.vlanId).find? (fun w => !((holding macPkt).ep.get w).live) = some w) ∧
    (∃ (s : State) (w : Nat), s.epFind (beNat (winBytes macPkt.i.window 6 6).1) macPkt.vlanId = some w ∧ (s.ep.get w).loc = macPkt.loc) ∧
    (bits (beNat (winBytes groupPkt.i.window 6 6).1) 40 1 = 1 ∧ (holding groupPkt).looksUp groupPkt = true) ∧
    running.act Reg.LEARN.AGE_EPOCHS = 0 ∧ running.Takes .bar0 ∧ running.time.beat % 65536 ≠ 0 ∧
    (∃ s : State, s.act Reg.LEARN.AGE_EPOCHS = 0 ∧ s.time.beat % 65536 = 0 ∧ s.time.aged ≠ s.time.beat / 65536 + 1) ∧
    (∃ s : State, s.time.beat % 65536 = 0 ∧ s.time.aged = s.time.beat / 65536 + 1) :=
  ⟨by decide +kernel, ⟨(epWays 2 0).headD 0, by decide +kernel⟩,
   ⟨{ holding macPkt with ep := [((epWays 2 0).headD 0, { live := true, mac := 2 })] }, (epWays 2 0).headD 0, by decide +kernel⟩, by decide +kernel, by decide, by decide, by decide,
   ⟨{ running with time := { beat := 65536 } }, by decide⟩, ⟨{ running with time := { beat := 65536, aged := 2 } }, by decide⟩⟩

theorem witness_FlowUpdateCommands :
    (∃ (s : State) (x : Pkt) (e : CacheEnt), s.pkts = [(0, some x)] ∧ x.i.b = s.time.beat ∧ 0 < s.time.beat ∧ x.lk.key ≠ [] ∧ x.lk.updated = false ∧ x.vd.voidPkt = false ∧
      s.flow.cmd = none ∧ s.flow.results = [] ∧ 256 ≤ s.time.cycle ∧ s.flow.upd.find? (fun u => decide (u.key = x.lk.key)) = none ∧ s.cached x.lk.key = some e ∧ e.fresh = false ∧
      Rule.hist x.lk.act = false ∧ Rule.enF x.lk.act = false) ∧
    (running.pkts = [] ∧ running.flow.cmd = none ∧ running.flow.results = [] ∧ running.time.cycle < 256) ∧
    (∃ s : State, s.herd.stopped = false ∧ 256 ≤ s.time.cycle) ∧
    ({ running with herd := { running.herd with stopped := true } } : State).herd.stopped = true ∧
    (∃ (s : State) (i : Inv), s.flow.invs.find? (fun i => decide (i.id = 3)) = some i ∧ i.lost = false ∧ s.invRuns i = true ∧
      s.herd.homePend.any (fun e => e.2 == i.id) = false) ∧
    (∃ (s : State) (i : Inv), s.flow.invs.find? (fun i => decide (i.id = 3)) = some i ∧ s.invRuns i = false) :=
  ⟨⟨{ holding { pkt with lk := { key := [1] } } with time := { started := true, beat := 100, cycle := 256 }, flow := { victims := [{ live := true, key := [1] }] } }, { pkt with lk := { key := [1] } }, { live := true, key := [1] },
      by decide +kernel⟩,
   by decide, ⟨{ running with time := { cycle := 511 } }, by decide⟩, by decide, ⟨{ running with flow := { invs := [{ id := 3 }] } }, { id := 3 }, by decide⟩,
   ⟨{ running with flow := { invs := [{ id := 3, mv := 1 }] }, ctxs := [(0, { st := .active, v0 := some { ver := 1, kind := 2, flocks := [0], sects := [{ type := 4, flags := 0, flock := 0, unit := 0, off := 0, len := 0, dest := 0 }] } })] }, { id := 3, mv := 1 }, by decide⟩⟩

theorem witness_FlowPageCommands :
    (running.Takes .bar0 ∧ running.flow.cmd = none) ∧
    (∃ s : State, s.Takes .bar0 ∧ s.herd.cut = true) ∧ (∃ s : State, s.Takes .bar0 ∧ s.flow.cmd.isSome = true) ∧
    (udBad ((6#64).toNat % 2 ^ 32) ((6#64).toNat / 2 ^ 32) = true ∧ udBad ((45#64).toNat % 2 ^ 32) ((45#64).toNat / 2 ^ 32) = false) :=
  ⟨by decide, ⟨{ running with herd := { running.herd with cut := true } }, by decide⟩, ⟨{ running with flow := { cmd := some (1, []) } }, by decide⟩, by decide⟩

/-- A version of a tree ensemble, with a gather list on flock 0. -/
def treeV : Version :=
  { ver := 1, kind := 1, sects := [{ type := 5, flags := 0, flock := 0, unit := 0, off := 0, len := 0, dest := 0 }], flocks := [0], gatherOn := true }
/-- Context 0 runs it. -/
def oneTree : State := { running with ctxs := [(0, { st := .active, v0 := some treeV })] }
/-- A searched packet stamped with that version, whose feature beat is in progress. -/
def aPkt : Pkt := { i := { t := 98 * 512, b := 99, frame := zeros 64 }, lk := { searched := true, act := 1 <<< 20 }, ft := { mvA := 1 } }
/-- It has run its feature program. -/
def ranPkt : Pkt := { aPkt with ft := { aPkt.ft with ran := true } }

/-- It has been handed over in beat 99 of its b = 98. -/
def crossPkt : Pkt := { ranPkt with i := { ranPkt.i with b := 98 }, ft := { ranPkt.ft with vec := some [], handed := true } }

theorem witness_FeaturePrograms :
    (∃ s : State, s.pkt? 0 = some aPkt ∧ aPkt.ft.ran = false ∧ s.runsProgram aPkt = true ∧ s.time.beat = aPkt.i.b + 1 ∧ (s.lanes.get aPkt.i.lane).pass = false ∧
      (s.fcores.get aPkt.fcore).reload = false) ∧
    ((running.fcore { lane := 0, core := 0 }).reload = false ∧
      (∃ s : State, (s.fcore { lane := 0, core := 0 }).reload = true ∧ ∃ n, n / 16 ≠ b2n s.fhalf ∧ s.reloadSets.find? n = none)) ∧
    ((holding ranPkt).pkt? 0 = some ranPkt ∧ ranPkt.ft.ran = true ∧ ranPkt.ft.vec = none ∧ ranPkt.ft.voidVec = false ∧ Rule.enA ranPkt.lk.act = true ∧
      (holding ranPkt).time.beat = ranPkt.i.b + 1 ∧ ((holding ranPkt).fcores.get ranPkt.fcore).pkt ≠ some 0) ∧
    ((holding crossPkt).pkt? 0 = some crossPkt ∧ crossPkt.ft.vec = some [] ∧ (holding crossPkt).crosses crossPkt = true) ∧
    (∃ (s : State) (x : Pkt), s.pkt? 0 = some x ∧ x.lk.histPos = some 31 ∧ x.ft.handed = true ∧ x.ft.houtOpen = false ∧ s.cycLate = [] ∧
      (linesOf (s.regionBase 1 + 2048 * x.lk.histRing + 64 * 31) 64).any s.lineProtected = false) :=
  ⟨⟨{ oneTree with pkts := [(0, some aPkt)] }, by decide +kernel⟩, ⟨by decide, { running with fcores := [(0, { reload := true })] }, by decide, 16, by decide⟩, by decide, by decide,
   ⟨holding { ranPkt with lk := { ranPkt.lk with histPos := some 31 }, ft := { ranPkt.ft with handed := true } },
     { ranPkt with lk := { ranPkt.lk with histPos := some 31 }, ft := { ranPkt.ft with handed := true } }, by decide +kernel⟩⟩

/-- Core 0 of lane 0 runs packet 0's program. -/
def fcore0 : FCoreId := { lane := 0, core := 0 }
def coreRuns : State := { holding ranPkt with fcores := [(0, { pkt := some 0, pc := 3 })] }
/-- The word w stands at its pc. -/
def fat (w : Word) : State := { coreRuns with fsets := [(0, { prog := [0, 0, 0, w] })] }

theorem witness_FeatureArithmetic : (∀ w, (fat w).FAt fcore0 w) ∧ (∀ w, ((fat w).fcore fcore0).pkt = some 0 ∧ (fat w).pkt? 0 = some ranPkt) ∧
    ({ d := 1, base := 0, width := 0, signed := false, littleEndian := false, off := 511 } : LdF).signed = false ∧ ¬ coreRuns.FAt fcore0 (fenc 4 0 0 0) :=
  ⟨fun _ => rfl, fun _ => ⟨rfl, rfl⟩, rfl, fun h => by cases h⟩

theorem witness_FeatureControl : (∀ w, (fat w).FAt fcore0 w) ∧ (∀ w, ((fat w).fcore fcore0).pkt = some 0 ∧ (fat w).pkt? 0 = some ranPkt) ∧ (running.fcore fcore0).pkt = none :=
  ⟨fun _ => rfl, fun _ => ⟨rfl, rfl⟩, by decide⟩

/-- Tree core 0 of flock 0 holds an issue entry for vector slot 0 in its first program word. -/
def issuing : State := { running with tree := { mem := [(0xF003, 0x20)], vbuf := [(0, { pkt := some 0 })] } }

/-- Context 0 gathers in flock 0, whose gather cell holds n more than the contributing cores. -/
def counted (n : Nat) : State := { oneTree with arr := { oneTree.arr with cells := [(cellKey 0 255, contributors 0 [(0, treeV)] + n)] } }
/-- A version whose tree core 0 of flock 0 serves flow or host-job work. -/
def dieV : Version := { ver := 1, kind := 2, flocks := [0], runs := [65536], sects := [{ type := 4, flags := 0, flock := 0, unit := 0, off := 0, len := 0, dest := 0 }] }
/-- Context 0 runs it, and its gather cell of flock 0 was full in this beat; its core is void in the beats listed. -/
def dying (void : List Nat) : State :=
  { running with ctxs := [(0, { st := .active, v0 := some dieV })], tree := { jobFull := [(0, 101)], cores := [(0, { voidBeats := void })] } }

theorem witness_TreeCommands :
    (running.flockIssues 0 = true ∧ bits (running.issueWord 0 0 (running.tcore 0 0).bank 511) 29 1 = 0) ∧
    (issuing.flockIssues 0 = true ∧ bits (issuing.issueWord 0 0 (issuing.tcore 0 0).bank 0) 29 1 = 1 ∧
      issuing.vslot 0 (issuing.tree.readBank.get 0) (bits (issuing.issueWord 0 0 (issuing.tcore 0 0).bank 0) 14 6) = { pkt := some 0, slots := [] }) ∧
    (∃ (s : State) (p q : PendAdd), (s.tcore 0 63).pend = [p, q] ∧ p.val = some 5 ∧ p.post = none ∧ (s.tcore 1 0).pend = [q] ∧ q.val = some 5 ∧ q.post = some 255) ∧
    (running.tcore 0 0).reload = false ∧ (∃ s : State, (s.tcore 0 0).reload = true) ∧ running.gathering 0 = [] ∧
    ((counted 1).gathering 0 ≠ [] ∧ contributors 0 ((counted 1).gathering 0) ≠ (counted 1).arr.cells.get (cellKey 0 255)) ∧
    ((counted 0).gathering 0 ≠ [] ∧ contributors 0 ((counted 0).gathering 0) = (counted 0).arr.cells.get (cellKey 0 255)) ∧
    (∃ (s : State) (g : GatherOut), (s.tree.outs.get 0)[0]? = some g ∧ g.pkt = some 0 ∧ g.void = none ∧ g.ctxsel = false ∧ s.pkt? 0 = some aPkt ∧
      Rule.enA aPkt.lk.act = true ∧ Rule.ctxA aPkt.lk.act = g.ctx) ∧
    ((running.ctxs.get 4095).treeVersion = none) ∧
    (((dying []).ctxs.get 0).treeVersion = some dieV ∧ (∀ f ∈ dieV.flocks, (dying []).tree.jobFull.get f = (dying []).time.beat + 1) ∧
      ∀ f ∈ dieV.flocks, ∀ k ∈ dieV.treeCores f, (dying []).coreVoid f k = false) ∧
    (((dying [99]).ctxs.get 0).treeVersion = some dieV ∧ ∃ f ∈ dieV.flocks, ∃ k ∈ dieV.treeCores f, (dying [99]).coreVoid f k = true) ∧
    (running.Takes .bar0 ∧ running.treeUsed 0 63 = false) ∧ (∃ s : State, s.Takes .bar0 ∧ s.treeUsed 255 63 = true) ∧ expert.TakesExpert .bar0 := by
  have h (n : Nat) : (counted n).gathering 0 = [(0, treeV)] := rfl
  have e (n : Nat) : (counted n).arr.cells.get (cellKey 0 255) = contributors 0 [(0, treeV)] + n := rfl
  refine ⟨by decide, by decide +kernel, ⟨{ running with tree := { cores := [(63, { pend := [{ part := 0, val := some 5, cycle := 0, beat := 99 },
        { part := 0, val := some 5, cycle := 511, beat := 99, post := some 255 }] }), (64, { pend := [{ part := 0, val := some 5, cycle := 511, beat := 99, post := some 255 }] })] } },
      { part := 0, val := some 5, cycle := 0, beat := 99 }, { part := 0, val := some 5, cycle := 511, beat := 99, post := some 255 }, by decide⟩, by decide,
    ⟨{ running with tree := { cores := [(0, { reload := true })] } }, by decide⟩, by decide, ?_, ?_,
    ⟨{ holding aPkt with tree := { outs := [(0, [{ pkt := some 0 }])] } }, { pkt := some 0 }, by decide⟩, by decide, by decide, by decide, by decide,
    ⟨{ running with ctxs := [(0, { v0 := some { flocks := [255], sects := [{ type := 3, flags := 0, flock := 255, unit := 0, off := 0, len := 0, dest := 0, phys := 63 }] } })] },
      by decide⟩, by decide⟩
  · rw [h, e]; exact ⟨List.cons_ne_nil _ _, by omega⟩
  · rw [h, e]; exact ⟨List.cons_ne_nil _ _, by omega⟩

/-- Express core 15 and bulk core 7 of flock 0, both running their programs. -/
def xcore : ACoreId := { flock := 0, cls := .express, core := 15 }
def bcore : ACoreId := { flock := 0, cls := .bulk, core := 7 }
def coresRun : State := { running with arr := { cores := [(15, { running := true }), (23, { running := true })] } }

/-- Core c has come to word w, the first of its program, in the first island cycle of beat 100. -/
def coreAt (c : ACoreId) (w : Nat) : State :=
  { running with arr := { cores := [(c.num, { running := true, startBeat := 100, next := 51200 })],
                          mem := Mem.writeN [] (ACoreId.base c + ACoreId.progBase c false) (leBytes 16 w) },
                 flocks := [(0, { clkBase := 51200, clkBeat := 100 })] }
/-- The same with cell 247 of flock 0 at 2 and cores 14 and 15 waiting for 2 of it. -/
def waiting (c : ACoreId) (w : Nat) : State :=
  { coreAt c w with arr := { (coreAt c w).arr with cells := [(247, 2), (248, 5)], cores := [(14, { running := true, wait := some (247, 2) })] ++ (coreAt c w).arr.cores } }
/-- The first core and the last before it wait. -/
def twoWait : State := { running with arr := { cores := [(14, { running := true, wait := some (247, 2) }), (15, { running := true, wait := some (247, 2) })], cells := [(247, 2)] } }
/-- A post on cell 247, made three island cycles before, with the cell at n. -/
def posted (made n : Nat) : State := { coreAt xcore 0 with arr := { posts := [(0, [(247, 1, made)])], cells := [(247, n)] } }

theorem witness_BeatProgramCommands :
    (∃ s : State, ACoreId.exists_ bcore = true ∧ (s.land 0).flockIssues 0 = true ∧ (s.land 0).islCycle 0 = 0 ∧ ((s.land 0).acore bcore).running = false ∧
      (((s.land 0).acore bcore).startBeat = (s.land 0).time.beat → ((s.land 0).acore bcore).pc = 0)) ∧
    (((coreAt xcore 0).land 0).coreIssues xcore 0 = true ∧ (((coreAt xcore 0).land 0).acore xcore).waitAt = none) ∧
    ((coreAt xcore endWord).land 0).coreIssues xcore endWord = true ∧ (bcore.bulk = true ∧ ((coreAt bcore (formWord true)).land 0).coreIssues bcore (formWord true) = true) ∧
    (((coreAt xcore (syncpWord 247 0)).land 0).coreIssues xcore (syncpWord 247 0) = true ∧ (((coreAt xcore (syncpWord 247 0)).land 0).acore xcore).posts = [] ∧
      (∀ a < 4, ((coreAt xcore (syncpWord 247 0)).land 0).arr.drains.get (arrKey xcore a) = []) ∧ ((coreAt xcore (syncpWord 247 0)).land 0).herd.remote = []) ∧
    (((posted 51197 65534).land 0).flockRuns 0 = true ∧ ((posted 51197 65534).land 0).arr.posts.get 0 = [(247, 1, 51197)] ∧ 51197 + 3 ≤ ((posted 51197 65534).land 0).islNow 0 ∧
      ((posted 51197 65534).land 0).cell 0 247 ≠ 65535) ∧
    (((posted 51197 65535).land 0).flockRuns 0 = true ∧ ((posted 51197 65535).land 0).arr.posts.get 0 = [(247, 1, 51197)] ∧ 51197 + 3 ≤ ((posted 51197 65535).land 0).islNow 0 ∧
      ((posted 51197 65535).land 0).cell 0 247 = 65535) ∧
    (((posted 51198 0).land 0).arr.posts.get 0 = [(247, 1, 51198)] ∧ ((posted 51198 0).land 0).islNow 0 < 51198 + 3) ∧
    (((waiting ⟨0, .express, 13⟩ (syncwWord 247 2)).land 0).coreIssues ⟨0, .express, 13⟩ (syncwWord 247 2) = true ∧ (2#16).toNat ≤ ((waiting ⟨0, .express, 13⟩ (syncwWord 247 2)).land 0).cell 0 247 ∧
      ((waiting ⟨0, .express, 13⟩ (syncwWord 247 2)).land 0).servedFirst ⟨0, .express, 13⟩ 247 = false) ∧
    (((waiting xcore (syncwWord 248 5)).land 0).coreIssues xcore (syncwWord 248 5) = true ∧ (5#16).toNat ≤ ((waiting xcore (syncwWord 248 5)).land 0).cell 0 248 ∧
      ((waiting xcore (syncwWord 248 5)).land 0).servedFirst xcore 248 = false) ∧
    (((waiting xcore (syncwWord 247 2)).land 0).coreIssues xcore (syncwWord 247 2) = true ∧ ((waiting xcore (syncwWord 247 2)).land 0).servedFirst xcore 247 = true) ∧
    (((waiting xcore (syncwWord 255 1)).land 0).coreIssues xcore (syncwWord 255 1) = true ∧ ((waiting xcore (syncwWord 255 1)).land 0).cell 0 255 < (1#16).toNat) ∧
    (((twoWait.land 0).acore ⟨0, .express, 14⟩).wait = some (247, 2) ∧ (twoWait.land 0).flockIssues 0 = true ∧ 2 ≤ (twoWait.land 0).cell 0 247 ∧
      (twoWait.land 0).servedFirst ⟨0, .express, 14⟩ 247 = false) ∧
    (((twoWait.land 0).acore xcore).wait = some (247, 2) ∧ (twoWait.land 0).servedFirst xcore 247 = true) :=
  ⟨⟨coreAt xcore 0, by decide +kernel⟩, by decide +kernel, by decide +kernel, by decide +kernel, by decide +kernel, by decide +kernel, by decide +kernel, by decide +kernel,
   by decide +kernel, by decide +kernel, by decide +kernel, by decide +kernel, by decide +kernel, by decide +kernel⟩

/-- In a herd of shape 2 by 1 by 1, herd state n, port 0 accepted with member 1 behind it. -/
def herdIn (n : Nat) : State :=
  ({ running with sec := { running.sec with herdEn := true, domain := some (zeros 32) }, herd := { members := [0, 1], quorum := 2 } }.wr Reg.HERD.NX 2).wr Reg.HERD.STATE n
/-- The same with LINK_STATE of port 0. -/
def port0 (n l : Nat) : State := (((herdIn n).wr Reg.HLINK.LINK_STATE l 0).wr Reg.HLINK.ENABLE 1 0).wr Reg.HLINK.PEER_ID 1 0
def mate : State := port0 2 4

def loadhF : LoadhF := { amask := 15#4, bank := false, fmt := 0, xp := false, src := false, pro := 0, klen := 8, saddr := 0 }
def streamF : StreamF :=
  { amask := 3#4, bank := false, lane := 0, acc := false, final := true, stat := false, fmt := 0, epi := 0, xpw := false, k := 8, nm1 := 15, waddr := 0, daddr := 0,
    scaleLo := 0, scaleSpan := 0, bc := false }
def copyIn : CopyF := { dir := false, caddr := 0, lenM1 := 0, haddr := 0 }
def copyOut : CopyF := { copyIn with dir := true }
def retF : RetF := { saddr := 0, vec0 := 0, ctxsel := false, noutM1 := 0, format := 0, amask := 0 }
/-- The first line of aperture 0. -/
def copyApt : CopyF := { copyIn with haddr := 0x300000000 }
/-- A drain of a tile whose last index was in island cycle n. -/
def draining (n : Nat) : State :=
  { coreAt xcore 0 with arr := { (coreAt xcore 0).arr with drains := [(arrKey xcore 3, [{ f := streamF, endAt := n }])],
                                                           stats := [(arrKey xcore 0, { f := streamF, ready := true, void := decide (n = 0), endAt := n })] } }
/-- A COPY into line 0 of the bulk core is under way. -/
def copying : State := { coreAt bcore (CopyF.word copyOut) with arr := { (coreAt bcore (CopyF.word copyOut)).arr with
  cores := [(23, { running := true, startBeat := 100, next := 51200, copies := [(0, 64, 51300, 100)] })] } }

theorem witness_ArrayInstructions :
    (((coreAt xcore (LoadhF.word loadhF)).land 0).coreIssues xcore (LoadhF.word loadhF) = true ∧ ∀ a n, ((coreAt xcore (LoadhF.word loadhF)).land 0).toWrite xcore a n = false) ∧
    (∃ (s : State) (f : LoadhF), (s.land 0).coreIssues xcore (LoadhF.word f) = true ∧ f.xp = true ∧ (s.land 0).islNow 0 < ((s.land 0).acore xcore).port) ∧
    (∃ (s : State) (p : HeldPend), (s.land 0).flockRuns 0 = true ∧ ((s.land 0).acore xcore).held.find? (fun h => h.a == 0 && h.next == 31) = some p ∧ p.next < p.total ∧
      p.writeAt ≤ (s.land 0).islNow 0) ∧
    (((coreAt xcore (StreamF.word streamF)).land 0).coreIssues xcore (StreamF.word streamF) = true ∧ ((coreAt xcore (StreamF.word streamF)).land 0).streamWaits xcore streamF = true) ∧
    (∃ s : State, (s.land 0).coreIssues xcore (StreamF.word streamF) = true ∧ (s.land 0).streamWaits xcore streamF = false) ∧
    (∃ d : DrainTile, ((draining 0).land 0).flockRuns 0 = true ∧ ((draining 0).land 0).arr.drains.get (arrKey xcore 3) = [d] ∧
      d.endAt + (((draining 0).land 0).geo xcore).drain + d.rows - 1 ≤ ((draining 0).land 0).islNow 0) ∧
    (∃ d : DrainTile, ((draining 51200).land 0).arr.drains.get (arrKey xcore 3) = [d] ∧
      ((draining 51200).land 0).islNow 0 < d.endAt + (((draining 51200).land 0).geo xcore).drain + d.rows - 1) ∧
    ((((draining 0).land 0).arr.stats.get (arrKey xcore 0)).ready = true ∧ (((draining 0).land 0).arr.stats.get (arrKey xcore 0)).void = true ∧
      (((draining 0).land 0).arr.stats.get (arrKey xcore 0)).endAt + (((draining 0).land 0).geo xcore).drain + 2 * (((draining 0).land 0).geo xcore).rows ≤ ((draining 0).land 0).islNow 0 + 1) ∧
    (running.acore xcore).reload = false ∧ (∃ s : State, (s.acore xcore).reload = true) ∧
    (xcore.bulk = false ∧ ((coreAt xcore (RetF.word retF)).land 0).coreIssues xcore (RetF.word retF) = true ∧ ∀ a n, ((coreAt xcore (RetF.word retF)).land 0).toWrite xcore a n = false) ∧
    (((coreAt bcore (CopyF.word copyIn)).land 0).coreIssues bcore (CopyF.word copyIn) = true ∧ apertureOf (64 * copyIn.haddr.val) = none ∧
      ((coreAt bcore (CopyF.word copyIn)).land 0).hbmUe (64 * copyIn.haddr.val) (64 * (copyIn.lenM1.val + 1)) = none ∧
      ∀ z, ((coreAt bcore (CopyF.word copyIn)).land 0).coreSect bcore = some z → z.2.1.kind ≠ 3) ∧
    (((coreAt bcore (CopyF.word copyOut)).land 0).coreIssues bcore (CopyF.word copyOut) = true ∧
      ((coreAt bcore (CopyF.word copyOut)).land 0).toWrite bcore (64 * copyOut.caddr.val) (64 * (copyOut.lenM1.val + 1)) = false ∧
      ((coreAt bcore (CopyF.word copyOut)).land 0).copyAllowed bcore copyOut = true ∧
      (linesOf (64 * copyOut.haddr.val) (64 * (copyOut.lenM1.val + 1))).any ((coreAt bcore (CopyF.word copyOut)).land 0).lineProtected = false ∧
      ((coreAt bcore (CopyF.word copyOut)).land 0).cycLate = []) ∧
    (∃ s : State, (s.land 0).coreIssues bcore (CopyF.word copyOut) = true ∧ (s.land 0).toWrite bcore (64 * copyOut.caddr.val) (64 * (copyOut.lenM1.val + 1)) = false ∧
      (s.land 0).copyAllowed bcore copyOut = false) ∧
    ((copying.land 0).coreIssues bcore (CopyF.word copyOut) = true ∧ (copying.land 0).toWrite bcore (64 * copyOut.caddr.val) (64 * (copyOut.lenM1.val + 1)) = true) ∧
    (apertureOf (64 * copyApt.haddr.val) = some 0 ∧ ((coreAt bcore (CopyF.word copyApt)).land 0).coreIssues bcore (CopyF.word copyApt) = true ∧
      ((coreAt bcore (CopyF.word copyApt)).land 0).aptOk 0 = false) ∧
    (∃ s : State, (s.land 0).coreIssues bcore (CopyF.word copyApt) = true ∧ (s.land 0).aptOk 0 = true) :=
  ⟨⟨by decide +kernel, fun _ _ => rfl⟩,
   ⟨{ coreAt xcore (LoadhF.word { loadhF with xp := true }) with arr := { (coreAt xcore (LoadhF.word { loadhF with xp := true })).arr with
        cores := [(15, { running := true, startBeat := 100, next := 51200, port := 51201 })] } }, { loadhF with xp := true }, by decide +kernel⟩,
   ⟨{ running with arr := { cores := [(15, { running := true, held := [{ a := 0, pos := 0, f := loadhF, next := 31, total := 32 }] })] } },
      { a := 0, pos := 0, f := loadhF, next := 31, total := 32 }, by decide +kernel⟩,
   by decide +kernel,
   ⟨{ coreAt xcore (StreamF.word streamF) with arr := { (coreAt xcore (StreamF.word streamF)).arr with
        banks := [(bankKey xcore 0 false, { loaded := true }), (bankKey xcore 1 false, { loaded := true })] } }, by decide +kernel⟩,
   ⟨{ f := streamF, endAt := 0 }, by decide +kernel⟩, ⟨{ f := streamF, endAt := 51200 }, by decide +kernel⟩, by decide +kernel, by decide,
   ⟨{ running with arr := { cores := [(15, { reload := true })] } }, by decide⟩, ⟨rfl, by decide +kernel, fun _ _ => rfl⟩,
   ⟨by decide +kernel, by decide +kernel, by decide +kernel, fun z h => by cases h⟩, by decide +kernel,
   ⟨{ coreAt bcore (CopyF.word copyOut) with flocks := [(0, { clkBase := 51200, clkBeat := 100, debug := true })] }, by decide +kernel⟩, by decide +kernel, by decide +kernel,
   ⟨(({ coreAt bcore (CopyF.word copyApt) with regs := mate.regs, acting := mate.acting, sec := mate.sec, herd := mate.herd, hl := mate.hl } : State).wrNow Reg.HERD.APT_MEMBER 1).wrNow Reg.HERD.APT_HMAX 1, by decide +kernel⟩⟩

/-- Context 0 binds express core 0 of flock 255 to bit 63 of the flock's array map. -/
def boundV : Version := { flocks := [255], sects := [{ type := 6, flags := 0, flock := 255, unit := 0, off := 0, len := 0, dest := 0, arrays := [63] }] }
def bound : State := { running with ctxs := [(0, { v0 := some boundV })] }

theorem witness_FlockPageCommands :
    (running.Takes .bar0 ∧ running.arrayUsed 255 63 = false) ∧ (bound.Takes .bar0 ∧ bound.arrayUsed 255 63 = true) ∧ expert.TakesExpert .bar0 ∧ running.pagesOpen = true :=
  ⟨by decide, by decide, by decide, by decide⟩

/-- A searched packet whose frame is 709 bytes long and known good, due to start early in the last cycle of beat 99. -/
def longPkt : Pkt := { i := { t := 94 * 512, b := 95, frame := zeros 709 }, lk := { searched := true, act := 1 }, vd := { fcs := some true } }
def cutPort : State := ((linked.wrNow Reg.PORT.PAIR_S0 1).wrNow Reg.PORT.CT_LEAD_EN 1).wrNow Reg.PORT.CT_LEAD_CYC 1
def cutReady : State := { cutPort with time := { started := true, beat := 99, cycle := 511 }, pkts := [(0, some longPkt)], nextPkt := 1 }
/-- A packet of beat 95 whose frame failed its FCS. -/
def voidPkt : Pkt := { i := { t := 94 * 512, b := 95 }, vd := { fcs := some false, voidPkt := true, mal := 15 } }
/-- A packet of beat 95 with a good FCS. -/
def goodPkt : Pkt := { i := { t := 94 * 512, b := 95 }, vd := { fcs := some true } }

/-- Schedule cycle 192 of beat 103, with an output of packet 0 not arrived. -/
def lateTree : State := { running with ctxs := [(0, { st := .active, v0 := some { treeV with vdesc := [1] } })], tree := { gset := [(255 * 64 + 63, some 0)] } }
def lateState : State := { lateTree with time := { started := true, beat := 103, cycle := 192 }, pkts := [(0, some aPkt)] }

theorem witness_VerdictCommands :
    (∃ (s : State) (v : Version), s.pkt? 0 = some aPkt ∧ aPkt.vd.released = false ∧ aPkt.i.b + 4 = s.time.beat ∧ aPkt.vd.a.formed = false ∧ aPkt.vd.b.formed = false ∧
      s.runA aPkt = some v ∧ s.runB aPkt = none) ∧
    ((holding pkt).pkt? 0 = some pkt ∧ (holding pkt).time.beat < pkt.i.b + 4) ∧
    (∃ (s : State) (v : Version), s.tree.gset.get (255 * 64 + 63) = some 0 ∧ s.pkt? 0 = some aPkt ∧ aPkt.i.b + 4 = s.time.beat ∧ s.time.cycle = 192 ∧ s.runA aPkt = some v ∧
      v.comb ≠ 0 ∧ aPkt.vd.a.missing v = true) ∧ running.time.cycle < 192 ∧
    ((holding voidPkt).pkt? 0 = some voidPkt ∧ voidPkt.vd.released = false ∧ voidPkt.vd.fcs = some false ∧ voidPkt.vd.voidPkt = true ∧ voidPkt.vd.dests = 0 ∧
      voidPkt.applyAt = (holding voidPkt).time.beat ∧ (holding voidPkt).behind voidPkt = false ∧ (holding voidPkt).eg.inj = []) ∧
    (∃ s : State, s.pkt? 0 = some goodPkt ∧ goodPkt.vd.released = false ∧ goodPkt.vd.fcs = some true ∧ goodPkt.vd.voidPkt = false ∧ (s.lanes.get goodPkt.i.lane).pass = true ∧
      goodPkt.applyAt ≤ s.time.beat ∧ s.behind goodPkt = false ∧ ∀ e ∈ s.eg.inj, e.2.2.pkt = none) ∧ (holding pkt).time.beat < pkt.applyAt ∧ pkt.vd.fcs = none ∧
    (cutReady.pkt? 0 = some longPkt ∧ cutReady.ctEligible longPkt = true ∧
      cutReady.admits (cutReady.defaultDest longPkt.i.port) (Rule.queue longPkt.lk.act)
        { kind := 0, pkt := some 0, size := longPkt.i.data.length + 4, bytes := longPkt.i.data, early := true } = true ∧
      Rule.copy longPkt.lk.act = false ∧ Rule.mirror longPkt.lk.act = false) :=
  ⟨⟨{ oneTree with time := { started := true, beat := 103 }, pkts := [(0, some aPkt)] }, treeV, by decide⟩, by decide,
   ⟨lateState, { treeV with vdesc := [1] }, by decide⟩, by decide, by decide,
   ⟨{ holding goodPkt with lanes := [(0, { pass := true })] }, by decide⟩, by decide, by decide, by decide +kernel⟩

theorem witness_DoubtCommands :
    (∃ s : State, s.act Reg.VERD.CTX_FAULT_MAX < (s.ctxs.get 4095).voidSets ∧ (s.ctxs.get 4095).down = 0) ∧
    (running.ctxs.get 4095).voidSets ≤ running.act Reg.VERD.CTX_FAULT_MAX ∧ (running.flocks.get 255).withdrawn = false ∧
    (∃ s : State, (s.flocks.get 255).withdrawn = true) ∧ running.devSafe = false ∧ running.Takes .bar0 ∧ expert.TakesExpert .bar0 :=
  ⟨⟨{ running with ctxs := [(4095, { voidSets := 17 })] }, by decide⟩, by decide, by decide, ⟨{ running with flocks := [(255, { withdrawn := true })] }, by decide⟩, by decide,
   by decide, by decide⟩

/-- TCAM.COMMIT_STATE at a value, in force. -/
def commitAt (n : Nat) : State := running.wr Reg.TCAM.COMMIT_STATE n
/-- A member of a herd. -/
def member : State := running.wr Reg.HERD.STATE 2

theorem witness_RuleCommitCommands :
    (running.Takes .bar0 ∧ running.commitState = 0 ∧ running.herdState < 2) ∧ ((commitAt 1).Takes .bar0 ∧ (commitAt 1).commitState ≠ 0 ∧ (commitAt 1).commitState ≠ 2) ∧
    ((member.wr Reg.HERD.ELECTING 1).Takes .bar0 ∧ (member.wr Reg.HERD.ELECTING 1).commitState = 0 ∧ (member.wr Reg.HERD.ELECTING 1).herdState = 2 ∧
      (member.wr Reg.HERD.ELECTING 1).rd Reg.HERD.ELECTING = 1) ∧
    ((commitAt 2).Takes .bar0 ∧ (commitAt 2).commitState = 2 ∧ (commitAt 2).cls.armHerd = false ∧ (commitAt 2).cls.armC ≤ (commitAt 2).time.beat) ∧
    (∃ s : State, s.commitState = 1 ∧ s.cls.waitOrder = false ∧ s.ruleCheck (s.rd Reg.TCAM.STAGED_VER) (s.rd Reg.TCAM.COMMIT_BEAT) s.cls.commitWrite true = 0) ∧
    (∃ s : State, s.commitState = 1 ∧ s.cls.waitOrder = true) ∧
    ((commitAt 1).commitState = 1 ∧ (commitAt 1).cls.waitOrder = false ∧
      (commitAt 1).ruleCheck ((commitAt 1).rd Reg.TCAM.STAGED_VER) ((commitAt 1).rd Reg.TCAM.COMMIT_BEAT) (commitAt 1).cls.commitWrite true ≠ 0) ∧
    (∃ s : State, s.commitState = 2 ∧ s.time.beat < s.cls.armC) ∧
    ((commitAt 3).commitState = 3 ∧ (commitAt 3).cls.retired = false ∧ (commitAt 3).cls.switchBeat + 5 ≤ (commitAt 3).time.beat ∧
      ∀ l < 16, ((commitAt 3).lanes.get l).pass = true ∨ (commitAt 3).cls.occ.get (l * 2 + (commitAt 3).stagedSlot) = 0) ∧
    (∃ s : State, (s.lanes.get 15).pass = false ∧ s.cls.occ.get (15 * 2 + s.stagedSlot) ≠ 0) ∧
    (∃ s : State, s.commitState = 3 ∧ s.cls.retired = true) :=
  ⟨by decide, by decide, by decide, by decide,
   ⟨((commitAt 1).wr Reg.TCAM.STAGED_VER 7).wr Reg.TCAM.COMMIT_BEAT 256, by decide +kernel⟩, ⟨{ commitAt 1 with cls := { waitOrder := true } }, by decide⟩, by decide +kernel, ⟨{ commitAt 2 with cls := { armC := 101 } }, by decide⟩, by decide,
   ⟨{ running with cls := { occ := [(31, 1)] } }, by decide⟩, ⟨{ commitAt 3 with cls := { retired := true } }, by decide⟩⟩

def entCmd : EntCmd := { replica := 7, bank := 47, entry := 1023, bcast := false, plen := 0 }
def noData : EntData := { value := 0, mask := 0, act := 0 }
/-- A bulk load runs over one record. -/
def loading : State := { running with cls := { loadRun := true, loadLeft := 1 }, hbm := [(162, 4)] }
/-- Its command has acted with a result in beat 99. -/
def loaded (n : Nat) : State := { loading with cls := { loading.cls with entPend := [(0, some { op := .read, cmd := entCmd, result := some n, acted := 99, load := some noData })] } }

theorem witness_EntryCommands :
    (running.Takes .bar0 ∧ running.rd Reg.TCAM.ENT_BUSY entCmd.replica.val = 0 ∧ running.cls.loadRun = false) ∧
    (running.Takes .bar0 ∧ (running.wr Reg.TCAM.ENT_BUSY 1 7).rd Reg.TCAM.ENT_BUSY entCmd.replica.val = 1) ∧
    (∃ s : State, s.cls.entPend.get 7 = some { op := .read, cmd := entCmd, result := some 15, acted := 99 } ∧ 99 < s.time.beat) ∧
    (loading.Takes .bar0 ∧ loading.cls.loadRun = true ∧ loading.rd Reg.TCAM.ENT_BUSY = 0) ∧ (loading.wr Reg.TCAM.ENT_BUSY 1).rd Reg.TCAM.ENT_BUSY = 1 ∧
    ((loaded 0).cls.entPend.get 0 = some { op := .read, cmd := entCmd, result := some 0, acted := 99, load := some noData } ∧ 99 < (loaded 0).time.beat) ∧
    ((loaded 15).cls.entPend.get 0 = some { op := .read, cmd := entCmd, result := some 15, acted := 99, load := some noData } ∧ 99 < (loaded 15).time.beat) :=
  ⟨by decide, by decide, ⟨{ running with cls := { entPend := [(7, some { op := .read, cmd := entCmd, result := some 15, acted := 99 })] } }, by decide⟩, by decide, by decide,
   ⟨rfl, by decide⟩, ⟨rfl, by decide⟩⟩

/-- Context 0 in a state, its next version in slot 1. -/
def ctxAt (x : Ctx) : State := { running with ctxs := [(0, x)] }

theorem witness_ContextLoadCommands :
    (running.Takes .bar0 ∧ (running.ctxs.get running.ctxSel).st = .empty) ∧ ((ctxAt { st := .active }).ctxs.get (ctxAt { st := .active }).ctxSel).st = .active ∧
    ((ctxAt { st := .armed }).ctxs.get (ctxAt { st := .armed }).ctxSel).st = .armed ∧
    (∃ s : State, (s.ctxs.get 0).st = .checking ∧ (s.ctxs.get 0).prev ≠ .checking ∧ s.herd.cut = false) ∧
    (∃ (s : State) (v : Version), (s.ctxs.get 0).st = .staging ∧ s.herd.cut = false ∧ (s.ctxs.get 0).other = some v ∧ s.hbmUe (s.regionBase 2 + v.addr) v.len = none) ∧
    (∃ (s : State) (v : Version) (l : Nat), (s.ctxs.get 0).st = .staging ∧ s.herd.cut = false ∧ (s.ctxs.get 0).other = some v ∧
      s.hbmUe (s.regionBase 2 + v.addr) v.len = some l) ∧
    ((ctxAt { st := .staged }).Takes .bar0 ∧ ((ctxAt { st := .staged }).ctxs.get 0).st = .staged) ∧ running.layout = {} ∧
    ({ running with layout := { st := .armed } } : State).layout.st = .armed :=
  ⟨by decide, by decide, by decide, ⟨ctxAt { st := .checking }, by decide⟩, ⟨ctxAt { st := .staging, v1 := some treeV }, treeV, by decide⟩,
   ⟨{ ctxAt { st := .staging, v1 := some { treeV with len := 64 } } with flt := { hbmBad := [running.regionBase 2 / 64] } }, { treeV with len := 64 }, running.regionBase 2 / 64,
      by decide +kernel⟩, by decide, rfl, rfl⟩

theorem witness_ContextCommitCommands :
    (∃ s : State, s.Takes .bar0 ∧ s.herdState < 2 ∧ (s.ctxs.get s.ctxSel).st = .staged ∧ (s.ctxs.get s.ctxSel).cmtPend = false ∧ (s.ctxs.get s.ctxSel).cmtHerd = false ∧
      herdKind (s.ctxs.get s.ctxSel).kind = true) ∧
    (∃ s : State, s.Takes .bar0 ∧ s.herdState = 2 ∧ (s.ctxs.get s.ctxSel).st = .staged ∧ herdKind (s.ctxs.get s.ctxSel).kind = true) ∧
    (∃ s : State, s.Takes .bar0 ∧ s.layout.st = .staged ∧ s.layout.cmtPend = false) ∧
    (∃ (s : State) (x : Ctx), x = s.slotOf2 (some 0) ∧ x.cmtPend = true ∧ x.st = .staged ∧ s.commitCheck (some 0) x x.cmtBeat x.cmtWrite true = 0) ∧
    (∃ (s : State) (x : Ctx), x = s.slotOf2 none ∧ x.cmtPend = true ∧ x.st = .staged ∧ s.commitCheck none x x.cmtBeat x.cmtWrite true = 32) ∧
    (∃ s : State, s.Takes .bar0 ∧ (s.ctxs.get s.ctxSel).st = .armed ∧ (s.ctxs.get s.ctxSel).cmtHerd = false) ∧
    (∃ (s : State) (x : Ctx), x = s.slotOf2 (some 0) ∧ x.st = .armed ∧ x.armC = s.time.beat) ∧
    (∃ (s : State) (v : Version), (s.ctxs.get 0).active = some v ∧ s.time.beat < (s.ctxs.get 0).switchBeat) ∧
    (∃ (s : State) (v : Version), (s.ctxs.get 0).active = some v ∧ v.gatherOn = false ∧ (s.ctxs.get 0).kind = 1 ∧ (s.ctxs.get 0).switchBeat + 5 = s.time.beat) ∧
    (∃ (s : State) (x : Ctx), x = s.slotOf2 (some 0) ∧ x.st = .retiring ∧ x.retired = false ∧ x.switchBeat ≤ s.time.beat ∧ s.occupied (some 0) x = false) ∧
    (∃ (s : State) (x : Ctx), x = s.slotOf2 none ∧ x.st = .retiring ∧ x.retired = true) ∧
    (∃ s : State, (s.slotOf2 (some 0)).st = .retiring ∧ (s.slotOf2 (some 0)).retired = true ∧ s.oldInUse (s.slotOf2 (some 0)) = false) ∧
    (∃ s : State, s.oldInUse (s.ctxs.get 0) = true) ∧ expert.TakesExpert .bar0 :=
  ⟨⟨ctxAt { st := .staged, kind := 1 }, by decide⟩, ⟨{ member with ctxs := [(0, { st := .staged, kind := 3 })] }, by decide⟩,
   ⟨{ running with layout := { st := .staged } }, by decide⟩,
   ⟨ctxAt { st := .staged, kind := 2, v1 := some { ver := 2, kind := 2 }, cmtPend := true, cmtWrite := 100, cmtBeat := 356 }, _, rfl, by decide +kernel⟩,
   ⟨{ running with layout := { st := .staged, v1 := some {}, cmtPend := true, cmtWrite := 100, cmtBeat := 355 } }, _, rfl, by decide +kernel⟩,
   ⟨ctxAt { st := .armed }, by decide⟩, ⟨ctxAt { st := .armed, armC := 100 }, _, rfl, by decide⟩, ⟨ctxAt { st := .active, v0 := some treeV, switchBeat := 101 }, treeV, by decide⟩,
   ⟨ctxAt { st := .active, kind := 1, v0 := some { treeV with gatherOn := false }, switchBeat := 95 }, { treeV with gatherOn := false }, by decide⟩,
   ⟨ctxAt { st := .retiring, v1 := some {}, switchBeat := 94, kind := 1 }, _, rfl, by decide⟩,
   ⟨{ running with layout := { st := .retiring, retired := true } }, _, rfl, by decide⟩,
   ⟨ctxAt { st := .retiring, retired := true, switchBeat := 94 }, by decide⟩, ⟨ctxAt { st := .retiring, retired := true, switchBeat := 95 }, by decide⟩, by decide⟩

/-- A shadow version on flock 255, of version 9 of context 1, whose section names one tap. -/
def shadowV : Version :=
  { ver := 4, kind := 4, flocks := [255], shadowCtx := 1, shadowMv := 9, sects := [{ type := 14, flags := 0, flock := 0xFFFF, unit := 0, off := 0, len := 64, dest := 0, body := leBytes 8 256 }] }
/-- The flow context 1 runs an invocation of version m. -/
def shadowed (m : Nat) : State := { ctxAt { st := .active, kind := 4, v0 := some shadowV } with flow := { running.flow with invs := [{ ctx := 1, mv := m }] } }

theorem witness_ShadowAndAggregateCommands :
    (∃ s : State, (s.ctxs.get 4095).st = .retiring ∧ (s.ctxs.get 4095).kind = 2 ∧ (s.ctxs.get 4095).switchBeat + s.act Reg.CTX.FLOW_DRAIN ≤ s.time.beat) ∧
    (running.time.beat < (running.ctxs.get 4095).switchBeat + running.act Reg.CTX.FLOW_DRAIN) ∧
    (((shadowed 8).ctxs.get 0).active = some shadowV ∧ ((shadowed 8).ctxs.get 0).kind = 4 ∧ (shadowed 8).flockIssues 255 = true ∧ shadowV.flocks.contains 255 = true ∧
      0 < (taps (shadowV.shadow)).length ∧ (shadowed 8).shadowSees shadowV.shadowCtx 255 (bits ((taps shadowV.shadow).getD 0 0) 0 2) 8 ≠ [] ∧
      shadowV.shadowMv ∉ (shadowed 8).shadowSees shadowV.shadowCtx 255 (bits ((taps shadowV.shadow).getD 0 0) 0 2) 8 ∧
      ((shadowed 8).obs.shadow.get (shadowKey 0 255)).seenAt ≠ (shadowed 8).time.beat + 1) ∧
    (((shadowed 9).ctxs.get 0).active = some shadowV ∧ ((shadowed 9).ctxs.get 0).kind = 4 ∧ (shadowed 9).flockIssues 255 = true ∧
      shadowV.shadowMv ∈ (shadowed 9).shadowSees shadowV.shadowCtx 255 (bits ((taps shadowV.shadow).getD 0 0) 0 2) 9 ∧
      ((shadowed 9).obs.shadow.get (shadowKey 0 255)).seenAt ≠ (shadowed 9).time.beat + 1) ∧
    ((shadowed 9).time.beat ≠ 0 ∧ (shadowed 9).time.beat % 2 ^ bits (leAt (shadowV.shadow) 0 8) 0 5 = 0 ∧
      ((shadowed 9).obs.shadow.get (shadowKey 0 255)).endAt ≠ (shadowed 9).time.beat + 1) ∧
    (running.time.beat % 16384 ≠ 0) ∧ (∃ s : State, s.globals.window = s.time.beat + 1) ∧
    (∃ (s : State) (v : Version), s.time.beat % 16384 = 0 ∧ s.globals.window ≠ s.time.beat + 1 ∧ s.devSafe = false ∧ s.herd.stopped = false ∧ 0 ∈ s.ctxs.keys ∧
      (s.ctxs.get 0).active = some v ∧ (s.ctxs.get 0).kind = 3 ∧ v.ver ≠ 0 ∧ (s.ctxs.get 0).down = 0) :=
  ⟨⟨{ running with ctxs := [(4095, { st := .retiring, kind := 2 })], time := { beat := 2 ^ 40 } }, by decide⟩, by decide, by decide +kernel, by decide +kernel, by decide +kernel,
   by decide, ⟨{ running with globals := { window := 101 } }, by decide⟩,
   ⟨{ ctxAt { st := .active, kind := 3, v0 := some treeV } with time := { started := true, beat := 16384 } }, treeV, by decide⟩⟩

/-- Schedule cycle n of the device's life, with the output at its PPS pin high since cycle 0 where high says so. -/
def atCycle (n : Nat) (high : Bool) : State := { running with time := { started := true, beat := n / 512, cycle := n % 512, ppsOut := high } }

theorem witness_TimeCommands :
    (ready.Takes .bar0 ∧ ready.time.started = false) ∧ (running.Takes .bar0 ∧ running.time.started = true ∧ running.obeysTime = true) ∧
    (member.Takes .bar0 ∧ member.obeysTime = false) ∧ running.pagesOpen = true ∧
    (∃ s : State, s.act Reg.TIME.PPS_OUT_EN = 1 ∧ s.act Reg.TIME.PPS_OUT_OFS = 0 ∧ s.ppsDue = true) ∧ running.ppsDue = false ∧
    running.time.phaseLeft.natAbs ≤ 50000 * 1280 ∧ (∃ s : State, 50000 * 1280 < s.time.phaseLeft.natAbs) ∧
    (∃ s : State, s.time.ppsOut = true ∧ s.time.ppsAt + 120000000 = s.now) ∧ (∃ s : State, s.time.ppsOut = true ∧ s.now + 1 = s.time.ppsAt + 120000000) ∧
    running.act Reg.TIME.PPS_OUT_EN = 0 ∧
    (∃ (s : State) (e : TsEnt), s.pagesOpen = true ∧ s.rxTs.get 15 = [e] ∧ e.a = 15 ∧ e.dom = 255 ∧ e.seqId = 65535) ∧
    (∃ (s : State) (e : TsEnt), s.pagesOpen = true ∧ s.txTs.get 15 = [e] ∧ e.a = 65535) ∧ (running.rxTs.get 15 = [] ∧ running.txTs.get 15 = []) :=
  ⟨by decide, by decide, by decide, by decide, ⟨(atCycle 1200000000 false).wrNow Reg.TIME.PPS_OUT_EN 1, by decide +kernel⟩, by decide +kernel, by decide,
   ⟨{ running with time := { phaseLeft := -64000001 } }, by decide⟩, ⟨atCycle 120000000 true, by decide +kernel⟩, ⟨atCycle 119999999 true, by decide +kernel⟩, by decide,
   ⟨{ running with rxTs := [(15, [{ a := 15, dom := 255, seqId := 65535 }])] }, { a := 15, dom := 255, seqId := 65535 }, by decide⟩,
   ⟨{ running with txTs := [(15, [{ a := 65535 }])] }, { a := 65535 }, by decide⟩, by decide⟩

/-- In FOLD, with a join wanted and 1,024 beats locked. -/
def folding : State := { port0 1 4 with herd := { joinWant := true, lockBeats := 1024 } }
def toUs : MsgHdr := { dest := 0, src := 1 }
def onward : MsgHdr := { dest := 1, src := 0 }
def okFlit : FlitF := { seq := 0xFFFFFFFF, codewordOk := true, corrected := false, crcOk := true, vcs := [1], bytes := zeros 256 }
/-- With messages VC 1 to VC 3 cut. -/
def cutOff (s : State) : State := { s with herd := { s.herd with cut := true, stopped := true } }

theorem witness_HerdLinkCommands :
    ((herdIn 0).Takes .bar0 ∧ (herdIn 0).portUsed 0 = true ∧ (herdIn 0).flt.wd.get (7 * 65536) = false ∧ (herdIn 0).sec.domain.isSome = true) ∧
    (port0 2 1).linkState 0 = 1 ∧ ({ port0 2 1 with time := { started := true, beat := 2 ^ 20 } } : State).linkState 0 = 1 ∧
    ((port0 2 1).hl.get 0).trainAt + 2 ^ 20 ≤ ({ port0 2 1 with time := { started := true, beat := 2 ^ 20 } } : State).time.beat ∧
    (port0 2 1).time.beat < ((port0 2 1).hl.get 0).trainAt + 2 ^ 20 ∧
    (3 ≤ (port0 2 6).linkState 0 ∧ (port0 2 6).linkState 0 ≤ 6 ∧ (port0 2 6).portUsed 0 = true ∧ (port0 2 6).rd Reg.HLINK.ENABLE 0 = 1 ∧ ((port0 2 6).hl.get 0).missOut = false ∧
      (port0 2 6).flt.wd.get (7 * 65536) = false ∧ (port0 2 6).sec.domain.isSome = true) ∧
    (∃ s : State, 3 ≤ s.linkState 0 ∧ s.linkState 0 ≤ 6 ∧ (s.hl.get 0).missOut = true) ∧
    (3 ≤ (port0 2 3).linkState 0 ∧ (port0 2 3).linkState 0 ≤ 6 ∧ okFlit.codewordOk = true ∧ okFlit.crcOk = true ∧ (port0 2 3).herd.cut = false) ∧
    ((cutOff mate).herd.cut = true ∧ okFlit.vcs.any (fun v => v.val != 0) = true ∧ okFlit.bytes.length = 256 ∧ 3 ≤ (cutOff mate).linkState 0) ∧
    (∃ s : State, 512 ≤ (s.hl.get 0).cap.length ∧ s.herd.cut = true ∧ s.linkState 0 = 4) ∧
    (∃ f : HelloF, mate.helloSame f = false) ∧ (∃ f : HelloF, mate.helloSame f = true ∧ mate.wiringOk 0 f = false) ∧
    (∃ f : HelloF, mate.helloSame f = true ∧ mate.wiringOk 0 f = true) ∧ mate.hlUp 0 = true ∧ (port0 2 3).hlUp 0 = false :=
  ⟨by decide +kernel, by decide +kernel, by decide +kernel, by decide +kernel, by decide +kernel, by decide +kernel,
   ⟨{ port0 2 6 with hl := [(0, { missOut := true })] }, by decide +kernel⟩, by decide +kernel, by decide +kernel,
   ⟨{ cutOff mate with hl := [(0, { cap := List.replicate 512 [] })] }, by decide +kernel⟩,
   ⟨{ domain := 1, nx := 2, ny := 1, nz := 1, x := 1, y := 0, z := 0, expected := 0, origin := 0, port := 2, state := 2 }, by decide +kernel⟩,
   ⟨{ domain := 0, nx := 2, ny := mate.dimSize 1, nz := mate.dimSize 2, x := 1, y := 0, z := 0, expected := mate.rd Reg.HERD.EXPECTED, origin := 0, port := 3, state := 2 },
      by decide +kernel⟩,
   ⟨{ domain := 0, nx := 2, ny := mate.dimSize 1, nz := mate.dimSize 2, x := 1, y := 0, z := 0, expected := mate.rd Reg.HERD.EXPECTED, origin := 0, port := 2, state := 2 },
      by decide +kernel⟩, by decide +kernel, by decide +kernel⟩

/-- Window 15 is granted for reading and writing on the last 64 KiB of region 5. -/
def windowed : State :=
  (((mate.wrNow Reg.HERD.WIN_ACCESS 2 0 15).wrNow Reg.HERD.WIN_REGION 1 0 15).wrNow Reg.HERD.WIN_BASE (mate.regionSize 1 / 65536 * 65536 - 65536) 0 15).wrNow Reg.HERD.WIN_SIZE 1 0 15
def wrReq : RemoteReq := { kind := 18, port := 0, src := 1, win := 15, addr := 65280, len := 2, data := [1, 2], tag := 0, vals := [], beat := 99 }
def rdReq : RemoteReq := { wrReq with kind := 17, data := [], tok := 5 }
def remP : RemPend := { tok := 5, core := { flock := 255, cls := .bulk, core := 15 }, write := false, addr := 0, len := 2, seq := 0 }
def inv9 : Inv := { id := 9 }
def fetching : State := { mate with herd := { mate.herd with homePend := [(5, 9)] }, flow := { mate.flow with invs := [inv9] } }
def awaiting (w : Bool) : State := { mate with herd := { mate.herd with remote := [{ remP with write := w }] } }

theorem witness_RemoteAccessCommands :
    (mate.hlUp 0 = true ∧ mate.herd.cut = false ∧ toUs.dest.val = mate.ownId ∧ onward.dest.val ≠ mate.ownId ∧
      mate.transitNext onward.src.val onward.dest.val = some 1 ∧ mate.upPort (mate.portFor mate.ownId 1 (onward.src.val + onward.dest.val)) = some 0) ∧
    ((∀ q ∈ [wrReq], q.at_ ≠ rdReq.at_ ∨ q.port ≤ rdReq.port) ∧ ∃ q : RemoteReq, q.at_ = rdReq.at_ ∧ rdReq.port < q.port) ∧
    ((cutOff mate).herd.cut = true ∧ (port0 2 3).hlUp 0 = false) ∧
    (∃ s : State, s.herd.reqs = [wrReq] ∧ wrReq.kind = 18 ∧ wrReq.len = wrReq.data.length ∧ wrReq.beat < s.time.beat ∧ s.winOk wrReq = true ∧ s.cycLate = []) ∧
    (∃ s : State, s.herd.reqs = [rdReq] ∧ rdReq.kind = 17 ∧ rdReq.beat < s.time.beat ∧ s.winOk rdReq = true ∧ s.hbmUe (s.winAddr rdReq) rdReq.len = none ∧
      s.outPort rdReq.src = some 0 ∧ s.herd.stopped = false) ∧
    (∃ s : State, s.herd.reqs = [wrReq] ∧ wrReq.beat < s.time.beat ∧ s.winOk wrReq = false) ∧
    ((awaiting false).herd.remote.find? (fun q => decide (q.tok = 5)) = some remP ∧ remP.write = false ∧ [1#8, 2#8].length = remP.len ∧ (awaiting false).hlUp 0 = true) ∧
    ((awaiting true).herd.remote.find? (fun q => decide (q.tok = 5)) = some { remP with write := true } ∧ (awaiting true).hlUp 0 = true) ∧
    (mate.herd.remote.find? (fun q => decide (q.tok = 5)) = none) ∧ (∀ e ∈ mate.herd.homePend, e.1 ≠ 5) ∧
    (fetching.hlUp 0 = true ∧ fetching.herd.homePend.find? (fun e => e.1 == 5) = some (5, 9) ∧ inv9 ∈ fetching.flow.invs ∧ inv9.id = 9) :=
  ⟨by decide +kernel, ⟨by decide, { rdReq with port := 1 }, by decide⟩, by decide +kernel, ⟨{ windowed with herd := { windowed.herd with reqs := [wrReq] } }, by decide +kernel⟩,
   ⟨{ windowed with herd := { windowed.herd with reqs := [rdReq] } }, by decide +kernel⟩,
   ⟨{ mate with herd := { mate.herd with reqs := [wrReq] } }, by decide +kernel⟩, by decide +kernel, by decide +kernel, by decide +kernel,
   by decide +kernel, by decide +kernel⟩

/-- Blocks 0 to n − 1 of a version table of zeros, less block 0. -/
def blanks (n : Nat) : Tbl (List (BitVec 16)) := (List.range n).tail.map (fun k => (k, List.replicate 128 0))
def tabled (v : List (BitVec 16)) : State := { folding with herd := { folding.herd with vtab := (blanks 32).put 0 v } }
def officer : State := mate.wr Reg.HERD.BELLWETHER 1

theorem witness_MembershipCommands :

    (∃ s : State, s.Takes .bar0 ∧ s.sec.herdEn = true ∧ s.herdState < 2 ∧ s.sec.domain = none) ∧ ((herdIn 1).Takes .bar0 ∧ (herdIn 1).sec.domain.isSome = true) ∧
    (folding.herdState = 1 ∧ folding.herd.joinWant = true ∧ 1024 ≤ folding.herd.lockBeats ∧ folding.electing = false ∧ folding.hlUp 0 = true) ∧ mate.herd.lockBeats < 1024 ∧
    (officer.hlUp 0 = true ∧ toUs.dest.val = officer.ownId ∧ officer.isBw = true ∧ officer.outPort toUs.src.val = some 0) ∧
    (officer.outPort 2 = none ∧ officer.herd.orders.any (fun o => decide (officer.time.beat < o.c)) = false) ∧
    (∃ s : State, s.isBw = true ∧ s.hlUp 0 = true ∧ s.herd.orders.any (fun o => decide (s.time.beat < o.c)) = true) ∧
    (folding.hlUp 0 = true ∧ toUs.dest.val = folding.ownId ∧ (folding.herd.vtab.put 31 []).length < 32) ∧
    ((tabled []).herdState = 1 ∧ 32 ≤ ((tabled []).herd.vtab.put 0 [0, 7]).length ∧
      ({ tabled [] with herd := { (tabled []).herd with vtab := (tabled []).herd.vtab.put 0 [0, 7] } } : State).vDiff = some 1) ∧
    (({ tabled [] with herd := { (tabled []).herd with vtab := (tabled []).herd.vtab.put 0 (List.replicate 128 0) } } : State).vDiff = none ∧
      (tabled []).activeRule = 0 ∧ (tabled []).hlUp 0 = true) ∧ (∀ j ∈ officer.herd.joins, j.1 ≠ 1) ∧
    (∃ s : State, s.herd.joinE = some 100 ∧ s.herdState = 1 ∧ 100 ≤ s.time.beat) ∧ (∃ s : State, s.herd.joinE = some 101 ∧ s.time.beat < 101) ∧
    (mate.Takes .bar0 ∧ mate.herdState = 2 ∧ mate.herd.leaveAt = none) ∧ ((herdIn 1).Takes .bar0 ∧ (herdIn 1).herdState = 1) ∧
    (∃ s : State, s.herd.leaveAt = some 100 ∧ 100 ≤ s.time.beat ∧ 2 ≤ s.herdState) ∧ (∃ s : State, s.herd.leaveAt = some 101 ∧ s.time.beat < 101) ∧
    (∃ s : State, s.herdState = 2 ∧ 16 ≤ s.herd.lostBeats ∧ s.herd.leaveAt = none) ∧ mate.herd.lostBeats < 16 ∧
    (2 ≠ mate.bwId ∧ 2 ≤ mate.herdState ∧ mate.isBw = false ∧ mate.herd.departs = [] ∧ mate.herd.excl = []) ∧
    ((mate.wr Reg.HERD.BW_ID 1).bwId = 1 ∧ 1 ≠ mate.ownId ∧ mate.herd.bwGone = false) :=
  ⟨⟨{ running with sec := { running.sec with herdEn := true } }, by decide +kernel⟩, by decide +kernel, by decide +kernel, by decide +kernel, by decide +kernel,
   by decide +kernel, ⟨{ officer with herd := { officer.herd with orders := [{ seq := 1, c := 65536, kind := .rules, ver := 1, armed := true }] } }, by decide +kernel⟩,
   by decide +kernel, by decide +kernel, by decide +kernel, by decide +kernel, ⟨{ folding with herd := { joinE := some 100 } }, by decide +kernel⟩,
   ⟨{ folding with herd := { joinE := some 101 } }, by decide +kernel⟩, by decide +kernel, by decide +kernel, ⟨{ mate with herd := { leaveAt := some 100 } }, by decide +kernel⟩,
   ⟨{ mate with herd := { leaveAt := some 101 } }, by decide +kernel⟩, ⟨{ mate with herd := { lostBeats := 16 } }, by decide +kernel⟩, by decide +kernel, by decide +kernel,
   by decide +kernel⟩

/-- A digest of 33 bytes is none. -/
theorem witness_ReadyDigest : officer.vDigest = officer.vDigest ∧ zeros 33 ≠ officer.vDigest :=
  ⟨rfl, fun h => absurd (congrArg List.length h) (by simp [State.vDigest, zeros]; omega)⟩

/-- Member 0 of a row of five, beside member 1, with the bellwether 2 behind it. -/
def lined : State := { (mate.wr Reg.HERD.NX 5).wr Reg.HERD.BW_ID 2 with herd := { mate.herd with members := [0, 1, 2] } }
/-- Voting, with candidate 1 of priority 9 the best, T0 at beat t. -/
def voting (t : Nat) : State := { mate.wr Reg.HERD.ELECTING 1 with herd := { mate.herd with t0 := some t, best := some (9, 1) } }

theorem witness_ElectionCommands :
    (∃ s : State, s.electionDue = true) ∧ officer.electionDue = false ∧
    (∃ s : State, 2 ≤ s.herdState ∧ s.rd Reg.HLINK.PEER_ID 0 ∈ s.herd.members ∧ s.rd Reg.HLINK.PEER_ID 0 ≠ s.ownId ∧
      (s.hl.get 0).lastMarker.getD 0 + s.act Reg.HERD.DETECT_BEATS ≤ s.time.beat ∧ (s.hl.get (pairPort 0)).lastMarker.getD 0 + s.act Reg.HERD.DETECT_BEATS ≤ s.time.beat ∧
      s.isBw = false ∧
      s.rd Reg.HLINK.PEER_ID 0 ≠ s.bwId ∧ s.outPort s.bwId = some 0) ∧
    (∃ s : State, 2 ≤ s.herdState ∧ s.rd Reg.HLINK.PEER_ID 0 ∈ s.herd.members ∧ s.rd Reg.HLINK.PEER_ID 0 ≠ s.ownId ∧
      (s.hl.get 0).lastMarker.getD 0 + s.act Reg.HERD.DETECT_BEATS ≤ s.time.beat ∧ (s.hl.get (pairPort 0)).lastMarker.getD 0 + s.act Reg.HERD.DETECT_BEATS ≤ s.time.beat ∧
      s.isBw = false ∧ s.rd Reg.HLINK.PEER_ID 0 = s.bwId ∧ s.herd.bwGone = false) ∧
    (mate.hlUp 0 = true ∧ mate.herdState ≠ 0 ∧ mate.isBw = false ∧ mate.electing = false ∧ (1 : BitVec 8) ≠ 0) ∧
    ((voting 0).electing = true ∧ (voting 0).time.beat ≤ (voting 0).herd.t0.getD 0 + 255 ∧ (∀ c, (voting 0).herd.best = some c → betterCand (9, 2) c = false)) ∧ betterCand (10, 2) (9, 1) = true ∧ betterCand (9, 0) (9, 1) = true ∧
    (∃ s : State, s.hlUp 0 = true ∧ s.herdState ≠ 0 ∧ s.isBw = false ∧ s.electing = true ∧ s.herd.t0 = some 0 ∧ 0 + 255 < s.time.beat) ∧
    (∃ s : State, s.herd.t0 = some 0 ∧ s.herd.best = some (9, 1) ∧ s.electing = true ∧ s.time.beat = 0 + 256 ∧ 1 ≠ s.ownId ∧ s.outPort 1 = some 0) ∧
    ((voting 0).herd.t0 = some 0 ∧ (voting 0).time.beat ≠ 0 + 256 ∧ toUs.dest.val = (voting 0).ownId ∧ (∀ v ∈ (voting 0).herd.votes, v.1 ≠ toUs.src.val)) ∧
    (∃ s : State, ∃ v ∈ s.herd.votes, v.1 = toUs.src.val) ∧
    (∃ s : State, s.herd.t0 = some 0 ∧ s.electing = true ∧ 0 + 512 ≤ s.time.beat ∧ s.herd.winner = none ∧ s.quorumBase < 2 * s.herd.votes.length) ∧
    (∃ s : State, s.herd.t0 = some 0 ∧ s.electing = true ∧ 0 + 512 ≤ s.time.beat ∧ s.herd.winner = none ∧ s.act Reg.HERD.NO_QUORUM = 1 ∧ s.rd Reg.HERD.BW_PRIO ≠ 0) ∧
    (2 * mate.herd.votes.length ≤ mate.quorumBase ∧ mate.act Reg.HERD.NO_QUORUM = 0) ∧
    (∃ s : State, s.herd.winner = some (s.ownId, 100) ∧ s.electing = true ∧ 100 ≤ s.time.beat ∧ s.herdState = 1) ∧
    (∃ s : State, s.herd.winner = some (s.ownId, 101) ∧ s.time.beat < 101 ∧ s.herdState ≠ 1) ∧
    (∃ s : State, s.herd.t0 = some 0 ∧ s.electing = true ∧ 0 + 4096 ≤ s.time.beat ∧ 2 ≤ s.herdState) ∧ ((voting 0).herd.t0 = some 0 ∧ (voting 0).time.beat < 0 + 4096) :=
  ⟨⟨{ port0 1 4 with time := { started := true, beat := 256 } }, by decide +kernel⟩, by decide +kernel,
   ⟨{ lined with time := { started := true, beat := 70000 } }, by decide +kernel⟩,
   ⟨{ mate.wr Reg.HERD.BW_ID 1 with time := { started := true, beat := 70000 } }, by decide +kernel⟩, by decide +kernel,
   ⟨by decide +kernel, by decide +kernel, by rintro c ⟨⟩; decide⟩, by decide, by decide, ⟨{ voting 0 with time := { started := true, beat := 256 } }, by decide +kernel⟩,
   ⟨{ voting 0 with time := { started := true, beat := 256 } }, by decide +kernel⟩, by decide +kernel,
   ⟨{ voting 0 with herd := { votes := [(1, 0)] } }, by decide +kernel⟩,
   ⟨{ mate.wr Reg.HERD.ELECTING 1 with herd := { t0 := some 0, quorum := 2, votes := [(0, 0), (1, 0)] }, time := { beat := 512 } }, by decide +kernel⟩,
   ⟨{ ((mate.wr Reg.HERD.ELECTING 1).wrNow Reg.HERD.NO_QUORUM 1).wr Reg.HERD.BW_PRIO 1 with herd := { t0 := some 0 }, time := { beat := 512 } }, by decide +kernel⟩, by decide +kernel,
   ⟨{ folding.wr Reg.HERD.ELECTING 1 with herd := { winner := some (0, 100) } }, by decide +kernel⟩, ⟨{ mate with herd := { winner := some (0, 101) } }, by decide +kernel⟩,
   ⟨{ voting 0 with time := { beat := 4096 } }, by decide +kernel⟩, by decide +kernel⟩

/-- A staged aggregate version 2 in context 4095. -/
def armable : State := { mate with ctxs := [(4095, { st := .staged, kind := 3, v1 := some { ver := 2, kind := 3 } })] }

theorem witness_HerdCommitCommands :
    (officer.hlUp 0 = true ∧ toUs.dest.val = officer.ownId ∧ officer.isBw = true ∧ officer.electing = false ∧ officer.herdState = 2 ∧ toUs.src.val ∈ officer.herd.members ∧
      officer.herd.orders = [] ∧ officer.outPort 1 = some 0 ∧ 1 ≠ officer.ownId) ∧ mate.isBw = false ∧
    (armable.herdState = 2 ∧ armable.herd.orders = [] ∧ armable.time.beat ≤ 65536 ∧ armable.canArm (.context 4095) 2 65536 = true ∧ armable.hlUp 0 = true) ∧
    (∃ s : State, s.herdState = 2 ∧ s.hlUp 0 = true ∧ s.herd.orders = [] ∧ s.time.beat ≤ 65536 ∧ s.canArm .rules 7 65536 = true) ∧
    (mate.herd.leaveAt = none ∧ mate.canArm .rules 7 65536 = false) ∧ ((herdIn 0).wr Reg.HLINK.LINK_STATE 4 0).herdState = 0 ∧ (∃ s : State, ∃ o ∈ s.herd.orders, o.seq = (0xFFFFFFFF#32).toNat) ∧
    ((0#32).toNat = officer.herd.nextSeq ∧ ((0#32).toNat, toUs.src.val) ∉ officer.herd.nackers) :=
  ⟨by decide +kernel, by decide +kernel, by decide +kernel,
   ⟨(mate.wr Reg.TCAM.STAGED_VER 7).wr Reg.TCAM.COMMIT_STATE 1, by decide +kernel⟩, by decide +kernel, by decide +kernel,
   ⟨{ running with herd := { orders := [{ seq := 4294967295, c := 65536, kind := .rules, ver := 1, armed := true }] } }, by decide +kernel⟩, by decide +kernel⟩

/-- Reduction r runs in window 16384 on a herd of one. -/
def reducing (r b : Nat) : State := { running.wrNow Reg.HERD.RED_EN 1 0 r with time := { started := true, beat := b } }
/-- Member 1 of a row of three, between member 2 and the root 0. -/
def midway : State :=
  { (((reducing 3 16392).wr Reg.HERD.NX 5).wr Reg.HERD.COORD_X 1).wr Reg.HERD.STATE 2 with herd := { members := [0, 1, 2] } }
def reducedMate : State := mate.wrNow Reg.HERD.RED_EN 1 0 3
/-- A token that permits a herd stop. -/
def stopper (s : State) : State := { s with auth := { s.auth with token := some { perms := 2, expiry := 200 } } }

theorem witness_ReductionAndStopCommands :
    running.act Reg.HERD.RED_EN 0 3 = 0 ∧ running.time.beat % 16384 ≠ 8 ∧
    (∃ s : State, s.isMember = false ∧ s.act Reg.HERD.RED_EN 0 3 = 1 ∧ 16384 ≤ s.time.beat ∧ s.time.beat % 16384 = 8 ∧
      (s.redFor 3 (s.time.beat / 16384 * 16384)).started = false ∧ (s.redFor 3 (s.time.beat / 16384 * 16384)).have_ = false ∧ s.herd.stopped = true) ∧
    (midway.isMember = true ∧ midway.act Reg.HERD.RED_EN 0 3 = 1 ∧ midway.time.beat % 16384 = 8 ∧ midway.herd.stopped = false ∧
      (midway.redFor 3 (midway.time.beat / 16384 * 16384)) = { window := midway.time.beat / 16384 * 16384, acc := List.replicate (midway.redLen 3) 0 } ∧
      midway.act Reg.HERD.RED_OP 0 3 = 0 ∧ midway.hbmUe (midway.act Reg.HERD.RED_SRC 0 3) (8 * midway.redLen 3) = none ∧
      midway.ownId ∈ midway.contributors (midway.time.beat / 16384 * 16384) ∧ (midway.contributors (midway.time.beat / 16384 * 16384)).headD midway.ownId = 0 ∧
      0 ≠ midway.ownId ∧ 1 < midway.redBelow (midway.contributors (midway.time.beat / 16384 * 16384)) 0) ∧
    (reducedMate.hlUp 0 = true ∧ reducedMate.herd.cut = false ∧ toUs.dest.val = reducedMate.ownId ∧ reducedMate.herd.stopped = false ∧ reducedMate.act Reg.HERD.RED_EN 0 3 = 1 ∧
      reducedMate.ownId ∈ reducedMate.contributors 16384 ∧ 0 + [(7 : Int)].length ≤ reducedMate.redLen 3 ∧ (reducedMate.redFor 3 16384).have_ = false ∧
      (reducedMate.redFor 3 16384).started = false) ∧
    ([(7 : Int)].length = reducedMate.redLen 3 ∧ (reducedMate.redFor 3 16384).acc.length = [(7 : Int)].length ∧
      (linesOf (reducedMate.act Reg.HERD.RED_DST 0 3) (16 * [(7 : Int)].length + 64)).any reducedMate.lineProtected = false ∧ reducedMate.cycLate = []) ∧ (reducing 3 16447).time.beat % 16384 < 64 ∧
    ((reducing 3 16448).isMember = false ∧ (reducing 3 16448).act Reg.HERD.RED_EN 0 3 = 1 ∧ 64 ≤ (reducing 3 16448).time.beat % 16384 ∧
      ((reducing 3 16448).redFor 3 ((reducing 3 16448).time.beat / 16384 * 16384)).have_ = false ∧ (reducing 3 16448).herd.stopped = false) ∧ (running.Takes .bar0 ∧ running.auth.token = none) ∧
    (∃ (s : State) (k : Token), s.Takes .bar0 ∧ s.auth.token = some k ∧ bits k.perms 1 1 = 1 ∧ s.isBw = true ∧ s.electing = false ∧ s.herdState = 2 ∧
      s.ownId ∈ s.herd.members ∧ s.rd Reg.HERD.STOP_STATE = 0 ∧ s.time.beat + 1024 ≤ s.rd Reg.HERD.STOP_BEAT) ∧
    (∃ (s : State) (k : Token), s.Takes .bar0 ∧ s.auth.token = some k ∧ bits k.perms 1 1 = 1 ∧ s.isBw = true ∧ s.electing = false ∧ s.herdState = 2 ∧
      s.ownId ∈ s.herd.members ∧ s.rd Reg.HERD.STOP_STATE = 2 ∧ s.time.beat + 1024 ≤ s.rd Reg.HERD.RESUME_BEAT) ∧
    (mate.hlUp 0 = true ∧ toUs.dest.val = mate.ownId ∧ 2 ≤ mate.herdState) ∧ (∃ s : State, s.herd.stopAt = some 100 ∧ s.rd Reg.HERD.STOP_STATE = 1 ∧ 100 ≤ s.time.beat) ∧
    (∃ s : State, s.herd.stopAt = some 101 ∧ s.time.beat < 101) ∧ (∃ s : State, s.herd.stopAt = some 99 ∧ s.herd.stopped = true ∧ 99 + 1 ≤ s.time.beat) ∧
    (∃ s : State, s.herd.resumeAt = some 100 ∧ s.rd Reg.HERD.STOP_STATE = 3 ∧ 100 ≤ s.time.beat) ∧ (∃ s : State, s.herd.resumeAt = some 101 ∧ s.time.beat < 101) ∧
    expert.TakesExpert .bar0 :=
  ⟨by decide +kernel, by decide +kernel, ⟨cutOff (reducing 3 16392), by decide +kernel⟩, by decide +kernel, by decide +kernel, by decide +kernel, by decide +kernel,
   by decide +kernel, by decide +kernel, ⟨stopper (officer.wr Reg.HERD.STOP_BEAT 1124), { perms := 2, expiry := 200 }, by decide +kernel⟩,
   ⟨stopper ((officer.wr Reg.HERD.STOP_STATE 2).wr Reg.HERD.RESUME_BEAT 1124), { perms := 2, expiry := 200 }, by decide +kernel⟩, by decide +kernel,
   ⟨{ mate.wr Reg.HERD.STOP_STATE 1 with herd := { stopAt := some 100 } }, by decide +kernel⟩, ⟨{ mate with herd := { stopAt := some 101 } }, by decide +kernel⟩,
   ⟨{ mate with herd := { stopAt := some 99, stopped := true } }, by decide +kernel⟩,
   ⟨{ mate.wr Reg.HERD.STOP_STATE 3 with herd := { resumeAt := some 100 } }, by decide +kernel⟩, ⟨{ mate with herd := { resumeAt := some 101 } }, by decide +kernel⟩,
   by decide +kernel⟩

/-- Host-bound queue 7 in device memory, enabled. -/
def ringed : State := (((running.wrNow Reg.HQ.EN 1 0 7).wrNow Reg.HQ.TAG_BASE 0x40000 0 7).wr Reg.HQ.PROD 5 0 7).wr Reg.HQ.CONS 3 0 7
def item7 : HqItem := { q := 7, bytes := [1, 2, 3] }

theorem witness_HostQueueCommands :
    (ringed.devSafe = false ∧ ringed.hqOff 7 = false ∧ ringed.act Reg.HQ.LOC 0 7 = 0 ∧ ringed.rd Reg.HQ.PROD 0 7 - ringed.consSeen 7 ≠ ringed.hqSlots 7 ∧ ringed.cycLate = [] ∧
      item7.bytes.length ≤ ringed.rd Reg.HQ.SLOT_BYTES 0 7) ∧
    (∃ a b : Nat, a = ringed.act Reg.HQ.RING_BASE 0 7 + ringed.rd Reg.HQ.PROD 0 7 % ringed.hqSlots 7 * ringed.rd Reg.HQ.SLOT_BYTES 0 7 ∧
      b = ringed.act Reg.HQ.TAG_BASE 0 7 + ringed.rd Reg.HQ.PROD 0 7 % ringed.hqSlots 7 * 8 ∧ (a + item7.bytes.length ≤ b ∨ b + 8 ≤ a) ∧
      (linesOf a item7.bytes.length ++ linesOf b 8).any ringed.lineProtected = false) ∧
    (running.hqOff 6 = true ∧ running.consSeen 6 = running.rd Reg.HQ.CONS 0 6) ∧
    (∃ s : State, s.devSafe = false ∧ s.hqOff 7 = false ∧ s.rd Reg.HQ.PROD 0 7 - s.consSeen 7 = s.hqSlots 7 ∧ bits (s.act Reg.HQ.DROP_NEW) 7 1 = 1) ∧
    (∃ s : State, s.devSafe = false ∧ s.hqOff 7 = false ∧ s.rd Reg.HQ.PROD 0 7 - s.consSeen 7 = s.hqSlots 7 ∧ bits (s.act Reg.HQ.DROP_NEW) 7 1 = 0 ∧ s.consSeen 7 = s.rd Reg.HQ.CONS 0 7) ∧
    (∃ s : State, s.devSafe = true ∧ item7.q.val ≠ 6) ∧ (∃ s : State, s.Takes .bar0 ∧ s.hqFits 6 = true ∧ s.rd Reg.HQ.EN 0 6 = 0) ∧
    (∃ s : State, s.Takes .bar0 ∧ s.hqFits 7 = false) ∧
    (ringed.Takes .bar0 ∧ ringed.rd Reg.HQ.CONS 0 7 ≤ (5#64).toNat ∧ (5#64).toNat ≤ ringed.rd Reg.HQ.PROD 0 7 ∧ ringed.rd Reg.HQ.PROD 0 7 - ringed.consSeen 7 < ringed.hqSlots 7 ∧
      (2#64).toNat < ringed.rd Reg.HQ.CONS 0 7 ∧ ringed.rd Reg.HQ.PROD 0 7 < (6#64).toNat) ∧
    (∃ s : State, s.consSeen 7 < s.rd Reg.HQ.PROD 0 7 ∧ s.act Reg.HQ.IRQ_EN 0 7 = 1 ∧ (s.hq.get 7).irqBeat + s.act Reg.HQ.IRQ_BEATS 0 7 ≤ s.time.beat ∧
      s.rd Reg.CXL.LINK_UP = 1 ∧ s.host.lost = false) ∧ running.rd Reg.HQ.PROD 0 7 ≤ running.consSeen 7 ∧
    ((1#64).toNat ≤ running.rd Reg.HQ.INJ_CONS + 2 ^ running.rd Reg.HQ.INJ_LOG2 ∧ running.rd Reg.HQ.INJ_CONS + 2 ^ running.rd Reg.HQ.INJ_LOG2 < (0x10000000000#64).toNat) ∧
    running.rd Reg.HQ.INJ_PROD ≤ running.rd Reg.HQ.INJ_CONS ∧
    (∃ s : State, s.hostMemOff = true) ∧ running.hostMemOff = false ∧ expert.TakesExpert .bar0 ∧ (expert.wr Reg.POLICE.POL_SEL 4095).rd Reg.POLICE.POL_SEL ≠ 0 :=
  ⟨by decide +kernel, ⟨_, _, rfl, rfl, by decide +kernel⟩, by decide +kernel,
   ⟨(ringed.wr Reg.HQ.PROD (3 + ringed.hqSlots 7) 0 7).wrNow Reg.HQ.DROP_NEW 128, by decide +kernel⟩, ⟨ringed.wr Reg.HQ.PROD (3 + ringed.hqSlots 7) 0 7, by decide +kernel⟩,
   ⟨{ ringed with devSafe := true }, by decide +kernel⟩, ⟨(running.wrNow Reg.HQ.RING_BASE 790273982464 0 6).wrNow Reg.HQ.TAG_BASE (790273982464 + 2 ^ 30) 0 6, by decide +kernel⟩, ⟨running, by decide +kernel⟩, by decide +kernel,
   ⟨{ (ringed.wrNow Reg.HQ.IRQ_EN 1 0 7).wr Reg.CXL.LINK_UP 1 with time := { started := true, beat := 2 ^ 40 } }, by decide +kernel⟩, by decide +kernel, by decide +kernel,
   by decide +kernel, ⟨{ running with host := { ideIo := .insecure } }, by decide +kernel⟩, by decide +kernel, by decide +kernel, by decide +kernel⟩

/-- Injection runs on port 0 from a ring in device memory whose first descriptor holds the bytes. -/
def injecting (d : List Byte) : State :=
  let s := ((linked.wr Reg.PORT.PAIR_ERR_S0 0).wrNow Reg.HQ.INJ_EN 1).wrNow Reg.HQ.INJ_PROD 1
  { s with hbm := Mem.writeN [] 0 d }
/-- A descriptor of 60 bytes at an address, with its flags byte. -/
def injBytes (flags : Nat) : List Byte := leBytes 8 4096 ++ leBytes 2 60 ++ [0, BitVec.ofNat 8 flags]

theorem witness_HostQueueCommands_descriptor :
    ((injecting []).Runs ∧ (injecting []).devSafe = false ∧ (injecting []).act Reg.HQ.INJ_EN = 1 ∧ (injecting []).rd Reg.HQ.INJ_CONS < (injecting []).rd Reg.HQ.INJ_PROD ∧
      (injecting []).act Reg.HQ.INJ_LOC = 0) ∧
    (let s := injecting []; let d := injDesc (Mem.readN s.hbm (s.act Reg.HQ.INJ_BASE + 32 * (s.rd Reg.HQ.INJ_CONS % 2 ^ s.act Reg.HQ.INJ_LOG2)) 32)
      s.injBad d (s.locRead d.dloc d.addr d.len) = true) ∧
    (let s := injecting (injBytes 1); let d := injDesc (Mem.readN s.hbm (s.act Reg.HQ.INJ_BASE + 32 * (s.rd Reg.HQ.INJ_CONS % 2 ^ s.act Reg.HQ.INJ_LOG2)) 32)
      s.injBad d (s.locRead d.dloc d.addr d.len) = false ∧ 73 ≤ s.freeCells ∧ d.mode = 1 ∧ s.Runs) ∧
    (let s := injecting (injBytes 0); let d := injDesc (Mem.readN s.hbm (s.act Reg.HQ.INJ_BASE + 32 * (s.rd Reg.HQ.INJ_CONS % 2 ^ s.act Reg.HQ.INJ_LOG2)) 32)
      s.injBad d (s.locRead d.dloc d.addr d.len) = false ∧ 73 ≤ s.freeCells ∧ d.mode ≠ 1 ∧ s.injLaneFor d.port = some 0 ∧ s.Runs ∧ s.devSafe = false ∧ s.act Reg.HQ.INJ_EN = 1) ∧
    (∃ s : State, s.freeCells < 73 ∧ s.Runs ∧ s.act Reg.HQ.INJ_EN = 1) :=
  ⟨by decide +kernel, by decide +kernel, by decide +kernel, by decide +kernel, ⟨(injecting (injBytes 0)).wr Reg.HOLD.ALLOC 524216, by decide +kernel⟩⟩

/-- The host link is up, in CXL mode, with the decoder committed. -/
def hosted : State := { (running.wr Reg.CXL.LINK_UP 1).wr Reg.CXL.CXL_MODE 1 with host := { running.host with hdm := true } }
/-- In a herd of two, aperture 15 leads to member 1. -/
def reaching : State :=
  { (((mate.wr Reg.CXL.LINK_UP 1).wr Reg.CXL.CXL_MODE 1).wrNow Reg.HERD.APT_HMAX 1 0 15).wrNow Reg.HERD.APT_MEMBER 1 0 15 with host := { hdm := true } }
/-- First address of aperture 15, and of regions 2, 3 and 0. -/
def apt15 : Nat := 0xC000000000 + 15 * 2 ^ 34

theorem witness_HostAccessCommands :
    2 ^ 40 < 2 ^ 40 - 1 + 2 ∧ 2 ^ 40 < 2 ^ 40 + [1#8].length ∧ (2 ^ 40 - 1 + 1 ≤ 2 ^ 40 ∧ running.hostReach (2 ^ 40 - 1) 1 = false) ∧
    (hosted.hostReach 0 64 = true ∧ apertureOf 0 = none ∧ hosted.hbmUe 0 64 = none ∧ (∀ k < 64, (hosted.regionOf (0 + k)).isSome = true) ∧ hosted.cycOld = []) ∧
    (∃ s : State, s.hostReach 0 64 = true ∧ s.hbmUe 0 64 = some 0) ∧
    (apt15 + 1 ≤ 2 ^ 40 ∧ reaching.hostReach apt15 1 = true ∧ apertureOf apt15 = some 15 ∧ reaching.aptOk 15 = true ∧ [7#8].length = 1) ∧
    (hosted.hostReach apt15 1 = true ∧ hosted.aptOk 15 = false) ∧
    (apertureOf (618475290624 + 62) = none ∧ hosted.hostReach (618475290624 + 62) 4 = true ∧ ∀ p ∈ pieces (618475290624 + 62) [1#8, 2, 3, 4], hosted.hostLine p.1 p.2.length = 0) ∧ hosted.cycLate = [] ∧
    (∀ p ∈ pieces 0 [1#8, 2, 3, 4], hosted.hostLine p.1 p.2.length = 1) ∧
    (∃ s : State, s.hostReach 412316860416 1 = true ∧ ∀ p ∈ pieces 412316860416 [1#8], s.hostLine p.1 p.2.length = 2) :=
  ⟨by decide +kernel, by decide +kernel, by decide +kernel, by decide +kernel, ⟨{ hosted with flt := { hbmBad := [0] } }, by decide +kernel⟩, by decide +kernel, by decide +kernel,
   by decide +kernel, by decide +kernel, by decide +kernel, ⟨{ hosted with ctxs := [(0, { st := .active, kind := 1, v0 := some { ver := 1, len := 64, protect := true } })] }, by decide +kernel⟩⟩

/-- One job descriptor of zeros is posted. -/
def jobbed : State := (running.wrNow Reg.CXL.JOB_EN 1).wrNow Reg.CXL.JOB_PROD 1
/-- Context 0 runs host jobs of version 6, and one descriptor of 64 input bytes and no output waits. -/
def jobReady : State :=
  { jobbed with hbm := Mem.writeN [] 8 (leBytes 8 618475290624 ++ leBytes 8 64 ++ leBytes 8 618475290624), ctxs := [(0, { st := .active, kind := 6, v0 := some { ver := 6, kind := 6 } })] }

theorem witness_HostLinkCommands :
    (running.rd Reg.CXL.LINK_UP = 0 ∧ running.host.perst = false) ∧ hosted.rd Reg.CXL.LINK_UP = 1 ∧ (hosted.rd Reg.CXL.CXL_MODE = 1 ∧ running.rd Reg.CXL.CXL_MODE = 0) ∧
    (hosted.Runs ∧ hosted.host.lost = false) ∧ ready.time.started = false ∧
    (∃ s : State, s.host.lost = true ∧ s.rd Reg.CXL.LINK_UP = 1 ∧ (s.rd Reg.CXL.CXL_MODE = 0 ∨ s.host.hdm = true)) ∧
    (∃ s : State, s.host.ideIo = .secure ∧ s.host.ideMem = .secure) ∧ (∃ s : State, s.host.sessions ≠ [] ∧ s.rd Reg.CXL.LINK_UP = 1) ∧ hosted.pagesOpen = true ∧
    (∃ s : State, s.rd Reg.CXL.LINK_UP = 1 ∧ s.pagesOpen = false) ∧
    (∃ s : State, (s.host.msix.get 2047).pending = true ∧ (s.host.msix.get 2047).sentBeat ≠ some s.time.beat ∧ s.rd Reg.CXL.LINK_UP = 1 ∧ s.host.lost = false ∧ s.host.ideIo ≠ .insecure ∧
      (s.host.msix.get 2047).unmasked = true) ∧
    (∃ s : State, (s.host.msix.get 0).pending = true ∧ (s.host.msix.get 0).sentBeat ≠ some s.time.beat ∧ s.rd Reg.CXL.LINK_UP = 1 ∧ s.host.lost = false ∧ s.host.ideIo ≠ .insecure ∧
      (s.host.msix.get 0).unmasked = false) ∧
    (running.Takes .bar0 ∧ (1#64).toNat ≤ running.rd Reg.CXL.JOB_DONE + 2 ^ running.rd Reg.CXL.JOB_LOG2 ∧ running.rd Reg.CXL.JOB_DONE + 2 ^ running.rd Reg.CXL.JOB_LOG2 < (0x1000000#64).toNat) ∧
    running.rd Reg.CXL.JOB_PROD ≤ running.rd Reg.CXL.JOB_CONS ∧
    (jobbed.Runs ∧ jobbed.act Reg.CXL.JOB_EN = 1 ∧ jobbed.rd Reg.CXL.JOB_CONS < jobbed.rd Reg.CXL.JOB_PROD ∧ jobbed.devSafe = false ∧ jobbed.herd.stopped = false ∧
      jobbed.host.jobs.get (leAt (Mem.readN jobbed.hbm (jobbed.jobAddr (jobbed.rd Reg.CXL.JOB_CONS)) 64) 0 2 % 4096) = none ∧
      jobbed.jobRefusal (Mem.readN jobbed.hbm (jobbed.jobAddr (jobbed.rd Reg.CXL.JOB_CONS)) 64) ≠ 0 ∧
      (linesOf (jobbed.jobAddr (jobbed.rd Reg.CXL.JOB_CONS)) 64).any jobbed.lineProtected = false ∧ jobbed.cycLate = []) ∧
    running.host.jobs.get 4095 = none ∧
    (∃ (s : State) (j : JobRun), s.host.jobs.get 4095 = some j ∧ j.status = 0 ∧ (linesOf (s.jobAddr j.idx) 64).any s.lineProtected = false ∧ s.cycLate = []) ∧
    (∃ (s : State) (j : JobRun), s.host.jobs.get 4095 = some j ∧ j.status = 10 ∧ (linesOf (s.jobAddr j.idx) 64).any s.lineProtected = false ∧ s.cycLate = []) :=
  ⟨by decide +kernel, by decide +kernel, by decide +kernel, by decide +kernel, by decide +kernel, ⟨{ hosted with host := { lost := true, hdm := true } }, by decide +kernel⟩,
   ⟨{ hosted with host := { ideIo := .secure, ideMem := .secure } }, by decide +kernel⟩, ⟨{ hosted with host := { sessions := [1] } }, by decide +kernel⟩, by decide +kernel,
   ⟨State.reset.wr Reg.CXL.LINK_UP 1, by decide +kernel⟩, ⟨{ hosted with host := { msix := [(2047, { unmasked := true, pending := true })] } }, by decide +kernel⟩,
   ⟨{ hosted with host := { msix := [(0, { unmasked := false, pending := true, sentBeat := some 99 })] } }, by decide +kernel⟩, by decide +kernel, by decide +kernel, by decide +kernel,
   by decide +kernel, ⟨{ jobbed with host := { jobs := [(4095, some { idx := 0, mv := 6, vec := 0 })] } }, { idx := 0, mv := 6, vec := 0 }, by decide +kernel⟩,
   ⟨{ jobbed with host := { jobs := [(4095, some { idx := 0, mv := 6, vec := 0, status := 10 })] } }, { idx := 0, mv := 6, vec := 0, status := 10 }, by decide +kernel⟩⟩

/-- With an INVOKE section that asks for 64 input bytes and no output, the descriptor is accepted. The section's layout is not given (R288), so its
reading is an assumption. -/
theorem witness_HostLinkCommands_accepted (h : Config.invokeJob [] 0 = (0, 64, 0)) :
    jobReady.jobRefusal (Mem.readN jobReady.hbm (jobReady.jobAddr (jobReady.rd Reg.CXL.JOB_CONS)) 64) = 0 ∧ jobReady.Runs ∧ jobReady.act Reg.CXL.JOB_EN = 1 := by
  refine ⟨?_, by decide +kernel, by decide +kernel⟩
  have hd : Mem.readN jobReady.hbm (jobReady.jobAddr (jobReady.rd Reg.CXL.JOB_CONS)) 64 =
      zeros 8 ++ leBytes 8 618475290624 ++ leBytes 8 64 ++ leBytes 8 618475290624 ++ zeros 32 := by decide +kernel
  have hv : (jobReady.ctxs.get (leAt (zeros 8 ++ leBytes 8 618475290624 ++ leBytes 8 64 ++ leBytes 8 618475290624 ++ zeros 32) 0 2 % 4096)).active =
      some { ver := 6, kind := 6 } := by decide +kernel
  have hi : jobReady.invokeSect { ver := 6, kind := 6 } = [] := by decide +kernel
  have hn : leAt (zeros 8 ++ leBytes 8 618475290624 ++ leBytes 8 64 ++ leBytes 8 618475290624 ++ zeros 32) 4 4 = 0 := by decide +kernel
  unfold State.jobRefusal
  rw [hd]
  simp only [hv, hi, hn, h]
  decide +kernel

/-- Flock 255 withdrawn. -/
def flockOut : State := { running with flocks := [(255, { withdrawn := true })], flt := { dmc := [(131072 + 255, .withdrawn)] } }
/-- Lane 15 in pass mode. -/
def laneOut : State := { running with lanes := [(15, { pass := true })], flt := { dmc := [(65536 + 15, .withdrawn)] } }

theorem witness_FaultAndLedgerCommands :
    (stackOf (7 * 64) = (1 : Hbmc).val ∧ running.flt.wback.get 7 < running.time.beat) ∧ (∃ s : State, s.time.beat ≤ s.flt.wback.get 7) ∧ (stackOf (12884901887 * 64) < 32 ∧ running.flt.hbmBad.contains 12884901887 = false) ∧
    (∃ s : State, s.flt.hbmBad.contains 5 = true ∧ (s.ctxs.get 4095).st = .checking) ∧ 255 < instancesOf Blk.FLOCK ∧ running.Takes .sideband true ∧ breakUnits .credit ≤ 12 ∧
    (11 < breakUnits .credit ∧ (running.wrNow Reg.LEDG.NO_BREAK_ACT 1).act Reg.LEDG.NO_BREAK_ACT = 1 ∧ running.act Reg.LEDG.NO_BREAK_ACT = 0 ∧ running.devSafe = false) ∧
    (∀ u ∈ [Unit7.lane 15, .flock 255, .hport 11], running.viewsDiffer u = false) ∧
    (∃ (s : State) (u : Unit7), s.flt.dmc.keys = [Unit7.code u] ∧ s.flt.wd = [] ∧ s.lanes = [] ∧ s.flocks = [] ∧ s.viewsDiffer u = true ∧
      s.flt.disputed.contains (Unit7.code u) = false) ∧
    (running.isOut (.hport 11) = false ∧ running.flt.dmc.get (Unit7.code (.hport 11)) = .inService) ∧ flockOut.isOut (.flock 255) = true ∧
    (∃ s : State, s.devSafe = true) ∧ expert.TakesExpert .bar0 :=
  ⟨by decide +kernel, ⟨{ running with flt := { wback := [(7, 100)] } }, by decide +kernel⟩, by decide +kernel, ⟨{ running with ctxs := [(4095, { st := .checking })], flt := { hbmBad := [5] } }, by decide +kernel⟩, by decide +kernel, by decide +kernel, by decide +kernel, by decide +kernel,
   by decide +kernel, ⟨{ running with flt := { dmc := [(7 * 65536 + 11, .withdrawn)] } }, .hport 11, by decide +kernel⟩, by decide +kernel, by decide +kernel,
   ⟨{ running with devSafe := true }, rfl⟩, by decide +kernel⟩

theorem witness_RetestAndRehashCommands :
    (∃ s : State, s.Takes .bar0 ∧ unitOf (s.rd Reg.LEDG.RETEST_KIND) (s.rd Reg.LEDG.RETEST_UNIT) = some (.flock 255) ∧ s.rd Reg.LEDG.RETEST_STATE ≠ 1 ∧ s.isOut (.flock 255) = true) ∧
    (∃ s : State, s.Takes .bar0 ∧ s.rd Reg.LEDG.RETEST_STATE = 1) ∧ unitOf (running.rd Reg.LEDG.RETEST_KIND) (running.rd Reg.LEDG.RETEST_UNIT) = none ∧
    (∃ s : State, s.flt.retest = some (Unit7.code (.hport 11))) ∧ running.flt.retest = none ∧
    (laneOut.Takes .bar0 ∧ laneOut.rd Reg.LEDG.RST_STATE ≠ 1 ∧ (laneOut.lanes.get 15).pass = true) ∧ (running.lanes.get 15).pass = false ∧
    (∃ s : State, s.flt.rst = some (1, 15) ∧ (s.lanes.get 15).resetting = true ∧ (s.lanes.get 15).resident = 0) ∧ (∃ s : State, s.flt.rst = some (1, 15) ∧ (s.lanes.get 15).resident ≠ 0) ∧
    (flockOut.Takes .bar0 ∧ flockOut.rd Reg.LEDG.RST_STATE ≠ 1 ∧ (flockOut.flocks.get 255).withdrawn = true ∧ flockOut.flt.disputed.contains (131072 + 255) = false) ∧
    (running.flocks.get 255).withdrawn = false ∧ running.rd Reg.FLOW.REHASH_RUN = 0 ∧ (∃ s : State, s.Takes .bar0 ∧ s.rd Reg.FLOW.REHASH_RUN = 1) ∧
    (∃ s : State, s.rd Reg.FLOW.REHASH_RUN = 1 ∧ s.flow.rehashAt ≤ s.time.beat ∧ s.herd.cut = false ∧ s.rd Reg.FLOW.REHASH_STEP < 524287) ∧
    (∃ s : State, s.rd Reg.FLOW.REHASH_RUN = 1 ∧ s.flow.rehashAt ≤ s.time.beat ∧ s.herd.cut = false ∧ s.rd Reg.FLOW.REHASH_STEP = 524287) ∧
    running.time.beat % 2 ^ 33 ≠ 0 ∧ (2 ^ 33) % 2 ^ 33 = 0 :=
  ⟨⟨(flockOut.wr Reg.LEDG.RETEST_KIND 2).wr Reg.LEDG.RETEST_UNIT 255, by decide +kernel⟩, ⟨running.wr Reg.LEDG.RETEST_STATE 1, by decide +kernel⟩, by decide +kernel,
   ⟨{ running with flt := { retest := some (7 * 65536 + 11) } }, by decide +kernel⟩, by decide +kernel, by decide +kernel, by decide +kernel,
   ⟨{ running with flt := { rst := some (1, 15) }, lanes := [(15, { pass := true, resetting := true })] }, by decide +kernel⟩,
   ⟨{ running with flt := { rst := some (1, 15) }, lanes := [(15, { pass := true, resetting := true, resident := 1 })] }, by decide +kernel⟩, by decide +kernel, by decide +kernel,
   by decide +kernel, ⟨running.wr Reg.FLOW.REHASH_RUN 1, by decide +kernel⟩, ⟨running.wr Reg.FLOW.REHASH_RUN 1, by decide +kernel⟩,
   ⟨(running.wr Reg.FLOW.REHASH_RUN 1).wr Reg.FLOW.REHASH_STEP 524287, by decide +kernel⟩, by decide +kernel, by decide +kernel⟩

/-- A requested reset, taken at beat b; cold when the flag is set. -/
def asked (cold : Bool) (b : Nat) : State := { running with sec := { running.sec with reqReset := some cold, reqBeat := b } }
/-- After a warm reset in stage READY. -/
def warmed (reval : Bool) : State := { ready with sec := { ready.sec with warm := true, reval := reval } }

theorem witness_ResetCommands :
    (running.sec.pwrGood = true ∧ running.sec.resetN = true) ∧ State.reset.sec.pwrGood = false ∧ (∃ s : State, s.sec.resetN = false) ∧
    (running.mayWrite .sideband true = true ∧ (0 : BitVec 16) ≠ 0x5253#16 ∧ running.Runs ∧ running.sec.reqReset = none ∧ (asked true 99).sec.reqReset ≠ none) ∧
    (ready.mayWrite .sideband true = true ∧ ready.time.started = false ∧ ready.sec.reqReset = none) ∧
    ((asked false 99).sec.reqReset = some false ∧ (asked false 99).Runs ∧ (asked false 99).sec.reqBeat < (asked false 99).time.beat) ∧
    (asked false 100).time.beat ≤ (asked false 100).sec.reqBeat ∧ ((warmed false).sec.warm = true ∧ (warmed false).sec.reval = false ∧ (warmed false).rd Reg.DEV.STAGE = 4) ∧
    ready.sec.warm = false ∧ ((warmed true).sec.warm = true ∧ (warmed true).sec.reval = true) ∧ State.reset.rd Reg.DEV.RESET_CAUSE = 0 :=
  ⟨by decide +kernel, by decide +kernel, ⟨{ running with sec := { resetN := false } }, rfl⟩, by decide +kernel, by decide +kernel, by decide +kernel, by decide +kernel,
   by decide +kernel, by decide +kernel, by decide +kernel, by decide +kernel⟩

/-- A boot in progress, in a stage, from the sideband. -/
def booting (stage : Nat) : State := { State.reset.wr Reg.DEV.STAGE stage with sec := { pwrGood := true, booting := true, bootSrc := 2, recovery := some [1] } }
/-- A firmware image of 4,096 bytes with key 0 and SVN 0. -/
def firmware : List Byte := leBytes 4 0x5A46574D ++ leBytes 2 1 ++ zeros 2 ++ leBytes 4 4096 ++ zeros 4084

/-- What the digests and signatures must answer for an image, a ledger message or a token to pass. They are open (Config), so the witnesses of the
clauses that need a signature to hold rest on it. -/
structure Signs : Prop where
  digest : ∀ b, Config.sha384 b = zeros 48
  rom : ∀ k, Config.romKeyDigest k = zeros 48
  ec : ∀ k d g, Config.ecdsaVerify k d g = true
  lms : ∀ k d g, Config.lmsVerify k d g = true
  serial : Config.serial = 0

/-- The image passes where the signatures hold. -/
theorem firmware_passes (h : Signs) (s : State) (hs : s.sec.slots = []) : s.fwCheck firmware = 0 := by
  have a1 : leAt firmware 0 4 = 0x5A46574D := by decide +kernel
  have a2 : leAt firmware 4 2 = 1 := by decide +kernel
  have a3 : leAt firmware 6 1 = 0 := by decide +kernel
  have a4 : leAt firmware 7 1 = 0 := by decide +kernel
  have a5 : leAt firmware 8 4 = 4096 := by decide +kernel
  have a6 : firmware.length = 4096 := by decide +kernel
  have a7 : (slice firmware 12 4).all (· == 0) = true := by decide +kernel
  have a8 : (slice firmware 2084 2012).all (· == 0) = true := by decide +kernel
  have a9 : slice firmware 16 48 = zeros 48 := by decide +kernel
  have b1 : firmware.isEmpty = false := by decide +kernel
  have b2 : s.revoked 0 = false := by unfold State.revoked; rw [hs]; rfl
  have b3 : s.arbCount = 0 := by unfold State.arbCount; rw [hs]; rfl
  unfold State.fwCheck
  simp only [a1, a2, a3, a4, a5, a6, a7, a8, a9, b1, b2, b3, h.digest, h.rom, h.ec, h.lms]
  simp

theorem witness_BootCommands :
    ((booting 1).inStage 1 = true ∧ (booting 1).bootImage = some (2, [1])) ∧ (booting 2).inStage 1 = false ∧
    (∃ s : State, s.inStage 1 = true ∧ s.bootImage = none) ∧ ((booting 1).sec.bootSrc = 2 ∧ (booting 1).fwCheck [] ≠ 0) ∧ (booting 2).inStage 2 = true ∧ (booting 3).inStage 3 = true ∧
    (booting 1).inStage 3 = false ∧ (ready.Takes .sideband true ∧ ready.rd Reg.DEV.STAGE = 4 ∧ ready.sec.warm = false) ∧ running.rd Reg.DEV.STAGE ≠ 4 ∧ (warmed true).sec.warm = true ∧
    (ready.sec.fwPend = none ∧ ready.inRegion 3 (ready.rd Reg.SEC.FW_ADDR) (ready.rd Reg.SEC.FW_LEN) = false) ∧
    (∃ s : State, s.Takes .bar0 true ∧ s.sec.fwPend = none ∧ s.inRegion 3 (s.rd Reg.SEC.FW_ADDR) (s.rd Reg.SEC.FW_LEN) = true ∧
      s.fwCheck (Mem.readN s.hbm (s.rd Reg.SEC.FW_ADDR) (s.rd Reg.SEC.FW_LEN)) ≠ 0) ∧
    (∃ s : State, s.sec.fwPend = some (true, [1])) ∧ (∃ s : State, s.sec.fwPend = some (false, [1])) :=
  ⟨by decide +kernel, by decide +kernel, ⟨{ booting 1 with sec := { pwrGood := true, booting := true, bootSrc := 3 } }, by decide +kernel⟩, by decide +kernel, by decide +kernel,
   by decide +kernel, by decide +kernel, by decide +kernel, by decide +kernel, by decide +kernel, by decide +kernel,
   ⟨(ready.wr Reg.SEC.FW_ADDR 618475290624).wr Reg.SEC.FW_LEN 64, by decide +kernel⟩, ⟨{ ready with sec := { fwPend := some (true, [1]) } }, rfl⟩,
   ⟨{ ready with sec := { fwPend := some (false, [1]) } }, rfl⟩⟩
/-- The image at the start of region 3. -/
def firmMem : Mem := [(618475290624, 77), (618475290625, 87), (618475290626, 70), (618475290627, 90), (618475290628, 1), (618475290633, 16)]
theorem readN_add (m : Mem) (a k n : Nat) : Mem.readN m a (k + n) = Mem.readN m a k ++ Mem.readN m (a + k) n := by
  simp only [Mem.readN, List.range_add, List.map_append, List.map_map]
  refine congrArg _ (List.map_congr_left fun i _ => ?_)
  simp only [Function.comp, Nat.add_assoc]
theorem firmMem_reads : Mem.readN firmMem 618475290624 4096 = firmware := by
  have h1 : Mem.readN firmMem 618475290624 4096 = Mem.readN firmMem 618475290624 12 ++ Mem.readN firmMem 618475290636 4084 := readN_add _ _ 12 4084
  have h2 : Mem.readN firmMem 618475290636 4084 = zeros 4084 := by
    apply List.eq_replicate_iff.mpr
    refine ⟨by simp [Mem.readN], ?_⟩
    intro b hb
    simp only [Mem.readN, List.mem_map] at hb
    obtain ⟨i, -, rfl⟩ := hb
    simp [Mem.read, firmMem, Tbl.find?]
    repeat rw [if_neg (by omega)]
    rfl
  rw [h1, h2]
  have h3 : Mem.readN firmMem 618475290624 12 = leBytes 4 0x5A46574D ++ leBytes 2 1 ++ zeros 2 ++ leBytes 4 4096 := by decide +kernel
  rw [h3]; rfl
/-- A recovery image and an update that pass, where the signatures hold. -/
theorem witness_BootCommands_signed (h : Signs) :
    (booting 1).fwCheck firmware = 0 ∧ (let s := (({ ready with hbm := firmMem } : State).wr Reg.SEC.FW_ADDR 618475290624).wr Reg.SEC.FW_LEN 4096
      s.inRegion 3 (s.rd Reg.SEC.FW_ADDR) (s.rd Reg.SEC.FW_LEN) = true ∧ s.rd Reg.SEC.FW_ADDR = 618475290624 ∧ s.rd Reg.SEC.FW_LEN = 4096 ∧ s.sec.fwPend = none ∧ s.Takes .bar0 true ∧
        s.fwCheck (Mem.readN s.hbm 618475290624 4096) = 0) := by
  refine ⟨firmware_passes h _ rfl, by decide +kernel, by decide +kernel, by decide +kernel, by decide +kernel, by decide +kernel, ?_⟩
  exact (congrArg _ firmMem_reads).trans (firmware_passes h _ rfl)

/-- A ledger message that names a first OWNER, and a token for no permission that ends at beat 200. -/
def ownerMsg : State := (ready.wr Reg.SET.MSG 0x5A534554 0 0).wr Reg.SET.MSG 0x0106 0 1
def tokenIn (s : State) : State := (({ s with sec := { s.sec with owner := some (zeros 49), nonce := 0 } }).wr Reg.SEC.DBG_TOKEN 0x5A444247 0 0).wr Reg.SEC.DBG_TOKEN 200 0 6

theorem witness_LedgerAndTokenCommands :
    (ready.Takes .sideband true ∧ ready.sec.owner = none) ∧ (∃ s : State, s.sec.setPend = some (6, { value := [], beat := 0, signer := [], committed := true })) ∧ ready.sec.setPend = none ∧
    ready.tokenCheck (ready.regBytes Reg.SEC.DBG_TOKEN) (ready.regBytes Reg.SEC.DBG_PUBKEY) ≠ 0 ∧ (running.Takes .sideband true ∧ running.time.started = true) ∧
    (∃ s : State, s.Takes .bar0 true ∧ s.time.started = false ∧ s.auth.token.isSome = true) ∧
    (∃ (s : State) (k : Token), s.auth.token = some k ∧ k.expiry ≤ s.time.beat) ∧ (∀ k, expert.auth.token = some k → expert.time.beat < k.expiry) ∧
    (ready.pagesOpen = true ∧ State.reset.pagesOpen = false) :=
  ⟨by decide +kernel, ⟨{ ready with sec := { setPend := some (6, { value := [], beat := 0, signer := [], committed := true }) } }, rfl⟩, by decide +kernel, by decide +kernel,
   by decide +kernel, ⟨{ ready with auth := { token := some { perms := 1, expiry := 5 } } }, by decide +kernel⟩,
   ⟨{ running with auth := { token := some { perms := 1, expiry := 100 } } }, { perms := 1, expiry := 100 }, by decide +kernel⟩, by rintro k ⟨⟩; decide, by decide +kernel⟩
/-- The ledger message and the token pass where the signatures hold. -/
theorem witness_LedgerAndTokenCommands_signed (h : Signs) :
    (ownerMsg.Takes .sideband true ∧ ownerMsg.ledgerCheck (ownerMsg.regBytes Reg.SET.MSG) (ownerMsg.regBytes Reg.SET.PUBKEY) (ownerMsg.regBytes Reg.SET.SIG) = 0) ∧
    ((tokenIn ready).Takes .sideband true ∧ (tokenIn ready).time.started = false ∧
      (tokenIn ready).tokenCheck ((tokenIn ready).regBytes Reg.SEC.DBG_TOKEN) ((tokenIn ready).regBytes Reg.SEC.DBG_PUBKEY) = 0) ∧
    ((tokenIn running).time.started = true ∧
      (tokenIn running).tokenCheck ((tokenIn running).regBytes Reg.SEC.DBG_TOKEN) ((tokenIn running).regBytes Reg.SEC.DBG_PUBKEY) = 0) := by
  have tok : ∀ s : State, s.sec.owner = some (zeros 49) → s.sec.nonce.toNat = 0 → s.time.beat < 200 → s.tokenCheck (leBytes 4 0x5A444247 ++ zeros 20 ++ leBytes 8 200 ++ zeros 128) (zeros 96) = 0 := by
    intro s o n hb
    have a1 : leAt (leBytes 4 0x5A444247 ++ zeros 20 ++ leBytes 8 200 ++ zeros 128) 0 4 = 0x5A444247 := by decide +kernel
    have a2 : leAt (leBytes 4 0x5A444247 ++ zeros 20 ++ leBytes 8 200 ++ zeros 128) 8 8 = 0 := by decide +kernel
    have a3 : leAt (leBytes 4 0x5A444247 ++ zeros 20 ++ leBytes 8 200 ++ zeros 128) 16 8 = 0 := by decide +kernel
    have a4 : leAt (leBytes 4 0x5A444247 ++ zeros 20 ++ leBytes 8 200 ++ zeros 128) 4 4 = 0 := by decide +kernel
    have a5 : leAt (leBytes 4 0x5A444247 ++ zeros 20 ++ leBytes 8 200 ++ zeros 128) 24 8 = 200 := by decide +kernel
    have z : (zeros 49).take 48 = zeros 48 := by decide +kernel
    unfold State.tokenCheck
    simp only [o, n, a1, a2, a3, a4, a5, z, h.digest, h.ec, h.serial]
    simp [hb]
  refine ⟨⟨by decide +kernel, ?_⟩, ⟨by decide +kernel, by decide +kernel, ?_⟩, by decide +kernel, ?_⟩
  · have key : ∀ m : List Byte, leAt m 4 1 = 6 → leAt m 8 8 = 0 → leAt m 5 1 = 1 → leAt m 0 4 = 0x5A534554 → leAt m 6 2 = 0 → slice m 16 64 = zeros 64 →
        ownerMsg.ledgerCheck m (ownerMsg.regBytes Reg.SET.PUBKEY) (ownerMsg.regBytes Reg.SET.SIG) = 0 := by
      intro m a1 a2 a3 a4 a5 v
      have z : (zeros 64).take 48 = zeros 48 := by decide +kernel
      have o : ownerMsg.ledgerValue 6 = none := by decide +kernel
      have p : ownerMsg.sec.setPend = none := by decide +kernel
      have l : ownerMsg.sec.slots.get 6 = [] := by decide +kernel
      have k : slotValueOk 6 (zeros 64) = true := by decide +kernel
      unfold State.ledgerCheck
      simp only [a1, a2, a3, a4, a5, v, z, o, p, l, k, h.digest, h.ec, h.serial]
      simp [slotCap]
    exact key _ (by decide +kernel) (by decide +kernel) (by decide +kernel) (by decide +kernel) (by decide +kernel) (by decide +kernel)
  · have t : (tokenIn ready).regBytes Reg.SEC.DBG_TOKEN = leBytes 4 0x5A444247 ++ zeros 20 ++ leBytes 8 200 ++ zeros 128 := by decide +kernel
    have p : (tokenIn ready).regBytes Reg.SEC.DBG_PUBKEY = zeros 96 := by decide +kernel
    rw [t, p]; exact tok _ (by decide +kernel) (by decide +kernel) (by decide +kernel)
  · have t : (tokenIn running).regBytes Reg.SEC.DBG_TOKEN = leBytes 4 0x5A444247 ++ zeros 20 ++ leBytes 8 200 ++ zeros 128 := by decide +kernel
    have p : (tokenIn running).regBytes Reg.SEC.DBG_PUBKEY = zeros 96 := by decide +kernel
    rw [t, p]; exact tok _ (by decide +kernel) (by decide +kernel) (by decide +kernel)

theorem witness_CalibrationAndAgeingCommands :
    (running.Takes .bar0 ∧ running.cal.pend = none) ∧ (∃ (s : State) (i : Nat) (v : Word), s.Takes .bar0 ∧ i = s.rd Reg.CAL.CAL_SEL ∧ v = BitVec.ofNat 32 (s.rd Reg.CAL.CAL_NEW) ∧
      s.cal.pend = none ∧ s.calCheck i v false ≠ 0) ∧
    (expert.auth.unlocked = true ∧ expert.calCheck (expert.rd Reg.CAL.CAL_SEL) (BitVec.ofNat 32 (expert.rd Reg.CAL.CAL_NEW)) true = 0 ∧ running.auth.unlocked = false) ∧
    (∃ s : State, s.cal.pend = some (0x21FF, 7)) ∧ ((running.wrNow Reg.CAL.ADAPT_FREEZE_H1 (2 ^ 31)).frozen true 95 = true) ∧ running.frozen false 63 = false ∧ running.cal.adaptAt.get 63 ≤ running.now ∧
    (∃ s : State, s.frozen false 0 = false ∧ s.now < s.cal.adaptAt.get 0) ∧ running.time.beat % 65536 ≠ 0 ∧ (∃ s : State, s.Runs ∧ s.time.beat % 65536 = 0 ∧ s.cal.readAt = s.time.beat + 1) ∧
    (∃ s : State, s.cal.fcAt = s.time.beat + 1) ∧
    sensorIsland 31 = false ∧ running.time.beat % 2 ^ 20 ≠ 4 * 24 ∧
    (∃ s : State, sensorIsland 24 = true ∧ s.time.beat % 2 ^ 20 = 4 * 24 ∧ s.cal.readAt ≠ s.time.beat + 1 ∧ s.act Reg.AGE.PLANNER_HOLD = 0) ∧ (running.wrNow Reg.AGE.PLANNER_HOLD 1).act Reg.AGE.PLANNER_HOLD = 1 ∧
    (∃ (s : State) (f : Flock), (287 : Nat) = 32 + f.val ∧ s.time.beat % 2 ^ 20 = 4 * 287 ∧ s.cal.readAt ≠ s.time.beat + 1 ∧ s.rd Reg.AGE.ISL_STATE 0 0 287 ≠ 3 ∧ (s.flocks.get f.val).withdrawn = false) ∧
    running.time.beat % 2 ^ 33 ≠ 0 ∧ (∃ s : State, s.time.beat ≠ 0 ∧ s.time.beat % 2 ^ 33 = 0 ∧ s.cal.fcAt ≠ s.time.beat + 1 ∧ sensorIsland 287 = true ∧ s.rd Reg.AGE.CEIL_MHZ 0 0 287 ≠ 0) ∧ expert.TakesExpert .bar0 ∧
    ready.time.started = false ∧ (running.Runs ∧ running.host.lost = false) ∧ mate.linkState 0 = 4 :=
  ⟨by decide +kernel, ⟨running.wr Reg.CAL.CAL_SEL 0x300, _, _, by decide +kernel, rfl, rfl, by decide +kernel, by decide +kernel⟩, by decide +kernel,
   ⟨{ running with cal := { pend := some (0x21FF, 7) } }, rfl⟩, by decide +kernel, by decide +kernel, by decide +kernel,
   ⟨{ running with cal := { adaptAt := [(0, 2 ^ 40)] } }, by decide +kernel⟩, by decide +kernel,
   ⟨{ running with time := { started := true, beat := 65536 }, cal := { readAt := 65537 } }, by decide +kernel⟩, ⟨{ running with cal := { fcAt := 101 } }, by decide +kernel⟩, by decide +kernel, by decide +kernel,
   ⟨{ running with time := { started := true, beat := 96 } }, by decide +kernel⟩, by decide +kernel, ⟨{ running with time := { started := true, beat := 1148 } }, 255, by decide +kernel⟩,
   by decide +kernel, ⟨({ running with time := { started := true, beat := 2 ^ 33 } } : State).wr Reg.AGE.CEIL_MHZ 700 0 0 287, by decide +kernel⟩, by decide +kernel, by decide +kernel,
   by decide +kernel, by decide +kernel⟩
/-- A record in range, where the factory's range holds it: the limits are open (Config). -/
theorem witness_CalibrationAndAgeingCommands_inRange (h : calInRange 0 0#32 = true) : running.calCheck 0 0#32 false = 0 ∧ running.rd Reg.CAL.CAL_SEL = 0 ∧ running.rd Reg.CAL.CAL_NEW = 0 := by
  refine ⟨?_, by decide +kernel, by decide +kernel⟩
  have e : calExists 0 = true := by decide +kernel
  have n : (running.calRec 0).count = 0 := by unfold State.calRec; rw [show running.cal.recs = [] from rfl]; rfl
  unfold State.calCheck
  simp [e, h, n]

/-- Selector 63, armed on source 1 with two counters, takes its sample in every beat. -/
def sel63 : Sel := { src := 1, log2 := 0, phase := 0, addr := 0x54000, ncnt := 2, nrep := 1, flock0 := 0, cls := 0, core := 0, cap := 0 }
def sampling (level : Nat) (x : Sel) : State :=
  { (running.wrNow Reg.SAMP.SAMP_EN 1).wrNow Reg.HQ.EN 1 0 4 with obs := { armed := [(63, some x.nums)] }, sec := { running.sec with level := level } }
/-- Version 9 of context 0 holds a program of one RET, which can be watched, for express core 0 of flock 255. -/
def watchV : Version := { ver := 9, flocks := [255], sects := [{ type := 6, flags := 0, flock := 255, unit := 0, off := 0, len := 16, dest := 0, body := leBytes 16 6 }] }
def watching : State := ctxAt { st := .active, v0 := some watchV }
def theItem : ObsItem := { q := 4, bytes := zeros 64, rank := 0 }
def oneItem (cap : Nat) : State := { (running.wrNow Reg.HQ.EN 1 0 4).wrNow Reg.SAMP.CAP_BYTES cap with obs := { new := [theItem] } }
/-- A token for the flocks of a set, with flock 255 in debug mode and halted. -/
def debugging (fs : BitVec 256) (d h : Bool) : State :=
  { running.wr Reg.DBG.DBG_FLOCK 255 with auth := { token := some { perms := 1, expiry := 200, flocks := fs } }, flocks := [(255, { debug := d, halted := h })] }

theorem witness_ObservationCommands :
    ({ running with obs := { sampled := 101 } } : State).obs.sampled = ({ running with obs := { sampled := 101 } } : State).time.beat + 1 ∧
    (running.obs.sampled ≠ running.time.beat + 1 ∧ running.dueSels = []) ∧
    ((sampling 2 sel63).obs.sampled ≠ (sampling 2 sel63).time.beat + 1 ∧ (sampling 2 sel63).dueSels = [(63, sel63)] ∧ sel63.nrep = 1 ∧ (sampling 2 sel63).hqOff 4 = false) ∧
    (running.Takes .bar0 ∧ running.rd Reg.SAMP.SEL_SEL < 64 ∧ (running.selFields (running.rd Reg.SAMP.SEL_SEL)).result running.sec.level = 0) ∧
    (∃ s : State, s.Takes .bar0 ∧ s.rd Reg.SAMP.SEL_SEL = 63 ∧ (s.selFields 63).result s.sec.level ≠ 0) ∧
    (watching.watchResult { ctx := 0, mv := 9, core := 255 * 32, instr := 0, mode := 0, period := 24, armedAt := 101 } { flock := 255, cls := .express, core := 0 } = 0) ∧
    (running.watchResult { ctx := 0, mv := 9, core := 0, instr := 0, mode := 0, period := 0, armedAt := 101 } { flock := 0, cls := .express, core := 0 } ≠ 0) ∧
    (∃ s : State, s.devSafe = true) ∧
    ((oneItem 128).devSafe = false ∧ (oneItem 128).obs.wait = [] ∧ (oneItem 128).obs.new = [theItem] ∧ theItem.addr = 0 ∧ theItem.q = 4 ∧ theItem.done = 0 ∧
      (oneItem 128).hqOff 4 = false ∧ (oneItem 128).act Reg.SAMP.FWD_EN = 0 ∧ (oneItem 128).obs.spent ≤ (oneItem 128).act Reg.SAMP.CAP_BYTES ∧
      theItem.bytes.length + 64 ≤ (oneItem 128).act Reg.SAMP.CAP_BYTES - (oneItem 128).obs.spent) ∧
    ((oneItem 127).act Reg.SAMP.CAP_BYTES - (oneItem 127).obs.spent < theItem.bytes.length + 64 ∧ (oneItem 127).act Reg.SAMP.CAP_OFF = 0 ∧ theItem.bytes.length ≤ 262144) ∧
    (running.Takes .bar0 ∧ running.auth.token = none) ∧
    ((debugging (BitVec.ofNat 256 (2 ^ 255)) true true).Takes .bar0 ∧ (debugging (BitVec.ofNat 256 (2 ^ 255)) true true).rd Reg.DBG.DBG_FLOCK = 255 ∧
      bits ({ perms := 1 } : Token).perms 0 1 = 1 ∧ (BitVec.ofNat 256 (2 ^ 255)).getLsbD 255 = true ∧ (0 : BitVec 256).getLsbD 255 = false) ∧
    (((debugging 0 true true).flocks.get 255).debug = true ∧ ((debugging 0 true true).flocks.get 255).halted = true ∧ ((debugging 0 false false).flocks.get 255).debug = false ∧
      ((debugging 0 true false).flocks.get 255).halted = false) ∧
    (((debugging 0 true true).memWordAt 255).2 < ACoreId.memBytes ((debugging 0 true true).memWordAt 255).1) :=
  ⟨by decide +kernel, by decide +kernel, by decide +kernel, by decide +kernel,
   ⟨(running.wr Reg.SAMP.SEL_SEL 63).wr Reg.SAMP.SRC 3 0 0 63, by decide +kernel⟩, by decide +kernel, by decide +kernel, ⟨{ running with devSafe := true }, rfl⟩, by decide +kernel,
   by decide +kernel, by decide +kernel, by decide +kernel, by decide +kernel, by decide +kernel⟩

/-- A token that grants EXPERT, with the first key written. -/
def keyed (b : Nat) : State := { expert with auth := { expert.auth with unlocked := false }, sec := { running.sec with unlock := some (.bar0, b), chal := 0xABCD } }

theorem witness_RegisterCommands :
    (running.Takes .bar0 ∧ running.expertToken = false) ∧ ((keyed 36).expertToken = true ∧ ({ keyed 36 with sec := running.sec } : State).sec.unlock = none) ∧
    ((0x4B310000#32 + 0xABCD).toNat = 0x4B310000 + (keyed 36).sec.chal.toNat) ∧
    ((keyed 36).Takes .bar0 ∧ (keyed 36).sec.unlock = some (.bar0, 36) ∧ (0x4B32ABCD#32).toNat = 0x4B320000 + (keyed 36).sec.chal.toNat ∧ (keyed 36).time.beat ≤ 36 + 64) ∧
    (35 + 64 < (keyed 35).time.beat ∧ (0x4B31ABCD#32).toNat ≠ 0x4B320000 + (keyed 36).sec.chal.toNat ∧ Source.bar0 ≠ Source.jtag) ∧
    (({ keyed 36 with sec := { (keyed 36).sec with jtag := true } } : State).Takes .jtag) ∧
    (∃ s : State, s.TakesExpert .bar0 ∧ s.rd Reg.CXL.LINK_UP ≠ 0 ∧ s.host.lost = false) ∧ (pageOf 511 = some (Blk.FLOCK, 255) ∧ pageOf 255 = none ∧ expert.auth.unlocked = true) ∧
    (badAccess { addr := 0x60, size := 64, value := 0, write := true, fullBytes := false } = true ∧ (255 : Nat) < 256 ∧ running.auth.unlocked = false) ∧
    (running.pagesOpen = true ∧ running.mayRead .bar0 = true) ∧ running.rd Reg.CXL.LINK_UP = 0 ∧ (∃ s : State, s.host.ideIo = .insecure) ∧
    (({ addr := 2 ^ 18, size := 32, value := 0, write := true, fullBytes := true, bar4 := true } : RegAccess).bar4 = true ∧ (0x60 : Nat) < 2 ^ 18) :=
  ⟨by decide +kernel, by decide +kernel, by decide +kernel, by decide +kernel, by decide +kernel, by decide +kernel, ⟨expert.wr Reg.CXL.LINK_UP 1, by decide +kernel⟩,
   by decide +kernel, by decide +kernel, by decide +kernel, by decide +kernel, ⟨{ running with host := { ideIo := .insecure } }, rfl⟩, by decide +kernel⟩

/-- The device safe forwarding state. -/
def safe (s : State) : State := { s with devSafe := true }
/-- Access to an expert field of page HERD. -/
def expertAccess : RegAccess := { addr := 0x54804, size := 32, value := 1, write := true, fullBytes := true }

theorem witness_SafeStateQueues :
    (safe ringed).devSafe = true ∧ item7.q.val ≠ 6 ∧ ((safe running).hqOff 6 = true) ∧
    (∃ s : State, s.devSafe = true ∧ s.hqOff 6 = false ∧ s.rd Reg.HQ.PROD 0 6 - s.consSeen 6 ≠ s.hqSlots 6) ∧
    ((safe hosted).hostReach 0 64 = true ∧ apertureOf 0 = none ∧ (safe hosted).hbmUe 0 64 = none ∧ (∀ k < 64, ((safe hosted).regionOf (0 + k)).isSome = true) ∧ (safe hosted).cycOld = []) ∧
    ((safe ringed).Takes .bar0 ∧ (safe ringed).rd Reg.HQ.CONS 0 7 ≤ (4#64).toNat ∧ (4#64).toNat ≤ (safe ringed).rd Reg.HQ.PROD 0 7) :=
  ⟨by decide +kernel, by decide +kernel, by decide +kernel, ⟨safe (running.wrNow Reg.HQ.EN 1 0 6), by decide +kernel⟩, by decide +kernel, by decide +kernel⟩

theorem witness_AlertRecords : 255 < instancesOf Blk.FLOCK ∧ (∃ s : State, s.rd Reg.LEDG.ALERT_PEND ≠ 0) ∧ running.Takes .sideband true :=
  ⟨by decide +kernel, ⟨running.wr Reg.LEDG.ALERT_PEND 1, by decide +kernel⟩, by decide +kernel⟩

theorem witness_UnlockEnds :
    expert.Takes .bar0 ∧ expert.auth.token ≠ none ∧ (∃ (s : State) (k : Token), s.auth.token = some k ∧ k.expiry ≤ s.time.beat ∧ s.auth.unlocked = true) ∧
    (expert.Takes .sideband true ∧ expert.time.started = true) ∧ (∃ s : State, s.Takes .bar0 true ∧ s.auth.token ≠ none ∧ s.time.started = false) ∧
    (running.sec.pwrGood = true ∧ running.sec.resetN = true) ∧ ((asked false 99).Runs ∧ (asked false 99).sec.reqReset = some false ∧ (asked false 99).sec.reqBeat < (asked false 99).time.beat) ∧
    ((asked true 99).Runs ∧ (asked true 99).sec.reqReset = some true) ∧ (ready.mayWrite .bar0 true = true ∧ ready.time.started = false ∧ ready.sec.reqReset = none) ∧
    (running.Takes .bar0 ∧ running.auth.unlocked = false ∧ expertAccess.bar4 = false ∧ expertAccess.addr < 2 ^ 26 ∧ expertAccess.addr % 4 = 0 ∧ pageOf (expertAccess.addr / 4096) = some (Blk.HERD, 0) ∧
      Blk.HERD ≠ Blk.ZCT ∧ 0x800 ≤ expertAccess.addr % 4096 ∧ expertAccess.addr % 4096 < 0xF00) ∧ pageOf 511 = some (Blk.FLOCK, 255) :=
  ⟨by decide +kernel, by decide +kernel, ⟨{ expert with auth := { token := some { perms := 4, expiry := 100 }, unlocked := true } }, { perms := 4, expiry := 100 }, by decide +kernel⟩,
   by decide +kernel, ⟨{ ready with auth := { token := some { perms := 4, expiry := 100 } } }, by decide +kernel⟩, by decide +kernel, by decide +kernel, by decide +kernel,
   by decide +kernel, by decide +kernel, by decide +kernel⟩

/-- An operator selector on express core 0 of flock 3, and one on a bulk core. -/
def selOp (cls : Nat) : Sel := { src := 2, log2 := 0, phase := 0, addr := 0, ncnt := 2, nrep := 1, flock0 := 3, cls := cls, core := 0, cap := 9 }

theorem witness_LevelOneRecords :
    ((sampling 1 sel63).sec.level = 1 ∧ (sampling 1 sel63).obs.sampled ≠ (sampling 1 sel63).time.beat + 1 ∧ (sampling 1 sel63).dueSels = [(63, sel63)] ∧ (sampling 1 sel63).hqOff 4 = false) ∧
    ((sampling 1 (selOp 0)).dueSels = [(63, selOp 0)] ∧ (selOp 0).nrep = 1 ∧ (sampling 1 (selOp 0)).obs.capt.find? (63 * 256) = none) ∧
    (∃ s : State, s.Takes .bar0 ∧ s.sec.level = 1 ∧ s.rd Reg.SAMP.SEL_SEL = 63 ∧ 2 < (s.selFields 63).ncnt) ∧
    (∃ s : State, s.Takes .bar0 ∧ s.sec.level = 1 ∧ s.rd Reg.SAMP.SEL_SEL = 63 ∧ 1 < (s.selFields 63).nrep) ∧
    (∃ s : State, s.Takes .bar0 ∧ s.sec.level = 1 ∧ s.rd Reg.SAMP.SEL_SEL = 63 ∧ (s.selFields 63).src = 2 ∧ (s.selFields 63).cls = 1) :=
  ⟨by decide +kernel, by decide +kernel,
   ⟨({ running with sec := { running.sec with level := 1 } } : State).wr Reg.SAMP.SEL_SEL 63 |>.wr Reg.SAMP.NCNT_M1 2 0 0 63, by decide +kernel⟩,
   ⟨({ running with sec := { running.sec with level := 1 } } : State).wr Reg.SAMP.SEL_SEL 63 |>.wr Reg.SAMP.NREP_M1 1 0 0 63, by decide +kernel⟩,
   ⟨(({ running with sec := { running.sec with level := 1 } } : State).wr Reg.SAMP.SEL_SEL 63 |>.wr Reg.SAMP.SRC 2 0 0 63).wr Reg.SAMP.CLASS 1 0 0 63, by decide +kernel⟩⟩

theorem witness_StepRunsTheFront : ({ running with pending := [.beatMarker .portCore, .resetNLow] } : State).pending = .beatMarker .portCore :: [.resetNLow] := rfl
theorem witness_IdleStep :
    (running.pending = [] ∧ running.time.started = true ∧ ({ running with time := { started := true, cycle := 510 } } : State).time.cycle < 511) ∧ ready.time.started = false ∧
    511 ≤ ({ running with time := { started := true, cycle := 511 } } : State).time.cycle := by decide
theorem witness_PagesClosed :
    State.reset.pagesOpen = false ∧ expertAccess.bar4 = false ∧ expertAccess.addr < 2 ^ 26 ∧ badAccess expertAccess = false ∧ pageOf (expertAccess.addr / 4096) = some (Blk.HERD, 0) ∧ Blk.HERD ≠ Blk.DEV ∧
    pageOf (0x60 / 4096) = some (Blk.DEV, 0) ∧ 0x60 % 4096 ≠ 0x10 := by decide +kernel
theorem witness_SourceRights : mailPage Blk.HERD (expertAccess.addr % 4096) = false ∧ mailPage Blk.DEV 0x10 = true ∧ running.sec.jtag = false := by decide +kernel
theorem witness_EveryCommandCompletes : (2 ^ 40 - 1) + 1 ≤ 2 ^ 40 ∧ (0x3FFFFFF : Nat) < 2 ^ 26 := by decide
/-- Unlocked under a token, with a step to take. -/
theorem witness_UnlockedOnlyUnderToken : expert.AuthOk ∧ expert.auth.unlocked = true ∧ ∃ t, step expert = .next t :=
  ⟨fun _ => ⟨{ perms := 4, expiry := 200 }, rfl, by decide⟩, rfl, _, rfl⟩
/-- Memory that lists a byte. -/
theorem witness_MemoryStaysCanonical : ({ running with hbm := [(5, 1)], host := { mem := [(7, 255)] } } : State).MemOk ∧
    ∃ t, step { running with hbm := [(5, 1)], host := { mem := [(7, 255)] } } = .next t := ⟨⟨by decide, by decide⟩, _, rfl⟩
theorem witness_QueueIsTakenInOrder : ∃ t, step { running with pending := [.sample, .perstN] } = .next t := ⟨_, rfl⟩
theorem witness_SafeStateEndsOnlyByReset : (safe running).devSafe = true ∧ ∃ t, step (safe running) = .next t ∧ t.time.started = true := ⟨rfl, _, rfl, by decide⟩
theorem witness_FlockPageCompletes : running.Takes .bar0 ∧ expert.TakesExpert .bar0 ∧ running.pagesOpen = true ∧ running.arrayUsed 255 63 = false := by decide +kernel
theorem witness_TimeCommandsComplete :
    running.Takes .bar0 ∧ member.obeysTime = false ∧ running.obeysTime = true ∧ (ready.Takes .bar0 ∧ ready.time.started = false) ∧ running.time.ppsOut = false ∧
    (atCycle 0 true).time.ppsOut = true ∧ (atCycle 120000000 true).time.ppsAt + 120000000 ≤ (atCycle 120000000 true).now ∧ running.time.phaseLeft.natAbs ≤ 64000000 ∧
    running.pagesOpen = true ∧ (∃ s : State, s.act Reg.TIME.PPS_OUT_EN = 1 ∧ s.ppsDue = true) :=
  ⟨by decide, by decide, by decide, by decide, by decide, by decide, by decide +kernel, by decide, by decide,
   (atCycle 1200000000 false).wrNow Reg.TIME.PPS_OUT_EN 1, by decide +kernel⟩

/-! ### Ill-formed commands: one for each check, refused by it -/

theorem test_wf_frameBytes : (Instr.frameStart 0 [] default).failing = [.frameBytes] := by rfl
theorem test_wf_pauseQuanta : (Instr.pauseFrame 0 0 []).failing = [.pauseQuanta] := by rfl
theorem test_wf_ways : (Instr.flowLookup 0 [8] []).failing = [.ways] ∧ (Instr.verdictApply 0 [4]).failing = [.ways] := by decide
theorem test_wf_vtable : (Instr.vtable 0 toUs 0 [1] 0).failing = [.vtableVersions] := by rfl
theorem test_wf_ready : (Instr.ready 0 toUs (zeros 33)).failing = [.readyDigest] := by rfl
theorem test_wf_flit : (Instr.flitReceive 0 { okFlit with bytes := [] }).failing = [.flitBytes] := by rfl
theorem test_wf_homeWords : (Instr.hadd 0 toUs 0 0 [1]).failing = [.homeWords] := by rfl
theorem test_wf_token : (Instr.jtagMailbox [] []).failing = [.tokenWords] := by rfl
theorem test_wf_nonce : (Instr.challenge 0 []).failing = [.nonceBytes] := by rfl
theorem test_wf_item : (Instr.hqProduce { q := 2, bytes := zeros 33 }).failing = [.itemFits] := by rfl
theorem test_wf_monitor : (Instr.envCritical 32).failing = [.monitorNumber] ∧ (Instr.railExcursion 32).failing = [.monitorNumber] := ⟨rfl, rfl⟩
theorem test_wf_well : (Instr.ready 0 toUs (zeros 32)).wf = true ∧ (Instr.frameStart 0 [1] default).wf = true := by decide
theorem test_no_words : decodeTableWord 32 0 = none := rfl

/-! ### The manual's worked examples -/

/-- Policer 7 of R263: four packets, in units of 2^-8 bytes. -/
theorem test_policer : policeColour 0 0 (2500 * 256) (4000 * 256) (1500 * 256) = (0, 1000 * 256, 2500 * 256) ∧
    policeColour 0 0 (1000 * 256) (2500 * 256) (1500 * 256) = (1, 1000 * 256, 1000 * 256) ∧
    policeColour 0 0 (1000 * 256) (1000 * 256) (1000 * 256) = (0, 0, 0) ∧ policeColour 0 0 0 0 (64 * 256) = (2, 0, 0) := by decide
/-- A refill stops at the bucket's size. -/
theorem test_refill : meterRefill 0 13653 10000 = 13653 ∧ meterRefill (10000 * 256 - 1) 13653 10000 = 10000 * 256 := by decide
/-- Cancellation in E5M2 (R155): the lane holds 1 after 57,344² twice, 2^-32, and −57,344² twice. -/
theorem test_e5m2 : EFmt.value .e5m2 0x7B * EFmt.value .e5m2 0x7B = 0xC4 * 2 ^ 56 ∧
    ([(0x7B, 0x7B), (0x7B, 0x7B), (0x01, 0x01), (0xFB, 0x7B), (0xFB, 0x7B)].map (fun p => EFmt.value .e5m2 p.1 * EFmt.value .e5m2 p.2)).sum = 1 ∧ laneUnit 3 0 = -32 := by decide
/-- The MX window (R158, R159): 4.0 × −0.75 under scales 120 and 125 is −3 × 2^26 units of the lane; X is 118. -/
theorem test_mx : EFmt.value .e4m3 0x48 = 4 * 2 ^ 9 ∧ EFmt.value .e4m3 0xB4 = -3 * 2 ^ 7 ∧ prodScale 120 125 = some 118 ∧ prodScale 120 142 = some 135 ∧
    laneUnit 5 110 = -35 ∧ EFmt.value .e4m3 0x48 * EFmt.value .e4m3 0xB4 * 2 ^ (118 - 110) = -3 * 2 ^ 26 := by decide
/-- The fused chain of an int8 layer with a leaky ReLU (R176) gives 0xF1. -/
theorem test_leaky : let y := (Dy.add ((Dy.ofInt (-1234 * 3208)).shift (-16)) (Dy.ofInt 2))
    EFmt.conv (.int 8) (activate { act := 3, leak := 2, clo := ⟨0, 0⟩, chi := ⟨0, 0⟩ } id y) = (0xF1, -15, false) := by decide
/-- The prologue that normalises the row 3, −1, 4, 1 (R178): 10, −23, 19, −6. -/
theorem test_norm : let r := rsqrt (Dy.ofInt 59)
    [3, -1, 4, 1].map (fun (x : Int) => (EFmt.conv (.int 8) ((Dy.ofInt (16 * (4 * x - 7))).mul r)).1) = [0x0A, 0xE9, 0x13, 0xFA] := by decide +kernel
/-- MEAN 1.75 and VAR 3.6875 as fp32 (R164). -/
theorem test_mean : fp32Round false 7 4 = 0x3FE00000 ∧ fp32Round false 59 16 = 0x406C0000 := by decide
/-- Sigmoid's segment 128 starts at 0.5 (R173). -/
theorem test_sigmoid : (builtinTable 3).c0 128 = 0x800000 := by decide +kernel
/-- BIN[8] of a tap with BIN_LO 8 holds 32,768 to 65,535 (R323). -/
theorem test_bin : [32767, 32768, -65535, 65536, 0, 127].map (binOf 8) = [7, 8, 8, 9, 0, 0] := by decide
/-- Three candidates, one winner (R186 to R189): ARGMAX takes the lower index, BANDS counts thresholds, B wins over F at equal PRIO. -/
theorem test_candidates :
    formCode { vdesc := [4 + 3 * 2 ^ 12, 100] } (fun i => [50, 220, 220, -5].getD i 0) = some 2 ∧
    formCode { vdesc := [8 + 3 * 2 ^ 16 + 2 ^ 24, 0, 0, 1000, 2000] } (fun i => [1500, 300].getD i 0) = some 2 ∧
    winnerOf [(1, 2, 4 + 4 * 8 + 2 * 2 ^ 11), (2, 2, 2 + 128 + 5 * 2 ^ 8 + 5 * 2 ^ 11), (3, 4, 1 + 5 * 2 ^ 11)] = some (2, 2, 2 + 128 + 5 * 2 ^ 8 + 5 * 2 ^ 11) ∧
    (applyEntry (1 + 2 <<< 64) (2 + 128 + 5 * 2 ^ 8 + 5 * 2 ^ 11)).queue = 5 := by decide
/-- Its FORM 0 header, byte for byte (R193). -/
theorem test_header :
    State.header State.reset { i := { b := 10000 }, lk := { flowId := 0x8E210B47 } }
      { dec := { fwd := true, copy := true, queue := 5, code := 2, src := 2, act := 1 + 0x123 <<< 8 + 1 <<< 20 + 0x40 <<< 21 + 1 <<< 33 + 0x200 <<< 34 + 1 <<< 46,
                 rv := 42, mvA := 5, mvB := 7, mvF := 3, s0 := 1500, s1 := 300 }, fvCand := true } false 0 0 =
      [0x88, 0xB5, 0x48, 0x02, 0xAB, 0x00, 0x10, 0x40, 0x12, 0x00, 0x05, 0xDC, 0x01, 0x2C, 0x00, 0x2A, 0x00, 0x07, 0x00, 0x03, 0x8E, 0x21, 0x0B, 0x47,
       0x00, 0x00, 0x00, 0x27, 0x10, 0x00, 0x00, 0x00] := by decide +kernel
/-- Operator counts of the three-layer MLP (R358), in cycles of beats N − 1 (from 0) and N (from 512): the STREAM in full, the LOADH, and part of the next STREAM. -/
theorem test_counts : let o : OpCnt := { start := 24, wStart := 24, wChunks := 1, wCycles := 256, wPeriod := 256 }
    o.counts 512 = [488, 256, 232, 0] ∧ (o.issue 512 (some (1, 1))).counts 536 = [24, 0, 23, 0] ∧
    ({ start := 536, wStart := 536, wChunks := 1, wCycles := 256, wPeriod := 256 } : OpCnt).counts 612 = [76, 76, 0, 0] := by decide
/-- The ZCT word at 0x094 (R386): 8 replicas, 48 banks, 1,024 entries, 576 key bits. -/
theorem test_zct : running.barRead 0x1094 4 = 0x48100308 := by decide +kernel
/-- An access to a page's offset. -/
def at32 (addr v : Nat) : RegAccess := { addr := addr, size := 32, value := v, write := true, fullBytes := true }
/-- The unlock sequence (R381): CHAL 0x3C71, keys 1 and 2 at beats 900 and 901. -/
def officer900 : State :=
  { ready.wr Reg.DEV.STAGE 5 with time := { started := true, beat := 900 }, auth := { token := some { perms := 4, expiry := 2000 } }, sec := { ready.sec with chal := 0x3C71 } }
theorem test_unlock :
    let s := after officer900 (execExpertKey .bar0 0x4B313C71)
    (after { s with time := { started := true, beat := 901 } } (execExpertKey .bar0 0x4B323C71)).auth.unlocked = true ∧ s.auth.unlocked = false := by decide +kernel
/-- The hold marks (R52): HIGH_SEL 13 is stored, and LOW_SEL 13 is then left unchanged. -/
theorem test_marks : let s := after running (execRegisterWrite .bar0 (at32 0x3B040 0xCD))
    (s.rd Reg.HOLD.HIGH_SEL = 13 ∧ s.rd Reg.HOLD.LOW_SEL = 12) ∧ (after s (execRegisterWrite .bar0 (at32 0x3B040 0xDD))).rd Reg.HOLD.LOW_SEL = 12 := by decide +kernel
/-- LOG2 (R97): 256 e plus the next 8 bits, and 0x80000000 for a value that is not positive. -/
theorem test_log2 : log2Fixed 1 = 0 ∧ log2Fixed 8 = 768 ∧ log2Fixed 12 = 896 ∧ log2Fixed 0 = 0x80000000 := by decide +kernel
/-- CRC-32C of "123456789" is 0xE3069283 (R73), and the Ethernet FCS of it 0xCBF43926 (IEEE 802.3). -/
theorem test_crc : crc32c [0x31, 0x32, 0x33, 0x34, 0x35, 0x36, 0x37, 0x38, 0x39] = 0xE3069283 ∧
    fcsBytes [0x31, 0x32, 0x33, 0x34, 0x35, 0x36, 0x37, 0x38, 0x39] = [0x26, 0x39, 0xF4, 0xCB] := by decide +kernel
/-- A level 1 tree goes left on equality, a level 2 tree only below (R111). -/
theorem test_level : goesLeft 1 5 5 = true ∧ goesLeft 2 5 5 = false := by decide
/-- The sides of the shorter way, positive on a tie (R234). -/
theorem test_route : dimPath 4 3 1 = [0, 1] ∧ dimPath 5 0 3 = [4, 3] := by decide
/-- Epoch boundaries: C of an order asked for beat 70,000 at beat 60,000 (R247). -/
theorem test_epoch : epochFrom (Nat.max 70000 (60000 + 8192)) = 131072 ∧ epochFrom 65536 = 65536 := by decide

end Sys2Proof.Tests
end

section
/-! PROOF. The host-bound queues in the device safe forwarding state (R271): what producing an item does to PROD, what a host read of HBM returns, and
what a write of CONS changes. -/

namespace Sys2Proof.Machine

open Sys2Proof

/-! ### Registers that do not meet -/

/-- Two fields of one page that lie at different offsets and are repeated alike have different keys at every index. -/
theorem Field.key_ne_of_off_ne (f g : Field) (i j k : Nat) (hb : f.block = g.block) (hl : f.lo = g.lo) (hs : f.stride = g.stride) (hbs : f.bstride = g.bstride)
    (ho : f.off ≠ g.off) : f.key i j k ≠ g.key i j k := by
  unfold Field.key
  rw [hb, hl, hs, hbs]
  omega

theorem State.rd_bump_ne (s : State) (f g : Field) (i j k n i' j' k' : Nat) (h : g.key i' j' k' ≠ f.key i j k) :
    (s.bump f i j k n).rd g i' j' k' = s.rd g i' j' k' := State.rd_wr_ne s f g _ i j k i' j' k' h

theorem State.rd_of_regs_eq (s t : State) (f : Field) (i j k : Nat) (h : t.regs = s.regs) : t.rd f i j k = s.rd f i j k := by
  unfold State.rd
  rw [h]

/-! ### The producer's count (R268) -/

/-- Losing an item raises CONS and LOST and leaves PROD alone. -/
theorem State.rd_prod_hqLose (s : State) (q : Nat) : (s.hqLose q).rd Reg.HQ.PROD 0 q = s.rd Reg.HQ.PROD 0 q := by
  have hcons : Reg.HQ.PROD.key 0 q 0 ≠ Reg.HQ.CONS.key 0 q 0 := Field.key_ne_of_off_ne _ _ 0 q 0 rfl rfl rfl rfl (by decide)
  have hlost : Reg.HQ.PROD.key 0 q 0 ≠ Reg.HQ.LOST.key 0 q 0 := Field.key_ne_of_off_ne _ _ 0 q 0 rfl rfl rfl rfl (by decide)
  calc (s.hqLose q).rd Reg.HQ.PROD 0 q
      = ((s.wr Reg.HQ.CONS (Nat.max (s.rd Reg.HQ.CONS 0 q) (s.consSeen q + 1)) 0 q).bump Reg.HQ.LOST 0 q).rd Reg.HQ.PROD 0 q := rfl
    _ = (s.wr Reg.HQ.CONS (Nat.max (s.rd Reg.HQ.CONS 0 q) (s.consSeen q + 1)) 0 q).rd Reg.HQ.PROD 0 q := State.rd_bump_ne _ _ _ _ _ _ _ _ _ _ hlost
    _ = s.rd Reg.HQ.PROD 0 q := State.rd_wr_ne _ _ _ _ _ _ _ _ _ _ hcons

/-- Placing an item counts it in PROD, a 64-bit counter. -/
theorem State.rd_prod_hqPlace (s : State) (q : Nat) (bs : List Byte) :
    (s.hqPlace q bs).rd Reg.HQ.PROD 0 q = (s.rd Reg.HQ.PROD 0 q + 1) % 2 ^ 64 := State.rd_wr_self _ _ _ _ _ _

/-- A queue that may produce counts the item it is given, whether the queue is off or has room for it. -/
theorem State.rd_prod_hqProduce (s : State) (q : Nat) (bs : List Byte) (hq : ¬ (s.devSafe = true ∧ q ≠ 6))
    (h : s.hqOff q = true ∨ s.rd Reg.HQ.PROD 0 q - s.consSeen q ≠ s.hqSlots q) :
    (s.hqProduce q bs).rd Reg.HQ.PROD 0 q = (s.rd Reg.HQ.PROD 0 q + 1) % 2 ^ 64 := by
  rw [State.hqProduce, if_neg hq]
  by_cases hoff : s.hqOff q = true
  · rw [if_pos hoff, State.rd_prod_hqLose]
    exact State.rd_wr_self s Reg.HQ.PROD _ 0 q 0
  · have hroom := h.resolve_left hoff
    simp only [if_neg hoff, if_neg hroom]
    split
    · rw [State.rd_of_regs_eq _ _ _ _ _ _ (State.hqIrq_regs _ _), State.rd_prod_hqPlace]
    · exact State.rd_prod_hqPlace s q bs

/-- In the device safe forwarding state every queue but 6 refuses its items without a trace (R271). -/
theorem State.hqProduce_of_devSafe (s : State) (q : Nat) (bs : List Byte) (hs : s.devSafe = true) (hq : q ≠ 6) : s.hqProduce q bs = s :=
  if_pos ⟨hs, hq⟩

/-! ### Host reads of HBM (R281, R283) -/

/-- Where the device has written nothing in the present cycle, the host sees a region's byte as HBM holds it. -/
theorem State.hostByte_eq_read (s : State) (a : Nat) (hr : (s.regionOf a).isSome = true) (hc : s.cycOld = []) : s.hostByte a = Mem.read s.hbm a := by
  rw [State.hostByte, if_pos hr, State.byteBefore, hc]
  rfl

theorem State.hostBytes_eq_readN (s : State) (a n : Nat) (hr : ∀ k < n, (s.regionOf (a + k)).isSome = true) (hc : s.cycOld = []) :
    (List.range n).map (fun i => s.hostByte (a + i)) = Mem.readN s.hbm a n :=
  List.map_congr_left fun k hk => s.hostByte_eq_read (a + k) (hr k (List.mem_range.1 hk)) hc

/-- A host read of mapped, correctable HBM returns the bytes stored there and changes nothing but the host's own result. -/
theorem execHostRead_hbm (s : State) (a n : Nat) (apt : Option (List Byte)) (ha : a + n ≤ 2 ^ 40) (hreach : s.hostReach a n = true) (hapt : apertureOf a = none)
    (hue : s.hbmUe a n = none) (hr : ∀ k < n, (s.regionOf (a + k)).isSome = true) (hc : s.cycOld = []) :
    execHostRead a n apt s = .next (s.hostData (Mem.readN s.hbm a n) false) := by
  rw [execHostRead, if_neg (Nat.not_lt.2 ha), if_neg (not_not.2 hreach)]
  simp only [hapt, hue, s.hostBytes_eq_readN a n hr hc]

/-! ### Writes of CONS (R270) -/

/-- In the device safe forwarding state an audit record is only counted as suppressed (R271). -/
theorem State.audit_of_devSafe (s : State) (r : AuditRec) (hs : s.devSafe = true) : s.audit r = s.bump Reg.SEC.AUDIT_SUPPRESSED := if_pos hs

/-- The state in which a write of CONS has taken effect, before its audit record. -/
def State.consMoved (s : State) (q v : Nat) : State :=
  { s.wrNow Reg.HQ.CONS v 0 q with
    hq := s.hq.mod q (fun h => { h with consumed := h.consumed + (v - s.rd Reg.HQ.CONS 0 q), consWr := some (s.now, s.consSeen q) }) }

theorem State.rd_cons_consMoved (s : State) (q v : Nat) : (s.consMoved q v).rd Reg.HQ.CONS 0 q = v % 2 ^ 64 := State.rd_wr_self s Reg.HQ.CONS v 0 q 0

theorem State.rd_prod_consMoved (s : State) (q v : Nat) : (s.consMoved q v).rd Reg.HQ.PROD 0 q = s.rd Reg.HQ.PROD 0 q :=
  State.rd_wr_ne s Reg.HQ.CONS Reg.HQ.PROD v 0 q 0 0 q 0 (Field.key_ne_of_off_ne _ _ 0 q 0 rfl rfl rfl rfl (by decide))

theorem State.rd_wrote_cons (s : State) (src : Source) (q : QNum) : (s.wrote src).rd Reg.HQ.CONS 0 q.val = s.rd Reg.HQ.CONS 0 q.val :=
  State.rd_wrote s src _ _ _ _ (by revert q; decide)

theorem State.rd_wrote_prod (s : State) (src : Source) (q : QNum) : (s.wrote src).rd Reg.HQ.PROD 0 q.val = s.rd Reg.HQ.PROD 0 q.val :=
  State.rd_wrote s src _ _ _ _ (by revert q; decide)

theorem cons_key_ne_suppressed : ∀ q : QNum, Reg.HQ.CONS.key 0 q.val 0 ≠ Reg.SEC.AUDIT_SUPPRESSED.key 0 0 0 := by decide

theorem prod_key_ne_suppressed : ∀ q : QNum, Reg.HQ.PROD.key 0 q.val 0 ≠ Reg.SEC.AUDIT_SUPPRESSED.key 0 0 0 := by decide

/-- A write of CONS that reaches the block and lies between CONS and PROD moves CONS and leaves an audit record. -/
theorem execHqConsWrite_moves (s : State) (src : Source) (q : QNum) (v : DWord) (ht : s.Takes src) (hlo : s.rd Reg.HQ.CONS 0 q.val ≤ v.toNat)
    (hhi : v.toNat ≤ s.rd Reg.HQ.PROD 0 q.val) : ∃ r, execHqConsWrite src q v s = .next (((s.wrote src).consMoved q.val v.toNat).audit r) := by
  have hin : ¬ (v.toNat < (s.wrote src).rd Reg.HQ.CONS 0 q.val ∨ (s.wrote src).rd Reg.HQ.PROD 0 q.val < v.toNat) := by
    rw [State.rd_wrote_cons, State.rd_wrote_prod]
    omega
  obtain ⟨hopen, hmay⟩ := ht
  rw [execHqConsWrite, State.basicCmd_next s src _ false hopen hmay]
  simp only [if_neg hin]
  exact ⟨_, rfl⟩

/-- In the device safe forwarding state such a write moves CONS alone of the queue's counts, and touches no memory: its audit record is suppressed. -/
theorem execHqConsWrite_of_devSafe (s : State) (src : Source) (q : QNum) (v : DWord) (hs : s.devSafe = true) (ht : s.Takes src)
    (hlo : s.rd Reg.HQ.CONS 0 q.val ≤ v.toNat) (hhi : v.toNat ≤ s.rd Reg.HQ.PROD 0 q.val) :
    ∃ t, execHqConsWrite src q v s = .next t ∧ t.rd Reg.HQ.CONS 0 q.val = v.toNat ∧ t.rd Reg.HQ.PROD 0 q.val = s.rd Reg.HQ.PROD 0 q.val ∧
      t.hbm = s.hbm ∧ t.host.mem = s.host.mem := by
  obtain ⟨r, hexec⟩ := execHqConsWrite_moves s src q v ht hlo hhi
  have haudit : ((s.wrote src).consMoved q.val v.toNat).audit r = ((s.wrote src).consMoved q.val v.toNat).bump Reg.SEC.AUDIT_SUPPRESSED :=
    State.audit_of_devSafe _ r ((State.wrote_devSafe s src).trans hs)
  refine ⟨_, hexec.trans (congrArg _ haudit), ?_, ?_, State.wrote_hbm s src, congrArg _ (State.wrote_host s src)⟩
  · rw [State.rd_bump_ne _ _ _ _ _ _ _ _ _ _ (cons_key_ne_suppressed q), State.rd_cons_consMoved]
    exact Nat.mod_eq_of_lt v.isLt
  · rw [State.rd_bump_ne _ _ _ _ _ _ _ _ _ _ (prod_key_ne_suppressed q), State.rd_prod_consMoved, State.rd_wrote_prod]

/-! ### R271 -/

/-- Settles O41: one clause each for the queues that do not produce, queue 6, host reads and writes of CONS. -/
theorem safeStateQueues : Obligations.SafeStateQueues := by
  intro s hs
  refine ⟨fun q b hq => s.hqProduce_of_devSafe q b hs hq, fun it hq => congrArg _ (s.hqProduce_of_devSafe it.q.val _ hs hq), ?_, ?_, ?_⟩
  · intro it h6 hroom
    have hprod (bs : List Byte) := s.rd_prod_hqProduce 6 bs (fun h => h.2 rfl) hroom
    rw [← h6] at hprod ⊢
    exact ⟨_, rfl, hprod _⟩
  · exact fun a n apt => execHostRead_hbm s a n apt
  · exact fun src q v => execHqConsWrite_of_devSafe s src q v hs

end Sys2Proof.Machine
end

section
/-! PROOF. The severity of a fault record, and what a record and a write of 1 do to ALERT_PEND and ALERT_N (R301). -/

namespace Sys2Proof.Machine

open Sys2Proof

/-! ### Severity (R301) -/

theorem FaultRec.sev_eq_two_iff (r : FaultRec) : r.sev = 2 ↔ r.cls ∈ [6, 7, 9, 10, 11] ∨ r.action ∈ [3, 4, 5] := by
  simp only [FaultRec.sev, List.mem_cons, List.not_mem_nil, or_false, or_assoc]
  split_ifs <;> simp_all

theorem FaultRec.sev_eq_one_iff (r : FaultRec) :
    r.sev = 1 ↔ ¬ (r.cls ∈ [6, 7, 9, 10, 11] ∨ r.action ∈ [3, 4, 5]) ∧ r.cls ∈ [1, 2, 3] ∧ r.action ∈ [1, 2] := by
  rw [← FaultRec.sev_eq_two_iff]
  simp only [FaultRec.sev, List.mem_cons, List.not_mem_nil, or_false]
  split_ifs <;> simp_all

theorem FaultRec.sev_le_two (r : FaultRec) : r.sev ≤ 2 := by
  unfold FaultRec.sev
  split_ifs <;> decide

/-! ### Registers by their offset in the page -/

/-- The offset in its page of the register that a key names. -/
def keyOff (k : Nat) : Nat := k / 4194304 % 4096

/-- A field's key shows the field's offset, whichever page it stands on: pages start at multiples of 4,096. -/
theorem keyOff_key (f : Field) (i j : Nat) (hl : f.lo < 64) (hb : f.bstride = 0) : keyOff (f.key i j 0) = (f.off + f.stride * j) % 4096 := by
  have hpage := pageBase_mod f.block i
  simp only [keyOff, Field.key, hb, Nat.zero_mul, Nat.add_zero]
  omega

/-- A write leaves the registers at other offsets alone, on every page. -/
theorem State.find_wr_of_keyOff_ne (s : State) (f : Field) (v i j n : Nat) (hl : f.lo < 64) (hb : f.bstride = 0)
    (h : keyOff n ≠ (f.off + f.stride * j) % 4096) : (s.wr f v i j).regs.find? n = s.regs.find? n := by
  refine State.find_wr_ne s f v i j 0 n ?_
  rintro rfl
  exact h (keyOff_key f i j hl hb)

/-- A common register (R375) lies at the same offset of every page. -/
theorem keyOff_key_on (f : Field) (b i : Nat) (hl : f.lo < 64) (hb : f.bstride = 0) : keyOff ((f.on b).key i 0 0) = f.off % 4096 := by
  rw [keyOff_key (f.on b) i 0 hl hb, Nat.mul_zero, Nat.add_zero, Field.on]

theorem State.find_wr_on_of_keyOff_ne (s : State) (f : Field) (b v i n : Nat) (hl : f.lo < 64) (hb : f.bstride = 0)
    (h : keyOff n ≠ f.off % 4096) : (s.wr (f.on b) v i).regs.find? n = s.regs.find? n := by
  refine State.find_wr_ne s (f.on b) v i 0 0 n ?_
  rintro rfl
  exact h (keyOff_key_on f b i hl hb)

/-- An event writes EVENT alone, at offset 0x18 of its page. -/
theorem State.find_event_of_keyOff_ne (s : State) (b i n k : Nat) (h : keyOff k ≠ 0x18) : (s.event b i n).regs.find? k = s.regs.find? k := by
  rw [State.event, State.events, State.evtEdge_regs, State.wrEvent,
    State.find_wr_on_of_keyOff_ne _ Reg.COMMON.EV_FAULT b _ i k (by decide) rfl h,
    State.find_wr_on_of_keyOff_ne _ Reg.COMMON.EV_STATE b _ i k (by decide) rfl h,
    State.find_wr_on_of_keyOff_ne _ Reg.COMMON.EVENT b _ i k (by decide) rfl h]

/-- FAULT and FAULT_INFO of a page lie at its offsets 0x24 and 0x28. -/
theorem State.find_faultRegs_of_keyOff_ne (s : State) (r : FaultRec) (k : Nat) (hf : keyOff k ≠ 0x24) (hi : keyOff k ≠ 0x28) :
    (s.faultRegs r).regs.find? k = s.regs.find? k := by
  unfold State.faultRegs
  dsimp only
  rw [State.find_wr_on_of_keyOff_ne _ Reg.COMMON.INFO_SEV r.block _ r.inst k (by decide) rfl hi,
    State.find_wr_on_of_keyOff_ne _ Reg.COMMON.INFO_REASON r.block _ r.inst k (by decide) rfl hi,
    State.find_wr_on_of_keyOff_ne _ Reg.COMMON.INFO_UNIT r.block _ r.inst k (by decide) rfl hi,
    State.find_wr_on_of_keyOff_ne _ Reg.COMMON.FLT_ACTION r.block _ r.inst k (by decide) rfl hf,
    State.find_wr_on_of_keyOff_ne _ Reg.COMMON.FLT_SCOPE r.block _ r.inst k (by decide) rfl hf,
    State.find_wr_on_of_keyOff_ne _ Reg.COMMON.FLT_CLASS r.block _ r.inst k (by decide) rfl hf]

/-! ### Registers that an item leaves alone (R268, R270) -/

theorem State.find_hqLose_ne (s : State) (q k : Nat) (hc : k ≠ Reg.HQ.CONS.key 0 q 0) (hl : k ≠ Reg.HQ.LOST.key 0 q 0) :
    (s.hqLose q).regs.find? k = s.regs.find? k := by
  have e : (s.hqLose q).regs = ((s.wr Reg.HQ.CONS (Nat.max (s.rd Reg.HQ.CONS 0 q) (s.consSeen q + 1)) 0 q).bump Reg.HQ.LOST 0 q).regs := rfl
  rw [e, State.bump, State.find_wr_ne _ _ _ _ _ _ _ hl, State.find_wr_ne _ _ _ _ _ _ _ hc]

theorem State.find_hqPlace_ne (s : State) (q k : Nat) (bs : List Byte) (hp : k ≠ Reg.HQ.PROD.key 0 q 0) : (s.hqPlace q bs).regs.find? k = s.regs.find? k := by
  unfold State.hqPlace
  dsimp only
  rw [State.find_wr_ne _ _ _ _ _ _ _ hp, State.locWrite_regs, State.locWrite_regs]

/-- An item moves PROD, CONS and LOST of its own queue and no other register. -/
theorem State.find_hqProduce_ne (s : State) (q k : Nat) (bs : List Byte) (hp : k ≠ Reg.HQ.PROD.key 0 q 0) (hc : k ≠ Reg.HQ.CONS.key 0 q 0)
    (hl : k ≠ Reg.HQ.LOST.key 0 q 0) : (s.hqProduce q bs).regs.find? k = s.regs.find? k := by
  unfold State.hqProduce
  split
  · rfl
  split
  · rw [State.find_hqLose_ne _ q k hc hl]
    exact State.find_wr_ne s _ _ _ _ _ _ hp
  dsimp only
  split
  · split
    · exact State.find_wr_ne s _ _ _ _ _ _ hl
    · rw [State.find_hqPlace_ne _ q k bs hp, State.find_hqLose_ne s q k hc hl]
  · split
    · rw [State.hqIrq_regs, State.find_hqPlace_ne s q k bs hp]
    · exact State.find_hqPlace_ne s q k bs hp

/-! ### What a fault record leaves in SEV and ALERT_PEND (R300, R301, R375) -/

/-- The state after one more fault record has taken its SEQ. -/
def State.nextFaultSeq (s : State) : State := { s with flt := { s.flt with seq := s.flt.seq + 1 } }

theorem State.nextFaultSeq_regs (s : State) : s.nextFaultSeq.regs = s.regs := rfl

/-- The state in which a record stands in its page's registers and in queue 6, before ALERT_PEND. -/
def State.faultQueued (s : State) (r : FaultRec) : State :=
  (((s.faultRegs r).event r.block r.inst 31).hqProduce 6 (r.bytes s.flt.seq s.time.beat)).nextFaultSeq

theorem State.fault_eq (s : State) (r : FaultRec) :
    s.fault r = if r.sev = 2 then (s.faultQueued r).wr Reg.LEDG.ALERT_PEND 1 else s.faultQueued r := rfl

/-- The event and the item of a record leave the registers below offset 0x100 alone, but EVENT: the counts of queue 6 lie above. -/
theorem State.find_faultQueued (s : State) (r : FaultRec) (k : Nat) (he : keyOff k ≠ 0x18) (hq : keyOff k < 0x100) :
    (s.faultQueued r).regs.find? k = (s.faultRegs r).regs.find? k := by
  have hne (f : Field) (hl : f.lo < 64) (hb : f.bstride = 0) (ho : 0x100 ≤ (f.off + f.stride * 6) % 4096) : k ≠ f.key 0 6 0 := by
    rintro rfl
    rw [keyOff_key f 0 6 hl hb] at hq
    omega
  rw [State.faultQueued, State.nextFaultSeq_regs, State.find_hqProduce_ne _ 6 k _ (hne _ (by decide) rfl (by decide)) (hne _ (by decide) rfl (by decide)) (hne _ (by decide) rfl (by decide)),
    State.find_event_of_keyOff_ne _ _ _ _ k he]

theorem State.rd_alertPend_faultQueued (s : State) (r : FaultRec) : (s.faultQueued r).rd Reg.LEDG.ALERT_PEND = s.rd Reg.LEDG.ALERT_PEND := by
  unfold State.rd
  rw [State.find_faultQueued s r _ (by decide) (by decide), State.find_faultRegs_of_keyOff_ne s r _ (by decide) (by decide)]

/-- A record of severity 2 sets ALERT_PEND; any other leaves it alone. -/
theorem State.rd_alertPend_fault (s : State) (r : FaultRec) :
    (s.fault r).rd Reg.LEDG.ALERT_PEND = if r.sev = 2 then 1 else s.rd Reg.LEDG.ALERT_PEND := by
  rw [State.fault_eq]
  split
  · exact State.rd_wr_self _ Reg.LEDG.ALERT_PEND 1 0 0 0
  · exact s.rd_alertPend_faultQueued r

/-- The SEV field holds the record's severity whole. -/
theorem State.rd_sev_faultRegs (s : State) (r : FaultRec) : (s.faultRegs r).rd (Reg.COMMON.INFO_SEV.on r.block) r.inst = r.sev :=
  (State.rd_wr_self _ (Reg.COMMON.INFO_SEV.on r.block) r.sev r.inst 0 0).trans (Nat.mod_eq_of_lt (Nat.lt_succ_of_le (Nat.le_succ_of_le r.sev_le_two)))

theorem State.rd_sev_fault (s : State) (r : FaultRec) : (s.fault r).rd (Reg.COMMON.INFO_SEV.on r.block) r.inst = r.sev := by
  have hoff : keyOff ((Reg.COMMON.INFO_SEV.on r.block).key r.inst 0 0) = 0x28 := keyOff_key_on _ _ _ (by decide) rfl
  have hqueued : (s.faultQueued r).rd (Reg.COMMON.INFO_SEV.on r.block) r.inst = r.sev := by
    rw [State.rd, State.find_faultQueued s r _ (by rw [hoff]; decide) (by rw [hoff]; decide)]
    exact s.rd_sev_faultRegs r
  rw [State.fault_eq]
  split
  · rw [State.rd, State.find_wr_of_keyOff_ne _ Reg.LEDG.ALERT_PEND 1 0 0 _ (by decide) rfl (by rw [hoff]; decide)]
    exact hqueued
  · exact hqueued

/-- FAULT_RECORD on a page that exists writes the record it is given. -/
theorem exec_faultRecord (cls : Fin 16) (scope : Fin 9) (reason : Fin 256) (action : Fin 9) (block inst u addr count : Nat) (s : State) (hi : inst < instancesOf block) :
    exec (.faultRecord cls scope reason action block inst u addr count) s = .next (s.fault
      { cls := cls.val, scope := scope.val, reason := reason.val, action := action.val, block := block, inst := inst, unit := u, addr := addr, count := count }) :=
  if_pos hi

/-! ### ALERT_N (R301, R335) -/

theorem State.alertN_eq_true_iff (s : State) : s.alertN = true ↔ s.rd Reg.LEDG.ALERT_PEND = 0 ∧ s.rd Reg.DEV.STAGE ≠ 7 := by
  simp [State.alertN]

/-- BOOT_FAIL, which also holds ALERT_N low, is no stage in which the register pages are open. -/
theorem State.stage_ne_bootFail_of_pagesOpen (s : State) (h : s.pagesOpen = true) : s.rd Reg.DEV.STAGE ≠ 7 := by
  simp only [State.pagesOpen, Bool.or_eq_true, decide_eq_true_eq] at h
  omega

/-- A write of 1 to ALERT_PEND that reaches the block clears it, and ALERT_N rises: the stage, READY or RUN, stays. -/
theorem exec_alertPendClear (s : State) (src : Source) (ht : s.Takes src true) :
    ∃ t, exec (.alertPendClear src true) s = .next t ∧ t.rd Reg.LEDG.ALERT_PEND = 0 ∧ t.alertN = true := by
  obtain ⟨hopen, hmay⟩ := ht
  have hpend : ((s.wrote src).wr Reg.LEDG.ALERT_PEND 0).rd Reg.LEDG.ALERT_PEND = 0 := State.rd_wr_self _ Reg.LEDG.ALERT_PEND 0 0 0 0
  have hstage : ((s.wrote src).wr Reg.LEDG.ALERT_PEND 0).rd Reg.DEV.STAGE = s.rd Reg.DEV.STAGE := by
    rw [State.rd_wr_ne _ _ _ _ _ _ _ _ _ _ (by decide), State.rd_wrote _ _ _ _ _ _ (by decide)]
  refine ⟨_, State.basicCmd_next s src _ true hopen hmay, hpend, (State.alertN_eq_true_iff _).2 ⟨hpend, ?_⟩⟩
  exact hstage ▸ s.stage_ne_bootFail_of_pagesOpen hopen

/-! ### R301 -/

/-- Settles O42: severity, the record's registers, FAULT_RECORD, ALERT_N and its clearing, clause by clause. -/
theorem alertRecords : Obligations.AlertRecords := by
  refine ⟨fun r => ⟨r.sev_eq_two_iff, r.sev_eq_one_iff, r.sev_le_two⟩, fun s r _ => ⟨s.rd_sev_fault r, s.rd_alertPend_fault r⟩, ?_, ?_, exec_alertPendClear⟩
  · intro s cls scope reason action block inst u addr count hi
    refine ⟨_, exec_faultRecord cls scope reason action block inst u addr count s hi, ?_⟩
    simp only [State.rd_alertPend_fault, FaultRec.sev_eq_two_iff]
  · intro s hpend
    exact Bool.eq_false_iff.2 fun h => hpend (s.alertN_eq_true_iff.1 h).1

end Sys2Proof.Machine
end

section
/-! PROOF. Sample records under level 1 (R361): the bytes of the version-1 record, the one item SAMPLE produces for a selector of one repetition, and the arms
that are refused. -/

namespace Sys2Proof.Machine

open Sys2Proof

/-! ### Little-endian bytes -/

/-- The n low bytes of a number are those of its value modulo 256 ^ n. -/
theorem leBytes_mod_pow (n v : Nat) : leBytes n (v % 256 ^ n) = leBytes n v := by
  induction n generalizing v with
  | zero => rfl
  | succ n ih =>
    have hlow : BitVec.ofNat 8 (v % 256 ^ (n + 1)) = BitVec.ofNat 8 v := by
      apply BitVec.eq_of_toNat_eq
      simp only [BitVec.toNat_ofNat]
      exact Nat.mod_mod_of_dvd v (Dvd.intro_left (256 ^ n) rfl)
    have hrest : v % 256 ^ (n + 1) / 256 = v / 256 % 256 ^ n := by
      rw [Nat.pow_succ', Nat.mod_mul_right_div_self]
    rw [leBytes, leBytes, hlow, hrest, ih]

theorem length_leBytes (n v : Nat) : (leBytes n v).length = n := by
  induction n generalizing v with
  | zero => rfl
  | succ n ih => rw [leBytes, List.length_cons, ih]

/-- Two neighbouring entries of a list, read with a default, are a cut of it where it reaches that far. -/
theorem getD_pair_eq_take_drop (l : List Nat) (k : Nat) (h : k + 1 < l.length) : [l.getD k 0, l.getD (k + 1) 0] = (l.drop k).take 2 := by
  rw [List.drop_eq_getElem_cons (Nat.lt_of_succ_lt h), List.drop_eq_getElem_cons h, List.getD_eq_getElem l 0 (Nat.lt_of_succ_lt h), List.getD_eq_getElem l 0 h]
  rfl

/-! ### The version-1 record (R361) -/

/-- The table of R361: the 32 bytes of a version-1 record and the 32 zero bytes that fill its slot. -/
def versionOneRecord (beat n lay op v0 v1 : Nat) : List Byte :=
  leBytes 5 (beat % 2 ^ 40) ++ [1] ++ leBytes 2 n ++ leBytes 2 lay ++ leBytes 2 op ++ zeros 4 ++ leBytes 8 v0 ++ leBytes 8 v1 ++ zeros 32

theorem length_versionOneRecord (beat n lay op v0 v1 : Nat) : (versionOneRecord beat n lay op v0 v1).length = 64 := by
  simp only [versionOneRecord, zeros, List.length_append, length_leBytes, List.length_replicate, List.length_singleton]

/-- Under level 1 a record keeps LAYER and OPER of the identifiers and the first two values. -/
theorem sampleBytes_level_one (beat n i q : Nat) (x : Sel) (vals ids : List Nat) :
    sampleBytes 1 beat n i q x vals ids = versionOneRecord beat n (ids.getD 2 0) (ids.getD 3 0) (vals.getD 0 0) (vals.getD 1 0) := by
  have hbeat : leBytes 5 (beat % 2 ^ 40) = leBytes 5 beat := leBytes_mod_pow 5 beat
  rw [versionOneRecord, hbeat]
  rfl

/-! ### What a record takes (R358, R359) -/

/-- Register counter j of repetition 0, as frozen at the beat's boundary. -/
def State.frozenCount (s : State) (x : Sel) (j : Nat) : Nat := ({ s with regs := s.acting } : State).barRead (x.addr + 8 * j) 8

/-- The capture that repetition 0 of an operator selector reports: the one taken in this beat, or what its capture cycle will take. -/
def State.opCapture (s : State) (n : Nat) (x : Sel) : List Nat :=
  (s.obs.capt.find? (n * 256)).getD (s.capture (x.coreOf 0) (s.islStart (x.coreOf 0).flock.val + x.cap))

/-- A capture holds four counts and four identifiers, those of an unbound core too. -/
theorem State.length_capture (s : State) (c : ACoreId) (t : Nat) : (s.capture c t).length = 8 := by
  unfold State.capture
  dsimp only
  split
  · split <;> rfl
  · rfl

theorem State.getD_frozenCount (s : State) (x : Sel) (j : Nat) (h : j < x.ncnt) : ((List.range x.ncnt).map (s.frozenCount x)).getD j 0 = s.frozenCount x j := by
  simp only [List.getD_eq_getElem?_getD, List.getElem?_map, List.getElem?_range h, Option.map_some, Option.getD_some]

/-- Under level 1 a record of register counters has no identifiers and holds the first two counts. -/
theorem State.sampleOne_registers (s : State) (n : Nat) (x : Sel) (hl : s.sec.level = 1) (hx : x.src = 1) :
    s.sampleOne n x 0 = versionOneRecord s.time.beat n 0 0 (((List.range x.ncnt).map (s.frozenCount x)).getD 0 0) (((List.range x.ncnt).map (s.frozenCount x)).getD 1 0) := by
  rw [State.sampleOne, if_pos hx, hl]
  exact sampleBytes_level_one _ _ _ _ _ _ _

/-- Under level 1 a record of operator counters holds the first two counts of its capture, and its LAYER and OPER. -/
theorem State.sampleOne_operator (s : State) (n : Nat) (x : Sel) (hl : s.sec.level = 1) (hx : x.src ≠ 1) :
    s.sampleOne n x 0 = versionOneRecord s.time.beat n ((s.opCapture n x).getD 6 0) ((s.opCapture n x).getD 7 0) ((s.opCapture n x).getD 0 0) ((s.opCapture n x).getD 1 0) := by
  have hbytes : s.sampleOne n x 0 = sampleBytes 1 s.time.beat n 0 (s.obs.sseq.get n) x ((s.opCapture n x).take 4) ((s.opCapture n x).drop 4) := by
    rw [State.sampleOne, if_neg hx, hl, State.opCapture, Nat.add_zero]
  rw [hbytes, sampleBytes_level_one]
  simp [List.getD_eq_getElem?_getD, List.getElem?_drop]

/-! ### The item that SAMPLE produces (R359, R360) -/

/-- The state in which the samples of the present beat count as taken. -/
def State.markSampled (s : State) : State := { s with obs := { s.obs with sampled := s.time.beat + 1 } }

theorem State.markSampled_hqOff (s : State) : s.markSampled.hqOff 4 = s.hqOff 4 := rfl

/-- An item of a queue that is on waits behind those produced in the beat so far. -/
theorem State.observe_queue_on (s : State) (it : ObsItem) (h : s.hqOff it.q = false) : s.observe it = { s with obs := { s.obs with new := s.obs.new ++ [it] } } := by
  refine if_neg fun hoff => ?_
  rw [h] at hoff
  exact Bool.false_ne_true hoff.2

/-- A single selector of one repetition that samples in this beat produces one item, and its SSEQ moves on. -/
theorem execSample_single (s : State) (n : Nat) (x : Sel) (hs : s.obs.sampled ≠ s.time.beat + 1) (hd : s.dueSels = [(n, x)]) (hr : x.nrep = 1) (hq : s.hqOff 4 = false) :
    ∃ t, execSample s = .next t ∧ t.obs.new = s.obs.new ++ [{ q := 4, bytes := s.markSampled.sampleOne n x 0, rank := n * 256 + 0 }] := by
  rw [execSample, if_neg hs, hd]
  simp only [List.foldl_cons, List.foldl_nil, hr, List.range_one]
  refine ⟨_, rfl, ?_⟩
  have hkept := s.markSampled.observe_queue_on { q := 4, bytes := s.markSampled.sampleOne n x 0, rank := n * 256 + 0 } (s.markSampled_hqOff.trans hq)
  exact congrArg (fun t : State => t.obs.new) hkept

/-! ### Refused arms (R359, R361) -/

/-- Under level 1 a selector that a version-1 record cannot carry is refused: for its address where that is bad too, else for the level. -/
theorem Sel.result_level_one (x : Sel) (h : 2 < x.ncnt ∨ 1 < x.nrep ∨ (x.src = 2 ∧ x.cls = 1)) : x.result 1 = 1 ∨ x.result 1 = 2 := by
  have hlevel : (1 == 1 && (decide (2 < x.ncnt) || decide (1 < x.nrep) || (x.src == 2 && x.cls == 1))) = true := by
    simpa [or_assoc] using h
  simp only [Sel.result, if_pos hlevel]
  split
  · exact .inl rfl
  · exact .inr rfl

/-- Page SAMP lies above page DEV. -/
theorem Field.key_samp_ne_seqResult (f : Field) (n : Nat) (hf : f.block = Blk.SAMP) : f.key 0 0 n ≠ Reg.DEV.SEQ_RESULT.key 0 0 0 := by
  have hpage : pageBase f.block 0 = 45056 := by rw [hf]; rfl
  have hseq : Reg.DEV.SEQ_RESULT.key 0 0 0 < 45056 * 64 * 65536 := by decide
  unfold Field.key at hseq ⊢
  rw [hpage]
  omega

/-- The arrival of a write leaves a field of page SAMP alone. -/
theorem State.rd_samp_wrote (s : State) (src : Source) (f : Field) (n : Nat) (hf : f.block = Blk.SAMP) : (s.wrote src).rd f 0 0 n = s.rd f 0 0 n :=
  State.rd_wrote s src f 0 0 n (f.key_samp_ne_seqResult n hf)

theorem State.selFields_wrote (s : State) (src : Source) (n : Nat) : (s.wrote src).selFields n = s.selFields n := by
  simp (disch := decide) only [State.selFields, State.rd_samp_wrote]

theorem State.wrote_level (s : State) (src : Source) : (s.wrote src).sec.level = s.sec.level := by
  unfold State.wrote
  dsimp only
  split
  · split <;> rfl
  · rfl

/-- The state after a refused arm: SEL_RESULT says why, and an audit record is written. -/
def State.armRefused (s : State) (src : Source) (n r : Nat) : State := ((s.wrote src).wr Reg.SAMP.SEL_RESULT r 0 0 n).auditCmd src Reg.SAMP.ARM 0 1 3

theorem execSelectorArm_refused (s : State) (src : Source) (ht : s.Takes src) (hr : (s.selFields (s.rd Reg.SAMP.SEL_SEL)).result s.sec.level ≠ 0) :
    execSelectorArm src s = .next (s.armRefused src (s.rd Reg.SAMP.SEL_SEL) ((s.selFields (s.rd Reg.SAMP.SEL_SEL)).result s.sec.level)) := by
  have hsel : (s.wrote src).rd Reg.SAMP.SEL_SEL = s.rd Reg.SAMP.SEL_SEL := s.rd_samp_wrote src Reg.SAMP.SEL_SEL 0 rfl
  obtain ⟨hopen, hmay⟩ := ht
  rw [execSelectorArm, State.basicCmd_next s src _ false hopen hmay]
  simp only [hsel, State.selFields_wrote, State.wrote_level, if_neg hr, State.armRefused]

theorem reportKey_selResult : ∀ n < 64, reportKey (Reg.SAMP.SEL_RESULT.key 0 0 n) = false := by decide

/-- The audit record leaves SEL_RESULT as the arm set it. -/
theorem State.rd_selResult_armRefused (s : State) (src : Source) (n r : Nat) (hn : n < 64) : (s.armRefused src n r).rd Reg.SAMP.SEL_RESULT 0 0 n = r % 4 := by
  rw [State.armRefused, State.rd_auditCmd _ _ _ _ _ _ _ _ _ _ _ _ (reportKey_selResult n hn)]
  exact State.rd_wr_self _ Reg.SAMP.SEL_RESULT r 0 0 n

theorem State.armRefused_writeOnly (s : State) (src : Source) (n r : Nat) : s.WriteOnly (s.armRefused src n r) := by
  obtain ⟨_, _, ewrote⟩ := State.wrote_spec s src
  obtain ⟨_, _, _, _, _, eaudit⟩ := State.auditCmd_spec ((s.wrote src).wr Reg.SAMP.SEL_RESULT r 0 0 n) src Reg.SAMP.ARM 0 1 3 0 5
  rw [State.WriteOnly, State.armRefused, eaudit, ewrote]
  rfl

/-! ### R361 -/

/-- The record of R361 that a level-1 state produces for repetition 0: its identifiers and values by source. -/
theorem State.exists_versionOneRecord (s : State) (n : Nat) (x : Sel) (hl : s.sec.level = 1) :
    ∃ lay op v0 v1, s.sampleOne n x 0 = versionOneRecord s.time.beat n lay op v0 v1 ∧ (x.src = 1 → lay = 0 ∧ op = 0) ∧
      (x.src = 1 → 0 < x.ncnt → v0 = s.frozenCount x 0) ∧ (x.src = 1 → 1 < x.ncnt → v1 = s.frozenCount x 1) ∧
      (x.src = 2 → s.obs.capt.find? (n * 256) = none →
        [v0, v1] = (s.capture (x.coreOf 0) (s.islStart (x.coreOf 0).flock.val + x.cap)).take 2 ∧
        [lay, op] = ((s.capture (x.coreOf 0) (s.islStart (x.coreOf 0).flock.val + x.cap)).drop 6).take 2) := by
  by_cases hx : x.src = 1
  · refine ⟨_, _, _, _, s.sampleOne_registers n x hl hx, fun _ => ⟨rfl, rfl⟩, fun _ => s.getD_frozenCount x 0, fun _ => s.getD_frozenCount x 1, fun h => ?_⟩
    omega
  · refine ⟨_, _, _, _, s.sampleOne_operator n x hl hx, fun h => absurd h hx, fun h => absurd h hx, fun h => absurd h hx, fun _ hcapt => ?_⟩
    have hcap : s.opCapture n x = s.capture (x.coreOf 0) (s.islStart (x.coreOf 0).flock.val + x.cap) := by rw [State.opCapture, hcapt]; rfl
    have hlen := s.length_capture (x.coreOf 0) (s.islStart (x.coreOf 0).flock.val + x.cap)
    rw [hcap]
    exact ⟨getD_pair_eq_take_drop _ 0 (by omega), getD_pair_eq_take_drop _ 6 (by omega)⟩

/-- Settles O44: the record byte by byte, then the refused arms. -/
theorem levelOneRecords : Obligations.LevelOneRecords := by
  refine ⟨?_, ?_⟩
  · rintro s n x hl hs hd hr hq u rfl
    obtain ⟨t, hexec, hnew⟩ := execSample_single s n x hs hd hr hq
    obtain ⟨lay, op, v0, v1, hbytes, hids, h0, h1, hop⟩ := s.markSampled.exists_versionOneRecord n x hl
    exact ⟨t, _, lay, op, v0, v1, hexec, hnew, rfl, hbytes, (congrArg List.length hbytes).trans (length_versionOneRecord ..), hids, h0, h1, hop⟩
  · rintro s src n x ht hl rfl hn rfl hbad
    have hresult := (s.selFields (s.rd Reg.SAMP.SEL_SEL)).result_level_one hbad
    rw [← hl] at hresult
    refine ⟨_, execSelectorArm_refused s src ht (by omega), ?_, s.armRefused_writeOnly src _ _⟩
    rw [State.rd_selResult_armRefused _ _ _ _ hn]
    omega

end Sys2Proof.Machine
end

section
/-! PROOF. What ends the unlock, and the audited refusal of every write of an expert field while UNLOCK is clear (R382). -/

namespace Sys2Proof.Machine

open Sys2Proof

/-! ### What a reset leaves of the authorisation (R309, R310) -/

@[simp] theorem State.coldNow_auth (s : State) (cause : Nat) : (s.coldNow cause).auth = {} := rfl

@[simp] theorem State.onDie_auth (s : State) : s.onDie.auth = {} := rfl

@[simp] theorem State.bootRestart_auth (s : State) (cause : Nat) : (s.bootRestart cause).auth = {} := rfl

@[simp] theorem State.warmNow_auth (s : State) (req : Bool) (cause : Nat) : (s.warmNow req cause).auth = {} := by
  show (if _ then (State.wr (State.onDie _) Reg.DEV.RESET_CAUSE cause).bump _ _ _ _ _ else State.wr (State.onDie _) Reg.DEV.RESET_CAUSE cause).auth = {}
  split
  · rw [State.bump_auth, State.wr_auth, State.onDie_auth]
  · rw [State.wr_auth, State.onDie_auth]

@[simp] theorem State.resetNow_auth (s : State) (req : Bool) (cause : Nat) : (s.resetNow req cause).auth = {} := by
  unfold State.resetNow
  split
  · exact s.warmNow_auth req cause
  · exact s.bootRestart_auth cause

theorem State.wrote_reqReset (s : State) (src : Source) : (s.wrote src).sec.reqReset = s.sec.reqReset := by
  unfold State.wrote
  dsimp only
  split
  · split
    · rfl
    · rfl
  · rfl

/-- A keyed request that reaches the block before the data path starts is audited, and its reset acts at once. -/
theorem State.requestReset_atOnce (s : State) (src : Source) (cold : Bool) (hp : s.sec.pwrGood = true) (hn : s.sec.resetN = true)
    (hm : s.mayWrite src true = true) (hr : s.time.started = false) (hq : s.sec.reqReset = none) :
    ∃ r, s.requestReset src cold 0x5253 = if cold then (((s.wrote src).audit r).coldNow 5) else (((s.wrote src).audit r).resetNow true 4) := by
  refine ⟨{ block := Blk.DEV, off := (if cold then Reg.DEV.COLD else Reg.DEV.WARM).off, source := src.num, result := 0,
            new := 0x5253 * 65536 + (if cold then 4 else 2), kind := 5 }, ?_⟩
  simp [State.requestReset, hp, hn, hm, hr, State.wrote_reqReset, hq]

/-- So nothing is authorised after it. -/
theorem State.requestReset_atOnce_auth (s : State) (src : Source) (cold : Bool) (hp : s.sec.pwrGood = true) (hn : s.sec.resetN = true)
    (hm : s.mayWrite src true = true) (hr : s.time.started = false) (hq : s.sec.reqReset = none) :
    (s.requestReset src cold 0x5253).auth = {} := by
  obtain ⟨r, e⟩ := s.requestReset_atOnce src cold hp hn hm hr hq
  rw [e]
  cases cold
  · exact State.resetNow_auth _ true 4
  · exact State.coldNow_auth _ 5

/-! ### LOCK and the end of a token (R351) -/

theorem State.endToken_auth (s : State) (h : s.auth.token ≠ none) : s.endToken.auth = {} := by
  obtain ⟨k, hk⟩ := Option.ne_none_iff_exists'.1 h
  simp only [State.endToken, hk, State.event_auth]

theorem exec_lock (s : State) (src : Source) (ht : s.Takes src) :
    ∃ t, exec (.lock src) s = .next t ∧ t.auth = { s.auth with unlocked := false } := by
  obtain ⟨hopen, hmay⟩ := ht
  refine ⟨_, (State.basicCmd_next s src _ false hopen hmay : execLock src s = _), ?_⟩
  rw [State.auditCmd_auth, State.wrote_auth]

theorem exec_tokenExpiry (s : State) (k : Token) (hk : s.auth.token = some k) (he : k.expiry ≤ s.time.beat) :
    exec .tokenExpiry s = .next s.endToken := by
  show Host.Outcome.next s.tokenBeat = _
  simp only [State.tokenBeat, hk, if_pos he]

/-- DBG_REVOKE is audited; the token ends at the boundary, or at once before there are boundaries. -/
theorem exec_dbgRevoke (s : State) (src : Source) (ht : s.Takes src true) :
    ∃ u : State, u.auth = s.auth ∧ u.acts = s.acts ∧ exec (.dbgRevoke src) s = .next (if s.time.started then u.later .tokenEnd else u.endToken) := by
  refine ⟨(s.wrote src).auditCmd src Reg.SEC.DBG_REVOKE 0 2 0 0 4, ?_, ?_, ?_⟩
  · rw [State.auditCmd_auth, State.wrote_auth]
  · rw [State.auditCmd_acts, State.wrote_acts]
  · show execDbgRevoke src s = _
    rw [execDbgRevoke, State.basicCmd_next s src _ true ht.1 ht.2]
    simp only [State.auditCmd_time, State.wrote_time]

/-! ### A write of an expert field while UNLOCK is clear (R11, R344) -/

/-- t is s after a write of an expert field of a page that is refused: it arrives, has no effect, and its audit record carries RESULT 2. -/
def State.LockedWrite (s : State) (src : Source) (block inst : Nat) (t : State) : Prop :=
  ∃ r : AuditRec, r.result = 2 ∧ r.block = block ∧ r.inst = inst ∧ r.source = src.num ∧ t = (s.wrote src).audit r

/-- A word's own command, where it has one, is refused so. -/
def State.LockedWord (s : State) (src : Source) (block inst : Nat) (o : Option State) : Prop := ∀ t ∈ o, s.LockedWrite src block inst t

theorem State.lockedWrite_auditCmd (s : State) (src : Source) (f : Field) (i n : Nat) :
    s.LockedWrite src f.block i ((s.wrote src).auditCmd src f i n 2) := ⟨_, rfl, rfl, rfl, rfl, rfl⟩

theorem State.lockedWord_some (s : State) (src : Source) (f : Field) (i n : Nat) (k : State → Host.Outcome State Fault Refusal)
    (h : k s = .next ((s.wrote src).auditCmd src f i n 2)) : s.LockedWord src f.block i (some (nextOf s k)) := by
  rintro _ ⟨⟩
  rw [nextOf, h]
  exact s.lockedWrite_auditCmd src f i n

/-- A command that only some values of its word name. -/
theorem State.lockedWord_ite {s : State} {src : Source} {block inst : Nat} {o : Option State} (c : Prop) [Decidable c] (h : s.LockedWord src block inst o) :
    s.LockedWord src block inst (if c then o else none) := by
  split
  · exact h
  · rintro _ ⟨⟩

theorem State.lockedWord_expertCmd {s : State} {src : Source} {inst : Nat} (ht : s.Takes src) (hu : s.auth.unlocked = false) (f : Field) (i n : Nat)
    (k : State → State) (h : i = inst) : s.LockedWord src f.block inst (some (nextOf s fun s => s.expertCmd src f i n k)) :=
  h ▸ s.lockedWord_some src f i n _ (State.expertCmd_locked s src f i n k ht.1 ht.2 hu)

theorem State.lockedWord_none (s : State) (src : Source) (block inst : Nat) : s.LockedWord src block inst none := by
  rintro _ ⟨⟩

/-- CAL_FORCE checks UNLOCK itself, and is refused like every other expert command. -/
theorem execCalForce_locked (s : State) (src : Source) (ht : s.Takes src) (hu : s.auth.unlocked = false) :
    execCalForce src s = .next ((s.wrote src).auditCmd src Reg.CAL.CAL_FORCE 0 1 2) := by
  rw [execCalForce, State.basicCmd_next s src _ false ht.1 ht.2]
  simp [hu]

/-- A page of the map (R372) is one of those its block has. -/
theorem pageOf_inst_lt (p : Nat) : ∀ x ∈ pageOf p, x.2 < instancesOf x.1 := by
  have row {c : Prop} [Decidable c] {b i : Nat} {o : Option (Nat × Nat)} (h : c → i < instancesOf b) (ho : ¬ c → ∀ x ∈ o, x.2 < instancesOf x.1) :
      ∀ x ∈ if c then some (b, i) else o, x.2 < instancesOf x.1 := by
    by_cases hc : c
    · rw [if_pos hc]
      rintro _ ⟨⟩
      exact h hc
    · rw [if_neg hc]
      exact ho hc
  unfold pageOf
  refine row (fun _ => by decide) fun _ => ?_
  refine row (fun _ => by show p - 1 < 3; omega) fun _ => ?_
  refine row (fun _ => by interval_cases p <;> decide) fun _ => ?_
  refine row (fun _ => by show p - 16 < 16; omega) fun _ => ?_
  refine row (fun _ => by show p - 32 < 16; omega) fun _ => ?_
  refine row (fun _ => by show p - 48 < 8; omega) fun _ => ?_
  refine row (fun ⟨_, _⟩ => by interval_cases p <;> decide) fun _ => ?_
  refine row (fun _ => by show p - 64 < 8; omega) fun _ => ?_
  refine row (fun _ => by show p - 72 < 12; omega) fun _ => ?_
  refine row (fun _ => by decide) fun _ => ?_
  refine row (fun _ => by decide) fun _ => ?_
  exact row (fun _ => by show p - 256 < 256; omega) fun _ => by rintro _ ⟨⟩

/-- A 32-bit or 64-bit word at offset off of a page lies among its expert fields, a source may write it, and UNLOCK is clear. -/
structure State.ExpertLocked (s : State) (src : Source) (block inst off : Nat) : Prop where
  takes : s.Takes src
  locked : s.auth.unlocked = false
  inst_lt : inst < instancesOf block
  ne_zct : block ≠ Blk.ZCT
  lo : 0x800 ≤ off
  hi : off < 0xF00

section
variable {s : State} {src : Source} {block inst off : Nat}

/-- The 32-bit words at 0x800 to 0xEFF with a command of their own: each is refused while UNLOCK is clear. -/
theorem State.cmdWord_locked (hx : s.ExpertLocked src block inst off) (v : Nat) :
    s.LockedWord src block inst (s.cmdWord src block inst off v) := by
  obtain ⟨ht, hu, hi, -, hlo, -⟩ := hx
  have refused := State.lockedWord_expertCmd (inst := inst) ht hu
  have single (h : instancesOf block = 1) : 0 = inst := by omega
  simp only [State.cmdWord]
  rw [if_neg (by omega), if_neg (by omega), if_neg (by omega)]
  split
  all_goals try omega -- words outside 0x800 to 0xEFF
  · exact State.lockedWord_ite _ (refused Reg.DEV.VEC0_FORCE 0 _ _ (single rfl))
  · exact State.lockedWord_ite _ (single rfl ▸ s.lockedWord_some src Reg.CAL.CAL_FORCE _ _ _ (execCalForce_locked s src ht hu))
  · exact refused Reg.AGE.VOLT_OVR_MV 0 _ _ (single rfl)
  · exact refused Reg.AGE.PLANNER_HOLD 0 _ _ (single rfl)
  · exact refused Reg.LEDG.NO_BREAK_ACT 0 _ _ (single rfl)
  · exact refused Reg.LEDG.BREAK_INJ 0 _ _ (single rfl)
  · exact State.lockedWord_ite _ (refused Reg.FRAG.FLUSH 0 _ _ (single rfl))
  · exact refused Reg.VERD.LANE_PASS_SET 0 _ _ (single rfl)
  · exact State.lockedWord_ite _ (refused Reg.VERD.FORCE_SAFE 0 _ _ (single rfl))
  · exact State.lockedWord_ite _ (refused Reg.VERD.PATCH_GO 0 _ _ (single rfl))
  · exact refused Reg.SHAPE.Q_TOKENS_SET 0 _ _ (single rfl)
  · exact State.lockedWord_ite _ (refused Reg.POLICE.TOK_GO 0 _ _ (single rfl))
  · exact State.lockedWord_ite _ (refused Reg.HBMC.ECC_INJ _ _ _ (Nat.mod_eq_of_lt hi))
  · exact State.lockedWord_ite _ (refused Reg.CTX.FORCE_RETIRE 0 _ _ (single rfl))
  · exact State.lockedWord_ite _ (refused Reg.FLOCK.INJ_ARM _ _ _ (Nat.mod_eq_of_lt hi))
  · exact State.lockedWord_ite _ (refused Reg.FLOCK.PATCH_GO _ _ _ (Nat.mod_eq_of_lt hi))
  · exact State.lockedWord_ite _ (refused Reg.FLOCK.SYNC_SET_GO _ _ _ (Nat.mod_eq_of_lt hi))
  · rw [if_neg (by omega)]
    exact s.lockedWord_none src _ _

/-- The 64-bit words at 0x800 to 0xEFF with a command of their own: TREE_OFF and ARRAY_OFF. -/
theorem State.cmdWide_locked (hx : s.ExpertLocked src block inst off) (v : Nat) :
    s.LockedWord src block inst (s.cmdWide src block inst off v) := by
  obtain ⟨ht, hu, hi, -, hlo, hhi⟩ := hx
  have refused := State.lockedWord_expertCmd (inst := inst) ht hu
  simp only [State.cmdWide]
  split
  all_goals try omega -- words outside 0x800 to 0xEFF
  · exact refused Reg.FLOCK.TREE_OFF _ _ _ (Nat.mod_eq_of_lt hi)
  · exact refused Reg.FLOCK.ARRAY_OFF _ _ _ (Nat.mod_eq_of_lt hi)
  · rw [if_neg (by omega), if_neg (by omega)]
    exact s.lockedWord_none src _ _

/-- A word without a command of its own is not stored. -/
theorem State.plainWrite_locked (hx : s.ExpertLocked src block inst off) (n v : Nat) :
    s.LockedWrite src block inst (s.plainWrite src block inst off n v) := by
  obtain ⟨-, hu, -, hb, hlo, hhi⟩ := hx
  have hdebug : ¬ (0xF00 ≤ off ∧ ¬ (s.wrote src).debugOpen block inst = true) := by omega
  have hexpert : (decide (0x800 ≤ off) && decide (off < 0xF00) && block != Blk.ZCT) = true := by simp [hlo, hhi, hb]
  simp only [State.plainWrite, if_neg hdebug, hexpert, State.wrote_auth, hu, Bool.not_false, Bool.and_self, Bool.true_or, if_true,
    Bool.false_eq_true, and_false, if_false]
  exact ⟨_, rfl, rfl, rfl, rfl, rfl⟩

theorem State.writeWord_locked (hx : s.ExpertLocked src block inst off) (v : Nat) : s.LockedWrite src block inst (s.writeWord src block inst off v) := by
  unfold State.writeWord
  split
  next t h => exact State.cmdWord_locked hx v t h
  next => exact State.plainWrite_locked hx 4 v

theorem State.writeDword_locked (hx : s.ExpertLocked src block inst off) (hw : (wideAt block inst off).isSome = true) (v : Nat) :
    s.LockedWrite src block inst (s.writeDword src block inst off v) := by
  unfold State.writeDword
  split
  next t h => exact State.cmdWide_locked hx v t h
  next => rw [if_pos hw]; exact State.plainWrite_locked hx 8 v

/-- The low half of a locked expert field is not held. -/
theorem State.holdLow_locked (hx : s.ExpertLocked src block inst off) (v : Nat) :
    s.LockedWrite src block inst (s.holdLow src block inst off v) := by
  unfold State.holdLow
  rw [if_pos (by simp [hx.lo, hx.hi, hx.locked])]
  exact State.plainWrite_locked hx 4 v

theorem wideAt_base : wideAt block inst (off / 8 * 8) = wideAt block inst off := by
  rw [wideAt, Nat.mul_div_cancel _ (by decide), wideAt]

theorem State.ExpertLocked.base (hx : s.ExpertLocked src block inst off) : s.ExpertLocked src block inst (off / 8 * 8) := by
  obtain ⟨ht, hu, hi, hb, hlo, hhi⟩ := hx
  exact ⟨ht, hu, hi, hb, by omega, by omega⟩

theorem State.writeHigh_locked (hx : s.ExpertLocked src block inst off) (hw : (wideAt block inst off).isSome = true) (v : Nat) :
    s.LockedWrite src block inst (s.writeHigh src block inst off v) :=
  State.writeDword_locked hx.base (by rw [wideAt_base, hw]) _

/-- No expert field is one that the sideband may write. -/
theorem mailPage_expert (hlo : 0x800 ≤ off) : mailPage block off = false := by
  simp only [mailPage, Bool.or_eq_false_iff, Bool.and_eq_false_iff, beq_eq_false_iff_ne, decide_eq_false_iff_not]
  omega

theorem State.pageWrite_locked (hx : s.ExpertLocked src block inst off) (v : Nat) : s.LockedWrite src block inst (s.pageWrite src block inst off 32 v) := by
  obtain ⟨hopen, hmay⟩ := hx.takes
  rw [State.pageWrite, mailPage_expert hx.lo, if_neg (not_not.2 hmay), if_neg (not_not.2 hopen), if_neg (by decide)]
  cases hw : wideAt block inst off with
  | none => exact State.writeWord_locked hx v
  | some e =>
    rw [if_neg (by simp)]
    split
    · exact State.holdLow_locked hx v
    · exact State.writeHigh_locked hx (hw ▸ rfl) v

/-- A source that may write a basic field is not the host driver over an insecure CXL.io (R285). -/
theorem State.Takes.secure (ht : s.Takes src) : ¬ (src = .bar0 ∧ s.host.ideIo = .insecure) := by
  rintro ⟨rfl, hide⟩
  have hmay := ht.2
  simp [State.mayWrite, hide] at hmay

/-- An aligned 32-bit write at 0x800 to 0xEFF of a page, through the register access. -/
theorem State.access_locked {a : RegAccess} (ht : s.Takes src) (hu : s.auth.unlocked = false) (hwr : a.write = true) (hfull : a.fullBytes = true)
    (hsize : a.size = 32) (halign : a.addr % 4 = 0) (hp : pageOf (a.addr / 4096) = some (block, inst)) (hb : block ≠ Blk.ZCT)
    (hlo : 0x800 ≤ a.addr % 4096) (hhi : a.addr % 4096 < 0xF00) : s.LockedWrite src block inst (s.access src a) := by
  have hgood : badAccess a = false := by simp [badAccess, hsize, hfull, halign, hp]
  rw [State.access, if_neg ht.secure]
  simp only [hgood, hp, hwr, if_true, Bool.false_eq_true, if_false, hsize]
  exact State.pageWrite_locked ⟨ht, hu, pageOf_inst_lt _ _ hp, hb, hlo, hhi⟩ _

end

/-! ### R382 -/

/-- Settles O43: LOCK, the end of the token, every reset, and the refused writes, clause by clause. -/
theorem unlockEnds : Obligations.UnlockEnds := by
  refine ⟨?lock, ?endToken, ?expiry, ?revoke, ?resetN, ?pwrGood, ?warm, ?cold, ?request, ?write, ?force⟩
  case lock =>
    intro s src ht
    obtain ⟨t, hexec, hauth⟩ := exec_lock s src ht
    exact ⟨t, hexec, by rw [hauth]⟩
  case endToken =>
    intro s hk
    have hend : s.endToken.auth.unlocked = false := by rw [s.endToken_auth hk]
    exact ⟨hend, hend⟩
  case expiry =>
    intro s k hk hbeat
    refine ⟨_, exec_tokenExpiry s k hk hbeat, ?_⟩
    rw [s.endToken_auth (by simp [hk])]
  case revoke =>
    intro s src ht hk
    obtain ⟨u, hauth, hacts, hexec⟩ := exec_dbgRevoke s src ht
    refine ⟨fun hr => ⟨u.endToken, ?_, ?_⟩, fun hr => ⟨u.later .tokenEnd, ?_, ?_⟩⟩
    · rw [hexec, hr]; rfl
    · rw [u.endToken_auth (hauth ▸ hk)]
    · rw [hexec, hr]; rfl
    · exact congrArg (· ++ [Act.tokenEnd]) hacts
  case resetN =>
    intro s hp hn
    exact ⟨_, (if_pos ⟨hp, hn⟩ : execResetNLow s = _), congrArg AuthSt.unlocked (s.resetNow_auth false 3)⟩
  case pwrGood =>
    intro s
    exact ⟨_, rfl, congrArg AuthSt.unlocked (s.coldNow_auth 2)⟩
  case warm =>
    intro s hq hr hbeat
    exact ⟨_, (if_pos ⟨hq, hr, hbeat⟩ : execWarmReset s = _), congrArg AuthSt.unlocked (s.warmNow_auth true 4)⟩
  case cold =>
    intro s hq hr
    have hexec : execBeatMarker .portCore s = .next (s.avSave.coldNow 5) := by simp [execBeatMarker, State.coldDue, hq, hr]
    exact ⟨_, hexec, congrArg AuthSt.unlocked (s.avSave.coldNow_auth 5)⟩
  case request =>
    intro s src hp hn hm hr hq
    exact ⟨⟨_, rfl, congrArg AuthSt.unlocked (s.requestReset_atOnce_auth src false hp hn hm hr hq)⟩,
      ⟨_, rfl, congrArg AuthSt.unlocked (s.requestReset_atOnce_auth src true hp hn hm hr hq)⟩⟩
  case write =>
    intro s src a block inst ht hu hbar hwr hfull hsize haddr halign hp hb hlo hhi
    obtain ⟨r, hres, hblock, hinst, hsrc, he⟩ := State.access_locked ht hu hwr hfull hsize halign hp hb hlo hhi
    refine ⟨r, hres, hblock, hinst, hsrc, ?_⟩
    show execRegisterWrite src a s = _
    rw [execRegisterWrite, hbar, if_neg (by decide), if_neg (Nat.not_le.2 haddr), he]
  case force =>
    intro s src p v block inst ht hu hp
    obtain ⟨hopen, hmay⟩ := ht
    obtain ⟨r, hres, hblock, hinst, hsrc, he⟩ := s.lockedWrite_auditCmd src (Reg.COMMON.EVENT_FORCE.on block) inst v.toNat
    refine ⟨r, hres, hblock, hinst, hsrc, ?_⟩
    show execEventForce src p v s = _
    simp only [execEventForce, hp]
    rw [State.expertCmd_locked s src _ inst v.toNat _ hopen hmay hu, he]

end Sys2Proof.Machine
end

section
/-! PROOF. Single steps and closed pages: the front of the queue, the idle step (R15, R226), reset values (R334, R379), the register pages before
stage READY (R336) and what the sideband and a closed JTAG port may write (R343, R352). -/

namespace Sys2Proof.Machine

-- One thread for the proofs, which bounds the memory that checking them takes.
set_option Elab.async false

open Sys2Proof

/-! ### The front of the queue, and the idle step -/

/-- Settles O45, by the definition of a step on a queue with a front. -/
theorem stepRunsTheFront : Obligations.StepRunsTheFront := by
  unfold Obligations.StepRunsTheFront
  intro c rest s h
  rw [step, h]

/-- Capturing operator counts changes nothing but the captured counts. -/
theorem State.captureCycle_spec (s : State) : ∃ c, s.captureCycle = { s with obs := { s.obs with capt := c } } := by
  unfold State.captureCycle
  dsimp only
  split
  · exact ⟨s.obs.capt, rfl⟩
  · exact ⟨_, rfl⟩

theorem step_of_pending_nil (s : State) (h : s.pending = []) : step s = .next (tick s) := by
  rw [step, h]

/-- Settles O46, from what capturing the operator counts may change. -/
theorem idleStep : Obligations.IdleStep := by
  unfold Obligations.IdleStep
  refine ⟨fun s hp hs hc => ?_, fun s hp h => ?_⟩
  · obtain ⟨c, e⟩ := ({ s with time := { s.time with cycle := s.time.cycle + 1 } } : State).captureCycle_spec
    refine ⟨_, step_of_pending_nil s hp, ?_⟩
    rw [tick, if_pos ⟨hs, hc⟩, e]
    exact ⟨rfl, rfl, rfl⟩
  · rw [step_of_pending_nil s hp, tick, if_neg]
    rintro ⟨hs, hc⟩
    rcases h with h | h
    · simp [h] at hs
    · omega

/-! ### Reset -/

theorem State.rd_reset (f : Field) (i j k : Nat) : State.reset.rd f i j k = f.resetAt j := rfl

/-- Settles O47: the register file is empty after reset, so every field reads as its reset value. -/
theorem resetValues : Obligations.ResetValues := by
  unfold Obligations.ResetValues
  have hcap : State.reset.rd Reg.SAMP.CAP_BYTES = 262144 := by rw [State.rd_reset]; rfl
  have hdetect : State.reset.rd Reg.HERD.DETECT_BEATS = 64 := by rw [State.rd_reset]; rfl
  have hopen : State.reset.pagesOpen = false := by simp only [State.pagesOpen, State.rd_reset]; rfl
  have halert : State.reset.alertN = true := by simp only [State.alertN, State.rd_reset]; rfl
  refine ⟨rfl, rfl, rfl, rfl, rfl, hopen, halert, fun p block inst _ => ?_, hcap, hdetect, rfl⟩
  have hmask : State.reset.rd (Reg.COMMON.EVENT_MASK.on block) inst = 0xFFFFFFFF := by rw [State.rd_reset]; rfl
  have hzero (f : Field) (hf : (f.on block).resetAt 0 = 0) : State.reset.rd (f.on block) inst = 0 := by rw [State.rd_reset, hf]
  have hev : State.reset.eventWord block inst = 0 := by
    simp [State.eventWord, hzero Reg.COMMON.EVENT rfl, hzero Reg.COMMON.EV_STATE rfl, hzero Reg.COMMON.EV_FAULT rfl]
  exact ⟨hev, hmask, State.rd_reset _ _ _ _, State.rd_reset _ _ _ _⟩

/-- Settles O51: no field is unlocked after reset. -/
theorem lockedAtReset : Obligations.LockedAtReset := by
  unfold Obligations.LockedAtReset State.AuthOk
  intro h
  exact absurd h (by decide)

/-- Settles O53: both memories are empty after reset. -/
theorem memoryCanonicalAtReset : Obligations.MemoryCanonicalAtReset := by
  unfold Obligations.MemoryCanonicalAtReset
  exact ⟨rfl, rfl⟩

/-! ### Accesses to pages -/

/-- A well-formed write of BAR0 comes to the page its address lies in, unless CXL.io keeps the host out (R285). -/
theorem State.access_write (s : State) (src : Source) (a : RegAccess) (block inst : Nat) (hb : badAccess a = false) (hp : pageOf (a.addr / 4096) = some (block, inst))
    (hw : a.write = true) : s.access src a = s ∨ s.access src a = s.pageWrite src block inst (a.addr % 4096) a.size (a.value % 2 ^ a.size) := by
  unfold State.access
  split
  · exact .inl rfl
  · exact .inr (by simp [hb, hp])

/-- A read of a page other than DEV before the pages are open returns zeros (R336). -/
theorem State.access_read_closed (s : State) (src : Source) (a : RegAccess) (block inst : Nat) (hb : badAccess a = false)
    (hp : pageOf (a.addr / 4096) = some (block, inst)) (hr : a.write = false) (hc : s.pagesOpen = false) (hd : block ≠ Blk.DEV) :
    s.access src a = s.readData 0 := by
  unfold State.access
  split
  · simp [hr]
  · simp [hb, hp, hr, hc, hd]

/-- Before the pages are open a write changes nothing but through DEV.CTRL (R336). -/
theorem State.pageWrite_closed (s : State) (src : Source) (block inst off size v : Nat) (hc : s.pagesOpen = false) (hd : ¬ (block = Blk.DEV ∧ off = 0x10)) :
    s.pageWrite src block inst off size v = s := by
  simp [State.pageWrite, hc, hd]

/-- A source that may not write changes nothing. -/
theorem State.pageWrite_barred (s : State) (src : Source) (block inst off size v : Nat) (h : s.mayWrite src (mailPage block off) = false) :
    s.pageWrite src block inst off size v = s := by
  simp [State.pageWrite, h]

theorem execRegisterWrite_bar0 (s : State) (src : Source) (a : RegAccess) (hb : a.bar4 = false) (ha : a.addr < 2 ^ 26) :
    exec (.registerWrite src a) s = .next (s.access src a) := by
  change execRegisterWrite src a s = _
  rw [execRegisterWrite, hb, if_neg (by decide), if_neg (Nat.not_le.2 ha)]

/-- A write that its page leaves without effect leaves the device as it was. -/
theorem execRegisterWrite_noEffect (s : State) (src : Source) (a : RegAccess) (block inst : Nat) (hb : a.bar4 = false) (ha : a.addr < 2 ^ 26)
    (hbad : badAccess a = false) (hp : pageOf (a.addr / 4096) = some (block, inst)) (hw : a.write = true)
    (h : s.pageWrite src block inst (a.addr % 4096) a.size (a.value % 2 ^ a.size) = s) : exec (.registerWrite src a) s = .next s := by
  rw [execRegisterWrite_bar0 s src a hb ha]
  rcases s.access_write src a block inst hbad hp hw with e | e
  · rw [e]
  · rw [e, h]

/-! ### Commands of closed pages and of barred sources -/

/-- A basic command of a closed page, or of a source that may not write there, changes nothing. -/
theorem State.basicCmd_barred (s : State) (src : Source) (k : State → State) (mail : Bool) (h : s.pagesOpen = false ∨ s.mayWrite src mail = false) :
    s.basicCmd src k mail = .next s :=
  State.basicCmd_blocked s src k mail fun ⟨h1, h2⟩ => by rcases h with h | h <;> simp_all

theorem State.expertCmd_barred (s : State) (src : Source) (f : Field) (i n : Nat) (k : State → State) (h : s.pagesOpen = false ∨ s.mayWrite src false = false) :
    s.expertCmd src f i n k = .next s := s.basicCmd_barred src _ false h

theorem exec_expertKey_barred (s : State) (src : Source) (v : Word) (h : s.pagesOpen = false ∨ s.mayWrite src false = false) :
    exec (.expertKey src v) s = .next s :=
  if_neg fun ⟨h1, h2⟩ => by rcases h with h | h <;> simp_all

theorem exec_eventClear_barred (s : State) (src : Source) (p : Fin 512) (v w : Word) (h : s.pagesOpen = false ∨ s.mayWrite src false = false) :
    exec (.eventClear src p v w) s = .next s := by
  change execEventClear src p v w s = _
  unfold execEventClear
  split
  · rfl
  · exact s.basicCmd_barred src _ false h

theorem exec_eventMaskWrite_barred (s : State) (src : Source) (p : Fin 512) (v : Word) (h : s.pagesOpen = false ∨ s.mayWrite src false = false) :
    exec (.eventMaskWrite src p v) s = .next s := by
  change execEventMaskWrite src p v s = _
  unfold execEventMaskWrite
  split
  · rfl
  · exact s.basicCmd_barred src _ false h

/-- Settles O48, from what a page write and a command do while the pages are closed. -/
theorem pagesClosed : Obligations.PagesClosed := by
  unfold Obligations.PagesClosed
  refine ⟨fun s src a block inst hc hb ha hbad hp hd => ⟨fun hw => ?_, fun hr => ?_⟩, fun s src a hc hb ha hbad hp hw ho => ?_, fun s src v p hc => ?_⟩
  · exact execRegisterWrite_noEffect s src a block inst hb ha hbad hp hw (s.pageWrite_closed src block inst _ _ _ hc fun h => hd h.1)
  · rw [execRegisterWrite_bar0 s src a hb ha, s.access_read_closed src a block inst hbad hp hr hc hd]
    rfl
  · exact execRegisterWrite_noEffect s src a _ _ hb ha hbad hp hw (s.pageWrite_closed src _ _ _ _ _ hc fun h => ho h.2)
  · have hbasic (k : State → State) (mail : Bool) : s.basicCmd src k mail = .next s := s.basicCmd_barred src k mail (.inl hc)
    exact ⟨(hbasic _ _ : execLock src s = _), exec_expertKey_barred s src v (.inl hc), exec_eventClear_barred s src p v 0 (.inl hc),
      exec_eventMaskWrite_barred s src p v (.inl hc), (hbasic _ _ : execLoad src s = _), (hbasic _ _ : execCommit src false s = _),
      (hbasic _ _ : execRuleCommit src s = _), (hbasic _ _ : execDbgGo src s = _), (hbasic _ _ : execSetGo src s = _), (s.expertCmd_barred src _ _ _ _ (.inl hc) : execForceSafe src s = _),
      (hbasic _ _ : execStart src s = _)⟩

/-- Settles O49, from what a page write and a command of a barred source do. -/
theorem sourceRights : Obligations.SourceRights := by
  unfold Obligations.SourceRights
  refine ⟨fun s a block inst hb ha hbad hw hp => ⟨fun hm => ?_, fun hj => ?_⟩, fun s v => ?_, fun s v hj => ?_⟩
  · exact execRegisterWrite_noEffect s .sideband a block inst hb ha hbad hp hw (s.pageWrite_barred .sideband block inst _ _ _ hm)
  · exact execRegisterWrite_noEffect s .jtag a block inst hb ha hbad hp hw (s.pageWrite_barred .jtag block inst _ _ _ hj)
  · have hbasic (k : State → State) : s.basicCmd .sideband k = .next s := s.basicCmd_barred .sideband k false (.inr rfl)
    exact ⟨(hbasic _ : execLock .sideband s = _), exec_expertKey_barred s .sideband v (.inr rfl), (s.expertCmd_barred .sideband _ _ _ _ (.inr rfl) : execForceSafe .sideband s = _),
      (hbasic _ : execLoad .sideband s = _), (hbasic _ : execRuleCommit .sideband s = _)⟩
  · have hbasic (k : State → State) (mail : Bool) : s.basicCmd .jtag k mail = .next s := s.basicCmd_barred .jtag k mail (.inr hj)
    exact ⟨(hbasic _ _ : execLock .jtag s = _), exec_expertKey_barred s .jtag v (.inr hj), (hbasic _ _ : execDbgGo .jtag s = _)⟩

end Sys2Proof.Machine
end

section
/-! PROOF. What every command keeps: the relation between a state and what comes of it. -/

namespace Sys2Proof.Machine

-- One thread for the proofs, which bounds the memory that checking them takes.
set_option Elab.async false

open Sys2Proof

/-- What the invariants speak of: the queue, whether the data path runs, the beat, both memories, the
authorisation and the safe state. -/
def KeepsCore (s : State) (p : List Instr) (run : Bool × Nat) (m b : Mem) (a : AuthSt) (safe : Bool) : Prop :=
  p = s.pending ∧ run = (s.time.started, s.time.beat) ∧ (s.MemOk → Mem.wf b = true ∧ Mem.wf m = true) ∧
    (s.AuthOk → a.unlocked = true → ∃ k, a.token = some k ∧ bits k.perms 2 1 = 1) ∧ (s.devSafe = true → safe = true)

/-- t keeps of s what the invariants speak of, neither starts nor stops the data path, and is of the same beat. -/
def State.Keeps (s t : State) : Prop := KeepsCore s t.pending (t.time.started, t.time.beat) t.host.mem t.hbm t.auth t.devSafe

variable {α β γ : Type} {s0 s t : State}

/-! The same of the states inside a result: of a pair, an option, a write of a page's elements, and of a command that answers a next state. -/

def KeepsFst (s0 : State) (p : State × β) : Prop := s0.Keeps p.1
def KeepsSnd (s0 : State) (p : β × State) : Prop := s0.Keeps p.2
def KeepsOpt (s0 : State) (o : Option State) : Prop := ∀ t, o = some t → s0.Keeps t
def Completes (s0 : State) (o : Host.Outcome State Fault Refusal) : Prop := ∃ t, o = .next t ∧ s0.Keeps t
def KeepsWrote (s0 : State) (w : Wrote) : Prop := s0.Keeps w.s

theorem State.Keeps.refl (s : State) : s.Keeps s := ⟨rfl, rfl, fun h => h, fun h => h, fun h => h⟩

theorem State.Keeps.trans {u : State} (h : s.Keeps t) (h' : t.Keeps u) : s.Keeps u := by
  obtain ⟨hp, hr, hm, ha, hs⟩ := h
  obtain ⟨hp', hr', hm', ha', hs'⟩ := h'
  exact ⟨hp'.trans hp, hr'.trans hr, fun h => hm' (hm h), fun h => ha' (ha h), fun h => hs' (hs h)⟩

/-- What every command keeps, resets and START among them: after a reset the data path does not run, so the safe state may end. -/
def State.After (s t : State) : Prop :=
  t.pending = s.pending ∧ (s.MemOk → t.MemOk) ∧ (s.AuthOk → t.AuthOk) ∧ (s.devSafe = true → t.time.started = true → t.devSafe = true)

theorem State.Keeps.after (h : s.Keeps t) : s.After t := by
  obtain ⟨hp, _, hm, ha, hs⟩ := h
  exact ⟨hp, hm, ha, fun h _ => hs h⟩

theorem State.After.keeps {u : State} (h : s.After t) (h' : t.Keeps u) : s.After u := by
  obtain ⟨hp, hm, ha, hs⟩ := h
  obtain ⟨hp', hr', hm', ha', hs'⟩ := h'
  exact ⟨hp'.trans hp, fun h => hm' (hm h), fun h => ha' (ha h), fun h hr => hs' (hs h ((congrArg Prod.fst hr').symm.trans hr))⟩

/-- What every command keeps, of a state whose time and security state were set first. -/
theorem State.Keeps.afterSet {x : TimeSt} {y : SecSt} (h : s0.Keeps s) (h' : ({ s with time := x, sec := y } : State).After t) : s0.After t := by
  obtain ⟨hp, _, hm, ha, hs⟩ := h
  obtain ⟨hp', hm', ha', hs'⟩ := h'
  exact ⟨hp'.trans hp, fun h => hm' (hm h), fun h => ha' (ha h), fun h hr => hs' (hs h) hr⟩

/-- A state in which the data path does not run. -/
theorem State.After.stopped {u : State} (h : s.After t) (hp : u.pending = t.pending) (hr : u.time.started = false) (hm : t.MemOk → u.MemOk)
    (ha : t.AuthOk → u.AuthOk) : s.After u := by
  obtain ⟨hp0, hm0, ha0, _⟩ := h
  refine ⟨hp.trans hp0, fun h => hm (hm0 h), fun h => ha (ha0 h), fun _ h => ?_⟩
  rw [hr] at h
  cases h

theorem KeepsFst.mk {b : β} (h : s0.Keeps s) : KeepsFst s0 (s, b) := h

theorem KeepsSnd.mk {b : β} (h : s0.Keeps s) : KeepsSnd s0 (b, s) := h

theorem KeepsFst.fst {p : State × β} (h : KeepsFst s0 p) : s0.Keeps p.1 := h

theorem KeepsSnd.snd {p : β × State} (h : KeepsSnd s0 p) : s0.Keeps p.2 := h

theorem KeepsOpt.some (h : s0.Keeps s) : KeepsOpt s0 (some s) := by rintro _ ⟨⟩; exact h

theorem KeepsOpt.none : KeepsOpt s0 none := by rintro _ ⟨⟩

theorem State.Keeps.next (h : s0.Keeps s) : Completes s0 (.next s) := ⟨s, rfl, h⟩

theorem keeps_ite {P : α → Prop} {c : Prop} [Decidable c] {a b : α} (ha : P a) (hb : P b) : P (if c then a else b) := by
  split
  · exact ha
  · exact hb

theorem keeps_foldl {l : List β} {f : State → β → State} (h : s0.Keeps s)
    (hf : ∀ t b, s0.Keeps t → s0.Keeps (f t b)) : s0.Keeps (l.foldl f s) := by
  induction l generalizing s with
  | nil => exact h
  | cons b l ih => exact ih (hf s b h)

theorem KeepsFst.of_eq {p : State × β} {b : β} (e : p = (t, b)) (h : KeepsFst s0 p) : s0.Keeps t := by
  subst e
  exact h

theorem KeepsSnd.of_eq {p : β × State} {b : β} (e : p = (b, t)) (h : KeepsSnd s0 p) : s0.Keeps t := by
  subst e
  exact h

/-! ### Record updates -/

/-- An update that leaves the queue, the time, the host link, HBM, the authorisation and the safe state alone. -/
theorem State.Keeps.upd (h : s0.Keeps s)
    {regs acting rx pkts nextPkt laneAcc cls frag flow ep fcores fsets fhalf tree arr ctxs layout eg rxTs txTs hq obs watches lanes flocks flt sec
     cal hl herd acts globals free} :
    s0.Keeps ⟨s.pending, regs, acting, s.time, rx, pkts, nextPkt, laneAcc, cls, frag, flow, ep, fcores, fsets, fhalf, tree, arr, ctxs, layout, eg, rxTs,
      txTs, hq, obs, watches, s.host, s.hbm, lanes, flocks, flt, sec, s.auth, cal, hl, herd, acts, s.devSafe, globals, free⟩ := h

/-- The same of an update of the time that does not start or stop the data path. -/
theorem State.Keeps.updTime (h : s0.Keeps s)
    {regs acting tcycle tsetDone tsetSec tsetNs tppb tphaseLeft tppsOut tppsAt tislBeat tmisses tmissAt tseq taged rx pkts nextPkt laneAcc cls
     frag flow ep fcores fsets fhalf tree arr ctxs layout eg rxTs txTs hq obs watches lanes flocks flt sec cal hl herd acts globals free} :
    s0.Keeps ⟨s.pending, regs, acting, ⟨s.time.beat, tcycle, s.time.started, tsetDone, tsetSec, tsetNs, tppb, tphaseLeft, tppsOut, tppsAt, tislBeat, tmisses,
      tmissAt, tseq, taged⟩, rx, pkts, nextPkt, laneAcc, cls, frag, flow, ep, fcores, fsets, fhalf, tree, arr, ctxs, layout, eg, rxTs, txTs, hq, obs,
      watches, s.host, s.hbm, lanes, flocks, flt, sec, s.auth, cal, hl, herd, acts, s.devSafe, globals, free⟩ := h

/-- The same of an update of the host link that leaves host memory alone. -/
theorem State.Keeps.updHost (h : s0.Keeps s)
    {regs acting rx pkts nextPkt laneAcc cls frag flow ep fcores fsets fhalf tree arr ctxs layout eg rxTs txTs hq obs watches hlost hhdm hperst
     hideIo hideMem hmsix hreadData hreadPoison hcfgRetry hcfgData hcfg hmsixTab hcomp hhdmErr hdoe hregData hjobs hsessions hinjPosted hinjRead
     hinjAccepted hinjRefused hinjLane hinjOff lanes flocks flt sec cal hl herd acts globals free} :
    s0.Keeps ⟨s.pending, regs, acting, s.time, rx, pkts, nextPkt, laneAcc, cls, frag, flow, ep, fcores, fsets, fhalf, tree, arr, ctxs, layout, eg, rxTs,
      txTs, hq, obs, watches, ⟨s.host.mem, hlost, hhdm, hperst, hideIo, hideMem, hmsix, hreadData, hreadPoison, hcfgRetry, hcfgData, hcfg, hmsixTab,
      hcomp, hhdmErr, hdoe, hregData, hjobs, hsessions, hinjPosted, hinjRead, hinjAccepted, hinjRefused, hinjLane, hinjOff⟩, s.hbm, lanes, flocks,
      flt, sec, s.auth, cal, hl, herd, acts, s.devSafe, globals, free⟩ := h

/-- The same of both. -/
theorem State.Keeps.updBoth (h : s0.Keeps s)
    {regs acting tcycle tsetDone tsetSec tsetNs tppb tphaseLeft tppsOut tppsAt tislBeat tmisses tmissAt tseq taged rx pkts nextPkt laneAcc cls
     frag flow ep fcores fsets fhalf tree arr ctxs layout eg rxTs txTs hq obs watches hlost hhdm hperst hideIo hideMem hmsix hreadData hreadPoison
     hcfgRetry hcfgData hcfg hmsixTab hcomp hhdmErr hdoe hregData hjobs hsessions hinjPosted hinjRead hinjAccepted hinjRefused hinjLane hinjOff lanes
     flocks flt sec cal hl herd acts globals free} :
    s0.Keeps ⟨s.pending, regs, acting, ⟨s.time.beat, tcycle, s.time.started, tsetDone, tsetSec, tsetNs, tppb, tphaseLeft, tppsOut, tppsAt, tislBeat, tmisses,
      tmissAt, tseq, taged⟩, rx, pkts, nextPkt, laneAcc, cls, frag, flow, ep, fcores, fsets, fhalf, tree, arr, ctxs, layout, eg, rxTs, txTs, hq, obs,
      watches, ⟨s.host.mem, hlost, hhdm, hperst, hideIo, hideMem, hmsix, hreadData, hreadPoison, hcfgRetry, hcfgData, hcfg, hmsixTab, hcomp, hhdmErr,
      hdoe, hregData, hjobs, hsessions, hinjPosted, hinjRead, hinjAccepted, hinjRefused, hinjLane, hinjOff⟩, s.hbm, lanes, flocks, flt, sec, s.auth,
      cal, hl, herd, acts, s.devSafe, globals, free⟩ := h

/-! ### Memories -/
theorem State.Keeps.of_hbm {m : Mem} (h : s0.Keeps s) (hm : Mem.wf s.hbm = true → Mem.wf m = true) : s0.Keeps { s with hbm := m } := by
  obtain ⟨hp, hr, hmem, ha, hs⟩ := h
  exact ⟨hp, hr, fun h0 => ⟨hm (hmem h0).1, (hmem h0).2⟩, ha, hs⟩

theorem State.Keeps.of_mem {x : HostSt} (h : s0.Keeps s) (hm : Mem.wf s.host.mem = true → Mem.wf x.mem = true) : s0.Keeps { s with host := x } := by
  obtain ⟨hp, hr, hmem, ha, hs⟩ := h
  exact ⟨hp, hr, fun h0 => ⟨(hmem h0).1, hm (hmem h0).2⟩, ha, hs⟩

theorem State.Keeps.of_auth {x : AuthSt} (h : s0.Keeps s) (hx : x.unlocked = true → ∃ k, x.token = some k ∧ bits k.perms 2 1 = 1) :
    s0.Keeps { s with auth := x } := by
  obtain ⟨hp, hr, hmem, _, hs⟩ := h
  exact ⟨hp, hr, hmem, fun _ => hx, hs⟩

theorem State.Keeps.of_devSafe (h : s0.Keeps s) : s0.Keeps { s with devSafe := true } := by
  obtain ⟨hp, hr, hmem, ha, _⟩ := h
  exact ⟨hp, hr, hmem, ha, fun _ => rfl⟩

theorem wf_foldl {l : List β} {f : Mem → β → Mem} {m : Mem} (h : Mem.wf m = true) (hf : ∀ t b, Mem.wf t = true → Mem.wf (f t b) = true) :
    Mem.wf (l.foldl f m) = true := by
  induction l generalizing m with
  | nil => exact h
  | cons b l ih => exact ih (hf m b h)

theorem State.Keeps.hbmPutAs {rank a : Nat} {bs : List Byte} (h : s0.Keeps s) : s0.Keeps (s.hbmPutAs rank a bs) := by
  unfold State.hbmPutAs
  extract_lets n late old m t
  have hm : s0.Keeps { s with hbm := m } := h.of_hbm fun h0 =>
    wf_foldl (Mem.wf_writeN _ _ _ h0) fun _ w h1 => wf_foldl h1 fun m' i h2 => by
      split
      · exact Mem.wf_write m' _ _ h2
      · exact h2
  have ht : s0.Keeps t := keeps_foldl hm fun _ _ h => h
  exact ht

theorem nextOf_keeps {k : State → Host.Outcome State Fault Refusal} (h : s0.Keeps s) (hk : ∀ t, s0.Keeps t → Completes s0 (k t)) :
    s0.Keeps (nextOf s k) := by
  obtain ⟨t, e, ht⟩ := hk s h
  rw [nextOf, e]
  exact ht

theorem State.Keeps.run {k : State → Host.Outcome State Fault Refusal} (h : s0.Keeps s) (hk : ∀ t, s0.Keeps t → Completes s0 (k t)) :
    KeepsOpt s0 (some (nextOf s k)) :=
  KeepsOpt.some (nextOf_keeps h hk)

end Sys2Proof.Machine
end

section
/-! PROOF. What every command keeps: events, records, queues and egress. -/

namespace Sys2Proof.Machine

-- One thread for the proofs, which bounds the memory that checking them takes.
set_option Elab.async false

open Sys2Proof

variable {s0 s : State}

theorem State.Keeps.wr {f : Field} {v inst idx sel : Nat} (hs : s0.Keeps s) : s0.Keeps (s.wr f v inst idx sel) := by
  unfold State.wr
  exact hs.upd

theorem State.Keeps.wrNow {f : Field} {v inst idx sel : Nat} (hs : s0.Keeps s) : s0.Keeps (s.wrNow f v inst idx sel) := by
  unfold State.wrNow
  extract_lets s1
  have h1 : s0.Keeps s1 := hs.wr
  exact h1.upd

theorem State.Keeps.bump {f : Field} {inst idx sel n : Nat} (hs : s0.Keeps s) : s0.Keeps (s.bump f inst idx sel n) := by
  unfold State.bump
  exact hs.wr

theorem State.Keeps.fresh (hs : s0.Keeps s) : KeepsSnd s0 s.fresh := by
  unfold State.fresh
  exact KeepsSnd.mk hs.upd

theorem State.Keeps.drawChal (hs : s0.Keeps s) : s0.Keeps s.drawChal := by
  unfold State.drawChal
  exact hs.upd

theorem State.Keeps.drawNonce (hs : s0.Keeps s) : s0.Keeps s.drawNonce := by
  unfold State.drawNonce
  exact hs.upd

theorem State.Keeps.later {a : Act} (hs : s0.Keeps s) : s0.Keeps (s.later a) := by
  unfold State.later
  exact hs.upd

theorem State.Keeps.raiseVec {v : Nat} (hs : s0.Keeps s) : s0.Keeps (s.raiseVec v) := by
  unfold State.raiseVec
  exact keeps_ite hs hs.updHost

theorem State.Keeps.wrEvent {block inst v : Nat} (hs : s0.Keeps s) : s0.Keeps (s.wrEvent block inst v) := by
  unfold State.wrEvent
  exact hs.wr.wr.wr

theorem State.Keeps.evtEdge {old : State} {block inst : Nat} (hs : s0.Keeps s) : s0.Keeps (s.evtEdge old block inst) := by
  unfold State.evtEdge
  exact keeps_ite hs.raiseVec hs

theorem State.Keeps.events {block inst mask : Nat} (hs : s0.Keeps s) : s0.Keeps (s.events block inst mask) := by
  unfold State.events
  exact hs.wrEvent.evtEdge

theorem State.Keeps.event {block inst bit : Nat} (hs : s0.Keeps s) : s0.Keeps (s.event block inst bit) := by
  unfold State.event
  exact hs.events

theorem State.Keeps.touchLine {a len l : Nat} (hs : s0.Keeps s) : s0.Keeps (s.touchLine a len l) := by
  unfold State.touchLine
  exact hs.upd

theorem State.Keeps.hbmPut {a : Nat} {bs : List Byte} (hs : s0.Keeps s) : s0.Keeps (s.hbmPut a bs) := by
  unfold State.hbmPut
  exact hs.hbmPutAs

theorem State.Keeps.hbmWrite {a : Nat} {bs : List Byte} (hs : s0.Keeps s) : s0.Keeps (s.hbmWrite a bs) := by
  unfold State.hbmWrite
  exact keeps_ite (keeps_foldl hs (fun _ _ h1 => h1.hbmPut)) hs.hbmPut

theorem State.Keeps.locWrite {loc a : Nat} {bs : List Byte} (hs : s0.Keeps s) : s0.Keeps (s.locWrite loc a bs) := by
  unfold State.locWrite
  exact keeps_ite (keeps_ite hs (hs.of_mem fun h => Mem.wf_writeN _ _ _ h)) hs.hbmWrite

theorem State.Keeps.hqIrq {q : Nat} (hs : s0.Keeps s) : s0.Keeps (s.hqIrq q) := by
  unfold State.hqIrq
  extract_lets s1
  have h1 : s0.Keeps s1 := hs.raiseVec
  exact keeps_ite h1.upd hs

theorem State.Keeps.hqPlace {q : Nat} {bs : List Byte} (hs : s0.Keeps s) : s0.Keeps (s.hqPlace q bs) := by
  unfold State.hqPlace
  extract_lets _ _ _ s4 s5 s6
  have h4 : s0.Keeps s4 := hs.locWrite
  have h5 : s0.Keeps s5 := h4.locWrite
  have h6 : s0.Keeps s6 := h5.wr
  exact h6.upd

theorem State.Keeps.hqLose {q : Nat} (hs : s0.Keeps s) : s0.Keeps (s.hqLose q) := by
  unfold State.hqLose
  extract_lets _ _ s3
  have h3 : s0.Keeps s3 := hs.wr.bump
  exact h3.upd

theorem State.Keeps.hqProduce {q : Nat} {bs : List Byte} (hs : s0.Keeps s) : s0.Keeps (s.hqProduce q bs) := by
  unfold State.hqProduce
  extract_lets s1 _ s3 s4
  have h1 : s0.Keeps s1 := hs.wr
  have h3 : s0.Keeps s3 := hs.bump
  have h4 : s0.Keeps s4 := hs.hqPlace
  exact keeps_ite hs (keeps_ite h1.upd.hqLose (keeps_ite (keeps_ite h3.upd hs.hqLose.hqPlace) (keeps_ite h4.hqIrq h4)))

theorem State.Keeps.faultRegs {r : FaultRec} (hs : s0.Keeps s) : s0.Keeps (s.faultRegs r) := by
  unfold State.faultRegs
  extract_lets s1 s2
  have h1 : s0.Keeps s1 := hs.wr.wr
  have h2 : s0.Keeps s2 := h1.wr.wr
  exact h2.wr.wr

theorem State.Keeps.fault {r : FaultRec} (hs : s0.Keeps s) : s0.Keeps (s.fault r) := by
  unfold State.fault
  extract_lets s1 s2 _ s4
  have h1 : s0.Keeps s1 := hs.faultRegs.event
  have h2 : s0.Keeps s2 := h1.hqProduce
  have h4 : s0.Keeps s4 := h2.upd
  exact keeps_ite h4.wr h4

theorem State.Keeps.audit {r : AuditRec} (hs : s0.Keeps s) : s0.Keeps (s.audit r) := by
  unfold State.audit
  extract_lets s1
  have h1 : s0.Keeps s1 := hs.hqProduce
  exact keeps_ite hs.bump h1.upd

theorem State.Keeps.auditCmd {src : Source} {f : Field} {inst new res ctx kind : Nat} (hs : s0.Keeps s) :
    s0.Keeps (s.auditCmd src f inst new res ctx kind) := by
  unfold State.auditCmd
  exact hs.audit

theorem State.Keeps.wrote {src : Source} (hs : s0.Keeps s) : s0.Keeps (s.wrote src) := by
  unfold State.wrote
  extract_lets _ s2
  have h2 : s0.Keeps s2 := hs.upd
  split
  · exact keeps_ite h2.upd.wr.drawChal h2
  · exact h2

theorem State.Keeps.basicCmd {src : Source} {k : State → State} {mail : Bool} (hs : s0.Keeps s) (hk : ∀ y0, s0.Keeps y0 → s0.Keeps (k y0)) :
    Completes s0 (s.basicCmd src k mail) := by
  unfold State.basicCmd
  exact keeps_ite (hk _ hs.wrote).next hs.next

theorem State.Keeps.expertCmd {src : Source} {f : Field} {inst new : Nat} {k : State → State}
    (hs : s0.Keeps s) (hk : ∀ y0, s0.Keeps y0 → s0.Keeps (k y0)) :
    Completes s0 (s.expertCmd src f inst new k) := by
  unfold State.expertCmd
  exact hs.basicCmd (fun _ h1 => keeps_ite (hk _ h1.auditCmd) h1.auditCmd)

theorem State.Keeps.ledger {lane cat : Nat} (hs : s0.Keeps s) : s0.Keeps (s.ledger lane cat) := by
  unfold State.ledger
  extract_lets s1
  have h1 : s0.Keeps s1 := hs.bump.bump
  exact h1.upd

theorem State.Keeps.setResident {lane : Nat} {up : Bool} (hs : s0.Keeps s) : s0.Keeps (s.setResident lane up) := by
  unfold State.setResident
  extract_lets _ _ _ s4
  have h4 : s0.Keeps s4 := hs.upd
  exact h4.wr.wr

theorem State.Keeps.cells {d : Int} (hs : s0.Keeps s) : s0.Keeps (s.cells d) := by
  unfold State.cells
  exact hs.wr.wr.wr

theorem State.Keeps.modPkt {k : PktId} {f : Pkt → Pkt} (hs : s0.Keeps s) : s0.Keeps (s.modPkt k f) := by
  unfold State.modPkt
  split
  · exact hs.upd
  · exact hs

theorem State.Keeps.dmcView {u : Unit7} {v : DmcView} (hs : s0.Keeps s) : s0.Keeps (s.dmcView u v) := by
  unfold State.dmcView
  exact hs.upd

theorem State.Keeps.finishPkt {k : PktId} (hs : s0.Keeps s) : s0.Keeps (s.finishPkt k) := by
  unfold State.finishPkt
  extract_lets s1
  have h1 : s0.Keeps s1 := hs.modPkt
  split
  · exact hs
  · extract_lets s2
    have h2 : s0.Keeps s2 := keeps_ite h1.cells h1
    exact keeps_ite hs h2.ledger.setResident

theorem State.Keeps.destDone {k : PktId} {lost : Bool} (hs : s0.Keeps s) : s0.Keeps (s.destDone k lost) := by
  unfold State.destDone
  split
  · exact hs
  · extract_lets _ s2
    have h2 : s0.Keeps s2 := hs.modPkt
    exact keeps_ite h2.finishPkt h2

theorem State.Keeps.frameDone {fr : EgFrame} {lost : Bool} (hs : s0.Keeps s) : s0.Keeps (s.frameDone fr lost) := by
  unfold State.frameDone
  split
  · exact hs.destDone
  · exact keeps_ite hs hs.cells

theorem State.Keeps.modQ {pq : Nat} {f : EgQ → EgQ} (hs : s0.Keeps s) : s0.Keeps (s.modQ pq f) := by
  unfold State.modQ
  exact hs.upd

theorem State.Keeps.modTx {p : Nat} {f : PortTx → PortTx} (hs : s0.Keeps s) : s0.Keeps (s.modTx p f) := by
  unfold State.modTx
  exact hs.upd

theorem State.Keeps.offer {port q : Nat} {fr : EgFrame} (hs : s0.Keeps s) : KeepsFst s0 (s.offer port q fr) := by
  unfold State.offer
  extract_lets _ s2 s3
  have h2 : s0.Keeps s2 := hs.modQ
  have h3 : s0.Keeps s3 := h2.modTx
  refine keeps_ite ?_ ?_
  · refine KeepsFst.mk ?_
    split
    · exact h3.modPkt
    · exact h3
  · exact KeepsFst.mk hs.modQ.bump

theorem State.Keeps.flushQ {port q : Nat} (hs : s0.Keeps s) : s0.Keeps (s.flushQ port q) := by
  unfold State.flushQ
  extract_lets _ _ _ _ s5 s6 s7
  have h5 : s0.Keeps s5 := hs.modQ
  have h6 : s0.Keeps s6 := h5.modTx
  have h7 : s0.Keeps s7 := keeps_ite h6 h6.bump
  exact keeps_foldl h7 (fun _ _ h8 => h8.frameDone)

theorem State.Keeps.flushWire {port : Nat} (hs : s0.Keeps s) : s0.Keeps (s.flushWire port) := by
  unfold State.flushWire
  extract_lets
  split
  · exact hs
  · extract_lets s3 s4
    have h3 : s0.Keeps s3 := hs.modQ
    have h4 : s0.Keeps s4 := h3.modTx
    exact h4.bump.frameDone

theorem State.Keeps.flushPort {port : Nat} (hs : s0.Keeps s) : s0.Keeps (s.flushPort port) := by
  unfold State.flushPort
  exact keeps_foldl hs.flushWire (fun _ _ h1 => h1.flushQ)

theorem State.Keeps.spend {port q size : Nat} (hs : s0.Keeps s) : s0.Keeps (s.spend port q size) := by
  unfold State.spend
  extract_lets _ _ s3
  have h3 : s0.Keeps s3 := keeps_ite hs hs.modQ
  exact keeps_ite h3 h3.modTx

theorem State.Keeps.refillQ {pq : Nat} (hs : s0.Keeps s) : s0.Keeps (s.refillQ pq) := by
  unfold State.refillQ
  exact keeps_ite hs hs.modQ

theorem State.Keeps.refillP {port : Nat} (hs : s0.Keeps s) : s0.Keeps (s.refillP port) := by
  unfold State.refillP
  exact keeps_ite hs hs.modTx

theorem State.Keeps.wireDone {port : Nat} {cut : Option Nat} (hs : s0.Keeps s) : s0.Keeps (s.wireDone port cut) := by
  unfold State.wireDone
  extract_lets
  split
  · exact hs
  · extract_lets s3
    have h3 : s0.Keeps s3 := by
      unfold s3
      split
      · exact hs.modQ
      · exact hs.modQ.bump.bump
    exact h3.modTx.frameDone

theorem State.Keeps.startFrame {port q : Nat} (hs : s0.Keeps s) : s0.Keeps (s.startFrame port q) := by
  unfold State.startFrame
  extract_lets
  split
  · exact hs
  · extract_lets s2
    have h2 : s0.Keeps s2 := hs.modQ
    exact h2.modTx.spend

theorem State.Keeps.wrrVisit {n port q : Nat} (hs : s0.Keeps s) : KeepsFst s0 (State.wrrVisit n s port q) := by
  induction n generalizing s q with
  | zero => exact hs
  | succ n ih =>
    unfold State.wrrVisit
    exact keeps_ite (keeps_ite (KeepsFst.mk hs.modQ.modTx) (ih hs.modQ)) (ih hs)

theorem State.Keeps.wrrPick {port : Nat} (hs : s0.Keeps s) : KeepsFst s0 (s.wrrPick port) := by
  unfold State.wrrPick
  exact keeps_ite (keeps_ite (KeepsFst.mk hs) hs.wrrVisit) (KeepsFst.mk hs)

theorem State.Keeps.pickQueue {port : Nat} (hs : s0.Keeps s) : KeepsFst s0 (s.pickQueue port) := by
  unfold State.pickQueue
  split
  · exact KeepsFst.mk hs
  · split
    · rename_i s1 _ e1
      have h1 := KeepsFst.of_eq e1 hs.wrrPick
      exact KeepsFst.mk h1.modQ
    · rename_i s1 e1
      have h1 := KeepsFst.of_eq e1 hs.wrrPick
      exact KeepsFst.mk h1

theorem execTransmitComplete_keeps {p : Port} {holdUe : Bool} (hs : s0.Keeps s) : Completes s0 (execTransmitComplete p holdUe s) := by
  unfold execTransmitComplete
  extract_lets
  split
  · exact hs.next
  · refine keeps_ite ?_ ?_
    · split
      rename_i s2 e2
      have h2 := KeepsSnd.of_eq e2 hs.fresh
      extract_lets s3 s4
      have h3 : s0.Keeps s3 := h2.wireDone.bump
      have h4 : s0.Keeps s4 := h3.bump
      exact h4.fault.next
    · exact keeps_ite hs.wireDone.next hs.wireDone.next

theorem execShaperRefill_keeps (hs : s0.Keeps s) : Completes s0 (execShaperRefill s) := by
  unfold execShaperRefill
  exact (keeps_foldl (keeps_foldl hs (fun _ _ h1 => h1.refillQ)) (fun _ _ h1 => h1.refillP)).next

theorem execPauseFrame_keeps {p : Port} {enable : BitVec 8} {quanta : List (BitVec 16)} (hs : s0.Keeps s) :
    Completes s0 (execPauseFrame p enable quanta s) := by
  unfold execPauseFrame
  exact keeps_ite (keeps_foldl hs (fun _ _ h1 => keeps_ite h1.modQ h1)).next hs.next

theorem execPauseExpire_keeps {p : Port} {k : QNum} (hs : s0.Keeps s) : Completes s0 (execPauseExpire p k s) := by
  unfold execPauseExpire
  exact hs.modQ.next

theorem State.Keeps.setLink {p : Nat} {up : Bool} (hs : s0.Keeps s) : s0.Keeps (s.setLink p up) := by
  unfold State.setLink
  extract_lets _ _ s3
  have h3 : s0.Keeps s3 := hs.wr.event
  exact keeps_ite hs (keeps_ite h3 h3.event)

theorem State.Keeps.linkDown {p : Nat} (hs : s0.Keeps s) : s0.Keeps (s.linkDown p) := by
  unfold State.linkDown
  extract_lets s1 s2 s3
  have h1 : s0.Keeps s1 := hs.setLink
  have h2 : s0.Keeps s2 := h1.upd
  have h3 : s0.Keeps s3 := by
    unfold s3
    split
    · split
      · extract_lets s4
        have h4 : s0.Keeps s4 := h2.modPkt
        exact keeps_ite h4.cells h4
      · exact keeps_ite h2 h2.cells
    · exact h1
  exact h3.flushPort

theorem execEthLinkUp_keeps {p : Port} (hs : s0.Keeps s) : Completes s0 (execEthLinkUp p s) := by
  unfold execEthLinkUp
  exact keeps_ite hs.setLink.next hs.next

theorem execEthLinkDown_keeps {p : Port} (hs : s0.Keeps s) : Completes s0 (execEthLinkDown p s) := by
  unfold execEthLinkDown
  exact keeps_ite hs.linkDown.next hs.next

end Sys2Proof.Machine
end

section
/-! PROOF. What every command keeps: time, ports, the classifier and the flow tables. -/

namespace Sys2Proof.Machine

-- One thread for the proofs, which bounds the memory that checking them takes.
set_option Elab.async false

open Sys2Proof

variable {s0 s : State}

theorem execSetGo_keeps {src : Source} (hs : s0.Keeps s) : Completes s0 (execSetGo src s) := by
  unfold execSetGo
  exact hs.basicCmd (fun _ h1 => keeps_ite h1.auditCmd h1.updTime.auditCmd)

theorem execFreqAdj_keeps {src : Source} {ppb : Int} (hs : s0.Keeps s) : Completes s0 (execFreqAdj src ppb s) := by
  unfold execFreqAdj
  exact hs.basicCmd (fun _ h1 => keeps_ite h1.audit (keeps_ite h1.bump.audit h1.wr.audit))

theorem execPhaseAdj_keeps {src : Source} {ns : Int} (hs : s0.Keeps s) : Completes s0 (execPhaseAdj src ns s) := by
  unfold execPhaseAdj
  exact hs.basicCmd (fun _ h1 => keeps_ite h1.bump.auditCmd h1.updTime.auditCmd)

theorem execPhaseSlewEnd_keeps (hs : s0.Keeps s) : Completes s0 (execPhaseSlewEnd s) := by
  unfold execPhaseSlewEnd
  exact keeps_ite hs.updTime.next hs.next

theorem State.Keeps.slew (hs : s0.Keeps s) : s0.Keeps s.slew := by
  unfold State.slew
  exact hs.updTime

theorem execTimeBeatRead_keeps {src : Source} (hs : s0.Keeps s) : Completes s0 (execTimeBeatRead src s) := by
  unfold execTimeBeatRead
  exact keeps_ite hs.wr.updHost.next hs.updHost.next

theorem execPpsIn_keeps (hs : s0.Keeps s) : Completes s0 (execPpsIn s) := by
  unfold execPpsIn
  exact hs.wr.bump.next

theorem execPpsOutRise_keeps (hs : s0.Keeps s) : Completes s0 (execPpsOutRise s) := by
  unfold execPpsOutRise
  exact keeps_ite hs.updTime.next hs.next

theorem execPpsOutFall_keeps (hs : s0.Keeps s) : Completes s0 (execPpsOutFall s) := by
  unfold execPpsOutFall
  exact keeps_ite hs.updTime.next hs.next

theorem State.Keeps.ptpRx {p : Nat} {frame : List Byte} {ts : Nat} (hs : s0.Keeps s) : s0.Keeps (s.ptpRx p frame ts) := by
  unfold State.ptpRx
  extract_lets
  refine keeps_ite ?_ ?_
  · exact hs
  · split
    · exact hs
    · extract_lets
      split
      · extract_lets s6
        have h6 : s0.Keeps s6 := hs.upd
        exact keeps_ite h6.bump h6

theorem State.Keeps.ptpTx {p itag ts : Nat} {oneStep : Bool} (hs : s0.Keeps s) : s0.Keeps (s.ptpTx p itag ts oneStep) := by
  unfold State.ptpTx
  extract_lets
  split
  · extract_lets s2
    have h2 : s0.Keeps s2 := hs.upd
    exact keeps_ite h2.bump h2

theorem State.Keeps.ptpStart {p : Nat} {fr : EgFrame} {ts : Nat} (hs : s0.Keeps s) : s0.Keeps (s.ptpStart p fr ts) := by
  unfold State.ptpStart
  extract_lets
  refine keeps_ite ?_ ?_
  · exact hs
  · refine keeps_ite ?_ ?_
    · split
      · exact keeps_ite hs.modTx hs.bump.ptpTx
      · exact hs.bump.ptpTx
    · exact hs.ptpTx

theorem execSchedulerPick_keeps {p : Port} {ts : Nat} (hs : s0.Keeps s) : Completes s0 (execSchedulerPick p ts s) := by
  unfold execSchedulerPick
  refine keeps_ite ?_ ?_
  · exact hs.next
  · split
    · rename_i s1 e1
      have h1 := KeepsFst.of_eq e1 hs.pickQueue
      exact h1.next
    · rename_i s1 _ e1
      have h1 := KeepsFst.of_eq e1 hs.pickQueue
      extract_lets s2
      have h2 : s0.Keeps s2 := h1.startFrame
      split
      · exact h2.ptpStart.next
      · exact h2.next

theorem execTsFifoPop_keeps {_src : Source} {g : Group} {dir : TsDir} (hs : s0.Keeps s) : Completes s0 (execTsFifoPop _src g dir s) := by
  unfold execTsFifoPop
  extract_lets
  refine keeps_ite ?_ ?_
  · exact hs.updHost.next
  · split
    · split
      · exact hs.updHost.next
      · extract_lets s2
        have h2 : s0.Keeps s2 := hs.upd.wr.wr
        exact h2.updHost.next
    · split
      · exact hs.updHost.next
      · extract_lets s2
        have h2 : s0.Keeps s2 := hs.upd.wr.wr
        exact h2.updHost.next

theorem State.Keeps.received {l : Nat} (hs : s0.Keeps s) : s0.Keeps (s.received l) := by
  unfold State.received
  extract_lets s1
  have h1 : s0.Keeps s1 := hs.ledger.bump
  exact h1.upd

theorem State.Keeps.accept {p l : Nat} {frame : List Byte} {inj : Bool} {vd : PktVd} (hs : s0.Keeps s) :
    s0.Keeps (s.accept p l frame inj vd) := by
  unfold State.accept
  extract_lets _ _ s3
  have h3 : s0.Keeps s3 := hs.upd
  exact h3.received.setResident

theorem execFrameStart_keeps {p : Port} {data : List Byte} {ts : Nat} (hs : s0.Keeps s) : Completes s0 (execFrameStart p data ts s) := by
  unfold execFrameStart
  extract_lets put s1 s2
  have h1 : s0.Keeps s1 := hs.ptpRx
  have h2 : s0.Keeps s2 := h1.received.ledger.bump
  refine keeps_ite hs.next (keeps_ite (State.Keeps.next ?_) (keeps_ite h2.upd.next (State.Keeps.next ?_)))
  · exact h1.bump.upd
  · exact h1.cells.upd

theorem State.Keeps.endPkt {k : PktId} (hs : s0.Keeps s) : s0.Keeps (s.endPkt k) := by
  unfold State.endPkt
  split
  · exact hs.cells
  · exact keeps_ite hs.modPkt.cells hs.modPkt.cells

theorem execPacketAccept_keeps {p : Port} {l : Lane} (hs : s0.Keeps s) : Completes s0 (execPacketAccept p l s) := by
  unfold execPacketAccept
  extract_lets
  split
  · exact hs.next
  · extract_lets _ s5
    have h5 : s0.Keeps s5 := hs.accept
    exact keeps_ite (keeps_ite h5.upd.endPkt.next h5.upd.next) hs.next

theorem execFrameEnd_keeps {p : Port} (hs : s0.Keeps s) : Completes s0 (execFrameEnd p s) := by
  unfold execFrameEnd
  extract_lets s1
  have h1 : s0.Keeps s1 := hs.upd
  split
  · exact hs.next
  · refine keeps_ite ?_ ?_
    · exact h1.next
    · split
      · exact h1.endPkt.next
      · exact keeps_ite h1.cells.bump.next (keeps_ite h1.cells.bump.next hs.upd.next)

theorem State.Keeps.portCfg {src : Source} {g n : Nat} (hs : s0.Keeps s) : s0.Keeps (s.portCfg src g n) := by
  unfold State.portCfg
  extract_lets _ _ s3 s4 s5 s6 s7
  have h3 : s0.Keeps s3 := hs.wr.wr.wr.wr
  have h4 : s0.Keeps s4 := h3.wr.wr.wr.wr
  have h5 : s0.Keeps s5 := h4.wr
  have h6 : s0.Keeps s6 := h5.later
  have h7 : s0.Keeps s7 := keeps_ite h5 (keeps_ite h6.wr.later (keeps_ite h6.wr h6))
  exact keeps_ite h7 h7.audit

theorem execPortCfgWrite_keeps {src : Source} {g : Group} {v : Word} (hs : s0.Keeps s) : Completes s0 (execPortCfgWrite src g v s) := by
  unfold execPortCfgWrite
  exact hs.basicCmd (fun _ h1 => h1.portCfg)

theorem State.Keeps.settlePair {p : Nat} (hs : s0.Keeps s) : s0.Keeps (s.settlePair p) := by
  unfold State.settlePair
  exact keeps_ite hs hs.wr.event

theorem State.Keeps.setEntry {r bank entry : Nat} {e : TcamEntry} (hs : s0.Keeps s) : s0.Keeps (s.setEntry r bank entry e) := by
  unfold State.setEntry
  exact hs.upd

theorem State.Keeps.tcamBad {r i scope : Nat} (hs : s0.Keeps s) : s0.Keeps (s.tcamBad r i scope) := by
  unfold State.tcamBad
  extract_lets _ s2
  have h2 : s0.Keeps s2 := hs.setEntry.bump.wr
  exact h2.fault

theorem State.Keeps.ruleMatch {n r slot : Nat} {key : KeyWord} {on : Nat → Bool} {bad : List Nat} (hs : s0.Keeps s) :
    KeepsFst s0 (State.ruleMatch n s r slot key on bad) := by
  induction n generalizing s with
  | zero => exact hs
  | succ n ih =>
    unfold State.ruleMatch
    split
    · exact hs
    · exact keeps_ite (keeps_ite (ih hs.tcamBad) (KeepsFst.mk hs.tcamBad)) (KeepsFst.mk hs)

theorem State.Keeps.lpmSearch {k : PktId} {x : Pkt} {bad : List Nat} (hs : s0.Keeps s) : s0.Keeps (s.lpmSearch k x bad) := by
  unfold State.lpmSearch
  extract_lets _ _ s3
  have h3 : s0.Keeps s3 := hs.modPkt
  refine keeps_ite ?_ ?_
  · exact hs
  · split
    · exact hs.modPkt.bump
    · extract_lets
      split
      · exact h3.bump
      · exact keeps_ite h3.tcamBad.bump h3.modPkt

theorem execRuleSearch_keeps {pk : PktId} {bad : List Nat} (hs : s0.Keeps s) : Completes s0 (execRuleSearch pk bad s) := by
  unfold execRuleSearch
  split
  · exact hs.next
  · extract_lets _ _ _ s4
    have h4 : s0.Keeps s4 := hs.bump
    refine keeps_ite ?_ ?_
    · exact hs.next
    · split
      rename_i s6 _ _ e6
      have h6 := KeepsFst.of_eq e6 h4.ruleMatch
      extract_lets _ s8 s9
      have h8 : s0.Keeps s8 := keeps_ite h6.bump h6
      have h9 : s0.Keeps s9 := h8.modPkt
      exact h9.lpmSearch.next

theorem State.Keeps.scrubBeat (hs : s0.Keeps s) : s0.Keeps s.scrubBeat := by
  unfold State.scrubBeat
  exact keeps_ite hs.upd hs

theorem execTcamScrub_keeps {r : Replica} {bank : Fin 48} {entry : Fin 1024} {bad : Bool} (hs : s0.Keeps s) :
    Completes s0 (execTcamScrub r bank entry bad s) := by
  unfold execTcamScrub
  exact keeps_ite hs.next (keeps_ite hs.tcamBad.next hs.next)

theorem State.Keeps.setCommitState {v : Nat} (hs : s0.Keeps s) : s0.Keeps (s.setCommitState v) := by
  unfold State.setCommitState
  exact keeps_ite hs hs.wr.event

theorem State.Keeps.entApply {op : EntOp} {c : EntCmd} {d : EntData} {r : Nat} (hs : s0.Keeps s) : s0.Keeps (s.entApply op c d r) := by
  unfold State.entApply
  extract_lets _ _ s3 s4
  have h3 : s0.Keeps s3 := keeps_foldl hs (fun _ _ h4 => h4.wr.wr)
  have h4 : s0.Keeps s4 := keeps_foldl h3 (fun _ _ h5 => h5.wr)
  split
  · exact hs.setEntry
  · exact hs.setEntry
  · exact hs.setEntry
  · exact hs.setEntry
  · exact h4.wr
  · exact hs

theorem State.Keeps.entRun {op : EntOp} {c : EntCmd} {d : EntData} (hs : s0.Keeps s) : KeepsFst s0 (s.entRun op c d) := by
  unfold State.entRun
  extract_lets
  split
  · exact KeepsFst.mk hs
  · exact KeepsFst.mk (keeps_foldl hs (fun _ _ h2 => h2.entApply))

theorem State.Keeps.entStart {src : Source} {op : EntOp} {c : EntCmd} (hs : s0.Keeps s) : s0.Keeps (s.entStart src op c) := by
  unfold State.entStart
  extract_lets _ _ s3
  have h3 : s0.Keeps s3 := hs.upd
  exact keeps_ite hs.auditCmd h3.wr.auditCmd

theorem execEntWrite_keeps {src : Source} {e : EntCmd} (hs : s0.Keeps s) : Completes s0 (execEntWrite src e s) := by
  unfold execEntWrite
  exact hs.basicCmd (fun _ h1 => h1.entStart)

theorem execEntSetStaged_keeps {src : Source} {e : EntCmd} (hs : s0.Keeps s) : Completes s0 (execEntSetStaged src e s) := by
  unfold execEntSetStaged
  exact hs.basicCmd (fun _ h1 => h1.entStart)

theorem execEntClearStaged_keeps {src : Source} {e : EntCmd} (hs : s0.Keeps s) : Completes s0 (execEntClearStaged src e s) := by
  unfold execEntClearStaged
  exact hs.basicCmd (fun _ h1 => h1.entStart)

theorem execEntRead_keeps {src : Source} {e : EntCmd} (hs : s0.Keeps s) : Completes s0 (execEntRead src e s) := by
  unfold execEntRead
  exact hs.basicCmd (fun _ h1 => h1.entStart)

theorem execEntRepair_keeps {src : Source} {e : EntCmd} (hs : s0.Keeps s) : Completes s0 (execEntRepair src e s) := by
  unfold execEntRepair
  exact hs.basicCmd (fun _ h1 => h1.entStart)

theorem State.Keeps.entBoundary (hs : s0.Keeps s) : s0.Keeps s.entBoundary := by
  unfold State.entBoundary
  exact (keeps_foldl hs (fun _ _ h1 => by
  split
  · refine keeps_ite ?_ ?_
    · exact h1
    · split
      rename_i s2 _ e2
      have h2 := KeepsFst.of_eq e2 h1.entRun
      exact h2.upd
  · exact h1))

theorem State.Keeps.loadStep {code : Nat} (hs : s0.Keeps s) : s0.Keeps (s.loadStep code) := by
  unfold State.loadStep
  extract_lets _ _ s3
  have h3 : s0.Keeps s3 := hs.upd
  exact keeps_ite hs.upd h3.bump

theorem execEntCmdEnd_keeps {r : Replica} (hs : s0.Keeps s) : Completes s0 (execEntCmdEnd r s) := by
  unfold execEntCmdEnd
  extract_lets _ s2
  have h2 : s0.Keeps s2 := hs.upd
  split
  · split
    · extract_lets s3
      have h3 : s0.Keeps s3 := keeps_ite h2.loadStep h2
      exact keeps_ite hs.next h3.wr.wr.event.next
    · exact hs.next
  · exact hs.next

theorem execLoadGo_keeps {src : Source} (hs : s0.Keeps s) : Completes s0 (execLoadGo src s) := by
  unfold execLoadGo
  exact (hs.basicCmd (fun _ h1 => by
  extract_lets _ _ s4
  have h4 : s0.Keeps s4 := h1.upd
  exact (keeps_ite h1.auditCmd h4.wr.auditCmd)))

theorem execTcamLoadRecord_keeps (hs : s0.Keeps s) : Completes s0 (execTcamLoadRecord s) := by
  unfold execTcamLoadRecord
  exact keeps_ite hs.next hs.upd.wr.next

theorem State.Keeps.ruleArm {c : Nat} {herd : Bool} (hs : s0.Keeps s) : s0.Keeps (s.ruleArm c herd) := by
  unfold State.ruleArm
  exact hs.upd.setCommitState

theorem execRuleCheckEnd_keeps (hs : s0.Keeps s) : Completes s0 (execRuleCheckEnd s) := by
  unfold execRuleCheckEnd
  exact keeps_ite hs.next (keeps_ite hs.wr.ruleArm.next hs.wr.setCommitState.next)

theorem State.Keeps.ruleSwitch (hs : s0.Keeps s) : s0.Keeps s.ruleSwitch := by
  unfold State.ruleSwitch
  extract_lets _ s2
  have h2 : s0.Keeps s2 := hs.wr.wr
  exact keeps_ite h2.upd.setCommitState hs

theorem execRuleVersionSwitch_keeps (hs : s0.Keeps s) : Completes s0 (execRuleVersionSwitch s) := by
  unfold execRuleVersionSwitch
  exact hs.ruleSwitch.next

theorem execRuleRetire_keeps (hs : s0.Keeps s) : Completes s0 (execRuleRetire s) := by
  unfold execRuleRetire
  exact keeps_ite hs.upd.next hs.next

theorem State.Keeps.copyActive (hs : s0.Keeps s) : s0.Keeps s.copyActive := by
  unfold State.copyActive
  exact hs.upd

theorem execRuleSlotCopyEnd_keeps (hs : s0.Keeps s) : Completes s0 (execRuleSlotCopyEnd s) := by
  unfold execRuleSlotCopyEnd
  extract_lets s1
  have h1 : s0.Keeps s1 := hs.copyActive
  exact keeps_ite h1.upd.setCommitState.next hs.next

theorem State.Keeps.setTag {loc t : Nat} (hs : s0.Keeps s) : s0.Keeps (s.setTag loc t) := by
  unfold State.setTag
  exact hs.hbmWrite

theorem State.Keeps.setCached {loc : Nat} {v : Bool} (hs : s0.Keeps s) : s0.Keeps (s.setCached loc v) := by
  unfold State.setCached
  exact hs.setTag

theorem State.Keeps.setFlow {f : FlowSt → FlowSt} (hs : s0.Keeps s) : s0.Keeps (s.setFlow f) := by
  unfold State.setFlow
  exact hs.upd

theorem State.Keeps.setWay {w : Nat} {e : CacheEnt} (hs : s0.Keeps s) : s0.Keeps (s.setWay w e) := by
  unfold State.setWay
  exact hs.setFlow

theorem State.Keeps.modCached {key : List Byte} {g : CacheEnt → CacheEnt} (hs : s0.Keeps s) : s0.Keeps (s.modCached key g) := by
  unfold State.modCached
  split
  · exact hs.setWay
  · exact hs.setFlow

theorem State.Keeps.relocate {old : Nat} {new : Option Nat} (hs : s0.Keeps s) : s0.Keeps (s.relocate old new) := by
  unfold State.relocate
  exact hs.setFlow

theorem State.Keeps.ringFree {ring : Nat} (hs : s0.Keeps s) : s0.Keeps (s.ringFree ring) := by
  unfold State.ringFree
  exact hs.setFlow

theorem State.Keeps.freeRingOf {h : HotRec} (hs : s0.Keeps s) : s0.Keeps (s.freeRingOf h) := by
  unfold State.freeRingOf
  exact keeps_ite hs.ringFree hs

theorem State.Keeps.records {d : Int} (hs : s0.Keeps s) : s0.Keeps (s.records d) := by
  unfold State.records
  exact hs.wr

theorem State.Keeps.clearSlot {loc : Nat} {readable : Bool} (hs : s0.Keeps s) : s0.Keeps (s.clearSlot loc readable) := by
  unfold State.clearSlot
  extract_lets _ _ s3
  have h3 : s0.Keeps s3 := hs.setTag.records.relocate
  exact keeps_ite h3.freeRingOf h3

theorem State.Keeps.countUe {line : Nat} (hs : s0.Keeps s) : s0.Keeps (s.countUe line) := by
  unfold State.countUe
  exact hs.bump.wr

theorem State.Keeps.ueRecord {line action ctx : Nat} (hs : s0.Keeps s) : s0.Keeps (s.ueRecord line action ctx) := by
  unfold State.ueRecord
  extract_lets _ s2
  have h2 : s0.Keeps s2 := hs.countUe
  exact h2.fault

theorem State.Keeps.flowUeFault {line : Nat} (hs : s0.Keeps s) : s0.Keeps (s.flowUeFault line) := by
  unfold State.flowUeFault
  exact hs.fault

theorem State.Keeps.recordUe {loc line : Nat} (hs : s0.Keeps s) : s0.Keeps (s.recordUe loc line) := by
  unfold State.recordUe
  extract_lets s1
  have h1 : s0.Keeps s1 := hs.countUe
  exact keeps_ite h1.clearSlot.bump.flowUeFault h1.flowUeFault

theorem State.Keeps.tagLineUe {bk line : Nat} (hs : s0.Keeps s) : s0.Keeps (s.tagLineUe bk line) := by
  unfold State.tagLineUe
  extract_lets _ s2 s3 s4
  have h2 : s0.Keeps s2 := hs.countUe
  have h3 : s0.Keeps s3 := keeps_foldl h2 (fun _ _ h4 => h4.clearSlot)
  have h4 : s0.Keeps s4 := keeps_ite h3 h3.bump
  exact h4.hbmWrite.flowUeFault

theorem State.Keeps.tagCheck {bk : Nat} (hs : s0.Keeps s) : s0.Keeps (s.tagCheck bk) := by
  unfold State.tagCheck
  split
  · exact hs.tagLineUe
  · exact hs

theorem State.Keeps.recCheck {loc : Nat} (hs : s0.Keeps s) : s0.Keeps (s.recCheck loc) := by
  unfold State.recCheck
  refine keeps_ite ?_ ?_
  · split
    · exact hs.recordUe
    · exact hs
  · exact hs

theorem State.Keeps.insertPath {n h3 bk step : Nat} {path : List (Nat × Nat)} (hs : s0.Keeps s) :
    KeepsFst s0 (State.insertPath n s h3 bk step path) := by
  induction n generalizing s bk step path with
  | zero => exact hs
  | succ n ih =>
    unfold State.insertPath
    exact keeps_ite (ih hs.recCheck) (keeps_ite (KeepsFst.mk hs.recCheck.tagCheck)
      (ih hs.recCheck.tagCheck))

theorem State.Keeps.copySlot {l alt : Nat} (hs : s0.Keeps s) : s0.Keeps (s.copySlot l alt) := by
  unfold State.copySlot
  split
  · exact hs
  · extract_lets s1
    have h1 : s0.Keeps s1 := hs.hbmWrite.setTag
    exact h1.relocate.setTag

theorem State.Keeps.journalMove {m : Option (Nat × Nat)} (hs : s0.Keeps s) : s0.Keeps (s.journalMove m) := by
  unfold State.journalMove
  exact hs.setFlow

theorem State.Keeps.moveSlot {l alt : Nat} (hs : s0.Keeps s) : s0.Keeps (s.moveSlot l alt) := by
  unfold State.moveSlot
  split
  · exact keeps_ite hs.journalMove.copySlot.bump.journalMove hs
  · exact hs

theorem State.Keeps.completeMove (hs : s0.Keeps s) : s0.Keeps s.completeMove := by
  unfold State.completeMove
  extract_lets s1
  have h1 : s0.Keeps s1 := hs.journalMove
  split
  · exact hs
  · exact keeps_ite h1.setTag h1.setTag

theorem State.Keeps.storeInsert {key rec_ : List Byte} {cached histr : Bool} (hs : s0.Keeps s) :
    KeepsFst s0 (s.storeInsert key rec_ cached histr) := by
  unfold State.storeInsert
  extract_lets s1
  have h1 : s0.Keeps s1 := hs.tagCheck.tagCheck
  split
  · split
    · exact KeepsFst.mk h1.hbmWrite.setTag.records
    · exact KeepsFst.mk h1
  · split
    · rename_i s3 e3
      have h3 := KeepsFst.of_eq e3 h1.insertPath
      exact KeepsFst.mk h3.bump
    · rename_i s3 _ e3
      have h3 := KeepsFst.of_eq e3 h1.insertPath
      extract_lets s4
      have h4 : s0.Keeps s4 := keeps_foldl h3 (fun _ _ h5 => h5.moveSlot)
      split
      · exact KeepsFst.mk h4.hbmWrite.setTag.records
      · exact KeepsFst.mk h4

theorem State.Keeps.writeBack {e : CacheEnt} {keep : Bool} (hs : s0.Keeps s) : KeepsFst s0 (s.writeBack e keep) := by
  unfold State.writeBack
  split
  · extract_lets s1
    have h1 : s0.Keeps s1 := hs.hbmWrite
    exact KeepsFst.mk h1.setTag
  · exact hs.storeInsert

theorem State.Keeps.modCold {key : List Byte} {g : List Byte → List Byte} (hs : s0.Keeps s) : s0.Keeps (s.modCold key g) := by
  unfold State.modCold
  refine keeps_ite ?_ ?_
  · exact hs.setFlow
  · split
    · exact hs.hbmWrite
    · exact hs.modCached

theorem State.Keeps.setFrag {w : Nat} {e : FragEnt} (hs : s0.Keeps s) : s0.Keeps (s.setFrag w e) := by
  unfold State.setFrag
  exact hs.upd

theorem State.Keeps.fragFree {w : Nat} (hs : s0.Keeps s) : s0.Keeps (s.fragFree w) := by
  unfold State.fragFree
  exact keeps_ite hs.setFrag.wr hs

theorem State.Keeps.fragAccess {key : List Byte} {bad : List Nat} (hs : s0.Keeps s) : s0.Keeps (s.fragAccess key bad) := by
  unfold State.fragAccess
  exact (keeps_foldl hs (fun _ _ h1 => by
  split
  · exact keeps_ite h1.fragFree.fault h1
  · exact h1))

theorem State.Keeps.fragCreate {x : Pkt} {bad : List Nat} (hs : s0.Keeps s) : s0.Keeps (s.fragCreate x bad) := by
  unfold State.fragCreate
  refine keeps_ite ?_ ?_
  · exact hs
  · split
    · exact hs.bump
    · extract_lets s1
      have h1 : s0.Keeps s1 := hs.fragAccess
      refine keeps_ite ?_ ?_
      · exact hs
      · split
        · exact h1.setFrag.bump
        · split
          · exact h1.setFrag.wr
          · exact h1.bump

theorem execFragEntryFree_keeps {bucket : Fin 16384} {way : Fin 4} (hs : s0.Keeps s) : Completes s0 (execFragEntryFree bucket way s) := by
  unfold execFragEntryFree
  exact keeps_ite hs.fragFree.next hs.next

theorem execFragFlush_keeps {src : Source} (hs : s0.Keeps s) : Completes s0 (execFragFlush src s) := by
  unfold execFragFlush
  exact hs.expertCmd (fun _ h1 => h1.later)

theorem State.Keeps.fragFlushNow (hs : s0.Keeps s) : s0.Keeps s.fragFlushNow := by
  unfold State.fragFlushNow
  exact hs.upd.wr

theorem execFcsResult_keeps {pk : PktId} {ok : Bool} (hs : s0.Keeps s) : Completes s0 (execFcsResult pk ok s) := by
  unfold execFcsResult
  extract_lets s1
  have h1 : s0.Keeps s1 := hs.modPkt
  split
  · exact hs.next
  · exact keeps_ite hs.next (keeps_ite (State.Keeps.next (keeps_ite h1.fragCreate h1)) hs.modPkt.next)

theorem State.Keeps.cacheDrop {key : List Byte} {bad : List Nat} (hs : s0.Keeps s) : s0.Keeps (s.cacheDrop key bad) := by
  unfold State.cacheDrop
  exact (keeps_foldl hs (fun _ _ h1 => by
  extract_lets _ _ s4 s5 s6 s7
  have h4 : s0.Keeps s4 := h1.setWay
  have h5 : s0.Keeps s5 := h4.setFlow
  have h6 : s0.Keeps s6 := by
    unfold s6
    split
    · exact h5.setCached
    · exact h5
  have h7 : s0.Keeps s7 := h6.bump
  exact (keeps_ite h7.fault h1)))

theorem State.Keeps.storeLookup {key : List Byte} (hs : s0.Keeps s) : KeepsFst s0 (s.storeLookup key) := by
  unfold State.storeLookup
  extract_lets _ s2
  have h2 : s0.Keeps s2 := keeps_foldl hs (fun _ _ h3 => h3.tagCheck)
  split
  · exact KeepsFst.mk h2.recordUe
  · exact KeepsFst.mk (State.Keeps.recordUe (keeps_ite h2.bump h2))
  · split
    · exact KeepsFst.mk (keeps_ite h2.bump h2)

theorem State.Keeps.install {e : CacheEnt} (hs : s0.Keeps s) : KeepsOpt s0 (s.install e) := by
  unfold State.install
  extract_lets _ a2
  clear_value a2
  split
  · exact KeepsOpt.some hs.setWay
  · split
    · exact KeepsOpt.none
    · exact keeps_ite KeepsOpt.none (KeepsOpt.some hs.setFlow.setWay)

theorem State.Keeps.flowSearch {key : List Byte} (hs : s0.Keeps s) : KeepsFst s0 (s.flowSearch key) := by
  unfold State.flowSearch
  extract_lets _ s2 s3
  have h2 : s0.Keeps s2 := hs.bump
  have h3 : s0.Keeps s3 := h2.setFlow
  split
  · exact KeepsFst.mk hs.setWay.bump
  · split
    · split
      · rename_i s4 e4
        have h4 := h3.install _ e4
        exact KeepsFst.mk h4
      · exact KeepsFst.mk h2.bump
    · split
      · rename_i s4 _ e4
        have h4 := KeepsFst.of_eq e4 hs.storeLookup
        extract_lets s5
        have h5 : s0.Keeps s5 := h4.bump
        split
        · rename_i s6 e6
          have h6 := h5.install _ e6
          exact KeepsFst.mk h6.setCached
        · exact KeepsFst.mk h5.bump
      · rename_i s4 e4
        have h4 := KeepsFst.of_eq e4 hs.storeLookup
        extract_lets s5
        have h5 : s0.Keeps s5 := h4.bump
        split
        · rename_i s6 e6
          have h6 := h5.install _ e6
          exact KeepsFst.mk h6
        · exact KeepsFst.mk h5.bump

theorem execFlowLookup_keeps {pk : PktId} {badCache badFrag : List Nat} (hs : s0.Keeps s) :
    Completes s0 (execFlowLookup pk badCache badFrag s) := by
  unfold execFlowLookup
  extract_lets s1
  have h1 : s0.Keeps s1 := hs.modPkt
  split
  · exact hs.next
  · extract_lets _ s3
    have h3 : s0.Keeps s3 := by
      refine keeps_ite ?_ ?_
      · split
        rename_i s4 _ e4
        have h4 := KeepsFst.of_eq e4 h1.cacheDrop.flowSearch
        exact h4.modPkt
      · exact h1
    refine keeps_ite ?_ ?_
    · exact hs.next
    · split
      · exact State.Keeps.next (keeps_ite h3.fragCreate h3)
      · exact h3.next

theorem execVictimWriteback_keeps {n : Nat} (hs : s0.Keeps s) : Completes s0 (execVictimWriteback n s) := by
  unfold execVictimWriteback
  extract_lets s1
  have h1 : s0.Keeps s1 := hs.setFlow
  split
  · exact hs.next
  · split
    · rename_i s2 _ e2
      have h2 := KeepsFst.of_eq e2 h1.writeBack
      exact h2.next
    · rename_i s2 e2
      have h2 := KeepsFst.of_eq e2 h1.writeBack
      exact h2.freeRingOf.next

theorem execFlowAgeSweep_keeps {bucket : Fin 134217728} (hs : s0.Keeps s) : Completes s0 (execFlowAgeSweep bucket s) := by
  unfold execFlowAgeSweep
  extract_lets _ _ s3
  have h3 : s0.Keeps s3 := hs.tagCheck
  exact (keeps_ite hs.next (keeps_foldl h3 (fun _ _ h4 => by
  extract_lets
  refine keeps_ite ?_ ?_
  · split
    · exact h4.recordUe
    · exact keeps_ite h4.setTag.records.freeRingOf h4
  · exact h4)).next)

theorem State.Keeps.setEp {w : Nat} {e : EpEnt} (hs : s0.Keeps s) : s0.Keeps (s.setEp w e) := by
  unfold State.setEp
  exact hs.upd

theorem State.Keeps.epCount {d : Int} (hs : s0.Keeps s) : s0.Keeps (s.epCount d) := by
  unfold State.epCount
  exact hs.wr

theorem State.Keeps.learnEvent {e : LearnEv} (hs : s0.Keeps s) : s0.Keeps (s.learnEvent e) := by
  unfold State.learnEvent
  exact hs.hqProduce

theorem State.Keeps.epLost {w : Nat} (hs : s0.Keeps s) : s0.Keeps (s.epLost w) := by
  unfold State.epLost
  extract_lets s1
  have h1 : s0.Keeps s1 := hs.setEp.epCount.bump
  refine keeps_ite ?_ ?_
  · split
    rename_i s2 e2
    have h2 := KeepsSnd.of_eq e2 h1.fresh
    split
    rename_i s3 e3
    have h3 := KeepsSnd.of_eq e3 h2.fresh
    extract_lets s4
    have h4 : s0.Keeps s4 := h3.learnEvent
    exact h4.fault
  · exact hs

theorem State.Keeps.learn {mac vlan loc lane : Nat} (hs : s0.Keeps s) : KeepsFst s0 (s.learn mac vlan loc lane) := by
  unfold State.learn
  extract_lets
  split
  · refine keeps_ite ?_ ?_
    · exact KeepsFst.mk hs
    · split
      · extract_lets s2
        have h2 : s0.Keeps s2 := hs.setEp.epCount
        exact KeepsFst.mk h2.learnEvent
      · exact KeepsFst.mk hs.bump.learnEvent
  · extract_lets _ _ _ s5
    have h5 : s0.Keeps s5 := hs.setEp.bump
    exact keeps_ite (KeepsFst.mk hs.setEp) (keeps_ite (KeepsFst.mk hs.learnEvent) (keeps_ite (KeepsFst.mk hs) (KeepsFst.mk h5.learnEvent)))

theorem execEndpointSearch_keeps {pk : PktId} {bad : List Nat} (hs : s0.Keeps s) : Completes s0 (execEndpointSearch pk bad s) := by
  unfold execEndpointSearch
  split
  · exact hs.next
  · extract_lets _ _ _ _ s5
    have h5 : s0.Keeps s5 := keeps_foldl hs (fun _ _ h6 => h6.epLost)
    refine keeps_ite ?_ ?_
    · exact hs.next
    · split
      rename_i s8 _ _ e8
      have h8 := KeepsFst.of_eq e8 (keeps_ite h5.learn (KeepsFst.mk h5))
      exact h8.modPkt.next

theorem execEndpointAgeing_keeps {bad : List Nat} (hs : s0.Keeps s) : Completes s0 (execEndpointAgeing bad s) := by
  unfold execEndpointAgeing
  extract_lets _ s2
  have h2 : s0.Keeps s2 := keeps_foldl hs.updTime (fun _ _ h3 => h3.epLost)
  exact keeps_ite hs.next (keeps_ite h2.next (keeps_foldl h2 (fun _ _ h4 => keeps_ite h4.setEp.epCount.learnEvent h4)).next)

theorem State.Keeps.learnStart {src : Source} {op : Nat} (hs : s0.Keeps s) : s0.Keeps (s.learnStart src op) := by
  unfold State.learnStart
  exact hs.later.wr.auditCmd

theorem execLearnAddStatic_keeps {src : Source} (hs : s0.Keeps s) : Completes s0 (execLearnAddStatic src s) := by
  unfold execLearnAddStatic
  exact hs.basicCmd (fun _ h1 => h1.learnStart)

theorem execLearnDelete_keeps {src : Source} (hs : s0.Keeps s) : Completes s0 (execLearnDelete src s) := by
  unfold execLearnDelete
  exact hs.basicCmd (fun _ h1 => h1.learnStart)

theorem execLearnRead_keeps {src : Source} (hs : s0.Keeps s) : Completes s0 (execLearnRead src s) := by
  unfold execLearnRead
  exact hs.basicCmd (fun _ h1 => h1.learnStart)

theorem State.Keeps.learnNow {op mac vlan loc : Nat} (hs : s0.Keeps s) : s0.Keeps (s.learnNow op mac vlan loc) := by
  unfold State.learnNow
  extract_lets
  split
  · exact keeps_ite hs.setEp.wr.wr.event (keeps_ite hs.setEp.epCount.wr.wr.event hs.wr.wr.wr.event)
  · refine keeps_ite ?_ ?_
    · split
      · exact hs.setEp.epCount.wr.wr.event
      · exact hs.wr.wr.event
    · exact hs.wr.wr.event

theorem State.Keeps.sendAs {port : Option Nat} {kind src dest : Nat} {args : List Int} (hs : s0.Keeps s) :
    s0.Keeps (s.sendAs port kind src dest args) := by
  unfold State.sendAs
  exact hs.upd

theorem State.Keeps.send {port : Option Nat} {kind dest : Nat} {args : List Int} (hs : s0.Keeps s) : s0.Keeps (s.send port kind dest args) := by
  unfold State.send
  exact keeps_ite hs hs.sendAs

theorem State.Keeps.sendTo {kind dst : Nat} {args : List Int} (hs : s0.Keeps s) : KeepsFst s0 (s.sendTo kind dst args) := by
  unfold State.sendTo
  split
  · extract_lets s1
    have h1 : s0.Keeps s1 := hs.send
    exact KeepsFst.mk (keeps_ite h1.send h1)
  · exact KeepsFst.mk hs

theorem State.Keeps.flood {kind dest but : Nat} {args : List Int} (hs : s0.Keeps s) : s0.Keeps (s.flood kind dest but args) := by
  unfold State.flood
  exact keeps_foldl hs (fun _ _ h1 => h1.send)

theorem State.Keeps.homeAdd {idx tag : Nat} {vals : List Word} (hs : s0.Keeps s) : s0.Keeps (s.homeAdd idx tag vals) := by
  unfold State.homeAdd
  exact hs.hbmWrite

theorem State.Keeps.homeAddSend {key : List Byte} {vals : List Word} (hs : s0.Keeps s) : s0.Keeps (s.homeAddSend key vals) := by
  unfold State.homeAddSend
  split
  · exact hs.bump
  · refine keeps_ite ?_ ?_
    · exact hs.homeAdd
    · split
      · rename_i s1 e1
        have h1 := KeepsFst.of_eq e1 hs.sendTo
        exact h1
      · rename_i s1 e1
        have h1 := KeepsFst.of_eq e1 hs.sendTo
        exact h1.bump

theorem State.Keeps.homeInput {inv : Nat} {vals : List Word} {isNew lost : Bool} (hs : s0.Keeps s) :
    s0.Keeps (s.homeInput inv vals isNew lost) := by
  unfold State.homeInput
  exact hs.upd

theorem State.Keeps.homeGone {inv : Nat} (hs : s0.Keeps s) : s0.Keeps (s.homeGone inv) := by
  unfold State.homeGone
  exact hs.bump.homeInput

theorem State.Keeps.homeFetch {inv : Nat} {key : List Byte} (hs : s0.Keeps s) : s0.Keeps (s.homeFetch inv key) := by
  unfold State.homeFetch
  extract_lets
  split
  · exact hs.homeGone
  · refine keeps_ite ?_ ?_
    · split
      · exact hs.homeInput
    · split
      · rename_i s2 e2
        have h2 := KeepsFst.of_eq e2 hs.sendTo
        exact h2.upd.homeInput
      · rename_i s2 e2
        have h2 := KeepsFst.of_eq e2 hs.sendTo
        exact h2.homeGone

theorem State.Keeps.homeEnd {inv : Nat} (hs : s0.Keeps s) : s0.Keeps (s.homeEnd inv) := by
  unfold State.homeEnd
  exact keeps_ite hs.upd.bump hs

theorem State.Keeps.countSkips {c mv : Nat} (hs : s0.Keeps s) : s0.Keeps (s.countSkips c mv) := by
  unfold State.countSkips
  exact keeps_ite hs hs.bump

theorem State.Keeps.ringTake {r : Nat} {t : State} (hs : s0.Keeps s) (e : s.ringTake = some (r, t)) : s0.Keeps t := by
  unfold State.ringTake at e
  split at e
  · cases e
    exact hs.setFlow
  · split at e
    · cases e
      exact hs.setFlow
    · cases e

theorem State.Keeps.histAlloc {h : HotRec} (hs : s0.Keeps s) : KeepsFst s0 (s.histAlloc h) := by
  unfold State.histAlloc
  refine keeps_ite (KeepsFst.mk hs) ?_
  split
  · rename_i e
    exact KeepsFst.mk (hs.ringTake e)
  · exact KeepsFst.mk hs.bump

theorem State.Keeps.hotOf {key : List Byte} (hs : s0.Keeps s) : KeepsFst s0 (s.hotOf key) := by
  unfold State.hotOf
  split
  · exact KeepsFst.mk hs
  · split
    · exact KeepsFst.mk hs
    · split
      · rename_i s1 _ e1
        have h1 := KeepsFst.of_eq e1 hs.storeLookup
        exact KeepsFst.mk h1
      · rename_i s1 e1
        have h1 := KeepsFst.of_eq e1 hs.storeLookup
        exact KeepsFst.mk h1

theorem State.Keeps.putUpd {key : List Byte} {h : HotRec} {isNew : Bool} {origin inv : Nat} (hs : s0.Keeps s) :
    s0.Keeps (s.putUpd key h isNew origin inv) := by
  unfold State.putUpd
  exact hs.setFlow

theorem State.Keeps.startInv {x : Pkt} (hs : s0.Keeps s) : s0.Keeps (s.startInv x) := by
  unfold State.startInv
  extract_lets _ s2 s3
  have h2 : s0.Keeps s2 := hs.setFlow
  have h3 : s0.Keeps s3 := h2.countSkips
  exact keeps_ite h3.homeFetch h3

theorem State.Keeps.updatePkt {k : PktId} (hs : s0.Keeps s) : s0.Keeps (s.updatePkt k) := by
  unfold State.updatePkt
  split
  · exact hs
  · refine keeps_ite ?_ ?_
    · exact hs
    · split
      rename_i s1 _ e1
      have h1 := KeepsFst.of_eq e1 hs.hotOf
      extract_lets
      split
      rename_i s4 _ e4
      have h4 := KeepsFst.of_eq e4 (keeps_ite h1.histAlloc (KeepsFst.mk h1))
      extract_lets _ _ _ _ s9 s10
      have h9 : s0.Keeps s9 := h4.putUpd
      have h10 : s0.Keeps s10 := h9.modPkt
      exact keeps_ite h10.startInv h10

theorem State.Keeps.updateFrag {k : PktId} (hs : s0.Keeps s) : s0.Keeps (s.updateFrag k) := by
  unfold State.updateFrag
  split
  · exact hs
  · split
    · exact hs
    · split
      · exact hs
      · extract_lets
        refine keeps_ite ?_ ?_
        · exact hs
        · split
          rename_i s2 _ e2
          have h2 := KeepsFst.of_eq e2 hs.hotOf
          extract_lets s3
          have h3 : s0.Keeps s3 := h2.putUpd
          exact h3.modPkt

theorem State.Keeps.deleteRecord {key : List Byte} (hs : s0.Keeps s) : s0.Keeps (s.deleteRecord key) := by
  unfold State.deleteRecord
  extract_lets _ a2 s3 s4 s5
  have h3 : s0.Keeps s3 := by
    unfold s3
    split
    · exact hs.setWay
    · exact hs
  have h4 : s0.Keeps s4 := h3.setFlow
  clear_value a2
  have h5 : s0.Keeps s5 := by
    unfold s5
    split
    · exact h4.setTag.records
    · exact h4
  exact h5.freeRingOf

theorem State.Keeps.keyRead {key : List Byte} (hs : s0.Keeps s) : s0.Keeps (s.keyRead key) := by
  unfold State.keyRead
  exact keeps_ite hs hs.storeLookup.fst

theorem State.Keeps.flowCmdNow (hs : s0.Keeps s) : s0.Keeps s.flowCmdNow := by
  unfold State.flowCmdNow
  extract_lets
  split
  · exact hs
  · extract_lets s2 s3
    have h2 : s0.Keeps s2 := hs.keyRead
    have h3 : s0.Keeps s3 := by
      unfold s3
      split
      · exact h2.recCheck
      · exact h2
    refine keeps_ite ?_ ?_
    · exact hs
    · refine keeps_ite ?_ ?_
      · exact hs.setFlow.wr.wr.event
      · split
        · exact h3.setFlow.wr.wr.event
        · exact keeps_ite (keeps_foldl h3 (fun _ _ h4 => h4.wr)).setFlow.wr.wr.event h3.deleteRecord.setFlow.wr.wr.event

theorem State.Keeps.flowCmd {src : Source} {op : Nat} (hs : s0.Keeps s) : s0.Keeps (s.flowCmd src op) := by
  unfold State.flowCmd
  exact keeps_ite hs.auditCmd hs.setFlow.wr.auditCmd

theorem execFlowRead_keeps {src : Source} (hs : s0.Keeps s) : Completes s0 (execFlowRead src s) := by
  unfold execFlowRead
  exact hs.basicCmd (fun _ h1 => h1.flowCmd)

theorem execFlowDelete_keeps {src : Source} (hs : s0.Keeps s) : Completes s0 (execFlowDelete src s) := by
  unfold execFlowDelete
  exact hs.basicCmd (fun _ h1 => h1.flowCmd)

theorem State.Keeps.flushCache {lose : Bool} (hs : s0.Keeps s) : s0.Keeps (s.flushCache lose) := by
  unfold State.flushCache
  exact (keeps_foldl hs (fun _ _ h1 => by
  extract_lets
  refine keeps_ite ?_ ?_
  · exact h1
  · split
    · rename_i s3 _ e3
      have h3 := KeepsFst.of_eq e3 h1.writeBack
      exact h3.setWay
    · rename_i s3 e3
      have h3 := KeepsFst.of_eq e3 h1.writeBack
      exact (keeps_ite h3.setWay h3)))

theorem execFlowFlush_keeps {src : Source} (hs : s0.Keeps s) : Completes s0 (execFlowFlush src s) := by
  unfold execFlowFlush
  exact hs.basicCmd (fun _ h1 => State.Keeps.auditCmd (keeps_ite h1 h1.flushCache))

theorem State.Keeps.writeUpd {u : UpdRec} (hs : s0.Keeps s) : s0.Keeps (s.writeUpd u) := by
  unfold State.writeUpd
  extract_lets s1 s2
  have h1 : s0.Keeps s1 := hs.modCached
  have h2 : s0.Keeps s2 := by
    unfold s2
    split
    · split
      · exact keeps_ite h1.setTag h1
      · exact h1
    · split
      · exact hs.hbmWrite.setTag
      · split
        · rename_i s3 _ e3
          have h3 := KeepsFst.of_eq e3 hs.storeInsert
          exact h3
        · rename_i s3 e3
          have h3 := KeepsFst.of_eq e3 hs.storeInsert
          exact h3.freeRingOf
  exact keeps_ite h2 h2.modCold

theorem execFlowRecordWrite_keeps (hs : s0.Keeps s) : Completes s0 (execFlowRecordWrite s) := by
  unfold execFlowRecordWrite
  extract_lets _ _ s3
  have h3 : s0.Keeps s3 := keeps_foldl hs.setFlow (fun _ _ h4 => h4.writeUpd)
  exact h3.setFlow.next

theorem State.Keeps.applyResult {r : FlowRes} (hs : s0.Keeps s) : s0.Keeps (s.applyResult r) := by
  unfold State.applyResult
  extract_lets s1 _ s3 s4 s5
  have h1 : s0.Keeps s1 := hs.keyRead
  have h3 : s0.Keeps s3 := h1.setFlow
  have h4 : s0.Keeps s4 := by
    unfold s4
    split
    · exact h3.modCached
    · split
      · exact h3.hbmWrite
      · exact h3
  have h5 : s0.Keeps s5 := h4.modCold.bump
  split
  · exact h1.bump
  · extract_lets
    split
    · extract_lets s7
      have h7 : s0.Keeps s7 := keeps_ite h5.hqProduce h5
      exact keeps_ite h7.homeAddSend h7

theorem State.Keeps.resultsDue (hs : s0.Keeps s) : s0.Keeps s.resultsDue := by
  unfold State.resultsDue
  exact keeps_ite hs (keeps_foldl hs.setFlow (fun _ _ h1 => h1.applyResult))

theorem execFlowResult_keeps (hs : s0.Keeps s) : Completes s0 (execFlowResult s) := by
  unfold execFlowResult
  exact keeps_ite hs.next hs.resultsDue.next

theorem execUpdatePass_keeps (hs : s0.Keeps s) : Completes s0 (execUpdatePass s) := by
  unfold execUpdatePass
  extract_lets s1 s2
  have h1 : s0.Keeps s1 := hs.flowCmdNow.resultsDue
  have h2 : s0.Keeps s2 := keeps_foldl h1 (fun _ _ h3 => h3.updatePkt)
  exact keeps_ite hs.next (keeps_foldl h2 (fun _ _ h3 => h3.updateFrag)).next

theorem State.Keeps.invLost {i : Inv} (hs : s0.Keeps s) : s0.Keeps (s.invLost i) := by
  unfold State.invLost
  exact hs.homeEnd.setFlow.modCold

theorem execFlowInvocationEnd_keeps {inv : Nat} {res : Option FlowVals} (hs : s0.Keeps s) : Completes s0 (execFlowInvocationEnd inv res s) := by
  unfold execFlowInvocationEnd
  split
  · exact hs.next
  · split
    · exact keeps_ite hs.next (keeps_ite hs.invLost.next hs.homeEnd.setFlow.next)
    · exact hs.invLost.next

theorem State.Keeps.udStore {i w1 w2 : Nat} (hs : s0.Keeps s) : s0.Keeps (s.udStore i w1 w2) := by
  unfold State.udStore
  extract_lets s1 s2
  have h1 : s0.Keeps s1 := hs.wr.wr.wr.wr
  have h2 : s0.Keeps s2 := h1.wr.wr.wr
  exact h2.wr.wr

theorem execUaccDescriptorWrite_keeps {src : Source} {f u : Fin 3} {w : UaccWord} {v : DWord} (hs : s0.Keeps s) :
    Completes s0 (execUaccDescriptorWrite src f u w v s) := by
  unfold execUaccDescriptorWrite
  exact (hs.basicCmd (fun _ h1 => by
  extract_lets
  split
  · extract_lets s6
    have h6 : s0.Keeps s6 := h1.udStore
    exact (keeps_ite h1.audit (keeps_ite h6 h6.audit))))

end Sys2Proof.Machine
end

section
/-! PROOF. What every command keeps: doubt, feature programs, trees and arrays. -/

namespace Sys2Proof.Machine

-- One thread for the proofs, which bounds the memory that checking them takes.
set_option Elab.async false

open Sys2Proof

variable {s0 s : State}

theorem State.Keeps.setHerdState {v : Nat} (hs : s0.Keeps s) : s0.Keeps (s.setHerdState v) := by
  unfold State.setHerdState
  exact keeps_ite hs hs.wr.event

theorem State.Keeps.cmtResult {r : Nat} (hs : s0.Keeps s) : s0.Keeps (s.cmtResult r) := by
  unfold State.cmtResult
  exact hs.wr.event

theorem State.Keeps.creqDrop {k : CommitKind} (hs : s0.Keeps s) : s0.Keeps (s.creqDrop k) := by
  unfold State.creqDrop
  split
  · exact keeps_ite hs.setCommitState hs
  · exact hs.upd

theorem State.Keeps.creqLost (hs : s0.Keeps s) : s0.Keeps s.creqLost := by
  unfold State.creqLost
  extract_lets s1
  have h1 : s0.Keeps s1 := keeps_foldl hs (fun _ _ h2 => h2.creqDrop)
  exact keeps_ite hs h1.upd.cmtResult

theorem State.Keeps.becomeAlone (hs : s0.Keeps s) : s0.Keeps s.becomeAlone := by
  unfold State.becomeAlone
  extract_lets s1 _ s3 s4 s5
  have h1 : s0.Keeps s1 := hs.creqLost
  have h3 : s0.Keeps s3 := h1.upd
  have h4 : s0.Keeps s4 := h3.setHerdState.wrNow.wr.wr
  have h5 : s0.Keeps s5 := h4.wr.wr
  exact h5.upd

theorem State.Keeps.sendDepart {member : Nat} (hs : s0.Keeps s) : s0.Keeps (s.sendDepart member) := by
  unfold State.sendDepart
  exact keeps_ite hs.flood hs.sendTo.fst

theorem State.Keeps.departBy {at_ : Nat} (hs : s0.Keeps s) : s0.Keeps (s.departBy at_) := by
  unfold State.departBy
  extract_lets s1
  have h1 : s0.Keeps s1 := hs.setHerdState.sendDepart
  exact h1.upd

theorem State.Keeps.announceLeave (hs : s0.Keeps s) : s0.Keeps s.announceLeave := by
  unfold State.announceLeave
  exact keeps_ite hs.departBy (keeps_ite hs.becomeAlone hs)

theorem State.Keeps.lanePass {l : Nat} {dev own : Bool} (hs : s0.Keeps s) : s0.Keeps (s.lanePass l dev own) := by
  unfold State.lanePass
  extract_lets _ _ s3 _ s5
  have h3 : s0.Keeps s3 := hs.upd
  have h5 : s0.Keeps s5 := h3.upd
  exact keeps_ite hs.upd h5.event.fault

theorem State.Keeps.ctxDown {c why : Nat} {dev : Bool} (hs : s0.Keeps s) : s0.Keeps (s.ctxDown c why dev) := by
  unfold State.ctxDown
  extract_lets _ s2 s3
  have h2 : s0.Keeps s2 := hs.upd
  have h3 : s0.Keeps s3 := h2.wr.wr
  exact keeps_ite hs h3.fault

theorem State.Keeps.ctxUp {c : Nat} (hs : s0.Keeps s) : s0.Keeps (s.ctxUp c) := by
  unfold State.ctxUp
  extract_lets _ s2
  have h2 : s0.Keeps s2 := hs.upd
  exact keeps_ite hs.upd h2.fault

theorem State.Keeps.abortJobs {p : Nat → JobRun → Bool} (hs : s0.Keeps s) : s0.Keeps (s.abortJobs p) := by
  unfold State.abortJobs
  exact hs.updHost

theorem State.Keeps.flockOut {f : Nat} {dev : Bool} (hs : s0.Keeps s) : s0.Keeps (s.flockOut f dev) := by
  unfold State.flockOut
  extract_lets _ s2 _ s4 s5 s6
  have h2 : s0.Keeps s2 := hs.upd
  have h4 : s0.Keeps s4 := h2.upd
  have h5 : s0.Keeps s5 := h4.event.fault
  have h6 : s0.Keeps s6 := h5.abortJobs
  exact keeps_ite hs (keeps_foldl h6 (fun _ _ h7 => h7.ctxDown))

theorem State.Keeps.replicaOut {r : Nat} {dev : Bool} (hs : s0.Keeps s) : s0.Keeps (s.replicaOut r dev) := by
  unfold State.replicaOut
  extract_lets _ s2 s3
  have h2 : s0.Keeps s2 := hs.upd
  have h3 : s0.Keeps s3 := h2.event.fault
  exact keeps_ite hs h3.lanePass.lanePass

theorem State.Keeps.devSafeIn {dev : Bool} (hs : s0.Keeps s) : s0.Keeps (s.devSafeIn dev) := by
  unfold State.devSafeIn
  extract_lets s1 s2 s3
  have h1 : s0.Keeps s1 := hs.of_devSafe.event.fault
  have h2 : s0.Keeps s2 := keeps_foldl h1 fun _ _ h => h.upd
  exact keeps_ite hs h2.upd.abortJobs.announceLeave

theorem execLanePassEntry_keeps {l : Lane} (hs : s0.Keeps s) : Completes s0 (execLanePassEntry l s) := by
  unfold execLanePassEntry
  exact hs.lanePass.next

theorem execFlockWithdraw_keeps {f : Flock} (hs : s0.Keeps s) : Completes s0 (execFlockWithdraw f s) := by
  unfold execFlockWithdraw
  exact hs.flockOut.next

theorem execDeviceSafeEntry_keeps {why : SafeCause} (hs : s0.Keeps s) : Completes s0 (execDeviceSafeEntry why s) := by
  unfold execDeviceSafeEntry
  extract_lets s1
  have h1 : s0.Keeps s1 := keeps_ite hs.fault hs
  exact h1.devSafeIn.next

theorem State.Keeps.ctxDue {c : Nat} (hs : s0.Keeps s) : s0.Keeps (s.ctxDue c) := by
  unfold State.ctxDue
  exact keeps_ite hs.ctxDown hs

theorem execContextDown_keeps {c : CtxNum} (hs : s0.Keeps s) : Completes s0 (execContextDown c s) := by
  unfold execContextDown
  exact hs.ctxDue.next

theorem execRestoreCtx_keeps {src : Source} {c : CtxNum} (hs : s0.Keeps s) : Completes s0 (execRestoreCtx src c s) := by
  unfold execRestoreCtx
  exact hs.basicCmd (fun _ h1 => h1.later.auditCmd)

theorem State.Keeps.restoreNow {c : Nat} (hs : s0.Keeps s) : s0.Keeps (s.restoreNow c) := by
  unfold State.restoreNow
  exact keeps_ite hs hs.ctxUp

theorem execLanePassSet_keeps {src : Source} {mask : BitVec 16} (hs : s0.Keeps s) : Completes s0 (execLanePassSet src mask s) := by
  unfold execLanePassSet
  exact hs.expertCmd (fun _ h1 => h1.wr.later)

theorem execForceSafe_keeps {src : Source} (hs : s0.Keeps s) : Completes s0 (execForceSafe src s) := by
  unfold execForceSafe
  exact hs.expertCmd (fun _ h1 => h1.later)

theorem execVerdPatchGo_keeps {src : Source} (hs : s0.Keeps s) : Completes s0 (execVerdPatchGo src s) := by
  unfold execVerdPatchGo
  exact hs.expertCmd (fun _ h1 => h1.later)

theorem State.Keeps.verdPatchNow {c code slot : Nat} {w : Word} (hs : s0.Keeps s) : s0.Keeps (s.verdPatchNow c code slot w) := by
  unfold State.verdPatchNow
  exact keeps_ite hs hs.upd

theorem State.Keeps.fstep {c : FCoreId} {w : Word} {g : Pkt → FCore → FCore} (hs : s0.Keeps s) : s0.Keeps (s.fstep c w g) := by
  unfold State.fstep
  extract_lets
  split
  · exact keeps_ite hs.upd hs
  · exact hs

theorem State.Keeps.falu {c : FCoreId} {code : Nat} {d a : Fin 64} {o : FOperand} {op : Word → Word → Word} (hs : s0.Keeps s) :
    s0.Keeps (s.falu c code d a o op) := by
  unfold State.falu
  exact hs.fstep

theorem State.Keeps.fbranch {c : FCoreId} {w : Word} {dist : Nat} {cond : FCore → Bool} (hs : s0.Keeps s) :
    s0.Keeps (s.fbranch c w dist cond) := by
  unfold State.fbranch
  exact hs.fstep

theorem execFeatureProgram_keeps {pk : PktId} {parity : Bool} (hs : s0.Keeps s) : Completes s0 (execFeatureProgram pk parity s) := by
  unfold execFeatureProgram
  split
  · exact hs.next
  · extract_lets _ _ _ s4 s5 _ s7 _ s9 s10 s11
    have h4 : s0.Keeps s4 := hs.bump
    have h5 : s0.Keeps s5 := keeps_ite h4.bump h4
    have h7 : s0.Keeps s7 := h5.modPkt
    have h9 : s0.Keeps s9 := h7.bump.modPkt
    have h10 : s0.Keeps s10 := h9.upd
    have h11 : s0.Keeps s11 := h10.fault
    exact keeps_ite hs.next (keeps_ite (State.Keeps.next (keeps_ite h11 h11.later)) h7.upd.next)

theorem execNop_keeps {c : FCoreId} (hs : s0.Keeps s) : Completes s0 (execNop c s) := by
  unfold execNop
  exact hs.fstep.next

theorem execLd_keeps {c : FCoreId} {f : LdF} (hs : s0.Keeps s) : Completes s0 (execLd c f s) := by
  unfold execLd
  exact hs.fstep.next

theorem execMovi_keeps {c : FCoreId} {d : Fin 64} {imm : BitVec 20} (hs : s0.Keeps s) : Completes s0 (execMovi c d imm s) := by
  unfold execMovi
  exact hs.fstep.next

theorem execLui_keeps {c : FCoreId} {d : Fin 64} {imm : BitVec 12} (hs : s0.Keeps s) : Completes s0 (execLui c d imm s) := by
  unfold execLui
  exact hs.fstep.next

theorem execAdd_keeps {c : FCoreId} {d a : Fin 64} {o : FOperand} (hs : s0.Keeps s) : Completes s0 (execAdd c d a o s) := by
  unfold execAdd
  exact hs.falu.next

theorem execSub_keeps {c : FCoreId} {d a : Fin 64} {o : FOperand} (hs : s0.Keeps s) : Completes s0 (execSub c d a o s) := by
  unfold execSub
  exact hs.falu.next

theorem execMul_keeps {c : FCoreId} {d a : Fin 64} {o : FOperand} (hs : s0.Keeps s) : Completes s0 (execMul c d a o s) := by
  unfold execMul
  exact hs.falu.next

theorem execAnd_keeps {c : FCoreId} {d a : Fin 64} {o : FOperand} (hs : s0.Keeps s) : Completes s0 (execAnd c d a o s) := by
  unfold execAnd
  exact hs.falu.next

theorem execOr_keeps {c : FCoreId} {d a : Fin 64} {o : FOperand} (hs : s0.Keeps s) : Completes s0 (execOr c d a o s) := by
  unfold execOr
  exact hs.falu.next

theorem execXor_keeps {c : FCoreId} {d a : Fin 64} {o : FOperand} (hs : s0.Keeps s) : Completes s0 (execXor c d a o s) := by
  unfold execXor
  exact hs.falu.next

theorem execShl_keeps {c : FCoreId} {d a : Fin 64} {o : FOperand} (hs : s0.Keeps s) : Completes s0 (execShl c d a o s) := by
  unfold execShl
  exact hs.falu.next

theorem execShr_keeps {c : FCoreId} {d a : Fin 64} {o : FOperand} (hs : s0.Keeps s) : Completes s0 (execShr c d a o s) := by
  unfold execShr
  exact hs.falu.next

theorem execMin_keeps {c : FCoreId} {d a : Fin 64} {o : FOperand} (hs : s0.Keeps s) : Completes s0 (execMin c d a o s) := by
  unfold execMin
  exact hs.falu.next

theorem execMax_keeps {c : FCoreId} {d a : Fin 64} {o : FOperand} (hs : s0.Keeps s) : Completes s0 (execMax c d a o s) := by
  unfold execMax
  exact hs.falu.next

theorem execSlt_keeps {c : FCoreId} {d a : Fin 64} {o : FOperand} (hs : s0.Keeps s) : Completes s0 (execSlt c d a o s) := by
  unfold execSlt
  exact hs.falu.next

theorem execLut_keeps {c : FCoreId} {d a : Fin 64} {t : Fin 16} (hs : s0.Keeps s) : Completes s0 (execLut c d a t s) := by
  unfold execLut
  exact hs.fstep.next

theorem execLog2_keeps {c : FCoreId} {d a : Fin 64} (hs : s0.Keeps s) : Completes s0 (execLog2 c d a s) := by
  unfold execLog2
  exact hs.fstep.next

theorem execBz_keeps {c : FCoreId} {a : Fin 64} {dist : Fin 4096} (hs : s0.Keeps s) : Completes s0 (execBz c a dist s) := by
  unfold execBz
  exact hs.fbranch.next

theorem execBnz_keeps {c : FCoreId} {a : Fin 64} {dist : Fin 4096} (hs : s0.Keeps s) : Completes s0 (execBnz c a dist s) := by
  unfold execBnz
  exact hs.fbranch.next

theorem execBabs_keeps {c : FCoreId} {dist : Fin 4096} (hs : s0.Keeps s) : Completes s0 (execBabs c dist s) := by
  unfold execBabs
  exact hs.fbranch.next

theorem execOut_keeps {c : FCoreId} {a k : Fin 64} (hs : s0.Keeps s) : Completes s0 (execOut c a k s) := by
  unfold execOut
  exact hs.fstep.next

theorem execHout_keeps {c : FCoreId} {a k : Fin 64} (hs : s0.Keeps s) : Completes s0 (execHout c a k s) := by
  unfold execHout
  exact hs.fstep.next

theorem execSetf_keeps {c : FCoreId} {a bit : Fin 64} (hs : s0.Keeps s) : Completes s0 (execSetf c a bit s) := by
  unfold execSetf
  exact hs.fstep.next

theorem execEndp_keeps {c : FCoreId} (hs : s0.Keeps s) : Completes s0 (execEndp c s) := by
  unfold execEndp
  extract_lets
  split
  · exact hs.next
  · extract_lets s2
    have h2 : s0.Keeps s2 := hs.modPkt
    exact keeps_ite hs.next h2.upd.next

theorem execFeatureCoreReload_keeps {c : FCoreId} (hs : s0.Keeps s) : Completes s0 (execFeatureCoreReload c s) := by
  unfold execFeatureCoreReload
  exact keeps_ite hs.next hs.upd.next

theorem execVectorAssemble_keeps {pk : PktId} {slotMapBad : Bool} (hs : s0.Keeps s) : Completes s0 (execVectorAssemble pk slotMapBad s) := by
  unfold execVectorAssemble
  split
  · exact hs.next
  · extract_lets _ s2 _ _ s5 s6
    have h2 : s0.Keeps s2 := keeps_foldl hs (fun _ _ h3 => h3.modPkt)
    have h5 : s0.Keeps s5 := hs.modPkt
    have h6 : s0.Keeps s6 := keeps_ite h5.countSkips h5
    exact keeps_ite hs.next (keeps_ite h2.fault.later.next (keeps_ite hs.next (State.Keeps.next (keeps_ite h6.countSkips h6))))

theorem execVectorHandover_keeps {l : Lane} (hs : s0.Keeps s) : Completes s0 (execVectorHandover l s) := by
  unfold execVectorHandover
  exact (keeps_foldl hs (fun _ _ h1 => h1.modPkt)).next

theorem State.Keeps.freshBytes {n : Nat} (hs : s0.Keeps s) : KeepsSnd s0 (s.freshBytes n) := by
  unfold State.freshBytes
  exact KeepsSnd.mk hs.upd

theorem execHistoryWrite_keeps {pk : PktId} (hs : s0.Keeps s) : Completes s0 (execHistoryWrite pk s) := by
  unfold execHistoryWrite
  extract_lets s1
  have h1 : s0.Keeps s1 := hs.modPkt
  split
  · exact hs.next
  · split
    · exact hs.next
    · extract_lets
      refine keeps_ite ?_ ?_
      · exact hs.next
      · refine keeps_ite ?_ ?_
        · split
          rename_i s3 e3
          have h3 := KeepsSnd.of_eq e3 h1.freshBytes
          exact h3.hbmWrite.next
        · exact h1.hbmWrite.next

theorem State.Keeps.xferVoid {f reason : Nat} (hs : s0.Keeps s) : s0.Keeps (s.xferVoid f reason) := by
  unfold State.xferVoid
  extract_lets _ _ _ s4 s5
  have h4 : s0.Keeps s4 := hs.upd
  have h5 : s0.Keeps s5 := h4.fault
  exact keeps_ite (keeps_foldl h5 (fun _ _ h6 => h6.later)) h5

theorem State.Keeps.treeBeat {f : Nat} (hs : s0.Keeps s) : s0.Keeps (s.treeBeat f) := by
  unfold State.treeBeat
  exact hs.upd

theorem State.Keeps.placeVec {pk : PktId} {slots : List Word} {at_ : Option (Nat × Nat)} (hs : s0.Keeps s) :
    s0.Keeps (s.placeVec pk slots at_) := by
  unfold State.placeVec
  extract_lets
  split
  · exact hs.upd
  · exact hs

theorem execVectorCross_keeps {pk : PktId} {voidXfer : Bool} (hs : s0.Keeps s) : Completes s0 (execVectorCross pk voidXfer s) := by
  unfold execVectorCross
  split
  · exact hs.next
  · extract_lets s1 s2
    have h1 : s0.Keeps s1 := hs.modPkt.bump
    have h2 : s0.Keeps s2 := h1.modPkt
    split
    · exact hs.next
    · refine keeps_ite ?_ ?_
      · exact hs.next
      · split
        · exact keeps_ite h2.xferVoid.next h1.placeVec.placeVec.next

theorem State.Keeps.setTcore {f t : Nat} {x : TCore} (hs : s0.Keeps s) : s0.Keeps (s.setTcore f t x) := by
  unfold State.setTcore
  exact hs.upd

theorem State.Keeps.putTreeBank {f t : Nat} {bank : Bool} {bs : List Byte} (hs : s0.Keeps s) : s0.Keeps (s.putTreeBank f t bank bs) := by
  unfold State.putTreeBank
  exact hs.upd

theorem State.Keeps.planVec {f t slot : Nat} (hs : s0.Keeps s) : s0.Keeps (s.planVec f t slot) := by
  unfold State.planVec
  exact keeps_ite hs hs.upd

theorem State.Keeps.treeParity {f t : Nat} (hs : s0.Keeps s) : s0.Keeps (s.treeParity f t) := by
  unfold State.treeParity
  extract_lets _ _ s3 s4 s5
  have h3 : s0.Keeps s3 := hs.setTcore.bump
  have h4 : s0.Keeps s4 := h3.fault
  have h5 : s0.Keeps s5 := h4.wr
  exact keeps_ite h4 h5.upd.later

theorem execTreeIssue_keeps {f : Flock} {core : Fin 64} {cycle : Fin 512} {bad : Bool} (hs : s0.Keeps s) :
    Completes s0 (execTreeIssue f core cycle bad s) := by
  unfold execTreeIssue
  extract_lets _ _ s3 _ _ _ _ s8 s9
  have h3 : s0.Keeps s3 := keeps_ite hs.planVec hs
  have h8 : s0.Keeps s8 := h3.setTcore
  have h9 : s0.Keeps s9 := keeps_ite h8.bump h8.bump
  exact keeps_ite hs.next (State.Keeps.next (keeps_ite h9.treeParity h9))

theorem execPartialAdd_keeps {f : Flock} {core : Fin 64} (hs : s0.Keeps s) : Completes s0 (execPartialAdd f core s) := by
  unfold execPartialAdd
  extract_lets
  split
  · exact hs.next
  · extract_lets s2 _ _ s5
    have h2 : s0.Keeps s2 := hs.setTcore
    have h5 : s0.Keeps s5 := by
      unfold s5
      split
      · exact h2.upd
      · exact h2
    split
    · exact h5.upd.next
    · exact h5.next

theorem execTreeReload_keeps {f : Flock} {core : Fin 64} (hs : s0.Keeps s) : Completes s0 (execTreeReload f core s) := by
  unfold execTreeReload
  extract_lets _ _ s3 _ _ _ s7
  have h3 : s0.Keeps s3 := hs.setTcore
  have h7 : s0.Keeps s7 := h3.upd
  exact keeps_ite hs.next h7.putTreeBank.next

theorem State.Keeps.workLost {ctx kind status : Nat} {p : Inv → Bool} (hs : s0.Keeps s) : s0.Keeps (s.workLost ctx kind status p) := by
  unfold State.workLost
  extract_lets
  split
  · exact hs.setFlow
  · exact hs.upd
  · exact hs.updHost
  · exact hs

theorem State.Keeps.gatherJobs {f : Nat} (hs : s0.Keeps s) : s0.Keeps (s.gatherJobs f) := by
  unfold State.gatherJobs
  extract_lets _ _ _ s4
  have h4 : s0.Keeps s4 := hs.upd
  exact keeps_ite h4.upd (keeps_foldl h4 (fun _ _ h6 => h6.workLost))

theorem execGather_keeps {f : Flock} (hs : s0.Keeps s) : Completes s0 (execGather f s) := by
  unfold execGather
  extract_lets _ _ _ _ s5 _ s7
  have h5 : s0.Keeps s5 := hs.upd
  have h7 : s0.Keeps s7 := h5.upd.gatherJobs
  exact keeps_ite h7.next (keeps_ite h7.bump.event.next h7.bump.next)

theorem State.Keeps.modRes {pk : PktId} {ctx : Nat} {ctxsel : Bool} {g : CtxRes → CtxRes} (hs : s0.Keeps s) :
    s0.Keeps (s.modRes pk ctx ctxsel g) := by
  unfold State.modRes
  exact hs.modPkt

theorem execOutputConversion_keeps {f : Flock} {n : Fin 512} {voidXfer : Bool} (hs : s0.Keeps s) :
    Completes s0 (execOutputConversion f n voidXfer s) := by
  unfold execOutputConversion
  split
  · exact hs.next
  · split
    · exact hs.next
    · split
      · exact hs.modRes.next
      · refine keeps_ite ?_ ?_
        · exact hs.modRes.xferVoid.next
        · split
          · extract_lets s1
            have h1 : s0.Keeps s1 := keeps_ite hs.bump hs
            exact h1.modRes.next

theorem execDieGather_keeps {c : CtxNum} {output : Fin 16} (hs : s0.Keeps s) : Completes s0 (execDieGather c output s) := by
  unfold execDieGather
  extract_lets
  split
  · exact hs.next
  · extract_lets
    refine keeps_ite ?_ ?_
    · exact hs.next
    · refine keeps_ite ?_ ?_
      · exact hs.workLost.next
      · split
        · extract_lets s7
          have h7 : s0.Keeps s7 := keeps_ite hs.bump hs
          exact h7.upd.next

theorem execTreeWdReq_keeps {src : Source} {f : Flock} {core : Fin 64} (hs : s0.Keeps s) : Completes s0 (execTreeWdReq src f core s) := by
  unfold execTreeWdReq
  exact hs.basicCmd (fun _ h1 => keeps_ite h1.auditCmd h1.upd.auditCmd)

theorem execTreeOff_keeps {src : Source} {f : Flock} {mask : DWord} (hs : s0.Keeps s) : Completes s0 (execTreeOff src f mask s) := by
  unfold execTreeOff
  exact hs.expertCmd (fun _ h1 => h1.wr.later)

theorem State.Keeps.treeOut {f mask : Nat} {dev : Bool} (hs : s0.Keeps s) : s0.Keeps (s.treeOut f mask dev) := by
  unfold State.treeOut
  extract_lets s1 _ _ s4
  have h1 : s0.Keeps s1 := hs.wr
  have h4 : s0.Keeps s4 := h1.upd
  exact keeps_ite h4.flockOut h4

theorem State.Keeps.countMiss {i : Island} (hs : s0.Keeps s) : s0.Keeps (s.countMiss i) := by
  unfold State.countMiss
  extract_lets _ _ s3
  have h3 : s0.Keeps s3 := hs.updTime
  split
  · exact h3.bump.fault
  · exact h3.bump.fault
  · exact h3.bump.fault
  · exact h3.wr.bump.fault
  · exact h3.bump.fault
  · exact h3.bump.fault

theorem State.Keeps.setAcore {c : ACoreId} {k : ACore} (hs : s0.Keeps s) : s0.Keeps (s.setAcore c k) := by
  unfold State.setAcore
  exact hs.upd

theorem State.Keeps.modAcore {c : ACoreId} {g : ACore → ACore} (hs : s0.Keeps s) : s0.Keeps (s.modAcore c g) := by
  unfold State.modAcore
  exact hs.setAcore

theorem State.Keeps.coreStore {c : ACoreId} {a : Nat} {bs : List Byte} (hs : s0.Keeps s) : s0.Keeps (s.coreStore c a bs) := by
  unfold State.coreStore
  exact hs.upd

theorem State.Keeps.coreStoreNib {c : ACoreId} {a nibs v : Nat} (hs : s0.Keeps s) : s0.Keeps (s.coreStoreNib c a nibs v) := by
  unfold State.coreStoreNib
  exact keeps_ite hs.coreStore hs.coreStore

theorem State.Keeps.voidWork {c : ACoreId} {reason status : Nat} (hs : s0.Keeps s) : s0.Keeps (s.voidWork c reason status) := by
  unfold State.voidWork
  split
  · exact hs
  · split
    · exact (keeps_foldl hs (fun _ _ h1 => by
  split
  · exact h1.modRes.modRes
  · exact h1))
    · exact hs.workLost

theorem State.Keeps.countWait {c : ACoreId} (hs : s0.Keeps s) : s0.Keeps (s.countWait c) := by
  unfold State.countWait
  split
  · exact hs
  · exact hs.bump

theorem State.Keeps.issueWait {c : ACoreId} (hs : s0.Keeps s) : s0.Keeps (s.issueWait c) := by
  unfold State.issueWait
  exact hs.countWait.modAcore

theorem State.Keeps.issueInstr {c : ACoreId} {counted : Bool} {n : Nat} (hs : s0.Keeps s) : s0.Keeps (s.issueInstr c counted n) := by
  unfold State.issueInstr
  exact hs.countWait.modAcore

theorem State.Keeps.setCell {f cell v : Nat} (hs : s0.Keeps s) : s0.Keeps (s.setCell f cell v) := by
  unfold State.setCell
  exact keeps_ite hs hs.upd

theorem State.Keeps.ovfMiss {f : Flock} (hs : s0.Keeps s) : s0.Keeps (s.ovfMiss f) := by
  unfold State.ovfMiss
  exact keeps_ite hs hs.upd.countMiss.later

theorem State.Keeps.postCell {f : Flock} {cell : Nat} (hs : s0.Keeps s) : s0.Keeps (s.postCell f cell) := by
  unfold State.postCell
  exact keeps_ite hs.bump.ovfMiss hs.setCell

theorem State.Keeps.postSpan {f : Flock} {cell span : Nat} (hs : s0.Keeps s) : s0.Keeps (s.postSpan f cell span) := by
  unfold State.postSpan
  exact keeps_foldl hs (fun _ _ h1 => h1.postCell)

theorem State.Keeps.land {f : Flock} (hs : s0.Keeps s) : s0.Keeps (s.land f) := by
  unfold State.land
  extract_lets _ _ _ _ _ _ s7
  have h7 : s0.Keeps s7 := hs.upd
  exact keeps_ite hs (keeps_foldl h7 (fun _ _ h8 => h8.postSpan))

theorem State.Keeps.observe {it : ObsItem} (hs : s0.Keeps s) : s0.Keeps (s.observe it) := by
  unfold State.observe
  exact keeps_ite hs.hqProduce hs.upd

theorem State.Keeps.watchRecord {n : Nat} {w : Watch} {c : ACoreId} {beat : Nat} {r : WatchRec} {es : List (Nat × Int)} (hs : s0.Keeps s) :
    s0.Keeps (s.watchRecord n w c beat r es) := by
  unfold State.watchRecord
  exact hs.bump.observe

theorem State.Keeps.putPart {c : ACoreId} {a : Nat} {f : LoadhF} {i : Nat} {first : Bool} {r : RowPart} (hs : s0.Keeps s) :
    s0.Keeps (s.putPart c a f i first r) := by
  unfold State.putPart
  extract_lets _ _ _ _ _ s6 s7 s8
  have h6 : s0.Keeps s6 := hs.upd
  have h7 : s0.Keeps s7 := keeps_ite h6 h6.bump
  have h8 : s0.Keeps s8 := keeps_ite h7.bump h7
  exact keeps_ite h8.bump h8

theorem State.Keeps.heldStep {c : ACoreId} {p : HeldPend} {n named : Nat} (hs : s0.Keeps s) : s0.Keeps (s.heldStep c p n named) := by
  unfold State.heldStep
  extract_lets _ _ _ _ _ s6
  have h6 : s0.Keeps s6 := keeps_ite (keeps_foldl hs (fun _ _ h7 => h7.putPart)) hs.putPart.bump
  exact h6.upd

theorem State.Keeps.setHeld {c : ACoreId} {held : List HeldPend} (hs : s0.Keeps s) : s0.Keeps (s.setHeld c held) := by
  unfold State.setHeld
  exact hs.modAcore

theorem execLoadh_keeps {c : ACoreId} {f : LoadhF} (hs : s0.Keeps s) : Completes s0 (execLoadh c f s) := by
  unfold execLoadh
  extract_lets s1 _ _ _ _ _ _ _ _ _ _ _ _ _ _ _ _ s18 s19
  have h1 : s0.Keeps s1 := hs.land
  have h18 : s0.Keeps s18 := keeps_foldl h1 (fun _ _ h19 => h19.upd)
  have h19 : s0.Keeps s19 := keeps_ite h18.modAcore h18
  exact keeps_ite h1.next (keeps_ite h1.issueWait.next h19.issueInstr.setHeld.next)

theorem State.Keeps.arrayParity {c : ACoreId} {arrays : List Nat} (hs : s0.Keeps s) : s0.Keeps (s.arrayParity c arrays) := by
  unfold State.arrayParity
  extract_lets _ _ s3 s4 s5 _ s7
  have h3 : s0.Keeps s3 := hs.setAcore.bump
  have h4 : s0.Keeps s4 := h3.fault
  have h5 : s0.Keeps s5 := h4.voidWork
  have h7 : s0.Keeps s7 := (keeps_foldl h5 (fun _ _ h8 => by
  extract_lets s9
  have h9 : s0.Keeps s9 := h8.wr
  exact h9.upd))
  exact keeps_ite h5 h7.later

theorem execHeldWrite_keeps {c : ACoreId} {a : Fin 4} {n : HeldAt} (hs : s0.Keeps s) : Completes s0 (execHeldWrite c a n s) := by
  unfold execHeldWrite
  extract_lets s1
  have h1 : s0.Keeps s1 := hs.land
  split
  · exact h1.next
  · extract_lets _ _ s6
    have h6 : s0.Keeps s6 := h1.heldStep.setHeld
    exact keeps_ite h1.next (State.Keeps.next (keeps_ite h6.arrayParity h6))

theorem State.Keeps.finishHeld {c : ACoreId} {a : Nat} {bank : Bool} (hs : s0.Keeps s) : s0.Keeps (s.finishHeld c a bank) := by
  unfold State.finishHeld
  extract_lets _ _ s3
  have h3 : s0.Keeps s3 := keeps_foldl hs (fun _ _ h4 => keeps_foldl h4 (fun _ _ h5 => h5.heldStep))
  exact h3.setHeld

theorem State.Keeps.accFault {c : ACoreId} {a lane kind code seen exp at_ : Nat} (hs : s0.Keeps s) :
    s0.Keeps (s.accFault c a lane kind code seen exp at_) := by
  unfold State.accFault
  extract_lets _ s2 s3
  have h2 : s0.Keeps s2 := hs.bump
  have h3 : s0.Keeps s3 := h2.wr.wr.wr
  split
  · extract_lets s4 s5 s6 _ s8
    have h4 : s0.Keeps s4 := h3.wr.wr.wr
    have h5 : s0.Keeps s5 := h4.wr.wr.wr
    have h6 : s0.Keeps s6 := keeps_ite h5.wr h2
    have h8 : s0.Keeps s8 := h6.fault
    exact h8.voidWork

theorem State.Keeps.streamChunk {c : ACoreId} {f : StreamF} {chunks named instr : Nat} {ids : Nat × Nat} {inj : Nat} {x : ChunkAt} (hs : s0.Keeps s) :
    s0.Keeps (s.streamChunk c f chunks named instr ids inj x) := by
  unfold State.streamChunk
  extract_lets
  split
  rename_i s1 e
  have h1 : s0.Keeps s1 := by
    split at e <;> cases e
    · exact hs
    · exact hs.upd.upd
  extract_lets flt _ _ _ _ _ s2 _ s3
  clear_value flt
  have h2 : s0.Keeps s2 := by
    unfold s2
    split
    · exact h1.accFault
    · exact h1
  exact keeps_ite h2.modAcore.upd h2.upd

theorem State.Keeps.streamTimes {c : ACoreId} {f : StreamF} {named : List Nat} {last : Nat} (hs : s0.Keeps s) :
    s0.Keeps (s.streamTimes c f named last) := by
  unfold State.streamTimes
  extract_lets s1
  have h1 : s0.Keeps s1 := keeps_foldl hs (fun _ _ h2 => h2.upd)
  exact h1.modAcore

theorem execStream_keeps {c : ACoreId} {f : StreamF} {parity : Bool} (hs : s0.Keeps s) : Completes s0 (execStream c f parity s) := by
  unfold execStream
  extract_lets s1 _ _ _ _ s6 _ _ s9 s10 _ s12 _ s14
  have h1 : s0.Keeps s1 := hs.land
  have h6 : s0.Keeps s6 := keeps_foldl h1 (fun _ _ h7 => h7.finishHeld)
  have h9 : s0.Keeps s9 := h6.issueInstr.streamTimes
  have h10 : s0.Keeps s10 := h9.modAcore
  have h12 : s0.Keeps s12 := keeps_foldl h10 (fun _ _ h13 => h13.streamChunk)
  have h14 : s0.Keeps s14 := keeps_ite h12.bump h12.bump
  exact keeps_ite h1.next (keeps_ite h1.issueWait.next (State.Keeps.next (keeps_ite h14.arrayParity h14)))

theorem execInjArm_keeps {src : Source} {f : Flock} {kind : Fin 8} {cls : CoreClass} {core : Fin 16} (hs : s0.Keeps s) :
    Completes s0 (execInjArm src f kind cls core s) := by
  unfold execInjArm
  exact hs.expertCmd (fun _ h1 => h1.modAcore)

theorem execAfRead_keeps {src : Source} {f : Flock} (hs : s0.Keeps s) : Completes s0 (execAfRead src f s) := by
  unfold execAfRead
  exact keeps_ite hs.updHost.next (keeps_foldl hs fun _ _ h => h.wr).updHost.next

theorem State.Keeps.drainWrites {c : ACoreId} {bc : Bool} {ws : List (Nat × Nat × Nat × Nat)} (hs : s0.Keeps s) :
    s0.Keeps (s.drainWrites c bc ws) := by
  unfold State.drainWrites
  extract_lets s1
  have h1 : s0.Keeps s1 := keeps_foldl hs (fun _ _ h2 => h2.coreStoreNib)
  exact h1.upd

theorem State.Keeps.landsBy {c : ACoreId} {t : Nat} (hs : s0.Keeps s) : s0.Keeps (s.landsBy c t) := by
  unfold State.landsBy
  exact hs.modAcore

theorem execStatRecordWrite_keeps {c : ACoreId} {a : Fin 4} (hs : s0.Keeps s) : Completes s0 (execStatRecordWrite c a s) := by
  unfold execStatRecordWrite
  extract_lets s1 _ _ _ s5 _ _ _ s9
  have h1 : s0.Keeps s1 := hs.land
  have h5 : s0.Keeps s5 := h1.upd
  have h9 : s0.Keeps s9 := h5.drainWrites.landsBy
  exact keeps_ite h1.next (keeps_ite h5.next h9.bump.next)

theorem State.Keeps.watchTile {c : ACoreId} {d : DrainTile} {nibs : Nat} {rows : List (List OutEl)} (hs : s0.Keeps s) :
    s0.Keeps (s.watchTile c d nibs rows) := by
  unfold State.watchTile
  extract_lets
  split
  · exact hs
  · extract_lets
    refine keeps_ite ?_ ?_
    · exact hs.upd
    · split
      rename_i s11 e11
      have h11 := KeepsSnd.of_eq e11 (keeps_ite (KeepsSnd.mk hs.fresh.snd) (KeepsSnd.mk hs))
      extract_lets _ s13
      have h13 : s0.Keeps s13 := h11.upd
      exact h13.watchRecord

theorem State.Keeps.releasePosts {c : ACoreId} (hs : s0.Keeps s) : s0.Keeps (s.releasePosts c) := by
  unfold State.releasePosts
  extract_lets _ _ _ _ s5
  have h5 : s0.Keeps s5 := hs.setAcore
  exact h5.upd

theorem execTileDrain_keeps {c : ACoreId} {a : Fin 4} {parity : Bool} (hs : s0.Keeps s) : Completes s0 (execTileDrain c a parity s) := by
  unfold execTileDrain
  extract_lets _ s2
  have h2 : s0.Keeps s2 := hs.land
  split
  · exact h2.next
  · extract_lets _ s6
    have h6 : s0.Keeps s6 := h2.upd
    refine keeps_ite ?_ ?_
    · exact h2.next
    · split
      · extract_lets s11 _ _ s14 _ s16 s17 s18
        have h11 : s0.Keeps s11 := h6.drainWrites.landsBy
        have h14 : s0.Keeps s14 := keeps_ite h11 h11.bump.modAcore
        have h16 : s0.Keeps s16 := keeps_ite h14.upd h14
        have h17 : s0.Keeps s17 := h16.watchTile
        have h18 : s0.Keeps s18 := h17.releasePosts
        exact State.Keeps.next (keeps_ite h18.arrayParity h18)

theorem State.Keeps.progLate {f : Nat} (hs : s0.Keeps s) : s0.Keeps (s.progLate f) := by
  unfold State.progLate
  exact hs.bump

theorem execBeatProgramStart_keeps {c : ACoreId} (hs : s0.Keeps s) : Completes s0 (execBeatProgramStart c s) := by
  unfold execBeatProgramStart
  extract_lets s1
  have h1 : s0.Keeps s1 := hs.land
  exact keeps_ite h1.next h1.modAcore.next

theorem execCoreNop_keeps {c : ACoreId} (hs : s0.Keeps s) : Completes s0 (execCoreNop c s) := by
  unfold execCoreNop
  extract_lets s1
  have h1 : s0.Keeps s1 := hs.land
  exact keeps_ite h1.issueInstr.next h1.next

theorem execBeatProgramEnd_keeps {c : ACoreId} (hs : s0.Keeps s) : Completes s0 (execBeatProgramEnd c s) := by
  unfold execBeatProgramEnd
  extract_lets s1
  have h1 : s0.Keeps s1 := hs.land
  exact keeps_ite h1.next h1.issueInstr.modAcore.next

theorem execForm_keeps {c : ACoreId} {ws : Bool} (hs : s0.Keeps s) : Completes s0 (execForm c ws s) := by
  unfold execForm
  extract_lets s1 _ s3
  have h1 : s0.Keeps s1 := hs.land
  have h3 : s0.Keeps s3 := h1.issueInstr.modAcore
  exact keeps_ite h1.next h3.wr.next

theorem State.Keeps.watchRet {c : ACoreId} {f : RetF} {instr layer oper : Nat} {els : List Nat} (hs : s0.Keeps s) :
    s0.Keeps (s.watchRet c f instr layer oper els) := by
  unfold State.watchRet
  extract_lets
  split
  · exact hs
  · exact hs.watchRecord

theorem execRet_keeps {c : ACoreId} {f : RetF} {voidXfer : MoveErr} (hs : s0.Keeps s) : Completes s0 (execRet c f voidXfer s) := by
  unfold execRet
  extract_lets s1 _ _ _ _ _ s7
  have h1 : s0.Keeps s1 := hs.land
  have h7 : s0.Keeps s7 := h1.issueInstr
  refine keeps_ite ?_ ?_
  · exact h1.next
  · refine keeps_ite ?_ ?_
    · exact h1.issueWait.next
    · split
      · exact h7.next
      · extract_lets _ _ _ s11 _ s13
        have h11 : s0.Keeps s11 := h7.watchRet
        have h13 : s0.Keeps s13 := (keeps_foldl h11 (fun _ _ h14 => by
  split
  · exact h14.modRes
  · exact h14))
        exact keeps_ite h11.arrayParity.next (keeps_ite h11.next (State.Keeps.next (keeps_ite h13.xferVoid h13)))

theorem State.Keeps.copyVoid {c : ACoreId} (hs : s0.Keeps s) : s0.Keeps (s.copyVoid c) := by
  unfold State.copyVoid
  exact hs.bump.voidWork

theorem State.Keeps.copySend {c : ACoreId} {f : CopyF} {a n i : Nat} (hs : s0.Keeps s) : s0.Keeps (s.copySend c f a n i) := by
  induction n generalizing s i with
  | zero => exact hs
  | succ n ih =>
    unfold State.copySend
    exact ih hs.sendTo.fst.upd

theorem State.Keeps.moverTakes {c : ACoreId} {f : CopyF} (hs : s0.Keeps s) : s0.Keeps (s.moverTakes c f) := by
  unfold State.moverTakes
  extract_lets _ _ _ s4 s5
  have h4 : s0.Keeps s4 := hs.upd
  have h5 : s0.Keeps s5 := h4.landsBy
  exact h5.modAcore

theorem execCopy_keeps {c : ACoreId} {f : CopyF} {lost : MoveErr} (hs : s0.Keeps s) : Completes s0 (execCopy c f lost s) := by
  unfold execCopy
  extract_lets s1 _ _ s4 s5 _ s7
  have h1 : s0.Keeps s1 := hs.land
  have h4 : s0.Keeps s4 := h1.issueInstr
  have h5 : s0.Keeps s5 := h4.moverTakes
  have h7 : s0.Keeps s7 := keeps_ite h5.voidWork h5
  refine keeps_ite ?_ ?_
  · exact h1.next
  · refine keeps_ite ?_ ?_
    · exact h1.issueWait.next
    · refine keeps_ite ?_ ?_
      · exact h4.arrayParity.next
      · split
        · exact keeps_ite h4.next (keeps_ite h4.copyVoid.next h4.copySend.modAcore.next)
        · refine keeps_ite ?_ ?_
          · exact keeps_ite h5.hbmWrite.next h5.next
          · split
            · exact h5.ueRecord.voidWork.next
            · exact h7.coreStore.next

theorem execSyncp_keeps {c : ACoreId} {cell : Fin 256} {spanM1 : Fin 16} (hs : s0.Keeps s) : Completes s0 (execSyncp c cell spanM1 s) := by
  unfold execSyncp
  extract_lets s1
  have h1 : s0.Keeps s1 := hs.land
  exact keeps_ite h1.next h1.issueInstr.modAcore.releasePosts.next

theorem execSyncPostEffect_keeps {f : Flock} (hs : s0.Keeps s) : Completes s0 (execSyncPostEffect f s) := by
  unfold execSyncPostEffect
  extract_lets s1
  have h1 : s0.Keeps s1 := hs.land
  split
  · exact h1.next
  · exact keeps_ite h1.next h1.upd.postSpan.next

theorem execSyncw_keeps {c : ACoreId} {cell : Fin 256} {count : BitVec 16} (hs : s0.Keeps s) : Completes s0 (execSyncw c cell count s) := by
  unfold execSyncw
  extract_lets s1 _ s3
  have h1 : s0.Keeps s1 := hs.land
  have h3 : s0.Keeps s3 := h1.issueInstr
  exact keeps_ite h1.next (keeps_ite h3.setCell.next h3.modAcore.next)

theorem execSyncwSatisfied_keeps {c : ACoreId} (hs : s0.Keeps s) : Completes s0 (execSyncwSatisfied c s) := by
  unfold execSyncwSatisfied
  extract_lets _ s2
  have h2 : s0.Keeps s2 := hs.land
  split
  · exact h2.next
  · exact keeps_ite h2.next h2.setCell.modAcore.next

theorem State.Keeps.placeSect {c : ACoreId} {v : Version} {t : Sect} {bank : Bool} (hs : s0.Keeps s) : s0.Keeps (s.placeSect c v t bank) := by
  unfold State.placeSect
  extract_lets
  split
  · exact hs.coreStore
  · exact hs.coreStore
  · exact hs.coreStore
  · exact hs.upd
  · exact hs.upd
  · exact hs

theorem execArrayReload_keeps {c : ACoreId} (hs : s0.Keeps s) : Completes s0 (execArrayReload c s) := by
  unfold execArrayReload
  extract_lets _ s2
  have h2 : s0.Keeps s2 := hs.setAcore.voidWork
  refine keeps_ite ?_ ?_
  · exact hs.next
  · split
    · exact h2.next
    · exact (keeps_foldl h2 (fun _ _ h3 => h3.placeSect)).next

theorem execArrayWdReq_keeps {src : Source} {f : Flock} {n : Fin 64} (hs : s0.Keeps s) : Completes s0 (execArrayWdReq src f n s) := by
  unfold execArrayWdReq
  exact hs.basicCmd (fun _ h1 => keeps_ite h1.auditCmd h1.upd.auditCmd)

theorem execArrayOff_keeps {src : Source} {f : Flock} {mask : DWord} (hs : s0.Keeps s) : Completes s0 (execArrayOff src f mask s) := by
  unfold execArrayOff
  exact hs.expertCmd (fun _ h1 => h1.wr.later)

theorem State.Keeps.arrayOut {f mask : Nat} {dev : Bool} (hs : s0.Keeps s) : s0.Keeps (s.arrayOut f mask dev) := by
  unfold State.arrayOut
  extract_lets _ _ s3 _ s5
  have h3 : s0.Keeps s3 := hs.wr
  have h5 : s0.Keeps s5 := h3.upd
  exact keeps_ite h5.flockOut h5

theorem execFlockPatchGo_keeps {src : Source} {f : Flock} (hs : s0.Keeps s) : Completes s0 (execFlockPatchGo src f s) := by
  unfold execFlockPatchGo
  exact hs.expertCmd (fun _ h1 => h1.later)

end Sys2Proof.Machine
end

section
/-! PROOF. What every command keeps: contexts and the herd. -/

namespace Sys2Proof.Machine

-- One thread for the proofs, which bounds the memory that checking them takes.
set_option Elab.async false

open Sys2Proof

variable {s0 s : State}

theorem State.Keeps.creq {k : CommitKind} {ver c : Nat} (hs : s0.Keeps s) : s0.Keeps (s.creq k ver c) := by
  unfold State.creq
  extract_lets _ s2
  have h2 : s0.Keeps s2 := hs.upd
  refine keeps_ite ?_ ?_
  · exact h2.send
  · split
    · rename_i s4 e4
      have h4 := KeepsFst.of_eq e4 h2.sendTo
      exact h4
    · rename_i s4 e4
      have h4 := KeepsFst.of_eq e4 h2.sendTo
      exact h4.creqLost

theorem State.Keeps.nackOrder {o : HerdOrder} (hs : s0.Keeps s) : s0.Keeps (s.nackOrder o) := by
  unfold State.nackOrder
  extract_lets s1 s2
  have h1 : s0.Keeps s1 := keeps_ite hs.bump hs.sendTo.fst
  have h2 : s0.Keeps s2 := h1.setHerdState
  exact h2.upd

theorem State.Keeps.abortOrder {k : CommitKind} (hs : s0.Keeps s) : s0.Keeps (s.abortOrder k) := by
  unfold State.abortOrder
  split
  · exact hs.nackOrder
  · exact hs

theorem State.Keeps.orderDone {k : CommitKind} (hs : s0.Keeps s) : s0.Keeps (s.orderDone k) := by
  unfold State.orderDone
  exact hs.upd

theorem execRuleCommit_keeps {src : Source} (hs : s0.Keeps s) : Completes s0 (execRuleCommit src s) := by
  unfold execRuleCommit
  exact (hs.basicCmd (fun _ h1 => by
  extract_lets s2 _ s4
  have h2 : s0.Keeps s2 := h1.auditCmd
  have h4 : s0.Keeps s4 := h2.upd
  exact (keeps_ite h1.auditCmd (keeps_ite (keeps_ite h2.cmtResult h4.creq.setCommitState) h2.upd.setCommitState))))

theorem execRuleAbort_keeps {src : Source} (hs : s0.Keeps s) : Completes s0 (execRuleAbort src s) := by
  unfold execRuleAbort
  exact (hs.basicCmd (fun _ h1 => by
  extract_lets s2
  have h2 : s0.Keeps s2 := h1.setCommitState.auditCmd
  exact (keeps_ite h1.auditCmd (keeps_ite h2.upd.abortOrder h2))))

theorem State.Keeps.setSlot2 {c : Option Nat} {x : Ctx} (hs : s0.Keeps s) : s0.Keeps (s.setSlot2 c x) := by
  unfold State.setSlot2
  split
  · exact hs.upd
  · exact hs.upd

theorem State.Keeps.ctxResult {r : Nat} (hs : s0.Keeps s) : s0.Keeps (s.ctxResult r) := by
  unfold State.ctxResult
  exact hs.wr.event

theorem State.Keeps.ctxRefuse {r : Refusal3} (hs : s0.Keeps s) : s0.Keeps (s.ctxRefuse r) := by
  unfold State.ctxRefuse
  exact hs.wr.wr.wr.bump.ctxResult

theorem State.Keeps.freeCellsOf {v keep : Option Version} (hs : s0.Keeps s) : s0.Keeps (s.freeCellsOf v keep) := by
  unfold State.freeCellsOf
  exact hs.upd

theorem State.Keeps.ctxCmd {src : Source} {op : Nat} {c : Option Nat} {ok : Ctx → Bool} {k : Ctx → State → State}
    (hs : s0.Keeps s) (hk : ∀ y0 y1, s0.Keeps y1 → s0.Keeps (k y0 y1)) :
    s0.Keeps (s.ctxCmd src op c ok k) := by
  unfold State.ctxCmd
  extract_lets _ _ s3
  have h3 : s0.Keeps s3 := hs.auditCmd
  exact keeps_ite (hk _ _ h3) h3.ctxResult

theorem State.Keeps.planWithdrawals (hs : s0.Keeps s) : s0.Keeps s.planWithdrawals := by
  unfold State.planWithdrawals
  exact (keeps_foldl hs (fun _ _ h1 => by
  extract_lets _ s3
  have h3 : s0.Keeps s3 := h1.upd
  exact h3.treeOut.arrayOut))

theorem State.Keeps.startLoad {c : Option Nat} {x : Ctx} (hs : s0.Keeps s) : s0.Keeps (s.startLoad c x) := by
  unfold State.startLoad
  extract_lets s1 s2
  have h1 : s0.Keeps s1 := keeps_ite hs.freeCellsOf.setSlot2 hs
  have h2 : s0.Keeps s2 := h1.planWithdrawals
  exact h2.setSlot2.bump

theorem State.Keeps.endChecks {c : Option Nat} (hs : s0.Keeps s) : s0.Keeps (s.endChecks c) := by
  unfold State.endChecks
  extract_lets _ _ s3
  have h3 : s0.Keeps s3 := hs.setSlot2
  split
  · exact h3.ueRecord.ctxRefuse
  · split
    · exact h3.ctxRefuse
    · exact h3.setSlot2

theorem State.Keeps.stageSect {c : Nat} {v : Version} {t : Sect} (hs : s0.Keeps s) : s0.Keeps (s.stageSect c v t) := by
  unfold State.stageSect
  exact keeps_ite hs.upd (keeps_ite hs.putTreeBank (keeps_ite hs.placeSect hs))

theorem State.Keeps.stageSets {v : Version} (hs : s0.Keeps s) : s0.Keeps (s.stageSets v) := by
  unfold State.stageSets
  refine keeps_ite ?_ ?_
  · exact hs
  · split
    · exact hs.upd
    · exact hs

theorem State.Keeps.stageParts {c : Nat} {v : Version} (hs : s0.Keeps s) : s0.Keeps (s.stageParts c v) := by
  unfold State.stageParts
  extract_lets s1
  have h1 : s0.Keeps s1 := (keeps_foldl hs (fun _ _ h2 => h2.stageSect)).stageSets
  exact h1.upd

theorem State.Keeps.endStaging {c : Option Nat} (hs : s0.Keeps s) : s0.Keeps (s.endStaging c) := by
  unfold State.endStaging
  extract_lets
  split
  · exact hs
  · extract_lets
    split
    · exact hs.ueRecord.setSlot2.ctxRefuse
    · exact hs.stageParts.setSlot2.ctxResult

theorem execLoad_keeps {src : Source} (hs : s0.Keeps s) : Completes s0 (execLoad src s) := by
  unfold execLoad
  exact hs.basicCmd (fun _ h1 => h1.ctxCmd (fun _ _ h2 => h2.startLoad))

theorem execContextCheckEnd_keeps {c : CtxNum} (hs : s0.Keeps s) : Completes s0 (execContextCheckEnd c s) := by
  unfold execContextCheckEnd
  exact keeps_ite hs.endChecks.next hs.next

theorem execContextStagingEnd_keeps {c : CtxNum} (hs : s0.Keeps s) : Completes s0 (execContextStagingEnd c s) := by
  unfold execContextStagingEnd
  exact keeps_ite hs.endStaging.next hs.next

theorem execLoadLayout_keeps {src : Source} (hs : s0.Keeps s) : Completes s0 (execLoadLayout src s) := by
  unfold execLoadLayout
  exact (hs.basicCmd (fun _ h1 => (h1.ctxCmd (fun _ _ h2 => by
  extract_lets s3
  have h3 : s0.Keeps s3 := h2.startLoad.endChecks
  exact (keeps_ite h3.endStaging h3)))))

theorem execDiscard_keeps {src : Source} (hs : s0.Keeps s) : Completes s0 (execDiscard src s) := by
  unfold execDiscard
  exact hs.basicCmd (fun _ h1 => h1.ctxCmd (fun _ _ h2 => h2.freeCellsOf.setSlot2.ctxResult))

theorem execUnload_keeps {src : Source} (hs : s0.Keeps s) : Completes s0 (execUnload src s) := by
  unfold execUnload
  exact hs.basicCmd (fun _ h1 => h1.ctxCmd (fun _ _ h2 => h2.setSlot2.ctxResult))

theorem State.Keeps.startCommit {c : Option Nat} {x : Ctx} (hs : s0.Keeps s) : s0.Keeps (s.startCommit c x) := by
  unfold State.startCommit
  exact hs.setSlot2

theorem State.Keeps.herdCommit {c : Nat} {x : Ctx} (hs : s0.Keeps s) : s0.Keeps (s.herdCommit c x) := by
  unfold State.herdCommit
  exact keeps_ite hs.cmtResult.bump.ctxResult (keeps_ite hs.cmtResult.bump.ctxResult hs.setSlot2.creq)

theorem execCommit_keeps {src : Source} {herd : Bool} (hs : s0.Keeps s) : Completes s0 (execCommit src herd s) := by
  unfold execCommit
  exact (hs.basicCmd (fun _ h1 => by
  extract_lets _ _ _ s5
  have h5 : s0.Keeps s5 := keeps_ite h1.bump h1
  exact (h5.ctxCmd (fun _ _ h6 => keeps_ite h6.herdCommit h6.startCommit))))

theorem execCommitLayout_keeps {src : Source} {herd : Bool} (hs : s0.Keeps s) : Completes s0 (execCommitLayout src herd s) := by
  unfold execCommitLayout
  exact hs.basicCmd (fun _ h1 => h1.ctxCmd (fun _ _ h2 => h2.startCommit))

theorem execCommitCheckEnd_keeps {c : Option CtxNum} (hs : s0.Keeps s) : Completes s0 (execCommitCheckEnd c s) := by
  unfold execCommitCheckEnd
  extract_lets _ _ _ s4
  have h4 : s0.Keeps s4 := hs.setSlot2
  exact keeps_ite hs.next (keeps_ite h4.ctxResult.next h4.ctxRefuse.next)

theorem execAbort_keeps {src : Source} (hs : s0.Keeps s) : Completes s0 (execAbort src s) := by
  unfold execAbort
  exact (hs.basicCmd (fun _ h1 => (h1.ctxCmd (fun _ _ h2 => by
  extract_lets _ s4
  have h4 : s0.Keeps s4 := h2.setSlot2.ctxResult
  exact (keeps_ite h4.abortOrder h4)))))

theorem State.Keeps.showSets (hs : s0.Keeps s) : s0.Keeps s.showSets := by
  unfold State.showSets
  exact keeps_foldl hs (fun _ _ h1 => h1.wr)

theorem State.Keeps.switchSets {v : Version} (hs : s0.Keeps s) : s0.Keeps (s.switchSets v) := by
  unfold State.switchSets
  exact keeps_ite hs hs.upd.showSets

theorem execContextVersionSwitch_keeps {c : Option CtxNum} (hs : s0.Keeps s) : Completes s0 (execContextVersionSwitch c s) := by
  unfold execContextVersionSwitch
  extract_lets _ _ _ s4
  have h4 : s0.Keeps s4 := hs.setSlot2.bump.event
  refine keeps_ite ?_ ?_
  · exact hs.next
  · split
    · extract_lets s5
      have h5 : s0.Keeps s5 := h4.switchSets.orderDone
      exact keeps_ite h5.ctxUp.next h5.next
    · exact h4.next

theorem State.Keeps.switchTree {f t : Nat} (hs : s0.Keeps s) : s0.Keeps (s.switchTree f t) := by
  unfold State.switchTree
  exact hs.putTreeBank.setTcore

theorem State.Keeps.switchCores {cs : List ACoreId} (hs : s0.Keeps s) : s0.Keeps (s.switchCores cs) := by
  unfold State.switchCores
  exact (keeps_foldl hs (fun _ _ h1 => by
  extract_lets _ s3
  have h3 : s0.Keeps s3 := h1.modAcore
  exact h3.wr))

theorem State.Keeps.modVers {c : Nat} {new old : Version → Version} (hs : s0.Keeps s) : s0.Keeps (s.modVers c new old) := by
  unfold State.modVers
  exact hs.upd

theorem State.Keeps.switchTrees {c : Nat} (hs : s0.Keeps s) : s0.Keeps (s.switchTrees c) := by
  unfold State.switchTrees
  extract_lets _ _ s3
  have h3 : s0.Keeps s3 := hs.modVers
  exact keeps_foldl h3 (fun _ _ h4 => h4.switchTree)

theorem State.Keeps.switchExpress {c o : Nat} (hs : s0.Keeps s) : s0.Keeps (s.switchExpress c o) := by
  unfold State.switchExpress
  extract_lets _ s2
  have h2 : s0.Keeps s2 := hs.switchCores
  exact keeps_ite h2.modVers h2.modVers

theorem State.Keeps.switchRuns {c : Nat} {p : Nat → Bool} (hs : s0.Keeps s) : s0.Keeps (s.switchRuns c p) := by
  unfold State.switchRuns
  extract_lets _ _ _ s4 s5
  have h4 : s0.Keeps s4 := hs.switchCores
  have h5 : s0.Keeps s5 := h4.modVers
  exact keeps_foldl h5 (fun _ _ h6 => h6.switchTree)

theorem execVersionPartSwitch_keeps {c : CtxNum} {part : VerPart} (hs : s0.Keeps s) : Completes s0 (execVersionPartSwitch c part s) := by
  unfold execVersionPartSwitch
  extract_lets
  split
  · exact hs.next
  · extract_lets s4
    have h4 : s0.Keeps s4 := keeps_ite hs.switchExpress hs
    refine keeps_ite ?_ ?_
    · exact hs.next
    · split
      · exact keeps_ite hs.next (State.Keeps.next (keeps_ite hs.switchTrees.switchRuns hs.switchTrees))
      · exact keeps_ite hs.next hs.modVers.next
      · exact keeps_ite hs.next (State.Keeps.next (keeps_ite h4.switchExpress h4))
      · exact keeps_ite hs.next hs.switchRuns.next
      · exact keeps_ite hs.next hs.switchRuns.next
      · exact keeps_ite hs.next hs.switchRuns.next

theorem execContextRetire_keeps {c : Option CtxNum} (hs : s0.Keeps s) : Completes s0 (execContextRetire c s) := by
  unfold execContextRetire
  exact keeps_ite hs.next hs.setSlot2.event.next

theorem State.Keeps.freeOld {c : Option Nat} (hs : s0.Keeps s) : s0.Keeps (s.freeOld c) := by
  unfold State.freeOld
  extract_lets _ s2
  have h2 : s0.Keeps s2 := hs.freeCellsOf
  exact keeps_ite h2.setSlot2 h2.setSlot2

theorem execContextRetireEnd_keeps {c : Option CtxNum} (hs : s0.Keeps s) : Completes s0 (execContextRetireEnd c s) := by
  unfold execContextRetireEnd
  exact keeps_ite hs.freeOld.next hs.next

theorem State.Keeps.endOldInvs {c : Nat} (hs : s0.Keeps s) : s0.Keeps (s.endOldInvs c) := by
  unfold State.endOldInvs
  exact keeps_foldl hs (fun _ _ h1 => h1.invLost)

theorem execFlowDrainExpire_keeps {c : CtxNum} (hs : s0.Keeps s) : Completes s0 (execFlowDrainExpire c s) := by
  unfold execFlowDrainExpire
  exact keeps_ite hs.endOldInvs.switchRuns.next hs.next

theorem State.Keeps.setRetired {c : Nat} (hs : s0.Keeps s) : s0.Keeps (s.setRetired c) := by
  unfold State.setRetired
  exact hs.upd

theorem execForceRetire_keeps {src : Source} (hs : s0.Keeps s) : Completes s0 (execForceRetire src s) := by
  unfold execForceRetire
  exact hs.expertCmd (fun _ h1 => h1.later)

theorem State.Keeps.forceRetireNow {c : Nat} (hs : s0.Keeps s) : s0.Keeps (s.forceRetireNow c) := by
  unfold State.forceRetireNow
  extract_lets _ s2
  have h2 : s0.Keeps s2 := hs.endOldInvs.event
  exact keeps_ite h2.modVers.setRetired hs

theorem State.Keeps.setHl {p v : Nat} (hs : s0.Keeps s) : s0.Keeps (s.setHl p v) := by
  unfold State.setHl
  extract_lets _ s2
  have h2 : s0.Keeps s2 := hs.wr.event
  exact keeps_ite hs (keeps_ite h2 h2.event)

theorem State.Keeps.trainPort {p : Nat} (hs : s0.Keeps s) : s0.Keeps (s.trainPort p) := by
  unfold State.trainPort
  extract_lets s1
  have h1 : s0.Keeps s1 := hs.upd
  exact keeps_ite h1.setHl (keeps_ite h1.setHl h1.setHl)

theorem State.Keeps.retrainPorts (hs : s0.Keeps s) : s0.Keeps s.retrainPorts := by
  unfold State.retrainPorts
  exact keeps_foldl hs (fun _ _ h1 => keeps_ite h1.trainPort h1)

theorem execHlinkEnable_keeps {src : Source} {h : HPort} {v : Bool} (hs : s0.Keeps s) : Completes s0 (execHlinkEnable src h v s) := by
  unfold execHlinkEnable
  exact (hs.basicCmd (fun _ h1 => by
  extract_lets s2
  have h2 : s0.Keeps s2 := h1.wrNow.auditCmd
  exact h2.upd.trainPort))

theorem execHlinkTrained_keeps {h : HPort} {delay : BitVec 16} (hs : s0.Keeps s) : Completes s0 (execHlinkTrained h delay s) := by
  unfold execHlinkTrained
  exact keeps_ite hs.wr.setHl.next hs.next

theorem execTrainFail_keeps {h : HPort} (hs : s0.Keeps s) : Completes s0 (execTrainFail h s) := by
  unfold execTrainFail
  exact keeps_ite hs.setHl.next hs.next

theorem execHlinkLockLoss_keeps {h : HPort} (hs : s0.Keeps s) : Completes s0 (execHlinkLockLoss h s) := by
  unfold execHlinkLockLoss
  exact keeps_ite hs.trainPort.next hs.next

theorem State.Keeps.redLost (hs : s0.Keeps s) : s0.Keeps s.redLost := by
  unfold State.redLost
  exact hs.upd

theorem execFlitReceive_keeps {h : HPort} {f : FlitF} (hs : s0.Keeps s) : Completes s0 (execFlitReceive h f s) := by
  unfold execFlitReceive
  extract_lets _ s2 s3 s4 _ s6 s7 _ _ s10
  have h2 : s0.Keeps s2 := hs.bump
  have h3 : s0.Keeps s3 := keeps_ite h2.bump h2
  have h4 : s0.Keeps s4 := h3.upd
  have h6 : s0.Keeps s6 := h4.bump
  have h7 : s0.Keeps s7 := h6.fault
  have h10 : s0.Keeps s10 := h4.upd
  exact keeps_ite hs.next (keeps_ite (State.Keeps.next (keeps_ite h7.redLost h7)) (keeps_ite (keeps_ite h10.upd.next h10.bump.next) h10.next))

theorem State.Keeps.recv {h : HPort} {m : MsgHdr} {kind : Nat} {args : List Int} {k : State → State}
    (hs : s0.Keeps s) (hk : ∀ y0, s0.Keeps y0 → s0.Keeps (k y0)) :
    Completes s0 (s.recv h m kind args k) := by
  unfold State.recv
  refine keeps_ite ?_ ?_
  · exact hs.next
  · refine keeps_ite ?_ ?_
    · exact (hk _ hs).next
    · split
      · exact hs.sendAs.next
      · exact hs.next

theorem State.Keeps.recvAll {h : HPort} {k : State → State} (hs : s0.Keeps s) (hk : ∀ y0, s0.Keeps y0 → s0.Keeps (k y0)) :
    Completes s0 (s.recvAll h k) := by
  unfold State.recvAll
  exact keeps_ite (hk _ hs).next hs.next

theorem State.Keeps.queueReq {r : RemoteReq} (hs : s0.Keeps s) : s0.Keeps (s.queueReq r) := by
  unfold State.queueReq
  exact hs.upd

theorem State.Keeps.applyReq {r : RemoteReq} (hs : s0.Keeps s) : s0.Keeps (s.applyReq r) := by
  unfold State.applyReq
  extract_lets s1
  have h1 : s0.Keeps s1 := hs.bump
  refine keeps_ite ?_ ?_
  · split
    · exact hs.sendTo.fst
  · refine keeps_ite ?_ ?_
    · exact hs.homeAdd
    · refine keeps_ite ?_ ?_
      · exact keeps_ite h1.sendTo.fst h1
      · refine keeps_ite ?_ ?_
        · exact hs.hbmPutAs.sendTo.fst
        · split
          rename_i s3 e3
          have h3 := KeepsSnd.of_eq e3 (keeps_ite hs.freshBytes (KeepsSnd.mk hs))
          exact h3.sendTo.fst

theorem execRd_keeps {h : HPort} {m : MsgHdr} {win : Fin 16} {addr len : Nat} (hs : s0.Keeps s) : Completes s0 (execRd h m win addr len s) := by
  unfold execRd
  exact hs.recv (fun _ h1 => h1.queueReq)

theorem execWr_keeps {h : HPort} {m : MsgHdr} {win : Fin 16} {addr : Nat} {data : List Byte} (hs : s0.Keeps s) :
    Completes s0 (execWr h m win addr data s) := by
  unfold execWr
  exact hs.recv (fun _ h1 => h1.queueReq)

theorem execHget_keeps {h : HPort} {m : MsgHdr} {idx : Nat} {tag : DWord} (hs : s0.Keeps s) : Completes s0 (execHget h m idx tag s) := by
  unfold execHget
  exact hs.recv (fun _ h1 => h1.queueReq)

theorem execHadd_keeps {h : HPort} {m : MsgHdr} {idx : Nat} {tag : DWord} {vals : List Word} (hs : s0.Keeps s) :
    Completes s0 (execHadd h m idx tag vals s) := by
  unfold execHadd
  exact hs.recv (fun _ h1 => h1.queueReq)

theorem execRemoteRequestApply_keeps (hs : s0.Keeps s) : Completes s0 (execRemoteRequestApply s) := by
  unfold execRemoteRequestApply
  exact (keeps_foldl hs.upd (fun _ _ h1 => h1.applyReq)).next

theorem State.Keeps.takeRemote {tok : Nat} {k : RemPend → State → State} (hs : s0.Keeps s) (hk : ∀ y0 y1, s0.Keeps y1 → s0.Keeps (k y0 y1)) :
    s0.Keeps (s.takeRemote tok k) := by
  unfold State.takeRemote
  extract_lets
  split
  · exact hs
  · exact hk _ _ hs.upd

theorem execRdr_keeps {h : HPort} {m : MsgHdr} {tok : Nat} {data : List Byte} (hs : s0.Keeps s) : Completes s0 (execRdr h m tok data s) := by
  unfold execRdr
  exact hs.recv (fun _ h1 => (h1.takeRemote (fun _ _ h2 => keeps_ite h2.copyVoid.releasePosts h2.coreStore.releasePosts)))

theorem execWra_keeps {h : HPort} {m : MsgHdr} {tok : Nat} {ok : Bool} (hs : s0.Keeps s) : Completes s0 (execWra h m tok ok s) := by
  unfold execWra
  exact hs.recv (fun _ h1 => (h1.takeRemote (fun _ _ h2 => State.Keeps.releasePosts (keeps_ite h2 h2.copyVoid))))

theorem execHrep_keeps {h : HPort} {m : MsgHdr} {tok : Nat} {vals : List Word} {isNew : Bool} (hs : s0.Keeps s) :
    Completes s0 (execHrep h m tok vals isNew s) := by
  unfold execHrep
  exact (hs.recv (fun _ h1 => by
  extract_lets _ s3
  have h3 : s0.Keeps s3 := h1.upd
  split
  · exact h3.upd.homeInput
  · exact h3))

theorem State.Keeps.enterFold (hs : s0.Keeps s) : s0.Keeps s.enterFold := by
  unfold State.enterFold
  extract_lets s1
  have h1 : s0.Keeps s1 := hs.setHerdState
  exact keeps_ite h1.upd hs

theorem execHello_keeps {h : HPort} {_m : MsgHdr} {f : HelloF} (hs : s0.Keeps s) : Completes s0 (execHello h _m f s) := by
  unfold execHello
  extract_lets _ s2 s3
  have h2 : s0.Keeps s2 := hs.wr.wr
  have h3 : s0.Keeps s3 := h2.upd
  exact keeps_ite hs.next h3.setHl.enterFold.next

theorem State.Keeps.joinResult {r : Nat} (hs : s0.Keeps s) : s0.Keeps (s.joinResult r) := by
  unfold State.joinResult
  exact hs.wr

theorem State.Keeps.joinOver {r : Nat} (hs : s0.Keeps s) : s0.Keeps (s.joinOver r) := by
  unfold State.joinOver
  extract_lets s1
  have h1 : s0.Keeps s1 := hs.joinResult.wrNow
  exact h1.upd

theorem execHerdJoin_keeps {src : Source} {v : Bool} (hs : s0.Keeps s) : Completes s0 (execHerdJoin src v s) := by
  unfold execHerdJoin
  exact (hs.basicCmd (fun _ h1 => by
  extract_lets s2 _ s4
  have h2 : s0.Keeps s2 := h1.wrNow.auditCmd
  have h4 : s0.Keeps s4 := h2.joinResult
  exact (keeps_ite (keeps_ite h2.becomeAlone h2.upd) (keeps_ite h2 (keeps_ite h2.joinResult.retrainPorts h4.upd.retrainPorts.enterFold)))))

theorem execJoinLocked_keeps (hs : s0.Keeps s) : Completes s0 (execJoinLocked s) := by
  unfold execJoinLocked
  extract_lets _ s2
  have h2 : s0.Keeps s2 := hs.upd
  refine keeps_ite ?_ ?_
  · split
    · rename_i s3 e3
      have h3 := KeepsFst.of_eq e3 h2.sendTo
      exact h3.next
    · rename_i s3 e3
      have h3 := KeepsFst.of_eq e3 h2.sendTo
      exact h3.flood.next
  · exact hs.next

theorem State.Keeps.sendJoiner {kind dst : Nat} {args : List Int} (hs : s0.Keeps s) : s0.Keeps (s.sendJoiner kind dst args) := by
  unfold State.sendJoiner
  split
  · rename_i s1 e1
    have h1 := KeepsFst.of_eq e1 hs.sendTo
    exact h1
  · rename_i s1 e1
    have h1 := KeepsFst.of_eq e1 hs.sendTo
    exact h1.flood

theorem execJoin_keeps {h : HPort} {m : MsgHdr} {ruleVer : BitVec 16} (hs : s0.Keeps s) : Completes s0 (execJoin h m ruleVer s) := by
  unfold execJoin
  exact hs.recv (fun _ h1 => (keeps_ite h1 (keeps_ite h1.sendJoiner (keeps_foldl h1 (fun _ _ h2 => h2.sendJoiner)))))

theorem execVtable_keeps {h : HPort} {m : MsgHdr} {blk : Fin 32} {vers : List (BitVec 16)} {ruleVer : BitVec 16} (hs : s0.Keeps s) :
    Completes s0 (execVtable h m blk vers ruleVer s) := by
  unfold execVtable
  exact (hs.recv (fun _ h1 => by
  extract_lets s2 _ s4
  have h2 : s0.Keeps s2 := h1.wr
  have h4 : s0.Keeps s4 := h2.upd
  refine keeps_ite ?_ ?_
  · exact h1
  · refine keeps_ite ?_ ?_
    · exact h4
    · split
      · exact h4.wr.wr.joinOver
      · exact (keeps_ite h4.wr.joinOver h4.upd.sendJoiner)))

theorem execReady_keeps {h : HPort} {m : MsgHdr} {digest : List Byte} (hs : s0.Keeps s) : Completes s0 (execReady h m digest s) := by
  unfold execReady
  exact (hs.recv (fun _ h1 => by
  extract_lets
  refine keeps_ite ?_ ?_
  · exact h1
  · refine keeps_ite ?_ ?_
    · exact h1.sendJoiner
    · split
      · exact h1.sendJoiner
      · exact h1.upd.sendJoiner))

theorem execHerdAdmit_keeps {h : HPort} {m : MsgHdr} {res : Nat ⊕ Fin 16} (hs : s0.Keeps s) : Completes s0 (execHerdAdmit h m res s) := by
  unfold execHerdAdmit
  exact (hs.recv (fun _ h1 => by
  extract_lets
  refine keeps_ite ?_ ?_
  · exact h1
  · split
    · extract_lets s3
      have h3 : s0.Keeps s3 := h1.wr.wr
      exact h3.upd
    · exact (keeps_ite h1.joinResult h1.joinOver)))

theorem execAdmission_keeps (hs : s0.Keeps s) : Completes s0 (execAdmission s) := by
  unfold execAdmission
  split
  · extract_lets _ s2
    have h2 : s0.Keeps s2 := hs.setHerdState.joinResult.wr
    exact keeps_ite h2.upd.next hs.next
  · exact hs.next

theorem execHerdLeave_keeps {src : Source} (hs : s0.Keeps s) : Completes s0 (execHerdLeave src s) := by
  unfold execHerdLeave
  exact hs.basicCmd (fun _ h1 => h1.auditCmd.announceLeave)

theorem execDeparture_keeps (hs : s0.Keeps s) : Completes s0 (execDeparture s) := by
  unfold execDeparture
  split
  · exact keeps_ite hs.becomeAlone.next hs.next
  · exact hs.next

theorem execLockLost_keeps (hs : s0.Keeps s) : Completes s0 (execLockLost s) := by
  unfold execLockLost
  exact keeps_ite hs.announceLeave.next hs.next

theorem State.Keeps.memberGone {member window : Nat} (hs : s0.Keeps s) : s0.Keeps (s.memberGone member window) := by
  unfold State.memberGone
  extract_lets _ _ _ s4
  have h4 : s0.Keeps s4 := hs.upd
  exact keeps_ite h4.upd.creqLost h4

theorem State.Keeps.rebroadcast {member w : Nat} (hs : s0.Keeps s) : s0.Keeps (s.rebroadcast member w) := by
  unfold State.rebroadcast
  exact keeps_ite hs (keeps_foldl hs.memberGone (fun _ _ h1 => h1.sendTo.fst))

theorem execDepart_keeps {h : HPort} {m : MsgHdr} {member : Fin 32768} {window : Nat} (hs : s0.Keeps s) :
    Completes s0 (execDepart h m member window s) := by
  unfold execDepart
  exact keeps_ite (keeps_ite hs.next hs.memberGone.flood.next) (hs.recv (fun _ h1 => keeps_ite h1 (keeps_ite h1.rebroadcast h1.memberGone)))

theorem State.Keeps.electionOver {bw : Nat} (hs : s0.Keeps s) : s0.Keeps (s.electionOver bw) := by
  unfold State.electionOver
  extract_lets s1
  have h1 : s0.Keeps s1 := hs.wr.wr
  exact h1.upd

theorem State.Keeps.herdSteer (hs : s0.Keeps s) : s0.Keeps s.herdSteer := by
  unfold State.herdSteer
  extract_lets
  refine keeps_ite ?_ ?_
  · exact hs
  · split
    rename_i s2 e2
    have h2 := KeepsSnd.of_eq e2 hs.fresh
    exact h2.upd

theorem State.Keeps.refMarker {p : Nat} {f : MarkerF} (hs : s0.Keeps s) : s0.Keeps (s.refMarker p f) := by
  unfold State.refMarker
  extract_lets _ _ _ _ s5 s6 s7 _ s9
  have h5 : s0.Keeps s5 := hs.wr.wr
  have h6 : s0.Keeps s6 := keeps_ite h5.wr h5
  have h7 : s0.Keeps s7 := h6.herdSteer
  have h9 : s0.Keeps s9 := keeps_ite h7.electionOver h7
  exact keeps_ite hs (keeps_ite hs.joinOver.becomeAlone (keeps_ite h9.departBy (keeps_ite h9.sendDepart.becomeAlone h9.upd)))

theorem State.Keeps.markerStop {f : MarkerF} (hs : s0.Keeps s) : s0.Keeps (s.markerStop f) := by
  unfold State.markerStop
  extract_lets s1 _ s3 s4
  have h1 : s0.Keeps s1 := hs.wr.event
  have h3 : s0.Keeps s3 := by
    unfold s3
    split
    · exact keeps_ite hs h1.upd
    · exact hs
  have h4 : s0.Keeps s4 := h3.wr.event
  refine keeps_ite ?_ ?_
  · exact hs
  · split
    · exact keeps_ite h3 h4.upd
    · exact h3

theorem execMarker_keeps {h : HPort} {_m : MsgHdr} {f : MarkerF} (hs : s0.Keeps s) : Completes s0 (execMarker h _m f s) := by
  unfold execMarker
  exact (hs.recvAll (fun _ h1 => by
  extract_lets _ _ s4 s5
  have h4 : s0.Keeps s4 := h1.upd
  have h5 : s0.Keeps s5 := h4.markerStop
  exact (keeps_ite h5.refMarker h5)))

theorem State.Keeps.startElection (hs : s0.Keeps s) : s0.Keeps s.startElection := by
  unfold State.startElection
  extract_lets _ s2 _ s4
  have h2 : s0.Keeps s2 := hs.wr.bump.event
  have h4 : s0.Keeps s4 := h2.upd
  exact keeps_ite h4 h4.flood

theorem execElectionStart_keeps (hs : s0.Keeps s) : Completes s0 (execElectionStart s) := by
  unfold execElectionStart
  exact keeps_ite hs.startElection.next hs.next

theorem execMarkerTimeout_keeps {h : Option HPort} (hs : s0.Keeps s) : Completes s0 (execMarkerTimeout h s) := by
  unfold execMarkerTimeout
  extract_lets
  split
  · exact keeps_ite hs.startElection.next hs.next
  · exact keeps_ite (keeps_ite hs.rebroadcast.next (keeps_ite (keeps_ite hs.next hs.memberGone.flood.next) hs.sendTo.fst.next)) hs.next

theorem execCandidate_keeps {h : HPort} {_m : MsgHdr} {prio : BitVec 8} {member : Fin 32768} (hs : s0.Keeps s) :
    Completes s0 (execCandidate h _m prio member s) := by
  unfold execCandidate
  exact (hs.recvAll (fun _ h1 => by
  extract_lets s2
  have h2 : s0.Keeps s2 := keeps_ite h1 h1.startElection
  exact (keeps_ite h1 (keeps_ite h2 (keeps_ite h2.upd.flood h2)))))

theorem State.Keeps.takeVote {voter member : Nat} (hs : s0.Keeps s) : s0.Keeps (s.takeVote voter member) := by
  unfold State.takeVote
  exact keeps_ite hs hs.upd

theorem execElectionVote_keeps (hs : s0.Keeps s) : Completes s0 (execElectionVote s) := by
  unfold execElectionVote
  split
  · exact keeps_ite hs.next (keeps_ite hs.takeVote.next hs.sendJoiner.next)
  · exact hs.next

theorem execVote_keeps {h : HPort} {m : MsgHdr} {prio : BitVec 8} {member : Fin 32768} (hs : s0.Keeps s) :
    Completes s0 (execVote h m prio member s) := by
  unfold execVote
  exact hs.recv (fun _ h1 => h1.takeVote)

theorem execElectionResult_keeps (hs : s0.Keeps s) : Completes s0 (execElectionResult s) := by
  unfold execElectionResult
  extract_lets
  split
  · exact keeps_ite hs.next (keeps_ite hs.upd.next hs.next)
  · exact hs.next

theorem execBellwetherTakeOffice_keeps (hs : s0.Keeps s) : Completes s0 (execBellwetherTakeOffice s) := by
  unfold execBellwetherTakeOffice
  extract_lets _ s2 s3 s4
  have h2 : s0.Keeps s2 := hs.upd
  have h3 : s0.Keeps s3 := h2.electionOver.wr.wr.wr
  have h4 : s0.Keeps s4 := h3.setHerdState.wr.joinResult
  split
  · exact keeps_ite hs.next (keeps_ite h4.upd.next h3.next)
  · exact hs.next

theorem execElectionFail_keeps (hs : s0.Keeps s) : Completes s0 (execElectionFail s) := by
  unfold execElectionFail
  extract_lets s1
  have h1 : s0.Keeps s1 := hs.electionOver.joinResult
  split
  · exact keeps_ite hs.next (keeps_ite hs.becomeAlone.next h1.upd.next)
  · exact hs.next

theorem State.Keeps.armOrder {k : CommitKind} {c : Nat} (hs : s0.Keeps s) : s0.Keeps (s.armOrder k c) := by
  unfold State.armOrder
  split
  · exact hs.ruleArm.audit
  · extract_lets s1
    have h1 : s0.Keeps s1 := hs.audit
    exact h1.upd.ctxResult

theorem State.Keeps.takeOrder {seq c : Nat} {k : CommitKind} {ver : Nat} (hs : s0.Keeps s) : s0.Keeps (s.takeOrder seq c k ver) := by
  unfold State.takeOrder
  extract_lets _ _ _ _ s5 s6 s7 s8
  have h5 : s0.Keeps s5 := hs.upd
  have h6 : s0.Keeps s6 := keeps_ite h5.wr.wr.cmtResult h5
  have h7 : s0.Keeps s7 := h6.armOrder
  have h8 : s0.Keeps s8 := h6.joinOver
  exact keeps_ite hs (keeps_ite (keeps_ite h7 h7.sendJoiner) (keeps_ite h8.upd h6.nackOrder))

theorem execOrder_keeps {h : HPort} {m : MsgHdr} {seq : BitVec 32} {beat : Nat} {k : CommitKind} {ver : BitVec 16} (hs : s0.Keeps s) :
    Completes s0 (execOrder h m seq beat k ver s) := by
  unfold execOrder
  exact hs.recv (fun _ h1 => h1.takeOrder)

theorem State.Keeps.orderCommit {src : Nat} {k : CommitKind} {ver beat : Nat} (hs : s0.Keeps s) : s0.Keeps (s.orderCommit src k ver beat) := by
  unfold State.orderCommit
  extract_lets _ _ _ s4 _ s6 s7
  have h4 : s0.Keeps s4 := hs.upd.wr
  have h6 : s0.Keeps s6 := keeps_foldl h4 (fun _ _ h7 => h7.sendTo.fst)
  have h7 : s0.Keeps s7 := keeps_foldl h6 (fun _ _ h8 => h8.sendJoiner)
  exact keeps_ite hs h7.takeOrder

theorem execCreq_keeps {h : HPort} {m : MsgHdr} {k : CommitKind} {ver : BitVec 16} {beat : Nat} (hs : s0.Keeps s) :
    Completes s0 (execCreq h m k ver beat s) := by
  unfold execCreq
  exact hs.recv (fun _ h1 => h1.orderCommit)

theorem execAck_keeps {h : HPort} {m : MsgHdr} {seq : BitVec 32} {nack : Bool} (hs : s0.Keeps s) : Completes s0 (execAck h m seq nack s) := by
  unfold execAck
  exact (hs.recv (fun _ h1 => by
  extract_lets _ s3 s4
  have h3 : s0.Keeps s3 := h1.upd
  have h4 : s0.Keeps s4 := keeps_ite h3.bump h3
  exact (keeps_ite h1 h4.rebroadcast)))

theorem State.Keeps.takeOwnReqs (hs : s0.Keeps s) : s0.Keeps s.takeOwnReqs := by
  unfold State.takeOwnReqs
  exact keeps_foldl hs (fun _ _ h1 => h1.orderCommit)

theorem State.Keeps.sendPort {p : Nat} (hs : s0.Keeps s) : s0.Keeps (s.sendPort p) := by
  unfold State.sendPort
  exact keeps_ite hs (keeps_ite hs.upd hs.upd.bump)

theorem State.Keeps.sendFlits (hs : s0.Keeps s) : s0.Keeps s.sendFlits := by
  unfold State.sendFlits
  exact keeps_foldl hs.upd (fun _ _ h1 => h1.sendPort)

theorem State.Keeps.herdSends (hs : s0.Keeps s) : s0.Keeps s.herdSends := by
  unfold State.herdSends
  exact (keeps_foldl hs (fun _ _ h1 => by
  extract_lets _ s3 s4
  have h3 : s0.Keeps s3 := h1.send
  have h4 : s0.Keeps s4 := h3.send
  refine keeps_ite ?_ ?_
  · refine keeps_ite ?_ ?_
    · split
      · exact keeps_ite h4.bump h4
      · exact h4.bump
    · exact h3
  · exact h1))

theorem State.Keeps.lockCount (hs : s0.Keeps s) : s0.Keeps s.lockCount := by
  unfold State.lockCount
  exact hs.upd

theorem State.Keeps.herdEpoch (hs : s0.Keeps s) : s0.Keeps s.herdEpoch := by
  unfold State.herdEpoch
  extract_lets _ _ _ _ _ s6 s7 _ s9 s10
  have h6 : s0.Keeps s6 := hs.wr
  have h7 : s0.Keeps s7 := keeps_ite hs h6.upd
  have h9 : s0.Keeps s9 := keeps_ite h7 h7.upd
  have h10 : s0.Keeps s10 := keeps_foldl h9 (fun _ _ h11 => h11.wr)
  exact h10.wr

theorem State.Keeps.dropOrders (hs : s0.Keeps s) : s0.Keeps s.dropOrders := by
  unfold State.dropOrders
  exact hs.upd

theorem State.Keeps.herdBeat (hs : s0.Keeps s) : s0.Keeps s.herdBeat := by
  unfold State.herdBeat
  extract_lets s1
  have h1 : s0.Keeps s1 := hs.takeOwnReqs.sendFlits.dropOrders
  exact (State.Keeps.lockCount (keeps_ite h1.herdEpoch h1)).herdSends

theorem State.Keeps.setRed {r : Nat} {x : RedSt} (hs : s0.Keeps s) : s0.Keeps (s.setRed r x) := by
  unfold State.setRed
  exact hs.upd

theorem State.Keeps.redSend {r w : Nat} {dests : List Nat} {vals : List Int} {fromRoot : Bool} {n : Nat} {void : Bool} (hs : s0.Keeps s) :
    s0.Keeps (s.redSend r w dests vals fromRoot n void) := by
  unfold State.redSend
  exact keeps_foldl hs (fun _ _ h1 => keeps_foldl h1 (fun _ _ h2 => h2.sendTo.fst))

theorem State.Keeps.redResult {r w : Nat} {vals : List Int} {n : Nat} {void : Bool} (hs : s0.Keeps s) :
    s0.Keeps (s.redResult r w vals n void) := by
  unfold State.redResult
  extract_lets
  split
  rename_i s3 e3
  have h3 := KeepsSnd.of_eq e3 (keeps_ite hs.freshBytes (KeepsSnd.mk hs))
  extract_lets s4 s5 _ s7
  have h4 : s0.Keeps s4 := h3.hbmWrite.bump
  have h5 : s0.Keeps s5 := keeps_ite h4.bump h4
  have h7 : s0.Keeps s7 := h5.setRed
  exact h7.upd

theorem State.Keeps.redAdvance {r w : Nat} (hs : s0.Keeps s) : s0.Keeps (s.redAdvance r w) := by
  unfold State.redAdvance
  extract_lets _ _ _ _ s5
  have h5 : s0.Keeps s5 := hs.redResult.redSend
  refine keeps_ite ?_ ?_
  · exact hs
  · refine keeps_ite ?_ ?_
    · exact h5.upd
    · split
      · exact hs.setRed.redSend
      · exact hs

theorem execReductionStart_keeps {r : Fin 4} (hs : s0.Keeps s) : Completes s0 (execReductionStart r s) := by
  unfold execReductionStart
  exact keeps_ite hs.next (keeps_ite hs.redResult.next hs.setRed.redAdvance.next)

theorem execRed_keeps {h : HPort} {m : MsgHdr} {r : Fin 4} {window off : Nat} {vals : List Int} {fromRoot : Bool} {count : Nat} {void : Bool}
    (hs : s0.Keeps s) :
    Completes s0 (execRed h m r window off vals fromRoot count void s) := by
  unfold execRed
  exact hs.recv (fun _ h1 => (keeps_ite h1 (keeps_ite h1 (keeps_ite h1.setRed.redAdvance (keeps_ite h1.setRed h1.redResult.redSend)))))

theorem execReductionDeadline_keeps {r : Fin 4} (hs : s0.Keeps s) : Completes s0 (execReductionDeadline r s) := by
  unfold execReductionDeadline
  extract_lets _ _ _ _ s5
  have h5 : s0.Keeps s5 := hs.redResult.redSend
  exact keeps_ite hs.next (keeps_ite (State.Keeps.next (keeps_ite hs hs.redResult))
    (keeps_ite (keeps_ite hs.next h5.upd.next) (keeps_ite hs.next (keeps_ite hs.departBy.next hs.next))))

theorem State.Keeps.setStopState {v : Nat} (hs : s0.Keeps s) : s0.Keeps (s.setStopState v) := by
  unfold State.setStopState
  exact keeps_ite hs hs.wr.event

theorem State.Keeps.takeStop {resume : Bool} {b : Nat} (hs : s0.Keeps s) : s0.Keeps (s.takeStop resume b) := by
  unfold State.takeStop
  extract_lets s1 _ s3
  have h1 : s0.Keeps s1 := hs.setStopState
  have h3 : s0.Keeps s3 := hs.setStopState
  exact keeps_ite h1.upd h3.upd

theorem State.Keeps.orderStop {src : Nat} {resume : Bool} {b : Nat} (hs : s0.Keeps s) : s0.Keeps (s.orderStop src resume b) := by
  unfold State.orderStop
  exact keeps_ite hs (keeps_ite (keeps_ite hs.wr hs.sendTo.fst) (keeps_foldl hs.takeStop (fun _ _ h1 => h1.sendTo.fst)))

theorem State.Keeps.askStop {src : Source} {resume : Bool} (hs : s0.Keeps s) : s0.Keeps (s.askStop src resume) := by
  unfold State.askStop
  extract_lets _ _ _ s4
  have h4 : s0.Keeps s4 := hs.wr.auditCmd
  refine keeps_ite ?_ ?_
  · exact hs.wr.auditCmd
  · refine keeps_ite ?_ ?_
    · exact keeps_ite h4.wr (keeps_ite h4.takeStop h4.wr)
    · refine keeps_ite ?_ ?_
      · exact h4.orderStop
      · split
        · rename_i s6 e6
          have h6 := KeepsFst.of_eq e6 h4.sendTo
          exact h6
        · rename_i s6 e6
          have h6 := KeepsFst.of_eq e6 h4.sendTo
          exact h6.wr

theorem execStopRequest_keeps {src : Source} (hs : s0.Keeps s) : Completes s0 (execStopRequest src s) := by
  unfold execStopRequest
  exact hs.basicCmd (fun _ h1 => h1.askStop)

theorem execResumeRequest_keeps {src : Source} (hs : s0.Keeps s) : Completes s0 (execResumeRequest src s) := by
  unfold execResumeRequest
  exact hs.basicCmd (fun _ h1 => h1.askStop)

theorem execStop_keeps {h : HPort} {m : MsgHdr} {isOrder resume : Bool} {beat : Nat} {refuse : Fin 16} (hs : s0.Keeps s) :
    Completes s0 (execStop h m isOrder resume beat refuse s) := by
  unfold execStop
  exact hs.recv (fun _ h1 => (keeps_ite h1 (keeps_ite h1.wr (keeps_ite h1.takeStop (keeps_ite h1.orderStop h1)))))

theorem execStopTakeEffect_keeps (hs : s0.Keeps s) : Completes s0 (execStopTakeEffect s) := by
  unfold execStopTakeEffect
  extract_lets s1
  have h1 : s0.Keeps s1 := hs.setStopState
  split
  · exact keeps_ite h1.upd.next hs.next
  · exact hs.next

theorem execStopCut_keeps (hs : s0.Keeps s) : Completes s0 (execStopCut s) := by
  unfold execStopCut
  extract_lets
  split
  · exact keeps_ite hs.upd.next hs.next
  · exact hs.next

theorem State.Keeps.restoreCells {own : Nat → Bool} (hs : s0.Keeps s) : s0.Keeps (s.restoreCells own) := by
  unfold State.restoreCells
  exact hs.upd

theorem execResumeTakeEffect_keeps (hs : s0.Keeps s) : Completes s0 (execResumeTakeEffect s) := by
  unfold execResumeTakeEffect
  extract_lets s1 s2 _ s4 s5 _ s7 _ s9
  have h1 : s0.Keeps s1 := keeps_foldl hs (fun _ _ h2 => h2.upd)
  have h2 : s0.Keeps s2 := keeps_foldl h1 (fun _ _ h3 => h3.invLost)
  have h4 : s0.Keeps s4 := h2.updHost
  have h5 : s0.Keeps s5 := h4.restoreCells
  have h7 : s0.Keeps s7 := h5.upd
  have h9 : s0.Keeps s9 := h7.setStopState
  split
  · exact keeps_ite hs.next h9.upd.next
  · exact hs.next

theorem execSyncSetGo_keeps {src : Source} {f : Flock} (hs : s0.Keeps s) : Completes s0 (execSyncSetGo src f s) := by
  unfold execSyncSetGo
  exact hs.expertCmd (fun _ h1 => h1.later)

end Sys2Proof.Machine
end

section
/-! PROOF. What every command keeps: the host attachment, faults, boot and calibration. -/

namespace Sys2Proof.Machine

-- One thread for the proofs, which bounds the memory that checking them takes.
set_option Elab.async false

open Sys2Proof

variable {s0 s : State}

theorem execHqProduce_keeps {it : HqItem} (hs : s0.Keeps s) : Completes s0 (execHqProduce it s) := by
  unfold execHqProduce
  exact hs.hqProduce.next

theorem State.Keeps.hqSetEn {src : Source} {q : Nat} (hs : s0.Keeps s) : s0.Keeps (s.hqSetEn src q) := by
  unfold State.hqSetEn
  exact keeps_ite hs.audit (keeps_ite hs hs.wr.later.audit)

theorem execHqEnable_keeps {src : Source} {q : QNum} (hs : s0.Keeps s) : Completes s0 (execHqEnable src q s) := by
  unfold execHqEnable
  exact hs.basicCmd (fun _ h1 => h1.hqSetEn)

theorem State.Keeps.hqStartNow {q : Nat} (hs : s0.Keeps s) : s0.Keeps (s.hqStartNow q) := by
  unfold State.hqStartNow
  extract_lets a n _ _ s1
  have h1 : s0.Keeps s1 := keeps_ite (hs.of_mem fun h => Mem.wf_clear _ _ _ h) (hs.of_hbm fun h => Mem.wf_clear _ _ _ h).upd
  exact keeps_ite hs h1.wr.wr.upd

theorem execHqConsWrite_keeps {src : Source} {q : QNum} {v : DWord} (hs : s0.Keeps s) : Completes s0 (execHqConsWrite src q v s) := by
  unfold execHqConsWrite
  exact (hs.basicCmd (fun _ h1 => by
  extract_lets _ _ _ s5 s6
  have h5 : s0.Keeps s5 := h1.wrNow
  have h6 : s0.Keeps s6 := h5.upd
  exact (keeps_ite h1.audit h6.audit)))

theorem execHqIrqRepeat_keeps {q : QNum} (hs : s0.Keeps s) : Completes s0 (execHqIrqRepeat q s) := by
  unfold execHqIrqRepeat
  exact keeps_ite hs.hqIrq.next hs.next

theorem execInjProdWrite_keeps {src : Source} {v : DWord} (hs : s0.Keeps s) : Completes s0 (execInjProdWrite src v s) := by
  unfold execInjProdWrite
  exact hs.basicCmd fun t ht => keeps_ite ht.bump.audit ht.wrNow.updHost.audit

theorem State.Keeps.injDone {ok : Bool} (hs : s0.Keeps s) : s0.Keeps (s.injDone ok) := by
  unfold State.injDone
  extract_lets s1 _ s3
  have h1 : s0.Keeps s1 := hs.wr
  have h3 : s0.Keeps s3 := h1.updHost
  exact keeps_ite h3 h3.bump.event

theorem execInjDescriptor_keeps (hs : s0.Keeps s) : Completes s0 (execInjDescriptor s) := by
  unfold execInjDescriptor
  extract_lets _ _ _ _ _ _ _ s8
  have h8 : s0.Keeps s8 := hs.injDone.cells
  refine keeps_ite ?_ ?_
  · exact hs.next
  · refine keeps_ite ?_ ?_
    · exact hs.next
    · refine keeps_ite ?_ ?_
      · exact hs.injDone.next
      · refine keeps_ite ?_ ?_
        · exact hs.next
        · refine keeps_ite ?_ ?_
          · exact hs.injDone.cells.later.next
          · split
            · exact hs.next
            · extract_lets s10
              have h10 : s0.Keeps s10 := h8.updHost
              exact h10.accept.next

theorem execQTokensSet_keeps {src : Source} {v : Word} (hs : s0.Keeps s) : Completes s0 (execQTokensSet src v s) := by
  unfold execQTokensSet
  exact hs.expertCmd (fun _ h1 => h1.later)

theorem execTokGo_keeps {src : Source} (hs : s0.Keeps s) : Completes s0 (execTokGo src s) := by
  unfold execTokGo
  exact hs.expertCmd (fun _ h1 => keeps_ite h1 h1.later)

theorem State.Keeps.hostData {bs : List Byte} {poison : Bool} (hs : s0.Keeps s) : s0.Keeps (s.hostData bs poison) := by
  unfold State.hostData
  exact hs.updHost

theorem State.Keeps.aptAccess {a kind addr len : Nat} {data : List Byte} (hs : s0.Keeps s) : s0.Keeps (s.aptAccess a kind addr len data) := by
  unfold State.aptAccess
  extract_lets _ s2
  have h2 : s0.Keeps s2 := hs.sendTo.fst
  exact h2.upd

/-- A host read completes, or lies past the device's addresses (R281). -/
theorem execHostRead_keeps {a n : Nat} {apt : Option (List Byte)} (hs : s0.Keeps s) (ha : a + n ≤ 2 ^ 40) :
    Completes s0 (execHostRead a n apt s) := by
  unfold execHostRead
  rw [if_neg (Nat.not_lt.mpr ha)]
  refine keeps_ite hs.next ?_
  split
  · refine keeps_ite hs.hostData.bump.next ?_
    rename_i w _
    have h1 : s0.Keeps (s.aptAccess w 17 a n []) := hs.aptAccess
    split
    · exact h1.hostData.next
    · exact h1.hostData.bump.next
  · split
    · exact hs.countUe.bump.hostData.fault.next
    · exact hs.hostData.next

theorem execHostWrite_keeps {a : Nat} {bs : List Byte} {ok : Bool} (hs : s0.Keeps s) (ha : a + bs.length ≤ 2 ^ 40) :
    Completes s0 (execHostWrite a bs ok s) := by
  unfold execHostWrite
  rw [if_neg (Nat.not_lt.mpr ha)]
  refine keeps_ite hs.next ?_
  split
  · refine keeps_ite hs.bump.next (State.Keeps.next ?_)
    exact keeps_ite hs.aptAccess hs.aptAccess.bump
  · extract_lets ps fate t1 t2
    have h1 : s0.Keeps t1 := keeps_foldl hs fun _ _ h => h.hbmPutAs
    have h2 : s0.Keeps t2 := keeps_ite h1.bump h1
    exact State.Keeps.next (keeps_ite h2.bump h2)

theorem State.Keeps.cxlReset (hs : s0.Keeps s) : s0.Keeps s.cxlReset := by
  unfold State.cxlReset
  extract_lets s1 s2
  have h1 : s0.Keeps s1 := hs.wr.wr.wr.wr
  have h2 : s0.Keeps s2 := h1.wr.wr
  exact h2.updHost

theorem State.Keeps.hostLossNow (hs : s0.Keeps s) : s0.Keeps s.hostLossNow := by
  unfold State.hostLossNow
  extract_lets s1 _ s3 s4
  have h1 : s0.Keeps s1 := hs.cxlReset.bump.wr
  have h3 : s0.Keeps s3 := h1.updHost
  have h4 : s0.Keeps s4 := keeps_foldl h3 (fun _ _ h5 => keeps_ite h5.upd h5)
  exact keeps_ite hs.cxlReset h4.event.fault

theorem execCxlLinkTrain_keeps {r : LinkResult} (hs : s0.Keeps s) : Completes s0 (execCxlLinkTrain r s) := by
  unfold execCxlLinkTrain
  extract_lets _ s2
  have h2 : s0.Keeps s2 := hs.wr.wr.wr.wr
  exact keeps_ite hs.next h2.wr.wr.next

theorem execHdmDecoderCommit_keeps {ways : Nat} (hs : s0.Keeps s) : Completes s0 (execHdmDecoderCommit ways s) := by
  unfold execHdmDecoderCommit
  exact keeps_ite hs.updHost.next hs.next

theorem execHostLoss_keeps (hs : s0.Keeps s) : Completes s0 (execHostLoss s) := by
  unfold execHostLoss
  exact keeps_ite hs.hostLossNow.next hs.next

theorem execHostReturn_keeps (hs : s0.Keeps s) : Completes s0 (execHostReturn s) := by
  unfold execHostReturn
  split
  · have h1 : s0.Keeps ((s.wr Reg.CXL.LAST_RETURN_BEAT s.time.beat).event Blk.CXL 0 1) := hs.wr.event
    exact h1.updHost.next
  · exact hs.next

theorem execPerstN_keeps (hs : s0.Keeps s) : Completes s0 (execPerstN s) := by
  unfold execPerstN
  exact keeps_ite hs.hostLossNow.next hs.cxlReset.next

theorem execConfigRequest_keeps {write : Bool} {off : Nat} {v : Word} (hs : s0.Keeps s) : Completes s0 (execConfigRequest write off v s) := by
  unfold execConfigRequest
  exact keeps_ite hs.next (keeps_ite hs.updHost.next (keeps_ite hs.updHost.next hs.updHost.next))

theorem State.Keeps.msixTry {v : Nat} (hs : s0.Keeps s) : s0.Keeps (s.msixTry v) := by
  unfold State.msixTry
  exact keeps_ite hs.updHost hs

theorem execMsixSend_keeps {v : Fin 2048} (hs : s0.Keeps s) : Completes s0 (execMsixSend v s) := by
  unfold execMsixSend
  exact hs.msixTry.next

theorem execMsixUnmask_keeps {v : Fin 2048} (hs : s0.Keeps s) : Completes s0 (execMsixUnmask v s) := by
  unfold execMsixUnmask
  exact keeps_ite hs.next hs.updHost.msixTry.next

theorem State.Keeps.setIde {st : IdeStream} {v : IdeSt} (hs : s0.Keeps s) : s0.Keeps (s.setIde st v) := by
  unfold State.setIde
  extract_lets
  split
  · exact hs.updHost
  · exact hs.updHost

theorem execIdeFail_keeps {st : IdeStream} (hs : s0.Keeps s) : Completes s0 (execIdeFail st s) := by
  unfold execIdeFail
  extract_lets s1
  have h1 : s0.Keeps s1 := hs.setIde.bump
  exact keeps_ite h1.fault.next hs.next

theorem execIdeKm_keeps {st : IdeStream} {secured : Bool} (hs : s0.Keeps s) : Completes s0 (execIdeKm st secured s) := by
  unfold execIdeKm
  exact keeps_ite hs.setIde.next hs.next

theorem State.Keeps.doeAnswer {bs : List Byte} (hs : s0.Keeps s) : Completes s0 (s.doeAnswer bs) := by
  unfold State.doeAnswer
  exact keeps_ite hs.next hs.updHost.next

theorem State.Keeps.doeObject {len : Nat} {bs : List Byte} (hs : s0.Keeps s) : Completes s0 (s.doeObject len bs) := by
  unfold State.doeObject
  exact hs.doeAnswer

theorem execCdat_keeps {len : Nat} (hs : s0.Keeps s) : Completes s0 (execCdat len s) := by
  unfold execCdat
  exact hs.doeObject

theorem execDoeDiscovery_keeps {inst : Fin 2} {index : Nat} (hs : s0.Keeps s) : Completes s0 (execDoeDiscovery inst index s) := by
  unfold execDoeDiscovery
  extract_lets
  split
  · exact hs.doeAnswer
  · exact hs.doeAnswer

theorem State.Keeps.spdm {slot len : Nat} {body : List Byte} (hs : s0.Keeps s) : Completes s0 (s.spdm slot len body) := by
  unfold State.spdm
  exact hs.doeObject

theorem execChallenge_keeps {slot : Nat} {nonce : List Byte} (hs : s0.Keeps s) : Completes s0 (execChallenge slot nonce s) := by
  unfold execChallenge
  exact hs.spdm

theorem execMeasurements_keeps {slot index : Nat} {nonce : List Byte} (hs : s0.Keeps s) :
    Completes s0 (execMeasurements slot index nonce s) := by
  unfold execMeasurements
  exact keeps_ite hs.doeAnswer hs.spdm

theorem execKeyExchange_keeps {slot : Nat} {session : BitVec 16} {data : List Byte} (hs : s0.Keeps s) :
    Completes s0 (execKeyExchange slot session data s) := by
  unfold execKeyExchange
  exact keeps_ite hs.updHost.spdm hs.doeAnswer

theorem execGetCertificate_keeps {slot off len : Nat} (hs : s0.Keeps s) : Completes s0 (execGetCertificate slot off len s) := by
  unfold execGetCertificate
  exact hs.doeAnswer

theorem execJobProdWrite_keeps {src : Source} {v : DWord} (hs : s0.Keeps s) : Completes s0 (execJobProdWrite src v s) := by
  unfold execJobProdWrite
  exact hs.basicCmd (fun _ h1 => keeps_ite h1.audit h1.wrNow.audit)

theorem State.Keeps.jobDone {n status mv : Nat} {vec : Option Nat} (hs : s0.Keeps s) : s0.Keeps (s.jobDone n status mv vec) := by
  unfold State.jobDone
  extract_lets _ s2 s3 s4
  have h2 : s0.Keeps s2 := hs.hbmWrite.hbmWrite.hbmWrite
  have h3 : s0.Keeps s3 := by
    unfold s3
    split
    · exact h2.raiseVec
    · exact h2
  have h4 : s0.Keeps s4 := h3.bump
  exact keeps_ite h4.bump h4

theorem execJobAccept_keeps (hs : s0.Keeps s) : Completes s0 (execJobAccept s) := by
  unfold execJobAccept
  extract_lets n d c r t
  have ht : s0.Keeps t := hs.wr
  clear_value t r d n
  split
  · exact hs.next
  · split
    · exact hs.next
    · split
      · exact ht.jobDone.next
      · exact ht.updHost.next

theorem execJobComplete_keeps {c : CtxNum} {status : Fin 11} (hs : s0.Keeps s) : Completes s0 (execJobComplete c status s) := by
  unfold execJobComplete
  extract_lets _ s2
  have h2 : s0.Keeps s2 := hs.updHost
  split
  · exact hs.next
  · exact keeps_ite hs.next h2.jobDone.next

theorem State.Keeps.unitOut {u : Unit7} {dev : Bool} (hs : s0.Keeps s) : s0.Keeps (s.unitOut u dev) := by
  unfold State.unitOut
  extract_lets
  split
  · exact hs.lanePass
  · exact hs.flockOut
  · exact hs.arrayOut.flockOut
  · exact hs.treeOut.flockOut
  · exact hs.replicaOut
  · exact hs.upd.dmcView.devSafeIn
  · exact hs.upd.dmcView.setHl

theorem execHbmWriteback_keeps {n : Hbmc} {line : Nat} (hs : s0.Keeps s) : Completes s0 (execHbmWriteback n line s) := by
  unfold execHbmWriteback
  exact keeps_ite hs.upd.next hs.next

theorem execHbmScrub_keeps {n : Hbmc} {line : Nat} {err : Fin 3} (hs : s0.Keeps s) : Completes s0 (execHbmScrub n line err s) := by
  unfold execHbmScrub
  extract_lets _ _ s3 s4 _ s6 s7
  have h3 : s0.Keeps s3 := hs.upd
  have h4 : s0.Keeps s4 := keeps_ite h3.bump h3
  have h6 : s0.Keeps s6 := keeps_ite h4 h4.upd
  have h7 : s0.Keeps s7 := h4.bump
  exact keeps_ite hs.next (keeps_ite h6.ueRecord.next (keeps_ite h7.upd.next h4.next))

theorem State.Keeps.loseWork {inv : Nat} (hs : s0.Keeps s) : s0.Keeps (s.loseWork inv) := by
  unfold State.loseWork
  split
  · exact hs.invLost
  · exact hs

theorem State.Keeps.copyUe {c : ACoreId} (hs : s0.Keeps s) : s0.Keeps (s.copyUe c) := by
  unfold State.copyUe
  split
  · exact keeps_ite hs.voidWork hs
  · exact hs

theorem State.Keeps.histClear {key : List Byte} {ring : Nat} (hs : s0.Keeps s) : s0.Keeps (s.histClear key ring) := by
  unfold State.histClear
  extract_lets
  split
  · exact keeps_ite hs.modCached.ringFree hs
  · split
    · exact hs
    · exact keeps_ite hs.hbmWrite.setTag.ringFree hs

theorem State.Keeps.historyUe {ring inv : Nat} (hs : s0.Keeps s) : s0.Keeps (s.historyUe ring inv) := by
  unfold State.historyUe
  split
  · exact hs.invLost.histClear
  · exact hs

theorem State.Keeps.journalFail {k : Nat} (hs : s0.Keeps s) : s0.Keeps (s.journalFail k) := by
  unfold State.journalFail
  exact hs.upd

theorem execHbmUe_keeps {c : UeConsumer} {line : Nat} (hs : s0.Keeps s) : Completes s0 (execHbmUe c line s) := by
  unfold execHbmUe
  extract_lets
  refine keeps_ite ?_ ?_
  · exact hs.next
  · split
    · exact hs.recordUe.next
    · exact hs.tagLineUe.next
    · exact hs.ueRecord.historyUe.next
    · exact keeps_ite hs.ueRecord.setSlot2.ctxRefuse.next (keeps_ite hs.ueRecord.setSlot2.ctxRefuse.next hs.ueRecord.next)
    · exact hs.ueRecord.later.next
    · exact (keeps_foldl hs.ueRecord (fun _ _ h3 => h3.copyUe)).next
    · exact hs.ueRecord.loseWork.next
    · exact hs.ueRecord.setRed.next
    · exact hs.ueRecord.journalFail.next
    · exact hs.ueRecord.journalFail.next
    · exact hs.ueRecord.journalFail.next

theorem execEccInj_keeps {src : Source} {n : Hbmc} (hs : s0.Keeps s) : Completes s0 (execEccInj src n s) := by
  unfold execEccInj
  exact hs.expertCmd (fun _ h1 => h1.upd)

theorem execFaultRecord_keeps {cls : Fin 16} {scope : Fin 9} {reason : Fin 256} {action : Fin 9} {block inst u addr count : Nat} (hs : s0.Keeps s) :
    Completes s0 (execFaultRecord cls scope reason action block inst u addr count s) := by
  unfold execFaultRecord
  exact keeps_ite hs.fault.next hs.next

theorem execAlertPendClear_keeps {src : Source} {v : Bool} (hs : s0.Keeps s) : Completes s0 (execAlertPendClear src v s) := by
  unfold execAlertPendClear
  exact hs.basicCmd (fun _ h1 => keeps_ite h1.wr h1)

theorem State.Keeps.bucketFull {u : Nat} (hs : s0.Keeps s) : s0.Keeps (s.bucketFull u) := by
  unfold State.bucketFull
  exact keeps_ite hs.modQ (keeps_ite hs.modTx (keeps_ite hs.upd (keeps_ite hs.upd (keeps_ite hs hs.upd))))

theorem State.Keeps.setRebase {j : LedgerSubj} {u : Nat} {d : Int} (hs : s0.Keeps s) : s0.Keeps (s.setRebase j u d) := by
  unfold State.setRebase
  exact hs.upd

theorem State.Keeps.breakEffect {j : LedgerSubj} {u : Nat} (hs : s0.Keeps s) : s0.Keeps (s.breakEffect j u) := by
  unfold State.breakEffect
  extract_lets s1 s2 s3
  have h1 : s0.Keeps s1 := hs.bump.hqStartNow
  have h2 : s0.Keeps s2 := hs.bucketFull
  have h3 : s0.Keeps s3 := hs.trainPort
  refine keeps_ite ?_ ?_
  · exact hs
  · split
    · exact hs.lanePass
    · exact hs.lanePass
    · exact keeps_ite hs hs.devSafeIn
    · exact hs.devSafeIn
    · exact hs
    · exact keeps_foldl h1 (fun _ _ h4 => h4.setRebase)
    · exact hs.wrNow
    · exact h2.setRebase
    · exact keeps_foldl h3 (fun _ _ h4 => h4.setRebase)

theorem State.Keeps.breakFound {j : LedgerSubj} {u : Nat} {delta : Int} {expect seen : Nat} (hs : s0.Keeps s) :
    s0.Keeps (s.breakFound j u delta expect seen) := by
  unfold State.breakFound
  extract_lets _ s2 _ s4
  have h2 : s0.Keeps s2 := hs.bump.wr.wr.wr
  have h4 : s0.Keeps s4 := keeps_ite h2.upd h2
  exact h4.event.fault

theorem execLedgerBreak_keeps {subj : LedgerSubj} {u : Nat} {delta : Int} {expect seen : Nat} (hs : s0.Keeps s) :
    Completes s0 (execLedgerBreak subj u delta expect seen s) := by
  unfold execLedgerBreak
  exact keeps_ite hs.breakFound.breakEffect.next hs.next

theorem State.Keeps.checkSide {j : LedgerSubj} {u : Nat} {expect seen : Int} (hs : s0.Keeps s) : s0.Keeps (s.checkSide j u expect seen) := by
  unfold State.checkSide
  extract_lets _ _ _ s4
  have h4 : s0.Keeps s4 := hs.breakFound
  exact keeps_ite hs h4.upd

theorem State.Keeps.ledgerBeat (hs : s0.Keeps s) : s0.Keeps s.ledgerBeat := by
  unfold State.ledgerBeat
  extract_lets _ _ s3 _ s5 s6
  have h3 : s0.Keeps s3 := keeps_foldl hs.upd (fun _ _ h4 => h4.breakEffect)
  have h5 : s0.Keeps s5 := keeps_foldl h3 (fun _ _ h6 => h6.checkSide)
  have h6 : s0.Keeps s6 := keeps_foldl h5 (fun _ _ h7 => h7.checkSide)
  split
  · exact h6.upd
  · split
    rename_i s8 e8
    have h8 := KeepsSnd.of_eq e8 h6.fresh
    extract_lets
    split
    rename_i s10 e10
    have h10 := KeepsSnd.of_eq e10 h8.fresh
    extract_lets
    split
    rename_i s12 e12
    have h12 := KeepsSnd.of_eq e12 h10.fresh
    extract_lets _ s14
    have h14 : s0.Keeps s14 := h12.breakFound
    exact h14.upd

theorem execNoBreakAct_keeps {src : Source} {v : Bool} (hs : s0.Keeps s) : Completes s0 (execNoBreakAct src v s) := by
  unfold execNoBreakAct
  exact hs.expertCmd (fun _ h1 => h1.wr)

theorem execBreakInj_keeps {src : Source} {v : Fin 16} (hs : s0.Keeps s) : Completes s0 (execBreakInj src v s) := by
  unfold execBreakInj
  exact hs.expertCmd (fun _ h1 => h1.upd)

theorem State.Keeps.dispute {u : Unit7} (hs : s0.Keeps s) : s0.Keeps (s.dispute u) := by
  unfold State.dispute
  extract_lets _ s2
  have h2 : s0.Keeps s2 := hs.bump.event
  split
  · extract_lets s3
    have h3 : s0.Keeps s3 := h2.fault
    exact h3.upd.later

theorem execStateCompare_keeps (hs : s0.Keeps s) : Completes s0 (execStateCompare s) := by
  unfold execStateCompare
  exact (keeps_foldl hs (fun _ _ h1 => keeps_ite h1.dispute h1)).next

theorem execStateDispute_keeps {k : DisputeKind} {u : Unit7} (hs : s0.Keeps s) : Completes s0 (execStateDispute k u s) := by
  unfold execStateDispute
  split
  · exact keeps_ite hs.dispute.next hs.next
  · exact keeps_ite hs.next hs.dispute.next
  · exact keeps_ite hs.next hs.dispute.next

theorem execDmcHeartbeatLoss_keeps (hs : s0.Keeps s) : Completes s0 (execDmcHeartbeatLoss s) := by
  unfold execDmcHeartbeatLoss
  exact keeps_ite hs.next hs.fault.later.next

theorem State.Keeps.readmit {u : Unit7} (hs : s0.Keeps s) : s0.Keeps (s.readmit u) := by
  unfold State.readmit
  extract_lets _ s2
  have h2 : s0.Keeps s2 := keeps_ite hs.wr hs
  split
  · extract_lets s4
    have h4 : s0.Keeps s4 := h2.dmcView.fault
    split
    · exact keeps_ite h4.upd (keeps_ite h4 h4.upd.event)
    · exact h4.upd.event
    · exact h4.wr
    · exact h4.wr
    · extract_lets s6
      have h6 : s0.Keeps s6 := h4.upd.event
      exact keeps_foldl h6 (fun _ _ h7 => (keeps_ite (State.Keeps.dmcView (keeps_ite h7 h7.upd.event)) h7))
    · exact h4.upd
    · exact h4.upd.trainPort

theorem execRetestGo_keeps {src : Source} (hs : s0.Keeps s) : Completes s0 (execRetestGo src s) := by
  unfold execRetestGo
  exact (hs.basicCmd (fun _ h1 => by
  extract_lets
  split
  · exact h1.wr.auditCmd
  · extract_lets s3
    have h3 : s0.Keeps s3 := h1.wr.wr.dmcView.auditCmd
    exact h3.upd))

theorem execRetestEnd_keeps {pass : Bool} (hs : s0.Keeps s) : Completes s0 (execRetestEnd pass s) := by
  unfold execRetestEnd
  extract_lets _ s2
  have h2 : s0.Keeps s2 := hs.upd.wr.event
  split
  · exact hs.next
  · split
    · exact h2.next
    · exact keeps_ite h2.upd.later.next h2.dmcView.next

theorem State.Keeps.rstRefuse {src : Source} (hs : s0.Keeps s) : s0.Keeps (s.rstRefuse src) := by
  unfold State.rstRefuse
  exact hs.wr.auditCmd

theorem execLaneReset_keeps {src : Source} {l : Lane} (hs : s0.Keeps s) : Completes s0 (execLaneReset src l s) := by
  unfold execLaneReset
  exact (hs.basicCmd (fun _ h1 => by
  extract_lets s2 s3
  have h2 : s0.Keeps s2 := h1.wr.wr
  have h3 : s0.Keeps s3 := h2.wr.wr.later.auditCmd
  exact (keeps_ite h2.rstRefuse h3.upd)))

theorem State.Keeps.rstEnd {u : Unit7} {pass : Bool} (hs : s0.Keeps s) : s0.Keeps (s.rstEnd u pass) := by
  unfold State.rstEnd
  extract_lets _ _ s3
  have h3 : s0.Keeps s3 := hs.upd.wr.event
  exact keeps_ite h3.later h3.dmcView

theorem execLaneResetDrained_keeps {pass : Bool} (hs : s0.Keeps s) : Completes s0 (execLaneResetDrained pass s) := by
  unfold execLaneResetDrained
  split
  · extract_lets _ s2
    have h2 : s0.Keeps s2 := hs.upd
    exact keeps_ite hs.next h2.rstEnd.later.next
  · exact hs.next

theorem State.Keeps.clearFlock {f : Nat} (hs : s0.Keeps s) : s0.Keeps (s.clearFlock f) := by
  unfold State.clearFlock
  exact hs.upd

theorem execFlockReset_keeps {src : Source} {f : Flock} {pass : Bool} (hs : s0.Keeps s) : Completes s0 (execFlockReset src f pass s) := by
  unfold execFlockReset
  exact (hs.basicCmd (fun _ h1 => by
  extract_lets s2
  have h2 : s0.Keeps s2 := h1.wr.wr
  exact (keeps_ite h2.rstRefuse h2.wr.auditCmd.clearFlock.rstEnd)))

theorem State.Keeps.verifySlot {l : Nat} (hs : s0.Keeps s) : s0.Keeps (s.verifySlot l) := by
  unfold State.verifySlot
  extract_lets _ _ s3
  have h3 : s0.Keeps s3 := keeps_ite hs.relocate hs
  refine keeps_ite ?_ ?_
  · split
    · exact hs.ueRecord.clearSlot.bump
    · exact h3.clearSlot.bump
  · exact hs

theorem State.Keeps.verifyStep {n : Nat} (hs : s0.Keeps s) : s0.Keeps (s.verifyStep n) := by
  unfold State.verifyStep
  exact (keeps_foldl hs (fun _ _ h1 => by
  extract_lets s2
  have h2 : s0.Keeps s2 := h1.tagCheck
  exact (keeps_foldl h2 (fun _ _ h3 => h3.verifySlot))))

theorem State.Keeps.moveBack {l : Nat} (hs : s0.Keeps s) : s0.Keeps (s.moveBack l) := by
  unfold State.moveBack
  exact keeps_ite hs.copySlot.bump hs

theorem State.Keeps.rehashRecord (hs : s0.Keeps s) : s0.Keeps s.rehashRecord := by
  unfold State.rehashRecord
  exact hs.fault

theorem State.Keeps.rehashEnd (hs : s0.Keeps s) : s0.Keeps s.rehashEnd := by
  unfold State.rehashEnd
  extract_lets s1
  have h1 : s0.Keeps s1 := hs.wr.event.rehashRecord
  exact h1.setFlow

theorem execRehashGo_keeps {src : Source} (hs : s0.Keeps s) : Completes s0 (execRehashGo src s) := by
  unfold execRehashGo
  exact (hs.basicCmd (fun _ h1 => by
  extract_lets s2
  have h2 : s0.Keeps s2 := h1.wr.wr.auditCmd.rehashRecord
  exact (keeps_ite h1.auditCmd h2.setFlow)))

theorem State.Keeps.rehashStepNow {n : Nat} (hs : s0.Keeps s) : s0.Keeps (s.rehashStepNow n) := by
  unfold State.rehashStepNow
  extract_lets s1 s2 s3
  have h1 : s0.Keeps s1 := hs.setFlow.verifyStep
  have h2 : s0.Keeps s2 := (keeps_foldl h1 (fun _ _ h3 => h3.moveBack)).wr
  have h3 : s0.Keeps s3 := h2.setFlow
  exact keeps_ite h3.rehashEnd h3

theorem execRehashStep_keeps (hs : s0.Keeps s) : Completes s0 (execRehashStep s) := by
  unfold execRehashStep
  exact keeps_ite hs.next hs.rehashStepNow.next

theorem execRehashStop_keeps {src : Source} (hs : s0.Keeps s) : Completes s0 (execRehashStop src s) := by
  unfold execRehashStop
  exact (hs.basicCmd (fun _ h1 => by
  extract_lets s2
  have h2 : s0.Keeps s2 := h1.auditCmd
  exact (keeps_ite h2.rehashEnd h2)))

theorem State.Keeps.avLoad {v : List Nat} (hs : s0.Keeps s) : s0.Keeps (s.avLoad v) := by
  unfold State.avLoad
  extract_lets _ s2
  have h2 : s0.Keeps s2 := hs.wr.wr.wr.wr
  exact keeps_foldl h2.wr.wr (fun _ _ h3 => h3.wr)

theorem State.Keeps.avYear (hs : s0.Keeps s) : s0.Keeps s.avYear := by
  unfold State.avYear
  exact keeps_ite hs hs.avLoad

theorem State.Keeps.avSave (hs : s0.Keeps s) : s0.Keeps s.avSave := by
  unfold State.avSave
  extract_lets s1
  have h1 : s0.Keeps s1 := hs.avYear
  exact h1.upd

theorem execAvailabilitySave_keeps (hs : s0.Keeps s) : Completes s0 (execAvailabilitySave s) := by
  unfold execAvailabilitySave
  exact keeps_ite hs.avSave.next hs.next

theorem State.Keeps.tearWrites (hs : s0.Keeps s) : s0.Keeps s.tearWrites := by
  unfold State.tearWrites
  extract_lets _ s2 _ s4
  have h2 : s0.Keeps s2 := by
    unfold s2
    split
    · exact hs.upd
    · exact hs.upd
    · exact hs
  have h4 : s0.Keeps s4 := by
    unfold s4
    split
    · exact h2.upd
    · exact h2
  split
  · split
    rename_i s5 e5
    have h5 := KeepsSnd.of_eq e5 h4.fresh
    exact h5.upd
  · exact h4

theorem execResetNRelease_keeps (hs : s0.Keeps s) : Completes s0 (execResetNRelease s) := by
  unfold execResetNRelease
  exact keeps_ite hs.next hs.upd.next

theorem State.Keeps.putSet {v : Version} (hs : s0.Keeps s) : s0.Keeps (s.putSet v) := by
  unfold State.putSet
  split
  · extract_lets s1
    have h1 : s0.Keeps s1 := hs.upd
    exact h1.showSets
  · exact hs

theorem State.Keeps.restoreVersion {c : Nat} {v : Version} (hs : s0.Keeps s) : s0.Keeps (s.restoreVersion c v) := by
  unfold State.restoreVersion
  extract_lets _ s2 s3 s4
  have h2 : s0.Keeps s2 := hs.setSlot2.stageParts
  have h3 : s0.Keeps s3 := h2.putSet
  have h4 : s0.Keeps s4 := h3.switchTrees.switchExpress.switchExpress.switchRuns
  exact h4.modVers

theorem State.Keeps.revalCtx {c : Option Nat} (hs : s0.Keeps s) : s0.Keeps (s.revalCtx c) := by
  unfold State.revalCtx
  extract_lets _ s2
  have h2 : s0.Keeps s2 := hs.setSlot2.bump
  split
  · exact hs
  · refine keeps_ite ?_ ?_
    · exact h2.fault
    · split
      · exact hs.restoreVersion
      · exact hs.setSlot2

theorem State.Keeps.revalRules (hs : s0.Keeps s) : s0.Keeps s.revalRules := by
  unfold State.revalRules
  exact keeps_ite hs.upd hs.copyActive

theorem State.Keeps.revalFlow (hs : s0.Keeps s) : s0.Keeps s.revalFlow := by
  unfold State.revalFlow
  extract_lets s1 s2 _ s4 s5 s6
  have h1 : s0.Keeps s1 := hs.completeMove
  have h2 : s0.Keeps s2 := h1.wr
  have h4 : s0.Keeps s4 := keeps_foldl h2 (fun _ _ h5 => h5.tagLineUe)
  have h5 : s0.Keeps s5 := keeps_foldl h4 (fun _ _ h6 => h6.verifySlot)
  have h6 : s0.Keeps s6 := keeps_foldl h5 (fun _ _ h7 => h7.setCached)
  exact h6.setFlow

theorem State.Keeps.revalRehash (hs : s0.Keeps s) : s0.Keeps s.revalRehash := by
  unfold State.revalRehash
  extract_lets s1
  have h1 : s0.Keeps s1 := by
    unfold s1
    split
    · exact hs
    · exact keeps_ite hs.verifyStep.wr hs.wr
  exact keeps_ite hs h1.setFlow.rehashRecord

theorem execRevalidation_keeps (hs : s0.Keeps s) : Completes s0 (execRevalidation s) := by
  unfold execRevalidation
  extract_lets s1 s2
  have h1 : s0.Keeps s1 := keeps_foldl hs.revalCtx (fun _ _ h2 => h2.revalCtx)
  have h2 : s0.Keeps s2 := h1.revalRules.revalFlow.revalRehash.restoreCells
  exact keeps_ite hs.next h2.upd.next

theorem State.Keeps.resetRecord (hs : s0.Keeps s) : s0.Keeps s.resetRecord := by
  unfold State.resetRecord
  exact hs.fault

theorem State.Keeps.setStage {n : Nat} (hs : s0.Keeps s) : s0.Keeps (s.setStage n) := by
  unfold State.setStage
  exact hs.wr.event

theorem execPwrGoodRise_keeps {bootSrc : Fin 4} {compatL1 herdEn : Bool} (hs : s0.Keeps s) :
    Completes s0 (execPwrGoodRise bootSrc compatL1 herdEn s) := by
  unfold execPwrGoodRise
  extract_lets s1
  have h1 : s0.Keeps s1 := keeps_ite hs.wr hs
  exact keeps_ite hs.next h1.upd.next

theorem execStageFirmware_keeps (hs : s0.Keeps s) : Completes s0 (execStageFirmware s) := by
  unfold execStageFirmware
  extract_lets s1
  have h1 : s0.Keeps s1 := hs.wr.wr
  refine keeps_ite ?_ ?_
  · exact hs.next
  · split
    · exact h1.next
    · extract_lets s2
      have h2 : s0.Keeps s2 := h1.wr.wr.wr
      exact h2.upd.setStage.next

theorem execStageCapability_keeps {failed : List Unit7} (hs : s0.Keeps s) : Completes s0 (execStageCapability failed s) := by
  unfold execStageCapability
  exact keeps_ite (keeps_foldl hs.setStage (fun _ _ h1 => h1.unitOut)).next hs.next

theorem execStageReady_keeps (hs : s0.Keeps s) : Completes s0 (execStageReady s) := by
  unfold execStageReady
  extract_lets _ s2 s3
  have h2 : s0.Keeps s2 := hs.upd.setStage
  have h3 : s0.Keeps s3 := h2.fault
  exact keeps_ite hs.next (keeps_ite h3.upd.next h2.next)

theorem execBootFail_keeps (hs : s0.Keeps s) : Completes s0 (execBootFail s) := by
  unfold execBootFail
  exact keeps_ite hs.wr.wr.setStage.next hs.next

theorem execRecoveryImage_keeps {img : List Byte} (hs : s0.Keeps s) : Completes s0 (execRecoveryImage img s) := by
  unfold execRecoveryImage
  exact keeps_ite hs.upd.next hs.next

theorem State.Keeps.fwResult {n : Nat} (hs : s0.Keeps s) : s0.Keeps (s.fwResult n) := by
  unfold State.fwResult
  exact hs.wr.event

theorem execFwGo_keeps {src : Source} (hs : s0.Keeps s) : Completes s0 (execFwGo src s) := by
  unfold execFwGo
  exact (hs.basicCmd (fun _ h1 => by
  extract_lets _ _ _ s5
  have h5 : s0.Keeps s5 := h1.auditCmd
  exact (keeps_ite h1.auditCmd (keeps_ite h1.auditCmd.fwResult (keeps_ite h1.auditCmd.fwResult h5.upd)))))

theorem execFwWriteEnd_keeps (hs : s0.Keeps s) : Completes s0 (execFwWriteEnd s) := by
  unfold execFwWriteEnd
  extract_lets
  split
  · exact hs.next
  · exact hs.upd.fwResult.next

theorem execLedgerWrite_keeps {src : Source} (hs : s0.Keeps s) : Completes s0 (execLedgerWrite src s) := by
  unfold execLedgerWrite
  exact (hs.basicCmd (fun _ h1 => by
  extract_lets _ _ _ _ _ s7
  have h7 : s0.Keeps s7 := h1.audit
  exact (keeps_ite h7.wr h7.upd)))

theorem execLedgerWriteEnd_keeps {torn : Bool} (hs : s0.Keeps s) : Completes s0 (execLedgerWriteEnd torn s) := by
  unfold execLedgerWriteEnd
  extract_lets
  split
  · exact hs.next
  · extract_lets s2 _ s4
    have h2 : s0.Keeps s2 := hs.upd
    have h4 : s0.Keeps s4 := keeps_ite h2 h2.upd
    exact (State.Keeps.event (keeps_ite h4 h4.wr)).next

theorem State.Keeps.ledgerEffects (hs : s0.Keeps s) : s0.Keeps s.ledgerEffects := by
  unfold State.ledgerEffects
  extract_lets _ s2
  have h2 : s0.Keeps s2 := hs.upd
  exact keeps_ite h2.upd.retrainPorts h2

theorem State.Keeps.leaveDebug {f : Nat} (hs : s0.Keeps s) : s0.Keeps (s.leaveDebug f) := by
  unfold State.leaveDebug
  exact hs.upd

theorem State.Keeps.endToken (hs : s0.Keeps s) : s0.Keeps s.endToken := by
  unfold State.endToken
  split
  · exact hs
  · have h1 : s0.Keeps ((s.flocks.filter fun e => e.2.debug).foldl (fun t e => t.leaveDebug e.1) s) := keeps_foldl hs fun _ _ h => h.leaveDebug
    exact (h1.of_auth (x := {}) fun h => by cases h).upd.event

theorem State.Keeps.startToken {k : Token} {jtag : Bool} (hs : s0.Keeps s) : s0.Keeps (s.startToken k jtag) := by
  unfold State.startToken
  exact (hs.endToken.of_auth (x := { token := some k }) fun h => by cases h).upd

theorem State.Keeps.present {tok pub : List Byte} {jtag : Bool} (hs : s0.Keeps s) : s0.Keeps (s.present tok pub jtag) := by
  unfold State.present
  extract_lets _ s2 _ s4
  have h2 : s0.Keeps s2 := hs.wr.event
  have h4 : s0.Keeps s4 := h2.drawNonce
  exact keeps_ite h2 (keeps_ite h4.later h4.startToken)

theorem State.Keeps.tokenAudit {src : Source} {pub : List Byte} {r : Nat} (hs : s0.Keeps s) : s0.Keeps (s.tokenAudit src pub r) := by
  unfold State.tokenAudit
  exact hs.audit

theorem execDbgGo_keeps {src : Source} (hs : s0.Keeps s) : Completes s0 (execDbgGo src s) := by
  unfold execDbgGo
  exact hs.basicCmd (fun _ h1 => h1.tokenAudit.present)

theorem execDbgRevoke_keeps {src : Source} (hs : s0.Keeps s) : Completes s0 (execDbgRevoke src s) := by
  unfold execDbgRevoke
  exact (hs.basicCmd (fun _ h1 => by
  extract_lets s2
  have h2 : s0.Keeps s2 := h1.auditCmd
  exact (keeps_ite h2.later h2.endToken)))

theorem State.Keeps.tokenBeat (hs : s0.Keeps s) : s0.Keeps s.tokenBeat := by
  unfold State.tokenBeat
  split
  · exact keeps_ite hs.endToken hs
  · exact hs

theorem execTokenExpiry_keeps (hs : s0.Keeps s) : Completes s0 (execTokenExpiry s) := by
  unfold execTokenExpiry
  exact hs.tokenBeat.next

theorem execJtagMailbox_keeps {token pubkey : List Word} (hs : s0.Keeps s) : Completes s0 (execJtagMailbox token pubkey s) := by
  unfold execJtagMailbox
  exact keeps_ite hs.tokenAudit.present.next hs.next

theorem State.Keeps.calGo {src : Source} {f : Field} {force : Bool} (hs : s0.Keeps s) : s0.Keeps (s.calGo src f force) := by
  unfold State.calGo
  extract_lets _ _ _ _ s5
  have h5 : s0.Keeps s5 := hs.audit
  exact keeps_ite h5 (keeps_ite h5.wr h5.upd)

theorem execCalWrite_keeps {src : Source} (hs : s0.Keeps s) : Completes s0 (execCalWrite src s) := by
  unfold execCalWrite
  exact hs.basicCmd (fun _ h1 => h1.calGo)

theorem execCalForce_keeps {src : Source} (hs : s0.Keeps s) : Completes s0 (execCalForce src s) := by
  unfold execCalForce
  exact hs.basicCmd (fun _ h1 => keeps_ite h1.calGo h1.auditCmd)

theorem execCalWriteEnd_keeps {torn : Bool} (hs : s0.Keeps s) : Completes s0 (execCalWriteEnd torn s) := by
  unfold execCalWriteEnd
  split
  · exact hs.next
  · split
    rename_i s1 e1
    have h1 := KeepsSnd.of_eq e1 (keeps_ite hs.fresh (KeepsSnd.mk hs))
    exact h1.upd.wr.event.next

theorem execAdaptStep_keeps {herd : Bool} {lane : Fin 96} {atLimit : Bool} (hs : s0.Keeps s) :
    Completes s0 (execAdaptStep herd lane atLimit s) := by
  unfold execAdaptStep
  extract_lets _ _ s3
  have h3 : s0.Keeps s3 := hs.upd.bump
  exact keeps_ite hs.next (keeps_ite h3.next (keeps_ite h3.wr.next h3.wr.next))

theorem execEyeUpdate_keeps {herd : Bool} {lane : Fin 96} {h v : BitVec 8} (hs : s0.Keeps s) : Completes s0 (execEyeUpdate herd lane h v s) := by
  unfold execEyeUpdate
  exact keeps_ite hs.next (keeps_ite hs.wr.next (keeps_ite hs.next hs.wr.wr.next))

theorem State.Keeps.setIsland {i st : Nat} (hs : s0.Keeps s) : s0.Keeps (s.setIsland i st) := by
  unfold State.setIsland
  extract_lets s1 s2 s3
  have h1 : s0.Keeps s1 := hs.wr
  have h2 : s0.Keeps s2 := keeps_ite h1.bump (keeps_ite h1.bump h1)
  have h3 : s0.Keeps s3 := keeps_ite h2.event h2
  exact keeps_ite hs h3.fault

theorem State.Keeps.setClock {i v : Nat} (hs : s0.Keeps s) : s0.Keeps (s.setClock i v) := by
  unfold State.setClock
  extract_lets _ _ s3
  have h3 : s0.Keeps s3 := keeps_ite hs.upd hs
  exact h3.wr

theorem State.Keeps.planIsland {i : Nat} {slack : Int} (hs : s0.Keeps s) : s0.Keeps (s.planIsland i slack) := by
  unfold State.planIsland
  extract_lets _ _ _ s4
  have h4 : s0.Keeps s4 := keeps_ite hs hs.wr.bump
  exact keeps_ite hs h4.setClock

theorem execSensorReading_keeps {i : Fin 320} {slack : Int} {ro ceil : BitVec 16} {edgeFail : Bool} (hs : s0.Keeps s) :
    Completes s0 (execSensorReading i slack ro ceil edgeFail s) := by
  unfold execSensorReading
  extract_lets _ _ s3 _ s5 _ s7 s8 s9
  have h3 : s0.Keeps s3 := hs.upd.bump
  have h5 : s0.Keeps s5 := keeps_ite h3.upd h3
  have h7 : s0.Keeps s7 := h5.wr.wr
  have h8 : s0.Keeps s8 := h7.wr.wr.planIsland
  have h9 : s0.Keeps s9 := h8.setIsland
  refine keeps_ite ?_ ?_
  · exact hs.next
  · refine keeps_ite ?_ ?_
    · exact h8.next
    · split
      · exact keeps_ite h9.next h9.dispute.next
      · exact h9.later.next

theorem State.Keeps.forecastIsland {i : Nat} (hs : s0.Keeps s) : s0.Keeps (s.forecastIsland i) := by
  unfold State.forecastIsland
  extract_lets _ _ _ _ _ s6
  have h6 : s0.Keeps s6 := hs.upd
  refine keeps_ite ?_ ?_
  · exact hs
  · split
    · extract_lets s7 _ s9
      have h7 : s0.Keeps s7 := h6.wr.wr.wr
      have h9 : s0.Keeps s9 := h7.setIsland
      exact keeps_ite h7 (keeps_ite h9.upd h9)

theorem execForecast_keeps (hs : s0.Keeps s) : Completes s0 (execForecast s) := by
  unfold execForecast
  exact keeps_ite hs.next (keeps_foldl hs.upd (fun _ _ h1 => h1.forecastIsland)).next

theorem execVoltOvr_keeps {src : Source} {mv : BitVec 16} {en : Bool} (hs : s0.Keeps s) : Completes s0 (execVoltOvr src mv en s) := by
  unfold execVoltOvr
  exact hs.expertCmd (fun _ h1 => h1.wr.wr)

theorem execPlannerHold_keeps {src : Source} {v : Bool} (hs : s0.Keeps s) : Completes s0 (execPlannerHold src v s) := by
  unfold execPlannerHold
  exact hs.expertCmd (fun _ h1 => h1.wr)

theorem State.Keeps.pllLoss (hs : s0.Keeps s) : s0.Keeps s.pllLoss := by
  unfold State.pllLoss
  exact hs.fault.later

theorem execPllLockLoss_keeps (hs : s0.Keeps s) : Completes s0 (execPllLockLoss s) := by
  unfold execPllLockLoss
  exact hs.pllLoss.next

theorem execEnvCritical_keeps {monitor : Nat} (hs : s0.Keeps s) : Completes s0 (execEnvCritical monitor s) := by
  unfold execEnvCritical
  exact hs.fault.later.next

theorem execRailExcursion_keeps {rail : Nat} (hs : s0.Keeps s) : Completes s0 (execRailExcursion rail s) := by
  unfold execRailExcursion
  exact hs.fault.next

theorem execRefclkFault_keeps {k : RefClock} (hs : s0.Keeps s) : Completes s0 (execRefclkFault k s) := by
  unfold execRefclkFault
  refine keeps_ite ?_ ?_
  · exact hs.next
  · split
    · exact hs.pllLoss.next
    · exact (keeps_foldl hs (fun _ _ h1 => h1.linkDown)).next
    · exact (keeps_foldl hs (fun _ _ h1 => keeps_ite h1.trainPort h1)).next
    · exact hs.hostLossNow.next

theorem execThermtrip_keeps (hs : s0.Keeps s) : Completes s0 (execThermtrip s) := by
  unfold execThermtrip
  exact hs.upd.next

end Sys2Proof.Machine
end

section
/-! PROOF. What every command keeps: verdicts, observation, the beat and the register file. -/

namespace Sys2Proof.Machine

-- One thread for the proofs, which bounds the memory that checking them takes.
set_option Elab.async false

open Sys2Proof

variable {s0 s : State}

theorem State.Keeps.voidSet {c b why : Nat} (hs : s0.Keeps s) : s0.Keeps (s.voidSet c b why) := by
  unfold State.voidSet
  exact keeps_ite hs hs.upd

theorem State.Keeps.noteVoid {pk : PktId} {b c : Nat} {r : CtxRes} (hs : s0.Keeps s) : s0.Keeps (s.noteVoid pk b c r) := by
  unfold State.noteVoid
  split
  · exact hs.modPkt.voidSet
  · exact hs

theorem State.Keeps.descBad {c b : Nat} (hs : s0.Keeps s) : s0.Keeps (s.descBad c b) := by
  unfold State.descBad
  extract_lets _ s2 s3 s4
  have h2 : s0.Keeps s2 := hs.upd
  have h3 : s0.Keeps s3 := h2.fault
  have h4 : s0.Keeps s4 := keeps_foldl h3 (fun _ _ h5 => h5.modRes.modRes)
  exact keeps_ite h4 h4.later

theorem execVerdictForm_keeps {pk : PktId} {badDesc : Bool} (hs : s0.Keeps s) : Completes s0 (execVerdictForm pk badDesc s) := by
  unfold execVerdictForm
  split
  · exact hs.next
  · extract_lets _ _ s3
    have h3 : s0.Keeps s3 := keeps_ite hs.descBad (keeps_ite hs.descBad hs)
    refine keeps_ite ?_ ?_
    · exact hs.next
    · split
      · exact h3.next
      · extract_lets a4 a5 s6 s7
        have h6 : s0.Keeps s6 := h3.modPkt
        clear_value a4
        have h7 : s0.Keeps s7 := by
          unfold s7
          split
          · exact h6.noteVoid
          · exact h6
        clear_value a5
        refine State.Keeps.next ?_
        split
        · exact h7.noteVoid
        · exact h7

theorem execReturnDeadline_keeps {f : Flock} (hs : s0.Keeps s) : Completes s0 (execReturnDeadline f s) := by
  unfold execReturnDeadline
  exact (keeps_foldl hs (fun _ _ h1 => by
  extract_lets
  split
  · exact h1
  · exact (keeps_ite h1 h1.modPkt))).next

theorem State.Keeps.police {x : Pkt} {pol : Nat} (hs : s0.Keeps s) : KeepsFst s0 (s.police x pol) := by
  unfold State.police
  refine keeps_ite ?_ ?_
  · exact KeepsFst.mk hs
  · split
    rename_i s1 e1
    have h1 := KeepsSnd.of_eq e1 (keeps_ite (KeepsSnd.mk hs.fresh.snd) (KeepsSnd.mk hs))
    extract_lets
    split
    · extract_lets s4
      have h4 : s0.Keeps s4 := h1.upd
      exact KeepsFst.mk h4.bump

theorem State.Keeps.copyMeter {k n : Nat} (hs : s0.Keeps s) : KeepsFst s0 (s.copyMeter k n) := by
  unfold State.copyMeter
  exact keeps_ite (KeepsFst.mk hs) (keeps_ite (KeepsFst.mk hs.upd) (KeepsFst.mk hs.bump))

theorem State.Keeps.mirrorMeter {k n : Nat} (hs : s0.Keeps s) : KeepsFst s0 (s.mirrorMeter k n) := by
  unfold State.mirrorMeter
  exact keeps_ite (KeepsFst.mk hs) (keeps_ite (KeepsFst.mk hs.upd) (KeepsFst.mk hs.bump))

theorem State.Keeps.refillCopy {k : Nat} (hs : s0.Keeps s) : s0.Keeps (s.refillCopy k) := by
  unfold State.refillCopy
  exact keeps_ite hs hs.upd

theorem State.Keeps.refillMir {k : Nat} (hs : s0.Keeps s) : s0.Keeps (s.refillMir k) := by
  unfold State.refillMir
  exact keeps_ite hs hs.upd

theorem State.Keeps.refillMeters (hs : s0.Keeps s) : s0.Keeps s.refillMeters := by
  unfold State.refillMeters
  extract_lets _ _ _ _ s5
  have h5 : s0.Keeps s5 := keeps_foldl hs.upd (fun _ _ h6 => h6.refillCopy)
  exact keeps_foldl h5 (fun _ _ h6 => h6.refillMir)

theorem State.Keeps.makeCopy {x : Pkt} {f : Final} {kind : Nat} {early : Bool} (hs : s0.Keeps s) : KeepsFst s0 (s.makeCopy x f kind early) := by
  unfold State.makeCopy
  extract_lets
  split
  · rename_i s3 e3
    have h3 := KeepsFst.of_eq e3 hs.copyMeter
    exact KeepsFst.mk h3
  · rename_i s3 e3
    have h3 := KeepsFst.of_eq e3 hs.copyMeter
    extract_lets _ _ _ s7
    have h7 : s0.Keeps s7 := h3.upd
    exact KeepsFst.mk h7.hqProduce

theorem State.Keeps.mirrorOut {pk : PktId} {ses kind : Nat} {bytes : List Byte} (hs : s0.Keeps s) :
    s0.Keeps (s.mirrorOut pk ses kind bytes) := by
  unfold State.mirrorOut
  exact keeps_ite hs.hqProduce hs.offer.fst

theorem State.Keeps.makeMirror {pk : PktId} {x : Pkt} {f : Final} {ses : Nat} {early : Bool} (hs : s0.Keeps s) :
    KeepsFst s0 (s.makeMirror pk x f ses early) := by
  unfold State.makeMirror
  extract_lets
  refine keeps_ite ?_ ?_
  · exact KeepsFst.mk hs
  · split
    · rename_i s5 e5
      have h5 := KeepsFst.of_eq e5 hs.mirrorMeter
      exact KeepsFst.mk h5
    · rename_i s5 e5
      have h5 := KeepsFst.of_eq e5 hs.mirrorMeter
      extract_lets _ s7
      have h7 : s0.Keeps s7 := h5.upd
      exact KeepsFst.mk h7.mirrorOut

theorem State.Keeps.settled {sup : Bool} (hs : s0.Keeps s) : s0.Keeps (s.settled sup) := by
  unfold State.settled
  extract_lets s1
  have h1 : s0.Keeps s1 := hs.bump
  exact keeps_ite h1.bump h1

theorem State.Keeps.settle {pk : PktId} {x : Pkt} {f : Final} (hs : s0.Keeps s) : s0.Keeps (s.settle pk x f) := by
  unfold State.settle
  extract_lets _ _ _ s4 s5
  have h4 : s0.Keeps s4 := hs.upd
  have h5 : s0.Keeps s5 := by
    unfold s5
    split
    · exact h4.hqProduce.settled
    · exact hs
  refine keeps_ite ?_ ?_
  · exact hs
  · split
    · exact h5.mirrorOut.settled
    · exact h5

theorem State.Keeps.categorise {pk : PktId} {cat : Nat} (hs : s0.Keeps s) : s0.Keeps (s.categorise pk cat) := by
  unfold State.categorise
  exact hs.modPkt

theorem State.Keeps.ruleCopy {pk : PktId} {x : Pkt} {f : Final} (hs : s0.Keeps s) : s0.Keeps (s.ruleCopy pk x f) := by
  unfold State.ruleCopy
  extract_lets
  split
  · rename_i s2 _ e2
    have h2 := KeepsFst.of_eq e2 hs.makeCopy
    exact h2
  · rename_i s2 e2
    have h2 := KeepsFst.of_eq e2 hs.makeCopy
    exact keeps_ite h2.categorise h2

theorem State.Keeps.copies {pk : PktId} {x : Pkt} {f : Final} (hs : s0.Keeps s) : s0.Keeps (s.copies pk x f) := by
  unfold State.copies
  extract_lets s1 _ s3
  have h1 : s0.Keeps s1 := keeps_ite hs.ruleCopy hs
  have h3 : s0.Keeps s3 := keeps_ite h1.makeMirror.fst h1
  exact h3.settle

theorem State.Keeps.offerInj {port q : Nat} {fr : EgFrame} (hs : s0.Keeps s) : s0.Keeps (s.offerInj port q fr) := by
  unfold State.offerInj
  extract_lets
  split
  · rename_i s2 e2
    have h2 := KeepsFst.of_eq e2 hs.offer
    exact h2
  · rename_i s2 e2
    have h2 := KeepsFst.of_eq e2 hs.offer
    exact h2.frameDone

theorem State.Keeps.offerDue (hs : s0.Keeps s) : s0.Keeps s.offerDue := by
  unfold State.offerDue
  exact keeps_ite hs (keeps_foldl hs.upd (fun _ _ h1 => h1.offerInj))

theorem State.Keeps.applied {pk : PktId} {f : Final} (hs : s0.Keeps s) : s0.Keeps (s.applied pk f) := by
  unfold State.applied
  extract_lets s1
  have h1 : s0.Keeps s1 := hs.modPkt
  split
  · exact keeps_ite h1.finishPkt h1
  · exact h1

theorem State.Keeps.stomp {pk : PktId} {port : Nat} (hs : s0.Keeps s) : s0.Keeps (s.stomp pk port) := by
  unfold State.stomp
  extract_lets
  split
  · refine keeps_ite ?_ ?_
    · split
      rename_i s2 e2
      have h2 := KeepsSnd.of_eq e2 hs.fresh
      exact h2.modTx.bump
    · exact hs
  · exact hs

theorem State.Keeps.policed {x : Pkt} {f : Final} (hs : s0.Keeps s) : KeepsFst s0 (s.policed x f) := by
  unfold State.policed
  extract_lets
  split
  rename_i s3 _ e3
  have h3 := KeepsFst.of_eq e3 (keeps_ite hs.police (KeepsFst.mk hs))
  exact KeepsFst.mk h3

theorem State.Keeps.release {pk : PktId} {x : Pkt} {colour : Option Nat} {f : Final} (hs : s0.Keeps s) : s0.Keeps (s.release pk x colour f) := by
  unfold State.release
  extract_lets _ _ _ s4 s5
  have h4 : s0.Keeps s4 := keeps_ite hs.bump hs
  have h5 : s0.Keeps s5 := h4.categorise
  refine keeps_ite ?_ ?_
  · exact State.Keeps.categorise (keeps_ite hs.stomp hs)
  · refine keeps_ite ?_ ?_
    · refine keeps_ite ?_ ?_
      · exact h5
      · split
        · rename_i s7 e7
          have h7 := KeepsFst.of_eq e7 h5.offer
          exact h7
        · rename_i s7 e7
          have h7 := KeepsFst.of_eq e7 h5.offer
          exact h7.categorise
    · exact keeps_ite hs.stomp.categorise hs.categorise

theorem State.Keeps.hostOnly {pk : PktId} {x : Pkt} {f : Final} {kind : Nat} (hs : s0.Keeps s) : s0.Keeps (s.hostOnly pk x f kind) := by
  unfold State.hostOnly
  split
  · rename_i s1 _ e1
    have h1 := KeepsFst.of_eq e1 hs.makeCopy
    exact h1.categorise
  · rename_i s1 e1
    have h1 := KeepsFst.of_eq e1 hs.makeCopy
    exact h1.categorise

theorem State.Keeps.recordDecision {x : Pkt} {f : Final} {bad : List Nat} (hs : s0.Keeps s) : s0.Keeps (s.recordDecision x f bad) := by
  unfold State.recordDecision
  refine keeps_ite ?_ ?_
  · exact hs
  · split
    · exact hs
    · extract_lets s1
      have h1 : s0.Keeps s1 := hs.fragAccess
      split
      · exact h1.setFrag
      · exact h1

theorem State.Keeps.followFinal {x : Pkt} {bad : List Nat} (hs : s0.Keeps s) : KeepsFst s0 (s.followFinal x bad) := by
  unfold State.followFinal
  split
  · exact KeepsFst.mk hs.bump
  · extract_lets s1
    have h1 : s0.Keeps s1 := hs.fragAccess
    split
    · exact KeepsFst.mk h1.bump
    · exact KeepsFst.mk h1.bump

theorem State.Keeps.countApplied {x : Pkt} {f : Final} (hs : s0.Keeps s) : s0.Keeps (s.countApplied x f) := by
  unfold State.countApplied
  extract_lets s1 s2
  have h1 : s0.Keeps s1 := keeps_ite hs.bump hs
  have h2 : s0.Keeps s2 := keeps_ite h1.bump (keeps_ite h1.bump h1.bump)
  exact keeps_ite h2.bump h2

theorem State.Keeps.countVerdict {x : Pkt} {f : Final} (hs : s0.Keeps s) : s0.Keeps (s.countVerdict x f) := by
  unfold State.countVerdict
  extract_lets _ _ s3
  have h3 : s0.Keeps s3 := hs.bump
  exact keeps_ite hs (keeps_ite h3.bump h3)

theorem State.Keeps.noteVoids {x : Pkt} (hs : s0.Keeps s) : s0.Keeps (s.noteVoids x) := by
  have hone (t : State) (c : Nat) (v : Option Version) (r : CtxRes) (ht : s0.Keeps t) :
      s0.Keeps (match v, r.void with | some _, some why => t.voidSet c x.i.b why | _, _ => t) := by
    split
    · exact ht.voidSet
    · exact ht
  exact hone _ _ _ _ (hone _ _ _ _ hs)

theorem execVerdictApply_keeps {pk : PktId} {badFrag : List Nat} (hs : s0.Keeps s) : Completes s0 (execVerdictApply pk badFrag s) := by
  unfold execVerdictApply
  split
  · exact hs.next
  · extract_lets s1 s2
    have h1 : s0.Keeps s1 := keeps_ite hs.bump hs
    have h2 : s0.Keeps s2 := h1.noteVoids
    refine keeps_ite ?_ ?_
    · exact hs.next
    · split
      rename_i s3 e3
      have h3 := KeepsSnd.of_eq e3 (keeps_ite (KeepsSnd.mk h2.fresh.snd) (KeepsSnd.mk h2))
      extract_lets
      split
      rename_i s6 _ e6
      have h6 := KeepsFst.of_eq e6 (keeps_ite h3.followFinal (KeepsFst.mk h3))
      extract_lets s7 s8 s9 s10
      have h7 : s0.Keeps s7 := h6.countVerdict
      have h8 : s0.Keeps s8 := h7.countApplied
      have h9 : s0.Keeps s9 := h8.recordDecision
      have h10 : s0.Keeps s10 := keeps_ite h9.bump h9
      refine keeps_ite ?_ ?_
      · exact h7.categorise.applied.offerDue.next
      · refine keeps_ite ?_ ?_
        · exact h8.hostOnly.applied.offerDue.next
        · refine keeps_ite ?_ ?_
          · exact h8.hostOnly.applied.offerDue.next
          · split
            rename_i s11 _ _ e11
            have h11 := KeepsFst.of_eq e11 h10.policed
            exact h11.release.copies.applied.offerDue.next

theorem execCutThroughStart_keeps {pk : PktId} (hs : s0.Keeps s) : Completes s0 (execCutThroughStart pk s) := by
  unfold execCutThroughStart
  split
  · exact hs.next
  · extract_lets _ _ _ _ s5 s6
    have h5 : s0.Keeps s5 := keeps_ite hs.modTx hs
    have h6 : s0.Keeps s6 := h5.offer.fst.startFrame.bump
    refine keeps_ite ?_ ?_
    · exact hs.next
    · split
      rename_i s7 _ e7
      have h7 := KeepsFst.of_eq e7 (keeps_ite h6.makeCopy (KeepsFst.mk h6))
      split
      rename_i s8 _ e8
      have h8 := KeepsFst.of_eq e8 (keeps_ite h7.makeMirror (KeepsFst.mk h7))
      exact h8.modPkt.next

theorem State.Keeps.modShadow {c f : Nat} {g : ShadowSt → ShadowSt} (hs : s0.Keeps s) : s0.Keeps (s.modShadow c f g) := by
  unfold State.modShadow
  exact hs.upd

theorem execShadowStatistics_keeps {c : CtxNum} {f : Flock} {tap : Fin 32} {drained : List (Nat × Int)} {mvSeen : Nat} {void : Bool}
    (hs : s0.Keeps s) :
    Completes s0 (execShadowStatistics c f tap drained mvSeen void s) := by
  unfold execShadowStatistics
  extract_lets
  split
  · exact hs.next
  · exact keeps_ite hs.next (keeps_ite hs.modShadow.next (keeps_ite hs.modShadow.next hs.modShadow.next))

theorem execShadowWindowEnd_keeps {c : CtxNum} {f : Flock} (hs : s0.Keeps s) : Completes s0 (execShadowWindowEnd c f s) := by
  unfold execShadowWindowEnd
  extract_lets
  split
  · exact hs.next
  · extract_lets _ _ _ _ _ s9
    have h9 : s0.Keeps s9 := hs.hbmWrite.modShadow
    exact keeps_ite hs.next h9.observe.next

theorem State.Keeps.landAggregate {c : Nat} (hs : s0.Keeps s) : s0.Keeps (s.landAggregate c) := by
  unfold State.landAggregate
  extract_lets _ s2
  have h2 : s0.Keeps s2 := hs.upd
  refine keeps_ite ?_ ?_
  · exact hs
  · refine keeps_ite ?_ ?_
    · exact h2
    · split
      · exact h2
      · exact (keeps_foldl h2 (fun _ _ h3 => by
  extract_lets s4
  have h4 : s0.Keeps s4 := h3.fresh.snd
  exact (keeps_ite h4.upd h3)))

theorem State.Keeps.startAggregate {c : Nat} (hs : s0.Keeps s) : s0.Keeps (s.startAggregate c) := by
  unfold State.startAggregate
  extract_lets
  split
  · exact keeps_ite hs hs.upd
  · exact hs

theorem execAggregateWindow_keeps (hs : s0.Keeps s) : Completes s0 (execAggregateWindow s) := by
  unfold execAggregateWindow
  extract_lets _ _ s3
  have h3 : s0.Keeps s3 := hs.upd
  exact keeps_ite hs.next (keeps_foldl (keeps_foldl h3 (fun _ _ h4 => h4.landAggregate)) (fun _ _ h4 => h4.startAggregate)).next

theorem execSelectorArm_keeps {src : Source} (hs : s0.Keeps s) : Completes s0 (execSelectorArm src s) := by
  unfold execSelectorArm
  exact (hs.basicCmd (fun _ h1 => by
  extract_lets _ _ _ s5
  have h5 : s0.Keeps s5 := h1.wr.auditCmd
  exact (keeps_ite h5.later h5)))

theorem State.Keeps.selArmNow {n : Nat} {x : List Nat} (hs : s0.Keeps s) : s0.Keeps (s.selArmNow n x) := by
  unfold State.selArmNow
  exact hs.upd

theorem State.Keeps.captureCycle (hs : s0.Keeps s) : s0.Keeps s.captureCycle := by
  unfold State.captureCycle
  exact keeps_ite hs hs.upd

theorem execSample_keeps (hs : s0.Keeps s) : Completes s0 (execSample s) := by
  unfold execSample
  extract_lets _ _ s3
  have h3 : s0.Keeps s3 := hs.upd
  exact (keeps_ite hs.next (keeps_foldl h3 (fun _ _ h4 => by
  extract_lets s5
  have h5 : s0.Keeps s5 := keeps_foldl h4 (fun _ _ h6 => h6.observe)
  exact h5.upd)).next)

theorem execWArm_keeps {src : Source} (hs : s0.Keeps s) : Completes s0 (execWArm src s) := by
  unfold execWArm
  exact (hs.basicCmd (fun _ h1 => by
  extract_lets _ _ _ _ _ s7 s8
  have h7 : s0.Keeps s7 := h1.wr.auditCmd
  have h8 : s0.Keeps s8 := h7.wr
  exact (keeps_ite h8.upd h7)))

theorem execWDisarm_keeps {src : Source} (hs : s0.Keeps s) : Completes s0 (execWDisarm src s) := by
  unfold execWDisarm
  exact hs.basicCmd (fun _ h1 => h1.later.auditCmd)

theorem State.Keeps.watchOffNow {n : Nat} (hs : s0.Keeps s) : s0.Keeps (s.watchOffNow n) := by
  unfold State.watchOffNow
  extract_lets s1
  have h1 : s0.Keeps s1 := hs.wr
  exact h1.upd

theorem State.Keeps.watchSweep (hs : s0.Keeps s) : s0.Keeps s.watchSweep := by
  unfold State.watchSweep
  exact (keeps_foldl hs (fun _ _ h1 => by
  extract_lets s2
  have h2 : s0.Keeps s2 := h1.wr
  split
  · exact keeps_ite h1 h2.upd
  · exact h1))

theorem State.Keeps.forward {q n : Nat} {bs : List Byte} (hs : s0.Keeps s) : s0.Keeps (s.forward q n bs) := by
  unfold State.forward
  extract_lets _ _ _ _ _ s6 s7
  have h6 : KeepsFst s0 s6 := hs.sendTo
  have h7 : s0.Keeps s7 := h6.fst
  exact keeps_ite hs (keeps_ite hs.bump (keeps_ite h7.upd hs.bump))

theorem State.Keeps.writeItem {it : ObsItem} (hs : s0.Keeps s) : s0.Keeps (s.writeItem it) := by
  unfold State.writeItem
  extract_lets _ s2
  have h2 : s0.Keeps s2 := hs.hqProduce
  exact keeps_ite hs.hbmWrite.hbmWrite (State.Keeps.forward (keeps_ite h2.bump h2))

theorem ObsRun.item_keeps {r : ObsRun} {new : Bool} {it : ObsItem} (hs : s0.Keeps r.s) : s0.Keeps (r.item new it).s := by
  unfold ObsRun.item
  extract_lets k s1 it1 r1 s2
  have h1 : s0.Keeps s1 := keeps_ite hs hs.hbmWrite
  have h2 : s0.Keeps s2 := h1.bump
  have hite {c : Prop} [Decidable c] {a b : ObsRun} (ha : s0.Keeps a.s) (hb : s0.Keeps b.s) : s0.Keeps (if c then a else b).s :=
    keeps_ite (P := fun r : ObsRun => s0.Keeps r.s) ha hb
  refine hite hs.bump (hite hs.hqProduce (hite hs.writeItem (hite h1 (hite h1.bump ?_))))
  exact keeps_ite h2.bump h2

theorem ObsRun.items_keeps {new : Bool} {l : List ObsItem} {r : ObsRun} (hs : s0.Keeps r.s) :
    s0.Keeps (l.foldl (fun r it => r.item new it) r).s := by
  induction l generalizing r with
  | nil => exact hs
  | cons it l ih => exact ih (ObsRun.item_keeps hs)

theorem execObservationWrite_keeps (hs : s0.Keeps s) : Completes s0 (execObservationWrite s) := by
  unfold execObservationWrite
  extract_lets cap r0 r1 r2
  have h1 : s0.Keeps r1.s := ObsRun.items_keeps hs
  have h2 : s0.Keeps r2.s := ObsRun.items_keeps h1
  exact keeps_ite hs.next h2.upd.next

theorem State.Keeps.dbgResult {r : Nat} (hs : s0.Keeps s) : s0.Keeps (s.dbgResult r) := by
  unfold State.dbgResult
  exact hs.wr

theorem execDbgEnter_keeps {src : Source} (hs : s0.Keeps s) : Completes s0 (execDbgEnter src s) := by
  unfold execDbgEnter
  exact (hs.basicCmd (fun _ h1 => by
  extract_lets _ _ s4
  have h4 : s0.Keeps s4 := h1.dbgResult.auditCmd
  exact (keeps_ite h4.later h4)))

theorem State.Keeps.dbgEnterNow {f : Nat} (hs : s0.Keeps s) : s0.Keeps (s.dbgEnterNow f) := by
  unfold State.dbgEnterNow
  extract_lets s1
  have h1 : s0.Keeps s1 := hs.flockOut
  split
  · exact hs
  · exact keeps_ite hs h1.upd

theorem execDbgLeave_keeps {src : Source} (hs : s0.Keeps s) : Completes s0 (execDbgLeave src s) := by
  unfold execDbgLeave
  exact (hs.basicCmd (fun _ h1 => by
  extract_lets _ _ s4
  have h4 : s0.Keeps s4 := h1.dbgResult.auditCmd
  exact (keeps_ite h4.later h4)))

theorem execHalt_keeps {src : Source} {v : Bool} (hs : s0.Keeps s) : Completes s0 (execHalt src v s) := by
  unfold execHalt
  exact (hs.basicCmd (fun _ h1 => by
  extract_lets _ _ _ s5
  have h5 : s0.Keeps s5 := h1.dbgResult.audit
  exact (keeps_ite h5.wr.later h5)))

theorem execStepf_keeps {src : Source} (hs : s0.Keeps s) : Completes s0 (execStepf src s) := by
  unfold execStepf
  exact (hs.basicCmd (fun _ h1 => by
  extract_lets _ _ s4
  have h4 : s0.Keeps s4 := h1.dbgResult.auditCmd
  exact (keeps_ite h4.later h4)))

theorem execMemDataWrite_keeps {src : Source} {f : Flock} {v : DWord} (hs : s0.Keeps s) : Completes s0 (execMemDataWrite src f v s) := by
  unfold execMemDataWrite
  exact (hs.basicCmd (fun _ h1 => by
  extract_lets
  split
  · extract_lets _ s4
    have h4 : s0.Keeps s4 := h1.audit
    exact (keeps_ite h4.dbgResult (keeps_ite h4.dbgResult.coreStore h4.dbgResult))))

theorem State.Keeps.missPkts {p : Pkt → Bool} {g : Pkt → Pkt} (hs : s0.Keeps s) : s0.Keeps (s.missPkts p g) := by
  unfold State.missPkts
  exact hs.upd

theorem State.Keeps.stopCores {l : Nat} (hs : s0.Keeps s) : s0.Keeps (s.stopCores l) := by
  unfold State.stopCores
  exact hs.upd

theorem State.Keeps.missAccesses (hs : s0.Keeps s) : s0.Keeps s.missAccesses := by
  unfold State.missAccesses
  extract_lets _ s2 s3
  have h2 : s0.Keeps s2 := hs.setFlow
  have h3 : s0.Keeps s3 := keeps_foldl h2 (fun _ _ h4 => keeps_ite h4.workLost.workLost h4)
  exact h3.upd

theorem State.Keeps.missCtx {f ctx : Nat} {v : Version} {o : Nat} (hs : s0.Keeps s) : s0.Keeps (s.missCtx f ctx v o) := by
  unfold State.missCtx
  exact (keeps_ite (keeps_foldl hs (fun _ _ h1 => by
  split
  · exact h1.modRes.modRes
  · exact h1)) hs.workLost)

theorem State.Keeps.abandon {c : ACoreId} {n : Nat} (hs : s0.Keeps s) : s0.Keeps (s.abandon c n) := by
  unfold State.abandon
  extract_lets s1
  have h1 : s0.Keeps s1 := hs.progLate
  split
  rename_i s3 e3
  have h3 := KeepsSnd.of_eq e3 (by
    split
    · exact KeepsSnd.mk h1.missCtx
    · exact KeepsSnd.mk h1
    )
  extract_lets s4 s5 _ _ s8
  have h4 : s0.Keeps s4 := keeps_foldl h3 (fun _ _ h5 => h5.upd)
  have h5 : s0.Keeps s5 := h4.modAcore
  have h8 : s0.Keeps s8 := h5.upd
  exact h8.upd

theorem State.Keeps.missTrees {f n : Nat} (hs : s0.Keeps s) : s0.Keeps (s.missTrees f n) := by
  unfold State.missTrees
  extract_lets s1
  have h1 : s0.Keeps s1 := keeps_foldl hs (fun _ _ h2 => h2.setTcore)
  exact keeps_foldl h1 (fun _ _ h2 => h2.missCtx)

theorem State.Keeps.missFlock {f n : Nat} (hs : s0.Keeps s) : s0.Keeps (s.missFlock f n) := by
  unfold State.missFlock
  extract_lets s1 _ _ _ s5
  have h1 : s0.Keeps s1 := hs.land
  have h5 : s0.Keeps s5 := keeps_ite h1.missTrees h1
  exact (keeps_foldl h5 (fun _ _ h6 => h6.abandon)).restoreCells

theorem State.Keeps.placeTokens {pq : Nat} {bytes : Int} (hs : s0.Keeps s) : s0.Keeps (s.placeTokens pq bytes) := by
  unfold State.placeTokens
  exact hs.modQ

theorem State.Keeps.runAct {a : Act} (hs : s0.Keeps s) : s0.Keeps (s.runAct a) := by
  unfold State.runAct
  extract_lets
  split
  · exact hs.fragFlushNow
  · exact hs.treeOut
  · exact hs.arrayOut
  · exact hs.upd
  · exact keeps_foldl hs (fun _ _ h3 => keeps_ite h3.lanePass h3)
  · exact hs.lanePass
  · exact hs.devSafeIn
  · exact hs.verdPatchNow
  · exact hs.forceRetireNow
  · exact keeps_ite hs hs.upd
  · exact hs.missFlock
  · exact hs.upd
  · exact hs.placeTokens
  · exact hs.restoreNow
  · exact hs.ctxDown
  · exact hs.flockOut
  · split
    · exact hs.unitOut
    · exact hs
  · split
    · exact hs.readmit
    · exact hs
  · exact hs.upd
  · exact hs.dbgEnterNow
  · exact hs.leaveDebug
  · exact hs.upd
  · exact hs.upd
  · exact hs.upd
  · exact hs.endToken
  · exact hs.startToken
  · exact hs.hqStartNow
  · exact keeps_foldl hs (fun _ _ h3 => keeps_ite h3.linkDown h3)
  · exact hs.learnNow
  · exact hs.selArmNow
  · exact hs.watchOffNow

theorem State.Keeps.runActs (hs : s0.Keeps s) : s0.Keeps s.runActs := by
  unfold State.runActs
  exact keeps_foldl hs.upd (fun _ _ h1 => h1.runAct)

theorem State.Keeps.actNow (hs : s0.Keeps s) : s0.Keeps s.actNow := by
  unfold State.actNow
  exact hs.upd

theorem State.Keeps.bypassCheck (hs : s0.Keeps s) : s0.Keeps s.bypassCheck := by
  unfold State.bypassCheck
  exact keeps_ite hs.wr (keeps_ite hs.wr hs)

theorem State.Keeps.deadlineBypass (hs : s0.Keeps s) : s0.Keeps s.deadlineBypass := by
  unfold State.deadlineBypass
  exact keeps_ite hs hs.upd

theorem State.Keeps.purge (hs : s0.Keeps s) : s0.Keeps s.purge := by
  unfold State.purge
  exact hs.upd

theorem State.Keeps.epochStart (hs : s0.Keeps s) : s0.Keeps s.epochStart := by
  unfold State.epochStart
  extract_lets s1 s2
  have h1 : s0.Keeps s1 := keeps_foldl hs (fun _ _ h2 => h2.ctxDue)
  have h2 : s0.Keeps s2 := keeps_foldl h1 (fun _ _ h3 => keeps_ite h3.wr h3)
  exact h2.updTime

theorem State.Keeps.steerBeat (hs : s0.Keeps s) : s0.Keeps s.steerBeat := by
  unfold State.steerBeat
  exact keeps_ite hs.slew hs.updTime

/-- The boundary's work comes after the count of the beat, which it leaves as it is. -/
theorem State.keeps_boundary (s : State) : s.newBeat.Keeps s.boundary := by
  unfold State.boundary
  extract_lets s1 s2 s3 s4 s5 s6
  have h1 : s.newBeat.Keeps s1 := (State.Keeps.refl s.newBeat).actNow.runActs.actNow
  have h2 : s.newBeat.Keeps s2 := keeps_ite h1.epochStart h1
  have h3 : s.newBeat.Keeps s3 := h2.tokenBeat.ledgerEffects.ruleSwitch.scrubBeat.entBoundary.steerBeat
  have h4 : s.newBeat.Keeps s4 := keeps_foldl h3 (fun _ _ h5 => h5.settlePair)
  have h5 : s.newBeat.Keeps s5 := keeps_ite h4.abortJobs h4
  have h6 : s.newBeat.Keeps s6 := h5.purge.bypassCheck.deadlineBypass.refillMeters
  exact h6.herdBeat.watchSweep.ledgerBeat.captureCycle.offerDue

theorem execBeatMiss_keeps {i : Island} (hs : s0.Keeps s) : Completes s0 (execBeatMiss i s) := by
  unfold execBeatMiss
  extract_lets _ s2
  have h2 : s0.Keeps s2 := hs.countMiss
  refine keeps_ite ?_ ?_
  · exact hs.next
  · split
    · exact h2.missPkts.stopCores.next
    · exact keeps_ite hs.next h2.missPkts.next
    · exact h2.missPkts.next
    · exact keeps_ite hs.next h2.missFlock.next
    · exact h2.missPkts.missAccesses.next
    · exact keeps_ite h2.upd.next hs.next

theorem execMissWithdraw_keeps {i : Island} (hs : s0.Keeps s) : Completes s0 (execMissWithdraw i s) := by
  unfold execMissWithdraw
  extract_lets _ s2
  have h2 : s0.Keeps s2 := hs.updTime
  refine keeps_ite ?_ ?_
  · exact hs.next
  · split
    · exact h2.lanePass.next
    · exact h2.replicaOut.next
    · exact h2.devSafeIn.next
    · exact h2.flockOut.next
    · exact h2.devSafeIn.next
    · exact h2.upd.setHl.next

theorem execEventClear_keeps {src : Source} {page : Fin 512} {v sameCycle : Word} (hs : s0.Keeps s) :
    Completes s0 (execEventClear src page v sameCycle s) := by
  unfold execEventClear
  split
  · exact hs.next
  · exact (hs.basicCmd (fun _ h1 => by
  extract_lets _ _ s4
  have h4 : s0.Keeps s4 := h1.wrEvent.evtEdge
  exact (keeps_ite h4.audit h4)))

theorem execEventForce_keeps {src : Source} {page : Fin 512} {v : Word} (hs : s0.Keeps s) : Completes s0 (execEventForce src page v s) := by
  unfold execEventForce
  split
  · exact hs.next
  · exact hs.expertCmd (fun _ h1 => h1.events)

theorem execEventMaskWrite_keeps {src : Source} {page : Fin 512} {v : Word} (hs : s0.Keeps s) :
    Completes s0 (execEventMaskWrite src page v s) := by
  unfold execEventMaskWrite
  split
  · exact hs.next
  · exact (hs.basicCmd (fun _ h1 => by
  extract_lets _ _ s4 s5
  have h4 : s0.Keeps s4 := h1.wrNow
  have h5 : s0.Keeps s5 := keeps_ite h4 h4.raiseVec
  exact (keeps_ite h5 h5.audit)))

theorem State.Keeps.seqEnd {r : Nat} (hs : s0.Keeps s) : s0.Keeps (s.seqEnd r) := by
  unfold State.seqEnd
  exact hs.upd.wr.drawChal

theorem State.expertToken_spec (h : s.expertToken = true) : ∃ k, s.auth.token = some k ∧ bits k.perms 2 1 = 1 := by
  unfold State.expertToken at h
  cases hk : s.auth.token with
  | none => simp [hk] at h
  | some k => exact ⟨k, rfl, by simpa [hk] using h⟩

theorem State.Keeps.expertKey {src : Source} {v : Nat} (hs : s0.Keeps s) : s0.Keeps (s.expertKey src v) := by
  unfold State.expertKey
  extract_lets r _ s1
  have h1 : s0.Keeps s1 := hs.upd.auditCmd
  have h2 : s0.Keeps ((s1.wr Reg.DEV.EXPERT_SRC src.num).seqEnd 1) := h1.wr.seqEnd
  exact keeps_ite h1.upd (keeps_ite (h2.of_auth fun h => State.expertToken_spec h) h1.seqEnd)

theorem execExpertKey_keeps {src : Source} {v : Word} (hs : s0.Keeps s) : Completes s0 (execExpertKey src v s) := by
  unfold execExpertKey
  exact keeps_ite hs.expertKey.next hs.next

theorem execLock_keeps {src : Source} (hs : s0.Keeps s) : Completes s0 (execLock src s) := by
  unfold execLock
  exact hs.basicCmd fun t ht => (ht.of_auth fun h => by cases h).auditCmd

theorem execVec0Force_keeps {src : Source} (hs : s0.Keeps s) : Completes s0 (execVec0Force src s) := by
  unfold execVec0Force
  exact hs.expertCmd (fun _ h1 => h1.raiseVec)

theorem State.Keeps.entWord {src : Source} {r : Fin 8} {v : Nat} (hs : s0.Keeps s) : s0.Keeps (s.entWord src r v) := by
  unfold State.entWord
  extract_lets
  split
  · exact nextOf_keeps hs (fun _ h2 => execEntWrite_keeps h2)
  · exact nextOf_keeps hs (fun _ h2 => execEntSetStaged_keeps h2)
  · exact nextOf_keeps hs (fun _ h2 => execEntClearStaged_keeps h2)
  · exact nextOf_keeps hs (fun _ h2 => execEntRead_keeps h2)
  · exact nextOf_keeps hs (fun _ h2 => execEntRepair_keeps h2)
  · exact nextOf_keeps hs (fun _ h2 => h2.basicCmd (fun _ h3 => h3.entStart))

theorem State.Keeps.ctxWord {src : Source} {v : Nat} (hs : s0.Keeps s) : KeepsOpt s0 (s.ctxWord src v) := by
  unfold State.ctxWord
  extract_lets
  split
  · exact hs.run fun _ => execLoad_keeps
  · exact hs.run fun _ => execCommit_keeps
  · exact hs.run fun _ => execAbort_keeps
  · exact hs.run fun _ => execDiscard_keeps
  · exact hs.run fun _ => execUnload_keeps
  · exact hs.run fun _ => execLoadLayout_keeps
  · exact hs.run fun _ => execCommitLayout_keeps
  · exact KeepsOpt.none

theorem State.Keeps.rstGo {src : Source} (hs : s0.Keeps s) : s0.Keeps (s.rstGo src) := by
  unfold State.rstGo
  extract_lets
  refine keeps_ite ?_ ?_
  · exact nextOf_keeps hs (fun _ h2 => execLaneReset_keeps h2)
  · refine keeps_ite ?_ ?_
    · split
      rename_i s2 e2
      have h2 := KeepsSnd.of_eq e2 hs.fresh
      exact nextOf_keeps h2 (fun _ h3 => execFlockReset_keeps h3)
    · exact nextOf_keeps hs (fun _ h2 => h2.basicCmd (fun _ h3 => h3.rstRefuse))

theorem twoBits_keeps {v : Nat} {a b : State → Host.Outcome State Fault Refusal}
    (hs : s0.Keeps s) (ha : ∀ y0, s0.Keeps y0 → Completes s0 (a y0)) (hb : ∀ y0, s0.Keeps y0 → Completes s0 (b y0)) :
    KeepsOpt s0 (twoBits v s a b) := by
  unfold twoBits
  extract_lets s1
  have h1 : s0.Keeps s1 := keeps_ite (nextOf_keeps hs ha) hs
  exact keeps_ite KeepsOpt.none (KeepsOpt.some (keeps_ite (nextOf_keeps h1 hb) h1))

theorem State.Keeps.cmdWide {src : Source} {block inst off v : Nat} (hs : s0.Keeps s) : KeepsOpt s0 (s.cmdWide src block inst off v) := by
  unfold State.cmdWide
  extract_lets
  split
  · exact hs.run fun _ => execJobProdWrite_keeps
  · exact hs.run fun _ => execInjProdWrite_keeps
  · exact hs.run fun _ => execTreeOff_keeps
  · exact hs.run fun _ => execArrayOff_keeps
  · exact keeps_ite (hs.run fun _ => execMemDataWrite_keeps) (KeepsOpt.some hs.wrote)
  · exact keeps_ite (hs.run fun _ => execHqConsWrite_keeps) (keeps_ite (hs.run fun _ => execUaccDescriptorWrite_keeps) KeepsOpt.none)

theorem State.Keeps.putElem {e : Elem} {v : Nat} (hs : s0.Keeps s) : s0.Keeps (s.putElem e v) := by
  unfold State.putElem
  extract_lets _ _ _ _ s5
  have h5 : s0.Keeps s5 := hs.wr
  split
  · exact hs.upd
  · exact hs.upd
  · exact hs.upd
  · exact keeps_ite hs.upd hs.upd
  · exact hs.wr
  · exact keeps_ite h5.updHost h5
  · exact hs.wr

theorem Wrote.elem_keeps {src : Source} {e : Elem} {v : Nat} {p : Wrote} (hs : KeepsWrote s0 p) : KeepsWrote s0 (p.elem src e v) := by
  unfold Wrote.elem
  refine keeps_ite hs (keeps_ite hs.hqSetEn ?_)
  split
  · exact hs
  · exact hs.putElem

theorem Wrote.elems_keeps {src : Source} {g : Elem → Nat} {l : List Elem} {p : Wrote} (hs : KeepsWrote s0 p) :
    KeepsWrote s0 (l.foldl (fun (p : Wrote) (e : Elem) => p.elem src e (g e)) p) := by
  induction l generalizing p with
  | nil => exact hs
  | cons e l ih => exact ih (Wrote.elem_keeps hs)

theorem State.Keeps.plainWrite {src : Source} {block inst off n v : Nat} (hs : s0.Keeps s) : s0.Keeps (s.plainWrite src block inst off n v) := by
  unfold State.plainWrite
  extract_lets s1 es expert old p t1 t2
  have h1 : s0.Keeps s1 := hs.wrote
  have hp : KeepsWrote s0 p := keeps_ite h1 (keeps_ite h1 (Wrote.elems_keeps h1))
  have h2 : s0.Keeps t2 := keeps_ite hp.retrainPorts hp
  exact keeps_ite h1 (keeps_ite h2.audit h2)

theorem State.Keeps.holdLow {src : Source} {block inst off v : Nat} (hs : s0.Keeps s) : s0.Keeps (s.holdLow src block inst off v) := by
  unfold State.holdLow
  extract_lets _ s2 _ s4
  have h2 : s0.Keeps s2 := hs.wrote
  have h4 : s0.Keeps s4 := h2.upd
  exact keeps_ite hs.plainWrite (keeps_ite h4.audit h4)

theorem State.Keeps.readData {v : Nat} (hs : s0.Keeps s) : s0.Keeps (s.readData v) := by
  unfold State.readData
  exact hs.updHost

theorem State.Keeps.readEffects {src : Source} {block inst off n : Nat} (hs : s0.Keeps s) :
    KeepsFst s0 (s.readEffects src block inst off n) := by
  unfold State.readEffects
  extract_lets meets pop
  have hpop (t : State) (a : Nat) (d : TsDir) (ht : s0.Keeps t) : KeepsFst s0 (pop t a d) :=
    keeps_ite (KeepsFst.mk (nextOf_keeps ht fun _ h => execTsFifoPop_keeps h)) (KeepsFst.mk ht)
  have hp : KeepsFst s0 (pop (pop s 0xC4 .rx).1 0xD8 .tx) := hpop _ _ _ (hpop _ _ _ hs)
  refine keeps_ite (KeepsFst.mk hp) (keeps_ite (KeepsFst.mk ?_) (keeps_ite (KeepsFst.mk ?_) (KeepsFst.mk hs)))
  · exact nextOf_keeps hs fun _ h => execAfRead_keeps h
  · exact nextOf_keeps hs fun _ h => execTimeBeatRead_keeps h

theorem State.Keeps.readNow {src : Source} {block inst off n : Nat} (hs : s0.Keeps s) : KeepsFst s0 (s.readNow src block inst off n) := by
  unfold State.readNow
  extract_lets
  split
  rename_i s2 _ e2
  have h2 := KeepsFst.of_eq e2 hs.readEffects
  exact KeepsFst.mk h2

theorem State.Keeps.pageRead {src : Source} {block inst off n : Nat} (hs : s0.Keeps s) : s0.Keeps (s.pageRead src block inst off n) := by
  have hread (k m : Nat) : s0.Keeps (s.readNow src block inst k m).1 := hs.readNow.fst
  have hplain : s0.Keeps ((s.readNow src block inst off n).1.readData (s.readNow src block inst off n).2) := (hread _ _).readData
  unfold State.pageRead
  refine keeps_ite (keeps_ite (hread _ _).upd.readData ?_) hplain
  split
  · exact keeps_ite hs.upd.readData hplain
  · exact hplain

theorem State.Keeps.setBar4Word {w v : Nat} (hs : s0.Keeps s) : s0.Keeps (s.setBar4Word w v) := by
  unfold State.setBar4Word
  exact keeps_ite (keeps_ite hs.updHost.msixTry hs.updHost) (keeps_ite hs hs.updHost)

theorem State.Keeps.bar4Access {a : RegAccess} (hs : s0.Keeps s) : s0.Keeps (s.bar4Access a) := by
  unfold State.bar4Access
  exact keeps_ite hs (keeps_ite (keeps_ite hs hs.readData) (keeps_ite (keeps_foldl hs (fun _ _ h1 => h1.setBar4Word)) hs.readData))

theorem tick_keeps (hs : s0.Keeps s) : s0.Keeps (tick s) := by
  unfold tick
  exact keeps_ite hs.updTime.captureCycle hs

end Sys2Proof.Machine
end

section
/-! PROOF. What resets, START and the register file keep, and the invariants of every step. -/

namespace Sys2Proof.Machine

-- One thread for the proofs, which bounds the memory that checking them takes.
set_option Elab.async false

open Sys2Proof

variable {s0 s : State}

/-! ### Resets -/
theorem State.flashOnly_pending (s : State) : s.flashOnly.pending = s.tearWrites.pending := by
  unfold State.flashOnly
  extract_lets s1 _ _ t
  have h : t.Keeps (t.avLoad s1.flt.flashAv).drawNonce.drawChal := (State.Keeps.refl t).avLoad.drawNonce.drawChal
  exact h.1

theorem State.flashOnly_started (s : State) : s.flashOnly.time.started = false := rfl

theorem State.flashOnly_mem (s : State) : s.flashOnly.host.mem = s.tearWrites.host.mem := rfl

theorem State.flashOnly_hbm (s : State) : s.flashOnly.hbm = [] := rfl

theorem State.flashOnly_auth (s : State) : s.flashOnly.auth = {} := rfl

theorem State.onDie_pending (s : State) : s.onDie.pending = s.tearWrites.pending := by
  refine Eq.trans ?_ s.flashOnly_pending
  unfold State.onDie
  exact ((State.Keeps.refl _).avLoad : State.Keeps _ _).1

theorem State.onDie_started (s : State) : s.onDie.time.started = false := rfl

theorem State.onDie_mem (s : State) : s.onDie.host.mem = s.tearWrites.host.mem := rfl

theorem State.onDie_hbm (s : State) : s.onDie.hbm = s.hbm := rfl

theorem State.authOk_of_auth_empty (h : s.auth = {}) : s.AuthOk := by
  intro hu
  rw [h] at hu
  cases hu

theorem State.After.flashOnly (h : s0.After s) : s0.After s.flashOnly := by
  obtain ⟨hp, _, hm, _, _⟩ : s.Keeps s.tearWrites := (State.Keeps.refl s).tearWrites
  refine h.stopped (s.flashOnly_pending.trans hp) s.flashOnly_started (fun h => ?_) fun _ => State.authOk_of_auth_empty s.flashOnly_auth
  unfold State.MemOk
  rw [s.flashOnly_hbm, s.flashOnly_mem]
  exact ⟨rfl, (hm h).2⟩

theorem State.After.onDie (h : s0.After s) : s0.After s.onDie := by
  obtain ⟨hp, _, hm, _, _⟩ : s.Keeps s.tearWrites := (State.Keeps.refl s).tearWrites
  refine h.stopped (s.onDie_pending.trans hp) s.onDie_started (fun h => ?_) fun _ => State.authOk_of_auth_empty s.onDie_auth
  unfold State.MemOk
  rw [s.onDie_hbm, s.onDie_mem]
  exact ⟨h.1, (hm h).2⟩

theorem State.After.coldNow {cause : Nat} (h : s0.After s) : s0.After (s.coldNow cause) := by
  unfold State.coldNow
  have h1 : s0.After (if s.rd Reg.FLOW.REHASH_RUN = 1 ∧ s.time.started then s.rehashRecord else s) :=
    keeps_ite (h.keeps (State.Keeps.refl s).rehashRecord) h
  exact h1.flashOnly.keeps (State.Keeps.refl _).wr

theorem State.After.bootRestart {cause : Nat} (h : s0.After s) : s0.After (s.bootRestart cause) :=
  h.onDie.keeps ((State.Keeps.refl _).wr : s.onDie.Keeps (s.onDie.wr Reg.DEV.RESET_CAUSE cause)).upd

theorem State.After.warmNow {req : Bool} {cause : Nat} (h : s0.After s) : s0.After (s.warmNow req cause) := by
  unfold State.warmNow
  extract_lets dev s1 s2 lost s3 s4 s5 _ s6 t1 t2
  have h1 : s.Keeps s1 := keeps_foldl (State.Keeps.refl s).announceLeave fun _ _ h => h.setHl
  have h2 : s.Keeps s2 := keeps_ite (keeps_foldl h1.flushCache fun _ _ h => h.writeBack.fst) h1
  have h3 : s.Keeps s3 := h2.wr.bump
  have h4 : s.Keeps s4 := keeps_ite h3.bump h3
  have h5 : s.Keeps s5 := keeps_ite h4.avSave h4
  have h6 : s0.After t1 := (h.keeps h5.upd).onDie.keeps (State.Keeps.refl _).wr
  have h7 : s0.After t2 := keeps_ite (h6.keeps (State.Keeps.refl _).bump) h6
  exact h7.keeps (State.Keeps.refl t2).upd

theorem State.After.resetNow {req : Bool} {cause : Nat} (h : s0.After s) : s0.After (s.resetNow req cause) := by
  unfold State.resetNow
  exact keeps_ite h.warmNow h.bootRestart

theorem State.After.coldDue (h : s0.After s) : s0.After s.coldDue := by
  unfold State.coldDue
  exact keeps_ite (h.keeps (State.Keeps.refl s).avSave).coldNow h

theorem State.After.requestReset {src : Source} {cold : Bool} {rkey : Nat} (h : s0.After s) : s0.After (s.requestReset src cold rkey) := by
  unfold State.requestReset
  extract_lets blocked s1 f new r s2
  have h1 : s.Keeps s1 := keeps_ite (State.Keeps.refl s) (State.Keeps.refl s).wrote
  have h2 (n : Nat) : s0.After (s1.audit (r n)) := h.keeps h1.audit
  have h3 : s0.After s2 := h2 0
  refine keeps_ite (h.keeps h1) (keeps_ite (h2 1) (keeps_ite (h2 3) (keeps_ite ?_ (keeps_ite h3.coldNow h3.resetNow))))
  exact h3.keeps (State.Keeps.refl s2).upd

/-! ### The start of the data path -/
theorem State.After.dataPath (h : s0.Keeps s) : s0.After s.dataPath := by
  obtain ⟨hp, _, hm, ha, hs⟩ := h
  have h1 : s0.After { s with time := { s.time with started := true } } := ⟨hp, hm, ha, fun h _ => hs h⟩
  unfold State.dataPath
  exact h1.keeps (State.Keeps.refl _).wr.wr.retrainPorts

/-- A command that answers a next state with what every command keeps. -/
def Ends (s0 : State) (o : Host.Outcome State Fault Refusal) : Prop := ∃ t, o = .next t ∧ s0.After t

theorem Ends.next {s0 t : State} (h : s0.After t) : Ends s0 (.next t) := ⟨t, rfl, h⟩

theorem Completes.ends {o : Host.Outcome State Fault Refusal} (h : Completes s0 o) : Ends s0 o := by
  obtain ⟨t, e, ht⟩ := h
  exact ⟨t, e, ht.after⟩

theorem State.After.nextOf {k : State → Host.Outcome State Fault Refusal} (h : Ends s0 (k s)) : s0.After (nextOf s k) := by
  obtain ⟨t, e, ht⟩ := h
  rw [Machine.nextOf, e]
  exact ht

theorem execResetNLow_ends (h : s0.After s) : Ends s0 (execResetNLow s) := by
  unfold execResetNLow
  exact keeps_ite (Ends.next (h.resetNow.keeps (State.Keeps.refl _).upd)) (Ends.next h)

theorem execWarmRequest_ends {src : Source} {k : BitVec 16} (h : s0.After s) : Ends s0 (execWarmRequest src k s) := Ends.next h.requestReset

theorem execColdRequest_ends {src : Source} {k : BitVec 16} (h : s0.After s) : Ends s0 (execColdRequest src k s) := Ends.next h.requestReset

theorem execWarmReset_ends (h : s0.After s) : Ends s0 (execWarmReset s) := by
  unfold execWarmReset
  exact keeps_ite (Ends.next h.warmNow) (Ends.next h)

theorem execPwrGoodLow_ends (h : s0.After s) : Ends s0 (execPwrGoodLow s) := Ends.next (h.coldNow.keeps (State.Keeps.refl _).upd)

theorem execServiceResume_ends (hs : s0.Keeps s) : Ends s0 (execServiceResume s) := by
  unfold execServiceResume
  extract_lets _ s1 out s2
  have h1 : s0.Keeps s1 := hs.upd
  have h2 : s0.Keeps s2 := keeps_ite h1.bump.bump h1
  exact keeps_ite (Ends.next hs.after) (Ends.next ((State.After.dataPath h2.event).keeps (State.Keeps.refl _).resetRecord))

theorem execBeatMarker_ends {i : Island} (hs : s0.Keeps s) : Ends s0 (execBeatMarker i s) := by
  have hisl (n v : Nat) : s0.Keeps { s with time := { s.time with islBeat := s.time.islBeat.set n v } } := hs.updTime
  unfold execBeatMarker
  split
  · refine keeps_ite (keeps_ite (Ends.next hs.after.coldDue) (Ends.next ?_)) (keeps_ite (Ends.next hs.after) (Ends.next hs.after))
    have h1 : s0.After s.newBeat := hs.after
    exact h1.keeps s.keeps_boundary
  · refine keeps_ite (Ends.next hs.after) ?_
    split
    · exact Ends.next (hisl _ _).treeBeat.after
    · exact Ends.next (hisl _ _).after

/-- A basic command whose effect may start or reset the data path. -/
theorem State.basicCmd_ends {src : Source} {f : State → State} {mail : Bool} (hs : s0.Keeps s) (hf : ∀ t, s0.Keeps t → s0.After (f t)) :
    Ends s0 (s.basicCmd src f mail) := by
  unfold State.basicCmd
  exact keeps_ite (Ends.next (hf _ hs.wrote)) (Ends.next hs.after)

theorem execStart_ends {src : Source} (hs : s0.Keeps s) : Ends s0 (execStart src s) := by
  unfold execStart
  refine State.basicCmd_ends hs fun t ht => ?_
  extract_lets s1 n _ _ s2
  have h1 : s0.Keeps s1 := ht.auditCmd
  have h3 : s2.Keeps (s2.actNow.runActs.actNow.event Blk.DEV 0 0) := (State.Keeps.refl s2).actNow.runActs.actNow.event
  exact keeps_ite h1.after (h1.afterSet <| (State.After.dataPath h3).keeps (State.Keeps.refl _).resetRecord.actNow)

/-! ### The register pages -/
theorem State.After.devCtrl {src : Source} {v : Nat} (hs : s0.Keeps s) : s0.After (s.devCtrl src v) := by
  unfold State.devCtrl
  extract_lets key s1
  have h1 : s0.After s1 := keeps_ite (.nextOf (execStart_ends hs)) hs.after
  exact keeps_ite (.nextOf (execColdRequest_ends h1)) (keeps_ite (.nextOf (execWarmRequest_ends h1)) h1)

/-- A word that is not DEV.CTRL neither starts nor resets the data path. -/
theorem State.Keeps.cmdWord {src : Source} {block inst off v : Nat} (hs : s0.Keeps s) (h : ¬ (block = 1 ∧ off = 0x10)) :
    KeepsOpt s0 (s.cmdWord src block inst off v) := by
  unfold State.cmdWord
  extract_lets _ _ _ _ s5 s6
  have h5 : s0.Keeps s5 := keeps_ite hs (nextOf_keeps hs (fun _ h6 => execHalt_keeps h6))
  have h6 : s0.Keeps s6 := keeps_ite hs (nextOf_keeps hs (fun _ h7 => execHerdJoin_keeps h7))
  refine keeps_ite ?_ ?_
  · exact hs.run fun _ => execEventClear_keeps
  · refine keeps_ite ?_ ?_
    · exact hs.run fun _ => execEventMaskWrite_keeps
    · refine keeps_ite ?_ ?_
      · exact hs.run fun _ => execEventForce_keeps
      · split
        · exact absurd ⟨rfl, rfl⟩ h
        · exact keeps_ite (hs.run fun _ => execLock_keeps) KeepsOpt.none
        · exact hs.run fun _ => execExpertKey_keeps
        · exact keeps_ite (hs.run fun _ => execVec0Force_keeps) KeepsOpt.none
        · exact keeps_ite (hs.run fun _ => execLedgerWrite_keeps) KeepsOpt.none
        · exact keeps_ite (hs.run fun _ => execFwGo_keeps) KeepsOpt.none
        · exact twoBits_keeps hs (fun _ h7 => execDbgGo_keeps h7) (fun _ h7 => execDbgRevoke_keeps h7)
        · exact keeps_ite (hs.run fun _ => execSetGo_keeps) KeepsOpt.none
        · exact hs.run fun _ => execFreqAdj_keeps
        · exact hs.run fun _ => execPhaseAdj_keeps
        · exact keeps_ite (hs.run fun _ => execCalWrite_keeps) KeepsOpt.none
        · exact keeps_ite (hs.run fun _ => execCalForce_keeps) KeepsOpt.none
        · exact hs.run fun _ => execVoltOvr_keeps
        · exact hs.run fun _ => execPlannerHold_keeps
        · exact hs.run fun _ => execAlertPendClear_keeps
        · exact keeps_ite (hs.run fun _ => execRetestGo_keeps) KeepsOpt.none
        · exact keeps_ite (KeepsOpt.some hs.rstGo) KeepsOpt.none
        · exact hs.run fun _ => execNoBreakAct_keeps
        · exact hs.run fun _ => execBreakInj_keeps
        · exact keeps_ite (hs.run fun _ => execSelectorArm_keeps) KeepsOpt.none
        · exact twoBits_keeps hs (fun _ h7 => execWArm_keeps h7) (fun _ h7 => execWDisarm_keeps h7)
        · exact twoBits_keeps hs (fun _ h7 => execDbgEnter_keeps h7) (fun _ h7 => execDbgLeave_keeps h7)
        · exact KeepsOpt.some (keeps_ite (nextOf_keeps h5 (fun _ h7 => execStepf_keeps h7)) h5)
        · exact hs.run fun _ => execPortCfgWrite_keeps
        · exact KeepsOpt.some hs.entWord
        · exact keeps_ite (twoBits_keeps hs (fun _ h7 => execRuleCommit_keeps h7) (fun _ h7 => execRuleAbort_keeps h7)) KeepsOpt.none
        · exact keeps_ite (keeps_ite (hs.run fun _ => execLoadGo_keeps) KeepsOpt.none) KeepsOpt.none
        · exact keeps_ite (hs.run fun _ => execFlowFlush_keeps) KeepsOpt.none
        · exact keeps_ite (hs.run fun _ => execFlowRead_keeps) (keeps_ite (hs.run fun _ => execFlowDelete_keeps) KeepsOpt.none)
        · exact twoBits_keeps hs (fun _ h7 => execRehashGo_keeps h7) (fun _ h7 => execRehashStop_keeps h7)
        · exact keeps_ite (hs.run fun _ => execLearnAddStatic_keeps)
            (keeps_ite (hs.run fun _ => execLearnDelete_keeps) (keeps_ite (hs.run fun _ => execLearnRead_keeps) KeepsOpt.none))
        · exact keeps_ite (hs.run fun _ => execFragFlush_keeps) KeepsOpt.none
        · exact hs.run fun _ => execRestoreCtx_keeps
        · exact hs.run fun _ => execLanePassSet_keeps
        · exact keeps_ite (hs.run fun _ => execForceSafe_keeps) KeepsOpt.none
        · exact keeps_ite (hs.run fun _ => execVerdPatchGo_keeps) KeepsOpt.none
        · exact hs.run fun _ => execQTokensSet_keeps
        · exact keeps_ite (hs.run fun _ => execTokGo_keeps) KeepsOpt.none
        · exact keeps_ite (hs.run fun _ => execEccInj_keeps) KeepsOpt.none
        · exact hs.run fun _ => execHlinkEnable_keeps
        · exact KeepsOpt.some (keeps_ite (nextOf_keeps h6 (fun _ h7 => execHerdLeave_keeps h7)) h6)
        · exact twoBits_keeps hs (fun _ h7 => execStopRequest_keeps h7) (fun _ h7 => execResumeRequest_keeps h7)
        · exact hs.ctxWord
        · exact keeps_ite (hs.run fun _ => execForceRetire_keeps) KeepsOpt.none
        · exact hs.run fun _ => execTreeWdReq_keeps
        · exact hs.run fun _ => execArrayWdReq_keeps
        · exact keeps_ite (hs.run fun _ => execInjArm_keeps) KeepsOpt.none
        · exact keeps_ite (hs.run fun _ => execFlockPatchGo_keeps) KeepsOpt.none
        · exact keeps_ite (hs.run fun _ => execSyncSetGo_keeps) KeepsOpt.none
        · exact keeps_ite (hs.run fun _ => execUaccDescriptorWrite_keeps) KeepsOpt.none

theorem State.cmdWord_devCtrl {s t : State} {src : Source} {inst v : Nat} (e : s.cmdWord src 1 inst 0x10 v = some t) : t = s.devCtrl src v := by
  have h : (if bits v 0 3 = 0 then none else some (s.devCtrl src v)) = some t := e
  split at h
  · cases h
  · exact (Option.some.inj h).symm

theorem State.Keeps.writeWord {src : Source} {block inst off v : Nat} (hs : s0.Keeps s) (h : ¬ (block = 1 ∧ off = 0x10)) :
    s0.Keeps (s.writeWord src block inst off v) := by
  unfold State.writeWord
  split
  · rename_i e
    exact hs.cmdWord h _ e
  · exact hs.plainWrite

theorem State.After.writeWord {src : Source} {block inst off v : Nat} (hs : s0.Keeps s) : s0.After (s.writeWord src block inst off v) := by
  by_cases h : block = 1 ∧ off = 0x10
  · obtain ⟨rfl, rfl⟩ := h
    unfold State.writeWord
    split
    · rename_i e
      exact State.cmdWord_devCtrl e ▸ State.After.devCtrl hs
    · exact hs.plainWrite.after
  · exact (hs.writeWord h).after

/-- Of the two words of a 64-bit write at most one is DEV.CTRL. -/
theorem State.After.writeDword {src : Source} {block inst off v : Nat} (hs : s0.Keeps s) : s0.After (s.writeDword src block inst off v) := by
  unfold State.writeDword
  split
  · rename_i e
    exact (hs.cmdWide _ e).after
  · refine keeps_ite hs.plainWrite.after ?_
    by_cases h : block = 1 ∧ off = 0x10
    · exact (State.After.writeWord hs).keeps ((State.Keeps.refl _).writeWord (by omega))
    · exact State.After.writeWord (hs.writeWord h)

theorem State.After.pageWrite {src : Source} {block inst off size v : Nat} (hs : s0.Keeps s) :
    s0.After (s.pageWrite src block inst off size v) := by
  unfold State.pageWrite
  refine keeps_ite hs.after (keeps_ite (keeps_ite (.devCtrl hs) hs.after) (keeps_ite (.writeDword hs) (keeps_ite (.writeWord hs) (keeps_ite ?_ ?_))))
  · exact hs.holdLow.after
  · exact State.After.writeDword hs

theorem State.After.access {src : Source} {a : RegAccess} (hs : s0.Keeps s) : s0.After (s.access src a) := by
  unfold State.access
  extract_lets s1
  have h1 : s0.Keeps s1 := keeps_ite hs.bump hs
  refine keeps_ite (keeps_ite hs.after hs.readData.after) ?_
  split
  · exact keeps_ite h1.after h1.readData.after
  · exact keeps_ite (keeps_ite h1.after (.pageWrite h1)) (keeps_ite h1.readData.after h1.pageRead.after)

theorem execRegisterWrite_ends {src : Source} {a : RegAccess} (hs : s0.Keeps s) (ha : a.addr < (if a.bar4 then 2 ^ 18 else 2 ^ 26)) :
    Ends s0 (execRegisterWrite src a s) := by
  unfold execRegisterWrite
  split
  · rename_i hb
    rw [if_pos hb] at ha
    rw [if_neg (Nat.not_le.mpr ha)]
    exact keeps_ite (Ends.next hs.bar4Access.after) (Ends.next hs.after)
  · rename_i hb
    rw [if_neg hb] at ha
    rw [if_neg (Nat.not_le.mpr ha)]
    exact Ends.next (.access hs)

theorem execLowHalfRead_ends {src : Source} {a : Nat} (hs : s0.Keeps s) (ha : a < 2 ^ 26) : Ends s0 (execLowHalfRead src a s) := by
  unfold execLowHalfRead
  rw [if_neg (Nat.not_le.mpr ha)]
  exact Ends.next (.access hs)

/-! ### Every command -/

/-- The command reaches an address of the device (R281, R372). -/
def InReach : Instr → Prop
  | .hostRead a n _ => a + n ≤ 2 ^ 40
  | .hostWrite a d _ => a + d.length ≤ 2 ^ 40
  | .registerWrite _ a => a.addr < (if a.bar4 then 2 ^ 18 else 2 ^ 26)
  | .lowHalfRead _ a => a < 2 ^ 26
  | _ => True

theorem exec_ends {c : Instr} (hs : s0.Keeps s) (hb : InReach c) : Ends s0 (exec c s) := by
  cases c with
  | beatMarker _ => exact execBeatMarker_ends hs
  | beatMiss _ => exact (execBeatMiss_keeps hs).ends
  | missWithdraw _ => exact (execMissWithdraw_keeps hs).ends
  | pllLockLoss => exact (execPllLockLoss_keeps hs).ends
  | frameStart _ _ _ => exact (execFrameStart_keeps hs).ends
  | packetAccept _ _ => exact (execPacketAccept_keeps hs).ends
  | frameEnd _ => exact (execFrameEnd_keeps hs).ends
  | fcsResult _ _ => exact (execFcsResult_keeps hs).ends
  | pauseFrame _ _ _ => exact (execPauseFrame_keeps hs).ends
  | pauseExpire _ _ => exact (execPauseExpire_keeps hs).ends
  | ethLinkUp _ => exact (execEthLinkUp_keeps hs).ends
  | ethLinkDown _ => exact (execEthLinkDown_keeps hs).ends
  | portCfgWrite _ _ _ => exact (execPortCfgWrite_keeps hs).ends
  | ruleSearch _ _ => exact (execRuleSearch_keeps hs).ends
  | tcamScrub _ _ _ _ => exact (execTcamScrub_keeps hs).ends
  | fragEntryFree _ _ => exact (execFragEntryFree_keeps hs).ends
  | fragFlush _ => exact (execFragFlush_keeps hs).ends
  | flowLookup _ _ _ => exact (execFlowLookup_keeps hs).ends
  | victimWriteback _ => exact (execVictimWriteback_keeps hs).ends
  | flowAgeSweep _ => exact (execFlowAgeSweep_keeps hs).ends
  | endpointSearch _ _ => exact (execEndpointSearch_keeps hs).ends
  | endpointAgeing _ => exact (execEndpointAgeing_keeps hs).ends
  | learnAddStatic _ => exact (execLearnAddStatic_keeps hs).ends
  | learnDelete _ => exact (execLearnDelete_keeps hs).ends
  | learnRead _ => exact (execLearnRead_keeps hs).ends
  | updatePass => exact (execUpdatePass_keeps hs).ends
  | flowRecordWrite => exact (execFlowRecordWrite_keeps hs).ends
  | flowResult => exact (execFlowResult_keeps hs).ends
  | flowInvocationEnd _ _ => exact (execFlowInvocationEnd_keeps hs).ends
  | flowFlush _ => exact (execFlowFlush_keeps hs).ends
  | flowRead _ => exact (execFlowRead_keeps hs).ends
  | flowDelete _ => exact (execFlowDelete_keeps hs).ends
  | uaccDescriptorWrite _ _ _ _ _ => exact (execUaccDescriptorWrite_keeps hs).ends
  | featureProgram _ _ => exact (execFeatureProgram_keeps hs).ends
  | nop _ => exact (execNop_keeps hs).ends
  | ld _ _ => exact (execLd_keeps hs).ends
  | movi _ _ _ => exact (execMovi_keeps hs).ends
  | lui _ _ _ => exact (execLui_keeps hs).ends
  | add _ _ _ _ => exact (execAdd_keeps hs).ends
  | sub _ _ _ _ => exact (execSub_keeps hs).ends
  | mul _ _ _ _ => exact (execMul_keeps hs).ends
  | and _ _ _ _ => exact (execAnd_keeps hs).ends
  | or _ _ _ _ => exact (execOr_keeps hs).ends
  | xor _ _ _ _ => exact (execXor_keeps hs).ends
  | shl _ _ _ _ => exact (execShl_keeps hs).ends
  | shr _ _ _ _ => exact (execShr_keeps hs).ends
  | min _ _ _ _ => exact (execMin_keeps hs).ends
  | max _ _ _ _ => exact (execMax_keeps hs).ends
  | slt _ _ _ _ => exact (execSlt_keeps hs).ends
  | lut _ _ _ _ => exact (execLut_keeps hs).ends
  | log2 _ _ _ => exact (execLog2_keeps hs).ends
  | bz _ _ _ => exact (execBz_keeps hs).ends
  | bnz _ _ _ => exact (execBnz_keeps hs).ends
  | babs _ _ => exact (execBabs_keeps hs).ends
  | out _ _ _ => exact (execOut_keeps hs).ends
  | hout _ _ _ => exact (execHout_keeps hs).ends
  | setf _ _ _ => exact (execSetf_keeps hs).ends
  | endp _ => exact (execEndp_keeps hs).ends
  | featureCoreReload _ => exact (execFeatureCoreReload_keeps hs).ends
  | vectorAssemble _ _ => exact (execVectorAssemble_keeps hs).ends
  | vectorHandover _ => exact (execVectorHandover_keeps hs).ends
  | vectorCross _ _ => exact (execVectorCross_keeps hs).ends
  | historyWrite _ => exact (execHistoryWrite_keeps hs).ends
  | treeIssue _ _ _ _ => exact (execTreeIssue_keeps hs).ends
  | partialAdd _ _ => exact (execPartialAdd_keeps hs).ends
  | treeReload _ _ => exact (execTreeReload_keeps hs).ends
  | gather _ => exact (execGather_keeps hs).ends
  | outputConversion _ _ _ => exact (execOutputConversion_keeps hs).ends
  | dieGather _ _ => exact (execDieGather_keeps hs).ends
  | treeWdReq _ _ _ => exact (execTreeWdReq_keeps hs).ends
  | treeOff _ _ _ => exact (execTreeOff_keeps hs).ends
  | beatProgramStart _ => exact (execBeatProgramStart_keeps hs).ends
  | coreNop _ => exact (execCoreNop_keeps hs).ends
  | loadh _ _ => exact (execLoadh_keeps hs).ends
  | heldWrite _ _ _ => exact (execHeldWrite_keeps hs).ends
  | stream _ _ _ => exact (execStream_keeps hs).ends
  | tileDrain _ _ _ => exact (execTileDrain_keeps hs).ends
  | statRecordWrite _ _ => exact (execStatRecordWrite_keeps hs).ends
  | arrayReload _ => exact (execArrayReload_keeps hs).ends
  | form _ _ => exact (execForm_keeps hs).ends
  | ret _ _ _ => exact (execRet_keeps hs).ends
  | copy _ _ _ => exact (execCopy_keeps hs).ends
  | syncp _ _ _ => exact (execSyncp_keeps hs).ends
  | syncPostEffect _ => exact (execSyncPostEffect_keeps hs).ends
  | syncw _ _ _ => exact (execSyncw_keeps hs).ends
  | syncwSatisfied _ => exact (execSyncwSatisfied_keeps hs).ends
  | beatProgramEnd _ => exact (execBeatProgramEnd_keeps hs).ends
  | arrayWdReq _ _ _ => exact (execArrayWdReq_keeps hs).ends
  | arrayOff _ _ _ => exact (execArrayOff_keeps hs).ends
  | injArm _ _ _ _ _ => exact (execInjArm_keeps hs).ends
  | afRead src _ => exact (execAfRead_keeps (src := src) hs).ends
  | flockPatchGo _ _ => exact (execFlockPatchGo_keeps hs).ends
  | returnDeadline _ => exact (execReturnDeadline_keeps hs).ends
  | verdictForm _ _ => exact (execVerdictForm_keeps hs).ends
  | verdictApply _ _ => exact (execVerdictApply_keeps hs).ends
  | cutThroughStart _ => exact (execCutThroughStart_keeps hs).ends
  | schedulerPick _ _ => exact (execSchedulerPick_keeps hs).ends
  | transmitComplete _ _ => exact (execTransmitComplete_keeps hs).ends
  | shaperRefill => exact (execShaperRefill_keeps hs).ends
  | contextDown _ => exact (execContextDown_keeps hs).ends
  | restoreCtx _ _ => exact (execRestoreCtx_keeps hs).ends
  | lanePassEntry _ => exact (execLanePassEntry_keeps hs).ends
  | flockWithdraw _ => exact (execFlockWithdraw_keeps hs).ends
  | deviceSafeEntry _ => exact (execDeviceSafeEntry_keeps hs).ends
  | lanePassSet _ _ => exact (execLanePassSet_keeps hs).ends
  | forceSafe _ => exact (execForceSafe_keeps hs).ends
  | verdPatchGo _ => exact (execVerdPatchGo_keeps hs).ends
  | ruleCommit _ => exact (execRuleCommit_keeps hs).ends
  | ruleCheckEnd => exact (execRuleCheckEnd_keeps hs).ends
  | ruleAbort _ => exact (execRuleAbort_keeps hs).ends
  | ruleVersionSwitch => exact (execRuleVersionSwitch_keeps hs).ends
  | ruleRetire => exact (execRuleRetire_keeps hs).ends
  | ruleSlotCopyEnd => exact (execRuleSlotCopyEnd_keeps hs).ends
  | entWrite _ _ => exact (execEntWrite_keeps hs).ends
  | entSetStaged _ _ => exact (execEntSetStaged_keeps hs).ends
  | entClearStaged _ _ => exact (execEntClearStaged_keeps hs).ends
  | entRead _ _ => exact (execEntRead_keeps hs).ends
  | entRepair _ _ => exact (execEntRepair_keeps hs).ends
  | entCmdEnd _ => exact (execEntCmdEnd_keeps hs).ends
  | loadGo _ => exact (execLoadGo_keeps hs).ends
  | tcamLoadRecord => exact (execTcamLoadRecord_keeps hs).ends
  | load _ => exact (execLoad_keeps hs).ends
  | contextCheckEnd _ => exact (execContextCheckEnd_keeps hs).ends
  | contextStagingEnd _ => exact (execContextStagingEnd_keeps hs).ends
  | commit _ _ => exact (execCommit_keeps hs).ends
  | commitCheckEnd _ => exact (execCommitCheckEnd_keeps hs).ends
  | abort _ => exact (execAbort_keeps hs).ends
  | discard _ => exact (execDiscard_keeps hs).ends
  | unload _ => exact (execUnload_keeps hs).ends
  | loadLayout _ => exact (execLoadLayout_keeps hs).ends
  | commitLayout _ _ => exact (execCommitLayout_keeps hs).ends
  | contextVersionSwitch _ => exact (execContextVersionSwitch_keeps hs).ends
  | versionPartSwitch _ _ => exact (execVersionPartSwitch_keeps hs).ends
  | contextRetire _ => exact (execContextRetire_keeps hs).ends
  | contextRetireEnd _ => exact (execContextRetireEnd_keeps hs).ends
  | flowDrainExpire _ => exact (execFlowDrainExpire_keeps hs).ends
  | forceRetire _ => exact (execForceRetire_keeps hs).ends
  | shadowStatistics _ _ _ _ _ _ => exact (execShadowStatistics_keeps hs).ends
  | shadowWindowEnd _ _ => exact (execShadowWindowEnd_keeps hs).ends
  | aggregateWindow => exact (execAggregateWindow_keeps hs).ends
  | setGo _ => exact (execSetGo_keeps hs).ends
  | freqAdj _ _ => exact (execFreqAdj_keeps hs).ends
  | phaseAdj _ _ => exact (execPhaseAdj_keeps hs).ends
  | phaseSlewEnd => exact (execPhaseSlewEnd_keeps hs).ends
  | timeBeatRead src => exact (execTimeBeatRead_keeps (src := src) hs).ends
  | ppsIn => exact (execPpsIn_keeps hs).ends
  | ppsOutRise => exact (execPpsOutRise_keeps hs).ends
  | ppsOutFall => exact (execPpsOutFall_keeps hs).ends
  | tsFifoPop src _ _ => exact (execTsFifoPop_keeps (_src := src) hs).ends
  | hlinkEnable _ _ _ => exact (execHlinkEnable_keeps hs).ends
  | hlinkTrained _ _ => exact (execHlinkTrained_keeps hs).ends
  | trainFail _ => exact (execTrainFail_keeps hs).ends
  | flitReceive _ _ => exact (execFlitReceive_keeps hs).ends
  | marker _ m _ => exact (execMarker_keeps (_m := m) hs).ends
  | hello _ m _ => exact (execHello_keeps (_m := m) hs).ends
  | join _ _ _ => exact (execJoin_keeps hs).ends
  | vtable _ _ _ _ _ => exact (execVtable_keeps hs).ends
  | ready _ _ _ => exact (execReady_keeps hs).ends
  | herdAdmit _ _ _ => exact (execHerdAdmit_keeps hs).ends
  | depart _ _ _ _ => exact (execDepart_keeps hs).ends
  | candidate _ m _ _ => exact (execCandidate_keeps (_m := m) hs).ends
  | vote _ _ _ _ => exact (execVote_keeps hs).ends
  | creq _ _ _ _ _ => exact (execCreq_keeps hs).ends
  | order _ _ _ _ _ _ => exact (execOrder_keeps hs).ends
  | ack _ _ _ _ => exact (execAck_keeps hs).ends
  | stop _ _ _ _ _ _ => exact (execStop_keeps hs).ends
  | red _ _ _ _ _ _ _ _ _ => exact (execRed_keeps hs).ends
  | rd _ _ _ _ _ => exact (execRd_keeps hs).ends
  | wr _ _ _ _ _ => exact (execWr_keeps hs).ends
  | hget _ _ _ _ => exact (execHget_keeps hs).ends
  | hadd _ _ _ _ _ => exact (execHadd_keeps hs).ends
  | rdr _ _ _ _ => exact (execRdr_keeps hs).ends
  | wra _ _ _ _ => exact (execWra_keeps hs).ends
  | hrep _ _ _ _ _ => exact (execHrep_keeps hs).ends
  | remoteRequestApply => exact (execRemoteRequestApply_keeps hs).ends
  | herdJoin _ _ => exact (execHerdJoin_keeps hs).ends
  | joinLocked => exact (execJoinLocked_keeps hs).ends
  | admission => exact (execAdmission_keeps hs).ends
  | herdLeave _ => exact (execHerdLeave_keeps hs).ends
  | departure => exact (execDeparture_keeps hs).ends
  | lockLost => exact (execLockLost_keeps hs).ends
  | markerTimeout _ => exact (execMarkerTimeout_keeps hs).ends
  | electionStart => exact (execElectionStart_keeps hs).ends
  | electionVote => exact (execElectionVote_keeps hs).ends
  | electionResult => exact (execElectionResult_keeps hs).ends
  | bellwetherTakeOffice => exact (execBellwetherTakeOffice_keeps hs).ends
  | electionFail => exact (execElectionFail_keeps hs).ends
  | reductionStart _ => exact (execReductionStart_keeps hs).ends
  | reductionDeadline _ => exact (execReductionDeadline_keeps hs).ends
  | stopRequest _ => exact (execStopRequest_keeps hs).ends
  | resumeRequest _ => exact (execResumeRequest_keeps hs).ends
  | stopTakeEffect => exact (execStopTakeEffect_keeps hs).ends
  | stopCut => exact (execStopCut_keeps hs).ends
  | resumeTakeEffect => exact (execResumeTakeEffect_keeps hs).ends
  | syncSetGo _ _ => exact (execSyncSetGo_keeps hs).ends
  | hqProduce _ => exact (execHqProduce_keeps hs).ends
  | hqEnable _ _ => exact (execHqEnable_keeps hs).ends
  | hqConsWrite _ _ _ => exact (execHqConsWrite_keeps hs).ends
  | hqIrqRepeat _ => exact (execHqIrqRepeat_keeps hs).ends
  | injProdWrite _ _ => exact (execInjProdWrite_keeps hs).ends
  | injDescriptor => exact (execInjDescriptor_keeps hs).ends
  | qTokensSet _ _ => exact (execQTokensSet_keeps hs).ends
  | tokGo _ => exact (execTokGo_keeps hs).ends
  | hostRead _ _ _ => exact (execHostRead_keeps hs hb).ends
  | hostWrite _ _ _ => exact (execHostWrite_keeps hs hb).ends
  | cxlLinkTrain _ => exact (execCxlLinkTrain_keeps hs).ends
  | hdmDecoderCommit _ => exact (execHdmDecoderCommit_keeps hs).ends
  | hostLoss => exact (execHostLoss_keeps hs).ends
  | hostReturn => exact (execHostReturn_keeps hs).ends
  | perstN => exact (execPerstN_keeps hs).ends
  | ideFail _ => exact (execIdeFail_keeps hs).ends
  | ideKm _ _ => exact (execIdeKm_keeps hs).ends
  | cdat _ => exact (execCdat_keeps hs).ends
  | challenge _ _ => exact (execChallenge_keeps hs).ends
  | measurements _ _ _ => exact (execMeasurements_keeps hs).ends
  | keyExchange _ _ _ => exact (execKeyExchange_keeps hs).ends
  | msixSend _ => exact (execMsixSend_keeps hs).ends
  | jobProdWrite _ _ => exact (execJobProdWrite_keeps hs).ends
  | jobAccept => exact (execJobAccept_keeps hs).ends
  | jobComplete _ _ => exact (execJobComplete_keeps hs).ends
  | ledgerBreak _ _ _ _ _ => exact (execLedgerBreak_keeps hs).ends
  | stateCompare => exact (execStateCompare_keeps hs).ends
  | stateDispute _ _ => exact (execStateDispute_keeps hs).ends
  | dmcHeartbeatLoss => exact (execDmcHeartbeatLoss_keeps hs).ends
  | hbmWriteback _ _ => exact (execHbmWriteback_keeps hs).ends
  | hbmScrub _ _ _ => exact (execHbmScrub_keeps hs).ends
  | hbmUe _ _ => exact (execHbmUe_keeps hs).ends
  | faultRecord _ _ _ _ _ _ _ _ _ => exact (execFaultRecord_keeps hs).ends
  | alertPendClear _ _ => exact (execAlertPendClear_keeps hs).ends
  | retestGo _ => exact (execRetestGo_keeps hs).ends
  | retestEnd _ => exact (execRetestEnd_keeps hs).ends
  | laneReset _ _ => exact (execLaneReset_keeps hs).ends
  | laneResetDrained _ => exact (execLaneResetDrained_keeps hs).ends
  | flockReset _ _ _ => exact (execFlockReset_keeps hs).ends
  | noBreakAct _ _ => exact (execNoBreakAct_keeps hs).ends
  | breakInj _ _ => exact (execBreakInj_keeps hs).ends
  | eccInj _ _ => exact (execEccInj_keeps hs).ends
  | rehashGo _ => exact (execRehashGo_keeps hs).ends
  | rehashStep => exact (execRehashStep_keeps hs).ends
  | rehashStop _ => exact (execRehashStop_keeps hs).ends
  | availabilitySave => exact (execAvailabilitySave_keeps hs).ends
  | resetNLow => exact execResetNLow_ends hs.after
  | warmRequest _ _ => exact execWarmRequest_ends hs.after
  | coldRequest _ _ => exact execColdRequest_ends hs.after
  | warmReset => exact execWarmReset_ends hs.after
  | revalidation => exact (execRevalidation_keeps hs).ends
  | serviceResume => exact execServiceResume_ends hs
  | pwrGoodLow => exact execPwrGoodLow_ends hs.after
  | pwrGoodRise _ _ _ => exact (execPwrGoodRise_keeps hs).ends
  | stageFirmware => exact (execStageFirmware_keeps hs).ends
  | stageCapability _ => exact (execStageCapability_keeps hs).ends
  | stageReady => exact (execStageReady_keeps hs).ends
  | bootFail => exact (execBootFail_keeps hs).ends
  | recoveryImage _ => exact (execRecoveryImage_keeps hs).ends
  | start _ => exact execStart_ends hs
  | fwGo _ => exact (execFwGo_keeps hs).ends
  | fwWriteEnd => exact (execFwWriteEnd_keeps hs).ends
  | ledgerWrite _ => exact (execLedgerWrite_keeps hs).ends
  | ledgerWriteEnd _ => exact (execLedgerWriteEnd_keeps hs).ends
  | dbgGo _ => exact (execDbgGo_keeps hs).ends
  | dbgRevoke _ => exact (execDbgRevoke_keeps hs).ends
  | tokenExpiry => exact (execTokenExpiry_keeps hs).ends
  | jtagMailbox _ _ => exact (execJtagMailbox_keeps hs).ends
  | calWrite _ => exact (execCalWrite_keeps hs).ends
  | calForce _ => exact (execCalForce_keeps hs).ends
  | calWriteEnd _ => exact (execCalWriteEnd_keeps hs).ends
  | adaptStep _ _ _ => exact (execAdaptStep_keeps hs).ends
  | eyeUpdate _ _ _ _ => exact (execEyeUpdate_keeps hs).ends
  | sensorReading _ _ _ _ _ => exact (execSensorReading_keeps hs).ends
  | forecast => exact (execForecast_keeps hs).ends
  | voltOvr _ _ _ => exact (execVoltOvr_keeps hs).ends
  | plannerHold _ _ => exact (execPlannerHold_keeps hs).ends
  | envCritical _ => exact (execEnvCritical_keeps hs).ends
  | railExcursion _ => exact (execRailExcursion_keeps hs).ends
  | refclkFault _ => exact (execRefclkFault_keeps hs).ends
  | thermtrip => exact (execThermtrip_keeps hs).ends
  | sample => exact (execSample_keeps hs).ends
  | selectorArm _ => exact (execSelectorArm_keeps hs).ends
  | wArm _ => exact (execWArm_keeps hs).ends
  | wDisarm _ => exact (execWDisarm_keeps hs).ends
  | observationWrite => exact (execObservationWrite_keeps hs).ends
  | dbgEnter _ => exact (execDbgEnter_keeps hs).ends
  | dbgLeave _ => exact (execDbgLeave_keeps hs).ends
  | halt _ _ => exact (execHalt_keeps hs).ends
  | stepf _ => exact (execStepf_keeps hs).ends
  | memDataWrite _ _ _ => exact (execMemDataWrite_keeps hs).ends
  | expertKey _ _ => exact (execExpertKey_keeps hs).ends
  | lock _ => exact (execLock_keeps hs).ends
  | vec0Force _ => exact (execVec0Force_keeps hs).ends
  | eventClear _ _ _ _ => exact (execEventClear_keeps hs).ends
  | eventForce _ _ _ => exact (execEventForce_keeps hs).ends
  | eventMaskWrite _ _ _ => exact (execEventMaskWrite_keeps hs).ends
  | registerWrite _ _ => exact execRegisterWrite_ends hs hb
  | hlinkLockLoss _ => exact (execHlinkLockLoss_keeps hs).ends
  | resetNRelease => exact (execResetNRelease_keeps hs).ends
  | msixUnmask _ => exact (execMsixUnmask_keeps hs).ends
  | configRequest _ _ _ => exact (execConfigRequest_keeps hs).ends
  | lowHalfRead _ _ => exact execLowHalfRead_ends hs hb
  | getCertificate _ _ _ => exact (execGetCertificate_keeps hs).ends
  | doeDiscovery _ _ => exact (execDoeDiscovery_keeps hs).ends

theorem inReach_of_exec_next {s t : State} {c : Instr} (e : exec c s = .next t) : InReach c := by
  cases c with
  | hostRead a n apt =>
    by_contra h
    rw [show exec (.hostRead a n apt) s = .fault (.noDeviceAddress a) from if_pos (Nat.lt_of_not_le h)] at e
    cases e
  | hostWrite a d ok =>
    by_contra h
    rw [show exec (.hostWrite a d ok) s = .fault (.noDeviceAddress a) from if_pos (Nat.lt_of_not_le h)] at e
    cases e
  | registerWrite src a =>
    by_contra h
    have hf : exec (.registerWrite src a) s = .fault (.noBarAddress a.addr) := by
      change execRegisterWrite src a s = _
      have h : ¬ a.addr < (if a.bar4 then 2 ^ 18 else 2 ^ 26) := h
      unfold execRegisterWrite
      split
      · rename_i hb
        rw [if_pos hb] at h
        exact if_pos (Nat.le_of_not_lt h)
      · rename_i hb
        rw [if_neg hb] at h
        exact if_pos (Nat.le_of_not_lt h)
    rw [hf] at e
    cases e
  | lowHalfRead src a =>
    by_contra h
    rw [show exec (.lowHalfRead src a) s = .fault (.noBarAddress a) from if_pos (Nat.le_of_not_lt h)] at e
    cases e
  | _ => trivial

theorem exec_after {s t : State} {c : Instr} (e : exec c s = .next t) : s.After t := by
  obtain ⟨u, e', h⟩ := exec_ends (State.Keeps.refl s) (inReach_of_exec_next e)
  rw [e] at e'
  cases e'
  exact h

theorem step_after {s t : State} (e : step s = .next t) : State.After { s with pending := s.pending.tail } t := by
  unfold step at e
  split at e
  · rename_i hp
    cases e
    have ht : s.Keeps (tick s) := by
      unfold tick
      exact keeps_ite (State.Keeps.refl s).updTime.captureCycle (State.Keeps.refl s)
    obtain ⟨h1, h2⟩ := ht.after
    exact ⟨by rw [h1, hp]; rfl, h2⟩
  · rename_i hp
    have h := exec_after e
    rw [hp]
    exact h

/-! ### The obligations -/

/-- Settles O50: every command ends in a next state unless its address is out of reach. -/
theorem everyCommandCompletes : Obligations.EveryCommandCompletes := by
  unfold Obligations.EveryCommandCompletes
  intro c s hr hw hrw hl
  have hb : InReach c := by
    cases c with
    | hostRead a n apt => exact hr a n apt rfl
    | hostWrite a d ok => exact hw a d ok rfl
    | registerWrite src a => exact hrw src a rfl
    | lowHalfRead src a => exact hl src a rfl
    | _ => trivial
  obtain ⟨t, e, _⟩ := exec_ends (State.Keeps.refl s) hb
  exact ⟨t, e⟩

/-- Settles O52, by what every command keeps. -/
theorem unlockedOnlyUnderToken : Obligations.UnlockedOnlyUnderToken := by
  unfold Obligations.UnlockedOnlyUnderToken
  intro s t h e
  obtain ⟨_, _, ha, _⟩ := step_after e
  exact ha h

/-- Settles O54, by what every command keeps. -/
theorem memoryStaysCanonical : Obligations.MemoryStaysCanonical := by
  unfold Obligations.MemoryStaysCanonical
  intro s t h e
  obtain ⟨_, hm, _, _⟩ := step_after e
  exact hm h

/-- Settles O55: no command touches the queue. -/
theorem queueIsTakenInOrder : Obligations.QueueIsTakenInOrder := by
  unfold Obligations.QueueIsTakenInOrder
  refine ⟨fun c s t e => ?_, fun s t e => ?_⟩
  · obtain ⟨hp, _, _, _⟩ := exec_after e
    exact hp
  · obtain ⟨hp, _, _, _⟩ := step_after e
    exact hp

/-- Settles O56: a command that leaves the safe state is a reset, which stops the data path. -/
theorem safeStateEndsOnlyByReset : Obligations.SafeStateEndsOnlyByReset := by
  unfold Obligations.SafeStateEndsOnlyByReset
  intro s t h e hr
  obtain ⟨_, _, _, hs⟩ := step_after e
  exact hs h hr

end Sys2Proof.Machine
end

section
/-! PROOF. Frames: what each of the frame terms of Safety.lean says field by field, and how frames compose. -/

namespace Sys2Proof.Machine

-- One thread for the proofs, which bounds the memory that checking them takes.
set_option Elab.async false

open Sys2Proof

variable {s t u : State}

/-! ### Field by field -/

theorem State.eq_iff (t s : State) : t = s ↔
    t.pending = s.pending ∧ t.regs = s.regs ∧ t.acting = s.acting ∧ t.time = s.time ∧ t.rx = s.rx ∧ t.pkts = s.pkts ∧ t.nextPkt = s.nextPkt ∧
    t.laneAcc = s.laneAcc ∧ t.cls = s.cls ∧ t.frag = s.frag ∧ t.flow = s.flow ∧ t.ep = s.ep ∧ t.fcores = s.fcores ∧ t.fsets = s.fsets ∧
    t.fhalf = s.fhalf ∧ t.tree = s.tree ∧ t.arr = s.arr ∧ t.ctxs = s.ctxs ∧ t.layout = s.layout ∧ t.eg = s.eg ∧ t.rxTs = s.rxTs ∧ t.txTs = s.txTs ∧
    t.hq = s.hq ∧ t.obs = s.obs ∧ t.watches = s.watches ∧ t.host = s.host ∧ t.hbm = s.hbm ∧ t.lanes = s.lanes ∧ t.flocks = s.flocks ∧ t.flt = s.flt ∧
    t.sec = s.sec ∧ t.auth = s.auth ∧ t.cal = s.cal ∧ t.hl = s.hl ∧ t.herd = s.herd ∧ t.acts = s.acts ∧ t.devSafe = s.devSafe ∧
    t.globals = s.globals ∧ t.free = s.free := by
  cases s
  cases t
  simp only [State.mk.injEq]

theorem State.reportsOnly_iff : s.ReportsOnly t ↔
    t.pending = s.pending ∧ t.acting = s.acting ∧ t.time = s.time ∧ t.rx = s.rx ∧ t.pkts = s.pkts ∧ t.nextPkt = s.nextPkt ∧ t.laneAcc = s.laneAcc ∧
    t.cls = s.cls ∧ t.frag = s.frag ∧ t.flow = s.flow ∧ t.ep = s.ep ∧ t.fcores = s.fcores ∧ t.fsets = s.fsets ∧ t.fhalf = s.fhalf ∧ t.tree = s.tree ∧
    t.arr = s.arr ∧ t.ctxs = s.ctxs ∧ t.layout = s.layout ∧ t.eg = s.eg ∧ t.rxTs = s.rxTs ∧ t.txTs = s.txTs ∧ t.obs = s.obs ∧ t.watches = s.watches ∧
    t.lanes = s.lanes ∧ t.flocks = s.flocks ∧ t.sec = s.sec ∧ t.auth = s.auth ∧ t.cal = s.cal ∧ t.hl = s.hl ∧ t.herd = s.herd ∧ t.acts = s.acts ∧
    t.devSafe = s.devSafe ∧ t.globals = s.globals ∧ t.free = s.free := by
  rw [State.ReportsOnly, State.eq_iff]
  simp only [true_and]

theorem State.writeOnly_iff : s.WriteOnly t ↔
    t.pending = s.pending ∧ t.acting = s.acting ∧ t.time = s.time ∧ t.rx = s.rx ∧ t.pkts = s.pkts ∧ t.nextPkt = s.nextPkt ∧ t.laneAcc = s.laneAcc ∧
    t.cls = s.cls ∧ t.frag = s.frag ∧ t.flow = s.flow ∧ t.ep = s.ep ∧ t.fcores = s.fcores ∧ t.fsets = s.fsets ∧ t.fhalf = s.fhalf ∧ t.tree = s.tree ∧
    t.arr = s.arr ∧ t.ctxs = s.ctxs ∧ t.layout = s.layout ∧ t.eg = s.eg ∧ t.rxTs = s.rxTs ∧ t.txTs = s.txTs ∧ t.obs = s.obs ∧ t.watches = s.watches ∧
    t.lanes = s.lanes ∧ t.flocks = s.flocks ∧ t.auth = s.auth ∧ t.cal = s.cal ∧ t.hl = s.hl ∧ t.herd = s.herd ∧ t.acts = s.acts ∧
    t.devSafe = s.devSafe ∧ t.globals = s.globals ∧ t.free = s.free := by
  rw [State.WriteOnly, State.eq_iff]
  simp only [true_and]

theorem State.writeLater_iff : s.WriteLater t ↔
    t.pending = s.pending ∧ t.acting = s.acting ∧ t.time = s.time ∧ t.rx = s.rx ∧ t.pkts = s.pkts ∧ t.nextPkt = s.nextPkt ∧ t.laneAcc = s.laneAcc ∧
    t.cls = s.cls ∧ t.frag = s.frag ∧ t.flow = s.flow ∧ t.ep = s.ep ∧ t.fcores = s.fcores ∧ t.fsets = s.fsets ∧ t.fhalf = s.fhalf ∧ t.tree = s.tree ∧
    t.arr = s.arr ∧ t.ctxs = s.ctxs ∧ t.layout = s.layout ∧ t.eg = s.eg ∧ t.rxTs = s.rxTs ∧ t.txTs = s.txTs ∧ t.obs = s.obs ∧ t.watches = s.watches ∧
    t.lanes = s.lanes ∧ t.flocks = s.flocks ∧ t.auth = s.auth ∧ t.cal = s.cal ∧ t.hl = s.hl ∧ t.herd = s.herd ∧ t.devSafe = s.devSafe ∧
    t.globals = s.globals ∧ t.free = s.free := by
  rw [State.WriteLater, State.eq_iff]
  simp only [true_and]

theorem State.ReportsOnly.refl (s : State) : s.ReportsOnly s := rfl

theorem State.WriteOnly.refl (s : State) : s.WriteOnly s := rfl

theorem State.WriteLater.refl (s : State) : s.WriteLater s := rfl

theorem State.ReportsOnly.trans (h : s.ReportsOnly t) (h' : t.ReportsOnly u) : s.ReportsOnly u := by
  rw [State.ReportsOnly] at h h' ⊢
  rw [h', h]

theorem State.WriteOnly.trans (h : s.WriteOnly t) (h' : t.WriteOnly u) : s.WriteOnly u := by
  rw [State.WriteOnly] at h h' ⊢
  rw [h', h]

theorem State.WriteLater.trans (h : s.WriteLater t) (h' : t.WriteLater u) : s.WriteLater u := by
  rw [State.WriteLater] at h h' ⊢
  rw [h', h]

theorem State.ReportsOnly.writeOnly (h : s.ReportsOnly t) : s.WriteOnly t := by
  rw [State.ReportsOnly] at h
  rw [State.WriteOnly, h]

theorem State.WriteOnly.writeLater (h : s.WriteOnly t) : s.WriteLater t := by
  rw [State.WriteOnly] at h
  rw [State.WriteLater, h]

/-! ### Commands that the source may give -/

theorem State.basicCmd_takes {src : Source} {mail : Bool} (k : State → State) (h : s.Takes src mail) : s.basicCmd src k mail = .next (k (s.wrote src)) :=
  s.basicCmd_next src k mail h.1 h.2

theorem State.expertCmd_takes {src : Source} (f : Field) (i n : Nat) (k : State → State) (h : s.TakesExpert src) :
    s.expertCmd src f i n k = .next (k ((s.wrote src).auditCmd src f i n 0)) :=
  s.expertCmd_next src f i n k h.1.1 h.1.2 h.2

/-! ### Waiting acts -/

@[simp] theorem State.later_acts (s : State) (a : Act) : (s.later a).acts = s.acts ++ [a] := rfl

@[simp] theorem State.rd_later (s : State) (a : Act) (g : Field) (i j k : Nat) : (s.later a).rd g i j k = s.rd g i j k := rfl

theorem State.rd_congr {s t : State} (h : t.regs = s.regs) (g : Field) (i j k : Nat) : t.rd g i j k = s.rd g i j k := by
  rw [State.rd, State.rd, h]

/-! ### Keys -/

/-- The number of a page's first byte, its instance apart. -/
theorem pageBase_eq (b i : Nat) : pageBase b i = pageBase b 0 + i * 4096 := by
  simp [pageBase]

theorem Field.key_eq (f : Field) (i j k : Nat) :
    f.key i j k = ((pageBase f.block 0 + i * 4096 + f.off + f.stride * j) * 64 + f.lo + f.bstride * j) * 65536 + k := by
  rw [Field.key, pageBase_eq]

/-- Two fields of a page that lie at different bits have different keys. -/
theorem Field.key_ne_of_bit {f g : Field} {i j j' k k' : Nat} (hb : g.block = f.block) (hk : k < 65536) (hk' : k' < 65536)
    (h : (g.off + g.stride * j') * 64 + g.lo + g.bstride * j' ≠ (f.off + f.stride * j) * 64 + f.lo + f.bstride * j) : g.key i j' k' ≠ f.key i j k := by
  rw [Field.key_eq, Field.key_eq, hb]
  omega

/-- A field keeps its value under a write of a field at another bit of its page. -/
theorem State.rd_wr_bit (s : State) {f g : Field} (v i j j' k k' : Nat) (hb : g.block = f.block) (hk : k < 65536) (hk' : k' < 65536)
    (h : (g.off + g.stride * j') * 64 + g.lo + g.bstride * j' ≠ (f.off + f.stride * j) * 64 + f.lo + f.bstride * j) :
    (s.wr f v i j k).rd g i j' k' = s.rd g i j' k' :=
  s.rd_wr_ne f g v i j k i j' k' (Field.key_ne_of_bit hb hk hk' h)

/-- A key whose byte is none of the reporting fields' is not a report's key. -/
theorem reportKey_eq_false {f : Field} {i j k : Nat} (hk : k < 65536) (hl : f.lo + f.bstride * j < 64) (ho : f.off + f.stride * j < 4096)
    (hc : f.off + f.stride * j ∉ [0x18, 0x24, 0x28]) (hp : pageBase f.block 0 + i * 4096 ≠ 258048)
    (hr : pageBase f.block 0 + i * 4096 + (f.off + f.stride * j) ∉ [Reg.LEDG.ALERT_PEND.key 0 0 0 / 4194304, Reg.SEC.AUDIT_SUPPRESSED.key 0 0 0 / 4194304]) :
    reportKey (f.key i j k) = false := by
  have hd : f.key i j k / 4194304 = pageBase f.block 0 + i * 4096 + (f.off + f.stride * j) := by
    rw [Field.key_eq]
    omega
  have hm : pageBase f.block 0 % 4096 = 0 := pageBase_mod f.block 0
  simp only [List.mem_cons, List.not_mem_nil, or_false, not_or] at hc hr
  obtain ⟨hc1, hc2, hc3⟩ := hc
  simp only [reportKey, hd, Bool.or_eq_false_iff, decide_eq_false_iff_not, List.mem_cons, List.not_mem_nil, or_false]
  refine ⟨⟨⟨?_, ?_⟩, fun h => hr.1 ?_⟩, fun h => hr.2 ?_⟩
  · omega
  · omega
  · rw [← hd, h]
  · rw [← hd, h]

/-- A counter after one more event. -/
@[simp] theorem State.rd_bump (s : State) (f : Field) (i j k : Nat) : (s.bump f i j k).rd f i j k = countUp f (s.rd f i j k) :=
  s.bump_counts f i j k

/-- A field keeps its value when a counter at another bit of its page counts. -/
theorem State.rd_bump_bit (s : State) {f g : Field} (i j j' k k' n : Nat) (hb : g.block = f.block) (hk : k < 65536) (hk' : k' < 65536)
    (h : (g.off + g.stride * j') * 64 + g.lo + g.bstride * j' ≠ (f.off + f.stride * j) * 64 + f.lo + f.bstride * j) :
    (s.bump f i j k n).rd g i j' k' = s.rd g i j' k' :=
  s.rd_wr_bit _ i j j' k k' hb hk hk' h

@[simp] theorem State.find_wr_self (s : State) (f : Field) (v i j k : Nat) :
    ((s.wr f v i j k).regs.find? (f.key i j k)).getD (f.resetAt j) = v % 2 ^ f.width :=
  s.rd_wr_self f v i j k

theorem State.find_wr_bit (s : State) {f g : Field} (v i j j' k k' : Nat) (hb : g.block = f.block) (hk : k < 65536) (hk' : k' < 65536)
    (h : (g.off + g.stride * j') * 64 + g.lo + g.bstride * j' ≠ (f.off + f.stride * j) * 64 + f.lo + f.bstride * j) :
    (s.wr f v i j k).regs.find? (g.key i j' k') = s.regs.find? (g.key i j' k') :=
  s.find_wr_ne f v i j k _ (Field.key_ne_of_bit hb hk hk' h)

theorem State.rd_audit (s : State) (r : AuditRec) (g : Field) (x y z : Nat) (h : reportKey (g.key x y z) = false) :
    (s.audit r).rd g x y z = s.rd g x y z := by
  rw [State.rd, State.rd, s.audit_find r _ h]

/-- The pages behind the host-bound queues' hold no field that a report changes, but their own EVENT, FAULT and FAULT_INFO. -/
theorem reportKey_eq_false_of_high {f : Field} {i j k : Nat} (hk : k < 65536) (hl : f.lo + f.bstride * j < 64) (ho : f.off + f.stride * j < 4096)
    (hc : f.off + f.stride * j ∉ [0x18, 0x24, 0x28]) (hp : 262144 ≤ pageBase f.block 0) : reportKey (f.key i j k) = false := by
  have ha : Reg.LEDG.ALERT_PEND.key 0 0 0 / 4194304 < 262144 := by decide
  have hs : Reg.SEC.AUDIT_SUPPRESSED.key 0 0 0 / 4194304 < 262144 := by decide
  refine reportKey_eq_false hk hl ho hc (by omega) ?_
  simp only [List.mem_cons, List.not_mem_nil, or_false, not_or]
  omega

theorem Field.key_ne_of_high {f g : Field} {i j k : Nat} (hp : 262144 ≤ pageBase f.block 0) (hg : g.key 0 0 0 < 262144 * 4194304) :
    f.key i j k ≠ g.key 0 0 0 := by
  rw [f.key_eq]
  omega

/-- The page of a key. -/
theorem Field.key_page {f : Field} {i j k : Nat} (hk : k < 65536) (hl : f.lo + f.bstride * j < 64) (ho : f.off + f.stride * j < 4096) :
    f.key i j k / 17179869184 = pageBase f.block i / 4096 := by
  have hm := pageBase_mod f.block i
  rw [Field.key]
  omega

/-- Fields of different pages have different keys. -/
theorem Field.key_ne_of_page {f g : Field} {i j k i' j' k' : Nat} (hk : k < 65536) (hl : f.lo + f.bstride * j < 64) (ho : f.off + f.stride * j < 4096)
    (hk' : k' < 65536) (hl' : g.lo + g.bstride * j' < 64) (ho' : g.off + g.stride * j' < 4096)
    (h : pageBase g.block i' / 4096 ≠ pageBase f.block i / 4096) : g.key i' j' k' ≠ f.key i j k := by
  intro e
  rw [← Field.key_page hk hl ho, ← Field.key_page hk' hl' ho', e] at h
  exact h rfl

theorem State.rd_wrote_high (s : State) (src : Source) {g : Field} {i j k : Nat} (hp : 262144 ≤ pageBase g.block 0) :
    (s.wrote src).rd g i j k = s.rd g i j k :=
  s.rd_wrote src g i j k (Field.key_ne_of_high hp (by decide))

theorem State.rd_auditCmd_high (s : State) (src : Source) (f : Field) (n v r c q : Nat) {g : Field} {i j k : Nat} (hk : k < 65536)
    (hl : g.lo + g.bstride * j < 64) (ho : g.off + g.stride * j < 4096) (hc : g.off + g.stride * j ∉ [0x18, 0x24, 0x28])
    (hp : 262144 ≤ pageBase g.block 0) : (s.auditCmd src f n v r c q).rd g i j k = s.rd g i j k :=
  s.rd_auditCmd src f n v r c q g i j k (reportKey_eq_false_of_high hk hl ho hc hp)

/-! ### Answers of reads -/

/-- The state with the data a register read answers (R374). -/
def State.answer (s : State) (v : Nat) : State := { s with host := { s.host with regData := v } }

@[simp] theorem State.rd_answer (s : State) (v : Nat) (g : Field) (i j k : Nat) : (s.answer v).rd g i j k = s.rd g i j k := rfl

@[simp] theorem State.answer_regData (s : State) (v : Nat) : (s.answer v).host.regData = v := rfl

/-! ### Packets -/

theorem State.modPkt_some {s : State} {k : PktId} {x : Pkt} (h : s.pkt? k = some x) (f : Pkt → Pkt) :
    s.modPkt k f = { s with pkts := s.pkts.put k (some (f x)) } := by
  rw [State.modPkt, h]

theorem State.pkt?_modPkt_self {s : State} {k : PktId} {x : Pkt} (h : s.pkt? k = some x) (f : Pkt → Pkt) :
    (s.modPkt k f).pkt? k = some (f x) := by
  rw [State.modPkt_some h, State.pkt?, Tbl.find?_put_self]
  rfl

/-! ### Array cores -/

@[simp] theorem State.acore_modAcore (s : State) (c : ACoreId) (g : ACore → ACore) : (s.modAcore c g).acore c = g (s.acore c) := by
  simp [State.modAcore, State.setAcore, State.acore]

end Sys2Proof.Machine
end

section
/-! PROOF. What a report leaves unchanged in the state of the fault unit and of the host link. -/

namespace Sys2Proof.Machine

-- One thread for the proofs, which bounds the memory that checking them takes.
set_option Elab.async false

open Sys2Proof

/-- t's fault unit and host link differ from s's at most in the numbers of the records, the notes about HBM lines and the cycle's writes, and in host
memory and MSI-X. -/
def State.Quiet (s t : State) : Prop :=
  t.flt = { s.flt with
    seq := t.flt.seq, auditSeq := t.flt.auditSeq, hbmBad := t.flt.hbmBad, cycAt := t.flt.cycAt, cycOld := t.flt.cycOld, cycLate := t.flt.cycLate
    wback := t.flt.wback, eccInj := t.flt.eccInj } ∧
  t.host = { s.host with mem := t.host.mem, msix := t.host.msix }

theorem State.Quiet.refl (s : State) : s.Quiet s := ⟨rfl, rfl⟩

theorem State.Quiet.trans {s t u : State} (h : s.Quiet t) (h' : t.Quiet u) : s.Quiet u := by
  obtain ⟨h1, h2⟩ := h
  obtain ⟨h1', h2'⟩ := h'
  constructor
  · rw [h1', h1]
  · rw [h2', h2]

theorem State.Quiet.of_eq {s t : State} (hf : t.flt = s.flt) (hh : t.host = s.host) : s.Quiet t := by
  rw [State.Quiet, hf, hh]
  exact ⟨rfl, rfl⟩

theorem State.Quiet.foldl {α : Type} {g : State → α → State} (h : ∀ (t : State) (x : α), t.Quiet (g t x)) (l : List α) (s : State) : s.Quiet (l.foldl g s) := by
  induction l generalizing s with
  | nil => exact State.Quiet.refl s
  | cons x l ih => exact (h s x).trans (ih _)

/-! ### HBM -/

theorem State.quiet_hbmPutAs (s : State) (r a : Nat) (bs : List Byte) : s.Quiet (s.hbmPutAs r a bs) := by
  unfold State.hbmPutAs
  extract_lets n late old m t
  have hm : s.Quiet { s with hbm := m } := State.Quiet.of_eq rfl rfl
  have ht : s.Quiet t := hm.trans (State.Quiet.foldl (fun t l => (⟨rfl, rfl⟩ : t.Quiet (t.touchLine a n l))) _ _)
  exact ht.trans ⟨rfl, rfl⟩

theorem State.quiet_hbmPut (s : State) (a : Nat) (bs : List Byte) : s.Quiet (s.hbmPut a bs) :=
  s.quiet_hbmPutAs 0 a bs

theorem State.quiet_hbmWrite (s : State) (a : Nat) (bs : List Byte) : s.Quiet (s.hbmWrite a bs) := by
  rw [State.hbmWrite]
  split
  · exact State.Quiet.foldl (fun t (p : Nat × List Byte) => t.quiet_hbmPut p.1 p.2) _ s
  · exact s.quiet_hbmPut a bs

theorem State.quiet_locWrite (s : State) (loc a : Nat) (bs : List Byte) : s.Quiet (s.locWrite loc a bs) := by
  rw [State.locWrite]
  split_ifs
  · exact State.Quiet.refl s
  · exact ⟨rfl, rfl⟩
  · exact s.quiet_hbmWrite a bs

/-! ### Events and queues -/

theorem State.quiet_raiseVec (s : State) (v : Nat) : s.Quiet (s.raiseVec v) := by
  rw [State.raiseVec]
  split
  · exact State.Quiet.refl s
  · exact ⟨rfl, rfl⟩

theorem State.quiet_evtEdge (s old : State) (b i : Nat) : s.Quiet (s.evtEdge old b i) := by
  rw [State.evtEdge]
  split
  · exact s.quiet_raiseVec 0
  · exact State.Quiet.refl s

theorem State.quiet_wrEvent (s : State) (b i v : Nat) : s.Quiet (s.wrEvent b i v) := State.Quiet.of_eq (by simp) (by simp)

theorem State.quiet_events (s : State) (b i m : Nat) : s.Quiet (s.events b i m) :=
  (s.quiet_wrEvent b i _).trans (State.quiet_evtEdge _ s b i)

theorem State.quiet_event (s : State) (b i n : Nat) : s.Quiet (s.event b i n) := s.quiet_events b i _

theorem State.quiet_hqIrq (s : State) (q : Nat) : s.Quiet (s.hqIrq q) := by
  rw [State.hqIrq]
  split
  · exact (s.quiet_raiseVec _).trans (State.Quiet.of_eq rfl rfl)
  · exact State.Quiet.refl s

theorem State.quiet_hqPlace (s : State) (q : Nat) (bs : List Byte) : s.Quiet (s.hqPlace q bs) := by
  rw [State.hqPlace]
  exact ((s.quiet_locWrite _ _ _).trans (State.quiet_locWrite _ _ _ _)).trans (State.Quiet.of_eq rfl rfl)

theorem State.quiet_hqLose (s : State) (q : Nat) : s.Quiet (s.hqLose q) := State.Quiet.of_eq (by simp) (by simp)

theorem State.quiet_hqProduce (s : State) (q : Nat) (bs : List Byte) : s.Quiet (s.hqProduce q bs) := by
  unfold State.hqProduce
  split
  · exact State.Quiet.refl s
  split
  · exact State.Quiet.trans (State.Quiet.of_eq rfl rfl) (State.quiet_hqLose _ q)
  dsimp only
  split
  · split
    · exact State.Quiet.of_eq rfl rfl
    · exact (s.quiet_hqLose q).trans (State.quiet_hqPlace _ q bs)
  · split
    · exact (s.quiet_hqPlace q bs).trans (State.quiet_hqIrq _ q)
    · exact s.quiet_hqPlace q bs

/-! ### Records -/

theorem State.quiet_faultRegs (s : State) (r : FaultRec) : s.Quiet (s.faultRegs r) := State.Quiet.of_eq (by simp) (by simp)

theorem State.quiet_faultEnd (u : State) (c : Prop) [Decidable c] :
    u.Quiet (if c then ({ u with flt := { u.flt with seq := u.flt.seq + 1 } } : State).wr Reg.LEDG.ALERT_PEND 1
      else { u with flt := { u.flt with seq := u.flt.seq + 1 } }) := by
  have h : u.Quiet { u with flt := { u.flt with seq := u.flt.seq + 1 } } := ⟨rfl, rfl⟩
  split
  · exact h.trans (State.Quiet.of_eq (by simp) (by simp))
  · exact h

theorem State.quiet_fault (s : State) (r : FaultRec) : s.Quiet (s.fault r) :=
  (((s.quiet_faultRegs r).trans (State.quiet_event _ r.block r.inst 31)).trans (State.quiet_hqProduce _ 6 _)).trans (State.quiet_faultEnd _ _)

theorem State.quiet_audit (s : State) (r : AuditRec) : s.Quiet (s.audit r) := by
  unfold State.audit
  split
  · exact State.Quiet.of_eq (by simp) (by simp)
  · exact (s.quiet_hqProduce 7 _).trans ⟨rfl, rfl⟩

theorem State.quiet_auditCmd (s : State) (src : Source) (f : Field) (i n r c k : Nat) : s.Quiet (s.auditCmd src f i n r c k) :=
  s.quiet_audit _

@[simp] theorem State.fault_dmc (s : State) (r : FaultRec) : (s.fault r).flt.dmc = s.flt.dmc := by
  rw [(s.quiet_fault r).1]

@[simp] theorem State.audit_dmc (s : State) (r : AuditRec) : (s.audit r).flt.dmc = s.flt.dmc := by
  rw [(s.quiet_audit r).1]

@[simp] theorem State.auditCmd_dmc (s : State) (src : Source) (f : Field) (i n r c k : Nat) : (s.auditCmd src f i n r c k).flt.dmc = s.flt.dmc := by
  rw [(s.quiet_auditCmd src f i n r c k).1]

end Sys2Proof.Machine
end

section
/-! PROOF. What the herd's operations can change: registers, queues, memory, the state of contexts and the herd's own. -/

namespace Sys2Proof.Machine

-- One thread for the proofs, which bounds the memory that checking them takes.
set_option Elab.async false

open Sys2Proof

variable {s t u : State}

/-- t differs from s at most in registers, host-bound queues, host link, HBM, fault unit, contexts and the herd's state. -/
def State.HerdOnly (s t : State) : Prop :=
  t = { s with regs := t.regs, acting := t.acting, hq := t.hq, host := t.host, hbm := t.hbm, flt := t.flt, ctxs := t.ctxs, herd := t.herd }

theorem State.HerdOnly.refl (s : State) : s.HerdOnly s := rfl

theorem State.HerdOnly.trans (h : s.HerdOnly t) (h' : t.HerdOnly u) : s.HerdOnly u := by
  rw [State.HerdOnly] at h h' ⊢
  rw [h', h]

theorem State.ReportsOnly.herdOnly (h : s.ReportsOnly t) : s.HerdOnly t := by
  rw [State.ReportsOnly] at h
  rw [State.HerdOnly, h]

theorem State.HerdOnly.foldl {α : Type} {g : State → α → State} (h : ∀ (t : State) (x : α), t.HerdOnly (g t x)) (l : List α) (s : State) :
    s.HerdOnly (l.foldl g s) := by
  induction l generalizing s with
  | nil => exact State.HerdOnly.refl s
  | cons x l ih => exact (h s x).trans (ih _)

theorem State.ReportsOnly.event (s : State) (b i n : Nat) : s.ReportsOnly (s.event b i n) := by
  simp [State.reportsOnly_iff]

theorem State.ReportsOnly.wr (s : State) (f : Field) (v i j k : Nat) : s.ReportsOnly (s.wr f v i j k) := rfl

theorem State.ReportsOnly.bump (s : State) (f : Field) (i j k n : Nat) : s.ReportsOnly (s.bump f i j k n) := rfl

theorem State.ReportsOnly.wr_event (s : State) (f : Field) (v i j k b n m : Nat) : s.ReportsOnly ((s.wr f v i j k).event b n m) :=
  (State.ReportsOnly.wr s f v i j k).trans (State.ReportsOnly.event _ b n m)

theorem State.ReportsOnly.fault (s : State) (r : FaultRec) : s.ReportsOnly (s.fault r) := by
  simp [State.reportsOnly_iff]

theorem State.ReportsOnly.auditCmd (s : State) (src : Source) (f : Field) (i n r c k : Nat) : s.ReportsOnly (s.auditCmd src f i n r c k) := by
  simp [State.reportsOnly_iff]

/-! ### Messages -/

theorem State.herdOnly_sendAs (s : State) (p : Option Nat) (k a b : Nat) (l : List Int) : s.HerdOnly (s.sendAs p k a b l) := rfl

theorem State.herdOnly_send (s : State) (p : Option Nat) (k b : Nat) (l : List Int) : s.HerdOnly (s.send p k b l) := by
  rw [State.send]
  split
  · exact State.HerdOnly.refl s
  · exact s.herdOnly_sendAs p k _ b l

theorem State.herdOnly_flood (s : State) (k d b : Nat) (l : List Int) : s.HerdOnly (s.flood k d b l) :=
  State.HerdOnly.foldl (fun t (p : Nat) => t.herdOnly_send (some p) k d l) _ s

theorem State.herdOnly_sendTo (s : State) (k d : Nat) (l : List Int) : s.HerdOnly (s.sendTo k d l).1 := by
  rw [State.sendTo]
  split
  · dsimp only
    split
    · exact (s.herdOnly_send _ k d l).trans (State.herdOnly_send _ _ k d l)
    · exact s.herdOnly_send _ k d l
  · exact State.HerdOnly.refl s

theorem State.herdOnly_sendDepart (s : State) (m : Nat) : s.HerdOnly (s.sendDepart m) := by
  rw [State.sendDepart]
  split
  · exact s.herdOnly_flood _ _ _ _
  · exact s.herdOnly_sendTo _ _ _

/-! ### The state of membership -/

theorem State.reportsOnly_setHerdState (s : State) (v : Nat) : s.ReportsOnly (s.setHerdState v) := by
  rw [State.setHerdState]
  split
  · exact State.ReportsOnly.refl s
  · exact State.ReportsOnly.wr_event s _ _ _ _ _ _ _ _

theorem State.reportsOnly_setCommitState (s : State) (v : Nat) : s.ReportsOnly (s.setCommitState v) := by
  rw [State.setCommitState]
  split
  · exact State.ReportsOnly.refl s
  · exact State.ReportsOnly.wr_event s _ _ _ _ _ _ _ _

theorem State.herdOnly_creqDrop (s : State) (k : CommitKind) : s.HerdOnly (s.creqDrop k) := by
  cases k with
  | rules =>
    rw [State.creqDrop]
    split
    · exact (s.reportsOnly_setCommitState 0).herdOnly
    · exact State.HerdOnly.refl s
  | context c => rfl

theorem State.herdOnly_creqLost (s : State) : s.HerdOnly s.creqLost := by
  rw [State.creqLost]
  split
  · exact State.HerdOnly.refl s
  · have h := State.HerdOnly.foldl (fun t (e : CommitKind × Nat) => t.herdOnly_creqDrop e.1) s.herd.creqPend s
    have h2 (u : State) : u.HerdOnly { u with herd := { u.herd with creqPend := [] } } := rfl
    exact (h.trans (h2 _)).trans (State.ReportsOnly.wr_event _ _ _ _ _ _ _ _ _).herdOnly

theorem State.herdOnly_departBy (s : State) (n : Nat) : s.HerdOnly (s.departBy n) :=
  ((s.reportsOnly_setHerdState 3).herdOnly.trans (State.herdOnly_sendDepart _ _)).trans rfl

theorem State.herdOnly_becomeAlone (s : State) : s.HerdOnly s.becomeAlone := by
  have h1 (u : State) : u.HerdOnly { u with herd := { u.herd with routes := if u.isMember then u.herd.members else u.herd.routes } } := rfl
  have h2 (u : State) : u.HerdOnly (((((u.wrNow Reg.HERD.JOIN 0).wr Reg.HERD.BELLWETHER 0).wr Reg.HERD.MEMBERS 1).wr Reg.HERD.ELECTING 0).wr
    Reg.HERD.BW_HOPS 0) := rfl
  refine (((s.herdOnly_creqLost.trans (h1 _)).trans (State.reportsOnly_setHerdState _ 0).herdOnly).trans (h2 _)).trans ?_
  rfl

theorem State.herdOnly_announceLeave (s : State) : s.HerdOnly s.announceLeave := by
  rw [State.announceLeave]
  split_ifs
  · exact s.herdOnly_departBy _
  · exact s.herdOnly_becomeAlone
  · exact State.HerdOnly.refl s

end Sys2Proof.Machine
end

section
/-! PROOF. What the flow store's own operations change: records, tags and slots, and of the working set the places alone. -/

namespace Sys2Proof.Machine

-- One thread for the proofs, which bounds the memory that checking them takes.
set_option Elab.async false

open Sys2Proof

variable {s0 s t u : State}

/-! ### The relations -/

/-- Of the flow state only the cache, the victims' places and cold parts, the returned rings and the move in progress may differ. -/
def FlowSt.Places (f g : FlowSt) : Prop :=
  g = { f with cache := g.cache, victims := g.victims, ringRet := g.ringRet, moveJ := g.moveJ } ∧
    g.victims.map (fun e => (e.key, e.hot)) = f.victims.map (fun e => (e.key, e.hot))

theorem FlowSt.Places.refl (f : FlowSt) : f.Places f := ⟨rfl, rfl⟩

theorem FlowSt.Places.trans {f g h : FlowSt} (a : f.Places g) (b : g.Places h) : f.Places h := by
  obtain ⟨ha, hv⟩ := a
  obtain ⟨hb, hw⟩ := b
  refine ⟨?_, hw.trans hv⟩
  rw [hb, ha]

/-- Reports, memory and the places of the flow state may differ. -/
def State.StoreOnly (s t : State) : Prop := ({ s with flow := t.flow } : State).ReportsOnly t ∧ s.flow.Places t.flow

/-- Reports, memory, the flow state and messages to the herd may differ. -/
def State.FlowOnly (s t : State) : Prop := ({ s with flow := t.flow, herd := t.herd, acting := t.acting, ctxs := t.ctxs } : State).ReportsOnly t

/-! ### The store's operations -/

theorem State.StoreOnly.refl (s : State) : s.StoreOnly s := ⟨rfl, .refl _⟩

theorem State.StoreOnly.reports (hs : s0.StoreOnly s) (h : s.ReportsOnly t) : s0.StoreOnly t := by
  obtain ⟨hr, hp⟩ := hs
  have hf : t.flow = s.flow := by
    rw [State.ReportsOnly] at h
    rw [h]
  exact ⟨by rw [hf]; exact hr.trans h, by rwa [hf]⟩

theorem State.StoreOnly.setFlow (hs : s0.StoreOnly s) {f : FlowSt → FlowSt} (h : s.flow.Places (f s.flow)) : s0.StoreOnly (s.setFlow f) := by
  obtain ⟨hr, hp⟩ := hs
  refine ⟨?_, hp.trans h⟩
  rw [State.ReportsOnly] at hr ⊢
  rw [State.setFlow, hr]

theorem State.StoreOnly.ite {p : Prop} [Decidable p] (h : s0.StoreOnly s) (h' : s0.StoreOnly t) : s0.StoreOnly (if p then s else t) := by
  split
  · exact h
  · exact h'

theorem State.StoreOnly.foldl {α : Type} {g : State → α → State} {l : List α} (hs : s0.StoreOnly s)
    (h : ∀ (t : State) (x : α), s0.StoreOnly t → s0.StoreOnly (g t x)) : s0.StoreOnly (l.foldl g s) := by
  induction l generalizing s with
  | nil => exact hs
  | cons x l ih => exact ih (h s x hs)

theorem State.StoreOnly.wr {f : Field} {v i j k : Nat} (hs : s0.StoreOnly s) : s0.StoreOnly (s.wr f v i j k) := hs.reports (.wr _ _ _ _ _ _)

theorem State.StoreOnly.bump {f : Field} {i j k n : Nat} (hs : s0.StoreOnly s) : s0.StoreOnly (s.bump f i j k n) := hs.reports (.bump _ _ _ _ _ _)

theorem State.StoreOnly.fault {r : FaultRec} (hs : s0.StoreOnly s) : s0.StoreOnly (s.fault r) := hs.reports (.fault _ _)

theorem State.StoreOnly.hbmWrite {a : Nat} {bs : List Byte} (hs : s0.StoreOnly s) : s0.StoreOnly (s.hbmWrite a bs) :=
  hs.reports (by simp [State.reportsOnly_iff])

theorem State.StoreOnly.setTag {l g : Nat} (hs : s0.StoreOnly s) : s0.StoreOnly (s.setTag l g) := hs.hbmWrite

theorem State.StoreOnly.setCached {l : Nat} {v : Bool} (hs : s0.StoreOnly s) : s0.StoreOnly (s.setCached l v) := hs.setTag

theorem State.StoreOnly.records {d : Int} (hs : s0.StoreOnly s) : s0.StoreOnly (s.records d) := hs.wr

theorem State.StoreOnly.setWay {w : Nat} {e : CacheEnt} (hs : s0.StoreOnly s) : s0.StoreOnly (s.setWay w e) := hs.setFlow ⟨rfl, rfl⟩

theorem State.StoreOnly.ringFree {r : Nat} (hs : s0.StoreOnly s) : s0.StoreOnly (s.ringFree r) := hs.setFlow ⟨rfl, rfl⟩

theorem State.StoreOnly.freeRingOf {h : HotRec} (hs : s0.StoreOnly s) : s0.StoreOnly (s.freeRingOf h) := hs.ringFree.ite hs

theorem State.StoreOnly.journalMove {m : Option (Nat × Nat)} (hs : s0.StoreOnly s) : s0.StoreOnly (s.journalMove m) := hs.setFlow ⟨rfl, rfl⟩

theorem State.StoreOnly.relocate {l : Nat} {n : Option Nat} (hs : s0.StoreOnly s) : s0.StoreOnly (s.relocate l n) := by
  refine hs.setFlow ⟨rfl, ?_⟩
  rw [List.map_map]
  refine List.map_congr_left fun e _ => ?_
  simp only [Function.comp_apply]
  split <;> rfl

/-- A change of a working copy that leaves its key and its hot part. -/
theorem State.StoreOnly.modCached {key : List Byte} {g : CacheEnt → CacheEnt} (hs : s0.StoreOnly s) (hg : ∀ e, ((g e).key, (g e).hot) = (e.key, e.hot)) :
    s0.StoreOnly (s.modCached key g) := by
  rw [State.modCached]
  split
  · exact hs.setWay
  · refine hs.setFlow ⟨rfl, ?_⟩
    rw [List.map_map]
    refine List.map_congr_left fun e _ => ?_
    simp only [Function.comp_apply]
    split
    · exact hg e
    · rfl

theorem State.StoreOnly.clearSlot {l : Nat} {b : Bool} (hs : s0.StoreOnly s) : s0.StoreOnly (s.clearSlot l b) :=
  hs.setTag.records.relocate.freeRingOf.ite hs.setTag.records.relocate

theorem State.StoreOnly.countUe {line : Nat} (hs : s0.StoreOnly s) : s0.StoreOnly (s.countUe line) := hs.bump.wr

theorem State.StoreOnly.flowUeFault {line : Nat} (hs : s0.StoreOnly s) : s0.StoreOnly (s.flowUeFault line) := hs.fault

theorem State.StoreOnly.recordUe {l line : Nat} (hs : s0.StoreOnly s) : s0.StoreOnly (s.recordUe l line) :=
  hs.countUe.clearSlot.bump.flowUeFault.ite hs.countUe.flowUeFault

theorem State.StoreOnly.tagLineUe {bk line : Nat} (hs : s0.StoreOnly s) : s0.StoreOnly (s.tagLineUe bk line) := by
  unfold State.tagLineUe
  extract_lets locs s1 s2 s3
  have h2 : s0.StoreOnly s2 := hs.countUe.foldl fun _ _ h => h.clearSlot
  have h3 : s0.StoreOnly s3 := h2.ite h2.bump
  exact h3.hbmWrite.flowUeFault

theorem State.StoreOnly.tagCheck {bk : Nat} (hs : s0.StoreOnly s) : s0.StoreOnly (s.tagCheck bk) := by
  rw [State.tagCheck]
  split
  · exact hs.tagLineUe
  · exact hs

theorem State.StoreOnly.recCheck {l : Nat} (hs : s0.StoreOnly s) : s0.StoreOnly (s.recCheck l) := by
  rw [State.recCheck]
  refine .ite ?_ hs
  split
  · exact hs.recordUe
  · exact hs

theorem State.StoreOnly.insertPath {n h3 bk step : Nat} {path : List (Nat × Nat)} (hs : s0.StoreOnly s) :
    s0.StoreOnly (State.insertPath n s h3 bk step path).1 := by
  induction n generalizing s bk step path with
  | zero => exact hs
  | succ n ih =>
    rw [State.insertPath]
    extract_lets l
    split
    · exact ih hs.recCheck
    · split
      · exact hs.recCheck.tagCheck
      · exact ih hs.recCheck.tagCheck

theorem State.StoreOnly.copySlot {l alt : Nat} (hs : s0.StoreOnly s) : s0.StoreOnly (s.copySlot l alt) := by
  rw [State.copySlot]
  split
  · exact hs
  · exact hs.hbmWrite.setTag.relocate.setTag

theorem State.StoreOnly.moveSlot {l alt : Nat} (hs : s0.StoreOnly s) : s0.StoreOnly (s.moveSlot l alt) := by
  rw [State.moveSlot]
  split
  · exact hs.journalMove.copySlot.bump.journalMove.ite hs
  · exact hs

theorem State.StoreOnly.storeInsert {key rec_ : List Byte} {c h : Bool} (hs : s0.StoreOnly s) : s0.StoreOnly (s.storeInsert key rec_ c h).1 := by
  unfold State.storeInsert
  extract_lets s1 put
  have hput (v : State) (l : Nat) (hv : s0.StoreOnly v) : s0.StoreOnly (put v l).1 := hv.hbmWrite.setTag.records
  have h1 : s0.StoreOnly s1 := hs.tagCheck.tagCheck
  split
  · split
    · exact hput _ _ h1
    · exact h1
  · have hp := h1.insertPath (n := s1.maxMoves) (h3 := fingerprint key) (bk := bucket1 key) (step := 0) (path := [])
    split
    next v hv =>
      rw [hv] at hp
      exact hp.bump
    next v path hv =>
      rw [hv] at hp
      extract_lets s2
      have h2 : s0.StoreOnly s2 := hp.foldl fun _ _ h => h.moveSlot
      split
      · exact hput _ _ h2
      · exact h2

theorem State.StoreOnly.writeBack {e : CacheEnt} {keep : Bool} (hs : s0.StoreOnly s) : s0.StoreOnly (s.writeBack e keep).1 := by
  rw [State.writeBack]
  split
  · exact hs.hbmWrite.setTag
  · exact hs.storeInsert

theorem State.StoreOnly.storeLookup {key : List Byte} (hs : s0.StoreOnly s) : s0.StoreOnly (s.storeLookup key).1 := by
  unfold State.storeLookup
  extract_lets bks s1 fp
  have h1 : s0.StoreOnly s1 := hs.foldl fun _ _ h => h.tagCheck
  split
  · exact h1.recordUe
  · exact (h1.bump.ite h1).recordUe
  · exact h1.bump.ite h1

/-! ### Operations on the whole working set -/

theorem State.FlowOnly.refl (s : State) : s.FlowOnly s := rfl

theorem State.FlowOnly.trans (h : s.FlowOnly t) (h' : t.FlowOnly u) : s.FlowOnly u := by
  rw [State.FlowOnly, State.ReportsOnly] at h h' ⊢
  rw [h', h]

theorem State.FlowOnly.ite {p : Prop} [Decidable p] (h : s0.FlowOnly s) (h' : s0.FlowOnly t) : s0.FlowOnly (if p then s else t) := by
  split
  · exact h
  · exact h'

theorem State.FlowOnly.foldl {α : Type} {g : State → α → State} {l : List α} (hs : s0.FlowOnly s)
    (h : ∀ (t : State) (x : α), t.FlowOnly (g t x)) : s0.FlowOnly (l.foldl g s) := by
  induction l generalizing s with
  | nil => exact hs
  | cons x l ih => exact ih (hs.trans (h s x))

theorem State.StoreOnly.flowOnly (h : s.StoreOnly t) : s.FlowOnly t := by
  have hr := h.1
  rw [State.ReportsOnly] at hr
  rw [State.FlowOnly, State.ReportsOnly, hr]

theorem State.ReportsOnly.flowOnly (h : s.ReportsOnly t) : s.FlowOnly t := by
  rw [State.ReportsOnly] at h
  rw [State.FlowOnly, State.ReportsOnly, h]

theorem State.HerdOnly.flowOnly (h : s.HerdOnly t) : s.FlowOnly t := by
  rw [State.HerdOnly] at h
  rw [State.FlowOnly, State.ReportsOnly, h]

theorem State.FlowOnly.setFlow {f : FlowSt → FlowSt} (hs : s0.FlowOnly s) : s0.FlowOnly (s.setFlow f) := hs.trans rfl

theorem State.FlowOnly.bump {f : Field} {i j k n : Nat} (hs : s0.FlowOnly s) : s0.FlowOnly (s.bump f i j k n) := hs.trans rfl

theorem State.FlowOnly.reports (hs : s0.FlowOnly s) (h : s.ReportsOnly t) : s0.FlowOnly t := hs.trans h.flowOnly

theorem State.FlowOnly.store (hs : s0.FlowOnly s) (h : s.StoreOnly t) : s0.FlowOnly t := hs.trans h.flowOnly

theorem State.FlowOnly.setWay {w : Nat} {e : CacheEnt} (hs : s0.FlowOnly s) : s0.FlowOnly (s.setWay w e) := hs.setFlow

theorem State.FlowOnly.modCached {key : List Byte} {g : CacheEnt → CacheEnt} (hs : s0.FlowOnly s) : s0.FlowOnly (s.modCached key g) := by
  rw [State.modCached]
  split
  · exact hs.setWay
  · exact hs.setFlow

theorem State.FlowOnly.modCold {key : List Byte} {g : List Byte → List Byte} (hs : s0.FlowOnly s) : s0.FlowOnly (s.modCold key g) := by
  rw [State.modCold]
  refine .ite hs.setFlow ?_
  split
  · exact hs.store (State.StoreOnly.refl s).hbmWrite
  · exact hs.modCached

theorem State.FlowOnly.cacheDrop {key : List Byte} {bad : List Nat} (hs : s0.FlowOnly s) : s0.FlowOnly (s.cacheDrop key bad) := by
  rw [State.cacheDrop]
  refine hs.foldl fun t i => ?_
  extract_lets w e s1 s2 s3 s4
  have h2 : t.FlowOnly s2 := (State.FlowOnly.refl t).setWay.setFlow
  have h3 : t.FlowOnly s3 := by
    simp only [s3]
    split
    · exact h2.store (State.StoreOnly.refl s2).setCached
    · exact h2
  exact .ite (h3.bump.reports (.fault _ _)) (.refl t)

/-- A record that gets a way changes the working set alone. -/
theorem State.flowOnly_install {e : CacheEnt} (h : s.install e = some t) : s.FlowOnly t := by
  unfold State.install at h
  extract_lets ways free at h
  clear_value free
  split at h
  · cases h
    exact (State.FlowOnly.refl s).setWay
  · split at h
    · cases h
    · extract_lets w old at h
      split at h
      · cases h
      · cases h
        exact (State.FlowOnly.refl s).setFlow.setWay

theorem State.FlowOnly.flowSearch {key : List Byte} (hs : s0.FlowOnly s) : s0.FlowOnly (s.flowSearch key).1 := by
  unfold State.flowSearch
  extract_lets n s1 s2
  split
  · exact hs.setWay.bump
  · split
    · split
      next v hv => exact hs.bump.setFlow.trans (State.flowOnly_install hv)
      next => exact hs.bump.bump
    · have hl := (State.StoreOnly.refl s).storeLookup (key := key)
      split
      next v l hv =>
        rw [hv] at hl
        extract_lets s3
        have h3 : s0.FlowOnly s3 := (hs.store hl).bump
        split
        next w hw => exact (h3.trans (State.flowOnly_install hw)).store (State.StoreOnly.refl w).setCached
        next => exact h3.bump
      next v hv =>
        rw [hv] at hl
        extract_lets s3
        have h3 : s0.FlowOnly s3 := (hs.store hl).bump
        split
        next w hw => exact h3.trans (State.flowOnly_install hw)
        next => exact h3.bump

end Sys2Proof.Machine
end

section
/-! PROOF. More rules of the state's operations that several obligations need. -/

namespace Sys2Proof.Machine

-- One thread for the proofs, which bounds the memory that checking them takes.
set_option Elab.async false

open Sys2Proof

variable {s t u : State}

theorem State.pkt?_put (s : State) (k : PktId) (x : Pkt) : ({ s with pkts := s.pkts.put k (some x) } : State).pkt? k = some x := by
  simp only [State.pkt?, Tbl.find?_put_self]
  rfl

theorem State.pkt?_congr {k : PktId} (h : t.pkts = s.pkts) : t.pkt? k = s.pkt? k := by
  rw [State.pkt?, State.pkt?, h]

/-- A message that is sent waits at its port; it changes nothing else. -/
theorem State.send_spec (s : State) (p : Option Nat) (k d : Nat) (l : List Int) :
    ∃ o, s.send p k d l = { s with herd := { s.herd with out := o } } := by
  rw [State.send]
  split
  · exact ⟨s.herd.out, rfl⟩
  · exact ⟨_, rfl⟩

theorem State.sendTo_spec (s : State) (k d : Nat) (l : List Int) :
    ∃ o, (s.sendTo k d l).1 = { s with herd := { s.herd with out := o } } := by
  rw [State.sendTo]
  split
  next p _ =>
    obtain ⟨o, ho⟩ := s.send_spec (some p) k d l
    dsimp only
    split
    · obtain ⟨o', ho'⟩ := (s.send (some p) k d l).send_spec (some (pairPort p)) k d l
      exact ⟨o', by rw [ho', ho]⟩
    · exact ⟨o, ho⟩
  next => exact ⟨s.herd.out, rfl⟩

end Sys2Proof.Machine
end

section
/-! PROOF. When the commands of page FLOCK and those about time complete (R10, R146, R165, R184, R226 to R229, R256): O57 and O58. -/

namespace Sys2Proof.Machine

-- One thread for the proofs, which bounds the memory that checking them takes.
set_option Elab.async false

open Sys2Proof

/-! ### Page FLOCK -/

theorem State.wrote_arrayUsed (s : State) (src : Source) (f n : Nat) : (s.wrote src).arrayUsed f n = s.arrayUsed f n := by
  simp [State.arrayUsed, State.versions]

theorem execArrayWdReq_completes (s : State) (src : Source) (f : Flock) (n : Fin 64) (h : s.Takes src) : ∃ t, execArrayWdReq src f n s = .next t ∧
    (s.arrayUsed f.val n.val = false → (t.flocks.get f.val).wdArray = (s.flocks.get f.val).wdArray ||| (1#64 <<< n.val)) ∧ t.arr = s.arr ∧
    t.ctxs = s.ctxs ∧ t.acts = s.acts := by
  refine ⟨_, s.basicCmd_takes _ h, fun hu => ?_, ?_, ?_, ?_⟩
  · simp [State.wrote_arrayUsed, hu]
  all_goals split <;> simp

theorem execArrayOff_completes (s : State) (src : Source) (f : Flock) (m : DWord) (h : s.TakesExpert src) :
    ∃ t, execArrayOff src f m s = .next t ∧ t.acts = s.acts ++ [.arrayOff f.val m] ∧ t.arr = s.arr :=
  ⟨_, s.expertCmd_takes _ _ _ _ h, by simp, by simp [State.later]⟩

theorem execInjArm_completes (s : State) (src : Source) (f : Flock) (k : Fin 8) (c : CoreClass) (n : Fin 16) (h : s.TakesExpert src) :
    ∃ t, execInjArm src f k c n s = .next t ∧ (t.acore { flock := f, cls := c, core := n }).inj = (if k.val ≤ 4 then k.val else 0) ∧
      t.arr.mem = s.arr.mem ∧ t.arr.lanes = s.arr.lanes :=
  ⟨_, s.expertCmd_takes _ _ _ _ h, by simp, by simp [State.modAcore, State.setAcore], by simp [State.modAcore, State.setAcore]⟩

theorem execAfRead_completes (s : State) (src : Source) (f : Flock) (h : s.pagesOpen = true) :
    ∃ t, execAfRead src f s = .next t ∧ t.rd Reg.FLOCK.AF_KIND f.val = 0 ∧ t.rd Reg.FLOCK.AF_BEAT f.val = 0 ∧ t.arr = s.arr ∧ t.flt = s.flt := by
  refine ⟨_, by rw [execAfRead, if_neg (not_not.2 h)], ?_, ?_, ?_, ?_⟩
  · simp (disch := decide) [State.rd, State.find_wr_bit]
  · simp [State.rd]
  · simp
  · simp

theorem execFlockPatchGo_completes (s : State) (src : Source) (f : Flock) (h : s.TakesExpert src) :
    ∃ t, execFlockPatchGo src f s = .next t ∧ t.acts.length = s.acts.length + 1 ∧ t.arr = s.arr :=
  ⟨_, s.expertCmd_takes _ _ _ _ h, by simp, by simp [State.later]⟩

/-- Settles O57: each command's effect, and what it leaves for the boundary. -/
theorem flockPageCompletes : Obligations.FlockPageCompletes :=
  ⟨execArrayWdReq_completes, execArrayOff_completes, execInjArm_completes, execAfRead_completes, execFlockPatchGo_completes⟩

/-! ### Time -/

theorem execSetGo_completes (s : State) (src : Source) (h : s.Takes src) : ∃ t, execSetGo src s = .next t ∧
    (s.time.started = false → t.time.setDone = true ∧ t.time.setSec = s.rd Reg.TIME.SET_SEC ∧ t.time.setNs = s.rd Reg.TIME.SET_NS) ∧ t.now = s.now ∧
    t.time.beat = s.time.beat := by
  refine ⟨_, s.basicCmd_takes _ h, fun hs => ?_, ?_, ?_⟩
  · simp (disch := decide) [hs, State.rd_wrote]
  · split <;> simp [State.now]
  · split <;> simp

theorem State.wrote_obeysTime (s : State) (src : Source) : (s.wrote src).obeysTime = s.obeysTime := by
  simp (disch := decide) [State.obeysTime, State.rd_wrote]

theorem ofSigned_lt (w : Nat) (i : Int) : ofSigned w i < 2 ^ w := by
  have h : (0 : Int) < ((2 ^ w : Nat) : Int) := by positivity
  have := Int.emod_lt_of_pos i h
  have := Int.emod_nonneg i h.ne'
  rw [ofSigned]
  omega

theorem toSigned_ofSigned (i : Int) (h : -(2 ^ 31) ≤ i) (h' : i < 2 ^ 31) : toSigned 32 (ofSigned 32 i) = i := by
  have hb : ofSigned 32 i < 2 ^ 32 := ofSigned_lt 32 i
  have hi : (ofSigned 32 i : Int) = i % 4294967296 := by
    rw [ofSigned]
    omega
  rw [toSigned, bits, Nat.mod_eq_of_lt hb]
  split <;> omega

theorem execFreqAdj_completes (s : State) (src : Source) (ppb : Int) (h : s.Takes src) : ∃ t, execFreqAdj src ppb s = .next t ∧ t.time = s.time ∧
    (s.obeysTime = true → -100000 ≤ ppb → ppb ≤ 100000 → t.rd Reg.TIME.FREQ_ADJ = ofSigned 32 ppb) ∧
    (s.obeysTime = false → t.rd Reg.TIME.FREQ_ADJ = s.rd Reg.TIME.FREQ_ADJ) := by
  refine ⟨_, s.basicCmd_takes _ h, ?_, fun ho h1 h2 => ?_, fun ho => ?_⟩
  · dsimp only
    split_ifs <;> simp
  · have hr : ¬ (ppb < -100000 ∨ 100000 < ppb) := by omega
    simp (disch := decide) [hr, State.wrote_obeysTime, ho, State.rd_audit]
    exact Nat.mod_eq_of_lt (ofSigned_lt 32 ppb)
  · simp [State.wrote_obeysTime, ho]
    split <;> simp (disch := decide) [State.rd_audit, State.rd_wrote, State.rd_bump_bit]

theorem execPhaseAdj_completes (s : State) (src : Source) (ns : Int) (h : s.Takes src) : ∃ t, execPhaseAdj src ns s = .next t ∧ t.now = s.now ∧
    (s.obeysTime = true → -(2 ^ 31) ≤ ns → ns < 2 ^ 31 → t.time.phaseLeft = ns * 3000000000) ∧
    (s.obeysTime = false → t.time.phaseLeft = s.time.phaseLeft) := by
  refine ⟨_, s.basicCmd_takes _ h, ?_, fun ho h1 h2 => ?_, fun ho => ?_⟩
  · split <;> simp [State.now]
  · simp [State.wrote_obeysTime, ho, toSigned_ofSigned ns h1 h2]
  · simp [State.wrote_obeysTime, ho]

theorem execPhaseSlewEnd_completes (s : State) : ∃ t, execPhaseSlewEnd s = .next t ∧ (s.time.phaseLeft.natAbs ≤ 64000000 → t.time.phaseLeft = 0) ∧
    t.time.phaseLeft.natAbs ≤ s.time.phaseLeft.natAbs ∧ t.now = s.now := by
  by_cases h : s.time.phaseLeft.natAbs ≤ 64000000 <;> simp [execPhaseSlewEnd, h, State.now]

theorem execTimeBeatRead_completes (s : State) (src : Source) (h : s.pagesOpen = true) :
    ∃ t, execTimeBeatRead src s = .next t ∧ t.host.regData = s.time.beat ∧ t.time = s.time := by
  simp [execTimeBeatRead, h]

theorem execPpsIn_completes (s : State) : ∃ t, execPpsIn s = .next t ∧ t.rd Reg.TIME.PPS_IN_T = (s.now + 1) % 2 ^ 64 ∧ t.time = s.time := by
  refine ⟨_, rfl, ?_, by simp⟩
  simp (disch := decide) only [State.rd_bump_bit, State.rd_wr_self]
  rfl

theorem execPpsOutRise_completes (s : State) : ∃ t, execPpsOutRise s = .next t ∧
    (s.act Reg.TIME.PPS_OUT_EN = 1 → s.ppsDue = true → t.time.ppsOut = true ∧ t.time.ppsAt = s.now) ∧
    (s.time.ppsOut = true → t.time.ppsOut = true) ∧ t.now = s.now := by
  rw [execPpsOutRise]
  split
  · exact ⟨_, rfl, fun _ _ => ⟨rfl, rfl⟩, fun _ => rfl, rfl⟩
  · rename_i hn
    exact ⟨_, rfl, fun h1 h2 => absurd ⟨h1, h2⟩ hn, id, rfl⟩

theorem execPpsOutFall_completes (s : State) : ∃ t, execPpsOutFall s = .next t ∧ (s.time.ppsAt + 120000000 ≤ s.now → t.time.ppsOut = false) ∧
    (s.time.ppsOut = false → t = s) ∧ t.now = s.now := by
  by_cases h : s.time.ppsOut = true ∧ s.time.ppsAt + 120000000 ≤ s.now
  · exact ⟨_, if_pos h, fun _ => rfl, fun h' => absurd h.1 (by simp [h']), rfl⟩
  · refine ⟨_, if_neg h, fun h' => ?_, fun _ => rfl, rfl⟩
    simpa [h'] using h

theorem execTsFifoPop_completes (s : State) (src : Source) (g : Group) (h : s.pagesOpen = true) :
    (∃ t, execTsFifoPop src g .rx s = .next t ∧ t.rxTs.get g.val = (s.rxTs.get g.val).tail ∧ t.txTs = s.txTs) ∧
    (∃ t, execTsFifoPop src g .tx s = .next t ∧ t.txTs.get g.val = (s.txTs.get g.val).tail ∧ t.rxTs = s.rxTs) := by
  constructor
  · cases hr : s.rxTs.get g.val <;> simp [execTsFifoPop, h, hr]
  · cases hr : s.txTs.get g.val <;> simp [execTsFifoPop, h, hr]

/-- Settles O58: each command about time completes, with what it sets. -/
theorem timeCommandsComplete : Obligations.TimeCommandsComplete :=
  ⟨execSetGo_completes, execFreqAdj_completes, execPhaseAdj_completes, execPhaseSlewEnd_completes, execTimeBeatRead_completes, execPpsIn_completes,
    execPpsOutRise_completes, execPpsOutFall_completes, execTsFifoPop_completes⟩

end Sys2Proof.Machine
end

section
/-! PROOF. The commands of page FLOCK (R10, R146, R165, R184): O15. -/

namespace Sys2Proof.Machine

-- One thread for the proofs, which bounds the memory that checking them takes.
set_option Elab.async false

open Sys2Proof

theorem execArrayWdReq_unused (s : State) (src : Source) (f : Flock) (n : Fin 64) (h : s.Takes src) (hu : s.arrayUsed f.val n.val = false) :
    ∃ t, execArrayWdReq src f n s = .next t ∧ (t.flocks.get f.val).wdArray = (s.flocks.get f.val).wdArray ||| (1#64 <<< n.val) ∧
      ({ s with flocks := t.flocks } : State).WriteOnly t ∧ (∀ g, g ≠ f.val → t.flocks.get g = s.flocks.get g) := by
  refine ⟨_, s.basicCmd_takes _ h, ?_⟩
  rw [State.wrote_arrayUsed, hu, if_neg Bool.false_ne_true]
  exact ⟨by simp, by simp [State.writeOnly_iff], fun g hg => by simp [Tbl.get_set_ne _ _ hg]⟩

theorem execArrayWdReq_used (s : State) (src : Source) (f : Flock) (n : Fin 64) (h : s.Takes src) (hu : s.arrayUsed f.val n.val = true) :
    ∃ t, execArrayWdReq src f n s = .next t ∧ s.WriteOnly t := by
  refine ⟨_, s.basicCmd_takes _ h, ?_⟩
  rw [State.wrote_arrayUsed, hu, if_pos rfl]
  simp [State.writeOnly_iff]

theorem execArrayOff_queues (s : State) (src : Source) (f : Flock) (m : DWord) (h : s.TakesExpert src) : ∃ t, execArrayOff src f m s = .next t ∧
    s.Queued t (.arrayOff f.val m) ∧ t.rd Reg.FLOCK.ARRAY_OFF f.val = m.toNat ∧ s.WriteLater t := by
  refine ⟨_, s.expertCmd_takes _ _ _ _ h, by simp [State.Queued], ?_, by simp [State.writeLater_iff, State.later]⟩
  rw [State.rd_later, State.rd_wr_self]
  exact Nat.mod_eq_of_lt m.isLt

theorem ACoreId.num_inj {c d : ACoreId} (h : c.num = d.num) : c = d := by
  obtain ⟨f, k, n⟩ := c
  obtain ⟨g, l, m⟩ := d
  cases k <;> cases l <;> simp [ACoreId.num, ACoreId.bulk, Fin.ext_iff] at h ⊢ <;> omega

theorem State.acore_modAcore_ne (s : State) {c d : ACoreId} (g : ACore → ACore) (h : d ≠ c) : (s.modAcore c g).acore d = s.acore d :=
  Tbl.get_set_ne _ _ (fun e => h (ACoreId.num_inj e))

theorem execInjArm_arms (s : State) (src : Source) (f : Flock) (k : Fin 8) (c : CoreClass) (n : Fin 16) (h : s.TakesExpert src) :
    ∃ t, execInjArm src f k c n s = .next t ∧ (k.val ≤ 4 → (t.acore { flock := f, cls := c, core := n }).inj = k.val) ∧
      (∀ d : ACoreId, d ≠ { flock := f, cls := c, core := n } → t.acore d = s.acore d) ∧ ({ s with arr := t.arr } : State).WriteOnly t := by
  refine ⟨_, s.expertCmd_takes _ _ _ _ h, fun hk => by simp [hk], fun d hd => ?_, by simp [State.writeOnly_iff, State.modAcore, State.setAcore]⟩
  rw [State.acore_modAcore_ne _ _ hd]
  simp [State.acore]

/-- The fields of an array fault (R165). -/
def afFields : List Field :=
  [Reg.FLOCK.AF_KIND, Reg.FLOCK.AF_CLASS, Reg.FLOCK.AF_CORE, Reg.FLOCK.AF_ARRAY, Reg.FLOCK.AF_LANE, Reg.FLOCK.AF_CYCLE, Reg.FLOCK.AF_CODE,
    Reg.FLOCK.AF_TAG_SEEN, Reg.FLOCK.AF_TAG_EXP, Reg.FLOCK.AF_BEAT]

theorem rd_afFields_cleared (s : State) (f : Nat) : ∀ x ∈ afFields, (afFields.foldl (fun t x => t.wr x 0 f) s).rd x f = 0 := by
  simp (disch := decide) [afFields, State.rd_wr_bit]

/-- Fields that lie side by side from bit `b` on. -/
def Contiguous : Nat → List Field → Prop
  | _, [] => True
  | b, x :: l => x.lo = b ∧ Contiguous (b + x.width) l

theorem Contiguous.le_lo {l : List Field} : ∀ {b : Nat}, Contiguous b l → ∀ y ∈ l, b ≤ y.lo := by
  induction l with
  | nil => exact fun _ y hy => absurd hy List.not_mem_nil
  | cons x l ih =>
    intro b ⟨hx, hl⟩ y hy
    obtain rfl | hy := List.mem_cons.1 hy
    · omega
    · exact (Nat.le_add_right _ _).trans (ih hl y hy)

/-- Bits below bit `m` do not reach a field that lies at `m` or above. -/
theorem add_mul_pow_div {c n m : Nat} (w : Nat) (hc : c < 2 ^ n) (h : n ≤ m) : (c + w * 2 ^ n) / 2 ^ m = w * 2 ^ n / 2 ^ m := by
  obtain ⟨k, rfl⟩ := Nat.exists_eq_add_of_le h
  rw [pow_add, ← Nat.div_div_eq_div_mul, ← Nat.div_div_eq_div_mul, Nat.add_mul_div_right _ _ (by positivity), Nat.div_eq_of_lt hc, Nat.zero_add,
    Nat.mul_div_cancel _ (by positivity)]

/-- A word of fields side by side holds each field's value at its place. -/
theorem Contiguous.word {l : List Field} : ∀ {b : Nat}, Contiguous b l → ∀ v : Field → Nat, (∀ y ∈ l, v y < 2 ^ y.width) →
    ∃ w, (l.map (fun y => v y * 2 ^ y.lo)).sum = w * 2 ^ b ∧ ∀ x ∈ l, w * 2 ^ b / 2 ^ x.lo % 2 ^ x.width = v x := by
  induction l with
  | nil => exact fun _ _ _ => ⟨0, by simp, by simp⟩
  | cons x l ih =>
    intro b ⟨hx, hl⟩ v hv
    obtain ⟨w, hw, hr⟩ := ih hl v (fun y hy => hv y (List.mem_cons_of_mem _ hy))
    have hvx := hv x List.mem_cons_self
    refine ⟨v x + w * 2 ^ x.width, ?_, fun y hy => ?_⟩
    · rw [List.map_cons, List.sum_cons, hw, hx]
      ring
    · have hsplit : (v x + w * 2 ^ x.width) * 2 ^ b = v x * 2 ^ b + w * 2 ^ (b + x.width) := by ring
      obtain rfl | hy := List.mem_cons.1 hy
      · rw [hx, Nat.mul_div_cancel _ (by positivity), Nat.add_mul_mod_self_right, Nat.mod_eq_of_lt hvx]
      · have hc : v x * 2 ^ b < 2 ^ (b + x.width) := by
          rw [pow_add, mul_comm]
          exact Nat.mul_lt_mul_of_pos_left hvx (by positivity)
        rw [hsplit, add_mul_pow_div w hc (hl.le_lo y hy)]
        exact hr y hy

theorem afFields_contiguous : Contiguous 0 afFields := by
  refine ⟨?_, ?_, ?_, ?_, ?_, ?_, ?_, ?_, ?_, ?_, trivial⟩ <;> rfl

theorem State.wrs_spec (l : List Field) (s : State) (f : Nat) : ∃ r, l.foldl (fun t x => t.wr x 0 f) s = { s with regs := r } := by
  induction l generalizing s with
  | nil => exact ⟨_, rfl⟩
  | cons x l ih => exact ih (s.wr x 0 f)

theorem execAfRead_open (s : State) (src : Source) (f : Flock) (h : s.pagesOpen = true) : execAfRead src f s =
    .next ((afFields.foldl (fun t x => t.wr x 0 f.val) s).answer (afFields.map (fun x => s.rd x f.val * 2 ^ x.lo)).sum) :=
  if_neg (not_not.2 h)

theorem execAfRead_clears (s : State) (src : Source) (f : Flock) (h : s.pagesOpen = true) : ∃ t, execAfRead src f s = .next t ∧
    t = { s with regs := t.regs, host := { s.host with regData := t.host.regData } } ∧
    (∀ x ∈ afFields, t.rd x f.val = 0 ∧ (s.rd x f.val < 2 ^ x.width → (∀ y ∈ afFields, s.rd y f.val < 2 ^ y.width) →
      t.host.regData / 2 ^ x.lo % 2 ^ x.width = s.rd x f.val)) := by
  refine ⟨_, execAfRead_open s src f h, ?_, fun x hx => ⟨?_, fun _ hy => ?_⟩⟩
  · obtain ⟨r, hr⟩ := State.wrs_spec afFields s f.val
    rw [hr]
    rfl
  · rw [State.rd_answer]
    exact rd_afFields_cleared s f.val x hx
  · obtain ⟨w, hw, hr⟩ := afFields_contiguous.word (fun y => s.rd y f.val) hy
    rw [State.answer_regData, hw]
    exact hr x hx

theorem execFlockPatchGo_queues (s : State) (src : Source) (f : Flock) (h : s.TakesExpert src) : ∃ t, execFlockPatchGo src f s = .next t ∧
    s.WriteLater t ∧ s.Queued t (.patch ((f.val * 2 + s.rd Reg.FLOCK.PATCH_CLASS f.val) * 16 + s.rd Reg.FLOCK.PATCH_CORE f.val)
      (decide (s.rd Reg.FLOCK.PATCH_AREA f.val = 1)) (s.rd Reg.FLOCK.PATCH_WORD f.val) (BitVec.ofNat 64 (s.rd Reg.FLOCK.PATCH_DATA f.val))) := by
  refine ⟨_, s.expertCmd_takes _ _ _ _ h, by simp [State.writeLater_iff, State.later], ?_⟩
  simp (disch := decide) [State.Queued, State.rd_auditCmd_high, State.rd_wrote_high, beq_eq_decide]

theorem runAct_patch (s : State) (n w : Nat) (area : Bool) (d : BitVec 64) : (s.runAct (.patch n area w d)).arr.desc = Mem.writeN s.arr.desc ((n * 2 +
    b2n (s.arr.cores.get n).progBank) * 2 ^ 15 + (if area then 8192 else 0) + 8 * w) (leBytes 8 d.toNat) ∧ s.runAct (.patch n area w d) = { s with
    arr := { s.arr with desc := (s.runAct (.patch n area w d)).arr.desc } } :=
  ⟨rfl, rfl⟩

/-- Settles O15: the commands of page FLOCK, and the effect of a patch at the boundary. -/
theorem flockPageCommands : Obligations.FlockPageCommands :=
  ⟨execArrayWdReq_unused, execArrayWdReq_used, execArrayOff_queues, execInjArm_arms, execAfRead_clears, execFlockPatchGo_queues, runAct_patch⟩

end Sys2Proof.Machine
end

section
/-! PROOF. The arithmetic and the control of feature programs (R88, R96, R97): O10 and O11. -/

namespace Sys2Proof.Machine

-- One thread for the proofs, which bounds the memory that checking them takes.
set_option Elab.async false

open Sys2Proof

/-! ### An instruction at the program counter -/

theorem State.fword_some {s : State} {c : FCoreId} {w : Word} (h : s.FAt c w) : ∃ pk x, (s.fcore c).pkt = some pk ∧ s.pkt? pk = some x := by
  obtain ⟨x, hx, -⟩ := Option.bind_eq_some_iff.1 h
  obtain ⟨pk, hp, hx⟩ := Option.bind_eq_some_iff.1 hx
  exact ⟨pk, x, hp, hx⟩

theorem State.fstep_at {s : State} {c : FCoreId} {w : Word} (f : Pkt → FCore → FCore) {pk : PktId} {x : Pkt} (hp : (s.fcore c).pkt = some pk)
    (hx : s.pkt? pk = some x) (h : s.FAt c w) : s.fstep c w f = s.fcoreDone c (f x (s.fcore c)) := by
  have hw : s.fword c = some w := h
  simp [State.fstep, hp, hx, hw, State.fcoreDone]

theorem State.fstep_const {s : State} {c : FCoreId} {w : Word} (f : FCore → FCore) (h : s.FAt c w) :
    s.fstep c w (fun _ => f) = s.fcoreDone c (f (s.fcore c)) := by
  obtain ⟨pk, x, hp, hx⟩ := State.fword_some h
  exact State.fstep_at _ hp hx h

theorem State.falu_at {s : State} {c : FCoreId} {code : Nat} {d a : Fin 64} {o : FOperand} {f : Word → Word → Word} (v : Word)
    (h : s.FAt c (fenc code d.val a.val o.low)) (hv : f ((s.fcore c).reg a) ((s.fcore c).operand o) = v) :
    (.next (s.falu c code d a o f) : Host.Outcome State Fault Refusal) = .next (s.fcoreDone c ((s.fcore c).setReg d v)) := by
  rw [State.falu, State.fstep_const _ h, hv]

theorem State.fstep_not_at {s : State} {c : FCoreId} {w : Word} (f : Pkt → FCore → FCore) (h : ¬ s.FAt c w) : s.fstep c w f = s := by
  have hw : s.fword c ≠ some w := h
  rw [State.fstep]
  split
  · rw [if_neg hw]
  · rfl

theorem State.not_fAt_of_idle {s : State} {c : FCoreId} (h : (s.fcore c).pkt = none) (w : Word) : ¬ s.FAt c w := by
  simp [State.FAt, State.fword, h]

/-! ### Words -/

theorem shl_eq (x : Word) (n : Nat) : x <<< n = BitVec.ofNat 32 (x.toNat * 2 ^ n) := by
  apply BitVec.eq_of_toNat_eq
  rw [BitVec.toNat_shiftLeft, Nat.shiftLeft_eq, BitVec.toNat_ofNat]

theorem sshiftRight_eq (x : Word) (n : Nat) : x.sshiftRight n = BitVec.ofInt 32 (x.toInt / 2 ^ n) := by
  rw [BitVec.sshiftRight, Int.shiftRight_eq_div_pow]
  norm_cast

theorem lui_eq (imm : BitVec 12) (x : Word) :
    BitVec.ofNat 32 (imm.toNat * 2 ^ 20 + x.toNat % 2 ^ 20) = imm ++ x.extractLsb' 0 20 := by
  apply BitVec.eq_of_toNat_eq
  have hi := imm.isLt
  have hx : x.toNat % 2 ^ 20 < 2 ^ 20 := Nat.mod_lt _ (by norm_num)
  rw [BitVec.toNat_append, BitVec.extractLsb'_toNat, Nat.shiftRight_zero, Nat.shiftLeft_eq, mul_comm, ← Nat.two_pow_add_eq_or_of_lt hx,
    BitVec.toNat_ofNat, Nat.mod_eq_of_lt (by omega)]

/-! ### Arithmetic -/

section
variable {s : State} {c : FCoreId} {d a : Fin 64} {o : FOperand}

theorem execNop_at (h : s.FAt c (fenc 0 0 0 0)) : execNop c s = .next (s.fcoreDone c (s.fcore c)) := by
  rw [execNop, State.fstep_const _ h]

theorem execMovi_at {imm : BitVec 20} (h : s.FAt c (fenc 2 d.val 0 imm.toNat)) :
    execMovi c d imm s = .next (s.fcoreDone c ((s.fcore c).setReg d (BitVec.ofInt 32 imm.toInt))) := by
  rw [execMovi, State.fstep_const _ h, BitVec.signExtend]

theorem execLui_at {imm : BitVec 12} (h : s.FAt c (fenc 3 d.val 0 imm.toNat)) : ∃ k, execLui c d imm s = .next (s.fcoreDone c k) ∧
    k = (s.fcore c).setReg d (imm ++ ((s.fcore c).reg d).extractLsb' 0 20) := by
  refine ⟨_, ?_, rfl⟩
  rw [execLui, State.fstep_const _ h, lui_eq]

theorem execLog2_at (h : s.FAt c (fenc 0x11 d.val a.val 0)) :
    execLog2 c d a s = .next (s.fcoreDone c ((s.fcore c).setReg d (log2Fixed ((s.fcore c).reg a)))) := by
  rw [execLog2, State.fstep_const _ h]

theorem execLut_at {t : Fin 16} {pk : PktId} {x : Pkt} (hp : (s.fcore c).pkt = some pk) (hx : s.pkt? pk = some x)
    (h : s.FAt c (fenc 0x10 d.val a.val t.val)) : execLut c d a t s = .next (s.fcoreDone c ((s.fcore c).setReg d
      (((((s.fcore c).fset s x.ft.half (x.ft.fset.getD 0)).tables[t.val]?).getD {}).lookup ((s.fcore c).reg a)))) := by
  rw [execLut, State.fstep_at _ hp hx h]

theorem execLd_at {f : LdF} {pk : PktId} {x : Pkt} (hp : (s.fcore c).pkt = some pk) (hx : s.pkt? pk = some x) (hs : f.signed = false)
    (h : s.FAt c (LdF.word f)) : execLd c f s =
      .next (s.fcoreDone c { (s.fcore c).setReg f.d (BitVec.ofNat 32 (s.ldField x f).1) with absent := (s.ldField x f).2 }) := by
  rw [execLd, State.fstep_at _ hp hx h]
  simp [hs]

end

theorem aluInstructions_at (s : State) (c : FCoreId) (d a : Fin 64) (o : FOperand) :
    let x := (s.fcore c).reg a
    let y := (s.fcore c).operand o
    let gives (code : Nat) (i : Instr) (v : Word) : Prop :=
      s.FAt c (fenc code d.val a.val o.low) → exec i s = .next (s.fcoreDone c ((s.fcore c).setReg d v))
    gives 4 (.add c d a o) (BitVec.ofInt 32 (x.toInt + y.toInt)) ∧ gives 5 (.sub c d a o) (BitVec.ofInt 32 (x.toInt - y.toInt)) ∧
    gives 6 (.mul c d a o) (BitVec.ofInt 32 (x.toInt * y.toInt)) ∧ gives 7 (.and c d a o) (x &&& y) ∧ gives 8 (.or c d a o) (x ||| y) ∧
    gives 9 (.xor c d a o) (x ^^^ y) ∧ gives 0xA (.shl c d a o) (BitVec.ofNat 32 (x.toNat * 2 ^ (y.toNat % 32))) ∧
    gives 0xB (.shr c d a o) (BitVec.ofInt 32 (x.toInt / 2 ^ (y.toNat % 32))) ∧
    gives 0xC (.min c d a o) (BitVec.ofInt 32 (min x.toInt y.toInt)) ∧ gives 0xD (.max c d a o) (BitVec.ofInt 32 (max x.toInt y.toInt)) ∧
    gives 0xE (.slt c d a o) (if x.toInt < y.toInt then 1 else 0) := by
  intro x y gives
  refine ⟨fun h => State.falu_at _ h ?_, fun h => State.falu_at _ h ?_, fun h => State.falu_at _ h ?_, fun h => State.falu_at _ h rfl,
    fun h => State.falu_at _ h rfl, fun h => State.falu_at _ h rfl, fun h => State.falu_at _ h (shl_eq x _),
    fun h => State.falu_at _ h (sshiftRight_eq x _), fun h => State.falu_at _ h ?_, fun h => State.falu_at _ h ?_, fun h => State.falu_at _ h rfl⟩
  · rw [BitVec.ofInt_add, BitVec.ofInt_toInt, BitVec.ofInt_toInt]
  · rw [Int.sub_eq_add_neg, BitVec.ofInt_add, BitVec.ofInt_neg, BitVec.ofInt_toInt, BitVec.ofInt_toInt, BitVec.sub_eq_add_neg]
  · rw [BitVec.ofInt_mul, BitVec.ofInt_toInt, BitVec.ofInt_toInt]
  · by_cases h : x.toInt ≤ y.toInt
    · rw [if_pos h, min_eq_left h, BitVec.ofInt_toInt]
    · rw [if_neg h, min_eq_right (le_of_not_ge h), BitVec.ofInt_toInt]
  · by_cases h : x.toInt ≤ y.toInt
    · rw [if_pos h, max_eq_right h, BitVec.ofInt_toInt]
    · rw [if_neg h, max_eq_left (le_of_not_ge h), BitVec.ofInt_toInt]

theorem execAdd_not_at (s : State) (c : FCoreId) (d a : Fin 64) (o : FOperand) (h : ¬ s.FAt c (fenc 4 d.val a.val o.low)) :
    execAdd c d a o s = .next s := by
  rw [execAdd, State.falu, State.fstep_not_at _ h]

/-- Settles O10: the result of each instruction at the core's pc. -/
theorem featureArithmetic : Obligations.FeatureArithmetic :=
  ⟨fun _ _ => ⟨execNop_at, fun _ _ => execMovi_at, fun _ _ => execLui_at, fun _ _ => execLog2_at⟩, aluInstructions_at,
    fun _ _ _ _ hp hx => ⟨fun _ _ _ => execLut_at hp hx, fun _ => execLd_at hp hx⟩, execAdd_not_at⟩

/-! ### Branches, outputs and the end -/

section
variable {s : State} {c : FCoreId} {a k : Fin 64} {n : Fin 4096}

theorem execBz_at (h : s.FAt c (fenc 0x18 0 a.val n.val)) : execBz c a n s =
    .next (s.fcoreDone c (if (s.fcore c).reg a = 0 then { s.fcore c with pc := (s.fcore c).pc + n.val } else s.fcore c)) := by
  simp [execBz, State.fbranch, State.fstep_const _ h]

theorem execBnz_at (h : s.FAt c (fenc 0x19 0 a.val n.val)) : execBnz c a n s =
    .next (s.fcoreDone c (if (s.fcore c).reg a = 0 then s.fcore c else { s.fcore c with pc := (s.fcore c).pc + n.val })) := by
  simp [execBnz, State.fbranch, State.fstep_const _ h, ite_not]

theorem execBabs_at (h : s.FAt c (fenc 0x1A 0 0 n.val)) : execBabs c n s =
    .next (s.fcoreDone c (if (s.fcore c).absent = true then { s.fcore c with pc := (s.fcore c).pc + n.val } else s.fcore c)) := by
  rw [execBabs, State.fbranch, State.fstep_const _ h]

theorem execOut_at (h : s.FAt c (fenc 0x20 0 a.val k.val)) :
    execOut c a k s = .next (s.fcoreDone c { s.fcore c with outs := (s.fcore c).outs.put k.val ((s.fcore c).reg a) }) := by
  rw [execOut, State.fstep_const _ h]

theorem clampInt_eq (lo hi i : Int) (h : lo ≤ hi) : clampInt lo hi i = max lo (min hi i) := by
  rw [clampInt]
  split_ifs <;> omega

theorem execHout_at (h : s.FAt c (fenc 0x21 0 a.val k.val)) : execHout c a k s = .next (s.fcoreDone c
    { s.fcore c with hout := (s.fcore c).hout.set k.val (BitVec.ofInt 8 (max (-128) (min 127 ((s.fcore c).reg a).toInt))) }) := by
  rw [execHout, State.fstep_const _ h, clampInt_eq _ _ _ (by norm_num)]

theorem getLsbD_bit64 (k i : Nat) (hi : i < 64) : (1#64 <<< k).getLsbD i = decide (i = k) := by
  rw [BitVec.getLsbD_shiftLeft, BitVec.getLsbD_one, Bool.eq_iff_iff]
  simp only [hi, decide_true, Bool.true_and, Bool.and_eq_true, Bool.not_eq_true', decide_eq_false_iff_not, decide_eq_true_eq]
  omega

/-- The flags after SETF. -/
def setfFlags (flags : DWord) (k : Nat) (v : Word) : DWord :=
  if k < 16 then flags else if v = 0 then flags &&& ~~~(1#64 <<< k) else flags ||| (1#64 <<< k)

theorem getLsbD_setfFlags (flags : DWord) (k : Nat) (v : Word) (i : Nat) (hi : i < 64) :
    (setfFlags flags k v).getLsbD i = if i = k ∧ 16 ≤ k then decide (v ≠ 0) else flags.getLsbD i := by
  rw [setfFlags]
  by_cases hk : k < 16
  · rw [if_pos hk, if_neg (by omega)]
  · rw [if_neg hk]
    have hb := getLsbD_bit64 k i hi
    by_cases hv : v = 0
    · rw [if_pos hv, BitVec.getLsbD_and, BitVec.getLsbD_not, hb]
      by_cases hik : i = k <;> simp [hik, hv, hi]
      omega
    · rw [if_neg hv, BitVec.getLsbD_or, hb]
      by_cases hik : i = k <;> simp [hik, Nat.le_of_not_lt hk]
      exact hv

theorem execSetf_at (h : s.FAt c (fenc 0x22 0 a.val k.val)) : ∃ f : BitVec 64, execSetf c a k s = .next (s.fcoreDone c { s.fcore c with flags := f }) ∧
    (∀ i < 64, f.getLsbD i = if i = k.val ∧ 16 ≤ k.val then decide ((s.fcore c).reg a ≠ 0) else (s.fcore c).flags.getLsbD i) := by
  refine ⟨setfFlags (s.fcore c).flags k.val ((s.fcore c).reg a), ?_, getLsbD_setfFlags _ _ _⟩
  rw [execSetf, State.fstep_const _ h, setfFlags]
  split <;> rfl

/-- A packet with the outputs its program left (R97). -/
def Pkt.withOutputs (x : Pkt) (k : FCore) : Pkt := { x with ft := { x.ft with outs := k.outs, hout := k.hout, flags := k.flags } }

theorem execEndp_eq {pk : PktId} {x : Pkt} (hp : (s.fcore c).pkt = some pk) (hx : s.pkt? pk = some x) (h : s.FAt c (fenc 0x3F 0 0 0)) :
    execEndp c s = .next { s with
      pkts := s.pkts.put pk (some (x.withOutputs (s.fcore c)))
      fcores := s.fcores.set (FCoreId.key c) { faults := (s.fcore c).faults, reload := (s.fcore c).reload, own := (s.fcore c).own } } := by
  have hw : s.fword c = some (fenc 0x3F 0 0 0) := h
  simp only [execEndp, hp, hw, State.modPkt_some hx]
  rfl

theorem execEndp_at {pk : PktId} {x : Pkt} (hp : (s.fcore c).pkt = some pk) (hx : s.pkt? pk = some x) (h : s.FAt c (fenc 0x3F 0 0 0)) :
    ∃ t y, execEndp c s = .next t ∧ t.pkt? pk = some y ∧ y.ft.outs = (s.fcore c).outs ∧ y.ft.hout = (s.fcore c).hout ∧
      y.ft.flags = (s.fcore c).flags ∧ (t.fcore c).pkt = none ∧ t = { s with pkts := t.pkts, fcores := t.fcores } := by
  refine ⟨_, x.withOutputs (s.fcore c), execEndp_eq hp hx h, ?_, rfl, rfl, rfl, ?_, rfl⟩
  · simp [State.pkt?, Tbl.find?_put_self]
  · simp [State.fcore]

theorem execAdd_idle {d : Fin 64} {o : FOperand} (h : (s.fcore c).pkt = none) : execAdd c d a o s = .next s :=
  execAdd_not_at s c d a o (State.not_fAt_of_idle h _)

theorem execEndp_idle (h : (s.fcore c).pkt = none) : execEndp c s = .next s := by
  simp [execEndp, h]

end

/-- Settles O11: branches, outputs and the end of a program. -/
theorem featureControl : Obligations.FeatureControl :=
  ⟨fun _ _ _ _ => ⟨execBz_at, execBnz_at, execBabs_at⟩, fun _ _ _ _ => ⟨execOut_at, execHout_at⟩, fun _ _ _ _ => execSetf_at,
    fun _ _ _ _ => execEndp_at, fun _ _ _ _ _ h => ⟨execAdd_idle h, execEndp_idle h⟩⟩

end Sys2Proof.Machine
end

section
/-! PROOF. Time and timestamps (R226 to R229, R252, R256): O23. -/

namespace Sys2Proof.Machine

-- One thread for the proofs, which bounds the memory that checking them takes.
set_option Elab.async false

open Sys2Proof

theorem execSetGo_before (s : State) (src : Source) (h : s.Takes src) (hs : s.time.started = false) : ∃ t, execSetGo src s = .next t ∧
    t.time = { s.time with setDone := true, setSec := s.rd Reg.TIME.SET_SEC, setNs := s.rd Reg.TIME.SET_NS } ∧
    ({ s with time := t.time } : State).WriteOnly t := by
  refine ⟨_, s.basicCmd_takes _ h, ?_, ?_⟩
  · simp (disch := decide) [hs, State.rd_wrote]
  · simp [hs, State.writeOnly_iff]

theorem execSetGo_after (s : State) (src : Source) (h : s.Takes src) (hs : s.time.started = true) : ∃ t, execSetGo src s = .next t ∧ s.WriteOnly t :=
  ⟨_, s.basicCmd_takes _ h, by simp [hs, State.writeOnly_iff]⟩

theorem execFreqAdj_obeyed (s : State) (src : Source) (ppb : Int) (h : s.Takes src) (ho : s.obeysTime = true) (h1 : -100000 ≤ ppb)
    (h2 : ppb ≤ 100000) : ∃ t, execFreqAdj src ppb s = .next t ∧ t.rd Reg.TIME.FREQ_ADJ = ofSigned 32 ppb ∧ s.WriteOnly t := by
  have hr : ¬ (ppb < -100000 ∨ 100000 < ppb) := by omega
  refine ⟨_, s.basicCmd_takes _ h, ?_, ?_⟩
  · simp (disch := decide) [hr, State.wrote_obeysTime, ho, State.rd_audit]
    exact Nat.mod_eq_of_lt (ofSigned_lt 32 ppb)
  · simp [hr, State.wrote_obeysTime, ho, State.writeOnly_iff]

theorem execFreqAdj_range (s : State) (src : Source) (ppb : Int) (h : s.Takes src) (hr : ppb < -100000 ∨ 100000 < ppb) :
    ∃ t, execFreqAdj src ppb s = .next t ∧ t.rd Reg.TIME.FREQ_ADJ = s.rd Reg.TIME.FREQ_ADJ ∧ s.WriteOnly t := by
  refine ⟨_, s.basicCmd_takes _ h, ?_, ?_⟩
  · simp (disch := decide) [hr, State.rd_audit, State.rd_wrote]
  · simp [hr, State.writeOnly_iff]

theorem execFreqAdj_ignored (s : State) (src : Source) (ppb : Int) (h : s.Takes src) (ho : s.obeysTime = false) (h1 : -100000 ≤ ppb)
    (h2 : ppb ≤ 100000) : ∃ t, execFreqAdj src ppb s = .next t ∧ t.rd Reg.TIME.FREQ_ADJ = s.rd Reg.TIME.FREQ_ADJ ∧
      s.Counts t Reg.TIME.ADJ_IGNORED ∧ s.WriteOnly t := by
  have hr : ¬ (ppb < -100000 ∨ 100000 < ppb) := by omega
  refine ⟨_, s.basicCmd_takes _ h, ?_, ?_, ?_⟩
  · simp (disch := decide) [hr, State.wrote_obeysTime, ho, State.rd_audit, State.rd_wrote, State.rd_bump_bit]
  · simp (disch := decide) [hr, State.wrote_obeysTime, ho, State.Counts, State.rd_audit, State.rd_wrote]
  · simp [hr, State.wrote_obeysTime, ho, State.writeOnly_iff]

theorem execPhaseAdj_obeyed (s : State) (src : Source) (ns : Int) (h : s.Takes src) (ho : s.obeysTime = true) (h1 : -(2 ^ 31) ≤ ns)
    (h2 : ns < 2 ^ 31) : ∃ t, execPhaseAdj src ns s = .next t ∧ t.time = { s.time with phaseLeft := ns * 3000000000 } ∧
      ({ s with time := t.time } : State).WriteOnly t := by
  refine ⟨_, s.basicCmd_takes _ h, ?_, ?_⟩
  · simp [State.wrote_obeysTime, ho, toSigned_ofSigned ns h1 h2]
  · simp [State.wrote_obeysTime, ho, State.writeOnly_iff]

theorem execPhaseAdj_ignored (s : State) (src : Source) (ns : Int) (h : s.Takes src) (ho : s.obeysTime = false) :
    ∃ t, execPhaseAdj src ns s = .next t ∧ t.time = s.time ∧ s.Counts t Reg.TIME.ADJ_IGNORED ∧ s.WriteOnly t := by
  refine ⟨_, s.basicCmd_takes _ h, ?_, ?_, ?_⟩
  · simp [State.wrote_obeysTime, ho]
  · simp (disch := decide) [State.wrote_obeysTime, ho, State.Counts, State.rd_auditCmd, State.rd_wrote]
  · simp [State.wrote_obeysTime, ho, State.writeOnly_iff]

theorem execTimeBeatRead_latches (s : State) (src : Source) (h : s.pagesOpen = true) : ∃ t, execTimeBeatRead src s = .next t ∧
    t.host = { s.host with regData := s.time.beat } ∧ t.rd Reg.TIME.CYCLE = s.time.cycle % 512 ∧ t = { s with regs := t.regs, host := t.host } := by
  refine ⟨_, if_pos h, rfl, ?_, rfl⟩
  exact s.rd_wr_self Reg.TIME.CYCLE s.time.cycle 0 0 0

theorem execPpsIn_records (s : State) : ∃ t, execPpsIn s = .next t ∧ t.rd Reg.TIME.PPS_IN_T = (s.now + 1) % 2 ^ 64 ∧
    s.Counts t Reg.TIME.PPS_IN_CNT ∧ s.OnlyFields t [Reg.TIME.PPS_IN_T.key 0 0 0, Reg.TIME.PPS_IN_CNT.key 0 0 0] := by
  refine ⟨_, rfl, ?_, ?_, rfl, fun k hk => ?_⟩
  · simp (disch := decide) only [State.rd_bump_bit, State.rd_wr_self]
    rfl
  · simp (disch := decide) [State.Counts, State.rd_wr_bit]
  · simp only [List.mem_cons, List.not_mem_nil, or_false, not_or] at hk
    rw [State.bump, State.find_wr_ne _ _ _ _ _ _ _ hk.2, State.find_wr_ne _ _ _ _ _ _ _ hk.1]

theorem ppsDue_iff (s : State) (h : s.act Reg.TIME.PPS_OUT_OFS = 0) : s.ppsDue = true ↔ s.now % 1200000000 = 0 := by
  have h0 : toSigned 16 0 = 0 := by decide
  simp only [State.ppsDue, h, h0, decide_eq_true_eq]
  change -((s.now : Int) * 2500 - 3 * 0) % 3000000000000 < 2500 ↔ _
  omega

theorem execTsFifoPop_rx (s : State) (src : Source) (g : Group) (e : TsEnt) (l : List TsEnt) (h : s.pagesOpen = true)
    (hl : s.rxTs.get g.val = e :: l) (ha : e.a < 16) (hd : e.dom < 256) (hs : e.seqId < 65536) : ∃ t, execTsFifoPop src g .rx s = .next t ∧
      t.rxTs.get g.val = l ∧ (∀ k, k ≠ g.val → t.rxTs.get k = s.rxTs.get k) ∧
      t.host = { s.host with regData := 2 ^ 31 + e.sub * 2 ^ 28 + e.seqId * 2 ^ 12 + e.dom * 16 + e.a } ∧
      t.rd Reg.PORT.RX_TS_NS g.val = e.ts / 65536 % 2 ^ 64 ∧ t.rd Reg.PORT.RX_TS_FRAC g.val = e.ts % 65536 ∧
      t = { s with regs := t.regs, rxTs := t.rxTs, host := t.host } := by
  refine ⟨_, by simp only [execTsFifoPop, h, hl]; rfl, ?_, fun k hk => ?_, ?_, ?_, ?_, rfl⟩
  · simp
  · simp [Tbl.get_set_ne _ _ hk]
  · simp [Nat.mod_eq_of_lt ha, Nat.mod_eq_of_lt hd, Nat.mod_eq_of_lt hs]
    omega
  · simp (disch := decide) [State.rd, State.find_wr_bit]
    rfl
  · simp [State.rd]
    exact Nat.mod_mod _ _

theorem execTsFifoPop_tx (s : State) (src : Source) (g : Group) (e : TsEnt) (l : List TsEnt) (h : s.pagesOpen = true)
    (hl : s.txTs.get g.val = e :: l) (ha : e.a < 65536) : ∃ t, execTsFifoPop src g .tx s = .next t ∧ t.txTs.get g.val = l ∧
      (∀ k, k ≠ g.val → t.txTs.get k = s.txTs.get k) ∧
      t.host = { s.host with regData := 2 ^ 31 + b2n e.oneStep * 2 ^ 17 + e.sub * 2 ^ 16 + e.a } ∧
      t.rd Reg.PORT.TX_TS_NS g.val = e.ts / 65536 % 2 ^ 64 ∧ t.rd Reg.PORT.TX_TS_FRAC g.val = e.ts % 65536 ∧
      t = { s with regs := t.regs, txTs := t.txTs, host := t.host } := by
  refine ⟨_, by simp only [execTsFifoPop, h, hl]; rfl, ?_, fun k hk => ?_, ?_, ?_, ?_, rfl⟩
  · simp
  · simp [Tbl.get_set_ne _ _ hk]
  · simp [Nat.mod_eq_of_lt ha]
    omega
  · simp (disch := decide) [State.rd, State.find_wr_bit]
    rfl
  · simp [State.rd]
    exact Nat.mod_mod _ _

theorem execTsFifoPop_empty (s : State) (src : Source) (g : Group) (dir : TsDir) (h : s.pagesOpen = true) (hr : s.rxTs.get g.val = [])
    (ht : s.txTs.get g.val = []) : execTsFifoPop src g dir s = .next { s with host := { s.host with regData := 0 } } := by
  cases dir <;> simp [execTsFifoPop, h, hr, ht]

/-- Settles O23: what each command about time sets and shows. -/
theorem timeCommands : Obligations.TimeCommands :=
  ⟨execSetGo_before, execSetGo_after, execFreqAdj_obeyed, execFreqAdj_range, execFreqAdj_ignored, execPhaseAdj_obeyed, execPhaseAdj_ignored,
    fun _ h => if_pos h, fun _ h => if_neg (not_le.2 h), execTimeBeatRead_latches, execPpsIn_records, fun _ h h' => if_pos ⟨h, h'⟩, ppsDue_iff,
    fun _ h => if_neg (by simp [h]), fun _ h => if_neg (by simp [h]), fun _ h h' => if_pos ⟨h, h'⟩,
    fun _ h => if_neg (fun h' => h.elim (fun e => by simp [e] at h') (fun e => absurd h'.2 (not_le.2 e))), execTsFifoPop_rx, execTsFifoPop_tx,
    execTsFifoPop_empty⟩

end Sys2Proof.Machine
end

section
/-! PROOF. Priority pause (R259) and the shapers (R260): O3. -/

namespace Sys2Proof.Machine

-- One thread for the proofs, which bounds the memory that checking them takes.
set_option Elab.async false

open Sys2Proof

/-! ### Folds over egress queues -/

/-- t differs from s at most in the egress queues. -/
def State.QueuesOnly (s t : State) : Prop := t = { s with eg := { s.eg with q := t.eg.q } }

/-- Steps that each change one queue, one after another: each queue takes its own change. -/
theorem State.foldl_queues {s : State} {step : State → Nat → State} {key : Nat → Nat} {g : Nat → EgQ → EgQ} (hk : Function.Injective key)
    (hs : ∀ t k, s.QueuesOnly t → s.QueuesOnly (step t k) ∧
      ∀ m, (step t k).eg.q.get m = if m = key k then g k (t.eg.q.get m) else t.eg.q.get m) (n : Nat) :
    s.QueuesOnly ((List.range n).foldl step s) ∧
      (∀ k < n, ((List.range n).foldl step s).eg.q.get (key k) = g k (s.eg.q.get (key k))) ∧
      (∀ m, (∀ k < n, m ≠ key k) → ((List.range n).foldl step s).eg.q.get m = s.eg.q.get m) := by
  induction n with
  | zero => exact ⟨rfl, fun k hk => absurd hk (Nat.not_lt_zero k), fun _ _ => rfl⟩
  | succ n ih =>
    rw [List.range_succ, List.foldl_append]
    obtain ⟨hq, hin, hout⟩ := ih
    obtain ⟨hq', hget⟩ := hs _ n hq
    refine ⟨hq', fun k hkn => ?_, fun m hm => ?_⟩
    · obtain hlt | rfl := Nat.lt_succ_iff_lt_or_eq.1 hkn
      · exact (hget _).trans ((if_neg (fun e => hlt.ne (hk e))).trans (hin k hlt))
      · exact (hget _).trans ((if_pos rfl).trans (congrArg _ (hout _ (fun j hj e => hj.ne (hk e.symm)))))
    · exact (hget m).trans ((if_neg (hm n n.lt_succ_self)).trans (hout m (fun k hk => hm k (hk.trans n.lt_succ_self))))

theorem State.modQ_get (s : State) (pq m : Nat) (f : EgQ → EgQ) :
    (s.modQ pq f).eg.q.get m = if m = pq then f (s.eg.q.get m) else s.eg.q.get m := by
  split
  · next h => exact h ▸ Tbl.get_mod_self _ _ _
  · next h => exact Tbl.get_mod_ne _ _ h

theorem State.QueuesOnly.modQ {s t : State} (h : s.QueuesOnly t) (pq : Nat) (f : EgQ → EgQ) : s.QueuesOnly (t.modQ pq f) := by
  rw [State.QueuesOnly] at h ⊢
  rw [h]
  rfl

/-! ### Pause -/

/-- A queue after a pause frame: its enabled priorities take their quanta (R259). -/
def pausedBy (en : BitVec 8) (q : List (BitVec 16)) (k : Nat) (e : EgQ) : EgQ :=
  if en.getLsbD k then { e with paused := decide ((q.getD k 0).toNat ≠ 0), quanta := (q.getD k 0).toNat } else e

/-- A queue of the port takes its quanta. -/
def State.pauseQ (s : State) (p : Nat) (en : BitVec 8) (q : List (BitVec 16)) (k : Nat) : State :=
  if en.getLsbD k then s.modQ (p * 8 + k) (fun e => { e with paused := decide ((q.getD k 0).toNat ≠ 0), quanta := (q.getD k 0).toNat }) else s

theorem State.QueuesOnly.pauseQ {s t : State} (ht : s.QueuesOnly t) (p : Nat) (en : BitVec 8) (q : List (BitVec 16)) (k : Nat) :
    s.QueuesOnly (t.pauseQ p en q k) ∧
      ∀ m, (t.pauseQ p en q k).eg.q.get m = if m = p * 8 + k then pausedBy en q k (t.eg.q.get m) else t.eg.q.get m := by
  rw [State.pauseQ]
  split
  · next he =>
    refine ⟨ht.modQ _ _, fun m => ?_⟩
    rw [State.modQ_get, pausedBy, if_pos he]
  · next he => exact ⟨ht, fun m => by simp [pausedBy, he]⟩

theorem execPauseFrame_pauses (s : State) (p : Port) (en : BitVec 8) (q : List (BitVec 16)) (hr : s.Runs) (hp : s.portExists p.val = true)
    (hl : s.linkUp p.val = true) (hi : bits (s.act Reg.SHAPE.PAUSE_IGNORE) p.val 1 = 0) : ∃ t, execPauseFrame p en q s = .next t ∧
      t = { s with eg := { s.eg with q := t.eg.q } } ∧
      (∀ k < 8, en.getLsbD k = true → (t.eg.q.get (p.val * 8 + k)).paused = decide ((q.getD k 0).toNat ≠ 0)) ∧
      (∀ n, (∀ k < 8, en.getLsbD k = true → n ≠ p.val * 8 + k) → t.eg.q.get n = s.eg.q.get n) := by
  have he : execPauseFrame p en q s = .next ((List.range 8).foldl (fun t k => t.pauseQ p.val en q k) s) := if_pos ⟨hr, hp, hl, hi⟩
  obtain ⟨hq, hin, hout⟩ := State.foldl_queues (s := s) (step := fun t k => t.pauseQ p.val en q k) (key := fun k => p.val * 8 + k)
    (g := pausedBy en q) (fun _ _ h => Nat.add_left_cancel h) (fun _ k ht => ht.pauseQ p.val en q k) 8
  rw [he]
  generalize (List.range 8).foldl (fun t k => t.pauseQ p.val en q k) s = u at hq hin hout
  refine ⟨u, rfl, hq, fun k hk he => ?_, fun n hn => ?_⟩
  · rw [hin k hk, pausedBy, if_pos he]
  · by_cases h : ∃ k < 8, n = p.val * 8 + k
    · obtain ⟨k, hk, rfl⟩ := h
      rw [hin k hk, pausedBy, if_neg (fun he => hn k hk he rfl)]
    · exact hout n (fun k hk e => h ⟨k, hk, e⟩)

theorem execPauseExpire_ends (s : State) (p : Port) (k : QNum) : ∃ t, execPauseExpire p k s = .next t ∧
    t = { s with eg := { s.eg with q := t.eg.q } } ∧
    t.eg.q.get (p.val * 8 + k.val) = { s.eg.q.get (p.val * 8 + k.val) with paused := false, quanta := 0 } ∧
    (∀ n, n ≠ p.val * 8 + k.val → t.eg.q.get n = s.eg.q.get n) :=
  ⟨_, rfl, rfl, (s.modQ_get _ _ _).trans (if_pos rfl), fun n hn => (s.modQ_get _ n _).trans (if_neg hn)⟩

/-! ### Shapers -/

theorem refill_eq (tok : Int) (rate burst : Nat) : refill tok rate burst = min (tok + rate) ((burst * 65536 : Nat) : Int) := by
  rw [refill]
  split
  · next h => rw [min_eq_left (by exact_mod_cast h)]
  · next h =>
    rw [min_eq_right (by push_cast; omega)]
    exact congrArg Nat.cast (Nat.zero_max _)

/-- A queue's bucket after a refill (R260). -/
def refilled (s : State) (pq : Nat) (e : EgQ) : EgQ :=
  let r := s.act Reg.SHAPE.Q_RATE 0 0 pq
  let t := refill e.tok r (s.act Reg.SHAPE.Q_BURST 0 0 pq)
  if r = 0 then e else { e with tok := t, added := e.added + r, capped := e.capped + (e.tok + r - t).toNat }

theorem State.refillQs (s : State) (n : Nat) : s.QueuesOnly ((List.range n).foldl (fun t pq => t.refillQ pq) s) ∧
    (∀ k < n, ((List.range n).foldl (fun t pq => t.refillQ pq) s).eg.q.get k = refilled s k (s.eg.q.get k)) ∧
    (∀ m, (∀ k < n, m ≠ k) → ((List.range n).foldl (fun t pq => t.refillQ pq) s).eg.q.get m = s.eg.q.get m) := by
  refine State.foldl_queues (key := id) Function.injective_id (fun t k ht => ?_) n
  have ha (f : Field) : t.act f 0 0 k = s.act f 0 0 k := by
    rw [State.act, State.act, ht]
  by_cases hr : s.act Reg.SHAPE.Q_RATE 0 0 k = 0
  · simp [State.refillQ, ha, hr, refilled, ht]
  · simp only [State.refillQ, ha, hr, if_false, id]
    exact ⟨ht.modQ _ _, fun m => by rw [State.modQ_get]; simp [refilled, hr]⟩

theorem State.refillPs (l : List Nat) (s : State) : ∃ x, l.foldl (fun t p => t.refillP p) s = { s with eg := { s.eg with tx := x } } := by
  induction l generalizing s with
  | nil => exact ⟨_, rfl⟩
  | cons p l ih =>
    rw [List.foldl_cons, State.refillP]
    dsimp only
    split
    · exact ih s
    · exact ih _

theorem execShaperRefill_bounded (s : State) : ∃ t, execShaperRefill s = .next t ∧ t = { s with eg := { s.eg with q := t.eg.q, tx := t.eg.tx } } ∧
    (∀ n < 256, s.act Reg.SHAPE.Q_RATE 0 0 n ≠ 0 → (t.eg.q.get n).tok = min ((s.eg.q.get n).tok + s.act Reg.SHAPE.Q_RATE 0 0 n)
      (s.act Reg.SHAPE.Q_BURST 0 0 n * 65536 : Nat)) ∧
    (∀ n < 256, s.act Reg.SHAPE.Q_RATE 0 0 n = 0 → t.eg.q.get n = s.eg.q.get n) := by
  obtain ⟨hq, hin, -⟩ := s.refillQs 256
  rw [execShaperRefill]
  generalize (List.range 256).foldl (fun t pq => t.refillQ pq) s = u at hq hin
  obtain ⟨x, hx⟩ := State.refillPs (List.range 32) u
  rw [hx]
  refine ⟨_, rfl, ?_, fun n hn hr => ?_, fun n hn hr => ?_⟩
  · rw [hq]
  · simp [hin n hn, refilled, hr, refill_eq]
  · simp [hin n hn, refilled, hr]

/-! ### The scheduler -/

theorem State.spPick_empty {s : State} {port : Nat} (h : ∀ q < 8, (s.eg.q.get (port * 8 + q)).frames = []) : s.spPick port = none := by
  simp only [State.spPick, List.find?_eq_none, List.mem_reverse, List.mem_range]
  intro q hq
  simp [State.eligible, h q hq]

theorem State.wrrPick_empty {s : State} {port : Nat} (h : ∀ q < 8, (s.eg.q.get (port * 8 + q)).frames = []) : s.wrrPick port = (s, none) := by
  refine if_neg ?_
  simp only [List.any_eq_true, List.mem_range, not_exists, not_and]
  intro q hq
  simp [State.wrr, State.eligible, h q hq]

theorem execSchedulerPick_idle (s : State) (p : Port) (h : (s.eg.tx.get p.val).cur = none) (hp : s.portExists p.val = true)
    (hl : s.linkUp p.val = true) (hq : ∀ q < 8, (s.eg.q.get (p.val * 8 + q)).frames = []) : execSchedulerPick p 0 s = .next s := by
  simp [execSchedulerPick, h, hp, hl, State.pickQueue, State.spPick_empty hq, State.wrrPick_empty hq]

theorem State.modTx_get (s : State) (p m : Nat) (f : PortTx → PortTx) :
    (s.modTx p f).eg.tx.get m = if m = p then f (s.eg.tx.get m) else s.eg.tx.get m := by
  split
  · next h => exact h ▸ Tbl.get_mod_self _ _ _
  · next h => exact Tbl.get_mod_ne _ _ h

@[simp] theorem State.modQ_tx (s : State) (pq : Nat) (f : EgQ → EgQ) : (s.modQ pq f).eg.tx = s.eg.tx := rfl

@[simp] theorem State.modTx_q (s : State) (p : Nat) (f : PortTx → PortTx) : (s.modTx p f).eg.q = s.eg.q := rfl

/-- Paying for a frame changes the shapers' counts alone. -/
theorem State.spend_spec (s : State) (port q size : Nat) : s.spend port q size = { s with eg := (s.spend port q size).eg } ∧
    (∀ n, ((s.spend port q size).eg.q.get n).frames = (s.eg.q.get n).frames) ∧
    (∀ n, ((s.spend port q size).eg.tx.get n).cur = (s.eg.tx.get n).cur) ∧
    (∀ n, ((s.spend port q size).eg.tx.get n).curQ = (s.eg.tx.get n).curQ) := by
  unfold State.spend
  extract_lets pq n u
  have hu : u = { s with eg := { s.eg with q := u.eg.q } } ∧ ∀ m, (u.eg.q.get m).frames = (s.eg.q.get m).frames := by
    unfold u
    split
    · exact ⟨rfl, fun _ => rfl⟩
    · refine ⟨rfl, fun m => ?_⟩
      rw [State.modQ_get]
      split <;> rfl
  clear_value u
  obtain ⟨hu, hq⟩ := hu
  have ht : u.eg.tx = s.eg.tx := by rw [hu]
  split
  · exact ⟨by rw [hu], hq, fun m => by rw [ht], fun m => by rw [ht]⟩
  · refine ⟨by rw [hu]; rfl, hq, fun m => ?_, fun m => ?_⟩ <;> rw [State.modTx_get, ht] <;> split <;> rfl

theorem execSchedulerPick_starts (s : State) (p : Port) (ts q : Nat) (fr : EgFrame) (rest : List EgFrame) (h : (s.eg.tx.get p.val).cur = none)
    (hp : s.portExists p.val = true) (hl : s.linkUp p.val = true) (hs : s.spPick p.val = some q)
    (hf : (s.eg.q.get (p.val * 8 + q)).frames = fr :: rest) (hk : fr.kind ≠ 3) : ∃ t, execSchedulerPick p ts s = .next t ∧
      (t.eg.tx.get p.val).cur = some fr ∧ (t.eg.tx.get p.val).curQ = q ∧ (t.eg.q.get (p.val * 8 + q)).frames = rest ∧ t = { s with eg := t.eg } := by
  have hst : ∃ t, s.startFrame p.val q = t ∧ (t.eg.tx.get p.val).cur = some fr ∧ (t.eg.tx.get p.val).curQ = q ∧
      (t.eg.q.get (p.val * 8 + q)).frames = rest ∧ t = { s with eg := t.eg } := by
    refine ⟨_, rfl, ?_⟩
    simp only [State.startFrame, hf]
    generalize hv : State.modTx _ p.val _ = v
    obtain ⟨he, hq, hc, hn⟩ := v.spend_spec p.val q fr.size
    rw [hc, hn, hq, he, ← hv]
    refine ⟨?_, ?_, ?_, rfl⟩ <;> simp [State.modTx_get, State.modQ_get]
  obtain ⟨t, he, hc, ht⟩ := hst
  refine ⟨t, ?_, hc, ht⟩
  simp [execSchedulerPick, h, hp, hl, State.pickQueue, hs, he, hc, State.ptpStart, hk]

theorem execTransmitComplete_sent (s : State) (p : Port) (fr : EgFrame) (h : (s.eg.tx.get p.val).cur = some fr)
    (hs : (s.eg.tx.get p.val).stomp = false) (hp : fr.pkt = none) : ∃ t, execTransmitComplete p false s = .next t ∧
      (t.eg.tx.get p.val).cur = none ∧ (t.eg.tx.get p.val).last = fr.bytes ++ fcsBytes fr.bytes ∧
      (t.eg.q.get (p.val * 8 + (s.eg.tx.get p.val).curQ)).sent = (s.eg.q.get (p.val * 8 + (s.eg.tx.get p.val).curQ)).sent + 1 ∧
      t.pkts = s.pkts := by
  refine ⟨_, by simp only [execTransmitComplete, h, hs]; rfl, ?_⟩
  have hd (u : State) : (u.frameDone fr false).eg = u.eg ∧ (u.frameDone fr false).pkts = u.pkts := by
    rw [State.frameDone, hp]
    dsimp only
    split <;> exact ⟨by simp, by simp⟩
  simp only [State.wireDone, h, hd]
  simp [State.modQ, State.modTx]

/-- Settles O3: pause, the refill of the shapers, and the scheduler's frames. -/
theorem pauseAndShaperCommands : Obligations.PauseAndShaperCommands :=
  ⟨execPauseFrame_pauses, execPauseExpire_ends, execShaperRefill_bounded, execSchedulerPick_idle, execSchedulerPick_starts,
    execTransmitComplete_sent⟩

end Sys2Proof.Machine
end

section
/-! PROOF. Doubt (R199 to R201, R295): O17. -/

namespace Sys2Proof.Machine

-- One thread for the proofs, which bounds the memory that checking them takes.
set_option Elab.async false

open Sys2Proof

/-! ### Contexts -/

theorem execContextDown_due (s : State) (c : CtxNum) (h : s.act Reg.VERD.CTX_FAULT_MAX < (s.ctxs.get c.val).voidSets)
    (hd : (s.ctxs.get c.val).down = 0) : ∃ t, execContextDown c s = .next t ∧ (t.ctxs.get c.val).down = 3 ∧
      (∀ k, k ≠ c.val → t.ctxs.get k = s.ctxs.get k) ∧ t.rd Reg.VERD.LAST_DOWN_CTX = c.val ∧ t.rd Reg.VERD.LAST_DOWN_WHY = 3 ∧ t.pkts = s.pkts := by
  have hc : c.val % 2 ^ Reg.VERD.LAST_DOWN_CTX.width = c.val := Nat.mod_eq_of_lt c.isLt
  refine ⟨_, rfl, ?_⟩
  simp only [State.ctxDue, if_pos h, State.ctxDown, hd]
  refine ⟨by simp, fun k hk => by simp [Tbl.get_set_ne _ _ hk], ?_, ?_, by simp⟩
  · simp (disch := decide) [State.rd_fault, State.rd_wr_bit, hc]
  · simp (disch := decide) [State.rd_fault]
    rfl

theorem execContextDown_not_due (s : State) (c : CtxNum) (h : (s.ctxs.get c.val).voidSets ≤ s.act Reg.VERD.CTX_FAULT_MAX) :
    execContextDown c s = .next s := by
  rw [execContextDown, State.ctxDue, if_neg (not_lt.2 h)]

theorem State.ctxDown_reports (s : State) (c why : Nat) (dev : Bool) : ({ s with ctxs := (s.ctxDown c why dev).ctxs } : State).ReportsOnly (s.ctxDown c why dev) := by
  rw [State.ctxDown]
  dsimp only
  split
  · exact State.ReportsOnly.refl s
  · simp [State.reportsOnly_iff]

theorem State.ctxDowns_reports (l : List Nat) (why : Nat) (dev : Bool) (s : State) :
    ({ s with ctxs := (l.foldl (fun t c => t.ctxDown c why dev) s).ctxs } : State).ReportsOnly (l.foldl (fun t c => t.ctxDown c why dev) s) := by
  induction l generalizing s with
  | nil => exact State.ReportsOnly.refl s
  | cons c l ih =>
    have h := ih (s.ctxDown c why dev)
    have h' := s.ctxDown_reports c why dev
    rw [State.reportsOnly_iff] at *
    simp_all

theorem State.ctxDowns_dmc (l : List Nat) (why : Nat) (dev : Bool) (s : State) : (l.foldl (fun t c => t.ctxDown c why dev) s).flt.dmc = s.flt.dmc := by
  induction l generalizing s with
  | nil => rfl
  | cons c l ih =>
    rw [List.foldl_cons, ih, State.ctxDown]
    dsimp only
    split <;> simp

/-! ### Lanes, flocks and the device -/

theorem execLanePassEntry_passes (s : State) (l : Lane) : ∃ t, execLanePassEntry l s = .next t ∧ (t.lanes.get l.val).pass = true ∧
    (∀ k, k ≠ l.val → t.lanes.get k = s.lanes.get k) ∧ t.flt.dmc.get (65536 + l.val) = .withdrawn ∧
    ({ s with lanes := t.lanes } : State).ReportsOnly t := by
  refine ⟨_, rfl, ?_⟩
  rw [State.lanePass]
  dsimp only
  split
  · next h => exact ⟨by simp [h], fun k hk => by simp [Tbl.get_set_ne _ _ hk], by simp, by simp [State.reportsOnly_iff]⟩
  · exact ⟨by simp, fun k hk => by simp [Tbl.get_set_ne _ _ hk], by simp, by simp [State.reportsOnly_iff]⟩

/-- A withdrawal is noted in both views and reported before the flock's contexts go down. -/
theorem State.flockOut_spec (s : State) (f : Flock) (h : (s.flocks.get f.val).withdrawn = false) :
    ∃ u : State, s.flockOut f.val true = (u.ctxsOn f.val).foldl (fun t c => t.ctxDown c 4 true) u ∧
      u.flocks = s.flocks.set f.val { s.flocks.get f.val with withdrawn := true, dev := true } ∧
      u.flt.dmc.get (2 * 65536 + f.val) = .withdrawn ∧ ({ s with flocks := u.flocks } : State).ReportsOnly u := by
  simp only [State.flockOut, h, Bool.false_eq_true, if_false]
  exact ⟨_, rfl, by simp [State.abortJobs], by simp [State.abortJobs], by simp [State.abortJobs, State.reportsOnly_iff]⟩

theorem execFlockWithdraw_withdraws (s : State) (f : Flock) (h : (s.flocks.get f.val).withdrawn = false) : ∃ t, execFlockWithdraw f s = .next t ∧
    (t.flocks.get f.val).withdrawn = true ∧ (∀ k, k ≠ f.val → t.flocks.get k = s.flocks.get k) ∧
    t.flt.dmc.get (2 * 65536 + f.val) = .withdrawn ∧ ({ s with flocks := t.flocks, ctxs := t.ctxs } : State).ReportsOnly t := by
  obtain ⟨u, he, hf, hd, hr⟩ := s.flockOut_spec f h
  refine ⟨_, congrArg Host.Outcome.next he, ?_⟩
  have hc := State.ctxDowns_reports (u.ctxsOn f.val) 4 true u
  have hdc := State.ctxDowns_dmc (u.ctxsOn f.val) 4 true u
  generalize (u.ctxsOn f.val).foldl (fun t c => t.ctxDown c 4 true) u = v at hc hdc
  rw [State.ReportsOnly] at hc hr ⊢
  have hv : v.flocks = u.flocks := by rw [hc]
  refine ⟨by simp [hv, hf], fun k hk => by simp [hv, hf, Tbl.get_set_ne _ _ hk], by rw [hdc, hd], ?_⟩
  rw [hc, hr]

theorem execFlockWithdraw_again (s : State) (f : Flock) (h : (s.flocks.get f.val).withdrawn = true) : execFlockWithdraw f s = .next s := by
  simp [execFlockWithdraw, State.flockOut, h]

/-- A lane in pass mode. -/
def passLane (dev : Bool) (t : State) (l : Nat) : State :=
  { t with lanes := t.lanes.set l { t.lanes.get l with pass := true, dev := (t.lanes.get l).dev || dev } }

theorem passLanes_lanes (dev : Bool) (s : State) (n : Nat) : ((List.range n).foldl (passLane dev) s) =
    { s with lanes := ((List.range n).foldl (passLane dev) s).lanes } ∧ ∀ l < n, (((List.range n).foldl (passLane dev) s).lanes.get l).pass = true := by
  induction n with
  | zero => exact ⟨rfl, fun l hl => absurd hl (Nat.not_lt_zero l)⟩
  | succ n ih =>
    obtain ⟨he, hp⟩ := ih
    rw [List.range_succ, List.foldl_append]
    generalize (List.range n).foldl (passLane dev) s = u at he hp
    refine ⟨by rw [List.foldl_cons, List.foldl_nil, he]; rfl, fun l hl => ?_⟩
    by_cases h : l = n
    · simp [h, passLane]
    · simp [passLane, Tbl.get_set_ne _ _ h, hp l (by omega)]

theorem State.devSafeIn_spec (s : State) (dev : Bool) (h : s.devSafe = false) : ∃ u : State,
    s.devSafeIn dev = (State.abortJobs { (List.range 16).foldl (passLane dev) u with
      obs := { ((List.range 16).foldl (passLane dev) u).obs with new := [], wait := [] } } (fun _ _ => true)).announceLeave ∧
    ({ s with devSafe := true } : State).ReportsOnly u := by
  simp only [State.devSafeIn, h, Bool.false_eq_true, if_false]
  exact ⟨_, rfl, by simp [State.reportsOnly_iff]⟩

theorem State.devSafeIn_enters (s : State) (dev : Bool) (h : s.devSafe = false) : (s.devSafeIn dev).devSafe = true ∧
    (∀ l : Lane, ((s.devSafeIn dev).lanes.get l.val).pass = true) ∧ (s.devSafeIn dev).pkts = s.pkts ∧ (s.devSafeIn dev).eg = s.eg ∧
    (s.devSafeIn dev).cls = s.cls := by
  obtain ⟨u, he, hr⟩ := s.devSafeIn_spec dev h
  obtain ⟨hl, hp⟩ := passLanes_lanes dev u 16
  rw [he]
  generalize (List.range 16).foldl (passLane dev) u = v at hl hp
  have ha := State.herdOnly_announceLeave (State.abortJobs { v with obs := { v.obs with new := [], wait := [] } } (fun _ _ => true))
  rw [State.HerdOnly] at ha
  rw [State.ReportsOnly] at hr
  rw [ha]
  refine ⟨?_, fun l => hp l.val l.isLt, ?_, ?_, ?_⟩
  all_goals
    simp only [State.abortJobs]
    rw [hl, hr]

theorem execDeviceSafeEntry_enters (s : State) (why : SafeCause) (h : s.devSafe = false) : ∃ t, execDeviceSafeEntry why s = .next t ∧
    t.devSafe = true ∧ (∀ l : Lane, (t.lanes.get l.val).pass = true) ∧ t.pkts = s.pkts ∧ t.eg = s.eg ∧ t.cls = s.cls := by
  refine ⟨_, rfl, ?_⟩
  split
  · have hs := State.devSafeIn_enters (s.fault { cls := 1, scope := 6, action := 5, block := Blk.DEV }) (!(why == .forced || why == .environment)) (by simp [h])
    simpa using hs
  · exact s.devSafeIn_enters _ h

/-! ### Page VERD -/

theorem execRestoreCtx_queues (s : State) (src : Source) (c : CtxNum) (h : s.Takes src) :
    ∃ t, execRestoreCtx src c s = .next t ∧ s.Queued t (.restoreCtx c.val) ∧ s.WriteLater t :=
  ⟨_, s.basicCmd_takes _ h, by simp [State.Queued], by simp [State.writeLater_iff]⟩

theorem execLanePassSet_queues (s : State) (src : Source) (m : BitVec 16) (h : s.TakesExpert src) : ∃ t, execLanePassSet src m s = .next t ∧
    s.Queued t (.lanePass m.toNat) ∧ t.rd Reg.VERD.LANE_PASS_SET = m.toNat ∧ s.WriteLater t := by
  refine ⟨_, s.expertCmd_takes _ _ _ _ h, by simp [State.Queued], ?_, by simp [State.writeLater_iff]⟩
  rw [State.rd_later, State.rd_wr_self]
  exact Nat.mod_eq_of_lt m.isLt

theorem execForceSafe_queues (s : State) (src : Source) (h : s.TakesExpert src) :
    ∃ t, execForceSafe src s = .next t ∧ s.Queued t (.devSafe false) ∧ s.WriteLater t :=
  ⟨_, s.expertCmd_takes _ _ _ _ h, by simp [State.Queued], by simp [State.writeLater_iff]⟩

theorem execVerdPatchGo_queues (s : State) (src : Source) (h : s.TakesExpert src) : ∃ t, execVerdPatchGo src s = .next t ∧
    s.Queued t (.verdPatch (s.rd Reg.VERD.PATCH_CTX) (s.rd Reg.VERD.PATCH_CODE) (s.rd Reg.VERD.PATCH_SLOT)
      (BitVec.ofNat 32 (s.rd Reg.VERD.PATCH_DATA))) ∧ s.WriteLater t :=
  ⟨_, s.expertCmd_takes _ _ _ _ h, by simp (disch := decide) [State.Queued, State.rd_auditCmd, State.rd_wrote], by simp [State.writeLater_iff]⟩

/-- Settles O17: doubt about contexts, lanes, flocks and the device, and the commands of page VERD. -/
theorem doubtCommands : Obligations.DoubtCommands :=
  ⟨execContextDown_due, execContextDown_not_due, execLanePassEntry_passes, execFlockWithdraw_withdraws, execFlockWithdraw_again,
    execDeviceSafeEntry_enters, execRestoreCtx_queues, execLanePassSet_queues, execForceSafe_queues, execVerdPatchGo_queues⟩

end Sys2Proof.Machine
end

section
/-! PROOF. Rule commits (R61, R66 to R68, R247, R402): O18. -/

namespace Sys2Proof.Machine

-- One thread for the proofs, which bounds the memory that checking them takes.
set_option Elab.async false

open Sys2Proof

/-! ### The state of the commit -/

theorem State.commitState_setCommitState (s : State) (v : Nat) (hv : v < 8) : (s.setCommitState v).commitState = v := by
  rw [State.setCommitState]
  split
  · next h => exact h
  · rw [State.commitState, State.rd_event _ _ _ _ _ _ _ _ (by decide), State.rd_wr_self]
    exact Nat.mod_eq_of_lt hv

theorem State.rd_setCommitState (s : State) (v : Nat) (g : Field) (i j k : Nat) (h : g.key i j k ≠ Reg.TCAM.COMMIT_STATE.key 0 0 0)
    (hr : reportKey (g.key i j k) = false) : (s.setCommitState v).rd g i j k = s.rd g i j k := by
  rw [State.setCommitState]
  split
  · rfl
  · rw [State.rd_event _ _ _ _ _ _ _ _ hr, State.rd_wr_ne _ _ _ _ _ _ _ _ _ _ h]

@[simp] theorem State.setCommitState_cls (s : State) (v : Nat) : (s.setCommitState v).cls = s.cls := by
  rw [s.reportsOnly_setCommitState v]

@[simp] theorem State.setCommitState_pkts (s : State) (v : Nat) : (s.setCommitState v).pkts = s.pkts := by
  rw [s.reportsOnly_setCommitState v]

theorem State.wrote_commitState (s : State) (src : Source) : (s.wrote src).commitState = s.commitState :=
  s.rd_wrote src _ 0 0 0 (by decide)

theorem State.auditCmd_commitState (s : State) (src : Source) (f : Field) (i n r c k : Nat) :
    (s.auditCmd src f i n r c k).commitState = s.commitState :=
  s.rd_auditCmd src f i n r c k _ 0 0 0 (by decide)

theorem State.wrote_herdState (s : State) (src : Source) : (s.wrote src).herdState = s.herdState :=
  s.rd_wrote src _ 0 0 0 (by decide)

theorem State.auditCmd_herdState (s : State) (src : Source) (f : Field) (i n r c k : Nat) :
    (s.auditCmd src f i n r c k).herdState = s.herdState :=
  s.rd_auditCmd src f i n r c k _ 0 0 0 (by decide)

theorem State.writeOnly_wrote (s : State) (src : Source) : s.WriteOnly (s.wrote src) := by
  simp [State.writeOnly_iff]

/-! ### COMMIT and ABORT -/

theorem execRuleCommit_open (s : State) (src : Source) (h : s.Takes src) (hc : s.commitState = 0) (hh : s.herdState < 2) :
    ∃ t, execRuleCommit src s = .next t ∧ t.commitState = 1 ∧ t.cls = { s.cls with commitWrite := s.time.beat, waitOrder := false } ∧
      ({ s with cls := t.cls } : State).WriteOnly t := by
  refine ⟨_, s.basicCmd_takes _ h, ?_⟩
  simp only [State.wrote_commitState, hc, ne_eq, not_true_eq_false, if_false, State.auditCmd_herdState, State.wrote_herdState, not_le.2 hh]
  refine ⟨State.commitState_setCommitState _ 1 (by norm_num), by simp, ?_⟩
  refine State.WriteOnly.trans ?_ (State.reportsOnly_setCommitState _ 1).writeOnly
  simp [State.writeOnly_iff]

theorem execRuleCommit_not_open (s : State) (src : Source) (h : s.Takes src) (hc : s.commitState ≠ 0) :
    ∃ t, execRuleCommit src s = .next t ∧ t.commitState = s.commitState ∧ s.WriteOnly t := by
  refine ⟨_, s.basicCmd_takes _ h, ?_⟩
  rw [if_pos (by rwa [State.wrote_commitState])]
  exact ⟨by rw [State.auditCmd_commitState, State.wrote_commitState], by simp [State.writeOnly_iff]⟩

theorem State.cmtResult_reports (s : State) (r : Nat) : s.ReportsOnly (s.cmtResult r) :=
  State.ReportsOnly.wr_event s _ _ _ _ _ _ _ _

theorem execRuleCommit_electing (s : State) (src : Source) (h : s.Takes src) (hc : s.commitState = 0) (hh : 2 ≤ s.herdState)
    (he : s.rd Reg.HERD.ELECTING = 1) : ∃ t, execRuleCommit src s = .next t ∧ t.commitState = 0 ∧ t.rd Reg.HERD.CMT_RESULT = 3 ∧ s.WriteOnly t := by
  refine ⟨_, s.basicCmd_takes _ h, ?_⟩
  have he' : ((s.wrote src).auditCmd src Reg.TCAM.COMMIT 0 1 0).rd Reg.HERD.ELECTING = 1 := by
    rw [State.rd_auditCmd _ _ _ _ _ _ _ _ _ _ _ _ (by decide), State.rd_wrote _ _ _ _ _ _ (by decide), he]
  simp only [State.wrote_commitState, hc, ne_eq, not_true_eq_false, if_false, State.auditCmd_herdState, State.wrote_herdState, if_pos hh, if_pos he']
  refine ⟨?_, ?_, ?_⟩
  · rw [State.commitState, State.cmtResult, State.rd_event _ _ _ _ _ _ _ _ (by decide), State.rd_wr_ne _ _ _ _ _ _ _ _ _ _ (by decide)]
    exact (State.auditCmd_commitState _ _ _ _ _ _ _ _).trans ((s.wrote_commitState src).trans hc)
  · rw [State.cmtResult, State.rd_event _ _ _ _ _ _ _ _ (by decide), State.rd_wr_self]
    rfl
  · refine State.WriteOnly.trans ?_ (State.cmtResult_reports _ 3).writeOnly
    simp [State.writeOnly_iff]

theorem execRuleAbort_armed (s : State) (src : Source) (h : s.Takes src) (hc : s.commitState = 2) (ha : s.cls.armHerd = false) :
    ∃ t, execRuleAbort src s = .next t ∧ t.commitState = 0 ∧ s.WriteOnly t := by
  refine ⟨_, s.basicCmd_takes _ h, ?_⟩
  have ha' : (((s.wrote src).setCommitState 0).auditCmd src Reg.TCAM.ABORT 0 2 0).cls.armHerd = false := by simp [ha]
  simp only [State.wrote_commitState, hc, ne_eq, not_true_eq_false, if_false, ha', Bool.false_eq_true]
  refine ⟨?_, ?_⟩
  · rw [State.auditCmd_commitState, State.commitState_setCommitState _ 0 (by norm_num)]
  · refine ((s.writeOnly_wrote src).trans (State.reportsOnly_setCommitState _ 0).writeOnly).trans ?_
    simp [State.writeOnly_iff]

theorem execRuleAbort_not_armed (s : State) (src : Source) (h : s.Takes src) (hc : s.commitState ≠ 2) :
    ∃ t, execRuleAbort src s = .next t ∧ t.commitState = s.commitState ∧ s.WriteOnly t := by
  refine ⟨_, s.basicCmd_takes _ h, ?_⟩
  rw [if_pos (by rwa [State.wrote_commitState])]
  exact ⟨by rw [State.auditCmd_commitState, State.wrote_commitState], by simp [State.writeOnly_iff]⟩

/-! ### The end of the checks -/

/-- The code of the checks of a rule commit (R67). -/
abbrev State.ruleCode (s : State) : Nat := s.ruleCheck (s.rd Reg.TCAM.STAGED_VER) (s.rd Reg.TCAM.COMMIT_BEAT) s.cls.commitWrite true

theorem State.ruleCheck_le (s : State) (v c w : Nat) (b : Bool) : s.ruleCheck v c w b ≤ 5 := by
  rw [State.ruleCheck]
  split_ifs <;> omega

theorem execRuleCheckEnd_arms (s : State) (hc : s.commitState = 1) (hw : s.cls.waitOrder = false) (h0 : s.ruleCode = 0) :
    ∃ t, execRuleCheckEnd s = .next t ∧ t.commitState = 2 ∧ t.cls.armC = s.rd Reg.TCAM.COMMIT_BEAT ∧ t.rd Reg.TCAM.REFUSE = 0 ∧
      t.cls.tcam = s.cls.tcam := by
  refine ⟨_, (if_neg (by simp [hc, hw])).trans (if_pos h0), ?_, ?_, ?_, ?_⟩
  · exact State.commitState_setCommitState _ 2 (by norm_num)
  · simp [State.ruleArm]
  · rw [State.ruleArm, State.rd_setCommitState _ _ _ _ _ _ (by decide) (by decide)]
    exact s.rd_wr_self Reg.TCAM.REFUSE 0 0 0 0
  · simp [State.ruleArm]

theorem execRuleCheckEnd_waits (s : State) (_ : s.commitState = 1) (hw : s.cls.waitOrder = true) : execRuleCheckEnd s = .next s :=
  if_pos (.inr hw)

theorem execRuleCheckEnd_refuses (s : State) (hc : s.commitState = 1) (hw : s.cls.waitOrder = false) (h0 : s.ruleCode ≠ 0) :
    ∃ t, execRuleCheckEnd s = .next t ∧ t.commitState = 0 ∧ t.cls = s.cls ∧ t.rd Reg.TCAM.REFUSE = s.ruleCode := by
  refine ⟨_, (if_neg (by simp [hc, hw])).trans (if_neg h0), State.commitState_setCommitState _ 0 (by norm_num), by simp, ?_⟩
  rw [State.rd_setCommitState _ _ _ _ _ _ (by decide) (by decide), State.rd_wr_self]
  exact Nat.mod_eq_of_lt ((s.ruleCheck_le _ _ _ _).trans_lt (by decide))

/-! ### Switch, retirement and copy -/

theorem execRuleVersionSwitch_due (s : State) (hc : s.commitState = 2) (hb : s.cls.armC ≤ s.time.beat) : ∃ t, execRuleVersionSwitch s = .next t ∧
    t.activeSlot = 1 - s.activeSlot ∧ t.commitState = 3 ∧ t.cls = { s.cls with switchBeat := s.cls.armC, retired := false } ∧ t.pkts = s.pkts := by
  refine ⟨_, congrArg Host.Outcome.next (if_pos ⟨hc, hb⟩), ?_, State.commitState_setCommitState _ 3 (by norm_num), by simp, by simp⟩
  have hs : s.stagedSlot < 2 ^ Reg.TCAM.ACTIVE_SLOT.width := by
    have h2 : 2 ^ Reg.TCAM.ACTIVE_SLOT.width = 2 := rfl
    rw [h2, State.stagedSlot]
    omega
  rw [State.activeSlot, State.rd_setCommitState _ _ _ _ _ _ (by decide) (by decide)]
  exact (State.rd_wr_self _ Reg.TCAM.ACTIVE_SLOT _ 0 0 0).trans (Nat.mod_eq_of_lt hs)

theorem execRuleVersionSwitch_early (s : State) (_ : s.commitState = 2) (hb : s.time.beat < s.cls.armC) : execRuleVersionSwitch s = .next s :=
  congrArg Host.Outcome.next (if_neg (fun h => absurd h.2 (not_le.2 hb)))

theorem execRuleRetire_free (s : State) (hc : s.commitState = 3) (hr : s.cls.retired = false) (hb : s.cls.switchBeat + 5 ≤ s.time.beat)
    (hf : ∀ l < 16, (s.lanes.get l).pass = true ∨ s.cls.occ.get (l * 2 + s.stagedSlot) = 0) :
    execRuleRetire s = .next { s with cls := { s.cls with retired := true } } :=
  if_pos ⟨hc, by simp [hr], hb, by simpa [List.all_eq_true, Bool.or_eq_true] using hf⟩

theorem execRuleRetire_held (s : State) (l : Lane) (hp : (s.lanes.get l.val).pass = false) (ho : s.cls.occ.get (l.val * 2 + s.stagedSlot) ≠ 0) :
    execRuleRetire s = .next s := by
  refine if_neg (fun ⟨_, _, _, h⟩ => ?_)
  simpa [hp, ho] using List.all_eq_true.1 h l.val (List.mem_range.2 l.isLt)

theorem State.copyActive_defAct (s : State) : s.copyActive.defAct 0 = s.copyActive.defAct 1 := by
  have h : s.stagedSlot = 0 ∧ s.activeSlot ≠ 0 ∨ s.stagedSlot = 1 ∧ s.activeSlot = 0 := by
    rw [State.stagedSlot]
    omega
  obtain ⟨ho, ha⟩ | ⟨ho, ha⟩ := h <;> simp [State.copyActive, State.defAct, ho, ha]

theorem State.copyActive_tcam (s : State) : ∀ p ∈ s.copyActive.cls.tcam, p.2.s0 = p.2.s1 := by
  have h : s.stagedSlot = 0 ∧ s.activeSlot ≠ 0 ∨ s.stagedSlot = 1 ∧ s.activeSlot = 0 := by
    rw [State.stagedSlot]
    omega
  intro p hp
  obtain ⟨e, -, rfl⟩ := List.mem_map.1 hp
  obtain ⟨ho, ha⟩ | ⟨ho, ha⟩ := h <;> simp [TcamEntry.setSlot, TcamEntry.inSlot, ho, ha]

theorem execRuleSlotCopyEnd_copies (s : State) (hc : s.commitState = 3) (hr : s.cls.retired = true) : ∃ t, execRuleSlotCopyEnd s = .next t ∧
    t.commitState = 0 ∧ t.cls.retired = false ∧ (∀ p ∈ t.cls.tcam, p.2.s0 = p.2.s1) ∧ t.defAct 0 = t.defAct 1 ∧ t.pkts = s.pkts := by
  refine ⟨_, if_pos ⟨hc, hr⟩, State.commitState_setCommitState _ 0 (by norm_num), by simp, ?_, ?_, ?_⟩
  · simpa using s.copyActive_tcam
  · simpa [State.defAct] using s.copyActive_defAct
  · simp [State.copyActive]

/-- Settles O18: the life of a rule commit. -/
theorem ruleCommitCommands : Obligations.RuleCommitCommands :=
  ⟨execRuleCommit_open, execRuleCommit_not_open, execRuleCommit_electing, execRuleAbort_armed, execRuleAbort_not_armed, execRuleCheckEnd_arms,
    execRuleCheckEnd_waits, execRuleCheckEnd_refuses, execRuleVersionSwitch_due, execRuleVersionSwitch_early, execRuleRetire_free,
    execRuleRetire_held, execRuleSlotCopyEnd_copies⟩

end Sys2Proof.Machine
end

section
/-! PROOF. Entry commands and bulk loads (R69, R71, R402): O19. -/

namespace Sys2Proof.Machine

-- One thread for the proofs, which bounds the memory that checking them takes.
set_option Elab.async false

open Sys2Proof

/-! ### Keys of the pages TCAM -/

theorem entBusy_key (r : Replica) : reportKey (Reg.TCAM.ENT_BUSY.key r.val 0 0) = false ∧
    Reg.TCAM.ENT_BUSY.key r.val 0 0 ≠ Reg.DEV.SEQ_RESULT.key 0 0 0 := by
  revert r
  decide

theorem entResult_key (r : Replica) : reportKey (Reg.TCAM.ENT_RESULT.key r.val 0 0) = false := by
  revert r
  decide

theorem State.wrote_entBusy (s : State) (src : Source) (r : Replica) : (s.wrote src).rd Reg.TCAM.ENT_BUSY r.val = s.rd Reg.TCAM.ENT_BUSY r.val :=
  s.rd_wrote src _ _ _ _ (entBusy_key r).2

theorem State.auditCmd_entBusy (s : State) (src : Source) (f : Field) (i n x c k : Nat) (r : Replica) :
    (s.auditCmd src f i n x c k).rd Reg.TCAM.ENT_BUSY r.val = s.rd Reg.TCAM.ENT_BUSY r.val :=
  s.rd_auditCmd src f i n x c k _ _ _ _ (entBusy_key r).1

/-! ### Commands -/

/-- A command is kept, and its replica is busy. -/
theorem State.entStart_takes (s : State) (src : Source) (op : EntOp) (e : EntCmd) (hb : s.rd Reg.TCAM.ENT_BUSY e.replica.val = 0) :
    ((s.wrote src).entStart src op e).rd Reg.TCAM.ENT_BUSY e.replica.val = 1 ∧
    ((s.wrote src).entStart src op e).cls = { s.cls with entPend := s.cls.entPend.set e.replica.val (some { op := op, cmd := e }) } ∧
    ({ s with cls := ((s.wrote src).entStart src op e).cls } : State).WriteOnly ((s.wrote src).entStart src op e) := by
  rw [State.entStart]
  simp only [State.wrote_entBusy, hb, zero_ne_one, if_false, State.auditCmd_entBusy, State.rd_wr_self]
  exact ⟨rfl, by simp, by simp [State.writeOnly_iff]⟩

theorem entCommands_take (s : State) (src : Source) (e : EntCmd) (h : s.Takes src) (hb : s.rd Reg.TCAM.ENT_BUSY e.replica.val = 0) :
    let takes (i : Instr) (op : EntOp) : Prop := ∃ t, exec i s = .next t ∧ t.rd Reg.TCAM.ENT_BUSY e.replica.val = 1 ∧
      t.cls = { s.cls with entPend := s.cls.entPend.set e.replica.val (some { op := op, cmd := e }) } ∧ ({ s with cls := t.cls } : State).WriteOnly t
    takes (.entWrite src e) .write ∧ takes (.entSetStaged src e) .setStaged ∧ takes (.entClearStaged src e) .clearStaged ∧
      takes (.entRead src e) .read ∧ takes (.entRepair src e) .repair := by
  have hn (op : EntOp) : s.basicCmd src (fun s => s.entStart src op e) = .next ((s.wrote src).entStart src op e) := s.basicCmd_takes _ h
  exact ⟨⟨_, hn .write, s.entStart_takes src .write e hb⟩, ⟨_, hn .setStaged, s.entStart_takes src .setStaged e hb⟩,
    ⟨_, hn .clearStaged, s.entStart_takes src .clearStaged e hb⟩, ⟨_, hn .read, s.entStart_takes src .read e hb⟩,
    ⟨_, hn .repair, s.entStart_takes src .repair e hb⟩⟩

theorem execEntWrite_busy (s : State) (src : Source) (e : EntCmd) (h : s.Takes src) (hb : s.rd Reg.TCAM.ENT_BUSY e.replica.val = 1) :
    ∃ t, execEntWrite src e s = .next t ∧ t.rd Reg.TCAM.ENT_BUSY e.replica.val = 1 ∧ s.WriteOnly t := by
  refine ⟨_, s.basicCmd_takes _ h, ?_⟩
  rw [State.entStart]
  simp only [State.wrote_entBusy, hb, if_true, State.auditCmd_entBusy, true_and]
  simp [State.writeOnly_iff]

/-! ### The end of a command -/

/-- The replica's fields at the end of a command (R71). -/
def State.entDone (s : State) (r n : Nat) : State := ((s.wr Reg.TCAM.ENT_BUSY 0 r).wr Reg.TCAM.ENT_RESULT n r).event Blk.TCAM r 0

theorem State.entDone_busy (s : State) (r : Replica) (n : Nat) : (s.entDone r.val n).rd Reg.TCAM.ENT_BUSY r.val = 0 := by
  rw [State.entDone, State.rd_event _ _ _ _ _ _ _ _ (entBusy_key r).1]
  simp (disch := decide) only [State.rd_wr_bit, State.rd_wr_self]
  rfl

theorem State.entDone_result (s : State) (r : Replica) (n : Nat) (hn : n < 16) : (s.entDone r.val n).rd Reg.TCAM.ENT_RESULT r.val = n := by
  rw [State.entDone, State.rd_event _ _ _ _ _ _ _ _ (entResult_key r), State.rd_wr_self]
  exact Nat.mod_eq_of_lt hn

theorem State.entDone_reports (s : State) (r n : Nat) : s.ReportsOnly (s.entDone r n) := by
  simp [State.reportsOnly_iff, State.entDone]

@[simp] theorem State.entDone_cls (s : State) (r n : Nat) : (s.entDone r n).cls = s.cls := by
  rw [s.entDone_reports r n]

@[simp] theorem State.entDone_pkts (s : State) (r n : Nat) : (s.entDone r n).pkts = s.pkts := by
  rw [s.entDone_reports r n]

/-- A replica without a waiting command. -/
def State.entFree (s : State) (r : Nat) : State := { s with cls := { s.cls with entPend := s.cls.entPend.set r none } }

theorem execEntCmdEnd_acted (s : State) (r : Replica) (p : EntPend) (n : Nat) (h : s.cls.entPend.get r.val = some p) (hr : p.result = some n)
    (ha : p.acted < s.time.beat) :
    execEntCmdEnd r s = .next ((if p.load.isSome then (s.entFree r.val).loadStep n else s.entFree r.val).entDone r.val n) := by
  simp only [execEntCmdEnd, h, hr, if_neg (not_le.2 ha)]
  rfl

theorem execEntCmdEnd_ends (s : State) (r : Replica) (op : EntOp) (c : EntCmd) (n a : Nat)
    (h : s.cls.entPend.get r.val = some { op := op, cmd := c, result := some n, acted := a }) (ha : a < s.time.beat) (hn : n < 16) :
    ∃ t, execEntCmdEnd r s = .next t ∧ t.rd Reg.TCAM.ENT_BUSY r.val = 0 ∧ t.rd Reg.TCAM.ENT_RESULT r.val = n ∧
      t.cls = { s.cls with entPend := s.cls.entPend.set r.val none } ∧ t.pkts = s.pkts := by
  refine ⟨_, execEntCmdEnd_acted s r _ n h rfl ha, State.entDone_busy _ r n, State.entDone_result _ r n hn, ?_, ?_⟩
  · simp [State.entFree]
  · simp [State.entFree]

/-! ### Bulk loads -/

theorem execLoadGo_starts (s : State) (src : Source) (h : s.Takes src) (hl : s.cls.loadRun = false) : ∃ t, execLoadGo src s = .next t ∧
    t.rd Reg.TCAM.LOAD_DONE = 0 ∧ t.cls = { s.cls with
      loadRun := decide (s.rd Reg.TCAM.LOAD_COUNT ≠ 0), loadAddr := s.rd Reg.TCAM.LOAD_ADDR, loadLeft := s.rd Reg.TCAM.LOAD_COUNT } ∧
    ({ s with cls := t.cls } : State).WriteOnly t := by
  refine ⟨_, s.basicCmd_takes _ h, ?_⟩
  simp only [State.wrote_cls, hl, Bool.false_eq_true, if_false]
  refine ⟨?_, ?_, by simp [State.writeOnly_iff]⟩
  · rw [State.rd_auditCmd _ _ _ _ _ _ _ _ _ _ _ _ (by decide), State.rd_wr_self]
    rfl
  · simp (disch := decide) [State.rd_wrote]

theorem execLoadGo_running (s : State) (src : Source) (h : s.Takes src) (hl : s.cls.loadRun = true) :
    ∃ t, execLoadGo src s = .next t ∧ s.WriteOnly t :=
  ⟨_, s.basicCmd_takes _ h, by simp [hl, State.writeOnly_iff]⟩

theorem execTcamLoadRecord_idle (s : State) (h : s.cls.loadRun = false) : execTcamLoadRecord s = .next s :=
  if_pos (.inl (by simp [h]))

theorem execTcamLoadRecord_busy (s : State) (_ : s.cls.loadRun = true) (hb : s.rd Reg.TCAM.ENT_BUSY = 1) : execTcamLoadRecord s = .next s :=
  if_pos (.inr hb)

theorem execTcamLoadRecord_takes (s : State) (b : List Byte) (h : s.cls.loadRun = true) (hb : s.rd Reg.TCAM.ENT_BUSY = 0)
    (hm : b = Mem.readN s.hbm s.cls.loadAddr 192) : ∃ t d, execTcamLoadRecord s = .next t ∧ t.rd Reg.TCAM.ENT_BUSY = 1 ∧
      d = { value := BitVec.ofNat 576 (leAt b 0 72), mask := BitVec.ofNat 576 (leAt b 72 72), act := BitVec.ofNat 128 (leAt b 144 16) } ∧
      t.cls = { s.cls with
        entPend := s.cls.entPend.set 0 (some { op := entOpOf (bits (leAt b 160 4) 16 3), cmd := entCmdOf 0 (leAt b 160 4), load := some d }) } ∧
      t = { s with regs := t.regs, cls := t.cls } := by
  subst hm
  refine ⟨_, _, if_neg (by simp [h, hb]), ?_, rfl, rfl, rfl⟩
  exact State.rd_wr_self _ Reg.TCAM.ENT_BUSY 1 0 0 0

theorem execEntCmdEnd_refused (s : State) (op : EntOp) (c : EntCmd) (d : EntData) (n a : Nat)
    (h : s.cls.entPend.get 0 = some { op := op, cmd := c, result := some n, acted := a, load := some d }) (ha : a < s.time.beat) (hn : n ≠ 0)
    (hn' : n < 16) : ∃ t, execEntCmdEnd ⟨0, by decide⟩ s = .next t ∧ t.rd Reg.TCAM.ENT_RESULT = n ∧
      t.cls = { s.cls with entPend := s.cls.entPend.set 0 none, loadRun := false } := by
  refine ⟨_, execEntCmdEnd_acted s ⟨0, by decide⟩ _ n h rfl ha, State.entDone_result _ ⟨0, by decide⟩ n hn', ?_⟩
  simp [State.entFree, State.loadStep, hn]

theorem execEntCmdEnd_loaded (s : State) (op : EntOp) (c : EntCmd) (d : EntData) (a : Nat)
    (h : s.cls.entPend.get 0 = some { op := op, cmd := c, result := some 0, acted := a, load := some d }) (ha : a < s.time.beat) :
    ∃ t, execEntCmdEnd ⟨0, by decide⟩ s = .next t ∧ t.rd Reg.TCAM.ENT_RESULT = 0 ∧ s.Counts t Reg.TCAM.LOAD_DONE ∧
      t.cls = { s.cls with
        entPend := s.cls.entPend.set 0 none, loadAddr := s.cls.loadAddr + 192, loadLeft := s.cls.loadLeft - 1
        loadRun := decide (s.cls.loadLeft - 1 ≠ 0) } := by
  refine ⟨_, execEntCmdEnd_acted s ⟨0, by decide⟩ _ 0 h rfl ha, State.entDone_result _ ⟨0, by decide⟩ 0 (by norm_num), ?_, ?_⟩
  · rw [State.Counts, State.entDone, State.rd_event _ _ _ _ _ _ _ _ (by decide)]
    simp (disch := decide) only [State.rd_wr_bit, Option.isSome_some, if_true, State.loadStep, ne_eq, not_true_eq_false, if_false, State.rd_bump]
    rfl
  · simp [State.entFree, State.loadStep]
    exact decide_not

/-- Settles O19: entry commands and the records of a bulk load. -/
theorem entryCommands : Obligations.EntryCommands :=
  ⟨entCommands_take, execEntWrite_busy, execEntCmdEnd_ends, execLoadGo_starts, execLoadGo_running, execTcamLoadRecord_idle,
    execTcamLoadRecord_busy, execTcamLoadRecord_takes, execEntCmdEnd_refused, execEntCmdEnd_loaded⟩

end Sys2Proof.Machine
end

section
/-! PROOF. Loading contexts and the layout (R206 to R209, R215): O20. -/

namespace Sys2Proof.Machine

-- One thread for the proofs, which bounds the memory that checking them takes.
set_option Elab.async false

open Sys2Proof

variable {s t u : State}

/-! ### The withdrawals of a plan load -/

/-- t differs from s in what withdrawals change: reports, the flocks, and whether contexts are down. Page CTX keeps the operands of a LOAD. -/
structure State.Withdraws (s t : State) : Prop where
  frame : t = { s with regs := t.regs, hq := t.hq, host := t.host, hbm := t.hbm, flt := t.flt, flocks := t.flocks, ctxs := t.ctxs }
  ctx : ∀ c, t.ctxs.get c = { s.ctxs.get c with down := (t.ctxs.get c).down, downDev := (t.ctxs.get c).downDev }
  addr : t.rd Reg.CTX.IMG_ADDR = s.rd Reg.CTX.IMG_ADDR
  len : t.rd Reg.CTX.IMG_LEN = s.rd Reg.CTX.IMG_LEN
  ver : t.rd Reg.CTX.NEW_VER = s.rd Reg.CTX.NEW_VER

theorem State.Withdraws.refl (s : State) : s.Withdraws s := ⟨rfl, fun _ => rfl, rfl, rfl, rfl⟩

theorem State.Withdraws.trans (h : s.Withdraws t) (h' : t.Withdraws u) : s.Withdraws u := by
  refine ⟨?_, fun c => ?_, h'.addr.trans h.addr, h'.len.trans h.len, h'.ver.trans h.ver⟩
  · rw [h'.frame, h.frame]
  · rw [h'.ctx c, h.ctx c]

theorem State.Withdraws.of_flocks {x : State} (hx : x = { s with flocks := x.flocks, flt := x.flt, host := x.host }) : s.Withdraws x := by
  refine ⟨?_, fun c => ?_, State.rd_congr ?_ _ _ _ _, State.rd_congr ?_ _ _ _ _, State.rd_congr ?_ _ _ _ _⟩ <;> rw [hx]

theorem State.Withdraws.foldl {α : Type} {g : State → α → State} (h : ∀ (t : State) (x : α), t.Withdraws (g t x)) (l : List α) (s : State) :
    s.Withdraws (l.foldl g s) := by
  induction l generalizing s with
  | nil => exact State.Withdraws.refl s
  | cons x l ih => exact (h s x).trans (ih _)

theorem State.ReportsOnly.withdraws (h : s.ReportsOnly t) (hk : ∀ g ∈ [Reg.CTX.IMG_ADDR, Reg.CTX.IMG_LEN, Reg.CTX.NEW_VER], t.rd g = s.rd g) :
    s.Withdraws t := by
  rw [State.ReportsOnly] at h
  refine ⟨?_, fun c => ?_, hk _ (by simp), hk _ (by simp), hk _ (by simp)⟩
  · rw [h]
  · rw [h]

theorem State.withdraws_event (s : State) (b i n : Nat) : s.Withdraws (s.event b i n) :=
  (State.ReportsOnly.event s b i n).withdraws (by simp (disch := decide) [State.rd_event])

theorem State.withdraws_fault (s : State) (r : FaultRec) : s.Withdraws (s.fault r) :=
  (State.ReportsOnly.fault s r).withdraws (by simp (disch := decide) [State.rd_fault])

theorem State.withdraws_ctxDown (s : State) (c why : Nat) (dev : Bool) : s.Withdraws (s.ctxDown c why dev) := by
  rw [State.ctxDown]
  dsimp only
  split
  · exact State.Withdraws.refl s
  · refine State.Withdraws.trans ⟨rfl, fun k => ?_, ?_, ?_, ?_⟩ (State.withdraws_fault _ _)
    · by_cases hk : k = c
      · simp [hk]
      · simp [Tbl.get_set_ne _ _ hk]
    all_goals
      exact (State.rd_wr_ne _ _ _ _ _ _ _ _ _ _ (by decide)).trans (State.rd_wr_ne _ _ _ _ _ _ _ _ _ _ (by decide))

theorem State.withdraws_flockOut (s : State) (f : Nat) (dev : Bool) : s.Withdraws (s.flockOut f dev) := by
  have h1 (u : State) (x : Tbl FlockSt) (d : Tbl DmcView) : u.Withdraws { u with flocks := x, flt := { u.flt with dmc := d } } :=
    State.Withdraws.of_flocks rfl
  have h2 (u : State) (p : Nat → JobRun → Bool) : u.Withdraws (u.abortJobs p) := State.Withdraws.of_flocks rfl
  rw [State.flockOut]
  dsimp only
  split
  · exact State.Withdraws.refl s
  · exact ((((h1 s _ _).trans (State.withdraws_event _ _ _ _)).trans (State.withdraws_fault _ _)).trans (h2 _ _)).trans
      (State.Withdraws.foldl (fun t (c : Nat) => t.withdraws_ctxDown c 4 dev) _ _)

theorem State.withdraws_wr_flock (s : State) (v f : Nat) (g : Field) (hb : g.block = 48) (hl : g.lo + g.bstride * 0 < 64)
    (ho : g.off + g.stride * 0 < 4096) : s.Withdraws (s.wr g v f) := by
  have hp (f' : Field) (h : pageBase f'.block 0 / 4096 < 256) (hl' : f'.lo + f'.bstride * 0 < 64) (ho' : f'.off + f'.stride * 0 < 4096) :
      (s.wr g v f).rd f' = s.rd f' := by
    refine State.rd_wr_ne _ _ _ _ _ _ _ _ _ _ (Field.key_ne_of_page (by decide) hl ho (by decide) hl' ho' ?_)
    have h48 : pageBase g.block f = 1048576 + f * 4096 := by rw [hb]; rfl
    omega
  exact ⟨rfl, fun _ => rfl, hp _ (by decide) (by decide) (by decide), hp _ (by decide) (by decide) (by decide),
    hp _ (by decide) (by decide) (by decide)⟩

theorem State.withdraws_treeOut (s : State) (f m : Nat) (dev : Bool) : s.Withdraws (s.treeOut f m dev) := by
  have h1 := s.withdraws_wr_flock (s.rd Reg.FLOCK.TREE_WD f ||| m) f Reg.FLOCK.TREE_WD rfl (by decide) (by decide)
  rw [State.treeOut]
  have h2 (u : State) (d : Tbl DmcView) : u.Withdraws { u with flt := { u.flt with dmc := d } } := State.Withdraws.of_flocks rfl
  split
  · exact (h1.trans (h2 _ _)).trans (State.withdraws_flockOut _ f dev)
  · exact h1.trans (h2 _ _)

theorem State.withdraws_arrayOut (s : State) (f m : Nat) (dev : Bool) : s.Withdraws (s.arrayOut f m dev) := by
  have h1 := s.withdraws_wr_flock (s.rd Reg.FLOCK.ARRAY_WD f ||| m) f Reg.FLOCK.ARRAY_WD rfl (by decide) (by decide)
  rw [State.arrayOut]
  have h2 (u : State) (d : Tbl DmcView) : u.Withdraws { u with flt := { u.flt with dmc := d } } := State.Withdraws.of_flocks rfl
  split
  · exact (h1.trans (h2 _ _)).trans (State.withdraws_flockOut _ f dev)
  · exact h1.trans (h2 _ _)

theorem State.withdraws_planWithdrawals (s : State) : s.Withdraws s.planWithdrawals := by
  refine State.Withdraws.foldl (fun t e => ?_) _ s
  have h1 (x : Tbl FlockSt) : t.Withdraws { t with flocks := x } := State.Withdraws.of_flocks rfl
  exact ((h1 _).trans (State.withdraws_treeOut _ _ _ _)).trans (State.withdraws_arrayOut _ _ _ _)

/-! ### Commands of page CTX -/

theorem State.wrote_ctxSel (s : State) (src : Source) : (s.wrote src).ctxSel = s.ctxSel :=
  s.rd_wrote src _ 0 0 0 (by decide)

theorem State.auditCmd_ctxSel (s : State) (src : Source) (f : Field) (i n r c k : Nat) : (s.auditCmd src f i n r c k).ctxSel = s.ctxSel :=
  s.rd_auditCmd src f i n r c k _ 0 0 0 (by decide)

theorem State.rd_ctxResult (s : State) (r : Nat) (hr : r < 4) : (s.ctxResult r).rd Reg.CTX.RESULT = r := by
  rw [State.ctxResult, State.rd_event _ _ _ _ _ _ _ _ (by decide), State.rd_wr_self]
  exact Nat.mod_eq_of_lt hr

theorem State.reportsOnly_ctxResult (s : State) (r : Nat) : s.ReportsOnly (s.ctxResult r) :=
  State.ReportsOnly.wr_event s _ _ _ _ _ _ _ _

theorem State.reportsOnly_ctxRefuse (s : State) (r : Refusal3) : s.ReportsOnly (s.ctxRefuse r) := by
  have h : s.ReportsOnly ((((s.wr Reg.CTX.REFUSE r.1).wr Reg.CTX.REFUSE_SECT r.2.1).wr Reg.CTX.REFUSE_OFF r.2.2).bump Reg.CTX.REFUSALS) := rfl
  exact h.trans (State.reportsOnly_ctxResult _ 1)

theorem State.rd_ctxRefuse (s : State) (r : Refusal3) : (s.ctxRefuse r).rd Reg.CTX.RESULT = 1 :=
  State.rd_ctxResult _ 1 (by norm_num)

theorem State.rd_ctxRefuse_reason (s : State) (r : Refusal3) (hr : r.1 < 256) : (s.ctxRefuse r).rd Reg.CTX.REFUSE = r.1 := by
  rw [State.ctxRefuse, State.ctxResult, State.rd_event _ _ _ _ _ _ _ _ (by decide)]
  simp (disch := decide) only [State.rd_wr_bit, State.rd_bump_bit, State.rd_wr_self]
  exact Nat.mod_eq_of_lt hr

theorem State.reportsOnly_ueRecord (s : State) (line a c : Nat) : s.ReportsOnly (s.ueRecord line a c) := by
  have h : s.ReportsOnly (s.countUe line) := rfl
  exact h.trans (State.ReportsOnly.fault _ _)

/-- A command the context's state refuses (R208). -/
theorem State.ctxCmd_refused (s : State) (src : Source) (op : Nat) (c : Option Nat) (ok : Ctx → Bool) (k : Ctx → State → State)
    (h : ok (s.slotOf2 c) = false) : ((s.wrote src).ctxCmd src op c ok k).rd Reg.CTX.RESULT = 2 ∧ s.WriteOnly ((s.wrote src).ctxCmd src op c ok k) := by
  have h' : ok ((s.wrote src).slotOf2 c) = false := by cases c <;> simpa [State.slotOf2] using h
  have he : (s.wrote src).ctxCmd src op c ok k = ((s.wrote src).auditCmd src Reg.CTX.CMD 0 op 3 (c.getD 0)).ctxResult 2 := by
    simp [State.ctxCmd, h']
  rw [he]
  refine ⟨State.rd_ctxResult _ 2 (by norm_num), ?_⟩
  exact ((s.writeOnly_wrote src).trans (State.ReportsOnly.auditCmd _ _ _ _ _ _ _ _).writeOnly).trans (State.reportsOnly_ctxResult _ 2).writeOnly

/-- The state of a command that is taken: the command is noted and audited (R344). -/
def State.ctxTaken (s : State) (src : Source) (op : Nat) (c : Option Nat) : State := (s.wrote src).auditCmd src Reg.CTX.CMD 0 op 0 (c.getD 0)

theorem State.ctxTaken_writeOnly (s : State) (src : Source) (op : Nat) (c : Option Nat) : s.WriteOnly (s.ctxTaken src op c) :=
  (s.writeOnly_wrote src).trans (State.ReportsOnly.auditCmd _ _ _ _ _ _ _ _).writeOnly

theorem State.ctxTaken_slotOf2 (s : State) (src : Source) (op : Nat) (c d : Option Nat) : (s.ctxTaken src op c).slotOf2 d = s.slotOf2 d := by
  cases d <;> simp [State.slotOf2, State.ctxTaken]

theorem State.ctxTaken_ctxSel (s : State) (src : Source) (op : Nat) (c : Option Nat) : (s.ctxTaken src op c).ctxSel = s.ctxSel :=
  (State.auditCmd_ctxSel _ _ _ _ _ _ _ _).trans (s.wrote_ctxSel src)

theorem State.rd_ctxTaken (s : State) (src : Source) (op : Nat) (c : Option Nat) (g : Field) (i j k : Nat) (h : reportKey (g.key i j k) = false)
    (h' : g.key i j k ≠ Reg.DEV.SEQ_RESULT.key 0 0 0) : (s.ctxTaken src op c).rd g i j k = s.rd g i j k :=
  (State.rd_auditCmd _ _ _ _ _ _ _ _ _ _ _ _ h).trans (State.rd_wrote _ _ _ _ _ _ h')

theorem State.ctxCmd_taken (s : State) (src : Source) (op : Nat) (c : Option Nat) (ok : Ctx → Bool) (k : Ctx → State → State)
    (h : ok (s.slotOf2 c) = true) : (s.wrote src).ctxCmd src op c ok k = k (s.slotOf2 c) (s.ctxTaken src op c) := by
  have he : (s.wrote src).slotOf2 c = s.slotOf2 c := by cases c <;> simp [State.slotOf2]
  simp [State.ctxCmd, he, h, State.ctxTaken]

@[simp] theorem State.slotOf2_setSlot2 (s : State) (c : Option Nat) (x : Ctx) : (s.setSlot2 c x).slotOf2 c = x := by
  cases c <;> simp [State.slotOf2, State.setSlot2]

/-! ### LOAD -/

/-- A context or the layout with an image under check (R208). -/
def Ctx.underCheck (x : Ctx) (s : State) (p : Bool) : Ctx :=
  { x with
    prev := x.st, st := .checking, chkAddr := s.rd Reg.CTX.IMG_ADDR, chkLen := s.rd Reg.CTX.IMG_LEN, chkVer := s.rd Reg.CTX.NEW_VER, chkProtect := p
    loadBeat := s.time.beat }

theorem State.startLoad_spec (s : State) (c : Option Nat) (h : (s.slotOf2 c).st ≠ .staged) : ∃ u p, s.Withdraws u ∧
    s.startLoad c (s.slotOf2 c) = (u.setSlot2 c ((u.slotOf2 c).underCheck u p)).bump Reg.CTX.LOADS := by
  refine ⟨s.planWithdrawals, s.planWithdrawals.rangeAllowed (s.planWithdrawals.rd Reg.CTX.IMG_ADDR) (s.planWithdrawals.rd Reg.CTX.IMG_LEN),
    s.withdraws_planWithdrawals, ?_⟩
  rw [State.startLoad, if_neg h]
  rfl

theorem State.Withdraws.slotOf2 (h : s.Withdraws u) (c : Option Nat) : (u.slotOf2 c).st = (s.slotOf2 c).st := by
  cases c with
  | none =>
    rw [State.slotOf2, State.slotOf2, h.frame]
  | some c =>
    change (u.ctxs.get c).st = (s.ctxs.get c).st
    rw [h.ctx c]

theorem execLoad_taken (s : State) (src : Source) (h : s.Takes src) (hok : loadable (s.slotOf2 (some s.ctxSel)) = true) : execLoad src s =
    .next ((s.ctxTaken src 1 (some s.ctxSel)).startLoad (some s.ctxSel) ((s.ctxTaken src 1 (some s.ctxSel)).slotOf2 (some s.ctxSel))) := by
  rw [execLoad, s.basicCmd_takes _ h, s.wrote_ctxSel src, State.ctxCmd_taken s src 1 (some s.ctxSel) _ _ hok, State.ctxTaken_ctxSel,
    State.ctxTaken_slotOf2]

theorem execLoad_checks (s : State) (src : Source) (h : s.Takes src) (hs : (s.ctxs.get s.ctxSel).st = .empty ∨ (s.ctxs.get s.ctxSel).st = .active) :
    ∃ t, execLoad src s = .next t ∧ (t.ctxs.get s.ctxSel).st = .checking ∧ (t.ctxs.get s.ctxSel).prev = (s.ctxs.get s.ctxSel).st ∧
      (t.ctxs.get s.ctxSel).chkAddr = s.rd Reg.CTX.IMG_ADDR ∧ (t.ctxs.get s.ctxSel).chkLen = s.rd Reg.CTX.IMG_LEN ∧
      (t.ctxs.get s.ctxSel).chkVer = s.rd Reg.CTX.NEW_VER ∧ t.layout = s.layout ∧ t.pkts = s.pkts := by
  have hok : loadable (s.slotOf2 (some s.ctxSel)) = true := by
    obtain hs | hs := hs <;> simp [loadable, State.slotOf2, hs]
  have hns : (s.slotOf2 (some s.ctxSel)).st ≠ .staged := by
    obtain hs | hs := hs <;> simp [State.slotOf2, hs]
  refine ⟨_, execLoad_taken s src h hok, ?_⟩
  have ht := s.ctxTaken_slotOf2 src 1 (some s.ctxSel) (some s.ctxSel)
  obtain ⟨u, p, hw, he⟩ := (s.ctxTaken src 1 (some s.ctxSel)).startLoad_spec (some s.ctxSel) (by rw [ht]; exact hns)
  have hst := hw.slotOf2 (some s.ctxSel)
  have hf := hw.frame
  have hr := s.ctxTaken_writeOnly src 1 (some s.ctxSel)
  rw [ht] at hst
  rw [he]
  simp only [State.setSlot2, State.bump_ctxs, Tbl.get_set_self, Ctx.underCheck, hst, hw.addr, hw.len, hw.ver]
  refine ⟨trivial, rfl, ?_, ?_, ?_, ?_, ?_⟩
  · exact s.rd_ctxTaken _ _ _ _ _ _ _ (by decide) (by decide)
  · exact s.rd_ctxTaken _ _ _ _ _ _ _ (by decide) (by decide)
  · exact s.rd_ctxTaken _ _ _ _ _ _ _ (by decide) (by decide)
  · rw [State.bump_layout, hf, hr]
  · rw [State.bump_pkts, hf, hr]

theorem execLoad_refused (s : State) (src : Source) (h : s.Takes src) (hs : (s.ctxs.get s.ctxSel).st = .armed) :
    ∃ t, execLoad src s = .next t ∧ t.rd Reg.CTX.RESULT = 2 ∧ s.WriteOnly t := by
  refine ⟨_, s.basicCmd_takes _ h, ?_⟩
  rw [s.wrote_ctxSel src]
  exact s.ctxCmd_refused src 1 _ _ _ (by simp [loadable, State.slotOf2, hs])

/-! ### The end of the checks -/

@[simp] theorem Ctx.other_setOther (x : Ctx) (v : Option Version) : (x.setOther v).other = v := by
  cases h : x.slot <;> simp [Ctx.setOther, Ctx.other, h]

@[simp] theorem Ctx.active_setOther (x : Ctx) (v : Option Version) : (x.setOther v).active = x.active := by
  cases h : x.slot <;> simp [Ctx.setOther, Ctx.active, h]

/-- A context or the layout as the end of its checks leaves it: back in the state before the LOAD. -/
def Ctx.checked (x : Ctx) : Ctx := { x with st := x.prev, chkProtect := false }

/-- The checks end in staging with a version beside the active one, or in a refusal. -/
theorem State.endChecks_spec (s : State) (c : Option Nat) :
    (∃ y v, s.endChecks c = (s.setSlot2 c (s.slotOf2 c).checked).setSlot2 c y ∧ y.st = .staging ∧ y.other = some v ∧
      y.active = (s.slotOf2 c).active) ∨
    ((s.setSlot2 c (s.slotOf2 c).checked).ReportsOnly (s.endChecks c) ∧ (s.endChecks c).rd Reg.CTX.RESULT = 1) := by
  unfold State.endChecks
  extract_lets x y u g
  have hu : u = s.setSlot2 c (s.slotOf2 c).checked := rfl
  have hy : y.active = (s.slotOf2 c).active := rfl
  clear_value u y
  subst hu
  split
  · exact .inr ⟨(State.reportsOnly_ueRecord _ _ _ _).trans (State.reportsOnly_ctxRefuse _ _), State.rd_ctxRefuse _ _⟩
  · split
    · exact .inr ⟨State.reportsOnly_ctxRefuse _ _, State.rd_ctxRefuse _ _⟩
    · exact .inl ⟨_, _, rfl, rfl, Ctx.other_setOther y _, (Ctx.active_setOther y _).trans hy⟩

theorem State.setSlot2_context (s : State) (c : Nat) (x : Ctx) : (s.setSlot2 (some c) x).ctxs.get c = x ∧
    (∀ k, k ≠ c → (s.setSlot2 (some c) x).ctxs.get k = s.ctxs.get k) :=
  ⟨Tbl.get_set_self _ _ _, fun _ hk => Tbl.get_set_ne _ _ hk⟩

theorem execContextCheckEnd_ends (s : State) (c : CtxNum) (h : (s.ctxs.get c.val).st = .checking) (_ : (s.ctxs.get c.val).prev ≠ .checking)
    (hc : s.herd.cut = false) : ∃ t, execContextCheckEnd c s = .next t ∧
      ((t.ctxs.get c.val).st = .staging ∨ ((t.ctxs.get c.val).st = (s.ctxs.get c.val).prev ∧ t.rd Reg.CTX.RESULT = 1)) ∧
      (∀ k, k ≠ c.val → t.ctxs.get k = s.ctxs.get k) ∧ t.arr = s.arr ∧ t.tree = s.tree ∧ t.pkts = s.pkts := by
  refine ⟨_, if_pos ⟨h, by simp [hc]⟩, ?_⟩
  obtain ⟨y, v, he, hy, -, -⟩ | ⟨hr, hres⟩ := s.endChecks_spec (some c.val)
  · rw [he]
    exact ⟨.inl (by simp [State.setSlot2, hy]), fun k hk => by simp [State.setSlot2, Tbl.get_set_ne _ _ hk], rfl, rfl, rfl⟩
  · generalize s.endChecks (some c.val) = t at hr hres
    rw [State.ReportsOnly] at hr
    refine ⟨.inr ⟨?_, hres⟩, fun k hk => ?_, ?_, ?_, ?_⟩ <;> rw [hr] <;> simp [State.setSlot2, State.slotOf2, Ctx.checked]
    rw [Tbl.get_set_ne _ _ hk]

/-! ### Staging -/

/-- t differs from s at most in what staging writes: tree and array memories and the feature cores' sets. -/
def State.Stages (s t : State) : Prop := t = { s with tree := t.tree, arr := t.arr, fsets := t.fsets, fcores := t.fcores }

theorem State.Stages.trans (h : s.Stages t) (h' : t.Stages u) : s.Stages u := by
  rw [State.Stages] at h h' ⊢
  rw [h', h]

theorem State.Stages.foldl {α : Type} {g : State → α → State} (h : ∀ (t : State) (x : α), t.Stages (g t x)) (l : List α) (s : State) :
    s.Stages (l.foldl g s) := by
  induction l generalizing s with
  | nil => rfl
  | cons x l ih => exact (h s x).trans (ih _)

theorem State.stages_placeSect (s : State) (c : ACoreId) (v : Version) (t : Sect) (b : Bool) : s.Stages (s.placeSect c v t b) := by
  rw [State.placeSect]
  dsimp only
  split <;> rfl

theorem State.stages_tree (s : State) (x : TreeSt) : s.Stages { s with tree := x } := rfl

theorem State.stages_stageSect (s : State) (c : Nat) (v : Version) (t : Sect) : s.Stages (s.stageSect c v t) := by
  rw [State.stageSect]
  split
  · exact s.stages_tree _
  split
  · exact s.stages_tree _
  split
  · exact s.stages_placeSect _ v t _
  · rfl

theorem State.stages_sets (s : State) (x : Tbl FSet) (y : Tbl FCore) : s.Stages { s with fsets := x, fcores := y } := rfl

theorem State.stages_stageSets (s : State) (v : Version) : s.Stages (s.stageSets v) := by
  rw [State.stageSets]
  split
  · rfl
  split
  · exact s.stages_sets _ _
  · rfl

theorem State.stages_stageParts (s : State) (c : Nat) (v : Version) : s.Stages (s.stageParts c v) := by
  have h := (State.Stages.foldl (fun t (e : Sect) => t.stages_stageSect c v e) v.sects s).trans (State.stages_stageSets _ v)
  rw [State.stageParts]
  exact h.trans rfl

/-- Staging that meets no uncorrectable line ends in STAGED. -/
theorem State.endStaging_stages (s : State) (c : Option Nat) (v : Version) (hv : (s.slotOf2 c).other = some v)
    (hu : s.hbmUe (s.regionBase 2 + v.addr) v.len = none) : ∃ u, s.Stages u ∧
      s.endStaging c = (u.setSlot2 c { (s.slotOf2 c).setOther (some (s.readImage v)) with st := .staged }).ctxResult 0 := by
  refine ⟨_, s.stages_stageParts (c.getD 4096) (s.readImage v), ?_⟩
  simp only [State.endStaging, hv, hu]

/-- Staging that meets an uncorrectable line ends in a refusal. -/
theorem State.endStaging_error (s : State) (c : Option Nat) (v : Version) (line : Nat) (hv : (s.slotOf2 c).other = some v)
    (hu : s.hbmUe (s.regionBase 2 + v.addr) v.len = some line) : ∃ u, s.ReportsOnly u ∧
      s.endStaging c = (u.setSlot2 c (s.slotOf2 c).dropOther).ctxRefuse (1, 0xFFFF, 0) := by
  refine ⟨_, s.reportsOnly_ueRecord line 0 (c.getD 0), ?_⟩
  simp only [State.endStaging, hv, hu]

@[simp] theorem Ctx.other_dropOther (x : Ctx) : x.dropOther.other = none := by
  rw [Ctx.dropOther]
  split <;> exact Ctx.other_setOther x none

@[simp] theorem Ctx.active_dropOther (x : Ctx) : x.dropOther.active = x.active := by
  rw [Ctx.dropOther]
  split <;> exact Ctx.active_setOther x none

@[simp] theorem State.ctxResult_ctxs (s : State) (r : Nat) : (s.ctxResult r).ctxs = s.ctxs := by
  rw [s.reportsOnly_ctxResult r]

@[simp] theorem State.ctxResult_layout (s : State) (r : Nat) : (s.ctxResult r).layout = s.layout := by
  rw [s.reportsOnly_ctxResult r]

@[simp] theorem State.ctxResult_pkts (s : State) (r : Nat) : (s.ctxResult r).pkts = s.pkts := by
  rw [s.reportsOnly_ctxResult r]

theorem execContextStagingEnd_stages (s : State) (c : CtxNum) (v : Version) (h : (s.ctxs.get c.val).st = .staging) (hc : s.herd.cut = false)
    (hv : (s.ctxs.get c.val).other = some v) (hu : s.hbmUe (s.regionBase 2 + v.addr) v.len = none) : ∃ t, execContextStagingEnd c s = .next t ∧
      t.ctxs.get c.val = { ((s.ctxs.get c.val).setOther (some (s.readImage v))) with st := .staged } ∧ t.rd Reg.CTX.RESULT = 0 ∧
      (∀ k, k ≠ c.val → t.ctxs.get k = s.ctxs.get k) ∧ t.pkts = s.pkts ∧ t.hbm = s.hbm := by
  refine ⟨_, if_pos ⟨h, by simp [hc]⟩, ?_⟩
  obtain ⟨u, hs, he⟩ := s.endStaging_stages (some c.val) v hv hu
  rw [State.Stages] at hs
  rw [he]
  refine ⟨?_, State.rd_ctxResult _ 0 (by norm_num), fun k hk => ?_, ?_, ?_⟩
  · simp [State.setSlot2, State.slotOf2]
  · simp only [State.ctxResult_ctxs, State.setSlot2, Tbl.get_set_ne _ _ hk]
    rw [hs]
  · simp only [State.ctxResult_pkts, State.setSlot2]
    rw [hs]
  · simp only [State.ctxResult, State.event_hbm, State.wr_hbm, State.setSlot2]
    rw [hs]

theorem execContextStagingEnd_error (s : State) (c : CtxNum) (v : Version) (line : Nat) (h : (s.ctxs.get c.val).st = .staging) (hc : s.herd.cut = false)
    (hv : (s.ctxs.get c.val).other = some v) (hu : s.hbmUe (s.regionBase 2 + v.addr) v.len = some line) :
    ∃ t, execContextStagingEnd c s = .next t ∧ (t.ctxs.get c.val).other = none ∧ t.rd Reg.CTX.RESULT = 1 ∧ t.rd Reg.CTX.REFUSE = 1 ∧
      t.arr = s.arr := by
  refine ⟨_, if_pos ⟨h, by simp [hc]⟩, ?_⟩
  obtain ⟨u, hr, he⟩ := s.endStaging_error (some c.val) v line hv hu
  rw [he]
  have hf := (u.setSlot2 (some c.val) (s.slotOf2 (some c.val)).dropOther).reportsOnly_ctxRefuse (1, 0xFFFF, 0)
  rw [State.ReportsOnly] at hf hr
  refine ⟨?_, State.rd_ctxRefuse _ _, State.rd_ctxRefuse_reason _ _ (by decide), ?_⟩
  · rw [hf]
    simp [State.setSlot2]
  · rw [hf, hr]
    rfl

/-! ### DISCARD and UNLOAD -/

/-- A command of page CTX on the selected context that its state allows (R208). -/
theorem State.selCmd_taken (s : State) (src : Source) (op : Nat) (ok : Ctx → Bool) (k : Ctx → State → State)
    (h : s.Takes src) (hok : ok (s.slotOf2 (some s.ctxSel)) = true) :
    s.basicCmd src (fun s => s.ctxCmd src op (some s.ctxSel) ok k) =
      .next (k (s.ctxs.get s.ctxSel) (s.ctxTaken src op (some s.ctxSel))) := by
  rw [s.basicCmd_takes _ h, s.wrote_ctxSel src, State.ctxCmd_taken s src op (some s.ctxSel) _ _ hok]
  rfl

theorem execDiscard_staged (s : State) (src : Source) (h : s.Takes src) (hs : (s.ctxs.get s.ctxSel).st = .staged) : ∃ t, execDiscard src s = .next t ∧
    (t.ctxs.get s.ctxSel).other = none ∧ (t.ctxs.get s.ctxSel).active = (s.ctxs.get s.ctxSel).active ∧ t.rd Reg.CTX.RESULT = 0 ∧ t.pkts = s.pkts := by
  refine ⟨_, s.selCmd_taken src 4 _ _ h (by simp [State.slotOf2, hs]), ?_⟩
  have hr := s.ctxTaken_writeOnly src 4 (some s.ctxSel)
  rw [State.WriteOnly] at hr
  rw [State.ctxTaken_ctxSel]
  refine ⟨?_, ?_, State.rd_ctxResult _ 0 (by norm_num), ?_⟩
  · simp [State.setSlot2]
  · simp [State.setSlot2]
  · rw [State.ctxResult_pkts, hr]
    rfl

theorem State.WriteOnly.ctxs (h : s.WriteOnly t) (x : Tbl Ctx) : ({ s with ctxs := x } : State).WriteOnly { t with ctxs := x } := by
  rw [State.WriteOnly] at *
  rw [h]

theorem execUnload_active (s : State) (src : Source) (h : s.Takes src) (hs : (s.ctxs.get s.ctxSel).st = .active) : ∃ t, execUnload src s = .next t ∧
    (t.ctxs.get s.ctxSel).st = .staged ∧ (t.ctxs.get s.ctxSel).emptying = true ∧ (t.ctxs.get s.ctxSel).active = (s.ctxs.get s.ctxSel).active ∧
    t.rd Reg.CTX.RESULT = 0 ∧ ({ s with ctxs := t.ctxs } : State).WriteOnly t := by
  refine ⟨_, s.selCmd_taken src 5 _ _ h (by simp [State.slotOf2, hs]), ?_⟩
  rw [State.ctxTaken_ctxSel]
  refine ⟨?_, ?_, ?_, State.rd_ctxResult _ 0 (by norm_num), ?_⟩
  · simp [State.setSlot2]
  · simp [State.setSlot2]
  · simp only [State.ctxResult_ctxs, State.setSlot2, Tbl.get_set_self]
    exact Ctx.active_setOther _ _
  · refine State.WriteOnly.trans ?_ (State.reportsOnly_ctxResult _ 0).writeOnly
    rw [State.ctxResult_ctxs]
    exact (s.ctxTaken_writeOnly src 5 (some s.ctxSel)).ctxs _

theorem execDiscard_empty (s : State) (src : Source) (h : s.Takes src) (hs : (s.ctxs.get s.ctxSel).st = .empty) :
    ∃ t u, execDiscard src s = .next t ∧ execUnload src s = .next u ∧ t.rd Reg.CTX.RESULT = 2 ∧ u.rd Reg.CTX.RESULT = 2 ∧ s.WriteOnly t ∧
      s.WriteOnly u := by
  refine ⟨_, _, s.basicCmd_takes _ h, s.basicCmd_takes _ h, ?_⟩
  rw [s.wrote_ctxSel src]
  obtain ⟨hd, hd'⟩ := s.ctxCmd_refused src 4 (some s.ctxSel) (fun x => x.st == .staged)
    (fun x s => ((s.freeCellsOf x.other x.active).setSlot2 (some s.ctxSel) x.dropOther).ctxResult 0) (by simp [State.slotOf2, hs])
  obtain ⟨hu, hu'⟩ := s.ctxCmd_refused src 5 (some s.ctxSel) (fun x => x.st == .active)
    (fun x s => (s.setSlot2 (some s.ctxSel) { (x.setOther (some { kind := x.kind })) with st := .staged, emptying := true }).ctxResult 0)
    (by simp [State.slotOf2, hs])
  exact ⟨hd, hu, hd', hu'⟩

/-! ### The layout -/

/-- The checks and the staging of an empty layout's image end in STAGED or in a refusal. -/
theorem State.layoutLoad_ends (s : State) (ha : s.layout.active = none) (hp : s.layout.prev = .empty) :
    let u := s.endChecks none
    let t := if u.layout.st = .staging then u.endStaging none else u
    ((t.layout.st = .staged ∧ t.rd Reg.CTX.RESULT = 0) ∨ (t.layout.st = .empty ∧ t.rd Reg.CTX.RESULT = 1)) ∧ t.pkts = s.pkts := by
  intro u
  obtain ⟨y, v, he, hy, hv, hya⟩ | ⟨hr, hres⟩ := s.endChecks_spec none
  · have hu : u = (s.setSlot2 none (s.slotOf2 none).checked).setSlot2 none y := he
    have hl : u.layout = y := by rw [hu]; rfl
    have hk : u.pkts = s.pkts := by rw [hu]; rfl
    rw [if_pos (by rw [hl, hy])]
    cases hue : u.hbmUe (u.regionBase 2 + v.addr) v.len with
    | none =>
      obtain ⟨w, hs, hw⟩ := u.endStaging_stages none v (by rw [State.slotOf2, hl, hv]) hue
      rw [State.Stages] at hs
      rw [hw]
      refine ⟨.inl ⟨?_, State.rd_ctxResult _ 0 (by norm_num)⟩, ?_⟩
      · rw [State.ctxResult_layout]
        rfl
      · rw [State.ctxResult_pkts, hs, ← hk]
        rfl
    | some line =>
      obtain ⟨w, hs, hw⟩ := u.endStaging_error none v line (by rw [State.slotOf2, hl, hv]) hue
      have hf := (w.setSlot2 none (u.slotOf2 none).dropOther).reportsOnly_ctxRefuse (1, 0xFFFF, 0)
      rw [State.ReportsOnly] at hs hf
      have hd : (u.slotOf2 none).dropOther.st = .empty := by
        have hn : (y.setOther none).active = none := by rw [Ctx.active_setOther, hya, State.slotOf2, ha]
        simp [State.slotOf2, hl, Ctx.dropOther, hn]
      rw [hw]
      refine ⟨.inr ⟨?_, State.rd_ctxRefuse _ _⟩, ?_⟩
      · rw [hf, ← hd]
        rfl
      · rw [hf, ← hk, hs]
        rfl
  · have hu : u.layout.st = .empty := by
      have hr' : (s.setSlot2 none (s.slotOf2 none).checked).ReportsOnly u := hr
      rw [State.ReportsOnly] at hr'
      rw [hr', ← hp]
      rfl
    rw [if_neg (by rw [hu]; exact CtxState.noConfusion)]
    refine ⟨.inr ⟨hu, hres⟩, ?_⟩
    have hr' : (s.setSlot2 none (s.slotOf2 none).checked).ReportsOnly u := hr
    rw [State.ReportsOnly] at hr'
    rw [hr']
    rfl

theorem execLoadLayout_empty (s : State) (src : Source) (h : s.Takes src) (hl : s.layout = {}) : ∃ t, execLoadLayout src s = .next t ∧
    ((t.layout.st = .staged ∧ t.rd Reg.CTX.RESULT = 0) ∨ (t.layout.st = .empty ∧ t.rd Reg.CTX.RESULT = 1)) ∧ t.pkts = s.pkts := by
  refine ⟨_, (s.basicCmd_takes _ h).trans (congrArg Host.Outcome.next (State.ctxCmd_taken s src 6 none _ _ (by simp [State.slotOf2, hl, loadable]))), ?_⟩
  have ht := s.ctxTaken_slotOf2 src 6 none none
  obtain ⟨u, p, hw, he⟩ := (s.ctxTaken src 6 none).startLoad_spec none (by rw [ht, State.slotOf2, hl]; exact CtxState.noConfusion)
  rw [ht] at he
  rw [he]
  have hul : u.layout = {} := by
    rw [hw.frame]
    exact ht.trans hl
  obtain ⟨hst, hp⟩ := ((u.setSlot2 none ((u.slotOf2 none).underCheck u p)).bump Reg.CTX.LOADS).layoutLoad_ends
    (by simp [State.setSlot2, State.slotOf2, Ctx.underCheck, hul]; rfl) (by simp [State.setSlot2, State.slotOf2, Ctx.underCheck, hul])
  refine ⟨hst, hp.trans ?_⟩
  have hr := s.ctxTaken_writeOnly src 6 none
  rw [State.WriteOnly] at hr
  rw [State.bump_pkts, ← (show u.pkts = s.pkts by rw [hw.frame, hr])]
  rfl

theorem execLoadLayout_armed (s : State) (src : Source) (h : s.Takes src) (hl : s.layout.st = .armed) :
    ∃ t, execLoadLayout src s = .next t ∧ t.rd Reg.CTX.RESULT = 2 ∧ s.WriteOnly t :=
  ⟨_, s.basicCmd_takes _ h, s.ctxCmd_refused src 6 none _ _ (by simp [loadable, State.slotOf2, hl])⟩

/-- Settles O20: from a LOAD to a staged version or a refusal. -/
theorem contextLoadCommands : Obligations.ContextLoadCommands :=
  ⟨execLoad_checks, execLoad_refused, execContextCheckEnd_ends, execContextStagingEnd_stages, execContextStagingEnd_error, execDiscard_staged,
    execUnload_active, execDiscard_empty, execLoadLayout_empty, execLoadLayout_armed⟩

end Sys2Proof.Machine
end

section
/-! PROOF. Commits of contexts and the layout (R208, R210 to R212, R215, R218, R247): O21. -/

namespace Sys2Proof.Machine

-- One thread for the proofs, which bounds the memory that checking them takes.
set_option Elab.async false

open Sys2Proof

variable {s t u : State}

/-! ### COMMIT -/

theorem State.WriteOnly.layout (h : s.WriteOnly t) (x : Ctx) : ({ s with layout := x } : State).WriteOnly { t with layout := x } := by
  rw [State.WriteOnly] at *
  rw [h]

/-- A COMMIT of a version the context may commit starts its checks. -/
theorem State.startCommit_ctx (s : State) (src : Source) (op c : Nat) :
    ((s.ctxTaken src op (some c)).startCommit (some c) (s.ctxs.get c)).ctxs.get c =
      { s.ctxs.get c with cmtPend := true, cmtHerd := false, cmtBeat := s.rd Reg.CTX.COMMIT_BEAT, cmtWrite := s.time.beat } ∧
    ({ s with ctxs := ((s.ctxTaken src op (some c)).startCommit (some c) (s.ctxs.get c)).ctxs } : State).WriteOnly
      ((s.ctxTaken src op (some c)).startCommit (some c) (s.ctxs.get c)) := by
  have hw := s.ctxTaken_writeOnly src op (some c)
  have hr := s.rd_ctxTaken src op (some c) Reg.CTX.COMMIT_BEAT 0 0 0 (by decide) (by decide)
  have ht : (s.ctxTaken src op (some c)).time = s.time := by rw [hw]
  refine ⟨?_, hw.ctxs _⟩
  rw [State.startCommit, hr, ht]
  exact Tbl.get_set_self _ _ _

theorem execCommit_not_local (s : State) (src : Source) (herd : Bool) (h : s.Takes src)
    (hl : (decide (2 ≤ s.herdState) && herdKind (s.ctxs.get s.ctxSel).kind && !herd && (s.ctxs.get s.ctxSel).st == .staged) = false)
    (hs : (s.ctxs.get s.ctxSel).st = .staged) (hp : (s.ctxs.get s.ctxSel).cmtPend = false) (hc : (s.ctxs.get s.ctxSel).cmtHerd = false) :
    execCommit src herd s = .next (
      if herd ∧ herdKind (s.ctxs.get s.ctxSel).kind then
        (s.ctxTaken src (if herd then 10 else 2) (some s.ctxSel)).herdCommit s.ctxSel (s.ctxs.get s.ctxSel)
      else (s.ctxTaken src (if herd then 10 else 2) (some s.ctxSel)).startCommit (some s.ctxSel) (s.ctxs.get s.ctxSel)) := by
  rw [execCommit, s.basicCmd_takes _ h]
  simp only [s.wrote_ctxSel src, State.wrote_ctxs, State.wrote_herdState, hl, Bool.false_eq_true, if_false]
  rw [State.ctxCmd_taken s src _ (some s.ctxSel) _ _ (by simp [State.slotOf2, hs, hp, hc])]
  rfl

theorem execCommit_starts (s : State) (src : Source) (h : s.Takes src) (hh : s.herdState < 2) (hs : (s.ctxs.get s.ctxSel).st = .staged)
    (hp : (s.ctxs.get s.ctxSel).cmtPend = false) (hc : (s.ctxs.get s.ctxSel).cmtHerd = false) : ∃ t, execCommit src false s = .next t ∧
      t.ctxs.get s.ctxSel = { s.ctxs.get s.ctxSel with
        cmtPend := true, cmtHerd := false, cmtBeat := s.rd Reg.CTX.COMMIT_BEAT, cmtWrite := s.time.beat } ∧
      ({ s with ctxs := t.ctxs } : State).WriteOnly t := by
  refine ⟨_, execCommit_not_local s src false h (by simp [not_le.2 hh]) hs hp hc, ?_⟩
  simp only [Bool.false_eq_true, false_and, if_false]
  exact s.startCommit_ctx src 2 s.ctxSel

theorem execCommit_alone (s : State) (src : Source) (h : s.Takes src) (hh : s.herdState < 2) (hs : (s.ctxs.get s.ctxSel).st = .staged)
    (hp : (s.ctxs.get s.ctxSel).cmtPend = false) (hc : (s.ctxs.get s.ctxSel).cmtHerd = false) (hk : herdKind (s.ctxs.get s.ctxSel).kind = true) :
    ∃ t, execCommit src true s = .next t ∧ t.rd Reg.HERD.CMT_RESULT = 2 ∧ t.rd Reg.CTX.RESULT = 1 ∧ s.WriteOnly t := by
  refine ⟨_, execCommit_not_local s src true h (by simp) hs hp hc, ?_⟩
  have hw := s.ctxTaken_writeOnly src 10 (some s.ctxSel)
  have hst : (s.ctxTaken src 10 (some s.ctxSel)).herdState = s.herdState := s.rd_ctxTaken src 10 _ _ 0 0 0 (by decide) (by decide)
  simp only [hk, and_self, if_true, State.herdCommit, hst, if_pos hh]
  refine ⟨?_, State.rd_ctxResult _ 1 (by norm_num), ?_⟩
  · rw [State.ctxResult, State.rd_event _ _ _ _ _ _ _ _ (by decide), State.rd_wr_ne _ _ _ _ _ _ _ _ _ _ (by decide), State.bump,
      State.rd_wr_ne _ _ _ _ _ _ _ _ _ _ (by decide), State.cmtResult, State.rd_event _ _ _ _ _ _ _ _ (by decide), State.rd_wr_self]
    rfl
  · exact (((hw.trans (State.cmtResult_reports _ 2).writeOnly).trans (State.ReportsOnly.bump _ _ _ _ _ _).writeOnly)).trans
      (State.reportsOnly_ctxResult _ 1).writeOnly

theorem execCommit_local (s : State) (src : Source) (h : s.Takes src) (hh : 2 ≤ s.herdState) (hs : (s.ctxs.get s.ctxSel).st = .staged)
    (hk : herdKind (s.ctxs.get s.ctxSel).kind = true) :
    ∃ t, execCommit src false s = .next t ∧ s.Counts t Reg.HERD.LOCAL_REFUSED ∧ t.rd Reg.CTX.RESULT = 2 ∧ s.WriteOnly t := by
  refine ⟨_, s.basicCmd_takes _ h, ?_⟩
  simp only [s.wrote_ctxSel src, State.wrote_ctxs, State.wrote_herdState, hh, hk, hs, decide_true, Bool.not_false, beq_self_eq_true, Bool.and_self,
    if_true, State.ctxCmd, Bool.not_true, Bool.and_false, Bool.false_eq_true, if_false]
  refine ⟨?_, State.rd_ctxResult _ 2 (by norm_num), ?_⟩
  · rw [State.Counts, State.ctxResult, State.rd_event _ _ _ _ _ _ _ _ (by decide), State.rd_wr_ne _ _ _ _ _ _ _ _ _ _ (by decide),
      State.rd_auditCmd _ _ _ _ _ _ _ _ _ _ _ _ (by decide), State.rd_bump, State.rd_wrote _ _ _ _ _ _ (by decide)]
  · exact (((s.writeOnly_wrote src).trans (State.ReportsOnly.bump _ _ _ _ _ _).writeOnly).trans
      (State.ReportsOnly.auditCmd _ _ _ _ _ _ _ _).writeOnly).trans (State.reportsOnly_ctxResult _ 2).writeOnly

theorem execCommitLayout_starts (s : State) (src : Source) (herd : Bool) (h : s.Takes src) (hs : s.layout.st = .staged)
    (hp : s.layout.cmtPend = false) : ∃ t, execCommitLayout src herd s = .next t ∧ t.layout = { s.layout with
      cmtPend := true, cmtHerd := false, cmtBeat := s.rd Reg.CTX.COMMIT_BEAT, cmtWrite := s.time.beat } ∧
      ({ s with layout := t.layout } : State).WriteOnly t := by
  refine ⟨_, (s.basicCmd_takes _ h).trans (congrArg Host.Outcome.next (State.ctxCmd_taken s src _ none _ _ (by simp [State.slotOf2, hs, hp]))), ?_⟩
  have hw := s.ctxTaken_writeOnly src (if herd then 15 else 7) none
  have hr := s.rd_ctxTaken src (if herd then 15 else 7) none Reg.CTX.COMMIT_BEAT 0 0 0 (by decide) (by decide)
  have ht : (s.ctxTaken src (if herd then 15 else 7) none).time = s.time := by rw [hw]
  refine ⟨?_, hw.layout _⟩
  rw [State.startCommit, hr, ht]
  rfl

/-! ### The end of the checks, and ABORT -/

theorem State.commitCheck_lt (s : State) (c : Option Nat) (x : Ctx) (b w : Nat) (soon : Bool) : s.commitCheck c x b w soon < 256 := by
  rw [State.commitCheck]
  split
  · norm_num
  · dsimp only
    split_ifs <;> norm_num

theorem State.ReportsOnly.slotOf2 (h : s.ReportsOnly t) (c : Option Nat) : t.slotOf2 c = s.slotOf2 c := by
  rw [State.ReportsOnly] at h
  rw [h]
  cases c <;> rfl

theorem execCommitCheckEnd_arms (s : State) (c : Option CtxNum) (x : Ctx) (hx : x = s.slotOf2 (c.map (·.val))) (hp : x.cmtPend = true)
    (hs : x.st = .staged) (h0 : s.commitCheck (c.map (·.val)) x x.cmtBeat x.cmtWrite true = 0) : ∃ t, execCommitCheckEnd c s = .next t ∧
      t.slotOf2 (c.map (·.val)) = { x with cmtPend := false, st := .armed, armC := x.cmtBeat } ∧ t.rd Reg.CTX.RESULT = 0 ∧ t.pkts = s.pkts := by
  subst hx
  refine ⟨_, ?_, ((State.reportsOnly_ctxResult _ 0).slotOf2 _).trans (State.slotOf2_setSlot2 s _ _), State.rd_ctxResult _ 0 (by norm_num), ?_⟩
  · simp only [execCommitCheckEnd, hp, hs, h0, if_true, not_true_eq_false, ne_eq, or_self, if_false]
  · rw [State.ctxResult_pkts]
    cases c <;> rfl

theorem execCommitCheckEnd_refuses (s : State) (c : Option CtxNum) (x : Ctx) (hx : x = s.slotOf2 (c.map (·.val))) (hp : x.cmtPend = true)
    (hs : x.st = .staged) (h0 : s.commitCheck (c.map (·.val)) x x.cmtBeat x.cmtWrite true ≠ 0) : ∃ t, execCommitCheckEnd c s = .next t ∧
      t.slotOf2 (c.map (·.val)) = { x with cmtPend := false } ∧ t.rd Reg.CTX.RESULT = 1 ∧
      t.rd Reg.CTX.REFUSE = s.commitCheck (c.map (·.val)) x x.cmtBeat x.cmtWrite true := by
  subst hx
  refine ⟨_, ?_, ((State.reportsOnly_ctxRefuse _ (s.commitCheck (c.map (·.val)) _ _ _ true, 0xFFFF, 0)).slotOf2 _).trans
    (State.slotOf2_setSlot2 s _ _), State.rd_ctxRefuse _ _, State.rd_ctxRefuse_reason _ _ (s.commitCheck_lt _ _ _ _ _)⟩
  simp only [execCommitCheckEnd, hp, hs, h0, if_false, not_true_eq_false, ne_eq, or_self]

theorem execAbort_armed (s : State) (src : Source) (h : s.Takes src) (hs : (s.ctxs.get s.ctxSel).st = .armed)
    (hc : (s.ctxs.get s.ctxSel).cmtHerd = false) : ∃ t, execAbort src s = .next t ∧ (t.ctxs.get s.ctxSel).st = .staged ∧
      t.rd Reg.CTX.RESULT = 0 ∧ ({ s with ctxs := t.ctxs } : State).WriteOnly t := by
  refine ⟨_, s.selCmd_taken src 3 _ _ h (by simp [State.slotOf2, hs]), ?_⟩
  simp only [hc, Bool.false_eq_true, if_false, State.ctxTaken_ctxSel]
  refine ⟨by simp [State.setSlot2], State.rd_ctxResult _ 0 (by norm_num), ?_⟩
  refine State.WriteOnly.trans ?_ (State.reportsOnly_ctxResult _ 0).writeOnly
  rw [State.ctxResult_ctxs]
  exact (s.ctxTaken_writeOnly src 3 (some s.ctxSel)).ctxs _

/-! ### The switch -/

/-- t keeps s's packets and layout, its count of commits, and of every context which slot is active, its state and its beat C. -/
structure State.KeepsCommits (s t : State) : Prop where
  pkts : t.pkts = s.pkts
  layout : t.layout = s.layout
  commits : t.rd Reg.CTX.COMMITS = s.rd Reg.CTX.COMMITS
  ctx : ∀ c, ((t.ctxs.get c).slot, (t.ctxs.get c).st, (t.ctxs.get c).switchBeat) = ((s.ctxs.get c).slot, (s.ctxs.get c).st, (s.ctxs.get c).switchBeat)

theorem State.KeepsCommits.trans (h : s.KeepsCommits t) (h' : t.KeepsCommits u) : s.KeepsCommits u :=
  ⟨h'.pkts.trans h.pkts, h'.layout.trans h.layout, h'.commits.trans h.commits, fun c => (h'.ctx c).trans (h.ctx c)⟩

theorem State.ReportsOnly.keepsCommits (h : s.ReportsOnly t) (hr : t.rd Reg.CTX.COMMITS = s.rd Reg.CTX.COMMITS) : s.KeepsCommits t := by
  rw [State.ReportsOnly] at h
  refine ⟨?_, ?_, hr, fun c => ?_⟩ <;> rw [h]

theorem State.keepsCommits_wr_lane (s : State) (v l : Nat) (hl : l < 16) : s.KeepsCommits (s.wr Reg.LANE.FSET_LOADED v l) := by
  refine ⟨rfl, rfl, State.rd_wr_ne _ _ _ _ _ _ _ _ _ _ (Field.key_ne_of_page ?_ ?_ ?_ ?_ ?_ ?_ ?_), fun _ => rfl⟩
  case refine_7 =>
    have h : pageBase Reg.LANE.FSET_LOADED.block l = 131072 + l * 4096 := rfl
    have h' : pageBase Reg.CTX.COMMITS.block 0 = 348160 := rfl
    omega
  all_goals decide

theorem State.keepsCommits_showSets (s : State) : s.KeepsCommits s.showSets := by
  have hl (m : Nat) (l : List Nat) (h : ∀ x ∈ l, x < 16) (t : State) : t.KeepsCommits (l.foldl (fun t l => t.wr Reg.LANE.FSET_LOADED m l) t) := by
    induction l generalizing t with
    | nil => exact ⟨rfl, rfl, rfl, fun _ => rfl⟩
    | cons x l ih =>
      exact (t.keepsCommits_wr_lane m x (h x List.mem_cons_self)).trans (ih (fun y hy => h y (List.mem_cons_of_mem _ hy)) _)
  unfold State.showSets
  extract_lets m
  exact hl m (List.range 16) (fun x hx => List.mem_range.1 hx) s

theorem State.keepsCommits_switchSets (s : State) (v : Version) : s.KeepsCommits (s.switchSets v) := by
  have hf : s.KeepsCommits { s with fhalf := v.half } := ⟨rfl, rfl, rfl, fun _ => rfl⟩
  rw [State.switchSets]
  split
  · exact ⟨rfl, rfl, rfl, fun _ => rfl⟩
  · exact hf.trans (State.keepsCommits_showSets _)

theorem State.keepsCommits_orderDone (s : State) (k : CommitKind) : s.KeepsCommits (s.orderDone k) := ⟨rfl, rfl, rfl, fun _ => rfl⟩

theorem State.keepsCommits_setCtx (s : State) (c : Nat) (x : Ctx) (hs : x.slot = (s.ctxs.get c).slot) (ht : x.st = (s.ctxs.get c).st)
    (hb : x.switchBeat = (s.ctxs.get c).switchBeat) : s.KeepsCommits { s with ctxs := s.ctxs.set c x } := by
  refine ⟨rfl, rfl, rfl, fun k => ?_⟩
  by_cases hk : k = c
  · subst hk
    simp [hs, ht, hb]
  · simp [Tbl.get_set_ne _ _ hk]

theorem State.keepsCommits_ctxUp (s : State) (c : Nat) : s.KeepsCommits (s.ctxUp c) := by
  rw [State.ctxUp]
  dsimp only
  split
  · exact s.keepsCommits_setCtx c _ rfl rfl rfl
  · refine (s.keepsCommits_setCtx c _ ?_ ?_ ?_).trans ((State.ReportsOnly.fault _ _).keepsCommits (State.rd_fault _ _ _ _ _ _ (by decide)))
    all_goals rfl

/-- A context or the layout after its switch (R210). -/
def Ctx.switched (x : Ctx) : Ctx :=
  { x with slot := !x.slot, st := if x.active.isSome then .retiring else .active, switchBeat := x.armC, retired := false, cmtHerd := false }

theorem execContextVersionSwitch_due (s : State) (c : Option CtxNum) (hs : (s.slotOf2 (c.map (·.val))).st = .armed)
    (hb : (s.slotOf2 (c.map (·.val))).armC ≤ s.time.beat) : ∃ t, execContextVersionSwitch c s = .next t ∧
      (((s.setSlot2 (c.map (·.val)) (s.slotOf2 (c.map (·.val))).switched).bump Reg.CTX.COMMITS).event Blk.CTX 0 1).KeepsCommits t := by
  have hn : ¬ ((s.slotOf2 (c.map (·.val))).st ≠ .armed ∨ s.time.beat < (s.slotOf2 (c.map (·.val))).armC) := by
    simp [hs, hb]
  unfold execContextVersionSwitch
  extract_lets k x y u
  have hu : ((s.setSlot2 (c.map (·.val)) (s.slotOf2 (c.map (·.val))).switched).bump Reg.CTX.COMMITS).event Blk.CTX 0 1 = u := rfl
  rw [if_neg hn, hu]
  clear_value u
  split
  · next v n _ =>
    have h := (u.keepsCommits_switchSets v).trans (State.keepsCommits_orderDone _ (.context n))
    dsimp only
    split
    · exact ⟨_, rfl, h.trans (State.keepsCommits_ctxUp _ n.val)⟩
    · exact ⟨_, rfl, h⟩
  · exact ⟨_, rfl, ⟨rfl, rfl, rfl, fun _ => rfl⟩⟩

theorem execContextVersionSwitch_switches (s : State) (c : Option CtxNum) (x : Ctx) (hx : x = s.slotOf2 (c.map (·.val))) (hs : x.st = .armed)
    (hb : x.armC ≤ s.time.beat) : ∃ t, execContextVersionSwitch c s = .next t ∧ (t.slotOf2 (c.map (·.val))).slot = !x.slot ∧
      (t.slotOf2 (c.map (·.val))).st = (if x.active.isSome then .retiring else .active) ∧ (t.slotOf2 (c.map (·.val))).switchBeat = x.armC ∧
      s.Counts t Reg.CTX.COMMITS ∧ t.pkts = s.pkts := by
  subst hx
  obtain ⟨t, he, hk⟩ := execContextVersionSwitch_due s c hs hb
  have hy : ((t.slotOf2 (c.map (·.val))).slot, (t.slotOf2 (c.map (·.val))).st, (t.slotOf2 (c.map (·.val))).switchBeat) =
      ((s.slotOf2 (c.map (·.val))).switched.slot, (s.slotOf2 (c.map (·.val))).switched.st, (s.slotOf2 (c.map (·.val))).switched.switchBeat) := by
    cases c with
    | none =>
      have hl := hk.layout
      simp only [State.event_layout, State.bump_layout, Option.map_none] at hl
      simp only [Option.map_none, State.slotOf2, hl]
      rfl
    | some c =>
      refine (hk.ctx c.val).trans ?_
      simp [State.setSlot2]
  simp only [Prod.mk.injEq] at hy
  obtain ⟨hslot, hst, hsw⟩ := hy
  refine ⟨t, he, hslot, hst, hsw, ?_, ?_⟩
  · rw [State.Counts, hk.commits, State.rd_event _ _ _ _ _ _ _ _ (by decide), State.rd_bump]
    cases c <;> rfl
  · rw [hk.pkts, State.event_pkts, State.bump_pkts]
    cases c <;> rfl

/-! ### The parts of a version -/

theorem execVersionPartSwitch_early (s : State) (c : CtxNum) (p : VerPart) (v : Version) (hv : (s.ctxs.get c.val).active = some v)
    (hb : s.time.beat < (s.ctxs.get c.val).switchBeat) : execVersionPartSwitch c p s = .next s := by
  simp only [execVersionPartSwitch, hv, if_pos hb]

@[simp] theorem Ctx.active_setActive (x : Ctx) (v : Option Version) : (x.setActive v).active = v := by
  cases h : x.slot <;> simp [Ctx.setActive, Ctx.active, h]

theorem execVersionPartSwitch_gather (s : State) (c : CtxNum) (v : Version) (hv : (s.ctxs.get c.val).active = some v) (hg : v.gatherOn = false)
    (hk : (s.ctxs.get c.val).kind = 1) (hb : (s.ctxs.get c.val).switchBeat + 5 ≤ s.time.beat) : ∃ t, execVersionPartSwitch c .gather s = .next t ∧
      (t.ctxs.get c.val).active = some { v with gatherOn := true } ∧ t = { s with ctxs := t.ctxs } := by
  refine ⟨s.modVers c.val (fun v => { v with gatherOn := true }) (fun v => { v with gatherOn := false }), ?_, ?_, rfl⟩
  · have h1 : ¬ s.time.beat < (s.ctxs.get c.val).switchBeat := by omega
    have h2 : ¬ s.time.beat < (s.ctxs.get c.val).switchBeat + 5 := by omega
    simp [execVersionPartSwitch, hv, hg, hk, h1, h2]
  · simp [State.modVers, hv]

/-! ### Retirement -/

theorem execContextRetire_free (s : State) (c : Option CtxNum) (x : Ctx) (hx : x = s.slotOf2 (c.map (·.val))) (hs : x.st = .retiring)
    (hr : x.retired = false) (hb : x.switchBeat ≤ s.time.beat) (ho : s.occupied (c.map (·.val)) x = false) :
    ∃ t, execContextRetire c s = .next t ∧ t.slotOf2 (c.map (·.val)) = { x with retired := true } ∧ t.pkts = s.pkts := by
  subst hx
  refine ⟨_, if_neg (by simp [hs, hr, hb, ho]), ((State.ReportsOnly.event _ _ _ _).slotOf2 _).trans (State.slotOf2_setSlot2 s _ _), ?_⟩
  rw [State.event_pkts]
  cases c <;> rfl

theorem State.freeOld_slot (s : State) (c : Option Nat) : ((s.freeOld c).slotOf2 c).other = none ∧
    ((s.freeOld c).slotOf2 c).st = (if (s.slotOf2 c).emptying then .empty else .active) ∧ (s.freeOld c).pkts = s.pkts := by
  rw [State.freeOld]
  dsimp only
  split
  · next h =>
    rw [State.slotOf2_setSlot2]
    refine ⟨?_, rfl, ?_⟩
    · rw [Ctx.other]
      split <;> rfl
    · cases c <;> rfl
  · next h =>
    rw [State.slotOf2_setSlot2]
    exact ⟨Ctx.other_setOther _ none, rfl, by cases c <;> rfl⟩

theorem execContextRetireEnd_frees (s : State) (c : Option CtxNum) (x : Ctx) (hx : x = s.slotOf2 (c.map (·.val))) (hs : x.st = .retiring)
    (hr : x.retired = true) (ho : c = none ∨ s.oldInUse x = false) : ∃ t, execContextRetireEnd c s = .next t ∧
      (t.slotOf2 (c.map (·.val))).other = none ∧ (t.slotOf2 (c.map (·.val))).st = (if x.emptying then .empty else .active) ∧ t.pkts = s.pkts := by
  subst hx
  refine ⟨_, if_pos ⟨hs, hr, ?_⟩, s.freeOld_slot _⟩
  obtain rfl | ho := ho
  · exact .inl rfl
  · exact .inr (by simp [ho])

theorem execContextRetireEnd_in_use (s : State) (c : CtxNum) (ho : s.oldInUse (s.ctxs.get c.val) = true) :
    execContextRetireEnd (some c) s = .next s :=
  if_neg (fun h => h.2.2.elim (fun e => Bool.noConfusion e) (fun e => e ho))

theorem execForceRetire_queues (s : State) (src : Source) (h : s.TakesExpert src) :
    ∃ t, execForceRetire src s = .next t ∧ s.Queued t (.forceRetire s.ctxSel) ∧ s.WriteLater t := by
  refine ⟨_, s.expertCmd_takes _ _ _ _ h, ?_, by simp [State.writeLater_iff]⟩
  simp [State.Queued, State.auditCmd_ctxSel, State.wrote_ctxSel]

/-- Settles O21: the commits of a context or the layout, its switch and its retirement. -/
theorem contextCommitCommands : Obligations.ContextCommitCommands :=
  ⟨execCommit_starts, execCommit_alone, execCommit_local, execCommitLayout_starts, execCommitCheckEnd_arms, execCommitCheckEnd_refuses,
    execAbort_armed, execContextVersionSwitch_switches, execVersionPartSwitch_early, execVersionPartSwitch_gather, execContextRetire_free,
    execContextRetireEnd_frees, execContextRetireEnd_in_use, execForceRetire_queues⟩

end Sys2Proof.Machine
end

section
/-! PROOF. Flow drains, shadow statistics and aggregate windows (R22, R23, R212, R216, R323, R324): O22. -/

namespace Sys2Proof.Machine

-- One thread for the proofs, which bounds the memory that checking them takes.
set_option Elab.async false

open Sys2Proof

variable {s t u : State}

/-! ### The drain limit -/

/-- Packets, contexts and invocations stand. -/
def State.KeepsInvs (s t : State) : Prop := t.pkts = s.pkts ∧ t.ctxs = s.ctxs ∧ t.flow.invs = s.flow.invs

theorem State.keepsInvs_modCold (s : State) (key : List Byte) (g : List Byte → List Byte) : s.KeepsInvs (s.modCold key g) := by
  rw [State.modCold]
  split
  · exact ⟨rfl, rfl, rfl⟩
  · split
    · exact ⟨by simp, by simp, by simp⟩
    · rw [State.modCached]
      split <;> exact ⟨rfl, rfl, rfl⟩

theorem State.keepsInvs_homeEnd (s : State) (inv : Nat) : s.KeepsInvs (s.homeEnd inv) := by
  rw [State.homeEnd]
  split <;> exact ⟨rfl, rfl, rfl⟩

/-- The end of an invocation removes it, and no other. -/
theorem State.invLost_spec (s : State) (i : Inv) :
    (s.invLost i).pkts = s.pkts ∧ (s.invLost i).ctxs = s.ctxs ∧ (s.invLost i).flow.invs = s.flow.invs.filter (fun j => decide (j.id ≠ i.id)) := by
  obtain ⟨hp, hc, hi⟩ := s.keepsInvs_homeEnd i.id
  obtain ⟨hp', hc', hi'⟩ :=
    ((s.homeEnd i.id).setFlow (fun f => { f with invs := f.invs.filter (fun j => decide (j.id ≠ i.id)) })).keepsInvs_modCold i.key (coldAdd 16 1)
  exact ⟨hp'.trans hp, hc'.trans hc, hi'.trans (congrArg (List.filter fun j : Inv => decide (j.id ≠ i.id)) hi)⟩

theorem invsLost_spec (l : List Inv) (s : State) :
    (l.foldl State.invLost s).pkts = s.pkts ∧ (l.foldl State.invLost s).ctxs = s.ctxs ∧
      ∀ i ∈ (l.foldl State.invLost s).flow.invs, i ∈ s.flow.invs ∧ ∀ j ∈ l, i.id ≠ j.id := by
  induction l generalizing s with
  | nil => exact ⟨rfl, rfl, fun i hi => ⟨hi, by simp⟩⟩
  | cons x l ih =>
    obtain ⟨hp, hc, hi⟩ := s.invLost_spec x
    obtain ⟨hp', hc', hi'⟩ := ih (s.invLost x)
    refine ⟨hp'.trans hp, hc'.trans hc, fun i h => ?_⟩
    obtain ⟨hm, hl⟩ := hi' i h
    rw [hi, List.mem_filter] at hm
    exact ⟨hm.1, List.forall_mem_cons.2 ⟨of_decide_eq_true hm.2, hl⟩⟩

theorem State.KeepsInvs.foldl {α : Type} {g : State → α → State} (h : ∀ (t : State) (x : α), t.KeepsInvs (g t x)) (l : List α) (s : State) :
    s.KeepsInvs (l.foldl g s) := by
  induction l generalizing s with
  | nil => exact ⟨rfl, rfl, rfl⟩
  | cons x l ih =>
    obtain ⟨hp, hc, hi⟩ := h s x
    obtain ⟨hp', hc', hi'⟩ := ih (g s x)
    exact ⟨hp'.trans hp, hc'.trans hc, hi'.trans hi⟩

theorem State.keepsInvs_switchCores (s : State) (l : List ACoreId) : s.KeepsInvs (s.switchCores l) := by
  rw [State.switchCores]
  refine .foldl (fun t x => ?_) l s
  exact ⟨rfl, rfl, rfl⟩

theorem State.keepsInvs_switchTree (s : State) (f i : Nat) : s.KeepsInvs (s.switchTree f i) := by
  rw [State.switchTree]
  generalize treeProgram f i (s.onCore f i) (fun _ e => e.body) = bs
  exact ⟨rfl, rfl, rfl⟩

/-- The switch of a context's cores changes no packet, no invocation and no other context. -/
theorem State.switchRuns_spec (s : State) (c : Nat) (p : Nat → Bool) :
    (s.switchRuns c p).pkts = s.pkts ∧ (s.switchRuns c p).flow.invs = s.flow.invs ∧ ∀ k, k ≠ c → (s.switchRuns c p).ctxs.get k = s.ctxs.get k := by
  unfold State.switchRuns
  extract_lets x new old s1 s2
  obtain ⟨hp, hc, hi⟩ := State.KeepsInvs.foldl (g := fun t k => t.switchTree ((k - 65536) / 64) ((k - 65536) % 64)) (fun t _ => t.keepsInvs_switchTree _ _)
    ((new ++ old).eraseDups.filter (fun k => decide (65536 ≤ k))) s2
  obtain ⟨hp1, hc1, hi1⟩ := s.keepsInvs_switchCores ((x.active.map (fun v => (v.acores 7 0).filter (fun a => new.contains a.num))).getD [])
  refine ⟨hp.trans hp1, hi.trans hi1, fun k hk => ?_⟩
  rw [hc, ← hc1]
  exact Tbl.get_set_ne _ _ hk

theorem execFlowDrainExpire_ends (s : State) (c : CtxNum) (h : (s.ctxs.get c.val).st = .retiring) (hk : (s.ctxs.get c.val).kind = 2)
    (hb : (s.ctxs.get c.val).switchBeat + s.act Reg.CTX.FLOW_DRAIN ≤ s.time.beat) : ∃ t, execFlowDrainExpire c s = .next t ∧
      t.invsOf c.val (((s.ctxs.get c.val).other.map (·.ver)).getD 0) = [] ∧ t.pkts = s.pkts ∧ (∀ k, k ≠ c.val → t.ctxs.get k = s.ctxs.get k) := by
  refine ⟨_, if_pos ⟨h, hk, hb⟩, ?_⟩
  obtain ⟨hp, hc, hi⟩ := invsLost_spec (s.invsOf c.val (((s.ctxs.get c.val).other.map (·.ver)).getD 0)) s
  obtain ⟨hp', hi', hc'⟩ := (s.endOldInvs c.val).switchRuns_spec c.val (fun _ => true)
  refine ⟨?_, hp'.trans hp, fun k hk => (hc' k hk).trans (by rw [State.endOldInvs, hc])⟩
  rw [State.invsOf, hi', List.filter_eq_nil_iff]
  intro i hm hf
  obtain ⟨hs, hn⟩ := hi i hm
  exact hn i (List.mem_filter.2 ⟨hs, hf⟩) rfl

theorem execFlowDrainExpire_early (s : State) (c : CtxNum) (h : s.time.beat < (s.ctxs.get c.val).switchBeat + s.act Reg.CTX.FLOW_DRAIN) :
    execFlowDrainExpire c s = .next s := if_neg (by omega)

/-! ### Shadow statistics -/

theorem State.modShadow_get (s : State) (c f : Nat) (g : ShadowSt → ShadowSt) :
    (s.modShadow c f g).obs.shadow.get (shadowKey c f) = g (s.obs.shadow.get (shadowKey c f)) := Tbl.get_set_self _ _ _

theorem execShadowStatistics_skipped (s : State) (c : CtxNum) (f : Flock) (n : Fin 32) (vals : List (Nat × Int)) (m : Nat) (b : Bool) (v : Version)
    (h : ShadowSt) (hv : (s.ctxs.get c.val).active = some v) (hk : (s.ctxs.get c.val).kind = 4) (hi : s.flockIssues f.val = true)
    (hf : v.flocks.contains f.val = true) (hn : n.val < (taps (v.shadow)).length)
    (he : s.shadowSees v.shadowCtx f.val (bits ((taps v.shadow).getD n.val 0) 0 2) m ≠ [])
    (hm : v.shadowMv ∉ s.shadowSees v.shadowCtx f.val (bits ((taps v.shadow).getD n.val 0) 0 2) m)
    (hh : h = s.obs.shadow.get (shadowKey c.val f.val)) (hb : h.seenAt ≠ s.time.beat + 1) : ∃ t, execShadowStatistics c f n vals m b s = .next t ∧
      t.obs.shadow.get (shadowKey c.val f.val) = { h with skipped := h.skipped + 1, seenAt := s.time.beat + 1 } ∧
      t = { s with regs := t.regs, obs := t.obs } := by
  subst hh
  refine ⟨s.modShadow c.val f.val (fun h => { h with skipped := h.skipped + 1, seenAt := s.time.beat + 1 }), ?_, State.modShadow_get _ _ _ _, rfl⟩
  simp [execShadowStatistics, hv, hk, hi, List.contains_iff_mem.1 hf, not_le.2 hn, he, hm, hb, b2n, -List.getD_eq_getElem?_getD]

theorem execShadowStatistics_taken (s : State) (c : CtxNum) (f : Flock) (n : Fin 32) (vals : List (Nat × Int)) (m : Nat) (v : Version)
    (h : ShadowSt) (hv : (s.ctxs.get c.val).active = some v) (hk : (s.ctxs.get c.val).kind = 4) (hi : s.flockIssues f.val = true)
    (hf : v.flocks.contains f.val = true) (hn : n.val < (taps (v.shadow)).length)
    (hm : v.shadowMv ∈ s.shadowSees v.shadowCtx f.val (bits ((taps v.shadow).getD n.val 0) 0 2) m)
    (hh : h = s.obs.shadow.get (shadowKey c.val f.val)) (hb : h.seenAt ≠ s.time.beat + 1) :
    ∃ t u, execShadowStatistics c f n vals m true s = .next t ∧ execShadowStatistics c f n vals m false s = .next u ∧
      (t.obs.shadow.get (shadowKey c.val f.val)).void = h.void + 1 ∧ (t.obs.shadow.get (shadowKey c.val f.val)).taken = h.taken ∧
      (u.obs.shadow.get (shadowKey c.val f.val)).taken = h.taken + 1 ∧ t = { s with obs := t.obs } ∧ u = { s with obs := u.obs } := by
  subst hh
  have he := List.ne_nil_of_mem hm
  refine ⟨s.modShadow c.val f.val (fun h => { h with void := h.void + 1, seenAt := s.time.beat + 1 }),
    s.modShadow c.val f.val (fun h => { h with
      taken := h.taken + 1
      chans := takeVals ((taps v.shadow).getD n.val 0) (v.tapExp ((taps v.shadow).getD n.val 0)) h.chans
        (s.tapVals c.val v f.val (bits ((taps v.shadow).getD n.val 0) 0 2) vals)
      seenAt := s.time.beat + 1 }), ?_, ?_, ?_, ?_, ?_, rfl, rfl⟩
  · simp [execShadowStatistics, hv, hk, hi, List.contains_iff_mem.1 hf, not_le.2 hn, he, hm, hb, b2n, -List.getD_eq_getElem?_getD]
  · simp [execShadowStatistics, hv, hk, hi, List.contains_iff_mem.1 hf, not_le.2 hn, he, hm, hb, b2n, -List.getD_eq_getElem?_getD]
  all_goals rw [State.modShadow_get]

/-- A block that is observed changes no packet and no context. -/
theorem State.observe_spec (s : State) (it : ObsItem) :
    (s.observe it).pkts = s.pkts ∧ (s.observe it).ctxs = s.ctxs ∧ (s.observe it).obs.shadow = s.obs.shadow := by
  rw [State.observe]
  split
  · exact ⟨by simp, by simp, by simp⟩
  · exact ⟨rfl, rfl, rfl⟩

theorem execShadowWindowEnd_ends (s : State) (c : CtxNum) (f : Flock) (v : Version) (hv : (s.ctxs.get c.val).active = some v)
    (hk : (s.ctxs.get c.val).kind = 4) (hf : v.flocks.contains f.val = true) (h0 : s.time.beat ≠ 0)
    (hw : s.time.beat % 2 ^ bits (leAt (v.shadow) 0 8) 0 5 = 0) (he : (s.obs.shadow.get (shadowKey c.val f.val)).endAt ≠ s.time.beat + 1) :
    ∃ t, execShadowWindowEnd c f s = .next t ∧ t.obs.shadow.get (shadowKey c.val f.val) = { endAt := s.time.beat + 1 } ∧
      t.pkts = s.pkts ∧ t.ctxs = s.ctxs := by
  simp only [execShadowWindowEnd, hv]
  refine ⟨_, if_neg (by simp [hk, List.contains_iff_mem.1 hf, h0, hw, he]), ?_⟩
  obtain ⟨hp, hc, ho⟩ := State.observe_spec (((s.hbmWrite _ _).modShadow c.val f.val (fun _ => { endAt := s.time.beat + 1 }))) _
  exact ⟨by rw [ho, State.modShadow_get], hp.trans (by simp [State.modShadow]), hc.trans (by simp [State.modShadow])⟩

/-! ### Aggregate windows -/

theorem execAggregateWindow_off (s : State) (h : s.time.beat % 16384 ≠ 0) : execAggregateWindow s = .next s := if_pos (.inl h)

theorem execAggregateWindow_done (s : State) (h : s.globals.window = s.time.beat + 1) : execAggregateWindow s = .next s := if_pos (.inr h)

/-- What an end and a start of aggregate runs keep: packets, registers, the frozen globals, the doubt, and of every context its versions, its kind and
its doubt. -/
def State.Aggregates (s t : State) : Prop :=
  t.pkts = s.pkts ∧ t.regs = s.regs ∧ t.globals.old = s.globals.old ∧ t.globals.window = s.globals.window ∧ t.devSafe = s.devSafe ∧
  t.herd = s.herd ∧ ∀ c, (t.ctxs.get c).active = (s.ctxs.get c).active ∧ (t.ctxs.get c).kind = (s.ctxs.get c).kind ∧
    (t.ctxs.get c).down = (s.ctxs.get c).down

theorem State.Aggregates.refl (s : State) : s.Aggregates s := ⟨rfl, rfl, rfl, rfl, rfl, rfl, fun _ => ⟨rfl, rfl, rfl⟩⟩

theorem State.Aggregates.trans (h : s.Aggregates t) (h' : t.Aggregates u) : s.Aggregates u := by
  obtain ⟨hp, hr, ho, hw, hd, hh, hc⟩ := h
  obtain ⟨hp', hr', ho', hw', hd', hh', hc'⟩ := h'
  exact ⟨hp'.trans hp, hr'.trans hr, ho'.trans ho, hw'.trans hw, hd'.trans hd, hh'.trans hh, fun c =>
    ⟨(hc' c).1.trans (hc c).1, (hc' c).2.1.trans (hc c).2.1, (hc' c).2.2.trans (hc c).2.2⟩⟩

theorem State.Aggregates.foldl {α : Type} {g : State → α → State} (h : ∀ (t : State) (x : α), t.Aggregates (g t x)) (l : List α) (s : State) :
    s.Aggregates (l.foldl g s) := by
  induction l generalizing s with
  | nil => exact .refl s
  | cons x l ih => exact (h s x).trans (ih _)

/-- A context whose versions, kind and doubt stand. -/
theorem State.aggregates_setCtx (s : State) (c : Nat) (x : Ctx) (ha : x.active = (s.ctxs.get c).active) (hk : x.kind = (s.ctxs.get c).kind)
    (hd : x.down = (s.ctxs.get c).down) : s.Aggregates { s with ctxs := s.ctxs.set c x } := by
  refine ⟨rfl, rfl, rfl, rfl, rfl, rfl, fun k => ?_⟩
  by_cases hkc : k = c
  · subst hkc
    simp [Tbl.get_set_self, ha, hk, hd]
  · simp [Tbl.get_set_ne _ _ hkc]

theorem State.aggregates_land (s : State) (c : Nat) : s.Aggregates (s.landAggregate c) := by
  unfold State.landAggregate
  extract_lets x s1
  have h1 : s.Aggregates s1 := s.aggregates_setCtx c _ rfl rfl rfl
  split
  · exact .refl s
  · split
    · exact h1
    · split
      · exact h1
      · refine h1.trans (.foldl (fun t i => ?_) _ s1)
        split
        · exact ⟨rfl, rfl, rfl, rfl, rfl, rfl, fun _ => ⟨rfl, rfl, rfl⟩⟩
        · exact .refl t

theorem State.aggregates_start (s : State) (c : Nat) : s.Aggregates (s.startAggregate c) := by
  unfold State.startAggregate
  extract_lets x
  split
  · split
    · exact .refl s
    · exact s.aggregates_setCtx c _ rfl rfl rfl
  · exact .refl s

/-- A context that runs the version v. -/
def State.RunsAggregate (s : State) (c : Nat) (v : Version) : Prop := (s.ctxs.get c).running = true ∧ (s.ctxs.get c).runMv = v.ver

theorem State.startAggregate_self (s : State) (c : Nat) (v : Version) (ha : (s.ctxs.get c).active = some v) (hk : (s.ctxs.get c).kind = 3)
    (hv : v.ver ≠ 0) (hd : (s.ctxs.get c).down = 0) (hs : s.devSafe = false) (ht : s.herd.stopped = false) : (s.startAggregate c).RunsAggregate c v := by
  simp [State.startAggregate, State.RunsAggregate, ha, hk, hv, hd, hs, ht, Tbl.get_set_self]

theorem State.startAggregate_ne (s : State) {c k : Nat} (h : c ≠ k) : (s.startAggregate k).ctxs.get c = s.ctxs.get c := by
  unfold State.startAggregate
  extract_lets x
  split
  · split
    · rfl
    · exact Tbl.get_set_ne _ _ h
  · rfl

/-- Every context of the list that may run does so when its runs have been started. -/
theorem startAggregates_run (l : List Nat) (s : State) (c : Nat) (v : Version) (ha : (s.ctxs.get c).active = some v) (hk : (s.ctxs.get c).kind = 3)
    (hv : v.ver ≠ 0) (hd : (s.ctxs.get c).down = 0) (hs : s.devSafe = false) (ht : s.herd.stopped = false) (hc : c ∈ l ∨ s.RunsAggregate c v) :
    (l.foldl State.startAggregate s).RunsAggregate c v := by
  induction l generalizing s with
  | nil => simpa using hc
  | cons x l ih =>
    obtain ⟨-, -, -, -, hs', ht', hx⟩ := s.aggregates_start x
    obtain ⟨ha', hk', hd'⟩ := hx c
    refine ih (s.startAggregate x) (ha'.trans ha) (hk'.trans hk) (hd'.trans hd) (hs'.trans hs) (by rw [ht', ht]) ?_
    by_cases hcx : c = x
    · exact .inr (hcx ▸ s.startAggregate_self c v ha hk hv hd hs ht)
    · refine (hc.imp_left fun hm => (List.mem_cons.1 hm).resolve_left hcx).imp_right fun hr => ?_
      rwa [State.RunsAggregate, s.startAggregate_ne hcx]

theorem execAggregateWindow_starts (s : State) (h : s.time.beat % 16384 = 0) (hw : s.globals.window ≠ s.time.beat + 1) (hs : s.devSafe = false)
    (ht : s.herd.stopped = false) : ∃ t, execAggregateWindow s = .next t ∧ t.pkts = s.pkts ∧ t.regs = s.regs ∧ t.globals.old = s.globals.now ∧
      t.globals.window = s.time.beat + 1 ∧
      (∀ c v, c ∈ s.ctxs.keys → (s.ctxs.get c).active = some v → (s.ctxs.get c).kind = 3 → v.ver ≠ 0 → (s.ctxs.get c).down = 0 →
        (t.ctxs.get c).running = true ∧ (t.ctxs.get c).runMv = v.ver) := by
  refine ⟨_, if_neg (by simp [h, hw]), ?_⟩
  have hl := State.Aggregates.foldl State.aggregates_land s.ctxs.keys
    { s with globals := { s.globals with old := s.globals.now, window := s.time.beat + 1 } }
  obtain ⟨hp, hr, ho, hw', -, -, -⟩ := hl.trans (.foldl State.aggregates_start s.ctxs.keys _)
  obtain ⟨-, -, -, -, hsl, htl, hx⟩ := hl
  refine ⟨hp, hr, ho, hw', fun c v hc ha hk hv hd => ?_⟩
  obtain ⟨ha', hk', hd'⟩ := hx c
  exact startAggregates_run s.ctxs.keys _ c v (ha'.trans ha) (hk'.trans hk) hv (hd'.trans hd) (hsl.trans hs) (by rw [htl]; exact ht) (.inl hc)

/-- Settles O22. -/
theorem shadowAndAggregateCommands : Obligations.ShadowAndAggregateCommands :=
  ⟨execFlowDrainExpire_ends, execFlowDrainExpire_early, execShadowStatistics_skipped, execShadowStatistics_taken, execShadowWindowEnd_ends,
    execAggregateWindow_off, execAggregateWindow_done, execAggregateWindow_starts⟩

end Sys2Proof.Machine
end

section
/-! PROOF. Flow lookups, the victim buffer and the ageing sweep (R75, R77, R78, R81, R105): O5. -/

namespace Sys2Proof.Machine

-- One thread for the proofs, which bounds the memory that checking them takes.
set_option Elab.async false

open Sys2Proof

variable {s t u : State}

/-- What a change of the flow state leaves as it was. -/
theorem State.FlowOnly.stands (h : s.FlowOnly t) :
    t.pkts = s.pkts ∧ t.eg = s.eg ∧ t.cls = s.cls ∧ t.ep = s.ep ∧ t.lanes = s.lanes ∧ t.time = s.time := by
  rw [State.FlowOnly, State.ReportsOnly] at h
  rw [h]
  exact ⟨rfl, rfl, rfl, rfl, rfl, rfl⟩

theorem State.StoreOnly.ctxs (h : s.StoreOnly t) : t.ctxs = s.ctxs := by
  have hr := h.1
  rw [State.ReportsOnly] at hr
  rw [hr]

theorem execFlowLookup_keyed (s : State) (pk : PktId) (c f : List Nat) (x : Pkt) (h : s.pkt? pk = some x) (hs : x.lk.searched = true)
    (hl : x.lk.looked = false) (hk : x.keyed = true) (hf : x.vd.fcs = none) : ∃ t y, execFlowLookup pk c f s = .next t ∧ t.pkt? pk = some y ∧
      y.lk.looked = true ∧ y.lk.key = flowKey x.i (Rule.fkey x.lk.act) (Rule.tenant x.lk.act) ∧ y.lk.flowId = fingerprint y.lk.key ∧ y.i = x.i ∧
      t.eg = s.eg ∧ t.cls = s.cls := by
  unfold execFlowLookup
  simp only [h, hs, hl, hk, not_true_eq_false, Bool.false_eq_true, or_self, if_false, if_true]
  generalize hs1 : s.modPkt pk (fun x => { x with lk := { x.lk with looked := true } }) = s1
  generalize hkey : flowKey x.i (Rule.fkey x.lk.act) (Rule.tenant x.lk.act) = key
  have h1 : s1.pkt? pk = some { x with lk := { x.lk with looked := true } } := by
    rw [← hs1]
    exact State.pkt?_modPkt_self h _
  have hst : s1.eg = s.eg ∧ s1.cls = s.cls := by
    rw [← hs1, State.modPkt_some h]
    exact ⟨rfl, rfl⟩
  obtain ⟨hp, he, hc, -, -, -⟩ := ((State.FlowOnly.refl s1).cacheDrop (key := key) (bad := c)).flowSearch (key := key) |>.stands
  generalize (s1.cacheDrop key c).flowSearch key = r at *
  obtain ⟨v, how⟩ := r
  have hv : v.pkt? pk = some { x with lk := { x.lk with looked := true } } := by
    rw [State.pkt?, hp]
    exact h1
  simp only [State.pkt?_modPkt_self hv, hf, reduceCtorEq, false_and, if_false]
  refine ⟨_, { x with lk := { x.lk with looked := true, key := key, flowId := fingerprint key, how := how } }, rfl,
    State.pkt?_modPkt_self hv _, rfl, rfl, rfl, rfl, ?_⟩
  rw [State.modPkt_some hv]
  exact ⟨he.trans hst.1, hc.trans hst.2⟩

theorem execFlowLookup_unkeyed (s : State) (pk : PktId) (c f : List Nat) (x : Pkt) (h : s.pkt? pk = some x) (hs : x.lk.searched = true)
    (hl : x.lk.looked = false) (hk : x.keyed = false) (hf : x.vd.fcs = none) :
    execFlowLookup pk c f s = .next { s with pkts := s.pkts.put pk (some { x with lk := { x.lk with looked := true } }) } := by
  simp only [execFlowLookup, h, hs, hl, hk, State.pkt?_modPkt_self h, hf, not_true_eq_false, Bool.false_eq_true, or_self, if_false, reduceCtorEq,
    false_and]
  simp only [State.modPkt_some h, hs]

theorem execVictimWriteback_writes (s : State) (n : Nat) (e : CacheEnt) (h : s.flow.victims[n]? = some e) (hc : s.herd.cut = false) :
    ∃ t, execVictimWriteback n s = .next t ∧
      t.flow.victims.map (fun e => (e.key, e.hot)) = (s.flow.victims.eraseIdx n).map (fun e => (e.key, e.hot)) ∧
      (e.loc ≠ none → t.flow.victims = s.flow.victims.eraseIdx n) ∧ t.pkts = s.pkts ∧ t.ctxs = s.ctxs := by
  unfold execVictimWriteback
  simp only [hc, Bool.false_eq_true, if_false, h]
  generalize hv : s.setFlow (fun f => { f with victims := f.victims.eraseIdx n }) = v
  have hvf : v.flow.victims = s.flow.victims.eraseIdx n ∧ v.pkts = s.pkts ∧ v.ctxs = s.ctxs := by
    subst hv
    exact ⟨rfl, rfl, rfl⟩
  obtain ⟨hvv, hvp, hvc⟩ := hvf
  have hw := (State.StoreOnly.refl v).writeBack (e := e) (keep := false)
  have hl : ∀ l, e.loc = some l →
      ((v.writeBack e false).1.flow.victims = v.flow.victims ∧ (v.writeBack e false).2 = some l) := by
    intro l hl
    rw [State.writeBack, hl]
    exact ⟨by simp [State.setTag], rfl⟩
  generalize v.writeBack e false = r at *
  obtain ⟨w, o⟩ := r
  obtain ⟨hwp, -⟩ := hw.flowOnly.stands
  cases o with
  | some l' =>
    refine ⟨w, rfl, hvv ▸ hw.2.2, fun hn => ?_, hwp.trans hvp, hw.ctxs.trans hvc⟩
    obtain ⟨l, he⟩ := Option.ne_none_iff_exists'.1 hn
    exact (hl l he).1.trans hvv
  | none =>
    have hf := hw.freeRingOf (h := e.hot)
    refine ⟨w.freeRingOf e.hot, rfl, hvv ▸ hf.2.2, fun hn => ?_, hf.flowOnly.stands.1.trans hvp, hf.ctxs.trans hvc⟩
    obtain ⟨l, he⟩ := Option.ne_none_iff_exists'.1 hn
    cases (hl l he).2

theorem execFlowAgeSweep_off (s : State) (bucket : Fin 134217728) (h : s.act Reg.FLOW.IDLE_EPOCHS = 0) : execFlowAgeSweep bucket s = .next s :=
  if_pos (.inl h)

theorem execFlowAgeSweep_frame (s : State) (bucket : Fin 134217728) : ∃ t, execFlowAgeSweep bucket s = .next t ∧ t.pkts = s.pkts ∧
    t.flow.victims.map (fun e => (e.key, e.hot)) = s.flow.victims.map (fun e => (e.key, e.hot)) ∧ t.ep = s.ep ∧ t.cls = s.cls := by
  suffices h : ∃ t, execFlowAgeSweep bucket s = .next t ∧ s.StoreOnly t by
    obtain ⟨t, he, ht⟩ := h
    obtain ⟨hp, -, hc, hep, -⟩ := ht.flowOnly.stands
    exact ⟨t, he, hp, ht.2.2, hep, hc⟩
  unfold execFlowAgeSweep
  extract_lets bk idle s1
  have h1 : s.StoreOnly s1 := (State.StoreOnly.refl s).tagCheck
  split
  · exact ⟨s, rfl, .refl s⟩
  · refine ⟨_, rfl, h1.foldl fun t l ht => ?_⟩
    extract_lets g h
    split
    · split
      · exact ht.recordUe
      · exact ht.setTag.records.freeRingOf.ite ht
    · exact ht

/-- Settles O5. -/
theorem flowLookupCommands : Obligations.FlowLookupCommands :=
  ⟨execFlowLookup_keyed, execFlowLookup_unkeyed, execVictimWriteback_writes, execFlowAgeSweep_off, execFlowAgeSweep_frame⟩

end Sys2Proof.Machine
end

section
/-! PROOF. Beat markers and misses (R15, R17, R199, R219, R295, R337): O1. -/

namespace Sys2Proof.Machine

-- One thread for the proofs, which bounds the memory that checking them takes.
set_option Elab.async false

open Sys2Proof

variable {s0 s t u : State} {n : Nat}

/-! ### Markers -/

theorem State.Keeps.beat (h : s.Keeps t) : t.time.beat = s.time.beat := (Prod.mk.inj h.2.1).2

theorem State.Keeps.started (h : s.Keeps t) : t.time.started = s.time.started := (Prod.mk.inj h.2.1).1

theorem execBeatMarker_boundary (s : State) (h : s.Runs) (hr : s.sec.reqReset ≠ some true) :
    ∃ t, execBeatMarker .portCore s = .next t ∧ t.time.beat = s.time.beat + 1 := by
  have hb : s.newBeat.time.beat = s.time.beat + 1 := rfl
  refine ⟨s.boundary, ?_, s.keeps_boundary.beat.trans hb⟩
  rw [execBeatMarker, if_pos h, if_neg hr]

theorem State.treeBeat_frame (s : State) (f : Nat) :
    (s.treeBeat f).time = s.time ∧ (s.treeBeat f).regs = s.regs ∧ (s.treeBeat f).pkts = s.pkts ∧ (s.treeBeat f).hbm = s.hbm := by
  unfold State.treeBeat
  extract_lets old par gset lo vbuf part n cores
  exact ⟨rfl, rfl, rfl, rfl⟩

theorem execBeatMarker_island (s : State) (i : Island) (h : i ≠ .portCore) (hr : s.Runs) (hb : s.time.islBeat.get i.num < s.time.beat) :
    ∃ t, execBeatMarker i s = .next t ∧ t.time.islBeat.get i.num = s.time.beat ∧ t.regs = s.regs ∧ t.pkts = s.pkts ∧ t.hbm = s.hbm := by
  have hn : ¬ (¬ s.time.started = true ∨ s.time.beat ≤ s.time.islBeat.get i.num) := by
    rw [hr]
    simpa using hb
  have hi : (s.time.islBeat.set i.num s.time.beat).get i.num = s.time.beat := Tbl.get_set_self _ _ _
  generalize ht : ({ s with time := { s.time with islBeat := s.time.islBeat.set i.num s.time.beat } } : State) = t
  have htf : t.time.islBeat.get i.num = s.time.beat ∧ t.regs = s.regs ∧ t.pkts = s.pkts ∧ t.hbm = s.hbm := by
    subst ht
    exact ⟨hi, rfl, rfl, rfl⟩
  cases i with
  | portCore => exact absurd rfl h
  | flock f =>
    obtain ⟨h1, h2, h3, h4⟩ := t.treeBeat_frame f.val
    exact ⟨t.treeBeat f.val, by simp only [execBeatMarker, if_neg hn, ht], by rw [h1, h2, h3, h4]; exact htf⟩
  | lane l => exact ⟨t, by simp only [execBeatMarker, if_neg hn, ht], htf⟩
  | replica r => exact ⟨t, by simp only [execBeatMarker, if_neg hn, ht], htf⟩
  | hbmc m => exact ⟨t, by simp only [execBeatMarker, if_neg hn, ht], htf⟩
  | hlink p => exact ⟨t, by simp only [execBeatMarker, if_neg hn, ht], htf⟩

/-! ### Misses of a lane -/

/-- One more miss of an island. -/
def State.noteMiss (s : State) (k : Nat) : State :=
  { s with time := { s.time with misses := s.time.misses.set k (s.time.misses.get k + 1), missAt := s.time.missAt.set k s.time.beat } }

/-- A report of a count. -/
theorem State.reportsOnly_bump_fault (s : State) (f : Field) (i : Nat) (r : FaultRec) : s.ReportsOnly ((s.bump f i).fault r) :=
  State.ReportsOnly.trans (.bump _ _ _ _ _ _) (.fault _ _)

/-- A miss is counted for its island; only the reports are changed with it. -/
theorem State.countMiss_lane (s : State) (l : Lane) : (s.noteMiss l.val).ReportsOnly (s.countMiss (.lane l)) := by
  unfold State.countMiss
  extract_lets k _ s1 rec_
  exact State.reportsOnly_bump_fault s1 Reg.LANE.MISSED l.val _

theorem State.countMiss_flock (s : State) (f : Flock) : (s.noteMiss (32 + f.val)).ReportsOnly (s.countMiss (.flock f)) := by
  unfold State.countMiss
  extract_lets k _ s1 rec_
  exact State.ReportsOnly.trans (.wr s1 Reg.FLOCK.MISS_EPOCH _ f.val 0 0) (State.reportsOnly_bump_fault _ Reg.FLOCK.MISSED f.val _)

theorem State.noteMiss_get (s : State) (k : Nat) : (s.noteMiss k).time.misses.get k = s.time.misses.get k + 1 := by
  rw [State.noteMiss, Tbl.get_set_self]

theorem Tbl.find?_map_snd {α : Type} (m : Tbl α) (g : α → α) (k : Nat) : Tbl.find? (m.map fun e => (e.1, g e.2)) k = (m.find? k).map g := by
  induction m with
  | nil => rfl
  | cons e m ih =>
    obtain ⟨a, v⟩ := e
    simp only [List.map_cons, Tbl.find?]
    split
    · rfl
    · exact ih

theorem State.stopCores_time (s : State) (l : Nat) : (s.stopCores l).time = s.time := rfl

theorem State.missPkts_time (s : State) (p : Pkt → Bool) (g : Pkt → Pkt) : (s.missPkts p g).time = s.time := rfl

/-- A packet of the missed beat that is still here takes the reason of the miss. -/
def missed (p : Pkt → Bool) (g : Pkt → Pkt) (x : Pkt) : Pkt :=
  if !x.vd.gone && !x.vd.released && p x then
    { g x with vd := { (g x).vd with reasons := if (g x).vd.reasons.contains 16 then (g x).vd.reasons else (g x).vd.reasons ++ [16] } }
  else x

theorem State.missPkts_find (s : State) (p : Pkt → Bool) (g : Pkt → Pkt) (k : Nat) :
    (s.missPkts p g).pkts.find? k = (s.pkts.find? k).map (Option.map (missed p g)) := Tbl.find?_map_snd s.pkts _ k

theorem missed_reason {p : Pkt → Bool} {g : Pkt → Pkt} {x : Pkt} (hg : x.vd.gone = false) (hr : x.vd.released = false) (hp : p x = true) :
    16 ∈ (missed p g x).vd.reasons := by
  simp only [missed, hg, hr, hp, Bool.not_false, Bool.and_self, if_true]
  split
  next h => exact List.contains_iff_mem.1 h
  next => simp

theorem missed_other {p : Pkt → Bool} {g : Pkt → Pkt} {x : Pkt} (hp : p x = false) : missed p g x = x := by
  simp [missed, hp]

theorem execBeatMiss_lane (s : State) (l : Lane) (h : s.Runs) (h0 : s.time.beat ≠ 0) : ∃ t, execBeatMiss (.lane l) s = .next t ∧
    t.time.misses.get l.val = s.time.misses.get l.val + 1 ∧
    (∀ k x, s.pkts.find? k = some (some x) → x.vd.gone = false → x.vd.released = false → x.i.lane = l.val → x.i.b = s.time.beat →
      ∃ y, t.pkts.find? k = some (some y) ∧ 16 ∈ y.vd.reasons) ∧
    (∀ k x, s.pkts.find? k = some (some x) → x.i.lane ≠ l.val → t.pkts.find? k = some (some x)) := by
  have hr := s.countMiss_lane l
  have hp : (s.countMiss (.lane l)).pkts = s.pkts ∧ (s.countMiss (.lane l)).time = (s.noteMiss l.val).time := by
    rw [State.ReportsOnly] at hr
    rw [hr]
    exact ⟨rfl, rfl⟩
  obtain ⟨hp, ht⟩ := hp
  have hb : s.time.beat - 1 + 1 = s.time.beat := Nat.sub_add_cancel (Nat.pos_of_ne_zero h0)
  simp only [execBeatMiss, h, h0, not_true_eq_false, or_self, if_false]
  generalize s.countMiss (.lane l) = c at hp ht
  refine ⟨_, rfl, ?_, fun k x hx hg hl hi hb' => ?_, fun k x hx hi => ?_⟩
  · rw [State.stopCores_time, State.missPkts_time, ht, s.noteMiss_get]
  · refine ⟨_, (State.missPkts_find _ _ _ k).trans (by rw [hp, hx]; rfl), missed_reason hg hl ?_⟩
    simp [hi, hb', hb]
  · refine (State.missPkts_find _ _ _ k).trans ?_
    rw [hp, hx, Option.map_some, Option.map_some, missed_other]
    simp [hi]

/-! ### Misses of a flock -/

/-- Lanes stand, no flock is withdrawn or comes back, and an island's misses do not fall. -/
def State.NotesMiss (n : Nat) (s t : State) : Prop :=
  t.lanes = s.lanes ∧ (∀ g, (t.flocks.get g).withdrawn = (s.flocks.get g).withdrawn) ∧ s.time.misses.get n ≤ t.time.misses.get n

theorem State.NotesMiss.refl (s : State) : s.NotesMiss n s := ⟨rfl, fun _ => rfl, le_rfl⟩

theorem State.NotesMiss.trans (h : s.NotesMiss n t) (h' : t.NotesMiss n u) : s.NotesMiss n u :=
  ⟨h'.1.trans h.1, fun g => (h'.2.1 g).trans (h.2.1 g), h.2.2.trans h'.2.2⟩

theorem State.NotesMiss.foldl {α : Type} {g : State → α → State} {l : List α} (hs : s0.NotesMiss n s)
    (h : ∀ (t : State) (x : α), t.NotesMiss n (g t x)) : s0.NotesMiss n (l.foldl g s) := by
  induction l generalizing s with
  | nil => exact hs
  | cons x l ih => exact ih (hs.trans (h s x))

/-- What leaves lanes, flocks and the time alone. -/
theorem State.NotesMiss.of_eq (hl : t.lanes = s.lanes) (hf : t.flocks = s.flocks) (ht : t.time = s.time) : s.NotesMiss n t :=
  ⟨hl, fun g => by rw [hf], by rw [ht]⟩

theorem State.notesMiss_later (s : State) (a : Act) : s.NotesMiss n (s.later a) := .of_eq rfl rfl rfl

theorem State.NotesMiss.reports (h : s.ReportsOnly t) : s.NotesMiss n t := by
  rw [State.ReportsOnly] at h
  rw [h]
  exact .of_eq rfl rfl rfl

theorem State.notesMiss_countMiss (s : State) (f : Flock) : s.NotesMiss n (s.countMiss (.flock f)) := by
  refine State.NotesMiss.trans (t := s.noteMiss (32 + f.val)) ⟨rfl, fun _ => rfl, ?_⟩ (.reports (s.countMiss_flock f))
  by_cases hn : n = 32 + f.val
  · rw [hn, s.noteMiss_get]
    exact Nat.le_succ _
  · rw [State.noteMiss, Tbl.get_set_ne _ _ hn]

theorem State.notesMiss_ovfMiss (s : State) (f : Flock) : s.NotesMiss n (s.ovfMiss f) := by
  rw [State.ovfMiss]
  split
  · exact .refl s
  · refine State.NotesMiss.trans (t := { s with flocks := s.flocks.mod f.val (fun x => { x with ovf := s.time.beat + 1 }) }) ⟨rfl, fun g => ?_, le_rfl⟩
      (State.NotesMiss.trans (State.notesMiss_countMiss _ f) (State.notesMiss_later _ _))
    by_cases hg : g = f.val
    · simp [hg, Tbl.mod]
    · simp [Tbl.mod, Tbl.get_set_ne _ _ hg]

theorem State.notesMiss_postCell (s : State) (f : Flock) (c : Nat) : s.NotesMiss n (s.postCell f c) := by
  rw [State.postCell]
  split
  · exact State.NotesMiss.trans (t := s.bump Reg.FLOCK.SYNC_OVF f.val) (.of_eq rfl rfl rfl) (State.notesMiss_ovfMiss _ f)
  · rw [State.setCell]
    split
    · exact .refl s
    · exact .of_eq rfl rfl rfl

theorem State.notesMiss_land (s : State) (f : Flock) : s.NotesMiss n (s.land f) := by
  unfold State.land
  extract_lets _ _ _ _ _ _ s1
  have h1 : s.NotesMiss n s1 := .of_eq rfl rfl rfl
  split
  · exact .refl s
  · exact h1.foldl fun t p => (State.NotesMiss.refl t).foldl fun t i => t.notesMiss_postCell f _

theorem State.notesMiss_modRes (s : State) (pk : PktId) (c : Nat) (b : Bool) (g : CtxRes → CtxRes) : s.NotesMiss n (s.modRes pk c b g) := by
  rw [State.modRes, State.modPkt]
  split
  · exact .of_eq rfl rfl rfl
  · exact .refl s

theorem State.notesMiss_missCtx (s : State) (f c : Nat) (v : Version) (o : Nat) : s.NotesMiss n (s.missCtx f c v o) := by
  rw [State.missCtx]
  split
  · refine (State.NotesMiss.refl s).foldl fun t i => ?_
    split
    · exact (t.notesMiss_modRes _ _ _ _).trans (State.notesMiss_modRes _ _ _ _ _)
    · exact .refl t
  · unfold State.workLost
    split
    · exact .of_eq rfl rfl rfl
    · exact .of_eq rfl rfl rfl
    · exact .of_eq rfl rfl rfl
    · exact .refl s

theorem State.notesMiss_missTrees (s : State) (f b : Nat) : s.NotesMiss n (s.missTrees f b) := by
  unfold State.missTrees
  extract_lets s1
  have h1 : s.NotesMiss n s1 := (State.NotesMiss.refl s).foldl fun t c => .of_eq rfl rfl rfl
  exact h1.foldl fun t v => t.notesMiss_missCtx f _ _ _

theorem State.notesMiss_abandon (s : State) (c : ACoreId) (b : Nat) : s.NotesMiss n (s.abandon c b) := by
  unfold State.abandon
  extract_lets s1 start
  have h1 : s.NotesMiss n s1 := .of_eq rfl rfl rfl
  split
  next posts s2 h2 =>
    have hs2 : s.NotesMiss n s2 := by
      split at h2
      · cases h2
        exact h1.trans (State.notesMiss_missCtx _ _ _ _ _)
      · cases h2
        exact h1
    extract_lets s3 s4 _ _ s5
    have h3 : s.NotesMiss n s3 := hs2.foldl fun t a => .of_eq rfl rfl rfl
    have h4 : s3.NotesMiss n s4 := .of_eq rfl rfl rfl
    have h5 : s4.NotesMiss n s5 := .of_eq rfl rfl rfl
    exact ((h3.trans h4).trans h5).trans (.of_eq rfl rfl rfl)

theorem State.notesMiss_restoreCells (s : State) (own : Nat → Bool) : s.NotesMiss n (s.restoreCells own) := by
  rw [State.restoreCells]
  exact .of_eq rfl rfl rfl

theorem State.notesMiss_missFlock (s : State) (f b : Nat) : s.NotesMiss n (s.missFlock f b) := by
  unfold State.missFlock
  extract_lets s1 late vers cells s2
  have h1 : s.NotesMiss n s1 := s.notesMiss_land _
  have h2 : s.NotesMiss n s2 := by
    simp only [s2]
    split
    · exact h1.trans (State.notesMiss_missTrees _ _ _)
    · exact h1
  exact (h2.foldl fun t c => t.notesMiss_abandon c _).trans (State.notesMiss_restoreCells _ _)

theorem execBeatMiss_flock (s : State) (f : Flock) (h : s.Runs) (h0 : s.time.beat ≠ 0) (hw : (s.flocks.get f.val).withdrawn = false)
    (ho : (s.flocks.get f.val).ovf ≠ s.time.beat) : ∃ t, execBeatMiss (.flock f) s = .next t ∧
      s.time.misses.get (32 + f.val) < t.time.misses.get (32 + f.val) ∧ (∀ g, (t.flocks.get g).withdrawn = (s.flocks.get g).withdrawn) ∧
      t.lanes = s.lanes := by
  have hb : s.time.beat - 1 + 1 = s.time.beat := Nat.sub_add_cancel (Nat.pos_of_ne_zero h0)
  have hc := s.notesMiss_countMiss f (n := 0)
  have hm : (s.countMiss (.flock f)).time.misses.get (32 + f.val) = s.time.misses.get (32 + f.val) + 1 := by
    have hr := s.countMiss_flock f
    rw [State.ReportsOnly] at hr
    rw [hr]
    exact s.noteMiss_get _
  obtain ⟨hl, hf, hn⟩ := (s.countMiss (.flock f)).notesMiss_missFlock f.val (s.time.beat - 1) (n := 32 + f.val)
  refine ⟨(s.countMiss (.flock f)).missFlock f.val (s.time.beat - 1), ?_, ?_, fun g => (hf g).trans (hc.2.1 g), hl.trans hc.1⟩
  · simp only [execBeatMiss, h, h0, hw, hb, ho, not_true_eq_false, or_self, if_false, Bool.false_eq_true, false_and]
  · rw [hm] at hn
    exact hn

/-! ### Withdrawal -/

theorem State.lanePass_spec (s : State) (l : Nat) (dev own : Bool) : ((s.lanePass l dev own).lanes.get l).pass = true ∧
    (s.lanePass l dev own).time = s.time := by
  rw [State.lanePass]
  dsimp only
  split
  · next h => exact ⟨by simp [h], by simp⟩
  · exact ⟨by simp, by simp⟩

/-- An island's misses, counted from nought. -/
def State.clearMiss (s : State) (k : Nat) : State := { s with time := { s.time with misses := s.time.misses.set k 0 } }

theorem execMissWithdraw_at_limit (s : State) (i : Island) (h : missLimit i.num ≤ s.time.misses.get i.num) (ha : s.time.missAt.get i.num < s.time.beat) :
    execMissWithdraw i s = match i with
      | .lane l => .next ((s.clearMiss l.val).lanePass l.val true true)
      | .portCore => .next ((s.clearMiss 24).devSafeIn true)
      | .flock f => .next ((s.clearMiss (32 + f.val)).flockOut f.val true)
      | _ => execMissWithdraw i s := by
  cases i
  case replica | hbmc | hlink => rfl
  all_goals exact if_neg (not_or.2 ⟨not_lt.2 h, not_le.2 ha⟩)

theorem execMissWithdraw_lane (s : State) (l : Lane) (h : 4 ≤ s.time.misses.get l.val) (ha : s.time.missAt.get l.val < s.time.beat) :
    ∃ t, execMissWithdraw (.lane l) s = .next t ∧ (t.lanes.get l.val).pass = true ∧ t.time.misses.get l.val = 0 := by
  have hn : missLimit l.val = 4 := if_neg (by omega)
  obtain ⟨hp, ht⟩ := (s.clearMiss l.val).lanePass_spec l.val true true
  refine ⟨_, execMissWithdraw_at_limit s (.lane l) (hn.trans_le h) ha, hp, ?_⟩
  rw [ht, State.clearMiss, Tbl.get_set_self]

theorem State.flockOut_withdrawn (s : State) (f : Flock) : ((s.flockOut f.val true).flocks.get f.val).withdrawn = true := by
  cases h : (s.flocks.get f.val).withdrawn with
  | false =>
    obtain ⟨t, he, ht, -⟩ := execFlockWithdraw_withdraws s f h
    cases he
    exact ht
  | true => rw [State.flockOut, if_pos h, h]

theorem execMissWithdraw_flock (s : State) (f : Flock) (h : 4 ≤ s.time.misses.get (32 + f.val)) (ha : s.time.missAt.get (32 + f.val) < s.time.beat) :
    ∃ t, execMissWithdraw (.flock f) s = .next t ∧ (t.flocks.get f.val).withdrawn = true := by
  have hn : missLimit (32 + f.val) = 4 := if_neg (by omega)
  exact ⟨_, execMissWithdraw_at_limit s (.flock f) (hn.trans_le h) ha, State.flockOut_withdrawn _ f⟩

theorem State.devSafeIn_devSafe (s : State) (dev : Bool) : (s.devSafeIn dev).devSafe = true := by
  cases h : s.devSafe with
  | false => exact (s.devSafeIn_enters dev h).1
  | true => rw [State.devSafeIn, if_pos h, h]

theorem execMissWithdraw_portCore (s : State) (h : 2 ≤ s.time.misses.get 24) (ha : s.time.missAt.get 24 < s.time.beat) :
    ∃ t, execMissWithdraw .portCore s = .next t ∧ t.devSafe = true :=
  ⟨_, execMissWithdraw_at_limit s .portCore h ha, State.devSafeIn_devSafe _ true⟩

/-! ### The loss of lock, and START -/

theorem State.pllLoss_spec (s : State) : ∃ u, s.pllLoss = u.later (.devSafe true) ∧ s.ReportsOnly u := ⟨_, rfl, .fault s _⟩

theorem execPllLockLoss_queues (s : State) : ∃ t, execPllLockLoss s = .next t ∧ s.Queued t (.devSafe true) ∧ t.pkts = s.pkts ∧
    t.lanes = s.lanes ∧ t.ctxs = s.ctxs := by
  obtain ⟨u, hu, hr⟩ := s.pllLoss_spec
  rw [State.ReportsOnly] at hr
  refine ⟨u.later (.devSafe true), congrArg Host.Outcome.next hu, ?_⟩
  rw [hr]
  exact ⟨rfl, rfl, rfl, rfl⟩

theorem State.dataPath_started (s : State) : s.dataPath.time.started = true := by
  unfold State.dataPath
  extract_lets _ s1
  have h1 : s1.time.started = true := rfl
  clear_value s1
  exact (State.Keeps.refl s1).wr.retrainPorts.started.trans h1

theorem State.wrote_warm (s : State) (src : Source) : (s.wrote src).sec.warm = s.sec.warm := by
  unfold State.wrote
  extract_lets _ s1
  have h1 : s1.sec.warm = s.sec.warm := rfl
  split
  · split
    · exact h1
    · exact h1
  · exact h1

theorem State.resetRecord_time (s : State) : s.resetRecord.time = s.time := by
  unfold State.resetRecord
  extract_lets l
  exact State.fault_time _ _

/-- A device whose data path started acts by its registers at once. -/
theorem State.actNow_spec (s : State) : s.actNow.time = s.time ∧ s.actNow.acting = s.actNow.regs := ⟨rfl, rfl⟩

theorem execStart_runs (s : State) (src : Source) (h : s.Takes src true) (h4 : s.rd Reg.DEV.STAGE = 4) (hw : s.sec.warm = false) :
    ∃ t, execStart src s = .next t ∧ t.Runs ∧ t.acting = t.regs := by
  rw [execStart, s.basicCmd_takes _ h]
  refine ⟨_, rfl, ?_⟩
  have hs : (s.wrote src).rd Reg.DEV.STAGE = 4 := (s.rd_wrote src _ 0 0 0 (by decide)).trans h4
  have hv : (s.wrote src).sec.warm = false := (s.wrote_warm src).trans hw
  generalize s.wrote src = v at hs hv
  extract_lets s1 n b c s2
  have h1 : s1.rd Reg.DEV.STAGE = 4 := (v.rd_auditCmd src _ 0 1 _ 0 5 _ 0 0 0 (by decide)).trans hs
  have h2 : s1.sec.warm = false := (congrArg SecSt.warm (State.auditCmd_sec v src _ 0 1 _ 0 5)).trans hv
  rw [if_neg (by simp [h1, h2])]
  obtain ⟨ht, ha⟩ := (s2.actNow.runActs.actNow.event Blk.DEV 0 0).dataPath.resetRecord.actNow_spec
  exact ⟨(congrArg TimeSt.started (ht.trans (State.resetRecord_time _))).trans (State.dataPath_started _), ha⟩

/-- Settles O1. -/
theorem beatCommands : Obligations.BeatCommands :=
  ⟨execBeatMarker_boundary, execBeatMarker_island, execBeatMiss_lane, execBeatMiss_flock, execMissWithdraw_lane, execMissWithdraw_flock,
    execMissWithdraw_portCore, execPllLockLoss_queues, execStart_runs⟩

end Sys2Proof.Machine
end

section
/-! PROOF. Reception of frames (R31, R32, R37, R43, R49, R261, R337): O2. -/

namespace Sys2Proof.Machine

-- One thread for the proofs, which bounds the memory that checking them takes.
set_option Elab.async false

open Sys2Proof

variable {s t u : State} {n : Nat}

/-! ### The start of a frame -/

/-- A timestamp that is kept on reception changes its FIFO and a count. -/
theorem State.ptpRx_spec (s : State) (p : Port) (d : List Byte) (ts : Nat) :
    (s.ptpRx p.val d ts).lanes = s.lanes ∧ (s.ptpRx p.val d ts).freeCells = s.freeCells ∧ (s.ptpRx p.val d ts).lanesOf p.val = s.lanesOf p.val ∧
      (s.ptpRx p.val d ts).rx = s.rx ∧ (s.ptpRx p.val d ts).pkts = s.pkts ∧ (s.ptpRx p.val d ts).nextPkt = s.nextPkt ∧ (s.ptpRx p.val d ts).hbm = s.hbm ∧
      (s.ptpRx p.val d ts).cls = s.cls ∧ (s.ptpRx p.val d ts).flow = s.flow ∧ (s.ptpRx p.val d ts).time = s.time := by
  unfold State.ptpRx
  extract_lets g en data d'
  split
  · exact ⟨rfl, rfl, rfl, rfl, rfl, rfl, rfl, rfl, rfl, rfl⟩
  · split
    · exact ⟨rfl, rfl, rfl, rfl, rfl, rfl, rfl, rfl, rfl, rfl⟩
    · extract_lets e
      split
      next l lost _ =>
        extract_lets s1
        have h1 : s1.freeCells = s.freeCells := rfl
        have h2 : (s1.bump Reg.PORT.RX_TS_LOST g).freeCells = s1.freeCells := by
          rw [State.freeCells, State.freeCells, State.rd_bump_ne _ _ _ _ _ _ _ _ _ _ (Field.key_ne_of_page (by decide) (by decide) (by decide)
            (by decide) (by decide) (by decide) (by simp only [pageBase, Reg.PORT.RX_TS_LOST, Reg.HOLD.ALLOC, mkF, g]; omega))]
        split
        · exact ⟨rfl, h2.trans h1, rfl, rfl, rfl, rfl, rfl, rfl, rfl, rfl⟩
        · exact ⟨rfl, rfl, rfl, rfl, rfl, rfl, rfl, rfl, rfl, rfl⟩

/-- A frame that the MAC discards is counted, and captured nowhere. -/
theorem State.discard_spec (s : State) (l : Nat) : (((s.received l).ledger l 5).bump Reg.HOLD.INTAKE_DROP).time = s.time ∧
    (((s.received l).ledger l 5).bump Reg.HOLD.INTAKE_DROP).pkts = s.pkts ∧
    (((s.received l).ledger l 5).bump Reg.HOLD.INTAKE_DROP).nextPkt = s.nextPkt ∧ (((s.received l).ledger l 5).bump Reg.HOLD.INTAKE_DROP).cls = s.cls ∧
    (((s.received l).ledger l 5).bump Reg.HOLD.INTAKE_DROP).flow = s.flow ∧ (((s.received l).ledger l 5).bump Reg.HOLD.INTAKE_DROP).hbm = s.hbm := by
  simp [State.received, State.ledger]

theorem State.rx_put (s : State) (p : Nat) (r : RxFrame) : (s.rx.put p (some r)).get p = some r := by
  rw [Tbl.get, Tbl.find?_put_self, Option.getD_some]

/-- The port's lanes are none of them in reset. -/
theorem State.noneResetting (h : ∀ l ∈ s.lanesOf n, (s.lanes.get l).resetting = false) :
    (s.lanesOf n).any (fun l => (s.lanes.get l).resetting) = false := by
  simpa using h

theorem execFrameStart_begins (s : State) (p : Port) (d : List Byte) (ts : Nat) (h : s.Runs) (he : s.portExists p.val = true)
    (hu : s.linkUp p.val = true) (hr : s.rx.get p.val = none) (hl : ∀ l ∈ s.lanesOf p.val, (s.lanes.get l).resetting = false)
    (hf : 73 ≤ s.freeCells) : ∃ t, execFrameStart p d ts s = .next t ∧
      t.rx.get p.val = some { data := d, ts := ts, start := s.now } ∧ t.pkts = s.pkts ∧ t.nextPkt = s.nextPkt ∧ t.hbm = s.hbm := by
  obtain ⟨h1, h2, h3, h4, h5, h6, h7, -, -, h10⟩ := s.ptpRx_spec p d ts
  have hn : (s.ptpRx p.val d ts).now = s.now := by rw [State.now, State.now, h10]
  simp only [execFrameStart, h, he, hu, hr, not_true_eq_false, or_self, Option.isSome_none, Bool.false_eq_true, if_false]
  generalize s.ptpRx p.val d ts = u at *
  rw [h3, h1, State.noneResetting hl, h2, if_neg Bool.false_ne_true, if_neg (by omega)]
  refine ⟨_, rfl, ?_, by simp [h5], by simp [h6], by simp [h7]⟩
  rw [State.rx_put, ← hn]

theorem execFrameStart_drops (s : State) (p : Port) (d : List Byte) (ts : Nat) (h : s.Runs) (he : s.portExists p.val = true)
    (hu : s.linkUp p.val = true) (hr : s.rx.get p.val = none) (hl : ∀ l ∈ s.lanesOf p.val, (s.lanes.get l).resetting = false)
    (hf : s.freeCells < 73) : ∃ t, execFrameStart p d ts s = .next t ∧
      t.rx.get p.val = some { data := d, dropped := true, ts := ts, start := s.now } ∧ t.pkts = s.pkts ∧ t.nextPkt = s.nextPkt ∧
      t.cls = s.cls ∧ t.flow = s.flow ∧ t.hbm = s.hbm := by
  obtain ⟨h1, h2, h3, h4, h5, h6, h7, h8, h9, h10⟩ := s.ptpRx_spec p d ts
  have hn : (s.ptpRx p.val d ts).now = s.now := by rw [State.now, State.now, h10]
  simp only [execFrameStart, h, he, hu, hr, not_true_eq_false, or_self, Option.isSome_none, Bool.false_eq_true, if_false]
  generalize s.ptpRx p.val d ts = u at *
  rw [h3, h1, State.noneResetting hl, h2, if_neg Bool.false_ne_true, if_pos hf]
  obtain ⟨ht, hp, hn', hc, hfl, hh⟩ := u.discard_spec (p.val / 2)
  generalize ((u.received (p.val / 2)).ledger (p.val / 2) 5).bump Reg.HOLD.INTAKE_DROP = v at *
  refine ⟨_, rfl, ?_, hp.trans h5, hn'.trans h6, hc.trans h8, hfl.trans h9, hh.trans h7⟩
  rw [State.rx_put, ← hn]
  simp only [State.now, ht]

/-! ### The acceptance of a packet -/

theorem State.accept_spec (s : State) (p l : Nat) (d : List Byte) (vd : PktVd) :
    (s.accept p l d false vd).pkts = s.pkts.put s.nextPkt (some { i := s.pktIn p l d false, vd := vd }) ∧
      (s.accept p l d false vd).nextPkt = s.nextPkt + 1 ∧ (s.accept p l d false vd).rx = s.rx ∧
      ((s.accept p l d false vd).lanes.get l).resident = (s.lanes.get l).resident + 1 := by
  unfold State.accept
  extract_lets k pk s1
  have h1 : s1.pkts = s.pkts.put k (some pk) ∧ s1.nextPkt = k + 1 ∧ s1.rx = s.rx ∧ s1.lanes = s.lanes := ⟨rfl, rfl, rfl, rfl⟩
  obtain ⟨hp, hn, hr, hl⟩ := h1
  clear_value s1
  simp [State.received, State.ledger, State.setResident, Tbl.get_mod_self, hp, hn, hr, hl, k, pk]

theorem execPacketAccept_accepts (s : State) (p : Port) (l : Lane) (r : RxFrame) (h : s.Runs) (hr : s.rx.get p.val = some r)
    (hd : r.dropped = false) (hp : r.pkt = none) (hlen : 64 ≤ r.data.length) (ho : s.portOpen p.val = true) (hs : s.speedOf p.val ≠ 3)
    (hl : l.val = p.val / 2) (ha : s.laneAcc.get l.val ≠ s.time.cycle + 1) (hres : (s.lanes.get l.val).resetting = false) (he : r.ended = false)
    (htap : s.isTap p.val = true → tapValid r.data = true → 80 ≤ r.data.length) (hy : s.yields p.val r = false) :
    ∃ t x, execPacketAccept p l s = .next t ∧ t.pkt? s.nextPkt = some x ∧ x.i.b = s.time.beat + 1 ∧
      x.i.t = s.time.beat * 512 + s.time.cycle ∧ x.i.lane = l.val ∧ x.i.port = p.val ∧ x.i.frame = r.data ∧
      t.rx.get p.val = some { r with pkt := some s.nextPkt } ∧ t.nextPkt = s.nextPkt + 1 ∧
      (t.lanes.get l.val).resident = (s.lanes.get l.val).resident + 1 ∧ (∀ k, k ≠ s.nextPkt → t.pkts.find? k = s.pkts.find? k) := by
  obtain ⟨h1, h2, h3, h4⟩ := s.accept_spec p.val l.val r.data {}
  have hshort : ¬ (s.isTap p.val ∧ tapValid r.data ∧ r.data.length < 80) := fun ⟨ht, hv, hlt⟩ => absurd (htap ht hv) (by omega)
  have hex : execPacketAccept p l s =
      .next { s.accept p.val l.val r.data false {} with rx := (s.accept p.val l.val r.data false {}).rx.put p.val (some { r with pkt := some s.nextPkt }) } := by
    simp only [execPacketAccept, hr, he, Bool.false_eq_true, if_false]
    exact if_pos ⟨h, by simp [State.takes, hd, hp, hlen, ho], fun hc => absurd hc hshort, by simp [hy], by simp [State.lanesOf, hs, hl], by simpa using ha,
      .inl hs, by simp [hres]⟩
  generalize s.accept p.val l.val r.data false {} = v at *
  refine ⟨_, { i := s.pktIn p.val l.val r.data false, vd := {} }, hex, ?_, rfl, rfl, rfl, rfl, rfl, State.rx_put _ _ _, h2, h4, fun k hk => ?_⟩
  · simp only [State.pkt?, h1, Tbl.find?_put_self]
    rfl
  · simp only [h1]
    exact Tbl.find?_put_ne _ _ hk

/-! ### The end of a frame, and its FCS -/

/-- The cells in use are counted on pages HOLD and LEDG alone. -/
theorem State.rd_cells_port (s : State) (d : Int) {f : Field} (g : Group) (hb : f.block = 16) (hl : f.lo < 64) (ho : f.off < 4096)
    (hs : f.stride = 0 ∧ f.bstride = 0) : (s.cells d).rd f g.val = s.rd f g.val := by
  have hp : ∀ x ∈ [Reg.HOLD.ALLOC, Reg.LEDG.ALLOC_CELLS, Reg.LEDG.FREE_CELLS], f.key g.val 0 0 ≠ x.key 0 0 0 := by
    intro x hx
    refine Field.key_ne_of_page (by decide) ?_ ?_ (by decide) (by simpa [hs] using hl) (by simpa [hs] using ho) ?_
    · revert x
      decide
    · revert x
      decide
    · rw [hb]
      have hx' : pageBase x.block 0 / 4096 < 16 ∨ 32 ≤ pageBase x.block 0 / 4096 := by
        revert x
        decide
      have : pageBase 16 g.val / 4096 = 16 + g.val := by
        simp only [pageBase]
        omega
      omega
  simp only [List.mem_cons, List.not_mem_nil, or_false, forall_eq_or_imp, forall_eq] at hp
  rw [State.cells, State.rd_wr_ne _ _ _ _ _ _ _ _ _ _ hp.2.2, State.rd_wr_ne _ _ _ _ _ _ _ _ _ _ hp.2.1, State.rd_wr_ne _ _ _ _ _ _ _ _ _ _ hp.1]

theorem execFrameEnd_dropped (s : State) (p : Port) (r : RxFrame) (h : s.rx.get p.val = some r) (hd : r.dropped = true) :
    execFrameEnd p s = .next { s with rx := s.rx.erase p.val } := by
  simp [execFrameEnd, h, hd]

theorem execFrameEnd_waits (s : State) (p : Port) (r : RxFrame) (h : s.rx.get p.val = some r) (hd : r.dropped = false) (hp : r.pkt = none)
    (hl : 64 ≤ r.data.length) (ho : s.portOpen p.val = true) :
    execFrameEnd p s = .next { s with rx := s.rx.put p.val (some { r with ended := true }) } := by
  simp [execFrameEnd, h, hd, hp, ho, not_lt.2 hl]

theorem execFrameEnd_runt (s : State) (p : Port) (r : RxFrame) (h : s.rx.get p.val = some r) (hd : r.dropped = false) (hp : r.pkt = none)
    (hl : r.data.length < 64) : ∃ t, execFrameEnd p s = .next t ∧ t.rx.get p.val = none ∧ s.Counts t Reg.PORT.RX_RUNT (p.val / 2) ∧
      t.pkts = s.pkts := by
  refine ⟨_, by simp only [execFrameEnd, h, hd, hp, if_pos hl, Bool.false_eq_true, if_false]; rfl, ?_, ?_, by simp⟩
  · simp [Tbl.get, Tbl.find?_erase_self, default]
  · rw [State.Counts, State.rd_bump, State.rd_cells_port _ _ ⟨p.val / 2, by omega⟩ rfl (by decide) (by decide) ⟨rfl, rfl⟩]
    rfl

theorem execFcsResult_bad (s : State) (pk : PktId) (x : Pkt) (h : s.pkt? pk = some x) (hf : x.vd.fcs = none) :
    execFcsResult pk false s = .next { s with
      pkts := s.pkts.put pk (some { x with vd := { x.vd with fcs := some false, voidPkt := true, mal := 15 } }) } := by
  simp [execFcsResult, h, hf, State.modPkt_some h]

theorem execFcsResult_good (s : State) (pk : PktId) (x : Pkt) (h : s.pkt? pk = some x) (hf : x.vd.fcs = none) (hl : x.lk.looked = false) :
    execFcsResult pk true s = .next { s with pkts := s.pkts.put pk (some { x with vd := { x.vd with fcs := some true } }) } := by
  simp [execFcsResult, h, hf, hl, State.modPkt_some h]

/-! ### Links -/

theorem State.setLink_reports (s : State) (p : Nat) (up : Bool) : s.ReportsOnly (s.setLink p up) := by
  unfold State.setLink
  extract_lets f other s1
  have h1 : s.ReportsOnly s1 := .wr_event _ _ _ _ _ _ _ _ _
  split
  · exact .refl s
  · split
    · exact h1
    · exact h1.trans (.event _ _ _ _)

/-- The field that shows a port's link. -/
def linkField (p : Port) : Field := if p.val % 2 = 0 then Reg.PORT.LINK_S0 else Reg.PORT.LINK_S1

theorem State.linkUp_iff (s : State) (p : Port) : s.linkUp p.val = decide (s.rd (linkField p) (p.val / 2) = 1) := by
  rw [State.linkUp, linkField]
  split <;> rfl

theorem linkField_reportKey (p : Port) : reportKey ((linkField p).key (p.val / 2) 0 0) = false := by
  revert p
  decide

theorem linkField_width (p : Port) : (linkField p).width = 1 := by
  revert p
  decide

theorem State.linkUp_setLink (s : State) (p : Port) (up : Bool) : (s.setLink p.val up).linkUp p.val = up := by
  unfold State.setLink
  extract_lets f other s1
  have h1 : s1.rd (linkField p) (p.val / 2) = b2n up := by
    refine (State.rd_event _ _ _ _ _ _ _ _ (linkField_reportKey p)).trans ?_
    refine (State.rd_wr_self s (linkField p) _ _ _ _).trans ?_
    rw [linkField_width]
    cases up <;> rfl
  clear_value s1
  split
  next h => exact h
  next =>
    rw [State.linkUp_iff, apply_ite (fun v => State.rd v (linkField p) (p.val / 2)), State.rd_event _ _ _ _ _ _ _ _ (linkField_reportKey p), h1, ite_self]
    cases up <;> rfl

theorem execEthLinkUp_up (s : State) (p : Port) (h : s.Runs) (he : s.portExists p.val = true) (hs : s.rd Reg.DEV.STAGE = 5) :
    ∃ t, execEthLinkUp p s = .next t ∧ t.linkUp p.val = true ∧ t.pkts = s.pkts ∧ t.eg = s.eg := by
  have hr := s.setLink_reports p.val true
  rw [State.ReportsOnly] at hr
  refine ⟨_, if_pos ⟨h, he, hs⟩, s.linkUp_setLink p true, ?_, ?_⟩ <;> rw [hr]

theorem State.modPkt_egRx (s : State) (k : PktId) (f : Pkt → Pkt) : (s.modPkt k f).eg = s.eg ∧ (s.modPkt k f).rx = s.rx := by
  rw [State.modPkt]
  split <;> exact ⟨rfl, rfl⟩

theorem State.finishPkt_egRx (s : State) (k : PktId) : (s.finishPkt k).eg = s.eg ∧ (s.finishPkt k).rx = s.rx := by
  rw [State.finishPkt]
  split
  · exact ⟨rfl, rfl⟩
  · split
    · exact ⟨rfl, rfl⟩
    · obtain ⟨he, hr⟩ := s.modPkt_egRx k (fun p => { p with vd := { p.vd with gone := true, cells := 0 } })
      split <;> simp [he, hr]

/-- The reservation of a frame that leaves touches no queue, no wire and no reception. -/
theorem State.frameDone_egRx (s : State) (fr : EgFrame) (lost : Bool) : (s.frameDone fr lost).eg = s.eg ∧ (s.frameDone fr lost).rx = s.rx := by
  rw [State.frameDone]
  split
  · next k _ =>
    rw [State.destDone]
    split
    · exact ⟨rfl, rfl⟩
    · next p _ =>
      extract_lets n s1
      obtain ⟨he, hr⟩ : s1.eg = s.eg ∧ s1.rx = s.rx := s.modPkt_egRx _ _
      obtain ⟨he', hr'⟩ := s1.finishPkt_egRx k
      split
      · exact ⟨he'.trans he, hr'.trans hr⟩
      · exact ⟨he, hr⟩
  · split <;> simp

theorem framesDone_egRx (l : List EgFrame) (s : State) :
    (l.foldl (fun t fr => t.frameDone fr true) s).eg = s.eg ∧ (l.foldl (fun t fr => t.frameDone fr true) s).rx = s.rx := by
  induction l generalizing s with
  | nil => exact ⟨rfl, rfl⟩
  | cons x l ih =>
    obtain ⟨he, hr⟩ := s.frameDone_egRx x true
    obtain ⟨he', hr'⟩ := ih (s.frameDone x true)
    exact ⟨he'.trans he, hr'.trans hr⟩

theorem State.flushQ_spec (s : State) (port q : Nat) : (s.flushQ port q).rx = s.rx ∧
    ((s.flushQ port q).eg.tx.get port).cur = (s.eg.tx.get port).cur ∧
    ∀ m, ((s.flushQ port q).eg.q.get m).frames = if m = port * 8 + q then [] else (s.eg.q.get m).frames := by
  unfold State.flushQ
  extract_lets pq e n c s1 s2 s3
  obtain ⟨he, hr⟩ := framesDone_egRx e.frames s3
  have h3 : s3.eg = s2.eg ∧ s3.rx = s2.rx := by
    simp only [s3]
    split <;> exact ⟨by simp, by simp⟩
  refine ⟨hr.trans h3.2, ?_, fun m => ?_⟩
  · rw [he, h3.1, State.modTx_get, if_pos rfl]
    rfl
  · rw [he, h3.1, State.modTx_q, State.modQ_get]
    split <;> rfl

/-- The queues of the list end empty, as does one that was so before. -/
theorem flushQs_spec (port : Nat) (l : List Nat) (s : State) : (l.foldl (fun t q => t.flushQ port q) s).rx = s.rx ∧
    ((l.foldl (fun t q => t.flushQ port q) s).eg.tx.get port).cur = (s.eg.tx.get port).cur ∧
    ∀ q, q ∈ l ∨ (s.eg.q.get (port * 8 + q)).frames = [] → ((l.foldl (fun t q => t.flushQ port q) s).eg.q.get (port * 8 + q)).frames = [] := by
  induction l generalizing s with
  | nil => exact ⟨rfl, rfl, fun q h => h.resolve_left List.not_mem_nil⟩
  | cons x l ih =>
    obtain ⟨hr, hc, hq⟩ := s.flushQ_spec port x
    obtain ⟨hr', hc', hq'⟩ := ih (s.flushQ port x)
    refine ⟨hr'.trans hr, hc'.trans hc, fun q h => hq' q ?_⟩
    rw [hq]
    by_cases hx : q = x
    · exact .inr (if_pos (by rw [hx]))
    · rw [if_neg (by omega)]
      exact h.imp_left fun hm => (List.mem_cons.1 hm).resolve_left hx

theorem State.flushWire_spec (s : State) (port : Nat) : (s.flushWire port).rx = s.rx ∧ ((s.flushWire port).eg.tx.get port).cur = none := by
  rw [State.flushWire]
  split
  next h => exact ⟨rfl, h⟩
  next fr h =>
    extract_lets pq s1 s2
    obtain ⟨he, hr⟩ := (s2.bump Reg.SHAPE.Q_FLUSH 0 0 pq).frameDone_egRx fr true
    refine ⟨hr.trans (by simp [s2, s1]; rfl), ?_⟩
    rw [he, State.bump_eg, State.modTx_get, if_pos rfl]

theorem execEthLinkDown_flushes (s : State) (p : Port) (h : s.linkUp p.val = true) : ∃ t, execEthLinkDown p s = .next t ∧
    t.rx.get p.val = none ∧ (t.eg.tx.get p.val).cur = none ∧ (∀ q < 8, (t.eg.q.get (p.val * 8 + q)).frames = []) := by
  refine ⟨_, if_pos h, ?_⟩
  unfold State.linkDown
  extract_lets s1 s2 s3
  have h2 : s2.rx.get p.val = none := by
    simp [s2, Tbl.get, Tbl.find?_erase_self, default]
  have h3 : s3.rx.get p.val = none := by
    simp only [s3]
    clear_value s2
    split
    next r hr =>
      split
      next k _ =>
        obtain ⟨-, hk⟩ := s2.modPkt_egRx k (fun (x : Pkt) => { x with
          vd := { x.vd with done := true, cells := if x.vd.gone then 0 else 73, fcs := some false, voidPkt := true, mal := 15 } })
        split <;> simp [hk, h2]
      next =>
        split <;> simp [h2]
    next hr => exact hr
  clear_value s3
  obtain ⟨hr, hc⟩ := s3.flushWire_spec p.val
  obtain ⟨hr', hc', hq⟩ := flushQs_spec p.val (List.range 8) (s3.flushWire p.val)
  rw [State.flushPort]
  exact ⟨by rw [hr', hr, h3], hc'.trans hc, fun q hq8 => hq q (.inl (List.mem_range.2 hq8))⟩

/-! ### The configuration of a port -/

theorem port_reportKey (g : Group) : reportKey (Reg.PORT.SPEED.key g.val 0 0) = false ∧ reportKey (Reg.PORT.PAIR_S0.key g.val 0 0) = false ∧
    Reg.PORT.SPEED.key g.val 0 0 ≠ Reg.DEV.SEQ_RESULT.key 0 0 0 := by
  revert g
  decide

/-- The values PORT_CFG takes, where neither the old nor the new speed is that of a pair. -/
theorem State.portCfg_spec (s : State) (src : Source) (g : Group) (v : Nat) (hv : v % 8 ≤ 2) (hs : s.rd Reg.PORT.SPEED g.val ≤ 2) :
    (s.portCfg src g.val v).rd Reg.PORT.SPEED g.val = v % 8 ∧ (s.portCfg src g.val v).rd Reg.PORT.PAIR_S0 g.val = v / 65536 % 32 ∧
      (s.portCfg src g.val v).pkts = s.pkts := by
  have hb : bits v 0 3 = v % 8 := by simp [bits]
  have hp : bits v 16 5 = v / 65536 % 32 := by simp [bits]
  unfold State.portCfg
  extract_lets old new s1 s2 s3 s3' s4 res
  have hnew : new = v % 8 := by
    simp only [new, speedStored, hb]
    rw [if_neg (by omega), if_pos hv]
  have h3 : s3.rd Reg.PORT.SPEED g.val = v % 8 ∧ s3.rd Reg.PORT.PAIR_S0 g.val = v / 65536 % 32 ∧ s3.pkts = s.pkts := by
    refine ⟨?_, ?_, rfl⟩
    · simp only [s3, s2, s1]
      simp (disch := decide) only [State.rd_wr_bit]
      rw [State.rd_wr_self, hnew]
      exact Nat.mod_eq_of_lt (lt_of_le_of_lt hv (by decide))
    · simp only [s3, s2, s1]
      simp (disch := decide) only [State.rd_wr_bit]
      rw [State.rd_wr_self, hp]
      exact Nat.mod_eq_of_lt (Nat.mod_lt _ (by decide))
  have h4 : s4.rd Reg.PORT.SPEED g.val = v % 8 ∧ s4.rd Reg.PORT.PAIR_S0 g.val = v / 65536 % 32 ∧ s4.pkts = s.pkts := by
    simp only [s4]
    split
    · exact h3
    · rw [if_neg (by omega), if_neg (by omega)]
      exact h3
  split
  · exact h4
  · obtain ⟨hk, hk', -⟩ := port_reportKey g
    rw [State.rd_audit _ _ _ _ _ _ hk, State.rd_audit _ _ _ _ _ _ hk', State.audit_pkts]
    exact h4

theorem execPortCfgWrite_sets (s : State) (src : Source) (g : Group) (v : Word) (h : s.Takes src) (hv : v.toNat % 8 ≤ 2)
    (hs : s.rd Reg.PORT.SPEED g.val ≤ 2) : ∃ t, execPortCfgWrite src g v s = .next t ∧ t.rd Reg.PORT.SPEED g.val = v.toNat % 8 ∧
      t.rd Reg.PORT.PAIR_S0 g.val = v.toNat / 65536 % 32 ∧ t.pkts = s.pkts := by
  have hw : (s.wrote src).rd Reg.PORT.SPEED g.val = s.rd Reg.PORT.SPEED g.val := s.rd_wrote src _ _ _ _ (port_reportKey g).2.2
  obtain ⟨h1, h2, h3⟩ := (s.wrote src).portCfg_spec src g v.toNat hv (hw ▸ hs)
  exact ⟨_, s.basicCmd_takes _ h, h1, h2, h3.trans (s.wrote_pkts src)⟩

/-- Settles O2. -/
theorem receptionCommands : Obligations.ReceptionCommands :=
  ⟨execFrameStart_begins, execFrameStart_drops, execPacketAccept_accepts, execFrameEnd_dropped, execFrameEnd_waits, execFrameEnd_runt,
    execFcsResult_bad, execFcsResult_good, execEthLinkUp_up, execEthLinkDown_flushes, execPortCfgWrite_sets⟩

end Sys2Proof.Machine
end

section
/-! PROOF. Rule searches, the TCAM scrub and fragments (R46, R48, R55, R63, R70): O4. -/

namespace Sys2Proof.Machine

-- One thread for the proofs, which bounds the memory that checking them takes.
set_option Elab.async false

open Sys2Proof

variable {s0 s t u : State}

/-! ### What a search leaves as it was -/

theorem State.modPkt_frame (s : State) (k : PktId) (f : Pkt → Pkt) :
    (s.modPkt k f).eg = s.eg ∧ (s.modPkt k f).flow = s.flow ∧ (s.modPkt k f).cls = s.cls ∧ (s.modPkt k f).regs = s.regs := by
  rw [State.modPkt]
  split <;> exact ⟨rfl, rfl, rfl, rfl⟩

/-- A bad entry is disabled and reported. -/
theorem State.tcamBad_spec (s : State) (r i c : Nat) : ∃ (u : State) (v : FaultRec), s.tcamBad r i c = u.fault v ∧
    u.cls = { s.cls with tcam := s.cls.tcam.set (entKey r (i / 1024) (i % 1024)) { s.entry r (i / 1024) (i % 1024) with disabled := true } } ∧
    u.pkts = s.pkts ∧ u.eg = s.eg ∧ u.flow = s.flow ∧ u.regs = (((s.bump Reg.TCAM.PARITY r).wr Reg.TCAM.LAST_BAD i r)).regs := by
  unfold State.tcamBad
  extract_lets e s1
  exact ⟨s1, _, rfl, rfl, rfl, rfl, rfl, rfl⟩

theorem State.tcamBad_frame (s : State) (r i c : Nat) :
    (s.tcamBad r i c).pkts = s.pkts ∧ (s.tcamBad r i c).eg = s.eg ∧ (s.tcamBad r i c).flow = s.flow := by
  obtain ⟨u, v, h, -, hp, he, hf, -⟩ := s.tcamBad_spec r i c
  rw [h]
  simp [hp, he, hf]

/-- The packets, the queues and the flow state stand. -/
def State.Searches (s t : State) : Prop := t.pkts = s.pkts ∧ t.eg = s.eg ∧ t.flow = s.flow

theorem State.Searches.trans (h : s.Searches t) (h' : t.Searches u) : s.Searches u :=
  ⟨h'.1.trans h.1, h'.2.1.trans h.2.1, h'.2.2.trans h.2.2⟩

theorem State.searches_tcamBad (s : State) (r i c : Nat) : s.Searches (s.tcamBad r i c) := s.tcamBad_frame r i c

/-- The same of the state in a search's result. -/
def State.SearchesFst {β : Type} (s : State) (p : State × β) : Prop := s.Searches p.1

theorem State.Searches.fst {β : Type} {b : β} (h : s.Searches t) : s.SearchesFst (t, b) := h

theorem State.searches_ruleMatch (n : Nat) (s : State) (r slot : Nat) (key : KeyWord) (on : Nat → Bool) (bad : List Nat) :
    s.SearchesFst (State.ruleMatch n s r slot key on bad) := by
  induction n generalizing s with
  | zero => exact ⟨rfl, rfl, rfl⟩
  | succ n ih =>
    unfold State.ruleMatch
    split
    · exact ⟨rfl, rfl, rfl⟩
    next i e _ =>
      have hu : s.Searches (s.tcamBad r i 1) := s.searches_tcamBad _ _ _
      exact keeps_ite (keeps_ite (hu.trans (ih _)) hu.fst) ⟨rfl, rfl, rfl⟩

/-- A packet that stays searched while its lookup result is written. -/
def State.Searched (s : State) (pk : PktId) (i : PktIn) (eg : EgressSt) (f : FlowSt) : Prop :=
  ∃ y, s.pkt? pk = some y ∧ y.lk.searched = true ∧ y.i = i ∧ s.eg = eg ∧ s.flow = f

theorem State.Searched.bump {pk : PktId} {i : PktIn} {eg : EgressSt} {f : FlowSt} (h : s.Searched pk i eg f) (g : Field) (n : Nat) :
    (s.bump g n).Searched pk i eg f := h

theorem State.Searched.tcamBad {pk : PktId} {i : PktIn} {eg : EgressSt} {f : FlowSt} (h : s.Searched pk i eg f) (r n c : Nat) :
    (s.tcamBad r n c).Searched pk i eg f := by
  obtain ⟨y, hy, hs, hi, he, hf⟩ := h
  obtain ⟨hp', he', hf'⟩ := s.tcamBad_frame r n c
  exact ⟨y, by rw [State.pkt?, hp']; exact hy, hs, hi, he'.trans he, hf'.trans hf⟩

theorem State.Searched.modPkt {pk : PktId} {i : PktIn} {eg : EgressSt} {f : FlowSt} (h : s.Searched pk i eg f) {g : Pkt → Pkt}
    (hg : ∀ y, (g y).lk.searched = y.lk.searched ∧ (g y).i = y.i := by intro; exact ⟨rfl, rfl⟩) : (s.modPkt pk g).Searched pk i eg f := by
  obtain ⟨y, hy, hs, hi, he, hf⟩ := h
  obtain ⟨he', hf', -, -⟩ := s.modPkt_frame pk g
  exact ⟨g y, State.pkt?_modPkt_self hy g, (hg y).1.trans hs, (hg y).2.trans hi, he'.trans he, hf'.trans hf⟩

theorem State.Searched.lpmSearch {pk : PktId} {i : PktIn} {eg : EgressSt} {f : FlowSt} (h : s.Searched pk i eg f) (x : Pkt) (bad : List Nat) :
    (s.lpmSearch pk x bad).Searched pk i eg f := by
  unfold State.lpmSearch
  extract_lets r ty s1
  have h1 : s1.Searched pk i eg f := h.modPkt
  split
  · exact h
  · split
    · exact (h.modPkt).bump _ _
    · extract_lets key
      split
      · exact h1.bump _ _
      · split
        · exact (h1.tcamBad _ _ _).bump _ _
        · exact h1.modPkt

/-! ### Rule searches -/

theorem execRuleSearch_searches (s : State) (pk : PktId) (bad : List Nat) (x : Pkt) (h : s.pkt? pk = some x) (hs : x.lk.searched = false)
    (hl : s.looksUp x = true) (hb : x.i.b ≤ s.time.beat) : ∃ t y, execRuleSearch pk bad s = .next t ∧ t.pkt? pk = some y ∧
      y.lk.searched = true ∧ y.i = x.i ∧ t.eg = s.eg ∧ t.flow = s.flow := by
  suffices hx : ∃ t, execRuleSearch pk bad s = .next t ∧ t.Searched pk x.i s.eg s.flow by
    obtain ⟨t, he, y, hy, h1, h2, h3, h4⟩ := hx
    exact ⟨t, y, he, hy, h1, h2, h3, h4⟩
  unfold execRuleSearch
  simp -zeta only [h]
  rw [if_neg (by simp [hs, hl, hb])]
  extract_lets r slot mask s1 act s2 acc s3
  obtain ⟨hp, he, hf⟩ := State.searches_ruleMatch (bad.length + 1) s1 r slot (ruleKey x.i) (fun b => s1.bankType r slot b == 1 && bits mask b 1 == 1) bad
  have h2 : s2.pkt? pk = some x ∧ s2.eg = s.eg ∧ s2.flow = s.flow := by
    have h0 := (congrArg (fun m => (Tbl.find? m pk).join) hp).trans h
    simp only [s2]
    split <;> exact ⟨h0, he, hf⟩
  obtain ⟨hx, he2, hf2⟩ := h2
  clear_value s2 act
  obtain ⟨he3, hf3, -, -⟩ := s2.modPkt_frame pk _
  exact ⟨_, rfl, State.Searched.lpmSearch ⟨_, State.pkt?_modPkt_self hx _, rfl, rfl, he3.trans he2, hf3.trans hf2⟩ x bad⟩

theorem State.firstMatch_nil (h : s.cls.tcam = []) (r slot : Nat) (key : KeyWord) (on : Nat → Bool) : s.firstMatch r slot key on = none := by
  simp [State.firstMatch, h]

theorem execRuleSearch_misses (s : State) (pk : PktId) (x : Pkt) (h : s.pkt? pk = some x) (hs : x.lk.searched = false) (hl : s.looksUp x = true)
    (hb : x.i.b ≤ s.time.beat) (ht : s.cls.tcam = []) (h3 : x.i.parse.l3Type = 0) (_ : x.i.lane < 16) :
    ∃ t y, execRuleSearch pk [] s = .next t ∧ t.pkt? pk = some y ∧ y.lk.act = s.defAct x.i.slot ∧ y.lk.ruleHit = false ∧
      s.Counts t Reg.TCAM.SEARCHES (x.i.lane / 2) ∧ s.Counts t Reg.TCAM.RULE_MISS (x.i.lane / 2) ∧ t.cls = s.cls := by
  have hm (key : KeyWord) (on : Nat → Bool) : State.ruleMatch 1 (s.bump Reg.TCAM.SEARCHES (x.i.lane / 2)) (x.i.lane / 2) x.i.slot key on [] =
      (s.bump Reg.TCAM.SEARCHES (x.i.lane / 2), none, false) := by
    rw [State.ruleMatch, State.firstMatch_nil (s := s.bump _ _) ht]
  unfold execRuleSearch
  simp only [h]
  rw [if_neg (by simp [hs, hl, hb])]
  simp only [List.length_nil, Nat.zero_add, hm, Option.isNone_none, Bool.false_eq_true, not_false_eq_true, and_self, if_true, Option.map_none,
    Option.getD_none, Option.isSome_none, if_false]
  generalize hu : (s.bump Reg.TCAM.SEARCHES (x.i.lane / 2)).bump Reg.TCAM.RULE_MISS (x.i.lane / 2) = u
  have hu' : u.pkt? pk = some x ∧ u.cls = s.cls ∧ s.Counts u Reg.TCAM.SEARCHES (x.i.lane / 2) ∧ s.Counts u Reg.TCAM.RULE_MISS (x.i.lane / 2) := by
    subst hu
    refine ⟨h, rfl, ?_, ?_⟩
    · simp (disch := decide) [State.Counts, State.rd_bump_bit]
    · simp (disch := decide) [State.Counts, State.rd_bump_bit]
  obtain ⟨hx, hc, h1, h2⟩ := hu'
  rw [State.lpmSearch, if_pos (by simp [h3]), State.modPkt_some hx]
  exact ⟨_, _, rfl, u.pkt?_put _ _, rfl, rfl, h1, h2, hc⟩

/-! ### The scrub -/

theorem tcam_reportKey (r : Replica) : reportKey (Reg.TCAM.PARITY.key r.val 0 0) = false := by
  revert r
  decide


theorem execTcamScrub_disables (s : State) (r : Replica) (bank : Fin 48) (entry : Fin 1024) (h : (s.entry r.val bank.val entry.val).disabled = false)
    (hb : s.time.beat = s.scrubDue bank.val entry.val) : ∃ t, execTcamScrub r bank entry true s = .next t ∧
      (t.entry r.val bank.val entry.val).disabled = true ∧ s.Counts t Reg.TCAM.PARITY r.val ∧ t.pkts = s.pkts := by
  obtain ⟨u, v, hu, hc, hp, -, -, hr⟩ := s.tcamBad_spec r.val (bank.val * 1024 + entry.val) 0
  have h1 : (bank.val * 1024 + entry.val) / 1024 = bank.val := by omega
  have h2 : (bank.val * 1024 + entry.val) % 1024 = entry.val := by omega
  refine ⟨u.fault v, ?_, ?_, ?_, by simp [hp]⟩
  · rw [← hu]
    simp [execTcamScrub, ← hb, h]
  · rw [State.entry, State.fault_cls, hc, h1, h2, Tbl.get_set_self]
  · rw [State.Counts, State.rd_fault _ _ _ _ _ _ (tcam_reportKey r), State.rd_congr hr]
    simp (disch := decide) [State.rd_wr_bit]

theorem execTcamScrub_good (s : State) (r : Replica) (bank : Fin 48) (entry : Fin 1024) : execTcamScrub r bank entry false s = .next s := by
  simp [execTcamScrub]

theorem execTcamScrub_not_due (s : State) (r : Replica) (bank : Fin 48) (entry : Fin 1024) (b : Bool)
    (h : s.time.beat ≠ s.scrubDue bank.val entry.val) : execTcamScrub r bank entry b s = .next s := if_pos h

/-! ### The fragment table -/

theorem execFragEntryFree_frees (s : State) (bucket : Fin 16384) (way : Fin 4) (h : (s.frag.get (4 * bucket.val + way.val)).live = true)
    (hc : s.herd.cut = false) (hb : (s.frag.get (4 * bucket.val + way.val)).b + 69 ≤ s.time.beat) : ∃ t, execFragEntryFree bucket way s = .next t ∧
      (t.frag.get (4 * bucket.val + way.val)).live = false ∧ (∀ w, w ≠ 4 * bucket.val + way.val → t.frag.get w = s.frag.get w) ∧
      t.pkts = s.pkts := by
  refine ⟨_, if_pos ⟨hb, by simp [hc]⟩, ?_⟩
  rw [State.fragFree, if_pos h]
  refine ⟨?_, fun w hw => ?_, rfl⟩
  · simp [State.setFrag]
  · simp [State.setFrag, Tbl.get_set_ne _ _ hw]

theorem execFragEntryFree_early (s : State) (bucket : Fin 16384) (way : Fin 4) (h : s.time.beat < (s.frag.get (4 * bucket.val + way.val)).b + 69) :
    execFragEntryFree bucket way s = .next s := if_neg (by omega)

theorem execFragFlush_queues (s : State) (src : Source) (h : s.TakesExpert src) :
    ∃ t, execFragFlush src s = .next t ∧ s.Queued t .fragFlush ∧ s.WriteLater t :=
  ⟨_, s.expertCmd_takes _ _ _ _ h, by simp [State.Queued], by simp [State.writeLater_iff]⟩

/-- Settles O4. -/
theorem classifierCommands : Obligations.ClassifierCommands :=
  ⟨execRuleSearch_searches, execRuleSearch_misses, execTcamScrub_disables, execTcamScrub_good, execTcamScrub_not_due, execFragEntryFree_frees,
    execFragEntryFree_early, execFragFlush_queues⟩

end Sys2Proof.Machine
end

section
/-! PROOF. The endpoint table (R82, R83, R84, R87): O6. -/

namespace Sys2Proof.Machine

-- One thread for the proofs, which bounds the memory that checking them takes.
set_option Elab.async false

open Sys2Proof

variable {s0 s t u : State}

/-! ### Searches -/

theorem execEndpointSearch_due (s : State) (pk : PktId) (x : Pkt) (h : s.pkt? pk = some x) (hd : x.lk.epDone = false) (hl : s.looksUp x = true)
    (hv : x.vd.voidPkt = false) (hb : x.i.b ≤ s.time.beat) :
    execEndpointSearch pk [] s = .next (
      let hit := (s.epFind (beNat (winBytes x.i.window 0 6).1) x.vlanId).map (fun w => (s.ep.get w).loc)
      let uni := bits (beNat (winBytes x.i.window 6 6).1) 40 1 == 0
      let r := if uni then s.learn (beNat (winBytes x.i.window 6 6).1) x.vlanId x.loc x.i.lane else (s, 0, false)
      r.1.modPkt pk (fun x => { x with
        lk := { x.lk with epDone := true, epMoves := r.2.1, epNew := r.2.2, epUnicast := uni, epDstLoc := hit.getD 0, epDstKnown := hit.isSome } })) := by
  simp only [execEndpointSearch, h]
  rw [if_neg (by simp [hd, hl, hv, hb])]
  rfl

/-- A new address takes the free way, with its place. -/
theorem State.learn_new (s : State) {mac vlan loc lane w : Nat} (hn : s.epFind mac vlan = none) (ho : s.act Reg.LEARN.LEARN_OFF = 0)
    (hw : (epWays mac vlan).find? (fun w => !(s.ep.get w).live) = some w) : ∃ u, s.learn mac vlan loc lane = (u, 0, true) ∧ u.pkts = s.pkts ∧
      u.ep = s.ep.set w { live := true, mac := mac, vlan := vlan, loc := loc, epoch := s.epoch16 } := by
  simp only [State.learn, hn, ho, hw, Nat.zero_ne_one, if_false]
  exact ⟨_, rfl, by simp [State.learnEvent, State.epCount, State.setEp], by simp [State.learnEvent, State.epCount, State.setEp]⟩

/-- A known address at its own place is refreshed. -/
theorem State.learn_same (s : State) {mac vlan loc lane w : Nat} (hn : s.epFind mac vlan = some w) (hl : (s.ep.get w).loc = loc) :
    s.learn mac vlan loc lane = (s.setEp w { s.ep.get w with epoch := s.epoch16 }, (s.ep.get w).moves, false) := by
  simp only [State.learn, hn, hl, if_true]

theorem State.modPkt_ep (s : State) (k : PktId) (f : Pkt → Pkt) : (s.modPkt k f).ep = s.ep := by
  rw [State.modPkt]
  split <;> rfl

theorem execEndpointSearch_learns (s : State) (pk : PktId) (x : Pkt) (w : Nat) (h : s.pkt? pk = some x) (hd : x.lk.epDone = false)
    (hl : s.looksUp x = true) (hv : x.vd.voidPkt = false) (hb : x.i.b ≤ s.time.beat) (hu : bits (beNat (winBytes x.i.window 6 6).1) 40 1 = 0)
    (hn : s.epFind (beNat (winBytes x.i.window 6 6).1) x.vlanId = none) (ho : s.act Reg.LEARN.LEARN_OFF = 0)
    (hw : (epWays (beNat (winBytes x.i.window 6 6).1) x.vlanId).find? (fun w => !(s.ep.get w).live) = some w) :
    ∃ t y, execEndpointSearch pk [] s = .next t ∧ t.pkt? pk = some y ∧ y.lk.epDone = true ∧ y.lk.epNew = true ∧
      t.ep = s.ep.set w { live := true, mac := beNat (winBytes x.i.window 6 6).1, vlan := x.vlanId, loc := x.loc, epoch := s.epoch16 } := by
  obtain ⟨u, he, hp, hep⟩ := s.learn_new (loc := x.loc) (lane := x.i.lane) hn ho hw
  rw [execEndpointSearch_due s pk x h hd hl hv hb, he]
  simp only [hu, beq_self_eq_true, if_true]
  exact ⟨_, _, rfl, State.pkt?_modPkt_self ((State.pkt?_congr hp).trans h) _, rfl, rfl, (State.modPkt_ep _ _ _).trans hep⟩

theorem execEndpointSearch_refreshes (s : State) (pk : PktId) (x : Pkt) (w : Nat) (h : s.pkt? pk = some x) (hd : x.lk.epDone = false)
    (hl : s.looksUp x = true) (hv : x.vd.voidPkt = false) (hb : x.i.b ≤ s.time.beat) (hu : bits (beNat (winBytes x.i.window 6 6).1) 40 1 = 0)
    (hn : s.epFind (beNat (winBytes x.i.window 6 6).1) x.vlanId = some w) (hx : (s.ep.get w).loc = x.loc) :
    ∃ t y, execEndpointSearch pk [] s = .next t ∧ t.pkt? pk = some y ∧ y.lk.epDone = true ∧ y.lk.epNew = false ∧
      y.lk.epMoves = (s.ep.get w).moves ∧ t.ep = s.ep.set w { s.ep.get w with epoch := s.epoch16 } := by
  rw [execEndpointSearch_due s pk x h hd hl hv hb, s.learn_same hn hx]
  simp only [hu, beq_self_eq_true, if_true]
  exact ⟨_, _, rfl, State.pkt?_modPkt_self (s := s.setEp w _) h _, rfl, rfl, rfl, State.modPkt_ep (s.setEp w _) _ _⟩

theorem execEndpointSearch_group (s : State) (pk : PktId) (x : Pkt) (h : s.pkt? pk = some x) (hd : x.lk.epDone = false) (hl : s.looksUp x = true)
    (hv : x.vd.voidPkt = false) (hb : x.i.b ≤ s.time.beat) (hu : bits (beNat (winBytes x.i.window 6 6).1) 40 1 = 1) :
    ∃ t y, execEndpointSearch pk [] s = .next t ∧ t.pkt? pk = some y ∧ y.lk.epDone = true ∧ y.lk.epUnicast = false ∧ t.ep = s.ep ∧
      t.regs = s.regs := by
  rw [execEndpointSearch_due s pk x h hd hl hv hb]
  simp only [hu, Nat.reduceBEq, Bool.false_eq_true, if_false]
  refine ⟨_, _, rfl, State.pkt?_modPkt_self h _, rfl, rfl, ?_⟩
  rw [State.modPkt_some h]
  exact ⟨rfl, rfl⟩

/-! ### Ageing -/

theorem execEndpointAgeing_none (s : State) (h : s.act Reg.LEARN.AGE_EPOCHS = 0) (hb : s.time.beat % 65536 = 0)
    (ha : s.time.aged ≠ s.time.beat / 65536 + 1) :
    execEndpointAgeing [] s = .next { s with time := { s.time with aged := s.time.beat / 65536 + 1 } } := by
  rw [execEndpointAgeing, if_neg (by simp [hb, ha])]
  exact if_pos (.inl h)

theorem execEndpointAgeing_done (s : State) (bad : List Nat) (h : s.time.beat % 65536 ≠ 0 ∨ s.time.aged = s.time.beat / 65536 + 1) :
    execEndpointAgeing bad s = .next s := if_pos h

/-- Static entries and packets stand. -/
def State.KeepsStatic (s t : State) : Prop := (∀ w, (s.ep.get w).static = true → t.ep.get w = s.ep.get w) ∧ t.pkts = s.pkts

theorem State.KeepsStatic.foldl {l : List Nat} {g : State → Nat → State} (h : ∀ (t : State) (w : Nat), t.KeepsStatic (g t w)) (s : State) :
    s.KeepsStatic (l.foldl g s) := by
  induction l generalizing s with
  | nil => exact ⟨fun _ _ => rfl, rfl⟩
  | cons x l ih =>
    obtain ⟨he, hp⟩ := h s x
    obtain ⟨he', hp'⟩ := ih (g s x)
    exact ⟨fun w hw => (he' w ((he w hw).symm ▸ hw)).trans (he w hw), hp'.trans hp⟩

/-- An entry that is not static leaves the table. -/
theorem State.keepsStatic_drop (s : State) {w : Nat} (h : (s.ep.get w).static = false) (e : LearnEv) (d : Int) :
    s.KeepsStatic (((s.setEp w {}).epCount d).learnEvent e) := by
  refine ⟨fun k hk => ?_, by simp [State.learnEvent, State.epCount, State.setEp]⟩
  have hkw : k ≠ w := by
    rintro rfl
    rw [h] at hk
    cases hk
  simp [State.learnEvent, State.epCount, State.setEp, Tbl.get_set_ne _ _ hkw]

theorem execEndpointAgeing_static (s : State) : ∃ t, execEndpointAgeing [] s = .next t ∧
    (∀ w, (s.ep.get w).static = true → t.ep.get w = s.ep.get w) ∧ t.pkts = s.pkts := by
  unfold execEndpointAgeing
  split
  · exact ⟨s, rfl, fun _ _ => rfl, rfl⟩
  · extract_lets _ s1 age
    have h1 : s.KeepsStatic s1 := ⟨fun _ _ => rfl, rfl⟩
    split
    · exact ⟨s1, rfl, h1⟩
    · refine ⟨_, rfl, ?_⟩
      have h2 : s1.ep = s.ep := rfl
      obtain ⟨he, hp⟩ := State.KeepsStatic.foldl (l := s1.ep.keys) (g := fun t w =>
        let e := t.ep.get w
        if e.live ∧ ¬ e.static ∧ age ≤ (t.epoch16 + 65536 - e.epoch) % 65536 then
          ((t.setEp w {}).epCount (-1)).learnEvent { type := 3, vlan := e.vlan, mac := e.mac, old := e.loc, moves := e.moves }
        else t) (fun t w => by
          dsimp only
          split
          next h => exact t.keepsStatic_drop (by simpa using h.2.1) _ _
          next => exact ⟨fun _ _ => rfl, rfl⟩) s1
      exact ⟨fun w hw => (he w (h2 ▸ hw)).trans (by rw [h2]), hp⟩

/-! ### Page LEARN -/

theorem State.learnStart_spec (s : State) (src : Source) (op : Nat) (h : s.Takes src) :
    ∃ t, s.basicCmd src (fun s => s.learnStart src op) = .next t ∧ t.rd Reg.LEARN.CMD_BUSY = 1 ∧ s.WriteLater t ∧
      s.Queued t (.learnCmd op (s.rd Reg.LEARN.CMD_MAC) (s.rd Reg.LEARN.CMD_VLAN) (s.rd Reg.LEARN.CMD_LOC)) := by
  refine ⟨_, s.basicCmd_takes _ h, ?_, by simp [State.learnStart, State.writeLater_iff], ?_⟩
  · rw [State.learnStart, State.rd_auditCmd _ _ _ _ _ _ _ _ _ _ _ _ (by decide), State.rd_wr_self]
    rfl
  · simp (disch := decide) [State.learnStart, State.Queued, State.rd_wrote]

theorem execLearnAddStatic_queues (s : State) (src : Source) (h : s.Takes src) : ∃ t, execLearnAddStatic src s = .next t ∧
    t.rd Reg.LEARN.CMD_BUSY = 1 ∧ s.WriteLater t ∧
    s.Queued t (.learnCmd 1 (s.rd Reg.LEARN.CMD_MAC) (s.rd Reg.LEARN.CMD_VLAN) (s.rd Reg.LEARN.CMD_LOC)) := s.learnStart_spec src 1 h

theorem execLearnDelete_queues (s : State) (src : Source) (h : s.Takes src) : ∃ t, execLearnDelete src s = .next t ∧
    t.rd Reg.LEARN.CMD_BUSY = 1 ∧ s.WriteLater t ∧
    s.Queued t (.learnCmd 2 (s.rd Reg.LEARN.CMD_MAC) (s.rd Reg.LEARN.CMD_VLAN) (s.rd Reg.LEARN.CMD_LOC)) := s.learnStart_spec src 2 h

theorem execLearnRead_queues (s : State) (src : Source) (h : s.Takes src) : ∃ t, execLearnRead src s = .next t ∧
    t.rd Reg.LEARN.CMD_BUSY = 1 ∧ s.WriteLater t ∧
    s.Queued t (.learnCmd 3 (s.rd Reg.LEARN.CMD_MAC) (s.rd Reg.LEARN.CMD_VLAN) (s.rd Reg.LEARN.CMD_LOC)) := s.learnStart_spec src 3 h

/-- Settles O6. -/
theorem endpointCommands : Obligations.EndpointCommands :=
  ⟨execEndpointSearch_learns, execEndpointSearch_refreshes, execEndpointSearch_group, execEndpointAgeing_none, execEndpointAgeing_done,
    execEndpointAgeing_static, execLearnAddStatic_queues, execLearnDelete_queues, execLearnRead_queues⟩

end Sys2Proof.Machine
end

section
/-! PROOF. Flow updates and record writes (R19, R78, R86, R92, R93, R103): O7. -/

namespace Sys2Proof.Machine

-- One thread for the proofs, which bounds the memory that checking them takes.
set_option Elab.async false

open Sys2Proof

variable {s0 s t u : State}

/-! ### What the pass over the working set leaves as it was -/

/-- Packets, contexts, queues, rules, endpoints, lanes and the results that wait stand. -/
def State.Applies (s t : State) : Prop :=
  t.pkts = s.pkts ∧ t.ctxs = s.ctxs ∧ t.eg = s.eg ∧ t.cls = s.cls ∧ t.ep = s.ep ∧ t.lanes = s.lanes ∧ t.flow.results = s.flow.results

theorem State.Applies.refl (s : State) : s.Applies s := ⟨rfl, rfl, rfl, rfl, rfl, rfl, rfl⟩

theorem State.Applies.trans (h : s.Applies t) (h' : t.Applies u) : s.Applies u := by
  obtain ⟨h1, h2, h3, h4, h5, h6, h7⟩ := h
  obtain ⟨h1', h2', h3', h4', h5', h6', h7'⟩ := h'
  exact ⟨h1'.trans h1, h2'.trans h2, h3'.trans h3, h4'.trans h4, h5'.trans h5, h6'.trans h6, h7'.trans h7⟩

theorem State.Applies.foldl {α : Type} {g : State → α → State} {l : List α} (h : ∀ (t : State) (x : α), t.Applies (g t x)) (s : State) :
    s.Applies (l.foldl g s) := by
  induction l generalizing s with
  | nil => exact .refl s
  | cons x l ih => exact (h s x).trans (ih _)

theorem State.ReportsOnly.applies (h : s.ReportsOnly t) : s.Applies t := by
  rw [State.ReportsOnly] at h
  rw [h]
  exact ⟨rfl, rfl, rfl, rfl, rfl, rfl, rfl⟩

theorem State.StoreOnly.applies (h : s.StoreOnly t) : s.Applies t := by
  obtain ⟨hr, hp, -⟩ := h
  have hq : t.flow.results = s.flow.results := by rw [hp]
  rw [State.ReportsOnly] at hr
  rw [hr]
  exact ⟨rfl, rfl, rfl, rfl, rfl, rfl, hq⟩

theorem State.applies_setFlow (s : State) {f : FlowSt → FlowSt} (h : (f s.flow).results = s.flow.results) : s.Applies (s.setFlow f) :=
  ⟨rfl, rfl, rfl, rfl, rfl, rfl, h⟩

theorem State.applies_modCached (s : State) (key : List Byte) (g : CacheEnt → CacheEnt) : s.Applies (s.modCached key g) := by
  rw [State.modCached]
  split
  · exact s.applies_setFlow rfl
  · exact s.applies_setFlow rfl

theorem State.applies_modCold (s : State) (key : List Byte) (g : List Byte → List Byte) : s.Applies (s.modCold key g) := by
  rw [State.modCold]
  split
  · exact s.applies_setFlow rfl
  · split
    · exact (State.StoreOnly.refl s).hbmWrite.applies
    · exact s.applies_modCached _ _

theorem State.applies_keyRead (s : State) (key : List Byte) : s.Applies (s.keyRead key) := by
  rw [State.keyRead]
  split
  · exact .refl s
  · exact (State.StoreOnly.refl s).storeLookup.applies

theorem State.applies_sendTo (s : State) (k d : Nat) (l : List Int) : s.Applies (s.sendTo k d l).1 := by
  obtain ⟨o, ho⟩ := s.sendTo_spec k d l
  rw [ho]
  exact ⟨rfl, rfl, rfl, rfl, rfl, rfl, rfl⟩

theorem State.applies_homeAddSend (s : State) (key : List Byte) (vals : List Word) : s.Applies (s.homeAddSend key vals) := by
  rw [State.homeAddSend]
  split
  · exact State.ReportsOnly.applies (.bump _ _ _ _ _ _)
  next m _ =>
    split
    · exact (State.StoreOnly.refl s).hbmWrite.applies
    · have h := s.applies_sendTo 20 m ((s.homeIdx key : Int) :: (homeTag key : Int) :: vals.map (fun w => (w.toNat : Int)))
      split
      next v hv =>
        rw [hv] at h
        exact h
      next v hv =>
        rw [hv] at h
        exact h.trans (State.ReportsOnly.applies (.bump _ _ _ _ _ _))

theorem State.applies_hqProduce (s : State) (q : Nat) (bs : List Byte) : s.Applies (s.hqProduce q bs) :=
  ⟨by simp, by simp, by simp, by simp, by simp, by simp, by simp⟩

theorem State.applies_applyResult (s : State) (r : FlowRes) : s.Applies (s.applyResult r) := by
  unfold State.applyResult
  extract_lets s1 _ s2 s3 s4
  have h1 : s.Applies s1 := s.applies_keyRead _
  have h2 : s1.Applies s2 := s1.applies_setFlow rfl
  have h3 : s2.Applies s3 := by
    simp only [s3]
    split
    · exact s2.applies_modCached _ _
    · split
      · exact (State.StoreOnly.refl s2).hbmWrite.applies
      · exact .refl s2
  have h4 : s3.Applies s4 := (s3.applies_modCold _ _).trans (State.ReportsOnly.applies (.bump _ _ _ _ _ _))
  have h : s.Applies s4 := ((h1.trans h2).trans h3).trans h4
  split
  · exact h1.trans (State.ReportsOnly.applies (.bump _ _ _ _ _ _))
  · extract_lets
    split
    extract_lets s5
    have h5 : s.Applies s5 := keeps_ite (h.trans (s4.applies_hqProduce _ _)) h
    exact keeps_ite (h5.trans (s5.applies_homeAddSend _ _)) h5

theorem State.resultsDue_eq (s : State) (h : s.herd.stopped = false) : ∃ u, s.resultsDue = u ∧
    (s.setFlow (fun f => { f with results := f.results.filter (fun r => decide (s.time.beat ≤ r.beat)) })).Applies u := by
  refine ⟨_, rfl, ?_⟩
  rw [State.resultsDue, if_neg (by simp [h])]
  exact .foldl (fun t r => t.applies_applyResult r) _

/-! ### Results -/

theorem execFlowResult_applies (s : State) (h : s.herd.stopped = false) (hc : 256 ≤ s.time.cycle) : ∃ t, execFlowResult s = .next t ∧
    t.flow.results = s.flow.results.filter (fun r => decide (s.time.beat ≤ r.beat)) ∧ t.pkts = s.pkts ∧ t.ctxs = s.ctxs ∧ t.cls = s.cls := by
  obtain ⟨u, hu, h1, h2, -, h4, -, -, h7⟩ := s.resultsDue_eq h
  exact ⟨u, by rw [execFlowResult, if_neg (not_lt.2 hc), hu], h7, h1, h2, h4⟩

theorem execFlowResult_stopped (s : State) (h : s.herd.stopped = true) : execFlowResult s = .next s := by
  rw [execFlowResult, State.resultsDue, if_pos h, ite_self]

/-! ### The pass -/

/-- Contexts, queues, rules, endpoints and lanes stand. -/
def State.Passes (s t : State) : Prop := t.ctxs = s.ctxs ∧ t.eg = s.eg ∧ t.cls = s.cls ∧ t.ep = s.ep ∧ t.lanes = s.lanes

theorem State.Passes.refl (s : State) : s.Passes s := ⟨rfl, rfl, rfl, rfl, rfl⟩

theorem State.Passes.trans (h : s.Passes t) (h' : t.Passes u) : s.Passes u := by
  obtain ⟨h1, h2, h3, h4, h5⟩ := h
  obtain ⟨h1', h2', h3', h4', h5'⟩ := h'
  exact ⟨h1'.trans h1, h2'.trans h2, h3'.trans h3, h4'.trans h4, h5'.trans h5⟩

theorem State.Passes.foldl {α : Type} {g : State → α → State} {l : List α} (h : ∀ (t : State) (x : α), t.Passes (g t x)) (s : State) :
    s.Passes (l.foldl g s) := by
  induction l generalizing s with
  | nil => exact .refl s
  | cons x l ih => exact (h s x).trans (ih _)

theorem State.Applies.passes (h : s.Applies t) : s.Passes t := by
  obtain ⟨-, h2, h3, h4, h5, h6, -⟩ := h
  exact ⟨h2, h3, h4, h5, h6⟩

theorem State.passes_setFlow (s : State) (f : FlowSt → FlowSt) : s.Passes (s.setFlow f) := ⟨rfl, rfl, rfl, rfl, rfl⟩

theorem State.passes_modPkt (s : State) (k : PktId) (f : Pkt → Pkt) : s.Passes (s.modPkt k f) := by
  rw [State.modPkt]
  split
  · exact ⟨rfl, rfl, rfl, rfl, rfl⟩
  · exact .refl s

theorem State.ReportsOnly.passes (h : s.ReportsOnly t) : s.Passes t := h.applies.passes

theorem State.passes_deleteRecord (s : State) (key : List Byte) : s.Passes (s.deleteRecord key) := by
  unfold State.deleteRecord
  extract_lets h slot s1 s2 s3
  clear_value h slot
  have h1 : s.Passes s1 := by
    simp only [s1]
    split
    · exact s.passes_setFlow _
    · exact .refl s
  have h2 : s1.Passes s2 := s1.passes_setFlow _
  have h3 : s2.Passes s3 := by
    simp only [s3]
    split
    · exact (State.StoreOnly.refl s2).setTag.records.applies.passes
    · exact .refl s2
  exact ((h1.trans h2).trans h3).trans (State.StoreOnly.refl s3).freeRingOf.applies.passes

/-- The same of the state in a result. -/
def State.PassesFst {β : Type} (s : State) (p : State × β) : Prop := s.Passes p.1

theorem State.Passes.fst {β : Type} {b : β} (h : s.Passes t) : s.PassesFst (t, b) := h

theorem State.PassesFst.of_eq {β : Type} {p : State × β} {b : β} (h : s.PassesFst p) (e : p = (t, b)) : s.Passes t := by
  rw [e] at h
  exact h

/-- A command that ends gives its result and its event. -/
theorem State.passes_cmdDone (s : State) (f : FlowSt → FlowSt) (r : Nat) :
    s.Passes ((((s.setFlow f).wr Reg.FLOW.CMD_BUSY 0).wr Reg.FLOW.CMD_RESULT r).event Blk.FLOW 0 0) :=
  (s.passes_setFlow f).trans (State.ReportsOnly.passes ((State.ReportsOnly.wr _ _ _ _ _ _).trans (.wr_event _ _ _ _ _ _ _ _ _)))

theorem State.passes_flowCmdNow (s : State) : s.Passes s.flowCmdNow := by
  unfold State.flowCmdNow
  extract_lets
  split
  · exact .refl s
  · extract_lets s2 s3
    have h2 : s.Passes s2 := (s.applies_keyRead _).passes
    have h3 : s.Passes s3 := by
      unfold s3
      split
      · exact h2.trans (State.StoreOnly.refl s2).recCheck.applies.passes
      · exact h2
    refine keeps_ite (.refl s) (keeps_ite (s.passes_cmdDone _ _) ?_)
    split
    · exact h3.trans (s3.passes_cmdDone _ _)
    · refine keeps_ite (h3.trans (State.Passes.trans ?_ (State.passes_cmdDone _ _ _)))
        (h3.trans ((s3.passes_deleteRecord _).trans (State.passes_cmdDone _ _ _)))
      exact .foldl (fun t i => State.ReportsOnly.passes (.wr _ _ _ _ _ _)) s3

theorem State.passes_resultsDue (s : State) : s.Passes s.resultsDue := by
  cases h : s.herd.stopped with
  | false =>
    obtain ⟨u, hu, ha⟩ := s.resultsDue_eq h
    rw [hu]
    exact (s.passes_setFlow _).trans ha.passes
  | true =>
    rw [State.resultsDue, if_pos h]
    exact .refl s

theorem State.passes_hotOf (s : State) (key : List Byte) : s.PassesFst (s.hotOf key) := by
  unfold State.hotOf
  split
  · exact .refl s
  · split
    · exact .refl s
    · have h := (State.StoreOnly.refl s).storeLookup (key := key) |>.applies.passes
      split
      next v l hv =>
        rw [hv] at h
        exact h
      next v hv =>
        rw [hv] at h
        exact h

theorem State.passes_histAlloc (s : State) (h : HotRec) : s.PassesFst (s.histAlloc h) := by
  unfold State.histAlloc
  refine keeps_ite (State.Passes.refl s).fst ?_
  split
  next r v hv =>
    refine State.Passes.fst ?_
    rw [State.ringTake] at hv
    split at hv
    · cases hv
      exact s.passes_setFlow _
    · split at hv
      · cases hv
        exact s.passes_setFlow _
      · cases hv
  next => exact State.Passes.fst (State.ReportsOnly.passes (.bump _ _ _ _ _ _))

theorem State.passes_homeInput (s : State) (n : Nat) (v : List Word) (a b : Bool) : s.Passes (s.homeInput n v a b) := ⟨rfl, rfl, rfl, rfl, rfl⟩

theorem State.passes_setHerd (s : State) (x : HerdSt) : s.Passes { s with herd := x } := ⟨rfl, rfl, rfl, rfl, rfl⟩

theorem State.passes_homeFetch (s : State) (n : Nat) (key : List Byte) : s.Passes (s.homeFetch n key) := by
  have hg (v : State) : v.Passes (v.homeGone n) :=
    State.Passes.trans (State.ReportsOnly.passes (.bump v Reg.HERD.HOME_LOST 0 0 0 1)) (State.passes_homeInput _ _ _ _ _)
  unfold State.homeFetch
  split
  · exact hg s
  next m _ =>
    refine keeps_ite ?_ ?_
    · split
      exact s.passes_homeInput _ _ _ _
    extract_lets tok
    have h := (s.applies_sendTo 19 m [(s.homeIdx key : Int), (homeTag key : Int), (tok : Int)]).passes
    split
    next v hv =>
      rw [hv] at h
      exact (h.trans (v.passes_setHerd _)).trans (State.passes_homeInput _ _ _ _ _)
    next v hv =>
      rw [hv] at h
      exact h.trans (hg v)

theorem State.passes_startInv (s : State) (x : Pkt) : s.Passes (s.startInv x) := by
  unfold State.startInv
  extract_lets c s1 s2
  have h1 : s.Passes s1 := s.passes_setFlow _
  have h2 : s1.Passes s2 := keeps_ite (.refl s1) (State.ReportsOnly.passes (.bump _ _ _ _ _ _))
  exact keeps_ite ((h1.trans h2).trans (s2.passes_homeFetch _ _)) (h1.trans h2)

theorem State.passes_updatePkt (s : State) (k : PktId) : s.Passes (s.updatePkt k) := by
  unfold State.updatePkt
  split
  · exact .refl s
  · refine keeps_ite (.refl s) ?_
    split
    rename_i s1 _ e1
    have h1 := (s.passes_hotOf _).of_eq e1
    extract_lets
    split
    rename_i s4 _ e4
    have h4 : s1.Passes s4 := State.PassesFst.of_eq (keeps_ite (s1.passes_histAlloc _) (State.Passes.refl s1).fst) e4
    extract_lets _ _ _ _ s9 s10
    have h9 : s4.Passes s9 := s4.passes_setFlow _
    have h10 : s.Passes s10 := ((h1.trans h4).trans h9).trans (s9.passes_modPkt _ _)
    exact keeps_ite (h10.trans (s10.passes_startInv _)) h10

theorem State.passes_updateFrag (s : State) (k : PktId) : s.Passes (s.updateFrag k) := by
  unfold State.updateFrag
  split
  · exact .refl s
  · split
    · exact .refl s
    · split
      · exact .refl s
      · refine keeps_ite (.refl s) ?_
        split
        rename_i s2 _ e2
        have h2 := (s.passes_hotOf _).of_eq e2
        extract_lets form s3
        have h3 : s2.Passes s3 := s2.passes_setFlow _
        exact (h2.trans h3).trans (s3.passes_modPkt _ _)

theorem execUpdatePass_frame (s : State) : ∃ t, execUpdatePass s = .next t ∧ t.ctxs = s.ctxs ∧ t.eg = s.eg ∧ t.cls = s.cls ∧ t.ep = s.ep ∧
    t.lanes = s.lanes := by
  unfold execUpdatePass
  extract_lets s1 s2
  have h1 : s.Passes s1 := s.passes_flowCmdNow.trans (State.passes_resultsDue _)
  have h2 : s1.Passes s2 := .foldl (fun t k => t.passes_updatePkt k) s1
  split
  · exact ⟨s, rfl, State.Passes.refl s⟩
  · exact ⟨_, rfl, (h1.trans h2).trans (.foldl (fun t k => t.passes_updateFrag k) s2)⟩

theorem execUpdatePass_early (s : State) (h : s.time.cycle < 256) : execUpdatePass s = .next s ∧ execFlowResult s = .next s :=
  ⟨if_pos h, if_pos h⟩

theorem State.flowCmdNow_none (h : s.flow.cmd = none) : s.flowCmdNow = s := by
  rw [State.flowCmdNow, h]

theorem State.setFlow_self {f : FlowSt → FlowSt} (h : f s.flow = s.flow) : s.setFlow f = s := by
  rw [State.setFlow, h]

theorem State.resultsDue_nil (h : s.flow.results = []) : s.resultsDue = s := by
  have hf : s.setFlow (fun f => { f with results := f.results.filter (fun r => decide (s.time.beat ≤ r.beat)) }) = s := by
    refine State.setFlow_self ?_
    rw [h, List.filter_nil, ← h]
  rw [State.resultsDue, hf, h]
  exact ite_self s

theorem State.byCapture_nil (h : s.pkts = []) (b : Nat) : s.byCapture b = [] := by
  simp [State.byCapture, State.resident, h]

theorem execUpdatePass_nothing (s : State) (h : s.pkts = []) (hc : s.flow.cmd = none) (hr : s.flow.results = []) : execUpdatePass s = .next s := by
  rw [execUpdatePass, State.flowCmdNow_none hc, State.resultsDue_nil hr]
  simp [State.byCapture_nil h]

/-- The passes of a lone packet: its own beat's alone. -/
theorem State.byCapture_single {k : PktId} {x : Pkt} (h : s.pkts = [(k, some x)]) (b : Nat) : s.byCapture b = if x.i.b = b then [k] else [] := by
  by_cases hb : x.i.b = b <;> simp [State.byCapture, State.resident, h, hb, insertByTime]

/-- A packet with a record in the working set takes R93's update of it. -/
theorem State.updatePkt_cached {k : PktId} {x : Pkt} {e : CacheEnt} (h : s.pkt? k = some x) (hk : x.lk.key ≠ []) (hd : x.lk.updated = false)
    (hv : x.vd.voidPkt = false) (hu : s.flow.upd.find? (fun u => decide (u.key = x.lk.key)) = none) (hc : s.cached x.lk.key = some e)
    (hf : e.fresh = false) (hh : Rule.hist x.lk.act = false) (hi : Rule.enF x.lk.act = false) :
    ∃ v : State, s.updatePkt k = v.modPkt k (fun y => { y with lk := { y.lk with
        updated := true, view := some (s.updateHot x (Rule.fkey x.lk.act) (some e.hot)), created := false, histPos := none,
        histRing := (s.updateHot x (Rule.fkey x.lk.act) (some e.hot)).histRing } }) ∧
      v.pkts = s.pkts ∧ v.hbm = s.hbm ∧ v.flow.cache = s.flow.cache ∧ v.time = s.time := by
  have ho : s.hotOf x.lk.key = (s, some e.hot) := by
    rw [State.hotOf, hu, hc]
    simp only [hf, Bool.false_eq_true, if_false]
  simp only [State.updatePkt, h, hk, hd, hv, ho, hh, State.startsInv, hi, Bool.false_and, Bool.false_eq_true, false_or, if_false, false_and,
    Option.isSome_none, Option.isNone_some]
  refine ⟨_, rfl, rfl, rfl, ?_, rfl⟩
  rw [State.putUpd, State.setFlow]
  dsimp only
  split <;> rfl

theorem execUpdatePass_updates (s : State) (k : PktId) (x : Pkt) (e : CacheEnt) (h : s.pkts = [(k, some x)]) (hb : x.i.b = s.time.beat)
    (h0 : 0 < s.time.beat) (hk : x.lk.key ≠ []) (hd : x.lk.updated = false) (hv : x.vd.voidPkt = false) (hcmd : s.flow.cmd = none)
    (hr : s.flow.results = []) (hcy : 256 ≤ s.time.cycle) (hu : s.flow.upd.find? (fun u => decide (u.key = x.lk.key)) = none)
    (hc : s.cached x.lk.key = some e) (hf : e.fresh = false) (hh : Rule.hist x.lk.act = false) (hi : Rule.enF x.lk.act = false) :
    ∃ t y, execUpdatePass s = .next t ∧ t.pkt? k = some y ∧ y.lk.updated = true ∧ y.lk.created = false ∧
      y.lk.view = some (s.updateHot x (Rule.fkey x.lk.act) (some e.hot)) ∧ t.hbm = s.hbm ∧ t.flow.cache = s.flow.cache := by
  have hx : s.pkt? k = some x := by
    rw [State.pkt?, h]
    simp [Tbl.find?]
  obtain ⟨v, hup, hp, hm, hca, ht⟩ := s.updatePkt_cached hx hk hd hv hu hc hf hh hi
  have hvx : v.pkt? k = some x := by rw [State.pkt?, hp]; exact hx
  rw [execUpdatePass, if_neg (not_lt.2 hcy), State.flowCmdNow_none hcmd, State.resultsDue_nil hr]
  dsimp only
  rw [s.byCapture_single h, if_pos hb]
  simp only [List.foldl_cons, List.foldl_nil, hup, State.modPkt_some hvx]
  rw [State.byCapture_single (k := k) (by simp only [hp, h, Tbl.put, lt_irrefl, if_false, if_true]; rfl), if_neg (by simp only [ht]; omega),
    List.foldl_nil]
  exact ⟨_, _, rfl, State.pkt?_put _ _ _, rfl, rfl, rfl, hm, hca⟩

/-! ### Record writes -/

/-- Updates without what a write back adds to them. -/
def coldless (l : List UpdRec) : List UpdRec := l.map (fun u => { u with cold := [] })

/-- The updates that wait, but for their cold parts, the invocations, packets and contexts stand. -/
def State.KeepsUpd (s t : State) : Prop :=
  coldless t.flow.upd = coldless s.flow.upd ∧ t.flow.invs = s.flow.invs ∧ t.pkts = s.pkts ∧ t.ctxs = s.ctxs

theorem State.KeepsUpd.refl (s : State) : s.KeepsUpd s := ⟨rfl, rfl, rfl, rfl⟩

theorem State.KeepsUpd.trans (h : s.KeepsUpd t) (h' : t.KeepsUpd u) : s.KeepsUpd u := by
  obtain ⟨h1, h2, h3, h4⟩ := h
  obtain ⟨h1', h2', h3', h4'⟩ := h'
  exact ⟨h1'.trans h1, h2'.trans h2, h3'.trans h3, h4'.trans h4⟩

theorem State.KeepsUpd.foldl {α : Type} {g : State → α → State} {l : List α} (h : ∀ (t : State) (x : α), t.KeepsUpd (g t x)) (s : State) :
    s.KeepsUpd (l.foldl g s) := by
  induction l generalizing s with
  | nil => exact .refl s
  | cons x l ih => exact (h s x).trans (ih _)

theorem State.StoreOnly.keepsUpd (h : s.StoreOnly t) : s.KeepsUpd t := by
  obtain ⟨h1, h2, -⟩ := h.applies
  have hf := h.2.1
  exact ⟨by rw [hf], by rw [hf], h1, h2⟩

theorem State.keepsUpd_setFlow (s : State) {f : FlowSt → FlowSt} (h : coldless (f s.flow).upd = coldless s.flow.upd)
    (hi : (f s.flow).invs = s.flow.invs) : s.KeepsUpd (s.setFlow f) := ⟨h, hi, rfl, rfl⟩

theorem State.keepsUpd_modCached (s : State) (key : List Byte) (g : CacheEnt → CacheEnt) : s.KeepsUpd (s.modCached key g) := by
  rw [State.modCached]
  split
  · exact s.keepsUpd_setFlow rfl rfl
  · exact s.keepsUpd_setFlow rfl rfl

theorem State.keepsUpd_modCold (s : State) (key : List Byte) (g : List Byte → List Byte) : s.KeepsUpd (s.modCold key g) := by
  rw [State.modCold]
  split
  · refine s.keepsUpd_setFlow ?_ rfl
    rw [coldless, coldless, List.map_map]
    refine List.map_congr_left fun u _ => ?_
    simp only [Function.comp_apply]
    split <;> rfl
  · split
    · exact (State.StoreOnly.refl s).hbmWrite.keepsUpd
    · exact s.keepsUpd_modCached _ _

theorem State.keepsUpd_writeUpd (s : State) (u : UpdRec) : s.KeepsUpd (s.writeUpd u) := by
  unfold State.writeUpd
  extract_lets s2 s1
  have h1 : s.KeepsUpd s1 := by
    unfold s1
    split
    · have h2 : s.KeepsUpd s2 := s.keepsUpd_modCached _ _
      split
      · exact keeps_ite (h2.trans (State.StoreOnly.refl s2).setTag.keepsUpd) h2
      · exact h2
    · split
      · exact (State.StoreOnly.refl s).hbmWrite.setTag.keepsUpd
      · have h := (State.StoreOnly.refl s).storeInsert (key := u.key)
          (rec_ := recordBytes u.key u.hot (if u.fresh then u.cold else newCold u.origin)) (c := false) (h := u.hot.histValid)
        split
        next v _ hv =>
          rw [hv] at h
          exact h.keepsUpd
        next v hv =>
          rw [hv] at h
          exact h.freeRingOf.keepsUpd
  exact keeps_ite h1 (h1.trans (s1.keepsUpd_modCold _ _))

theorem execFlowRecordWrite_writes (s : State) : ∃ t, execFlowRecordWrite s = .next t ∧
    t.flow.upd.map (fun u => { u with cold := [] }) =
      (s.flow.upd.filter (fun u => decide (s.time.beat ≤ u.beat))).map (fun u => { u with cold := [] }) ∧
    t.flow.invs = s.flow.invs ∧ t.pkts = s.pkts ∧ t.ctxs = s.ctxs := by
  refine ⟨_, rfl, ?_⟩
  obtain ⟨h1, h2, h3, h4⟩ := (State.KeepsUpd.foldl (l := s.flow.upd.filter (fun u => decide (u.beat < s.time.beat))) (fun t u => t.keepsUpd_writeUpd u)
    (s.setFlow (fun f => { f with upd := f.upd.filter (fun u => decide (s.time.beat ≤ u.beat)) }))).trans (State.keepsUpd_setFlow _
      (f := fun f => { f with cache := f.cache.map (fun e => (e.1, if e.2.pins ≤ s.time.beat then { e.2 with pins := 0 } else e.2)) }) rfl rfl)
  exact ⟨h1, h2, h3, h4⟩

/-! ### The end of an invocation -/

theorem execFlowInvocationEnd_result (s : State) (n : Nat) (i : Inv) (v : FlowVals) (h : s.flow.invs.find? (fun i => decide (i.id = n)) = some i)
    (hl : i.lost = false) (hr : s.invRuns i = true) (hh : s.herd.homePend.any (fun e => e.2 == i.id) = false) :
    execFlowInvocationEnd n (some v) s = .next { s with flow := { s.flow with
      invs := s.flow.invs.filter (fun j => decide (j.id ≠ i.id))
      results := s.flow.results ++ [{ key := i.key, ctx := i.ctx, mv := i.mv, beat := s.time.beat, vals := v }] } } := by
  simp only [execFlowInvocationEnd, h, hr, hl, State.homeEnd, hh, Bool.false_eq_true, not_true_eq_false, if_false, State.setFlow]

theorem execFlowInvocationEnd_waits (s : State) (n : Nat) (i : Inv) (v : FlowVals) (h : s.flow.invs.find? (fun i => decide (i.id = n)) = some i)
    (hr : s.invRuns i = false) : execFlowInvocationEnd n (some v) s = .next s := by
  simp only [execFlowInvocationEnd, h, hr, Bool.false_eq_true, not_false_eq_true, if_true]

theorem State.modCold_regs (s : State) (key : List Byte) (g : List Byte → List Byte) : (s.modCold key g).regs = s.regs := by
  rw [State.modCold]
  split
  · rfl
  · split
    · simp
    · rw [State.modCached]
      split <;> rfl

theorem execFlowInvocationEnd_lost (s : State) (n : Nat) (i : Inv) (h : s.flow.invs.find? (fun i => decide (i.id = n)) = some i)
    (hh : s.herd.homePend.any (fun e => e.2 == i.id) = false) : ∃ t, execFlowInvocationEnd n none s = .next t ∧
      t.flow.invs = s.flow.invs.filter (fun j => decide (j.id ≠ i.id)) ∧ t.flow.results = s.flow.results ∧ t.pkts = s.pkts ∧ t.regs = s.regs := by
  refine ⟨s.invLost i, by simp only [execFlowInvocationEnd, h], ?_⟩
  rw [State.invLost, State.homeEnd, if_neg (by simp [hh])]
  generalize hu : s.setFlow (fun f => { f with invs := f.invs.filter (fun j => decide (j.id ≠ i.id)) }) = u
  have hu' : u.flow.invs = s.flow.invs.filter (fun j => decide (j.id ≠ i.id)) ∧ u.flow.results = s.flow.results ∧ u.pkts = s.pkts ∧ u.regs = s.regs := by
    subst hu
    exact ⟨rfl, rfl, rfl, rfl⟩
  obtain ⟨h1, h2, h3, h4⟩ := hu'
  obtain ⟨hp, -, -, -, -, -, hr⟩ := u.applies_modCold i.key (coldAdd 16 1)
  obtain ⟨-, hi, -, -⟩ := u.keepsUpd_modCold i.key (coldAdd 16 1)
  exact ⟨hi.trans h1, hr.trans h2, hp.trans h3, (u.modCold_regs _ _).trans h4⟩

/-- Settles O7. -/
theorem flowUpdateCommands : Obligations.FlowUpdateCommands :=
  ⟨execUpdatePass_updates, execUpdatePass_nothing, execUpdatePass_early, execUpdatePass_frame, execFlowRecordWrite_writes, execFlowResult_applies,
    execFlowResult_stopped, execFlowInvocationEnd_result, execFlowInvocationEnd_waits, execFlowInvocationEnd_lost⟩

end Sys2Proof.Machine
end

section
/-! PROOF. The commands of page FLOW (R79, R86, R108, R401): O8. -/

namespace Sys2Proof.Machine

-- One thread for the proofs, which bounds the memory that checking them takes.
set_option Elab.async false

open Sys2Proof

variable {s t u : State}

/-! ### FLOW_FLUSH -/

/-- The updates and the invocations of the working set, packets and endpoints stand. -/
def State.Flushes (s t : State) : Prop := t.flow.upd = s.flow.upd ∧ t.flow.invs = s.flow.invs ∧ t.pkts = s.pkts ∧ t.ep = s.ep

theorem State.Flushes.trans (h : s.Flushes t) (h' : t.Flushes u) : s.Flushes u := by
  obtain ⟨h1, h2, h3, h4⟩ := h
  obtain ⟨h1', h2', h3', h4'⟩ := h'
  exact ⟨h1'.trans h1, h2'.trans h2, h3'.trans h3, h4'.trans h4⟩

theorem State.StoreOnly.flushes (h : s.StoreOnly t) : s.Flushes t := by
  have hf := h.2.1
  obtain ⟨hr, -⟩ := h
  rw [State.ReportsOnly] at hr
  exact ⟨by rw [hf], by rw [hf], by rw [hr], by rw [hr]⟩

theorem State.flushes_setWay (s : State) (w : Nat) (e : CacheEnt) : s.Flushes (s.setWay w e) := ⟨rfl, rfl, rfl, rfl⟩

theorem State.flushes_flushCache (s : State) (lose : Bool) : s.Flushes (s.flushCache lose) := by
  rw [State.flushCache]
  generalize s.flow.cache.keys = l
  induction l generalizing s with
  | nil => exact ⟨rfl, rfl, rfl, rfl⟩
  | cons w l ih =>
    refine State.Flushes.trans ?_ (ih _)
    dsimp only
    refine keeps_ite ⟨rfl, rfl, rfl, rfl⟩ ?_
    have h := (State.StoreOnly.refl s).writeBack (e := s.flow.cache.get w) (keep := true) |>.flushes
    split
    next v n hv =>
      rw [hv] at h
      exact h.trans (v.flushes_setWay _ _)
    next v hv =>
      rw [hv] at h
      exact keeps_ite (h.trans (v.flushes_setWay _ _)) h

theorem execFlowFlush_keeps_working_copies (s : State) (src : Source) (h : s.Takes src) : ∃ t, execFlowFlush src s = .next t ∧
    t.flow.upd = s.flow.upd ∧ t.flow.invs = s.flow.invs ∧ t.pkts = s.pkts ∧ t.ep = s.ep := by
  refine ⟨_, s.basicCmd_takes _ h, ?_⟩
  have hw : s.Flushes (s.wrote src) := ⟨by simp, by simp, by simp, by simp⟩
  generalize s.wrote src = v at hw
  have hv : s.Flushes (if v.herd.cut then v else v.flushCache false) := keeps_ite hw (hw.trans (v.flushes_flushCache false))
  generalize (if v.herd.cut then v else v.flushCache false) = u at hv
  exact hv.trans ⟨by simp, by simp, by simp, by simp⟩

theorem execFlowFlush_cut (s : State) (src : Source) (h : s.Takes src) (hc : s.herd.cut = true) :
    ∃ t, execFlowFlush src s = .next t ∧ s.WriteOnly t := by
  refine ⟨_, s.basicCmd_takes _ h, ?_⟩
  rw [if_pos (by simp [hc])]
  simp [State.writeOnly_iff]

/-! ### FLOW.CMD -/

theorem State.rd_wrote_flow_key (s : State) (src : Source) : (List.range 12).flatMap (fun i => leBytes 4 ((s.wrote src).rd Reg.FLOW.KEY 0 i)) =
    (List.range 12).flatMap (fun i => leBytes 4 (s.rd Reg.FLOW.KEY 0 i)) := by
  have hk : ∀ i ∈ List.range 12, Reg.FLOW.KEY.key 0 i 0 ≠ Reg.DEV.SEQ_RESULT.key 0 0 0 := by decide
  exact List.flatMap_congr fun i hi => by rw [s.rd_wrote src _ _ _ _ (hk i hi)]

theorem State.flowCmd_starts (s : State) (src : Source) (op : Nat) (h : s.Takes src) (hc : s.flow.cmd = none) :
    ∃ t, s.basicCmd src (fun s => s.flowCmd src op) = .next t ∧ t.rd Reg.FLOW.CMD_BUSY = 1 ∧
      t.flow = { s.flow with cmd := some (op, (List.range 12).flatMap (fun i => leBytes 4 (s.rd Reg.FLOW.KEY 0 i))), cmdBeat := s.time.beat } ∧
      ({ s with flow := t.flow } : State).WriteOnly t := by
  refine ⟨_, s.basicCmd_takes _ h, ?_⟩
  rw [State.flowCmd, if_neg (by simp [hc])]
  refine ⟨?_, ?_, ?_⟩
  · rw [State.rd_auditCmd _ _ _ _ _ _ _ _ _ _ _ _ (by decide), State.rd_wr_self]
    rfl
  · simp [State.setFlow, s.rd_wrote_flow_key src]
  · simp [State.writeOnly_iff, State.setFlow]

theorem State.flowCmd_busy (s : State) (src : Source) (op : Nat) (h : s.Takes src) (hc : s.flow.cmd.isSome = true) :
    ∃ t, s.basicCmd src (fun s => s.flowCmd src op) = .next t ∧ s.WriteOnly t := by
  refine ⟨_, s.basicCmd_takes _ h, ?_⟩
  rw [State.flowCmd, if_pos (by simpa using hc)]
  simp [State.writeOnly_iff]

theorem execFlowRead_starts (s : State) (src : Source) (h : s.Takes src) (hc : s.flow.cmd = none) : ∃ t, execFlowRead src s = .next t ∧
    t.rd Reg.FLOW.CMD_BUSY = 1 ∧
    t.flow = { s.flow with cmd := some (1, (List.range 12).flatMap (fun i => leBytes 4 (s.rd Reg.FLOW.KEY 0 i))), cmdBeat := s.time.beat } ∧
    ({ s with flow := t.flow } : State).WriteOnly t := s.flowCmd_starts src 1 h hc

theorem execFlowDelete_starts (s : State) (src : Source) (h : s.Takes src) (hc : s.flow.cmd = none) : ∃ t, execFlowDelete src s = .next t ∧
    t.rd Reg.FLOW.CMD_BUSY = 1 ∧
    t.flow = { s.flow with cmd := some (2, (List.range 12).flatMap (fun i => leBytes 4 (s.rd Reg.FLOW.KEY 0 i))), cmdBeat := s.time.beat } ∧
    ({ s with flow := t.flow } : State).WriteOnly t := s.flowCmd_starts src 2 h hc

theorem execFlowCmd_busy (s : State) (src : Source) (h : s.Takes src) (hc : s.flow.cmd.isSome = true) :
    ∃ t u, execFlowRead src s = .next t ∧ execFlowDelete src s = .next u ∧ s.WriteOnly t ∧ s.WriteOnly u := by
  obtain ⟨t, ht, hw⟩ := s.flowCmd_busy src 1 h hc
  obtain ⟨u, hu, hw'⟩ := s.flowCmd_busy src 2 h hc
  exact ⟨t, u, ht, hu, hw, hw'⟩

/-! ### Update descriptors -/

/-- The fields of an update descriptor. -/
def udFields : List Field :=
  [Reg.FLOW.UD_SRC, Reg.FLOW.UD_OP, Reg.FLOW.UD_BASE, Reg.FLOW.UD_OFF, Reg.FLOW.COND_EN, Reg.FLOW.COND_BASE, Reg.FLOW.COND_OFF,
    Reg.FLOW.COND_MASK, Reg.FLOW.COND_VAL]

theorem ud_key_ne {f g : Field} {i : Nat} (hf : f ∈ udFields) (hg : g ∈ udFields) (h : f ≠ g) : g.key 0 i 0 ≠ f.key 0 i 0 := by
  have hall : ∀ f ∈ udFields, ∀ g ∈ udFields, f ≠ g → (g.off * 64 + g.lo ≠ f.off * 64 + f.lo ∧ g.block = f.block ∧ g.stride = f.stride ∧
    g.bstride = f.bstride) := by decide
  obtain ⟨h1, h2, h3, h4⟩ := hall f hf g hg h
  refine Field.key_ne_of_bit h2 (by decide) (by decide) ?_
  rw [h3, h4]
  omega

theorem ud_reportKey {g : Field} {i : Nat} (hi : i < 12) (hg : g ∈ udFields) :
    reportKey (g.key 0 i 0) = false ∧ g.key 0 i 0 ≠ Reg.DEV.SEQ_RESULT.key 0 0 0 := by
  have hall : ∀ i < 12, ∀ g ∈ udFields, reportKey (g.key 0 i 0) = false ∧ g.key 0 i 0 ≠ Reg.DEV.SEQ_RESULT.key 0 0 0 := by decide
  exact hall i hi g hg

theorem State.udWord1_congr {i : Nat} (h : ∀ g ∈ udFields, t.rd g 0 i = s.rd g 0 i) : t.udWord1 i = s.udWord1 i := by
  rw [State.udWord1, State.udWord1, h _ (by decide), h _ (by decide), h _ (by decide), h _ (by decide)]

theorem execUaccDescriptorWrite_bad (s : State) (src : Source) (f u : Fin 3) (v : DWord) (h : s.Takes src)
    (hb : udBad (v.toNat % 2 ^ 32) (v.toNat / 2 ^ 32) = true) : ∃ t, execUaccDescriptorWrite src f u .both v s = .next t ∧
      t.udWord1 (4 * f.val + u.val) = s.udWord1 (4 * f.val + u.val) ∧ s.WriteOnly t := by
  have hi : 4 * f.val + u.val < 12 := by omega
  refine ⟨_, s.basicCmd_takes _ h, ?_⟩
  dsimp only
  rw [if_pos hb]
  refine ⟨State.udWord1_congr fun g hg => ?_, by simp [State.writeOnly_iff]⟩
  obtain ⟨h1, h2⟩ := ud_reportKey hi hg
  rw [State.rd_audit _ _ _ _ _ _ h1, State.rd_wrote _ _ _ _ _ _ h2]

/-- A descriptor that is stored shows field by field. -/
theorem State.rd_udStore (s : State) (i w1 w2 : Nat) : (s.udStore i w1 w2).rd Reg.FLOW.UD_SRC 0 i = bits w1 0 3 ∧
    (s.udStore i w1 w2).rd Reg.FLOW.UD_OP 0 i = bits w1 3 3 ∧ (s.udStore i w1 w2).rd Reg.FLOW.COND_MASK 0 i = bits w2 16 8 := by
  have hb (n k w : Nat) : bits n k w % 2 ^ w = bits n k w := Nat.mod_eq_of_lt (Nat.mod_lt _ (Nat.two_pow_pos w))
  have hne (v : State) (g : Field) (x : Nat) {f : Field} (hf : f ∈ udFields) (hg : g ∈ udFields) (h : f ≠ g) :
      (v.wr g x 0 i).rd f 0 i = v.rd f 0 i := State.rd_wr_ne _ _ _ _ _ _ _ _ _ _ (ud_key_ne hg hf h.symm)
  rw [State.udStore]
  refine ⟨?_, ?_, ?_⟩
  · iterate 8 rw [hne _ _ _ (by decide) (by decide) (by decide)]
    exact (State.rd_wr_self ..).trans (hb _ _ 3)
  · iterate 7 rw [hne _ _ _ (by decide) (by decide) (by decide)]
    exact (State.rd_wr_self ..).trans (hb _ _ 3)
  · rw [hne _ _ _ (by decide) (by decide) (by decide)]
    exact (State.rd_wr_self ..).trans (hb _ _ 8)

theorem State.writeOnly_udStore (s : State) (i w1 w2 : Nat) : s.WriteOnly (s.udStore i w1 w2) := by
  simp [State.writeOnly_iff, State.udStore]

theorem execUaccDescriptorWrite_good (s : State) (src : Source) (f u : Fin 3) (v : DWord) (h : s.Takes src)
    (hb : udBad (v.toNat % 2 ^ 32) (v.toNat / 2 ^ 32) = false) : ∃ t, execUaccDescriptorWrite src f u .both v s = .next t ∧
      t.rd Reg.FLOW.UD_SRC 0 (4 * f.val + u.val) = bits v.toNat 0 3 ∧ t.rd Reg.FLOW.UD_OP 0 (4 * f.val + u.val) = bits v.toNat 3 3 ∧
      t.rd Reg.FLOW.COND_MASK 0 (4 * f.val + u.val) = bits v.toNat 48 8 ∧ s.WriteOnly t := by
  have hi : 4 * f.val + u.val < 12 := by omega
  refine ⟨_, s.basicCmd_takes _ h, ?_⟩
  dsimp only
  rw [if_neg (Bool.eq_false_iff.mp hb)]
  have hw : s.WriteOnly (s.wrote src) := by simp [State.writeOnly_iff]
  obtain ⟨h1, h2, h3⟩ := (s.wrote src).rd_udStore (4 * f.val + u.val) (v.toNat % 2 ^ 32) (v.toNat / 2 ^ 32)
  have hs := (s.wrote src).writeOnly_udStore (4 * f.val + u.val) (v.toNat % 2 ^ 32) (v.toNat / 2 ^ 32)
  generalize (s.wrote src).udStore (4 * f.val + u.val) (v.toNat % 2 ^ 32) (v.toNat / 2 ^ 32) = t at h1 h2 h3 hs
  have ht : t.rd Reg.FLOW.UD_SRC 0 (4 * f.val + u.val) = bits v.toNat 0 3 ∧ t.rd Reg.FLOW.UD_OP 0 (4 * f.val + u.val) = bits v.toNat 3 3 ∧
      t.rd Reg.FLOW.COND_MASK 0 (4 * f.val + u.val) = bits v.toNat 48 8 ∧ s.WriteOnly t := by
    refine ⟨h1.trans ?_, h2.trans ?_, h3.trans ?_, hw.trans hs⟩ <;> simp only [bits] <;> omega
  split
  · exact ht
  · obtain ⟨h1, h2, h3, h4⟩ := ht
    rw [State.rd_audit _ _ _ _ _ _ (ud_reportKey hi (by decide)).1, State.rd_audit _ _ _ _ _ _ (ud_reportKey hi (by decide)).1,
      State.rd_audit _ _ _ _ _ _ (ud_reportKey hi (by decide)).1]
    exact ⟨h1, h2, h3, h4.trans (by simp [State.writeOnly_iff])⟩

/-- Settles O8. -/
theorem flowPageCommands : Obligations.FlowPageCommands :=
  ⟨execFlowFlush_keeps_working_copies, execFlowFlush_cut, execFlowRead_starts, execFlowDelete_starts, execFlowCmd_busy,
    execUaccDescriptorWrite_bad, execUaccDescriptorWrite_good⟩

end Sys2Proof.Machine
end

section
/-! PROOF. Tree cores, the gather and the outputs (R111, R114 to R116, R119 to R124): O12. -/

namespace Sys2Proof.Machine

-- One thread for the proofs, which bounds the memory that checking them takes.
set_option Elab.async false

open Sys2Proof

variable {s t u : State}

/-! ### The issue of a tree evaluation -/

theorem State.tcore_setTcore (s : State) (f c : Nat) (x : TCore) : (s.setTcore f c x).tcore f c = x :=
  Tbl.get_set_self s.tree.cores _ x

theorem State.rd_setTcore (s : State) (f c : Nat) (x : TCore) (g : Field) (i j k : Nat) : (s.setTcore f c x).rd g i j k = s.rd g i j k := rfl

theorem State.tcore_bump (s : State) (g : Field) (i j k n f c : Nat) : (s.bump g i j k n).tcore f c = s.tcore f c := by simp [State.tcore]

theorem execTreeIssue_bubble (s : State) (f : Flock) (c : Fin 64) (n : Fin 512) (h : s.flockIssues f.val = true)
    (hv : bits (s.issueWord f.val c.val (s.tcore f.val c.val).bank n.val) 29 1 = 0) :
    ∃ t, execTreeIssue f c n false s = .next t ∧ s.Counts t Reg.FLOCK.TREE_BUBBLES f.val ∧
      (t.tcore f.val c.val).pend = (s.tcore f.val c.val).pend ++
        [{ part := bits (s.issueWord f.val c.val (s.tcore f.val c.val).bank n.val) 20 9, val := none, cycle := n.val, beat := s.time.beat,
           post := if n.val = 511 then s.gatherPost f.val c.val else none }] ∧
      t = { s with regs := t.regs, tree := t.tree } := by
  rw [execTreeIssue, if_neg (not_not.mpr h)]
  simp only [hv, zero_ne_one, if_false, Nat.reduceBEq, Bool.false_and, Bool.false_eq_true]
  refine ⟨_, rfl, ?_, ?_, ?_⟩
  · rw [State.Counts, State.rd_bump, State.rd_setTcore]
  · simp [State.tcore_bump, State.tcore_setTcore]
  · simp [State.eq_iff, State.setTcore]

theorem execTreeIssue_evaluates (s : State) (f : Flock) (c : Fin 64) (n : Fin 512) (pk : PktId) (slots : List Word) (w : Nat)
    (h : s.flockIssues f.val = true) (hw : w = s.issueWord f.val c.val (s.tcore f.val c.val).bank n.val) (hv : bits w 29 1 = 1)
    (hs : s.vslot f.val (s.tree.readBank.get f.val) (bits w 14 6) = { pkt := some pk, slots := slots }) :
    ∃ t, execTreeIssue f c n false s = .next t ∧ s.Counts t Reg.FLOCK.TREE_EVALS f.val ∧
      (t.tcore f.val c.val).pend = (s.tcore f.val c.val).pend ++
        [{ part := bits w 20 9, val := some (s.treeEval f.val c.val (bits w 0 10 * 64) (bits w 10 4 + 1) slots), cycle := n.val, beat := s.time.beat,
           post := if n.val = 511 then s.gatherPost f.val c.val else none }] ∧
      t = { s with regs := t.regs, tree := t.tree } := by
  have hp : s.planVec f.val c.val (bits w 14 6) = s := by simp [State.planVec, hs]
  rw [execTreeIssue, if_neg (not_not.mpr h)]
  simp only [← hw, hv, hp, if_true, hs, BEq.rfl, Option.isSome_some, Bool.true_or, Bool.and_self, if_false, Bool.false_eq_true]
  refine ⟨_, rfl, ?_, ?_, ?_⟩
  · rw [State.Counts, State.rd_bump, State.rd_setTcore]
  · simp [State.tcore_bump, State.tcore_setTcore]
  · simp [State.eq_iff, State.setTcore]

/-! ### Adds and reloads -/

theorem toSigned_ofSigned_64 (i : Int) : toSigned 64 (ofSigned 64 i) = i.bmod (2 ^ 64) := by
  rw [toSigned, ofSigned, Int.bmod_def]
  simp only [bits]
  omega

theorem execPartialAdd_retires (s : State) (f : Flock) (c : Fin 64) (p : PendAdd) (rest : List PendAdd) (v : Int)
    (h : (s.tcore f.val c.val).pend = p :: rest) (hv : p.val = some v) :
    ∃ t, execPartialAdd f c s = .next t ∧ (t.tcore f.val c.val).pend = rest ∧ t = { s with tree := t.tree, arr := t.arr } ∧
      t.tree.part.get ((tcoreKey f.val c.val * 2 + p.beat % 2) * 512 + p.part) =
        (s.tree.part.get ((tcoreKey f.val c.val * 2 + p.beat % 2) * 512 + p.part) + v).bmod (2 ^ 64) ∧
      (p.post = none → t.arr = s.arr) ∧
      (∀ k, p.post = some k →
        t.arr = { s.arr with cells := s.arr.cells.set (cellKey f.val k) (Nat.min (s.arr.cells.get (cellKey f.val k) + 1) 65535) }) := by
  rw [execPartialAdd]
  simp only [h, hv]
  have hm : ∀ k, (s.tree.part.mod k (fun a => toSigned 64 (ofSigned 64 (a + v)))).get k = (s.tree.part.get k + v).bmod (2 ^ 64) := fun k => by
    rw [Tbl.mod, Tbl.get_set_self, toSigned_ofSigned_64]
  have hc : ∀ u : State, u.tree.cores = s.tree.cores.set (tcoreKey f.val c.val) { s.tcore f.val c.val with pend := rest } →
      (u.tcore f.val c.val).pend = rest := fun u hu => by rw [State.tcore, hu, Tbl.get_set_self]
  rcases hp : p.post with _ | k
  · exact ⟨_, rfl, hc _ rfl, rfl, hm _, fun _ => rfl, nofun⟩
  · refine ⟨_, rfl, hc _ rfl, rfl, hm _, nofun, ?_⟩
    rintro _ ⟨⟩
    rfl

theorem execTreeReload_not (s : State) (f : Flock) (c : Fin 64) (h : (s.tcore f.val c.val).reload = false) : execTreeReload f c s = .next s := by
  simp [execTreeReload, h]

theorem execTreeReload_reloads (s : State) (f : Flock) (c : Fin 64) (h : (s.tcore f.val c.val).reload = true) :
    ∃ t, execTreeReload f c s = .next t ∧ t.tcore f.val c.val = { s.tcore f.val c.val with reload := false } ∧
      t = { s with tree := t.tree } ∧ t.tree.part = s.tree.part ∧ t.tree.vbuf = s.tree.vbuf := by
  rw [execTreeReload, if_neg (not_not.mpr h)]
  have hc : ∀ u : State, u.tree.cores = s.tree.cores.set (tcoreKey f.val c.val) { s.tcore f.val c.val with reload := false } →
      u.tcore f.val c.val = { s.tcore f.val c.val with reload := false } := fun u hu => by rw [State.tcore, hu, Tbl.get_set_self]
  refine ⟨_, rfl, hc _ ?_, ?_, ?_, ?_⟩ <;> simp only [State.putTreeBank, State.setTcore]

/-! ### The gather -/

/-- What the work of a job whose gather is short may change: neither registers, packets, arrays nor tree engine. -/
def State.LosesWork (s t : State) : Prop := t.regs = s.regs ∧ t.pkts = s.pkts ∧ t.arr = s.arr ∧ t.tree = s.tree

theorem State.LosesWork.trans (h : s.LosesWork t) (h' : t.LosesWork u) : s.LosesWork u := by
  obtain ⟨h1, h2, h3, h4⟩ := h
  obtain ⟨h1', h2', h3', h4'⟩ := h'
  exact ⟨h1'.trans h1, h2'.trans h2, h3'.trans h3, h4'.trans h4⟩

theorem State.losesWork_workLost (s : State) (ctx kind status : Nat) (p : Inv → Bool) : s.LosesWork (s.workLost ctx kind status p) := by
  unfold State.workLost
  split <;> exact ⟨rfl, rfl, rfl, rfl⟩

theorem State.gatherJobs_spec (s : State) (f : Nat) : (s.gatherJobs f).regs = s.regs ∧ (s.gatherJobs f).pkts = s.pkts ∧
    (s.gatherJobs f).arr = { s.arr with cells := s.arr.cells.set (cellKey f 254) 0 } ∧ (s.gatherJobs f).tree.outs = s.tree.outs := by
  unfold State.gatherJobs
  extract_lets js full _ s1
  split
  · exact ⟨rfl, rfl, rfl, rfl⟩
  · have h : s1.LosesWork (js.foldl (fun t v => t.workLost v.1 v.2.kind 2 (fun i => i.mv == v.2.ver)) s1) := by
      clear_value s1
      generalize js = l
      induction l generalizing s1 with
      | nil => exact ⟨rfl, rfl, rfl, rfl⟩
      | cons v l ih => exact (s1.losesWork_workLost ..).trans (ih _)
    obtain ⟨h1, h2, h3, h4⟩ := h
    exact ⟨h1, h2, h3, congrArg TreeSt.outs h4⟩

/-- The gather's outputs are in the tree engine; its cell is empty. -/
def State.gatherOuts (s : State) (f : Nat) (outs : List GatherOut) : State :=
  { s with tree := { s.tree with outs := s.tree.outs.set f outs }, arr := { s.arr with cells := s.arr.cells.set (cellKey f 255) 0 } }

/-- The gather before it is counted. -/
def State.gathered (s : State) (f : Nat) (outs : List GatherOut) : State := (s.gatherOuts f outs).gatherJobs f

theorem State.gathered_spec (s : State) (f : Nat) (outs : List GatherOut) : (s.gathered f outs).regs = s.regs ∧ (s.gathered f outs).pkts = s.pkts ∧
    (s.gathered f outs).arr.cells.get (cellKey f 255) = 0 ∧ (s.gathered f outs).arr.cells.get (cellKey f 254) = 0 ∧
    (s.gathered f outs).tree.outs.get f = outs := by
  obtain ⟨h1, h2, h3, h4⟩ := (s.gatherOuts f outs).gatherJobs_spec f
  have hc : (s.gatherOuts f outs).arr.cells = s.arr.cells.set (cellKey f 255) 0 := rfl
  have ho : (s.gatherOuts f outs).tree.outs = s.tree.outs.set f outs := rfl
  have hne : cellKey f 255 ≠ cellKey f 254 := by simp [cellKey]
  refine ⟨h1, h2, ?_, ?_, ?_⟩
  · rw [State.gathered, h3, hc, Tbl.get_set_ne _ _ hne, Tbl.get_set_self]
  · rw [State.gathered, h3, Tbl.get_set_self]
  · rw [State.gathered, h4, ho, Tbl.get_set_self]

theorem execGather_none (s : State) (f : Flock) (h : s.gathering f.val = []) : ∃ t, execGather f s = .next t ∧ t.tree.outs.get f.val = [] ∧
    t.arr.cells.get (cellKey f.val 255) = 0 ∧ t.arr.cells.get (cellKey f.val 254) = 0 ∧ t.pkts = s.pkts ∧ t.regs = s.regs := by
  unfold execGather
  extract_lets vs short outs _ s1 _ s2
  obtain ⟨hr, hp, h5, h4, ho⟩ := s.gathered_spec f.val outs
  have hs2 : s2 = s.gathered f.val outs := rfl
  have hvs : vs = [] := h
  have houts : outs = [] := by rw [show outs = vs.flatMap (s.gatherVersion f.val short) from rfl, hvs, List.flatMap_nil]
  rw [hs2, hvs]
  exact ⟨_, rfl, ho.trans houts, h5, h4, hp, hr⟩

theorem gatherVersion_short (s : State) (f : Nat) (cv : Nat × Version) : ∀ g ∈ s.gatherVersion f true cv, g.void = some 16 := by
  intro g hg
  rw [State.gatherVersion] at hg
  obtain ⟨w, -, hw⟩ := List.mem_filterMap.mp hg
  dsimp only at hw
  split at hw
  · exact absurd hw nofun
  · split at hw
    · exact absurd hw nofun
    · cases hw
      rfl

theorem flock_reportKey (f : Flock) : reportKey (Reg.FLOCK.GATHER_VOID.key f.val 0 0) = false :=
  reportKey_eq_false_of_high (by decide) (by decide) (by decide) (by decide) (by decide)

theorem execGather_short (s : State) (f : Flock) (h : s.gathering f.val ≠ [])
    (hc : contributors f.val (s.gathering f.val) ≠ s.arr.cells.get (cellKey f.val 255)) :
    ∃ t, execGather f s = .next t ∧ s.Counts t Reg.FLOCK.GATHER_VOID f.val ∧ (∀ g ∈ t.tree.outs.get f.val, g.void = some 16) ∧
      t.arr.cells.get (cellKey f.val 255) = 0 ∧ t.pkts = s.pkts := by
  unfold execGather
  extract_lets vs short outs _ s1 _ s2
  obtain ⟨hr, hp, h5, -, ho⟩ := s.gathered_spec f.val outs
  have hs2 : s2 = s.gathered f.val outs := rfl
  have hsh : short = true := decide_eq_true hc
  have houts : outs = vs.flatMap (s.gatherVersion f.val short) := rfl
  rw [if_neg (mt List.isEmpty_iff.mp h), if_pos hsh, hs2]
  rw [hsh] at houts
  generalize s.gathered f.val outs = u at hr hp h5 ho
  refine ⟨_, rfl, ?_, ?_, by simpa using h5, by simpa using hp⟩
  · rw [State.Counts, State.rd_event _ _ _ _ _ _ _ _ (flock_reportKey f), State.rd_bump, State.rd_congr hr]
  · intro g hg
    have hg' : g ∈ u.tree.outs.get f.val := by simpa using hg
    rw [ho, houts] at hg'
    obtain ⟨cv, -, hcv⟩ := List.mem_flatMap.mp hg'
    exact gatherVersion_short s f.val cv g hcv

theorem execGather_full (s : State) (f : Flock) (h : s.gathering f.val ≠ [])
    (hc : contributors f.val (s.gathering f.val) = s.arr.cells.get (cellKey f.val 255)) :
    ∃ t, execGather f s = .next t ∧ s.Counts t Reg.FLOCK.GATHER_DONE f.val ∧ t.arr.cells.get (cellKey f.val 255) = 0 ∧ t.pkts = s.pkts := by
  unfold execGather
  extract_lets vs short outs _ s1 _ s2
  obtain ⟨hr, hp, h5, -, -⟩ := s.gathered_spec f.val outs
  have hs2 : s2 = s.gathered f.val outs := rfl
  rw [if_neg (mt List.isEmpty_iff.mp h), if_neg (by simpa [short] using hc), hs2]
  generalize s.gathered f.val outs = u at hr hp h5
  refine ⟨_, rfl, ?_, by simpa using h5, by simpa using hp⟩
  rw [State.Counts, State.rd_bump, State.rd_congr hr]

/-! ### Outputs -/

theorem execOutputConversion_sets (s : State) (f : Flock) (n : Fin 512) (g : GatherOut) (pk : PktId) (x : Pkt)
    (h : (s.tree.outs.get f.val)[n.val]? = some g) (hg : g.pkt = some pk) (hv : g.void = none) (hsel : g.ctxsel = false) (hx : s.pkt? pk = some x)
    (hen : Rule.enA x.lk.act = true) (hctx : Rule.ctxA x.lk.act = g.ctx) :
    ∃ t y, execOutputConversion f n false s = .next t ∧ t.pkt? pk = some y ∧ y.vd.a.tree.find? g.output = some (convertOut g.desc g.sum).1 ∧
      t = { s with regs := t.regs, pkts := t.pkts } := by
  have hres (u : State) (hu : u.pkt? pk = some x) (hus : u = { s with regs := u.regs }) (v : Int) : ∃ y,
      (u.modRes pk g.ctx g.ctxsel (fun r => { r with tree := r.tree.put g.output v })).pkt? pk = some y ∧ y.vd.a.tree.find? g.output = some v ∧
      u.modRes pk g.ctx g.ctxsel (fun r => { r with tree := r.tree.put g.output v }) = { s with
        regs := (u.modRes pk g.ctx g.ctxsel (fun r => { r with tree := r.tree.put g.output v })).regs,
        pkts := (u.modRes pk g.ctx g.ctxsel (fun r => { r with tree := r.tree.put g.output v })).pkts } := by
    have hm : u.modRes pk g.ctx g.ctxsel (fun r => { r with tree := r.tree.put g.output v }) =
        { u with pkts := u.pkts.put pk (some { x with vd := { x.vd with a := { x.vd.a with tree := x.vd.a.tree.put g.output v } } }) } := by
      rw [State.modRes, State.modPkt_some hu]
      simp [hsel, hen, hctx]
    rw [hm]
    refine ⟨_, State.pkt?_put .., Tbl.find?_put_self .., ?_⟩
    rw [hus]
  rw [execOutputConversion, h]
  simp only [hg, hv]
  rw [if_neg Bool.false_ne_true]
  by_cases hsat : (convertOut g.desc g.sum).2 = true
  · obtain ⟨y, hy⟩ := hres (s.bump Reg.FLOCK.OUT_SAT f.val) (by simpa [State.pkt?] using hx) (by simp [State.eq_iff]) (convertOut g.desc g.sum).1
    exact ⟨_, y, by rw [if_pos hsat], hy⟩
  · obtain ⟨y, hy⟩ := hres s hx rfl (convertOut g.desc g.sum).1
    exact ⟨_, y, by rw [if_neg hsat], hy⟩

/-! ### The gather of jobs -/

theorem execDieGather_none (s : State) (c : CtxNum) (o : Fin 16) (h : (s.ctxs.get c.val).treeVersion = none) : execDieGather c o s = .next s := by
  rw [execDieGather, h]

theorem State.setDieSum (u : State) (k : Nat) (r : Int) (h : u.tree.dieSums = s.tree.dieSums ∧ u = { s with regs := u.regs, tree := u.tree }) :
    ∃ (t : State) (x : Int), (.next { u with tree := { u.tree with dieSums := u.tree.dieSums.set k r } } : Host.Outcome State Fault Refusal) = .next t ∧
      t.tree.dieSums = s.tree.dieSums.set k x ∧ t = { s with regs := t.regs, tree := t.tree } := by
  obtain ⟨hd, hu⟩ := h
  refine ⟨_, r, rfl, congrArg (Tbl.set · _ _) hd, ?_⟩
  rw [hu]

theorem execDieGather_sums (s : State) (c : CtxNum) (o : Fin 16) (v : Version) (h : (s.ctxs.get c.val).treeVersion = some v)
    (hf : ∀ f ∈ v.flocks, s.tree.jobFull.get f = s.time.beat + 1) (hc : ∀ f ∈ v.flocks, ∀ k ∈ v.treeCores f, s.coreVoid f k = false) :
    ∃ t x, execDieGather c o s = .next t ∧ t.tree.dieSums = s.tree.dieSums.set (c.val * 16 + o.val) x ∧ t = { s with regs := t.regs, tree := t.tree } := by
  rw [execDieGather]
  simp -zeta only [h]
  extract_lets lists bad entries sums desc u
  have hl : ¬ (lists.any (fun f => decide (s.tree.jobFull.get f ≠ s.time.beat + 1)) = true) := by
    simp only [List.any_eq_true, decide_eq_true_eq, not_exists, not_and, not_not]
    exact fun f hm => hf f (List.mem_of_mem_filter hm)
  have hb : bad = [] := by
    refine List.flatMap_eq_nil_iff.mpr fun f hm => ?_
    rw [List.map_eq_nil_iff, List.filter_eq_nil_iff]
    exact fun k hk => by simp [hc f hm k hk]
  rw [if_neg hl, if_neg (not_not.mpr hb)]
  have hu : u.tree.dieSums = s.tree.dieSums ∧ u = { s with regs := u.regs, tree := u.tree } :=
    keeps_ite (P := fun u : State => u.tree.dieSums = s.tree.dieSums ∧ u = { s with regs := u.regs, tree := u.tree })
      ⟨by simp, by simp [State.eq_iff]⟩ ⟨rfl, rfl⟩
  exact State.setDieSum u (c.val * 16 + o.val) _ hu

theorem execDieGather_void (s : State) (c : CtxNum) (o : Fin 16) (v : Version) (h : (s.ctxs.get c.val).treeVersion = some v)
    (hv : ∃ f ∈ v.flocks, ∃ k ∈ v.treeCores f, s.coreVoid f k = true) : ∃ t, execDieGather c o s = .next t ∧ t.tree = s.tree ∧ t.regs = s.regs := by
  rw [execDieGather]
  simp -zeta only [h]
  extract_lets lists bad entries sums desc
  have hb : bad ≠ [] := by
    obtain ⟨f, hf, k, hk, hkv⟩ := hv
    exact List.ne_nil_of_mem (List.mem_flatMap.mpr ⟨f, hf, List.mem_map_of_mem (List.mem_filter.mpr ⟨hk, hkv⟩)⟩)
  split
  · exact ⟨s, rfl, rfl, rfl⟩
  · obtain ⟨hr, -, -, ht⟩ := s.losesWork_workLost c.val v.kind 2 (fun i => bad.any (s.invHolds i))
    exact ⟨_, rfl, ht, hr⟩

/-! ### Commands of the host -/

theorem execTreeWdReq_marks (s : State) (src : Source) (f : Flock) (c : Fin 64) (h : s.Takes src) (hu : s.treeUsed f.val c.val = false) :
    ∃ t, execTreeWdReq src f c s = .next t ∧ (t.flocks.get f.val).wdTree = (s.flocks.get f.val).wdTree ||| (1#64 <<< c.val) ∧
      ({ s with flocks := t.flocks } : State).WriteOnly t ∧ (∀ g, g ≠ f.val → t.flocks.get g = s.flocks.get g) := by
  refine ⟨_, s.basicCmd_takes _ h, ?_⟩
  have hw : (s.wrote src).treeUsed f.val c.val = false := by simpa [State.treeUsed, State.versions] using hu
  rw [if_neg (by simp [hw])]
  refine ⟨by simp, by simp [State.writeOnly_iff], fun g hg => ?_⟩
  simp [Tbl.get_set_ne _ _ hg]

theorem execTreeWdReq_used (s : State) (src : Source) (f : Flock) (c : Fin 64) (h : s.Takes src) (hu : s.treeUsed f.val c.val = true) :
    ∃ t, execTreeWdReq src f c s = .next t ∧ s.WriteOnly t := by
  refine ⟨_, s.basicCmd_takes _ h, ?_⟩
  have hw : (s.wrote src).treeUsed f.val c.val = true := by simpa [State.treeUsed, State.versions] using hu
  rw [if_pos hw]
  simp [State.writeOnly_iff]

theorem execTreeOff_waits (s : State) (src : Source) (f : Flock) (m : DWord) (h : s.TakesExpert src) :
    ∃ t, execTreeOff src f m s = .next t ∧ s.Queued t (.treeOff f.val m) ∧ t.rd Reg.FLOCK.TREE_OFF f.val = m.toNat ∧ s.WriteLater t := by
  refine ⟨_, s.expertCmd_takes _ _ _ _ h, ?_, ?_, ?_⟩
  · simp [State.Queued]
  · rw [State.rd_later, State.rd_wr_self]
    exact Nat.mod_eq_of_lt m.isLt
  · simp [State.writeLater_iff]

/-- Settles O12. -/
theorem treeCommands : Obligations.TreeCommands :=
  ⟨execTreeIssue_bubble, execTreeIssue_evaluates, execPartialAdd_retires, execTreeReload_not, execTreeReload_reloads, execGather_none, execGather_short,
    execGather_full, execOutputConversion_sets, execDieGather_none, execDieGather_sums, execDieGather_void, execTreeWdReq_marks, execTreeWdReq_used,
    execTreeOff_waits⟩

end Sys2Proof.Machine
end

section
/-! PROOF. Beat programs, posts and waits (R130, R131, R134, R143, R222, R225): O13. -/

namespace Sys2Proof.Machine

-- One thread for the proofs, which bounds the memory that checking them takes.
set_option Elab.async false

open Sys2Proof

variable {s t u : State}

/-! ### What an instruction's issue writes -/

/-- A wait that ends is counted in the registers; nothing else changes. -/
theorem State.countWait_eq (s : State) (c : ACoreId) : s.countWait c = { s with regs := (s.countWait c).regs } := by
  rw [State.countWait]
  split
  · rfl
  · rw [State.bump, State.wr]

theorem State.countWait_none (s : State) (c : ACoreId) (h : (s.acore c).waitAt = none) : s.countWait c = s := by
  rw [State.countWait, h]

/-- The core after the issue of the instruction at its program counter. -/
def State.issued (s : State) (c : ACoreId) (counted : Bool) (n : Nat) : ACore :=
  { s.acore c with
    pc := (s.acore c).pc + 1, next := s.islNow c.flock.val + n, waitAt := none,
    opc := (s.acore c).opc.issue (s.islNow c.flock.val)
      (if counted then some (bits (s.instrWord c (s.acore c).pc) 96 16, bits (s.instrWord c (s.acore c).pc) 112 16) else none) }

theorem State.issueInstr_eq (s : State) (c : ACoreId) (counted : Bool) (n : Nat) :
    s.issueInstr c counted n = ({ s with regs := (s.countWait c).regs } : State).setAcore c (s.issued c counted n) := by
  rw [State.issueInstr, s.countWait_eq c]
  rfl

@[simp] theorem State.acore_setAcore (s : State) (c : ACoreId) (k : ACore) : (s.setAcore c k).acore c = k := Tbl.get_set_self _ _ _

theorem State.acore_issueInstr (s : State) (c : ACoreId) (counted : Bool) (n : Nat) : (s.issueInstr c counted n).acore c = s.issued c counted n := by
  rw [State.issueInstr_eq, State.acore_setAcore]

theorem State.cores_modAcore_ne (s : State) (c : ACoreId) (g : ACore → ACore) {n : Nat} (h : n ≠ c.num) :
    (s.modAcore c g).arr.cores.get n = s.arr.cores.get n := by
  rw [State.modAcore, State.setAcore, Tbl.get_set_ne _ _ h]

/-- An issue writes its own core and the count of a wait. -/
theorem State.issueInstr_frame (s : State) (c : ACoreId) (counted : Bool) (n : Nat) : ∃ r x, s.issueInstr c counted n = { s with
    regs := r, arr := { s.arr with cores := s.arr.cores.set c.num x } } ∧ ((s.acore c).waitAt = none → r = s.regs) ∧ x = s.issued c counted n := by
  refine ⟨(s.countWait c).regs, s.issued c counted n, s.issueInstr_eq c counted n, fun h => ?_, rfl⟩
  rw [s.countWait_none c h]

/-- An instruction issues on a running core that does not wait. -/
theorem State.coreIssues_spec {c : ACoreId} {w : Nat} (h : s.coreIssues c w = true) :
    c.exists_ = true ∧ s.flockIssues c.flock.val = true ∧ (s.acore c).running = true ∧ (s.acore c).wait = none := by
  simp only [State.coreIssues, Bool.and_eq_true, Option.isNone_iff_eq_none] at h
  obtain ⟨⟨⟨⟨⟨⟨he, hf⟩, hr⟩, hw⟩, -⟩, -⟩, -⟩ := h
  exact ⟨he, hf, hr, hw⟩

theorem clkMhz_ne_issueWait (f g : Flock) : Reg.AGE.CLK_MHZ.key 0 0 (32 + g.val) ≠ Reg.FLOCK.ISSUE_WAIT.key f.val 0 0 := by
  refine Field.key_ne_of_page (by decide) (by decide) (by decide) (by omega) (by decide) (by decide) ?_
  have h8 : pageBase Reg.AGE.CLK_MHZ.block 0 = 36864 := rfl
  have h48 : pageBase Reg.FLOCK.ISSUE_WAIT.block 0 = 1048576 := rfl
  rw [pageBase_eq _ f.val, h8, h48]
  omega

theorem State.islMhz_countWait (s : State) (c : ACoreId) (f : Flock) : (s.countWait c).islMhz f.val = s.islMhz f.val := by
  have hr : (s.countWait c).rd Reg.AGE.CLK_MHZ 0 0 (32 + f.val) = s.rd Reg.AGE.CLK_MHZ 0 0 (32 + f.val) := by
    rw [State.countWait]
    split
    · rfl
    · exact State.rd_bump_ne _ _ _ _ _ _ _ _ _ _ (clkMhz_ne_issueWait _ _)
  rw [State.islMhz, State.islMhz, hr]

/-- An issue leaves the flock's clock alone. -/
theorem State.islNow_issueInstr (s : State) (c : ACoreId) (counted : Bool) (n : Nat) (f : Flock) :
    (s.issueInstr c counted n).islNow f.val = s.islNow f.val := by
  have hm : (s.issueInstr c counted n).islMhz f.val = s.islMhz f.val := by
    rw [← s.islMhz_countWait c f, s.issueInstr_eq]
    rfl
  obtain ⟨r, x, ht, -, -⟩ := s.issueInstr_frame c counted n
  rw [State.islNow, State.islNow, State.islStart, State.islStart, State.islCycle, State.islCycle, State.islLen, State.islLen, hm, ht]

theorem State.servedFirst_congr {c : ACoreId} (e : Nat) (hc : t.arr.cells = s.arr.cells) (hw : ∀ n, (t.arr.cores.get n).wait = (s.arr.cores.get n).wait) :
    t.servedFirst c e = s.servedFirst c e := by
  simp only [State.servedFirst, State.cell, hc, hw]
  rfl

theorem State.servedFirst_issueInstr (s : State) (c : ACoreId) (e : Nat) (counted : Bool) (n : Nat) :
    (s.issueInstr c counted n).servedFirst c e = s.servedFirst c e := by
  obtain ⟨r, x, h, -, hx⟩ := s.issueInstr_frame c counted n
  rw [h]
  refine State.servedFirst_congr e rfl fun k => ?_
  by_cases hk : k = c.num
  · subst hk
    have hxw : x.wait = (s.acore c).wait := by rw [hx, State.issued]
    exact (congrArg ACore.wait (Tbl.get_set_self s.arr.cores c.num x)).trans hxw
  · exact congrArg ACore.wait (Tbl.get_set_ne s.arr.cores x hk)

/-! ### Programs -/

theorem execBeatProgramStart_starts (s u : State) (c : ACoreId) (h : u = s.land c.flock) (he : ACoreId.exists_ c = true)
    (hf : u.flockIssues c.flock.val = true) (h0 : u.islCycle c.flock.val = 0) (hr : (u.acore c).running = false)
    (hb : (u.acore c).startBeat = u.time.beat → (u.acore c).pc = 0) :
    ∃ t, execBeatProgramStart c s = .next t ∧
      t.acore c = { u.acore c with running := true, pc := 0, wait := none, waitAt := none, startBeat := u.time.beat, next := u.islNow c.flock.val } ∧
      (∀ n, n ≠ c.num → t.arr.cores.get n = u.arr.cores.get n) ∧ t = { u with arr := { u.arr with cores := t.arr.cores } } := by
  rw [execBeatProgramStart, ← h]
  dsimp only
  rw [if_neg]
  · exact ⟨_, rfl, u.acore_modAcore c _, fun n hn => u.cores_modAcore_ne c _ hn, rfl⟩
  · simpa [he, hf, h0, hr] using hb

theorem execCoreNop_issues (s u : State) (c : ACoreId) (h : u = s.land c.flock) (hi : u.coreIssues c 0 = true) :
    ∃ t, execCoreNop c s = .next t ∧ (t.acore c).pc = (u.acore c).pc + 1 ∧ (t.acore c).running = true ∧ (t.acore c).next = u.islNow c.flock.val + 1 ∧
      t.arr.mem = u.arr.mem ∧ t = { u with regs := t.regs, arr := t.arr } ∧ ((u.acore c).waitAt = none → t.regs = u.regs) := by
  obtain ⟨-, -, hr, -⟩ := State.coreIssues_spec hi
  have hk := u.acore_issueInstr c false 1
  obtain ⟨r, x, ht, hw, -⟩ := u.issueInstr_frame c false 1
  refine ⟨u.issueInstr c false, ?_, ?_, ?_, ?_, ?_⟩
  · rw [execCoreNop, ← h]
    exact if_pos hi
  · rw [hk, State.issued]
  · rw [hk, State.issued, hr]
  · rw [hk, State.issued]
  · rw [ht]
    exact ⟨rfl, rfl, hw⟩

theorem execBeatProgramEnd_ends (s u : State) (c : ACoreId) (h : u = s.land c.flock) (hi : u.coreIssues c endWord = true) :
    ∃ t, execBeatProgramEnd c s = .next t ∧ (t.acore c).running = false ∧ t.arr.mem = u.arr.mem ∧ t = { u with regs := t.regs, arr := t.arr } ∧
      ((u.acore c).waitAt = none → t.regs = u.regs) := by
  obtain ⟨r, x, ht, hw, -⟩ := u.issueInstr_frame c false 1
  refine ⟨(u.issueInstr c false).modAcore c (fun k => { k with running := false }), ?_, ?_, ?_⟩
  · rw [execBeatProgramEnd, ← h]
    exact if_neg (not_not.mpr hi)
  · rw [State.acore_modAcore]
  · rw [ht]
    exact ⟨rfl, rfl, hw⟩

/-! ### FORM -/

/-- A bit that was set is what it was set to, in a field wide enough for it. -/
theorem bits_setBits_bit (v : Nat) {j w x : Nat} (hj : j < w) (hx : x < 2) : bits (setBits v j 1 x % 2 ^ w) j 1 = x := by
  obtain ⟨k, rfl⟩ := Nat.exists_eq_add_of_lt hj
  have hm : setBits v j 1 x = 2 ^ j * (v / 2 ^ j - v / 2 ^ j % 2 + x) + v % 2 ^ j := by
    have hv := Nat.div_add_mod v (2 ^ j)
    have hle : v / 2 ^ j % 2 * 2 ^ j ≤ 2 ^ j * (v / 2 ^ j) := by
      rw [Nat.mul_comm]
      exact Nat.mul_le_mul_left _ (Nat.mod_le _ _)
    rw [setBits, bits, pow_one, Nat.mod_eq_of_lt hx, Nat.mul_add, Nat.mul_sub, Nat.mul_comm (2 ^ j) (v / 2 ^ j % 2), Nat.mul_comm (2 ^ j) x]
    omega
  have hd : setBits v j 1 x / 2 ^ j = v / 2 ^ j - v / 2 ^ j % 2 + x := by
    rw [hm, Nat.mul_add_div (Nat.two_pow_pos j), Nat.div_eq_of_lt (Nat.mod_lt v (Nat.two_pow_pos j)), Nat.add_zero]
  rw [bits, Nat.add_assoc, pow_add, Nat.mod_mul_right_div_self, hd, pow_one, Nat.mod_mod_of_dvd _ (dvd_pow_self 2 (Nat.succ_ne_zero k))]
  omega

theorem execForm_sets (s u : State) (c : ACoreId) (ws : Bool) (h : u = s.land c.flock) (hi : u.coreIssues c (formWord ws) = true) (hb : c.bulk = true) :
    ∃ t, execForm c ws s = .next t ∧ (t.acore c).ws = ws ∧ (t.acore c).next = u.islNow c.flock.val + 4 ∧
      bits (t.rd Reg.FLOCK.WS_FORM c.flock.val) c.core.val 1 = b2n ws ∧ t = { u with regs := t.regs, arr := t.arr } := by
  obtain ⟨he, -⟩ := State.coreIssues_spec hi
  have hj : c.core.val < 8 := by simpa [ACoreId.exists_, hb] using he
  obtain ⟨r, x, ht, -, hx⟩ := u.issueInstr_frame c false 4
  have hk : ((u.issueInstr c false 4).modAcore c (fun k => { k with ws := ws })).acore c = { u.issued c false 4 with ws := ws } := by
    rw [State.acore_modAcore, u.acore_issueInstr]
  have hf : (u.issueInstr c false 4).modAcore c (fun k => { k with ws := ws }) = { u with
      regs := ((u.issueInstr c false 4).modAcore c (fun k => { k with ws := ws })).regs,
      arr := ((u.issueInstr c false 4).modAcore c (fun k => { k with ws := ws })).arr } := by
    rw [ht]
    rfl
  rw [execForm, ← h]
  simp only [hi, hb, not_true_eq_false, or_self, if_false]
  generalize (u.issueInstr c false 4).modAcore c (fun k => { k with ws := ws }) = v at hk hf
  refine ⟨_, rfl, ?_, ?_, ?_, ?_⟩
  · exact congrArg ACore.ws hk
  · exact congrArg ACore.next hk
  · rw [State.rd_wr_self]
    exact bits_setBits_bit _ hj (by cases ws <;> decide)
  · rw [hf]
    rfl

/-! ### Posts -/

theorem State.cell_setCell (s : State) (f e v : Nat) (h : e < 248) : (s.setCell f e v).cell f e = v := by
  rw [State.setCell, if_neg (Nat.not_le.mpr h)]
  exact Tbl.get_set_self _ _ _

theorem State.setCell_eq (s : State) (f e v : Nat) : s.setCell f e v = { s with arr := { s.arr with cells := (s.setCell f e v).arr.cells } } := by
  rw [State.setCell]
  split <;> rfl

theorem State.cells_setCell_ne (s : State) (f e v : Nat) {k : Nat} (hk : k ≠ cellKey f e) :
    (s.setCell f e v).arr.cells.get k = s.arr.cells.get k := by
  rw [State.setCell]
  split
  · rfl
  · dsimp only
    rw [Tbl.get_set_ne _ _ hk]

theorem State.acore_setCell (s : State) (f e v : Nat) (c : ACoreId) : (s.setCell f e v).acore c = s.acore c := by
  rw [s.setCell_eq f e v]
  rfl

/-- With no transfer of the core in flight every post is made. -/
theorem State.releasePosts_all (s : State) (c : ACoreId) (hd : ∀ a < 4, s.arr.drains.get (arrKey c a) = []) (hr : s.herd.remote = []) :
    ∃ k, k.pc = (s.acore c).pc ∧ s.releasePosts c = { s with arr := { s.arr with
      cores := s.arr.cores.set c.num k,
      posts := s.arr.posts.set c.flock.val (s.arr.posts.get c.flock.val ++
        (s.acore c).posts.map (fun p => (p.1, p.2.1, Nat.max (s.islNow c.flock.val) ((s.acore c).landAt + 1)))) } } := by
  have hl : (List.range 4).flatMap (fun a => (s.arr.drains.get (arrKey c a)).map (·.seq)) ++ (s.herd.remote.filter (·.core == c)).map (·.seq) = [] := by
    rw [hr, List.filter_nil, List.map_nil, List.append_nil, List.flatMap_eq_nil_iff]
    exact fun a ha => by rw [hd a (List.mem_range.mp ha), List.map_nil]
  rw [State.releasePosts]
  simp only [hl, List.all_nil, List.filter_true]
  exact ⟨{ s.acore c with posts := (s.acore c).posts.filter (fun _ => !true) }, rfl, rfl⟩

theorem execSyncp_posts (s u : State) (c : ACoreId) (e : Fin 256) (n : Fin 16) (h : u = s.land c.flock) (hi : u.coreIssues c (syncpWord e n) = true)
    (hp : (u.acore c).posts = []) (hd : ∀ a < 4, u.arr.drains.get (arrKey c a) = []) (hr : u.herd.remote = []) :
    ∃ t, execSyncp c e n s = .next t ∧ (t.acore c).pc = (u.acore c).pc + 1 ∧
      t.arr.posts.get c.flock.val = u.arr.posts.get c.flock.val ++ [(e.val, n.val + 1, Nat.max (u.islNow c.flock.val) ((u.acore c).landAt + 1))] ∧
      t.arr.cells = u.arr.cells ∧ t = { u with regs := t.regs, arr := t.arr } := by
  have hi' : (u.issueInstr c false).acore c = u.issued c false 1 := u.acore_issueInstr c false 1
  obtain ⟨r, x, ht, -, -⟩ := u.issueInstr_frame c false 1
  have hv : ∃ v : State, v = (u.issueInstr c false).modAcore c (fun k => { k with posts := k.posts ++ [(e.val, n.val + 1, k.seq, u.time.beat)] }) ∧
      v.arr.drains = u.arr.drains ∧ v.herd = u.herd ∧ v.arr.posts = u.arr.posts ∧ v.arr.cells = u.arr.cells ∧ v.islNow c.flock.val = u.islNow c.flock.val ∧
      v.acore c = { u.issued c false 1 with posts := [(e.val, n.val + 1, (u.acore c).seq, u.time.beat)] } ∧ v = { u with regs := v.regs, arr := v.arr } := by
    refine ⟨_, rfl, ?_, ?_, ?_, ?_, (u.islNow_issueInstr c false 1 c.flock).symm ▸ rfl, ?_, ?_⟩
    · rw [ht]
      rfl
    · rw [ht]
      rfl
    · rw [ht]
      rfl
    · rw [ht]
      rfl
    · rw [State.acore_modAcore, hi']
      simp [State.issued, hp]
    · rw [ht]
      rfl
  obtain ⟨v, hv, hdr, hh, hps, hce, hnow, hk, hf⟩ := hv
  obtain ⟨k, hpc, hrel⟩ := v.releasePosts_all c (by rwa [hdr]) (by rwa [hh])
  refine ⟨v.releasePosts c, ?_, ?_, ?_, ?_, ?_⟩
  · rw [execSyncp, ← h, hv]
    exact if_neg (not_not.mpr hi)
  · rw [hrel]
    exact (congrArg ACore.pc (Tbl.get_set_self v.arr.cores c.num k)).trans (by rw [hpc, hk, State.issued])
  · rw [hrel]
    exact (Tbl.get_set_self v.arr.posts _ _).trans (by rw [hps, hk, hnow]; rfl)
  · rw [hrel]
    exact hce
  · rw [hrel, hf]

theorem execSyncPostEffect_adds (s u : State) (f : Flock) (e made : Nat) (rest : List (Nat × Nat × Nat)) (h : u = s.land f)
    (hf : u.flockRuns f.val = true) (hp : u.arr.posts.get f.val = (e, 1, made) :: rest) (hm : made + 3 ≤ u.islNow f.val) (he : e < 248)
    (hc : u.cell f.val e ≠ 65535) :
    ∃ t, execSyncPostEffect f s = .next t ∧ t.cell f.val e = u.cell f.val e + 1 ∧ t.arr.posts.get f.val = rest ∧ t = { u with arr := t.arr } ∧
      (∀ k, k ≠ cellKey f.val e → t.arr.cells.get k = u.arr.cells.get k) := by
  rw [execSyncPostEffect, ← h]
  simp only [hp, hf, not_true_eq_false, false_or]
  rw [if_neg (Nat.not_lt.mpr hm)]
  have hv : (u.arr.posts.set f.val rest).get f.val = rest := Tbl.get_set_self _ _ _
  generalize u.arr.posts.set f.val rest = ps at hv
  obtain ⟨w, hw, hwc, hwp, a, ha⟩ : ∃ w : State, ({ u with arr := { u.arr with posts := ps } } : State) = w ∧ w.arr.cells = u.arr.cells ∧
    w.arr.posts = ps ∧ ∃ a, w = { u with arr := a } := ⟨_, rfl, rfl, rfl, _, rfl⟩
  rw [hw]
  have hcell : w.cell f.val e = u.cell f.val e := by rw [State.cell, State.cell, hwc]
  have hs := w.setCell_eq f.val e (u.cell f.val e + 1)
  rw [State.postSpan, List.range_one, List.foldl_cons, List.foldl_nil, Nat.add_zero, State.postCell, if_neg (by rwa [hcell]), hcell]
  refine ⟨_, rfl, w.cell_setCell _ _ _ he, ?_, ?_, fun k hk => (w.cells_setCell_ne _ _ _ hk).trans (congrArg (Tbl.get · k) hwc)⟩
  · rw [hs]
    exact (congrArg (Tbl.get · _) hwp).trans hv
  · generalize w.setCell f.val e (u.cell f.val e + 1) = y at hs
    rw [hs, ha]

theorem State.ovfMiss_arr (s : State) (f : Flock) : (s.ovfMiss f).arr = s.arr := by
  rw [State.ovfMiss]
  split
  · rfl
  · have hu : ({ s with flocks := s.flocks.mod f.val (fun x => { x with ovf := s.time.beat + 1 }) } : State).arr = s.arr := rfl
    generalize ({ s with flocks := s.flocks.mod f.val (fun x => { x with ovf := s.time.beat + 1 }) } : State) = u at hu
    have h := u.countMiss_flock f
    rw [State.ReportsOnly] at h
    exact (State.later_arr _ _).trans ((congrArg State.arr h).trans hu)

theorem execSyncPostEffect_full (s u : State) (f : Flock) (e made : Nat) (rest : List (Nat × Nat × Nat)) (h : u = s.land f)
    (hf : u.flockRuns f.val = true) (hp : u.arr.posts.get f.val = (e, 1, made) :: rest) (hm : made + 3 ≤ u.islNow f.val) (hc : u.cell f.val e = 65535) :
    ∃ t, execSyncPostEffect f s = .next t ∧ t.cell f.val e = 65535 ∧ t.arr.posts.get f.val = rest ∧ t.arr.cells = u.arr.cells := by
  rw [execSyncPostEffect, ← h]
  simp only [hp, hf, not_true_eq_false, false_or]
  rw [if_neg (Nat.not_lt.mpr hm)]
  have hv : (u.arr.posts.set f.val rest).get f.val = rest := Tbl.get_set_self _ _ _
  generalize u.arr.posts.set f.val rest = ps at hv
  have hc' : ({ u with arr := { u.arr with posts := ps } } : State).cell f.val e = 65535 := hc
  rw [State.postSpan, List.range_one, List.foldl_cons, List.foldl_nil, Nat.add_zero, State.postCell, if_pos hc']
  refine ⟨_, rfl, ?_, ?_, ?_⟩
  · rw [State.cell, State.ovfMiss_arr, State.bump_arr]
    exact hc
  · rw [State.ovfMiss_arr, State.bump_arr]
    exact hv
  · rw [State.ovfMiss_arr, State.bump_arr]

theorem execSyncPostEffect_early (s : State) (f : Flock) (e n made : Nat) (rest : List (Nat × Nat × Nat))
    (h : (s.land f).arr.posts.get f.val = (e, n, made) :: rest) (hm : (s.land f).islNow f.val < made + 3) :
    execSyncPostEffect f s = .next (s.land f) := by
  rw [execSyncPostEffect]
  generalize s.land f = u at h hm
  simp only [h, hm, or_true, if_true]

/-! ### Waits -/

theorem State.cell_issueInstr (s : State) (c : ACoreId) (counted : Bool) (n f e : Nat) : (s.issueInstr c counted n).cell f e = s.cell f e := by
  rw [State.issueInstr_eq]
  rfl

/-- A wait whose cell holds its count goes on at once, and takes the count. -/
theorem execSyncw_satisfied (s u : State) (c : ACoreId) (e : Fin 256) (n : BitVec 16) (h : u = s.land c.flock)
    (hi : u.coreIssues c (syncwWord e n) = true) (hn : n.toNat ≤ u.cell c.flock.val e.val) (hs : u.servedFirst c e.val = false) :
    execSyncw c e n s = .next ((u.issueInstr c false).setCell c.flock.val e.val (u.cell c.flock.val e.val - n.toNat)) := by
  rw [execSyncw, ← h]
  simp only [hi, not_true_eq_false, if_false, State.cell_issueInstr, State.servedFirst_issueInstr]
  rw [if_pos ⟨hn, Or.inr (by simp [hs])⟩]

theorem execSyncw_takes (s u : State) (c : ACoreId) (e : Fin 256) (n : BitVec 16) (h : u = s.land c.flock)
    (hi : u.coreIssues c (syncwWord e n) = true) (hn : n.toNat ≤ u.cell c.flock.val e.val) (hs : u.servedFirst c e.val = false) (he : e.val < 248) :
    ∃ t, execSyncw c e n s = .next t ∧ (t.acore c).pc = (u.acore c).pc + 1 ∧ (t.acore c).wait = none ∧
      t.cell c.flock.val e.val + n.toNat = u.cell c.flock.val e.val ∧ t = { u with regs := t.regs, arr := t.arr } := by
  obtain ⟨-, -, -, hw⟩ := State.coreIssues_spec hi
  refine ⟨_, execSyncw_satisfied s u c e n h hi hn hs, ?_, ?_, ?_, ?_⟩
  · rw [State.acore_setCell, State.acore_issueInstr, State.issued]
  · rw [State.acore_setCell, State.acore_issueInstr, State.issued, hw]
  · rw [State.cell_setCell _ _ _ _ he]
    exact Nat.sub_add_cancel hn
  · rw [State.setCell_eq, State.issueInstr_eq]
    rfl

theorem execSyncw_constant (s u : State) (c : ACoreId) (e : Fin 256) (n : BitVec 16) (h : u = s.land c.flock)
    (hi : u.coreIssues c (syncwWord e n) = true) (hn : n.toNat ≤ u.cell c.flock.val e.val) (hs : u.servedFirst c e.val = false) (he : 248 ≤ e.val) :
    ∃ t, execSyncw c e n s = .next t ∧ (t.acore c).wait = none ∧ t.arr.cells = u.arr.cells := by
  obtain ⟨-, -, -, hw⟩ := State.coreIssues_spec hi
  refine ⟨_, execSyncw_satisfied s u c e n h hi hn hs, ?_, ?_⟩
  · rw [State.acore_setCell, State.acore_issueInstr, State.issued, hw]
  · rw [State.setCell, if_pos he, State.issueInstr_eq]
    rfl

theorem execSyncw_waits (s u : State) (c : ACoreId) (e : Fin 256) (n : BitVec 16) (h : u = s.land c.flock)
    (hi : u.coreIssues c (syncwWord e n) = true)
    (hn : u.cell c.flock.val e.val < n.toNat ∨ (n ≠ 0 ∧ u.servedFirst c e.val = true)) :
    ∃ t, execSyncw c e n s = .next t ∧ (t.acore c).wait = some (e.val, n.toNat) ∧ t.arr.cells = u.arr.cells ∧
      t = { u with regs := t.regs, arr := t.arr } := by
  have hno : ¬ (n.toNat ≤ u.cell c.flock.val e.val ∧ (n = 0 ∨ ¬ u.servedFirst c e.val = true)) := by
    rintro ⟨h1, h2⟩
    rcases hn with hn | ⟨h3, h4⟩
    · exact absurd h1 (Nat.not_le.mpr hn)
    · exact h2.elim h3 (fun h5 => h5 h4)
  refine ⟨(u.issueInstr c false).modAcore c (fun k => { k with wait := some (e.val, n.toNat) }), ?_, ?_, ?_, ?_⟩
  · rw [execSyncw, ← h]
    simp only [hi, not_true_eq_false, if_false, State.cell_issueInstr, State.servedFirst_issueInstr]
    rw [if_neg hno]
  · rw [State.acore_modAcore]
  · rw [State.issueInstr_eq]
    rfl
  · rw [State.issueInstr_eq]
    rfl

theorem execSyncwSatisfied_takes (s u : State) (c : ACoreId) (e n : Nat) (h : u = s.land c.flock) (hw : (u.acore c).wait = some (e, n))
    (hf : u.flockIssues c.flock.val = true) (hn : n ≤ u.cell c.flock.val e) (hs : u.servedFirst c e = false) (he : e < 248) :
    ∃ t, execSyncwSatisfied c s = .next t ∧ (t.acore c).wait = none ∧ t.cell c.flock.val e + n = u.cell c.flock.val e ∧ t = { u with arr := t.arr } := by
  refine ⟨(u.setCell c.flock.val e (u.cell c.flock.val e - n)).modAcore c (fun k => { k with wait := none }), ?_, ?_, ?_, ?_⟩
  · rw [execSyncwSatisfied, ← h]
    simp only [hw, hf, hs, not_true_eq_false, Bool.false_eq_true, or_false, false_or]
    rw [if_neg (Nat.not_lt.mpr hn)]
  · rw [State.acore_modAcore]
  · have hc := u.cell_setCell c.flock.val e (u.cell c.flock.val e - n) he
    generalize u.setCell c.flock.val e (u.cell c.flock.val e - n) = v at hc
    exact (congrArg (· + n) hc).trans (Nat.sub_add_cancel hn)
  · rw [State.setCell_eq]
    rfl

theorem execSyncwSatisfied_not (s u : State) (c : ACoreId) (e n : Nat) (h : u = s.land c.flock) (hw : (u.acore c).wait = some (e, n))
    (hn : u.cell c.flock.val e < n ∨ u.servedFirst c e = true) : execSyncwSatisfied c s = .next u := by
  rw [execSyncwSatisfied, ← h]
  simp only [hw]
  exact if_pos (Or.inr hn)

/-- Settles O13. -/
theorem beatProgramCommands : Obligations.BeatProgramCommands :=
  ⟨execBeatProgramStart_starts, execCoreNop_issues, execBeatProgramEnd_ends, execForm_sets, execSyncp_posts, execSyncPostEffect_adds,
    execSyncPostEffect_full, execSyncPostEffect_early, execSyncw_takes, execSyncw_constant, execSyncw_waits, execSyncwSatisfied_takes,
    execSyncwSatisfied_not⟩

end Sys2Proof.Machine
end

section
/-! PROOF. Feature programs and vectors (R88, R89, R100, R104, R106, R117): O9. -/

namespace Sys2Proof.Machine

-- One thread for the proofs, which bounds the memory that checking them takes.
set_option Elab.async false

open Sys2Proof

variable {s t u : State}

/-! ### The start of a program -/

/-- The counters of a start, before the packet and the core are written. -/
def State.featCounted (s : State) (x : Pkt) : State :=
  if s.misB x ∨ s.misF x then (s.bump Reg.LANE.FEAT_PKTS x.i.lane).bump Reg.LANE.FSET_MISMATCH x.i.lane else s.bump Reg.LANE.FEAT_PKTS x.i.lane

theorem State.featCounted_spec (s : State) (x : Pkt) :
    s.featCounted x = { s with regs := (s.featCounted x).regs } ∧ s.Counts (s.featCounted x) Reg.LANE.FEAT_PKTS x.i.lane := by
  rw [State.featCounted]
  split
  · exact ⟨rfl, by simp (disch := decide) [State.Counts, State.rd_bump_bit]⟩
  · exact ⟨rfl, by simp [State.Counts]⟩

/-- A packet whose program starts. -/
def Pkt.starts (x : Pkt) (mb mf : Bool) (u : Option (Nat × Bool)) : Pkt :=
  { x with ft := { x.ft with ran := true, mismB := mb, mismF := mf, fset := u.map (·.1), half := (u.map (·.2)).getD false } }

/-- A packet whose program cannot start: its vector is void, and FEAT_PARITY is among its reasons. -/
def Pkt.featBad (x : Pkt) : Pkt :=
  { x with ft := { x.ft with voidVec := true, houtOpen := true }, vd := { x.vd with reasons := 20 :: x.vd.reasons } }

section
variable {pk : PktId} {x : Pkt} (h : s.pkt? pk = some x) (hn : x.ft.ran = false) (hr : s.runsProgram x = true) (hb : s.time.beat = x.i.b + 1)
  (hp : (s.lanes.get x.i.lane).pass = false) (hl : (s.fcores.get x.fcore).reload = false)
include h hn hr hb hp hl

theorem execFeatureProgram_starts : ∃ t y, execFeatureProgram pk false s = .next t ∧ t.pkt? pk = some y ∧ y.ft.ran = true ∧ y.i = x.i ∧ y.lk = x.lk ∧
    t.fcores = s.fcores.set x.fcore { s.fcores.get x.fcore with pkt := some pk, pc := 0, regs := [], absent := false, outs := [], hout := [], flags := 0 } ∧
    s.Counts t Reg.LANE.FEAT_PKTS x.i.lane ∧ t = { s with regs := t.regs, pkts := t.pkts, fcores := t.fcores } := by
  obtain ⟨hf, hc⟩ := s.featCounted_spec x
  unfold execFeatureProgram
  simp -zeta only [h]
  extract_lets l mb mf s1 s2 v s3 k
  rw [if_neg (by simp [hn, hr, hb, hp, hl]), if_neg Bool.false_ne_true]
  have h2 : s2 = s.featCounted x := rfl
  have hx2 : s2.pkt? pk = some x := by
    rw [h2, hf]
    exact h
  have h3 : s3 = { s2 with pkts := s2.pkts.put pk (some (x.starts mb mf v)) } := State.modPkt_some hx2 _
  have hk : k = s.fcores.get x.fcore := by
    change s3.fcores.get x.fcore = _
    rw [h3, h2, hf]
  clear_value k s3 v
  rw [← h2] at hf hc
  refine ⟨_, x.starts mb mf v, rfl, ?_, rfl, rfl, rfl, ?_, ?_, ?_⟩
  · rw [h3]
    exact s2.pkt?_put pk _
  · rw [hk, h3, hf]
  · rw [h3]
    exact hc
  · rw [h3, hf]

theorem execFeatureProgram_parity : ∃ t y, execFeatureProgram pk true s = .next t ∧ t.pkt? pk = some y ∧ y.ft.ran = true ∧ y.ft.voidVec = true ∧
    20 ∈ y.vd.reasons ∧ (t.fcores.get x.fcore).reload = true ∧ (t.fcores.get x.fcore).faults = (s.fcores.get x.fcore).faults + 1 ∧
    ((s.fcores.get x.fcore).faults = 0 → t.acts = s.acts) ∧
    ((s.fcores.get x.fcore).faults ≠ 0 → s.Queued t (.lanePassOne x.i.lane true)) := by
  obtain ⟨hf, hc⟩ := s.featCounted_spec x
  unfold execFeatureProgram
  simp -zeta only [h]
  extract_lets l mb mf s1 s2 v s3 k s4 s5 s6
  rw [if_neg (by simp [hn, hr, hb, hp, hl]), if_pos trivial]
  have h2 : s2 = s.featCounted x := rfl
  have hx2 : s2.pkt? pk = some x := by
    rw [h2, hf]
    exact h
  have h3 : s3 = { s2 with pkts := s2.pkts.put pk (some (x.starts mb mf v)) } := State.modPkt_some hx2 _
  have hk : k = s.fcores.get x.fcore := by
    change s3.fcores.get x.fcore = _
    rw [h3, h2, hf]
  have hx4 : (s3.bump Reg.LANE.FEAT_PARITY l).pkt? pk = some (x.starts mb mf v) := by
    rw [State.pkt?_congr (t := s3.bump Reg.LANE.FEAT_PARITY l) rfl, h3]
    exact s2.pkt?_put pk _
  have h4 : s4.pkt? pk = some (x.starts mb mf v).featBad ∧ s4.acts = s.acts := by
    have h4 : s4 = { s3.bump Reg.LANE.FEAT_PARITY l with pkts := (s3.bump Reg.LANE.FEAT_PARITY l).pkts.put pk (some (x.starts mb mf v).featBad) } :=
      State.modPkt_some hx4 _
    rw [h4, h3, h2, hf]
    exact ⟨State.pkt?_put _ pk _, rfl⟩
  have h6 : s6.pkt? pk = some (x.starts mb mf v).featBad ∧ s6.acts = s.acts ∧
      s6.fcores.get x.fcore = { k with pkt := none, faults := k.faults + 1, reload := true } := by
    obtain ⟨hp4, ha4⟩ := h4
    exact ⟨by simpa [s6, s5, State.pkt?] using hp4, by simpa [s6, s5] using ha4, by simp [s6, s5]⟩
  obtain ⟨hp6, ha6, hf6⟩ := h6
  clear_value s6
  refine ⟨_, (x.starts mb mf v).featBad, rfl, ?_, rfl, rfl, List.mem_cons_self, ?_, ?_, fun h0 => ?_, fun h0 => ?_⟩
  · split
    · exact hp6
    · exact hp6
  · split
    · rw [hf6]
    · rw [State.later_fcores, hf6]
  · rw [← hk]
    split
    · rw [hf6]
    · rw [State.later_fcores, hf6]
  · rw [if_pos (by rw [hk, h0]), ha6]
  · rw [if_neg (by rwa [hk]), State.Queued, ← ha6]
    rfl

end

/-! ### The reload of a core -/

theorem execFeatureCoreReload_not (s : State) (c : FCoreId) (h : (s.fcore c).reload = false) : execFeatureCoreReload c s = .next s := by
  simp [execFeatureCoreReload, h]

theorem Tbl.find?_filter_key {α : Type} (m : Tbl α) (p : Nat → Bool) {k : Nat} (h : p k = true) :
    Tbl.find? (m.filter (fun e => p e.1)) k = m.find? k := by
  induction m with
  | nil => rfl
  | cons e m ih =>
    obtain ⟨a, v⟩ := e
    by_cases ha : a = k
    · subst ha
      simp [h, Tbl.find?]
    · by_cases hp : p a = true
      · simp [hp, Tbl.find?, ha, ih]
      · simp [hp, Tbl.find?, ha, ih]

theorem Tbl.find?_foldl_put {α : Type} (l : Tbl α) (m : Tbl α) {k : Nat} (h : l.find? k = none) :
    (l.foldl (fun t e => t.put e.1 e.2) m).find? k = m.find? k := by
  induction l generalizing m with
  | nil => rfl
  | cons e l ih =>
    obtain ⟨a, v⟩ := e
    rw [Tbl.find?] at h
    split at h
    · exact absurd h nofun
    next ha => exact (ih _ h).trans (Tbl.find?_put_ne m v (Ne.symm ha))

theorem execFeatureCoreReload_reloads (s : State) (c : FCoreId) (h : (s.fcore c).reload = true) :
    ∃ t, execFeatureCoreReload c s = .next t ∧ t = { s with fcores := t.fcores } ∧ (t.fcore c).reload = false ∧ (t.fcore c).pc = (s.fcore c).pc ∧
      (t.fcore c).faults = (s.fcore c).faults ∧
      (∀ n, n / 16 ≠ b2n s.fhalf → s.reloadSets.find? n = none → (t.fcore c).own.find? n = (s.fcore c).own.find? n) ∧
      (∀ k, k ≠ FCoreId.key c → t.fcores.get k = s.fcores.get k) := by
  unfold execFeatureCoreReload
  extract_lets k other
  rw [if_neg (not_not.mpr h)]
  have hk : ∀ x : FCore, ({ s with fcores := s.fcores.set (FCoreId.key c) x } : State).fcore c = x := fun x => Tbl.get_set_self _ _ _
  refine ⟨_, rfl, rfl, ?_, ?_, ?_, fun n hn hr => ?_, fun j hj => ?_⟩
  · rw [hk]
  · rw [hk]
  · rw [hk]
  · rw [hk]
    exact (Tbl.find?_foldl_put _ _ hr).trans (Tbl.find?_filter_key k.own (fun a => decide (a / 16 ≠ b2n s.fhalf)) (decide_eq_true hn))
  · exact Tbl.get_set_ne s.fcores _ hj

/-! ### The assembler -/

theorem State.OnlyFields.refl (s : State) (ks : List Nat) : s.OnlyFields s ks := ⟨rfl, fun _ _ => rfl⟩

theorem State.OnlyFields.trans {ks : List Nat} (h : s.OnlyFields t ks) (h' : t.OnlyFields u ks) : s.OnlyFields u ks :=
  ⟨by rw [h'.1, h.1], fun k hk => (h'.2 k hk).trans (h.2 k hk)⟩

theorem State.onlyFields_countSkips (s : State) (c mv : Nat) : s.OnlyFields (s.countSkips c mv) [Reg.CTX.SHADOW_SKIP.key 0 0 0] := by
  unfold State.countSkips
  extract_lets n
  split
  · exact .refl _ _
  · refine ⟨rfl, fun k hk => ?_⟩
    rw [State.bump, State.find_wr_ne _ _ _ _ _ _ _ (by simpa using hk)]

/-- A step over some packets leaves the acts, the cores and the queues. -/
theorem State.foldl_modPkt_frame (ks : List PktId) (g : Pkt → Pkt) (s : State) : ks.foldl (fun t k => t.modPkt k g) s =
    { s with pkts := (ks.foldl (fun t k => t.modPkt k g) s).pkts } := by
  induction ks generalizing s with
  | nil => rfl
  | cons k ks ih =>
    rw [List.foldl_cons, ih (s.modPkt k g), State.modPkt]
    split <;> rfl

theorem State.foldl_modPkt_acts (ks : List PktId) (g : Pkt → Pkt) (s : State) : (ks.foldl (fun t k => t.modPkt k g) s).acts = s.acts ∧
    (ks.foldl (fun t k => t.modPkt k g) s).fcores = s.fcores ∧ (ks.foldl (fun t k => t.modPkt k g) s).eg = s.eg := by
  rw [State.foldl_modPkt_frame]
  exact ⟨rfl, rfl, rfl⟩

section
variable {pk : PktId} {x : Pkt} (h : s.pkt? pk = some x) (hr : x.ft.ran = true) (hv : x.ft.vec = none)
  (hen : Rule.enA x.lk.act = true ∨ Rule.enB x.lk.act = true) (hb : s.time.beat = x.i.b + 1) (hc : (s.fcores.get x.fcore).pkt ≠ some pk)
include h hr hv hen hb hc

theorem execVectorAssemble_makes (hvv : x.ft.voidVec = false) :
    ∃ t y v, execVectorAssemble pk false s = .next t ∧ t.pkt? pk = some y ∧ y.ft.vec = some v ∧ v.length = 512 ∧
      ({ s with pkts := t.pkts } : State).OnlyFields t [Reg.CTX.SHADOW_SKIP.key 0 0 0] ∧
      (∀ j < 512, v.getD j 0 = s.slotValue x ((s.fsets.get (b2n x.ft.half * 16 + x.ft.fset.getD 0)).slotMap.getD j 0)) := by
  unfold execVectorAssemble
  simp -zeta only [h]
  extract_lets ks s1 fs slots s2 s3
  rw [if_neg (by simp [hr, hv, hb, hc, hen]), if_neg Bool.false_ne_true, if_neg (by simp [hvv])]
  have h2 : s2 = { s with pkts := s.pkts.put pk (some { x with ft := { x.ft with vec := some slots } }) } := State.modPkt_some h _
  have h3 : s2.OnlyFields s3 [Reg.CTX.SHADOW_SKIP.key 0 0 0] := keeps_ite (P := fun u => s2.OnlyFields u _) (State.onlyFields_countSkips _ _ _) (.refl _ _)
  have hslots : slots.length = 512 ∧
      ∀ j < 512, slots.getD j 0 = s.slotValue x ((s.fsets.get (b2n x.ft.half * 16 + x.ft.fset.getD 0)).slotMap.getD j 0) := by
    refine ⟨by simp [slots], fun j hj => ?_⟩
    simp [slots, fs, List.getD_eq_getElem?_getD, hj]
  clear_value s3 slots
  obtain ⟨w, hw, hwo⟩ : ∃ w, w = (if Rule.enB x.lk.act ∧ ¬ x.ft.mismB then s3.countSkips (Rule.ctxB x.lk.act) x.ft.mvB else s3) ∧
      s2.OnlyFields w [Reg.CTX.SHADOW_SKIP.key 0 0 0] := ⟨_, rfl, keeps_ite (P := fun u => s2.OnlyFields u _) (h3.trans (State.onlyFields_countSkips _ _ _)) h3⟩
  rw [← hw]
  have hp : w.pkts = s2.pkts := by rw [hwo.1]
  refine ⟨w, { x with ft := { x.ft with vec := some slots } }, slots, rfl, ?_, rfl, hslots.1, ?_, hslots.2⟩
  · rw [State.pkt?_congr hp, h2]
    exact State.pkt?_put _ _ _
  · have hs2 : ({ s with pkts := w.pkts } : State) = s2 := by rw [hp, h2]
    rw [hs2]
    exact hwo

theorem execVectorAssemble_parity : ∃ t, execVectorAssemble pk true s = .next t ∧ s.Queued t (.lanePassOne x.i.lane true) ∧ t.fcores = s.fcores ∧
    t.eg = s.eg := by
  unfold execVectorAssemble
  split
  next hx => exact absurd (h.symm.trans hx) nofun
  next y hx =>
  obtain rfl : x = y := Option.some.inj (h.symm.trans hx)
  extract_lets ks s1 fs slots s2 s3
  rw [if_neg (by simp [hr, hv, hb, hc, hen]), if_pos rfl]
  obtain ⟨ha, hf, he⟩ : s1.acts = s.acts ∧ s1.fcores = s.fcores ∧ s1.eg = s.eg := State.foldl_modPkt_acts ks _ s
  clear_value s1
  have hq (r : FaultRec) (b : Act) : s.Queued ((s1.fault r).later b) b ∧ ((s1.fault r).later b).fcores = s.fcores ∧ ((s1.fault r).later b).eg = s.eg := by
    refine ⟨?_, ?_, ?_⟩
    · rw [State.Queued, ← ha, ← s1.fault_acts r]
      rfl
    · rw [State.later_fcores, s1.fault_fcores, hf]
    · rw [State.later_eg, s1.fault_eg, he]
  exact ⟨_, rfl, hq _ _⟩

end

theorem State.pkt?_modPkt_ne (s : State) {j k : PktId} (f : Pkt → Pkt) (h : k ≠ j) : (s.modPkt j f).pkt? k = s.pkt? k := by
  rw [State.modPkt]
  split
  · exact congrArg Option.join (Tbl.find?_put_ne s.pkts _ h)
  · rfl

/-- A packet is handed over, or will be at its place in the list. -/
theorem State.foldl_handed (ks : List PktId) {k : PktId} (h : ∃ y, s.pkt? k = some y ∧ (y.ft.handed = true ∨ k ∈ ks)) :
    ∃ y, (ks.foldl (fun t k => t.modPkt k (fun x => { x with ft := { x.ft with handed := true } })) s).pkt? k = some y ∧ y.ft.handed = true := by
  induction ks generalizing s with
  | nil =>
    obtain ⟨y, hy, h1 | h1⟩ := h
    · exact ⟨y, hy, h1⟩
    · exact absurd h1 List.not_mem_nil
  | cons j ks ih =>
    obtain ⟨y, hy, h1⟩ := h
    refine ih ?_
    by_cases hj : k = j
    · subst hj
      exact ⟨_, s.pkt?_modPkt_self hy _, Or.inl rfl⟩
    · refine ⟨y, ?_, h1.imp_right (fun hm => (List.mem_cons.mp hm).resolve_left hj)⟩
      rw [State.pkt?_modPkt_ne _ _ hj, hy]

theorem execVectorHandover_hands (s : State) (l : Lane) : ∃ t, execVectorHandover l s = .next t ∧ t = { s with pkts := t.pkts } ∧
    (∀ k x, s.pkt? k = some x → x.i.lane = l.val → x.i.b + 1 = s.time.beat → x.ft.ran = true → (k, some x) ∈ s.pkts →
      ∃ y, t.pkt? k = some y ∧ y.ft.handed = true) := by
  refine ⟨_, rfl, State.foldl_modPkt_frame _ _ s, fun k x hk hl hb hr hm => State.foldl_handed _ ⟨x, hk, Or.inr ?_⟩⟩
  have hres : (k, x) ∈ s.resident := List.mem_filterMap.mpr ⟨_, hm, rfl⟩
  exact List.mem_map.mpr ⟨(k, x), List.mem_filter.mpr ⟨hres, by simp [hl, hb, hr]⟩, rfl⟩

/-! ### The crossing -/

theorem State.placeVec_spec (s : State) (pk : PktId) (v : List Word) (e : Option (Nat × Nat)) :
    s.placeVec pk v e = { s with tree := (s.placeVec pk v e).tree } := by
  unfold State.placeVec
  split <;> rfl

theorem execVectorCross_crosses (s : State) (pk : PktId) (x : Pkt) (v : List Word) (h : s.pkt? pk = some x) (hv : x.ft.vec = some v)
    (hc : s.crosses x = true) : ∃ t y, execVectorCross pk false s = .next t ∧ t.pkt? pk = some y ∧ y = { x with ft := { x.ft with crossed := true } } ∧
    s.Counts t Reg.LANE.VEC_SENT x.i.lane ∧ t = { s with regs := t.regs, pkts := t.pkts, tree := t.tree } := by
  rw [execVectorCross, h]
  simp only [hv, hc, not_true_eq_false, if_false, Bool.false_eq_true]
  rw [State.modPkt_some h]
  have hu : (({ s with pkts := s.pkts.put pk (some { x with ft := { x.ft with crossed := true } }) } : State).bump Reg.LANE.VEC_SENT x.i.lane).pkt? pk =
    some { x with ft := { x.ft with crossed := true } } := State.pkt?_put s pk _
  have hc : s.Counts (({ s with pkts := s.pkts.put pk (some { x with ft := { x.ft with crossed := true } }) } : State).bump Reg.LANE.VEC_SENT x.i.lane)
    Reg.LANE.VEC_SENT x.i.lane := State.rd_bump ..
  have hf : ∃ r m, ({ s with pkts := s.pkts.put pk (some { x with ft := { x.ft with crossed := true } }) } : State).bump Reg.LANE.VEC_SENT x.i.lane =
    { s with regs := r, pkts := m } := ⟨_, _, rfl⟩
  generalize ({ s with pkts := s.pkts.put pk (some { x with ft := { x.ft with crossed := true } }) } : State).bump Reg.LANE.VEC_SENT x.i.lane = u at *
  obtain ⟨r, m, hf⟩ := hf
  refine ⟨_, _, rfl, ?_, rfl, ?_, ?_⟩
  · rw [State.placeVec_spec, State.placeVec_spec]
    refine hu.trans ?_
    dsimp only
    rw [hv]
  · rw [State.placeVec_spec, State.placeVec_spec]
    exact hc
  · rw [State.placeVec_spec, State.placeVec_spec, hf]

/-! ### The history entry -/

theorem State.hbmWrite_frame (s : State) (a : Nat) (bs : List Byte) : s.hbmWrite a bs = { s with hbm := (s.hbmWrite a bs).hbm, flt := (s.hbmWrite a bs).flt } := by
  simp [State.eq_iff]

theorem State.cycLate_pkts (s : State) (m : Tbl (Option Pkt)) : ({ s with pkts := m } : State).cycLate = s.cycLate := rfl

theorem State.lineProtected_pkts (s : State) (m : Tbl (Option Pkt)) : ({ s with pkts := m } : State).lineProtected = s.lineProtected := rfl

theorem execHistoryWrite_writes (s : State) (pk : PktId) (x : Pkt) (p : Nat) (h : s.pkt? pk = some x) (hp : x.lk.histPos = some p)
    (hh : x.ft.handed = true) (ho : x.ft.houtOpen = false) (hc : s.cycLate = [])
    (hl : (linesOf (s.regionBase 1 + 2048 * x.lk.histRing + 64 * p) 64).any s.lineProtected = false) :
    ∃ t y, execHistoryWrite pk s = .next t ∧ t.pkt? pk = some y ∧ y.lk.histPos = none ∧
      t.hbm = Mem.writeN s.hbm (s.regionBase 1 + 2048 * x.lk.histRing + 64 * p) ((List.range 64).map (fun i => x.ft.hout.get i)) ∧
      t = { s with pkts := t.pkts, hbm := t.hbm, flt := t.flt } := by
  rw [execHistoryWrite, h]
  simp only [hp, hh, ho, not_true_eq_false, if_false, Bool.false_eq_true]
  rw [State.modPkt_some h]
  generalize s.regionBase 1 + 2048 * x.lk.histRing + 64 * p = a at hl ⊢
  have hlen : ((List.range 64).map (fun i => x.ft.hout.get i)).length = 64 := by simp
  have hu : ∃ u : State, u = { s with pkts := s.pkts.put pk (some { x with lk := { x.lk with histPos := none } }) } ∧
      u.pkt? pk = some { x with lk := { x.lk with histPos := none } } ∧ u.hbm = s.hbm ∧ u.cycLate = [] ∧
      (linesOf a 64).any u.lineProtected = false ∧ ∃ m, u = { s with pkts := m } :=
    ⟨_, rfl, State.pkt?_put s pk _, rfl, (s.cycLate_pkts _).trans hc, by rw [s.lineProtected_pkts, hl], _, rfl⟩
  obtain ⟨u, hu, hup, huh, huc, hul, m, hf⟩ := hu
  rw [← hu]
  clear hu
  generalize (List.range 64).map (fun i => x.ft.hout.get i) = bs at hlen
  rw [← hlen] at hul
  refine ⟨_, { x with lk := { x.lk with histPos := none } }, rfl, ?_, rfl, ?_, ?_⟩
  · rw [State.pkt?_congr (State.hbmWrite_pkts _ _ _), hup]
  · rw [State.hbmWrite_hbm _ _ _ ?_ huc, huh]
    exact hul
  · obtain ⟨b, l, hw⟩ : ∃ b l, u.hbmWrite a bs = { u with hbm := b, flt := l } := ⟨_, _, u.hbmWrite_frame a bs⟩
    rw [hw, hf]

/-- Settles O9. -/
theorem featurePrograms : Obligations.FeaturePrograms :=
  ⟨fun _ _ _ h hn hr hb hp hl => execFeatureProgram_starts h hn hr hb hp hl, fun _ _ _ h hn hr hb hp hl => execFeatureProgram_parity h hn hr hb hp hl,
    execFeatureCoreReload_not, execFeatureCoreReload_reloads, fun _ _ _ h hr hv hvv hen hb hc => execVectorAssemble_makes h hr hv hen hb hc hvv,
    fun _ _ _ h hr hv hen hb hc => execVectorAssemble_parity h hr hv hen hb hc, execVectorHandover_hands, execVectorCross_crosses, execHistoryWrite_writes⟩

end Sys2Proof.Machine
end

section
/-! PROOF. Verdicts and release (R32, R51, R53, R144, R186, R192, R198, R199): O16. -/

namespace Sys2Proof.Machine

-- One thread for the proofs, which bounds the memory that checking them takes.
set_option Elab.async false

open Sys2Proof

variable {s0 s t u : State} {pk : PktId} {x : Pkt} {β : Type}

/-! ### Results of a packet's contexts -/

theorem State.voidSet_spec (s : State) (c b why : Nat) : ∃ m, s.voidSet c b why = { s with ctxs := m } := by
  unfold State.voidSet
  extract_lets x
  split
  · exact ⟨s.ctxs, rfl⟩
  · exact ⟨_, rfl⟩

/-- A void result of a packet is among its reasons; its results stand. -/
theorem State.noteVoid_spec (h : s.pkt? pk = some x) (b c : Nat) (r : CtxRes) : ∃ y, (s.noteVoid pk b c r).pkt? pk = some y ∧ y.vd.a = x.vd.a ∧
    y.vd.b = x.vd.b ∧ y.i = x.i ∧ (s.noteVoid pk b c r).eg = s.eg ∧ (s.noteVoid pk b c r).regs = s.regs := by
  rw [State.noteVoid]
  split
  next why hw =>
    obtain ⟨m, hm⟩ := State.voidSet_spec (s.modPkt pk (fun x => { x with vd := { x.vd with reasons := x.vd.reasons ++ [why] } })) c b why
    rw [hm]
    have hf := s.modPkt_frame pk (fun x => { x with vd := { x.vd with reasons := x.vd.reasons ++ [why] } })
    exact ⟨_, State.pkt?_modPkt_self h _, rfl, rfl, rfl, hf.1, hf.2.2.2⟩
  next => exact ⟨x, h, rfl, rfl, rfl, rfl, rfl⟩

theorem execVerdictForm_forms (s : State) (pk : PktId) (x : Pkt) (v : Version) (h : s.pkt? pk = some x) (hr : x.vd.released = false)
    (hb : x.i.b + 4 ≤ s.time.beat) (ha : x.vd.a.formed = false) (hbf : x.vd.b.formed = false) (hva : s.runA x = some v) (hvb : s.runB x = none) :
    ∃ t y, execVerdictForm pk false s = .next t ∧ t.pkt? pk = some y ∧ y.vd.a = formRes v x.lateWhy x.vd.a ∧ y.vd.b = x.vd.b ∧ y.i = x.i ∧
      t.eg = s.eg ∧ t.regs = s.regs := by
  have hno : ¬ ((x.vd.released ∧ ¬ x.vd.bypass) ∨ s.time.beat < x.i.b + 4 ∨ x.vd.a.formed ∨ x.vd.b.formed) := by
    simp [hr, ha, hbf, hb]
  rw [execVerdictForm]
  simp only [h, if_neg hno, hva, hvb, Bool.false_eq_true, false_and, if_false, Option.map_some, Option.map_none, Option.getD_some, Option.getD_none]
  have hp := State.pkt?_modPkt_self h (fun y => { y with vd := { y.vd with a := formRes v x.lateWhy x.vd.a } })
  have hf := s.modPkt_frame pk (fun y => { y with vd := { y.vd with a := formRes v x.lateWhy x.vd.a } })
  generalize s.modPkt pk (fun y => { y with vd := { y.vd with a := formRes v x.lateWhy x.vd.a } }) = u at hp hf
  obtain ⟨y, hy, hya, hyb, hyi, heg, hrg⟩ := State.noteVoid_spec hp x.i.b (Rule.ctxA x.lk.act) (formRes v x.lateWhy x.vd.a)
  exact ⟨_, y, rfl, hy, hya, hyb, hyi, heg.trans hf.1, hrg.trans hf.2.2.2⟩

theorem execVerdictForm_early (s : State) (pk : PktId) (x : Pkt) (h : s.pkt? pk = some x) (hb : s.time.beat < x.i.b + 4) :
    execVerdictForm pk false s = .next s := by
  simp [execVerdictForm, h, hb]

/-! ### The deadline -/

/-- One packet of a flock at the deadline. -/
def State.returnLate (t : State) (pk : PktId) : State :=
  match t.pkt? pk with
  | none => t
  | some x =>
    if x.i.b + 4 ≠ t.time.beat ∨ t.time.cycle < 192 then t
    else
      let late (v : Option Version) (r : CtxRes) : Bool := (v.map (fun v => decide (v.comb ≠ 0) && r.missing v)).getD false
      t.modPkt pk (fun x => { x with vd := { x.vd with
        a := if late (t.runA x) x.vd.a then x.vd.a.voided x.lateWhy else x.vd.a,
        b := if late (t.runB x) x.vd.b then x.vd.b.voided x.lateWhy else x.vd.b } })

theorem execReturnDeadline_eq (s : State) (f : Flock) : execReturnDeadline f s =
    .next ((((List.range 64).map (fun i => s.tree.gset.get (f.val * 64 + i))).reduceOption).foldl State.returnLate s) := rfl

theorem State.returnLate_early (s : State) (pk : PktId) (h : s.time.cycle < 192) : s.returnLate pk = s := by
  rw [State.returnLate]
  split
  · rfl
  · rw [if_pos (Or.inr h)]

theorem State.returnLate_frame (s : State) (pk : PktId) : ∃ m, s.returnLate pk = { s with pkts := m } := by
  rw [State.returnLate]
  split
  · exact ⟨s.pkts, rfl⟩
  next x hx =>
    split
    · exact ⟨s.pkts, rfl⟩
    · dsimp only
      rw [State.modPkt_some hx]
      exact ⟨_, rfl⟩

theorem State.returnLate_ne (s : State) {j k : PktId} (h : k ≠ j) : (s.returnLate j).pkt? k = s.pkt? k := by
  rw [State.returnLate]
  split
  · rfl
  · split
    · rfl
    · exact s.pkt?_modPkt_ne _ h

/-- What a missing result waits for: the packet is as it was, and among those still to come, or it is void. -/
def State.Voids (s : State) (pk : PktId) (x : Pkt) (ks : List PktId) (t : State) : Prop :=
  (∃ m, t = { s with pkts := m }) ∧ ∃ y, t.pkt? pk = some y ∧ y.i = x.i ∧ (y.vd.a.void.isSome = true ∨ (y = x ∧ pk ∈ ks))

theorem State.runA_pkts (s : State) (m : Tbl (Option Pkt)) (x : Pkt) : ({ s with pkts := m } : State).runA x = s.runA x := rfl

theorem State.returnLate_late {v : Version} (h : s.pkt? pk = some x) (hb : x.i.b + 4 = s.time.beat) (hc : 192 ≤ s.time.cycle) (hv : s.runA x = some v)
    (hn : v.comb ≠ 0) (hm : x.vd.a.missing v = true) : ∃ y, (s.returnLate pk).pkt? pk = some y ∧ y.i = x.i ∧ y.vd.a.void.isSome = true := by
  rw [State.returnLate, h]
  dsimp only
  rw [if_neg (by simp [hb, hc])]
  refine ⟨_, State.pkt?_modPkt_self h _, rfl, ?_⟩
  simp [hv, hn, hm, CtxRes.voided]

theorem State.returnLate_void (h : s.pkt? pk = some x) (hv : x.vd.a.void.isSome = true) : ∃ y, (s.returnLate pk).pkt? pk = some y ∧ y.i = x.i ∧
    y.vd.a.void.isSome = true := by
  rw [State.returnLate, h]
  dsimp only
  split
  · exact ⟨x, h, rfl, hv⟩
  · refine ⟨_, State.pkt?_modPkt_self h _, rfl, ?_⟩
    dsimp only
    split
    · rfl
    · exact hv

theorem State.Voids.foldl {v : Version} (hb : x.i.b + 4 = s.time.beat) (hc : 192 ≤ s.time.cycle) (hv : s.runA x = some v) (hn : v.comb ≠ 0)
    (hm : x.vd.a.missing v = true) (ks : List PktId) (h : s.Voids pk x ks t) : s.Voids pk x [] (ks.foldl State.returnLate t) := by
  induction ks generalizing t with
  | nil => exact h
  | cons j ks ih =>
    obtain ⟨⟨m, hm'⟩, y, hy, hyi, hvoid⟩ := h
    refine ih ⟨?_, ?_⟩
    · obtain ⟨m2, h2⟩ := t.returnLate_frame j
      rw [h2, hm']
      exact ⟨m2, rfl⟩
    · by_cases hj : pk = j
      · subst hj
        have hvd : ∃ z, (t.returnLate pk).pkt? pk = some z ∧ z.i = y.i ∧ z.vd.a.void.isSome = true := by
          rcases hvoid with h1 | ⟨rfl, -⟩
          · exact State.returnLate_void hy h1
          · subst hm'
            exact State.returnLate_late hy hb hc hv hn hm
        obtain ⟨z, hz, hzi, hzv⟩ := hvd
        exact ⟨z, hz, hzi.trans hyi, Or.inl hzv⟩
      · exact ⟨y, (t.returnLate_ne hj).trans hy, hyi, hvoid.imp_right (fun h => ⟨h.1, (List.mem_cons.mp h.2).resolve_left hj⟩)⟩

theorem execReturnDeadline_voids (s : State) (f : Flock) : ∃ t, execReturnDeadline f s = .next t ∧ t = { s with pkts := t.pkts } ∧
    (s.time.cycle < 192 → t = s) ∧
    (∀ (i : Nat) (pk : PktId) (x : Pkt) (v : Version), i < 64 → s.tree.gset.get (f.val * 64 + i) = some pk → s.pkt? pk = some x → x.i.b + 4 = s.time.beat →
      192 ≤ s.time.cycle → s.runA x = some v → v.comb ≠ 0 → x.vd.a.missing v = true → ∃ y, t.pkt? pk = some y ∧ y.vd.a.void.isSome = true ∧ y.i = x.i) := by
  refine ⟨_, execReturnDeadline_eq s f, ?_, fun hc => ?_, fun i pk x v hi hg hx hb hc hv hn hm => ?_⟩
  · generalize ((List.range 64).map (fun i => s.tree.gset.get (f.val * 64 + i))).reduceOption = ks
    induction ks generalizing s with
    | nil => rfl
    | cons k ks ih =>
      obtain ⟨m, hm⟩ := s.returnLate_frame k
      rw [List.foldl_cons, ih (s.returnLate k), hm]
  · generalize ((List.range 64).map (fun i => s.tree.gset.get (f.val * 64 + i))).reduceOption = ks
    induction ks with
    | nil => rfl
    | cons k ks ih => rw [List.foldl_cons, s.returnLate_early k hc, ih]
  · have hmem : pk ∈ ((List.range 64).map (fun i => s.tree.gset.get (f.val * 64 + i))).reduceOption := by
      rw [List.reduceOption_mem_iff]
      exact List.mem_map.mpr ⟨i, List.mem_range.mpr hi, hg⟩
    obtain ⟨-, y, hy, hyi, hvoid⟩ := State.Voids.foldl hb hc hv hn hm _ ⟨⟨s.pkts, rfl⟩, x, hx, rfl, Or.inr ⟨rfl, hmem⟩⟩
    exact ⟨y, hy, hvoid.resolve_right (fun h => absurd h.2 List.not_mem_nil), hyi⟩

/-! ### What the steps of a verdict leave as it was -/

/-- Packets, queues, lanes stand while a verdict is counted. -/
def State.Notes (s t : State) : Prop := t.pkts = s.pkts ∧ t.eg = s.eg ∧ t.lanes = s.lanes

theorem State.Notes.bump (h : s0.Notes s) {f : Field} {i j k n : Nat} : s0.Notes (s.bump f i j k n) := by
  obtain ⟨h1, h2, h3⟩ := h
  exact ⟨by simpa using h1, by simpa using h2, by simpa using h3⟩

theorem State.Notes.voidSet (h : s0.Notes s) {c b why : Nat} : s0.Notes (s.voidSet c b why) := by
  obtain ⟨m, hm⟩ := s.voidSet_spec c b why
  rw [hm]
  exact h

theorem State.Notes.noteVoids (h : s0.Notes s) : s0.Notes (s.noteVoids x) := by
  have hone (t : State) (c : Nat) (v : Option Version) (r : CtxRes) (ht : s0.Notes t) :
      s0.Notes (match v, r.void with | some _, some why => t.voidSet c x.i.b why | _, _ => t) := by
    split
    · exact ht.voidSet
    · exact ht
  exact hone _ _ _ _ (hone _ _ _ _ h)

/-- The same of the state in a pair. -/
def State.NotesSnd (s0 : State) (p : β × State) : Prop := s0.Notes p.2

theorem State.Notes.snd {b : β} (h : s0.Notes s) : s0.NotesSnd (b, s) := h

theorem State.NotesSnd.of_eq {p : β × State} {b : β} (e : p = (b, t)) (h : s0.NotesSnd p) : s0.Notes t := by
  subst e
  exact h

theorem State.Notes.countVerdict {f : Final} (h : s0.Notes s) : s0.Notes (s.countVerdict x f) := by
  unfold State.countVerdict
  extract_lets _ _ s3
  have h3 : s0.Notes s3 := h.bump
  exact keeps_ite h (keeps_ite h3.bump h3)

theorem State.Notes.countApplied {f : Final} (h : s0.Notes s) : s0.Notes (s.countApplied x f) := by
  unfold State.countApplied
  extract_lets s1 s2
  have h1 : s0.Notes s1 := keeps_ite h.bump h
  have h2 : s0.Notes s2 := keeps_ite h1.bump (keeps_ite h1.bump h1.bump)
  exact keeps_ite h2.bump h2

/-- What is final of a packet. -/
def Pkt.final (x : Pkt) : Bool × Bool × Bool × Nat := (x.vd.released, x.vd.safe, x.vd.fwd, x.vd.code)

/-- What is final of the packet stands. -/
def State.Stands (pk : PktId) (s t : State) : Prop := (t.pkt? pk).map Pkt.final = (s.pkt? pk).map Pkt.final

theorem State.Stands.trans (h : s.Stands pk t) (h' : t.Stands pk u) : s.Stands pk u := Eq.trans h' h

theorem State.Stands.of_pkts (hs : s0.Stands pk s) (h : t.pkts = s.pkts) : s0.Stands pk t := by
  rw [State.Stands, State.pkt?_congr h]
  exact hs

theorem State.Stands.modPkt (hs : s0.Stands pk s) (k : PktId) {g : Pkt → Pkt} (hg : ∀ y, (g y).final = y.final) : s0.Stands pk (s.modPkt k g) := by
  refine hs.trans ?_
  rw [State.Stands]
  by_cases hk : pk = k
  · subst hk
    rcases hp : s.pkt? pk with _ | y
    · rw [State.modPkt, hp]
      exact congrArg (Option.map Pkt.final) hp
    · rw [State.pkt?_modPkt_self hp, Option.map_some, Option.map_some, hg]
  · rw [s.pkt?_modPkt_ne g hk]

theorem State.Stands.finishPkt (hs : s0.Stands pk s) {k : PktId} : s0.Stands pk (s.finishPkt k) := by
  unfold State.finishPkt
  split
  · exact hs
  · extract_lets s1 s2
    have h1 : s0.Stands pk s1 := hs.modPkt k fun _ => rfl
    have h2 : s0.Stands pk s2 := keeps_ite (h1.of_pkts (by simp)) h1
    exact keeps_ite hs (h2.of_pkts (by simp))

theorem State.Stands.destDone (hs : s0.Stands pk s) {k : PktId} {lost : Bool} : s0.Stands pk (s.destDone k lost) := by
  unfold State.destDone
  split
  · exact hs
  · extract_lets n s1
    have h1 : s0.Stands pk s1 := hs.modPkt k fun _ => rfl
    exact keeps_ite h1.finishPkt h1

theorem State.Stands.frameDone (hs : s0.Stands pk s) {fr : EgFrame} {lost : Bool} : s0.Stands pk (s.frameDone fr lost) := by
  unfold State.frameDone
  split
  · exact hs.destDone
  · exact keeps_ite hs (hs.of_pkts (by simp))

/-- The same of the state in a pair. -/
def State.StandsFst (pk : PktId) (s0 : State) (p : State × β) : Prop := s0.Stands pk p.1

theorem State.Stands.fst {b : β} (h : s0.Stands pk s) : s0.StandsFst pk (s, b) := h

theorem State.StandsFst.of_eq {p : State × β} {b : β} (e : p = (t, b)) (h : s0.StandsFst pk p) : s0.Stands pk t := by
  subst e
  exact h

theorem State.Stands.offer (hs : s0.Stands pk s) {port q : Nat} {fr : EgFrame} : s0.StandsFst pk (s.offer port q fr) := by
  unfold State.offer
  extract_lets _ s2 s3
  have h3 : s0.Stands pk s3 := hs.of_pkts rfl
  refine keeps_ite ?_ (State.Stands.fst (hs.of_pkts (by simp [State.modQ])))
  refine State.Stands.fst ?_
  split
  · exact h3.modPkt _ fun _ => rfl
  · exact h3

theorem State.Stands.offerInj (hs : s0.Stands pk s) {port q : Nat} {fr : EgFrame} : s0.Stands pk (s.offerInj port q fr) := by
  unfold State.offerInj
  extract_lets
  split
  · rename_i s2 e2
    exact State.StandsFst.of_eq e2 hs.offer
  · rename_i s2 e2
    exact (State.StandsFst.of_eq e2 hs.offer).frameDone

theorem State.Stands.offerDue (hs : s0.Stands pk s) : s0.Stands pk s.offerDue := by
  unfold State.offerDue
  refine keeps_ite hs ?_
  have h1 : s0.Stands pk { s with eg := { s.eg with inj := [] } } := hs.of_pkts rfl
  generalize ({ s with eg := { s.eg with inj := [] } } : State) = t at h1
  generalize s.eg.inj = l
  induction l generalizing t with
  | nil => exact h1
  | cons e l ih => exact ih _ h1.offerInj

theorem State.Stands.categorise (hs : s0.Stands pk s) {k : PktId} {n : Nat} : s0.Stands pk (s.categorise k n) := hs.modPkt k fun _ => rfl

theorem State.fragFree_pkts (s : State) (w : Nat) : (s.fragFree w).pkts = s.pkts := by
  rw [State.fragFree]
  split
  · simp [State.setFrag]
  · rfl

theorem State.Stands.fragAccess (hs : s0.Stands pk s) {key : List Byte} {bad : List Nat} : s0.Stands pk (s.fragAccess key bad) := by
  unfold State.fragAccess
  induction bad generalizing s with
  | nil => exact hs
  | cons i l ih =>
    refine ih ?_
    dsimp only
    split
    · exact keeps_ite (hs.of_pkts ((State.fault_pkts _ _).trans (s.fragFree_pkts _))) hs
    · exact hs

theorem State.Stands.recordDecision (hs : s0.Stands pk s) {f : Final} {bad : List Nat} : s0.Stands pk (s.recordDecision x f bad) := by
  unfold State.recordDecision
  refine keeps_ite hs ?_
  split
  · exact hs
  · extract_lets s1
    have h1 : s0.Stands pk s1 := hs.fragAccess
    split
    · exact h1.of_pkts rfl
    · exact h1

theorem State.Stands.stomp (hs : s0.Stands pk s) {k : PktId} {port : Nat} : s0.Stands pk (s.stomp k port) := by
  unfold State.stomp
  extract_lets
  split
  · exact keeps_ite (hs.of_pkts (by simp [State.fresh, State.modTx])) hs
  · exact hs

theorem State.Stands.copyMeter (hs : s0.Stands pk s) {k n : Nat} : s0.StandsFst pk (s.copyMeter k n) := by
  unfold State.copyMeter
  exact keeps_ite hs.fst (keeps_ite (State.Stands.fst (b := true) (hs.of_pkts rfl)) (State.Stands.fst (hs.of_pkts (by simp))))

theorem State.Stands.mirrorMeter (hs : s0.Stands pk s) {k n : Nat} : s0.StandsFst pk (s.mirrorMeter k n) := by
  unfold State.mirrorMeter
  exact keeps_ite hs.fst (keeps_ite (State.Stands.fst (b := true) (hs.of_pkts rfl)) (State.Stands.fst (hs.of_pkts (by simp))))

theorem State.Stands.makeCopy (hs : s0.Stands pk s) {f : Final} {kind : Nat} {early : Bool} : s0.StandsFst pk (s.makeCopy x f kind early) := by
  unfold State.makeCopy
  extract_lets
  split
  · rename_i s3 e3
    exact (State.StandsFst.of_eq e3 hs.copyMeter).fst
  · rename_i s3 e3
    have h3 := State.StandsFst.of_eq e3 hs.copyMeter
    exact State.Stands.fst (h3.of_pkts (by simp))

theorem State.Stands.mirrorOut (hs : s0.Stands pk s) {k : PktId} {ses kind : Nat} {bytes : List Byte} : s0.Stands pk (s.mirrorOut k ses kind bytes) := by
  unfold State.mirrorOut
  exact keeps_ite (hs.of_pkts (by simp)) hs.offer

theorem State.Stands.makeMirror (hs : s0.Stands pk s) {k : PktId} {f : Final} {ses : Nat} {early : Bool} :
    s0.StandsFst pk (s.makeMirror k x f ses early) := by
  unfold State.makeMirror
  extract_lets
  refine keeps_ite hs.fst ?_
  split
  · rename_i s5 e5
    exact (State.StandsFst.of_eq e5 hs.mirrorMeter).fst
  · rename_i s5 e5
    have h5 := State.StandsFst.of_eq e5 hs.mirrorMeter
    extract_lets _ s7
    have h7 : s0.Stands pk s7 := h5.of_pkts rfl
    exact h7.mirrorOut.fst

theorem State.Stands.settled (hs : s0.Stands pk s) {sup : Bool} : s0.Stands pk (s.settled sup) := by
  unfold State.settled
  extract_lets s1
  have h1 : s0.Stands pk s1 := hs.of_pkts (by simp [s1])
  exact keeps_ite (h1.of_pkts (by simp)) h1

theorem State.Stands.settle (hs : s0.Stands pk s) {k : PktId} {f : Final} : s0.Stands pk (s.settle k x f) := by
  unfold State.settle
  extract_lets _ _ _ s4 s5
  have h4 : s0.Stands pk s4 := hs.of_pkts rfl
  have h5 : s0.Stands pk s5 := by
    unfold s5
    split
    · exact (h4.of_pkts (by simp)).settled
    · exact hs
  refine keeps_ite hs ?_
  split
  · exact h5.mirrorOut.settled
  · exact h5

theorem State.Stands.ruleCopy (hs : s0.Stands pk s) {k : PktId} {f : Final} : s0.Stands pk (s.ruleCopy k x f) := by
  unfold State.ruleCopy
  extract_lets
  split
  · rename_i s2 _ e2
    exact State.StandsFst.of_eq e2 hs.makeCopy
  · rename_i s2 e2
    have h2 := State.StandsFst.of_eq e2 hs.makeCopy
    exact keeps_ite h2.categorise h2

theorem State.Stands.copies (hs : s0.Stands pk s) {k : PktId} {f : Final} : s0.Stands pk (s.copies k x f) := by
  unfold State.copies
  extract_lets s1 _ s3
  have h1 : s0.Stands pk s1 := keeps_ite hs.ruleCopy hs
  have h3 : s0.Stands pk s3 := keeps_ite h1.makeMirror h1
  exact h3.settle

theorem State.Stands.release (hs : s0.Stands pk s) {k : PktId} {colour : Option Nat} {f : Final} : s0.Stands pk (s.release k x colour f) := by
  unfold State.release
  extract_lets _ _ _ s4 s5
  have h4 : s0.Stands pk s4 := keeps_ite (hs.of_pkts (by simp)) hs
  have h5 : s0.Stands pk s5 := h4.categorise
  refine keeps_ite (State.Stands.categorise (keeps_ite hs.stomp hs)) (keeps_ite (keeps_ite h5 ?_) (keeps_ite hs.stomp.categorise hs.categorise))
  split
  · rename_i s7 e7
    exact State.StandsFst.of_eq e7 h5.offer
  · rename_i s7 e7
    exact (State.StandsFst.of_eq e7 h5.offer).categorise

/-- Policing leaves a packet's final word, and that of the decision. -/
def State.Polices (pk : PktId) (s0 : State) (f : Final) (p : State × Option Nat × Final) : Prop :=
  s0.Stands pk p.1 ∧ p.2.2.dec.safe = f.dec.safe ∧ p.2.2.dec.fwd = f.dec.fwd ∧ p.2.2.dec.code = f.dec.code

theorem State.Stands.police (hs : s0.Stands pk s) {pol : Nat} : s0.StandsFst pk (s.police x pol) := by
  unfold State.police
  refine keeps_ite hs.fst ?_
  split
  rename_i w s1 e1
  have h1 : s0.Stands pk s1 := by
    refine hs.of_pkts ?_
    split at e1
    · cases e1
      rfl
    · cases e1
      rfl
  extract_lets
  split
  exact State.Stands.fst (h1.of_pkts (by simp))

theorem State.Stands.policed (hs : s0.Stands pk s) {f : Final} : s0.Polices pk f (s.policed x f) := by
  unfold State.policed
  extract_lets
  split
  rename_i s3 _ e3
  have h3 : s0.Stands pk s3 := State.StandsFst.of_eq e3 (keeps_ite hs.police hs.fst)
  refine ⟨h3, ?_⟩
  dsimp only
  split
  · exact ⟨rfl, rfl, rfl⟩
  · exact ⟨rfl, rfl, rfl⟩

/-! ### The application of a verdict -/

theorem execVerdictApply_waits (s : State) (pk : PktId) (x : Pkt) (bad : List Nat) (h : s.pkt? pk = some x)
    (hw : x.vd.fcs = none ∨ s.time.beat < x.applyAt) : execVerdictApply pk bad s = .next s := by
  rw [execVerdictApply, h]
  refine if_pos ?_
  rcases hw with hw | hw
  · simp [hw]
  · simp [hw]

/-- A void packet is final as discarded. -/
theorem State.finalOf_void (s : State) (w : Nat) (h : x.vd.voidPkt = true) : s.finalOf x w = { disp := 1 } := by
  unfold State.finalOf
  extract_lets hard
  rw [if_pos h]

theorem State.categorise_spec (s : State) (h : s.pkt? pk = some x) (n : Nat) :
    (s.categorise pk n).pkt? pk = some { x with vd := { x.vd with category := n } } ∧ (s.categorise pk n).eg = s.eg :=
  ⟨State.pkt?_modPkt_self h _, (s.modPkt_frame pk _).1⟩

/-- A packet that leaves keeps its category and final word. -/
theorem State.finishPkt_spec (s : State) (h : s.pkt? pk = some x) : ∃ y, (s.finishPkt pk).pkt? pk = some y ∧ y.vd.category = x.vd.category ∧
    y.final = x.final := by
  unfold State.finishPkt
  split
  · exact ⟨x, h, rfl, rfl⟩
  next y hy =>
    obtain rfl : x = y := Option.some.inj (h.symm.trans hy)
    extract_lets s1 s2
    have h1 : s1.pkt? pk = some { x with vd := { x.vd with gone := true, cells := 0 } } := State.pkt?_modPkt_self h _
    have h2 : s2.pkts = s1.pkts := keeps_ite (P := fun u : State => u.pkts = s1.pkts) (by simp) rfl
    split
    · exact ⟨x, h, rfl, rfl⟩
    · refine ⟨{ x with vd := { x.vd with gone := true, cells := 0 } }, ?_, rfl, rfl⟩
      rw [State.pkt?_congr (s := s2) (by simp), State.pkt?_congr h2, h1]

theorem State.applied_spec (s : State) (f : Final) (h : s.pkt? pk = some x) : ∃ y, (s.applied pk f).pkt? pk = some y ∧
    y.vd.category = x.vd.category ∧ y.final = (true, f.dec.safe, f.dec.fwd, f.dec.code) ∧ (s.applied pk f).eg = s.eg := by
  unfold State.applied
  extract_lets s1
  have h1 : ∃ z, s1.pkt? pk = some z ∧ z.vd.category = x.vd.category ∧ z.final = (true, f.dec.safe, f.dec.fwd, f.dec.code) :=
    ⟨_, State.pkt?_modPkt_self h _, rfl, rfl⟩
  have he : s1.eg = s.eg := (s.modPkt_frame pk _).1
  obtain ⟨z, hz, hzc, hzf⟩ := h1
  clear_value s1
  rw [hz]
  dsimp only
  split
  · obtain ⟨y, hy, hyc, hyf⟩ := s1.finishPkt_spec hz
    exact ⟨y, hy, hyc.trans hzc, hyf.trans hzf, (s1.finishPkt_egRx pk).1.trans he⟩
  · exact ⟨z, hz, hzc, hzf, he⟩

theorem State.offerDue_nil (s : State) (h : s.eg.inj = []) : s.offerDue.pkts = s.pkts ∧ s.offerDue.eg = s.eg := by
  rw [State.offerDue, h]
  split
  · exact ⟨rfl, rfl⟩
  · refine ⟨rfl, ?_⟩
    rw [List.foldl_nil, ← h]

theorem execVerdictApply_discards (s : State) (pk : PktId) (x : Pkt) (bad : List Nat) (h : s.pkt? pk = some x) (hr : x.vd.released = false)
    (hf : x.vd.fcs = some false) (hv : x.vd.voidPkt = true) (_ : x.vd.dests = 0) (ha : x.applyAt ≤ s.time.beat) (hb : s.behind x = false)
    (hi : s.eg.inj = []) : ∃ t y, execVerdictApply pk bad s = .next t ∧ t.pkt? pk = some y ∧ y.vd.released = true ∧ y.vd.category = 3 ∧
      y.vd.fwd = false ∧ t.eg = s.eg := by
  unfold execVerdictApply
  split
  next hx => exact absurd (h.symm.trans hx) nofun
  next y hx =>
  obtain rfl : x = y := Option.some.inj (h.symm.trans hx)
  extract_lets s1 s2
  have h0 : s.Notes s := ⟨rfl, rfl, rfl⟩
  have h2 : s.Notes s2 := State.Notes.noteVoids (keeps_ite h0.bump h0)
  rw [if_neg (by simp [hr, hf, ha, hb])]
  split
  rename_i w s3 e3
  have h3 : s.Notes s3 := State.NotesSnd.of_eq e3 (keeps_ite (State.Notes.snd (s := s2.fresh.2) h2) h2.snd)
  extract_lets f0 follower
  have hf0 : f0 = { disp := 1 } := s3.finalOf_void w hv
  have hfol : follower = false := by simp [follower, hf0]
  split
  rename_i s6 f e6
  rw [hfol, if_neg Bool.false_ne_true, hf0] at e6
  obtain ⟨rfl, rfl⟩ := Prod.mk.inj e6
  extract_lets s7
  have h7 : s.Notes s7 := h3.countVerdict
  rw [if_pos rfl]
  obtain ⟨hp7, he7, -⟩ := h7
  clear_value s7
  have hx7 : s7.pkt? pk = some x := by rw [State.pkt?_congr hp7, h]
  obtain ⟨hc, hce⟩ := s7.categorise_spec hx7 3
  obtain ⟨y, hy, hyc, hyf, hye⟩ := State.applied_spec (s7.categorise pk 3) { disp := 1 } hc
  have hinj : ((s7.categorise pk 3).applied pk { disp := 1 }).eg.inj = [] := by rw [hye, hce, he7, hi]
  obtain ⟨hop, hoe⟩ := State.offerDue_nil _ hinj
  simp only [Pkt.final, Prod.mk.injEq] at hyf
  obtain ⟨hyr, -, hyw, -⟩ := hyf
  exact ⟨_, y, rfl, by rw [State.pkt?_congr hop, hy], hyr, hyc, hyw, by rw [hoe, hye, hce, he7]⟩

/-- A packet of a lane in pass mode takes the safe action. -/
theorem State.finalOf_pass (s : State) (w : Nat) (hv : x.vd.voidPkt = false) (hp : (s.lanes.get x.i.lane).pass = true) :
    ∃ rs, s.finalOf x w = s.safeFinal x rs := by
  unfold State.finalOf
  extract_lets hard
  have hh : hard ≠ [] := by simp [hard, State.hardReasons, hp]
  rw [if_neg (by simp [hv]), if_pos hh]
  exact ⟨_, rfl⟩

theorem execVerdictApply_safe (s : State) (pk : PktId) (x : Pkt) (bad : List Nat) (h : s.pkt? pk = some x) (hr : x.vd.released = false)
    (hf : x.vd.fcs = some true) (hv : x.vd.voidPkt = false) (hl : (s.lanes.get x.i.lane).pass = true) (ha : x.applyAt ≤ s.time.beat)
    (hb : s.behind x = false) (_ : ∀ e ∈ s.eg.inj, e.2.2.pkt = none) : ∃ t y, execVerdictApply pk bad s = .next t ∧ t.pkt? pk = some y ∧
      y.vd.released = true ∧ y.vd.safe = true ∧ y.vd.fwd = true ∧ y.vd.code = 0 := by
  unfold execVerdictApply
  split
  next hx => exact absurd (h.symm.trans hx) nofun
  next y hx =>
  obtain rfl : x = y := Option.some.inj (h.symm.trans hx)
  extract_lets s1 s2
  have h0 : s.Notes s := ⟨rfl, rfl, rfl⟩
  have h2 : s.Notes s2 := State.Notes.noteVoids (keeps_ite h0.bump h0)
  rw [if_neg (by simp [hr, hf, ha, hb])]
  split
  rename_i w s3 e3
  have h3 : s.Notes s3 := State.NotesSnd.of_eq e3 (keeps_ite (State.Notes.snd (s := s2.fresh.2) h2) h2.snd)
  extract_lets f0 follower
  obtain ⟨rs, hrs⟩ := s3.finalOf_pass w hv (by rw [h3.2.2, hl])
  have hf0 : f0.disp = 0 ∧ f0.dec.safe = true ∧ f0.dec.fwd = true ∧ f0.dec.code = 0 := by
    rw [show f0 = s3.safeFinal x rs from hrs]
    exact ⟨rfl, rfl, rfl, rfl⟩
  obtain ⟨hd, hs, hw, hc⟩ := hf0
  have hfol : follower = false := by simp [follower, hs]
  split
  rename_i s6 f e6
  rw [hfol, if_neg Bool.false_ne_true] at e6
  obtain ⟨rfl, rfl⟩ := Prod.mk.inj e6
  extract_lets s7 s8 s9 s10
  have h8 : s.Notes s8 := h3.countVerdict.countApplied
  have hst : s.Stands pk s10 := by
    have h9 : s.Stands pk s9 := State.Stands.recordDecision (State.Stands.of_pkts (s := s) rfl h8.1)
    exact keeps_ite (h9.of_pkts (by simp)) h9
  clear_value f0 s10
  rw [if_neg (by simp [hd]), if_neg (by simp [hd]), if_neg (by simp [hd])]
  split
  rename_i s11 colour g e11
  obtain ⟨h11, hgs, hgw, hgc⟩ : s.Polices pk f0 (s11, colour, g) := e11 ▸ hst.policed
  have hlast : s.Stands pk ((s11.release pk x colour g).copies pk x g) := State.Stands.copies (State.Stands.release h11)
  generalize (s11.release pk x colour g).copies pk x g = s12 at hlast
  obtain ⟨z, hz⟩ : ∃ z, s12.pkt? pk = some z := by
    rw [State.Stands, h, Option.map_some] at hlast
    obtain ⟨z, hz, -⟩ := Option.map_eq_some_iff.mp hlast
    exact ⟨z, hz⟩
  obtain ⟨y, hy, -, hyf, -⟩ := s12.applied_spec g hz
  have hdue : (s12.applied pk g).Stands pk (s12.applied pk g).offerDue := State.Stands.offerDue (s := s12.applied pk g) rfl
  rw [State.Stands, hy, Option.map_some, hyf] at hdue
  obtain ⟨y', hy', hyf'⟩ := Option.map_eq_some_iff.mp hdue
  simp only [Pkt.final, Prod.mk.injEq] at hyf'
  obtain ⟨h1, h2, h3, h4⟩ := hyf'
  exact ⟨_, y', rfl, hy', h1, h2.trans (hgs.trans hs), h3.trans (hgw.trans hw), h4.trans (hgc.trans hc)⟩

/-! ### The early start -/

/-- The transmission of a queue's first frame. -/
theorem State.startFrame_spec (s : State) (port q : Nat) {fr : EgFrame} {rest : List EgFrame} (h : (s.eg.q.get (port * 8 + q)).frames = fr :: rest) :
    ((s.startFrame port q).eg.tx.get port).cur = some fr ∧ s.startFrame port q = { s with eg := (s.startFrame port q).eg } := by
  unfold State.startFrame
  extract_lets pq
  rw [h]
  dsimp only
  generalize hv : State.modTx _ port _ = v
  obtain ⟨he, -, hc, -⟩ := v.spend_spec port q fr.size
  refine ⟨?_, ?_⟩
  · rw [hc, ← hv, State.modTx_get, if_pos rfl]
  · rw [he, ← hv]
    rfl

/-- A frame of a packet that its queue admits. -/
theorem State.offer_spec (h : s.pkt? pk = some x) (port q : Nat) {fr : EgFrame} (hp : fr.pkt = some pk) (ha : s.admits port q fr = true) :
    (s.offer port q fr).1.pkt? pk = some { x with vd := { x.vd with dests := x.vd.dests + 1 } } ∧
    ((s.offer port q fr).1.eg.q.get (port * 8 + q)).frames = (s.eg.q.get (port * 8 + q)).frames ++ [fr] ∧
    (s.offer port q fr).1 = { s with pkts := (s.offer port q fr).1.pkts, eg := (s.offer port q fr).1.eg } := by
  have hx (f : EgQ → EgQ) (g : PortTx → PortTx) : ((s.modQ (port * 8 + q) f).modTx port g).pkt? pk = some x := h
  have ho : (s.offer port q fr).1 = ((s.modQ (port * 8 + q) (fun e => { e with
      frames := e.frames ++ [fr], cells := e.cells + fr.cells, offered := e.offered + 1, admitted := e.admitted + 1 })).modTx port
      (fun t => { t with cells := t.cells + fr.cells })).modPkt pk (fun p => { p with vd := { p.vd with dests := p.vd.dests + 1 } }) := by
    unfold State.offer
    rw [if_pos ha, hp]
  rw [ho]
  refine ⟨State.pkt?_modPkt_self (hx _ _) _, ?_, ?_⟩
  · rw [(State.modPkt_frame _ pk _).1, State.modTx_q, State.modQ_get, if_pos rfl]
  · rw [State.modPkt_some (hx _ _)]
    rfl

theorem State.admits_modTx (s : State) (port q n : Nat) (fr : EgFrame) :
    (s.modTx port (fun t => { t with rr := n })).admits port q fr = s.admits port q fr := by
  have hc : ((s.modTx port (fun t => { t with rr := n })).eg.tx.get port).cells = (s.eg.tx.get port).cells := by
    rw [State.modTx_get, if_pos rfl]
  rw [State.admits, State.admits, hc]
  rfl

theorem execCutThroughStart_starts (s : State) (pk : PktId) (x : Pkt) (fr : EgFrame) (h : s.pkt? pk = some x) (he : s.ctEligible x = true)
    (hfr : fr = { kind := 0, pkt := some pk, size := x.i.data.length + 4, bytes := x.i.data, early := true })
    (had : s.admits (s.defaultDest x.i.port) (Rule.queue x.lk.act) fr = true) (hcp : Rule.copy x.lk.act = false) (hmi : Rule.mirror x.lk.act = false) :
    ∃ t y, execCutThroughStart pk s = .next t ∧ t.pkt? pk = some y ∧ y.vd.early = true ∧ y.vd.dests = x.vd.dests + 1 ∧
      (t.eg.tx.get (s.defaultDest x.i.port)).cur = some fr ∧ s.Counts t Reg.HOLD.CT_STARTS ∧ t = { s with regs := t.regs, pkts := t.pkts, eg := t.eg } := by
  unfold execCutThroughStart
  split
  next hx => exact absurd (h.symm.trans hx) nofun
  next y hx =>
  obtain rfl : x = y := Option.some.inj (h.symm.trans hx)
  extract_lets port q fr' f s1 s2
  have hfr' : fr' = fr := hfr.symm
  rw [hfr']
  rw [if_neg (by simp only [he, had, port, q, not_true_eq_false, or_self, not_false_eq_true])]
  have hfc : f.dec.copy = false ∧ f.dec.mirror = false := by
    simp [f, Pkt.stamped, applyEntry, bits, hcp, hmi]
  have hempty : (s.eg.q.get (port * 8 + q)).frames = [] := by
    simp only [State.ctEligible, Bool.and_eq_true, List.isEmpty_iff] at he
    tauto
  obtain ⟨hp1, hq1, ha1, hf1⟩ : s1.pkt? pk = some x ∧ s1.eg.q = s.eg.q ∧ s1.admits port q fr = true ∧ s1 = { s with eg := s1.eg } :=
    keeps_ite (P := fun u : State => u.pkt? pk = some x ∧ u.eg.q = s.eg.q ∧ u.admits port q fr = true ∧ u = { s with eg := u.eg })
      ⟨h, rfl, (s.admits_modTx port q (q + 1) fr).trans had, rfl⟩ ⟨h, rfl, had, rfl⟩
  obtain ⟨hpo, hqo, hfo⟩ := State.offer_spec hp1 port q (fr := fr) (by rw [hfr]) ha1
  have h2 : s2 = ((s1.offer port q fr).1.startFrame port q).bump Reg.HOLD.CT_STARTS := by rw [← hfr']
  rw [hq1, hempty, List.nil_append] at hqo
  clear_value s1 s2
  generalize (s1.offer port q fr).1 = v at hpo hqo hfo h2
  obtain ⟨hcur, hfs⟩ := v.startFrame_spec port q hqo
  generalize v.startFrame port q = w at hcur hfs h2
  have hpw : s2.pkt? pk = some { x with vd := { x.vd with dests := x.vd.dests + 1 } } := by
    rw [h2, State.pkt?_congr (State.bump_pkts _ _ _ _ _ _), hfs]
    exact hpo
  have hc2 : s.Counts s2 Reg.HOLD.CT_STARTS ∧ (s2.eg.tx.get port).cur = some fr ∧ s2 = { s with regs := s2.regs, pkts := s2.pkts, eg := s2.eg } := by
    refine ⟨?_, ?_, ?_⟩
    · rw [h2, State.Counts, State.rd_bump, hfs, hfo, hf1]
      rfl
    · rw [h2, State.bump_eg, hcur]
    · rw [h2, hfs, hfo, hf1]
      rfl
  obtain ⟨hct, hcu, hfr2⟩ := hc2
  rw [hfc.1, if_neg Bool.false_ne_true]
  dsimp only
  rw [hfc.2, if_neg Bool.false_ne_true]
  dsimp only
  have hff := s2.modPkt_frame pk (fun x => { x with vd := { x.vd with early := true, earlyCopy := none, earlyMirror := Option.map (fun m => (f.dec.ses, m)) none } })
  refine ⟨_, _, rfl, State.pkt?_modPkt_self hpw _, rfl, rfl, ?_, ?_, ?_⟩
  · rw [hff.1]
    exact hcu
  · rw [State.Counts, State.rd_congr hff.2.2.2]
    exact hct
  · rw [State.modPkt_some hpw, hfr2]

/-- Settles O16. -/
theorem verdictCommands : Obligations.VerdictCommands :=
  ⟨execVerdictForm_forms, execVerdictForm_early, execReturnDeadline_voids, execVerdictApply_discards, execVerdictApply_safe,
    execVerdictApply_waits, execCutThroughStart_starts⟩

end Sys2Proof.Machine
end

section
/-! PROOF. Messages that wait to be sent, and the state of membership. -/

namespace Sys2Proof.Machine

-- One thread for the proofs, which bounds the memory that checking them takes.
set_option Elab.async false

open Sys2Proof

variable {s t u : State}

/-! ### Messages -/

/-- t is s with more messages waiting to be sent. -/
def State.Sends (s t : State) : Prop :=
  ∃ o, t = { s with herd := { s.herd with out := s.herd.out ++ o } }

theorem State.Sends.refl (s : State) : s.Sends s := ⟨[], by rw [List.append_nil]⟩

theorem State.Sends.trans (h : s.Sends t) (h' : t.Sends u) : s.Sends u := by
  obtain ⟨o, ho⟩ := h
  obtain ⟨o', ho'⟩ := h'
  exact ⟨o ++ o', by rw [ho', ho, ← List.append_assoc]⟩

theorem State.Sends.regs (h : s.Sends t) : t.regs = s.regs := by
  obtain ⟨o, rfl⟩ := h
  rfl

theorem State.Sends.rd (h : s.Sends t) (f : Field) (i j k : Nat) : t.rd f i j k = s.rd f i j k := State.rd_congr h.regs f i j k

theorem State.Sends.mem (h : s.Sends t) {x : OutMsg} (hx : x ∈ s.herd.out) : x ∈ t.herd.out := by
  obtain ⟨o, rfl⟩ := h
  exact List.mem_append_left _ hx

theorem State.Sends.herd (h : s.Sends t) : t.herd = { s.herd with out := t.herd.out } := by
  obtain ⟨o, rfl⟩ := h
  rfl

theorem State.Sends.eq (h : s.Sends t) : t = { s with herd := { s.herd with out := t.herd.out } } := by
  obtain ⟨o, rfl⟩ := h
  rfl

theorem State.Sends.reportsOnly (h : s.Sends t) : ({ s with herd := t.herd } : State).ReportsOnly t := by
  obtain ⟨o, rfl⟩ := h
  exact .refl _

theorem State.Sends.frame (h : s.Sends t) : t.hl = s.hl ∧ t.time = s.time ∧ t.pkts = s.pkts ∧ t.ctxs = s.ctxs ∧ t.cls = s.cls := by
  obtain ⟨o, rfl⟩ := h
  exact ⟨rfl, rfl, rfl, rfl, rfl⟩

theorem State.Sends.foldl {α : Type} {g : State → α → State} (h : ∀ (t : State) (x : α), t.Sends (g t x)) (l : List α) (s : State) :
    s.Sends (l.foldl g s) := by
  induction l generalizing s with
  | nil => exact .refl s
  | cons x l ih => exact (h s x).trans (ih _)

theorem State.Sends.ownId (h : s.Sends t) : t.ownId = s.ownId := by
  rw [State.ownId, State.ownId, State.Sends.rd h, State.Sends.rd h, State.Sends.rd h]

theorem State.sends_send (s : State) (p : Option Nat) (k d : Nat) (l : List Int) : s.Sends (s.send p k d l) :=
  keeps_ite (.refl s) ⟨_, rfl⟩

/-- The message that `State.send` puts out. -/
def State.message (s : State) (p : Nat) (k d : Nat) (l : List Int) : OutMsg :=
  { port := some p, kind := k, src := s.ownId, dest := d, args := l }

theorem State.mem_send (s : State) (p : Nat) {k : Nat} (d : Nat) (l : List Int) (hk : k < 16 ∨ s.herd.stopped = false) :
    s.message p k d l ∈ (s.send (some p) k d l).herd.out := by
  have hno : ¬ (16 ≤ k ∧ s.herd.stopped = true) := by
    rintro ⟨h1, h2⟩
    rcases hk with hk | hk
    · omega
    · exact absurd (h2.symm.trans hk) nofun
  rw [State.send, if_neg hno]
  exact List.mem_append_right _ List.mem_cons_self

theorem State.sends_flood (s : State) (k d b : Nat) (l : List Int) : s.Sends (s.flood k d b l) :=
  .foldl (fun t (p : Nat) => t.sends_send (some p) k d l) _ s

theorem State.Sends.message (h : s.Sends t) (p k d : Nat) (l : List Int) : t.message p k d l = s.message p k d l := by
  rw [State.message, State.message, h.ownId]

/-- A flooded message waits at every port that is up, but the one it came by. -/
theorem State.mem_flood (s : State) {p k : Nat} (d b : Nat) (l : List Int) (hk : k < 16) (hp : p < 12) (hu : s.hlUp p = true) (hb : p ≠ b) :
    s.message p k d l ∈ (s.flood k d b l).herd.out := by
  have hmem : p ∈ (List.range 12).filter (fun p => s.hlUp p && p != b) := by
    simp [hp, hu, hb]
  rw [State.flood]
  generalize (List.range 12).filter (fun p => s.hlUp p && p != b) = ps at hmem
  have key : ∀ (ps : List Nat) (u : State), s.Sends u → p ∈ ps → s.message p k d l ∈ (ps.foldl (fun t p => t.send (some p) k d l) u).herd.out := by
    intro ps
    induction ps with
    | nil => exact fun u _ h => absurd h List.not_mem_nil
    | cons q ps ih =>
      intro u hs h
      rcases List.mem_cons.mp h with rfl | h
      · have hm := u.mem_send p d l (Or.inl hk)
        rw [hs.message] at hm
        exact (State.Sends.foldl (fun t (q : Nat) => t.sends_send (some q) k d l) ps _).mem hm
      · exact ih _ (hs.trans (u.sends_send (some q) k d l)) h
  exact key ps s (.refl s) hmem

theorem State.sends_sendTo (s : State) (k d : Nat) (l : List Int) : s.Sends (s.sendTo k d l).1 := by
  rw [State.sendTo]
  split
  next p _ => exact keeps_ite (P := fun u => s.Sends u) ((s.sends_send _ k d l).trans (State.sends_send _ _ k d l)) (s.sends_send _ k d l)
  next => exact .refl s

theorem State.mem_sendTo (s : State) {p k d : Nat} (l : List Int) (hp : s.outPort d = some p) (hk : k < 16 ∨ s.herd.stopped = false) :
    s.message p k d l ∈ (s.sendTo k d l).1.herd.out := by
  have hm := s.mem_send p d l hk
  rw [State.sendTo, hp]
  exact keeps_ite (P := fun u : State => s.message p k d l ∈ u.herd.out) ((State.sends_send _ _ k d l).mem hm) hm

theorem State.sendTo_none (s : State) {d : Nat} (k : Nat) (l : List Int) (hp : s.outPort d = none) : s.sendTo k d l = (s, false) := by
  rw [State.sendTo, hp]

theorem State.sendTo_some (s : State) {p d : Nat} (k : Nat) (l : List Int) (hp : s.outPort d = some p) : (s.sendTo k d l).2 = true := by
  rw [State.sendTo, hp]

theorem State.sends_sendDepart (s : State) (m : Nat) : s.Sends (s.sendDepart m) :=
  keeps_ite (s.sends_flood _ _ _ _) (s.sends_sendTo _ _ _)

/-! ### Leaving -/

theorem herd_reportKey : ∀ f ∈ [Reg.HERD.STATE, Reg.HERD.STOP_STATE, Reg.HERD.JOIN, Reg.HERD.JOIN_RESULT, Reg.HERD.JOIN_DIFF, Reg.HERD.ELECTING,
    Reg.HERD.BELLWETHER, Reg.HERD.BW_ID, Reg.HERD.BW_HOPS, Reg.HERD.COORD_X, Reg.HERD.COORD_Y, Reg.HERD.COORD_Z, Reg.HERD.NX, Reg.HERD.NY, Reg.HERD.NZ,
    Reg.HERD.ADMIT_BEAT, Reg.HERD.RED_DONE, Reg.HERD.RED_VOID, Reg.HERD.ELECTIONS, Reg.HERD.CMT_NACKS, Reg.HERD.WIN_REFUSED, Reg.HERD.CMT_RESULT,
    Reg.HERD.MEMBERS, Reg.HERD.STOP_BEAT, Reg.HERD.RESUME_BEAT, Reg.HERD.STOP_REFUSE, Reg.HERD.BW_PRIO, Reg.HERD.CMT_BEAT],
    reportKey (f.key 0 0 0) = false := by decide

theorem State.herdState_setHerdState (s : State) {v : Nat} (hv : v < 4) : (s.setHerdState v).herdState = v := by
  rw [State.setHerdState]
  by_cases h : s.herdState = v
  · rw [if_pos h]
    exact h
  · rw [if_neg h, State.herdState, State.rd_event _ _ _ _ _ _ _ _ (herd_reportKey _ (by decide)), State.rd_wr_self]
    exact Nat.mod_eq_of_lt hv

theorem State.rd_setHerdState (s : State) (v : Nat) {f : Field} {i j k : Nat} (hr : reportKey (f.key i j k) = false)
    (hk : f.key i j k ≠ Reg.HERD.STATE.key 0 0 0) : (s.setHerdState v).rd f i j k = s.rd f i j k := by
  rw [State.setHerdState]
  exact keeps_ite (P := fun u : State => u.rd f i j k = s.rd f i j k) rfl
    ((State.rd_event _ _ _ _ _ _ _ _ hr).trans (State.rd_wr_ne _ _ _ _ _ _ _ _ _ _ hk))

theorem State.ReportsOnly.stands (h : s.ReportsOnly t) : t.hl = s.hl ∧ t.herd = s.herd ∧ t.pkts = s.pkts ∧ t.time = s.time := by
  rw [State.ReportsOnly] at h
  rw [h]
  exact ⟨rfl, rfl, rfl, rfl⟩

/-- A device that departs is leaving, at the earliest beat it was told. -/
theorem State.departBy_spec (s : State) (n : Nat) : (s.departBy n).herdState = 3 ∧
    (∃ o, (s.departBy n).herd = { s.herd with leaveAt := some (Nat.min n (s.herd.leaveAt.getD n)), out := s.herd.out ++ o }) ∧
    ({ s with herd := (s.departBy n).herd } : State).ReportsOnly (s.departBy n) := by
  obtain ⟨v, hv⟩ : ∃ v, s.setHerdState 3 = v := ⟨_, rfl⟩
  have h3 : v.herdState = 3 := by rw [← hv]; exact s.herdState_setHerdState (by decide)
  have hro : s.ReportsOnly v := by rw [← hv]; exact s.reportsOnly_setHerdState 3
  rw [State.departBy, hv]
  obtain ⟨o, ho⟩ := v.sends_sendDepart s.ownId
  rw [ho]
  have hh : v.herd = s.herd := hro.stands.2.1
  refine ⟨h3, ⟨o, by rw [hh]⟩, ?_⟩
  rw [State.ReportsOnly] at hro ⊢
  rw [hro]

/-- The registers of a device that is no member of a herd. -/
def State.aloneRegs (w : State) : State :=
  ((((w.wrNow Reg.HERD.JOIN 0).wr Reg.HERD.BELLWETHER 0).wr Reg.HERD.MEMBERS 1).wr Reg.HERD.ELECTING 0).wr Reg.HERD.BW_HOPS 0

/-- The writes by which a device ends its membership. -/
def State.aloneOf (w : State) : State :=
  { w.aloneRegs with
    herd := { w.herd with
              members := [], prevMembers := [], leaveAt := none, joinE := none, joinWant := false, lockBeats := 0, lostBeats := 0,
              joins := [], departs := [], excl := [], orders := [], t0 := none, best := none, votes := [], winner := none, bwGone := false } }

/-- The members of a herd that is left stay the ones routed by. -/
def State.keepRoutes (v : State) : State :=
  { v with herd := { v.herd with routes := if v.isMember then v.herd.members else v.herd.routes } }

theorem State.becomeAlone_eq (s : State) : s.becomeAlone = ((s.creqLost.keepRoutes).setHerdState 0).aloneOf := rfl

theorem State.aloneOf_herd (w : State) : w.aloneOf.herd.members = [] ∧ w.aloneOf.herd.leaveAt = none ∧ w.aloneOf.herd.joinWant = false ∧
    w.aloneOf.herd.heard = w.herd.heard ∧ w.aloneOf.herd.orders = [] ∧ w.aloneOf.herd.nextSeq = w.herd.nextSeq := ⟨rfl, rfl, rfl, rfl, rfl, rfl⟩

theorem State.aloneOf_frame (w : State) : w.aloneOf.hl = w.hl ∧ w.aloneOf.time = w.time ∧ w.aloneOf.pkts = w.pkts := ⟨rfl, rfl, rfl⟩

theorem State.rd_aloneRegs (w : State) {f : Field}
    (hk : ∀ g ∈ [Reg.HERD.JOIN, Reg.HERD.BELLWETHER, Reg.HERD.MEMBERS, Reg.HERD.ELECTING, Reg.HERD.BW_HOPS], f.key 0 0 0 ≠ g.key 0 0 0) :
    w.aloneRegs.rd f = w.rd f := by
  simp only [List.forall_mem_cons] at hk
  obtain ⟨h1, h2, h3, h4, h5, -⟩ := hk
  rw [State.aloneRegs, State.rd_wr_ne _ _ _ _ _ _ _ _ _ _ h5, State.rd_wr_ne _ _ _ _ _ _ _ _ _ _ h4, State.rd_wr_ne _ _ _ _ _ _ _ _ _ _ h3,
    State.rd_wr_ne _ _ _ _ _ _ _ _ _ _ h2]
  have hj : (w.wrNow Reg.HERD.JOIN 0).rd f = (w.wr Reg.HERD.JOIN 0).rd f := State.rd_congr rfl f 0 0 0
  rw [hj]
  exact State.rd_wr_ne _ _ _ _ _ _ _ _ _ _ h1

theorem State.aloneRegs_rd (w : State) : w.aloneRegs.rd Reg.HERD.JOIN = 0 ∧ w.aloneRegs.rd Reg.HERD.ELECTING = 0 ∧ w.aloneRegs.rd Reg.HERD.BELLWETHER = 0 := by
  have hj (u : State) : (u.wrNow Reg.HERD.JOIN 0).rd Reg.HERD.JOIN = 0 := by
    have hr : (u.wrNow Reg.HERD.JOIN 0).rd Reg.HERD.JOIN = (u.wr Reg.HERD.JOIN 0).rd Reg.HERD.JOIN := State.rd_congr rfl _ 0 0 0
    rw [hr, State.rd_wr_self]
    rfl
  rw [State.aloneRegs]
  specialize hj w
  generalize w.wrNow Reg.HERD.JOIN 0 = u at *
  refine ⟨?_, ?_, ?_⟩
  · simp (disch := decide) only [State.rd_wr_ne]
    exact hj
  · simp (disch := decide) only [State.rd_wr_ne]
    exact State.rd_wr_self ..
  · simp (disch := decide) only [State.rd_wr_ne]
    exact State.rd_wr_self ..

theorem State.aloneOf_rd (w : State) : w.aloneOf.rd Reg.HERD.JOIN = 0 ∧ w.aloneOf.electing = false ∧ w.aloneOf.isBw = false := by
  obtain ⟨h1, h2, h3⟩ := w.aloneRegs_rd
  exact ⟨h1, congrArg (· == 1) h2, congrArg (· == 1) h3⟩

/-- A device that becomes alone is no member of a herd, and neither joins, leaves nor elects. -/
theorem State.becomeAlone_spec (s : State) : s.becomeAlone.herdState = 0 ∧ s.becomeAlone.herd.members = [] ∧ s.becomeAlone.herd.leaveAt = none ∧
    s.becomeAlone.herd.joinWant = false ∧ s.becomeAlone.rd Reg.HERD.JOIN = 0 ∧ s.becomeAlone.electing = false ∧ s.becomeAlone.time = s.time ∧
    s.becomeAlone.pkts = s.pkts ∧ s.becomeAlone.hl = s.hl := by
  have hho := s.herdOnly_becomeAlone
  rw [State.becomeAlone_eq] at hho ⊢
  have h0 := (s.creqLost.keepRoutes).herdState_setHerdState (v := 0) (by decide)
  generalize (s.creqLost.keepRoutes).setHerdState 0 = w at *
  obtain ⟨h1, h2, h3, -⟩ := w.aloneOf_herd
  obtain ⟨h4, h5, -⟩ := w.aloneOf_rd
  have h6 : w.aloneOf.herdState = 0 := (w.rd_aloneRegs (by decide)).trans h0
  generalize w.aloneOf = v at *
  rw [State.HerdOnly] at hho
  exact ⟨h6, h1, h2, h3, h4, h5, by rw [hho], by rw [hho], by rw [hho]⟩

end Sys2Proof.Machine
end

section
/-! PROOF. Herd ports (R230, R231, R233, R235, R237, R246, R250, R254): O24. -/

namespace Sys2Proof.Machine

-- One thread for the proofs, which bounds the memory that checking them takes.
set_option Elab.async false

open Sys2Proof

variable {s t u : State}

/-! ### The state of a port -/

theorem hlink_reportKey (p : Nat) : reportKey (Reg.HLINK.LINK_STATE.key p 0 0) = false ∧ reportKey (Reg.HLINK.ENABLE.key p 0 0) = false ∧
    reportKey (Reg.HLINK.LINK_DELAY.key p 0 0) = false ∧ reportKey (Reg.HLINK.FLITS_RX.key p 0 0) = false ∧
    reportKey (Reg.HLINK.FLIT_LOST.key p 0 0) = false := by
  refine ⟨?_, ?_, ?_, ?_, ?_⟩ <;>
    exact reportKey_eq_false_of_high (by decide) (by decide) (by decide) (by decide) (by decide)

theorem State.reportsOnly_setHl (s : State) (p v : Nat) : s.ReportsOnly (s.setHl p v) := by
  unfold State.setHl
  extract_lets old u
  have hu : s.ReportsOnly u := .wr_event _ _ _ _ _ _ _ _ _
  exact keeps_ite (.refl s) (keeps_ite hu (hu.trans (.event _ _ _ _)))

theorem State.rd_setHl (s : State) (p v : Nat) {g : Field} {i j k : Nat} (hr : reportKey (g.key i j k) = false)
    (hne : g.key i j k ≠ Reg.HLINK.LINK_STATE.key p 0 0) : (s.setHl p v).rd g i j k = s.rd g i j k := by
  unfold State.setHl
  extract_lets old u
  have hu : u.rd g i j k = s.rd g i j k := (State.rd_event _ _ _ _ _ _ _ _ hr).trans (State.rd_wr_ne _ _ _ _ _ _ _ _ _ _ hne)
  exact keeps_ite (P := fun w : State => w.rd g i j k = s.rd g i j k) rfl (keeps_ite (P := fun w : State => w.rd g i j k = s.rd g i j k) hu
    ((State.rd_event _ _ _ _ _ _ _ _ hr).trans hu))

theorem State.linkState_setHl (s : State) (p : Nat) {v : Nat} (hv : v < 8) : (s.setHl p v).linkState p = v := by
  have hr := (hlink_reportKey p).1
  unfold State.setHl
  extract_lets old u
  have hu : u.linkState p = v := by
    rw [State.linkState, State.rd_event _ _ _ _ _ _ _ _ hr, State.rd_wr_self]
    exact Nat.mod_eq_of_lt hv
  by_cases ho : old = v
  · rw [if_pos ho]
    exact ho
  · rw [if_neg ho]
    exact keeps_ite (P := fun w : State => w.linkState p = v) hu ((State.rd_event _ _ _ _ _ _ _ _ hr).trans hu)

theorem State.ReportsOnly.frame (h : s.ReportsOnly t) : t.hl = s.hl ∧ t.herd = s.herd ∧ t.pkts = s.pkts ∧ t.time = s.time := by
  rw [State.ReportsOnly] at h
  rw [h]
  exact ⟨rfl, rfl, rfl, rfl⟩

theorem State.ReportsOnly.hl (h : s.ReportsOnly t) : t.hl = s.hl := h.frame.1

/-- A port that may train trains. -/
theorem State.trainPort_trains (s : State) (p : Nat) (hu : s.portUsed p = true) (he : s.rd Reg.HLINK.ENABLE p = 1) (hm : (s.hl.get p).missOut = false)
    (hw : s.flt.wd.get (7 * 65536 + p) = false) (hd : s.sec.domain.isSome = true) :
    s.trainPort p = ({ s with hl := s.hl.set p { trainAt := s.time.beat } } : State).setHl p 1 := by
  unfold State.trainPort
  extract_lets u
  have hget : (s.hl.set p { trainAt := s.time.beat, missOut := (s.hl.get p).missOut }).get p = { trainAt := s.time.beat, missOut := (s.hl.get p).missOut } :=
    Tbl.get_set_self _ _ _
  have hno : ¬ (¬ u.portUsed p ∨ u.rd Reg.HLINK.ENABLE p = 0 ∨ (u.hl.get p).missOut ∨ u.flt.wd.get (7 * 65536 + p)) := by
    have h1 : u.portUsed p = true := hu
    have h2 : u.rd Reg.HLINK.ENABLE p = 1 := he
    have h3 : (u.hl.get p).missOut = false := (congrArg HLinkSt.missOut hget).trans hm
    have h4 : u.flt.wd.get (7 * 65536 + p) = false := hw
    simp [h1, h2, h3, h4]
  have hdom : ¬ (u.sec.domain.isNone = true) := by
    have h5 : u.sec.domain.isSome = true := hd
    simp [Option.isSome_iff_ne_none.mp h5]
  rw [if_neg hno, if_neg hdom]
  simp only [u, hm]

/-- A port that may not train is down. -/
theorem State.trainPort_down (s : State) (p : Nat) (h : s.rd Reg.HLINK.ENABLE p = 0 ∨ (s.hl.get p).missOut = true) :
    s.trainPort p = ({ s with hl := s.hl.set p { trainAt := s.time.beat, missOut := (s.hl.get p).missOut } } : State).setHl p 0 := by
  unfold State.trainPort
  extract_lets u
  refine if_pos ?_
  rcases h with h | h
  · exact Or.inr (Or.inl h)
  · exact Or.inr (Or.inr (Or.inl ((congrArg HLinkSt.missOut (Tbl.get_set_self _ _ _)).trans h)))

theorem State.portUsed_congr (p : Nat) (ht : t.time = s.time) (hs : t.sec.herdEn = s.sec.herdEn)
    (hr : ∀ f ∈ [Reg.HERD.NX, Reg.HERD.NY, Reg.HERD.NZ], t.rd f = s.rd f) : t.portUsed p = s.portUsed p := by
  rw [State.portUsed, State.portUsed, State.dimSize, State.dimSize, ht, hs, hr _ (by decide), hr _ (by decide), hr _ (by decide)]

theorem State.wrote_sec_herd (s : State) (src : Source) : (s.wrote src).sec.herdEn = s.sec.herdEn ∧ (s.wrote src).sec.domain = s.sec.domain := by
  unfold State.wrote
  extract_lets
  split
  · split
    · exact ⟨rfl, rfl⟩
    · exact ⟨rfl, rfl⟩
  · exact ⟨rfl, rfl⟩

/-- The port's page after the write of ENABLE. -/
def State.enabled (s : State) (src : Source) (p : Nat) (v : Bool) : State :=
  { (((s.wrote src).wrNow Reg.HLINK.ENABLE (b2n v) p).auditCmd src Reg.HLINK.ENABLE p (b2n v) 0) with
    hl := (((s.wrote src).wrNow Reg.HLINK.ENABLE (b2n v) p).auditCmd src Reg.HLINK.ENABLE p (b2n v) 0).hl.mod p (fun x => { x with missOut := false }) }

theorem execHlinkEnable_eq (s : State) (src : Source) (h : HPort) (v : Bool) (ht : s.Takes src) :
    execHlinkEnable src h v s = .next ((s.enabled src h.val v).trainPort h.val) := s.basicCmd_takes _ ht

theorem State.enabled_hl (s : State) (src : Source) (p : Nat) (v : Bool) : (s.enabled src p v).hl = s.hl.mod p (fun x => { x with missOut := false }) := by
  simp [State.enabled]

@[simp] theorem State.auditCmd_wd (s : State) (src : Source) (f : Field) (i n r c k : Nat) : (s.auditCmd src f i n r c k).flt.wd = s.flt.wd := by
  rw [(s.quiet_auditCmd src f i n r c k).1]

theorem State.enabled_frame (s : State) (src : Source) (p : Nat) (v : Bool) : (s.enabled src p v).time = s.time ∧ (s.enabled src p v).sec.herdEn = s.sec.herdEn ∧
    (s.enabled src p v).sec.domain = s.sec.domain ∧
    (s.enabled src p v).flt.wd = s.flt.wd ∧ (s.enabled src p v).herd = s.herd ∧ (s.enabled src p v).pkts = s.pkts := by
  obtain ⟨hh, hd⟩ := s.wrote_sec_herd src
  refine ⟨by simp [State.enabled], by simp [State.enabled, hh], by simp [State.enabled, hd], ?_, by simp [State.enabled], by simp [State.enabled]⟩
  simp [State.enabled]

/-- The fields of page HERD that a port's state rests on. -/
def herdFields : List Field :=
  [Reg.HERD.NX, Reg.HERD.NY, Reg.HERD.NZ] ++ [Reg.HERD.STATE, Reg.HERD.EXPECTED, Reg.HERD.COORD_X, Reg.HERD.COORD_Y, Reg.HERD.COORD_Z]

/-- The fields of page HLINK that a port's commands write. -/
def hlinkFields : List Field :=
  [Reg.HLINK.ENABLE, Reg.HLINK.LINK_STATE, Reg.HLINK.PEER_ID, Reg.HLINK.PEER_PORT]

theorem herdField_ne_hlink (p : HPort) {f g : Field} (hf : f ∈ herdFields) (hg : g ∈ hlinkFields) : f.key 0 0 0 ≠ g.key p.val 0 0 := by
  have h1 : ∀ f ∈ herdFields, f.lo + f.bstride * 0 < 64 ∧ f.off + f.stride * 0 < 4096 ∧ pageBase f.block 0 = 344064 := by decide
  have h2 : ∀ g ∈ hlinkFields, g.lo + g.bstride * 0 < 64 ∧ g.off + g.stride * 0 < 4096 ∧ pageBase g.block 0 = 294912 := by decide
  obtain ⟨hl, ho, hp⟩ := h1 f hf
  obtain ⟨hl', ho', hp'⟩ := h2 g hg
  refine Field.key_ne_of_page (by decide) hl' ho' (by decide) hl ho ?_
  rw [hp, pageBase_eq g.block, hp']
  omega

theorem State.enabled_rd (s : State) (src : Source) (p : HPort) (v : Bool) : (s.enabled src p.val v).rd Reg.HLINK.ENABLE p.val = b2n v ∧
    ∀ f ∈ [Reg.HERD.NX, Reg.HERD.NY, Reg.HERD.NZ], (s.enabled src p.val v).rd f = s.rd f := by
  refine ⟨?_, fun f hf => ?_⟩
  · refine (State.rd_auditCmd _ _ _ _ _ _ _ _ _ _ _ _ (hlink_reportKey p).2.1).trans ?_
    refine (State.rd_wr_self ..).trans ?_
    cases v <;> rfl
  · have hk : ∀ f ∈ [Reg.HERD.NX, Reg.HERD.NY, Reg.HERD.NZ], reportKey (f.key 0 0 0) = false ∧ f.key 0 0 0 ≠ Reg.DEV.SEQ_RESULT.key 0 0 0 := by decide
    obtain ⟨h1, h3⟩ := hk f hf
    refine (State.rd_auditCmd _ _ _ _ _ _ _ _ _ _ _ _ h1).trans ?_
    refine (State.rd_wr_ne _ _ _ _ _ _ _ _ _ _ (herdField_ne_hlink p ?_ ?_)).trans ?_
    · exact List.mem_append_left _ hf
    · decide
    · exact State.rd_wrote _ _ _ _ _ _ h3

theorem enable_ne_linkState (p : Nat) : Reg.HLINK.ENABLE.key p 0 0 ≠ Reg.HLINK.LINK_STATE.key p 0 0 :=
  Field.key_ne_of_bit rfl (by decide) (by decide) (by decide)

theorem execHlinkEnable_trains (s : State) (src : Source) (h : HPort) (ht : s.Takes src) (hu : s.portUsed h.val = true)
    (hw : s.flt.wd.get (7 * 65536 + h.val) = false) (hd : s.sec.domain.isSome = true) :
    ∃ t, execHlinkEnable src h true s = .next t ∧ t.linkState h.val = 1 ∧ t.hl.get h.val = { trainAt := s.time.beat } ∧
      (∀ k, k ≠ h.val → t.hl.get k = s.hl.get k) ∧ t.rd Reg.HLINK.ENABLE h.val = 1 ∧ t.herd = s.herd ∧ t.pkts = s.pkts := by
  rw [execHlinkEnable_eq _ _ _ _ ht]
  have hhl := s.enabled_hl src h.val true
  obtain ⟨h1, h2, h2', h3, h4, h5⟩ := s.enabled_frame src h.val true
  obtain ⟨hr, hn⟩ := s.enabled_rd src h true
  generalize s.enabled src h.val true = u at *
  have hm : (u.hl.get h.val).missOut = false := by rw [hhl, Tbl.get_mod_self]
  rw [u.trainPort_trains h.val ((State.portUsed_congr _ h1 h2 hn).trans hu) hr hm (by rw [h3, hw]) (by rw [h2', hd])]
  refine ⟨_, rfl, State.linkState_setHl _ _ (by decide), ?_, fun k hk => ?_, ?_, ?_, ?_⟩
  · rw [(State.ReportsOnly.hl (State.reportsOnly_setHl _ _ _)), ← h1]
    exact Tbl.get_set_self _ _ _
  · rw [(State.ReportsOnly.hl (State.reportsOnly_setHl _ _ _))]
    refine (Tbl.get_set_ne _ _ hk).trans ?_
    rw [hhl, Tbl.get_mod_ne _ _ hk]
  · rw [State.rd_setHl _ _ _ (hlink_reportKey _).2.1 (enable_ne_linkState _)]
    exact hr
  · exact (State.ReportsOnly.frame (State.reportsOnly_setHl _ _ _)).2.1.trans h4
  · exact (State.ReportsOnly.frame (State.reportsOnly_setHl _ _ _)).2.2.1.trans h5

theorem execHlinkEnable_off (s : State) (src : Source) (h : HPort) (ht : s.Takes src) :
    ∃ t, execHlinkEnable src h false s = .next t ∧ t.linkState h.val = 0 ∧ t.rd Reg.HLINK.ENABLE h.val = 0 ∧ t.herd = s.herd ∧ t.pkts = s.pkts := by
  rw [execHlinkEnable_eq _ _ _ _ ht]
  obtain ⟨-, -, -, -, h4, h5⟩ := s.enabled_frame src h.val false
  obtain ⟨hr, -⟩ := s.enabled_rd src h false
  generalize s.enabled src h.val false = u at *
  rw [u.trainPort_down h.val (Or.inl hr)]
  refine ⟨_, rfl, State.linkState_setHl _ _ (by decide), ?_, ?_, ?_⟩
  · rw [State.rd_setHl _ _ _ (hlink_reportKey _).2.1 (enable_ne_linkState _)]
    exact hr
  · exact (State.ReportsOnly.frame (State.reportsOnly_setHl _ _ _)).2.1.trans h4
  · exact (State.ReportsOnly.frame (State.reportsOnly_setHl _ _ _)).2.2.1.trans h5

theorem execHlinkTrained_trained (s : State) (h : HPort) (d : BitVec 16) (hl : s.linkState h.val = 1) :
    ∃ t, execHlinkTrained h d s = .next t ∧ t.linkState h.val = 3 ∧ t.rd Reg.HLINK.LINK_DELAY h.val = d.toNat ∧ s.ReportsOnly t := by
  refine ⟨_, if_pos hl, State.linkState_setHl _ _ (by decide), ?_, State.ReportsOnly.trans (.wr _ _ _ _ _ _) (State.reportsOnly_setHl _ _ _)⟩
  rw [State.rd_setHl _ _ _ (hlink_reportKey _).2.2.1 (Field.key_ne_of_bit rfl (by decide) (by decide) (by decide)), State.rd_wr_self]
  exact Nat.mod_eq_of_lt d.isLt

theorem execTrainFail_fails (s : State) (h : HPort) (hl : s.linkState h.val = 1) (hb : (s.hl.get h.val).trainAt + 2 ^ 20 ≤ s.time.beat) :
    ∃ t, execTrainFail h s = .next t ∧ t.linkState h.val = 2 ∧ s.ReportsOnly t :=
  ⟨_, if_pos ⟨hl, hb⟩, s.linkState_setHl _ (by decide), s.reportsOnly_setHl _ _⟩

theorem execTrainFail_early (s : State) (h : HPort) (hb : s.time.beat < (s.hl.get h.val).trainAt + 2 ^ 20) : execTrainFail h s = .next s :=
  if_neg fun hc => absurd hc.2 (Nat.not_le.mpr hb)

theorem execHlinkLockLoss_trains (s : State) (h : HPort) (h3 : 3 ≤ s.linkState h.val) (h6 : s.linkState h.val ≤ 6) (hu : s.portUsed h.val = true)
    (he : s.rd Reg.HLINK.ENABLE h.val = 1) (hm : (s.hl.get h.val).missOut = false) (hw : s.flt.wd.get (7 * 65536 + h.val) = false)
    (hd : s.sec.domain.isSome = true) : ∃ t, execHlinkLockLoss h s = .next t ∧ t.linkState h.val = 1 ∧ t.hl.get h.val = { trainAt := s.time.beat } ∧
      ({ s with hl := t.hl } : State).ReportsOnly t := by
  refine ⟨_, if_pos ⟨h3, h6⟩, ?_⟩
  rw [s.trainPort_trains h.val hu he hm hw hd]
  have hr := State.reportsOnly_setHl { s with hl := s.hl.set h.val { trainAt := s.time.beat } } h.val 1
  refine ⟨State.linkState_setHl _ _ (by decide), ?_, ?_⟩
  · rw [State.ReportsOnly.hl hr]
    exact Tbl.get_set_self _ _ _
  · rw [State.ReportsOnly.hl hr]
    exact hr

theorem execHlinkLockLoss_down (s : State) (h : HPort) (h3 : 3 ≤ s.linkState h.val) (h6 : s.linkState h.val ≤ 6)
    (hm : (s.hl.get h.val).missOut = true) : ∃ t, execHlinkLockLoss h s = .next t ∧ t.linkState h.val = 0 ∧ (t.hl.get h.val).missOut = true ∧
      ({ s with hl := t.hl } : State).ReportsOnly t := by
  refine ⟨_, if_pos ⟨h3, h6⟩, ?_⟩
  rw [s.trainPort_down h.val (Or.inr hm), hm]
  have hr := State.reportsOnly_setHl { s with hl := s.hl.set h.val { trainAt := s.time.beat, missOut := true } } h.val 0
  refine ⟨State.linkState_setHl _ _ (by decide), ?_, ?_⟩
  · rw [State.ReportsOnly.hl hr]
    exact congrArg HLinkSt.missOut (Tbl.get_set_self _ _ _)
  · rw [State.ReportsOnly.hl hr]
    exact hr

/-! ### Flits -/

/-- A flit is counted. -/
def State.flitCounted (s : State) (p : Nat) (f : FlitF) : State :=
  if f.codewordOk ∧ f.corrected then (s.bump Reg.HLINK.FLITS_RX p).bump Reg.HLINK.CORRECTED p else s.bump Reg.HLINK.FLITS_RX p

theorem State.flitCounted_spec (s : State) (p : Nat) (f : FlitF) : (∃ r, s.flitCounted p f = { s with regs := r }) ∧
    s.Counts (s.flitCounted p f) Reg.HLINK.FLITS_RX p ∧
    (∀ g ∈ [Reg.HLINK.FLIT_LOST, Reg.HLINK.CAP_LOST], (s.flitCounted p f).rd g p = s.rd g p) := by
  have hne : ∀ g ∈ [Reg.HLINK.FLIT_LOST, Reg.HLINK.CAP_LOST], ∀ f ∈ [Reg.HLINK.FLITS_RX, Reg.HLINK.CORRECTED], g.block = f.block ∧
      (g.off + g.stride * 0) * 64 + g.lo + g.bstride * 0 ≠ (f.off + f.stride * 0) * 64 + f.lo + f.bstride * 0 := by decide
  have hrd : ∀ (u : State), ∀ g ∈ [Reg.HLINK.FLIT_LOST, Reg.HLINK.CAP_LOST], ∀ f ∈ [Reg.HLINK.FLITS_RX, Reg.HLINK.CORRECTED],
      (u.bump f p).rd g p = u.rd g p := fun u g hg f hf =>
    u.rd_bump_bit p 0 0 0 0 1 (hne g hg f hf).1 (by decide) (by decide) (hne g hg f hf).2
  rw [State.flitCounted]
  split
  · refine ⟨⟨_, rfl⟩, ?_, fun g hg => ?_⟩
    · simp (disch := decide) [State.Counts, State.rd_bump_bit]
    · rw [hrd _ g hg _ (by decide), hrd _ g hg _ (by decide)]
  · exact ⟨⟨_, rfl⟩, State.rd_bump .., fun g hg => hrd _ g hg _ (by decide)⟩

/-- The port of a flit after its slots are counted. -/
def State.flitSlots (s : State) (p : Nat) (f : FlitF) : State :=
  { s.flitCounted p f with hl := (s.flitCounted p f).hl.mod p (fun x => { x with rxSlots := addSlots x.rxSlots f.vcs }) }

theorem State.flitSlots_hl (s : State) (p : Nat) (f : FlitF) :
    (s.flitSlots p f).hl.get p = { s.hl.get p with rxSlots := addSlots (s.hl.get p).rxSlots f.vcs } ∧
    (∀ k, k ≠ p → (s.flitSlots p f).hl.get k = s.hl.get k) ∧ ∃ r m, s.flitSlots p f = { s with regs := r, hl := m } := by
  obtain ⟨⟨r, hr⟩, -, -⟩ := s.flitCounted_spec p f
  rw [State.flitSlots, hr]
  refine ⟨?_, fun k hk => ?_, _, _, rfl⟩
  · dsimp only
    rw [Tbl.get_mod_self]
  · dsimp only
    rw [Tbl.get_mod_ne _ _ hk]

theorem State.flitSlots_rd (s : State) (p : Nat) (f : FlitF) : s.Counts (s.flitSlots p f) Reg.HLINK.FLITS_RX p ∧
    (∀ g ∈ [Reg.HLINK.FLIT_LOST, Reg.HLINK.CAP_LOST], (s.flitSlots p f).rd g p = s.rd g p) := (s.flitCounted_spec p f).2

/-- The port after a good flit. -/
def HLinkSt.good (x : HLinkSt) (f : FlitF) : HLinkSt :=
  { x with
    seq := some ((f.seq + 1) % 2 ^ 32), missing := x.missing + (x.seq.map (fun e => (f.seq + 2 ^ 32 - e) % 2 ^ 32)).getD 0,
    credit := (List.range 4).map (fun v => x.credit.getD v 0 + leAt f.bytes (8 + v) 1) }

theorem HLinkSt.good_missing {x : HLinkSt} (f : FlitF) {e : Nat} (he : x.seq = some e) :
    (x.good f).missing = x.missing + (f.seq + 2 ^ 32 - e) % 2 ^ 32 := by
  rw [HLinkSt.good]
  dsimp only
  rw [he, Option.map_some, Option.getD_some]

/-- The port has taken a good flit. -/
def State.flitTaken (s : State) (p : Nat) (f : FlitF) : State :=
  { s.flitSlots p f with hl := (s.flitSlots p f).hl.set p (((s.flitSlots p f).hl.get p).good f) }

theorem State.flitTaken_hl (s : State) (p : Nat) (f : FlitF) :
    (s.flitTaken p f).hl.get p = ({ s.hl.get p with rxSlots := addSlots (s.hl.get p).rxSlots f.vcs } : HLinkSt).good f ∧
    (∀ k, k ≠ p → (s.flitTaken p f).hl.get k = s.hl.get k) ∧ ∃ r m, s.flitTaken p f = { s with regs := r, hl := m } := by
  obtain ⟨hx, hk, r, m, hf⟩ := s.flitSlots_hl p f
  rw [State.flitTaken]
  generalize s.flitSlots p f = u at *
  refine ⟨?_, fun k hkp => ?_, r, _, by rw [hf]⟩
  · dsimp only
    rw [Tbl.get_set_self, hx]
  · dsimp only
    rw [Tbl.get_set_ne _ _ hkp, hk k hkp]

theorem State.flitTaken_rd (s : State) (p : Nat) (f : FlitF) : s.Counts (s.flitTaken p f) Reg.HLINK.FLITS_RX p ∧
    (∀ g ∈ [Reg.HLINK.FLIT_LOST, Reg.HLINK.CAP_LOST], (s.flitTaken p f).rd g p = s.rd g p) := s.flitSlots_rd p f

/-- A flit of a stopped herd is captured. -/
def State.flitCaptured (s : State) (p : Nat) (f : FlitF) : State :=
  { s.flitTaken p f with hl := (s.flitTaken p f).hl.mod p (fun z => { z with cap := z.cap ++ [(f.bytes ++ zeros 256).take 256] }) }

theorem execFlitReceive_good_eq (s : State) (h : HPort) (f : FlitF) (h3 : 3 ≤ s.linkState h.val) (h6 : s.linkState h.val ≤ 6)
    (hc : f.codewordOk = true) (hr : f.crcOk = true) : execFlitReceive h f s =
    if (s.flitTaken h.val f).herd.cut ∧ f.vcs.any (fun v => v.val != 0) then
      if ((s.flitSlots h.val f).hl.get h.val).cap.length < 512 then .next (s.flitCaptured h.val f)
      else .next ((s.flitTaken h.val f).bump Reg.HLINK.CAP_LOST h.val)
    else .next (s.flitTaken h.val f) := by
  unfold execFlitReceive
  extract_lets p s1 s2 s3 x
  rw [if_neg (not_not.mpr ⟨h3, h6⟩), if_neg (by simp [hc, hr])]
  rfl

theorem execFlitReceive_good (s : State) (h : HPort) (f : FlitF) (h3 : 3 ≤ s.linkState h.val) (h6 : s.linkState h.val ≤ 6)
    (hc : f.codewordOk = true) (hr : f.crcOk = true) (hcut : s.herd.cut = false) :
    ∃ t, execFlitReceive h f s = .next t ∧ (t.hl.get h.val).seq = some ((f.seq + 1) % 2 ^ 32) ∧
      (t.hl.get h.val).rxSlots = addSlots (s.hl.get h.val).rxSlots f.vcs ∧ (t.hl.get h.val).cap = (s.hl.get h.val).cap ∧
      (∀ e, (s.hl.get h.val).seq = some e → (t.hl.get h.val).missing = (s.hl.get h.val).missing + (f.seq + 2 ^ 32 - e) % 2 ^ 32) ∧
      (∀ k, k ≠ h.val → t.hl.get k = s.hl.get k) ∧ s.Counts t Reg.HLINK.FLITS_RX h.val ∧ t = { s with regs := t.regs, hl := t.hl } := by
  rw [execFlitReceive_good_eq s h f h3 h6 hc hr]
  obtain ⟨hx, hne, r, m, hf⟩ := s.flitTaken_hl h.val f
  obtain ⟨hct, -⟩ := s.flitTaken_rd h.val f
  generalize s.flitTaken h.val f = u at *
  have hcu : u.herd.cut = false := by rw [hf, hcut]
  rw [if_neg fun hc => absurd (hcu.symm.trans hc.1) Bool.false_ne_true]
  refine ⟨u, rfl, ?_, ?_, ?_, fun e he => ?_, hne, hct, by rw [hf]⟩
  · rw [hx, HLinkSt.good]
  · rw [hx, HLinkSt.good]
  · rw [hx, HLinkSt.good]
  · rw [hx, HLinkSt.good_missing (x := { s.hl.get h.val with rxSlots := addSlots (s.hl.get h.val).rxSlots f.vcs }) f he]

theorem execFlitReceive_captured (s : State) (h : HPort) (f : FlitF) (h3 : 3 ≤ s.linkState h.val) (h6 : s.linkState h.val ≤ 6)
    (hc : f.codewordOk = true) (hr : f.crcOk = true) (hcut : s.herd.cut = true) (hv : f.vcs.any (fun v => v.val != 0) = true) (hl : f.bytes.length = 256) :
    ∃ t, execFlitReceive h f s = .next t ∧ t = { s with regs := t.regs, hl := t.hl } ∧
      ((s.hl.get h.val).cap.length < 512 → (t.hl.get h.val).cap = (s.hl.get h.val).cap ++ [f.bytes]) ∧
      (512 ≤ (s.hl.get h.val).cap.length → (t.hl.get h.val).cap = (s.hl.get h.val).cap ∧ s.Counts t Reg.HLINK.CAP_LOST h.val) := by
  rw [execFlitReceive_good_eq s h f h3 h6 hc hr, State.flitCaptured]
  obtain ⟨hx, -, r, m, hf⟩ := s.flitTaken_hl h.val f
  obtain ⟨-, hrd⟩ := s.flitTaken_rd h.val f
  have hcap0 : ((s.flitSlots h.val f).hl.get h.val).cap = (s.hl.get h.val).cap := by rw [(s.flitSlots_hl h.val f).1]
  generalize s.flitTaken h.val f = u at *
  have hcu : u.herd.cut = true := by rw [hf, hcut]
  have hcap : (u.hl.get h.val).cap = (s.hl.get h.val).cap := by rw [hx, HLinkSt.good]
  rw [if_pos ⟨hcu, hv⟩, hcap0]
  have htake : (f.bytes ++ zeros 256).take 256 = f.bytes := by rw [← hl, List.take_left']; rfl
  split
  next hlt =>
    refine ⟨_, rfl, by rw [hf], fun _ => ?_, fun hge => absurd hge (Nat.not_le.mpr hlt)⟩
    have hmod := Tbl.get_mod_self u.hl h.val (fun z => { z with cap := z.cap ++ [(f.bytes ++ zeros 256).take 256] })
    dsimp only
    rw [hmod, htake]
    exact congrArg (· ++ _) hcap
  next hge =>
    refine ⟨_, rfl, by rw [hf]; rfl, fun hlt => absurd hlt hge, fun _ => ⟨hcap, ?_⟩⟩
    rw [State.Counts, State.rd_bump]
    exact congrArg (countUp _) (hrd _ (by decide))

/-- A reduction that waits is void when a flit of its channel is lost. -/
theorem State.redLost_find (s : State) {r : Nat} {x : RedSt} (h : s.herd.red.find? r = some x) (hx : x.have_ = false) :
    s.redLost.herd.red.find? r = some { x with void := true } := by
  have hg : s.herd.red.map (fun e => if e.2.have_ then e else (e.1, { e.2 with void := true })) =
      s.herd.red.map (fun e => (e.1, if e.2.have_ then e.2 else { e.2 with void := true })) :=
    List.map_congr_left fun e _ => by split <;> rfl
  refine (congrArg (fun l => Tbl.find? l r) hg).trans ((Tbl.find?_map_snd s.herd.red (fun x => if x.have_ then x else { x with void := true }) r).trans ?_)
  rw [h, Option.map_some, if_neg (by simp [hx])]

theorem State.redLost_frame (s : State) : ∃ m, s.redLost = { s with herd := m } := ⟨_, rfl⟩

/-- A bad flit is counted and reported. -/
def State.flitLost (s : State) (p : Nat) : State :=
  (s.bump Reg.HLINK.FLIT_LOST p).fault { cls := 8, scope := 7, block := Blk.HLINK, inst := p, unit := p, count := (s.bump Reg.HLINK.FLIT_LOST p).rd Reg.HLINK.FLIT_LOST p }

theorem State.flitLost_spec (s : State) (p : Nat) : s.ReportsOnly (s.flitLost p) ∧ s.Counts (s.flitLost p) Reg.HLINK.FLIT_LOST p ∧
    (s.flitLost p).rd Reg.HLINK.FLITS_RX p = s.rd Reg.HLINK.FLITS_RX p := by
  obtain ⟨-, -, -, h4, h5⟩ := hlink_reportKey p
  refine ⟨.trans (.bump _ _ _ _ _ _) (.fault _ _), (State.rd_fault _ _ _ _ _ _ h5).trans (State.rd_bump ..), ?_⟩
  exact (State.rd_fault _ _ _ _ _ _ h4).trans (State.rd_bump_bit _ _ _ _ _ _ _ rfl (by decide) (by decide) (by decide))

theorem execFlitReceive_bad_eq (s : State) (h : HPort) (f : FlitF) (h3 : 3 ≤ s.linkState h.val) (h6 : s.linkState h.val ≤ 6)
    (hb : f.codewordOk = false ∨ f.crcOk = false) : execFlitReceive h f s =
    .next (if f.vcs.any (fun v => v.val == 1) then ((s.flitSlots h.val f).flitLost h.val).redLost else (s.flitSlots h.val f).flitLost h.val) := by
  unfold execFlitReceive
  extract_lets p s1 s2 s3 x
  rw [if_neg (not_not.mpr ⟨h3, h6⟩), if_pos (by simpa using hb)]
  rfl

theorem State.ReportsOnly.ofHl {r : Tbl Nat} {m : Tbl HLinkSt} (h : u.ReportsOnly t) (hu : u = { s with regs := r, hl := m }) (hm : t.hl = u.hl) :
    ({ s with hl := t.hl } : State).ReportsOnly t := by
  subst hu
  rw [State.ReportsOnly] at h
  obtain ⟨r', q, b, f, w, e⟩ : ∃ r q b f w, t = { s with regs := r, hq := q, host := b, hbm := f, flt := w, hl := m } := ⟨_, _, _, _, _, h⟩
  rw [State.ReportsOnly, hm, e]

theorem State.ReportsOnly.withHerd (h : ({ s with hl := t.hl } : State).ReportsOnly t) {m : HerdSt} (hu : u = { t with herd := m }) :
    ({ s with herd := u.herd, hl := u.hl } : State).ReportsOnly u := by
  rw [State.ReportsOnly] at h ⊢
  obtain ⟨r, q, b, f, w, hl, e⟩ : ∃ r q b f w hl, t = { s with regs := r, hq := q, host := b, hbm := f, flt := w, hl := hl } := ⟨_, _, _, _, _, _, h⟩
  rw [hu, e]

/-- What a bad flit does to the reductions. -/
theorem State.redLost_cases (v : State) (f : FlitF) : ∃ w m, w = { v with herd := m } ∧ (if f.vcs.any (fun v => v.val == 1) then v.redLost else v) = w ∧
    (f.vcs.any (fun v => v.val == 1) = false → m = v.herd) ∧
    (f.vcs.any (fun v => v.val == 1) = true → ∀ r x, v.herd.red.find? r = some x → x.have_ = false → m.red.find? r = some { x with void := true }) := by
  split
  next hv =>
    obtain ⟨m, hm⟩ := v.redLost_frame
    refine ⟨v.redLost, m, hm, rfl, fun h0 => absurd (hv.symm.trans h0) nofun, fun _ r x hr hx => ?_⟩
    have h := v.redLost_find hr hx
    rw [hm] at h
    exact h
  next hv => exact ⟨v, v.herd, rfl, rfl, fun _ => rfl, fun h1 => absurd h1 hv⟩

theorem State.ReportsOnly.withOwnHerd (h : ({ s with hl := t.hl } : State).ReportsOnly t) : ({ s with herd := t.herd, hl := t.hl } : State).ReportsOnly t :=
  h.withHerd (m := t.herd) rfl

/-- What a bad flit leaves. -/
def State.FlitBad (s : State) (p : Nat) (f : FlitF) (t : State) : Prop :=
  s.Counts t Reg.HLINK.FLIT_LOST p ∧ s.Counts t Reg.HLINK.FLITS_RX p ∧
    t.hl.get p = { s.hl.get p with rxSlots := addSlots (s.hl.get p).rxSlots f.vcs } ∧ ({ s with herd := t.herd, hl := t.hl } : State).ReportsOnly t

theorem State.FlitBad.withHerd {p : Nat} {f : FlitF} {v w : State} {m : HerdSt} (h : s.FlitBad p f v) (hh : v.herd = s.herd)
    (hw : w = { v with herd := m }) : s.FlitBad p f w := by
  obtain ⟨h1, h2, h3, h4⟩ := h
  have hwr : w.regs = v.regs := by rw [hw]
  have hwl : w.hl = v.hl := by rw [hw]
  have h4' : ({ s with hl := v.hl } : State).ReportsOnly v := by
    have e : ({ s with herd := v.herd, hl := v.hl } : State) = { s with hl := v.hl } := by rw [hh]
    rwa [e] at h4
  refine ⟨?_, ?_, ?_, h4'.withHerd hw⟩
  · rw [State.Counts, State.rd_congr hwr]
    exact h1
  · rw [State.Counts, State.rd_congr hwr]
    exact h2
  · rw [hwl]
    exact h3

theorem State.flitBad_flitLost (s : State) (p : Nat) (f : FlitF) : s.FlitBad p f ((s.flitSlots p f).flitLost p) ∧
    ((s.flitSlots p f).flitLost p).herd = s.herd := by
  obtain ⟨hx, -, r, m, hf⟩ := s.flitSlots_hl p f
  obtain ⟨hct, hrd⟩ := s.flitSlots_rd p f
  obtain ⟨hro, hlc, hrx⟩ := (s.flitSlots p f).flitLost_spec p
  generalize s.flitSlots p f = u at *
  generalize u.flitLost p = v at *
  obtain ⟨hvl, hvh, -, -⟩ := hro.frame
  have huh : u.herd = s.herd := by rw [hf]
  have hrs : ({ s with hl := v.hl } : State).ReportsOnly v := hro.ofHl hf hvl
  refine ⟨⟨?_, hrx.trans hct, by rw [hvl, hx], hrs.withOwnHerd⟩, hvh.trans huh⟩
  rw [State.Counts, hlc, hrd _ (by decide)]

theorem execFlitReceive_bad (s : State) (h : HPort) (f : FlitF) (h3 : 3 ≤ s.linkState h.val) (h6 : s.linkState h.val ≤ 6)
    (hb : f.codewordOk = false ∨ f.crcOk = false) :
    ∃ t, execFlitReceive h f s = .next t ∧ s.Counts t Reg.HLINK.FLIT_LOST h.val ∧ s.Counts t Reg.HLINK.FLITS_RX h.val ∧
      t.hl.get h.val = { s.hl.get h.val with rxSlots := addSlots (s.hl.get h.val).rxSlots f.vcs } ∧
      (f.vcs.any (fun v => v.val == 1) = false → t.herd = s.herd) ∧
      (f.vcs.any (fun v => v.val == 1) = true → ∀ r x, s.herd.red.find? r = some x → x.have_ = false → t.herd.red.find? r = some { x with void := true }) ∧
      ({ s with herd := t.herd, hl := t.hl } : State).ReportsOnly t := by
  rw [execFlitReceive_bad_eq s h f h3 h6 hb]
  obtain ⟨hv, hvh⟩ := s.flitBad_flitLost h.val f
  generalize (s.flitSlots h.val f).flitLost h.val = v at *
  obtain ⟨w, m, hw, he, hoff, hon⟩ := v.redLost_cases f
  obtain ⟨h1, h2, h4, h5⟩ := hv.withHerd hvh hw
  have hwh : w.herd = m := by rw [hw]
  rw [he]
  rw [hvh] at hoff hon
  rw [← hwh] at hoff hon
  exact ⟨w, rfl, h1, h2, h4, hoff, hon, h5⟩


/-! ### What HELLO and the marker change -/

theorem State.linkState_congr (p : Nat) (h : ∀ f i j k, t.rd f i j k = s.rd f i j k) : t.linkState p = s.linkState p := h _ _ _ _

/-- t has heard its markers when s did, and has the same ports, time and packets. -/
def State.KeepsHeard (s t : State) : Prop :=
  t.herd.heard = s.herd.heard ∧ t.hl = s.hl ∧ t.time = s.time ∧ t.pkts = s.pkts

theorem State.KeepsHeard.refl (s : State) : s.KeepsHeard s := ⟨rfl, rfl, rfl, rfl⟩

theorem State.KeepsHeard.trans (h : s.KeepsHeard t) (h' : t.KeepsHeard u) : s.KeepsHeard u :=
  ⟨h'.1.trans h.1, h'.2.1.trans h.2.1, h'.2.2.1.trans h.2.2.1, h'.2.2.2.trans h.2.2.2⟩

theorem State.ReportsOnly.keepsHeard (h : s.ReportsOnly t) : s.KeepsHeard t := by
  obtain ⟨h1, h2, h3, h4⟩ := h.stands
  exact ⟨by rw [h2], h1, h4, h3⟩

theorem State.Sends.keepsHeard (h : s.Sends t) : s.KeepsHeard t := by
  obtain ⟨o, rfl⟩ := h
  exact ⟨rfl, rfl, rfl, rfl⟩

theorem State.keepsHeard_creqLost (s : State) : s.KeepsHeard s.creqLost := by
  have hd (t : State) (k : CommitKind) : t.KeepsHeard (t.creqDrop k) := by
    cases k with
    | rules => exact keeps_ite (t.reportsOnly_setCommitState 0).keepsHeard (.refl t)
    | context c => exact .refl _
  have hf (l : List (CommitKind × Nat)) (t : State) : t.KeepsHeard (l.foldl (fun t e => t.creqDrop e.1) t) := by
    induction l generalizing t with
    | nil => exact .refl t
    | cons e l ih => exact (hd t e.1).trans (ih _)
  rw [State.creqLost]
  by_cases he : s.herd.creqPend.isEmpty = true
  · rw [if_pos he]
    exact .refl s
  rw [if_neg he]
  have hv := hf s.herd.creqPend s
  generalize s.herd.creqPend.foldl (fun t e => t.creqDrop e.1) s = v at *
  have h1 : v.KeepsHeard { v with herd := { v.herd with creqPend := [] } } := .refl v
  exact (hv.trans h1).trans (State.ReportsOnly.wr_event _ _ _ _ _ _ _ _ _).keepsHeard

theorem State.keepsHeard_becomeAlone (s : State) : s.KeepsHeard s.becomeAlone := by
  have h1 := s.keepsHeard_creqLost
  rw [State.becomeAlone_eq]
  generalize s.creqLost = v at *
  have h2 : v.KeepsHeard v.keepRoutes := .refl v
  have h3 := (v.keepRoutes.reportsOnly_setHerdState 0).keepsHeard
  generalize v.keepRoutes = v' at *
  generalize v'.setHerdState 0 = w at *
  exact ((h1.trans h2).trans h3).trans ⟨w.aloneOf_herd.2.2.2.1, w.aloneOf_frame⟩

theorem State.keepsHeard_departBy (s : State) (n : Nat) : s.KeepsHeard (s.departBy n) :=
  ((s.reportsOnly_setHerdState 3).keepsHeard.trans (State.sends_sendDepart _ _).keepsHeard).trans (.refl _)

theorem State.keepsHeard_herdSteer (s : State) : s.KeepsHeard s.herdSteer := by
  rw [State.herdSteer]
  exact keeps_ite (.refl s) ⟨rfl, rfl, rfl, rfl⟩

/-- What a marker's stop beat does. -/
def State.markerStopBeat (s : State) (b : Option Nat) : State :=
  match b with
  | some b =>
    if s.herd.stopAt = some b ∨ s.herd.stopped ∨ b ≤ s.time.beat then s
    else { (s.wr Reg.HERD.STOP_STATE 1).event Blk.HERD 0 3 with herd := { s.herd with stopAt := some b, resumeAt := none } }
  | none => s

/-- What a marker's resume beat does. -/
def State.markerResume (s : State) (b : Option Nat) : State :=
  match b with
  | some b =>
    if s.herd.resumeAt = some b ∨ s.herd.stopAt.isNone ∨ b ≤ s.time.beat then s
    else { (s.wr Reg.HERD.STOP_STATE 3).event Blk.HERD 0 3 with herd := { s.herd with resumeAt := some b } }
  | none => s

theorem State.markerStop_eq (s : State) (f : MarkerF) :
    s.markerStop f = if s.herdState < 2 then s else (s.markerStopBeat f.stopBeat).markerResume f.resumeBeat := rfl

theorem State.ReportsOnly.keepsHeard_herd (h : s.ReportsOnly t) {m : HerdSt} (hm : m.heard = s.herd.heard) : s.KeepsHeard { t with herd := m } := by
  obtain ⟨h1, -, h3, h4⟩ := h.stands
  exact ⟨hm, h1, h4, h3⟩

theorem State.keepsHeard_markerStopBeat (s : State) (b : Option Nat) : s.KeepsHeard (s.markerStopBeat b) := by
  cases b with
  | none => exact .refl s
  | some b =>
    rw [State.markerStopBeat]
    exact keeps_ite (.refl s) ((State.ReportsOnly.wr_event s Reg.HERD.STOP_STATE 1 0 0 0 Blk.HERD 0 3).keepsHeard_herd rfl)

theorem State.keepsHeard_markerResume (s : State) (b : Option Nat) : s.KeepsHeard (s.markerResume b) := by
  cases b with
  | none => exact .refl s
  | some b =>
    rw [State.markerResume]
    exact keeps_ite (.refl s) ((State.ReportsOnly.wr_event s Reg.HERD.STOP_STATE 3 0 0 0 Blk.HERD 0 3).keepsHeard_herd rfl)

theorem State.keepsHeard_markerStop (s : State) (f : MarkerF) : s.KeepsHeard (s.markerStop f) := by
  rw [State.markerStop_eq]
  exact keeps_ite (.refl s) ((s.keepsHeard_markerStopBeat _).trans (State.keepsHeard_markerResume _ _))

theorem State.keepsHeard_ofRegs (h : t = { s with regs := t.regs }) : s.KeepsHeard t := by
  rw [h]
  exact .refl _

/-- The phase that a device in the fold takes from its reference port's marker. -/
def State.refPhase (s : State) (p : Nat) (f : MarkerF) : State :=
  let own : Int := s.now
  let offset : Int := own - (f.beat : Int) * 512 - s.rd Reg.HLINK.LINK_DELAY p
  let err := clampInt (-32768) 32767 (offset + f.phaseErr)
  let s := (s.wr Reg.HERD.PHASE_ERR (ofSigned 16 err)).wr Reg.HERD.BW_HOPS (Nat.min (f.dist + 1) noHops)
  let s := if f.dist = 0 then s.wr Reg.HERD.BW_ID (s.rd Reg.HLINK.PEER_ID p) else s
  s.herdSteer

/-- A device in office for a marker's bellwether ends its election. -/
def State.refElection (s : State) : State :=
  let inOffice : Bool := match s.herd.t0 with
    | some t => decide (epochFrom (t + 1024) ≤ s.time.beat)
    | none => false
  if s.electing ∧ inOffice then s.electionOver ((s.herd.best.map (·.2)).getD s.bwId) else s

/-- What a member does with its reference port's beat and count of members. -/
def State.refBeat (s : State) (b : Nat) (f : MarkerF) : State :=
  if s.herdState = 2 ∧ f.beat ≠ b then s.departBy (b + 1)
  else if s.herdState = 2 ∧ f.members ≠ s.herd.members.length then (s.sendDepart s.ownId).becomeAlone
  else { s with herd := { s.herd with rootVoid := f.redVoid.or s.herd.rootVoid } }

theorem State.refMarker_eq (s : State) (p : Nat) (f : MarkerF) : s.refMarker p f =
    if s.herdState = 0 ∨ s.isBw then s
    else if s.herdState = 1 ∧ (64 < (f.beat : Int) - s.time.beat ∨ (f.beat : Int) - s.time.beat < -64) then (s.joinOver 2).becomeAlone
    else (s.refPhase p f).refElection.refBeat (s.refPhase p f).refElection.time.beat f := rfl

theorem State.keepsHeard_refPhase (s : State) (p : Nat) (f : MarkerF) : s.KeepsHeard (s.refPhase p f) := by
  unfold State.refPhase
  extract_lets own off err s1 s2
  have h1 : s.KeepsHeard s1 := .refl s
  clear_value s1
  have h2 : s.KeepsHeard s2 := keeps_ite (P := fun u => s.KeepsHeard u) (h1.trans (State.keepsHeard_ofRegs rfl)) h1
  clear_value s2
  exact h2.trans (State.keepsHeard_herdSteer s2)

theorem State.keepsHeard_refElection (s : State) : s.KeepsHeard s.refElection := by
  have ho (u : State) (b : Nat) : u.KeepsHeard (u.electionOver b) := .refl u
  exact keeps_ite (ho s _) (.refl s)

theorem State.keepsHeard_refBeat (s : State) (b : Nat) (f : MarkerF) : s.KeepsHeard (s.refBeat b f) := by
  have hr (m : Option Bool) : s.KeepsHeard { s with herd := { s.herd with rootVoid := m } } := .refl s
  refine keeps_ite (State.keepsHeard_departBy _ _) (keeps_ite ?_ (hr _))
  exact (State.sends_sendDepart s _).keepsHeard.trans (State.keepsHeard_becomeAlone _)

theorem State.keepsHeard_refMarker (s : State) (p : Nat) (f : MarkerF) : s.KeepsHeard (s.refMarker p f) := by
  have hj : s.KeepsHeard (s.joinOver 2) := .refl s
  rw [State.refMarker_eq]
  have h1 := s.keepsHeard_refPhase p f
  generalize s.refPhase p f = v at *
  have h2 := v.keepsHeard_refElection
  generalize v.refElection = w at *
  refine keeps_ite (.refl s) (keeps_ite (hj.trans (State.keepsHeard_becomeAlone _)) ?_)
  exact (h1.trans h2).trans (w.keepsHeard_refBeat _ f)

/-- The port's page and the time of the last marker after one on an accepted port. -/
def State.marked (s : State) (p : Nat) (f : MarkerF) : State :=
  { s with
    hl := s.hl.mod p (fun x => { x with
                                 peerDist := some f.dist, peerPhase := f.phaseErr, lastMarker := some s.time.beat, peerBeat := f.beat,
                                 peerMembers := f.members, credit := f.credits, redVoid := f.redVoid })
    herd := { s.herd with heard := if f.dist < noHops then s.time.beat else s.herd.heard } }

theorem State.marked_hl (s : State) (p : Nat) (f : MarkerF) :
    (s.marked p f).hl.get p = { s.hl.get p with
                                peerDist := some f.dist, peerPhase := f.phaseErr, lastMarker := some s.time.beat, peerBeat := f.beat,
                                peerMembers := f.members, credit := f.credits, redVoid := f.redVoid } ∧
      ∀ k, k ≠ p → (s.marked p f).hl.get k = s.hl.get k :=
  by
  rw [State.marked]
  constructor
  · dsimp only
    rw [Tbl.get_mod_self]
  · intro k hk
    dsimp only
    rw [Tbl.get_mod_ne _ _ hk]

theorem execMarker_eq (s : State) (h : HPort) (m : MsgHdr) (f : MarkerF) (hu : s.hlUp h.val = true) :
    execMarker h m f s = .next (if ((s.marked h.val f).markerStop f).refPort = some h.val then ((s.marked h.val f).markerStop f).refMarker h.val f
      else (s.marked h.val f).markerStop f) := if_pos hu

theorem execMarker_heard (s : State) (h : HPort) (m : MsgHdr) (f : MarkerF) (hu : s.hlUp h.val = true) :
    ∃ t, execMarker h m f s = .next t ∧ t.herd.heard = (if f.dist < noHops then s.time.beat else s.herd.heard) ∧
      t.hl.get h.val = { s.hl.get h.val with
                         peerDist := some f.dist, peerPhase := f.phaseErr, lastMarker := some s.time.beat, peerBeat := f.beat,
                         peerMembers := f.members, credit := f.credits, redVoid := f.redVoid } ∧
      (∀ k, k ≠ h.val → t.hl.get k = s.hl.get k) ∧ t.time = s.time ∧ t.pkts = s.pkts := by
  rw [execMarker_eq s h m f hu]
  have h2 := (s.marked h.val f).keepsHeard_markerStop f
  generalize (s.marked h.val f).markerStop f = v at *
  obtain ⟨e1, e2, e3, e4⟩ : (s.marked h.val f).KeepsHeard (if v.refPort = some h.val then v.refMarker h.val f else v) :=
    keeps_ite (h2.trans (v.keepsHeard_refMarker _ f)) h2
  obtain ⟨g1, g2⟩ := s.marked_hl h.val f
  exact ⟨_, rfl, e1, by rw [e2, g1], fun k hk => by rw [e2, g2 k hk], e3, e4⟩

theorem execMarker_down (s : State) (h : HPort) (m : MsgHdr) (f : MarkerF) (hu : s.hlUp h.val = false) : execMarker h m f s = .next s :=
  if_neg (Bool.eq_false_iff.mp hu)

/-! ### HELLO -/

theorem herdField_ne_hlinkField (p : HPort) {f g : Field} (hf : f ∈ Reg.TIME.ORIGIN_SEC :: herdFields) (hg : g ∈ hlinkFields) :
    f.key 0 0 0 ≠ g.key p.val 0 0 ∧ reportKey (f.key 0 0 0) = false := by
  have h1 : ∀ f ∈ Reg.TIME.ORIGIN_SEC :: herdFields, f.lo + f.bstride * 0 < 64 ∧ f.off + f.stride * 0 < 4096 ∧
    (pageBase f.block 0 < 294912 ∨ 344064 ≤ pageBase f.block 0) ∧
    reportKey (f.key 0 0 0) = false := by decide
  have h2 : ∀ g ∈ hlinkFields, g.lo + g.bstride * 0 < 64 ∧ g.off + g.stride * 0 < 4096 ∧ pageBase g.block 0 = 294912 := by decide
  obtain ⟨hl, ho, hp, hr⟩ := h1 f hf
  obtain ⟨hl', ho', hp'⟩ := h2 g hg
  refine ⟨Field.key_ne_of_page (by decide) hl' ho' (by decide) hl ho ?_, hr⟩
  rw [pageBase_eq g.block, hp']
  omega

/-- The port's page after HELLO. -/
def State.greeted (s : State) (p : Nat) (f : HelloF) : State :=
  { (s.wr Reg.HLINK.PEER_ID (idOf f.x f.y f.z) p).wr Reg.HLINK.PEER_PORT f.port.val p with hl := s.hl.mod p (fun x => { x with peer := some f }) }

theorem State.rd_greeted (s : State) (p : HPort) (f : HelloF) {g : Field} (hg : g ∈ Reg.TIME.ORIGIN_SEC :: herdFields) :
    (s.greeted p.val f).rd g = s.rd g :=
  (State.rd_wr_ne _ _ _ _ _ _ _ _ _ _ (herdField_ne_hlinkField p hg (by decide)).1).trans
    (State.rd_wr_ne _ _ _ _ _ _ _ _ _ _ (herdField_ne_hlinkField p hg (by decide)).1)

theorem State.helloSame_congr (f : HelloF) (hs : t.sec = s.sec) (hr : ∀ g ∈ Reg.TIME.ORIGIN_SEC :: herdFields, t.rd g = s.rd g) :
    t.helloSame f = s.helloSame f := by
  simp only [State.helloSame, State.domainId, State.dimSize, hs, hr Reg.TIME.ORIGIN_SEC (by decide), hr Reg.HERD.NX (by decide), hr Reg.HERD.NY (by decide),
    hr Reg.HERD.NZ (by decide), hr Reg.HERD.EXPECTED (by decide)]

theorem State.wiringOk_congr (p : Nat) (f : HelloF) (hr : ∀ g ∈ Reg.TIME.ORIGIN_SEC :: herdFields, t.rd g = s.rd g) : t.wiringOk p f = s.wiringOk p f := by
  simp only [State.wiringOk, State.ownId, State.dimSize, hr Reg.HERD.NX (by decide), hr Reg.HERD.NY (by decide), hr Reg.HERD.NZ (by decide),
    hr Reg.HERD.COORD_X (by decide), hr Reg.HERD.COORD_Y (by decide), hr Reg.HERD.COORD_Z (by decide)]

/-- A device that wants to join enters the fold when a port is up; nothing else of it changes. -/
theorem State.enterFold_spec (s : State) (p : HPort) : s.enterFold.linkState p.val = s.linkState p.val ∧ s.enterFold.hl = s.hl ∧ s.enterFold.pkts = s.pkts ∧
    s.enterFold.time = s.time ∧ (s.linkState p.val = 4 → s.herdState = 0 → s.herd.joinWant = true → s.enterFold.herdState = 1) := by
  obtain ⟨v, hv⟩ : ∃ v, s.setHerdState 1 = v := ⟨_, rfl⟩
  have hrd : v.linkState p.val = s.linkState p.val := by
    rw [← hv]
    refine State.rd_setHerdState s 1 (hlink_reportKey _).1 (Ne.symm ?_)
    exact herdField_ne_hlink p (by decide) (by decide)
  have hst : v.herdState = 1 := by
    rw [← hv]
    exact s.herdState_setHerdState (by decide)
  obtain ⟨h1, -, h3, h4⟩ : v.hl = s.hl ∧ v.herd = s.herd ∧ v.pkts = s.pkts ∧ v.time = s.time := by
    rw [← hv]
    exact (s.reportsOnly_setHerdState 1).stands
  rw [State.enterFold, hv]
  by_cases hc : s.herdState = 0 ∧ s.herd.joinWant = true ∧ (List.range 12).any s.hlUp = true
  · rw [if_pos hc]
    exact ⟨hrd, h1, h3, h4, fun _ _ _ => hst⟩
  · rw [if_neg hc]
    refine ⟨rfl, rfl, rfl, rfl, fun hu h0 hw => absurd ⟨h0, hw, ?_⟩ hc⟩
    exact List.any_eq_true.mpr ⟨p.val, List.mem_range.mpr p.isLt, decide_eq_true hu⟩

theorem execHello_eq (s : State) (h : HPort) (m : MsgHdr) (f : HelloF) (h3 : 3 ≤ s.linkState h.val) (h6 : s.linkState h.val ≤ 6) :
    execHello h m f s = .next (((s.greeted h.val f).setHl h.val (if ¬ (s.greeted h.val f).helloSame f then 6 else
      if ¬ (s.greeted h.val f).wiringOk h.val f then 5 else 4)).enterFold) :=
  if_neg (not_not_intro ⟨h3, h6⟩)

theorem State.greeted_setHl (s : State) (p : HPort) (f : HelloF) (v : Nat) (hv : v < 8) (t : State) (ht : t = (s.greeted p.val f).setHl p.val v) :
    t.linkState p.val = v ∧ t.herdState = s.herdState ∧ t.herd = s.herd ∧ t.hl = s.hl.mod p.val (fun x => { x with peer := some f }) ∧
      t.pkts = s.pkts ∧ t.time = s.time := by
  have hmem : Reg.HERD.STATE ∈ Reg.TIME.ORIGIN_SEC :: herdFields := by decide
  obtain ⟨h1, h2, h3, h4⟩ := (State.reportsOnly_setHl (s.greeted p.val f) p.val v).stands
  obtain ⟨hk, hr⟩ := herdField_ne_hlinkField p hmem (g := Reg.HLINK.LINK_STATE) (by decide)
  rw [ht]
  exact ⟨State.linkState_setHl _ _ hv, (State.rd_setHl _ _ _ hr hk).trans (s.rd_greeted p f hmem), h2, h1, h3, h4⟩

theorem execHello_greets (s : State) (h : HPort) (m : MsgHdr) (f : HelloF) (h3 : 3 ≤ s.linkState h.val) (h6 : s.linkState h.val ≤ 6) :
    ∃ t, execHello h m f s = .next t ∧ (t.hl.get h.val).peer = some f ∧ (∀ k, k ≠ h.val → t.hl.get k = s.hl.get k) ∧
      (s.helloSame f = false → t.linkState h.val = 6) ∧ (s.helloSame f = true → s.wiringOk h.val f = false → t.linkState h.val = 5) ∧
      (s.helloSame f = true → s.wiringOk h.val f = true → t.linkState h.val = 4 ∧ (s.herdState = 0 → s.herd.joinWant = true → t.herdState = 1)) ∧
      t.pkts = s.pkts ∧ t.time = s.time := by
  rw [execHello_eq s h m f h3 h6, State.helloSame_congr (t := s.greeted h.val f) (s := s) f rfl (fun _ hg => s.rd_greeted h f hg),
    State.wiringOk_congr (t := s.greeted h.val f) (s := s) h.val f (fun _ hg => s.rd_greeted h f hg)]
  obtain ⟨v, hv⟩ : ∃ v, (if ¬ s.helloSame f then 6 else if ¬ s.wiringOk h.val f then 5 else 4) = v := ⟨_, rfl⟩
  have hv8 : v < 8 := by
    rw [← hv]
    split_ifs <;> decide
  rw [hv]
  obtain ⟨t, ht⟩ : ∃ t, t = (s.greeted h.val f).setHl h.val v := ⟨_, rfl⟩
  rw [← ht]
  obtain ⟨e1, e2, e3, e4, e5, e6⟩ := s.greeted_setHl h f v hv8 t ht
  obtain ⟨g1, g2, g3, g4, g5⟩ := t.enterFold_spec h
  have hjoin : t.linkState h.val = 4 → s.herdState = 0 → s.herd.joinWant = true → t.enterFold.herdState = 1 := fun h4 h0 hw =>
    g5 h4 (e2.trans h0) (by rw [e3]; exact hw)
  refine ⟨_, rfl, ?_, fun k hk => ?_, fun hs => ?_, fun hs hw => ?_, fun hs hw => ⟨?_, ?_⟩, g3.trans e5, g4.trans e6⟩
  · rw [g2, e4, Tbl.get_mod_self]
  · rw [g2, e4, Tbl.get_mod_ne _ _ hk]
  · rw [g1, e1, ← hv, hs]
    rfl
  · rw [g1, e1, ← hv, hs, hw]
    rfl
  · rw [g1, e1, ← hv, hs, hw]
    rfl
  · refine hjoin ?_
    rw [e1, ← hv, hs, hw]
    rfl

/-- Settles O24. -/
theorem herdLinkCommands : Obligations.HerdLinkCommands :=
  ⟨execHlinkEnable_trains, execHlinkEnable_off, execHlinkTrained_trained, execTrainFail_fails, execTrainFail_early, execHlinkLockLoss_trains,
    execHlinkLockLoss_down, execFlitReceive_good, execFlitReceive_bad, execFlitReceive_captured, execHello_greets, execMarker_heard,
    execMarker_down⟩

end Sys2Proof.Machine
end

section
/-! PROOF. Messages that arrive, the ways through the herd, and departures. -/

namespace Sys2Proof.Machine

-- One thread for the proofs, which bounds the memory that checking them takes.
set_option Elab.async false

open Sys2Proof

variable {s t u : State}

/-! ### A message for this device -/

theorem State.recv_own {h : HPort} {m : MsgHdr} {kind : Nat} (args : List Int) (k : State → State) (hu : s.hlUp h.val = true)
    (hk : kind < 16 ∨ s.herd.cut = false) (hd : m.dest.val = s.ownId) : s.recv h m kind args k = .next (k s) := by
  have hno : ¬ (¬ s.hlUp h.val = true ∨ (16 ≤ kind ∧ s.herd.cut = true)) := by
    rintro (h1 | ⟨h1, h2⟩)
    · exact h1 hu
    · rcases hk with hk | hk
      · omega
      · exact absurd (h2.symm.trans hk) nofun
  rw [State.recv, if_neg hno, if_pos hd]

/-! ### Ways through the herd -/

theorem dimPath_self (n a : Nat) : dimPath n a a = [] := by
  have h : (a + n - a) % n = 0 := by simp
  simp [dimPath, h]

theorem withCoord_self (x d : Nat) : withCoord x d (coordOf x d) = x := by
  have h (e : Nat) : (if d = e then coordOf x d else coordOf x e) = coordOf x e := by
    split
    next hd => rw [hd]
    next => rfl
  rw [withCoord, h, h, h]
  simp only [coordOf, idOf, if_true, if_neg (show ¬ (1 : Nat) = 0 by decide), if_neg (show ¬ (2 : Nat) = 0 by decide),
    if_neg (show ¬ (2 : Nat) = 1 by decide)]
  omega

theorem State.routeBy_self (s : State) (l : List Nat) (x : Nat) : s.routeBy l x x = [] := by
  have key : ∀ (l : List Nat), (l.foldl (fun (acc : Nat × List Nat) d =>
      (withCoord acc.1 d (coordOf x d), acc.2 ++ (dimPath (s.dimSize d) (coordOf acc.1 d) (coordOf x d)).map (withCoord acc.1 d))) (x, [])) = (x, []) := by
    intro l
    induction l with
    | nil => rfl
    | cons d l ih =>
      rw [List.foldl_cons]
      simp only [dimPath_self, withCoord_self, List.map_nil, List.append_nil]
      exact ih
  rw [State.routeBy]
  exact congrArg Prod.snd (key l)

/-- A device that is no member reaches no other by a route. -/
theorem State.outPort_alone (s : State) (d : Nat) (h : s.herdState < 2) : s.outPort d = none := by
  have hml : s.memberList = [s.ownId] := if_neg (by simpa [State.isMember] using h)
  rw [State.outPort]
  split
  next n r hr =>
    rw [State.route, hml] at hr
    have hp := List.find?_some hr
    have hd : d = s.ownId := by
      have := (Bool.and_eq_true _ _ ▸ hp).2
      simpa using this
    have hm := List.mem_of_find?_eq_some hr
    rw [hd, State.routesOf] at hm
    simp [State.routeBy_self] at hm
  next => rfl

/-- The fields by which a device finds its ways through the herd. -/
def State.SameWays (s t : State) : Prop :=
  (∀ f ∈ [Reg.HERD.NX, Reg.HERD.NY, Reg.HERD.NZ, Reg.HERD.STATE, Reg.HERD.COORD_X, Reg.HERD.COORD_Y, Reg.HERD.COORD_Z], t.rd f = s.rd f) ∧
    (∀ p : HPort, t.hlUp p.val = s.hlUp p.val) ∧ t.herd.members = s.herd.members

theorem State.SameWays.trans (h : s.SameWays t) (h' : t.SameWays u) : s.SameWays u :=
  ⟨fun f hf => (h'.1 f hf).trans (h.1 f hf), fun p => (h'.2.1 p).trans (h.2.1 p), h'.2.2.trans h.2.2⟩

theorem State.Sends.sameWays (h : s.Sends t) : s.SameWays t :=
  ⟨fun f _ => h.rd f 0 0 0, fun p => by rw [State.hlUp, State.hlUp, h.rd], by rw [h.herd]⟩

theorem State.SameWays.dimSize (h : s.SameWays t) (d : Nat) : t.dimSize d = s.dimSize d := by
  rw [State.dimSize, State.dimSize, h.1 _ (by decide), h.1 _ (by decide), h.1 _ (by decide)]

theorem State.SameWays.ownId (h : s.SameWays t) : t.ownId = s.ownId := by
  rw [State.ownId, State.ownId, h.1 _ (by decide), h.1 _ (by decide), h.1 _ (by decide)]

theorem State.SameWays.memberList (h : s.SameWays t) : t.memberList = s.memberList := by
  rw [State.memberList, State.memberList, State.isMember, State.isMember, State.herdState, State.herdState, h.1 _ (by decide), h.2.2, h.ownId]

theorem State.SameWays.routeBy (h : s.SameWays t) (l : List Nat) (x y : Nat) : t.routeBy l x y = s.routeBy l x y := by
  simp only [State.routeBy, h.dimSize]

theorem State.SameWays.route (h : s.SameWays t) (x y : Nat) : t.route x y = s.route x y := by
  simp only [State.route, State.routesOf, h.routeBy, h.memberList]

theorem State.SameWays.portFor (h : s.SameWays t) (x y z : Nat) : t.portFor x y z = s.portFor x y z := by
  simp only [State.portFor, h.dimSize]

theorem State.portFor_lt (s : State) (x y z : Nat) : s.portFor x y z < 12 := by
  have hd : ((([0, 1, 2] : List Nat).find? (fun d => decide (coordOf x d ≠ coordOf y d))).getD 0) ≤ 2 := by
    cases hf : ([0, 1, 2] : List Nat).find? (fun d => decide (coordOf x d ≠ coordOf y d)) with
    | none => exact Nat.zero_le _
    | some d =>
      have := List.mem_of_find?_eq_some hf
      simp only [List.mem_cons, List.not_mem_nil, or_false] at this
      rcases this with rfl | rfl | rfl <;> decide
  unfold State.portFor
  extract_lets d up
  have hi : (if up = true then 0 else 2) ≤ 2 := by split <;> omega
  change d ≤ 2 at hd
  omega

theorem State.SameWays.upPort (h : s.SameWays t) {p : Nat} (hp : p < 12) : t.upPort p = s.upPort p := by
  have hq : pairPort p < 12 := by
    rw [pairPort]
    omega
  rw [State.upPort, State.upPort, h.2.1 ⟨p, hp⟩, h.2.1 ⟨pairPort p, hq⟩]

theorem State.SameWays.outPort (h : s.SameWays t) (d : Nat) : t.outPort d = s.outPort d := by
  rw [State.outPort, State.outPort, h.ownId, h.route]
  split
  next => rw [h.portFor, h.upPort (State.portFor_lt _ _ _ _)]
  next => rfl

theorem herdField_ne_linkState (p : HPort) {f : Field} (hb : f.block = Blk.HERD) (hl : f.lo < 64) (ho : f.off < 4096) :
    Reg.HLINK.LINK_STATE.key p.val 0 0 ≠ f.key 0 0 0 := by
  have h0 : pageBase Reg.HLINK.LINK_STATE.block 0 = 294912 := by decide
  have h1 : pageBase Blk.HERD 0 = 344064 := by decide
  refine Field.key_ne_of_page (by decide) (by omega) (by omega) (by decide) (by decide) (by decide) ?_
  rw [pageBase_eq Reg.HLINK.LINK_STATE.block, h0, hb, h1]
  omega

/-- A write of another field of page HERD changes no way through the herd. -/
theorem State.sameWays_wr (s : State) (f : Field) (v : Nat) (hb : f.block = Blk.HERD) (hl : f.lo < 64) (ho : f.off < 4096)
    (hk : ∀ g ∈ [Reg.HERD.NX, Reg.HERD.NY, Reg.HERD.NZ, Reg.HERD.STATE, Reg.HERD.COORD_X, Reg.HERD.COORD_Y, Reg.HERD.COORD_Z], g.key 0 0 0 ≠ f.key 0 0 0) :
    s.SameWays (s.wr f v) := by
  refine ⟨fun g hg => State.rd_wr_ne _ _ _ _ _ _ _ _ _ _ (hk g hg), fun p => ?_, rfl⟩
  rw [State.hlUp, State.hlUp, State.rd_wr_ne _ _ _ _ _ _ _ _ _ _ (herdField_ne_linkState p hb hl ho)]

/-! ### A message for a device that joins -/

theorem State.sends_sendJoiner (s : State) (k d : Nat) (l : List Int) : s.Sends (s.sendJoiner k d l) := by
  have h := s.sends_sendTo k d l
  rw [State.sendJoiner]
  split
  next t ht =>
    rw [ht] at h
    exact h
  next t ht =>
    rw [ht] at h
    exact h.trans (State.sends_flood _ _ _ _ _)

/-- A message for a device that joins goes its way, or by every port that is up. -/
theorem State.mem_sendJoiner (s : State) {p k d : Nat} (l : List Int) (hp : s.outPort d = some p ∨ (s.outPort d = none ∧ p < 12 ∧ s.hlUp p = true))
    (hk : k < 16) : s.message p k d l ∈ (s.sendJoiner k d l).herd.out := by
  rcases hp with hp | ⟨hn, hp, hu⟩
  · have h1 := s.mem_sendTo l hp (Or.inl hk)
    have h2 := s.sendTo_some k l hp
    rw [State.sendJoiner]
    split
    next t ht =>
      rw [ht] at h1
      exact h1
    next t ht =>
      rw [ht] at h2
      exact absurd h2 nofun
  · rw [State.sendJoiner, s.sendTo_none k l hn]
    exact s.mem_flood d 12 l hk hp hu (by omega)

/-! ### Departures -/

theorem State.reportsOnly_cmtResult (s : State) (r : Nat) : s.ReportsOnly (s.cmtResult r) := State.ReportsOnly.wr_event s _ _ _ _ _ _ _ _

/-- The requested commits that are not yet ordered are forgotten. -/
def State.noRequests (v : State) : State := { v with herd := { v.herd with creqPend := [] } }

theorem State.creqLost_eq (s : State) : s.creqLost = if s.herd.creqPend.isEmpty then s else
    (s.herd.creqPend.foldl (fun t e => t.creqDrop e.1) s).noRequests.cmtResult 4 := rfl

theorem State.creqLost_pend (s : State) : s.creqLost.herd.creqPend = [] := by
  rw [State.creqLost_eq]
  by_cases h : s.herd.creqPend.isEmpty = true
  · rw [if_pos h]
    exact List.isEmpty_iff.mp h
  · rw [if_neg h]
    rw [(State.reportsOnly_cmtResult _ 4).stands.2.1]
    rfl

/-- Fields of page HERD that say what the device is in its herd. -/
def herdStates : List Field :=
  [Reg.HERD.STATE, Reg.HERD.JOIN, Reg.HERD.JOIN_RESULT, Reg.HERD.ELECTING, Reg.HERD.BELLWETHER, Reg.HERD.BW_ID, Reg.HERD.COORD_X, Reg.HERD.COORD_Y,
    Reg.HERD.COORD_Z, Reg.HERD.NX, Reg.HERD.NY, Reg.HERD.NZ, Reg.HERD.CMT_NACKS]

theorem herdStates_reportKey : ∀ f ∈ herdStates, reportKey (f.key 0 0 0) = false := by decide

/-- t is s after requests of commits were dropped: of the herd's state only their list changed. -/
def State.DropsRequests (s t : State) : Prop :=
  s.HerdOnly t ∧ t.herd = { s.herd with creqPend := t.herd.creqPend } ∧ ∀ f ∈ herdStates, t.rd f = s.rd f

theorem State.DropsRequests.refl (s : State) : s.DropsRequests s := ⟨.refl s, rfl, fun _ _ => rfl⟩

theorem State.DropsRequests.trans (h : s.DropsRequests t) (h' : t.DropsRequests u) : s.DropsRequests u := by
  refine ⟨h.1.trans h'.1, ?_, fun f hf => (h'.2.2 f hf).trans (h.2.2 f hf)⟩
  obtain ⟨-, h, -⟩ := h
  obtain ⟨-, h', -⟩ := h'
  rw [h', h]

theorem State.dropsRequests_wr_event (s : State) (f : Field) (v b n m : Nat) (hk : ∀ g ∈ herdStates, g.key 0 0 0 ≠ f.key 0 0 0) :
    s.DropsRequests ((s.wr f v).event b n m) := by
  have hro := State.ReportsOnly.wr_event s f v 0 0 0 b n m
  exact ⟨hro.herdOnly, by rw [hro.stands.2.1], fun g hg => (State.rd_event _ _ _ _ _ _ _ _ (herdStates_reportKey g hg)).trans
    (State.rd_wr_ne _ _ _ _ _ _ _ _ _ _ (hk g hg))⟩

theorem State.dropsRequests_creqLost (s : State) : s.DropsRequests s.creqLost := by
  have hd (t : State) (k : CommitKind) : t.DropsRequests (t.creqDrop k) := by
    cases k with
    | rules => exact keeps_ite (keeps_ite (.refl t) (t.dropsRequests_wr_event _ 0 _ _ _ (by decide))) (.refl t)
    | context c => exact ⟨t.herdOnly_creqDrop _, rfl, fun _ _ => rfl⟩
  have hf (l : List (CommitKind × Nat)) (t : State) : t.DropsRequests (l.foldl (fun t e => t.creqDrop e.1) t) := by
    induction l generalizing t with
    | nil => exact .refl t
    | cons e l ih => exact (hd t e.1).trans (ih _)
  have hn (v : State) : v.DropsRequests v.noRequests := ⟨rfl, rfl, fun _ _ => rfl⟩
  rw [State.creqLost_eq]
  exact keeps_ite (.refl s) (((hf _ s).trans (hn _)).trans (State.dropsRequests_wr_event _ _ _ _ _ _ (by decide)))

/-- A member that goes: the beat it leaves, the first window without it, and whether it was the bellwether. -/
def State.noteGone (s : State) (member window : Nat) : State :=
  let h := s.herd
  let leaves := if window ≤ s.nextEpoch + 16384 then s.nextEpoch else epochFrom window
  { s with herd := { h with departs := if h.departs.any (fun d => d.1 == member) then h.departs else h.departs ++ [(member, leaves)],
                            excl := if h.excl.any (fun d => d.1 == member) then h.excl else h.excl ++ [(member, window)] } }

/-- The bellwether's departure is known. -/
def State.noBellwether (s : State) : State := { s with herd := { s.herd with bwGone := true } }

theorem State.memberGone_eq (s : State) (x w : Nat) : s.memberGone x w =
    if x = s.bwId ∧ x ≠ s.ownId then ((s.noteGone x w).noBellwether).creqLost else s.noteGone x w := rfl

theorem State.memberGone_other (s : State) {x : Nat} (w : Nat) (h : x ≠ s.bwId) : s.memberGone x w = s.noteGone x w := by
  rw [State.memberGone_eq, if_neg (fun hx => h hx.1)]

theorem State.memberGone_bw (s : State) {x : Nat} (w : Nat) (h : x = s.bwId) (h' : x ≠ s.ownId) :
    (s.memberGone x w).herd.bwGone = true ∧ (s.memberGone x w).herd.creqPend = [] ∧ (s.memberGone x w).pkts = s.pkts := by
  rw [State.memberGone_eq, if_pos ⟨h, h'⟩]
  obtain ⟨h1, h2, -⟩ := ((s.noteGone x w).noBellwether).dropsRequests_creqLost
  have h3 := ((s.noteGone x w).noBellwether).creqLost_pend
  generalize ((s.noteGone x w).noBellwether).creqLost = v at *
  rw [State.HerdOnly] at h1
  exact ⟨by rw [h2]; rfl, h3, by rw [h1]; rfl⟩

/-- A departure changes what the device knows of its members, and drops its requests when the bellwether goes. -/
theorem State.memberGone_spec (s : State) (x w : Nat) : s.HerdOnly (s.memberGone x w) ∧ (s.memberGone x w).herd.nackers = s.herd.nackers ∧
    ∀ f ∈ herdStates, (s.memberGone x w).rd f = s.rd f := by
  rw [State.memberGone_eq]
  obtain ⟨h1, h2, h3⟩ := ((s.noteGone x w).noBellwether).dropsRequests_creqLost
  generalize ((s.noteGone x w).noBellwether).creqLost = v at *
  have hn : s.HerdOnly (s.noteGone x w) := rfl
  have hb : s.HerdOnly (s.noteGone x w).noBellwether := rfl
  split
  · exact ⟨hb.trans h1, by rw [h2]; rfl, h3⟩
  · exact ⟨hn, rfl, fun _ _ => rfl⟩

theorem State.Sends.herdOnly (h : s.Sends t) : s.HerdOnly t := by
  obtain ⟨o, rfl⟩ := h
  rfl

theorem State.rebroadcast_spec (s : State) (x w : Nat) : s.HerdOnly (s.rebroadcast x w) ∧ (s.rebroadcast x w).herd.nackers = s.herd.nackers ∧
    ∀ f ∈ herdStates, (s.rebroadcast x w).rd f = s.rd f := by
  rw [State.rebroadcast]
  by_cases hc : (s.herd.departs.any fun d => d.1 == x) = true
  · rw [if_pos hc]
    exact ⟨.refl s, rfl, fun _ _ => rfl⟩
  rw [if_neg hc]
  obtain ⟨h1, h2, h3⟩ := s.memberGone_spec x w
  have hs := State.Sends.foldl (fun t (y : Nat) => t.sends_sendTo 7 y [(x : Int), (w : Int)])
    (s.herd.members.filter (fun y => y != s.ownId && y != x)) (s.memberGone x w)
  generalize s.memberGone x w = v at *
  refine ⟨h1.trans hs.herdOnly, ?_, fun f hf => (hs.rd f 0 0 0).trans (h3 f hf)⟩
  rw [hs.herd]
  exact h2

end Sys2Proof.Machine
end

section
/-! PROOF. Herd commits (R247, R248): O28. -/

namespace Sys2Proof.Machine

-- One thread for the proofs, which bounds the memory that checking them takes.
set_option Elab.async false

open Sys2Proof

variable {s t u : State}

/-! ### What an order does at a device -/

/-- The order's note: it is kept, it is the last, and the request for it is answered. -/
def State.notedOrder (s : State) (o : HerdOrder) : State :=
  { s with herd := { s.herd with
                     orders := s.herd.orders ++ [o], lastOrderSeq := o.seq, creqPend := s.herd.creqPend.filter (fun e => e != (o.kind, o.ver)) } }

/-- The result of a commit that this device asked for. -/
def State.answerCreq (s : State) (o : HerdOrder) (mine : Bool) : State :=
  if mine then ((s.wr Reg.HERD.CMT_SEQ o.seq).wr Reg.HERD.CMT_BEAT o.c).cmtResult 1 else s

/-- What the device does with an order it could check. -/
def State.doOrder (s : State) (o : HerdOrder) : State :=
  if o.armed then
    if (s.armOrder o.kind o.c).isBw then s.armOrder o.kind o.c
    else (s.armOrder o.kind o.c).sendJoiner 12 (s.armOrder o.kind o.c).bwId [(o.seq : Int), 0]
  else if s.herdState = 1 then { (s.joinOver 3) with herd := { (s.joinOver 3).herd with orders := [] } }
  else s.nackOrder o

theorem State.takeOrder_eq (s : State) (seq c : Nat) (k : CommitKind) (v : Nat) (h0 : s.herdState ≠ 0) (ho : s.herd.orders.any (fun o => o.seq == seq) = false)
    (hc : s.time.beat ≤ c) : ∃ mine, s.takeOrder seq c k v =
      ((s.notedOrder { seq := seq, c := c, kind := k, ver := v, armed := s.canArm k v c }).answerCreq
        { seq := seq, c := c, kind := k, ver := v, armed := s.canArm k v c } mine).doOrder { seq := seq, c := c, kind := k, ver := v, armed := s.canArm k v c } := by
  have hno : ¬ (s.herdState = 0 ∨ s.herd.orders.any (fun o => o.seq == seq) = true ∨ c < s.time.beat) := by
    rintro (h | h | h)
    · exact h0 h
    · exact absurd (h.symm.trans ho) nofun
    · omega
  exact ⟨_, if_neg hno⟩

/-- The fields of page HERD that an order leaves as they are. -/
def orderKept : List Field := [Reg.HERD.STATE, Reg.HERD.BELLWETHER]

/-- t differs from s at most in what a report changes, and in the registers not in its membership. -/
def State.KeepsMember (s t : State) : Prop := s.ReportsOnly t ∧ ∀ f ∈ orderKept, t.rd f = s.rd f

theorem State.KeepsMember.refl (s : State) : s.KeepsMember s := ⟨.refl s, fun _ _ => rfl⟩

theorem State.KeepsMember.trans (h : s.KeepsMember t) (h' : t.KeepsMember u) : s.KeepsMember u :=
  ⟨h.1.trans h'.1, fun f hf => (h'.2 f hf).trans (h.2 f hf)⟩

theorem State.keepsMember_wr (s : State) (f : Field) (v : Nat) (hk : ∀ g ∈ orderKept, g.key 0 0 0 ≠ f.key 0 0 0) : s.KeepsMember (s.wr f v) :=
  ⟨.wr s f v 0 0 0, fun g hg => State.rd_wr_ne _ _ _ _ _ _ _ _ _ _ (hk g hg)⟩

theorem State.keepsMember_event (s : State) (b n m : Nat) : s.KeepsMember (s.event b n m) := by
  have hr : ∀ f ∈ orderKept, reportKey (f.key 0 0 0) = false := by decide
  exact ⟨.event s b n m, fun f hf => State.rd_event _ _ _ _ _ _ _ _ (hr f hf)⟩

theorem State.answerCreq_spec (s : State) (o : HerdOrder) (mine : Bool) : s.KeepsMember (s.answerCreq o mine) := by
  have h1 := s.keepsMember_wr Reg.HERD.CMT_SEQ o.seq (by decide)
  rw [State.answerCreq]
  generalize s.wr Reg.HERD.CMT_SEQ o.seq = v at *
  have h2 := v.keepsMember_wr Reg.HERD.CMT_BEAT o.c (by decide)
  generalize v.wr Reg.HERD.CMT_BEAT o.c = w at *
  have h3 := w.keepsMember_wr Reg.HERD.CMT_RESULT 1 (by decide)
  rw [State.cmtResult]
  generalize w.wr Reg.HERD.CMT_RESULT 1 = x at *
  exact keeps_ite (P := fun u => s.KeepsMember u) (((h1.trans h2).trans h3).trans (x.keepsMember_event _ _ _)) (.refl s)

/-- The device as it is when it acts on an order. -/
def State.AtOrder (s : State) (o : HerdOrder) (v : State) : Prop :=
  (s.notedOrder o).ReportsOnly v ∧ v.herdState = s.herdState ∧ v.isBw = s.isBw

theorem State.AtOrder.herd {o : HerdOrder} {v : State} (h : s.AtOrder o v) : v.herd = (s.notedOrder o).herd := h.1.stands.2.1

theorem State.AtOrder.frame {o : HerdOrder} {v : State} (h : s.AtOrder o v) : v.pkts = s.pkts ∧ v.cls = s.cls ∧ v.ctxs = s.ctxs ∧ v.time = s.time := by
  obtain ⟨h, -⟩ := h
  rw [State.ReportsOnly] at h
  rw [h]
  exact ⟨rfl, rfl, rfl, rfl⟩

theorem State.atOrder (s : State) (o : HerdOrder) (mine : Bool) : s.AtOrder o ((s.notedOrder o).answerCreq o mine) := by
  obtain ⟨h1, h2⟩ := (s.notedOrder o).answerCreq_spec o mine
  refine ⟨h1, h2 _ (by decide), ?_⟩
  rw [State.isBw, State.isBw, h2 _ (by decide)]
  rfl

theorem State.rd_setCommitState_herd (s : State) (v : Nat) {f : Field} (hf : f ∈ orderKept) : (s.setCommitState v).rd f = s.rd f := by
  have hk : ∀ f ∈ orderKept, f.key 0 0 0 ≠ Reg.TCAM.COMMIT_STATE.key 0 0 0 ∧ reportKey (f.key 0 0 0) = false := by decide
  exact State.rd_setCommitState _ _ _ _ _ _ (hk f hf).1 (hk f hf).2

/-- Rules that an order arms. -/
theorem State.armOrder_rules (s : State) (c : Nat) : (s.armOrder .rules c).commitState = 2 ∧ (s.armOrder .rules c).cls = { s.cls with armC := c, armHerd := true } ∧
    (s.armOrder .rules c).ctxs = s.ctxs ∧ (s.armOrder .rules c).pkts = s.pkts ∧ (s.armOrder .rules c).herd = s.herd ∧ (s.armOrder .rules c).time = s.time ∧
    ∀ f ∈ orderKept, (s.armOrder .rules c).rd f = s.rd f := by
  have h1 := State.commitState_setCommitState ({ s with cls := { s.cls with armC := c, armHerd := true } } : State) 2 (by decide)
  have h2 := State.reportsOnly_setCommitState ({ s with cls := { s.cls with armC := c, armHerd := true } } : State) 2
  have h3 : ∀ f ∈ orderKept, (s.ruleArm c true).rd f = s.rd f := fun f hf => State.rd_setCommitState_herd _ 2 hf
  have he : s.ruleArm c true = ({ s with cls := { s.cls with armC := c, armHerd := true } } : State).setCommitState 2 := rfl
  rw [← he] at h1 h2
  rw [State.armOrder]
  generalize s.ruleArm c true = v at *
  rw [State.ReportsOnly] at h2
  refine ⟨(State.rd_audit _ _ _ _ _ _ (by decide)).trans h1, ?_, ?_, ?_, ?_, ?_, fun f hf => ?_⟩
  · rw [State.audit_cls, h2]
  · rw [State.audit_ctxs, h2]
  · rw [State.audit_pkts, h2]
  · rw [State.audit_herd, h2]
  · rw [State.audit_time, h2]
  · have hr : ∀ f ∈ orderKept, reportKey (f.key 0 0 0) = false := by decide
    exact (State.rd_audit _ _ _ _ _ _ (hr f hf)).trans (h3 f hf)

/-- The context's part that an order arms. -/
def Ctx.ordered (x : Ctx) (c : Nat) : Ctx := { x with st := .armed, armC := c, cmtPend := false, cmtHerd := true }

theorem State.ctxResult_keepsMember (s : State) (r : Nat) : s.KeepsMember (s.ctxResult r) := by
  have h1 := s.keepsMember_wr Reg.CTX.RESULT r (by decide)
  rw [State.ctxResult]
  generalize s.wr Reg.CTX.RESULT r = v at *
  exact h1.trans (v.keepsMember_event _ _ _)

/-- A context that an order arms. -/
theorem State.armOrder_context (s : State) (n : CtxNum) (c : Nat) : (s.armOrder (.context n) c).ctxs = s.ctxs.mod n.val (fun x => x.ordered c) ∧
    (s.armOrder (.context n) c).pkts = s.pkts ∧ (s.armOrder (.context n) c).herd = s.herd ∧
    (s.armOrder (.context n) c).time = s.time ∧ ∀ f ∈ orderKept, (s.armOrder (.context n) c).rd f = s.rd f := by
  obtain ⟨v, hv⟩ : ∃ v, v = s.audit { block := Blk.CTX, off := Reg.CTX.CMD.off, source := 4, new := 2, ctx := n.val, kind := 5 } := ⟨_, rfl⟩
  have hr : ∀ f ∈ orderKept, reportKey (f.key 0 0 0) = false := by decide
  have h1 : v.ctxs = s.ctxs ∧ v.pkts = s.pkts ∧ v.herd = s.herd ∧ v.time = s.time ∧ ∀ f ∈ orderKept, v.rd f = s.rd f := by
    rw [hv]
    exact ⟨s.audit_ctxs _, s.audit_pkts _, s.audit_herd _, s.audit_time _, fun f hf => State.rd_audit _ _ _ _ _ _ (hr f hf)⟩
  have he : s.armOrder (.context n) c = ({ v with ctxs := v.ctxs.mod n.val (fun x => x.ordered c) } : State).ctxResult 0 := by
    rw [hv]
    rfl
  obtain ⟨w, hw⟩ : ∃ w, w = ({ v with ctxs := v.ctxs.mod n.val (fun x => x.ordered c) } : State) := ⟨_, rfl⟩
  rw [he, ← hw]
  obtain ⟨hro, hrd⟩ := w.ctxResult_keepsMember 0
  generalize w.ctxResult 0 = z at *
  obtain ⟨e1, e2, e3, e5, e4⟩ := h1
  rw [State.ReportsOnly] at hro
  refine ⟨?_, ?_, ?_, ?_, fun f hf => (hrd f hf).trans ?_⟩
  · rw [hro, hw, ← e1]
  · rw [hro, hw, ← e2]
  · rw [hro, hw, ← e3]
  · rw [hro, hw, ← e5]
  · rw [← e4 f hf, hw]
    exact State.rd_congr rfl _ _ _ _

/-- The bellwether keeps its own order; another member says that it took it. -/
theorem State.doOrder_armed (s : State) (o : HerdOrder) (h : o.armed = true) : (s.armOrder o.kind o.c).Sends (s.doOrder o) := by
  rw [State.doOrder, if_pos h]
  generalize s.armOrder o.kind o.c = v
  exact keeps_ite (.refl v) (v.sends_sendJoiner _ _ _)

/-- A member that cannot arm an order says so. -/
def State.sayNack (s : State) (o : HerdOrder) : State :=
  if s.rd Reg.HERD.BELLWETHER = 1 then s.bump Reg.HERD.CMT_NACKS else (s.sendTo 12 (s.rd Reg.HERD.BW_ID) [(o.seq : Int), 1]).1

/-- The member leaves at the order's beat. -/
def State.leaveFor (s : State) (o : HerdOrder) : State :=
  { s with herd := { s.herd with orders := s.herd.orders.filter (fun p => decide (p.seq ≠ o.seq)), leaveAt := some (Nat.min o.c (s.herd.leaveAt.getD o.c)) } }

theorem State.nackOrder_eq (s : State) (o : HerdOrder) : s.nackOrder o = ((s.sayNack o).setHerdState 3).leaveFor o := rfl

theorem State.sayNack_spec (s : State) (o : HerdOrder) : (∃ l, (s.sayNack o).herd = { s.herd with out := s.herd.out ++ l }) ∧
    ({ s with herd := (s.sayNack o).herd } : State).ReportsOnly (s.sayNack o) := by
  by_cases h : s.rd Reg.HERD.BELLWETHER = 1
  · rw [State.sayNack, if_pos h]
    exact ⟨⟨[], by rw [List.append_nil]; rfl⟩, rfl⟩
  · rw [State.sayNack, if_neg h]
    have hs := s.sends_sendTo 12 (s.rd Reg.HERD.BW_ID) [(o.seq : Int), 1]
    refine ⟨?_, hs.reportsOnly⟩
    obtain ⟨l, hl⟩ := hs
    exact ⟨l, by rw [hl]⟩

theorem State.nackOrder_spec (s : State) (o : HerdOrder) : (s.nackOrder o).herdState = 3 ∧
    (s.nackOrder o).herd.leaveAt = some (Nat.min o.c (s.herd.leaveAt.getD o.c)) ∧ (s.nackOrder o).herd.lastOrderSeq = s.herd.lastOrderSeq ∧
    (s.nackOrder o).herd.nextSeq = s.herd.nextSeq ∧ (∀ x ∈ s.herd.out, x ∈ (s.nackOrder o).herd.out) ∧
    ({ s with herd := (s.nackOrder o).herd } : State).ReportsOnly (s.nackOrder o) := by
  rw [State.nackOrder_eq]
  obtain ⟨⟨l, hl⟩, h2⟩ := s.sayNack_spec o
  generalize s.sayNack o = v at *
  have h3 := v.herdState_setHerdState (v := 3) (by decide)
  have h4 := v.reportsOnly_setHerdState 3
  generalize v.setHerdState 3 = w at *
  have hw : w.herd = v.herd := h4.stands.2.1
  refine ⟨h3, ?_, ?_, ?_, fun x hx => ?_, ?_⟩
  · rw [State.leaveFor, hw, hl]
  · rw [State.leaveFor, hw, hl]
  · rw [State.leaveFor, hw, hl]
  · rw [State.leaveFor, hw, hl]
    exact List.mem_append_left _ hx
  · rw [State.ReportsOnly] at h2 h4 ⊢
    rw [State.leaveFor, h4, h2]

/-! ### Orders -/

theorem execOrder_eq (s : State) (h : HPort) (m : MsgHdr) (seq : BitVec 32) (b : Nat) (k : CommitKind) (v : BitVec 16) (hu : s.hlUp h.val = true)
    (hd : m.dest.val = s.ownId) : execOrder h m seq b k v s = .next (s.takeOrder seq.toNat b k v.toNat) :=
  State.recv_own _ (fun s => s.takeOrder seq.toNat b k v.toNat) hu (Or.inl (by decide)) hd

theorem execOrder_again (s : State) (h : HPort) (m : MsgHdr) (seq : BitVec 32) (b : Nat) (k : CommitKind) (v : BitVec 16) (hu : s.hlUp h.val = true)
    (hd : m.dest.val = s.ownId) (hs : s.herdState = 0 ∨ ∃ o ∈ s.herd.orders, o.seq = seq.toNat) : execOrder h m seq b k v s = .next s := by
  rw [execOrder_eq s h m seq b k v hu hd, State.takeOrder, if_pos]
  rcases hs with hs | ⟨o, ho, he⟩
  · exact Or.inl hs
  · exact Or.inr (Or.inl (List.any_eq_true.mpr ⟨o, ho, beq_iff_eq.mpr he⟩))

/-- A member's first order: the state it acts on. -/
theorem State.takeOrder_first (s : State) (seq c : Nat) (k : CommitKind) (v : Nat) (h2 : s.herdState = 2) (ho : s.herd.orders = []) (hc : s.time.beat ≤ c) :
    ∃ w, s.AtOrder { seq := seq, c := c, kind := k, ver := v, armed := s.canArm k v c } w ∧
      s.takeOrder seq c k v = w.doOrder { seq := seq, c := c, kind := k, ver := v, armed := s.canArm k v c } := by
  obtain ⟨mine, hm⟩ := s.takeOrder_eq seq c k v (by omega) (by rw [ho]; rfl) hc
  exact ⟨_, s.atOrder _ mine, hm⟩

theorem State.AtOrder.noted {o : HerdOrder} {v : State} (h : s.AtOrder o v) : o ∈ v.herd.orders ∧ v.herd.lastOrderSeq = o.seq ∧
    v.herd.leaveAt = s.herd.leaveAt ∧ v.herd.nextSeq = s.herd.nextSeq ∧ v.herd.out = s.herd.out := by
  rw [h.herd]
  exact ⟨List.mem_append_right _ List.mem_cons_self, rfl, rfl, rfl, rfl⟩

theorem execOrder_context (s : State) (h : HPort) (m : MsgHdr) (seq : BitVec 32) (b : Nat) (n : CtxNum) (v : BitVec 16) (hu : s.hlUp h.val = true)
    (hd : m.dest.val = s.ownId) (h2 : s.herdState = 2) (ho : s.herd.orders = []) (hb : s.time.beat ≤ b) (hc : s.canArm (.context n) v.toNat b = true) :
    ∃ t, execOrder h m seq b (.context n) v s = .next t ∧ (t.ctxs.get n.val).st = .armed ∧ (t.ctxs.get n.val).armC = b ∧ t.herdState = 2 ∧
      t.herd.lastOrderSeq = seq.toNat ∧ (∃ o ∈ t.herd.orders, o.seq = seq.toNat ∧ o.c = b ∧ o.armed = true) ∧
      (∀ k, k ≠ n.val → t.ctxs.get k = s.ctxs.get k) ∧ t.pkts = s.pkts := by
  rw [execOrder_eq s h m seq b _ v hu hd]
  obtain ⟨w, hw, he⟩ := s.takeOrder_first seq.toNat b (.context n) v.toNat h2 ho hb
  rw [he]
  rw [hc] at hw ⊢
  obtain ⟨hn, hl, -⟩ := hw.noted
  obtain ⟨e1, -, e3, -⟩ := hw.frame
  obtain ⟨-, hst, -⟩ := hw
  obtain ⟨g1, g2, g3, -, g4⟩ := w.armOrder_context n b
  have hs := w.doOrder_armed { seq := seq.toNat, c := b, kind := .context n, ver := v.toNat, armed := true } rfl
  generalize w.doOrder { seq := seq.toNat, c := b, kind := .context n, ver := v.toNat, armed := true } = t at *
  dsimp only at hs
  generalize w.armOrder (.context n) b = x at *
  obtain ⟨-, -, f3, f4, -⟩ := hs.frame
  have hherd := hs.herd
  have hget : (s.ctxs.mod n.val (fun x => x.ordered b)).get n.val = (s.ctxs.get n.val).ordered b := Tbl.get_mod_self _ _ _
  refine ⟨t, rfl, ?_, ?_, ?_, ?_, ⟨{ seq := seq.toNat, c := b, kind := .context n, ver := v.toNat, armed := true }, ?_, rfl, rfl, rfl⟩, fun k hk => ?_, ?_⟩
  · rw [f4, g1, e3, hget]
    rfl
  · rw [f4, g1, e3, hget]
    rfl
  · rw [State.herdState, hs.rd, g4 _ (by decide), ← h2, ← hst]
    rfl
  · rw [hherd, g3, hl]
  · rw [hherd, g3]
    exact hn
  · rw [f4, g1, e3, Tbl.get_mod_ne _ _ hk]
  · rw [f3, g2, e1]

theorem execOrder_rules (s : State) (h : HPort) (m : MsgHdr) (seq : BitVec 32) (b : Nat) (v : BitVec 16) (hu : s.hlUp h.val = true)
    (hd : m.dest.val = s.ownId) (h2 : s.herdState = 2) (ho : s.herd.orders = []) (hb : s.time.beat ≤ b) (hc : s.canArm .rules v.toNat b = true) :
    ∃ t, execOrder h m seq b .rules v s = .next t ∧ t.commitState = 2 ∧ t.cls = { s.cls with armC := b, armHerd := true } ∧ t.herdState = 2 ∧
      t.herd.lastOrderSeq = seq.toNat ∧ t.ctxs = s.ctxs ∧ t.pkts = s.pkts := by
  rw [execOrder_eq s h m seq b _ v hu hd]
  obtain ⟨w, hw, he⟩ := s.takeOrder_first seq.toNat b .rules v.toNat h2 ho hb
  rw [he]
  rw [hc] at hw ⊢
  obtain ⟨-, hl, -⟩ := hw.noted
  obtain ⟨e1, e2, e3, -⟩ := hw.frame
  obtain ⟨-, hst, -⟩ := hw
  obtain ⟨g0, g1, g2, g3, g4, -, g5⟩ := w.armOrder_rules b
  have hs := w.doOrder_armed { seq := seq.toNat, c := b, kind := .rules, ver := v.toNat, armed := true } rfl
  generalize w.doOrder { seq := seq.toNat, c := b, kind := .rules, ver := v.toNat, armed := true } = t at *
  dsimp only at hs
  generalize w.armOrder .rules b = x at *
  obtain ⟨-, -, f3, f4, f5⟩ := hs.frame
  have hherd := hs.herd
  refine ⟨t, rfl, ?_, ?_, ?_, ?_, ?_, ?_⟩
  · rw [State.commitState, hs.rd]
    exact g0
  · rw [f5, g1, e2]
  · rw [State.herdState, hs.rd, g5 _ (by decide), ← h2, ← hst]
    rfl
  · rw [hherd, g4, hl]
  · rw [f4, g2, e3]
  · rw [f3, g3, e1]

theorem execOrder_nack (s : State) (h : HPort) (m : MsgHdr) (seq : BitVec 32) (b : Nat) (k : CommitKind) (v : BitVec 16) (hu : s.hlUp h.val = true)
    (hd : m.dest.val = s.ownId) (h2 : s.herdState = 2) (ho : s.herd.orders = []) (hb : s.time.beat ≤ b) (hla : s.herd.leaveAt = none)
    (hc : s.canArm k v.toNat b = false) :
    ∃ t, execOrder h m seq b k v s = .next t ∧ t.herdState = 3 ∧ t.herd.leaveAt = some b ∧ t.ctxs = s.ctxs ∧ t.cls = s.cls ∧ t.pkts = s.pkts := by
  rw [execOrder_eq s h m seq b _ v hu hd]
  obtain ⟨w, hw, he⟩ := s.takeOrder_first seq.toNat b k v.toNat h2 ho hb
  rw [he]
  rw [hc] at hw ⊢
  obtain ⟨-, -, hl, -⟩ := hw.noted
  obtain ⟨e1, e2, e3, -⟩ := hw.frame
  obtain ⟨-, hst, -⟩ := hw
  obtain ⟨g1, g2, -, -, -, g3⟩ := w.nackOrder_spec { seq := seq.toNat, c := b, kind := k, ver := v.toNat, armed := false }
  have hno : ¬ w.herdState = 1 := by omega
  rw [State.doOrder, if_neg Bool.false_ne_true, if_neg hno]
  generalize w.nackOrder { seq := seq.toNat, c := b, kind := k, ver := v.toNat, armed := false } = t at *
  rw [State.ReportsOnly] at g3
  refine ⟨t, rfl, g1, ?_, ?_, ?_, ?_⟩
  · rw [g2, hl, hla]
    exact congrArg some (Nat.min_self b)
  · rw [g3, ← e3]
  · rw [g3, ← e2]
  · rw [g3, ← e1]

/-! ### Acknowledgements -/

theorem execAck_eq (s : State) (h : HPort) (m : MsgHdr) (seq : BitVec 32) (nack : Bool) (hu : s.hlUp h.val = true) (hd : m.dest.val = s.ownId) :
    execAck h m seq nack s = .next (if ¬ s.isBw ∨ ¬ nack ∨ s.herd.nackers.contains (seq.toNat, m.src.val) then s
      else
        let s := { s with herd := { s.herd with nackers := s.herd.nackers ++ [(seq.toNat, m.src.val)] } }
        let s := if seq.toNat = s.herd.nextSeq then s.bump Reg.HERD.CMT_NACKS else s
        s.rebroadcast m.src.val (((s.herd.orders.find? (fun o => o.seq == seq.toNat)).map (·.c)).getD s.exclWindow)) := by
  rw [execAck, State.recv_own _ _ hu (Or.inl (by decide)) hd]

theorem execAck_taken (s : State) (h : HPort) (m : MsgHdr) (seq : BitVec 32) (hu : s.hlUp h.val = true) (hd : m.dest.val = s.ownId) :
    execAck h m seq false s = .next s := by
  rw [execAck_eq s h m seq false hu hd, if_pos (Or.inr (Or.inl (by decide)))]

theorem execAck_nack (s : State) (h : HPort) (m : MsgHdr) (seq : BitVec 32) (hu : s.hlUp h.val = true) (hd : m.dest.val = s.ownId) (hb : s.isBw = true)
    (hs : seq.toNat = s.herd.nextSeq) (hn : (seq.toNat, m.src.val) ∉ s.herd.nackers) :
    ∃ t, execAck h m seq true s = .next t ∧ t.herd.nackers = s.herd.nackers ++ [(seq.toNat, m.src.val)] ∧ s.Counts t Reg.HERD.CMT_NACKS ∧
      t.pkts = s.pkts ∧ t.cls = s.cls := by
  have hno : ¬ (¬ s.isBw = true ∨ ¬ true = true ∨ s.herd.nackers.contains (seq.toNat, m.src.val) = true) := by
    simp [hb, hn]
  rw [execAck_eq s h m seq true hu hd, if_neg hno]
  extract_lets _ s1 s2
  have h1 : s1.herd.nackers = s.herd.nackers ++ [(seq.toNat, m.src.val)] ∧ s1.herd.nextSeq = s.herd.nextSeq ∧ s1.pkts = s.pkts ∧ s1.cls = s.cls ∧
    s1.regs = s.regs := ⟨rfl, rfl, rfl, rfl, rfl⟩
  clear_value s1
  obtain ⟨e1, e2, e3, e4, e5⟩ := h1
  have h2 : s2 = s1.bump Reg.HERD.CMT_NACKS := if_pos (hs.trans e2.symm)
  obtain ⟨g1, g2, g3⟩ := s2.rebroadcast_spec m.src.val (((s2.herd.orders.find? (fun o => o.seq == seq.toNat)).map (·.c)).getD s2.exclWindow)
  generalize s2.rebroadcast m.src.val (((s2.herd.orders.find? (fun o => o.seq == seq.toNat)).map (·.c)).getD s2.exclWindow) = t at *
  rw [State.HerdOnly] at g1
  refine ⟨t, rfl, ?_, ?_, ?_, ?_⟩
  · rw [g2, h2, State.bump_herd, e1]
  · rw [State.Counts, g3 _ (by decide), h2, State.rd_bump, State.rd_congr e5]
  · rw [g1, h2, State.bump_pkts, e3]
  · rw [g1, h2, State.bump_cls, e4]

/-! ### Requests -/

theorem execCreq_eq (s : State) (h : HPort) (m : MsgHdr) (k : CommitKind) (v : BitVec 16) (b : Nat) (hu : s.hlUp h.val = true) (hd : m.dest.val = s.ownId) :
    execCreq h m k v b s = .next (s.orderCommit m.src.val k v.toNat b) :=
  State.recv_own _ (fun s => s.orderCommit m.src.val k v.toNat b) hu (Or.inl (by decide)) hd

theorem execCreq_other (s : State) (h : HPort) (m : MsgHdr) (k : CommitKind) (v : BitVec 16) (b : Nat) (hu : s.hlUp h.val = true) (hd : m.dest.val = s.ownId)
    (hb : s.isBw = false) : execCreq h m k v b s = .next s := by
  rw [execCreq_eq s h m k v b hu hd, State.orderCommit, if_pos (Or.inl (Bool.eq_false_iff.mp hb))]

/-- The order's message. -/
def orderWords (seq c : Nat) (k : CommitKind) (v : Nat) : List Int := [(seq : Int), (c : Int)] ++ commitWords k v

/-- The next order's number, with no NACK to it yet. -/
def State.nextOrder (s : State) : State :=
  ({ s with herd := { s.herd with nextSeq := s.herd.nextSeq + 1, nackers := [] } } : State).wr Reg.HERD.CMT_NACKS 0

/-- The order goes to every other member and to every device that was admitted. -/
def State.sendOrder (s : State) (l : List Int) : State :=
  let t := (s.herd.members.filter (· != s.ownId)).foldl (fun t x => (t.sendTo 11 x l).1) s
  (t.herd.joins.filter (fun j => decide (t.time.beat < j.2))).foldl (fun t j => t.sendJoiner 11 j.1 l) t

theorem State.orderCommit_eq (s : State) (src : Nat) (k : CommitKind) (v b : Nat) (hb : s.isBw = true) (he : s.electing = false) (hm : src ∈ s.herd.members)
    (ho : s.herd.orders = []) : s.orderCommit src k v b =
      (s.nextOrder.sendOrder (orderWords (s.herd.nextSeq + 1) (epochFrom (Nat.max b (s.time.beat + 8192))) k v)).takeOrder (s.herd.nextSeq + 1)
        (epochFrom (Nat.max b (s.time.beat + 8192))) k v := by
  refine if_neg ?_
  simp [hb, he, hm, ho]

theorem State.mem_sendTos (l : List Int) {x p : Nat} (xs : List Nat) (s : State) (hx : x ∈ xs) (hp : s.outPort x = some p) :
    s.message p 11 x l ∈ (xs.foldl (fun t x => (t.sendTo 11 x l).1) s).herd.out := by
  have key : ∀ (xs : List Nat) (u : State), s.Sends u → x ∈ xs → s.message p 11 x l ∈ (xs.foldl (fun t x => (t.sendTo 11 x l).1) u).herd.out := by
    intro xs
    induction xs with
    | nil => exact fun _ _ h => absurd h List.not_mem_nil
    | cons y xs ih =>
      intro u hs h
      rcases List.mem_cons.mp h with rfl | h
      · have hm := u.mem_sendTo (k := 11) l (((hs.sameWays).outPort x).trans hp) (Or.inl (by decide))
        rw [hs.message] at hm
        exact (State.Sends.foldl (fun t (y : Nat) => t.sends_sendTo 11 y l) xs _).mem hm
      · exact ih _ (hs.trans (u.sends_sendTo 11 y l)) h
  exact key xs s (.refl s) hx

theorem State.sends_sendOrder (s : State) (l : List Int) : s.Sends (s.sendOrder l) :=
  (State.Sends.foldl (fun t (y : Nat) => t.sends_sendTo 11 y l) _ s).trans (State.Sends.foldl (fun t (j : Nat × Nat) => t.sends_sendJoiner 11 j.1 l) _ _)

theorem State.mem_sendOrder (s : State) (l : List Int) {x p : Nat} (hx : x ∈ s.herd.members) (hn : x ≠ s.ownId) (hp : s.outPort x = some p) :
    s.message p 11 x l ∈ (s.sendOrder l).herd.out := by
  have hm : x ∈ s.herd.members.filter (· != s.ownId) := List.mem_filter.mpr ⟨hx, bne_iff_ne.mpr hn⟩
  exact (State.Sends.foldl (fun t (j : Nat × Nat) => t.sends_sendJoiner 11 j.1 l) _ _).mem (State.mem_sendTos l _ s hm hp)

theorem State.nextOrder_spec (s : State) : s.SameWays s.nextOrder ∧ s.nextOrder.isBw = s.isBw ∧ s.nextOrder.herdState = s.herdState ∧
    s.nextOrder.herd.orders = s.herd.orders ∧ s.nextOrder.herd.nextSeq = s.herd.nextSeq + 1 ∧ s.nextOrder.time = s.time ∧ s.nextOrder.pkts = s.pkts := by
  obtain ⟨v, hv⟩ : ∃ v, v = ({ s with herd := { s.herd with nextSeq := s.herd.nextSeq + 1, nackers := [] } } : State) := ⟨_, rfl⟩
  have hw : s.nextOrder = v.wr Reg.HERD.CMT_NACKS 0 := by rw [hv]; rfl
  have h1 : s.SameWays v := by rw [hv]; exact ⟨fun _ _ => rfl, fun _ => rfl, rfl⟩
  have h2 := v.sameWays_wr Reg.HERD.CMT_NACKS 0 rfl (by decide) (by decide) (by decide)
  have h3 := v.keepsMember_wr Reg.HERD.CMT_NACKS 0 (by decide)
  have hr : ∀ f ∈ orderKept, v.rd f = s.rd f := by rw [hv]; exact fun _ _ => rfl
  rw [← hw] at h2 h3
  have hx : s.nextOrder.herd.orders = s.herd.orders ∧ s.nextOrder.herd.nextSeq = s.herd.nextSeq + 1 ∧ s.nextOrder.time = s.time ∧ s.nextOrder.pkts = s.pkts :=
    ⟨rfl, rfl, rfl, rfl⟩
  refine ⟨h1.trans h2, ?_, (h3.2 _ (by decide)).trans (hr _ (by decide)), hx⟩
  rw [State.isBw, State.isBw, h3.2 _ (by decide), hr _ (by decide)]

theorem State.armOrder_frame (s : State) (k : CommitKind) (c : Nat) : (s.armOrder k c).herd = s.herd ∧ (s.armOrder k c).time = s.time ∧
    (s.armOrder k c).pkts = s.pkts := by
  cases k with
  | rules =>
    obtain ⟨-, -, -, h1, h2, h3, -⟩ := s.armOrder_rules c
    exact ⟨h2, h3, h1⟩
  | context n =>
    obtain ⟨-, h1, h2, h3, -⟩ := s.armOrder_context n c
    exact ⟨h2, h3, h1⟩

/-- What a member's answer to an order leaves: the numbers of orders, and the messages that wait. -/
theorem State.doOrder_frame (s : State) (o : HerdOrder) (h1 : s.herdState ≠ 1) : (s.doOrder o).herd.nextSeq = s.herd.nextSeq ∧
    (s.doOrder o).herd.lastOrderSeq = s.herd.lastOrderSeq ∧ (∀ x ∈ s.herd.out, x ∈ (s.doOrder o).herd.out) ∧ (s.doOrder o).time = s.time ∧
    (s.doOrder o).pkts = s.pkts := by
  cases ho : o.armed with
  | true =>
    have hs := s.doOrder_armed o ho
    obtain ⟨e1, e2, e3⟩ := s.armOrder_frame o.kind o.c
    generalize s.armOrder o.kind o.c = v at *
    obtain ⟨-, f1, f2, -⟩ := hs.frame
    have hm : ∀ x ∈ s.herd.out, x ∈ (s.doOrder o).herd.out := fun x hx => hs.mem (by rw [e1]; exact hx)
    exact ⟨by rw [hs.herd, e1], by rw [hs.herd, e1], hm, f1.trans e2, f2.trans e3⟩
  | false =>
    obtain ⟨-, -, g2, g3, g4, g5⟩ := s.nackOrder_spec o
    rw [State.doOrder, if_neg (by rw [ho]; exact Bool.false_ne_true), if_neg h1]
    generalize s.nackOrder o = t at *
    rw [State.ReportsOnly] at g5
    exact ⟨g3, g2, g4, by rw [g5], by rw [g5]⟩

theorem State.takeOrder_own (s : State) (seq c : Nat) (k : CommitKind) (v : Nat) (h2 : s.herdState = 2) (ho : s.herd.orders = [])
    (hc : s.time.beat ≤ c) : (s.takeOrder seq c k v).herd.nextSeq = s.herd.nextSeq ∧ (s.takeOrder seq c k v).herd.lastOrderSeq = seq ∧
      (∀ x ∈ s.herd.out, x ∈ (s.takeOrder seq c k v).herd.out) ∧ (s.takeOrder seq c k v).time = s.time ∧ (s.takeOrder seq c k v).pkts = s.pkts := by
  obtain ⟨w, hw, he⟩ := s.takeOrder_first seq c k v h2 ho hc
  obtain ⟨-, hl, -, hn, hout⟩ := hw.noted
  obtain ⟨e1, -, -, e4⟩ := hw.frame
  obtain ⟨-, hst, -⟩ := hw
  rw [he]
  obtain ⟨f1, f2, f3, f4, f5⟩ := w.doOrder_frame { seq := seq, c := c, kind := k, ver := v, armed := s.canArm k v c } (by omega)
  exact ⟨f1.trans hn, f2.trans hl, fun x hx => f3 x (by rw [hout]; exact hx), f4.trans e4, f5.trans e1⟩

theorem le_epochFrom (a b : Nat) : a ≤ epochFrom (Nat.max b (a + 8192)) := by
  have h : a + 8192 ≤ Nat.max b (a + 8192) := Nat.le_max_right _ _
  rw [epochFrom]
  omega

theorem execCreq_orders (s : State) (h : HPort) (m : MsgHdr) (k : CommitKind) (v : BitVec 16) (b : Nat) (hu : s.hlUp h.val = true) (hd : m.dest.val = s.ownId)
    (hb : s.isBw = true) (he : s.electing = false) (h2 : s.herdState = 2) (hm : m.src.val ∈ s.herd.members) (ho : s.herd.orders = []) :
    ∃ t, execCreq h m k v b s = .next t ∧ t.herd.nextSeq = s.herd.nextSeq + 1 ∧ t.herd.lastOrderSeq = s.herd.nextSeq + 1 ∧
      (∀ x p, x ∈ s.herd.members → x ≠ s.ownId → s.outPort x = some p →
        { port := some p, kind := 11, src := s.ownId, dest := x,
          args := [((s.herd.nextSeq + 1 : Nat) : Int), (epochFrom (Nat.max b (s.time.beat + 8192)) : Int)] ++ commitWords k v.toNat } ∈ t.herd.out) ∧
      t.time = s.time ∧ t.pkts = s.pkts := by
  rw [execCreq_eq s h m k v b hu hd, s.orderCommit_eq _ k v.toNat b hb he hm ho]
  obtain ⟨g1, -, g3, g4, g5, g6, g7⟩ := s.nextOrder_spec
  have hmem (x p : Nat) := State.mem_sendOrder (x := x) (p := p) s.nextOrder (orderWords (s.herd.nextSeq + 1) (epochFrom (Nat.max b (s.time.beat + 8192))) k v.toNat)
  have hs := s.nextOrder.sends_sendOrder (orderWords (s.herd.nextSeq + 1) (epochFrom (Nat.max b (s.time.beat + 8192))) k v.toNat)
  have hmsg (x p : Nat) : s.nextOrder.message p 11 x (orderWords (s.herd.nextSeq + 1) (epochFrom (Nat.max b (s.time.beat + 8192))) k v.toNat) =
      { port := some p, kind := 11, src := s.ownId, dest := x,
        args := [((s.herd.nextSeq + 1 : Nat) : Int), (epochFrom (Nat.max b (s.time.beat + 8192)) : Int)] ++ commitWords k v.toNat } := by
    rw [State.message, g1.ownId, orderWords]
  simp only [hmsg, g1.2.2, g1.ownId, g1.outPort] at hmem
  generalize s.nextOrder.sendOrder (orderWords (s.herd.nextSeq + 1) (epochFrom (Nat.max b (s.time.beat + 8192))) k v.toNat) = w at *
  generalize s.nextOrder = z at *
  obtain ⟨-, e2, e3, -⟩ := hs.frame
  have hst : w.herdState = 2 := by
    rw [State.herdState, hs.rd, ← h2, ← g3]
    rfl
  have hor : w.herd.orders = [] := by
    rw [hs.herd, g4, ho]
  obtain ⟨f1, f2, f3, f4, f5⟩ := w.takeOrder_own (s.herd.nextSeq + 1) (epochFrom (Nat.max b (s.time.beat + 8192))) k v.toNat hst hor (by
    rw [e2, g6]
    exact le_epochFrom _ _)
  refine ⟨_, rfl, f1.trans ?_, f2, fun x p hx hn hp => f3 _ (hmem x p hx hn hp), f4.trans (e2.trans g6), f5.trans (e3.trans g7)⟩
  rw [hs.herd, g5]

/-- Settles O28. -/
theorem herdCommitCommands : Obligations.HerdCommitCommands :=
  ⟨execCreq_orders, execCreq_other, execOrder_context, execOrder_rules, execOrder_nack, execOrder_again, execAck_nack, execAck_taken⟩

end Sys2Proof.Machine
end

section
/-! PROOF. Joining and leaving (R236, R237, R239, R240, R247, R253): O26. -/

namespace Sys2Proof.Machine

-- One thread for the proofs, which bounds the memory that checking them takes.
set_option Elab.async false

open Sys2Proof

variable {s t u : State}

/-! ### Ports that train -/

/-- t differs from s at most in its ports and in what a report changes; it is in its herd what s is. -/
def State.Trains (s t : State) : Prop :=
  ({ s with hl := t.hl } : State).ReportsOnly t ∧ ∀ f ∈ herdStates, t.rd f = s.rd f

theorem State.Trains.refl (s : State) : s.Trains s := ⟨.refl s, fun _ _ => rfl⟩

theorem State.Trains.trans (h : s.Trains t) (h' : t.Trains u) : s.Trains u := by
  refine ⟨?_, fun f hf => (h'.2 f hf).trans (h.2 f hf)⟩
  obtain ⟨h, -⟩ := h
  obtain ⟨h', -⟩ := h'
  rw [State.ReportsOnly] at h h' ⊢
  rw [h', h]

theorem State.Trains.frame (h : s.Trains t) : t.herd = s.herd ∧ t.pkts = s.pkts ∧ t.herdState = s.herdState := by
  refine ⟨?_, ?_, h.2 _ (by decide)⟩
  · rw [h.1.stands.2.1]
  · rw [h.1.stands.2.2.1]

theorem State.trains_ofHl (h : t = { s with hl := t.hl }) : s.Trains t :=
  ⟨by rw [h]; exact .refl _, fun f _ => State.rd_congr (by rw [h]) f 0 0 0⟩

theorem State.trains_setHl (s : State) (p : HPort) (v : Nat) : s.Trains (s.setHl p.val v) := by
  have h1 := s.reportsOnly_setHl p.val v
  have h2 : ∀ f ∈ herdStates, (s.setHl p.val v).rd f = s.rd f := by
    have hk : ∀ f ∈ herdStates, f.block = Blk.HERD ∧ f.lo < 64 ∧ f.off < 4096 := by decide
    intro f hf
    obtain ⟨hb, hl, ho⟩ := hk f hf
    exact State.rd_setHl s _ _ (herdStates_reportKey f hf) (Ne.symm (herdField_ne_linkState p hb hl ho))
  generalize s.setHl p.val v = t at *
  refine ⟨?_, h2⟩
  rw [State.ReportsOnly] at h1 ⊢
  rw [h1]

theorem State.trains_trainPort (s : State) (p : HPort) : s.Trains (s.trainPort p.val) := by
  unfold State.trainPort
  extract_lets u
  have hu : s.Trains u := State.trains_ofHl rfl
  exact keeps_ite (hu.trans (u.trains_setHl p 0)) (keeps_ite (hu.trans (u.trains_setHl p 7)) (hu.trans (u.trains_setHl p 1)))

theorem State.trains_retrainPorts (s : State) : s.Trains s.retrainPorts := by
  have key : ∀ (l : List Nat) (u : State), (∀ p ∈ l, p < 12) → s.Trains u →
      s.Trains (l.foldl (fun t p => if t.linkState p = 0 ∨ t.linkState p = 7 ∨ ¬ t.portUsed p then t.trainPort p else t) u) := by
    intro l
    induction l with
    | nil => exact fun _ _ h => h
    | cons p l ih =>
      intro u hp h
      refine ih _ (fun q hq => hp q (List.mem_cons_of_mem _ hq)) ?_
      exact keeps_ite (P := fun v => s.Trains v) (h.trans (u.trains_trainPort ⟨p, hp p List.mem_cons_self⟩)) h
  exact key _ s (fun p hp => List.mem_range.mp hp) (.refl s)

theorem State.enterFold_frame (s : State) : s.enterFold.pkts = s.pkts ∧ s.enterFold.herd.joinWant = s.herd.joinWant ∧
    ∀ f ∈ herdStates, f ≠ Reg.HERD.STATE → s.enterFold.rd f = s.rd f := by
  have hk : ∀ f ∈ herdStates, f ≠ Reg.HERD.STATE → f.key 0 0 0 ≠ Reg.HERD.STATE.key 0 0 0 := by decide
  have h1 := s.reportsOnly_setHerdState 1
  have h2 : ∀ f ∈ herdStates, f ≠ Reg.HERD.STATE → (s.setHerdState 1).rd f = s.rd f := fun f hf hn =>
    State.rd_setHerdState s 1 (herdStates_reportKey f hf) (hk f hf hn)
  rw [State.enterFold]
  generalize s.setHerdState 1 = v at *
  obtain ⟨-, e2, e3, -⟩ := h1.stands
  by_cases hc : s.herdState = 0 ∧ s.herd.joinWant = true ∧ (List.range 12).any s.hlUp = true
  · rw [if_pos hc]
    exact ⟨e3, by rw [← e2], h2⟩
  · rw [if_neg hc]
    exact ⟨rfl, rfl, fun _ _ _ => rfl⟩

/-! ### JOIN -/

/-- The device after the write of JOIN. -/
def State.joinAsked (s : State) (src : Source) (v : Bool) : State :=
  ((s.wrote src).wrNow Reg.HERD.JOIN (b2n v)).auditCmd src Reg.HERD.JOIN 0 (b2n v) 0

theorem State.joinAsked_spec (s : State) (src : Source) (v : Bool) : (s.joinAsked src v).rd Reg.HERD.JOIN = b2n v ∧
    (s.joinAsked src v).herdState = s.herdState ∧ (s.joinAsked src v).herd = s.herd ∧ (s.joinAsked src v).pkts = s.pkts ∧
    (s.joinAsked src v).sec.herdEn = s.sec.herdEn ∧ (s.joinAsked src v).sec.domain = s.sec.domain := by
  obtain ⟨hh, hd⟩ := s.wrote_sec_herd src
  refine ⟨?_, ?_, by simp [State.joinAsked], by simp [State.joinAsked], by simp [State.joinAsked, hh], by simp [State.joinAsked, hd]⟩
  · refine (State.rd_auditCmd _ _ _ _ _ _ _ _ _ _ _ _ (by decide)).trans ?_
    refine (State.rd_wr_self (s.wrote src) Reg.HERD.JOIN (b2n v) 0 0 0).trans ?_
    cases v <;> rfl
  · refine (State.rd_auditCmd _ _ _ _ _ _ _ _ _ _ _ _ (by decide)).trans ?_
    exact (State.rd_wr_ne (s.wrote src) Reg.HERD.JOIN Reg.HERD.STATE (b2n v) 0 0 0 0 0 0 (by decide)).trans (s.wrote_herdState src)

theorem execHerdJoin_true_eq (s : State) (src : Source) (ht : s.Takes src) (he : s.sec.herdEn = true) (h2 : s.herdState < 2) :
    execHerdJoin src true s = .next (if (s.joinAsked src true).sec.domain.isNone then ((s.joinAsked src true).joinResult 6).retrainPorts
      else
        let u := (s.joinAsked src true).joinResult 0
        (({ u with herd := { u.herd with joinWant := true, lockBeats := 0, vtab := [] } } : State).retrainPorts).enterFold) := by
  obtain ⟨-, hs, -, -, hh, -⟩ := s.joinAsked_spec src true
  refine (s.basicCmd_takes _ ht).trans (congrArg Host.Outcome.next ?_)
  have hno : ¬ ¬ true = true := by decide
  have hno' : ¬ (¬ (s.joinAsked src true).sec.herdEn = true ∨ 2 ≤ (s.joinAsked src true).herdState) := by
    rw [hh, hs, he]
    simp [h2]
  exact (if_neg hno).trans (if_neg hno')

theorem State.joinResult_spec (s : State) {r : Nat} (hr : r < 16) : (s.joinResult r).rd Reg.HERD.JOIN_RESULT = r ∧
    (∀ f ∈ herdStates, f ≠ Reg.HERD.JOIN_RESULT → (s.joinResult r).rd f = s.rd f) ∧ s.ReportsOnly (s.joinResult r) := by
  have hk : ∀ f ∈ herdStates, f ≠ Reg.HERD.JOIN_RESULT → f.key 0 0 0 ≠ Reg.HERD.JOIN_RESULT.key 0 0 0 := by decide
  refine ⟨?_, fun f hf hn => State.rd_wr_ne _ _ _ _ _ _ _ _ _ _ (hk f hf hn), .wr s _ _ _ _ _⟩
  rw [State.joinResult, State.rd_wr_self]
  exact Nat.mod_eq_of_lt hr

theorem execHerdJoin_noDomain (s : State) (src : Source) (ht : s.Takes src) (he : s.sec.herdEn = true) (h2 : s.herdState < 2) (hd : s.sec.domain = none) :
    ∃ t, execHerdJoin src true s = .next t ∧ t.rd Reg.HERD.JOIN_RESULT = 6 ∧ t.herdState = s.herdState ∧ t.pkts = s.pkts := by
  rw [execHerdJoin_true_eq s src ht he h2]
  obtain ⟨-, e2, -, e4, -, e6⟩ := s.joinAsked_spec src true
  rw [if_pos (by rw [e6, hd]; rfl)]
  generalize s.joinAsked src true = v at *
  obtain ⟨r1, r2, r3⟩ := v.joinResult_spec (r := 6) (by decide)
  generalize v.joinResult 6 = w at *
  have hw := w.trains_retrainPorts
  obtain ⟨-, f2, f3⟩ := hw.frame
  exact ⟨_, rfl, (hw.2 _ (by decide)).trans r1, f3.trans ((r2 _ (by decide) (by decide)).trans e2), f2.trans (r3.stands.2.2.1.trans e4)⟩

/-- The device wants to join its herd. -/
def State.wantsJoin (u : State) : State := { u with herd := { u.herd with joinWant := true, lockBeats := 0, vtab := [] } }

theorem State.wantsJoin_spec (u : State) : u.wantsJoin.herd.joinWant = true ∧ u.wantsJoin.pkts = u.pkts ∧ u.wantsJoin.regs = u.regs := ⟨rfl, rfl, rfl⟩

theorem execHerdJoin_begins (s : State) (src : Source) (ht : s.Takes src) (he : s.sec.herdEn = true) (h2 : s.herdState < 2)
    (hd : s.sec.domain.isSome = true) : ∃ t, execHerdJoin src true s = .next t ∧ t.rd Reg.HERD.JOIN_RESULT = 0 ∧ t.herd.joinWant = true ∧
      t.rd Reg.HERD.JOIN = 1 ∧ t.pkts = s.pkts := by
  rw [execHerdJoin_true_eq s src ht he h2]
  obtain ⟨e1, -, -, e4, -, e6⟩ := s.joinAsked_spec src true
  rw [if_neg (by rw [e6, Option.isNone_iff_eq_none]; exact Option.isSome_iff_ne_none.mp hd)]
  generalize s.joinAsked src true = v at *
  obtain ⟨r1, r2, r3⟩ := v.joinResult_spec (r := 0) (by decide)
  have hw := (v.joinResult 0).wantsJoin_spec
  refine ⟨(((v.joinResult 0).wantsJoin).retrainPorts).enterFold, rfl, ?_⟩
  generalize v.joinResult 0 = u at *
  generalize u.wantsJoin = w at *
  obtain ⟨w1, w2, w3⟩ := hw
  have hx := w.trains_retrainPorts
  generalize w.retrainPorts = x at *
  obtain ⟨f1, f2, -⟩ := hx.frame
  obtain ⟨g1, g2, g3⟩ := x.enterFold_frame
  refine ⟨?_, ?_, ?_, ?_⟩
  · rw [g3 _ (by decide) (by decide), hx.2 _ (by decide), State.rd_congr w3, r1]
  · rw [g2, f1, w1]
  · rw [g3 _ (by decide) (by decide), hx.2 _ (by decide), State.rd_congr w3, r2 _ (by decide) (by decide), e1]
    rfl
  · rw [g1, f2, w2, r3.stands.2.2.1, e4]

theorem execHerdJoin_gives_up (s : State) (src : Source) (ht : s.Takes src) (h1 : s.herdState = 1) : ∃ t, execHerdJoin src false s = .next t ∧
    t.herdState = 0 ∧ t.herd.joinWant = false ∧ t.rd Reg.HERD.JOIN = 0 ∧ t.pkts = s.pkts := by
  obtain ⟨-, e2, -, e4, -, -⟩ := s.joinAsked_spec src false
  have heq : execHerdJoin src false s = .next (s.joinAsked src false).becomeAlone := by
    refine (s.basicCmd_takes _ ht).trans (congrArg Host.Outcome.next ?_)
    have hyes : ¬ false = true := by decide
    exact (if_pos hyes).trans (if_pos (e2.trans h1))
  rw [heq]
  generalize s.joinAsked src false = v at *
  obtain ⟨a1, -, -, a4, a5, -, -, a8, -⟩ := v.becomeAlone_spec
  exact ⟨_, rfl, a1, a4, a5, a8.trans e4⟩

/-! ### LEAVE -/

/-- The device after the write of LEAVE. -/
def State.leaveAsked (s : State) (src : Source) : State := (s.wrote src).auditCmd src Reg.HERD.LEAVE 0 2 0

theorem execHerdLeave_eq (s : State) (src : Source) (ht : s.Takes src) : execHerdLeave src s = .next (s.leaveAsked src).announceLeave :=
  s.basicCmd_takes _ ht

theorem State.leaveAsked_spec (s : State) (src : Source) : (s.leaveAsked src).herdState = s.herdState ∧ (s.leaveAsked src).herd = s.herd ∧
    (s.leaveAsked src).time = s.time ∧ (s.leaveAsked src).pkts = s.pkts ∧ s.WriteOnly (s.leaveAsked src) := by
  refine ⟨(State.rd_auditCmd _ _ _ _ _ _ _ _ _ _ _ _ (by decide)).trans (s.wrote_herdState src), by simp [State.leaveAsked], by simp [State.leaveAsked],
    by simp [State.leaveAsked], (s.writeOnly_wrote src).trans (State.ReportsOnly.auditCmd _ _ _ _ _ _ _ _).writeOnly⟩

/-- A member that leaves, and has not said so yet, leaves at the next epoch boundary. -/
theorem State.announceLeave_member (s : State) (h2 : s.herdState = 2) (hn : s.herd.leaveAt = none) : s.announceLeave.herdState = 3 ∧
    s.announceLeave.herd.leaveAt = some s.nextEpoch ∧ ({ s with herd := s.announceLeave.herd } : State).ReportsOnly s.announceLeave := by
  rw [State.announceLeave, if_pos h2]
  obtain ⟨d1, ⟨o, d2⟩, d3⟩ := s.departBy_spec s.nextEpoch
  refine ⟨d1, ?_, d3⟩
  rw [d2, hn]
  exact congrArg some (Nat.min_self _)

theorem execHerdLeave_member (s : State) (src : Source) (ht : s.Takes src) (h2 : s.herdState = 2) (hn : s.herd.leaveAt = none) :
    ∃ t, execHerdLeave src s = .next t ∧ t.herdState = 3 ∧ t.herd.leaveAt = some s.nextEpoch ∧ ({ s with herd := t.herd } : State).WriteOnly t := by
  rw [execHerdLeave_eq s src ht]
  obtain ⟨e1, e2, e3, -, e5⟩ := s.leaveAsked_spec src
  generalize s.leaveAsked src = v at *
  obtain ⟨a1, a2, a3⟩ := v.announceLeave_member (e1.trans h2) (by rw [e2, hn])
  generalize v.announceLeave = w at *
  refine ⟨w, rfl, a1, ?_, ?_⟩
  · rw [a2, State.nextEpoch, e3, State.nextEpoch]
  · rw [State.ReportsOnly] at a3
    rw [State.WriteOnly] at e5 ⊢
    rw [a3, e5]

theorem execHerdLeave_folds (s : State) (src : Source) (ht : s.Takes src) (h1 : s.herdState = 1) : ∃ t, execHerdLeave src s = .next t ∧ t.herdState = 0 ∧
    t.herd.joinWant = false ∧ t.pkts = s.pkts := by
  rw [execHerdLeave_eq s src ht]
  obtain ⟨e1, -, -, e4, -⟩ := s.leaveAsked_spec src
  generalize s.leaveAsked src = v at *
  rw [State.announceLeave, if_neg (by omega), if_pos (e1.trans h1)]
  obtain ⟨a1, -, -, a4, -, -, -, a8, -⟩ := v.becomeAlone_spec
  exact ⟨_, rfl, a1, a4, a8.trans e4⟩

theorem execDeparture_leaves (s : State) (b : Nat) (hb : s.herd.leaveAt = some b) (hle : b ≤ s.time.beat) (h2 : 2 ≤ s.herdState) :
    ∃ t, execDeparture s = .next t ∧ t.herdState = 0 ∧ t.herd.members = [] ∧ t.herd.leaveAt = none ∧ t.rd Reg.HERD.JOIN = 0 ∧ t.time = s.time ∧
      t.pkts = s.pkts := by
  obtain ⟨a1, a2, a3, -, a5, -, a7, a8, -⟩ := s.becomeAlone_spec
  refine ⟨s.becomeAlone, ?_, a1, a2, a3, a5, a7, a8⟩
  rw [execDeparture, hb]
  exact if_pos ⟨hle, h2⟩

theorem execDeparture_early (s : State) (b : Nat) (hb : s.herd.leaveAt = some b) (hlt : s.time.beat < b) : execDeparture s = .next s := by
  rw [execDeparture, hb]
  exact if_neg (by omega)

theorem execLockLost_leaves (s : State) (h2 : s.herdState = 2) (hl : 16 ≤ s.herd.lostBeats) (hn : s.herd.leaveAt = none) :
    ∃ t, execLockLost s = .next t ∧ t.herdState = 3 ∧ t.herd.leaveAt = some s.nextEpoch ∧ ({ s with herd := t.herd } : State).ReportsOnly t :=
  ⟨_, if_pos ⟨h2, hl⟩, s.announceLeave_member h2 hn⟩

theorem execLockLost_held (s : State) (hl : s.herd.lostBeats < 16) : execLockLost s = .next s := if_neg (by omega)

/-! ### The joining device and the bellwether -/

theorem execJoinLocked_asks (s : State) (p : Nat) (h1 : s.herdState = 1) (hw : s.herd.joinWant = true) (hl : 1024 ≤ s.herd.lockBeats)
    (he : s.electing = false) (hp : p < 12) (hu : s.hlUp p = true) : ∃ t, execJoinLocked s = .next t ∧
      { port := some p, kind := 3, src := s.ownId, dest := s.bwId, args := [(s.activeRule : Int)] } ∈ t.herd.out ∧ t.herd.lockBeats = 0 ∧
      t = { s with herd := t.herd } := by
  obtain ⟨v, hv⟩ : ∃ v, v = ({ s with herd := { s.herd with lockBeats := 0, vtab := [] } } : State) := ⟨_, rfl⟩
  have hr : v.regs = s.regs := by rw [hv]
  have hst : v.herdState = 1 := (State.rd_congr hr _ _ _ _).trans h1
  have hnone := v.outPort_alone v.bwId (by omega)
  have heq : execJoinLocked s = .next (v.flood 3 v.bwId 12 [(v.activeRule : Int)]) := by
    refine (if_pos ⟨h1, hw, hl, Bool.eq_false_iff.mp he⟩).trans ?_
    dsimp only
    rw [← hv, v.sendTo_none _ _ hnone]
  have hm := v.mem_flood (p := p) (k := 3) v.bwId 12 [(v.activeRule : Int)] (by decide) hp ((congrArg (decide <| · = 4) (State.rd_congr hr _ _ _ _)).trans hu) (by omega)
  have hmsg : v.message p 3 v.bwId [(v.activeRule : Int)] = { port := some p, kind := 3, src := s.ownId, dest := s.bwId, args := [(s.activeRule : Int)] } := by
    rw [hv]
    rfl
  rw [heq]
  rw [hmsg] at hm
  obtain ⟨o, ho⟩ := v.sends_flood 3 v.bwId 12 [(v.activeRule : Int)]
  generalize v.flood 3 v.bwId 12 [(v.activeRule : Int)] = t at *
  exact ⟨t, rfl, hm, by rw [ho, hv], by rw [ho, hv]⟩

theorem execJoinLocked_early (s : State) (hl : s.herd.lockBeats < 1024) : execJoinLocked s = .next s := if_neg (by omega)

/-- The bellwether answers a device that joins with its version table, a block a message. -/
def State.sendTable (s : State) (d : Nat) (l : List Nat) : State :=
  l.foldl (fun t (k : Nat) => t.sendJoiner 4 d ([(k : Int), (t.activeRule : Int)] ++ (t.vBlock k).map (fun v => (v : Int)))) s

theorem State.sends_sendTable (s : State) (d : Nat) (l : List Nat) : s.Sends (s.sendTable d l) :=
  .foldl (fun t (_ : Nat) => t.sends_sendJoiner _ _ _) l s

theorem State.mem_sendTable (s : State) {d k p : Nat} {l : List Nat} (hk : k ∈ l) (hp : s.outPort d = some p ∨ (s.outPort d = none ∧ p < 12 ∧ s.hlUp p = true)) :
    { port := some p, kind := 4, src := s.ownId, dest := d, args := [(k : Int), (s.activeRule : Int)] ++ (s.vBlock k).map (fun v => (v : Int)) } ∈
      (s.sendTable d l).herd.out := by
  have key : ∀ (l : List Nat) (u : State), s.Sends u → k ∈ l →
      { port := some p, kind := 4, src := s.ownId, dest := d, args := [(k : Int), (s.activeRule : Int)] ++ (s.vBlock k).map (fun v => (v : Int)) } ∈
        (u.sendTable d l).herd.out := by
    intro l
    induction l with
    | nil => exact fun _ _ h => absurd h List.not_mem_nil
    | cons j l ih =>
      intro u hs h
      rcases List.mem_cons.mp h with rfl | h
      · refine (State.sends_sendTable _ d l).mem ?_
        have hm := u.mem_sendJoiner (k := 4) (d := d) (p := p) ([(k : Int), (u.activeRule : Int)] ++ (u.vBlock k).map (fun v => (v : Int))) ?_ (by decide)
        · obtain ⟨o, rfl⟩ := hs
          exact hm
        · rw [hs.sameWays.outPort, State.hlUp, hs.rd]
          exact hp
      · exact ih _ (hs.trans (u.sends_sendJoiner _ _ _)) h
  exact key l s (.refl s) hk

theorem execJoin_answers (s : State) (h : HPort) (m : MsgHdr) (r : BitVec 16) (p : Nat) (hu : s.hlUp h.val = true) (hd : m.dest.val = s.ownId)
    (hb : s.isBw = true) (hp : s.outPort m.src.val = some p ∨ (s.outPort m.src.val = none ∧ p < 12 ∧ s.hlUp p = true)) :
    ∃ t, execJoin h m r s = .next t ∧ t = { s with herd := { s.herd with out := t.herd.out } } ∧
      (s.herd.orders.any (fun o => decide (s.time.beat < o.c)) = true →
        { port := some p, kind := 6, src := s.ownId, dest := m.src.val, args := [-4] } ∈ t.herd.out) ∧
      (s.herd.orders.any (fun o => decide (s.time.beat < o.c)) = false → ∀ k : Nat, k < 32 →
        { port := some p, kind := 4, src := s.ownId, dest := m.src.val,
          args := [(k : Int), (s.activeRule : Int)] ++ (s.vBlock k).map (fun v => (v : Int)) } ∈ t.herd.out) := by
  rw [execJoin, State.recv_own _ _ hu (Or.inl (by decide)) hd]
  dsimp only
  rw [if_neg (not_not_intro hb)]
  cases hc : s.herd.orders.any (fun o => decide (s.time.beat < o.c)) with
  | true =>
    rw [if_pos rfl]
    exact ⟨_, rfl, (s.sends_sendJoiner 6 m.src.val [-4]).eq, fun _ => s.mem_sendJoiner (k := 6) [-4] hp (by decide), fun hx => absurd hx nofun⟩
  | false =>
    rw [if_neg Bool.false_ne_true]
    exact ⟨s.sendTable m.src.val (List.range 32), rfl, (s.sends_sendTable _ _).eq, fun hx => absurd hx nofun,
      fun _ k hk => s.mem_sendTable (List.mem_range.mpr hk) hp⟩

theorem execReady_answers (s : State) (h : HPort) (m : MsgHdr) (d : List Byte) (p : Nat) (hu : s.hlUp h.val = true) (hd : m.dest.val = s.ownId)
    (hb : s.isBw = true) (hp : s.outPort m.src.val = some p ∨ (s.outPort m.src.val = none ∧ p < 12 ∧ s.hlUp p = true)) :
    ∃ t, execReady h m d s = .next t ∧ t = { s with herd := { s.herd with joins := t.herd.joins, out := t.herd.out } } ∧
      (d ≠ s.vDigest → t.herd.joins = s.herd.joins ∧ { port := some p, kind := 6, src := s.ownId, dest := m.src.val, args := [-3] } ∈ t.herd.out) ∧
      (d = s.vDigest → (∀ j ∈ s.herd.joins, j.1 ≠ m.src.val) →
        t.herd.joins = s.herd.joins ++ [(m.src.val, epochFrom (s.time.beat + 2048))] ∧
          { port := some p, kind := 6, src := s.ownId, dest := m.src.val, args := [(epochFrom (s.time.beat + 2048) : Int)] } ∈ t.herd.out) := by
  have hjoins (t : State) (hs : s.Sends t) : t = { s with herd := { s.herd with joins := t.herd.joins, out := t.herd.out } } ∧ t.herd.joins = s.herd.joins := by
    obtain ⟨o, rfl⟩ := hs
    exact ⟨rfl, rfl⟩
  rw [execReady, State.recv_own _ _ hu (Or.inl (by decide)) hd]
  dsimp only
  rw [if_neg (not_not_intro hb)]
  by_cases hv : d = s.vDigest
  · rw [if_neg (not_not_intro hv)]
    cases hf : s.herd.joins.find? (fun j => j.1 == m.src.val) with
    | some j =>
      refine ⟨_, rfl, (hjoins _ (s.sends_sendJoiner _ _ _)).1, fun hn => absurd hv hn, fun _ hall => ?_⟩
      have hx := List.find?_some hf
      exact absurd (beq_iff_eq.mp hx) (hall j (List.mem_of_find?_eq_some hf))
    | none =>
      dsimp only
      obtain ⟨w, hw⟩ : ∃ w, w = ({ s with herd := { s.herd with joins := s.herd.joins ++ [(m.src.val, epochFrom (s.time.beat + 2048))] } } : State) := ⟨_, rfl⟩
      have hways : s.SameWays w := by rw [hw]; exact ⟨fun _ _ => rfl, fun _ => rfl, rfl⟩
      have hm := w.mem_sendJoiner (k := 6) (d := m.src.val) (p := p) [(epochFrom (s.time.beat + 2048) : Int)] (by
        rw [hways.outPort, State.hlUp, State.rd_congr (t := w) (s := s) (by rw [hw])]
        exact hp) (by decide)
      rw [State.message, hways.ownId] at hm
      rw [← hw]
      obtain ⟨o, ho⟩ := w.sends_sendJoiner 6 m.src.val [(epochFrom (s.time.beat + 2048) : Int)]
      generalize w.sendJoiner 6 m.src.val [(epochFrom (s.time.beat + 2048) : Int)] = x at *
      exact ⟨x, rfl, by rw [ho, hw], fun hn => absurd hv hn, fun _ _ => ⟨by rw [ho, hw], hm⟩⟩
  · rw [if_pos hv]
    exact ⟨_, rfl, (hjoins _ (s.sends_sendJoiner _ _ _)).1, fun _ => ⟨(hjoins _ (s.sends_sendJoiner _ _ _)).2, s.mem_sendJoiner (k := 6) [-3] hp (by decide)⟩, fun hx => absurd hx hv⟩

/-! ### The version table -/

/-- The joining device keeps a block of the bellwether's version table. -/
def State.tableKept (s : State) (src b : Nat) (v : List (BitVec 16)) (r : Nat) : State :=
  { s.wr Reg.HERD.BW_ID src with herd := { s.herd with vtab := s.herd.vtab.put b v, vtabRule := r } }

/-- The joining device compares the whole table with its own versions. -/
def State.compareTable (s : State) (src : Nat) : State :=
  match s.vDiff with
  | some c => ((s.wr Reg.HERD.JOIN_DIFF c).wr Reg.HERD.RULES (b2n (s.herd.vtabRule != s.activeRule))).joinOver 3
  | none =>
    if s.herd.vtabRule ≠ s.activeRule then (s.wr Reg.HERD.RULES 1).joinOver 3
    else ({ s with herd := { s.herd with vtab := [] } } : State).sendJoiner 5 src (bytesInts s.vDigest)

theorem execVtable_eq (s : State) (h : HPort) (m : MsgHdr) (b : Fin 32) (v : List (BitVec 16)) (r : BitVec 16) (hu : s.hlUp h.val = true)
    (hd : m.dest.val = s.ownId) (h1 : s.herdState = 1) (hw : s.herd.joinWant = true) : execVtable h m b v r s =
      .next (if (s.herd.vtab.put b.val v).length < 32 then s.tableKept m.src.val b.val v r.toNat
        else (s.tableKept m.src.val b.val v r.toNat).compareTable m.src.val) := by
  have hno : ¬ (s.herdState ≠ 1 ∨ ¬ s.herd.joinWant = true) := by simp [h1, hw]
  rw [execVtable, State.recv_own _ _ hu (Or.inl (by decide)) hd]
  exact congrArg Host.Outcome.next (if_neg hno)

theorem State.tableKept_spec (s : State) (src b : Nat) (v : List (BitVec 16)) (r : Nat) :
    (s.tableKept src b v r).herd = { s.herd with vtab := s.herd.vtab.put b v, vtabRule := r } ∧ (s.tableKept src b v r).rd Reg.HERD.BW_ID = src % 32768 ∧
      (∀ f ∈ herdStates, f ≠ Reg.HERD.BW_ID → (s.tableKept src b v r).rd f = s.rd f) ∧
      s.tableKept src b v r = { s with regs := (s.tableKept src b v r).regs, herd := (s.tableKept src b v r).herd } := by
  have hk : ∀ f ∈ herdStates, f ≠ Reg.HERD.BW_ID → f.key 0 0 0 ≠ Reg.HERD.BW_ID.key 0 0 0 := by decide
  exact ⟨rfl, State.rd_wr_self _ _ _ _ _ _, fun f hf hn => State.rd_wr_ne _ _ _ _ _ _ _ _ _ _ (hk f hf hn), rfl⟩

theorem execVtable_stored (s : State) (h : HPort) (m : MsgHdr) (b : Fin 32) (v : List (BitVec 16)) (r : BitVec 16) (hu : s.hlUp h.val = true)
    (hd : m.dest.val = s.ownId) (h1 : s.herdState = 1) (hw : s.herd.joinWant = true) (hl : (s.herd.vtab.put b.val v).length < 32) :
    ∃ t, execVtable h m b v r s = .next t ∧ t.herd = { s.herd with vtab := s.herd.vtab.put b.val v, vtabRule := r.toNat } ∧
      t.rd Reg.HERD.BW_ID = m.src.val ∧ t = { s with regs := t.regs, herd := t.herd } := by
  rw [execVtable_eq s h m b v r hu hd h1 hw, if_pos hl]
  obtain ⟨e1, e2, -, e4⟩ := s.tableKept_spec m.src.val b.val v r.toNat
  exact ⟨_, rfl, e1, e2.trans (Nat.mod_eq_of_lt m.src.isLt), e4⟩

/-- A join that is over has its result, and the device wants to join no more. -/
theorem State.joinOver_spec (s : State) {r : Nat} (hr : r < 16) : (s.joinOver r).rd Reg.HERD.JOIN_RESULT = r ∧ (s.joinOver r).rd Reg.HERD.JOIN = 0 ∧
    (s.joinOver r).herd.joinWant = false ∧ (s.joinOver r).pkts = s.pkts ∧
    ∀ f : Field, f.key 0 0 0 ≠ Reg.HERD.JOIN_RESULT.key 0 0 0 → f.key 0 0 0 ≠ Reg.HERD.JOIN.key 0 0 0 → (s.joinOver r).rd f = s.rd f := by
  obtain ⟨r1, -, -⟩ := s.joinResult_spec hr
  have hj (f : Field) : (s.joinOver r).rd f = ((s.joinResult r).wr Reg.HERD.JOIN 0).rd f := State.rd_congr rfl f 0 0 0
  refine ⟨?_, ?_, rfl, rfl, fun f h1 h2 => ?_⟩
  · rw [hj, State.rd_wr_ne _ _ _ _ _ _ _ _ _ _ (by decide), r1]
  · rw [hj, State.rd_wr_self]
    rfl
  · rw [hj, State.rd_wr_ne _ _ _ _ _ _ _ _ _ _ h2]
    exact State.rd_wr_ne _ _ _ _ _ _ _ _ _ _ h1

theorem execVtable_differs (s : State) (h : HPort) (m : MsgHdr) (b : Fin 32) (v : List (BitVec 16)) (r : BitVec 16) (c : Nat) (hu : s.hlUp h.val = true)
    (hd : m.dest.val = s.ownId) (h1 : s.herdState = 1) (hw : s.herd.joinWant = true) (hl : 32 ≤ (s.herd.vtab.put b.val v).length)
    (hdiff : ({ s with herd := { s.herd with vtab := s.herd.vtab.put b.val v } } : State).vDiff = some c) :
    ∃ t, execVtable h m b v r s = .next t ∧ t.rd Reg.HERD.JOIN_RESULT = 3 ∧ t.rd Reg.HERD.JOIN_DIFF = c % 4096 ∧ t.rd Reg.HERD.JOIN = 0 ∧
      t.herd.joinWant = false ∧ t.pkts = s.pkts := by
  rw [execVtable_eq s h m b v r hu hd h1 hw, if_neg (by omega)]
  have hd' : (s.tableKept m.src.val b.val v r.toNat).vDiff = some c := hdiff
  have hp : (s.tableKept m.src.val b.val v r.toNat).pkts = s.pkts := rfl
  generalize s.tableKept m.src.val b.val v r.toNat = w at *
  rw [State.compareTable, hd']
  dsimp only
  have hx1 : ((w.wr Reg.HERD.JOIN_DIFF c).wr Reg.HERD.RULES (b2n (w.herd.vtabRule != w.activeRule))).rd Reg.HERD.JOIN_DIFF = c % 4096 := by
    rw [State.rd_wr_ne _ _ _ _ _ _ _ _ _ _ (by decide), State.rd_wr_self]
    rfl
  have hx2 : ((w.wr Reg.HERD.JOIN_DIFF c).wr Reg.HERD.RULES (b2n (w.herd.vtabRule != w.activeRule))).pkts = s.pkts := hp
  generalize (w.wr Reg.HERD.JOIN_DIFF c).wr Reg.HERD.RULES (b2n (w.herd.vtabRule != w.activeRule)) = x at *
  obtain ⟨j1, j2, j3, j4, j5⟩ := x.joinOver_spec (r := 3) (by decide)
  exact ⟨_, rfl, j1, (j5 _ (by decide) (by decide)).trans hx1, j2, j3, j4.trans hx2⟩

theorem execVtable_agrees (s : State) (h : HPort) (m : MsgHdr) (b : Fin 32) (v : List (BitVec 16)) (r : BitVec 16) (p : Nat) (hu : s.hlUp h.val = true)
    (hd : m.dest.val = s.ownId) (h1 : s.herdState = 1) (hw : s.herd.joinWant = true) (hl : 32 ≤ (s.herd.vtab.put b.val v).length)
    (hdiff : ({ s with herd := { s.herd with vtab := s.herd.vtab.put b.val v } } : State).vDiff = none) (hr : r.toNat = s.activeRule) (hp : p < 12)
    (hpu : s.hlUp p = true) : ∃ t, execVtable h m b v r s = .next t ∧
      { port := some p, kind := 5, src := s.ownId, dest := m.src.val, args := bytesInts s.vDigest } ∈ t.herd.out ∧ t.herd.vtab = [] ∧
      t = { s with regs := t.regs, herd := t.herd } := by
  rw [execVtable_eq s h m b v r hu hd h1 hw, if_neg (by omega)]
  have hd' : (s.tableKept m.src.val b.val v r.toNat).vDiff = none := hdiff
  obtain ⟨e1, -, e3, e4⟩ := s.tableKept_spec m.src.val b.val v r.toNat
  have hac : (s.tableKept m.src.val b.val v r.toNat).activeRule = s.activeRule := by
    have hq : ∀ f ∈ [Reg.TCAM.ACTIVE_SLOT, Reg.TCAM.SLOT_VER0, Reg.TCAM.SLOT_VER1], f.key 0 0 0 ≠ Reg.HERD.BW_ID.key 0 0 0 := by decide
    have hq' : ∀ f ∈ [Reg.TCAM.ACTIVE_SLOT, Reg.TCAM.SLOT_VER0, Reg.TCAM.SLOT_VER1], (s.tableKept m.src.val b.val v r.toNat).rd f = s.rd f := fun f hf =>
      State.rd_wr_ne s _ _ _ _ _ _ _ _ _ (hq f hf)
    rw [State.activeRule, State.activeRule, State.activeSlot, State.activeSlot, hq' _ (by simp), hq' _ (by simp), hq' _ (by simp)]
  have hvd : (s.tableKept m.src.val b.val v r.toNat).vDigest = s.vDigest := by
    rw [State.vDigest, State.vDigest, hac]
    rfl
  have hport : (s.tableKept m.src.val b.val v r.toNat).hlUp p = true := by
    rw [← hpu, State.hlUp, State.hlUp]
    have hne := herdField_ne_linkState ⟨p, hp⟩ (f := Reg.HERD.BW_ID) rfl (by decide) (by decide)
    exact congrArg (fun x => decide (x = 4)) (State.rd_wr_ne s _ _ _ _ _ _ _ _ _ hne)
  have hown : (s.tableKept m.src.val b.val v r.toNat).ownId = s.ownId := by
    rw [State.ownId, State.ownId, e3 _ (by decide) (by decide), e3 _ (by decide) (by decide), e3 _ (by decide) (by decide)]
  have hst : (s.tableKept m.src.val b.val v r.toNat).herdState < 2 := by
    rw [State.herdState, e3 _ (by decide) (by decide)]
    have : s.rd Reg.HERD.STATE = 1 := h1
    omega
  have hrule : (s.tableKept m.src.val b.val v r.toNat).herd.vtabRule = s.activeRule := by rw [e1, hr]
  generalize s.tableKept m.src.val b.val v r.toNat = w at *
  rw [State.compareTable, hd']
  dsimp only
  rw [if_neg (not_not_intro (hrule.trans hac.symm)), hvd]
  obtain ⟨x, hx⟩ : ∃ x, x = ({ w with herd := { w.herd with vtab := [] } } : State) := ⟨_, rfl⟩
  have hxr : x.regs = w.regs := by rw [hx]
  have hxs : x.herdState < 2 := by
    rw [State.herdState, State.rd_congr hxr]
    exact hst
  have hxu : x.hlUp p = true := by
    rw [State.hlUp, State.rd_congr hxr]
    exact hport
  have hm := x.mem_sendJoiner (k := 5) (d := m.src.val) (bytesInts s.vDigest) (Or.inr ⟨x.outPort_alone _ hxs, hp, hxu⟩) (by decide)
  have hxo : x.ownId = s.ownId := by
    rw [← hown, hx]
    rfl
  rw [State.message, hxo] at hm
  rw [← hx]
  obtain ⟨o, ho⟩ := x.sends_sendJoiner 5 m.src.val (bytesInts s.vDigest)
  generalize x.sendJoiner 5 m.src.val (bytesInts s.vDigest) = y at *
  refine ⟨y, rfl, hm, by rw [ho, hx], ?_⟩
  rw [ho, hx, e4]

/-! ### Admission -/

theorem State.recv_joining {s : State} {h : HPort} {m : MsgHdr} (l : List Int) (k : State → State) (hu : s.hlUp h.val = true) (hd : m.dest.val = s.ownId)
    (h1 : s.herdState = 1) (hw : s.herd.joinWant = true) :
    s.recv h m 6 l (fun s => if s.herdState ≠ 1 ∨ ¬ s.herd.joinWant then s else k s) = .next (k s) := by
  have hno : ¬ (s.herdState ≠ 1 ∨ ¬ s.herd.joinWant = true) := by simp [h1, hw]
  rw [State.recv_own _ _ hu (Or.inl (by decide)) hd]
  exact congrArg Host.Outcome.next (if_neg hno)

theorem execHerdAdmit_beat (s : State) (h : HPort) (m : MsgHdr) (e : Nat) (hu : s.hlUp h.val = true) (hd : m.dest.val = s.ownId)
    (h1 : s.herdState = 1) (hw : s.herd.joinWant = true) : ∃ t, execHerdAdmit h m (.inl e) s = .next t ∧ t.herd = { s.herd with joinE := some e } ∧
      t.rd Reg.HERD.ADMIT_BEAT = e % 2 ^ 64 ∧ t = { s with regs := t.regs, herd := t.herd } := by
  refine ⟨_, State.recv_joining _ (fun s : State => { (s.wr Reg.HERD.ADMIT_BEAT e).wr Reg.HERD.BW_ID m.src.val with herd := { s.herd with joinE := some e } })
    hu hd h1 hw, rfl, ?_, rfl⟩
  exact (State.rd_wr_ne _ _ _ _ _ _ _ _ _ _ (by decide)).trans (State.rd_wr_self _ _ _ _ _ _)

theorem execHerdAdmit_refused (s : State) (h : HPort) (m : MsgHdr) (r : Fin 16) (hu : s.hlUp h.val = true) (hd : m.dest.val = s.ownId)
    (h1 : s.herdState = 1) (hw : s.herd.joinWant = true) : ∃ t, execHerdAdmit h m (.inr r) s = .next t ∧ t.rd Reg.HERD.JOIN_RESULT = r.val ∧
      (r.val = 4 → t.herd = s.herd) ∧ (r.val ≠ 4 → t.herd.joinWant = false ∧ t.rd Reg.HERD.JOIN = 0) ∧ t.pkts = s.pkts := by
  have heq : execHerdAdmit h m (.inr r) s = .next (if r.val = 4 then s.joinResult 4 else s.joinOver r.val) :=
    State.recv_joining _ (fun s : State => if r.val = 4 then s.joinResult 4 else s.joinOver r.val) hu hd h1 hw
  rw [heq]
  by_cases h4 : r.val = 4
  · obtain ⟨j1, -, j3⟩ := s.joinResult_spec (r := 4) (by decide)
    exact ⟨_, congrArg _ (if_pos h4), j1.trans h4.symm, fun _ => j3.stands.2.1, fun hn => absurd h4 hn, j3.stands.2.2.1⟩
  · obtain ⟨j1, j2, j3, j4, -⟩ := s.joinOver_spec r.isLt
    exact ⟨_, congrArg _ (if_neg h4), j1, fun hn => absurd hn h4, fun _ => ⟨j3, j2⟩, j4⟩

theorem mem_insertId_self (l : List Nat) (x : Nat) : x ∈ insertId l x := by
  induction l with
  | nil => exact List.mem_cons_self
  | cons b l ih =>
    rw [insertId]
    split_ifs with h1 h2
    · exact List.mem_cons_self
    · rw [h2]
      exact List.mem_cons_self
    · exact List.mem_cons_of_mem _ ih

theorem mem_insertId_of_mem {l : List Nat} {y : Nat} (x : Nat) (h : y ∈ l) : y ∈ insertId l x := by
  induction l with
  | nil => exact absurd h List.not_mem_nil
  | cons b l ih =>
    rw [insertId]
    split_ifs with h1 h2
    · exact List.mem_cons_of_mem _ h
    · exact h
    · rcases List.mem_cons.mp h with rfl | h
      · exact List.mem_cons_self
      · exact List.mem_cons_of_mem _ (ih h)

theorem mem_foldl_insertId {y : Nat} (xs l : List Nat) (h : y ∈ l) : y ∈ xs.foldl insertId l := by
  induction xs generalizing l with
  | nil => exact h
  | cons x xs ih => exact ih _ (mem_insertId_of_mem x h)

/-- The members of the epoch that a device joins with. -/
def State.admitted (s : State) (e : Nat) : List Nat := insertId ((Config.epochAdded e).foldl insertId [s.bwId]) s.ownId

/-- The device is a member of its herd. -/
def State.becomeMember (s : State) (ms : List Nat) : State :=
  let s := ((s.setHerdState 2).joinResult 1).wr Reg.HERD.MEMBERS ms.length
  { s with herd := { s.herd with joinE := none, members := ms, prevMembers := [s.ownId], quorum := ms.length, lostBeats := 0 } }

theorem execAdmission_eq (s : State) (e : Nat) (he : s.herd.joinE = some e) :
    execAdmission s = if s.herdState = 1 ∧ e ≤ s.time.beat then .next (s.becomeMember (s.admitted e)) else .next s := by
  rw [execAdmission, he]
  rfl

theorem State.becomeMember_spec (s : State) (ms : List Nat) : (s.becomeMember ms).herdState = 2 ∧ (s.becomeMember ms).herd.members = ms ∧
    (s.becomeMember ms).herd.joinE = none ∧ (s.becomeMember ms).rd Reg.HERD.JOIN_RESULT = 1 ∧
    ({ s with herd := (s.becomeMember ms).herd } : State).ReportsOnly (s.becomeMember ms) := by
  have h1 := s.herdState_setHerdState (v := 2) (by decide)
  have h2 := s.reportsOnly_setHerdState 2
  rw [State.becomeMember]
  generalize s.setHerdState 2 = v at *
  obtain ⟨j1, j2, j3⟩ := v.joinResult_spec (r := 1) (by decide)
  generalize v.joinResult 1 = w at *
  refine ⟨?_, rfl, rfl, ?_, ?_⟩
  · exact ((State.rd_wr_ne w _ _ _ _ _ _ _ _ _ (by decide)).trans (j2 _ (by decide) (by decide))).trans h1
  · exact (State.rd_wr_ne w _ _ _ _ _ _ _ _ _ (by decide)).trans j1
  · have h3 := h2.trans (j3.trans (.wr w Reg.HERD.MEMBERS ms.length 0 0 0))
    generalize w.wr Reg.HERD.MEMBERS ms.length = x at *
    rw [State.ReportsOnly] at h3 ⊢
    rw [h3]

theorem execAdmission_member (s : State) (e : Nat) (he : s.herd.joinE = some e) (h1 : s.herdState = 1) (hb : e ≤ s.time.beat) :
    ∃ t, execAdmission s = .next t ∧ t.herdState = 2 ∧ s.ownId ∈ t.herd.members ∧ s.bwId ∈ t.herd.members ∧ t.herd.joinE = none ∧
      t.rd Reg.HERD.JOIN_RESULT = 1 ∧ ({ s with herd := t.herd } : State).ReportsOnly t := by
  obtain ⟨b1, b2, b3, b4, b5⟩ := s.becomeMember_spec (s.admitted e)
  refine ⟨s.becomeMember (s.admitted e), (execAdmission_eq s e he).trans (if_pos ⟨h1, hb⟩), b1, ?_, ?_, b3, b4, b5⟩
  · rw [b2]
    exact mem_insertId_self _ _
  · rw [b2]
    exact mem_insertId_of_mem _ (mem_foldl_insertId _ _ List.mem_cons_self)

theorem execAdmission_early (s : State) (e : Nat) (he : s.herd.joinE = some e) (hb : s.time.beat < e) : execAdmission s = .next s :=
  (execAdmission_eq s e he).trans (if_neg (by omega))

/-! ### The departure of another device -/

theorem execDepart_noted (s : State) (h : HPort) (m : MsgHdr) (x : Fin 32768) (w : Nat) (hu : s.hlUp h.val = true) (hd : m.dest.val = s.ownId)
    (hx : x.val ≠ s.bwId) (h2 : 2 ≤ s.herdState) (hb : s.isBw = false) (hdep : s.herd.departs = []) (hex : s.herd.excl = []) :
    execDepart h m x w s = .next { s with herd := { s.herd with
      departs := [(x.val, if w ≤ s.nextEpoch + 16384 then s.nextEpoch else epochFrom w)], excl := [(x.val, w)] } } := by
  rw [execDepart, if_neg (fun hc => hx hc.2.1), State.recv_own _ _ hu (Or.inl (by decide)) hd]
  dsimp only
  rw [if_neg (by omega), if_neg (Bool.eq_false_iff.mp hb), s.memberGone_other w hx, State.noteGone, hdep, hex]
  rfl

theorem execDepart_bellwether (s : State) (h : HPort) (m : MsgHdr) (x : Fin 32768) (w : Nat) (hu : s.hlUp h.val = true) (hx : x.val = s.bwId)
    (hn : x.val ≠ s.ownId) (hg : s.herd.bwGone = false) :
    ∃ t, execDepart h m x w s = .next t ∧ t.herd.bwGone = true ∧ t.herd.creqPend = [] ∧ t.pkts = s.pkts := by
  obtain ⟨g1, g2, g3⟩ := s.memberGone_bw w hx hn
  have hs := (s.memberGone x.val w).sends_flood 7 m.dest.val h.val [(x.val : Int), (w : Int)]
  refine ⟨_, (if_pos ⟨hu, hx, hn⟩).trans (if_neg (Bool.eq_false_iff.mp hg)), ?_, ?_, ?_⟩
  · rw [hs.herd]
    exact g1
  · rw [hs.herd]
    exact g2
  · exact hs.frame.2.2.1.trans g3

/-- Settles O26. -/
theorem membershipCommands : Obligations.MembershipCommands :=
  ⟨execHerdJoin_noDomain, execHerdJoin_begins, execHerdJoin_gives_up, execJoinLocked_asks, execJoinLocked_early, execJoin_answers, execVtable_stored,
    execVtable_differs, execVtable_agrees, execReady_answers, execHerdAdmit_beat, execHerdAdmit_refused, execAdmission_member, execAdmission_early,
    execHerdLeave_member, execHerdLeave_folds, execDeparture_leaves, execDeparture_early, execLockLost_leaves, execLockLost_held, execDepart_noted,
    execDepart_bellwether⟩

end Sys2Proof.Machine
end

section
/-! PROOF. Elections (R238, R253): O27. -/

namespace Sys2Proof.Machine

-- One thread for the proofs, which bounds the memory that checking them takes.
set_option Elab.async false

open Sys2Proof

variable {s t u : State}

/-! ### An election starts -/

/-- The election's state as it starts: the beat, this device's own candidacy, no votes. -/
def State.electionBegun (s : State) : HerdSt :=
  { s.herd with t0 := some s.time.beat, best := if s.rd Reg.HERD.BW_PRIO = 0 then none else some (s.rd Reg.HERD.BW_PRIO, s.ownId), votes := [], winner := none }

/-- The registers of an election that starts. -/
def State.electingRegs (s : State) : State := ((s.wr Reg.HERD.ELECTING 1).bump Reg.HERD.ELECTIONS).event Blk.HERD 0 1

theorem State.electingRegs_spec (s : State) : s.electingRegs.electing = true ∧ s.Counts s.electingRegs Reg.HERD.ELECTIONS ∧ s.ReportsOnly s.electingRegs ∧
    (∀ f ∈ [Reg.HERD.COORD_X, Reg.HERD.COORD_Y, Reg.HERD.COORD_Z, Reg.HERD.BW_PRIO], s.electingRegs.rd f = s.rd f) := by
  have hk : ∀ f ∈ [Reg.HERD.COORD_X, Reg.HERD.COORD_Y, Reg.HERD.COORD_Z, Reg.HERD.BW_PRIO], f.key 0 0 0 ≠ Reg.HERD.ELECTING.key 0 0 0 ∧
    f.key 0 0 0 ≠ Reg.HERD.ELECTIONS.key 0 0 0 ∧ reportKey (f.key 0 0 0) = false := by decide
  have h1 : (s.wr Reg.HERD.ELECTING 1).rd Reg.HERD.ELECTING = 1 := State.rd_wr_self _ _ _ _ _ _
  have h2 : (s.wr Reg.HERD.ELECTING 1).rd Reg.HERD.ELECTIONS = s.rd Reg.HERD.ELECTIONS := State.rd_wr_ne _ _ _ _ _ _ _ _ _ _ (by decide)
  have h3 := State.ReportsOnly.wr s Reg.HERD.ELECTING 1 0 0 0
  have h4 : ∀ f ∈ [Reg.HERD.COORD_X, Reg.HERD.COORD_Y, Reg.HERD.COORD_Z, Reg.HERD.BW_PRIO], (s.wr Reg.HERD.ELECTING 1).rd f = s.rd f := fun f hf =>
    State.rd_wr_ne _ _ _ _ _ _ _ _ _ _ (hk f hf).1
  rw [State.electingRegs]
  generalize s.wr Reg.HERD.ELECTING 1 = v at *
  refine ⟨?_, ?_, (h3.trans (.bump v _ _ _ _ _)).trans (.event _ _ _ _), fun f hf => ?_⟩
  · rw [State.electing, State.rd_event _ _ _ _ _ _ _ _ (by decide), State.rd_bump_ne _ _ _ _ _ _ _ _ _ _ (by decide), h1]
    rfl
  · rw [State.Counts, State.rd_event _ _ _ _ _ _ _ _ (by decide), State.rd_bump, h2]
  · rw [State.rd_event _ _ _ _ _ _ _ _ (hk f hf).2.2, State.rd_bump_ne _ _ _ _ _ _ _ _ _ _ (hk f hf).2.1, h4 f hf]

/-- The election's state as it starts: the beat, this device's own candidacy, no votes. -/
def State.electionNote (v : State) (prio : Nat) : State :=
  { v with herd := { v.herd with t0 := some v.time.beat, best := if prio = 0 then none else some (prio, v.ownId), votes := [], winner := none } }

theorem State.electionNote_spec (v : State) (prio : Nat) : (v.electionNote prio).regs = v.regs ∧
    v.electionNote prio = { v with herd := (v.electionNote prio).herd } ∧ (v.electionNote prio).herd =
      { v.herd with t0 := some v.time.beat, best := if prio = 0 then none else some (prio, v.ownId), votes := [], winner := none } := ⟨rfl, rfl, rfl⟩

theorem State.startElection_eq (s : State) : s.startElection =
    if s.rd Reg.HERD.BW_PRIO = 0 then s.electingRegs.electionNote (s.rd Reg.HERD.BW_PRIO)
    else (s.electingRegs.electionNote (s.rd Reg.HERD.BW_PRIO)).flood 8 0 12
      [(s.rd Reg.HERD.BW_PRIO : Int), ((s.electingRegs.electionNote (s.rd Reg.HERD.BW_PRIO)).ownId : Int)] := by
  unfold State.startElection State.electionNote State.electingRegs
  rfl

theorem State.ReportsOnly.givenHerd (h : s.ReportsOnly t) (hu : u = { t with herd := u.herd }) : ({ s with herd := u.herd } : State).ReportsOnly u := by
  rw [State.ReportsOnly] at h ⊢
  rw [hu, h]

theorem State.Sends.givenHerd (h : t.Sends u) (ht : t = { s with herd := t.herd }) : u = { s with herd := u.herd } := by
  obtain ⟨o, rfl⟩ := h
  rw [ht]

theorem State.Sends.herd_out (h : s.Sends t) : ∃ o, t.herd = { s.herd with out := s.herd.out ++ o } := by
  obtain ⟨o, rfl⟩ := h
  exact ⟨o, rfl⟩

theorem State.sends_startElection (s : State) : (s.electingRegs.electionNote (s.rd Reg.HERD.BW_PRIO)).Sends s.startElection := by
  rw [State.startElection_eq]
  generalize s.electingRegs.electionNote (s.rd Reg.HERD.BW_PRIO) = v
  exact keeps_ite (P := fun u => v.Sends u) (.refl v) (v.sends_flood _ _ _ _)

theorem State.electingRegs_frame (s : State) : s.electingRegs.ownId = s.ownId ∧ s.electingRegs.herd = s.herd ∧ s.electingRegs.time = s.time := by
  obtain ⟨-, -, e3, e4⟩ := s.electingRegs_spec
  refine ⟨?_, e3.stands.2.1, e3.stands.2.2.2⟩
  rw [State.ownId, State.ownId, e4 _ (by decide), e4 _ (by decide), e4 _ (by decide)]

theorem State.electionNote_herd (s : State) : (s.electingRegs.electionNote (s.rd Reg.HERD.BW_PRIO)).herd = s.electionBegun := by
  obtain ⟨h1, h2, h3⟩ := s.electingRegs_frame
  generalize s.electingRegs = v at *
  rw [(v.electionNote_spec _).2.2, h1, h2, h3, State.electionBegun]

theorem State.startElection_spec (s : State) : s.startElection.electing = true ∧ s.Counts s.startElection Reg.HERD.ELECTIONS ∧
    (∃ o, s.startElection.herd = { s.electionBegun with out := s.herd.out ++ o }) ∧ ({ s with herd := s.startElection.herd } : State).ReportsOnly s.startElection := by
  obtain ⟨e1, e2, e3, -⟩ := s.electingRegs_spec
  have hs := s.sends_startElection
  have hb : s.electionBegun.out = s.herd.out := rfl
  have w3 := s.electionNote_herd
  obtain ⟨w1, w2, -⟩ := s.electingRegs.electionNote_spec (s.rd Reg.HERD.BW_PRIO)
  generalize s.electingRegs.electionNote (s.rd Reg.HERD.BW_PRIO) = w at *
  generalize s.electingRegs = v at *
  generalize s.startElection = x at *
  generalize s.electionBegun = m at *
  obtain ⟨o, ho⟩ := hs.herd_out
  refine ⟨?_, ?_, ⟨o, by rw [ho, w3, hb]⟩, e3.givenHerd (hs.givenHerd w2)⟩
  · rw [State.electing, hs.rd, State.rd_congr w1]
    exact e1
  · rw [State.Counts, hs.rd, State.rd_congr w1]
    exact e2

theorem execElectionStart_starts (s : State) (hd : s.electionDue = true) : ∃ t, execElectionStart s = .next t ∧ t.electing = true ∧
    t.herd.t0 = some s.time.beat ∧ t.herd.votes = [] ∧ s.Counts t Reg.HERD.ELECTIONS ∧
    t.herd.best = (if s.rd Reg.HERD.BW_PRIO = 0 then none else some (s.rd Reg.HERD.BW_PRIO, s.ownId)) ∧ ({ s with herd := t.herd } : State).ReportsOnly t := by
  obtain ⟨e1, e2, ⟨o, e3⟩, e4⟩ := s.startElection_spec
  refine ⟨_, if_pos hd, e1, ?_, ?_, e2, ?_, e4⟩
  · rw [e3]
    rfl
  · rw [e3]
    rfl
  · rw [e3]
    rfl

theorem execElectionStart_notDue (s : State) (hd : s.electionDue = false) : execElectionStart s = .next s ∧ execMarkerTimeout none s = .next s :=
  ⟨if_neg (Bool.eq_false_iff.mp hd), if_neg (Bool.eq_false_iff.mp hd)⟩

theorem execMarkerTimeout_starts (s : State) (hd : s.electionDue = true) : ∃ t, execMarkerTimeout none s = .next t ∧ t.electing = true :=
  ⟨_, if_pos hd, s.startElection_spec.1⟩

/-! ### A quiet neighbour -/

theorem execMarkerTimeout_eq (s : State) (h : HPort) (h2 : 2 ≤ s.herdState) (hm : s.rd Reg.HLINK.PEER_ID h.val ∈ s.herd.members)
    (hn : s.rd Reg.HLINK.PEER_ID h.val ≠ s.ownId) (hq : (s.hl.get h.val).lastMarker.getD 0 + s.act Reg.HERD.DETECT_BEATS ≤ s.time.beat)
    (hq' : (s.hl.get (pairPort h.val)).lastMarker.getD 0 + s.act Reg.HERD.DETECT_BEATS ≤ s.time.beat) (hb : s.isBw = false) :
    execMarkerTimeout (some h) s = if s.rd Reg.HLINK.PEER_ID h.val = s.bwId then
        if s.herd.bwGone then .next s
        else .next ((s.memberGone (s.rd Reg.HLINK.PEER_ID h.val) s.exclWindow).flood 7 (s.rd Reg.HLINK.PEER_ID h.val) 12
          [(s.rd Reg.HLINK.PEER_ID h.val : Int), (s.exclWindow : Int)])
      else .next (s.sendTo 7 s.bwId [(s.rd Reg.HLINK.PEER_ID h.val : Int), (s.exclWindow : Int)]).1 :=
  (if_pos ⟨h2, List.contains_iff_mem.mpr hm, hn, decide_eq_true hq, decide_eq_true hq'⟩).trans (if_neg (Bool.eq_false_iff.mp hb))

theorem execMarkerTimeout_reports (s : State) (h : HPort) (p : Nat) (h2 : 2 ≤ s.herdState) (hm : s.rd Reg.HLINK.PEER_ID h.val ∈ s.herd.members)
    (hn : s.rd Reg.HLINK.PEER_ID h.val ≠ s.ownId) (hq : (s.hl.get h.val).lastMarker.getD 0 + s.act Reg.HERD.DETECT_BEATS ≤ s.time.beat)
    (hq' : (s.hl.get (pairPort h.val)).lastMarker.getD 0 + s.act Reg.HERD.DETECT_BEATS ≤ s.time.beat) (hb : s.isBw = false)
    (hw : s.rd Reg.HLINK.PEER_ID h.val ≠ s.bwId) (hp : s.outPort s.bwId = some p) : ∃ t, execMarkerTimeout (some h) s = .next t ∧
      t = { s with herd := { s.herd with out := t.herd.out } } ∧
      { port := some p, kind := 7, src := s.ownId, dest := s.bwId, args := [(s.rd Reg.HLINK.PEER_ID h.val : Int), (s.exclWindow : Int)] } ∈ t.herd.out := by
  rw [execMarkerTimeout_eq s h h2 hm hn hq hq' hb, if_neg hw]
  exact ⟨_, rfl, (s.sends_sendTo _ _ _).eq, s.mem_sendTo (k := 7) _ hp (Or.inl (by decide))⟩

theorem execMarkerTimeout_bellwether (s : State) (h : HPort) (h2 : 2 ≤ s.herdState) (hm : s.rd Reg.HLINK.PEER_ID h.val ∈ s.herd.members)
    (hn : s.rd Reg.HLINK.PEER_ID h.val ≠ s.ownId) (hq : (s.hl.get h.val).lastMarker.getD 0 + s.act Reg.HERD.DETECT_BEATS ≤ s.time.beat)
    (hq' : (s.hl.get (pairPort h.val)).lastMarker.getD 0 + s.act Reg.HERD.DETECT_BEATS ≤ s.time.beat) (hb : s.isBw = false)
    (hw : s.rd Reg.HLINK.PEER_ID h.val = s.bwId) (hg : s.herd.bwGone = false) : ∃ t, execMarkerTimeout (some h) s = .next t ∧ t.herd.bwGone = true ∧
      t.pkts = s.pkts := by
  rw [execMarkerTimeout_eq s h h2 hm hn hq hq' hb, if_pos hw, if_neg (Bool.eq_false_iff.mp hg)]
  obtain ⟨g1, -, g3⟩ := s.memberGone_bw s.exclWindow hw hn
  have hs := (s.memberGone (s.rd Reg.HLINK.PEER_ID h.val) s.exclWindow).sends_flood 7 (s.rd Reg.HLINK.PEER_ID h.val) 12
    [(s.rd Reg.HLINK.PEER_ID h.val : Int), (s.exclWindow : Int)]
  refine ⟨_, rfl, ?_, hs.frame.2.2.1.trans g3⟩
  rw [hs.herd]
  exact g1

/-! ### Candidates -/

/-- A device in an election keeps a better candidate and passes it on. -/
def State.takeCandidate (s : State) (p : Nat) (c : Nat × Nat) : State :=
  if (s.herd.t0.getD 0) + 255 < s.time.beat then s
  else if (s.herd.best.map (betterCand c)).getD true then
    ({ s with herd := { s.herd with best := some c } } : State).flood 8 0 p [(c.1 : Int), (c.2 : Int)]
  else s

theorem execCandidate_eq (s : State) (h : HPort) (m : MsgHdr) (prio : BitVec 8) (x : Fin 32768) (hu : s.hlUp h.val = true) :
    execCandidate h m prio x s = .next (if s.herdState = 0 ∨ s.isBw ∨ prio = 0 then s
      else (if s.electing then s else s.startElection).takeCandidate h.val (prio.toNat, x.val)) := if_pos hu

theorem execCandidate_late (s : State) (h : HPort) (m : MsgHdr) (prio : BitVec 8) (x : Fin 32768) (t0 : Nat) (hu : s.hlUp h.val = true)
    (_h0 : s.herdState ≠ 0) (_hb : s.isBw = false) (he : s.electing = true) (ht : s.herd.t0 = some t0) (hl : t0 + 255 < s.time.beat) :
    execCandidate h m prio x s = .next s := by
  rw [execCandidate_eq s h m prio x hu, if_pos he, State.takeCandidate, ht, if_pos (show (some t0).getD 0 + 255 < s.time.beat from hl), ite_self]

theorem execCandidate_running (s : State) (h : HPort) (m : MsgHdr) (prio : BitVec 8) (x : Fin 32768) (hu : s.hlUp h.val = true) (h0 : s.herdState ≠ 0)
    (hb : s.isBw = false) (hp : prio ≠ 0) (he : s.electing = true) (hl : s.time.beat ≤ s.herd.t0.getD 0 + 255) :
    ∃ t, execCandidate h m prio x s = .next t ∧ t = { s with herd := t.herd } ∧
      ((∀ c, s.herd.best = some c → betterCand (prio.toNat, x.val) c = true) → t.herd.best = some (prio.toNat, x.val)) ∧
      (∀ c, s.herd.best = some c → betterCand (prio.toNat, x.val) c = false → t = s) := by
  have hno : ¬ (s.herdState = 0 ∨ s.isBw = true ∨ prio = 0) := by
    rintro (h | h | h)
    · exact h0 h
    · exact absurd (h.symm.trans hb) nofun
    · exact hp h
  rw [execCandidate_eq s h m prio x hu, if_neg hno, if_pos he, State.takeCandidate, if_neg (by omega)]
  by_cases hc : (s.herd.best.map (betterCand (prio.toNat, x.val))).getD true = true
  · rw [if_pos hc]
    obtain ⟨o, ho⟩ := State.sends_flood ({ s with herd := { s.herd with best := some (prio.toNat, x.val) } } : State) 8 0 h.val [(prio.toNat : Int), (x.val : Int)]
    refine ⟨_, rfl, by rw [ho], fun _ => by rw [ho], fun c hc' hf => ?_⟩
    rw [hc'] at hc
    exact absurd (hc.symm.trans hf) nofun
  · rw [if_neg hc]
    refine ⟨s, rfl, rfl, fun hall => absurd ?_ hc, fun _ _ _ => rfl⟩
    cases hbest : s.herd.best with
    | none => rfl
    | some c => exact hall c hbest

theorem execCandidate_starts (s : State) (h : HPort) (m : MsgHdr) (prio : BitVec 8) (x : Fin 32768) (hu : s.hlUp h.val = true) (h0 : s.herdState ≠ 0)
    (hb : s.isBw = false) (hp : prio ≠ 0) (he : s.electing = false) : ∃ t, execCandidate h m prio x s = .next t ∧ t.electing = true ∧
      s.Counts t Reg.HERD.ELECTIONS ∧ t.herd.t0 = some s.time.beat := by
  have hno : ¬ (s.herdState = 0 ∨ s.isBw = true ∨ prio = 0) := by
    rintro (h | h | h)
    · exact h0 h
    · exact absurd (h.symm.trans hb) nofun
    · exact hp h
  rw [execCandidate_eq s h m prio x hu, if_neg hno, if_neg (Bool.eq_false_iff.mp he)]
  obtain ⟨e1, e2, ⟨o, e3⟩, -⟩ := s.startElection_spec
  have ht : s.startElection.herd.t0 = some s.time.beat := by
    rw [e3]
    rfl
  generalize s.startElection = v at *
  have hr : (v.takeCandidate h.val (prio.toNat, x.val)).regs = v.regs ∧ (v.takeCandidate h.val (prio.toNat, x.val)).herd.t0 = v.herd.t0 := by
    rw [State.takeCandidate]
    refine keeps_ite (P := fun w : State => w.regs = v.regs ∧ w.herd.t0 = v.herd.t0) ⟨rfl, rfl⟩
      (keeps_ite (P := fun w : State => w.regs = v.regs ∧ w.herd.t0 = v.herd.t0) ?_ ⟨rfl, rfl⟩)
    obtain ⟨o', ho⟩ := State.sends_flood ({ v with herd := { v.herd with best := some (prio.toNat, x.val) } } : State) 8 0 h.val [(prio.toNat : Int), (x.val : Int)]
    rw [ho]
    exact ⟨rfl, rfl⟩
  refine ⟨_, rfl, ?_, ?_, hr.2.trans ht⟩
  · rw [State.electing, State.rd_congr hr.1]
    exact e1
  · rw [State.Counts, State.rd_congr hr.1]
    exact e2

/-! ### Votes -/

theorem execElectionVote_eq (s : State) (t0 prio c : Nat) (h0 : s.herd.t0 = some t0) (hb : s.herd.best = some (prio, c)) : execElectionVote s =
    if ¬ s.electing ∨ s.time.beat ≠ t0 + 256 then .next s
    else if c = s.ownId then .next (s.takeVote s.ownId c) else .next (s.sendJoiner 9 c [(prio : Int), (c : Int)]) := by
  rw [execElectionVote, h0, hb]

theorem execElectionVote_votes (s : State) (t0 c prio : Nat) (p : Nat) (h0 : s.herd.t0 = some t0) (hb : s.herd.best = some (prio, c))
    (he : s.electing = true) (ht : s.time.beat = t0 + 256) (hc : c ≠ s.ownId) (hp : s.outPort c = some p) : ∃ t, execElectionVote s = .next t ∧
      t = { s with herd := { s.herd with out := t.herd.out } } ∧
      { port := some p, kind := 9, src := s.ownId, dest := c, args := [(prio : Int), (c : Int)] } ∈ t.herd.out := by
  have hno : ¬ (¬ s.electing = true ∨ s.time.beat ≠ t0 + 256) := by simp [he, ht]
  rw [execElectionVote_eq s t0 prio c h0 hb, if_neg hno, if_neg hc]
  exact ⟨_, rfl, (s.sends_sendJoiner _ _ _).eq, s.mem_sendJoiner (k := 9) _ (Or.inl hp) (by decide)⟩

theorem execElectionVote_early (s : State) (t0 : Nat) (h0 : s.herd.t0 = some t0) (ht : s.time.beat ≠ t0 + 256) : execElectionVote s = .next s := by
  cases hb : s.herd.best with
  | none => rw [execElectionVote, h0, hb]
  | some c => rw [execElectionVote_eq s t0 c.1 c.2 h0 hb, if_pos (Or.inr ht)]

theorem execVote_eq (s : State) (h : HPort) (m : MsgHdr) (prio : BitVec 8) (x : Fin 32768) (hu : s.hlUp h.val = true) (hd : m.dest.val = s.ownId) :
    execVote h m prio x s = .next (s.takeVote m.src.val x.val) :=
  State.recv_own _ (fun s => s.takeVote m.src.val x.val) hu (Or.inl (by decide)) hd

theorem execVote_taken (s : State) (h : HPort) (m : MsgHdr) (prio : BitVec 8) (x : Fin 32768) (hu : s.hlUp h.val = true) (hd : m.dest.val = s.ownId)
    (he : s.electing = true) (hx : x.val = s.ownId) (hv : ∀ v ∈ s.herd.votes, v.1 ≠ m.src.val) :
    execVote h m prio x s = .next { s with herd := { s.herd with votes := s.herd.votes ++ [(m.src.val, x.val)] } } := by
  have hno : ¬ (¬ s.electing = true ∨ x.val ≠ s.ownId ∨ s.herd.votes.any (fun v => v.1 == m.src.val) = true) := by
    rintro (h1 | h1 | h1)
    · exact h1 he
    · exact h1 hx
    · obtain ⟨v, hmem, heq⟩ := List.any_eq_true.mp h1
      exact hv v hmem (beq_iff_eq.mp heq)
  rw [execVote_eq s h m prio x hu hd, State.takeVote, if_neg hno]

theorem execVote_again (s : State) (h : HPort) (m : MsgHdr) (prio : BitVec 8) (x : Fin 32768) (hu : s.hlUp h.val = true) (hd : m.dest.val = s.ownId)
    (hv : ∃ v ∈ s.herd.votes, v.1 = m.src.val) : execVote h m prio x s = .next s := by
  obtain ⟨v, hmem, heq⟩ := hv
  have hany : s.herd.votes.any (fun v => v.1 == m.src.val) = true := List.any_eq_true.mpr ⟨v, hmem, beq_iff_eq.mpr heq⟩
  rw [execVote_eq s h m prio x hu hd, State.takeVote, if_pos (Or.inr (Or.inr hany))]

/-! ### The result -/

theorem execElectionResult_eq (s : State) (t0 : Nat) (h0 : s.herd.t0 = some t0) : execElectionResult s =
    if ¬ s.electing ∨ s.time.beat < t0 + 512 ∨ s.herd.winner.isSome then .next s
    else if s.quorumBase < 2 * s.herd.votes.length ∨ (s.act Reg.HERD.NO_QUORUM = 1 ∧ s.rd Reg.HERD.BW_PRIO ≠ 0) then
      .next { s with herd := { s.herd with winner := some (s.ownId, epochFrom (t0 + 1024)) } }
    else .next s := by
  rw [execElectionResult, h0]

theorem execElectionResult_done (s : State) (t0 : Nat) (h0 : s.herd.t0 = some t0) (he : s.electing = true) (ht : t0 + 512 ≤ s.time.beat)
    (hw : s.herd.winner = none) (hq : s.quorumBase < 2 * s.herd.votes.length ∨ (s.act Reg.HERD.NO_QUORUM = 1 ∧ s.rd Reg.HERD.BW_PRIO ≠ 0)) :
    execElectionResult s = .next { s with herd := { s.herd with winner := some (s.ownId, epochFrom (t0 + 1024)) } } := by
  have hno : ¬ (¬ s.electing = true ∨ s.time.beat < t0 + 512 ∨ s.herd.winner.isSome = true) := by simp [he, hw, ht]
  rw [execElectionResult_eq s t0 h0, if_neg hno, if_pos hq]

theorem execElectionResult_quorum (s : State) (t0 : Nat) (h0 : s.herd.t0 = some t0) (he : s.electing = true) (ht : t0 + 512 ≤ s.time.beat)
    (hw : s.herd.winner = none) (hq : s.quorumBase < 2 * s.herd.votes.length) :
    execElectionResult s = .next { s with herd := { s.herd with winner := some (s.ownId, epochFrom (t0 + 1024)) } } :=
  execElectionResult_done s t0 h0 he ht hw (Or.inl hq)

theorem execElectionResult_noQuorum (s : State) (t0 : Nat) (h0 : s.herd.t0 = some t0) (he : s.electing = true) (ht : t0 + 512 ≤ s.time.beat)
    (hw : s.herd.winner = none) (hq : s.act Reg.HERD.NO_QUORUM = 1) (hp : s.rd Reg.HERD.BW_PRIO ≠ 0) :
    execElectionResult s = .next { s with herd := { s.herd with winner := some (s.ownId, epochFrom (t0 + 1024)) } } :=
  execElectionResult_done s t0 h0 he ht hw (Or.inr ⟨hq, hp⟩)

theorem execElectionResult_short (s : State) (hq : 2 * s.herd.votes.length ≤ s.quorumBase) (hn : s.act Reg.HERD.NO_QUORUM = 0) :
    execElectionResult s = .next s := by
  cases h0 : s.herd.t0 with
  | none => rw [execElectionResult, h0]
  | some t0 =>
    have hno : ¬ (s.quorumBase < 2 * s.herd.votes.length ∨ (s.act Reg.HERD.NO_QUORUM = 1 ∧ s.rd Reg.HERD.BW_PRIO ≠ 0)) := by
      rintro (h | ⟨h, -⟩)
      · omega
      · exact absurd (h.symm.trans hn) (by decide)
    rw [execElectionResult_eq s t0 h0, if_neg hno, ite_self]

/-! ### The winner takes office -/

/-- The device as it takes office. -/
def State.inOffice (s : State) : State :=
  let s := { s with herd := { s.herd with nextSeq := Nat.max s.herd.nextSeq s.herd.lastOrderSeq } }
  (((s.electionOver s.ownId).wr Reg.HERD.BELLWETHER 1).wr Reg.HERD.BW_HOPS 0).wr Reg.HERD.PHASE_ERR 0

/-- The first member of a new herd. -/
def State.foundHerd (s : State) : State :=
  let t := ((s.setHerdState 2).wr Reg.HERD.MEMBERS 1).joinResult 1
  { t with herd := { t.herd with members := [s.ownId], prevMembers := [s.ownId], quorum := 1, joinE := none } }

theorem execBellwetherTakeOffice_eq (s : State) (w b : Nat) (hw : s.herd.winner = some (w, b)) : execBellwetherTakeOffice s =
    if ¬ s.electing ∨ w ≠ s.ownId ∨ s.time.beat < b then .next s
    else if s.inOffice.herdState = 1 then .next s.inOffice.foundHerd else .next s.inOffice := by
  rw [execBellwetherTakeOffice, hw]
  rfl

theorem State.inOffice_spec (s : State) : s.inOffice.isBw = true ∧ s.inOffice.electing = false ∧ s.inOffice.bwId = s.ownId % 32768 ∧
    s.inOffice.rd Reg.HERD.BW_HOPS = 0 ∧ s.inOffice.herdState = s.herdState ∧ s.inOffice.ownId = s.ownId ∧
    ({ s with herd := s.inOffice.herd } : State).ReportsOnly s.inOffice := by
  obtain ⟨v, hv⟩ : ∃ v, v = ((((s.wr Reg.HERD.ELECTING 0).wr Reg.HERD.BW_ID s.ownId).wr Reg.HERD.BELLWETHER 1).wr Reg.HERD.BW_HOPS 0).wr Reg.HERD.PHASE_ERR 0 :=
    ⟨_, rfl⟩
  have hr (f : Field) : s.inOffice.rd f = v.rd f := by
    rw [hv]
    exact State.rd_congr rfl f 0 0 0
  have hwid : (s.ownId % 2 ^ Field.width Reg.HERD.BW_ID) = s.ownId % 32768 := rfl
  have hvr : v.rd Reg.HERD.BELLWETHER = 1 ∧ v.rd Reg.HERD.ELECTING = 0 ∧ v.rd Reg.HERD.BW_ID = s.ownId % 32768 ∧ v.rd Reg.HERD.BW_HOPS = 0 ∧
      ∀ f ∈ [Reg.HERD.STATE, Reg.HERD.COORD_X, Reg.HERD.COORD_Y, Reg.HERD.COORD_Z], v.rd f = s.rd f := by
    rw [hv]
    refine ⟨?_, ?_, ?_, ?_, fun f hf => ?_⟩
    · simp (disch := decide) only [State.rd_wr_ne]
      exact State.rd_wr_self _ _ _ _ _ _
    · simp (disch := decide) only [State.rd_wr_ne]
      exact State.rd_wr_self _ _ _ _ _ _
    · simp (disch := decide) only [State.rd_wr_ne]
      exact State.rd_wr_self _ _ _ _ _ _
    · simp (disch := decide) only [State.rd_wr_ne]
      exact State.rd_wr_self _ _ _ _ _ _
    · have hk : ∀ f ∈ [Reg.HERD.STATE, Reg.HERD.COORD_X, Reg.HERD.COORD_Y, Reg.HERD.COORD_Z], f.key 0 0 0 ≠ Reg.HERD.ELECTING.key 0 0 0 ∧
          f.key 0 0 0 ≠ Reg.HERD.BW_ID.key 0 0 0 ∧ f.key 0 0 0 ≠ Reg.HERD.BELLWETHER.key 0 0 0 ∧ f.key 0 0 0 ≠ Reg.HERD.BW_HOPS.key 0 0 0 ∧
          f.key 0 0 0 ≠ Reg.HERD.PHASE_ERR.key 0 0 0 := by decide
      obtain ⟨k1, k2, k3, k4, k5⟩ := hk f hf
      rw [State.rd_wr_ne _ _ _ _ _ _ _ _ _ _ k5, State.rd_wr_ne _ _ _ _ _ _ _ _ _ _ k4, State.rd_wr_ne _ _ _ _ _ _ _ _ _ _ k3,
        State.rd_wr_ne _ _ _ _ _ _ _ _ _ _ k2, State.rd_wr_ne _ _ _ _ _ _ _ _ _ _ k1]
  obtain ⟨r1, r2, r3, r4, r5⟩ := hvr
  refine ⟨?_, ?_, (hr _).trans r3, (hr _).trans r4, (hr _).trans (r5 _ (by decide)), ?_, rfl⟩
  · rw [State.isBw, hr, r1]
    rfl
  · rw [State.electing, hr, r2]
    rfl
  · rw [State.ownId, State.ownId, hr, hr, hr, r5 _ (by decide), r5 _ (by decide), r5 _ (by decide)]

theorem State.foundHerd_spec (s : State) : s.foundHerd.herdState = 2 ∧ s.foundHerd.herd.members = [s.ownId] ∧ s.foundHerd.rd Reg.HERD.JOIN_RESULT = 1 ∧
    (∀ f ∈ [Reg.HERD.BELLWETHER, Reg.HERD.ELECTING, Reg.HERD.BW_ID, Reg.HERD.BW_HOPS], s.foundHerd.rd f = s.rd f) ∧
    ({ s with herd := s.foundHerd.herd } : State).ReportsOnly s.foundHerd := by
  have hk : ∀ f ∈ [Reg.HERD.BELLWETHER, Reg.HERD.ELECTING, Reg.HERD.BW_ID, Reg.HERD.BW_HOPS], f.key 0 0 0 ≠ Reg.HERD.STATE.key 0 0 0 ∧
    f.key 0 0 0 ≠ Reg.HERD.MEMBERS.key 0 0 0 ∧ f.key 0 0 0 ≠ Reg.HERD.JOIN_RESULT.key 0 0 0 ∧ reportKey (f.key 0 0 0) = false := by decide
  have h1 := s.herdState_setHerdState (v := 2) (by decide)
  have h2 := s.reportsOnly_setHerdState 2
  have h3 : ∀ f ∈ [Reg.HERD.BELLWETHER, Reg.HERD.ELECTING, Reg.HERD.BW_ID, Reg.HERD.BW_HOPS], (s.setHerdState 2).rd f = s.rd f := fun f hf =>
    State.rd_setHerdState s 2 (hk f hf).2.2.2 (hk f hf).1
  have hr (f : Field) : s.foundHerd.rd f = (((s.setHerdState 2).wr Reg.HERD.MEMBERS 1).wr Reg.HERD.JOIN_RESULT 1).rd f := State.rd_congr rfl f 0 0 0
  have he : s.foundHerd = { ((s.setHerdState 2).wr Reg.HERD.MEMBERS 1).wr Reg.HERD.JOIN_RESULT 1 with herd := s.foundHerd.herd } := rfl
  have hm : s.foundHerd.herd.members = [s.ownId] := rfl
  generalize s.setHerdState 2 = v at *
  generalize s.foundHerd = w at *
  have h4 := h2.trans ((State.ReportsOnly.wr v Reg.HERD.MEMBERS 1 0 0 0).trans (.wr _ Reg.HERD.JOIN_RESULT 1 0 0 0))
  refine ⟨?_, hm, ?_, fun f hf => ?_, ?_⟩
  · rw [State.herdState, hr, State.rd_wr_ne _ _ _ _ _ _ _ _ _ _ (by decide), State.rd_wr_ne _ _ _ _ _ _ _ _ _ _ (by decide)]
    exact h1
  · rw [hr, State.rd_wr_self]
    rfl
  · obtain ⟨-, k2, k3, -⟩ := hk f hf
    rw [hr, State.rd_wr_ne _ _ _ _ _ _ _ _ _ _ k3, State.rd_wr_ne _ _ _ _ _ _ _ _ _ _ k2, h3 f hf]
  · rw [State.ReportsOnly] at h4 ⊢
    rw [he, h4]

theorem execBellwetherTakeOffice_takes (s : State) (b : Nat) (hw : s.herd.winner = some (s.ownId, b)) (he : s.electing = true) (hb : b ≤ s.time.beat) :
    ∃ t, execBellwetherTakeOffice s = .next t ∧ t.isBw = true ∧ t.electing = false ∧ t.bwId = s.ownId % 32768 ∧ t.rd Reg.HERD.BW_HOPS = 0 ∧
      (s.herdState = 1 → t.herdState = 2 ∧ t.herd.members = [s.ownId] ∧ t.rd Reg.HERD.JOIN_RESULT = 1) ∧ (s.herdState ≠ 1 → t.herdState = s.herdState) ∧
      ({ s with herd := t.herd } : State).ReportsOnly t := by
  have hno : ¬ (¬ s.electing = true ∨ s.ownId ≠ s.ownId ∨ s.time.beat < b) := by simp [he, hb]
  rw [execBellwetherTakeOffice_eq s _ b hw, if_neg hno]
  obtain ⟨e1, e2, e3, e4, e5, e6, e7⟩ := s.inOffice_spec
  rw [e5]
  generalize s.inOffice = v at *
  by_cases h1 : s.herdState = 1
  · rw [if_pos h1]
    obtain ⟨f1, f2, f3, f4, f5⟩ := v.foundHerd_spec
    refine ⟨_, rfl, ?_, ?_, (f4 _ (by decide)).trans e3, (f4 _ (by decide)).trans e4, fun _ => ⟨f1, by rw [f2, e6], f3⟩, fun hn => absurd h1 hn, ?_⟩
    · rw [State.isBw, f4 _ (by decide)]
      exact e1
    · rw [State.electing, f4 _ (by decide)]
      exact e2
    · generalize v.foundHerd = w at *
      rw [State.ReportsOnly] at e7 f5 ⊢
      rw [f5, e7]
  · rw [if_neg h1]
    exact ⟨_, rfl, e1, e2, e3, e4, fun h => absurd h h1, fun _ => e5, e7⟩

theorem execBellwetherTakeOffice_early (s : State) (w b : Nat) (hw : s.herd.winner = some (w, b)) (hb : s.time.beat < b) :
    execBellwetherTakeOffice s = .next s := by
  rw [execBellwetherTakeOffice_eq s w b hw, if_pos (Or.inr (Or.inr hb))]

/-! ### An election that fails -/

theorem execElectionFail_eq (s : State) (t0 : Nat) (h0 : s.herd.t0 = some t0) : execElectionFail s =
    if ¬ s.electing ∨ s.time.beat < t0 + 4096 then .next s
    else if 2 ≤ s.herdState then .next s.becomeAlone
    else .next { ((s.electionOver s.bwId).joinResult 5) with herd := { ((s.electionOver s.bwId).joinResult 5).herd with
      heard := ((s.electionOver s.bwId).joinResult 5).time.beat } } := by
  rw [execElectionFail, h0]

theorem execElectionFail_fails (s : State) (t0 : Nat) (h0 : s.herd.t0 = some t0) (he : s.electing = true) (ht : t0 + 4096 ≤ s.time.beat)
    (h2 : 2 ≤ s.herdState) : ∃ t, execElectionFail s = .next t ∧ t.herdState = 0 ∧ t.electing = false ∧ t.herd.members = [] ∧ t.time = s.time ∧
      t.pkts = s.pkts := by
  have hno : ¬ (¬ s.electing = true ∨ s.time.beat < t0 + 4096) := by simp [he, ht]
  rw [execElectionFail_eq s t0 h0, if_neg hno, if_pos h2]
  obtain ⟨a1, a2, -, -, -, a6, a7, a8, -⟩ := s.becomeAlone_spec
  exact ⟨_, rfl, a1, a6, a2, a7, a8⟩

theorem execElectionFail_early (s : State) (t0 : Nat) (h0 : s.herd.t0 = some t0) (ht : s.time.beat < t0 + 4096) : execElectionFail s = .next s := by
  rw [execElectionFail_eq s t0 h0, if_pos (Or.inr ht)]

/-- Settles O27. -/
theorem electionCommands : Obligations.ElectionCommands :=
  ⟨execElectionStart_starts, execElectionStart_notDue, execMarkerTimeout_starts, execMarkerTimeout_reports, execMarkerTimeout_bellwether, execCandidate_late,
    execCandidate_running, execCandidate_starts, execElectionVote_votes, execElectionVote_early, execVote_taken, execVote_again, execElectionResult_quorum,
    execElectionResult_noQuorum, execElectionResult_short, execBellwetherTakeOffice_takes, execBellwetherTakeOffice_early, execElectionFail_fails,
    execElectionFail_early⟩

end Sys2Proof.Machine
end

section
/-! PROOF. Remote accesses (R232, R241 to R244): O25. -/

namespace Sys2Proof.Machine

-- One thread for the proofs, which bounds the memory that checking them takes.
set_option Elab.async false

open Sys2Proof

variable {s t u : State}

/-! ### Requests that wait -/

theorem insertReq_last (r : RemoteReq) (l : List RemoteReq) (h : ∀ q ∈ l, q.at_ ≠ r.at_ ∨ q.port ≤ r.port) : insertReq r l = l ++ [r] := by
  induction l with
  | nil => rfl
  | cons q l ih =>
    have hq := h q List.mem_cons_self
    rw [insertReq, if_neg (by omega), ih (fun x hx => h x (List.mem_cons_of_mem _ hx))]
    rfl

theorem insertReq_before (r q : RemoteReq) (l : List RemoteReq) (h : ∀ x ∈ l, x.at_ ≠ r.at_ ∨ x.port ≤ r.port) (ha : q.at_ = r.at_) (hp : r.port < q.port) :
    insertReq r (l ++ [q]) = l ++ [r, q] := by
  induction l with
  | nil => exact if_pos ⟨ha, hp⟩
  | cons x l ih =>
    have hx := h x List.mem_cons_self
    rw [List.cons_append, insertReq, if_neg (by omega), ih (fun y hy => h y (List.mem_cons_of_mem _ hy))]
    rfl

theorem execRd_waits (s : State) (h : HPort) (m : MsgHdr) (w : Fin 16) (a n : Nat) (r : RemoteReq) (hu : s.hlUp h.val = true) (hc : s.herd.cut = false)
    (hd : m.dest.val = s.ownId) (hn : n ≤ 256)
    (hr : r = { kind := 17, port := h.val, src := m.src.val, win := w.val, addr := a, len := n, data := [], tag := 0, vals := [], beat := s.time.beat,
                at_ := s.now, tok := m.tok }) :
    execRd h m w a n s = .next { s with herd := { s.herd with reqs := insertReq r s.herd.reqs } } := by
  have hmin : Nat.min n 256 = n := Nat.min_eq_left hn
  rw [execRd, State.recv_own _ _ hu (Or.inr hc) hd, hr, hmin]
  rfl

theorem execWr_waits (s : State) (h : HPort) (m : MsgHdr) (w : Fin 16) (a : Nat) (d : List Byte) (r : RemoteReq) (hu : s.hlUp h.val = true)
    (hc : s.herd.cut = false) (hd : m.dest.val = s.ownId)
    (hr : r = { kind := 18, port := h.val, src := m.src.val, win := w.val, addr := a, len := d.length, data := d, tag := 0, vals := [], beat := s.time.beat,
                at_ := s.now, tok := m.tok }) :
    execWr h m w a d s = .next { s with herd := { s.herd with reqs := insertReq r s.herd.reqs } } := by
  rw [execWr, State.recv_own _ _ hu (Or.inr hc) hd, hr]
  rfl

theorem execHget_waits (s : State) (h : HPort) (m : MsgHdr) (i : Nat) (tag : DWord) (hu : s.hlUp h.val = true) (hc : s.herd.cut = false)
    (hd : m.dest.val = s.ownId) : ∃ r, execHget h m i tag s = .next { s with herd := { s.herd with reqs := insertReq r s.herd.reqs } } ∧ r.kind = 19 ∧
      r.tag = tag ∧ r.beat = s.time.beat ∧ r.at_ = s.now ∧ r.tok = m.tok ∧ r.port = h.val ∧ r.src = m.src.val ∧ r.addr = i % 2 ^ s.act Reg.HERD.HOME_LOG2 :=
  ⟨_, State.recv_own _ _ hu (Or.inr hc) hd, rfl, rfl, rfl, rfl, rfl, rfl, rfl, rfl⟩

theorem execHadd_waits (s : State) (h : HPort) (m : MsgHdr) (i : Nat) (tag : DWord) (v : List Word) (hu : s.hlUp h.val = true) (hc : s.herd.cut = false)
    (hd : m.dest.val = s.ownId) : ∃ r, execHadd h m i tag v s = .next { s with herd := { s.herd with reqs := insertReq r s.herd.reqs } } ∧ r.kind = 20 ∧
      r.tag = tag ∧ r.vals = v ∧ r.beat = s.time.beat ∧ r.at_ = s.now ∧ r.port = h.val ∧ r.src = m.src.val ∧ r.addr = i % 2 ^ s.act Reg.HERD.HOME_LOG2 :=
  ⟨_, State.recv_own _ _ hu (Or.inr hc) hd, rfl, rfl, rfl, rfl, rfl, rfl, rfl, rfl⟩

theorem execRd_closed (s : State) (h : HPort) (m : MsgHdr) (w : Fin 16) (a n : Nat) (hc : s.hlUp h.val = false ∨ s.herd.cut = true) :
    execRd h m w a n s = .next s := by
  refine if_pos ?_
  rcases hc with hc | hc
  · exact Or.inl (Bool.eq_false_iff.mp hc)
  · exact Or.inr ⟨by decide, hc⟩

theorem execWr_forwarded (s : State) (h : HPort) (m : MsgHdr) (w : Fin 16) (a : Nat) (d : List Byte) (n p : Nat) (hu : s.hlUp h.val = true)
    (hc : s.herd.cut = false) (hd : m.dest.val ≠ s.ownId) (hn : s.transitNext m.src.val m.dest.val = some n)
    (hp : s.upPort (s.portFor s.ownId n (m.src.val + m.dest.val)) = some p) :
    ∃ o, execWr h m w a d s = .next { s with herd := { s.herd with out := s.herd.out ++ [o] } } ∧ o.port = some p ∧ o.kind = 18 ∧ o.src = m.src.val ∧
      o.dest = m.dest.val := by
  have hno : ¬ (¬ s.hlUp h.val = true ∨ (16 ≤ 18 ∧ s.herd.cut = true)) := by simp [hu, hc]
  have hport : (s.transitNext m.src.val m.dest.val).bind (fun n => s.upPort (s.portFor s.ownId n (if 18 < 16 then h.val else m.src.val + m.dest.val))) =
      some p := by
    rw [hn]
    exact hp
  refine ⟨{ port := some p, kind := 18, src := m.src.val, dest := m.dest.val,
            args := [(w.val : Int), (a : Int), (d.length : Int), (m.tok : Int)] ++ bytesInts d }, ?_, rfl, rfl, rfl, rfl⟩
  rw [execWr, State.recv, if_neg hno, if_neg hd, hport]
  rfl

/-! ### Bytes of memory -/

theorem Mem.readN_writeN (m : Mem) (a : Nat) (bs : List Byte) : Mem.readN (Mem.writeN m a bs) a bs.length = bs := by
  refine List.ext_getElem (by simp [Mem.readN]) fun i h1 h2 => ?_
  simp only [Mem.readN, List.getElem_map, List.getElem_range]
  exact Mem.read_writeN m a bs i h2

/-! ### Requests are applied in the next beat -/

/-- t differs from s at most in registers, HBM, fault unit, waiting messages and the choices that are left open. -/
def State.AppliesOnly (s t : State) : Prop :=
  t = { s with regs := t.regs, hbm := t.hbm, flt := t.flt, free := t.free, herd := { s.herd with out := t.herd.out } }

theorem State.AppliesOnly.refl (s : State) : s.AppliesOnly s := rfl

theorem State.AppliesOnly.trans (h : s.AppliesOnly t) (h' : t.AppliesOnly u) : s.AppliesOnly u := by
  rw [State.AppliesOnly] at h h' ⊢
  rw [h', h]

theorem State.AppliesOnly.foldl {α : Type} {g : State → α → State} (h : ∀ (t : State) (x : α), t.AppliesOnly (g t x)) (l : List α) (s : State) :
    s.AppliesOnly (l.foldl g s) := by
  induction l generalizing s with
  | nil => exact .refl s
  | cons x l ih => exact (h s x).trans (ih _)

theorem State.Sends.appliesOnly (h : s.Sends t) : s.AppliesOnly t := by
  obtain ⟨o, rfl⟩ := h
  rfl

theorem State.touchLines_flt (l : List Nat) (s : State) (a n : Nat) : ∃ f, l.foldl (fun t l => t.touchLine a n l) s = { s with flt := f } := by
  induction l generalizing s with
  | nil => exact ⟨s.flt, rfl⟩
  | cons x l ih =>
    obtain ⟨f, hf⟩ := ih (s.touchLine a n x)
    exact ⟨f, by rw [List.foldl_cons, hf]; rfl⟩

theorem State.giveFlt {m : Mem} {f : FaultSt} (h : t = { s with hbm := m, flt := f }) (g : FaultSt) : ({ t with flt := g } : State) = { s with hbm := m, flt := g } := by
  rw [h]

theorem State.hbmPutAs_spec (s : State) (r a : Nat) (bs : List Byte) : ∃ m f, s.hbmPutAs r a bs = { s with hbm := m, flt := f } := by
  unfold State.hbmPutAs
  extract_lets n late old m t
  obtain ⟨f, hf⟩ : ∃ f, t = { s with hbm := m, flt := f } := State.touchLines_flt _ { s with hbm := m } a n
  exact ⟨m, _, State.giveFlt hf _⟩

/-- With no later-ranked write in the present cycle, a write stores its bytes. -/
theorem State.hbmPutAs_hbm (s : State) (r a : Nat) (bs : List Byte) (hc : s.cycLate = []) : (s.hbmPutAs r a bs).hbm = Mem.writeN s.hbm a bs := by
  unfold State.hbmPutAs
  extract_lets n late old m t
  have hm : m = Mem.writeN s.hbm a bs := by
    simp only [m, late, hc, List.filter_nil, List.foldl_nil]
  obtain ⟨f, hf⟩ : ∃ f, t = { s with hbm := m, flt := f } := State.touchLines_flt _ { s with hbm := m } a n
  rw [hf, ← hm]

theorem State.appliesOnly_hbmPutAs (s : State) (r a : Nat) (bs : List Byte) : s.AppliesOnly (s.hbmPutAs r a bs) := by
  obtain ⟨m, f, h⟩ := s.hbmPutAs_spec r a bs
  rw [h]
  rfl

theorem State.appliesOnly_hbmWrite (s : State) (a : Nat) (bs : List Byte) : s.AppliesOnly (s.hbmWrite a bs) := by
  obtain ⟨m, f, h⟩ := s.hbmWrite_spec a bs
  rw [h]
  rfl

theorem State.appliesOnly_sendTo (s : State) (k d : Nat) (l : List Int) : s.AppliesOnly (s.sendTo k d l).1 := (s.sends_sendTo k d l).appliesOnly

/-- The bytes that a remote read answers with. -/
def State.readBytes (s : State) (a n : Nat) : List Byte × State :=
  if (s.hbmUe a n).isSome then s.freshBytes n else (Mem.readN s.hbm a n, s)

theorem State.applyReq_home (s : State) (r : RemoteReq) (h : r.kind = 19) : ∃ l, s.applyReq r = (s.sendTo 26 r.src l).1 := by
  rw [State.applyReq, if_pos h]
  split
  exact ⟨_, rfl⟩

theorem State.applyReq_add (s : State) (r : RemoteReq) (h : r.kind = 20) : s.applyReq r = s.homeAdd r.addr r.tag.toNat r.vals :=
  (if_neg (by omega)).trans (if_pos h)

theorem State.applyReq_refused (s : State) (r : RemoteReq) (h19 : r.kind ≠ 19) (h20 : r.kind ≠ 20) (hw : s.winOk r = false) : s.applyReq r =
    if r.isWrite then ((s.bump Reg.HERD.WIN_REFUSED).sendTo 25 r.src [(r.tok : Int), 0]).1 else s.bump Reg.HERD.WIN_REFUSED :=
  (if_neg h19).trans ((if_neg h20).trans (if_pos (Bool.eq_false_iff.mp hw)))

theorem State.applyReq_write (s : State) (r : RemoteReq) (h : r.kind = 18) (hw : s.winOk r = true) : s.applyReq r =
    ((s.hbmPutAs 1 (s.winAddr r) r.data).sendTo 25 r.src [(r.tok : Int), 1]).1 :=
  (if_neg (by omega)).trans ((if_neg (by omega)).trans ((if_neg (not_not_intro hw)).trans (if_pos (beq_iff_eq.mpr h))))

theorem State.applyReq_read (s : State) (r : RemoteReq) (h18 : r.kind ≠ 18) (h19 : r.kind ≠ 19) (h20 : r.kind ≠ 20) (hw : s.winOk r = true) :
    s.applyReq r = ((s.readBytes (s.winAddr r) r.len).2.sendTo 24 r.src ((r.tok : Int) :: bytesInts (s.readBytes (s.winAddr r) r.len).1)).1 :=
  (if_neg h19).trans ((if_neg h20).trans ((if_neg (not_not_intro hw)).trans (if_neg (fun hx => h18 (beq_iff_eq.mp hx)))))

theorem State.appliesOnly_readBytes (s : State) (a n : Nat) : s.AppliesOnly (s.readBytes a n).2 := by
  rw [State.readBytes]
  split <;> rfl

theorem State.appliesOnly_applyReq (s : State) (r : RemoteReq) : s.AppliesOnly (s.applyReq r) := by
  by_cases h19 : r.kind = 19
  · obtain ⟨l, hl⟩ := s.applyReq_home r h19
    rw [hl]
    exact s.appliesOnly_sendTo _ _ _
  by_cases h20 : r.kind = 20
  · rw [s.applyReq_add r h20]
    exact s.appliesOnly_hbmWrite _ _
  cases hw : s.winOk r with
  | false =>
    have hb : s.AppliesOnly (s.bump Reg.HERD.WIN_REFUSED) := rfl
    rw [s.applyReq_refused r h19 h20 hw]
    exact keeps_ite (hb.trans (State.appliesOnly_sendTo _ _ _ _)) hb
  | true =>
    by_cases h18 : r.kind = 18
    · rw [s.applyReq_write r h18 hw]
      exact (s.appliesOnly_hbmPutAs _ _ _).trans (State.appliesOnly_sendTo _ _ _ _)
    · rw [s.applyReq_read r h18 h19 h20 hw]
      exact (s.appliesOnly_readBytes _ _).trans (State.appliesOnly_sendTo _ _ _ _)

/-- The device without the requests that are due. -/
def State.reqsTaken (s : State) : State :=
  { s with herd := { s.herd with reqs := s.herd.reqs.filter (fun r => decide (s.time.beat ≤ r.beat)) } }

theorem execRemoteRequestApply_eq (s : State) : execRemoteRequestApply s =
    .next ((s.herd.reqs.filter (fun r => decide (r.beat < s.time.beat))).foldl State.applyReq s.reqsTaken) := rfl

theorem execRemoteRequestApply_all (s : State) : ∃ t, execRemoteRequestApply s = .next t ∧
    t.herd.reqs = s.herd.reqs.filter (fun r => decide (s.time.beat ≤ r.beat)) ∧ t.pkts = s.pkts ∧ t.time = s.time ∧ t.eg = s.eg := by
  have h := State.AppliesOnly.foldl State.appliesOnly_applyReq (s.herd.reqs.filter (fun r => decide (r.beat < s.time.beat))) s.reqsTaken
  rw [execRemoteRequestApply_eq]
  generalize (s.herd.reqs.filter (fun r => decide (r.beat < s.time.beat))).foldl State.applyReq s.reqsTaken = t at *
  rw [State.AppliesOnly] at h
  exact ⟨t, rfl, by rw [h]; rfl, by rw [h]; rfl, by rw [h]; rfl, by rw [h]; rfl⟩

theorem execRemoteRequestApply_one (s : State) (r : RemoteReq) (hr : s.herd.reqs = [r]) (hb : r.beat < s.time.beat) :
    execRemoteRequestApply s = .next (s.reqsTaken.applyReq r) := by
  have hone : [r].filter (fun q => decide (q.beat < s.time.beat)) = [r] := by simp [hb]
  rw [execRemoteRequestApply_eq, hr, hone]
  rfl

theorem State.reqsTaken_spec (s : State) : s.reqsTaken.regs = s.regs ∧ s.reqsTaken.hbm = s.hbm ∧ s.reqsTaken.herd.out = s.herd.out ∧ s.SameWays s.reqsTaken :=
  ⟨rfl, rfl, rfl, fun _ _ => rfl, fun _ => rfl, rfl⟩

theorem execRemoteRequestApply_write (s : State) (r : RemoteReq) (hr : s.herd.reqs = [r]) (hk : r.kind = 18) (hl : r.len = r.data.length)
    (hb : r.beat < s.time.beat) (hw : s.winOk r = true) (hc : s.cycLate = []) : ∃ t, execRemoteRequestApply s = .next t ∧
      Mem.readN t.hbm (s.winAddr r) r.len = r.data ∧ (∀ a, (a < s.winAddr r ∨ s.winAddr r + r.len ≤ a) → Mem.read t.hbm a = Mem.read s.hbm a) ∧
      t.rd Reg.HERD.WIN_REFUSED = s.rd Reg.HERD.WIN_REFUSED := by
  have hw' : s.reqsTaken.winOk r = true := hw
  have ha : s.reqsTaken.winAddr r = s.winAddr r := rfl
  have hc' : s.reqsTaken.cycLate = [] := hc
  obtain ⟨e1, e2, -⟩ := s.reqsTaken_spec
  rw [execRemoteRequestApply_one s r hr hb, State.applyReq_write _ r hk hw', ha]
  generalize s.reqsTaken = v at *
  have hm := v.hbmPutAs_hbm 1 (s.winAddr r) r.data hc'
  have hf := v.appliesOnly_hbmPutAs 1 (s.winAddr r) r.data
  obtain ⟨m, f, hmf⟩ := v.hbmPutAs_spec 1 (s.winAddr r) r.data
  have hregs : (v.hbmPutAs 1 (s.winAddr r) r.data).regs = v.regs := by rw [hmf]
  have hs := (v.hbmPutAs 1 (s.winAddr r) r.data).sends_sendTo 25 r.src [(r.tok : Int), 1]
  have hs' : ((v.hbmPutAs 1 (s.winAddr r) r.data).sendTo 25 r.src [(r.tok : Int), 1]).1.hbm = Mem.writeN s.hbm (s.winAddr r) r.data := by
    rw [hs.eq, ← e2, ← hm]
  refine ⟨_, rfl, ?_, fun a hout => ?_, ?_⟩
  · rw [hs', hl, Mem.readN_writeN]
  · rw [hs', Mem.read_writeN_ne _ _ _ _ (by omega)]
  · rw [hs.rd, State.rd_congr hregs, State.rd_congr e1]

theorem State.sendTo_stream (s : State) {p d k : Nat} (l : List Int) (hp : s.outPort d = some p) (hk : 16 ≤ k) (hs : s.herd.stopped = false) :
    (s.sendTo k d l).1 = { s with herd := { s.herd with out := s.herd.out ++ [s.message p k d l] } } := by
  have hno : ¬ (k < 16 ∧ s.hlUp (pairPort p) = true) := fun h => absurd h.1 (by omega)
  have hno' : ¬ (16 ≤ k ∧ s.herd.stopped = true) := fun h => absurd (h.2.symm.trans hs) nofun
  rw [State.sendTo, hp]
  dsimp only
  rw [if_neg hno, State.send, if_neg hno']
  rfl

theorem execRemoteRequestApply_read (s : State) (r : RemoteReq) (p : Nat) (hr : s.herd.reqs = [r]) (hk : r.kind = 17) (hb : r.beat < s.time.beat)
    (hw : s.winOk r = true) (hu : s.hbmUe (s.winAddr r) r.len = none) (hp : s.outPort r.src = some p) (hs : s.herd.stopped = false) :
    ∃ t o, execRemoteRequestApply s = .next t ∧ t.hbm = s.hbm ∧ t.herd.out = s.herd.out ++ [o] ∧ o.port = some p ∧ o.kind = 24 ∧ o.dest = r.src ∧
      o.args = (r.tok : Int) :: (Mem.readN s.hbm (s.winAddr r) r.len).map (fun b => (b.toNat : Int)) := by
  have hw' : s.reqsTaken.winOk r = true := hw
  have ha : s.reqsTaken.winAddr r = s.winAddr r := rfl
  have hu' : s.reqsTaken.hbmUe (s.winAddr r) r.len = none := hu
  have hs' : s.reqsTaken.herd.stopped = false := hs
  obtain ⟨-, e2, e3, e4⟩ := s.reqsTaken_spec
  have hread : s.reqsTaken.readBytes (s.winAddr r) r.len = (Mem.readN s.hbm (s.winAddr r) r.len, s.reqsTaken) := by
    rw [State.readBytes, hu', if_neg (by decide), e2]
  rw [execRemoteRequestApply_one s r hr hb, State.applyReq_read _ r (by omega) (by omega) (by omega) hw', ha, hread]
  dsimp only
  rw [State.sendTo_stream _ _ ((e4.outPort _).trans hp) (by decide) hs']
  exact ⟨_, s.reqsTaken.message p 24 r.src ((r.tok : Int) :: bytesInts (Mem.readN s.hbm (s.winAddr r) r.len)), rfl, e2, by rw [e3], rfl, rfl, rfl, rfl⟩

theorem execRemoteRequestApply_refused (s : State) (r : RemoteReq) (hr : s.herd.reqs = [r]) (hk : r.kind = 17 ∨ r.kind = 18) (hb : r.beat < s.time.beat)
    (hw : s.winOk r = false) : ∃ t, execRemoteRequestApply s = .next t ∧ t.hbm = s.hbm ∧ s.Counts t Reg.HERD.WIN_REFUSED := by
  have hw' : s.reqsTaken.winOk r = false := hw
  obtain ⟨e1, e2, -⟩ := s.reqsTaken_spec
  rw [execRemoteRequestApply_one s r hr hb, State.applyReq_refused _ r (by omega) (by omega) hw']
  generalize s.reqsTaken = v at *
  have hv : (v.bump Reg.HERD.WIN_REFUSED).hbm = s.hbm ∧ s.Counts (v.bump Reg.HERD.WIN_REFUSED) Reg.HERD.WIN_REFUSED := by
    refine ⟨by rw [State.bump_hbm, e2], ?_⟩
    rw [State.Counts, State.rd_bump, State.rd_congr e1]
  generalize v.bump Reg.HERD.WIN_REFUSED = w at *
  have hs := w.sends_sendTo 25 r.src [(r.tok : Int), 0]
  refine ⟨_, rfl, ?_⟩
  refine keeps_ite (P := fun x : State => x.hbm = s.hbm ∧ s.Counts x Reg.HERD.WIN_REFUSED) ⟨?_, ?_⟩ hv
  · rw [hs.eq]
    exact hv.1
  · rw [State.Counts, hs.rd]
    exact hv.2

/-! ### Answers -/

/-- The device without the request that an answer names. -/
def State.remoteTaken (s : State) (tok : Nat) : State :=
  { s with herd := { s.herd with remote := s.herd.remote.filter (fun q => decide (q.tok ≠ tok)) } }

theorem State.takeRemote_some (s : State) {tok : Nat} {p : RemPend} (k : RemPend → State → State)
    (h : s.herd.remote.find? (fun q => decide (q.tok = tok)) = some p) : s.takeRemote tok k = k p (s.remoteTaken tok) := by
  rw [State.takeRemote, h]
  rfl

theorem State.takeRemote_none (s : State) {tok : Nat} (k : RemPend → State → State)
    (h : s.herd.remote.find? (fun q => decide (q.tok = tok)) = none) : s.takeRemote tok k = s := by
  rw [State.takeRemote, h]

/-- What posts are released changes nothing but the core's and the island's posts. -/
theorem State.releasePosts_frame (s : State) (c : ACoreId) : (s.releasePosts c).arr.mem = s.arr.mem ∧ (s.releasePosts c).herd = s.herd ∧
    s.releasePosts c = { s with arr := (s.releasePosts c).arr } := ⟨rfl, rfl, rfl⟩

theorem execRdr_lands (s : State) (h : HPort) (m : MsgHdr) (tok : Nat) (d : List Byte) (p : RemPend) (hu : s.hlUp h.val = true) (hc : s.herd.cut = false)
    (hd : m.dest.val = s.ownId) (hf : s.herd.remote.find? (fun q => decide (q.tok = tok)) = some p) (hw : p.write = false) (hl : d.length = p.len) :
    ∃ t, execRdr h m tok d s = .next t ∧ t.herd.remote = s.herd.remote.filter (fun q => decide (q.tok ≠ tok)) ∧
      Mem.readN t.arr.mem (ACoreId.base p.core + p.addr) p.len = d ∧ t = { s with herd := t.herd, arr := t.arr } := by
  have hno : ¬ (p.write = true ∨ d.length ≠ p.len) := by simp [hw, hl]
  rw [execRdr, State.recv_own _ _ hu (Or.inr hc) hd, State.takeRemote_some _ _ hf]
  rw [if_neg hno]
  have hv : ((s.remoteTaken tok).coreStore p.core p.addr d).arr.mem = Mem.writeN s.arr.mem (ACoreId.base p.core + p.addr) d ∧
      ((s.remoteTaken tok).coreStore p.core p.addr d).herd.remote = s.herd.remote.filter (fun q => decide (q.tok ≠ tok)) ∧
      (s.remoteTaken tok).coreStore p.core p.addr d = { s with herd := ((s.remoteTaken tok).coreStore p.core p.addr d).herd,
                                                               arr := ((s.remoteTaken tok).coreStore p.core p.addr d).arr } := ⟨rfl, rfl, rfl⟩
  generalize (s.remoteTaken tok).coreStore p.core p.addr d = v at *
  obtain ⟨v1, v2, v3⟩ := hv
  obtain ⟨w1, w2, w3⟩ := v.releasePosts_frame p.core
  generalize v.releasePosts p.core = w at *
  refine ⟨w, rfl, by rw [w2, v2], ?_, by rw [w3, v3]⟩
  rw [w1, v1, ← hl, Mem.readN_writeN]

theorem execWra_acknowledged (s : State) (h : HPort) (m : MsgHdr) (tok : Nat) (p : RemPend) (hu : s.hlUp h.val = true) (hc : s.herd.cut = false)
    (hd : m.dest.val = s.ownId) (hf : s.herd.remote.find? (fun q => decide (q.tok = tok)) = some p) (hw : p.write = true) :
    ∃ t, execWra h m tok true s = .next t ∧ t.herd.remote = s.herd.remote.filter (fun q => decide (q.tok ≠ tok)) ∧ t.arr.mem = s.arr.mem ∧
      t = { s with herd := t.herd, arr := t.arr } := by
  rw [execWra, State.recv_own _ _ hu (Or.inr hc) hd, State.takeRemote_some _ _ hf]
  rw [if_pos ⟨rfl, hw⟩]
  have hv : (s.remoteTaken tok).herd.remote = s.herd.remote.filter (fun q => decide (q.tok ≠ tok)) ∧ (s.remoteTaken tok).arr.mem = s.arr.mem ∧
      s.remoteTaken tok = { s with herd := (s.remoteTaken tok).herd, arr := (s.remoteTaken tok).arr } := ⟨rfl, rfl, rfl⟩
  generalize s.remoteTaken tok = v at *
  obtain ⟨v1, v2, v3⟩ := hv
  obtain ⟨w1, w2, w3⟩ := v.releasePosts_frame p.core
  generalize v.releasePosts p.core = w at *
  exact ⟨w, rfl, by rw [w2, v1], by rw [w1, v2], by rw [w3, v3]⟩

theorem execWra_unasked (s : State) (h : HPort) (m : MsgHdr) (tok : Nat) (ok : Bool) (d : List Byte) (hu : s.hlUp h.val = true) (hc : s.herd.cut = false)
    (hd : m.dest.val = s.ownId) (hf : s.herd.remote.find? (fun q => decide (q.tok = tok)) = none) :
    execWra h m tok ok s = .next s ∧ execRdr h m tok d s = .next s := by
  rw [execWra, execRdr, State.recv_own _ _ hu (Or.inr hc) hd, State.recv_own _ _ hu (Or.inr hc) hd, State.takeRemote_none _ _ hf, State.takeRemote_none _ _ hf]
  exact ⟨rfl, rfl⟩

/-! ### Flow homes -/

/-- The device's note of the last flow home that was read. -/
def State.homeRep (s : State) (v : List Word) (new : Bool) : State :=
  { s with herd := { s.herd with hrep := if new then List.replicate 8 0 else (v ++ List.replicate 8 0).take 8, hrepNew := new } }

theorem take_eight (v : List Word) (h : v.length = 8) : (v ++ List.replicate 8 0).take 8 = v := by
  rw [List.take_append_of_le_length (by omega), ← h, List.take_length]

theorem execHrep_eq (s : State) (h : HPort) (m : MsgHdr) (tok : Nat) (v : List Word) (new : Bool) (hu : s.hlUp h.val = true) (hc : s.herd.cut = false)
    (hd : m.dest.val = s.ownId) : execHrep h m tok v new s = .next (match s.herd.homePend.find? (fun e => e.1 == tok) with
      | some e => ({ s.homeRep v new with herd := { (s.homeRep v new).herd with homePend := s.herd.homePend.filter (fun q => q.1 != tok) } } : State).homeInput
          e.2 v new false
      | none => s.homeRep v new) := by
  rw [execHrep, State.recv_own _ _ hu (Or.inr hc) hd]
  rfl

theorem execHrep_noted (s : State) (h : HPort) (m : MsgHdr) (tok : Nat) (v : List Word) (new : Bool) (hu : s.hlUp h.val = true) (hc : s.herd.cut = false)
    (hd : m.dest.val = s.ownId) (hl : v.length = 8) (hn : ∀ e ∈ s.herd.homePend, e.1 ≠ tok) : ∃ t, execHrep h m tok v new s = .next t ∧
      t.herd = { s.herd with hrep := if new then List.replicate 8 0 else v, hrepNew := new } ∧ t = { s with herd := t.herd } := by
  have hf : s.herd.homePend.find? (fun e => e.1 == tok) = none := List.find?_eq_none.mpr fun e he hx => hn e he (beq_iff_eq.mp hx)
  rw [execHrep_eq s h m tok v new hu hc hd, hf]
  refine ⟨_, rfl, ?_, rfl⟩
  rw [State.homeRep, take_eight v hl]

theorem execHrep_input (s : State) (h : HPort) (m : MsgHdr) (tok id : Nat) (v : List Word) (new : Bool) (i : Inv) (hu : s.hlUp h.val = true)
    (hc : s.herd.cut = false) (hd : m.dest.val = s.ownId) (hl : v.length = 8) (hf : s.herd.homePend.find? (fun e => e.1 == tok) = some (tok, id))
    (hi : i ∈ s.flow.invs) (hid : i.id = id) : ∃ t j, execHrep h m tok v new s = .next t ∧ j ∈ t.flow.invs ∧ j.id = id ∧
      j.homeVals = (if new then List.replicate 8 0 else v) ∧ j.homeNew = new ∧ j.homeLost = false ∧ (∀ e ∈ t.herd.homePend, e.1 ≠ tok) ∧
      t = { s with herd := t.herd, flow := t.flow } := by
  rw [execHrep_eq s h m tok v new hu hc hd, hf]
  have hv : (if new = true ∨ false = true then List.replicate 8 0 else (v ++ List.replicate 8 0).take 8) = if new then List.replicate 8 0 else v := by
    rw [take_eight v hl]
    simp
  refine ⟨_, { i with homeVals := if new then List.replicate 8 0 else v, homeNew := new, homeLost := false }, rfl, ?_, hid, rfl, rfl, rfl, fun e he => ?_, rfl⟩
  · refine List.mem_map.mpr ⟨i, hi, ?_⟩
    dsimp only
    rw [if_pos hid, hv]
  · exact bne_iff_ne.mp (List.mem_filter.mp he).2

/-- Settles O25. -/
theorem remoteAccessCommands : Obligations.RemoteAccessCommands :=
  ⟨execRd_waits, execWr_waits, execHget_waits, execHadd_waits, insertReq_last, insertReq_before, execRd_closed, execWr_forwarded, execRemoteRequestApply_all,
    execRemoteRequestApply_write, execRemoteRequestApply_read, execRemoteRequestApply_refused, execRdr_lands, execWra_acknowledged, execWra_unasked,
    execHrep_noted, execHrep_input⟩

end Sys2Proof.Machine
end

section
/-! PROOF. Reductions and the global stop (R245, R246, R249 to R251, R255): O29. -/

namespace Sys2Proof.Machine

-- One thread for the proofs, which bounds the memory that checking them takes.
set_option Elab.async false

open Sys2Proof

variable {s t u : State}

theorem State.Sends.hbm (h : s.Sends t) : t.hbm = s.hbm := by
  obtain ⟨o, rfl⟩ := h
  rfl

/-! ### Contributors and windows -/

theorem State.contributors_alone (s : State) (w : Nat) (h : s.isMember = false) : s.contributors w = [s.ownId] := by
  rw [State.contributors, if_pos (Bool.eq_false_iff.mp h)]

/-- The window of the present beat. -/
def State.window (s : State) : Nat := s.time.beat / 16384 * 16384

theorem State.redFor_window (s : State) (r w : Nat) : (s.redFor r w).window = w := by
  rw [State.redFor]
  split
  next h => exact h
  next => rfl

theorem State.redFor_setRed (s : State) (r : Nat) {x : RedSt} {w : Nat} (h : x.window = w) : (s.setRed r x).redFor r w = x := by
  have hx : (s.setRed r x).herd.red.get r = x := by
    rw [State.setRed, Tbl.get, Tbl.find?_put_self]
    rfl
  rw [State.redFor, hx]
  exact if_pos h

theorem State.setRed_red (s : State) (r : Nat) (x : RedSt) : (s.setRed r x).herd.red.get r = x := by
  rw [State.setRed, Tbl.get, Tbl.find?_put_self]
  rfl

/-- A partial result that is not complete is kept. -/
theorem State.redAdvance_waits (s : State) (r w : Nat) (h : (s.redFor r w).started = false ∨
    (s.redFor r w).count < s.redBelow (s.contributors w) ((s.contributors w).headD s.ownId) * s.redLen r) : s.redAdvance r w = s := by
  refine if_pos ?_
  rcases h with h | h
  · exact Or.inl (Bool.eq_false_iff.mp h)
  · exact Or.inr (Or.inr h)

/-! ### The result of a window -/

theorem State.sends_redSend (s : State) (r w : Nat) (l : List Nat) (v : List Int) (fromRoot : Bool) (n : Nat) (void : Bool) :
    s.Sends (s.redSend r w l v fromRoot n void) :=
  .foldl (fun t (_ : Nat) => .foldl (fun t (_ : Nat) => t.sends_sendTo _ _ _) l t) _ s

/-- The bytes of a result's values: of a void one they are left open. -/
def State.resultBytes (s : State) (r : Nat) (v : List Int) (void : Bool) : List Byte × State :=
  if void then s.freshBytes (16 * s.redLen r) else (v.flatMap (fun v => leBytes 16 (ofSigned 128 v)), s)

/-- The status behind a result's values. -/
def resultStatus (w n : Nat) (void : Bool) : List Byte := leBytes 8 (w - 16384) ++ leBytes 2 n ++ leBytes 1 (b2n void) ++ zeros 53

/-- The device after it wrote a result to its place. -/
def State.resultWritten (s : State) (r w : Nat) (v : List Int) (n : Nat) (void : Bool) : State :=
  (s.resultBytes r v void).2.hbmWrite (s.act Reg.HERD.RED_DST 0 r) ((s.resultBytes r v void).1 ++ resultStatus w n void)

/-- The counts of a result. -/
def State.resultCounted (s : State) (void : Bool) : State :=
  if void then (s.bump Reg.HERD.RED_DONE).bump Reg.HERD.RED_VOID else s.bump Reg.HERD.RED_DONE

/-- The device's note of a result. -/
def State.resultNoted (s : State) (r w : Nat) (v : List Int) (void : Bool) : State :=
  let t := s.setRed r { s.redFor r w with have_ := true, void := void, acc := v }
  { t with herd := { t.herd with ownVoid := some ((List.range 4).any (fun k => let y := t.herd.red.get k; y.window == w && y.have_ && y.void)) } }

theorem State.redResult_eq (s : State) (r w : Nat) (v : List Int) (n : Nat) (void : Bool) :
    s.redResult r w v n void = ((s.resultWritten r w v n void).resultCounted void).resultNoted r w v void := by
  cases void <;> rfl

theorem State.resultWritten_frame (s : State) (r w : Nat) (v : List Int) (n : Nat) (void : Bool) :
    s.resultWritten r w v n void = { s with hbm := (s.resultWritten r w v n void).hbm, flt := (s.resultWritten r w v n void).flt,
                                            free := (s.resultWritten r w v n void).free } := by
  have hp : (s.resultBytes r v void).2 = { s with free := (s.resultBytes r v void).2.free } := by
    cases void <;> rfl
  obtain ⟨m, f, hw⟩ := (s.resultBytes r v void).2.hbmWrite_spec (s.act Reg.HERD.RED_DST 0 r) ((s.resultBytes r v void).1 ++ resultStatus w n void)
  rw [State.resultWritten, hw, hp]

theorem State.resultCounted_spec (s : State) (void : Bool) : s.Counts (s.resultCounted void) Reg.HERD.RED_DONE ∧
    (void = true → s.Counts (s.resultCounted void) Reg.HERD.RED_VOID) ∧ (s.resultCounted void).hbm = s.hbm ∧
    (s.resultCounted void).pkts = s.pkts ∧ (s.resultCounted void).time = s.time := by
  have h1 : s.Counts (s.bump Reg.HERD.RED_DONE) Reg.HERD.RED_DONE := by rw [State.Counts, State.rd_bump]
  have h2 : (s.bump Reg.HERD.RED_DONE).rd Reg.HERD.RED_VOID = s.rd Reg.HERD.RED_VOID := State.rd_bump_ne _ _ _ _ _ _ _ _ _ _ (by decide)
  have h3 : (s.bump Reg.HERD.RED_DONE).hbm = s.hbm ∧ (s.bump Reg.HERD.RED_DONE).pkts = s.pkts ∧ (s.bump Reg.HERD.RED_DONE).time = s.time := by simp
  rw [State.resultCounted]
  generalize s.bump Reg.HERD.RED_DONE = v at *
  cases void with
  | false => exact ⟨h1, nofun, h3⟩
  | true =>
    rw [if_pos rfl]
    refine ⟨?_, fun _ => ?_, by rw [State.bump_hbm, h3.1], by rw [State.bump_pkts, h3.2.1], by rw [State.bump_time, h3.2.2]⟩
    · rw [State.Counts, State.rd_bump_ne _ _ _ _ _ _ _ _ _ _ (by decide), h1]
    · rw [State.Counts, State.rd_bump, h2]

theorem State.resultNoted_spec (s : State) (r w : Nat) (v : List Int) (void : Bool) :
    ((s.resultNoted r w v void).herd.red.get r).have_ = true ∧ ((s.resultNoted r w v void).herd.red.get r).acc = v ∧
      s.resultNoted r w v void = { s with herd := (s.resultNoted r w v void).herd } := by
  have h := s.setRed_red r { s.redFor r w with have_ := true, void := void, acc := v }
  exact ⟨congrArg RedSt.have_ h, congrArg RedSt.acc h, rfl⟩

theorem State.resultWritten_regs (s : State) (r w : Nat) (v : List Int) (n : Nat) (void : Bool) : (s.resultWritten r w v n void).regs = s.regs ∧
    (s.resultWritten r w v n void).pkts = s.pkts ∧ (s.resultWritten r w v n void).time = s.time := by
  have h := s.resultWritten_frame r w v n void
  generalize s.resultWritten r w v n void = t at *
  rw [h]
  exact ⟨rfl, rfl, rfl⟩

/-- A result is written, counted and noted. -/
theorem State.redResult_spec (s : State) (r w : Nat) (v : List Int) (n : Nat) (void : Bool) :
    s.Counts (s.redResult r w v n void) Reg.HERD.RED_DONE ∧ (void = true → s.Counts (s.redResult r w v n void) Reg.HERD.RED_VOID) ∧
      ((s.redResult r w v n void).herd.red.get r).have_ = true ∧ ((s.redResult r w v n void).herd.red.get r).acc = v ∧
      (s.redResult r w v n void).hbm = (s.resultWritten r w v n void).hbm ∧ (s.redResult r w v n void).pkts = s.pkts ∧
      (s.redResult r w v n void).time = s.time := by
  rw [State.redResult_eq]
  obtain ⟨a1, a2, a3⟩ := s.resultWritten_regs r w v n void
  generalize s.resultWritten r w v n void = x at *
  obtain ⟨b1, b2, b3, e3, e4⟩ := x.resultCounted_spec void
  generalize x.resultCounted void = y at *
  obtain ⟨c1, c2, c3⟩ := y.resultNoted_spec r w v void
  generalize y.resultNoted r w v void = z at *
  have hzr : z.regs = y.regs := by rw [c3]
  refine ⟨?_, fun hv => ?_, c1, c2, ?_, ?_, ?_⟩
  · rw [State.Counts, State.rd_congr hzr, b1, State.rd_congr a1]
  · rw [State.Counts, State.rd_congr hzr, b2 hv, State.rd_congr a1]
  · rw [← b3, c3]
  · rw [← a2, ← e3, c3]
  · rw [← a3, ← e4, c3]

/-! ### Start and deadline -/

theorem execReductionStart_eq (s : State) (r : Fin 4) (he : s.act Reg.HERD.RED_EN 0 r.val ≠ 0) (hw : 16384 ≤ s.time.beat) (hb : s.time.beat % 16384 = 8)
    (hs : (s.redFor r.val s.window).started = false) (hh : (s.redFor r.val s.window).have_ = false) (hc : s.ownId ∈ s.contributors s.window) :
    execReductionStart r s = if s.herd.stopped then .next (s.redResult r.val s.window [] (s.contributors s.window).length true)
      else .next ((s.setRed r.val { (if (s.hbmUe (s.act Reg.HERD.RED_SRC 0 r.val) (8 * s.redLen r.val)).isSome
        then { s.redFor r.val s.window with count := (s.redFor r.val s.window).count + s.redLen r.val, void := true }
        else (s.redFor r.val s.window).combine (s.act Reg.HERD.RED_OP 0 r.val) 0 ((List.range (s.redLen r.val)).map (fun i =>
          let v := Mem.readLE s.hbm (s.act Reg.HERD.RED_SRC 0 r.val + 8 * i) 8
          if s.act Reg.HERD.RED_OP 0 r.val = 3 then (v : Int) else toSigned 64 v)) 1 false) with started := true }).redAdvance r.val s.window) := by
  refine if_neg ?_
  have h0 : s.window ≠ 0 := by
    rw [State.window]
    omega
  have h8 : s.time.beat = s.window + 8 := by
    rw [State.window]
    omega
  rintro (h | h | h | h | h | h)
  · exact he h
  · exact h0 h
  · exact h h8
  · exact absurd (h.symm.trans hs) nofun
  · exact absurd (h.symm.trans hh) nofun
  · exact h (List.contains_iff_mem.mpr hc)

theorem execReduction_off (s : State) (r : Fin 4) (h : s.act Reg.HERD.RED_EN 0 r.val = 0) :
    execReductionStart r s = .next s ∧ execReductionDeadline r s = .next s := ⟨if_pos (Or.inl h), if_pos (Or.inl h)⟩

theorem execReductionStart_early (s : State) (r : Fin 4) (h : s.time.beat % 16384 ≠ 8) : execReductionStart r s = .next s :=
  if_pos (Or.inr (Or.inr (Or.inl (by omega))))

theorem execReductionStart_stopped (s : State) (r : Fin 4) (hm : s.isMember = false) (he : s.act Reg.HERD.RED_EN 0 r.val = 1) (hw : 16384 ≤ s.time.beat)
    (hb : s.time.beat % 16384 = 8) (hs : (s.redFor r.val (s.time.beat / 16384 * 16384)).started = false)
    (hh : (s.redFor r.val (s.time.beat / 16384 * 16384)).have_ = false) (hst : s.herd.stopped = true) :
    ∃ t, execReductionStart r s = .next t ∧ s.Counts t Reg.HERD.RED_DONE ∧ s.Counts t Reg.HERD.RED_VOID ∧ t.pkts = s.pkts ∧ t.time = s.time := by
  have hc : s.ownId ∈ s.contributors s.window := by
    rw [s.contributors_alone _ hm]
    exact List.mem_cons_self
  rw [execReductionStart_eq s r (by omega) hw hb hs hh hc, if_pos hst]
  obtain ⟨h1, h2, -, -, -, h6, h7⟩ := s.redResult_spec r.val s.window [] (s.contributors s.window).length true
  exact ⟨_, rfl, h1, h2 rfl, h6, h7⟩

theorem combine_first (v : List Int) (w : Nat) : ({ window := w, acc := List.replicate v.length 0 } : RedSt).combine 0 0 v 1 false =
    { window := w, acc := v, count := v.length } := by
  have hz : List.zipWith (redOp 0) (List.replicate v.length 0) v = v := by
    induction v with
    | nil => rfl
    | cons x v ih =>
      rw [List.length_cons, List.replicate_succ, List.zipWith_cons_cons, ih]
      simp [redOp]
  simp [RedSt.combine, hz]

/-- What ways lead through the herd does not depend on the partial results. -/
theorem State.redBelow_setRed (s : State) (k : Nat) (x : RedSt) (l : List Nat) (r : Nat) : (s.setRed k x).redBelow l r = s.redBelow l r := rfl

theorem State.setRed_frame (s : State) (k : Nat) (x : RedSt) : s.setRed k x = { s with herd := (s.setRed k x).herd } ∧ (s.setRed k x).hbm = s.hbm := ⟨rfl, rfl⟩

theorem execReductionStart_partial (s : State) (r : Fin 4) (p : Nat) (_hm : s.isMember = true) (he : s.act Reg.HERD.RED_EN 0 r.val = 1) (hw : 16384 ≤ s.time.beat)
    (hb : s.time.beat % 16384 = 8) (hst : s.herd.stopped = false)
    (hx : s.redFor r.val (s.time.beat / 16384 * 16384) = { window := s.time.beat / 16384 * 16384, acc := List.replicate (s.redLen r.val) 0 })
    (hop : s.act Reg.HERD.RED_OP 0 r.val = 0) (hu : s.hbmUe (s.act Reg.HERD.RED_SRC 0 r.val) (8 * s.redLen r.val) = none)
    (hc : s.ownId ∈ s.contributors (s.time.beat / 16384 * 16384)) (hp : (s.contributors (s.time.beat / 16384 * 16384)).headD s.ownId = p) (_hn : p ≠ s.ownId)
    (hbl : 1 < s.redBelow (s.contributors (s.time.beat / 16384 * 16384)) p) :
    ∃ t, execReductionStart r s = .next t ∧ (t.herd.red.get r.val).started = true ∧ (t.herd.red.get r.val).count = s.redLen r.val ∧
      (t.herd.red.get r.val).acc = (List.range (s.redLen r.val)).map (fun i => toSigned 64 (Mem.readLE s.hbm (s.act Reg.HERD.RED_SRC 0 r.val + 8 * i) 8)) ∧
      t.hbm = s.hbm ∧ t = { s with herd := t.herd } := by
  rw [execReductionStart_eq s r (by omega) hw hb (by rw [State.window, hx]) (by rw [State.window, hx]) hc, if_neg (Bool.eq_false_iff.mp hst), hu,
    if_neg (by decide), hop, State.window, hx]
  simp only [if_neg (show ¬ (0 : Nat) = 3 by decide)]
  obtain ⟨v, hv⟩ : ∃ v, v = (List.range (s.redLen r.val)).map (fun i => toSigned 64 (Mem.readLE s.hbm (s.act Reg.HERD.RED_SRC 0 r.val + 8 * i) 8)) := ⟨_, rfl⟩
  have hl : s.redLen r.val = v.length := by simp [hv]
  have hpos : 0 < s.redLen r.val := Nat.succ_pos _
  rw [← hv, hl, combine_first]
  have hwait := State.redAdvance_waits (s.setRed r.val { window := s.time.beat / 16384 * 16384, acc := v, count := v.length, started := true }) r.val
    (s.time.beat / 16384 * 16384) (by
      refine Or.inr ?_
      rw [State.redFor_setRed s r.val rfl]
      have h1 : 2 * v.length ≤ s.redBelow (s.contributors (s.time.beat / 16384 * 16384)) p * v.length := Nat.mul_le_mul_right _ hbl
      have h2 : v.length < 2 * v.length := by omega
      have h3 := Nat.lt_of_lt_of_le h2 h1
      rw [← hp, ← hl] at h3
      rw [← hl]
      exact h3)
  refine ⟨_, congrArg Host.Outcome.next hwait, ?_⟩
  rw [State.setRed_red]
  exact ⟨rfl, rfl, rfl, s.setRed_frame _ _ |>.2, (s.setRed_frame _ _).1⟩

theorem execReductionDeadline_early (s : State) (r : Fin 4) (h : s.time.beat % 16384 < 64) : execReductionDeadline r s = .next s :=
  if_pos (Or.inr (Or.inr (Or.inl (by omega))))

/-- The root's status for a window whose result did not come. -/
def State.rootVoided (s : State) : State := { s with herd := { s.herd with rootVoid := some true } }

theorem State.rootVoided_spec (s : State) : s.rootVoided.regs = s.regs ∧ s.rootVoided.herd.rootVoid = some true ∧ s.rootVoided.pkts = s.pkts := ⟨rfl, rfl, rfl⟩

theorem execReductionDeadline_void (s : State) (r : Fin 4) (hm : s.isMember = false) (he : s.act Reg.HERD.RED_EN 0 r.val = 1) (hw : 16384 ≤ s.time.beat)
    (hb : 64 ≤ s.time.beat % 16384) (hh : (s.redFor r.val (s.time.beat / 16384 * 16384)).have_ = false) (hst : s.herd.stopped = false) :
    ∃ t, execReductionDeadline r s = .next t ∧ s.Counts t Reg.HERD.RED_DONE ∧ s.Counts t Reg.HERD.RED_VOID ∧ t.herd.rootVoid = some true ∧ t.pkts = s.pkts := by
  have hc := s.contributors_alone (s.time.beat / 16384 * 16384) hm
  have hno : ¬ (s.act Reg.HERD.RED_EN 0 r.val = 0 ∨ s.time.beat / 16384 * 16384 = 0 ∨ s.time.beat < s.time.beat / 16384 * 16384 + 64 ∨
      ¬ (s.contributors (s.time.beat / 16384 * 16384)).contains s.ownId = true) := by
    rintro (h | h | h | h)
    · omega
    · omega
    · omega
    · rw [hc] at h
      simp at h
  have hroot : (s.contributors (s.time.beat / 16384 * 16384)).headD s.ownId = s.ownId := by
    rw [hc]
    rfl
  obtain ⟨x, hx⟩ : ∃ x, x = s.redResult r.val (s.time.beat / 16384 * 16384) [] (s.contributors (s.time.beat / 16384 * 16384)).length true := ⟨_, rfl⟩
  obtain ⟨h1, h2, -, -, -, h6, -⟩ := s.redResult_spec r.val (s.time.beat / 16384 * 16384) [] (s.contributors (s.time.beat / 16384 * 16384)).length true
  rw [← hx] at h1 h2 h6
  obtain ⟨y, hsend, hy⟩ : ∃ y, x.Sends y ∧ execReductionDeadline r s = .next y.rootVoided := by
    refine ⟨_, x.sends_redSend r.val (s.time.beat / 16384 * 16384) (s.redKids (s.contributors (s.time.beat / 16384 * 16384)) s.ownId)
      (s.redFor r.val (s.time.beat / 16384 * 16384)).acc true (s.contributors (s.time.beat / 16384 * 16384)).length true, ?_⟩
    rw [hx]
    exact (if_neg hno).trans ((if_neg (Bool.eq_false_iff.mp hst)).trans ((if_pos hroot).trans (if_neg (Bool.eq_false_iff.mp hh))))
  obtain ⟨r1, r2, r3⟩ := y.rootVoided_spec
  refine ⟨_, hy, ?_, ?_, r2, ?_⟩
  · rw [State.Counts, State.rd_congr r1, hsend.rd, h1]
  · rw [State.Counts, State.rd_congr r1, hsend.rd, h2 rfl]
  · rw [r3, hsend.frame.2.2.1, h6]

/-! ### Partial results that arrive -/

/-- What a message of a reduction does at a contributor. -/
def State.takeRed (s : State) (k w off : Nat) (v : List Int) (fromRoot : Bool) (n : Nat) (void : Bool) : State :=
  if s.herd.stopped ∨ s.act Reg.HERD.RED_EN 0 k = 0 ∨ ¬ (s.contributors w).contains s.ownId ∨ s.redLen k < off + v.length then s
  else if (s.redFor k w).have_ then s
  else if ¬ fromRoot then (s.setRed k ((s.redFor k w).combine (s.act Reg.HERD.RED_OP 0 k) off v n void)).redAdvance k w
  else
    let y := { s.redFor k w with acc := putInts (s.redFor k w).acc off v, count := (s.redFor k w).count + v.length, void := void }
    if y.count < s.redLen k then s.setRed k y
    else (s.redResult k w y.acc n void).redSend k w (s.redKids (s.contributors w) ((s.contributors w).headD s.ownId)) y.acc true n void

theorem execRed_eq (s : State) (h : HPort) (m : MsgHdr) (r : Fin 4) (w off : Nat) (v : List Int) (fromRoot : Bool) (n : Nat) (void : Bool)
    (hu : s.hlUp h.val = true) (hc : s.herd.cut = false) (hd : m.dest.val = s.ownId) :
    execRed h m r w off v fromRoot n void s = .next (s.takeRed r.val w off v fromRoot n void) := by
  rw [execRed, State.recv_own _ _ hu (Or.inr hc) hd]
  rfl

theorem State.takeRed_eq (s : State) (k w off : Nat) (v : List Int) (fromRoot : Bool) (n : Nat) (void : Bool) (hst : s.herd.stopped = false)
    (he : s.act Reg.HERD.RED_EN 0 k = 1) (hc : s.ownId ∈ s.contributors w) (hl : off + v.length ≤ s.redLen k) (hh : (s.redFor k w).have_ = false) :
    s.takeRed k w off v fromRoot n void =
      if ¬ fromRoot then (s.setRed k ((s.redFor k w).combine (s.act Reg.HERD.RED_OP 0 k) off v n void)).redAdvance k w
      else if (s.redFor k w).count + v.length < s.redLen k then
        s.setRed k { s.redFor k w with acc := putInts (s.redFor k w).acc off v, count := (s.redFor k w).count + v.length, void := void }
      else (s.redResult k w (putInts (s.redFor k w).acc off v) n void).redSend k w (s.redKids (s.contributors w) ((s.contributors w).headD s.ownId))
        (putInts (s.redFor k w).acc off v) true n void := by
  have hno : ¬ (s.herd.stopped = true ∨ s.act Reg.HERD.RED_EN 0 k = 0 ∨ ¬ (s.contributors w).contains s.ownId = true ∨ s.redLen k < off + v.length) := by
    rintro (h | h | h | h)
    · exact absurd (h.symm.trans hst) nofun
    · omega
    · exact h (List.contains_iff_mem.mpr hc)
    · omega
  exact (if_neg hno).trans (if_neg (Bool.eq_false_iff.mp hh))

theorem execRed_combines (s : State) (h : HPort) (m : MsgHdr) (r : Fin 4) (w off n : Nat) (v : List Int) (void : Bool) (hu : s.hlUp h.val = true)
    (hc : s.herd.cut = false) (hd : m.dest.val = s.ownId) (hst : s.herd.stopped = false) (he : s.act Reg.HERD.RED_EN 0 r.val = 1)
    (hm : s.ownId ∈ s.contributors w) (hl : off + v.length ≤ s.redLen r.val) (hh : (s.redFor r.val w).have_ = false)
    (hs : (s.redFor r.val w).started = false) : ∃ t, execRed h m r w off v false n void s = .next t ∧
      t.herd.red.get r.val = (s.redFor r.val w).combine (s.act Reg.HERD.RED_OP 0 r.val) off v n void ∧ t = { s with herd := t.herd } := by
  rw [execRed_eq s h m r w off v false n void hu hc hd, s.takeRed_eq r.val w off v false n void hst he hm hl hh, if_pos (by decide)]
  have hx : ((s.redFor r.val w).combine (s.act Reg.HERD.RED_OP 0 r.val) off v n void).window = w := s.redFor_window r.val w
  rw [State.redAdvance_waits _ r.val w (Or.inl ((congrArg RedSt.started (s.redFor_setRed r.val hx)).trans hs))]
  exact ⟨_, rfl, s.setRed_red _ _, (s.setRed_frame _ _).1⟩

theorem putInts_all (l v : List Int) (h : l.length = v.length) : putInts l 0 v = v := by
  rw [putInts, Nat.zero_add, ← h, List.drop_length]
  simp

theorem length_words (v : List Int) : (v.flatMap (fun x => leBytes 16 (ofSigned 128 x))).length = 16 * v.length := by
  induction v with
  | nil => rfl
  | cons x v ih =>
    rw [List.flatMap_cons, List.length_append, ih, length_leBytes, List.length_cons]
    omega

theorem Mem.readN_writeN_append (m : Mem) (a : Nat) (bs cs : List Byte) : Mem.readN (Mem.writeN m a (bs ++ cs)) a bs.length = bs := by
  refine List.ext_getElem (by simp [Mem.readN]) fun i h1 h2 => ?_
  simp only [Mem.readN, List.getElem_map, List.getElem_range]
  rw [Mem.read_writeN m a (bs ++ cs) i (by rw [List.length_append]; omega), List.getElem_append_left h2]

/-- A complete result goes to memory, each value in 16 bytes. -/
theorem State.resultWritten_bytes (s : State) (r w : Nat) (v : List Int) (n : Nat) (hl : (linesOf (s.act Reg.HERD.RED_DST 0 r) (16 * v.length + 64)).any s.lineProtected = false)
    (hc : s.cycLate = []) : Mem.readN (s.resultWritten r w v n false).hbm (s.act Reg.HERD.RED_DST 0 r) (16 * v.length) =
      v.flatMap (fun x => leBytes 16 (ofSigned 128 x)) := by
  have hlen : (v.flatMap (fun x => leBytes 16 (ofSigned 128 x)) ++ resultStatus w n false).length = 16 * v.length + 64 := by
    rw [List.length_append, length_words]
    simp [resultStatus, length_leBytes, zeros]
  have hw : s.resultWritten r w v n false = s.hbmWrite (s.act Reg.HERD.RED_DST 0 r) (v.flatMap (fun x => leBytes 16 (ofSigned 128 x)) ++ resultStatus w n false) := rfl
  rw [hw, State.hbmWrite_hbm s _ _ (by rw [hlen]; exact hl) hc, ← length_words v, Mem.readN_writeN_append]

theorem execRed_result (s : State) (h : HPort) (m : MsgHdr) (r : Fin 4) (w n : Nat) (v : List Int) (hu : s.hlUp h.val = true)
    (hc : s.herd.cut = false) (hd : m.dest.val = s.ownId) (hst : s.herd.stopped = false) (he : s.act Reg.HERD.RED_EN 0 r.val = 1)
    (hm : s.ownId ∈ s.contributors w) (hl : v.length = s.redLen r.val) (ha : (s.redFor r.val w).acc.length = v.length)
    (hh : (s.redFor r.val w).have_ = false) (hp : (linesOf (s.act Reg.HERD.RED_DST 0 r.val) (16 * v.length + 64)).any s.lineProtected = false)
    (hcl : s.cycLate = []) : ∃ t, execRed h m r w 0 v true n false s = .next t ∧ s.Counts t Reg.HERD.RED_DONE ∧ (t.herd.red.get r.val).have_ = true ∧
      (t.herd.red.get r.val).acc = v ∧ Mem.readN t.hbm (s.act Reg.HERD.RED_DST 0 r.val) (16 * v.length) = v.flatMap (fun x => leBytes 16 (ofSigned 128 x)) ∧
      t.pkts = s.pkts := by
  rw [execRed_eq s h m r w 0 v true n false hu hc hd, s.takeRed_eq r.val w 0 v true n false hst he hm (by omega) hh, if_neg (by decide),
    if_neg (by omega), putInts_all _ _ ha]
  obtain ⟨h1, -, h3, h4, h5, h6, -⟩ := s.redResult_spec r.val w v n false
  have hb := s.resultWritten_bytes r.val w v n hp hcl
  rw [← h5] at hb
  generalize s.redResult r.val w v n false = x at *
  have hs := x.sends_redSend r.val w (s.redKids (s.contributors w) ((s.contributors w).headD s.ownId)) v true n false
  generalize x.redSend r.val w (s.redKids (s.contributors w) ((s.contributors w).headD s.ownId)) v true n false = y at *
  refine ⟨y, rfl, ?_, ?_, ?_, ?_, hs.frame.2.2.1.trans h6⟩
  · rw [State.Counts, hs.rd, h1]
  · rw [hs.herd, h3]
  · rw [hs.herd, h4]
  · rw [hs.hbm, hb]

/-! ### The global stop -/

theorem State.rd_setStopState_self (s : State) {v : Nat} (hv : v < 4) : (s.setStopState v).rd Reg.HERD.STOP_STATE = v := by
  rw [State.setStopState]
  by_cases h : s.rd Reg.HERD.STOP_STATE = v
  · rw [if_pos h]
    exact h
  · rw [if_neg h, State.rd_event _ _ _ _ _ _ _ _ (by decide), State.rd_wr_self]
    exact Nat.mod_eq_of_lt hv

theorem State.setStopState_spec (s : State) (v : Nat) : s.ReportsOnly (s.setStopState v) ∧
    ∀ f : Field, f.key 0 0 0 ≠ Reg.HERD.STOP_STATE.key 0 0 0 → reportKey (f.key 0 0 0) = false → (s.setStopState v).rd f = s.rd f := by
  rw [State.setStopState]
  refine ⟨keeps_ite (.refl s) (.wr_event _ _ _ _ _ _ _ _ _), fun f hk hr => ?_⟩
  exact keeps_ite (P := fun u : State => u.rd f = s.rd f) rfl
    ((State.rd_event _ _ _ _ _ _ _ _ hr).trans (State.rd_wr_ne _ _ _ _ _ _ _ _ _ _ hk))

/-- What a stop or a resume that is taken changes in the herd's state. -/
def HerdSt.takeStop (m : HerdSt) (resume : Bool) (b : Nat) : HerdSt :=
  if resume then { m with resumeAt := some b } else { m with stopAt := some b, resumeAt := none }

/-- The state of a stop or a resume that is taken. -/
def stopCode (resume : Bool) : Nat := if resume then 3 else 1

theorem State.takeStop_eq (s : State) (resume : Bool) (b : Nat) :
    s.takeStop resume b = { s.setStopState (stopCode resume) with herd := s.herd.takeStop resume b } := by
  cases resume <;> rfl

theorem State.givenHerd_spec (s : State) (m : HerdSt) : ({ s with herd := m } : State).regs = s.regs ∧ ({ s with herd := m } : State).herd = m := ⟨rfl, rfl⟩

theorem State.takeStop_spec (s : State) (resume : Bool) (b : Nat) : (s.takeStop resume b).rd Reg.HERD.STOP_STATE = stopCode resume ∧
    (s.takeStop resume b).herd = s.herd.takeStop resume b ∧ ({ s with herd := (s.takeStop resume b).herd } : State).ReportsOnly (s.takeStop resume b) ∧
    ∀ f : Field, f.key 0 0 0 ≠ Reg.HERD.STOP_STATE.key 0 0 0 → reportKey (f.key 0 0 0) = false → (s.takeStop resume b).rd f = s.rd f := by
  have hcode : stopCode resume < 4 := by cases resume <;> decide
  have h1 := s.rd_setStopState_self hcode
  obtain ⟨h2, h3⟩ := s.setStopState_spec (stopCode resume)
  rw [State.takeStop_eq]
  generalize s.setStopState (stopCode resume) = v at *
  obtain ⟨r1, r2⟩ := v.givenHerd_spec (s.herd.takeStop resume b)
  exact ⟨(State.rd_congr r1 _ _ _ _).trans h1, r2, h2.givenHerd rfl, fun f hk hr => (State.rd_congr r1 _ _ _ _).trans (h3 f hk hr)⟩

theorem execStop_order (s : State) (h : HPort) (m : MsgHdr) (resume : Bool) (b : Nat) (hu : s.hlUp h.val = true) (hd : m.dest.val = s.ownId)
    (h2 : 2 ≤ s.herdState) : execStop h m true resume b 0 s = .next (s.takeStop resume b) := by
  have hno : ¬ (0 : Fin 16) ≠ 0 := by decide
  rw [execStop, State.recv_own _ _ hu (Or.inl (by decide)) hd]
  exact congrArg Host.Outcome.next ((if_neg (by omega)).trans ((if_neg hno).trans (if_pos rfl)))

theorem execStop_taken (s : State) (h : HPort) (m : MsgHdr) (b : Nat) (hu : s.hlUp h.val = true) (hd : m.dest.val = s.ownId) (h2 : 2 ≤ s.herdState) :
    (∃ t, execStop h m true false b 0 s = .next t ∧ t.rd Reg.HERD.STOP_STATE = 1 ∧ t.herd = { s.herd with stopAt := some b, resumeAt := none } ∧
      ({ s with herd := t.herd } : State).ReportsOnly t) ∧
    (∃ t, execStop h m true true b 0 s = .next t ∧ t.rd Reg.HERD.STOP_STATE = 3 ∧ t.herd = { s.herd with resumeAt := some b } ∧
      ({ s with herd := t.herd } : State).ReportsOnly t) := by
  obtain ⟨a1, a2, a3, -⟩ := s.takeStop_spec false b
  obtain ⟨b1, b2, b3, -⟩ := s.takeStop_spec true b
  exact ⟨⟨_, execStop_order s h m false b hu hd h2, a1, a2, a3⟩, ⟨_, execStop_order s h m true b hu hd h2, b1, b2, b3⟩⟩

theorem execStopTakeEffect_stops (s : State) (b : Nat) (hb : s.herd.stopAt = some b) (h1 : s.rd Reg.HERD.STOP_STATE = 1) (hle : b ≤ s.time.beat) :
    ∃ t, execStopTakeEffect s = .next t ∧ t.rd Reg.HERD.STOP_STATE = 2 ∧ t.herd = { s.herd with stopped := true } ∧
      ({ s with herd := t.herd } : State).ReportsOnly t := by
  have heq : execStopTakeEffect s = .next { s.setStopState 2 with herd := { s.herd with stopped := true } } := by
    rw [execStopTakeEffect, hb]
    exact if_pos ⟨h1, hle⟩
  have e1 := s.rd_setStopState_self (v := 2) (by decide)
  obtain ⟨e2, -⟩ := s.setStopState_spec 2
  rw [heq]
  generalize s.setStopState 2 = v at *
  obtain ⟨r1, r2⟩ := v.givenHerd_spec { s.herd with stopped := true }
  exact ⟨_, rfl, (State.rd_congr r1 _ _ _ _).trans e1, r2, e2.givenHerd rfl⟩

theorem execStopTakeEffect_early (s : State) (b : Nat) (hb : s.herd.stopAt = some b) (hlt : s.time.beat < b) :
    execStopTakeEffect s = .next s ∧ execStopCut s = .next s := by
  rw [execStopTakeEffect, execStopCut, hb]
  exact ⟨if_neg (by omega), if_neg (by omega)⟩

theorem execStopCut_cuts (s : State) (b : Nat) (hb : s.herd.stopAt = some b) (hs : s.herd.stopped = true) (hle : b + 1 ≤ s.time.beat) :
    execStopCut s = .next { s with herd := { s.herd with cut := true } } := by
  rw [execStopCut, hb]
  exact if_pos ⟨hs, hle⟩

/-! ### Requests of a host -/

/-- A host's request for a stop or a resume, before it acts. -/
def State.stopAsked (s : State) (src : Source) (resume : Bool) (refuse : Nat) (r : Nat) : State :=
  ((s.wrote src).wr Reg.HERD.STOP_REFUSE refuse).auditCmd src (if resume then Reg.HERD.RESUME else Reg.HERD.STOP) 0 1 r

theorem State.stopAsked_spec (s : State) (src : Source) (resume : Bool) (refuse r : Nat) (hr : refuse < 16) :
    (s.stopAsked src resume refuse r).rd Reg.HERD.STOP_REFUSE = refuse ∧ s.WriteOnly (s.stopAsked src resume refuse r) ∧
      (s.stopAsked src resume refuse r).herd = s.herd ∧
      ∀ f ∈ [Reg.HERD.BELLWETHER, Reg.HERD.ELECTING, Reg.HERD.STATE, Reg.HERD.COORD_X, Reg.HERD.COORD_Y, Reg.HERD.COORD_Z, Reg.HERD.STOP_STATE],
        (s.stopAsked src resume refuse r).rd f = s.rd f := by
  have hk : ∀ f ∈ [Reg.HERD.BELLWETHER, Reg.HERD.ELECTING, Reg.HERD.STATE, Reg.HERD.COORD_X, Reg.HERD.COORD_Y, Reg.HERD.COORD_Z, Reg.HERD.STOP_STATE],
      f.key 0 0 0 ≠ Reg.HERD.STOP_REFUSE.key 0 0 0 ∧ f.key 0 0 0 ≠ Reg.DEV.SEQ_RESULT.key 0 0 0 ∧ reportKey (f.key 0 0 0) = false := by decide
  refine ⟨?_, ?_, by simp [State.stopAsked], fun f hf => ?_⟩
  · rw [State.stopAsked, State.rd_auditCmd _ _ _ _ _ _ _ _ _ _ _ _ (by decide), State.rd_wr_self]
    exact Nat.mod_eq_of_lt hr
  · exact (s.writeOnly_wrote src).trans ((State.ReportsOnly.wr _ _ _ _ _ _).trans (State.ReportsOnly.auditCmd _ _ _ _ _ _ _ _)).writeOnly
  · obtain ⟨k1, k2, k3⟩ := hk f hf
    rw [State.stopAsked, State.rd_auditCmd _ _ _ _ _ _ _ _ _ _ _ _ k3, State.rd_wr_ne _ _ _ _ _ _ _ _ _ _ k1, State.rd_wrote _ _ _ _ _ _ k2]

theorem State.askStop_refused (s : State) (src : Source) (resume : Bool) (ht : s.auth.token = none) :
    (s.wrote src).askStop src resume = s.stopAsked src resume 1 2 := by
  have htok : (s.wrote src).auth.token = none := by rw [State.wrote_auth, ht]
  refine if_pos ?_
  rw [htok]
  decide

theorem execStopRequest_refused (s : State) (src : Source) (h : s.Takes src) (ht : s.auth.token = none) :
    (∃ t, execStopRequest src s = .next t ∧ t.rd Reg.HERD.STOP_REFUSE = 1 ∧ s.WriteOnly t) ∧
    (∃ t, execResumeRequest src s = .next t ∧ t.rd Reg.HERD.STOP_REFUSE = 1 ∧ s.WriteOnly t) := by
  obtain ⟨a1, a2, -⟩ := s.stopAsked_spec src false 1 2 (by decide)
  obtain ⟨b1, b2, -⟩ := s.stopAsked_spec src true 1 2 (by decide)
  refine ⟨⟨_, ?_, a1, a2⟩, ⟨_, ?_, b1, b2⟩⟩
  · rw [← s.askStop_refused src false ht]
    exact s.basicCmd_takes _ h
  · rw [← s.askStop_refused src true ht]
    exact s.basicCmd_takes _ h

theorem State.orderStop_own (s : State) (resume : Bool) (b : Nat) (he : s.electing = false) (hm : s.ownId ∈ s.herd.members)
    (hst : s.rd Reg.HERD.STOP_STATE = if resume then 2 else 0) (hb : s.time.beat + 1024 ≤ b) :
    (s.takeStop resume b).Sends (s.orderStop s.ownId resume b) := by
  have h0 : s.stopRefusal s.ownId resume b false = 0 := by
    have h1 : ¬ (¬ false = true ∧ ¬ s.herd.members.contains s.ownId = true) := fun h => h.2 (List.contains_iff_mem.mpr hm)
    have h2 : ¬ (s.electing = true ∨ (if resume then s.rd Reg.HERD.STOP_STATE ≠ 2 else s.rd Reg.HERD.STOP_STATE ≠ 0)) := by
      rintro (h | h)
      · exact absurd (h.symm.trans he) nofun
      · cases resume
        · exact h hst
        · exact h hst
    exact (if_neg h1).trans ((if_neg h2).trans (if_neg (by omega)))
  have hno : ¬ (if resume then s.herd.resumeAt == some b && s.rd Reg.HERD.STOP_STATE == 3 else s.herd.stopAt == some b && s.rd Reg.HERD.STOP_STATE == 1) = true := by
    rw [hst]
    cases resume <;> simp
  rw [State.orderStop, if_neg hno]
  dsimp only
  rw [h0, if_neg (by decide)]
  exact State.Sends.foldl (fun t (x : Nat) => t.sends_sendTo 13 x _) _ _

theorem State.askStop_eq (s : State) (src : Source) (resume : Bool) (k : Token) (ht : s.auth.token = some k) (hp : bits k.perms 1 1 = 1)
    (hb : s.isBw = true) (h2 : s.herdState = 2) : (s.wrote src).askStop src resume =
      (s.stopAsked src resume 0 0).orderStop (s.stopAsked src resume 0 0).ownId resume
        ((s.wrote src).rd (if resume then Reg.HERD.RESUME_BEAT else Reg.HERD.STOP_BEAT)) := by
  have htok : (s.wrote src).auth.token = some k := by rw [State.wrote_auth, ht]
  obtain ⟨-, -, -, e4⟩ := s.stopAsked_spec src resume 0 0 (by decide)
  have h1 : ¬ ¬ (((s.wrote src).auth.token.map (fun t => bits t.perms 1 1 == 1)).getD false) = true := by
    rw [htok]
    simp [hp]
  have hst : ¬ (s.stopAsked src resume 0 0).herdState < 2 := by
    rw [State.herdState, e4 _ (by decide)]
    have : s.rd Reg.HERD.STATE = 2 := h2
    omega
  have hbw : (s.stopAsked src resume 0 0).isBw = true := by
    rw [State.isBw, e4 _ (by decide)]
    exact hb
  exact (if_neg h1).trans ((if_neg hst).trans (if_pos hbw))

/-- A request that the bellwether's token permits is ordered. -/
theorem State.askStop_ordered (s : State) (src : Source) (resume : Bool) (k : Token) (ht : s.auth.token = some k) (hp : bits k.perms 1 1 = 1)
    (hb : s.isBw = true) (he : s.electing = false) (h2 : s.herdState = 2) (hm : s.ownId ∈ s.herd.members)
    (hst : s.rd Reg.HERD.STOP_STATE = if resume then 2 else 0)
    (hbt : s.time.beat + 1024 ≤ s.rd (if resume then Reg.HERD.RESUME_BEAT else Reg.HERD.STOP_BEAT)) :
    ((s.wrote src).askStop src resume).rd Reg.HERD.STOP_STATE = stopCode resume ∧ ((s.wrote src).askStop src resume).rd Reg.HERD.STOP_REFUSE = 0 ∧
      (∃ o, ((s.wrote src).askStop src resume).herd =
        { s.herd.takeStop resume (s.rd (if resume then Reg.HERD.RESUME_BEAT else Reg.HERD.STOP_BEAT)) with out := o }) ∧
      ({ s with herd := ((s.wrote src).askStop src resume).herd } : State).WriteOnly ((s.wrote src).askStop src resume) := by
  have hbeat : (s.wrote src).rd (if resume then Reg.HERD.RESUME_BEAT else Reg.HERD.STOP_BEAT) =
      s.rd (if resume then Reg.HERD.RESUME_BEAT else Reg.HERD.STOP_BEAT) := by
    cases resume
    · exact s.rd_wrote src _ 0 0 0 (by decide)
    · exact s.rd_wrote src _ 0 0 0 (by decide)
  rw [s.askStop_eq src resume k ht hp hb h2, hbeat]
  obtain ⟨e1, e2, e3, e4⟩ := s.stopAsked_spec src resume 0 0 (by decide)
  generalize s.stopAsked src resume 0 0 = v at *
  generalize s.rd (if resume then Reg.HERD.RESUME_BEAT else Reg.HERD.STOP_BEAT) = b at *
  have hid : v.ownId = s.ownId := by rw [State.ownId, State.ownId, e4 _ (by decide), e4 _ (by decide), e4 _ (by decide)]
  have hvt : v.time = s.time := by
    rw [State.WriteOnly] at e2
    rw [e2]
  have hs := v.orderStop_own resume b (by rw [State.electing, e4 _ (by decide)]; exact he) (by rw [hid, e3]; exact hm)
    (by rw [e4 _ (by decide), hst]) (by rw [hvt]; exact hbt)
  obtain ⟨t1, t2, t3, t4⟩ := v.takeStop_spec resume b
  generalize v.orderStop v.ownId resume b = x at *
  generalize v.takeStop resume b = w at *
  refine ⟨?_, ?_, ⟨x.herd.out, ?_⟩, ?_⟩
  · rw [hs.rd, t1]
  · rw [hs.rd, t4 _ (by decide) (by decide), e1]
  · rw [hs.herd, t2, e3]
  · have h5 := hs.reportsOnly
    rw [State.ReportsOnly] at t3 h5
    rw [State.WriteOnly] at e2 ⊢
    rw [h5, t3, e2]

theorem execStopRequest_orders (s : State) (src : Source) (k : Token) (h : s.Takes src) (ht : s.auth.token = some k) (hp : bits k.perms 1 1 = 1)
    (hb : s.isBw = true) (he : s.electing = false) (h2 : s.herdState = 2) (hm : s.ownId ∈ s.herd.members) (hst : s.rd Reg.HERD.STOP_STATE = 0)
    (hbt : s.time.beat + 1024 ≤ s.rd Reg.HERD.STOP_BEAT) : ∃ t, execStopRequest src s = .next t ∧ t.rd Reg.HERD.STOP_STATE = 1 ∧
      t.herd.stopAt = some (s.rd Reg.HERD.STOP_BEAT) ∧ t.rd Reg.HERD.STOP_REFUSE = 0 ∧ ({ s with herd := t.herd } : State).WriteOnly t := by
  obtain ⟨a1, a2, ⟨o, a3⟩, a4⟩ := s.askStop_ordered src false k ht hp hb he h2 hm hst hbt
  refine ⟨_, s.basicCmd_takes _ h, a1, ?_, a2, a4⟩
  rw [a3]
  rfl

theorem execResumeRequest_orders (s : State) (src : Source) (k : Token) (h : s.Takes src) (ht : s.auth.token = some k) (hp : bits k.perms 1 1 = 1)
    (hb : s.isBw = true) (he : s.electing = false) (h2 : s.herdState = 2) (hm : s.ownId ∈ s.herd.members) (hst : s.rd Reg.HERD.STOP_STATE = 2)
    (hbt : s.time.beat + 1024 ≤ s.rd Reg.HERD.RESUME_BEAT) : ∃ t, execResumeRequest src s = .next t ∧ t.rd Reg.HERD.STOP_STATE = 3 ∧
      t.herd.resumeAt = some (s.rd Reg.HERD.RESUME_BEAT) ∧ ({ s with herd := t.herd } : State).WriteOnly t := by
  obtain ⟨a1, -, ⟨o, a3⟩, a4⟩ := s.askStop_ordered src true k ht hp hb he h2 hm hst hbt
  refine ⟨_, s.basicCmd_takes _ h, a1, ?_, a4⟩
  rw [a3]
  rfl

/-! ### The end of a stop -/

/-- Ports, packets and time stand. -/
def State.KeepsPorts (s t : State) : Prop := t.hl = s.hl ∧ t.pkts = s.pkts ∧ t.time = s.time

theorem State.KeepsPorts.trans (h : s.KeepsPorts t) (h' : t.KeepsPorts u) : s.KeepsPorts u :=
  ⟨h'.1.trans h.1, h'.2.1.trans h.2.1, h'.2.2.trans h.2.2⟩

theorem State.keepsPorts_modCold (s : State) (key : List Byte) (g : List Byte → List Byte) : s.KeepsPorts (s.modCold key g) := by
  rw [State.modCold]
  split
  · exact ⟨rfl, rfl, rfl⟩
  · split
    · exact ⟨by simp, by simp, by simp⟩
    · rw [State.modCached]
      split <;> exact ⟨rfl, rfl, rfl⟩

theorem State.keepsPorts_invLost (s : State) (i : Inv) : s.KeepsPorts (s.invLost i) := by
  have h1 : s.KeepsPorts (s.homeEnd i.id) := by
    rw [State.homeEnd]
    split <;> exact ⟨rfl, rfl, rfl⟩
  have h2 := ((s.homeEnd i.id).setFlow (fun f => { f with invs := f.invs.filter (fun j => decide (j.id ≠ i.id)) })).keepsPorts_modCold i.key (coldAdd 16 1)
  exact h1.trans h2

theorem State.keepsPorts_invsLost (l : List Inv) (s : State) : s.KeepsPorts (l.foldl State.invLost s) := by
  induction l generalizing s with
  | nil => exact ⟨rfl, rfl, rfl⟩
  | cons i l ih => exact (s.keepsPorts_invLost i).trans (ih _)

/-- The ports with empty capture buffers. -/
def State.capsCleared (s : State) (l : List Nat) : State :=
  l.foldl (fun (t : State) p => { t with hl := t.hl.mod p (fun x => { x with cap := [] }) }) s

theorem State.capsCleared_spec (l : List Nat) (s : State) : (s.capsCleared l).pkts = s.pkts ∧ (s.capsCleared l).time = s.time ∧
    (s.capsCleared l).flow = s.flow ∧ ∀ p, (p ∈ l ∨ (s.hl.get p).cap = []) → ((s.capsCleared l).hl.get p).cap = [] := by
  induction l generalizing s with
  | nil => exact ⟨rfl, rfl, rfl, fun p hp => hp.resolve_left List.not_mem_nil⟩
  | cons q l ih =>
    obtain ⟨h1, h2, h3, h4⟩ := ih { s with hl := s.hl.mod q (fun x => { x with cap := [] }) }
    refine ⟨h1, h2, h3, fun p hp => h4 p ?_⟩
    dsimp only
    by_cases hq : p = q
    · rw [hq, Tbl.get_mod_self]
      exact Or.inr rfl
    · rw [Tbl.get_mod_ne _ _ hq]
      exact hp.imp_left fun hm => (List.mem_cons.mp hm).resolve_left hq

/-- Runs and jobs that a stop ends are void. -/
def State.runsVoided (s : State) : State :=
  { s with ctxs := s.ctxs.map (fun (e : Nat × Ctx) => (e.1, if e.2.running then { e.2 with runVoid := true } else e.2)),
           host := { s.host with jobs := s.host.jobs.map (fun (e : Nat × Option JobRun) =>
             (e.1, e.2.map (fun j => if j.status = 0 then { j with status := 2 } else j))) } }

/-- Beat programs end with a stop. -/
def State.programsEnded (s : State) : State :=
  { s with arr := { s.arr with cores := s.arr.cores.map (fun (e : Nat × ACore) => (e.1, { e.2 with running := false, wait := none, held := [], posts := [] })), posts := [] } }

/-- Messages run again. -/
def State.messagesRun (s v : State) : State :=
  { v with herd := { s.herd with stopped := false, cut := false, out := s.herd.out.filter (fun m => decide (m.kind < 16) || m.src != s.ownId) } }

theorem execResumeTakeEffect_eq (s : State) (b : Nat) (hb : s.herd.resumeAt = some b) (h3 : s.rd Reg.HERD.STOP_STATE = 3) (hle : b ≤ s.time.beat) :
    execResumeTakeEffect s = .next (((((((s.capsCleared (List.range 12)).flow.invs.foldl State.invLost (s.capsCleared (List.range 12))).runsVoided).restoreCells
      (fun _ => true)).programsEnded).messagesRun (((((s.capsCleared (List.range 12)).flow.invs.foldl State.invLost
        (s.capsCleared (List.range 12))).runsVoided).restoreCells (fun _ => true)).programsEnded.setStopState 0))) := by
  have hno : ¬ (s.rd Reg.HERD.STOP_STATE ≠ 3 ∨ s.time.beat < b) := by omega
  rw [execResumeTakeEffect, hb]
  exact if_neg hno

theorem State.keepsPorts_ended (s : State) : s.KeepsPorts ((s.runsVoided.restoreCells (fun _ => true)).programsEnded) := ⟨rfl, rfl, rfl⟩

theorem State.messagesRun_spec (s v : State) : (s.messagesRun v).regs = v.regs ∧ (s.messagesRun v).herd.stopped = false ∧ (s.messagesRun v).herd.cut = false ∧
    v.KeepsPorts (s.messagesRun v) := ⟨rfl, rfl, rfl, rfl, rfl, rfl⟩

theorem execResumeTakeEffect_resumes (s : State) (b : Nat) (hb : s.herd.resumeAt = some b) (h3 : s.rd Reg.HERD.STOP_STATE = 3) (hle : b ≤ s.time.beat) :
    ∃ t, execResumeTakeEffect s = .next t ∧ t.rd Reg.HERD.STOP_STATE = 0 ∧ t.herd.stopped = false ∧ t.herd.cut = false ∧
      (∀ p : HPort, (t.hl.get p.val).cap = []) ∧ t.pkts = s.pkts ∧ t.time = s.time := by
  rw [execResumeTakeEffect_eq s b hb h3 hle]
  obtain ⟨a1, a2, -, a4⟩ := s.capsCleared_spec (List.range 12)
  generalize s.capsCleared (List.range 12) = v at *
  have h1 := State.keepsPorts_invsLost v.flow.invs v
  generalize v.flow.invs.foldl State.invLost v = w at *
  have h2 := h1.trans w.keepsPorts_ended
  generalize (w.runsVoided.restoreCells (fun _ => true)).programsEnded = x at *
  have h4 := x.rd_setStopState_self (v := 0) (by decide)
  obtain ⟨e1, -, e3, e4⟩ := (x.setStopState_spec 0).1.stands
  have h5 := h2.trans ⟨e1, e3, e4⟩
  generalize x.setStopState 0 = y at *
  obtain ⟨m1, m2, m3, m4⟩ := x.messagesRun_spec y
  obtain ⟨k1, k2, k3⟩ := h5.trans m4
  refine ⟨_, rfl, (State.rd_congr m1 _ _ _ _).trans h4, m2, m3, fun p => ?_, k2.trans a1, k3.trans a2⟩
  rw [k1]
  exact a4 p.val (Or.inl (List.mem_range.mpr p.isLt))

theorem execResumeTakeEffect_early (s : State) (b : Nat) (hb : s.herd.resumeAt = some b) (hlt : s.time.beat < b) : execResumeTakeEffect s = .next s := by
  rw [execResumeTakeEffect, hb]
  exact if_pos (Or.inr hlt)

theorem execSyncSetGo_queues (s : State) (src : Source) (f : Flock) (h : s.TakesExpert src) : ∃ t, execSyncSetGo src f s = .next t ∧
    s.Queued t (.syncSet (cellKey f.val (s.rd Reg.FLOCK.SYNC_SEL f.val)) (s.rd Reg.FLOCK.SYNC_SET f.val)) ∧ s.WriteLater t := by
  refine ⟨_, s.expertCmd_takes _ _ _ _ h, ?_, by simp [State.writeLater_iff, State.later]⟩
  have h1 (g : Field) (hg : g = Reg.FLOCK.SYNC_SEL ∨ g = Reg.FLOCK.SYNC_SET) :
      ((s.wrote src).auditCmd src Reg.FLOCK.SYNC_SET_GO f.val 1 0).rd g f.val = s.rd g f.val := by
    rcases hg with rfl | rfl
    · exact (State.rd_auditCmd_high _ _ _ _ _ _ _ _ (by decide) (by decide) (by decide) (by decide) (by decide)).trans (State.rd_wrote_high _ _ (by decide))
    · exact (State.rd_auditCmd_high _ _ _ _ _ _ _ _ (by decide) (by decide) (by decide) (by decide) (by decide)).trans (State.rd_wrote_high _ _ (by decide))
  rw [State.Queued, State.later_acts, h1 _ (Or.inl rfl), h1 _ (Or.inr rfl)]
  simp

/-- Settles O29. -/
theorem reductionAndStopCommands : Obligations.ReductionAndStopCommands :=
  ⟨execReduction_off, execReductionStart_early, execReductionStart_stopped, execReductionStart_partial, execRed_combines, execRed_result,
    execReductionDeadline_early, execReductionDeadline_void, execStopRequest_refused, execStopRequest_orders, execResumeRequest_orders, execStop_taken,
    execStopTakeEffect_stops, execStopTakeEffect_early, execStopCut_cuts, execResumeTakeEffect_resumes, execResumeTakeEffect_early, execSyncSetGo_queues⟩

end Sys2Proof.Machine
end

section
/-! PROOF. The settings ledger and debug tokens (R345 to R348, R350 to R352): O37. -/

namespace Sys2Proof.Machine

-- One thread for the proofs, which bounds the memory that checking them takes.
set_option Elab.async false

open Sys2Proof

variable {s t u : State}

/-! ### What the checks read -/

/-- t has the ledger's and the tokens' facts of s. -/
def State.SameSec (s t : State) : Prop :=
  t.sec.slots = s.sec.slots ∧ t.sec.setPend = s.sec.setPend ∧ t.sec.owner = s.sec.owner ∧ t.sec.nonce = s.sec.nonce ∧ t.time = s.time

theorem State.SameSec.trans (h : s.SameSec t) (h' : t.SameSec u) : s.SameSec u := by
  obtain ⟨h1, h2, h3, h4, h5⟩ := h
  obtain ⟨g1, g2, g3, g4, g5⟩ := h'
  exact ⟨g1.trans h1, g2.trans h2, g3.trans h3, g4.trans h4, g5.trans h5⟩

theorem State.sameSec_wrote (s : State) (src : Source) : s.SameSec (s.wrote src) := by
  unfold State.wrote
  extract_lets u
  split
  · split <;> exact ⟨rfl, rfl, rfl, rfl, rfl⟩
  · exact ⟨rfl, rfl, rfl, rfl, rfl⟩

theorem State.sameSec_audit (s : State) (r : AuditRec) : s.SameSec (s.audit r) := by
  obtain ⟨r1, k, h, m, f, e⟩ := s.audit_spec r
  rw [e]
  exact ⟨rfl, rfl, rfl, rfl, rfl⟩

theorem State.SameSec.tokenCheck (h : s.SameSec t) (tok pub : List Byte) : t.tokenCheck tok pub = s.tokenCheck tok pub := by
  obtain ⟨h1, -, h3, h4, h5⟩ := h
  have hv (k : Nat) : t.ledgerValue k = s.ledgerValue k := by rw [State.ledgerValue, State.ledgerValue, h1]
  rw [State.tokenCheck, State.tokenCheck, h3, h4, h5, hv]

theorem State.SameSec.ledgerCheck (h : s.SameSec t) (hr : t.rd Reg.SEC.SVN = s.rd Reg.SEC.SVN ∧ t.rd Reg.SEC.KEY = s.rd Reg.SEC.KEY) (msg pub sig : List Byte) :
    t.ledgerCheck msg pub sig = s.ledgerCheck msg pub sig := by
  obtain ⟨h1, h2, -⟩ := h
  have hv (k : Nat) : t.ledgerValue k = s.ledgerValue k := by rw [State.ledgerValue, State.ledgerValue, h1]
  have ha : t.arbCount = s.arbCount := by rw [State.arbCount, State.arbCount, h1]
  have hk (k : Nat) : t.revoked k = s.revoked k := by rw [State.revoked, State.revoked, h1]
  rw [State.ledgerCheck, State.ledgerCheck, h1, h2, hv, ha, hk, hr.1, hr.2]

theorem State.regBytes_wrote (s : State) (src : Source) {f : Field} (hk : ∀ i ∈ List.range f.count, f.key 0 i 0 ≠ Reg.DEV.SEQ_RESULT.key 0 0 0) :
    (s.wrote src).regBytes f = s.regBytes f :=
  List.flatMap_congr fun i hi => by rw [s.rd_wrote src _ _ _ _ (hk i hi)]

theorem State.tokenCheck_le (s : State) (tok pub : List Byte) : s.tokenCheck tok pub ≤ 6 := by
  rw [State.tokenCheck]
  split
  · exact le_rfl
  · split_ifs <;> decide

theorem State.ledgerCheck_le (s : State) (msg pub sig : List Byte) : s.ledgerCheck msg pub sig ≤ 8 := by
  unfold State.ledgerCheck
  extract_lets slot value first digest owner n
  have hpre : ∀ r, (if s.sec.setPend.isSome then some 7 else if owner.isNone then some 6 else none) = some r → r ≤ 8 := by
    intro r hr
    split_ifs at hr
    · have := Option.some.inj hr
      omega
    · have := Option.some.inj hr
      omega
  split
  next r hr => exact hpre r hr
  next => split_ifs <;> decide

/-! ### The ledger -/

/-- The audit record of a ledger message. -/
def ledgerAudit (src : Source) (msg pub : List Byte) (r : Nat) : AuditRec :=
  { block := Blk.SET, off := Reg.SET.GO.off, source := src.num, result := if r = 0 then 0 else 3, new := 1,
    signer := leNat ((Config.sha384 pub).take 8), ctx := leAt msg 4 1, kind := 1 }

/-- The record that a ledger message writes. -/
def State.ledgerRec (s : State) (msg pub : List Byte) : LedRec :=
  { value := slice msg 16 (slotLen (leAt msg 4 1)), beat := s.time.beat, signer := (Config.sha384 pub).take 8, committed := true }

theorem execLedgerWrite_eq (s : State) (src : Source) (h : s.Takes src true) : execLedgerWrite src s =
    .next (if s.ledgerCheck (s.regBytes Reg.SET.MSG) (s.regBytes Reg.SET.PUBKEY) (s.regBytes Reg.SET.SIG) ≠ 0
      then ((s.wrote src).audit (ledgerAudit src (s.regBytes Reg.SET.MSG) (s.regBytes Reg.SET.PUBKEY)
        (s.ledgerCheck (s.regBytes Reg.SET.MSG) (s.regBytes Reg.SET.PUBKEY) (s.regBytes Reg.SET.SIG)))).wr Reg.SET.RESULT
          (s.ledgerCheck (s.regBytes Reg.SET.MSG) (s.regBytes Reg.SET.PUBKEY) (s.regBytes Reg.SET.SIG))
      else
        let u := (s.wrote src).audit (ledgerAudit src (s.regBytes Reg.SET.MSG) (s.regBytes Reg.SET.PUBKEY)
          (s.ledgerCheck (s.regBytes Reg.SET.MSG) (s.regBytes Reg.SET.PUBKEY) (s.regBytes Reg.SET.SIG)))
        { u with sec := { u.sec with setPend := some (leAt (s.regBytes Reg.SET.MSG) 4 1, u.ledgerRec (s.regBytes Reg.SET.MSG) (s.regBytes Reg.SET.PUBKEY)) } }) := by
  have hc := (s.sameSec_wrote src).ledgerCheck ⟨s.rd_wrote src _ 0 0 0 (by decide), s.rd_wrote src _ 0 0 0 (by decide)⟩
  rw [← s.regBytes_wrote src (f := Reg.SET.MSG) (by decide), ← s.regBytes_wrote src (f := Reg.SET.PUBKEY) (by decide),
    ← s.regBytes_wrote src (f := Reg.SET.SIG) (by decide), ← hc]
  exact s.basicCmd_takes _ h

theorem State.audited_spec (s : State) (src : Source) (r : AuditRec) : s.WriteOnly ((s.wrote src).audit r) ∧ s.SameSec ((s.wrote src).audit r) ∧
    ((s.wrote src).audit r).auth = s.auth ∧ ((s.wrote src).audit r).flocks = s.flocks := by
  refine ⟨by simp [State.writeOnly_iff], (s.sameSec_wrote src).trans (State.sameSec_audit _ r), by simp, by simp⟩

theorem State.writeOnly_givenSec (h : s.WriteOnly t) (c : SecSt) : s.WriteOnly { t with sec := c } := by
  rw [State.WriteOnly] at h ⊢
  rw [h]

theorem execLedgerWrite_checks (s : State) (src : Source) (msg pub : List Byte) (h : s.Takes src true) (hm : msg = s.regBytes Reg.SET.MSG)
    (hp : pub = s.regBytes Reg.SET.PUBKEY) :
    (s.ledgerCheck msg pub (s.regBytes Reg.SET.SIG) ≠ 0 → ∃ t, execLedgerWrite src s = .next t ∧
      t.rd Reg.SET.RESULT = s.ledgerCheck msg pub (s.regBytes Reg.SET.SIG) ∧ t.sec.setPend = s.sec.setPend ∧ s.WriteOnly t) ∧
    (s.ledgerCheck msg pub (s.regBytes Reg.SET.SIG) = 0 → ∃ t r, execLedgerWrite src s = .next t ∧ t.sec.setPend = some (leAt msg 4 1, r) ∧
      r.value = slice msg 16 (slotLen (leAt msg 4 1)) ∧ r.beat = s.time.beat ∧ r.signer = (Config.sha384 pub).take 8 ∧ r.committed = true ∧ s.WriteOnly t) := by
  rw [execLedgerWrite_eq s src h, ← hm, ← hp]
  have hle := s.ledgerCheck_le msg pub (s.regBytes Reg.SET.SIG)
  generalize s.ledgerCheck msg pub (s.regBytes Reg.SET.SIG) = c at *
  obtain ⟨e1, ⟨-, e2, -, -, e3⟩, -⟩ := s.audited_spec src (ledgerAudit src msg pub c)
  generalize (s.wrote src).audit (ledgerAudit src msg pub c) = v at *
  refine ⟨fun hc => ?_, fun hc => ?_⟩
  · rw [if_pos hc]
    refine ⟨_, rfl, ?_, e2, e1.trans (State.ReportsOnly.wr v _ _ _ _ _).writeOnly⟩
    rw [State.rd_wr_self]
    exact Nat.mod_eq_of_lt (lt_of_le_of_lt hle (by decide))
  · rw [if_neg (not_not_intro hc)]
    exact ⟨_, v.ledgerRec msg pub, rfl, rfl, rfl, congrArg TimeSt.beat e3, rfl, rfl, State.writeOnly_givenSec e1 _⟩

/-- The ledger with a record more in a slot. -/
def State.recorded (s : State) (slot : Nat) (r : LedRec) (torn : Bool) : State :=
  { s with sec := { s.sec with setPend := none, slots := s.sec.slots.mod slot (fun l => l ++ [{ r with committed := !torn }]) } }

/-- Before START the owner and the domain follow the ledger. -/
def State.ledgerSettled (s : State) : State :=
  if s.time.started then s else { s with sec := { s.sec with owner := s.ledgerValue 6, domain := s.ledgerValue 2 } }

theorem execLedgerWriteEnd_eq (s : State) (torn : Bool) (slot : Nat) (r : LedRec) (h : s.sec.setPend = some (slot, r)) : execLedgerWriteEnd torn s =
    .next ((if torn then (s.recorded slot r torn).ledgerSettled else (s.recorded slot r torn).ledgerSettled.wr Reg.SET.RESULT 0).event Blk.SET 0 0) := by
  rw [execLedgerWriteEnd, h]
  rfl

theorem State.ledgerSettled_spec (s : State) : s.ledgerSettled.sec.setPend = s.sec.setPend ∧ s.ledgerSettled.sec.slots = s.sec.slots ∧ s.ledgerSettled = { s with sec := s.ledgerSettled.sec } := by
  rw [State.ledgerSettled]
  split <;> exact ⟨rfl, rfl, rfl⟩

theorem State.recorded_spec (s : State) (slot : Nat) (r : LedRec) (torn : Bool) : (s.recorded slot r torn).sec.setPend = none ∧
    (s.recorded slot r torn).sec.slots.get slot = s.sec.slots.get slot ++ [{ r with committed := !torn }] ∧
    (∀ k, k ≠ slot → (s.recorded slot r torn).sec.slots.get k = s.sec.slots.get k) ∧ s.recorded slot r torn = { s with sec := (s.recorded slot r torn).sec } := by
  refine ⟨rfl, ?_, fun k hk => ?_, rfl⟩
  · rw [State.recorded]
    dsimp only
    rw [Tbl.get_mod_self]
  · rw [State.recorded]
    dsimp only
    rw [Tbl.get_mod_ne _ _ hk]

theorem execLedgerWriteEnd_writes (s : State) (torn : Bool) (slot : Nat) (r : LedRec) (h : s.sec.setPend = some (slot, r)) :
    ∃ t, execLedgerWriteEnd torn s = .next t ∧ t.sec.setPend = none ∧ t.sec.slots.get slot = s.sec.slots.get slot ++ [{ r with committed := !torn }] ∧
      (∀ k, k ≠ slot → t.sec.slots.get k = s.sec.slots.get k) ∧ (torn = false → t.rd Reg.SET.RESULT = 0) ∧
      t = { s with regs := t.regs, host := t.host, sec := t.sec } := by
  rw [execLedgerWriteEnd_eq s torn slot r h]
  obtain ⟨a1, a2, a3, a4⟩ := s.recorded_spec slot r torn
  generalize s.recorded slot r torn = v at *
  obtain ⟨b1, b2, b3⟩ := v.ledgerSettled_spec
  generalize v.ledgerSettled = w at *
  have hx : ∃ x, (if torn then w else w.wr Reg.SET.RESULT 0) = x ∧ x = { w with regs := x.regs } ∧ (torn = false → x.rd Reg.SET.RESULT = 0) := by
    cases torn with
    | true => exact ⟨w, rfl, rfl, nofun⟩
    | false => exact ⟨_, rfl, rfl, fun _ => State.rd_wr_self _ _ _ _ _ _⟩
  obtain ⟨x, hx, x1, x2⟩ := hx
  rw [hx]
  have hrd : (x.event Blk.SET 0 0).rd Reg.SET.RESULT = x.rd Reg.SET.RESULT := State.rd_event _ _ _ _ _ _ _ _ (by decide)
  obtain ⟨r1, h1, he⟩ := x.event_spec Blk.SET 0 0
  generalize x.event Blk.SET 0 0 = y at *
  have hsec : y.sec = w.sec := by rw [he, x1]
  refine ⟨y, rfl, ?_, ?_, fun k hk => ?_, fun ht => hrd.trans (x2 ht), ?_⟩
  · rw [hsec, b1, a1]
  · rw [hsec, b2, a2]
  · rw [hsec, b2, a3 k hk]
  · rw [he, x1, b3, a4]

theorem execLedgerWriteEnd_none (s : State) (torn : Bool) (h : s.sec.setPend = none) : execLedgerWriteEnd torn s = .next s := by
  rw [execLedgerWriteEnd, h]

/-! ### The end of a token -/

/-- The flocks in debug mode leave it. -/
def State.debugLeft (s : State) : State := (s.flocks.filter (fun e => e.2.debug)).foldl (fun t e => t.leaveDebug e.1) s

theorem State.leaveDebug_get (s : State) (f g : Nat) : ((s.leaveDebug f).flocks.get g).debug = if g = f then false else (s.flocks.get g).debug := by
  rw [State.leaveDebug]
  dsimp only
  by_cases h : g = f
  · rw [if_pos h, h, Tbl.get_mod_self]
  · rw [if_neg h, Tbl.get_mod_ne _ _ h]

theorem leaveDebugs_spec (l : List (Nat × FlockSt)) (s : State) : (l.foldl (fun t e => t.leaveDebug e.1) s) =
      { s with flocks := (l.foldl (fun t e => t.leaveDebug e.1) s).flocks } ∧
    ∀ g, ((∃ e ∈ l, e.1 = g) ∨ (s.flocks.get g).debug = false) → ((l.foldl (fun t e => t.leaveDebug e.1) s).flocks.get g).debug = false := by
  induction l generalizing s with
  | nil => exact ⟨rfl, fun g hg => hg.resolve_left (by rintro ⟨e, he, -⟩; exact absurd he List.not_mem_nil)⟩
  | cons e l ih =>
    obtain ⟨h1, h2⟩ := ih (s.leaveDebug e.1)
    refine ⟨h1, fun g hg => h2 g ?_⟩
    rw [s.leaveDebug_get]
    by_cases he : g = e.1
    · rw [if_pos he]
      exact Or.inr rfl
    · rw [if_neg he]
      rcases hg with ⟨x, hx, hxg⟩ | hg
      · rcases List.mem_cons.mp hx with rfl | hx
        · exact absurd hxg.symm he
        · exact Or.inl ⟨x, hx, hxg⟩
      · exact Or.inr hg

theorem Tbl.mem_of_find?_some {α : Type} {l : Tbl α} {k : Nat} {x : α} (h : l.find? k = some x) : (k, x) ∈ l := by
  induction l with
  | nil => exact absurd h nofun
  | cons e l ih =>
    obtain ⟨a, v⟩ := e
    rw [Tbl.find?] at h
    split at h
    next ha =>
      rw [ha, Option.some.inj h]
      exact List.mem_cons_self
    next => exact List.mem_cons_of_mem _ (ih h)

theorem State.debugLeft_spec (s : State) : s.debugLeft = { s with flocks := s.debugLeft.flocks } ∧ ∀ g, (s.debugLeft.flocks.get g).debug = false := by
  obtain ⟨h1, h2⟩ := leaveDebugs_spec (s.flocks.filter (fun e => e.2.debug)) s
  refine ⟨h1, fun g => h2 g ?_⟩
  cases hg : (s.flocks.get g).debug with
  | false => exact Or.inr rfl
  | true =>
    left
    have hf : ∃ x, s.flocks.find? g = some x ∧ x.debug = true := by
      rw [Tbl.get] at hg
      cases hx : s.flocks.find? g with
      | none =>
        rw [hx] at hg
        exact absurd hg (by decide)
      | some x =>
        rw [hx] at hg
        exact ⟨x, rfl, hg⟩
    obtain ⟨x, hx, hd⟩ := hf
    exact ⟨(g, x), List.mem_filter.mpr ⟨Tbl.mem_of_find?_some hx, hd⟩, rfl⟩

/-- The token is over, and the unlock with it. -/
def State.tokenGone (s : State) : State := { s with auth := {}, sec := { s.sec with jtag := false, unlock := none } }

theorem State.endToken_eq (s : State) (h : s.auth.token.isSome = true) : s.endToken = s.debugLeft.tokenGone.event Blk.DEV 0 2 := by
  obtain ⟨k, hk⟩ := Option.isSome_iff_exists.mp h
  rw [State.endToken, hk]
  rfl

/-- The end of a token takes the unlock and the flocks' debug mode with it. -/
theorem State.endToken_spec (s : State) (h : s.auth.token.isSome = true) : s.endToken.auth = {} ∧
    s.endToken.sec = { s.sec with jtag := false, unlock := none } ∧ (∀ g, (s.endToken.flocks.get g).debug = false) ∧
    s.endToken = { s with regs := s.endToken.regs, host := s.endToken.host, flocks := s.endToken.flocks, sec := s.endToken.sec, auth := s.endToken.auth } := by
  rw [s.endToken_eq h]
  obtain ⟨h1, h2⟩ := s.debugLeft_spec
  generalize s.debugLeft = v at *
  have hw : v.tokenGone.auth = {} ∧ v.tokenGone.sec = { v.sec with jtag := false, unlock := none } ∧ v.tokenGone.flocks = v.flocks ∧
    v.tokenGone = { v with sec := v.tokenGone.sec, auth := v.tokenGone.auth } := ⟨rfl, rfl, rfl, rfl⟩
  generalize v.tokenGone = w at *
  obtain ⟨w1, w2, w3, w4⟩ := hw
  obtain ⟨r, k, he⟩ := w.event_spec Blk.DEV 0 2
  generalize w.event Blk.DEV 0 2 = x at *
  refine ⟨by rw [he, w1], by rw [he, w2, h1], fun g => by rw [he, w3]; exact h2 g, ?_⟩
  rw [he, w4, h1]

theorem State.rd_endToken (s : State) {f : Field} (hr : reportKey (f.key 0 0 0) = false) : s.endToken.rd f = s.rd f := by
  cases h : s.auth.token with
  | none => rw [State.endToken, h]
  | some k =>
    rw [s.endToken_eq (by rw [h]; rfl), State.rd_event _ _ _ _ _ _ _ _ hr]
    have hregs : s.debugLeft.tokenGone.regs = s.debugLeft.regs := rfl
    rw [State.rd_congr hregs, s.debugLeft_spec.1]
    exact State.rd_congr rfl f 0 0 0

/-- With no token, nothing ends. -/
theorem State.endToken_frame (s : State) : s.endToken = { s with regs := s.endToken.regs, host := s.endToken.host, flocks := s.endToken.flocks,
                                                                 sec := s.endToken.sec, auth := s.endToken.auth } := by
  cases h : s.auth.token with
  | none =>
    rw [State.endToken, h]
  | some k => exact (s.endToken_spec (by rw [h]; rfl)).2.2.2

theorem execTokenExpiry_ends (s : State) (k : Token) (h : s.auth.token = some k) (he : k.expiry ≤ s.time.beat) :
    ∃ t, execTokenExpiry s = .next t ∧ t.auth = {} ∧ t.sec = { s.sec with jtag := false, unlock := none } ∧
      t = { s with regs := t.regs, host := t.host, flocks := t.flocks, sec := t.sec, auth := t.auth } := by
  obtain ⟨h1, h2, -, h4⟩ := s.endToken_spec (by rw [h]; rfl)
  exact ⟨_, exec_tokenExpiry s k h he, h1, h2, h4⟩

theorem execTokenExpiry_early (s : State) (h : ∀ k, s.auth.token = some k → s.time.beat < k.expiry) : execTokenExpiry s = .next s := by
  rw [execTokenExpiry, State.tokenBeat]
  split
  next k hk => rw [if_neg (by have := h k hk; omega)]
  next => rfl

/-! ### DBG_REVOKE -/

/-- The device after the write of DBG_REVOKE. -/
def State.revokeAsked (s : State) (src : Source) : State := (s.wrote src).auditCmd src Reg.SEC.DBG_REVOKE 0 2 0 0 4

theorem State.revokeAsked_spec (s : State) (src : Source) : s.WriteOnly (s.revokeAsked src) ∧ (s.revokeAsked src).time = s.time ∧
    (s.revokeAsked src).auth = s.auth ∧ (s.revokeAsked src).acts = s.acts :=
  ⟨(s.writeOnly_wrote src).trans (State.ReportsOnly.auditCmd _ _ _ _ _ _ _ _).writeOnly, by simp [State.revokeAsked], by simp [State.revokeAsked],
    by simp [State.revokeAsked]⟩

theorem execDbgRevoke_eq (s : State) (src : Source) (h : s.Takes src true) : execDbgRevoke src s =
    .next (if (s.revokeAsked src).time.started then (s.revokeAsked src).later .tokenEnd else (s.revokeAsked src).endToken) := s.basicCmd_takes _ h

theorem State.WriteOnly.queue (h : s.WriteOnly t) (a : Act) : s.WriteLater (t.later a) := by
  rw [State.WriteOnly] at h
  rw [State.WriteLater, State.later, h]

theorem execDbgRevoke_queues (s : State) (src : Source) (h : s.Takes src true) (hs : s.time.started = true) :
    ∃ t, execDbgRevoke src s = .next t ∧ s.Queued t .tokenEnd ∧ s.WriteLater t := by
  obtain ⟨h1, h2, -, h4⟩ := s.revokeAsked_spec src
  rw [execDbgRevoke_eq s src h, if_pos (by rw [h2, hs])]
  exact ⟨_, rfl, by rw [State.Queued, State.later_acts, h4], h1.queue _⟩

theorem State.WriteOnly.endToken (h : s.WriteOnly t) :
    ({ s with auth := t.endToken.auth, flocks := t.endToken.flocks } : State).WriteOnly t.endToken := by
  have hf := t.endToken_frame
  generalize t.endToken = u at *
  rw [State.WriteOnly] at h ⊢
  rw [hf, h]

theorem execDbgRevoke_ends (s : State) (src : Source) (h : s.Takes src true) (hs : s.time.started = false) (ht : s.auth.token.isSome = true) :
    ∃ t, execDbgRevoke src s = .next t ∧ t.auth = {} ∧ t.sec.jtag = false ∧ (∀ f, (t.flocks.get f).debug = false) ∧
      ({ s with auth := t.auth, flocks := t.flocks } : State).WriteOnly t := by
  obtain ⟨h1, h2, h3, -⟩ := s.revokeAsked_spec src
  rw [execDbgRevoke_eq s src h, if_neg (by rw [h2, hs]; exact Bool.false_ne_true)]
  obtain ⟨e1, e2, e3, -⟩ := (s.revokeAsked src).endToken_spec (by rw [h3, ht])
  exact ⟨_, rfl, e1, by rw [e2], e3, h1.endToken⟩

/-! ### Tokens that are presented -/

/-- The token that the bytes of a message give. -/
def tokenOf (tok : List Byte) : Token := { perms := leAt tok 4 4, expiry := leAt tok 24 8, flocks := BitVec.ofNat 256 (leAt tok 32 32) }

/-- The result of a token's checks. -/
def State.tokenResult (s : State) (r : Nat) : State := (s.wr Reg.SEC.DBG_RESULT r).event Blk.SEC 0 1

theorem State.present_eq (s : State) (tok pub : List Byte) (jtag : Bool) : s.present tok pub jtag =
    if s.tokenCheck tok pub ≠ 0 then s.tokenResult (s.tokenCheck tok pub)
    else if (s.tokenResult (s.tokenCheck tok pub)).drawNonce.time.started then (s.tokenResult (s.tokenCheck tok pub)).drawNonce.later (.tokenStart (tokenOf tok) jtag)
      else (s.tokenResult (s.tokenCheck tok pub)).drawNonce.startToken (tokenOf tok) jtag := rfl

theorem State.tokenResult_spec (s : State) {r : Nat} (hr : r < 16) : (s.tokenResult r).rd Reg.SEC.DBG_RESULT = r ∧ s.ReportsOnly (s.tokenResult r) ∧
    (s.tokenResult r).time = s.time ∧ (s.tokenResult r).acts = s.acts := by
  have h := State.ReportsOnly.wr_event s Reg.SEC.DBG_RESULT r 0 0 0 Blk.SEC 0 1
  refine ⟨?_, h, h.stands.2.2.2, ?_⟩
  · rw [State.tokenResult, State.rd_event _ _ _ _ _ _ _ _ (by decide), State.rd_wr_self]
    exact Nat.mod_eq_of_lt hr
  · rw [State.tokenResult, State.event_acts]
    rfl

/-- A token comes into effect: the one before it ends. -/
theorem State.startToken_spec (s : State) (k : Token) (jtag : Bool) : (s.startToken k jtag).auth = { token := some k } ∧
    (s.startToken k jtag).sec.jtag = (jtag && bits k.perms 3 1 == 1) ∧ (s.startToken k jtag).regs = s.endToken.regs ∧
    s.startToken k jtag = { s with regs := (s.startToken k jtag).regs, host := (s.startToken k jtag).host, flocks := (s.startToken k jtag).flocks,
                                   sec := (s.startToken k jtag).sec, auth := (s.startToken k jtag).auth } := by
  have hf := s.endToken_frame
  rw [State.startToken]
  generalize s.endToken = v at *
  refine ⟨rfl, rfl, rfl, ?_⟩
  rw [hf]

theorem State.drawNonce_spec (s : State) : s.WriteOnly s.drawNonce ∧ s.drawNonce.regs = s.regs ∧ s.drawNonce.time = s.time ∧ s.drawNonce.acts = s.acts :=
  ⟨rfl, rfl, rfl, rfl⟩

theorem State.WriteOnly.startToken (h : s.WriteOnly t) (k : Token) (jtag : Bool) :
    ({ s with auth := (t.startToken k jtag).auth, flocks := (t.startToken k jtag).flocks } : State).WriteOnly (t.startToken k jtag) := by
  obtain ⟨-, -, -, hf⟩ := t.startToken_spec k jtag
  generalize t.startToken k jtag = u at *
  rw [State.WriteOnly] at h ⊢
  rw [hf, h]

theorem State.present_refused (s : State) (tok pub : List Byte) (jtag : Bool) (h : s.tokenCheck tok pub ≠ 0) :
    (s.present tok pub jtag).rd Reg.SEC.DBG_RESULT = s.tokenCheck tok pub ∧ s.ReportsOnly (s.present tok pub jtag) := by
  have hle := s.tokenCheck_le tok pub
  rw [State.present_eq, if_pos h]
  obtain ⟨h1, h2, -⟩ := s.tokenResult_spec (r := s.tokenCheck tok pub) (by omega)
  exact ⟨h1, h2⟩

theorem State.present_starts (s : State) (tok pub : List Byte) (jtag : Bool) (h : s.tokenCheck tok pub = 0) (hs : s.time.started = false) :
    (s.present tok pub jtag).rd Reg.SEC.DBG_RESULT = 0 ∧ (s.present tok pub jtag).auth = { token := some (tokenOf tok) } ∧
      (s.present tok pub jtag).sec.jtag = (jtag && bits (leAt tok 4 4) 3 1 == 1) ∧
      ({ s with auth := (s.present tok pub jtag).auth, flocks := (s.present tok pub jtag).flocks } : State).WriteOnly (s.present tok pub jtag) := by
  rw [State.present_eq, if_neg (not_not_intro h), h]
  obtain ⟨h1, h2, h3, -⟩ := s.tokenResult_spec (r := 0) (by decide)
  generalize s.tokenResult 0 = v at *
  obtain ⟨d1, d2, d3, -⟩ := v.drawNonce_spec
  generalize v.drawNonce = w at *
  rw [if_neg (by rw [d3, h3, hs]; exact Bool.false_ne_true)]
  obtain ⟨e1, e2, e3, -⟩ := w.startToken_spec (tokenOf tok) jtag
  refine ⟨?_, e1, e2, (h2.writeOnly.trans d1).startToken _ _⟩
  rw [State.rd_congr e3, State.rd_endToken _ (by decide), State.rd_congr d2, h1]

theorem State.present_queues (s : State) (tok pub : List Byte) (jtag : Bool) (h : s.tokenCheck tok pub = 0) (hs : s.time.started = true) :
    s.WriteLater (s.present tok pub jtag) ∧ s.Queued (s.present tok pub jtag) (.tokenStart (tokenOf tok) jtag) := by
  rw [State.present_eq, if_neg (not_not_intro h), h]
  obtain ⟨-, h2, h3, h4⟩ := s.tokenResult_spec (r := 0) (by decide)
  generalize s.tokenResult 0 = v at *
  obtain ⟨d1, -, d3, d4⟩ := v.drawNonce_spec
  generalize v.drawNonce = w at *
  rw [if_pos (by rw [d3, h3, hs])]
  exact ⟨(h2.writeOnly.trans d1).queue _, by rw [State.Queued, State.later_acts, d4, h4]⟩

/-- The device after the audit of a token that is presented. -/
def State.tokenAsked (s : State) (src : Source) (tok pub : List Byte) : State := (s.wrote src).tokenAudit src pub (s.tokenCheck tok pub)

theorem execDbgGo_eq (s : State) (src : Source) (h : s.Takes src true) : execDbgGo src s =
    .next ((s.tokenAsked src (s.regBytes Reg.SEC.DBG_TOKEN) (s.regBytes Reg.SEC.DBG_PUBKEY)).present (s.regBytes Reg.SEC.DBG_TOKEN)
      (s.regBytes Reg.SEC.DBG_PUBKEY) false) := by
  rw [State.tokenAsked, ← (s.sameSec_wrote src).tokenCheck, ← s.regBytes_wrote src (f := Reg.SEC.DBG_TOKEN) (by decide),
    ← s.regBytes_wrote src (f := Reg.SEC.DBG_PUBKEY) (by decide)]
  exact s.basicCmd_takes _ h

theorem State.tokenAsked_spec (s : State) (src : Source) (tok pub : List Byte) : s.WriteOnly (s.tokenAsked src tok pub) ∧ s.SameSec (s.tokenAsked src tok pub) ∧
    (s.tokenAsked src tok pub).acts = s.acts := by
  obtain ⟨h1, h2, -⟩ := s.audited_spec src { block := Blk.SEC, off := Reg.SEC.DBG_GO.off, source := src.num,
                                              result := if s.tokenCheck tok pub = 0 then 0 else 3, new := 1,
                                              signer := leNat ((Config.sha384 pub).take 8), kind := 4 }
  exact ⟨h1, h2, by simp [State.tokenAsked, State.tokenAudit]⟩

theorem State.WriteOnly.givenToken (h : s.WriteOnly t) (h' : ({ t with auth := u.auth, flocks := u.flocks } : State).WriteOnly u) :
    ({ s with auth := u.auth, flocks := u.flocks } : State).WriteOnly u := by
  rw [State.WriteOnly] at h h' ⊢
  rw [h', h]

theorem State.WriteOnly.thenLater (h : s.WriteOnly t) (h' : t.WriteLater u) : s.WriteLater u := h.writeLater.trans h'

theorem execDbgGo_presents (s : State) (src : Source) (tok pub : List Byte) (h : s.Takes src true) (ht : tok = s.regBytes Reg.SEC.DBG_TOKEN)
    (hp : pub = s.regBytes Reg.SEC.DBG_PUBKEY) :
    (s.tokenCheck tok pub ≠ 0 → ∃ t, execDbgGo src s = .next t ∧ t.rd Reg.SEC.DBG_RESULT = s.tokenCheck tok pub ∧ s.WriteOnly t) ∧
    (s.tokenCheck tok pub = 0 → s.time.started = false → ∃ t, execDbgGo src s = .next t ∧ t.rd Reg.SEC.DBG_RESULT = 0 ∧
      t.auth = { token := some { perms := leAt tok 4 4, expiry := leAt tok 24 8, flocks := BitVec.ofNat 256 (leAt tok 32 32) } } ∧
      ({ s with auth := t.auth, flocks := t.flocks } : State).WriteOnly t) ∧
    (s.tokenCheck tok pub = 0 → s.time.started = true → ∃ t, execDbgGo src s = .next t ∧ s.WriteLater t ∧
      s.Queued t (.tokenStart { perms := leAt tok 4 4, expiry := leAt tok 24 8, flocks := BitVec.ofNat 256 (leAt tok 32 32) } false)) := by
  rw [execDbgGo_eq s src h, ← ht, ← hp]
  obtain ⟨e1, e2, e3⟩ := s.tokenAsked_spec src tok pub
  generalize s.tokenAsked src tok pub = v at *
  have hc := e2.tokenCheck tok pub
  have hst : v.time.started = s.time.started := by rw [e2.2.2.2.2]
  refine ⟨fun h0 => ?_, fun h0 hs => ?_, fun h0 hs => ?_⟩
  · obtain ⟨a1, a2⟩ := v.present_refused tok pub false (by rw [hc]; exact h0)
    exact ⟨_, rfl, a1.trans hc, e1.trans a2.writeOnly⟩
  · obtain ⟨a1, a2, -, a4⟩ := v.present_starts tok pub false (hc.trans h0) (hst.trans hs)
    exact ⟨_, rfl, a1, a2, e1.givenToken a4⟩
  · obtain ⟨a1, a2⟩ := v.present_queues tok pub false (hc.trans h0) (hst.trans hs)
    refine ⟨_, rfl, e1.thenLater a1, ?_⟩
    rw [State.Queued] at a2 ⊢
    rw [a2, e3, tokenOf]

/-! ### The JTAG mailbox -/

/-- The audit record of a token that JTAG presents. -/
def jtagAudit (s : State) (tok pub : List Byte) : AuditRec :=
  { block := Blk.SEC, off := Reg.SEC.DBG_GO.off, source := Source.jtag.num, result := if s.tokenCheck tok pub = 0 then 0 else 3, new := 1,
    signer := leNat ((Config.sha384 pub).take 8), kind := 4 }

theorem execJtagMailbox_eq (s : State) (token pubkey : List Word) (h : s.pagesOpen = true) (tok pub : List Byte)
    (ht : tok = (token.flatMap (fun w => leBytes 4 w.toNat)).take 160) (hp : pub = (pubkey.flatMap (fun w => leBytes 4 w.toNat)).take 96) :
    execJtagMailbox token pubkey s = .next ((s.audit (jtagAudit s tok pub)).present tok pub true) := by
  rw [ht, hp]
  exact if_pos h

theorem execJtagMailbox_presents (s : State) (token pubkey : List Word) (tok pub : List Byte) (h : s.pagesOpen = true) (hs : s.time.started = false)
    (ht : tok = (token.flatMap (fun w => leBytes 4 w.toNat)).take 160) (hp : pub = (pubkey.flatMap (fun w => leBytes 4 w.toNat)).take 96) :
    (s.tokenCheck tok pub = 0 → ∃ t, execJtagMailbox token pubkey s = .next t ∧
      t.auth.token = some { perms := leAt tok 4 4, expiry := leAt tok 24 8, flocks := BitVec.ofNat 256 (leAt tok 32 32) } ∧
      t.sec.jtag = (bits (leAt tok 4 4) 3 1 == 1)) ∧
    (s.tokenCheck tok pub ≠ 0 → ∃ t, execJtagMailbox token pubkey s = .next t ∧ t.rd Reg.SEC.DBG_RESULT = s.tokenCheck tok pub ∧ s.ReportsOnly t) := by
  rw [execJtagMailbox_eq s token pubkey h tok pub ht hp]
  have e1 : s.ReportsOnly (s.audit (jtagAudit s tok pub)) := by simp [State.reportsOnly_iff]
  have e2 := s.sameSec_audit (jtagAudit s tok pub)
  generalize s.audit (jtagAudit s tok pub) = v at *
  have hc := e2.tokenCheck tok pub
  have hst : v.time.started = s.time.started := by rw [e2.2.2.2.2]
  refine ⟨fun h0 => ?_, fun h0 => ?_⟩
  · obtain ⟨-, a2, a3, -⟩ := v.present_starts tok pub true (hc.trans h0) (hst.trans hs)
    exact ⟨_, rfl, by rw [a2, tokenOf], by rw [a3, Bool.true_and]⟩
  · obtain ⟨a1, a2⟩ := v.present_refused tok pub true (by rw [hc]; exact h0)
    exact ⟨_, rfl, a1.trans hc, e1.trans a2⟩

theorem execJtagMailbox_closed (s : State) (token pubkey : List Word) (h : s.pagesOpen = false) : execJtagMailbox token pubkey s = .next s :=
  if_neg (Bool.eq_false_iff.mp h)

/-- Settles O37. -/
theorem ledgerAndTokenCommands : Obligations.LedgerAndTokenCommands :=
  ⟨execLedgerWrite_checks, execLedgerWriteEnd_writes, execLedgerWriteEnd_none, execDbgGo_presents, execDbgRevoke_queues, execDbgRevoke_ends,
    execTokenExpiry_ends, execTokenExpiry_early, execJtagMailbox_presents, execJtagMailbox_closed⟩

end Sys2Proof.Machine
end

section
/-! PROOF. Observation and debug mode (R359 to R370): O39. -/

namespace Sys2Proof.Machine

-- One thread for the proofs, which bounds the memory that checking them takes.
set_option Elab.async false

open Sys2Proof

variable {s t u : State}

/-! ### The sampler -/

theorem execSample_again (s : State) (h : s.obs.sampled = s.time.beat + 1) : execSample s = .next s := if_pos h

theorem execSample_none (s : State) (h : s.obs.sampled ≠ s.time.beat + 1) (h1 : s.dueSels = []) :
    execSample s = .next { s with obs := { s.obs with sampled := s.time.beat + 1 } } := by
  rw [execSample, if_neg h, h1]
  rfl

theorem sampleBytes_length (level beat n i sseq : Nat) (x : Sel) (vals ids : List Nat) : (sampleBytes level beat n i sseq x vals ids).length = 64 := by
  rw [sampleBytes]
  split <;> simp [length_leBytes, zeros]

theorem State.sampleOne_length (s : State) (n : Nat) (x : Sel) (i : Nat) : (s.sampleOne n x i).length = 64 := by
  rw [State.sampleOne]
  split <;> exact sampleBytes_length _ _ _ _ _ _ _ _

/-- The sample of selector n waits behind those of the beat so far, and its sequence number moves on. -/
def State.sampled (s : State) (n : Nat) (b : List Byte) : State :=
  { s with obs := { s.obs with new := s.obs.new ++ [{ q := 4, bytes := b, rank := n * 256 }]
                               sseq := s.obs.sseq.set n ((s.obs.sseq.get n + 1) % 2 ^ 32) } }

/-- One due selector of the sampler. -/
def State.sampleSel (t : State) (e : Nat × Sel) : State :=
  let t := (List.range e.2.nrep).foldl (fun t i => t.observe { q := 4, bytes := t.sampleOne e.1 e.2 i, rank := e.1 * 256 + i }) t
  { t with obs := { t.obs with sseq := t.obs.sseq.set e.1 ((t.obs.sseq.get e.1 + 1) % 2 ^ 32) } }

theorem execSample_due (s : State) (h : s.obs.sampled ≠ s.time.beat + 1) : execSample s = .next (s.dueSels.foldl State.sampleSel s.markSampled) :=
  if_neg h

theorem State.sampleSel_one (s : State) (n : Nat) (x : Sel) (h : x.nrep = 1) (hq : s.hqOff 4 = false) :
    s.sampleSel (n, x) = s.sampled n (s.sampleOne n x 0) := by
  rw [State.sampleSel]
  dsimp only
  rw [h, List.range_one, List.foldl_cons, List.foldl_nil, s.observe_queue_on { q := 4, bytes := s.sampleOne n x 0, rank := n * 256 + 0 } hq]
  simp only [State.sampled, Nat.add_zero]

theorem execSample_one (s : State) (n : Nat) (x : Sel) (h : s.obs.sampled ≠ s.time.beat + 1) (h1 : s.dueSels = [(n, x)]) (h2 : x.nrep = 1)
    (h3 : s.hqOff 4 = false) : ∃ t b, execSample s = .next t ∧ b.length = 64 ∧ t.obs.new = s.obs.new ++ [{ q := 4, bytes := b, rank := n * 256 }] ∧
    t.obs.sseq.get n = (s.obs.sseq.get n + 1) % 2 ^ 32 ∧ t = { s with obs := t.obs } := by
  have he : execSample s = .next (s.markSampled.sampled n (s.markSampled.sampleOne n x 0)) := by
    rw [execSample_due s h, h1, List.foldl_cons, List.foldl_nil, State.sampleSel_one _ n x h2 (s.markSampled_hqOff.trans h3)]
  exact ⟨_, _, he, s.markSampled.sampleOne_length n x 0, rfl, Tbl.get_set_self _ _ _, rfl⟩

theorem Sel.result_le (x : Sel) (level : Nat) : x.result level ≤ 3 := by
  rw [Sel.result]
  split_ifs <;> decide

theorem execSelectorArm_armed (src : Source) (h : s.Takes src) (hr : (s.selFields (s.rd Reg.SAMP.SEL_SEL)).result s.sec.level = 0) :
    execSelectorArm src s = .next ((((s.wrote src).wr Reg.SAMP.SEL_RESULT 0 0 0 (s.rd Reg.SAMP.SEL_SEL)).auditCmd src Reg.SAMP.ARM 0 1 0).later
      (.selArm (s.rd Reg.SAMP.SEL_SEL) (s.selFields (s.rd Reg.SAMP.SEL_SEL)).nums)) := by
  have hsel : (s.wrote src).rd Reg.SAMP.SEL_SEL = s.rd Reg.SAMP.SEL_SEL := s.rd_samp_wrote src Reg.SAMP.SEL_SEL 0 rfl
  rw [execSelectorArm, s.basicCmd_takes _ h]
  simp only [hsel, State.selFields_wrote, State.wrote_level, hr, if_true]

theorem execSelectorArm_checks (s : State) (src : Source) (n : Nat) (x : Sel) (h : s.Takes src) (h1 : n = s.rd Reg.SAMP.SEL_SEL) (h2 : n < 64)
    (h3 : x = s.selFields n) : (x.result s.sec.level = 0 → ∃ t, execSelectorArm src s = .next t ∧ s.Queued t (.selArm n x.nums) ∧
      t.rd Reg.SAMP.SEL_RESULT 0 0 n = 0 ∧ s.WriteLater t) ∧
    (x.result s.sec.level ≠ 0 → ∃ t, execSelectorArm src s = .next t ∧ t.rd Reg.SAMP.SEL_RESULT 0 0 n = x.result s.sec.level ∧ s.WriteOnly t) := by
  subst h1 h3
  constructor <;> intro hx
  · refine ⟨_, execSelectorArm_armed src h hx, by simp [State.Queued], ?_, by simp [State.writeLater_iff, State.later]⟩
    rw [State.rd_later, State.rd_auditCmd _ _ _ _ _ _ _ _ _ _ _ _ (reportKey_selResult _ h2), State.rd_wr_self]
    rfl
  · refine ⟨_, execSelectorArm_refused s src h hx, ?_, s.armRefused_writeOnly src _ _⟩
    rw [State.rd_selResult_armRefused _ _ _ _ h2]
    exact Nat.mod_eq_of_lt (Nat.lt_succ_of_le (Sel.result_le _ _))

/-! ### Watches -/

theorem State.watchResult_le (s : State) (w : Watch) (c : ACoreId) : s.watchResult w c ≤ 4 := by
  unfold State.watchResult
  split
  · decide
  · dsimp only
    split_ifs <;> decide

theorem State.watchResult_congr (hc : t.ctxs = s.ctxs) (hw : t.watches = s.watches) (w : Watch) (c : ACoreId) : t.watchResult w c = s.watchResult w c := by
  rw [State.watchResult, State.watchResult, hc, hw]

theorem reportKey_watchResult : ∀ n < 64, reportKey (Reg.SAMP.W_RESULT.key 0 0 n) = false := by decide

/-- The core that the fields of watch n name, and the watch they describe. -/
def State.watchFields (s : State) (n : Nat) : ACoreId × Watch :=
  let c : ACoreId := { flock := ⟨s.rd Reg.SAMP.W_FLOCK 0 0 n % 256, Nat.mod_lt _ (by decide)⟩, cls := if s.rd Reg.SAMP.W_CLASS 0 0 n = 1 then .bulk else .express, core := ⟨s.rd Reg.SAMP.W_CORE 0 0 n % 16, Nat.mod_lt _ (by decide)⟩ }
  (c, { ctx := s.rd Reg.SAMP.W_CTX 0 0 n, mv := s.rd Reg.SAMP.W_MV 0 0 n, core := c.num, instr := s.rd Reg.SAMP.W_INSTR 0 0 n, mode := s.rd Reg.SAMP.W_MODE 0 0 n, period := s.rd Reg.SAMP.W_PERIOD 0 0 n, armedAt := s.time.beat + b2n s.time.started })

theorem State.watchFields_wrote (s : State) (src : Source) (n : Nat) : (s.wrote src).watchFields n = s.watchFields n := by
  simp (disch := decide) only [State.watchFields, State.rd_samp_wrote, State.wrote_time]

theorem execWArm_checks (s : State) (src : Source) (n : Nat) (c : ACoreId) (w : Watch) (h : s.Takes src) (h1 : n = s.rd Reg.SAMP.WATCH_SEL) (h2 : n < 64)
    (h3 : c.flock.val = s.rd Reg.SAMP.W_FLOCK 0 0 n % 256) (h4 : c.cls = (if s.rd Reg.SAMP.W_CLASS 0 0 n = 1 then .bulk else .express))
    (h5 : c.core.val = s.rd Reg.SAMP.W_CORE 0 0 n % 16)
    (h6 : w = { ctx := s.rd Reg.SAMP.W_CTX 0 0 n, mv := s.rd Reg.SAMP.W_MV 0 0 n, core := c.num, instr := s.rd Reg.SAMP.W_INSTR 0 0 n,
                mode := s.rd Reg.SAMP.W_MODE 0 0 n, period := s.rd Reg.SAMP.W_PERIOD 0 0 n, armedAt := s.time.beat + b2n s.time.started }) :
    (s.watchResult w c = 0 → ∃ t, execWArm src s = .next t ∧ t.watches.get n = some w ∧ (∀ k, k ≠ n → t.watches.find? k = s.watches.find? k) ∧
      t.rd Reg.SAMP.W_STATE 0 0 n = 1 ∧ ({ s with watches := t.watches } : State).WriteOnly t) ∧
    (s.watchResult w c ≠ 0 → ∃ t, execWArm src s = .next t ∧ t.rd Reg.SAMP.W_RESULT 0 0 n = s.watchResult w c ∧ s.WriteOnly t) := by
  have hn : (s.wrote src).rd Reg.SAMP.WATCH_SEL = n := (s.rd_samp_wrote src _ 0 rfl).trans h1.symm
  have hf : (s.wrote src).watchFields n = (c, w) := by
    have hc : c = (s.watchFields n).1 := by
      obtain ⟨f, k, m⟩ := c
      simp only at h3 h4 h5
      simp only [State.watchFields, ← h3, h4, ← h5]
    rw [s.watchFields_wrote, h6, hc]
    rfl
  have he : execWArm src s = .next (if s.watchResult w c = 0 then
      { (((s.wrote src).wr Reg.SAMP.W_RESULT (s.watchResult w c) 0 0 n).auditCmd src Reg.SAMP.W_ARM 0 1 0).wr Reg.SAMP.W_STATE 1 0 0 n with
        watches := (((s.wrote src).wr Reg.SAMP.W_RESULT (s.watchResult w c) 0 0 n).auditCmd src Reg.SAMP.W_ARM 0 1 0).watches.put n (some w) }
      else ((s.wrote src).wr Reg.SAMP.W_RESULT (s.watchResult w c) 0 0 n).auditCmd src Reg.SAMP.W_ARM 0 1 3) := by
    have hb : execWArm src s = .next ((fun (s : State) (n : Nat) (p : ACoreId × Watch) =>
        let r := s.watchResult p.2 p.1
        let s := (s.wr Reg.SAMP.W_RESULT r 0 0 n).auditCmd src Reg.SAMP.W_ARM 0 1 (if r = 0 then 0 else 3)
        if r = 0 then { s.wr Reg.SAMP.W_STATE 1 0 0 n with watches := s.watches.put n (some p.2) } else s)
          (s.wrote src) ((s.wrote src).rd Reg.SAMP.WATCH_SEL) ((s.wrote src).watchFields ((s.wrote src).rd Reg.SAMP.WATCH_SEL))) :=
      s.basicCmd_takes _ h
    rw [hb, hn, hf]
    dsimp only
    rw [State.watchResult_congr (s.wrote_ctxs src) (s.wrote_watches src)]
    split <;> rfl
  rw [he]
  constructor <;> intro hx
  · rw [if_pos hx]
    refine ⟨_, rfl, by simp [Tbl.get, Tbl.find?_put_self], fun k hk => ?_, State.rd_wr_self _ Reg.SAMP.W_STATE 1 0 0 n, by simp [State.writeOnly_iff]⟩
    simp [Tbl.find?_put_ne _ _ hk]
  · rw [if_neg hx]
    refine ⟨_, rfl, ?_, by simp [State.writeOnly_iff]⟩
    rw [State.rd_auditCmd _ _ _ _ _ _ _ _ _ _ _ _ (reportKey_watchResult n h2), State.rd_wr_self]
    exact Nat.mod_eq_of_lt (Nat.lt_of_le_of_lt (s.watchResult_le w c) (by decide))

theorem execWDisarm_queues (s : State) (src : Source) (h : s.Takes src) : ∃ t, execWDisarm src s = .next t ∧
    s.Queued t (.watchOff (s.rd Reg.SAMP.WATCH_SEL)) ∧ s.WriteLater t := by
  refine ⟨_, s.basicCmd_takes _ h, ?_, by simp [State.writeLater_iff, State.later]⟩
  rw [s.rd_samp_wrote src _ 0 rfl]
  simp [State.Queued, State.later]

/-! ### Debug mode -/

theorem State.rd_dbgResult (s : State) (src : Source) {r : Nat} (f : Field) (n c : Nat) (h : r < 4) :
    ((s.dbgResult r).auditCmd src f 0 n c).rd Reg.DBG.DBG_RESULT = r := by
  rw [State.rd_auditCmd _ _ _ _ _ _ _ _ _ _ _ _ (by decide), State.dbgResult, State.rd_wr_self]
  exact Nat.mod_eq_of_lt h

theorem State.writeOnly_dbgResult (s : State) (src : Source) (r : Nat) (f : Field) (n c : Nat) :
    s.WriteOnly (((s.wrote src).dbgResult r).auditCmd src f 0 n c) := by
  simp [State.writeOnly_iff, State.dbgResult]

theorem State.dbgResult_acts (s : State) (src : Source) (r : Nat) (f : Field) (n c : Nat) :
    (((s.wrote src).dbgResult r).auditCmd src f 0 n c).acts = s.acts := by
  simp [State.dbgResult]

theorem rd_wrote_dbgFlock (src : Source) {f : Nat} (hf : f = s.rd Reg.DBG.DBG_FLOCK) : (s.wrote src).rd Reg.DBG.DBG_FLOCK = f :=
  (s.rd_wrote src _ _ _ _ (by decide)).trans hf.symm

section
variable {src : Source} {f : Nat} (h : s.Takes src) (hf : f = s.rd Reg.DBG.DBG_FLOCK)
include h hf

/-- What ENTER answers. -/
def State.enterResult (s : State) (f : Nat) : Nat :=
  match s.auth.token with
  | none => 1
  | some t => if bits t.perms 0 1 = 0 then 1 else if t.flocks.getLsbD f then 0 else 2

theorem execDbgEnter_eq {r : Nat} (hr : s.enterResult f = r) : execDbgEnter src s = .next (if r = 0 then
    (((s.wrote src).dbgResult r).auditCmd src Reg.DBG.ENTER 0 1 0).later (.dbgEnter f)
    else ((s.wrote src).dbgResult r).auditCmd src Reg.DBG.ENTER 0 1 3) := by
  have hb : execDbgEnter src s = .next ((fun (s : State) (f r : Nat) =>
      let s := (s.dbgResult r).auditCmd src Reg.DBG.ENTER 0 1 (if r = 0 then 0 else 3)
      if r = 0 then s.later (.dbgEnter f) else s) (s.wrote src) ((s.wrote src).rd Reg.DBG.DBG_FLOCK)
        ((s.wrote src).enterResult ((s.wrote src).rd Reg.DBG.DBG_FLOCK))) := s.basicCmd_takes _ h
  have he : (s.wrote src).enterResult f = r := by
    rw [State.enterResult, s.wrote_auth]
    exact hr
  rw [hb, rd_wrote_dbgFlock src hf, he]
  dsimp only
  split <;> rfl

theorem execDbgEnter_refused {r : Nat} (hr : s.enterResult f = r) (h0 : r ≠ 0) (h4 : r < 4) :
    ∃ t, execDbgEnter src s = .next t ∧ t.rd Reg.DBG.DBG_RESULT = r ∧ s.WriteOnly t := by
  rw [execDbgEnter_eq h hf hr, if_neg h0]
  exact ⟨_, rfl, State.rd_dbgResult _ src _ _ _ h4, s.writeOnly_dbgResult src _ _ _ _⟩

theorem execDbgEnter_taken (hr : s.enterResult f = 0) :
    ∃ t, execDbgEnter src s = .next t ∧ s.Queued t (.dbgEnter f) ∧ t.rd Reg.DBG.DBG_RESULT = 0 ∧ s.WriteLater t := by
  rw [execDbgEnter_eq h hf hr, if_pos rfl]
  refine ⟨_, rfl, ?_, ?_, State.WriteOnly.queue (s.writeOnly_dbgResult src _ _ _ _) _⟩
  · rw [State.Queued, State.later_acts, s.dbgResult_acts]
  · rw [State.rd_later, State.rd_dbgResult _ src _ _ _ (by decide)]

theorem execDbgLeave_in (hd : (s.flocks.get f).debug = true) :
    ∃ t, execDbgLeave src s = .next t ∧ s.Queued t (.dbgLeave f) ∧ t.rd Reg.DBG.DBG_RESULT = 0 ∧ s.WriteLater t := by
  refine ⟨_, s.basicCmd_takes _ h, ?_⟩
  simp only [rd_wrote_dbgFlock src hf, State.wrote_flocks, hd, if_true]
  refine ⟨?_, ?_, State.WriteOnly.queue (s.writeOnly_dbgResult src _ _ _ _) _⟩
  · rw [State.Queued, State.later_acts, s.dbgResult_acts]
  · rw [State.rd_later, State.rd_dbgResult _ src _ _ _ (by decide)]

theorem execDbgLeave_out (hd : (s.flocks.get f).debug = false) :
    ∃ t, execDbgLeave src s = .next t ∧ t.rd Reg.DBG.DBG_RESULT = 3 ∧ s.WriteOnly t := by
  refine ⟨_, s.basicCmd_takes _ h, ?_⟩
  simp only [rd_wrote_dbgFlock src hf, State.wrote_flocks, hd, Bool.false_eq_true, if_false]
  exact ⟨State.rd_dbgResult _ src _ _ _ (by decide), s.writeOnly_dbgResult src _ _ _ _⟩

theorem execHalt_in (hd : (s.flocks.get f).debug = true) (v : Bool) : ∃ t, execHalt src v s = .next t ∧ s.Queued t (.halt f v) ∧
    t.rd Reg.DBG.HALT = b2n v ∧ t.rd Reg.DBG.DBG_RESULT = 0 ∧ s.WriteLater t := by
  refine ⟨_, s.basicCmd_takes _ h, ?_⟩
  simp only [rd_wrote_dbgFlock src hf, State.wrote_flocks, hd, if_true]
  refine ⟨by simp [State.Queued, State.dbgResult], ?_, ?_, by simp [State.writeLater_iff, State.later, State.dbgResult]⟩
  · rw [State.rd_later, State.rd_wr_self]
    cases v <;> rfl
  · rw [State.rd_later, State.rd_wr_ne _ _ _ _ _ _ _ _ _ _ (by decide), State.rd_audit _ _ _ _ _ _ (by decide), State.dbgResult, State.rd_wr_self]
    rfl

theorem execHalt_out (hd : (s.flocks.get f).debug = false) (v : Bool) : ∃ t, execHalt src v s = .next t ∧ t.rd Reg.DBG.DBG_RESULT = 3 ∧ s.WriteOnly t := by
  refine ⟨_, s.basicCmd_takes _ h, ?_⟩
  simp only [rd_wrote_dbgFlock src hf, State.wrote_flocks, hd, Bool.false_eq_true, if_false]
  refine ⟨?_, by simp [State.writeOnly_iff, State.dbgResult]⟩
  rw [State.rd_audit _ _ _ _ _ _ (by decide), State.dbgResult, State.rd_wr_self]
  rfl

theorem execStepf_halted (hd : (s.flocks.get f).debug = true) (hh : (s.flocks.get f).halted = true) :
    ∃ t, execStepf src s = .next t ∧ s.Queued t (.stepf f) ∧ s.WriteLater t := by
  refine ⟨_, s.basicCmd_takes _ h, ?_⟩
  simp only [rd_wrote_dbgFlock src hf, State.wrote_flocks, hd, hh, Bool.and_self, if_true]
  refine ⟨?_, State.WriteOnly.queue (s.writeOnly_dbgResult src _ _ _ _) _⟩
  rw [State.Queued, State.later_acts, s.dbgResult_acts]

theorem execStepf_running (hh : (s.flocks.get f).halted = false) :
    ∃ t, execStepf src s = .next t ∧ t.rd Reg.DBG.DBG_RESULT = 3 ∧ s.WriteOnly t := by
  refine ⟨_, s.basicCmd_takes _ h, ?_⟩
  simp only [rd_wrote_dbgFlock src hf, State.wrote_flocks, hh, Bool.and_false, Bool.false_eq_true, if_false]
  exact ⟨State.rd_dbgResult _ src _ _ _ (by decide), s.writeOnly_dbgResult src _ _ _ _⟩

end

theorem debugMode_commands (s : State) (src : Source) (f : Nat) (h : s.Takes src) (hf : f = s.rd Reg.DBG.DBG_FLOCK) :
    (s.auth.token = none → ∃ t, execDbgEnter src s = .next t ∧ t.rd Reg.DBG.DBG_RESULT = 1 ∧ s.WriteOnly t) ∧
    (∀ k, s.auth.token = some k → bits k.perms 0 1 = 1 → k.flocks.getLsbD f = true →
      ∃ t, execDbgEnter src s = .next t ∧ s.Queued t (.dbgEnter f) ∧ t.rd Reg.DBG.DBG_RESULT = 0 ∧ s.WriteLater t) ∧
    (∀ k, s.auth.token = some k → bits k.perms 0 1 = 1 → k.flocks.getLsbD f = false →
      ∃ t, execDbgEnter src s = .next t ∧ t.rd Reg.DBG.DBG_RESULT = 2 ∧ s.WriteOnly t) ∧
    ((s.flocks.get f).debug = true → ∃ t, execDbgLeave src s = .next t ∧ s.Queued t (.dbgLeave f) ∧ t.rd Reg.DBG.DBG_RESULT = 0 ∧ s.WriteLater t) ∧
    ((s.flocks.get f).debug = false → ∃ t, execDbgLeave src s = .next t ∧ t.rd Reg.DBG.DBG_RESULT = 3 ∧ s.WriteOnly t) ∧
    ((s.flocks.get f).debug = true → ∀ v, ∃ t, execHalt src v s = .next t ∧ s.Queued t (.halt f v) ∧ t.rd Reg.DBG.HALT = b2n v ∧
      t.rd Reg.DBG.DBG_RESULT = 0 ∧ s.WriteLater t) ∧
    ((s.flocks.get f).debug = false → ∀ v, ∃ t, execHalt src v s = .next t ∧ t.rd Reg.DBG.DBG_RESULT = 3 ∧ s.WriteOnly t) ∧
    ((s.flocks.get f).debug = true → (s.flocks.get f).halted = true → ∃ t, execStepf src s = .next t ∧ s.Queued t (.stepf f) ∧ s.WriteLater t) ∧
    ((s.flocks.get f).halted = false → ∃ t, execStepf src s = .next t ∧ t.rd Reg.DBG.DBG_RESULT = 3 ∧ s.WriteOnly t) := by
  refine ⟨fun hk => ?_, fun k hk hp hl => ?_, fun k hk hp hl => ?_, execDbgLeave_in h hf, execDbgLeave_out h hf, execHalt_in h hf, execHalt_out h hf,
    execStepf_halted h hf, execStepf_running h hf⟩
  · exact execDbgEnter_refused h hf (by simp [State.enterResult, hk]) (by decide) (by decide)
  · exact execDbgEnter_taken h hf (by simp [State.enterResult, hk, hp, hl])
  · exact execDbgEnter_refused h hf (by simp [State.enterResult, hk, hp, hl]) (by decide) (by decide)

theorem State.memWordAt_wrote (s : State) (src : Source) (f : Nat) : (s.wrote src).memWordAt f = s.memWordAt f := by
  simp (disch := decide) only [State.memWordAt, State.pickCore, State.rd_wrote_high]

theorem execMemDataWrite_checks (s : State) (src : Source) (f : Flock) (v : DWord) (c : ACoreId) (a : Nat) (h : s.Takes src)
    (h1 : (c, a) = s.memWordAt f.val) :
    ((s.flocks.get f.val).halted = true → a < ACoreId.memBytes c → ∃ t, execMemDataWrite src f v s = .next t ∧
      Mem.readN t.arr.mem (ACoreId.base c + a) 8 = leBytes 8 v.toNat ∧
      (∀ b, (b < ACoreId.base c + a ∨ ACoreId.base c + a + 8 ≤ b) → Mem.read t.arr.mem b = Mem.read s.arr.mem b) ∧
      t.rd Reg.DBG.DBG_RESULT = 0 ∧ ({ s with arr := t.arr } : State).WriteOnly t) ∧
    ((s.flocks.get f.val).halted = false → ∃ t, execMemDataWrite src f v s = .next t ∧ t.rd Reg.DBG.DBG_RESULT = 3 ∧ s.WriteOnly t) := by
  have hw : (s.wrote src).memWordAt f.val = (c, a) := (s.memWordAt_wrote src f.val).trans h1.symm
  constructor
  · intro hh ha
    refine ⟨_, s.basicCmd_takes _ h, ?_⟩
    simp only [hw, s.wrote_flocks, hh, ha, not_true_eq_false, if_true, if_false]
    refine ⟨?_, fun b hb => ?_, ?_, by simp [State.writeOnly_iff, State.dbgResult, State.coreStore]⟩
    · exact Mem.readN_writeN _ _ (leBytes 8 v.toNat)
    · rw [State.coreStore, Mem.read_writeN_ne _ _ _ _ (by rw [length_leBytes]; exact hb)]
      simp [State.dbgResult]
    · exact State.rd_wr_self (State.audit _ _) Reg.DBG.DBG_RESULT 0 0 0 0
  · intro hh
    refine ⟨_, s.basicCmd_takes _ h, ?_⟩
    simp only [hw, s.wrote_flocks, hh, Bool.false_eq_true, not_false_eq_true, if_true, if_false]
    exact ⟨State.rd_wr_self _ _ _ _ _ _, by simp [State.writeOnly_iff, State.dbgResult]⟩

/-! ### Writing the items -/

theorem execObservationWrite_safe (s : State) (h : s.devSafe = true) : execObservationWrite s = .next s := if_pos h

/-- The run over a single new item. -/
theorem execObservationWrite_one (s : State) (it : ObsItem) (h : s.devSafe = false) (h1 : s.obs.wait = []) (h2 : s.obs.new = [it]) {r : ObsRun}
    (hr : ObsRun.item { s := s, left := s.act Reg.SAMP.CAP_BYTES - s.obs.spent, stop := false, wait := [] } true it = r) :
    execObservationWrite s =
      .next { r.s with obs := { r.s.obs with new := [], wait := r.wait, spent := s.act Reg.SAMP.CAP_BYTES - r.left } } := by
  rw [execObservationWrite, if_neg (Bool.eq_false_iff.mp h)]
  simp only [h1, h2, rankItems, insertItem, List.foldl_cons, List.foldl_nil, hr]

theorem State.writeItem_sample (s : State) (it : ObsItem) (ha : it.addr = 0) (hq : it.q = 4) (hf : s.act Reg.SAMP.FWD_EN = 0) :
    s.writeItem it = (s.hqProduce 4 it.bytes).bump Reg.SAMP.RECORDS := by
  have hf' : ((s.hqProduce 4 it.bytes).bump Reg.SAMP.RECORDS).act Reg.SAMP.FWD_EN = 0 := by simpa [State.act] using hf
  rw [State.writeItem, if_neg (not_not.2 ha), hq]
  exact if_pos hf'

theorem State.counts_writeItem (s : State) (bs : List Byte) : s.Counts ((s.hqProduce 4 bs).bump Reg.SAMP.RECORDS) Reg.SAMP.RECORDS := by
  have hk : (s.hqProduce 4 bs).rd Reg.SAMP.RECORDS = s.rd Reg.SAMP.RECORDS := by
    rw [State.rd, State.rd, s.hqProduce_find 4 _ bs (by decide) (by decide)]
  rw [State.Counts, State.rd_bump, hk]

theorem State.ReportsOnly.givenObs (h : s.ReportsOnly t) (hu : u = { t with obs := u.obs }) : ({ s with obs := u.obs } : State).ReportsOnly u := by
  rw [State.ReportsOnly] at h
  rw [hu, h]
  rfl

theorem State.reportsOnly_writeItem (s : State) (bs : List Byte) : s.ReportsOnly ((s.hqProduce 4 bs).bump Reg.SAMP.RECORDS) := by
  simp [State.reportsOnly_iff]

section
variable {it : ObsItem} (h3 : it.addr = 0) (h4 : it.q = 4) (h6 : s.hqOff 4 = false)
include h3 h4 h6

theorem ObsRun.item_fits (left : Nat) (new : Bool) (wait : List ObsItem) (hc : it.cost ≤ left) :
    ObsRun.item { s := s, left := left, stop := false, wait := wait } new it =
      { s := s.writeItem it, left := left - it.cost, stop := false, wait := wait } := by
  rw [ObsRun.item, if_neg (fun hn => hn.1 h3), h4, if_neg (fun hn => absurd (h6.symm.trans hn.2) Bool.false_ne_true),
    if_pos ⟨Bool.false_ne_true, .inl hc⟩]

theorem ObsRun.item_waits (left : Nat) (h5 : it.done = 0) (hc : left < it.cost) (ho : s.act Reg.SAMP.CAP_OFF = 0) (hb : it.bytes.length ≤ 262144) :
    ObsRun.item { s := s, left := left, stop := false, wait := [] } true it =
      { s := s.bump Reg.SAMP.CAP_WAIT, left := left, stop := true, wait := [it] } := by
  have hne : ¬ (it.cost ≤ left ∨ s.act Reg.SAMP.CAP_OFF = 1) := by omega
  obtain ⟨q, bytes, rank, addr, due, done⟩ := it
  obtain rfl : done = 0 := h5
  obtain rfl : addr = 0 := h3
  obtain rfl : q = 4 := h4
  rw [ObsRun.item, if_neg (fun hn => hn.1 rfl), if_neg (fun hn => absurd (h6.symm.trans hn.2) Bool.false_ne_true), if_neg (fun hn => hne hn.2)]
  simp [ObsItem.room, hb]

end

theorem execObservationWrite_item (s : State) (it : ObsItem) (h : s.devSafe = false) (h1 : s.obs.wait = []) (h2 : s.obs.new = [it]) (h3 : it.addr = 0)
    (h4 : it.q = 4) (h5 : it.done = 0) (h6 : s.hqOff 4 = false) (h7 : s.act Reg.SAMP.FWD_EN = 0) (h8 : s.obs.spent ≤ s.act Reg.SAMP.CAP_BYTES) :
    (it.bytes.length + 64 ≤ s.act Reg.SAMP.CAP_BYTES - s.obs.spent → ∃ t, execObservationWrite s = .next t ∧ t.obs.new = [] ∧ t.obs.wait = [] ∧
      s.Counts t Reg.SAMP.RECORDS ∧ t.obs.spent = s.obs.spent + it.bytes.length + 64 ∧ ({ s with obs := t.obs } : State).ReportsOnly t) ∧
    (s.act Reg.SAMP.CAP_BYTES - s.obs.spent < it.bytes.length + 64 → s.act Reg.SAMP.CAP_OFF = 0 → it.bytes.length ≤ 262144 →
      ∃ t, execObservationWrite s = .next t ∧ t.obs.new = [] ∧ t.obs.wait = [it] ∧ s.Counts t Reg.SAMP.CAP_WAIT ∧ t.obs.spent = s.obs.spent ∧
        t = { s with regs := t.regs, obs := t.obs }) := by
  have hcost : it.cost = it.bytes.length + 64 := by rw [ObsItem.cost, h5, Nat.sub_zero]
  refine ⟨fun hc => ?_, fun hc ho hb => ?_⟩
  · have hr := ObsRun.item_fits h3 h4 h6 (s.act Reg.SAMP.CAP_BYTES - s.obs.spent) true [] (hcost.trans_le hc)
    rw [s.writeItem_sample it h3 h4 h7] at hr
    refine ⟨_, execObservationWrite_one s it h h1 h2 hr, rfl, rfl, ?_, ?_, ?_⟩
    · exact s.counts_writeItem it.bytes
    · show s.act Reg.SAMP.CAP_BYTES - (s.act Reg.SAMP.CAP_BYTES - s.obs.spent - it.cost) = _
      omega
    · exact State.ReportsOnly.givenObs (s.reportsOnly_writeItem it.bytes) rfl
  · have hr := ObsRun.item_waits h3 h4 h6 (s.act Reg.SAMP.CAP_BYTES - s.obs.spent) h5 (hc.trans_eq hcost.symm) ho hb
    refine ⟨_, execObservationWrite_one s it h h1 h2 hr, rfl, rfl, ?_, ?_, rfl⟩
    · exact State.rd_bump _ _ _ _ _
    · show s.act Reg.SAMP.CAP_BYTES - (s.act Reg.SAMP.CAP_BYTES - s.obs.spent) = _
      omega

/-- Settles O39. -/
theorem observationCommands : Obligations.ObservationCommands :=
  ⟨execSample_again, execSample_none, execSample_one, execSelectorArm_checks, execWArm_checks, execWDisarm_queues, execObservationWrite_safe,
    execObservationWrite_item, debugMode_commands, execMemDataWrite_checks⟩

end Sys2Proof.Machine
end

section
/-! PROOF. Host accesses to device memory (R207, R281 to R283): O31. -/

namespace Sys2Proof.Machine

-- One thread for the proofs, which bounds the memory that checking them takes.
set_option Elab.async false

open Sys2Proof

variable {s t u : State}

/-! ### The pieces of a write -/

theorem Mem.writeN_append (m : Mem) (a : Nat) (xs ys : List Byte) : Mem.writeN m a (xs ++ ys) = Mem.writeN (Mem.writeN m a xs) (a + xs.length) ys := by
  induction xs generalizing m a with
  | nil => rfl
  | cons x xs ih =>
    rw [List.cons_append, Mem.writeN, Mem.writeN, ih, List.length_cons, Nat.add_assoc, Nat.add_comm 1]

/-- The first k pieces write the bytes up to the end of their last line. -/
theorem foldl_first_pieces (m : Mem) (a : Nat) (d : List Byte) (k : Nat) (hk : k ≠ 0 → (a / 64 + k - 1) * 64 < a + d.length) :
    ((List.range k).map (fun i => (Nat.max a ((a / 64 + i) * 64), slice d (Nat.max a ((a / 64 + i) * 64) - a)
      (Nat.min (a + d.length) ((a / 64 + i) * 64 + 64) - Nat.max a ((a / 64 + i) * 64))))).foldl (fun m p => Mem.writeN m p.1 p.2) m =
    Mem.writeN m a (d.take ((a / 64 + k) * 64 - a)) := by
  induction k with
  | zero =>
    have h0 : (a / 64 + 0) * 64 - a = 0 := by omega
    rw [h0]
    rfl
  | succ k ih =>
    have hlt : (a / 64 + k) * 64 < a + d.length := by simpa using hk (by omega)
    have hmax : Nat.max a ((a / 64 + k) * 64) = a + ((a / 64 + k) * 64 - a) := by
      show max a _ = _
      omega
    rw [List.range_succ, List.map_append, List.foldl_append, ih (fun _ => by omega), List.map_singleton, List.foldl_cons, List.foldl_nil, hmax,
      Nat.add_sub_cancel_left]
    generalize hx : (a / 64 + k) * 64 - a = x
    have hy : d.take ((a / 64 + (k + 1)) * 64 - a) = d.take x ++ slice d x (Nat.min (a + d.length) ((a / 64 + k) * 64 + 64) - (a + x)) := by
      rw [slice, ← List.take_add]
      have hm : Nat.min (a + d.length) ((a / 64 + k) * 64 + 64) = min (a + d.length) ((a / 64 + k) * 64 + 64) := rfl
      rw [hm]
      by_cases hc : a + d.length ≤ (a / 64 + k) * 64 + 64
      · rw [List.take_of_length_le (by omega), List.take_of_length_le (by omega)]
      · congr 1
        omega
    rw [hy, Mem.writeN_append, List.length_take, Nat.min_eq_left (by omega)]

theorem foldl_pieces (m : Mem) (a : Nat) (d : List Byte) : (pieces a d).foldl (fun m p => Mem.writeN m p.1 p.2) m = Mem.writeN m a d := by
  rw [pieces, linesOf]
  split
  next h => rw [List.length_eq_zero_iff.1 h]; rfl
  next h =>
    rw [List.map_map]
    refine (foldl_first_pieces m a d ((a + d.length - 1) / 64 - a / 64 + 1) (fun _ => by omega)).trans ?_
    rw [List.take_of_length_le (by omega)]

theorem pieces_ne_nil {a : Nat} {d : List Byte} (h : d ≠ []) : pieces a d ≠ [] := by
  have hl : d.length ≠ 0 := fun h0 => h (List.length_eq_zero_iff.1 h0)
  simp [pieces, linesOf, hl]

/-! ### Writes of the cycle -/

/-- Every write of the cycle so far is ranked r at most. -/
def State.LateBelow (s : State) (r : Nat) : Prop := ∀ w ∈ s.cycLate, w.1 ≤ r

theorem State.hbmPutAs_late (s : State) (r a : Nat) (bs : List Byte) (hr : r ≠ 0) : (s.hbmPutAs r a bs).cycLate = s.cycLate ++ [(r, a, bs)] := by
  unfold State.hbmPutAs
  extract_lets n late old m t
  obtain ⟨f, hf⟩ : ∃ f, t = { s with hbm := m, flt := f } := State.touchLines_flt _ { s with hbm := m } a n
  rw [hf, if_neg hr]
  exact if_pos rfl

theorem State.LateBelow.put {r : Nat} (h : s.LateBelow r) (hr : r ≠ 0) (a : Nat) (bs : List Byte) : (s.hbmPutAs r a bs).LateBelow r := by
  intro w hw
  rw [s.hbmPutAs_late r a bs hr] at hw
  obtain hw | hw := List.mem_append.1 hw
  · exact h w hw
  · rw [List.mem_singleton.1 hw]

theorem State.LateBelow.hbm {r : Nat} (h : s.LateBelow r) (a : Nat) (bs : List Byte) : (s.hbmPutAs r a bs).hbm = Mem.writeN s.hbm a bs := by
  unfold State.hbmPutAs
  extract_lets n late old m t
  have hn : late.filter (fun w => decide (r < w.1)) = [] :=
    List.filter_eq_nil_iff.2 fun w hw => by simpa using h w hw
  have hm : m = Mem.writeN s.hbm a bs := by
    simp only [m, hn, List.foldl_nil]
  obtain ⟨f, hf⟩ : ∃ f, t = { s with hbm := m, flt := f } := State.touchLines_flt _ { s with hbm := m } a n
  rw [hf, ← hm]

/-- A run of host writes writes each of them, where nothing of the cycle comes after a host's. -/
theorem State.LateBelow.puts (l : List (Nat × List Byte)) (h : s.LateBelow 2) :
    ∃ f, l.foldl (fun t p => t.hbmPutAs 2 p.1 p.2) s = { s with hbm := l.foldl (fun m p => Mem.writeN m p.1 p.2) s.hbm, flt := f } := by
  induction l generalizing s with
  | nil => exact ⟨s.flt, rfl⟩
  | cons p l ih =>
    obtain ⟨m, f, hp⟩ := s.hbmPutAs_spec 2 p.1 p.2
    obtain ⟨g, hg⟩ := ih (h.put (by decide) p.1 p.2)
    refine ⟨g, ?_⟩
    rw [List.foldl_cons, List.foldl_cons, hg, h.hbm p.1 p.2, hp]

/-! ### Accesses that reach nothing -/

theorem execHostRead_faults (s : State) (a n : Nat) (apt : Option (List Byte)) (h : 2 ^ 40 < a + n) :
    execHostRead a n apt s = .fault (.noDeviceAddress a) := if_pos h

theorem execHostWrite_faults (s : State) (a : Nat) (d : List Byte) (ok : Bool) (h : 2 ^ 40 < a + d.length) :
    execHostWrite a d ok s = .fault (.noDeviceAddress a) := if_pos h

theorem execHostRead_unreached (s : State) (a n : Nat) (apt : Option (List Byte)) (h : a + n ≤ 2 ^ 40) (h1 : s.hostReach a n = false) :
    execHostRead a n apt s = .next s := by
  rw [execHostRead, if_neg (Nat.not_lt.2 h), if_pos (by rw [h1]; exact Bool.false_ne_true)]

theorem execHostWrite_unreached (s : State) (a : Nat) (d : List Byte) (ok : Bool) (h : a + d.length ≤ 2 ^ 40) (h1 : s.hostReach a d.length = false) :
    execHostWrite a d ok s = .next s := by
  rw [execHostWrite, if_neg (Nat.not_lt.2 h), if_pos (by rw [h1]; exact Bool.false_ne_true)]

/-! ### Reads -/

section
variable {a n : Nat} (h : a + n ≤ 2 ^ 40) (h1 : s.hostReach a n = true)
include h h1

theorem execHostRead_data (apt : Option (List Byte)) (h2 : apertureOf a = none) (h3 : s.hbmUe a n = none) :
    execHostRead a n apt s = .next { s with host := { s.host with readData := (List.range n).map (fun i => s.hostByte (a + i)), readPoison := false } } := by
  rw [execHostRead, if_neg (Nat.not_lt.2 h), if_neg (not_not.2 h1), h2]
  dsimp only
  rw [h3]
  rfl

theorem execHostRead_poisoned {l : Nat} (apt : Option (List Byte)) (h2 : apertureOf a = none) (h3 : s.hbmUe a n = some l) : ∃ r, execHostRead a n apt s =
    .next ((((s.countUe l).bump Reg.CXL.POISON_RD).hostData ((List.range n).map (fun i => s.hostByte (a + i))) true).fault r) := by
  rw [execHostRead, if_neg (Nat.not_lt.2 h), if_neg (not_not.2 h1), h2]
  dsimp only
  rw [h3]
  exact ⟨_, rfl⟩

theorem execHostRead_answered {k : Nat} (bs : List Byte) (h2 : apertureOf a = some k) (h3 : s.aptOk k = true) :
    execHostRead a n (some bs) s = .next ((s.aptAccess k 17 a n []).hostData ((bs ++ zeros n).take n) false) := by
  rw [execHostRead, if_neg (Nat.not_lt.2 h), if_neg (not_not.2 h1), h2]
  dsimp only
  rw [if_neg (not_not.2 h3)]

theorem execHostRead_unanswered {k : Nat} (h2 : apertureOf a = some k) (h3 : s.aptOk k = true) :
    execHostRead a n none s = .next (((s.aptAccess k 17 a n []).hostData (zeros n) true).bump Reg.CXL.APT_ERR) := by
  rw [execHostRead, if_neg (Nat.not_lt.2 h), if_neg (not_not.2 h1), h2]
  dsimp only
  rw [if_neg (not_not.2 h3)]

theorem execHostRead_noWindow {k : Nat} (apt : Option (List Byte)) (h2 : apertureOf a = some k) (h3 : s.aptOk k = false) :
    execHostRead a n apt s = .next ((s.hostData (zeros n) true).bump Reg.CXL.APT_ERR) := by
  rw [execHostRead, if_neg (Nat.not_lt.2 h), if_neg (not_not.2 h1), h2]
  dsimp only
  rw [if_pos (by rw [h3]; exact Bool.false_ne_true)]

end

theorem execHostRead_quiet (s : State) (a n : Nat) (apt : Option (List Byte)) (h : a + n ≤ 2 ^ 40) (h1 : s.hostReach a n = true) (h2 : apertureOf a = none)
    (h3 : s.hbmUe a n = none) (h4 : ∀ k < n, (s.regionOf (a + k)).isSome = true) (h5 : s.cycOld = []) :
    execHostRead a n apt s = .next { s with host := { s.host with readData := Mem.readN s.hbm a n, readPoison := false } } := by
  have hd : (List.range n).map (fun i => s.hostByte (a + i)) = Mem.readN s.hbm a n := by
    refine List.map_congr_left fun k hk => ?_
    rw [State.hostByte, if_pos (h4 k (List.mem_range.1 hk)), State.byteBefore, h5]
    rfl
  rw [execHostRead_data h h1 apt h2 h3, hd]

theorem execHostRead_reads (s : State) (a n : Nat) (apt : Option (List Byte)) (h : a + n ≤ 2 ^ 40) (h1 : s.hostReach a n = true) (h2 : apertureOf a = none)
    (h3 : s.hbmUe a n = none) : execHostRead a n apt s =
      .next { s with host := { s.host with readData := (List.range n).map (fun i => s.hostByte (a + i)), readPoison := false } } :=
  execHostRead_data h h1 apt h2 h3

theorem stackOf_lt (a : Nat) : stackOf a < 8 := Nat.mod_lt _ (by decide)

/-- A field of another page keeps its value when an uncorrectable line is counted. -/
theorem State.rd_countUe (s : State) (l : Nat) {g : Field} (hl : g.lo < 64) (ho : g.off < 4096) (hp : pageBase g.block 0 < 262144) :
    (s.countUe l).rd g = s.rd g := by
  have hi := stackOf_lt (l * 64)
  have hb (f : Field) (hf : f.block = 32) : pageBase g.block 0 / 4096 ≠ pageBase f.block (stackOf (l * 64)) / 4096 := by
    rw [hf, pageBase_eq 32]
    have : pageBase 32 0 = 262144 := rfl
    omega
  rw [State.countUe, State.rd_wr_ne _ _ _ _ _ _ _ _ _ _ (Field.key_ne_of_page (by decide) (by decide) (by decide) (by decide) (by simpa using hl)
    (by simpa using ho) (hb _ rfl)), State.rd_bump_ne _ _ _ _ _ _ _ _ _ _ (Field.key_ne_of_page (by decide) (by decide) (by decide) (by decide)
    (by simpa using hl) (by simpa using ho) (hb _ rfl))]

theorem State.reportsOnly_hostData (s : State) (bs : List Byte) (p : Bool) : s.ReportsOnly (s.hostData bs p) := rfl

theorem State.reportsOnly_countUe (s : State) (l : Nat) : s.ReportsOnly (s.countUe l) := rfl

theorem execHostRead_poison (s : State) (a n l : Nat) (apt : Option (List Byte)) (h : a + n ≤ 2 ^ 40) (h1 : s.hostReach a n = true)
    (h2 : apertureOf a = none) (h3 : s.hbmUe a n = some l) : ∃ t, execHostRead a n apt s = .next t ∧ t.host.readPoison = true ∧
    s.Counts t Reg.CXL.POISON_RD ∧ s.ReportsOnly t := by
  obtain ⟨r, he⟩ := execHostRead_poisoned h h1 apt h2 h3
  refine ⟨_, he, ?_, ?_, ?_⟩
  · rw [(State.quiet_fault _ r).2]
    rfl
  · rw [State.Counts, State.rd_fault _ _ _ _ _ _ (by decide)]
    refine (State.rd_bump (s.countUe l) _ _ _ _).trans ?_
    rw [s.rd_countUe l (by decide) (by decide) (by decide)]
  · exact ((State.ReportsOnly.trans (s.reportsOnly_countUe l) (.bump _ _ _ _ _ _)).trans (State.reportsOnly_hostData _ _ _)).trans (.fault _ _)

theorem State.tokenTaken {o : List OutMsg} (h : t = { s with herd := { s.herd with out := o } }) :
    ({ t with herd := { t.herd with nextTok := t.herd.nextTok + 1 } } : State) = { s with herd := { s.herd with out := o, nextTok := s.herd.nextTok + 1 } } := by
  rw [h]

theorem State.aptAccess_spec (s : State) (k kind a n : Nat) (d : List Byte) :
    ∃ o, s.aptAccess k kind a n d = { s with herd := { s.herd with out := o, nextTok := s.herd.nextTok + 1 } } := by
  unfold State.aptAccess
  extract_lets args v
  obtain ⟨o, ho⟩ := s.sendTo_spec kind (s.act Reg.HERD.APT_MEMBER 0 k) (args ++ d.map (fun b => (b.toNat : Int)))
  exact ⟨o, State.tokenTaken ho⟩

theorem execHostRead_aperture (s : State) (a n k : Nat) (d : List Byte) (h : a + n ≤ 2 ^ 40) (h1 : s.hostReach a n = true) (h2 : apertureOf a = some k)
    (h3 : s.aptOk k = true) (h4 : d.length = n) : ∃ t, execHostRead a n (some d) s = .next t ∧
    t.host = { s.host with readData := d, readPoison := false } ∧ t.herd.nextTok = s.herd.nextTok + 1 ∧ t = { s with host := t.host, herd := t.herd } := by
  obtain ⟨o, ho⟩ := s.aptAccess_spec k 17 a n []
  have hd : (d ++ zeros n).take n = d := by rw [← h4, List.take_left]
  refine ⟨_, execHostRead_answered h h1 d h2 h3, ?_⟩
  rw [hd, ho]
  exact ⟨rfl, rfl, rfl⟩

theorem State.aptErr_spec (s : State) (n : Nat) (o : HerdSt) :
    (({ s with herd := o } : State).hostData (zeros n) true).bump Reg.CXL.APT_ERR = { s with
      regs := (s.bump Reg.CXL.APT_ERR).regs, host := { s.host with readData := zeros n, readPoison := true }, herd := o } := rfl

theorem State.counts_aptErr (s : State) (x : HostSt) (o : HerdSt) :
    s.Counts { s with regs := (s.bump Reg.CXL.APT_ERR).regs, host := x, herd := o } Reg.CXL.APT_ERR := s.rd_bump Reg.CXL.APT_ERR 0 0 0

theorem execHostRead_apertureError (s : State) (a n k : Nat) (apt : Option (List Byte)) (h : a + n ≤ 2 ^ 40) (h1 : s.hostReach a n = true)
    (h2 : apertureOf a = some k) (h3 : apt = none ∨ s.aptOk k = false) : ∃ t, execHostRead a n apt s = .next t ∧
    t.host = { s.host with readData := zeros n, readPoison := true } ∧ s.Counts t Reg.CXL.APT_ERR ∧
    t = { s with regs := t.regs, host := t.host, herd := t.herd } ∧ (s.aptOk k = false → t.herd = s.herd) := by
  cases hk : s.aptOk k with
  | false => exact ⟨_, execHostRead_noWindow h h1 apt h2 hk, rfl, s.counts_aptErr _ s.herd, rfl, fun _ => rfl⟩
  | true =>
    obtain rfl : apt = none := h3.resolve_right (by rw [hk]; decide)
    obtain ⟨o, ho⟩ := s.aptAccess_spec k 17 a n []
    refine ⟨_, execHostRead_unanswered h h1 h2 hk, ?_⟩
    rw [ho, State.aptErr_spec]
    exact ⟨rfl, s.counts_aptErr _ _, rfl, fun hf => absurd hf (by decide)⟩

/-! ### Writes -/

theorem execHostWrite_memory (s : State) (a : Nat) (d : List Byte) (ok : Bool) (h : a + d.length ≤ 2 ^ 40) (h1 : s.hostReach a d.length = true)
    (h2 : apertureOf a = none) (r : Nat) (h3 : ∀ p ∈ pieces a d, s.hostLine p.1 p.2.length = r) (hd : d ≠ [] ∨ r = 0) : execHostWrite a d ok s = .next
      (if r = 0 then (pieces a d).foldl (fun t p => t.hbmPutAs 2 p.1 p.2) s else if r = 1 then s.bump Reg.CXL.WR_DISCARD
       else if r = 2 then s.bump Reg.CTX.PROTECT_VIOL else s) := by
  have hf : (pieces a d).map (fun p => (p, s.hostLine p.1 p.2.length)) = (pieces a d).map (fun p => (p, r)) :=
    List.map_congr_left fun p hp => by rw [h3 p hp]
  have hany (k : Nat) (hk : k ≠ 0) : ((pieces a d).map (fun p => (p, r))).any (fun e => e.2 == k) = decide (r = k) := by
    rw [List.any_map]
    by_cases hr : r = k
    · obtain ⟨p, l, hp⟩ := List.exists_cons_of_ne_nil (pieces_ne_nil (a := a) (hd.resolve_right (by omega)))
      rw [hp, List.any_cons]
      simp [hr]
    · simp [hr]
  have h0 : (((pieces a d).map (fun p => (p, r))).filter (fun e => e.2 == 0)).foldl (fun t e => t.hbmPutAs 2 e.1.1 e.1.2) s =
      if r = 0 then (pieces a d).foldl (fun t p => t.hbmPutAs 2 p.1 p.2) s else s := by
    by_cases hr : r = 0
    · rw [if_pos hr, List.filter_eq_self.2 (fun e he => by obtain ⟨p, -, rfl⟩ := List.mem_map.1 he; simpa using hr), List.foldl_map]
    · rw [if_neg hr, List.filter_eq_nil_iff.2 (fun e he => by obtain ⟨p, -, rfl⟩ := List.mem_map.1 he; simpa using hr)]
      rfl
  rw [execHostWrite, if_neg (Nat.not_lt.2 h), if_neg (not_not.2 h1), h2]
  dsimp only
  rw [hf, h0, hany 1 (by decide), hany 2 (by decide)]
  by_cases hr0 : r = 0
  · subst hr0; rfl
  by_cases hr1 : r = 1
  · subst hr1; rfl
  by_cases hr2 : r = 2
  · subst hr2; rfl
  · simp [hr0, hr1, hr2]

theorem execHostWrite_applied (s : State) (a : Nat) (d : List Byte) (ok : Bool) (h : a + d.length ≤ 2 ^ 40) (h1 : s.hostReach a d.length = true)
    (h2 : apertureOf a = none) (h3 : ∀ p ∈ pieces a d, s.hostLine p.1 p.2.length = 0) (h4 : s.cycLate = []) : ∃ t, execHostWrite a d ok s = .next t ∧
    Mem.readN t.hbm a d.length = d ∧ (∀ c, (c < a ∨ a + d.length ≤ c) → Mem.read t.hbm c = Mem.read s.hbm c) ∧ t = { s with hbm := t.hbm, flt := t.flt } := by
  have hl : s.LateBelow 2 := fun w hw => by rw [h4] at hw; exact absurd hw List.not_mem_nil
  obtain ⟨f, hf⟩ := hl.puts (pieces a d)
  refine ⟨_, execHostWrite_memory s a d ok h h1 h2 0 h3 (.inr rfl), ?_⟩
  rw [if_pos rfl, hf, foldl_pieces]
  exact ⟨Mem.readN_writeN _ _ _, fun c hc => Mem.read_writeN_ne _ _ _ _ hc, rfl⟩

theorem State.bump_onlyFields (s : State) (f : Field) : s.Counts (s.bump f) f ∧ s.OnlyFields (s.bump f) [f.key 0 0 0] :=
  ⟨s.rd_bump f 0 0 0, rfl, fun k hk => Tbl.find?_setD_ne s.regs _ _ (fun e => hk (by rw [e]; exact List.mem_singleton_self _))⟩

theorem execHostWrite_discarded (s : State) (a : Nat) (d : List Byte) (ok : Bool) (h : a + d.length ≤ 2 ^ 40) (h1 : s.hostReach a d.length = true)
    (h2 : apertureOf a = none) (h3 : d ≠ []) (h4 : ∀ p ∈ pieces a d, s.hostLine p.1 p.2.length = 1) : ∃ t, execHostWrite a d ok s = .next t ∧
    s.Counts t Reg.CXL.WR_DISCARD ∧ s.OnlyFields t [Reg.CXL.WR_DISCARD.key 0 0 0] :=
  ⟨_, execHostWrite_memory s a d ok h h1 h2 1 h4 (.inl h3), s.bump_onlyFields Reg.CXL.WR_DISCARD⟩

theorem execHostWrite_protected (s : State) (a : Nat) (d : List Byte) (ok : Bool) (h : a + d.length ≤ 2 ^ 40) (h1 : s.hostReach a d.length = true)
    (h2 : apertureOf a = none) (h3 : d ≠ []) (h4 : ∀ p ∈ pieces a d, s.hostLine p.1 p.2.length = 2) : ∃ t, execHostWrite a d ok s = .next t ∧
    s.Counts t Reg.CTX.PROTECT_VIOL ∧ s.OnlyFields t [Reg.CTX.PROTECT_VIOL.key 0 0 0] :=
  ⟨_, execHostWrite_memory s a d ok h h1 h2 2 h4 (.inl h3), s.bump_onlyFields Reg.CTX.PROTECT_VIOL⟩

theorem execHostWrite_window (ok : Bool) {a k : Nat} {d : List Byte} (h : a + d.length ≤ 2 ^ 40) (h1 : s.hostReach a d.length = true)
    (h2 : apertureOf a = some k) : execHostWrite a d ok s = .next (if s.aptOk k = true then
      (if ok then s.aptAccess k 18 a d.length d else (s.aptAccess k 18 a d.length d).bump Reg.CXL.APT_ERR) else s.bump Reg.CXL.APT_ERR) := by
  rw [execHostWrite, if_neg (Nat.not_lt.2 h), if_neg (not_not.2 h1), h2]
  dsimp only
  by_cases hk : s.aptOk k = true
  · rw [if_neg (not_not.2 hk), if_pos hk]
  · rw [if_pos hk, if_neg hk]

theorem execHostWrite_aperture (s : State) (a k : Nat) (d : List Byte) (h : a + d.length ≤ 2 ^ 40) (h1 : s.hostReach a d.length = true)
    (h2 : apertureOf a = some k) : (s.aptOk k = true → ∃ t, execHostWrite a d true s = .next t ∧ t.herd.nextTok = s.herd.nextTok + 1 ∧
      t = { s with herd := t.herd }) ∧
    (∃ t, execHostWrite a d false s = .next t ∧ s.Counts t Reg.CXL.APT_ERR ∧
      ({ s with herd := t.herd } : State).OnlyFields t [Reg.CXL.APT_ERR.key 0 0 0]) := by
  obtain ⟨o, ho⟩ := s.aptAccess_spec k 18 a d.length d
  refine ⟨fun hk => ⟨_, execHostWrite_window true h h1 h2, ?_⟩, ⟨_, execHostWrite_window false h h1 h2, ?_⟩⟩
  · rw [if_pos hk, if_pos rfl, ho]
    exact ⟨rfl, rfl⟩
  · by_cases hk : s.aptOk k = true
    · rw [if_pos hk, if_neg Bool.false_ne_true, ho]
      exact State.bump_onlyFields { s with herd := _ } Reg.CXL.APT_ERR
    · rw [if_neg hk]
      exact s.bump_onlyFields Reg.CXL.APT_ERR

/-- Settles O31. -/
theorem hostAccessCommands : Obligations.HostAccessCommands :=
  ⟨execHostRead_faults, execHostWrite_faults, execHostRead_unreached, execHostWrite_unreached, execHostRead_quiet, execHostRead_reads,
    execHostRead_poison, execHostRead_aperture, execHostRead_apertureError, execHostWrite_applied, execHostWrite_discarded, execHostWrite_protected,
    execHostWrite_aperture⟩

end Sys2Proof.Machine
end

section
/-! PROOF. Register pages and the unlock (R10, R11, R355, R372 to R384): O40. -/

namespace Sys2Proof.Machine

-- One thread for the proofs, which bounds the memory that checking them takes.
set_option Elab.async false

open Sys2Proof

variable {s t u : State} {src : Source}

/-! ### The first words of a page -/

/-- t has the words of s below 0x40 of every page: identity, EVENT, EVENT_MASK and what stands with them (R375). -/
def State.SameHeads (s t : State) : Prop := ∀ k, k / 4194304 % 4096 < 64 → t.regs.find? k = s.regs.find? k

theorem State.SameHeads.trans (h : s.SameHeads t) (h' : t.SameHeads u) : s.SameHeads u := fun k hk => (h' k hk).trans (h k hk)

theorem Field.key_head {f : Field} {i : Nat} (ho : f.off < 64) (hl : f.lo < 64) (hs : f.stride = 0) (hb : f.bstride = 0) :
    f.key i 0 0 / 4194304 % 4096 = f.off := by
  have hm := pageBase_mod f.block i
  rw [Field.key, hs, hb]
  omega

theorem State.SameHeads.rd (h : s.SameHeads t) {f : Field} (i : Nat) (ho : f.off < 64) (hl : f.lo < 64) (hs : f.stride = 0) (hb : f.bstride = 0) :
    t.rd f i = s.rd f i := by
  rw [State.rd, State.rd, h _ (by rw [Field.key_head ho hl hs hb]; exact ho)]

theorem State.SameHeads.rd_on (h : s.SameHeads t) (f : Field) (b i : Nat) (hf : f.off < 64 ∧ f.lo < 64 ∧ f.stride = 0 ∧ f.bstride = 0) :
    t.rd (f.on b) i = s.rd (f.on b) i := by
  obtain ⟨ho, hl, hs, hb⟩ := hf
  exact h.rd i ho hl hs hb

theorem State.SameHeads.eventWord (h : s.SameHeads t) (b i : Nat) : t.eventWord b i = s.eventWord b i := by
  have h0 : t.rd (Reg.COMMON.EVENT.on b) i = s.rd (Reg.COMMON.EVENT.on b) i := h.rd_on _ b i (by decide)
  have h1 : t.rd (Reg.COMMON.EV_STATE.on b) i = s.rd (Reg.COMMON.EV_STATE.on b) i := h.rd_on _ b i (by decide)
  have h2 : t.rd (Reg.COMMON.EV_FAULT.on b) i = s.rd (Reg.COMMON.EV_FAULT.on b) i := h.rd_on _ b i (by decide)
  rw [State.eventWord, State.eventWord, h0, h1, h2]

theorem State.sameHeads_of_regs (h : t.regs = s.regs) : s.SameHeads t := fun k _ => by rw [h]

theorem State.SameHeads.givenHq (h : s.SameHeads t) (q : Tbl HqSt) : s.SameHeads { t with hq := q } := h

theorem State.SameHeads.givenFlt (h : s.SameHeads t) (f : FaultSt) : s.SameHeads { t with flt := f } := h

theorem State.sameHeads_wr (s : State) (f : Field) (v i j k : Nat) (h : 64 ≤ f.key i j k / 4194304 % 4096) : s.SameHeads (s.wr f v i j k) :=
  fun n hn => s.find_wr_ne f v i j k n (fun e => by rw [e] at hn; omega)

theorem State.sameHeads_wrote (s : State) (src : Source) : s.SameHeads (s.wrote src) :=
  fun k hk => s.wrote_find src k (fun e => absurd (e ▸ hk) (by decide))

theorem State.sameHeads_hqLose (s : State) : s.SameHeads (s.hqLose 7) := by
  have hr : (s.hqLose 7).regs = ((s.wr Reg.HQ.CONS (Nat.max (s.rd Reg.HQ.CONS 0 7) (s.consSeen 7 + 1)) 0 7).bump Reg.HQ.LOST 0 7).regs := rfl
  exact ((s.sameHeads_wr Reg.HQ.CONS _ 0 7 0 (by decide)).trans (State.sameHeads_wr _ Reg.HQ.LOST _ 0 7 0 (by decide))).trans
    (State.sameHeads_of_regs hr)

theorem State.sameHeads_hqPlace (s : State) (bs : List Byte) : s.SameHeads (s.hqPlace 7 bs) := by
  unfold State.hqPlace
  extract_lets n slot loc s1 s2 s3
  have h2 : s.SameHeads s2 := State.sameHeads_of_regs (by rw [State.locWrite_regs, State.locWrite_regs])
  exact (h2.trans (State.sameHeads_wr s2 Reg.HQ.PROD _ 0 7 0 (by decide))).givenHq _

theorem State.sameHeads_hqProduce (s : State) (bs : List Byte) : s.SameHeads (s.hqProduce 7 bs) := by
  unfold State.hqProduce
  split
  · exact fun _ _ => rfl
  split
  · exact (State.SameHeads.givenHq (s.sameHeads_wr Reg.HQ.PROD _ 0 7 0 (by decide)) _).trans (State.sameHeads_hqLose _)
  extract_lets held s1 s2
  split
  · split
    · exact State.SameHeads.givenHq (s.sameHeads_wr Reg.HQ.LOST _ 0 7 0 (by decide)) _
    · exact s.sameHeads_hqLose.trans (State.sameHeads_hqPlace _ _)
  · split
    · exact (s.sameHeads_hqPlace bs).trans (State.sameHeads_of_regs (State.hqIrq_regs _ _))
    · exact s.sameHeads_hqPlace bs

theorem State.sameHeads_audit (s : State) (r : AuditRec) : s.SameHeads (s.audit r) := by
  unfold State.audit
  split
  · exact s.sameHeads_wr Reg.SEC.AUDIT_SUPPRESSED _ 0 0 0 (by decide)
  · exact (s.sameHeads_hqProduce _).givenFlt _

theorem State.sameHeads_auditCmd (s : State) (src : Source) (f : Field) (i n r c q : Nat) : s.SameHeads (s.auditCmd src f i n r c q) := s.sameHeads_audit _

/-! ### EVENT, EVENT_FORCE and EVENT_MASK -/

/-- Two fields of one word of a page's head have different keys. -/
theorem key_ne_of_lo {f g : Field} {b i : Nat} (h : f.off = g.off ∧ g.lo ≠ f.lo ∧ f.stride = 0 ∧ g.stride = 0 ∧ f.bstride = 0 ∧ g.bstride = 0) :
    (g.on b).key i 0 0 ≠ (f.on b).key i 0 0 := by
  obtain ⟨ho, hl, h1, h2, h3, h4⟩ := h
  simp only [Field.key, Field.on, ho, h1, h2, h3, h4]
  omega

theorem State.eventWord_wrEvent (s : State) (b i v : Nat) : (s.wrEvent b i v).eventWord b i = v % 2 ^ 32 := by
  have h0 : (s.wrEvent b i v).rd (Reg.COMMON.EVENT.on b) i = v % 2 ^ 30 := by
    rw [State.wrEvent, State.rd_wr_ne _ _ _ _ _ _ _ _ _ _ (key_ne_of_lo (by decide)), State.rd_wr_ne _ _ _ _ _ _ _ _ _ _ (key_ne_of_lo (by decide)),
      State.rd_wr_self]
    rfl
  have h1 : (s.wrEvent b i v).rd (Reg.COMMON.EV_STATE.on b) i = v / 2 ^ 30 % 2 := by
    rw [State.wrEvent, State.rd_wr_ne _ _ _ _ _ _ _ _ _ _ (key_ne_of_lo (by decide)), State.rd_wr_self]
    rfl
  have h2 : (s.wrEvent b i v).rd (Reg.COMMON.EV_FAULT.on b) i = v / 2 ^ 31 % 2 := by
    rw [State.wrEvent, State.rd_wr_self]
    rfl
  rw [State.eventWord, h0, h1, h2]
  omega

theorem State.eventWord_evtEdge (s old : State) (b i : Nat) : (s.evtEdge old b i).eventWord b i = s.eventWord b i :=
  State.SameHeads.eventWord (State.sameHeads_of_regs (s.evtEdge_regs old b i)) b i

theorem State.eventWord_wrote (s : State) (src : Source) (b i : Nat) : (s.wrote src).eventWord b i = s.eventWord b i :=
  (s.sameHeads_wrote src).eventWord b i

theorem State.eventWritten_spec (s : State) (b i n : Nat) :
    ((s.wrEvent b i n).evtEdge s b i).eventWord b i = n % 2 ^ 32 ∧ s.WriteOnly ((s.wrEvent b i n).evtEdge s b i) :=
  ⟨((s.wrEvent b i n).eventWord_evtEdge s b i).trans (s.eventWord_wrEvent b i n), by simp [State.writeOnly_iff]⟩

theorem State.writeOnly_audit (s : State) (r : AuditRec) : s.WriteOnly (s.audit r) := by
  simp [State.writeOnly_iff]

theorem State.auditedIf_spec (h : s.WriteOnly t) {b i n : Nat} (hn : t.eventWord b i = n) (c : Prop) [Decidable c] (r : AuditRec) :
    (if c then t.audit r else t).eventWord b i = n ∧ s.WriteOnly (if c then t.audit r else t) := by
  split
  · exact ⟨((t.sameHeads_audit r).eventWord b i).trans hn, h.trans (t.writeOnly_audit r)⟩
  · exact ⟨hn, h⟩

section
variable {p : Fin 512} {v now : Word} {b i : Nat} (h : s.Takes src) (hp : pageOf p.val = some (b, i))
include h hp

theorem execEventClear_clears : ∃ t, execEventClear src p v now s = .next t ∧
    t.eventWord b i = ((s.eventWord b i - (s.eventWord b i &&& v.toNat)) ||| (now.toNat &&& eventBits b i)) % 2 ^ 32 ∧ s.WriteOnly t := by
  unfold execEventClear
  simp only [hp, s.basicCmd_takes _ h, s.eventWord_wrote]
  obtain ⟨h1, h2⟩ := (s.wrote src).eventWritten_spec b i ((s.eventWord b i - (s.eventWord b i &&& v.toNat)) ||| (now.toNat &&& eventBits b i))
  generalize ((s.wrote src).wrEvent b i _).evtEdge _ b i = w at h1 h2 ⊢
  exact ⟨_, rfl, State.auditedIf_spec ((s.writeOnly_wrote src).trans h2) h1 _ _⟩

theorem execEventForce_sets (hu : s.auth.unlocked = true) : ∃ t, execEventForce src p v s = .next t ∧
    t.eventWord b i = (s.eventWord b i ||| (v.toNat &&& eventBits b i)) % 2 ^ 32 ∧ s.WriteOnly t := by
  unfold execEventForce
  simp only [hp]
  refine ⟨_, s.expertCmd_takes _ _ _ _ ⟨h, hu⟩, ?_, by simp [State.writeOnly_iff]⟩
  rw [State.events, State.eventWord_evtEdge, State.eventWord_wrEvent, ((s.sameHeads_wrote src).trans (State.sameHeads_auditCmd _ _ _ _ _ _ _ _)).eventWord]

omit h hp in
theorem State.rd_mask_wrNow (s : State) (b : Nat) (v : Word) (i : Nat) :
    (s.wrNow (Reg.COMMON.EVENT_MASK.on b) v.toNat i).rd (Reg.COMMON.EVENT_MASK.on b) i = v.toNat :=
  (State.rd_wr_self s _ v.toNat i 0 0).trans (Nat.mod_eq_of_lt v.isLt)

omit h hp in
theorem State.raisedIf_spec (s : State) (c : Prop) [Decidable c] (n : Nat) : ∃ k, (if c then s else s.raiseVec n) = { s with host := k } := by
  split
  · exact ⟨s.host, rfl⟩
  · exact s.raiseVec_spec n

omit h hp in
theorem State.masked_spec (s : State) (b : Nat) (v : Word) (i : Nat) (k : HostSt) :
    ({ s.wrNow (Reg.COMMON.EVENT_MASK.on b) v.toNat i with host := k } : State).rd (Reg.COMMON.EVENT_MASK.on b) i = v.toNat ∧
    ({ s with acting := (s.wrNow (Reg.COMMON.EVENT_MASK.on b) v.toNat i).acting } : State).WriteOnly
      { s.wrNow (Reg.COMMON.EVENT_MASK.on b) v.toNat i with host := k } :=
  ⟨s.rd_mask_wrNow b v i, rfl⟩

omit h hp in
theorem State.WriteOnly.givenActing (hw : s.WriteOnly t) {m : Tbl Nat} (h' : ({ t with acting := m } : State).WriteOnly u) (hm : u.acting = m) :
    ({ s with acting := u.acting } : State).WriteOnly u := by
  subst hm
  rw [State.WriteOnly] at hw
  rw [hw] at h'
  exact h'

theorem execEventMaskWrite_writes : ∃ t, execEventMaskWrite src p v s = .next t ∧ t.rd (Reg.COMMON.EVENT_MASK.on b) i = v.toNat ∧
    ({ s with acting := t.acting } : State).WriteOnly t := by
  unfold execEventMaskWrite
  simp only [hp]
  refine ⟨_, s.basicCmd_takes _ h, ?_⟩
  obtain ⟨k, hk⟩ := ((s.wrote src).wrNow (Reg.COMMON.EVENT_MASK.on b) v.toNat i).raisedIf_spec
    ((s.wrote src).eventWord b i &&& ((s.wrote src).rd (Reg.COMMON.EVENT_MASK.on b) i -
      ((s.wrote src).rd (Reg.COMMON.EVENT_MASK.on b) i &&& v.toNat)) = 0) 0
  obtain ⟨h1, h2⟩ := (s.wrote src).masked_spec b v i k
  rw [hk]
  split
  · exact ⟨h1, (s.writeOnly_wrote src).givenActing h2 rfl⟩
  · refine ⟨((State.sameHeads_audit _ _).rd_on Reg.COMMON.EVENT_MASK b i (by decide)).trans h1, (s.writeOnly_wrote src).givenActing
      (h2.trans (State.writeOnly_audit _ _)) ?_⟩
    simp

end

theorem eventCommands_paged (s : State) (src : Source) (p : Fin 512) (v now : Word) (block inst : Nat) (h : s.Takes src)
    (h1 : pageOf p.val = some (block, inst)) : (∃ t, execEventClear src p v now s = .next t ∧ t.eventWord block inst =
      ((s.eventWord block inst - (s.eventWord block inst &&& v.toNat)) ||| (now.toNat &&& eventBits block inst)) % 2 ^ 32 ∧ s.WriteOnly t) ∧
    (s.auth.unlocked = true → ∃ t, execEventForce src p v s = .next t ∧
      t.eventWord block inst = (s.eventWord block inst ||| (v.toNat &&& eventBits block inst)) % 2 ^ 32 ∧ s.WriteOnly t) ∧
    (∃ t, execEventMaskWrite src p v s = .next t ∧ t.rd (Reg.COMMON.EVENT_MASK.on block) inst = v.toNat ∧
      ({ s with acting := t.acting } : State).WriteOnly t) :=
  ⟨execEventClear_clears h h1, execEventForce_sets h h1, execEventMaskWrite_writes h h1⟩

theorem eventCommands_unpaged (s : State) (src : Source) (p : Fin 512) (v now : Word) (h : pageOf p.val = none) :
    execEventClear src p v now s = .next s ∧ execEventForce src p v s = .next s ∧ execEventMaskWrite src p v s = .next s := by
  unfold execEventClear execEventForce execEventMaskWrite
  simp only [h, and_self]

/-! ### The unlock sequence -/

/-- The state once the key has been audited with the result r. -/
def State.keyAudited (s : State) (src : Source) (v r : Nat) : State :=
  ({ s with sec := { s.sec with low := s.sec.low.erase src.num } } : State).auditCmd src Reg.DEV.EXPERT_KEY 0 v (if r ≤ 1 then 0 else if r = 2 then 2 else 3)

theorem State.keyAudited_spec (s : State) (src : Source) (v r : Nat) : (s.keyAudited src v r).sec.chal = s.sec.chal ∧
    (s.keyAudited src v r).sec.draws = s.sec.draws ∧ (s.keyAudited src v r).time = s.time ∧ (s.keyAudited src v r).auth = s.auth ∧
    s.WriteOnly (s.keyAudited src v r) :=
  ⟨by simp [State.keyAudited], by simp [State.keyAudited], by simp [State.keyAudited], by simp [State.keyAudited],
    by simp [State.keyAudited, State.writeOnly_iff]⟩

/-- The end of a sequence with result r. -/
theorem State.seqEnd_spec (s : State) (r : Nat) (hr : r < 16) : (s.seqEnd r).rd Reg.DEV.SEQ_RESULT = r ∧ (s.seqEnd r).sec.unlock = none ∧
    (s.seqEnd r).sec.chal = (Config.rand s.sec.draws).setWidth 16 ∧ s.WriteOnly (s.seqEnd r) :=
  ⟨(State.rd_wr_self { s with sec := { s.sec with unlock := none } } Reg.DEV.SEQ_RESULT r 0 0 0).trans (Nat.mod_eq_of_lt hr), rfl, rfl, rfl⟩

theorem execExpertKey_eq (v : Word) (h : s.Takes src) {r : Nat} (hr : s.keyResult src v.toNat = r) : execExpertKey src v s = .next
    (if r = 0 then { s.keyAudited src v.toNat r with
                     sec := { (s.keyAudited src v.toNat r).sec with unlock := some (src, (s.keyAudited src v.toNat r).time.beat) } }
     else if r = 1 then { ((s.keyAudited src v.toNat r).wr Reg.DEV.EXPERT_SRC src.num).seqEnd 1 with
                          auth := { (s.keyAudited src v.toNat r).auth with unlocked := (s.keyAudited src v.toNat r).expertToken } }
     else (s.keyAudited src v.toNat r).seqEnd r) := by
  subst hr
  exact if_pos h

theorem execExpertKey_ends (v : Word) (h : s.Takes src) {r : Nat} (hr : s.keyResult src v.toNat = r) (h2 : 2 ≤ r) (h16 : r < 16) :
    ∃ t, execExpertKey src v s = .next t ∧ t.rd Reg.DEV.SEQ_RESULT = r ∧ t.sec.unlock = none ∧
      t.sec.chal = (Config.rand s.sec.draws).setWidth 16 ∧ s.WriteOnly t := by
  obtain ⟨-, k2, -, -, k5⟩ := s.keyAudited_spec src v.toNat r
  obtain ⟨e1, e2, e3, e4⟩ := (s.keyAudited src v.toNat r).seqEnd_spec r h16
  refine ⟨_, execExpertKey_eq v h hr, ?_⟩
  rw [if_neg (by omega), if_neg (by omega)]
  exact ⟨e1, e2, by rw [e3, k2], k5.trans e4⟩

theorem execExpertKey_first (v : Word) (h : s.Takes src) (hr : s.keyResult src v.toNat = 0) : ∃ t, execExpertKey src v s = .next t ∧
    t.sec.unlock = some (src, s.time.beat) ∧ t.sec.chal = s.sec.chal ∧ s.WriteOnly t := by
  obtain ⟨k1, -, k3, -, k5⟩ := s.keyAudited_spec src v.toNat 0
  refine ⟨_, execExpertKey_eq v h hr, ?_⟩
  rw [if_pos rfl, k3]
  exact ⟨rfl, k1, k5.trans rfl⟩

theorem State.rd_seqEnd (s : State) (r : Nat) : (s.seqEnd r).rd Reg.DEV.EXPERT_SRC = s.rd Reg.DEV.EXPERT_SRC :=
  State.rd_wr_ne { s with sec := { s.sec with unlock := none } } Reg.DEV.SEQ_RESULT Reg.DEV.EXPERT_SRC r 0 0 0 0 0 0 (by decide)

theorem State.unlockedBy_spec (s : State) (src : Source) : ((s.wr Reg.DEV.EXPERT_SRC src.num).seqEnd 1).rd Reg.DEV.SEQ_RESULT = 1 ∧
    ((s.wr Reg.DEV.EXPERT_SRC src.num).seqEnd 1).rd Reg.DEV.EXPERT_SRC = src.num ∧ ((s.wr Reg.DEV.EXPERT_SRC src.num).seqEnd 1).sec.unlock = none ∧
    ((s.wr Reg.DEV.EXPERT_SRC src.num).seqEnd 1).sec.chal = (Config.rand s.sec.draws).setWidth 16 ∧
    s.WriteOnly ((s.wr Reg.DEV.EXPERT_SRC src.num).seqEnd 1) := by
  refine ⟨((s.wr Reg.DEV.EXPERT_SRC src.num).seqEnd_spec 1 (by decide)).1, ?_, rfl, rfl, rfl⟩
  rw [State.rd_seqEnd, State.rd_wr_self]
  cases src <;> rfl

theorem State.WriteOnly.givenAuth (h : s.WriteOnly t) (a : AuthSt) :
    ({ s with auth := a } : State).WriteOnly { t with auth := a } := by
  rw [State.WriteOnly] at h
  rw [h]
  rfl

theorem State.rd_givenAuth (s : State) (a : AuthSt) (f : Field) : ({ s with auth := a } : State).rd f = s.rd f := rfl

theorem execExpertKey_second (v : Word) (h : s.Takes src) (hx : s.expertToken = true) (hr : s.keyResult src v.toNat = 1) :
    ∃ t, execExpertKey src v s = .next t ∧ t.auth = { s.auth with unlocked := true } ∧ t.rd Reg.DEV.SEQ_RESULT = 1 ∧ t.rd Reg.DEV.EXPERT_SRC = src.num ∧
      t.sec.unlock = none ∧ t.sec.chal = (Config.rand s.sec.draws).setWidth 16 ∧ ({ s with auth := t.auth } : State).WriteOnly t := by
  obtain ⟨-, k2, -, k4, k5⟩ := s.keyAudited_spec src v.toNat 1
  obtain ⟨e1, e2, e3, e4, e5⟩ := (s.keyAudited src v.toNat 1).unlockedBy_spec src
  refine ⟨_, execExpertKey_eq v h hr, ?_⟩
  have ht : (s.keyAudited src v.toNat 1).expertToken = true := by rw [State.expertToken, k4]; exact hx
  rw [if_neg (by decide), if_pos rfl, ht, k4]
  refine ⟨rfl, (State.rd_givenAuth _ _ _ ▸ e1 : _), e2, e3, by rw [← k2]; exact e4, (k5.trans e5).givenAuth _⟩

theorem execExpertKey_keys (s : State) (src : Source) (v : Word) (h : s.Takes src) :
    (s.expertToken = false → ∃ t, execExpertKey src v s = .next t ∧ t.rd Reg.DEV.SEQ_RESULT = 2 ∧ t.sec.unlock = none ∧
      t.sec.chal = (Config.rand s.sec.draws).setWidth 16 ∧ s.WriteOnly t) ∧
    (s.expertToken = true → s.sec.unlock = none →
      (v.toNat = 0x4B310000 + s.sec.chal.toNat → ∃ t, execExpertKey src v s = .next t ∧ t.sec.unlock = some (src, s.time.beat) ∧
        t.sec.chal = s.sec.chal ∧ s.WriteOnly t) ∧
      (v.toNat ≠ 0x4B310000 + s.sec.chal.toNat → ∃ t, execExpertKey src v s = .next t ∧ t.rd Reg.DEV.SEQ_RESULT = 3 ∧ t.sec.unlock = none ∧
        t.sec.chal = (Config.rand s.sec.draws).setWidth 16 ∧ s.WriteOnly t)) ∧
    (∀ (src1 : Source) (b : Nat), s.expertToken = true → s.sec.unlock = some (src1, b) →
      (src1 = src → v.toNat = 0x4B320000 + s.sec.chal.toNat → s.time.beat ≤ b + 64 → ∃ t, execExpertKey src v s = .next t ∧
        t.auth = { s.auth with unlocked := true } ∧ t.rd Reg.DEV.SEQ_RESULT = 1 ∧ t.rd Reg.DEV.EXPERT_SRC = src.num ∧ t.sec.unlock = none ∧
        t.sec.chal = (Config.rand s.sec.draws).setWidth 16 ∧ ({ s with auth := t.auth } : State).WriteOnly t) ∧
      (src1 = src → v.toNat = 0x4B320000 + s.sec.chal.toNat → b + 64 < s.time.beat → ∃ t, execExpertKey src v s = .next t ∧
        t.rd Reg.DEV.SEQ_RESULT = 5 ∧ t.sec.unlock = none ∧ s.WriteOnly t) ∧
      (src1 = src → v.toNat ≠ 0x4B320000 + s.sec.chal.toNat → ∃ t, execExpertKey src v s = .next t ∧ t.rd Reg.DEV.SEQ_RESULT = 3 ∧
        t.sec.unlock = none ∧ s.WriteOnly t) ∧
      (src1 ≠ src → ∃ t, execExpertKey src v s = .next t ∧ t.rd Reg.DEV.SEQ_RESULT = 4 ∧ t.sec.unlock = none ∧ s.WriteOnly t)) := by
  have ends {r : Nat} (hr : s.keyResult src v.toNat = r) (h2 : 2 ≤ r) (h16 : r < 16) : ∃ t, execExpertKey src v s = .next t ∧
      t.rd Reg.DEV.SEQ_RESULT = r ∧ t.sec.unlock = none ∧ s.WriteOnly t := by
    obtain ⟨t, h1, h2, h3, -, h4⟩ := execExpertKey_ends v h hr h2 h16
    exact ⟨t, h1, h2, h3, h4⟩
  refine ⟨fun hx => ?_, fun hx hn => ⟨fun hv => ?_, fun hv => ?_⟩,
    fun src1 b hx hs => ⟨fun he hv hb => ?_, fun he hv hb => ?_, fun he hv => ?_, fun he => ?_⟩⟩
  · exact execExpertKey_ends v h (by simp [State.keyResult, hx]) (by decide) (by decide)
  · exact execExpertKey_first v h (by simp [State.keyResult, hx, hn, hv])
  · exact execExpertKey_ends v h (by simp [State.keyResult, hx, hn, hv]) (by decide) (by decide)
  · exact execExpertKey_second v h hx (by simp [State.keyResult, hx, hs, he, hv, hb])
  · exact ends (by simp [State.keyResult, hx, hs, he, hv, hb]) (by decide) (by decide)
  · exact ends (by simp [State.keyResult, hx, hs, he, hv]) (by decide) (by decide)
  · exact ends (by simp [State.keyResult, hx, hs, he]) (by decide) (by decide)

theorem execLock_locks (s : State) (src : Source) (h : s.Takes src) : ∃ t, execLock src s = .next t ∧ t.auth = { s.auth with unlocked := false } ∧
    ({ s with auth := t.auth } : State).WriteOnly t :=
  ⟨_, s.basicCmd_takes _ h, by simp, by simp [State.writeOnly_iff]⟩

theorem State.raiseVec_up (s : State) (v : Nat) (hl : s.rd Reg.CXL.LINK_UP ≠ 0) (hh : s.host.lost = false) :
    ((s.raiseVec v).host.msix.get v).pending = true := by
  rw [State.raiseVec, if_neg (fun hc => hc.elim hl (fun h => absurd (hh.symm.trans h) Bool.false_ne_true))]
  simp

theorem execVec0Force_raises (s : State) (src : Source) (h : s.TakesExpert src) (h1 : s.rd Reg.CXL.LINK_UP ≠ 0) (h2 : s.host.lost = false) :
    ∃ t, execVec0Force src s = .next t ∧ (t.host.msix.get 0).pending = true ∧ s.WriteOnly t := by
  refine ⟨_, s.expertCmd_takes _ _ _ _ h, State.raiseVec_up _ 0 ?_ ?_, by simp [State.writeOnly_iff]⟩
  · rw [State.rd_auditCmd _ _ _ _ _ _ _ _ _ _ _ _ (by decide), State.rd_wrote _ _ _ _ _ _ (by decide)]
    exact h1
  · rw [State.auditCmd, (State.quiet_audit _ _).2, State.wrote_host]
    exact h2

/-! ### Register accesses -/

theorem execRegisterWrite_pastBar4 (s : State) (src : Source) (a : RegAccess) (h : a.bar4 = true) (h1 : 2 ^ 18 ≤ a.addr) :
    execRegisterWrite src a s = .fault (.noBarAddress a.addr) := by
  rw [execRegisterWrite, if_pos h, if_pos h1]

theorem execRegisterWrite_bar4Closed (s : State) (src : Source) (a : RegAccess) (h : a.bar4 = true) (h1 : a.addr < 2 ^ 18)
    (h2 : src ≠ .bar0 ∨ s.rd Reg.CXL.LINK_UP = 0 ∨ s.host.ideIo = .insecure) : execRegisterWrite src a s = .next s := by
  rw [execRegisterWrite, if_pos h, if_neg (Nat.not_le.2 h1)]
  by_cases hs : src = .bar0
  · rw [if_pos hs, State.bar4Access, if_pos (h2.resolve_left (not_not.2 hs))]
  · rw [if_neg hs]

theorem access_pastBar0 (s : State) (src : Source) (a : RegAccess) (h : a.bar4 = false) (h1 : 2 ^ 26 ≤ a.addr) :
    execRegisterWrite src a s = .fault (.noBarAddress a.addr) ∧ execLowHalfRead src a.addr s = .fault (.noBarAddress a.addr) :=
  ⟨by rw [execRegisterWrite, if_neg (Bool.eq_false_iff.mp h), if_pos h1], if_pos h1⟩

theorem execRegisterWrite_access (s : State) (src : Source) (a : RegAccess) (h : a.bar4 = false) (h1 : a.addr < 2 ^ 26) :
    execRegisterWrite src a s = .next (s.access src a) := by
  rw [execRegisterWrite, if_neg (Bool.eq_false_iff.mp h), if_neg (Nat.not_le.2 h1)]

theorem State.mayWrite_secure {mail : Bool} (h : s.mayWrite src mail = true) : ¬ (src = .bar0 ∧ s.host.ideIo = .insecure) := by
  rintro ⟨rfl, hi⟩
  rw [State.mayWrite, hi] at h
  exact absurd h (by decide)

theorem execRegisterWrite_misfit (s : State) (src : Source) (a : RegAccess) (h : a.bar4 = false) (h1 : a.addr < 2 ^ 26) (h2 : badAccess a = true)
    (h3 : a.write = true) (h4 : s.mayWrite src true = true) : ∃ t, execRegisterWrite src a s = .next t ∧ s.Counts t Reg.DEV.BAD_ACCESS ∧
    s.OnlyFields t [Reg.DEV.BAD_ACCESS.key 0 0 0] := by
  refine ⟨_, execRegisterWrite_access s src a h h1, ?_⟩
  have he : s.access src a = s.bump Reg.DEV.BAD_ACCESS := by
    rw [State.access, if_neg (State.mayWrite_secure h4)]
    simp only [h2, h3, if_true]
    split <;> rfl
  rw [he]
  exact s.bump_onlyFields Reg.DEV.BAD_ACCESS

/-- A whole aligned 32-bit write of a page. -/
theorem State.access_word (h : s.Takes src) {addr v b i : Nat} (ha : addr % 4 = 0) (hp : pageOf (addr / 4096) = some (b, i)) (hm : mailPage b (addr % 4096) = false)
    (hw : wideAt b i (addr % 4096) = none) : s.access src { addr := addr, size := 32, value := v, write := true, fullBytes := true } =
    s.writeWord src b i (addr % 4096) (v % 2 ^ 32) := by
  have hb : badAccess { addr := addr, size := 32, value := v, write := true, fullBytes := true } = false := by simp [badAccess, ha, hp]
  rw [State.access, if_neg (State.mayWrite_secure h.2)]
  simp only [hb, hp, if_true, Bool.false_eq_true, if_false]
  rw [State.pageWrite, hm, if_neg (not_not.2 h.2), if_neg (not_not.2 h.1), if_neg (by decide), hw]
  rfl

theorem execRegisterWrite_lock (s : State) (src : Source) (h : s.Takes src) :
    execRegisterWrite src { addr := 0x60, size := 32, value := 2, write := true, fullBytes := true } s = execLock src s := by
  rw [execRegisterWrite_access s src _ rfl (by norm_num), State.access_word h rfl (b := 1) (i := 0) rfl (by decide) (by decide)]
  have hc : s.cmdWord src 1 0 0x60 2 = some (nextOf s (execLock src)) := rfl
  have hl : execLock src s = .next (nextOf s (execLock src)) := by
    rw [nextOf, execLock, s.basicCmd_takes _ h]
  have hw : s.writeWord src 1 0 (0x60 % 4096) (2 % 2 ^ 32) = s.writeWord src 1 0 0x60 2 := rfl
  rw [hw, State.writeWord, hc, hl]

theorem elemsAt_bwPrio : elemsAt 34 0 (8 * 0x54) (8 * (0x54 + 4)) = [{ f := Reg.HERD.BW_PRIO, inst := 0, idx := 0 }] := by decide

theorem State.plainWrite_bwPrio (s : State) (src : Source) (v : Nat) (h : v < 256) : ∃ (c : Bool) (r : AuditRec),
    s.plainWrite src 34 0 0x54 4 v = if c then ((s.wrote src).wr Reg.HERD.BW_PRIO v).audit r else (s.wrote src).wr Reg.HERD.BW_PRIO v := by
  have hp : Wrote.elem { s := s.wrote src, left := false, changed := false } src { f := Reg.HERD.BW_PRIO, inst := 0, idx := 0 } v =
      { s := (s.wrote src).wr Reg.HERD.BW_PRIO v, left := false, changed := (v != (s.wrote src).rd Reg.HERD.BW_PRIO && true) } := rfl
  have hv : v / 2 ^ (Elem.pos { f := Reg.HERD.BW_PRIO, inst := 0, idx := 0 } - 8 * 0x54) % 2 ^ Reg.HERD.BW_PRIO.width = v := by
    rw [show Elem.pos { f := Reg.HERD.BW_PRIO, inst := 0, idx := 0 } - 8 * 0x54 = 0 from rfl, pow_zero, Nat.div_one]
    exact Nat.mod_eq_of_lt h
  have hr : (s.wrote src).wordRefused 34 0x54 v = false := rfl
  have he : (decide (0x800 ≤ 0x54) && decide (0x54 < 0xF00) && 34 != Blk.ZCT) = false := rfl
  unfold State.plainWrite
  simp only [elemsAt_bwPrio, List.foldl_cons, List.foldl_nil, hr, hv, hp, he, Bool.false_and, Bool.false_eq_true, if_false]
  exact ⟨v != (s.wrote src).rd Reg.HERD.BW_PRIO && true, _, rfl⟩

theorem State.prioWritten_spec (s : State) (v : Nat) (h : v < 256) :
    (s.wr Reg.HERD.BW_PRIO v).rd Reg.HERD.BW_PRIO = v ∧ s.WriteOnly (s.wr Reg.HERD.BW_PRIO v) :=
  ⟨(s.rd_wr_self _ v 0 0 0).trans (Nat.mod_eq_of_lt h), rfl⟩

theorem execRegisterWrite_bwPrio (s : State) (src : Source) (v : Nat) (h : s.Takes src) (h1 : v < 256) : ∃ t,
    execRegisterWrite src { addr := 0x54054, size := 32, value := v, write := true, fullBytes := true } s = .next t ∧ t.rd Reg.HERD.BW_PRIO = v ∧
    s.WriteOnly t := by
  refine ⟨_, execRegisterWrite_access s src _ rfl (by norm_num), ?_⟩
  rw [State.access_word h rfl (b := 34) (i := 0) rfl (by decide) (by decide), Nat.mod_eq_of_lt (by omega : v < 2 ^ 32)]
  have hw : s.writeWord src 34 0 (0x54054 % 4096) v = s.plainWrite src 34 0 0x54 4 v := rfl
  obtain ⟨c, r, he⟩ := s.plainWrite_bwPrio src v h1
  obtain ⟨h2, h3⟩ := (s.wrote src).prioWritten_spec v h1
  rw [hw, he]
  cases c with
  | false => exact ⟨h2, (s.writeOnly_wrote src).trans h3⟩
  | true =>
    exact ⟨(State.rd_audit _ _ _ _ _ _ (by decide)).trans h2, ((s.writeOnly_wrote src).trans h3).trans (State.writeOnly_audit _ _)⟩

theorem execRegisterWrite_locked (s : State) (src : Source) (v : Nat) (h : s.Takes src) (h1 : s.auth.unlocked = false) : ∃ t,
    execRegisterWrite src { addr := 0x54804, size := 32, value := v, write := true, fullBytes := true } s = .next t ∧
    t.rd Reg.HERD.DETECT_BEATS = s.rd Reg.HERD.DETECT_BEATS ∧ s.WriteOnly t := by
  obtain ⟨r, -, -, -, -, ht⟩ := State.access_locked (block := 34) (inst := 0)
    (a := { addr := 0x54804, size := 32, value := v, write := true, fullBytes := true }) h h1 rfl rfl rfl (by norm_num) (by norm_num [pageOf]) (by decide) (by norm_num) (by norm_num)
  refine ⟨_, execRegisterWrite_access s src _ rfl (by norm_num), ?_⟩
  rw [ht]
  refine ⟨?_, (s.writeOnly_wrote src).trans (State.writeOnly_audit _ _)⟩
  rw [State.rd_audit _ _ _ _ _ _ (by decide), State.rd_wrote _ _ _ _ _ _ (by decide)]

theorem State.mayRead_secure (h : s.mayRead src = true) : ¬ (src = .bar0 ∧ s.host.ideIo = .insecure) := by
  rintro ⟨rfl, hi⟩
  rw [State.mayRead, hi] at h
  exact absurd h (by decide)

/-- An aligned 32-bit read of an open page. -/
theorem State.access_read (h : s.pagesOpen = true) (h1 : s.mayRead src = true) {addr b i off : Nat} (ha : addr % 4 = 0)
    (hp : pageOf (addr / 4096) = some (b, i)) (ho : addr % 4096 = off) :
    s.access src { addr := addr, size := 32, value := 0, write := false, fullBytes := true } = s.pageRead src b i off 4 := by
  have hb : badAccess { addr := addr, size := 32, value := 0, write := false, fullBytes := true } = false := by simp [badAccess, ha, hp]
  rw [State.access, if_neg (State.mayRead_secure h1)]
  simp only [hb, hp, ho, Bool.false_eq_true, if_false, h1, h, not_true_eq_false, and_false, or_self]

/-- The state after a read of the low half of BEAT. -/
def State.beatRead (s : State) (src : Source) : State :=
  { s.wr Reg.TIME.CYCLE s.time.cycle with
    host := { s.host with regData := s.time.beat % 2 ^ 64 % 2 ^ 32 }
    sec := { s.sec with latch := s.sec.latch.set src.num (some (0x7040, s.time.beat % 2 ^ 64 / 2 ^ 32)) } }

theorem State.beatRead_spec (s : State) (src : Source) : (s.beatRead src).host.regData = s.time.beat % 2 ^ 32 ∧
    (s.beatRead src).sec.latch.get src.num = some (0x7040, s.time.beat % 2 ^ 64 / 2 ^ 32) ∧ (s.beatRead src).pagesOpen = s.pagesOpen ∧
    (s.beatRead src).mayRead src = s.mayRead src := by
  refine ⟨Nat.mod_mod_of_dvd _ (by norm_num), Tbl.get_set_self s.sec.latch src.num (some (0x7040, s.time.beat % 2 ^ 64 / 2 ^ 32)), ?_, by cases src <;> rfl⟩
  have hr : (s.beatRead src).rd Reg.DEV.STAGE = s.rd Reg.DEV.STAGE := s.rd_wr_ne Reg.TIME.CYCLE Reg.DEV.STAGE _ 0 0 0 0 0 0 (by decide)
  rw [State.pagesOpen, State.pagesOpen, hr]

theorem elemsAt_beat : elemsAt 6 0 512 (512 + 64) = [{ f := Reg.TIME.BEAT, inst := 0, idx := 0 }] := by decide

theorem State.readNow_beat (s : State) (src : Source) (h : s.pagesOpen = true) : s.readNow src 6 0 64 8 =
    ({ s.wr Reg.TIME.CYCLE s.time.cycle with host := { s.host with regData := s.time.beat } }, s.time.beat % 2 ^ 64) := by
  have hp : s.pageBits 6 0 512 64 = s.time.beat % 2 ^ 64 := by
    have he : s.elemValue { f := Reg.TIME.BEAT, inst := 0, idx := 0 } = s.time.beat % 2 ^ 64 := rfl
    rw [State.pageBits, elemsAt_beat, List.map_singleton, List.sum_singleton, he]
    dsimp only
    rw [if_pos (by decide), show Elem.pos { f := Reg.TIME.BEAT, inst := 0, idx := 0 } - 512 = 0 from rfl, pow_zero, Nat.mul_one, Nat.mod_mod]
  have hb : s.barRead (pageBase 6 0 + 64) 8 = s.pageBits 6 0 512 64 := rfl
  have hn : nextOf s (execTimeBeatRead src) = { s.wr Reg.TIME.CYCLE s.time.cycle with host := { s.host with regData := s.time.beat } } := by
    rw [nextOf, execTimeBeatRead, if_pos h]
  have hx : s.readEffects src 6 0 64 8 = (nextOf s (execTimeBeatRead src), 0) := rfl
  rw [State.readNow, hb, hp, hx, hn]
  rfl

theorem wideRead_beat : wideRead 6 0 64 = true ∧ wideRead 6 0 68 = true := by decide

theorem State.pageRead_beatLow (s : State) (src : Source) (h : s.pagesOpen = true) : s.pageRead src 6 0 64 4 = s.beatRead src := by
  unfold State.pageRead
  rw [s.readNow_beat src h]
  rw [if_pos ⟨rfl, rfl, wideRead_beat.1⟩, if_pos rfl]
  rfl

theorem State.pageRead_beatHigh (src : Source) {x : Nat} (h : s.sec.latch.get src.num = some (0x7040, x)) :
    (s.pageRead src 6 0 68 4).host.regData = x := by
  unfold State.pageRead
  simp only [h]
  rw [if_pos ⟨trivial, trivial, wideRead_beat.2⟩, if_neg (by decide), if_pos (show 28736 = pageBase 6 0 + 68 / 8 * 8 from rfl)]
  rfl

theorem execLowHalfRead_latches (s : State) (src : Source) (h : s.pagesOpen = true) (h1 : s.mayRead src = true) : ∃ t,
    execLowHalfRead src 0x7040 s = .next t ∧ t.host.regData = s.time.beat % 2 ^ 32 ∧
    t.sec.latch.get src.num = some (0x7040, s.time.beat % 2 ^ 64 / 2 ^ 32) ∧ t = { s with regs := t.regs, host := t.host, sec := t.sec } ∧
    ∃ u, execLowHalfRead src 0x7044 t = .next u ∧ u.host.regData = s.time.beat % 2 ^ 64 / 2 ^ 32 := by
  refine ⟨_, (if_neg (by norm_num)).trans (congrArg _ (State.access_read h h1 rfl rfl rfl)), ?_⟩
  obtain ⟨e1, e2, e3, e4⟩ := s.beatRead_spec src
  rw [s.pageRead_beatLow src h]
  refine ⟨e1, e2, rfl, _, (if_neg (by norm_num)).trans (congrArg _ (State.access_read (e3.trans h) (e4.trans h1) rfl rfl rfl)), ?_⟩
  exact State.pageRead_beatHigh src e2

/-- Settles O40. -/
theorem registerCommands : Obligations.RegisterCommands :=
  ⟨execExpertKey_keys, execLock_locks, execVec0Force_raises, eventCommands_paged, eventCommands_unpaged, execRegisterWrite_pastBar4,
    execRegisterWrite_bar4Closed, access_pastBar0, execRegisterWrite_misfit, execRegisterWrite_lock, execRegisterWrite_bwPrio,
    execRegisterWrite_locked, execLowHalfRead_latches⟩

end Sys2Proof.Machine
end

section
/-! PROOF. Resets (R309, R310, R334, R335, R384): O35. -/

namespace Sys2Proof.Machine

-- One thread for the proofs, which bounds the memory that checking them takes.
set_option Elab.async false

open Sys2Proof

variable {s0 s t u : State} {src : Source}

/-! ### What does not touch page DEV -/

/-- t has the registers of page DEV as s has them, but for those that a report changes. -/
def State.SameDev (s t : State) : Prop := ∀ k, k / 17179869184 = 0 → reportKey k = false → t.regs.find? k = s.regs.find? k

theorem State.SameDev.refl (s : State) : s.SameDev s := fun _ _ _ => rfl

theorem State.SameDev.trans (h : s.SameDev t) (h' : t.SameDev u) : s.SameDev u := fun k hk hr => (h' k hk hr).trans (h k hk hr)

theorem State.SameDev.rd (h : s.SameDev t) (f : Field) (hf : f.key 0 0 0 / 17179869184 = 0) (hr : reportKey (f.key 0 0 0) = false) : t.rd f = s.rd f := by
  rw [State.rd, State.rd, h _ hf hr]

theorem State.SameDev.regs (hs : s0.SameDev s) (h : t.regs = s.regs) : s0.SameDev t := fun k hk hr => by rw [h, hs k hk hr]

theorem State.SameDev.ite {p : Prop} [Decidable p] (h : s0.SameDev s) (h' : s0.SameDev t) : s0.SameDev (if p then s else t) := by
  split
  · exact h
  · exact h'

theorem State.SameDev.foldl {α : Type} {g : State → α → State} {l : List α} (hs : s0.SameDev s)
    (h : ∀ (t : State) (x : α), s0.SameDev t → s0.SameDev (g t x)) : s0.SameDev (l.foldl g s) := by
  induction l generalizing s with
  | nil => exact hs
  | cons x l ih => exact ih (h s x hs)

theorem State.SameDev.wr {f : Field} {v i j k : Nat} (hs : s0.SameDev s) (h : f.key i j k / 17179869184 ≠ 0) : s0.SameDev (s.wr f v i j k) :=
  fun n hn hr => (s.find_wr_ne f v i j k n (fun e => h (e ▸ hn))).trans (hs n hn hr)

theorem State.SameDev.bump {f : Field} {i j k n : Nat} (hs : s0.SameDev s) (h : f.key i j k / 17179869184 ≠ 0) : s0.SameDev (s.bump f i j k n) :=
  hs.wr h

theorem State.SameDev.fault {r : FaultRec} (hs : s0.SameDev s) : s0.SameDev (s.fault r) :=
  fun n hn hr => (s.fault_find r n hr).trans (hs n hn hr)

theorem State.SameDev.event {b i n : Nat} (hs : s0.SameDev s) : s0.SameDev (s.event b i n) :=
  fun k hk hr => (s.event_find b i n k hr).trans (hs k hk hr)

theorem State.SameDev.hbmWrite {a : Nat} {bs : List Byte} (hs : s0.SameDev s) : s0.SameDev (s.hbmWrite a bs) := hs.regs (by simp)

theorem State.SameDev.setFlow {f : FlowSt → FlowSt} (hs : s0.SameDev s) : s0.SameDev (s.setFlow f) := hs

theorem State.SameDev.setTag {l g : Nat} (hs : s0.SameDev s) : s0.SameDev (s.setTag l g) := hs.hbmWrite

theorem State.SameDev.records {d : Int} (hs : s0.SameDev s) : s0.SameDev (s.records d) := hs.wr (by decide)

theorem State.SameDev.relocate {l : Nat} {n : Option Nat} (hs : s0.SameDev s) : s0.SameDev (s.relocate l n) := hs.setFlow

theorem State.SameDev.clearSlot {l : Nat} {b : Bool} (hs : s0.SameDev s) : s0.SameDev (s.clearSlot l b) := by
  have h : s0.SameDev (((s.setTag l 0).records (-1)).relocate l none) := hs.setTag.records.relocate
  exact .ite (.ite h.setFlow h) h

theorem key_hbmc_page (f : Field) (a : Nat) (h : f.block = 32 ∧ f.off < 4096 ∧ f.lo < 64) : f.key (stackOf a) 0 0 / 17179869184 ≠ 0 := by
  obtain ⟨hb, ho, hl⟩ := h
  rw [Field.key_page (by decide) (by simpa using hl) (by simpa using ho), hb, pageBase_eq]
  have : pageBase 32 0 = 262144 := rfl
  omega

theorem State.SameDev.countUe {line : Nat} (hs : s0.SameDev s) : s0.SameDev (s.countUe line) :=
  (hs.bump (key_hbmc_page _ _ (by decide))).wr (key_hbmc_page _ _ (by decide))

theorem State.SameDev.recordUe {l line : Nat} (hs : s0.SameDev s) : s0.SameDev (s.recordUe l line) :=
  .ite (State.SameDev.fault (hs.countUe.clearSlot.bump (by decide))) (State.SameDev.fault hs.countUe)

theorem State.SameDev.tagLineUe {bk line : Nat} (hs : s0.SameDev s) : s0.SameDev (s.tagLineUe bk line) := by
  unfold State.tagLineUe
  extract_lets locs s1 s2 s3
  have h2 : s0.SameDev s2 := hs.countUe.foldl fun _ _ h => h.clearSlot
  have h3 : s0.SameDev s3 := h2.ite (h2.bump (by decide))
  exact State.SameDev.fault h3.hbmWrite

theorem State.SameDev.tagCheck {bk : Nat} (hs : s0.SameDev s) : s0.SameDev (s.tagCheck bk) := by
  rw [State.tagCheck]
  split
  · exact hs.tagLineUe
  · exact hs

theorem State.SameDev.recCheck {l : Nat} (hs : s0.SameDev s) : s0.SameDev (s.recCheck l) := by
  rw [State.recCheck]
  refine .ite ?_ hs
  split
  · exact hs.recordUe
  · exact hs

theorem State.SameDev.insertPath {n h3 bk step : Nat} {path : List (Nat × Nat)} (hs : s0.SameDev s) :
    s0.SameDev (State.insertPath n s h3 bk step path).1 := by
  induction n generalizing s bk step path with
  | zero => exact hs
  | succ n ih =>
    rw [State.insertPath]
    extract_lets l
    split
    · exact ih hs.recCheck
    · split
      · exact hs.recCheck.tagCheck
      · exact ih hs.recCheck.tagCheck

theorem State.SameDev.copySlot {l alt : Nat} (hs : s0.SameDev s) : s0.SameDev (s.copySlot l alt) := by
  rw [State.copySlot]
  split
  · exact hs
  · exact hs.hbmWrite.setTag.relocate.setTag

theorem State.SameDev.moveSlot {l alt : Nat} (hs : s0.SameDev s) : s0.SameDev (s.moveSlot l alt) := by
  rw [State.moveSlot]
  split
  next p _ =>
    have h1 : s0.SameDev (s.journalMove (some (l, p))) := hs.setFlow
    exact .ite ((h1.copySlot.bump (by decide)).setFlow) hs
  · exact hs

theorem State.SameDev.storeInsert {key rec_ : List Byte} {c h : Bool} (hs : s0.SameDev s) : s0.SameDev (s.storeInsert key rec_ c h).1 := by
  unfold State.storeInsert
  extract_lets s1 put
  have hput (v : State) (l : Nat) (hv : s0.SameDev v) : s0.SameDev (put v l).1 := hv.hbmWrite.setTag.records
  have h1 : s0.SameDev s1 := hs.tagCheck.tagCheck
  split
  · split
    · exact hput _ _ h1
    · exact h1
  · have hp := h1.insertPath (n := s1.maxMoves) (h3 := fingerprint key) (bk := bucket1 key) (step := 0) (path := [])
    split
    next v hv =>
      rw [hv] at hp
      exact hp.bump (by decide)
    next v path hv =>
      rw [hv] at hp
      extract_lets s2
      have h2 : s0.SameDev s2 := hp.foldl fun _ _ h => h.moveSlot
      split
      · exact hput _ _ h2
      · exact h2

theorem State.SameDev.writeBack {e : CacheEnt} {keep : Bool} (hs : s0.SameDev s) : s0.SameDev (s.writeBack e keep).1 := by
  rw [State.writeBack]
  split
  · exact hs.hbmWrite.setTag
  · exact hs.storeInsert

theorem State.SameDev.flushCache {lose : Bool} (hs : s0.SameDev s) : s0.SameDev (s.flushCache lose) := by
  rw [State.flushCache]
  refine hs.foldl fun v w hv => ?_
  dsimp only
  split
  · exact hv
  · have hw := hv.writeBack (e := v.flow.cache.get w) (keep := true)
    split
    next x l hx =>
      rw [hx] at hw
      exact hw.setFlow
    next x hx =>
      rw [hx] at hw
      exact .ite hw.setFlow hw

/-! ### The herd's and the ports' state -/

theorem key_port_page (f : Field) {p : Nat} (hp : p < 12) (h : f.block = 33 ∧ f.off < 4096 ∧ f.lo < 64) : f.key p 0 0 / 17179869184 ≠ 0 := by
  obtain ⟨hb, ho, hl⟩ := h
  rw [Field.key_page (by decide) (by simpa using hl) (by simpa using ho), hb, pageBase_eq]
  have : pageBase 33 0 = 294912 := rfl
  omega

theorem State.SameDev.setHl {p v : Nat} (hs : s0.SameDev s) (hp : p < 12) : s0.SameDev (s.setHl p v) := by
  unfold State.setHl
  extract_lets old w
  have hw : s0.SameDev w := (hs.wr (key_port_page Reg.HLINK.LINK_STATE hp (by decide))).event
  exact .ite hs (.ite hw hw.event)

theorem State.SameDev.setHerdState {v : Nat} (hs : s0.SameDev s) : s0.SameDev (s.setHerdState v) := .ite hs (hs.wr (by decide)).event

theorem State.SameDev.departBy {n : Nat} (hs : s0.SameDev s) : s0.SameDev (s.departBy n) := by
  have h : s0.SameDev ((s.setHerdState 3).sendDepart s.ownId) := hs.setHerdState.regs (State.sends_sendDepart _ _).regs
  exact h.regs rfl

theorem State.SameDev.creqDrop {k : CommitKind} (hs : s0.SameDev s) : s0.SameDev (s.creqDrop k) := by
  cases k with
  | rules => exact .ite (.ite hs (hs.wr (by decide)).event) hs
  | context c => exact hs

theorem State.SameDev.creqLost (hs : s0.SameDev s) : s0.SameDev s.creqLost := by
  rw [State.creqLost_eq]
  refine .ite hs ?_
  have h : s0.SameDev (s.herd.creqPend.foldl (fun t e => t.creqDrop e.1) s).noRequests := hs.foldl fun _ _ h => h.creqDrop
  exact (h.wr (f := Reg.HERD.CMT_RESULT) (by decide)).event

theorem State.SameDev.aloneOf (hs : s0.SameDev s) : s0.SameDev s.aloneOf := by
  have h1 : s0.SameDev (s.wrNow Reg.HERD.JOIN 0) := hs.wr (f := Reg.HERD.JOIN) (v := 0) (i := 0) (j := 0) (k := 0) (by decide)
  have h2 : s0.SameDev (((s.wrNow Reg.HERD.JOIN 0).wr Reg.HERD.BELLWETHER 0).wr Reg.HERD.MEMBERS 1) := (h1.wr (by decide)).wr (by decide)
  have h3 : s0.SameDev s.aloneRegs := (h2.wr (by decide)).wr (by decide)
  exact h3

theorem State.SameDev.becomeAlone (hs : s0.SameDev s) : s0.SameDev s.becomeAlone := by
  rw [State.becomeAlone_eq]
  have h : s0.SameDev s.creqLost.keepRoutes := hs.creqLost
  exact h.setHerdState.aloneOf

theorem State.SameDev.announceLeave (hs : s0.SameDev s) : s0.SameDev s.announceLeave := .ite hs.departBy (.ite hs.becomeAlone hs)

/-- The fields of the availability counts. -/
def avKeys : List Nat :=
  [Reg.LEDG.AV_YEAR, Reg.LEDG.AV_PKTS, Reg.LEDG.AV_FLOSS, Reg.LEDG.AV_VPKTS, Reg.LEDG.AV_VLOSS, Reg.LEDG.AV_PREV_YEAR].map (fun f => f.key 0 0 0)
    ++ (List.range 4).map (fun i => Reg.LEDG.AV_PREV.key 0 i 0)

theorem avFloss_mem : Reg.LEDG.AV_FLOSS.key 0 0 0 ∈ avKeys := by decide

theorem State.avLoad_find (s : State) (v : List Nat) {k : Nat} (h : k ∉ avKeys) : (s.avLoad v).regs.find? k = s.regs.find? k := by
  have hl : avKeys = [Reg.LEDG.AV_YEAR.key 0 0 0, Reg.LEDG.AV_PKTS.key 0 0 0, Reg.LEDG.AV_FLOSS.key 0 0 0, Reg.LEDG.AV_VPKTS.key 0 0 0,
    Reg.LEDG.AV_VLOSS.key 0 0 0, Reg.LEDG.AV_PREV_YEAR.key 0 0 0, Reg.LEDG.AV_PREV.key 0 0 0, Reg.LEDG.AV_PREV.key 0 1 0, Reg.LEDG.AV_PREV.key 0 2 0,
    Reg.LEDG.AV_PREV.key 0 3 0] := rfl
  have h3 : List.range 4 = [0, 1, 2, 3] := rfl
  simp only [hl, List.mem_cons, List.not_mem_nil, or_false, not_or] at h
  obtain ⟨k0, k1, k2, k3, k4, k5, k6, k7, k8, k9⟩ := h
  unfold State.avLoad
  extract_lets g w
  rw [h3, List.foldl_cons, List.foldl_cons, List.foldl_cons, List.foldl_cons, List.foldl_nil, State.find_wr_ne _ _ _ _ _ _ _ k9,
    State.find_wr_ne _ _ _ _ _ _ _ k8, State.find_wr_ne _ _ _ _ _ _ _ k7, State.find_wr_ne _ _ _ _ _ _ _ k6, State.find_wr_ne _ _ _ _ _ _ _ k5,
    State.find_wr_ne _ _ _ _ _ _ _ k4, State.find_wr_ne _ _ _ _ _ _ _ k3, State.find_wr_ne _ _ _ _ _ _ _ k2, State.find_wr_ne _ _ _ _ _ _ _ k1,
    State.find_wr_ne _ _ _ _ _ _ _ k0]

theorem State.avLoad_time (s : State) (v : List Nat) : (s.avLoad v).time = s.time := by
  have h3 : List.range 4 = [0, 1, 2, 3] := rfl
  unfold State.avLoad
  extract_lets g w
  rw [h3, List.foldl_cons, List.foldl_cons, List.foldl_cons, List.foldl_cons, List.foldl_nil]
  simp only [State.wr_time, w]

theorem State.avYear_time (s : State) : s.avYear.time = s.time := by
  rw [State.avYear]
  split
  · rfl
  · exact s.avLoad_time _

theorem State.avSave_find (s : State) {k : Nat} (h : k ∉ avKeys) : s.avSave.regs.find? k = s.regs.find? k := by
  have hy : s.avYear.regs.find? k = s.regs.find? k := keeps_ite (P := fun u : State => u.regs.find? k = s.regs.find? k) rfl (s.avLoad_find _ h)
  exact hy

/-! ### A warm reset -/

/-- The state before the die's reset of a warm reset: the ports down, and with a request the flow records written back. -/
def State.beforeWarm (s : State) (req : Bool) : State :=
  let s := (List.range 12).foldl (fun t p => t.setHl p 0) s.announceLeave
  if req then (s.flow.victims.foldl (fun t e => (t.writeBack e false).1) (s.flushCache true)) else s

theorem State.SameDev.beforeWarm (s : State) (req : Bool) : s.SameDev (s.beforeWarm req) := by
  unfold State.beforeWarm
  extract_lets w
  have hports : ∀ (l : List Nat) (v : State), (∀ p ∈ l, p < 12) → s.SameDev v → s.SameDev (l.foldl (fun t p => t.setHl p 0) v) := by
    intro l
    induction l with
    | nil => exact fun _ _ h => h
    | cons p l ih => exact fun v hp h => ih _ (fun q hq => hp q (List.mem_cons_of_mem _ hq)) (h.setHl (hp p List.mem_cons_self))
  have hw : s.SameDev w := hports _ _ (fun p hp => List.mem_range.1 hp) (State.SameDev.refl s).announceLeave
  exact .ite (hw.flushCache.foldl fun _ _ h => h.writeBack) hw

theorem State.flowOnly_announceLeave (s : State) : s.FlowOnly s.announceLeave := by
  refine .ite ?_ (.ite s.herdOnly_becomeAlone.flowOnly (.refl s))
  obtain ⟨-, -, h⟩ := s.departBy_spec s.nextEpoch
  rw [State.ReportsOnly] at h
  rw [State.FlowOnly, State.ReportsOnly, h]

theorem State.flowOnly_flushCache (s : State) (lose : Bool) : s.FlowOnly (s.flushCache lose) := by
  refine (State.FlowOnly.refl s).foldl fun v w => ?_
  dsimp only
  split
  · exact .refl v
  · have hw := (State.StoreOnly.refl v).writeBack (e := v.flow.cache.get w) (keep := true)
    split
    next x l hx =>
      rw [hx] at hw
      exact hw.flowOnly.setWay
    next x hx =>
      rw [hx] at hw
      exact .ite hw.flowOnly.setWay hw.flowOnly

theorem State.flowOnly_beforeWarm (s : State) (req : Bool) : s.FlowOnly (s.beforeWarm req) := by
  unfold State.beforeWarm
  extract_lets w
  have hw : s.FlowOnly w := s.flowOnly_announceLeave.foldl fun v p => (v.reportsOnly_setHl p 0).flowOnly
  exact .ite ((hw.trans (w.flowOnly_flushCache true)).foldl fun v e => (State.StoreOnly.refl v).writeBack.flowOnly) hw

theorem State.beforeWarm_frame (s : State) (req : Bool) : (s.beforeWarm req).time = s.time ∧ (s.beforeWarm req).residentNow = s.residentNow := by
  have h := s.flowOnly_beforeWarm req
  rw [State.FlowOnly, State.ReportsOnly] at h
  rw [h]
  exact ⟨rfl, rfl⟩

/-- The counts of a warm reset and what the die's reset keeps of the device. -/
def State.warmCounted (s : State) (req dev : Bool) : State :=
  let lost := s.residentNow
  let s := (s.wr Reg.LEDG.RESET_LOST lost).bump Reg.DEV.WARM_RESETS
  let s := if dev then s.bump Reg.LEDG.AV_FLOSS 0 0 0 lost else s
  let s := if req then s.avSave else s
  { s with flt := { s.flt with resetBeat := s.time.beat, resetDev := dev, totals := (List.range 8).map (s.rd Reg.LEDG.DEV_LEDGER 0) } }

/-- The die after its warm reset. -/
def State.warmDie (s : State) (cause lost : Nat) (again : Bool) : State :=
  let t := s.onDie.wr Reg.DEV.RESET_CAUSE cause
  let t := if again then t.bump Reg.LEDG.AV_FLOSS 0 0 0 lost else t
  { t with sec := { t.sec with warm := true } }

theorem State.warmNow_eq (s : State) (req : Bool) (cause : Nat) : ∃ dev lost again,
    s.warmNow req cause = ((s.beforeWarm req).warmCounted req dev).warmDie cause lost again := by
  refine ⟨(List.range 16).any (fun l => (s.lanes.get l).pass && (s.lanes.get l).dev), (s.beforeWarm req).residentNow,
    decide ((List.range 16).any (fun l => (s.lanes.get l).pass && (s.lanes.get l).dev) = true ∧ ¬ req = true), ?_⟩
  simp only [State.warmNow, State.warmCounted, State.warmDie, State.beforeWarm, decide_eq_true_eq]

theorem State.onDie_find (s : State) {k : Nat} (hw : warmKeys.contains k = true) (ha : k ∉ avKeys) : s.onDie.regs.find? k = s.regs.find? k := by
  unfold State.onDie
  rw [State.avLoad_find _ _ ha]
  exact Tbl.find?_filter_key s.regs (fun n => warmKeys.contains n) hw

theorem State.rd_flossIf (s : State) (c : Prop) [Decidable c] (n : Nat) {f : Field} (hf : f.key 0 0 0 ∉ avKeys) :
    (if c then s.bump Reg.LEDG.AV_FLOSS 0 0 0 n else s).rd f = s.rd f := by
  split
  · exact s.rd_bump_ne Reg.LEDG.AV_FLOSS f 0 0 0 n 0 0 0 (fun e => hf (by rw [e]; exact avFloss_mem))
  · rfl

theorem State.time_flossIf (s : State) (c : Prop) [Decidable c] (n : Nat) : (if c then s.bump Reg.LEDG.AV_FLOSS 0 0 0 n else s).time = s.time := by
  split <;> rfl

theorem State.rd_savedIf (s : State) (c : Prop) [Decidable c] {f : Field} (hf : f.key 0 0 0 ∉ avKeys) : (if c then s.avSave else s).rd f = s.rd f := by
  split
  · rw [State.rd, State.rd, s.avSave_find hf]
  · rfl

theorem State.time_savedIf (s : State) (c : Prop) [Decidable c] : (if c then s.avSave else s).time = s.time := by
  split
  · exact s.avYear_time
  · rfl

theorem State.warmCounted_rd (s : State) (req dev : Bool) :
    (s.warmCounted req dev).rd Reg.DEV.WARM_RESETS = countUp Reg.DEV.WARM_RESETS (s.rd Reg.DEV.WARM_RESETS) ∧
    (s.warmCounted req dev).rd Reg.LEDG.RESET_LOST = s.residentNow % 2 ^ Reg.LEDG.RESET_LOST.width := by
  unfold State.warmCounted
  extract_lets lost s1 s2 s3
  have h1 : s1.rd Reg.DEV.WARM_RESETS = countUp Reg.DEV.WARM_RESETS (s.rd Reg.DEV.WARM_RESETS) := by
    rw [State.rd_bump, State.rd_wr_ne _ _ _ _ _ _ _ _ _ _ (by decide)]
  have h1' : s1.rd Reg.LEDG.RESET_LOST = lost % 2 ^ Reg.LEDG.RESET_LOST.width := by
    rw [State.rd_bump_ne _ _ _ _ _ _ _ _ _ _ (by decide), State.rd_wr_self]
  have step (f : Field) (hf : f.key 0 0 0 ∉ avKeys) : s3.rd f = s1.rd f := (s2.rd_savedIf _ hf).trans (s1.rd_flossIf _ _ hf)
  exact ⟨(step _ (by decide)).trans h1, (step _ (by decide)).trans h1'⟩

theorem State.warmCounted_time (s : State) (req dev : Bool) : (s.warmCounted req dev).time = s.time := by
  unfold State.warmCounted
  extract_lets lost s1 s2 s3
  have h2 : s2.time = s1.time := s1.time_flossIf _ _
  have h3 : s3.time = s2.time := s2.time_savedIf _
  have h1 : s1.time = s.time := by simp only [s1, State.bump_time, State.wr_time]
  exact h3.trans (h2.trans h1)

theorem State.warmDie_rd (s : State) (cause lost : Nat) (again : Bool) {f : Field} (hw : warmKeys.contains (f.key 0 0 0) = true)
    (ha : f.key 0 0 0 ∉ avKeys) (hc : f.key 0 0 0 ≠ Reg.DEV.RESET_CAUSE.key 0 0 0) : (s.warmDie cause lost again).rd f = s.rd f := by
  have h1 : (s.onDie.wr Reg.DEV.RESET_CAUSE cause).rd f = s.rd f := by
    rw [State.rd_wr_ne _ _ _ _ _ _ _ _ _ _ hc, State.rd, State.rd, s.onDie_find hw ha]
  unfold State.warmDie
  extract_lets w w'
  have h2 : w'.rd f = w.rd f := w.rd_flossIf _ _ ha
  exact (State.rd_congr rfl f 0 0 0).trans (h2.trans h1)

/-- What a die that has just been reset holds. -/
def State.FreshDie (s t : State) (cause : Nat) : Prop :=
  t.sec.booting = true ∧ t.time.started = false ∧ t.time.beat = s.time.beat ∧ t.rd Reg.DEV.RESET_CAUSE = cause ∧ t.auth = {} ∧ t.pkts = []

theorem State.freshDie_onDie (s : State) {cause : Nat} (hc : cause < 8) : s.FreshDie (s.onDie.wr Reg.DEV.RESET_CAUSE cause) cause :=
  ⟨rfl, rfl, rfl, (State.rd_wr_self s.onDie _ cause 0 0 0).trans (Nat.mod_eq_of_lt hc), rfl, rfl⟩

theorem State.FreshDie.givenWarm {cause : Nat} (h : s.FreshDie t cause) (b : Bool) : s.FreshDie { t with sec := { t.sec with warm := b } } cause := h

theorem State.FreshDie.bumpFloss {cause n : Nat} (h : s.FreshDie t cause) : s.FreshDie (t.bump Reg.LEDG.AV_FLOSS 0 0 0 n) cause := by
  obtain ⟨h1, h2, h3, h4, h5, h6⟩ := h
  exact ⟨h1, h2, h3, (State.rd_bump_ne _ _ _ _ _ _ _ _ _ _ (by decide)).trans h4, h5, h6⟩

theorem State.FreshDie.flossIf {cause : Nat} (h : s.FreshDie t cause) (c : Prop) [Decidable c] (n : Nat) :
    s.FreshDie (if c then t.bump Reg.LEDG.AV_FLOSS 0 0 0 n else t) cause := by
  split
  · exact h.bumpFloss
  · exact h

theorem State.freshDie_warmDie (s : State) {cause : Nat} (lost : Nat) (again : Bool) (hc : cause < 8) :
    s.FreshDie (s.warmDie cause lost again) cause ∧ (s.warmDie cause lost again).sec.warm = true := by
  exact ⟨((s.freshDie_onDie hc).flossIf _ lost).givenWarm true, rfl⟩

theorem State.warmNow_fresh (s : State) (req : Bool) {cause : Nat} (hc : cause < 8) :
    s.FreshDie (s.warmNow req cause) cause ∧ (s.warmNow req cause).sec.warm = true := by
  obtain ⟨dev, lost, again, he⟩ := s.warmNow_eq req cause
  obtain ⟨⟨h1, h2, h3, h4, h5, h6⟩, h7⟩ := ((s.beforeWarm req).warmCounted req dev).freshDie_warmDie lost again hc
  rw [he]
  exact ⟨⟨h1, h2, by rw [h3, State.warmCounted_time, (s.beforeWarm_frame req).1], h4, h5, h6⟩, h7⟩

theorem State.resetNow_fresh (s : State) (req : Bool) {cause : Nat} (hc : cause < 8) : s.FreshDie (s.resetNow req cause) cause :=
  keeps_ite (P := fun u : State => s.FreshDie u cause) (s.warmNow_fresh req hc).1 ((s.freshDie_onDie hc).givenWarm s.sec.warm)

theorem execResetNLow_resets (s : State) (h : s.sec.pwrGood = true) (h1 : s.sec.resetN = true) : ∃ t, execResetNLow s = .next t ∧
    t.sec.resetN = false ∧ t.sec.booting = false ∧ t.time.started = false ∧ t.rd Reg.DEV.RESET_CAUSE = 3 ∧ t.auth = {} ∧ t.pkts = [] ∧
    t.pending = s.pending := by
  obtain ⟨-, h3, -, h5, h6, h7⟩ := s.resetNow_fresh false (cause := 3) (by decide)
  have hp : (s.resetNow false 3).pending = s.pending := ((State.Keeps.refl s).after.resetNow (req := false) (cause := 3)).1
  exact ⟨_, if_pos ⟨h, h1⟩, rfl, rfl, h3, h5, h6, h7, hp⟩

theorem execResetNLow_again (s : State) (h : s.sec.pwrGood = false ∨ s.sec.resetN = false) : execResetNLow s = .next s :=
  if_neg (fun hc => h.elim (fun e => absurd (e.symm.trans hc.1) Bool.false_ne_true) (fun e => absurd (e.symm.trans hc.2) Bool.false_ne_true))

theorem execResetNRelease_releases (s : State) (h : s.sec.resetN = false) :
    execResetNRelease s = .next { s with sec := { s.sec with resetN := true, booting := s.sec.pwrGood } } :=
  if_neg (by rw [h]; exact Bool.false_ne_true)

theorem execResetNRelease_again (s : State) (h : s.sec.resetN = true) : execResetNRelease s = .next s := if_pos h

theorem State.requestReset_open (cold : Bool) (k : Nat) (h : s.sec.pwrGood = true) (h1 : s.sec.resetN = true)
    (h2 : s.mayWrite src true = true) : ∃ r1 r3 r0, s.requestReset src cold k = if k ≠ 0x5253 then (s.wrote src).audit r1
      else if (s.wrote src).sec.reqReset.isSome ∧ ¬ cold then (s.wrote src).audit r3
      else if ((s.wrote src).audit r0).time.started then
        { (s.wrote src).audit r0 with
          sec := { ((s.wrote src).audit r0).sec with reqReset := some cold, reqBeat := ((s.wrote src).audit r0).time.beat } }
      else if cold then ((s.wrote src).audit r0).coldNow 5 else ((s.wrote src).audit r0).resetNow true 4 := by
  have hb : ¬ (¬ s.sec.pwrGood = true ∨ ¬ s.sec.resetN = true ∨ ¬ s.mayWrite src true = true) := by simp [h, h1, h2]
  unfold State.requestReset
  simp only [if_neg hb]
  exact ⟨_, _, _, rfl⟩

theorem State.reqReset_audited (s : State) (src : Source) (r : AuditRec) : ((s.wrote src).audit r).sec.reqReset = s.sec.reqReset ∧
    s.WriteOnly ((s.wrote src).audit r) :=
  ⟨by rw [State.audit_sec, State.wrote_reqReset], by simp [State.writeOnly_iff]⟩

section
variable (h : s.sec.pwrGood = true) (h1 : s.sec.resetN = true) (h2 : s.mayWrite src true = true)
include h h1 h2

theorem State.requestReset_badKey (cold : Bool) {k : Nat} (hk : k ≠ 0x5253) :
    (s.requestReset src cold k).sec.reqReset = s.sec.reqReset ∧ s.WriteOnly (s.requestReset src cold k) := by
  obtain ⟨r1, r3, r0, he⟩ := State.requestReset_open cold k h h1 h2
  rw [he, if_pos hk]
  exact s.reqReset_audited src r1

theorem State.requestReset_pending (hq : s.sec.reqReset ≠ none) :
    (s.requestReset src false 0x5253).sec.reqReset = s.sec.reqReset ∧ s.WriteOnly (s.requestReset src false 0x5253) := by
  obtain ⟨r1, r3, r0, he⟩ := State.requestReset_open false 0x5253 h h1 h2
  have hs : (s.wrote src).sec.reqReset.isSome = true ∧ ¬ false = true := ⟨by rw [State.wrote_reqReset]; exact Option.isSome_iff_ne_none.2 hq, Bool.false_ne_true⟩
  rw [he, if_neg (not_not.2 rfl), if_pos hs]
  exact s.reqReset_audited src r3

theorem State.requestReset_waits (cold : Bool) (hr : s.time.started = true) (hq : s.sec.reqReset = none ∨ cold = true) :
    (s.requestReset src cold 0x5253).sec.reqReset = some cold ∧ (s.requestReset src cold 0x5253).sec.reqBeat = s.time.beat ∧
    s.WriteOnly (s.requestReset src cold 0x5253) := by
  obtain ⟨r1, r3, r0, he⟩ := State.requestReset_open cold 0x5253 h h1 h2
  have hs : ¬ ((s.wrote src).sec.reqReset.isSome = true ∧ ¬ cold = true) := by
    rintro ⟨hi, hc⟩
    rw [State.wrote_reqReset, hq.resolve_right hc] at hi
    exact absurd hi (by decide)
  have hw := (s.reqReset_audited src r0).2
  have ht : ((s.wrote src).audit r0).time = s.time := by rw [State.audit_time, State.wrote_time]
  rw [he, if_neg (not_not.2 rfl), if_neg hs, ht, if_pos hr]
  exact ⟨rfl, rfl, hw.trans rfl⟩

end

theorem resetRequests_badKey (s : State) (src : Source) (k : BitVec 16) (h : s.sec.pwrGood = true) (h1 : s.sec.resetN = true)
    (h2 : s.mayWrite src true = true) (h3 : k ≠ 0x5253#16) :
    (∃ t, execWarmRequest src k s = .next t ∧ t.sec.reqReset = s.sec.reqReset ∧ s.WriteOnly t) ∧
    (∃ t, execColdRequest src k s = .next t ∧ t.sec.reqReset = s.sec.reqReset ∧ s.WriteOnly t) := by
  have hk : k.toNat ≠ 0x5253 := fun e => h3 (BitVec.eq_of_toNat_eq e)
  exact ⟨⟨_, rfl, State.requestReset_badKey h h1 h2 false hk⟩, ⟨_, rfl, State.requestReset_badKey h h1 h2 true hk⟩⟩

theorem resetRequests_wait (s : State) (src : Source) (h : s.sec.pwrGood = true) (h1 : s.sec.resetN = true) (h2 : s.mayWrite src true = true)
    (h3 : s.Runs) : (s.sec.reqReset = none → ∃ t, execWarmRequest src 0x5253#16 s = .next t ∧ t.sec.reqReset = some false ∧
      t.sec.reqBeat = s.time.beat ∧ s.WriteOnly t) ∧
    (s.sec.reqReset ≠ none → ∃ t, execWarmRequest src 0x5253#16 s = .next t ∧ t.sec.reqReset = s.sec.reqReset ∧ s.WriteOnly t) ∧
    (∃ t, execColdRequest src 0x5253#16 s = .next t ∧ t.sec.reqReset = some true ∧ t.sec.reqBeat = s.time.beat ∧ s.WriteOnly t) :=
  ⟨fun hq => ⟨_, rfl, State.requestReset_waits h h1 h2 false h3 (.inl hq)⟩, fun hq => ⟨_, rfl, State.requestReset_pending h h1 h2 hq⟩,
    ⟨_, rfl, State.requestReset_waits h h1 h2 true h3 (.inr rfl)⟩⟩

theorem State.coldNow_spec (s : State) {cause : Nat} (hc : cause < 8) : (s.coldNow cause).rd Reg.DEV.RESET_CAUSE = cause ∧
    (s.coldNow cause).sec.booting = true ∧ (s.coldNow cause).time = State.reset.time ∧ (s.coldNow cause).auth = {} ∧ (s.coldNow cause).pkts = [] ∧
    (s.coldNow cause).ctxs = [] ∧ (s.coldNow cause).cls = State.reset.cls := by
  unfold State.coldNow
  extract_lets w
  exact ⟨(State.rd_wr_self w.flashOnly _ cause 0 0 0).trans (Nat.mod_eq_of_lt hc), rfl, rfl, rfl, rfl, rfl, rfl⟩

theorem resetRequests_atOnce (s : State) (src : Source) (h : s.sec.pwrGood = true) (h1 : s.sec.resetN = true) (h2 : s.mayWrite src true = true)
    (h3 : s.time.started = false) (h4 : s.sec.reqReset = none) :
    (∃ t, execWarmRequest src 0x5253#16 s = .next t ∧ t.rd Reg.DEV.RESET_CAUSE = 4 ∧ t.sec.booting = true ∧ t.auth = {}) ∧
    (∃ t, execColdRequest src 0x5253#16 s = .next t ∧ t.rd Reg.DEV.RESET_CAUSE = 5 ∧ t.sec.booting = true ∧ t.auth = {}) := by
  obtain ⟨r, hw⟩ := s.requestReset_atOnce src false h h1 h2 h3 h4
  obtain ⟨q, hc⟩ := s.requestReset_atOnce src true h h1 h2 h3 h4
  obtain ⟨f1, -, -, f4, f5, -⟩ := ((s.wrote src).audit r).resetNow_fresh true (cause := 4) (by decide)
  obtain ⟨c1, c2, -, c4, -⟩ := ((s.wrote src).audit q).coldNow_spec (cause := 5) (by decide)
  have hk : (0x5253#16).toNat = 0x5253 := rfl
  refine ⟨⟨_, rfl, ?_⟩, ⟨_, rfl, ?_⟩⟩
  · rw [hk, hw, if_neg Bool.false_ne_true]
    exact ⟨f4, f1, f5⟩
  · rw [hk, hc, if_pos rfl]
    exact ⟨c1, c2, c4⟩

theorem execWarmReset_resets (s : State) (h : s.sec.reqReset = some false) (h1 : s.Runs) (h2 : s.sec.reqBeat < s.time.beat) : ∃ t,
    execWarmReset s = .next t ∧ t.time.started = false ∧ t.time.beat = s.time.beat ∧ t.sec.warm = true ∧ t.sec.booting = true ∧
    t.rd Reg.DEV.RESET_CAUSE = 4 ∧ s.Counts t Reg.DEV.WARM_RESETS ∧
    t.rd Reg.LEDG.RESET_LOST = s.residentNow % 2 ^ Reg.LEDG.RESET_LOST.width ∧ t.pkts = [] ∧ t.auth = {} ∧ t.pending = s.pending := by
  obtain ⟨⟨f1, f2, f3, f4, f5, f6⟩, f7⟩ := s.warmNow_fresh true (cause := 4) (by decide)
  have hp : (s.warmNow true 4).pending = s.pending := ((State.Keeps.refl s).after.warmNow (req := true) (cause := 4)).1
  obtain ⟨dev, lost, again, he⟩ := s.warmNow_eq true 4
  obtain ⟨c1, c2⟩ := (s.beforeWarm true).warmCounted_rd true dev
  refine ⟨_, if_pos ⟨h, h1, h2⟩, f2, f3, f7, f1, f4, ?_, ?_, f6, f5, hp⟩
  · rw [State.Counts, he, State.warmDie_rd _ _ _ _ (by decide) (by decide) (by decide), c1,
      (State.SameDev.beforeWarm s true).rd Reg.DEV.WARM_RESETS (by decide) (by decide)]
  · rw [he, State.warmDie_rd _ _ _ _ (by decide) (by decide) (by decide), c2, (s.beforeWarm_frame true).2]

theorem execWarmReset_notDue (s : State) (h : s.sec.reqReset ≠ some false ∨ s.time.beat ≤ s.sec.reqBeat) : execWarmReset s = .next s :=
  if_neg (fun hc => h.elim (fun e => e hc.1) (fun e => absurd hc.2.2 (Nat.not_lt.2 e)))

/-- The die without power. -/
def State.unpowered (t : State) : State := { t with sec := { t.sec with pwrGood := false, booting := false } }

theorem State.unpowered_spec (t : State) : t.unpowered.sec.pwrGood = false ∧ t.unpowered.sec.booting = false ∧
    t.unpowered.rd Reg.DEV.RESET_CAUSE = t.rd Reg.DEV.RESET_CAUSE ∧ t.unpowered.time = t.time ∧ t.unpowered.auth = t.auth ∧ t.unpowered.pkts = t.pkts ∧
    t.unpowered.ctxs = t.ctxs ∧ t.unpowered.cls = t.cls ∧ t.unpowered.pending = t.pending :=
  ⟨rfl, rfl, rfl, rfl, rfl, rfl, rfl, rfl, rfl⟩

theorem execPwrGoodLow_resets (s : State) : ∃ t, execPwrGoodLow s = .next t ∧ t.sec.pwrGood = false ∧ t.sec.booting = false ∧
    t.rd Reg.DEV.RESET_CAUSE = 2 ∧ t.time = State.reset.time ∧ t.auth = {} ∧ t.pkts = [] ∧ t.ctxs = [] ∧ t.cls = State.reset.cls ∧
    t.pending = s.pending := by
  obtain ⟨c1, -, c3, c4, c5, c6, c7⟩ := s.coldNow_spec (cause := 2) (by decide)
  have hp : (s.coldNow 2).pending = s.pending := ((State.Keeps.refl s).after.coldNow (cause := 2)).1
  obtain ⟨p1, p2, p3, p4, p5, p6, p7, p8, p9⟩ := (s.coldNow 2).unpowered_spec
  exact ⟨_, rfl, p1, p2, p3.trans c1, p4.trans c3, p5.trans c4, p6.trans c5, p7.trans c6, p8.trans c7, p9.trans hp⟩

theorem execPwrGoodRise_starts (s : State) (b : Fin 4) (c h : Bool) (hp : s.sec.pwrGood = false) : ∃ t, execPwrGoodRise b c h s = .next t ∧
    t.sec = { s.sec with pwrGood := true, bootSrc := b.val, compat := c, herdEn := h, booting := s.sec.resetN } ∧
    t = { s with regs := t.regs, sec := t.sec } ∧ (s.rd Reg.DEV.RESET_CAUSE = 0 → t.rd Reg.DEV.RESET_CAUSE = 1) := by
  obtain ⟨r, hr, hc⟩ : ∃ r, (if s.rd Reg.DEV.RESET_CAUSE = 0 then s.wr Reg.DEV.RESET_CAUSE 1 else s) = { s with regs := r } ∧
      (s.rd Reg.DEV.RESET_CAUSE = 0 → ({ s with regs := r } : State).rd Reg.DEV.RESET_CAUSE = 1) := by
    split
    next => exact ⟨_, rfl, fun _ => s.rd_wr_self Reg.DEV.RESET_CAUSE 1 0 0 0⟩
    next h0 => exact ⟨s.regs, rfl, fun e => absurd e h0⟩
  have hn : ¬ s.sec.pwrGood = true := by rw [hp]; exact Bool.false_ne_true
  rw [execPwrGoodRise, if_neg hn]
  dsimp only
  rw [hr]
  exact ⟨_, rfl, rfl, rfl, hc⟩

theorem execPwrGoodRise_again (s : State) (b : Fin 4) (c h : Bool) (hp : s.sec.pwrGood = true) : execPwrGoodRise b c h s = .next s := if_pos hp

/-! ### Revalidation and the return to service -/

theorem execRevalidation_runs (s : State) (h : s.sec.warm = true) (h1 : s.sec.reval = false) (h2 : s.rd Reg.DEV.STAGE = 4) : ∃ t,
    execRevalidation s = .next t ∧ t.sec.reval = true ∧ t.flt.jFail = [] := by
  rw [execRevalidation, if_neg (by simp [h, h1, h2])]
  exact ⟨_, rfl, rfl, rfl⟩

theorem execRevalidation_notDue (s : State) (h : s.sec.warm = false ∨ s.rd Reg.DEV.STAGE ≠ 4) : execRevalidation s = .next s :=
  if_pos (h.elim (fun e => .inl (by rw [e]; exact Bool.false_ne_true)) (fun e => .inr (.inr e)))

theorem State.SameDev.trainPort {p : Nat} (hs : s0.SameDev s) (hp : p < 12) : s0.SameDev (s.trainPort p) := by
  unfold State.trainPort
  extract_lets w
  have hw : s0.SameDev w := hs
  exact .ite (hw.setHl hp) (.ite (hw.setHl hp) (hw.setHl hp))

theorem State.SameDev.retrainPorts (hs : s0.SameDev s) : s0.SameDev s.retrainPorts := by
  have key : ∀ (l : List Nat) (v : State), (∀ p ∈ l, p < 12) → s0.SameDev v →
      s0.SameDev (l.foldl (fun t p => if t.linkState p = 0 ∨ t.linkState p = 7 ∨ ¬ t.portUsed p then t.trainPort p else t) v) := by
    intro l
    induction l with
    | nil => exact fun _ _ h => h
    | cons p l ih => exact fun v hp h => ih _ (fun q hq => hp q (List.mem_cons_of_mem _ hq)) (.ite (h.trainPort (hp p List.mem_cons_self)) h)
  exact key _ s (fun p hp => List.mem_range.1 hp) hs

theorem State.retrainPorts_spec (s : State) : s.retrainPorts.rd Reg.DEV.STAGE = s.rd Reg.DEV.STAGE ∧ s.retrainPorts.time = s.time ∧
    s.retrainPorts.sec = s.sec ∧ s.retrainPorts.pkts = s.pkts ∧ s.retrainPorts.cls = s.cls ∧ s.retrainPorts.ctxs = s.ctxs := by
  have ht := s.trains_retrainPorts.1
  rw [State.ReportsOnly] at ht
  refine ⟨(State.SameDev.refl s).retrainPorts.rd Reg.DEV.STAGE (by decide) (by decide), ?_⟩
  rw [ht]
  exact ⟨rfl, rfl, rfl, rfl, rfl⟩

/-- The data path's registers at its start, with n rings of history. -/
def State.pathStarted (s : State) (n : Nat) : State :=
  ({ s with time := { s.time with started := true } }.wr Reg.DEV.STAGE 5).wr Reg.FLOW.HIST_RINGS n

theorem State.rd_started (s : State) (n : Nat) : ((s.wr Reg.DEV.STAGE 5).wr Reg.FLOW.HIST_RINGS n).rd Reg.DEV.STAGE = 5 := by
  rw [State.rd_wr_ne _ _ _ _ _ _ _ _ _ _ (by decide), State.rd_wr_self]
  rfl

theorem State.pathStarted_spec (s : State) (n : Nat) : (s.pathStarted n).rd Reg.DEV.STAGE = 5 ∧
    (s.pathStarted n).time = { s.time with started := true } ∧ (s.pathStarted n).sec = s.sec ∧ (s.pathStarted n).pkts = s.pkts ∧
    (s.pathStarted n).cls = s.cls ∧ (s.pathStarted n).ctxs = s.ctxs :=
  ⟨State.rd_started _ n, rfl, rfl, rfl, rfl, rfl⟩

theorem State.dataPath_eq (s : State) : ∃ n, s.dataPath = (s.pathStarted n).retrainPorts := ⟨_, rfl⟩

theorem State.dataPath_spec (s : State) : s.dataPath.rd Reg.DEV.STAGE = 5 ∧ s.dataPath.time = { s.time with started := true } ∧ s.dataPath.sec = s.sec ∧
    s.dataPath.pkts = s.pkts ∧ s.dataPath.cls = s.cls ∧ s.dataPath.ctxs = s.ctxs := by
  obtain ⟨n, hn⟩ := s.dataPath_eq
  obtain ⟨p1, p2, p3, p4, p5, p6⟩ := s.pathStarted_spec n
  obtain ⟨r1, r2, r3, r4, r5, r6⟩ := (s.pathStarted n).retrainPorts_spec
  rw [hn]
  exact ⟨r1.trans p1, r2.trans p2, r3.trans p3, r4.trans p4, r5.trans p5, r6.trans p6⟩

theorem State.resetRecord_spec (s : State) : s.ReportsOnly s.resetRecord ∧ s.resetRecord.rd Reg.DEV.STAGE = s.rd Reg.DEV.STAGE := by
  unfold State.resetRecord
  extract_lets l
  exact ⟨.fault _ _, State.rd_fault _ _ _ _ _ _ (by decide)⟩

/-- The reset is over. -/
def State.warmOver (s : State) : State := { s with sec := { s.sec with warm := false, reval := false } }

/-- The packets lost to a reset of the device's own fault are counted, and the return to service is an event. -/
def State.lossCounted (s : State) : State :=
  let out := (s.time.beat - s.flt.resetBeat) * s.flt.lastEpochPkts / 65536
  let s := if s.flt.resetDev then (s.bump Reg.LEDG.AV_FLOSS 0 0 0 out).bump Reg.LEDG.AV_PKTS 0 0 0 out else s
  s.event Blk.DEV 0 0

theorem State.reportsOnly_lossCounted (s : State) : s.ReportsOnly s.lossCounted := by
  rw [State.lossCounted]
  split
  · exact (State.ReportsOnly.trans (.bump _ _ _ _ _ _) (.bump _ _ _ _ _ _)).trans (.event _ _ _ _)
  · exact .event _ _ _ _

theorem State.warmOver_spec (s : State) : s.warmOver.time = s.time ∧ s.warmOver.sec = { s.sec with warm := false, reval := false } ∧
    s.warmOver.pkts = s.pkts ∧ s.warmOver.cls = s.cls ∧ s.warmOver.ctxs = s.ctxs := ⟨rfl, rfl, rfl, rfl, rfl⟩

theorem execServiceResume_eq (s : State) (h : s.sec.warm = true) (h1 : s.sec.reval = true) :
    execServiceResume s = .next s.warmOver.lossCounted.dataPath.resetRecord := by
  rw [execServiceResume, if_neg (by simp [h, h1])]
  rfl

theorem State.ReportsOnly.fields (h : s.ReportsOnly t) : t.time = s.time ∧ t.sec = s.sec ∧ t.pkts = s.pkts ∧ t.cls = s.cls ∧ t.ctxs = s.ctxs := by
  rw [State.ReportsOnly] at h
  rw [h]
  exact ⟨rfl, rfl, rfl, rfl, rfl⟩

theorem execServiceResume_resumes (s : State) (h : s.sec.warm = true) (h1 : s.sec.reval = true) : ∃ t, execServiceResume s = .next t ∧
    t.time = { s.time with started := true } ∧ t.rd Reg.DEV.STAGE = 5 ∧ t.sec = { s.sec with warm := false, reval := false } ∧ t.pkts = s.pkts ∧
    t.cls = s.cls ∧ t.ctxs = s.ctxs := by
  obtain ⟨w1, w2, w3, w4, w5⟩ := s.warmOver_spec
  obtain ⟨l1, l2, l3, l4, l5⟩ := s.warmOver.reportsOnly_lossCounted.fields
  obtain ⟨d1, d2, d3, d4, d5, d6⟩ := s.warmOver.lossCounted.dataPath_spec
  obtain ⟨hr, r2⟩ := s.warmOver.lossCounted.dataPath.resetRecord_spec
  obtain ⟨r1, r3, r4, r5, r6⟩ := hr.fields
  exact ⟨_, execServiceResume_eq s h h1, by rw [r1, d2, l1, w1], r2.trans d1, by rw [r3, d3, l2, w2], by rw [r4, d4, l3, w3], by rw [r5, d5, l4, w4],
    by rw [r6, d6, l5, w5]⟩

theorem execServiceResume_notDue (s : State) (h : s.sec.warm = false ∨ s.sec.reval = false) : execServiceResume s = .next s :=
  if_pos (h.imp (fun e => by rw [e]; exact Bool.false_ne_true) (fun e => by rw [e]; exact Bool.false_ne_true))

/-- Settles O35. -/
theorem resetCommands : Obligations.ResetCommands :=
  ⟨execResetNLow_resets, execResetNLow_again, execResetNRelease_releases, execResetNRelease_again, resetRequests_badKey, resetRequests_wait,
    resetRequests_atOnce, execWarmReset_resets, execWarmReset_notDue, execRevalidation_runs, execRevalidation_notDue, execServiceResume_resumes,
    execServiceResume_notDue, execPwrGoodLow_resets, execPwrGoodRise_starts, execPwrGoodRise_again⟩

end Sys2Proof.Machine
end

section
/-! PROOF. Host-bound queues, injection and expert writes of buckets (R266 to R277, R292): O30. -/

namespace Sys2Proof.Machine

-- One thread for the proofs, which bounds the memory that checking them takes.
set_option Elab.async false

open Sys2Proof

variable {s t u : State} {src : Source}

/-! ### The counts of a queue -/

theorem key_prod_ne_cons (q : Nat) : Reg.HQ.PROD.key 0 q 0 ≠ Reg.HQ.CONS.key 0 q 0 := Field.key_ne_of_off_ne _ _ 0 q 0 rfl rfl rfl rfl (by decide)

theorem key_prod_ne_lost (q : Nat) : Reg.HQ.PROD.key 0 q 0 ≠ Reg.HQ.LOST.key 0 q 0 := Field.key_ne_of_off_ne _ _ 0 q 0 rfl rfl rfl rfl (by decide)

theorem key_cons_ne_lost (q : Nat) : Reg.HQ.CONS.key 0 q 0 ≠ Reg.HQ.LOST.key 0 q 0 := Field.key_ne_of_off_ne _ _ 0 q 0 rfl rfl rfl rfl (by decide)

theorem State.rd_of_find (f : Field) (i j k : Nat) (h : t.regs.find? (f.key i j k) = s.regs.find? (f.key i j k)) : t.rd f i j k = s.rd f i j k := by
  rw [State.rd, State.rd, h]

theorem State.rd_cons_hqPlace (s : State) (q : Nat) (bs : List Byte) : (s.hqPlace q bs).rd Reg.HQ.CONS 0 q = s.rd Reg.HQ.CONS 0 q :=
  State.rd_of_find _ _ _ _ (s.find_hqPlace_ne q _ bs (key_prod_ne_cons q).symm)

theorem State.rd_lost_hqPlace (s : State) (q : Nat) (bs : List Byte) : (s.hqPlace q bs).rd Reg.HQ.LOST 0 q = s.rd Reg.HQ.LOST 0 q :=
  State.rd_of_find _ _ _ _ (s.find_hqPlace_ne q _ bs (key_prod_ne_lost q).symm)

theorem State.hqLose_rd (s : State) (q : Nat) (h : s.consSeen q = s.rd Reg.HQ.CONS 0 q) :
    (s.hqLose q).rd Reg.HQ.CONS 0 q = (s.rd Reg.HQ.CONS 0 q + 1) % 2 ^ 64 ∧ s.Counts (s.hqLose q) Reg.HQ.LOST 0 q ∧
    (s.hqLose q).rd Reg.HQ.PROD 0 q = s.rd Reg.HQ.PROD 0 q := by
  have hr : (s.hqLose q).regs = ((s.wr Reg.HQ.CONS (Nat.max (s.rd Reg.HQ.CONS 0 q) (s.consSeen q + 1)) 0 q).bump Reg.HQ.LOST 0 q).regs := rfl
  have hm : Nat.max (s.rd Reg.HQ.CONS 0 q) (s.consSeen q + 1) = s.rd Reg.HQ.CONS 0 q + 1 := by
    rw [h]
    exact Nat.max_eq_right (Nat.le_succ _)
  refine ⟨?_, ?_, s.rd_prod_hqLose q⟩
  · rw [State.rd_congr hr, State.rd_bump_ne _ _ _ _ _ _ _ _ _ _ (key_cons_ne_lost q), State.rd_wr_self, hm]
    rfl
  · rw [State.Counts, State.rd_congr hr, State.rd_bump, State.rd_wr_ne _ _ _ _ _ _ _ _ _ _ (key_cons_ne_lost q).symm]

/-! ### HQ_PRODUCE -/

theorem State.lineProtected_hbmWrite (s : State) (a : Nat) (bs : List Byte) : (s.hbmWrite a bs).lineProtected = s.lineProtected := by
  obtain ⟨m, f, h⟩ := s.hbmWrite_spec a bs
  rw [h]
  rfl

theorem State.cycLate_hbmPut (s : State) (a : Nat) (bs : List Byte) : (s.hbmPut a bs).cycLate = s.cycLate := by
  unfold State.hbmPut State.hbmPutAs
  extract_lets n late old m t
  obtain ⟨f, hf⟩ : ∃ f, t = { s with hbm := m, flt := f } := State.touchLines_flt _ { s with hbm := m } a n
  rw [hf, if_pos rfl]
  exact if_pos rfl

theorem State.cycLate_hbmWrite (s : State) (a : Nat) (bs : List Byte) (hp : (linesOf a bs.length).any s.lineProtected = false) (h : s.cycLate = []) :
    (s.hbmWrite a bs).cycLate = [] := by
  rw [State.hbmWrite, if_neg (by simp [hp]), s.cycLate_hbmPut, h]

/-- Two writes that do not meet, each of unprotected lines. -/
theorem State.hbmWrite_twice (s : State) {a b : Nat} {xs ys : List Byte} (h : s.cycLate = []) (hd : a + xs.length ≤ b ∨ b + ys.length ≤ a)
    (hp : (linesOf a xs.length ++ linesOf b ys.length).any s.lineProtected = false) :
    Mem.readN ((s.hbmWrite a xs).hbmWrite b ys).hbm a xs.length = xs ∧ Mem.readN ((s.hbmWrite a xs).hbmWrite b ys).hbm b ys.length = ys ∧
    (∀ c, (c < a ∨ a + xs.length ≤ c) → (c < b ∨ b + ys.length ≤ c) → Mem.read ((s.hbmWrite a xs).hbmWrite b ys).hbm c = Mem.read s.hbm c) := by
  rw [List.any_append, Bool.or_eq_false_iff] at hp
  obtain ⟨hpa, hpb⟩ := hp
  have h1 : (s.hbmWrite a xs).hbm = Mem.writeN s.hbm a xs := s.hbmWrite_hbm a xs hpa h
  have h2 : ((s.hbmWrite a xs).hbmWrite b ys).hbm = Mem.writeN (Mem.writeN s.hbm a xs) b ys := by
    rw [State.hbmWrite_hbm _ b ys (by rw [s.lineProtected_hbmWrite]; exact hpb) (s.cycLate_hbmWrite a xs hpa h), h1]
  rw [h2]
  refine ⟨?_, Mem.readN_writeN _ _ _, fun c hc hc' => ?_⟩
  · refine Eq.trans (List.map_congr_left fun i hi => ?_) (Mem.readN_writeN s.hbm a xs)
    have := List.mem_range.1 hi
    exact Mem.read_writeN_ne _ _ _ _ (by omega)
  · rw [Mem.read_writeN_ne _ _ _ _ hc', Mem.read_writeN_ne _ _ _ _ hc]

theorem State.hqPlace_hbm (s : State) (q : Nat) (bs : List Byte) (h : s.act Reg.HQ.LOC 0 q = 0) :
    (s.hqPlace q bs).hbm = ((s.hbmWrite (s.act Reg.HQ.RING_BASE 0 q + s.rd Reg.HQ.PROD 0 q % s.hqSlots q * s.rd Reg.HQ.SLOT_BYTES 0 q) bs).hbmWrite
      (s.act Reg.HQ.TAG_BASE 0 q + s.rd Reg.HQ.PROD 0 q % s.hqSlots q * 8) (leBytes 8 (s.rd Reg.HQ.PROD 0 q % 2 ^ 63 + 2 ^ 63))).hbm := by
  unfold State.hqPlace
  extract_lets n slot loc s1 s2 s3
  have h0 : ¬ loc = 1 := by omega
  have h1 : s1 = s.hbmWrite (s.act Reg.HQ.RING_BASE 0 q + slot * s.rd Reg.HQ.SLOT_BYTES 0 q) bs := if_neg h0
  have h2 : s2 = s1.hbmWrite (s.act Reg.HQ.TAG_BASE 0 q + slot * 8) (leBytes 8 (n % 2 ^ 63 + 2 ^ 63)) := if_neg h0
  show s2.hbm = _
  rw [h2, h1]

/-- An item in a queue with room. -/
theorem State.hqProduce_room (s : State) (q : Nat) (bs : List Byte) (h : ¬ (s.devSafe = true ∧ q ≠ 6)) (h1 : s.hqOff q = false)
    (h2 : s.rd Reg.HQ.PROD 0 q - s.consSeen q ≠ s.hqSlots q) : s.hqProduce q bs =
    if s.rd Reg.HQ.PROD 0 q - s.consSeen q = 0 then (s.hqPlace q bs).hqIrq q else s.hqPlace q bs := by
  rw [State.hqProduce, if_neg h, if_neg (Bool.eq_false_iff.mp h1)]
  exact if_neg h2

theorem State.irqIf_spec (s : State) (c : Prop) [Decidable c] (q : Nat) : (if c then s.hqIrq q else s).regs = s.regs ∧
    (if c then s.hqIrq q else s).hbm = s.hbm := by
  split
  · exact ⟨s.hqIrq_regs q, by simp⟩
  · exact ⟨rfl, rfl⟩

theorem notSafe {q : Nat} (h : s.devSafe = false ∨ q = 6) : ¬ (s.devSafe = true ∧ q ≠ 6) :=
  fun hc => h.elim (fun e => absurd (e.symm.trans hc.1) Bool.false_ne_true) hc.2

theorem State.reportsOnly_hqProduce (s : State) (q : Nat) (bs : List Byte) : s.ReportsOnly (s.hqProduce q bs) := by
  simp [State.reportsOnly_iff]

theorem execHqProduce_places (s : State) (it : HqItem) (h : s.devSafe = false ∨ it.q.val = 6) (h1 : s.hqOff it.q.val = false)
    (h2 : s.act Reg.HQ.LOC 0 it.q.val = 0) (h3 : s.rd Reg.HQ.PROD 0 it.q.val - s.consSeen it.q.val ≠ s.hqSlots it.q.val) (h4 : s.cycLate = [])
    (h5 : it.bytes.length ≤ s.rd Reg.HQ.SLOT_BYTES 0 it.q.val) :
    ∀ a, a = s.act Reg.HQ.RING_BASE 0 it.q.val + s.rd Reg.HQ.PROD 0 it.q.val % s.hqSlots it.q.val * s.rd Reg.HQ.SLOT_BYTES 0 it.q.val →
    ∀ b, b = s.act Reg.HQ.TAG_BASE 0 it.q.val + s.rd Reg.HQ.PROD 0 it.q.val % s.hqSlots it.q.val * 8 → (a + it.bytes.length ≤ b ∨ b + 8 ≤ a) →
    (linesOf a it.bytes.length ++ linesOf b 8).any s.lineProtected = false → ∃ t, execHqProduce it s = .next t ∧
    Mem.readN t.hbm a it.bytes.length = it.bytes ∧ Mem.readN t.hbm b 8 = leBytes 8 (s.rd Reg.HQ.PROD 0 it.q.val % 2 ^ 63 + 2 ^ 63) ∧
    (∀ c, (c < a ∨ a + it.bytes.length ≤ c) → (c < b ∨ b + 8 ≤ c) → Mem.read t.hbm c = Mem.read s.hbm c) ∧
    t.rd Reg.HQ.PROD 0 it.q.val = (s.rd Reg.HQ.PROD 0 it.q.val + 1) % 2 ^ 64 ∧ t.rd Reg.HQ.CONS 0 it.q.val = s.rd Reg.HQ.CONS 0 it.q.val ∧
    s.ReportsOnly t := by
  rintro a rfl b rfl hd hp
  have hl : (leBytes 8 (s.rd Reg.HQ.PROD 0 it.q.val % 2 ^ 63 + 2 ^ 63)).length = 8 := length_leBytes 8 _
  obtain ⟨m1, m2, m3⟩ := s.hbmWrite_twice (xs := it.bytes) (ys := leBytes 8 (s.rd Reg.HQ.PROD 0 it.q.val % 2 ^ 63 + 2 ^ 63)) h4
    (by rw [hl]; exact hd) (by rw [hl]; exact hp)
  rw [hl] at m2 m3
  rw [← s.hqPlace_hbm _ _ h2] at m1 m2 m3
  have hro := s.reportsOnly_hqProduce it.q.val it.bytes
  obtain ⟨i1, i2⟩ := (s.hqPlace it.q.val it.bytes).irqIf_spec (s.rd Reg.HQ.PROD 0 it.q.val - s.consSeen it.q.val = 0) it.q.val
  rw [← s.hqProduce_room _ it.bytes (notSafe h) h1 h3] at i1 i2
  rw [← i2] at m1 m2 m3
  refine ⟨_, rfl, ?_⟩
  rw [List.take_of_length_le h5]
  exact ⟨m1, m2, m3, (State.rd_congr i1 _ _ _ _).trans (s.rd_prod_hqPlace _ _), (State.rd_congr i1 _ _ _ _).trans (s.rd_cons_hqPlace _ _), hro⟩

/-- PROD counts an item that a queue that is off does not keep. -/
def State.offCounted (s : State) (q : Nat) : State :=
  { s.wr Reg.HQ.PROD (s.rd Reg.HQ.PROD 0 q + 1) 0 q with hq := s.hq.mod q (fun h => { h with produced := h.produced + 1 }) }

theorem State.consSeen_congr {q : Nat} (h : (t.hq.get q).consWr = (s.hq.get q).consWr) (hn : t.now = s.now)
    (hr : t.rd Reg.HQ.CONS 0 q = s.rd Reg.HQ.CONS 0 q) : t.consSeen q = s.consSeen q := by
  rw [State.consSeen, State.consSeen, h, hn, hr]

theorem State.offCounted_spec (s : State) (q : Nat) : (s.offCounted q).rd Reg.HQ.PROD 0 q = (s.rd Reg.HQ.PROD 0 q + 1) % 2 ^ 64 ∧
    (s.offCounted q).rd Reg.HQ.CONS 0 q = s.rd Reg.HQ.CONS 0 q ∧ (s.offCounted q).rd Reg.HQ.LOST 0 q = s.rd Reg.HQ.LOST 0 q ∧
    (s.offCounted q).consSeen q = s.consSeen q ∧ s.offCounted q = { s with regs := (s.offCounted q).regs, hq := (s.offCounted q).hq } := by
  have hc : (s.offCounted q).rd Reg.HQ.CONS 0 q = s.rd Reg.HQ.CONS 0 q := s.rd_wr_ne Reg.HQ.PROD Reg.HQ.CONS _ 0 q 0 0 q 0 (key_prod_ne_cons q).symm
  refine ⟨s.rd_wr_self Reg.HQ.PROD _ 0 q 0, hc, s.rd_wr_ne Reg.HQ.PROD Reg.HQ.LOST _ 0 q 0 0 q 0 (key_prod_ne_lost q).symm, ?_, rfl⟩
  refine State.consSeen_congr ?_ rfl hc
  rw [State.offCounted, Tbl.get_mod_self]

theorem State.hqLose_frame (h : t = { s with regs := t.regs, hq := t.hq }) (q : Nat) :
    t.hqLose q = { s with regs := (t.hqLose q).regs, hq := (t.hqLose q).hq } := by
  obtain ⟨r, k, e⟩ := t.hqLose_spec q
  rw [e, h]

theorem execHqProduce_off (s : State) (it : HqItem) (h : s.devSafe = false ∨ it.q.val = 6) (h1 : s.hqOff it.q.val = true)
    (h2 : s.consSeen it.q.val = s.rd Reg.HQ.CONS 0 it.q.val) : ∃ t, execHqProduce it s = .next t ∧
    t.rd Reg.HQ.PROD 0 it.q.val = (s.rd Reg.HQ.PROD 0 it.q.val + 1) % 2 ^ 64 ∧
    t.rd Reg.HQ.CONS 0 it.q.val = (s.rd Reg.HQ.CONS 0 it.q.val + 1) % 2 ^ 64 ∧ s.Counts t Reg.HQ.LOST 0 it.q.val ∧
    t = { s with regs := t.regs, hq := t.hq } := by
  obtain ⟨o1, o2, o3, o4, o5⟩ := s.offCounted_spec it.q.val
  obtain ⟨l1, l2, l3⟩ := (s.offCounted it.q.val).hqLose_rd it.q.val (o4.trans (h2.trans o2.symm))
  have he (bs : List Byte) : s.hqProduce it.q.val bs = (s.offCounted it.q.val).hqLose it.q.val := by
    rw [State.hqProduce, if_neg (notSafe h), if_pos h1]
    rfl
  refine ⟨_, congrArg Host.Outcome.next (he _), l3.trans o1, by rw [l1, o2], ?_, State.hqLose_frame o5 _⟩
  rw [State.Counts] at l2 ⊢
  rw [l2, o3]

theorem execHqProduce_full (s : State) (it : HqItem) (h : s.devSafe = false ∨ it.q.val = 6) (h1 : s.hqOff it.q.val = false)
    (h2 : s.rd Reg.HQ.PROD 0 it.q.val - s.consSeen it.q.val = s.hqSlots it.q.val) :
    (bits (s.act Reg.HQ.DROP_NEW) it.q.val 1 = 1 → ∃ t, execHqProduce it s = .next t ∧ s.Counts t Reg.HQ.LOST 0 it.q.val ∧
      ({ s with hq := t.hq } : State).OnlyFields t [Reg.HQ.LOST.key 0 it.q.val 0]) ∧
    (bits (s.act Reg.HQ.DROP_NEW) it.q.val 1 = 0 → s.consSeen it.q.val = s.rd Reg.HQ.CONS 0 it.q.val → ∃ t, execHqProduce it s = .next t ∧
      s.Counts t Reg.HQ.LOST 0 it.q.val ∧ t.rd Reg.HQ.CONS 0 it.q.val = (s.rd Reg.HQ.CONS 0 it.q.val + 1) % 2 ^ 64 ∧
      t.rd Reg.HQ.PROD 0 it.q.val = (s.rd Reg.HQ.PROD 0 it.q.val + 1) % 2 ^ 64) := by
  have he (bs : List Byte) : s.hqProduce it.q.val bs = if bits (s.act Reg.HQ.DROP_NEW) it.q.val 1 = 1 then
      { s.bump Reg.HQ.LOST 0 it.q.val with hq := s.hq.mod it.q.val (fun h => { h with dropped := h.dropped + 1 }) }
      else (s.hqLose it.q.val).hqPlace it.q.val bs := by
    rw [State.hqProduce, if_neg (notSafe h), if_neg (Bool.eq_false_iff.mp h1)]
    exact if_pos h2
  refine ⟨fun hd => ⟨_, congrArg Host.Outcome.next ((he _).trans (if_pos hd)), s.rd_bump _ _ _ _, rfl, fun k hk => ?_⟩, fun hd hc => ?_⟩
  · exact s.find_wr_ne _ _ _ _ _ _ (fun e => hk (by rw [e]; exact List.mem_singleton_self _))
  · obtain ⟨l1, l2, l3⟩ := s.hqLose_rd it.q.val hc
    refine ⟨_, congrArg Host.Outcome.next ((he _).trans (if_neg (by rw [hd]; decide))), ?_, ?_, ?_⟩
    · rw [State.Counts, State.rd_lost_hqPlace]
      exact l2
    · rw [State.rd_cons_hqPlace, l1]
    · rw [State.rd_prod_hqPlace, l3]

theorem execHqProduce_safe (s : State) (it : HqItem) (h : s.devSafe = true) (h1 : it.q.val ≠ 6) : execHqProduce it s = .next s :=
  congrArg Host.Outcome.next (s.hqProduce_of_devSafe _ _ h h1)

/-! ### EN and CONS -/

/-- The registers that an audit record moves: the counts of queue 7, or the count of suppressed records. -/
theorem State.find_audit_ne (s : State) (r : AuditRec) {k : Nat} (h : k ∉ [Reg.HQ.PROD.key 0 7 0, Reg.HQ.CONS.key 0 7 0, Reg.HQ.LOST.key 0 7 0,
    Reg.SEC.AUDIT_SUPPRESSED.key 0 0 0]) : (s.audit r).regs.find? k = s.regs.find? k := by
  simp only [List.mem_cons, List.not_mem_nil, or_false, not_or] at h
  obtain ⟨h1, h2, h3, h4⟩ := h
  rw [State.audit]
  split
  · exact s.find_wr_ne _ _ _ _ _ _ h4
  · exact s.find_hqProduce_ne 7 k _ h1 h2 h3

theorem State.rd_audit_ne (s : State) (r : AuditRec) (f : Field) (i j k : Nat) (h : f.key i j k ∉ [Reg.HQ.PROD.key 0 7 0, Reg.HQ.CONS.key 0 7 0,
    Reg.HQ.LOST.key 0 7 0, Reg.SEC.AUDIT_SUPPRESSED.key 0 0 0]) : (s.audit r).rd f i j k = s.rd f i j k :=
  State.rd_of_find f i j k (s.find_audit_ne r h)

theorem key_en_unaudited : ∀ q : QNum, Reg.HQ.EN.key 0 q.val 0 ∉ [Reg.HQ.PROD.key 0 7 0, Reg.HQ.CONS.key 0 7 0, Reg.HQ.LOST.key 0 7 0,
    Reg.SEC.AUDIT_SUPPRESSED.key 0 0 0] := by decide

theorem State.rd_wrote_queue (s : State) (src : Source) (q : QNum) :
    ∀ f ∈ [Reg.HQ.EN, Reg.HQ.LOG2_SLOTS, Reg.HQ.LOC, Reg.HQ.RING_BASE, Reg.HQ.SLOT_BYTES, Reg.HQ.TAG_BASE],
      (s.wrote src).rd f 0 q.val = s.rd f 0 q.val := by
  have hk : ∀ q : QNum, ∀ f ∈ [Reg.HQ.EN, Reg.HQ.LOG2_SLOTS, Reg.HQ.LOC, Reg.HQ.RING_BASE, Reg.HQ.SLOT_BYTES, Reg.HQ.TAG_BASE],
    f.key 0 q.val 0 ≠ Reg.DEV.SEQ_RESULT.key 0 0 0 := by decide
  exact fun f hf => s.rd_wrote src f 0 q.val 0 (hk q f hf)

theorem State.regionSize_wrote (s : State) (src : Source) {k : Nat} (h : k < 6) : (s.wrote src).regionSize k = s.regionSize k := by
  have hk : ∀ k < 6, Reg.CXL.REGION_GIB.key 0 k 0 ≠ Reg.DEV.SEQ_RESULT.key 0 0 0 := by decide
  rw [State.regionSize, State.regionSize, s.rd_wrote src _ _ _ _ (hk k h)]

theorem State.inRegion_wrote (s : State) (src : Source) {k : Nat} (h : k < 6) (a n : Nat) : (s.wrote src).inRegion k a n = s.inRegion k a n := by
  have hb : (s.wrote src).regionBase k = s.regionBase k :=
    congrArg List.sum (List.map_congr_left fun j hj => s.regionSize_wrote src (Nat.lt_trans (List.mem_range.1 hj) h))
  rw [State.inRegion, State.inRegion, hb, s.regionSize_wrote src h]

theorem State.hqFits_wrote (s : State) (src : Source) (q : QNum) : (s.wrote src).hqFits q.val = s.hqFits q.val := by
  have hr := s.rd_wrote_queue src q
  have h6 : hqRegion q.val < 6 := by
    rw [hqRegion]
    split <;> decide
  simp only [List.forall_mem_cons] at hr
  obtain ⟨-, h2, h3, h4, h5, h7, -⟩ := hr
  rw [State.hqFits, State.hqFits, h2, h3, h4, h5, h7]
  simp only [s.inRegion_wrote src h6]

theorem execHqEnable_starts (s : State) (src : Source) (q : QNum) (h : s.Takes src) (h1 : s.hqFits q.val = true) (h2 : s.rd Reg.HQ.EN 0 q.val = 0) :
    ∃ t, execHqEnable src q s = .next t ∧ s.Queued t (.hqStart q.val) ∧ t.rd Reg.HQ.EN 0 q.val = 1 ∧ s.WriteLater t := by
  have hen : (s.wrote src).rd Reg.HQ.EN 0 q.val = 0 := (s.rd_wrote_queue src q _ List.mem_cons_self).trans h2
  refine ⟨_, s.basicCmd_takes _ h, ?_⟩
  rw [State.hqSetEn, s.hqFits_wrote, h1, if_neg (not_not.2 rfl), if_neg (fun hc => absurd (hen.symm.trans hc.1) (by decide))]
  refine ⟨by simp [State.Queued], ?_, by simp [State.writeLater_iff, State.later]⟩
  rw [State.rd_audit_ne _ _ _ _ _ _ (key_en_unaudited q), State.rd_later, State.rd_wr_self]
  rfl

theorem execHqEnable_misfit (s : State) (src : Source) (q : QNum) (h : s.Takes src) (h1 : s.hqFits q.val = false) : ∃ t,
    execHqEnable src q s = .next t ∧ t.rd Reg.HQ.EN 0 q.val = s.rd Reg.HQ.EN 0 q.val ∧ s.WriteOnly t := by
  refine ⟨_, s.basicCmd_takes _ h, ?_⟩
  rw [State.hqSetEn, s.hqFits_wrote, h1, if_pos Bool.false_ne_true]
  refine ⟨?_, by simp [State.writeOnly_iff]⟩
  rw [State.rd_audit_ne _ _ _ _ _ _ (key_en_unaudited q), s.rd_wrote_queue src q _ List.mem_cons_self]

/-- t has CONS of queue q, and what the producer sees of it, as s has them. -/
def State.ConsKept (s t : State) (q : Nat) : Prop :=
  t.rd Reg.HQ.CONS 0 q = s.rd Reg.HQ.CONS 0 q ∧ (t.hq.get q).consWr = (s.hq.get q).consWr

/-- An audit record leaves CONS of queue q: another queue than the audit's own, or that queue with room, or no record at all. -/
def State.AuditRoom (s : State) (q : Nat) : Prop :=
  q ≠ 7 ∨ s.devSafe = true ∨ (s.hqOff 7 = false ∧ s.rd Reg.HQ.PROD 0 7 - s.consSeen 7 < s.hqSlots 7)

theorem State.hqPlace_hq (s : State) (q : Nat) (bs : List Byte) (k : Nat) : ((s.hqPlace q bs).hq.get k).consWr = (s.hq.get k).consWr := by
  have h : (s.hqPlace q bs).hq = s.hq.mod q (fun h => { h with produced := h.produced + 1 }) := by
    unfold State.hqPlace
    simp
  rw [h]
  by_cases hk : k = q
  · rw [hk, Tbl.get_mod_self]
  · rw [Tbl.get_mod_ne _ _ hk]

theorem State.hqIrq_hq (s : State) (q k : Nat) : ((s.hqIrq q).hq.get k).consWr = (s.hq.get k).consWr := by
  rw [State.hqIrq]
  split
  · by_cases hk : k = q
    · rw [hk, Tbl.get_mod_self]
    · rw [Tbl.get_mod_ne _ _ hk]
  · rfl

theorem State.hqLose_hq (s : State) {q k : Nat} (h : k ≠ q) : (s.hqLose q).hq.get k = s.hq.get k := by
  rw [State.hqLose]
  simp [Tbl.get_mod_ne, h]

theorem State.hqProduce_hq (s : State) {q k : Nat} (bs : List Byte) (h : k ≠ q) : ((s.hqProduce q bs).hq.get k).consWr = (s.hq.get k).consWr := by
  rw [State.hqProduce]
  split
  · rfl
  split
  · rw [State.hqLose_hq _ h]
    simp [Tbl.get_mod_ne, h]
  dsimp only
  split
  · split
    · simp [Tbl.get_mod_ne, h]
    · rw [State.hqPlace_hq, State.hqLose_hq _ h]
  · split
    · rw [State.hqIrq_hq, State.hqPlace_hq]
    · rw [State.hqPlace_hq]

theorem key_cons_unaudited : ∀ q : QNum, q.val ≠ 7 → Reg.HQ.CONS.key 0 q.val 0 ∉ [Reg.HQ.PROD.key 0 7 0, Reg.HQ.CONS.key 0 7 0,
    Reg.HQ.LOST.key 0 7 0, Reg.SEC.AUDIT_SUPPRESSED.key 0 0 0] := by decide

theorem State.audit_consKept (s : State) (r : AuditRec) (q : QNum) (h : s.AuditRoom q.val) : s.ConsKept (s.audit r) q.val := by
  have hsafe (hd : s.devSafe = true) : s.ConsKept (s.audit r) q.val := by
    rw [s.audit_of_devSafe r hd]
    exact ⟨s.rd_wr_ne _ _ _ _ _ _ _ _ _ (cons_key_ne_suppressed q), rfl⟩
  by_cases hd : s.devSafe = true
  · exact hsafe hd
  have ha : s.audit r = { s.hqProduce 7 (r.bytes s.flt.auditSeq s.time.beat) with
      flt := { (s.hqProduce 7 (r.bytes s.flt.auditSeq s.time.beat)).flt with
               auditSeq := (s.hqProduce 7 (r.bytes s.flt.auditSeq s.time.beat)).flt.auditSeq + 1 } } := if_neg hd
  by_cases hq : q.val = 7
  · obtain ⟨ho, hroom⟩ := (h.resolve_left (not_not.2 hq)).resolve_left hd
    have hp := s.hqProduce_room 7 (r.bytes s.flt.auditSeq s.time.beat) (fun hc => hd hc.1) ho (Nat.ne_of_lt hroom)
    rw [hq]
    constructor
    · refine State.rd_of_find _ _ _ _ ?_
      rw [ha]
      show (s.hqProduce 7 _).regs.find? _ = _
      rw [hp, (State.irqIf_spec _ _ 7).1]
      exact s.find_hqPlace_ne 7 _ _ (by decide)
    · rw [ha]
      show ((s.hqProduce 7 _).hq.get 7).consWr = _
      rw [hp]
      split
      · rw [State.hqIrq_hq, State.hqPlace_hq]
      · rw [State.hqPlace_hq]
  · refine ⟨s.rd_audit_ne r _ _ _ _ (key_cons_unaudited q hq), ?_⟩
    rw [ha]
    exact s.hqProduce_hq _ hq

theorem State.ConsKept.consSeen {q : Nat} (h : s.ConsKept t q) (hn : t.now = s.now) : t.consSeen q = s.consSeen q := State.consSeen_congr h.2 hn h.1

theorem State.now_audit (s : State) (r : AuditRec) : (s.audit r).now = s.now := by
  rw [State.now, State.now, State.audit_time]

/-- A write of CONS before its audit record: what it sets, and what the audit's queue shows. -/
theorem State.consMoved_spec (s : State) (q v : Nat) : ((s.consMoved q v).hq.get q).consWr = some (s.now, s.consSeen q) ∧
    (s.consMoved q v).now = s.now ∧ (s.consMoved q v).consSeen q = s.consSeen q := by
  have h1 : ((s.consMoved q v).hq.get q).consWr = some (s.now, s.consSeen q) := by
    rw [State.consMoved, Tbl.get_mod_self]
  refine ⟨h1, rfl, ?_⟩
  rw [State.consSeen, h1]
  exact if_pos rfl

theorem State.consSeen_consMoved_ne (s : State) {q k : Nat} (v : Nat) (h : k ≠ q) (hk : Reg.HQ.CONS.key 0 k 0 ≠ Reg.HQ.CONS.key 0 q 0) :
    (s.consMoved q v).consSeen k = s.consSeen k := by
  refine State.consSeen_congr ?_ rfl (s.rd_wr_ne _ _ _ _ _ _ _ _ _ hk)
  rw [State.consMoved, Tbl.get_mod_ne _ _ h]

theorem State.act_consMoved (s : State) (q v : Nat) (f : Field) (i j k : Nat) (h : f.key i j k ≠ Reg.HQ.CONS.key 0 q 0) :
    (s.consMoved q v).act f i j k = s.act f i j k := by
  rw [State.act, State.act]
  exact congrArg (fun o => Option.getD o _) (Tbl.find?_setD_ne s.acting _ _ h)

theorem State.auditRoom_consMoved {q : Nat} (h : s.AuditRoom q) (v : Nat) : (s.consMoved q v).AuditRoom q := by
  by_cases hq : q = 7
  swap
  · exact .inl hq
  refine .inr ((h.resolve_left (not_not.2 hq)).imp id fun hc => ?_)
  obtain ⟨ho, hr⟩ := hc
  subst hq
  obtain ⟨-, -, c3⟩ := s.consMoved_spec 7 v
  have hsusp : ((s.consMoved 7 v).hq.get 7).suspended = (s.hq.get 7).suspended := by
    rw [State.consMoved, Tbl.get_mod_self]
  have hoff : (s.consMoved 7 v).hqOff 7 = s.hqOff 7 := by
    rw [State.hqOff, State.hqOff, hsusp, s.act_consMoved 7 v _ _ _ _ (by decide), s.act_consMoved 7 v _ _ _ _ (by decide)]
    rfl
  have hslots : (s.consMoved 7 v).hqSlots 7 = s.hqSlots 7 := by
    rw [State.hqSlots, State.hqSlots, s.act_consMoved 7 v _ _ _ _ (by decide)]
  exact ⟨hoff.trans ho, by rw [s.rd_prod_consMoved, c3, hslots]; exact hr⟩

theorem State.auditRoom_wrote (src : Source) {q : Nat} (h : s.AuditRoom q) : (s.wrote src).AuditRoom q := by
  have hc (k : QNum) : (s.wrote src).consSeen k.val = s.consSeen k.val :=
    State.consSeen_congr (by rw [State.wrote_hq]) (by rw [State.now, State.now, State.wrote_time]) (s.rd_wrote_cons src k)
  have ha (f : Field) : (s.wrote src).act f 0 7 = s.act f 0 7 := by rw [State.act, State.act, State.wrote_acting]
  have hoff : (s.wrote src).hqOff 7 = s.hqOff 7 := by
    rw [State.hqOff, State.hqOff, ha, ha, State.wrote_hq, State.wrote_host]
  have hslots : (s.wrote src).hqSlots 7 = s.hqSlots 7 := by rw [State.hqSlots, State.hqSlots, ha]
  have hp : (s.wrote src).rd Reg.HQ.PROD 0 7 = s.rd Reg.HQ.PROD 0 7 := s.rd_wrote_prod src 7
  refine h.imp id (Or.imp (fun hd => (s.wrote_devSafe src).trans hd) fun hr => ?_)
  rw [hoff, hslots, hp, show (s.wrote src).consSeen 7 = s.consSeen 7 from hc 7]
  exact hr

theorem State.consSeen_wrote (s : State) (src : Source) (q : QNum) : (s.wrote src).consSeen q.val = s.consSeen q.val :=
  State.consSeen_congr (by rw [State.wrote_hq]) (by rw [State.now, State.now, State.wrote_time]) (s.rd_wrote_cons src q)

theorem State.writeOnly_consMoved (s : State) (src : Source) (q v : Nat) (r : AuditRec) :
    ({ s with acting := (((s.wrote src).consMoved q v).audit r).acting } : State).WriteOnly (((s.wrote src).consMoved q v).audit r) := by
  simp [State.writeOnly_iff, State.consMoved, State.wrNow]

theorem execHqConsWrite_moved (s : State) (src : Source) (q : QNum) (v : DWord) (h : s.Takes src) (h1 : s.rd Reg.HQ.CONS 0 q.val ≤ v.toNat)
    (h2 : v.toNat ≤ s.rd Reg.HQ.PROD 0 q.val) : ∃ t, execHqConsWrite src q v s = .next t ∧ ({ s with acting := t.acting } : State).WriteOnly t ∧
    ((q.val ≠ 7 ∨ s.devSafe = true ∨ (s.hqOff 7 = false ∧ s.rd Reg.HQ.PROD 0 7 - s.consSeen 7 < s.hqSlots 7)) → t.rd Reg.HQ.CONS 0 q.val = v.toNat ∧
      t.consSeen q.val = s.consSeen q.val ∧ (∀ u : State, u.hq = t.hq → u.regs = t.regs → u.now ≠ s.now → u.consSeen q.val = v.toNat)) := by
  obtain ⟨r, he⟩ := execHqConsWrite_moves s src q v h h1 h2
  refine ⟨_, he, s.writeOnly_consMoved src _ _ r, fun hroom => ?_⟩
  have hn : (s.wrote src).now = s.now := by rw [State.now, State.now, State.wrote_time]
  obtain ⟨c1, c2, c3⟩ := (s.wrote src).consMoved_spec q.val v.toNat
  have hk := ((s.wrote src).consMoved q.val v.toNat).audit_consKept r q (State.auditRoom_consMoved (State.auditRoom_wrote src hroom) _)
  have hv : (((s.wrote src).consMoved q.val v.toNat).audit r).rd Reg.HQ.CONS 0 q.val = v.toNat := by
    rw [hk.1, State.rd_cons_consMoved]
    exact Nat.mod_eq_of_lt v.isLt
  refine ⟨hv, ?_, fun u hq hr hne => ?_⟩
  · rw [hk.consSeen (State.now_audit _ _), c3, s.consSeen_wrote]
  · rw [State.consSeen, hq, hk.2, c1, hn]
    exact (if_neg (fun e => hne e.symm)).trans ((State.rd_congr hr _ _ _ _).trans hv)

theorem execHqConsWrite_refused (s : State) (src : Source) (q : QNum) (v : DWord) (h : s.Takes src)
    (h1 : v.toNat < s.rd Reg.HQ.CONS 0 q.val ∨ s.rd Reg.HQ.PROD 0 q.val < v.toNat) : ∃ t, execHqConsWrite src q v s = .next t ∧ s.WriteOnly t ∧
    ((q.val ≠ 7 ∨ s.devSafe = true ∨ (s.hqOff 7 = false ∧ s.rd Reg.HQ.PROD 0 7 - s.consSeen 7 < s.hqSlots 7)) →
      t.rd Reg.HQ.CONS 0 q.val = s.rd Reg.HQ.CONS 0 q.val) := by
  have hc : v.toNat < (s.wrote src).rd Reg.HQ.CONS 0 q.val ∨ (s.wrote src).rd Reg.HQ.PROD 0 q.val < v.toNat := by
    rw [State.rd_wrote_cons, State.rd_wrote_prod]
    exact h1
  refine ⟨_, (s.basicCmd_takes _ h).trans (congrArg Host.Outcome.next (if_pos hc)), by simp [State.writeOnly_iff], fun hroom => ?_⟩
  rw [((s.wrote src).audit_consKept _ q (State.auditRoom_wrote src hroom)).1, State.rd_wrote_cons]

/-! ### The repeated interrupt, INJ_PROD and the expert writes -/

theorem execHqIrqRepeat_raises (s : State) (q : QNum) (h : s.consSeen q.val < s.rd Reg.HQ.PROD 0 q.val) (h1 : s.act Reg.HQ.IRQ_EN 0 q.val = 1)
    (h2 : (s.hq.get q.val).irqBeat + s.act Reg.HQ.IRQ_BEATS 0 q.val ≤ s.time.beat) (h3 : s.rd Reg.CXL.LINK_UP = 1) (h4 : s.host.lost = false) : ∃ t,
    execHqIrqRepeat q s = .next t ∧ (t.hq.get q.val).irqBeat = s.time.beat ∧ (t.host.msix.get (s.act Reg.HQ.VECTOR 0 q.val)).pending = true ∧
    t = { s with hq := t.hq, host := { s.host with msix := t.host.msix } } := by
  have hv := s.raiseVec_up (s.act Reg.HQ.VECTOR 0 q.val) (by rw [h3]; decide) h4
  have he : s.raiseVec (s.act Reg.HQ.VECTOR 0 q.val) = { s with host := { s.host with
      msix := (s.raiseVec (s.act Reg.HQ.VECTOR 0 q.val)).host.msix } } := by
    rw [State.raiseVec, if_neg (by simp [h3, h4])]
  refine ⟨_, if_pos ⟨h, h1, h2⟩, ?_⟩
  rw [State.hqIrq, if_pos h1]
  generalize s.raiseVec (s.act Reg.HQ.VECTOR 0 q.val) = w at *
  refine ⟨?_, hv, ?_⟩
  · simp [Tbl.get_mod_self]
  · rw [he]

theorem execHqIrqRepeat_empty (s : State) (q : QNum) (h : s.rd Reg.HQ.PROD 0 q.val ≤ s.consSeen q.val) : execHqIrqRepeat q s = .next s :=
  if_neg (fun hc => absurd hc.1 (Nat.not_lt.2 h))

theorem execInjProdWrite_eq (src : Source) (v : DWord) (h : s.Takes src) : ∃ r r', execInjProdWrite src v s = .next
    (if s.rd Reg.HQ.INJ_CONS + 2 ^ s.rd Reg.HQ.INJ_LOG2 < v.toNat then ((s.wrote src).bump Reg.HQ.INJ_OVERRUN).audit r
     else { (s.wrote src).wrNow Reg.HQ.INJ_PROD v.toNat with host := { (s.wrote src).host with injPosted := v.toNat } }.audit r') := by
  have hc : (s.wrote src).rd Reg.HQ.INJ_CONS = s.rd Reg.HQ.INJ_CONS := s.rd_wrote src _ _ _ _ (by decide)
  have hl : (s.wrote src).rd Reg.HQ.INJ_LOG2 = s.rd Reg.HQ.INJ_LOG2 := s.rd_wrote src _ _ _ _ (by decide)
  rw [← hc, ← hl]
  exact ⟨_, _, s.basicCmd_takes _ h⟩

theorem execInjProdWrite_posts (s : State) (src : Source) (v : DWord) (h : s.Takes src)
    (h1 : v.toNat ≤ s.rd Reg.HQ.INJ_CONS + 2 ^ s.rd Reg.HQ.INJ_LOG2) : ∃ t, execInjProdWrite src v s = .next t ∧ t.rd Reg.HQ.INJ_PROD = v.toNat ∧
    t.host.injPosted = v.toNat ∧ ({ s with acting := t.acting } : State).WriteOnly t := by
  obtain ⟨r, r', he⟩ := execInjProdWrite_eq src v h
  refine ⟨_, he, ?_⟩
  rw [if_neg (Nat.not_lt.2 h1)]
  refine ⟨?_, ?_, by simp [State.writeOnly_iff, State.wrNow]⟩
  · rw [State.rd_audit_ne _ _ _ _ _ _ (by decide)]
    exact ((s.wrote src).rd_wr_self Reg.HQ.INJ_PROD v.toNat 0 0 0).trans (Nat.mod_eq_of_lt v.isLt)
  · rw [(State.quiet_audit _ _).2]

theorem execInjProdWrite_overruns (s : State) (src : Source) (v : DWord) (h : s.Takes src)
    (h1 : s.rd Reg.HQ.INJ_CONS + 2 ^ s.rd Reg.HQ.INJ_LOG2 < v.toNat) : ∃ t, execInjProdWrite src v s = .next t ∧ s.Counts t Reg.HQ.INJ_OVERRUN ∧
    t.rd Reg.HQ.INJ_PROD = s.rd Reg.HQ.INJ_PROD ∧ s.WriteOnly t := by
  obtain ⟨r, r', he⟩ := execInjProdWrite_eq src v h
  refine ⟨_, he, ?_⟩
  rw [if_pos h1]
  refine ⟨?_, ?_, by simp [State.writeOnly_iff]⟩
  · rw [State.Counts, State.rd_audit_ne _ _ _ _ _ _ (by decide), State.rd_bump, s.rd_wrote src _ _ _ _ (by decide)]
  · rw [State.rd_audit_ne _ _ _ _ _ _ (by decide), State.rd_bump_ne _ _ _ _ _ _ _ _ _ _ (by decide), s.rd_wrote src _ _ _ _ (by decide)]

theorem State.rd_expert (s : State) (src : Source) (f g : Field) (n : Nat) (h : reportKey (g.key 0 0 0) = false)
    (h' : g.key 0 0 0 ≠ Reg.DEV.SEQ_RESULT.key 0 0 0) : ((s.wrote src).auditCmd src f 0 n 0).rd g = s.rd g := by
  rw [State.rd_auditCmd _ _ _ _ _ _ _ _ _ _ _ _ h, s.rd_wrote src _ _ _ _ h']

theorem execQTokensSet_queues (s : State) (src : Source) (v : Word) (h : s.TakesExpert src) : ∃ t, execQTokensSet src v s = .next t ∧
    s.Queued t (.qTokSet (s.rd Reg.SHAPE.PORT_SEL * 8 + s.rd Reg.SHAPE.Q_SEL) (toSigned 32 v.toNat)) ∧ s.WriteLater t := by
  refine ⟨_, s.expertCmd_takes _ _ _ _ h, ?_, by simp [State.writeLater_iff, State.later]⟩
  rw [State.Queued, State.later_acts, s.rd_expert src _ _ _ (by decide) (by decide), s.rd_expert src _ _ _ (by decide) (by decide)]
  simp

theorem execTokGo_queues (s : State) (src : Source) (h : s.TakesExpert src) (h1 : s.rd Reg.POLICE.POL_SEL ≠ 0) : ∃ t, execTokGo src s = .next t ∧
    s.Queued t (.tokSet (s.rd Reg.POLICE.POL_SEL) (s.rd Reg.POLICE.TOK_SEL == 1) (s.rd Reg.POLICE.TOK_VAL)) ∧ s.WriteLater t := by
  refine ⟨_, s.expertCmd_takes _ _ _ _ h, ?_⟩
  rw [s.rd_expert src _ _ _ (by decide) (by decide), if_neg h1, s.rd_expert src _ _ _ (by decide) (by decide),
    s.rd_expert src _ _ _ (by decide) (by decide)]
  exact ⟨by simp [State.Queued], by simp [State.writeLater_iff, State.later]⟩

/-! ### INJ_DESCRIPTOR -/

theorem key_injCons_ne_ledger {j : Nat} (h : j < 256) : Reg.HQ.INJ_CONS.key 0 0 0 ≠ Reg.LEDG.LANE_LEDGER.key 0 j 0 ∧
    Reg.HQ.INJ_CONS.key 0 0 0 ≠ Reg.LEDG.DEV_LEDGER.key 0 j 0 := by
  have hp (g : Field) (hg : g = Reg.LEDG.LANE_LEDGER ∨ g = Reg.LEDG.DEV_LEDGER) : Reg.HQ.INJ_CONS.key 0 0 0 ≠ g.key 0 j 0 := by
    rcases hg with rfl | rfl
    · refine Field.key_ne_of_page (by decide) ?_ ?_ (by decide) (by decide) (by decide) (by decide)
      · show 0 + 0 * j < 64
        omega
      · show 256 + 8 * j < 4096
        omega
    · refine Field.key_ne_of_page (by decide) ?_ ?_ (by decide) (by decide) (by decide) (by decide)
      · show 0 + 0 * j < 64
        omega
      · show 1280 + 8 * j < 4096
        omega
  exact ⟨hp _ (.inl rfl), hp _ (.inr rfl)⟩

theorem State.rd_injCons_received (s : State) {l : Nat} (h : l < 31) : (s.received l).rd Reg.HQ.INJ_CONS = s.rd Reg.HQ.INJ_CONS := by
  have hr : (s.received l).regs = (((s.bump Reg.LEDG.LANE_LEDGER 0 (l * 8 + 0)).bump Reg.LEDG.DEV_LEDGER 0 0).bump Reg.LEDG.AV_PKTS).regs := rfl
  rw [State.rd_congr hr, State.rd_bump_ne _ _ _ _ _ _ _ _ _ _ (by decide), State.rd_bump_ne _ _ _ _ _ _ _ _ _ _ (by decide),
    State.rd_bump_ne _ _ _ _ _ _ _ _ _ _ (key_injCons_ne_ledger (by omega)).1]

theorem State.rd_injCons_setResident (s : State) {l : Nat} (h : l < 31) (up : Bool) :
    (s.setResident l up).rd Reg.HQ.INJ_CONS = s.rd Reg.HQ.INJ_CONS := by
  unfold State.setResident
  extract_lets n n' d s1
  rw [State.rd_wr_ne _ _ _ _ _ _ _ _ _ _ (by decide), State.rd_wr_ne _ _ _ _ _ _ _ _ _ _ (key_injCons_ne_ledger (by omega)).1]
  exact State.rd_congr (show s1.regs = s.regs from rfl) _ _ _ _

/-- What the reception of a packet with an identity takes, of any origin. -/
theorem State.acceptAs_spec (s : State) (p : Nat) {l : Nat} (h : l < 31) (d : List Byte) (inj : Bool) (vd : PktVd) :
    (s.accept p l d inj vd).pkts = s.pkts.put s.nextPkt (some { i := s.pktIn p l d inj, vd := vd }) ∧
    (s.accept p l d inj vd).nextPkt = s.nextPkt + 1 ∧ (s.accept p l d inj vd).rd Reg.HQ.INJ_CONS = s.rd Reg.HQ.INJ_CONS := by
  unfold State.accept
  extract_lets k pk s1
  have hr : s1.rd Reg.HQ.INJ_CONS = s.rd Reg.HQ.INJ_CONS := State.rd_congr (show s1.regs = s.regs from rfl) _ _ _ _
  have h1 : s1.pkts = s.pkts.put k (some pk) ∧ s1.nextPkt = k + 1 := ⟨rfl, rfl⟩
  obtain ⟨hp, hn⟩ := h1
  clear_value s1
  refine ⟨?_, ?_, ?_⟩
  · simp [State.received, State.ledger, State.setResident, hp, k, pk]
  · simp [State.received, State.ledger, State.setResident, hn, k]
  · rw [State.rd_injCons_setResident _ h, State.rd_injCons_received _ h, hr]

theorem State.injDone_fields (s : State) (ok : Bool) : (s.injDone ok).pkts = s.pkts ∧ (s.injDone ok).acts = s.acts ∧
    (s.injDone ok).nextPkt = s.nextPkt := by
  cases ok <;> simp [State.injDone]

theorem State.injDone_accepted (s : State) : (s.injDone true).rd Reg.HQ.INJ_CONS = (s.rd Reg.HQ.INJ_CONS + 1) % 2 ^ 64 ∧
    (s.injDone true).rd Reg.HOLD.ALLOC = s.rd Reg.HOLD.ALLOC := by
  have hr : (s.injDone true).regs = (s.wr Reg.HQ.INJ_CONS (s.rd Reg.HQ.INJ_CONS + 1)).regs := rfl
  exact ⟨(State.rd_congr hr _ _ _ _).trans (s.rd_wr_self _ _ _ _ _), (State.rd_congr hr _ _ _ _).trans (s.rd_wr_ne _ _ _ _ _ _ _ _ _ (by decide))⟩

theorem State.injDone_refused (s : State) : (s.injDone false).rd Reg.HQ.INJ_CONS = (s.rd Reg.HQ.INJ_CONS + 1) % 2 ^ 64 ∧
    s.Counts (s.injDone false) Reg.HQ.INJ_REFUSED := by
  unfold State.injDone
  extract_lets s1 hs s2
  have h1 : s2.rd Reg.HQ.INJ_CONS = (s.rd Reg.HQ.INJ_CONS + 1) % 2 ^ 64 := s.rd_wr_self Reg.HQ.INJ_CONS _ 0 0 0
  have h2 : s2.rd Reg.HQ.INJ_REFUSED = s.rd Reg.HQ.INJ_REFUSED := s.rd_wr_ne _ _ _ _ _ _ _ _ _ (by decide)
  clear_value s2
  rw [if_neg Bool.false_ne_true, State.Counts, State.rd_of_find _ _ _ _ (State.find_event_of_keyOff_ne _ _ _ _ _ (by decide)),
    State.rd_of_find _ _ _ _ (State.find_event_of_keyOff_ne _ _ _ _ _ (by decide)), State.rd_bump, h2,
    State.rd_bump_ne _ _ _ _ _ _ _ _ _ _ (by decide)]
  exact ⟨h1, rfl⟩

theorem State.rd_alloc_cells (s : State) (n : Nat) : (s.cells n).rd Reg.HOLD.ALLOC = (s.rd Reg.HOLD.ALLOC + n) % 2 ^ Reg.HOLD.ALLOC.width := by
  rw [State.cells, State.rd_wr_ne _ _ _ _ _ _ _ _ _ _ (by decide), State.rd_wr_ne _ _ _ _ _ _ _ _ _ _ (by decide), State.rd_wr_self]
  rfl

theorem State.rd_injCons_cells (s : State) (d : Int) : (s.cells d).rd Reg.HQ.INJ_CONS = s.rd Reg.HQ.INJ_CONS := by
  rw [State.cells, State.rd_wr_ne _ _ _ _ _ _ _ _ _ _ (by decide), State.rd_wr_ne _ _ _ _ _ _ _ _ _ _ (by decide),
    State.rd_wr_ne _ _ _ _ _ _ _ _ _ _ (by decide)]

/-- An injected frame that waits to be offered, with n cells of its own. -/
theorem State.injOffered_spec (s : State) (n : Nat) (a : Act) :
    (((s.injDone true).cells n).later a).rd Reg.HQ.INJ_CONS = (s.rd Reg.HQ.INJ_CONS + 1) % 2 ^ 64 ∧
    (((s.injDone true).cells n).later a).pkts = s.pkts ∧ s.Queued (((s.injDone true).cells n).later a) a ∧
    (((s.injDone true).cells n).later a).rd Reg.HOLD.ALLOC = (s.rd Reg.HOLD.ALLOC + n) % 2 ^ Reg.HOLD.ALLOC.width := by
  obtain ⟨f1, f2, -⟩ := s.injDone_fields true
  obtain ⟨a1, a2⟩ := s.injDone_accepted
  generalize s.injDone true = u at *
  refine ⟨?_, ?_, ?_, ?_⟩
  · rw [State.rd_later, State.rd_injCons_cells, a1]
  · rw [State.later_pkts, State.cells_pkts, f1]
  · rw [State.Queued, State.later_acts, State.cells_acts, f2]
  · rw [State.rd_later, State.rd_alloc_cells, a2]

/-- The injected packet: the next descriptor's frame, received by lane l. -/
def State.injected (s : State) (d : InjDesc) (data : List Byte) (l : Nat) : State :=
  let frame := data ++ fcsBytes data
  let used := storedCells frame (if s.isTap d.port ∧ tapValid frame then 16 else 0)
  let s := (s.injDone true).cells used
  let s := { s with host := { s.host with injLane := s.host.injLane.mod l (· + 1) } }
  s.accept d.port l frame true { done := true, cells := used, fcs := some true }

theorem execInjDescriptor_reads (s : State) (d : InjDesc) (data : List Byte) (h : s.Runs) (h1 : s.devSafe = false) (h2 : s.act Reg.HQ.INJ_EN = 1)
    (h3 : s.rd Reg.HQ.INJ_CONS < s.rd Reg.HQ.INJ_PROD) (h4 : s.act Reg.HQ.INJ_LOC = 0)
    (h5 : d = injDesc (Mem.readN s.hbm (s.act Reg.HQ.INJ_BASE + 32 * (s.rd Reg.HQ.INJ_CONS % 2 ^ s.act Reg.HQ.INJ_LOG2)) 32))
    (h6 : data = s.locRead d.dloc d.addr d.len) :
    (d.dloc = 1 ∧ s.hostMemOff = true → execInjDescriptor s = .next s) ∧
    (¬ (d.dloc = 1 ∧ s.hostMemOff = true) → (s.injBad d data = true → execInjDescriptor s = .next (s.injDone false)) ∧
      (s.injBad d data = false → s.freeCells < 73 → execInjDescriptor s = .next s) ∧
      (s.injBad d data = false → 73 ≤ s.freeCells → d.mode = 1 → execInjDescriptor s =
        .next (((s.injDone true).cells (storedCells (data ++ fcsBytes data) 0)).later (.offerInjected d.port d.queue
          { kind := 3, size := d.len + 4, bytes := data, tsreq := d.tsreq, itag := d.itag, own := storedCells (data ++ fcsBytes data) 0 }))) ∧
      (s.injBad d data = false → 73 ≤ s.freeCells → d.mode ≠ 1 → ∀ l, s.injLaneFor d.port = some l → execInjDescriptor s = .next (s.injected d data l))) := by
  have hg : ¬ (s.devSafe = true ∨ ¬ s.time.started = true ∨ s.act Reg.HQ.INJ_EN = 0 ∨ s.rd Reg.HQ.INJ_PROD ≤ s.rd Reg.HQ.INJ_CONS ∨
      (s.act Reg.HQ.INJ_LOC = 1 ∧ (s.host.lost = true ∨ s.host.injOff = true ∨ s.hostMemOff = true))) := by
    simp [h1, h2, h4, h3, State.Runs.eq_1 s ▸ h]
  have hd : injDesc (s.locRead (s.act Reg.HQ.INJ_LOC) (s.act Reg.HQ.INJ_BASE + 32 * (s.rd Reg.HQ.INJ_CONS % 2 ^ s.act Reg.HQ.INJ_LOG2)) 32) = d := by
    rw [h5, State.locRead, h4, if_neg (by decide)]
  rw [execInjDescriptor, if_neg hg]
  simp only [hd, ← h6]
  refine ⟨fun hc => if_pos hc, fun hc => ?_⟩
  rw [if_neg hc]
  refine ⟨fun hb => if_pos hb, fun hb hf => ?_, fun hb hf hm => ?_, fun hb hf hm l hl => ?_⟩
  · rw [if_neg (Bool.eq_false_iff.mp hb), if_pos hf]
  · rw [if_neg (Bool.eq_false_iff.mp hb), if_neg (Nat.not_lt.2 hf), if_pos hm]
  · rw [if_neg (Bool.eq_false_iff.mp hb), if_neg (Nat.not_lt.2 hf), if_neg hm, hl]
    rfl

theorem State.injLaneFor_lt {p l : Nat} (hp : p < 32) (h : s.injLaneFor p = some l) : l < 31 := by
  have hm := List.mem_of_find?_eq_some h
  rw [State.lanesOf] at hm
  split at hm <;> simp only [List.mem_cons, List.not_mem_nil, or_false] at hm <;> omega

theorem injDesc_port (b : List Byte) : (injDesc b).port < 32 := Nat.mod_lt _ (by decide)

theorem State.injected_spec (s : State) (d : InjDesc) (data : List Byte) {l : Nat} (h : l < 31) :
    (s.injected d data l).rd Reg.HQ.INJ_CONS = (s.rd Reg.HQ.INJ_CONS + 1) % 2 ^ 64 ∧ (s.injected d data l).nextPkt = s.nextPkt + 1 ∧
    ∃ x : Pkt, x.i.frame = data ++ fcsBytes data ∧ x.i.lane = l ∧ (s.injected d data l).pkts = s.pkts.put s.nextPkt (some x) := by
  unfold State.injected
  extract_lets frame used s1 hs s2
  have hr : s2.rd Reg.HQ.INJ_CONS = s1.rd Reg.HQ.INJ_CONS := State.rd_congr (show s2.regs = s1.regs from rfl) _ _ _ _
  have hf : s2.pkts = s1.pkts ∧ s2.nextPkt = s1.nextPkt := ⟨rfl, rfl⟩
  obtain ⟨f1, f2, f3⟩ := s.injDone_fields true
  have hc : s1.pkts = s.pkts ∧ s1.nextPkt = s.nextPkt := ⟨(State.cells_pkts _ _).trans f1, (State.cells_nextPkt _ _).trans f3⟩
  have hr1 : s1.rd Reg.HQ.INJ_CONS = (s.rd Reg.HQ.INJ_CONS + 1) % 2 ^ 64 := (State.rd_injCons_cells _ _).trans s.injDone_accepted.1
  obtain ⟨a1, a2, a3⟩ := s2.acceptAs_spec d.port h frame true { done := true, cells := used, fcs := some true }
  refine ⟨a3.trans (hr.trans hr1), by rw [a2, hf.2, hc.2], { i := s2.pktIn d.port l frame true, vd := { done := true, cells := used, fcs := some true } },
    rfl, rfl, ?_⟩
  rw [a1, hf.1, hf.2, hc.1, hc.2]

theorem execInjDescriptor_idle (s : State) (h : s.rd Reg.HQ.INJ_PROD ≤ s.rd Reg.HQ.INJ_CONS) : execInjDescriptor s = .next s :=
  if_pos (.inr (.inr (.inr (.inl h))))

theorem execInjDescriptor_takes (s : State) (d : InjDesc) (data : List Byte) (h : s.Runs) (h1 : s.devSafe = false) (h2 : s.act Reg.HQ.INJ_EN = 1)
    (h3 : s.rd Reg.HQ.INJ_CONS < s.rd Reg.HQ.INJ_PROD) (h4 : s.act Reg.HQ.INJ_LOC = 0)
    (h5 : d = injDesc (Mem.readN s.hbm (s.act Reg.HQ.INJ_BASE + 32 * (s.rd Reg.HQ.INJ_CONS % 2 ^ s.act Reg.HQ.INJ_LOG2)) 32))
    (h6 : data = s.locRead d.dloc d.addr d.len) : (d.dloc = 1 → s.hostMemOff = true → execInjDescriptor s = .next s) ∧
    ((d.dloc = 1 → s.hostMemOff = false) → (s.injBad d data = true → ∃ t, execInjDescriptor s = .next t ∧
        t.rd Reg.HQ.INJ_CONS = (s.rd Reg.HQ.INJ_CONS + 1) % 2 ^ 64 ∧ s.Counts t Reg.HQ.INJ_REFUSED ∧ t.pkts = s.pkts ∧ t.acts = s.acts) ∧
      (s.injBad d data = false → 73 ≤ s.freeCells → d.mode = 1 → ∃ t, execInjDescriptor s = .next t ∧
        t.rd Reg.HQ.INJ_CONS = (s.rd Reg.HQ.INJ_CONS + 1) % 2 ^ 64 ∧ t.pkts = s.pkts ∧ s.Queued t (.offerInjected d.port d.queue { kind := 3, size := d.len + 4, bytes := data, tsreq := d.tsreq, itag := d.itag, own := storedCells (data ++ fcsBytes data) 0 }) ∧
        t.rd Reg.HOLD.ALLOC = (s.rd Reg.HOLD.ALLOC + storedCells (data ++ fcsBytes data) 0) % 2 ^ Reg.HOLD.ALLOC.width) ∧
      (s.injBad d data = false → 73 ≤ s.freeCells → d.mode ≠ 1 → ∀ l, s.injLaneFor d.port = some l → ∃ t x, execInjDescriptor s = .next t ∧
        t.rd Reg.HQ.INJ_CONS = (s.rd Reg.HQ.INJ_CONS + 1) % 2 ^ 64 ∧ t.pkt? s.nextPkt = some x ∧ x.i.frame = data ++ fcsBytes data ∧ x.i.lane = l ∧
        t.nextPkt = s.nextPkt + 1 ∧ (∀ k, k ≠ s.nextPkt → t.pkts.find? k = s.pkts.find? k)) ∧
      (s.injBad d data = false → s.freeCells < 73 → execInjDescriptor s = .next s)) := by
  obtain ⟨e0, e⟩ := execInjDescriptor_reads s d data h h1 h2 h3 h4 h5 h6
  refine ⟨fun hd ho => e0 ⟨hd, ho⟩, fun hd => ?_⟩
  obtain ⟨e1, e2, e3, e4⟩ := e (fun hc => Bool.false_ne_true ((hd hc.1).symm.trans hc.2))
  refine ⟨fun hb => ?_, fun hb hf hm => ?_, fun hb hf hm l hl => ?_, e2⟩
  · obtain ⟨f1, f2, -⟩ := s.injDone_fields false
    obtain ⟨r1, r2⟩ := s.injDone_refused
    exact ⟨_, e1 hb, r1, r2, f1, f2⟩
  · exact ⟨_, e3 hb hf hm, s.injOffered_spec _ _⟩
  · have hl' : l < 31 := State.injLaneFor_lt (h5 ▸ injDesc_port _) hl
    obtain ⟨i1, i2, x, x1, x2, i3⟩ := s.injected_spec d data hl'
    refine ⟨_, x, e4 hb hf hm l hl, i1, ?_, x1, x2, i2, fun k hk => ?_⟩
    · rw [State.pkt?, i3, Tbl.find?_put_self]
      rfl
    · rw [i3]
      exact Tbl.find?_put_ne _ _ hk

/-- Settles O30. -/
theorem hostQueueCommands : Obligations.HostQueueCommands :=
  ⟨execHqProduce_places, execHqProduce_off, execHqProduce_full, execHqProduce_safe, execHqEnable_starts, execHqEnable_misfit, execHqConsWrite_moved,
    execHqConsWrite_refused, execHqIrqRepeat_raises, execHqIrqRepeat_empty, execInjProdWrite_posts, execInjProdWrite_overruns, execInjDescriptor_idle,
    execInjDescriptor_takes, execQTokensSet_queues, execTokGo_queues⟩

end Sys2Proof.Machine
end

section
/-! PROOF. Boot and START (R334 to R340): O36 fails. In stage ROM the step STAGE_FIRMWARE writes the reasons for which it refuses each bank before
it looks for an image, so with no valid image it leaves the state with new reasons, where the statement says that nothing changes. -/

namespace Sys2Proof.Machine

-- One thread for the proofs, which bounds the memory that checking them takes.
set_option Elab.async false

open Sys2Proof

variable {s t u : State}

theorem State.fwCheck_congr (h : t.sec = s.sec) (img : List Byte) : t.fwCheck img = s.fwCheck img := by
  unfold State.fwCheck State.revoked State.arbCount
  rw [h]

theorem State.bankWhy_congr (h : t.sec = s.sec) (b : FwBank) : t.bankWhy b = s.bankWhy b := by
  rw [State.bankWhy, State.bankWhy, State.fwCheck_congr h]

theorem State.bootImage_congr (h : t.sec = s.sec) : t.bootImage = s.bootImage := by
  simp only [State.bootImage, h, State.bankWhy_congr h]

/-- ROM has noted why it would refuse each bank. -/
def State.whyNoted (s : State) : State :=
  (s.wr Reg.SEC.BOOT_WHY_A (s.bankWhy s.sec.bankA)).wr Reg.SEC.BOOT_WHY_B (s.bankWhy s.sec.bankB)

theorem State.rd_whyNoted (s : State) : s.whyNoted.rd Reg.SEC.BOOT_WHY_A = s.bankWhy s.sec.bankA % 2 ^ 4 := by
  rw [State.whyNoted, State.rd_wr_ne _ _ _ _ _ _ _ _ _ _ (by decide), State.rd_wr_self]
  rfl

theorem execStageFirmware_noImage (s : State) (h : s.inStage 1 = true) (h1 : s.bootImage = none) : execStageFirmware s = .next s.whyNoted := by
  have hn : s.whyNoted.bootImage = none := (State.bootImage_congr (s := s) rfl).trans h1
  rw [State.whyNoted] at hn
  rw [execStageFirmware, if_neg (not_not.2 h)]
  simp only [hn]
  rfl

/-- A device in stage ROM whose banks and recovery hold no image. -/
def noImage : State := { State.reset with sec := { pwrGood := true, booting := true } }

theorem bankWhy_noImage : noImage.bankWhy noImage.sec.bankA = 8 := rfl

theorem noImage_bootImage : noImage.bootImage = none := rfl

theorem noImage_inStage : noImage.inStage 1 = true := by decide

/-- Refutes O36: with no image in either bank STAGE_FIRMWARE does not leave the state as it is, it writes the reason 8 to BOOT_WHY_A. -/
theorem not_bootCommands : ¬ Obligations.BootCommands := by
  unfold Obligations.BootCommands
  rintro ⟨-, h, -⟩
  have he : Host.Outcome.next noImage.whyNoted = .next noImage :=
    (execStageFirmware_noImage noImage noImage_inStage noImage_bootImage).symm.trans (h noImage (.inr noImage_bootImage))
  have hw : noImage.whyNoted = noImage := Host.Outcome.next.inj he
  have hr : noImage.rd Reg.SEC.BOOT_WHY_A = 8 := by
    rw [← congrArg (fun u : State => u.rd Reg.SEC.BOOT_WHY_A) hw]
    exact noImage.rd_whyNoted.trans (congrArg (· % 2 ^ 4) bankWhy_noImage)
  exact absurd hr (by decide)

end Sys2Proof.Machine
end

section
/-! PROOF. Re-tests, unit resets, the rehash and availability (R306 to R308, R312 to R316): O34. -/

namespace Sys2Proof.Machine

-- One thread for the proofs, which bounds the memory that checking them takes.
set_option Elab.async false

open Sys2Proof

variable {s0 s t u : State} {src : Source}

/-! ### The units of the ledger's commands -/

theorem unitOfCode_code (u : Unit7) : unitOfCode u.code = some u := by
  have hc (k n : Nat) (hn : n < 65536) : unitOfCode (k * 65536 + n) = unitOf k n := by
    rw [unitOfCode, show (k * 65536 + n) / 65536 = k by omega, show (k * 65536 + n) % 65536 = n by omega]
  have hh (f : Flock) (a : Fin 64) : f.val * 64 + a.val < 16384 ∧ (f.val * 64 + a.val) % 64 = a.val ∧ (f.val * 64 + a.val) / 64 % 256 = f.val := by
    have := f.isLt
    have := a.isLt
    omega
  cases u with
  | lane l => exact (hc 1 l.val (by have := l.isLt; omega)).trans (dif_pos l.isLt)
  | flock f => exact (hc 2 f.val (by have := f.isLt; omega)).trans (dif_pos f.isLt)
  | array f a =>
    obtain ⟨h1, h2, h3⟩ := hh f a
    refine ((congrArg unitOfCode (Nat.add_assoc (3 * 65536) (f.val * 64) a.val)).trans (hc 3 (f.val * 64 + a.val) (by omega))).trans ((if_pos h1).trans ?_)
    simp only [h2, h3]
  | treeCore f a =>
    obtain ⟨h1, h2, h3⟩ := hh f a
    refine ((congrArg unitOfCode (Nat.add_assoc (4 * 65536) (f.val * 64) a.val)).trans (hc 4 (f.val * 64 + a.val) (by omega))).trans ((if_pos h1).trans ?_)
    simp only [h2, h3]
  | replica r => exact (hc 5 r.val (by have := r.isLt; omega)).trans (dif_pos r.isLt)
  | hbmc n => exact (hc 6 n.val (by have := n.isLt; omega)).trans (dif_pos n.isLt)
  | hport p => exact (hc 7 p.val (by have := p.isLt; omega)).trans (dif_pos p.isLt)

/-- The fields of the re-test and of the reset of a unit. -/
theorem unitField_plain : ∀ f ∈ [Reg.LEDG.RETEST_STATE, Reg.LEDG.RETEST_KIND, Reg.LEDG.RETEST_UNIT, Reg.LEDG.RETEST_REFUSED, Reg.LEDG.RST_STATE,
    Reg.LEDG.RST_REFUSED, Reg.FLOW.REHASH_RUN, Reg.FLOW.REHASH_STEP], reportKey (f.key 0 0 0) = false ∧ f.key 0 0 0 ≠ Reg.DEV.SEQ_RESULT.key 0 0 0 := by
  decide

theorem State.isOut_wrote (s : State) (src : Source) (u : Unit7) : (s.wrote src).isOut u = s.isOut u := by
  have hf (g : Field) (i : Nat) (hp : 262144 ≤ pageBase g.block 0) : (s.wrote src).rd g i = s.rd g i := s.rd_wrote_high src hp
  cases u with
  | array f a => simp only [State.isOut, hf Reg.FLOCK.ARRAY_WD f.val (by decide)]
  | treeCore f a => simp only [State.isOut, hf Reg.FLOCK.TREE_WD f.val (by decide)]
  | _ => simp [State.isOut]

theorem State.dmcView_flt (s : State) (u : Unit7) (v : DmcView) : (s.dmcView u v).flt = { s.flt with dmc := s.flt.dmc.set u.code v } := rfl

theorem State.dmcView_retest (s : State) (u : Unit7) (v : DmcView) : (s.dmcView u v).flt.retest = s.flt.retest := rfl

theorem State.dmcView_self (s : State) (u : Unit7) (v : DmcView) : (s.dmcView u v).flt.dmc.get u.code = v := by
  rw [State.dmcView_flt, Tbl.get_set_self]

theorem State.rd_dmcView (s : State) (u : Unit7) (v : DmcView) (f : Field) (i j k : Nat) : (s.dmcView u v).rd f i j k = s.rd f i j k := rfl

theorem State.ReportsOnly.dmcView (h : s.ReportsOnly t) (u : Unit7) (v : DmcView) : s.ReportsOnly (t.dmcView u v) := h.trans rfl

theorem State.ReportsOnly.queue (h : s.ReportsOnly t) (a : Act) : s.Queued (t.later a) a ∧
    ({ s with acts := (t.later a).acts } : State).ReportsOnly (t.later a) := by
  rw [State.ReportsOnly] at h
  rw [h]
  exact ⟨rfl, rfl⟩

/-! ### RETEST_GO and RETEST_END -/

/-- A re-test begins. -/
def State.underRetest (s : State) (src : Source) (u : Unit7) : State :=
  let s := (((s.wr Reg.LEDG.RETEST_REFUSED 0).wr Reg.LEDG.RETEST_STATE 1).dmcView u .underTest).auditCmd src Reg.LEDG.RETEST_GO 0 1 0
  { s with flt := { s.flt with retest := some (Unit7.code u) } }

theorem State.underRetest_spec (s : State) (src : Source) (u : Unit7) : (s.underRetest src u).rd Reg.LEDG.RETEST_STATE = 1 ∧
    (s.underRetest src u).flt.retest = some u.code ∧ (s.underRetest src u).flt.dmc.get u.code = .underTest ∧
    (s.underRetest src u).rd Reg.LEDG.RETEST_REFUSED = 0 ∧ s.ReportsOnly (s.underRetest src u) := by
  unfold State.underRetest
  extract_lets s1
  refine ⟨?_, rfl, ?_, ?_, ?_⟩
  · refine (State.rd_auditCmd _ _ _ _ _ _ _ _ _ _ _ _ (by decide)).trans ?_
    rw [State.rd_dmcView, State.rd_wr_self]
    rfl
  · refine (congrArg (fun f : FaultSt => f.dmc.get u.code) (State.quiet_auditCmd _ _ _ _ _ _ _ _).1).trans ?_
    exact State.dmcView_self _ u .underTest
  · refine (State.rd_auditCmd _ _ _ _ _ _ _ _ _ _ _ _ (by decide)).trans ?_
    rw [State.rd_dmcView, State.rd_wr_ne _ _ _ _ _ _ _ _ _ _ (by decide), State.rd_wr_self]
    rfl
  · simp [State.reportsOnly_iff, s1, State.dmcView]

theorem execRetestGo_starts (s : State) (src : Source) (u : Unit7) (h : s.Takes src)
    (h1 : unitOf (s.rd Reg.LEDG.RETEST_KIND) (s.rd Reg.LEDG.RETEST_UNIT) = some u) (h2 : s.rd Reg.LEDG.RETEST_STATE ≠ 1) (h3 : s.isOut u = true) :
    ∃ t, execRetestGo src s = .next t ∧ t.rd Reg.LEDG.RETEST_STATE = 1 ∧ t.flt.retest = some (Unit7.code u) ∧
      t.flt.dmc.get (Unit7.code u) = .underTest ∧ t.rd Reg.LEDG.RETEST_REFUSED = 0 ∧ s.WriteOnly t := by
  have hr (f : Field) (hf : f.key 0 0 0 ≠ Reg.DEV.SEQ_RESULT.key 0 0 0) := s.rd_wrote src f 0 0 0 hf
  have he : execRetestGo src s = .next ((s.wrote src).underRetest src u) := by
    rw [execRetestGo, s.basicCmd_takes _ h]
    simp only [hr _ (show Reg.LEDG.RETEST_KIND.key 0 0 0 ≠ _ by decide), hr _ (show Reg.LEDG.RETEST_UNIT.key 0 0 0 ≠ _ by decide),
      hr _ (show Reg.LEDG.RETEST_STATE.key 0 0 0 ≠ _ by decide), h1, h2, if_false, Option.filter_some, s.isOut_wrote, h3, Bool.true_or, if_true]
    rfl
  obtain ⟨r1, r2, r3, r4, r5⟩ := (s.wrote src).underRetest_spec src u
  exact ⟨_, he, r1, r2, r3, r4, (s.writeOnly_wrote src).trans r5.writeOnly⟩

theorem execRetestGo_refused (s : State) (src : Source) (h : s.Takes src) (h1 : s.rd Reg.LEDG.RETEST_STATE = 1 ∨
    unitOf (s.rd Reg.LEDG.RETEST_KIND) (s.rd Reg.LEDG.RETEST_UNIT) = none) : ∃ t, execRetestGo src s = .next t ∧ t.rd Reg.LEDG.RETEST_REFUSED = 1 ∧
    t.flt.retest = s.flt.retest ∧ s.WriteOnly t := by
  have hr (f : Field) (hf : f.key 0 0 0 ≠ Reg.DEV.SEQ_RESULT.key 0 0 0) := s.rd_wrote src f 0 0 0 hf
  have he : execRetestGo src s = .next (((s.wrote src).wr Reg.LEDG.RETEST_REFUSED 1).auditCmd src Reg.LEDG.RETEST_GO 0 1 3) := by
    rw [execRetestGo, s.basicCmd_takes _ h]
    simp only [hr _ (show Reg.LEDG.RETEST_KIND.key 0 0 0 ≠ _ by decide), hr _ (show Reg.LEDG.RETEST_UNIT.key 0 0 0 ≠ _ by decide),
      hr _ (show Reg.LEDG.RETEST_STATE.key 0 0 0 ≠ _ by decide)]
    by_cases hb : s.rd Reg.LEDG.RETEST_STATE = 1
    · simp only [hb, if_true]
    · simp only [hb, if_false, h1.resolve_left hb, Option.filter_none]
  refine ⟨_, he, ?_, ?_, by simp [State.writeOnly_iff]⟩
  · rw [State.rd_auditCmd _ _ _ _ _ _ _ _ _ _ _ _ (by decide), State.rd_wr_self]
    rfl
  · rw [(State.quiet_auditCmd _ _ _ _ _ _ _ _).1]
    simp

/-- The end of a re-test before its effect on the unit. -/
def State.retestOver (s : State) (n : Nat) : State :=
  ({ s with flt := { s.flt with retest := none } }.wr Reg.LEDG.RETEST_STATE n).event Blk.LEDG 0 2

theorem State.retestOver_spec (s : State) {n : Nat} (h : n < 4) : (s.retestOver n).rd Reg.LEDG.RETEST_STATE = n ∧
    (s.retestOver n).flt.retest = none ∧ s.ReportsOnly (s.retestOver n) := by
  refine ⟨?_, by simp [State.retestOver], by simp [State.retestOver, State.reportsOnly_iff]⟩
  rw [State.retestOver, State.rd_event _ _ _ _ _ _ _ _ (by decide), State.rd_wr_self]
  exact Nat.mod_eq_of_lt h

/-- The unit of a re-test is disputed no more. -/
def State.undisputed (s : State) (code : Nat) : State := { s with flt := { s.flt with disputed := s.flt.disputed.filter (· ≠ code) } }

theorem State.undisputed_spec (s : State) (code : Nat) : (s.undisputed code).regs = s.regs ∧ (s.undisputed code).flt.retest = s.flt.retest ∧
    s.ReportsOnly (s.undisputed code) := ⟨rfl, rfl, rfl⟩

theorem execRetestEnd_eq (s : State) (u : Unit7) (b : Bool) (h : s.flt.retest = some u.code) : execRetestEnd b s = .next
    (if b = true then ((s.retestOver (if b = true then 2 else 3)).undisputed u.code).later (.readmit u.code)
     else (s.retestOver (if b = true then 2 else 3)).dmcView u .withdrawn) := by
  unfold execRetestEnd
  split
  · next hn => cases hn.symm.trans h
  · next code hc =>
    obtain rfl : code = u.code := Option.some.inj (hc.symm.trans h)
    extract_lets w s1
    have hs : s1 = s.retestOver (if b = true then 2 else 3) := rfl
    clear_value s1
    rw [← hs]
    simp only [unitOfCode_code]
    cases b
    · rfl
    · rfl

theorem execRetestEnd_result (s : State) (u : Unit7) (h : s.flt.retest = some (Unit7.code u)) :
    (∃ t, execRetestEnd true s = .next t ∧ t.rd Reg.LEDG.RETEST_STATE = 2 ∧ s.Queued t (.readmit (Unit7.code u)) ∧ t.flt.retest = none ∧
      ({ s with acts := t.acts } : State).ReportsOnly t) ∧
    (∃ t, execRetestEnd false s = .next t ∧ t.rd Reg.LEDG.RETEST_STATE = 3 ∧ t.flt.dmc.get (Unit7.code u) = .withdrawn ∧ t.flt.retest = none ∧
      s.ReportsOnly t) := by
  constructor
  · obtain ⟨r1, r2, r3⟩ := s.retestOver_spec (n := 2) (by decide)
    obtain ⟨d1, d2, d3⟩ := (s.retestOver 2).undisputed_spec u.code
    obtain ⟨q1, q2⟩ := (r3.trans d3).queue (.readmit u.code)
    have he := execRetestEnd_eq s u true h
    rw [if_pos rfl, if_pos rfl] at he
    refine ⟨_, he, ?_, q1, ?_, q2⟩
    · rw [State.rd_later, State.rd_congr d1, r1]
    · rw [State.later_flt, d2, r2]
  · obtain ⟨r1, r2, r3⟩ := s.retestOver_spec (n := 3) (by decide)
    have he := execRetestEnd_eq s u false h
    rw [if_neg Bool.false_ne_true, if_neg Bool.false_ne_true] at he
    refine ⟨_, he, ?_, ?_, ?_, r3.dmcView _ _⟩
    · rw [State.rd_dmcView, r1]
    · exact (s.retestOver 3).dmcView_self u .withdrawn
    · rw [State.dmcView_retest, r2]

theorem execRetestEnd_none (s : State) (b : Bool) (h : s.flt.retest = none) : execRetestEnd b s = .next s := by
  simp only [execRetestEnd, h]

/-! ### Unit resets -/

/-- The unit of a reset is noted. -/
def State.rstNamed (s : State) (src : Source) (k n : Nat) : State := ((s.wrote src).wr Reg.LEDG.RST_KIND k).wr Reg.LEDG.RST_UNIT n

theorem State.rstNamed_spec (s : State) (src : Source) (k n : Nat) : (s.rstNamed src k n).rd Reg.LEDG.RST_STATE = s.rd Reg.LEDG.RST_STATE ∧
    (s.rstNamed src k n).flt = s.flt ∧ s.WriteOnly (s.rstNamed src k n) := by
  refine ⟨?_, by simp [State.rstNamed], by simp [State.rstNamed, State.writeOnly_iff]⟩
  rw [State.rstNamed, State.rd_wr_ne _ _ _ _ _ _ _ _ _ _ (by decide), State.rd_wr_ne _ _ _ _ _ _ _ _ _ _ (by decide),
    s.rd_wrote src _ _ _ _ (by decide)]

theorem State.rstRefuse_spec (s : State) (src : Source) : (s.rstRefuse src).rd Reg.LEDG.RST_REFUSED = 1 ∧ (s.rstRefuse src).flt.rst = s.flt.rst ∧
    s.ReportsOnly (s.rstRefuse src) := by
  refine ⟨?_, ?_, by simp [State.rstRefuse, State.reportsOnly_iff]⟩
  · rw [State.rstRefuse, State.rd_auditCmd _ _ _ _ _ _ _ _ _ _ _ _ (by decide), State.rd_wr_self]
    rfl
  · rw [State.rstRefuse, (State.quiet_auditCmd _ _ _ _ _ _ _ _).1]
    simp

/-- The reset of a lane waits for the boundary. -/
def State.laneRstBegun (s : State) (src : Source) (l : Nat) : State :=
  let s := (((s.wr Reg.LEDG.RST_REFUSED 0).wr Reg.LEDG.RST_STATE 1).later (.laneRst l true)).auditCmd src Reg.LEDG.RST_GO 0 1 0
  { s with flt := { s.flt with rst := some (1, l) } }

theorem State.laneRstBegun_spec (s : State) (src : Source) (l : Nat) : s.Queued (s.laneRstBegun src l) (.laneRst l true) ∧
    (s.laneRstBegun src l).rd Reg.LEDG.RST_STATE = 1 ∧ (s.laneRstBegun src l).rd Reg.LEDG.RST_REFUSED = 0 ∧
    (s.laneRstBegun src l).flt.rst = some (1, l) ∧ s.WriteLater (s.laneRstBegun src l) := by
  unfold State.laneRstBegun
  extract_lets s1
  refine ⟨?_, ?_, ?_, rfl, ?_⟩
  · simp [State.Queued, s1]
  · refine (State.rd_auditCmd _ _ _ _ _ _ _ _ _ _ _ _ (by decide)).trans ?_
    rw [State.rd_later, State.rd_wr_self]
    rfl
  · refine (State.rd_auditCmd _ _ _ _ _ _ _ _ _ _ _ _ (by decide)).trans ?_
    rw [State.rd_later, State.rd_wr_ne _ _ _ _ _ _ _ _ _ _ (by decide), State.rd_wr_self]
    rfl
  · simp [State.writeLater_iff, s1, State.later]

theorem execLaneReset_waits (s : State) (src : Source) (l : Lane) (h : s.Takes src) (h1 : s.rd Reg.LEDG.RST_STATE ≠ 1)
    (h2 : (s.lanes.get l.val).pass = true) : ∃ t, execLaneReset src l s = .next t ∧ s.Queued t (.laneRst l.val true) ∧ t.rd Reg.LEDG.RST_STATE = 1 ∧
    t.rd Reg.LEDG.RST_REFUSED = 0 ∧ t.flt.rst = some (1, l.val) ∧ s.WriteLater t := by
  obtain ⟨n1, n2, n3⟩ := s.rstNamed_spec src 1 l.val
  have he : execLaneReset src l s = .next ((s.rstNamed src 1 l.val).laneRstBegun src l.val) := by
    rw [execLaneReset, s.basicCmd_takes _ h]
    refine congrArg Host.Outcome.next (if_neg ?_)
    rw [show (((s.wrote src).wr Reg.LEDG.RST_KIND 1).wr Reg.LEDG.RST_UNIT l.val).rd Reg.LEDG.RST_STATE = _ from n1]
    simp [h1, h2]
  obtain ⟨b1, b2, b3, b4, b5⟩ := (s.rstNamed src 1 l.val).laneRstBegun_spec src l.val
  generalize s.rstNamed src 1 l.val = v at *
  have ha : v.acts = s.acts := by
    rw [State.WriteOnly] at n3
    rw [n3]
  exact ⟨_, he, by rw [State.Queued] at b1 ⊢; rw [b1, ha], b2, b3, b4, n3.writeLater.trans b5⟩

theorem execLaneReset_refused (s : State) (src : Source) (l : Lane) (h : s.Takes src)
    (h1 : s.rd Reg.LEDG.RST_STATE = 1 ∨ (s.lanes.get l.val).pass = false) : ∃ t, execLaneReset src l s = .next t ∧ t.rd Reg.LEDG.RST_REFUSED = 1 ∧
    t.flt.rst = s.flt.rst ∧ s.WriteOnly t := by
  obtain ⟨n1, n2, n3⟩ := s.rstNamed_spec src 1 l.val
  have he : execLaneReset src l s = .next ((s.rstNamed src 1 l.val).rstRefuse src) := by
    rw [execLaneReset, s.basicCmd_takes _ h]
    refine congrArg Host.Outcome.next (if_pos ?_)
    rw [show (((s.wrote src).wr Reg.LEDG.RST_KIND 1).wr Reg.LEDG.RST_UNIT l.val).rd Reg.LEDG.RST_STATE = _ from n1]
    exact h1.imp id (fun e => by simp [e])
  obtain ⟨b1, b2, b3⟩ := (s.rstNamed src 1 l.val).rstRefuse_spec src
  exact ⟨_, he, b1, by rw [b2, n2], n3.trans b3.writeOnly⟩

/-- The end of a reset before its effect on the unit. -/
def State.rstOver (s : State) (n : Nat) : State := ({ s with flt := { s.flt with rst := none } }.wr Reg.LEDG.RST_STATE n).event Blk.LEDG 0 3

theorem State.rstOver_spec (s : State) {n : Nat} (h : n < 4) : (s.rstOver n).rd Reg.LEDG.RST_STATE = n ∧ (s.rstOver n).flt = { s.flt with rst := none } ∧
    s.ReportsOnly (s.rstOver n) := by
  refine ⟨?_, by simp [State.rstOver], by simp [State.rstOver, State.reportsOnly_iff]⟩
  rw [State.rstOver, State.rd_event _ _ _ _ _ _ _ _ (by decide), State.rd_wr_self]
  exact Nat.mod_eq_of_lt h

theorem State.rstEnd_eq (s : State) (u : Unit7) (b : Bool) : s.rstEnd u b = if (b && !s.flt.disputed.contains u.code) = true then
    (s.rstOver (if b then 2 else 3)).later (.readmit u.code) else (s.rstOver (if b then 2 else 3)).dmcView u .withdrawn := by
  have hd : (s.rstOver (if b then 2 else 3)).flt.disputed = s.flt.disputed := by
    rw [(s.rstOver_spec (n := if b then 2 else 3) (by split <;> decide)).2.1]
  rw [← hd]
  rfl

theorem State.rstEnd_spec (s : State) (u : Unit7) (b : Bool) : (s.rstEnd u b).rd Reg.LEDG.RST_STATE = (if b then 2 else 3) ∧
    (s.rstEnd u b).flt.rst = none ∧ (b = true → s.flt.disputed.contains u.code = false → s.Queued (s.rstEnd u b) (.readmit u.code)) ∧
    (b = false → (s.rstEnd u b).flt.dmc.get u.code = .withdrawn) ∧ ({ s with acts := (s.rstEnd u b).acts } : State).ReportsOnly (s.rstEnd u b) := by
  obtain ⟨r1, r2, r3⟩ := s.rstOver_spec (n := if b then 2 else 3) (by split <;> decide)
  rw [s.rstEnd_eq u b]
  split
  · next hc =>
    obtain ⟨q1, q2⟩ := r3.queue (.readmit u.code)
    refine ⟨(State.rd_later _ _ _ _ _ _).trans r1, by rw [State.later_flt, r2], fun _ _ => q1, fun hb => ?_, q2⟩
    rw [hb] at hc
    exact absurd hc Bool.false_ne_true
  · next hc =>
    refine ⟨(State.rd_dmcView _ _ _ _ _ _ _).trans r1, ?_, fun hb hd => absurd (by rw [hb, hd]; rfl) hc, fun _ => ?_, ?_⟩
    · rw [State.dmcView_flt, r2]
    · exact State.dmcView_self _ _ _
    · have ha : (s.rstOver (if b then 2 else 3)).acts = s.acts := by
        rw [State.ReportsOnly] at r3
        rw [r3]
      rw [State.dmcView_acts, ha]
      exact r3.dmcView u .withdrawn

theorem execLaneResetDrained_ends (s : State) (l : Lane) (b : Bool) (h : s.flt.rst = some (1, l.val)) (h1 : (s.lanes.get l.val).resetting = true)
    (h2 : (s.lanes.get l.val).resident = 0) : ∃ t, execLaneResetDrained b s = .next t ∧ t.flt.rst = none ∧
    t.rd Reg.LEDG.RST_STATE = (if b then 2 else 3) ∧ .laneRst l.val false ∈ t.acts ∧
    (b = true → s.flt.disputed.contains (65536 + l.val) = false → t.acts = s.acts ++ [.readmit (65536 + l.val), .laneRst l.val false]) ∧
    (b = false → t.flt.dmc.get (65536 + l.val) = .withdrawn) ∧ ({ s with fcores := t.fcores, acts := t.acts } : State).ReportsOnly t := by
  have he : ∃ fc, execLaneResetDrained b s = .next ((({ s with fcores := fc } : State).rstEnd (.lane l) b).later (.laneRst l.val false)) := by
    refine ⟨s.fcores.filter (fun e => decide (e.1 / 192 ≠ l.val)), ?_⟩
    simp only [execLaneResetDrained, h]
    rw [if_neg (by simp [h1, h2])]
    simp only [Nat.mod_eq_of_lt l.isLt]
  obtain ⟨fc, he⟩ := he
  refine ⟨_, he, ?_⟩
  obtain ⟨e1, e2, e3, e4, e5⟩ := ({ s with fcores := fc } : State).rstEnd_spec (.lane l) b
  generalize ({ s with fcores := fc } : State).rstEnd (.lane l) b = v at *
  refine ⟨e2, e1, List.mem_append_right _ (List.mem_singleton_self _), fun hb hd => ?_, e4, ?_⟩
  · have hq := e3 hb hd
    rw [State.Queued] at hq
    rw [State.later_acts, hq]
    exact List.append_assoc _ _ _
  · rw [State.ReportsOnly] at e5
    rw [e5]
    rfl

theorem execLaneResetDrained_waits (s : State) (l : Lane) (b : Bool) (h : s.flt.rst = some (1, l.val)) (h1 : (s.lanes.get l.val).resident ≠ 0) :
    execLaneResetDrained b s = .next s := by
  simp only [execLaneResetDrained, h]
  exact if_pos (.inr h1)

/-! ### FLOCK_RESET -/

theorem Tbl.find?_filter_none {α : Type} (m : Tbl α) (p : Nat → Bool) {k : Nat} (h : p k = false) : Tbl.find? (m.filter (fun e => p e.1)) k = none := by
  induction m with
  | nil => rfl
  | cons e m ih =>
    by_cases hp : p e.1 = true
    · have hk : e.1 ≠ k := fun hk => by simp [hk, h] at hp
      simp [hp, Tbl.find?, hk, ih]
    · simp [hp, ih]

theorem State.WriteOnly.flockFields (h : s.WriteOnly t) : t.pkts = s.pkts ∧ t.flocks = s.flocks ∧ t.arr = s.arr ∧ t.acts = s.acts := by
  rw [State.WriteOnly] at h
  rw [h]
  exact ⟨rfl, rfl, rfl, rfl⟩

theorem State.flockCleared {a : ArraySt} {r : TreeSt} (h : t = { s with arr := a, tree := r }) :
    t.pkts = s.pkts ∧ t.flocks = s.flocks ∧ t.flt = s.flt ∧ t.acts = s.acts := by
  rw [h]
  exact ⟨rfl, rfl, rfl, rfl⟩

theorem State.ReportsOnly.endFields {a : List Act} (h : ({ s with acts := a } : State).ReportsOnly t) :
    t.arr = s.arr ∧ t.pkts = s.pkts ∧ t.flocks = s.flocks := by
  rw [State.ReportsOnly] at h
  rw [h]
  exact ⟨rfl, rfl, rfl⟩

/-- What a flock's clearing does to the core memories. -/
theorem State.clearFlock_spec (s : State) (f : Nat) : (∀ a, a / 16777216 = f → Mem.read (s.clearFlock f).arr.mem a = 0) ∧
    (∀ a, a / 16777216 ≠ f → Mem.read (s.clearFlock f).arr.mem a = Mem.read s.arr.mem a) ∧
    s.clearFlock f = { s with arr := (s.clearFlock f).arr, tree := (s.clearFlock f).tree } := by
  have hm : (s.clearFlock f).arr.mem = s.arr.mem.filter (fun e => decide (e.1 / 16777216 ≠ f)) := rfl
  refine ⟨fun a h => ?_, fun a h => ?_, rfl⟩
  · rw [hm, Mem.read, Tbl.find?_filter_none s.arr.mem (fun k => decide (k / 16777216 ≠ f)) (by simp [h])]
    rfl
  · rw [hm, Mem.read, Tbl.find?_filter_key s.arr.mem (fun k => decide (k / 16777216 ≠ f)) (by simp [h])]
    rfl

/-- A flock's reset is taken. -/
def State.rstTaken (s : State) (src : Source) : State := (s.wr Reg.LEDG.RST_REFUSED 0).auditCmd src Reg.LEDG.RST_GO 0 1 0

theorem State.rstTaken_spec (s : State) (src : Source) : (s.rstTaken src).flt.disputed = s.flt.disputed ∧ s.ReportsOnly (s.rstTaken src) := by
  refine ⟨?_, by simp [State.rstTaken, State.reportsOnly_iff]⟩
  rw [State.rstTaken, (State.quiet_auditCmd _ _ _ _ _ _ _ _).1]
  simp

theorem execFlockReset_clears (s : State) (src : Source) (f : Flock) (b : Bool) (h : s.Takes src) (h1 : s.rd Reg.LEDG.RST_STATE ≠ 1)
    (h2 : (s.flocks.get f.val).withdrawn = true) : ∃ t, execFlockReset src f b s = .next t ∧ t.rd Reg.LEDG.RST_STATE = (if b then 2 else 3) ∧
    (∀ a, a / 16777216 = f.val → Mem.read t.arr.mem a = 0) ∧ (∀ a, a / 16777216 ≠ f.val → Mem.read t.arr.mem a = Mem.read s.arr.mem a) ∧
    (b = true → s.flt.disputed.contains (131072 + f.val) = false → s.Queued t (.readmit (131072 + f.val))) ∧ t.pkts = s.pkts ∧
    t.flocks = s.flocks := by
  obtain ⟨n1, n2, n3⟩ := s.rstNamed_spec src 2 f.val
  have he : execFlockReset src f b s = .next ((((s.rstNamed src 2 f.val).rstTaken src).clearFlock f.val).rstEnd (.flock f) b) := by
    rw [execFlockReset, s.basicCmd_takes _ h]
    refine congrArg Host.Outcome.next (if_neg ?_)
    rw [show (((s.wrote src).wr Reg.LEDG.RST_KIND 2).wr Reg.LEDG.RST_UNIT f.val).rd Reg.LEDG.RST_STATE = _ from n1]
    simp [h1, h2]
  obtain ⟨t1, t2⟩ := (s.rstNamed src 2 f.val).rstTaken_spec src
  obtain ⟨c1, c2, c3⟩ := ((s.rstNamed src 2 f.val).rstTaken src).clearFlock_spec f.val
  obtain ⟨r1, r2, r3, r4, r5⟩ := (((s.rstNamed src 2 f.val).rstTaken src).clearFlock f.val).rstEnd_spec (.flock f) b
  have hw := n3.trans t2.writeOnly
  obtain ⟨w1, w2, w3, w4⟩ := hw.flockFields
  obtain ⟨k1, k2, k3, k4⟩ := State.flockCleared c3
  obtain ⟨e1, e2, e3⟩ := r5.endFields
  refine ⟨_, he, r1, fun a ha => ?_, fun a ha => ?_, fun hb hd => ?_, by rw [e2, k1, w1], by rw [e3, k2, w2]⟩
  · rw [e1, c1 a ha]
  · rw [e1, c2 a ha, w3]
  · have hq := r3 hb (by rw [k3, t1, n2]; exact hd)
    rw [State.Queued] at hq ⊢
    rw [hq, k4, w4]
    rfl

theorem execFlockReset_refused (s : State) (src : Source) (f : Flock) (b : Bool) (h : s.Takes src) (h1 : (s.flocks.get f.val).withdrawn = false) : ∃ t,
    execFlockReset src f b s = .next t ∧ t.rd Reg.LEDG.RST_REFUSED = 1 ∧ s.WriteOnly t := by
  obtain ⟨-, -, n3⟩ := s.rstNamed_spec src 2 f.val
  have he : execFlockReset src f b s = .next ((s.rstNamed src 2 f.val).rstRefuse src) := by
    rw [execFlockReset, s.basicCmd_takes _ h]
    exact congrArg Host.Outcome.next (if_pos (.inr (by simp [h1])))
  obtain ⟨b1, -, b3⟩ := (s.rstNamed src 2 f.val).rstRefuse_spec src
  exact ⟨_, he, b1, n3.trans b3.writeOnly⟩

/-! ### The rehash -/

theorem State.StoreOnly.clearBump {l : Nat} {b : Bool} {f : Field} {i j k n : Nat} (hs : s0.StoreOnly s) :
    s0.StoreOnly ((s.clearSlot l b).bump f i j k n) := State.StoreOnly.bump (State.StoreOnly.clearSlot hs)

theorem State.StoreOnly.verifySlot {l : Nat} (hs : s0.StoreOnly s) : s0.StoreOnly (s.verifySlot l) := by
  unfold State.verifySlot
  split
  swap
  · exact hs
  extract_lets key
  split
  · exact State.StoreOnly.clearBump (State.StoreOnly.fault hs.countUe)
  · exact State.StoreOnly.clearBump (State.StoreOnly.ite hs.relocate hs)

theorem State.StoreOnly.verifyStep {n : Nat} (hs : s0.StoreOnly s) : s0.StoreOnly (s.verifyStep n) :=
  hs.foldl fun _ _ h => State.StoreOnly.foldl h.tagCheck fun _ _ h' => h'.verifySlot

theorem State.StoreOnly.moveBack {l : Nat} (hs : s0.StoreOnly s) : s0.StoreOnly (s.moveBack l) := by
  unfold State.moveBack
  extract_lets v
  exact State.StoreOnly.ite hs.copySlot.bump hs

/-- The records of a step of the rehash, verified and moved back; where the next is due. -/
def State.rehashed (s : State) (n : Nat) : State :=
  (((List.range 256).flatMap (fun i => slotsOf (256 * n + i))).foldl State.moveBack
    ((s.setFlow (fun f => { f with journal := some n })).verifyStep n)).wr Reg.FLOW.REHASH_STEP (n + 1)

theorem State.rehashed_spec (s : State) (n : Nat) : s.FlowOnly (s.rehashed n) ∧
    (s.rehashed n).rd Reg.FLOW.REHASH_STEP = (n + 1) % 2 ^ 20 := by
  refine ⟨?_, State.rd_wr_self _ _ _ _ _ _⟩
  have h0 : s.FlowOnly (s.setFlow (fun f => { f with journal := some n })) := State.FlowOnly.setFlow (.refl s)
  exact h0.store (State.StoreOnly.wr (State.StoreOnly.foldl (State.StoreOnly.verifyStep (.refl _)) fun _ _ h => h.moveBack))

/-- The beat of the next step is set. -/
def State.rehashDue (s : State) : State := s.setFlow (fun f => { f with rehashAt := s.time.beat + Nat.max 64 (s.act Reg.FLOW.REHASH_PACE) })

theorem State.rehashStepNow_eq (s : State) (n : Nat) : s.rehashStepNow n =
    if n + 1 = 524288 then (s.rehashed n).rehashDue.rehashEnd else (s.rehashed n).rehashDue := rfl

theorem State.rehashDue_spec (s : State) : s.rehashDue.regs = s.regs ∧ s.rehashDue.time = s.time := ⟨rfl, rfl⟩

theorem State.rd_setFlow (s : State) (g : FlowSt → FlowSt) (f : Field) (i j k : Nat) : (s.setFlow g).rd f i j k = s.rd f i j k := rfl

theorem State.ReportsOnly.setFlow (h : s.ReportsOnly t) (g : FlowSt → FlowSt) : (t.setFlow g).flow = g s.flow ∧
    ({ s with flow := (t.setFlow g).flow } : State).ReportsOnly (t.setFlow g) := by
  rw [State.ReportsOnly] at h
  rw [h]
  exact ⟨rfl, rfl⟩

theorem State.rehashEnd_spec (s : State) : s.rehashEnd.rd Reg.FLOW.REHASH_RUN = 0 ∧ s.rehashEnd.flow = { s.flow with journal := none } ∧
    ({ s with flow := s.rehashEnd.flow } : State).ReportsOnly s.rehashEnd := by
  unfold State.rehashEnd
  extract_lets s1
  have h1 : s1.rd Reg.FLOW.REHASH_RUN = 0 := by
    refine (State.rd_fault _ _ _ _ _ _ (by decide)).trans ((State.rd_event _ _ _ _ _ _ _ _ (by decide)).trans ?_)
    rw [State.rd_wr_self]
    rfl
  have h2 : s.ReportsOnly s1 := by simp [s1, State.reportsOnly_iff, State.rehashRecord]
  clear_value s1
  exact ⟨(s1.rd_setFlow _ _ _ _ _).trans h1, h2.setFlow _⟩

theorem execRehashStep_next (s : State) (h : s.rd Reg.FLOW.REHASH_RUN = 1) (h1 : s.flow.rehashAt ≤ s.time.beat) (h2 : s.herd.cut = false) :
    execRehashStep s = .next (s.rehashStepNow (s.rd Reg.FLOW.REHASH_STEP)) :=
  if_neg (by simp [h, h1, h2])

theorem execRehashStep_waits (s : State) (h : s.rd Reg.FLOW.REHASH_RUN = 0 ∨ s.time.beat < s.flow.rehashAt) : execRehashStep s = .next s :=
  if_pos (h.imp id .inl)

theorem execRehashStep_counts (s : State) (h : s.rd Reg.FLOW.REHASH_RUN = 1) (h1 : s.flow.rehashAt ≤ s.time.beat) (h2 : s.herd.cut = false)
    (h3 : s.rd Reg.FLOW.REHASH_STEP < 524287) : ∃ t, execRehashStep s = .next t ∧ t.rd Reg.FLOW.REHASH_STEP = s.rd Reg.FLOW.REHASH_STEP + 1 ∧
    t.time = s.time := by
  refine ⟨_, execRehashStep_next s h h1 h2, ?_⟩
  generalize s.rd Reg.FLOW.REHASH_STEP = n at *
  obtain ⟨r1, r2⟩ := s.rehashed_spec n
  obtain ⟨d1, d2⟩ := (s.rehashed n).rehashDue_spec
  obtain ⟨-, -, -, -, -, ht⟩ := r1.stands
  rw [State.rehashStepNow_eq, if_neg (by omega), State.rd_congr d1, r2, d2, ht]
  exact ⟨Nat.mod_eq_of_lt (by omega), rfl⟩

theorem execRehashStep_ends (s : State) (h : s.rd Reg.FLOW.REHASH_RUN = 1) (h1 : s.flow.rehashAt ≤ s.time.beat) (h2 : s.herd.cut = false)
    (h3 : s.rd Reg.FLOW.REHASH_STEP = 524287) : ∃ t, execRehashStep s = .next t ∧ t.rd Reg.FLOW.REHASH_RUN = 0 ∧ t.flow.journal = none := by
  refine ⟨_, execRehashStep_next s h h1 h2, ?_⟩
  rw [h3, State.rehashStepNow_eq, if_pos rfl]
  obtain ⟨e1, e2, -⟩ := (s.rehashed 524287).rehashDue.rehashEnd_spec
  exact ⟨e1, by rw [e2]⟩

/-- A rehash begins, its registers and its record first. -/
def State.rehashBegun (s : State) (src : Source) : State :=
  (((s.wr Reg.FLOW.REHASH_RUN 1).wr Reg.FLOW.REHASH_STEP 0).auditCmd src Reg.FLOW.REHASH_GO 0 1 0).rehashRecord

theorem State.rehashBegun_spec (s : State) (src : Source) : (s.rehashBegun src).rd Reg.FLOW.REHASH_RUN = 1 ∧
    (s.rehashBegun src).rd Reg.FLOW.REHASH_STEP = 0 ∧ s.ReportsOnly (s.rehashBegun src) := by
  refine ⟨?_, ?_, by simp [State.reportsOnly_iff, State.rehashBegun, State.rehashRecord]⟩
  · refine (State.rd_fault _ _ _ _ _ _ (by decide)).trans ((State.rd_auditCmd _ _ _ _ _ _ _ _ _ _ _ _ (by decide)).trans ?_)
    rw [State.rd_wr_ne _ _ _ _ _ _ _ _ _ _ (by decide), State.rd_wr_self]
    rfl
  · refine (State.rd_fault _ _ _ _ _ _ (by decide)).trans ((State.rd_auditCmd _ _ _ _ _ _ _ _ _ _ _ _ (by decide)).trans ?_)
    rw [State.rd_wr_self]
    rfl

/-- The place of a new rehash. -/
def State.rehashPlaced (s : State) : State := s.setFlow (fun f => { f with rehashAt := s.time.beat + 1, journal := none })

theorem State.rd_wrote_run (s : State) (src : Source) : (s.wrote src).rd Reg.FLOW.REHASH_RUN = s.rd Reg.FLOW.REHASH_RUN :=
  s.rd_wrote src _ _ _ _ (by decide)

theorem State.WriteOnly.placed (h : s.WriteOnly t) : t.rehashPlaced.flow = { s.flow with rehashAt := s.time.beat + 1, journal := none } ∧
    ({ s with flow := t.rehashPlaced.flow } : State).WriteOnly t.rehashPlaced := by
  rw [State.WriteOnly] at h
  rw [h]
  exact ⟨rfl, rfl⟩

theorem State.WriteOnly.inFlow {f : FlowSt} (h : s.WriteOnly t) (h' : ({ t with flow := f } : State).ReportsOnly u) :
    t.flow = s.flow ∧ ({ s with flow := u.flow } : State).WriteOnly u := by
  rw [State.WriteOnly] at h
  rw [State.ReportsOnly] at h'
  rw [h', h]
  exact ⟨rfl, rfl⟩

theorem execRehashGo_starts (s : State) (src : Source) (h : s.Takes src) (h1 : s.rd Reg.FLOW.REHASH_RUN = 0) : ∃ t, execRehashGo src s = .next t ∧
    t.rd Reg.FLOW.REHASH_RUN = 1 ∧ t.rd Reg.FLOW.REHASH_STEP = 0 ∧ t.flow = { s.flow with rehashAt := s.time.beat + 1, journal := none } ∧
    ({ s with flow := t.flow } : State).WriteOnly t := by
  have he : execRehashGo src s = .next ((s.wrote src).rehashBegun src).rehashPlaced := by
    rw [execRehashGo, s.basicCmd_takes _ h]
    refine congrArg Host.Outcome.next (if_neg ?_)
    rw [s.rd_wrote_run, h1]
    decide
  obtain ⟨b1, b2, b3⟩ := (s.wrote src).rehashBegun_spec src
  obtain ⟨p1, p2⟩ := ((s.writeOnly_wrote src).trans b3.writeOnly).placed
  exact ⟨_, he, (State.rd_setFlow _ _ _ _ _ _).trans b1, (State.rd_setFlow _ _ _ _ _ _).trans b2, p1, p2⟩

theorem execRehash_running (s : State) (src : Source) (h : s.Takes src) (h1 : s.rd Reg.FLOW.REHASH_RUN = 1) :
    (∃ t, execRehashGo src s = .next t ∧ s.WriteOnly t) ∧
    (∃ t, execRehashStop src s = .next t ∧ t.rd Reg.FLOW.REHASH_RUN = 0 ∧ t.flow = { s.flow with journal := none } ∧
      ({ s with flow := t.flow } : State).WriteOnly t) := by
  constructor
  · refine ⟨_, (s.basicCmd_takes _ h).trans (congrArg Host.Outcome.next (if_pos ?_)), by simp [State.writeOnly_iff]⟩
    rw [s.rd_wrote_run, h1]
  · have hr : ((s.wrote src).auditCmd src Reg.FLOW.REHASH_STOP 0 2 0).rd Reg.FLOW.REHASH_RUN = 1 :=
      (State.rd_auditCmd _ _ _ _ _ _ _ _ _ _ _ _ (by decide)).trans ((s.rd_wrote_run src).trans h1)
    have hw : s.WriteOnly ((s.wrote src).auditCmd src Reg.FLOW.REHASH_STOP 0 2 0) := by simp [State.writeOnly_iff]
    have he : execRehashStop src s = .next ((s.wrote src).auditCmd src Reg.FLOW.REHASH_STOP 0 2 0).rehashEnd :=
      (s.basicCmd_takes _ h).trans (congrArg Host.Outcome.next (if_pos hr))
    obtain ⟨e1, e2, e3⟩ := ((s.wrote src).auditCmd src Reg.FLOW.REHASH_STOP 0 2 0).rehashEnd_spec
    obtain ⟨f1, f2⟩ := hw.inFlow e3
    exact ⟨_, he, e1, by rw [e2, f1], f2⟩

/-! ### AVAILABILITY_SAVE -/

theorem execAvailabilitySave_notDue (s : State) (h : s.time.beat % 2 ^ 33 ≠ 0) : execAvailabilitySave s = .next s := if_neg h

/-- The counts are saved as the registers show them. -/
theorem State.saved_spec {r : Tbl Nat} (h : t = { s with regs := r }) : ({ t with flt := { t.flt with flashAv := t.avRegs } } : State).flt =
      { s.flt with flashAv := ({ t with flt := { t.flt with flashAv := t.avRegs } } : State).avRegs } ∧
    ({ t with flt := { t.flt with flashAv := t.avRegs } } : State) =
      { s with regs := t.regs, flt := { t.flt with flashAv := t.avRegs } } := by
  subst h
  exact ⟨rfl, rfl⟩

theorem State.wr_regsOf (h : t = { s with regs := t.regs }) (f : Field) (v i j k : Nat) :
    t.wr f v i j k = { s with regs := (t.wr f v i j k).regs } := by
  have hw : t.wr f v i j k = { t with regs := (t.wr f v i j k).regs } := rfl
  generalize t.wr f v i j k = u at *
  rw [h] at hw
  exact hw

theorem State.avLoad_regs (s : State) (v : List Nat) : s.avLoad v = { s with regs := (s.avLoad v).regs } := by
  have hf (g : Nat → Nat) (l : List Nat) (w : State) (hw : w = { s with regs := w.regs }) :
      l.foldl (fun t i => t.wr Reg.LEDG.AV_PREV (g (6 + i)) 0 i) w =
        { s with regs := (l.foldl (fun t i => t.wr Reg.LEDG.AV_PREV (g (6 + i)) 0 i) w).regs } := by
    induction l generalizing w with
    | nil => exact hw
    | cons i l ih => exact ih _ (State.wr_regsOf hw _ _ _ _ _)
  have h0 : s = { s with regs := s.regs } := rfl
  unfold State.avLoad
  extract_lets g w
  have hw : w = { s with regs := w.regs } := State.wr_regsOf (State.wr_regsOf (State.wr_regsOf (State.wr_regsOf h0 _ _ _ _ _) _ _ _ _ _) _ _ _ _ _) _ _ _ _ _
  exact hf g _ _ (State.wr_regsOf (State.wr_regsOf hw _ _ _ _ _) _ _ _ _ _)

theorem State.avYear_regs (s : State) : s.avYear = { s with regs := s.avYear.regs } := by
  unfold State.avYear
  extract_lets y
  split
  · rfl
  · exact State.avLoad_regs _ _

theorem execAvailabilitySave_saves (s : State) (h : s.time.beat % 2 ^ 33 = 0) : ∃ t, execAvailabilitySave s = .next t ∧
    t.flt = { s.flt with flashAv := t.avRegs } ∧ t = { s with regs := t.regs, flt := t.flt } := by
  obtain ⟨h1, h2⟩ := State.saved_spec s.avYear_regs
  exact ⟨s.avSave, if_pos h, h1, h2⟩

/-- Settles O34. -/
theorem retestAndRehashCommands : Obligations.RetestAndRehashCommands :=
  ⟨execRetestGo_starts, execRetestGo_refused, execRetestEnd_result, execRetestEnd_none, execLaneReset_waits, execLaneReset_refused,
    execLaneResetDrained_ends, execLaneResetDrained_waits, execFlockReset_clears, execFlockReset_refused, execRehashGo_starts, execRehash_running,
    execRehashStep_waits, execRehashStep_counts, execRehashStep_ends, execAvailabilitySave_notDue, execAvailabilitySave_saves⟩

end Sys2Proof.Machine
end

section
/-! PROOF. Array instructions (R132 to R134, R137 to R139, R141 to R145, R160, R163, R242, R298): O14. -/

namespace Sys2Proof.Machine

-- One thread for the proofs, which bounds the memory that checking them takes.
set_option Elab.async false

open Sys2Proof

variable {s0 s t u : State} {c : ACoreId}

/-! ### Void work -/

/-- t differs from s in what the voiding of work writes: packets, invocations, runs and jobs. -/
def State.VoidsWork (s t : State) : Prop := t = { s with pkts := t.pkts, flow := t.flow, ctxs := t.ctxs, host := t.host }

theorem State.VoidsWork.refl (s : State) : s.VoidsWork s := rfl

theorem State.VoidsWork.trans (h : s.VoidsWork t) (h' : t.VoidsWork u) : s.VoidsWork u := by
  rw [State.VoidsWork] at *
  rw [h', h]

theorem State.VoidsWork.fields (h : s.VoidsWork t) : t.regs = s.regs ∧ t.arr = s.arr ∧ t.eg = s.eg ∧ t.hbm = s.hbm ∧ t.flocks = s.flocks := by
  rw [State.VoidsWork] at h
  rw [h]
  exact ⟨rfl, rfl, rfl, rfl, rfl⟩

theorem State.voidsWork_modPkt (s : State) (k : PktId) (f : Pkt → Pkt) : s.VoidsWork (s.modPkt k f) := by
  rw [State.modPkt]
  split
  · rfl
  · exact .refl s

theorem State.voidsWork_modRes (s : State) (k : PktId) (n : Nat) (b : Bool) (g : CtxRes → CtxRes) : s.VoidsWork (s.modRes k n b g) := s.voidsWork_modPkt _ _

theorem State.voidsWork_workLost (s : State) (n k v : Nat) (p : Inv → Bool) : s.VoidsWork (s.workLost n k v p) := by
  unfold State.workLost
  split
  · rfl
  · rfl
  · rfl
  · exact .refl s

theorem State.VoidsWork.foldl {α : Type} {g : State → α → State} (h : ∀ (t : State) a, t.VoidsWork (g t a)) (l : List α) (s : State) : s.VoidsWork (l.foldl g s) := by
  induction l generalizing s with
  | nil => exact .refl s
  | cons a l ih => exact (h s a).trans (ih _)

theorem State.voidsWork_voidWork (s : State) (c : ACoreId) (r v : Nat) : s.VoidsWork (s.voidWork c r v) := by
  unfold State.voidWork
  split
  · exact .refl s
  split
  · refine State.VoidsWork.foldl (fun t i => ?_) _ s
    split
    · exact (t.voidsWork_modRes _ _ _ _).trans (State.voidsWork_modRes _ _ _ _ _)
    · exact .refl t
  · exact s.voidsWork_workLost _ _ _ _

/-! ### What an instruction leaves of its core -/

/-- t has the core memories, the egress queues and core c's place in its program as s has them. -/
def State.CoreKept (c : ACoreId) (s t : State) : Prop :=
  t.arr.mem = s.arr.mem ∧ t.eg = s.eg ∧ (t.acore c).pc = (s.acore c).pc ∧ (t.acore c).inj = (s.acore c).inj

theorem State.CoreKept.refl (s : State) : s.CoreKept c s := ⟨rfl, rfl, rfl, rfl⟩

theorem State.CoreKept.trans (h : s.CoreKept c t) (h' : t.CoreKept c u) : s.CoreKept c u :=
  ⟨h'.1.trans h.1, h'.2.1.trans h.2.1, h'.2.2.1.trans h.2.2.1, h'.2.2.2.trans h.2.2.2⟩

theorem State.CoreKept.cores (hm : t.arr.mem = s.arr.mem) (he : t.eg = s.eg) (hc : t.arr.cores = s.arr.cores) : s.CoreKept c t :=
  ⟨hm, he, by rw [State.acore, State.acore, hc], by rw [State.acore, State.acore, hc]⟩

theorem State.CoreKept.arr (h : t.arr = s.arr) (he : t.eg = s.eg) : s.CoreKept c t := .cores (by rw [h]) he (by rw [h])

theorem State.VoidsWork.coreKept (h : s.VoidsWork t) : s.CoreKept c t := by
  obtain ⟨-, ha, he, -, -⟩ := h.fields
  exact .arr ha he

theorem State.coreKept_bump (s : State) (f : Field) (i j k n : Nat) : s.CoreKept c (s.bump f i j k n) := .arr (by simp) (by simp)

theorem State.coreKept_fault (s : State) (r : FaultRec) : s.CoreKept c (s.fault r) := .arr (by simp) (by simp)

theorem State.coreKept_modAcore (s : State) (g : ACore → ACore) (h : ∀ k, (g k).pc = k.pc ∧ (g k).inj = k.inj) : s.CoreKept c (s.modAcore c g) := by
  refine ⟨rfl, rfl, ?_, ?_⟩
  · rw [State.modAcore, State.acore_setAcore, (h _).1]
  · rw [State.modAcore, State.acore_setAcore, (h _).2]

theorem State.CoreKept.ite {p : Prop} [Decidable p] (h : s.CoreKept c t) (h' : s.CoreKept c u) : s.CoreKept c (if p then t else u) := by
  split
  · exact h
  · exact h'

theorem State.CoreKept.foldl {α : Type} {g : State → α → State} (h : ∀ (t : State) a, t.CoreKept c (g t a)) (l : List α) (s : State) :
    s.CoreKept c (l.foldl g s) := by
  induction l generalizing s with
  | nil => exact .refl s
  | cons a l ih => exact (h s a).trans (ih _)

theorem State.coreKept_setHeld (s : State) (l : List HeldPend) : s.CoreKept c (s.setHeld c l) := s.coreKept_modAcore _ fun _ => ⟨rfl, rfl⟩

/-- t has the arrays of s but for their held banks, and the rest of s but for the registers. -/
def State.BanksOnly (s t : State) : Prop := t = { s with regs := t.regs, arr := { s.arr with banks := t.arr.banks } }

theorem State.BanksOnly.refl (s : State) : s.BanksOnly s := rfl

theorem State.BanksOnly.trans (h : s.BanksOnly t) (h' : t.BanksOnly u) : s.BanksOnly u := by
  rw [State.BanksOnly] at *
  rw [h', h]

theorem State.BanksOnly.bump (h : s.BanksOnly t) (f : Field) (i j k n : Nat) : s.BanksOnly (t.bump f i j k n) := h.trans rfl

theorem State.BanksOnly.ite {p : Prop} [Decidable p] (h : s.BanksOnly t) (h' : s.BanksOnly u) : s.BanksOnly (if p then t else u) := by
  split
  · exact h
  · exact h'

theorem State.BanksOnly.foldl {α : Type} {g : State → α → State} (h : ∀ (t : State) a, t.BanksOnly (g t a)) (l : List α) (s : State) :
    s.BanksOnly (l.foldl g s) := by
  induction l generalizing s with
  | nil => exact .refl s
  | cons a l ih => exact (h s a).trans (ih _)

theorem State.BanksOnly.coreKept (h : s.BanksOnly t) : s.CoreKept c t := by
  rw [State.BanksOnly] at h
  rw [h]
  exact .cores rfl rfl rfl

theorem State.banksOnly_putPart (s : State) (c : ACoreId) (a : Nat) (f : LoadhF) (i : Nat) (b : Bool) (r : RowPart) :
    s.BanksOnly (s.putPart c a f i b r) := by
  unfold State.putPart
  extract_lets fl k row row' w s1 s2 s3
  have h1 : s.BanksOnly s1 := rfl
  have h2 : s.BanksOnly s2 := .ite h1 (h1.bump _ _ _ _ _)
  have h3 : s.BanksOnly s3 := .ite (h2.bump _ _ _ _ _) h2
  exact .ite (h3.bump _ _ _ _ _) h3

theorem State.heldStep_spec (s : State) (c : ACoreId) (p : HeldPend) (n m : Nat) :
    ((s.heldStep c p n m).arr.banks.get (bankKey c p.a p.f.bank)).written = n + 1 ∧ s.BanksOnly (s.heldStep c p n m) := by
  unfold State.heldStep
  extract_lets g k kl lo hi s1
  have h1 : s.BanksOnly s1 := by
    refine .ite ?_ ((s.banksOnly_putPart _ _ _ _ _ _).bump _ _ _ _ _)
    exact State.BanksOnly.foldl (fun t i => t.banksOnly_putPart _ _ _ _ _ _) _ s
  clear_value s1
  exact ⟨by rw [Tbl.get_mod_self], h1.trans rfl⟩

theorem State.coreKept_finishHeld (s : State) (a : Nat) (b : Bool) : s.CoreKept c (s.finishHeld c a b) := by
  unfold State.finishHeld
  extract_lets held mine s1
  have h1 : s.BanksOnly s1 := State.BanksOnly.foldl (fun t p => State.BanksOnly.foldl (fun t j => (t.heldStep_spec c p _ _).2) _ t) _ s
  exact h1.coreKept.trans (s1.coreKept_setHeld _)

theorem State.coreKept_wr (s : State) (f : Field) (v i j k : Nat) : s.CoreKept c (s.wr f v i j k) := .arr rfl rfl

/-- Writes of one instance of fields, in order. -/
def State.wrs (s : State) (i : Nat) (l : List (Field × Nat)) : State := l.foldl (fun t x => t.wr x.1 x.2 i) s

theorem State.coreKept_wrs (s : State) (i : Nat) (l : List (Field × Nat)) : s.CoreKept c (s.wrs i l) :=
  State.CoreKept.foldl (fun t _ => t.coreKept_wr _ _ _ _ _) l s

theorem State.coreKept_accFault (s : State) (a lane kind code seen exp at_ : Nat) : s.CoreKept c (s.accFault c a lane kind code seen exp at_) := by
  unfold State.accFault
  extract_lets f s1
  have h1 : s.CoreKept c s1 := s.coreKept_bump _ _ _ _ _
  clear_value s1
  split
  next b y hb =>
  extract_lets s3 s4 s5 ctx
  have h4 : s1.CoreKept c s5 := by
    refine .ite ?_ (.refl s1)
    exact s1.coreKept_wrs f [(Reg.FLOCK.AF_KIND, kind), (Reg.FLOCK.AF_CLASS, b2n c.bulk), (Reg.FLOCK.AF_CORE, c.core.val), (Reg.FLOCK.AF_ARRAY, a),
      (Reg.FLOCK.AF_LANE, lane), (Reg.FLOCK.AF_CYCLE, y), (Reg.FLOCK.AF_CODE, code), (Reg.FLOCK.AF_TAG_SEEN, seen), (Reg.FLOCK.AF_TAG_EXP, exp),
      (Reg.FLOCK.AF_BEAT, b)]
  exact ((h1.trans h4).trans (s5.coreKept_fault _)).trans (State.voidsWork_voidWork _ _ _ _).coreKept

/-- A change of one held bank. -/
def State.modBank (s : State) (k : Nat) (g : HeldBank → HeldBank) : State := { s with arr := { s.arr with banks := s.arr.banks.mod k g } }

theorem State.banks_modBank (s : State) (k : Nat) (g : HeldBank → HeldBank) : (s.modBank k g).arr.banks = s.arr.banks.mod k g := rfl

theorem State.banksOnly_modBank (s : State) (k : Nat) (g : HeldBank → HeldBank) : s.BanksOnly (s.modBank k g) := rfl

theorem State.coreKept_streamTimes (s : State) (f : StreamF) (l : List Nat) (n : Nat) : s.CoreKept c (s.streamTimes c f l n) := by
  unfold State.streamTimes
  extract_lets s1
  have h1 : s.BanksOnly s1 := State.BanksOnly.foldl (fun t a => (rfl : t.BanksOnly (t.modBank (bankKey c a f.bank) _))) l s
  exact h1.coreKept.trans (s1.coreKept_modAcore _ fun _ => ⟨rfl, rfl⟩)

theorem State.coreKept_streamChunk (s : State) (f : StreamF) (chunks named instr : Nat) (ids : Nat × Nat) (inj : Nat) (x : ChunkAt) :
    s.CoreKept c (s.streamChunk c f chunks named instr ids inj x) := by
  unfold State.streamChunk
  extract_lets g k lane old t
  split
  next code seen s1 hz =>
  have h1 : s.CoreKept c s1 := by
    split at hz
    · cases hz
      exact .refl s
    · cases hz
      exact .arr rfl rfl
  extract_lets flt n vals void start at_ s2 d s3
  have h2 : s1.CoreKept c s2 := by
    clear_value flt
    rcases flt with _ | ⟨i, kind, code, seen, exp⟩
    · exact .refl s1
    · exact s1.coreKept_accFault _ _ _ _ _ _ _
  have h3 : s.CoreKept c s3 := (h1.trans h2).trans (s2.coreKept_modAcore (fun k => { k with seq := k.seq + 1 }) fun _ => ⟨rfl, rfl⟩)
  clear_value s3 s2
  exact .ite (h3.trans (.cores rfl rfl rfl)) ((h1.trans h2).trans (.cores rfl rfl rfl))

/-! ### Issue -/

/-- t differs from s in the registers and in the arrays alone. -/
def State.ArrOnly (s t : State) : Prop := t = { s with regs := t.regs, arr := t.arr }

theorem State.ArrOnly.refl (s : State) : s.ArrOnly s := rfl

theorem State.ArrOnly.trans (h : s.ArrOnly t) (h' : t.ArrOnly u) : s.ArrOnly u := by
  rw [State.ArrOnly] at *
  rw [h', h]

theorem State.BanksOnly.arrOnly (h : s.BanksOnly t) : s.ArrOnly t := by
  rw [State.BanksOnly] at h
  rw [h]
  rfl

theorem State.regs_modAcore (s : State) (c : ACoreId) (g : ACore → ACore) : (s.modAcore c g).regs = s.regs := rfl

theorem State.arrOnly_modAcore (s : State) (c : ACoreId) (g : ACore → ACore) : s.ArrOnly (s.modAcore c g) := rfl

theorem State.arrOnly_issueInstr (s : State) (c : ACoreId) (b : Bool) (n : Nat) : s.ArrOnly (s.issueInstr c b n) := by
  obtain ⟨r, x, h, -⟩ := s.issueInstr_frame c b n
  rw [h]
  rfl

theorem State.pc_issueInstr (s : State) (c : ACoreId) (b : Bool) (n : Nat) : ((s.issueInstr c b n).acore c).pc = (s.acore c).pc + 1 := by
  rw [s.acore_issueInstr, State.issued]

theorem State.arr_issueInstr (s : State) (c : ACoreId) (b : Bool) (n : Nat) : ∃ x, (s.issueInstr c b n).arr = { s.arr with cores := x } := by
  obtain ⟨r, x, h, -⟩ := s.issueInstr_frame c b n
  exact ⟨_, by rw [h]⟩

/-- A wait counts the last one, and begins another in the same place. -/
theorem State.issueWait_spec (s : State) (c : ACoreId) : ((s.issueWait c).acore c).pc = (s.acore c).pc ∧
    ((s.issueWait c).acore c).waitAt = some (s.islNow c.flock.val) ∧ (∃ x, (s.issueWait c).arr = { s.arr with cores := x }) ∧
    s.ArrOnly (s.issueWait c) ∧ ((s.acore c).waitAt = none → (s.issueWait c).regs = s.regs) := by
  have hc := s.countWait_eq c
  have hw := s.countWait_none c
  unfold State.issueWait
  generalize s.countWait c = v at *
  have ha : v.arr = s.arr := by rw [hc]
  have hk : v.acore c = s.acore c := by rw [State.acore, State.acore, ha]
  have hr : s.ArrOnly v := by
    rw [State.ArrOnly, ha]
    exact hc
  refine ⟨?_, ?_, ?_, hr.trans (v.arrOnly_modAcore c _), fun h => ?_⟩
  · rw [State.acore_modAcore, hk]
  · rw [State.acore_modAcore]
  · rw [State.modAcore, State.setAcore, ha]
    exact ⟨_, rfl⟩
  · rw [State.regs_modAcore, hw h]

/-! ### LOADH -/

/-- A held bank as its LOADH opens it. -/
def openedBank (f : LoadhF) (b : HeldBank) : HeldBank :=
  { loaded := true, fmt := f.fmt.val, klen := f.klen.val, rows := [], written := 0, readEnd := b.readEnd }

/-- The banks that a LOADH names are open. -/
def State.banksOpened (s : State) (c : ACoreId) (f : LoadhF) (l : List Nat) : State :=
  l.foldl (fun t a => { t with arr := { t.arr with banks := t.arr.banks.mod (bankKey c a f.bank) (openedBank f) } }) s

theorem State.banksOpened_spec (s : State) (c : ACoreId) (f : LoadhF) (l : List Nat) : s.BanksOnly (s.banksOpened c f l) ∧
    (∀ k, (∃ b, s.arr.banks.get k = openedBank f b) → ∃ b, (s.banksOpened c f l).arr.banks.get k = openedBank f b) ∧
    (∀ a ∈ l, ∃ b, (s.banksOpened c f l).arr.banks.get (bankKey c a f.bank) = openedBank f b) := by
  induction l generalizing s with
  | nil => exact ⟨.refl s, fun k h => h, fun a h => absurd h List.not_mem_nil⟩
  | cons a l ih =>
    have he : s.banksOpened c f (a :: l) = (s.modBank (bankKey c a f.bank) (openedBank f)).banksOpened c f l := rfl
    obtain ⟨h1, h2, h3⟩ := ih (s.modBank (bankKey c a f.bank) (openedBank f))
    have hs : (s.modBank (bankKey c a f.bank) (openedBank f)).arr.banks.get (bankKey c a f.bank) =
        openedBank f (s.arr.banks.get (bankKey c a f.bank)) := by
      rw [State.banks_modBank, Tbl.get_mod_self]
    have hk (k : Nat) (hk : ∃ b, s.arr.banks.get k = openedBank f b) :
        ∃ b, (s.modBank (bankKey c a f.bank) (openedBank f)).arr.banks.get k = openedBank f b := by
      by_cases hkk : k = bankKey c a f.bank
      · rw [hkk]
        exact ⟨_, hs⟩
      · rw [State.banks_modBank, Tbl.get_mod_ne _ _ hkk]
        exact hk
    rw [he]
    refine ⟨(s.banksOnly_modBank _ _).trans h1, fun k h => h2 k (hk k h), fun x hx => ?_⟩
    rcases List.mem_cons.1 hx with rfl | hx
    · exact h2 _ ⟨_, hs⟩
    · exact h3 x hx

/-- A LOADH that issues. -/
def State.loadhDone (s : State) (c : ACoreId) (f : LoadhF) (n : Nat) (held : List HeldPend) : State :=
  let s := s.banksOpened c f (s.named c f.amask.toNat)
  let s := if f.xp then s.modAcore c (fun k => { k with port := n }) else s
  (s.issueInstr c true).setHeld c held

theorem State.loadhDone_spec (s : State) (c : ACoreId) (f : LoadhF) (n : Nat) (held : List HeldPend) :
    ((s.loadhDone c f n held).acore c).pc = (s.acore c).pc + 1 ∧ (s.loadhDone c f n held).arr.mem = s.arr.mem ∧ s.ArrOnly (s.loadhDone c f n held) ∧
    (s.loadhDone c f n held).arr.banks = (s.banksOpened c f (s.named c f.amask.toNat)).arr.banks := by
  obtain ⟨h1, -, -⟩ := s.banksOpened_spec c f (s.named c f.amask.toNat)
  unfold State.loadhDone
  extract_lets s1 s2
  have h2 : s1.CoreKept c s2 := .ite (s1.coreKept_modAcore _ fun _ => ⟨rfl, rfl⟩) (.refl s1)
  have h3 : s1.ArrOnly s2 ∧ s2.arr.banks = s1.arr.banks := by
    simp only [s2]
    split
    · exact ⟨rfl, rfl⟩
    · exact ⟨rfl, rfl⟩
  clear_value s2
  obtain ⟨k1, -, k3, -⟩ := h1.coreKept.trans h2
  obtain ⟨x, hx⟩ := s2.arr_issueInstr c true 1
  obtain ⟨e1, -, e3, -⟩ := (s2.issueInstr c true).coreKept_setHeld (c := c) held
  refine ⟨by rw [e3, s2.pc_issueInstr, k3], by rw [e1, hx, k1], (h1.arrOnly.trans h3.1).trans ((s2.arrOnly_issueInstr c true 1).trans rfl), ?_⟩
  have hb : ((s2.issueInstr c true).setHeld c held).arr.banks = (s2.issueInstr c true).arr.banks := rfl
  rw [hb, hx, h3.2]

theorem execLoadh_opens (s u : State) (c : ACoreId) (f : LoadhF) (h : u = s.land c.flock) (h1 : u.coreIssues c (LoadhF.word f) = true)
    (h2 : ∀ a n, u.toWrite c a n = false) (h3 : f.xp = true → (u.acore c).port ≤ u.islNow c.flock.val) : ∃ t, execLoadh c f s = .next t ∧
    (t.acore c).pc = (u.acore c).pc + 1 ∧ (∀ a ∈ u.named c f.amask.toNat, (t.arr.banks.get (bankKey c a f.bank)).loaded = true ∧
      (t.arr.banks.get (bankKey c a f.bank)).fmt = f.fmt.val ∧ (t.arr.banks.get (bankKey c a f.bank)).klen = f.klen.val ∧
      (t.arr.banks.get (bankKey c a f.bank)).written = 0) ∧ t.arr.mem = u.arr.mem ∧ t = { u with regs := t.regs, arr := t.arr } := by
  have he : ∃ n held, execLoadh c f s = .next (u.loadhDone c f n held) := by
    rw [execLoadh, ← h]
    refine ⟨_, _, (if_neg (not_not.2 h1)).trans ((if_neg ?_).trans rfl)⟩
    simp only [h2, Bool.and_false, Bool.false_or, List.any_eq_false]
    simpa using h3
  obtain ⟨n, held, he⟩ := he
  obtain ⟨-, -, hb⟩ := u.banksOpened_spec c f (u.named c f.amask.toNat)
  obtain ⟨k1, k2, k3, k4⟩ := u.loadhDone_spec c f n held
  refine ⟨_, he, k1, fun a ha => ?_, k2, k3⟩
  obtain ⟨b, hb⟩ := hb a ha
  rw [k4, hb]
  exact ⟨rfl, rfl, rfl, rfl⟩

theorem execLoadh_waits (s u : State) (c : ACoreId) (f : LoadhF) (h : u = s.land c.flock) (h1 : u.coreIssues c (LoadhF.word f) = true)
    (h2 : f.xp = true) (h3 : u.islNow c.flock.val < (u.acore c).port) : ∃ t, execLoadh c f s = .next t ∧ (t.acore c).pc = (u.acore c).pc ∧
    (t.acore c).waitAt = some (u.islNow c.flock.val) ∧ t.arr.banks = u.arr.banks ∧ t.arr.mem = u.arr.mem ∧
    t = { u with regs := t.regs, arr := t.arr } := by
  have he : execLoadh c f s = .next (u.issueWait c) := by
    rw [execLoadh, ← h]
    refine (if_neg (not_not.2 h1)).trans (if_pos ?_)
    simp [h2, h3]
  obtain ⟨w1, w2, ⟨x, w3⟩, w4, -⟩ := u.issueWait_spec c
  exact ⟨_, he, w1, w2, by rw [w3], by rw [w3], w4⟩

/-! ### HELD_WRITE -/

theorem execHeldWrite_counts (s u : State) (c : ACoreId) (a : Fin 4) (n : HeldAt) (p : HeldPend) (h : u = s.land c.flock)
    (h1 : u.flockRuns c.flock.val = true) (h2 : (u.acore c).held.find? (fun h => h.a == a.val && h.next == n.row.val) = some p)
    (h3 : n.parity = false) (h4 : p.next < p.total) (h5 : p.writeAt ≤ u.islNow c.flock.val) : ∃ t, execHeldWrite c a n s = .next t ∧
    (t.arr.banks.get (bankKey c p.a p.f.bank)).written = n.row.val + 1 ∧ t.arr.mem = u.arr.mem ∧ t = { u with regs := t.regs, arr := t.arr } := by
  have he : ∃ m held, execHeldWrite c a n s = .next ((u.heldStep c p n.row.val m).setHeld c held) := by
    rw [execHeldWrite, ← h]
    simp only [h2, h1, h3, not_true_eq_false, false_or, Nat.not_le.2 h4, Nat.not_lt.2 h5, if_false, Bool.false_eq_true]
    exact ⟨_, _, rfl⟩
  obtain ⟨m, held, he⟩ := he
  obtain ⟨w1, w2⟩ := u.heldStep_spec c p n.row.val m
  obtain ⟨k1, -, -, -⟩ := w2.coreKept (c := c)
  exact ⟨_, he, w1, k1, w2.arrOnly.trans rfl⟩

/-! ### STREAM -/

theorem execStream_waits (s u : State) (c : ACoreId) (f : StreamF) (b : Bool) (h : u = s.land c.flock) (h1 : u.coreIssues c (StreamF.word f) = true)
    (h2 : u.streamWaits c f = true) : ∃ t, execStream c f b s = .next t ∧ (t.acore c).pc = (u.acore c).pc ∧
    (t.acore c).waitAt = some (u.islNow c.flock.val) ∧ t.arr.banks = u.arr.banks ∧ t.arr.lanes = u.arr.lanes ∧ t.arr.mem = u.arr.mem ∧
    t = { u with regs := t.regs, arr := t.arr } ∧ ((u.acore c).waitAt = none → t.regs = u.regs) := by
  have he : execStream c f b s = .next (u.issueWait c) := by
    rw [execStream, ← h]
    exact (if_neg (not_not.2 h1)).trans (if_pos h2)
  obtain ⟨w1, w2, ⟨x, w3⟩, w4, w5⟩ := u.issueWait_spec c
  exact ⟨_, he, w1, w2, by rw [w3], by rw [w3], by rw [w3], w4, w5⟩

/-- A STREAM that issues, without an error of parity. -/
def State.streamed (s : State) (c : ACoreId) (f : StreamF) : State :=
  let g := s.geo c
  let named := s.named c f.amask.toNat
  let chunks := ceilDiv (f.nm1.val + 1) g.cols
  let now := s.islNow c.flock.val
  let s := named.foldl (fun t a => t.finishHeld c a f.bank) s
  let k := s.acore c
  let w := s.instrWord c k.pc
  let s := (s.issueInstr c true).streamTimes c f named (now + (chunks - 1) * chunkPeriod f g + chunkCycles f - 1)
  let s := s.modAcore c (fun k => { k with inj := 0, opc := { k.opc with wStart := now, wChunks := chunks, wCycles := chunkCycles f, wPeriod := chunkPeriod f g, issues := 0 } })
  let xs := (List.range chunks).flatMap (fun n => named.mapIdx (fun i a => ({ a := a, pos := i, chunk := n, lane := StreamF.laneOf f n } : ChunkAt)))
  let s := xs.foldl (fun t x => t.streamChunk c f chunks named.length k.pc (bits w 96 16, bits w 112 16) (if x.chunk = 0 then k.inj else 0) x) s
  let cyc := chunks * chunkCycles f * named.length
  if c.bulk then s.bump Reg.FLOCK.BULK_STREAM c.flock.val 0 0 (if k.ws then 4 * cyc else cyc) else s.bump Reg.FLOCK.EXP_STREAM c.flock.val 0 0 cyc

theorem State.streamed_spec (s : State) (c : ACoreId) (f : StreamF) : ((s.streamed c f).acore c).pc = (s.acore c).pc + 1 ∧
    ((s.streamed c f).acore c).inj = 0 ∧ (s.streamed c f).arr.mem = s.arr.mem ∧ (s.streamed c f).eg = s.eg := by
  unfold State.streamed
  extract_lets g named chunks now s1 k w s2 s3 xs s4 cyc
  have h1 : s.CoreKept c s1 := State.CoreKept.foldl (fun t a => t.coreKept_finishHeld a f.bank) named s
  have h2 : (s1.issueInstr c true).CoreKept c s2 := (s1.issueInstr c true).coreKept_streamTimes f named _
  have h3 : (s3.acore c).pc = (s2.acore c).pc ∧ (s3.acore c).inj = 0 ∧ s3.arr.mem = s2.arr.mem ∧ s3.eg = s2.eg := by
    refine ⟨?_, ?_, rfl, rfl⟩
    · simp only [s3, State.acore_modAcore]
    · simp only [s3, State.acore_modAcore]
  have h4 : s3.CoreKept c s4 := State.CoreKept.foldl (fun t x => t.coreKept_streamChunk _ _ _ _ _ _ _) xs s3
  have h5 := h4.trans (State.CoreKept.ite (s4.coreKept_bump Reg.FLOCK.BULK_STREAM c.flock.val 0 0 (if k.ws then 4 * cyc else cyc))
    (s4.coreKept_bump Reg.FLOCK.EXP_STREAM c.flock.val 0 0 cyc) (p := c.bulk = true))
  obtain ⟨x, hx⟩ := s1.arr_issueInstr c true 1
  have hp := s1.pc_issueInstr c true 1
  have ha : (s1.issueInstr c true).eg = s1.eg := by
    have := s1.arrOnly_issueInstr c true 1
    rw [State.ArrOnly] at this
    rw [this]
  clear_value s4 s3 s2 s1
  obtain ⟨m1, e1, p1, -⟩ := h1
  obtain ⟨m2, e2, p2, -⟩ := h2
  obtain ⟨p3, i3, m3, e3⟩ := h3
  obtain ⟨m5, e5, p5, i5⟩ := h5
  exact ⟨by rw [p5, p3, p2, hp, p1], by rw [i5, i3], by rw [m5, m3, m2, hx, m1], by rw [e5, e3, e2, ha, e1]⟩

theorem execStream_issues (s u : State) (c : ACoreId) (f : StreamF) (h : u = s.land c.flock) (h1 : u.coreIssues c (StreamF.word f) = true)
    (h2 : u.streamWaits c f = false) : ∃ t, execStream c f false s = .next t ∧ (t.acore c).pc = (u.acore c).pc + 1 ∧ (t.acore c).inj = 0 ∧
    t.arr.mem = u.arr.mem ∧ t.eg = u.eg := by
  have he : execStream c f false s = .next (u.streamed c f) := by
    rw [execStream, ← h]
    exact (if_neg (not_not.2 h1)).trans (if_neg (Bool.eq_false_iff.mp h2))
  exact ⟨_, he, u.streamed_spec c f⟩

/-! ### TILE_DRAIN -/

/-- t has the packets, the egress queues, the drains and core c's place in its program as s has them. -/
def State.TileKept (c : ACoreId) (s t : State) : Prop :=
  t.pkts = s.pkts ∧ t.eg = s.eg ∧ t.arr.drains = s.arr.drains ∧ (t.acore c).pc = (s.acore c).pc

theorem State.TileKept.refl (s : State) : s.TileKept c s := ⟨rfl, rfl, rfl, rfl⟩

theorem State.TileKept.trans (h : s.TileKept c t) (h' : t.TileKept c u) : s.TileKept c u :=
  ⟨h'.1.trans h.1, h'.2.1.trans h.2.1, h'.2.2.1.trans h.2.2.1, h'.2.2.2.trans h.2.2.2⟩

theorem State.TileKept.cores (hp : t.pkts = s.pkts) (he : t.eg = s.eg) (hd : t.arr.drains = s.arr.drains) (hc : t.arr.cores = s.arr.cores) :
    s.TileKept c t := ⟨hp, he, hd, by rw [State.acore, State.acore, hc]⟩

theorem State.TileKept.arr (h : t.arr = s.arr) (hp : t.pkts = s.pkts) (he : t.eg = s.eg) : s.TileKept c t := .cores hp he (by rw [h]) (by rw [h])

theorem State.TileKept.ite {p : Prop} [Decidable p] (h : s.TileKept c t) (h' : s.TileKept c u) : s.TileKept c (if p then t else u) := by
  split
  · exact h
  · exact h'

theorem State.TileKept.foldl {α : Type} {g : State → α → State} (h : ∀ (t : State) a, t.TileKept c (g t a)) (l : List α) (s : State) :
    s.TileKept c (l.foldl g s) := by
  induction l generalizing s with
  | nil => exact .refl s
  | cons a l ih => exact (h s a).trans (ih _)

theorem State.tileKept_modAcore (s : State) (g : ACore → ACore) (h : ∀ k, (g k).pc = k.pc) : s.TileKept c (s.modAcore c g) := by
  refine ⟨rfl, rfl, rfl, ?_⟩
  rw [State.modAcore, State.acore_setAcore, h]

theorem State.tileKept_coreStoreNib (s : State) (k : ACoreId) (a n v : Nat) : s.TileKept c (s.coreStoreNib k a n v) := by
  unfold State.coreStoreNib
  exact .ite (.cores rfl rfl rfl rfl) (.cores rfl rfl rfl rfl)

theorem State.tileKept_drainWrites (s : State) (b : Bool) (ws : List (Nat × Nat × Nat × Nat)) : s.TileKept c (s.drainWrites c b ws) := by
  unfold State.drainWrites
  extract_lets s1 far
  have h1 : s.TileKept c s1 := State.TileKept.foldl (fun t x => t.tileKept_coreStoreNib _ _ _ _) ws s
  clear_value s1
  exact h1.trans (.cores rfl rfl rfl rfl)

theorem State.tileKept_landsBy (s : State) (n : Nat) : s.TileKept c (s.landsBy c n) := s.tileKept_modAcore _ fun _ => rfl

theorem State.tileKept_releasePosts (s : State) : s.TileKept c (s.releasePosts c) := by
  unfold State.releasePosts
  extract_lets k left ready made s1
  have h1 : s.TileKept c s1 := s.tileKept_modAcore (fun k => { k with posts := k.posts.filter (fun p => !ready p) }) fun _ => rfl
  clear_value s1
  exact h1.trans (.cores rfl rfl rfl rfl)

theorem State.observe_keeps (s : State) (i : ObsItem) : (s.observe i).arr = s.arr ∧ (s.observe i).pkts = s.pkts ∧ (s.observe i).eg = s.eg ∧
    (s.observe i).flocks = s.flocks := by
  rw [State.observe]
  split
  · exact ⟨by simp, by simp, by simp, by simp⟩
  · exact ⟨rfl, rfl, rfl, rfl⟩

theorem State.watchRecord_keeps (s : State) (n : Nat) (w : Watch) (k : ACoreId) (b : Nat) (r : WatchRec) (es : List (Nat × Int)) :
    (s.watchRecord n w k b r es).arr = s.arr ∧ (s.watchRecord n w k b r es).pkts = s.pkts ∧ (s.watchRecord n w k b r es).eg = s.eg ∧
    (s.watchRecord n w k b r es).flocks = s.flocks :=
  (s.bump Reg.SAMP.W_RECORDS 0 0 n).observe_keeps _

theorem State.watchTile_keeps (s : State) (k : ACoreId) (d : DrainTile) (n : Nat) (rows : List (List OutEl)) :
    (s.watchTile k d n rows).arr = s.arr ∧ (s.watchTile k d n rows).pkts = s.pkts ∧ (s.watchTile k d n rows).eg = s.eg := by
  unfold State.watchTile
  split
  · exact ⟨rfl, rfl, rfl⟩
  · next m w hw =>
    extract_lets w1 acc w2
    split
    · exact ⟨rfl, rfl, rfl⟩
    · split
      next un s1 hs =>
      have h1 : s1.arr = s.arr ∧ s1.pkts = s.pkts ∧ s1.eg = s.eg := by
        split at hs
        · cases hs
          exact ⟨rfl, rfl, rfl⟩
        · cases hs
          exact ⟨rfl, rfl, rfl⟩
      extract_lets r s2
      have h2 : s2.arr = s1.arr ∧ s2.pkts = s1.pkts ∧ s2.eg = s1.eg := ⟨rfl, rfl, rfl⟩
      obtain ⟨a1, p1, e1⟩ := h1
      obtain ⟨a2, p2, e2⟩ := h2
      clear_value s2
      obtain ⟨a3, p3, e3, -⟩ := s2.watchRecord_keeps m w2 k d.beat r (acc.flatMap (·.2))
      exact ⟨(a3.trans a2).trans a1, (p3.trans p2).trans p1, (e3.trans e2).trans e1⟩

theorem State.tileKept_watchTile (s : State) (d : DrainTile) (n : Nat) (rows : List (List OutEl)) : s.TileKept c (s.watchTile c d n rows) := by
  obtain ⟨a, p, e⟩ := s.watchTile_keeps c d n rows
  exact .arr a p e

/-- What a drained tile writes, with its rows. -/
def State.tileOut (s : State) (c : ACoreId) (a : Fin 4) (d : DrainTile) (last : Nat) (rows : List (List OutEl)) (scales : List Nat) : State :=
  let f := c.flock.val
  let key := arrKey c a.val
  let nibs := s.outNibs c d.bank d.f
  let o := s.ofmtOf c d.bank d.f
  let tag0 := bits (s.descAt c d.bank d.f.epi.val) 48 4
  let s := (s.drainWrites c d.f.bc (s.tileWrites c d (s.geo c).w nibs rows scales tag0)).landsBy c (last + if d.f.bc then 8 else 0)
  let sat := (rows.map (fun r => (r.filter (·.2.2)).length)).sum
  let satRows := (rows.filter (fun r => r.any (·.2.2))).length
  let s := if sat = 0 then s else (s.bump Reg.FLOCK.EPI_SAT f 0 0 sat).modAcore c (fun k => { k with opc := { k.opc with sat := k.opc.sat + satRows } })
  let int := match ofmtElem o with
    | .int _ => true
    | _ => false
  let s := if d.f.stat then { s with arr := { s.arr with stats := s.arr.stats.mod key (fun u => u.takeTile d (int && o != 0) rows) } } else s
  let s := s.watchTile c d nibs rows
  s.releasePosts c

theorem State.tileOut_keeps (s : State) (c : ACoreId) (a : Fin 4) (d : DrainTile) (last : Nat) (rows : List (List OutEl)) (scales : List Nat) :
    s.TileKept c (s.tileOut c a d last rows scales) := by
  unfold State.tileOut
  extract_lets f key nibs o tag0 s1 sat satRows s2 int arr s3 s4
  have h1 : s.TileKept c s1 := (s.tileKept_drainWrites _ _).trans (State.tileKept_landsBy _ _)
  have h2 : s1.TileKept c s2 := by
    refine .ite (.refl s1) ((State.TileKept.arr (by simp) (by simp) (by simp)).trans (State.tileKept_modAcore _ _ fun _ => rfl))
  have h3 : s2.TileKept c s3 := .ite (.cores rfl rfl rfl rfl) (.refl s2)
  exact (((h1.trans h2).trans h3).trans (s3.tileKept_watchTile _ _ _)).trans (State.tileKept_releasePosts _)

theorem execTileDrain_waits (s u : State) (c : ACoreId) (a : Fin 4) (p : Bool) (d : DrainTile) (rest : List DrainTile) (h : u = s.land c.flock)
    (h1 : u.arr.drains.get (arrKey c a.val) = d :: rest) (h2 : u.islNow c.flock.val < d.endAt + (u.geo c).drain + d.rows - 1) :
    execTileDrain c a p s = .next u := by
  rw [execTileDrain, ← h]
  simp only [h1]
  exact if_pos (.inr h2)

theorem execTileDrain_drains (s u : State) (c : ACoreId) (a : Fin 4) (d : DrainTile) (rest : List DrainTile) (h : u = s.land c.flock)
    (h1 : u.flockRuns c.flock.val = true) (h2 : u.arr.drains.get (arrKey c a.val) = d :: rest)
    (h3 : d.endAt + (u.geo c).drain + d.rows - 1 ≤ u.islNow c.flock.val) : ∃ t, execTileDrain c a false s = .next t ∧
    t.arr.drains.get (arrKey c a.val) = rest ∧ (t.acore c).pc = (u.acore c).pc ∧ t.pkts = u.pkts ∧ t.eg = u.eg := by
  have he : ∃ rows scales, execTileDrain c a false s = .next (({ u with arr := { u.arr with drains := u.arr.drains.set (arrKey c a.val) rest } } : State).tileOut
      c a d (d.endAt + (u.geo c).drain + d.rows - 1) rows scales) := by
    rw [execTileDrain, ← h]
    dsimp only
    split
    · next hn => cases hn.symm.trans h2
    · next e r hd =>
      cases hd.symm.trans h2
      rw [if_neg (by simp [h1, h3])]
      exact ⟨_, _, rfl⟩
  obtain ⟨rows, scales, he⟩ := he
  obtain ⟨k1, k2, k3, k4⟩ := ({ u with arr := { u.arr with drains := u.arr.drains.set (arrKey c a.val) rest } } : State).tileOut_keeps c a d
    (d.endAt + (u.geo c).drain + d.rows - 1) rows scales
  exact ⟨_, he, by rw [k3, Tbl.get_set_self], k4, k1, k2⟩

/-! ### STAT_RECORD_WRITE -/

/-- The statistics of a tile are taken. -/
def State.statTaken (s : State) (k : Nat) : State := { s with arr := { s.arr with stats := s.arr.stats.set k {} } }

theorem execStatRecordWrite_void (s u : State) (c : ACoreId) (a : Fin 4) (h : u = s.land c.flock) (h1 : u.flockRuns c.flock.val = true)
    (h2 : (u.arr.stats.get (arrKey c a.val)).ready = true) (h3 : (u.arr.stats.get (arrKey c a.val)).endAt + (u.geo c).drain + 2 * (u.geo c).rows ≤
      u.islNow c.flock.val + 1) (h4 : (u.arr.stats.get (arrKey c a.val)).void = true) :
    execStatRecordWrite c a s = .next { u with arr := { u.arr with stats := u.arr.stats.set (arrKey c a.val) {} } } := by
  rw [execStatRecordWrite, ← h]
  exact (if_neg (by simp [h1, h2, h3])).trans (if_pos h4)

/-- t has the statistics, the drains and all but the registers and the arrays as s has them. -/
def State.StatKept (s t : State) : Prop := t.arr.stats = s.arr.stats ∧ t.arr.drains = s.arr.drains ∧ s.ArrOnly t

theorem State.StatKept.trans (h : s.StatKept t) (h' : t.StatKept u) : s.StatKept u :=
  ⟨h'.1.trans h.1, h'.2.1.trans h.2.1, h.2.2.trans h'.2.2⟩

theorem State.StatKept.foldl {α : Type} {g : State → α → State} (h : ∀ (t : State) a, t.StatKept (g t a)) (l : List α) (s : State) :
    s.StatKept (l.foldl g s) := by
  induction l generalizing s with
  | nil => exact ⟨rfl, rfl, .refl s⟩
  | cons a l ih => exact (h s a).trans (ih _)

theorem State.statKept_drainWrites (s : State) (c : ACoreId) (b : Bool) (ws : List (Nat × Nat × Nat × Nat)) : s.StatKept (s.drainWrites c b ws) := by
  unfold State.drainWrites
  extract_lets s1 far
  have h1 : s.StatKept s1 := by
    refine State.StatKept.foldl (fun t x => ?_) ws s
    rw [State.coreStoreNib]
    split
    · exact ⟨rfl, rfl, rfl⟩
    · exact ⟨rfl, rfl, rfl⟩
  clear_value s1
  exact h1.trans ⟨rfl, rfl, rfl⟩

theorem execStatRecordWrite_takes (s u : State) (c : ACoreId) (a : Fin 4) (h : u = s.land c.flock) (h1 : u.flockRuns c.flock.val = true)
    (h2 : (u.arr.stats.get (arrKey c a.val)).ready = true) (h3 : (u.arr.stats.get (arrKey c a.val)).endAt + (u.geo c).drain + 2 * (u.geo c).rows ≤
      u.islNow c.flock.val + 1) : ∃ t, execStatRecordWrite c a s = .next t ∧ t.arr.stats.get (arrKey c a.val) = {} ∧ t.arr.drains = u.arr.drains ∧
    t = { u with regs := t.regs, arr := t.arr } := by
  have hv : (u.statTaken (arrKey c a.val)).arr.stats.get (arrKey c a.val) = {} := by
    rw [State.statTaken, Tbl.get_set_self]
  have ht : (u.statTaken (arrKey c a.val)).arr.drains = u.arr.drains ∧ u.ArrOnly (u.statTaken (arrKey c a.val)) := ⟨rfl, rfl⟩
  by_cases hv' : (u.arr.stats.get (arrKey c a.val)).void = true
  · exact ⟨_, execStatRecordWrite_void s u c a h h1 h2 h3 hv', hv, ht⟩
  · have he : ∃ b ws n m, execStatRecordWrite c a s = .next ((((u.statTaken (arrKey c a.val)).drainWrites c b ws).landsBy c n).bump
        Reg.FLOCK.STAT_RECORDS c.flock.val 0 0 m) := by
      rw [execStatRecordWrite, ← h]
      exact ⟨_, _, _, _, (if_neg (by simp [h1, h2, h3])).trans ((if_neg hv').trans rfl)⟩
    obtain ⟨b, ws, n, m, he⟩ := he
    obtain ⟨k1, k2, k3⟩ := ((u.statTaken (arrKey c a.val)).statKept_drainWrites c b ws).trans
      (⟨rfl, rfl, rfl⟩ : State.StatKept _ ((((u.statTaken (arrKey c a.val)).drainWrites c b ws).landsBy c n).bump Reg.FLOCK.STAT_RECORDS c.flock.val 0 0 m))
    exact ⟨_, he, by rw [k1, hv], k2.trans ht.1, ht.2.trans k3⟩

/-! ### ARRAY_RELOAD -/

/-- t has the registers, the egress queues and the cores of s. -/
def State.CoresStay (s t : State) : Prop := t.regs = s.regs ∧ t.eg = s.eg ∧ t.arr.cores = s.arr.cores

theorem State.CoresStay.trans (h : s.CoresStay t) (h' : t.CoresStay u) : s.CoresStay u :=
  ⟨h'.1.trans h.1, h'.2.1.trans h.2.1, h'.2.2.trans h.2.2⟩

theorem State.VoidsWork.coresStay (h : s.VoidsWork t) : s.CoresStay t := by
  obtain ⟨hr, ha, he, -, -⟩ := h.fields
  exact ⟨hr, he, by rw [ha]⟩

theorem State.coresStay_placeSect (s : State) (c : ACoreId) (v : Version) (x : Sect) (b : Bool) : s.CoresStay (s.placeSect c v x b) := by
  unfold State.placeSect
  extract_lets bs d
  split
  all_goals exact ⟨rfl, rfl, rfl⟩

theorem State.coresStay_placed (s : State) (c : ACoreId) (v : Version) (b : Bool) (l : List Sect) :
    s.CoresStay (l.foldl (fun u x => u.placeSect c v x b) s) := by
  induction l generalizing s with
  | nil => exact ⟨rfl, rfl, rfl⟩
  | cons x l ih => exact (s.coresStay_placeSect c v x b).trans (ih _)

theorem execArrayReload_unmarked (s : State) (c : ACoreId) (h : (s.acore c).reload = false) : execArrayReload c s = .next s :=
  if_pos (by simp [h])

theorem execArrayReload_ends (s : State) (c : ACoreId) (h : (s.acore c).reload = true) : ∃ t, execArrayReload c s = .next t ∧
    (t.acore c).reload = false ∧ t.regs = s.regs ∧ t.eg = s.eg := by
  have hk : ((s.setAcore c { s.acore c with reload := false }).acore c).reload = false := by rw [State.acore_setAcore]
  have hs : (s.setAcore c { s.acore c with reload := false }).regs = s.regs ∧ (s.setAcore c { s.acore c with reload := false }).eg = s.eg := ⟨rfl, rfl⟩
  have hv := ((s.setAcore c { s.acore c with reload := false }).voidsWork_voidWork c 22 2).coresStay
  have he : ∃ t, execArrayReload c s = .next t ∧ ((s.setAcore c { s.acore c with reload := false }).voidWork c 22 2).CoresStay t := by
    rw [execArrayReload]
    refine exists_congr (fun t => and_congr_left' (by rw [if_neg (not_not.2 h)])) |>.2 ?_
    dsimp only
    split
    · exact ⟨_, rfl, rfl, rfl, rfl⟩
    · exact ⟨_, rfl, State.coresStay_placed _ _ _ _ _⟩
  obtain ⟨t, he, ht⟩ := he
  obtain ⟨hr, he', hc⟩ := hv.trans ht
  refine ⟨t, he, ?_, hr.trans hs.1, he'.trans hs.2⟩
  rw [State.acore, hc]
  exact hk

/-! ### RET -/

theorem State.watchRet_keeps (s : State) (k : ACoreId) (f : RetF) (i l o : Nat) (es : List Nat) :
    (s.watchRet k f i l o es).arr = s.arr ∧ (s.watchRet k f i l o es).pkts = s.pkts ∧ (s.watchRet k f i l o es).eg = s.eg ∧
    (s.watchRet k f i l o es).flocks = s.flocks := by
  unfold State.watchRet
  split
  · exact ⟨rfl, rfl, rfl, rfl⟩
  · extract_lets b r
    exact s.watchRecord_keeps _ _ _ _ _ _

theorem State.xferVoid_keeps (s : State) (f r : Nat) : (s.xferVoid f r).arr = s.arr ∧ (s.xferVoid f r).eg = s.eg := by
  have hl (l : List Nat) (a : Nat → Act) (w : State) : (l.foldl (fun t i => t.later (a i)) w).arr = w.arr ∧
      (l.foldl (fun t i => t.later (a i)) w).eg = w.eg := by
    induction l generalizing w with
    | nil => exact ⟨rfl, rfl⟩
    | cons i l ih => exact ih _
  unfold State.xferVoid
  extract_lets die n fl s1 s2
  have h2 : s2.arr = s.arr ∧ s2.eg = s.eg := ⟨by simp [s2, s1], by simp [s2, s1]⟩
  clear_value s2
  split
  · obtain ⟨l1, l2⟩ := hl (List.range 64) (fun i => .flockWd (die * 64 + i) true) s2
    exact ⟨l1.trans h2.1, l2.trans h2.2⟩
  · exact h2

theorem execRet_returns (s u : State) (c : ACoreId) (f : RetF) (v : MoveErr) (h : v ≠ .parity) (h1 : u = s.land c.flock)
    (h2 : u.coreIssues c (RetF.word f) = true) (h3 : c.bulk = false) (h4 : ∀ a n, u.toWrite c a n = false) : ∃ t, execRet c f v s = .next t ∧
    (t.acore c).pc = (u.acore c).pc + 1 ∧ t.arr.mem = u.arr.mem ∧ t.eg = u.eg ∧ ((u.flocks.get c.flock.val).debug = true → t.pkts = u.pkts) := by
  have he : ∃ n t, execRet c f v s = .next t ∧ t.arr = (u.issueInstr c true n).arr ∧ t.eg = (u.issueInstr c true n).eg ∧
      (((u.issueInstr c true n).flocks.get c.flock.val).debug = true → t.pkts = (u.issueInstr c true n).pkts) := by
    rw [execRet, ← h1]
    extract_lets k x n late s1
    rw [if_neg (by simp [h2, h3]), if_neg (by simp [h4])]
    refine ⟨n, ?_⟩
    change ∃ t : State, _ ∧ t.arr = s1.arr ∧ t.eg = s1.eg ∧ ((s1.flocks.get c.flock.val).debug = true → t.pkts = s1.pkts)
    split
    · exact ⟨_, rfl, rfl, rfl, fun _ => rfl⟩
    · next ctx y z hz =>
      extract_lets o rows late4 s2 give s3
      obtain ⟨a2, p2, e2, h2⟩ := s1.watchRet_keeps c f k.pc (bits x 96 16) (bits x 112 16) (rows.flatMap (·.2))
      rw [if_neg h]
      split
      · exact ⟨_, rfl, a2, e2, fun _ => p2⟩
      · next hd =>
        have h3 : s2.VoidsWork s3 := by
          refine State.VoidsWork.foldl (fun t r => ?_) rows s2
          split
          · exact t.voidsWork_modRes _ _ _ _
          · exact .refl t
        obtain ⟨-, a3, e3, -, -⟩ := h3.fields
        refine ⟨_, rfl, ?_, ?_, fun hd' => absurd (h2.symm ▸ hd') hd⟩
        · split
          · rw [(s3.xferVoid_keeps c.flock.val 22).1, a3]
            exact a2
          · exact a3.trans a2
        · split
          · rw [(s3.xferVoid_keeps c.flock.val 22).2, e3]
            exact e2
          · exact e3.trans e2
  obtain ⟨n, t, he, ha, he', hp⟩ := he
  have hi := u.arrOnly_issueInstr c true n
  obtain ⟨x, hx⟩ := u.arr_issueInstr c true n
  rw [State.ArrOnly] at hi
  refine ⟨t, he, ?_, ?_, ?_, fun hd => ?_⟩
  · rw [State.acore, ha]
    exact u.pc_issueInstr c true n
  · rw [ha, hx]
  · rw [he', hi]
  · rw [hp (by rw [hi]; exact hd), hi]

/-! ### COPY -/

/-- t has the registers of s below the pages of the flocks. -/
def State.SameLow (s t : State) : Prop := ∀ k, k / 17179869184 < 256 → t.regs.find? k = s.regs.find? k

theorem State.SameLow.rd (h : s.SameLow t) (f : Field) (i j k : Nat) (hk : f.key i j k / 17179869184 < 256) : t.rd f i j k = s.rd f i j k :=
  State.rd_of_find f i j k (h _ hk)

theorem State.sameLow_countWait (s : State) (c : ACoreId) : s.SameLow (s.countWait c) := by
  intro k hk
  rw [State.countWait]
  split
  · rfl
  · refine s.find_wr_ne _ _ _ _ _ _ fun e => ?_
    have hp : Reg.FLOCK.ISSUE_WAIT.key c.flock.val 0 0 / 17179869184 = pageBase 48 c.flock.val / 4096 :=
      Field.key_page (by decide) (by decide) (by decide)
    have h48 : pageBase 48 0 = 1048576 := by decide
    rw [pageBase_eq, h48] at hp
    rw [e, hp] at hk
    omega

theorem State.SameLow.regionSize (h : s.SameLow t) {k : Nat} (hk : k < 5) : t.regionSize k = s.regionSize k := by
  have hl : ∀ k < 5, Reg.CXL.REGION_GIB.key 0 k 0 / 17179869184 < 256 := by decide
  rw [State.regionSize, State.regionSize, h.rd _ _ _ _ (hl k hk)]

theorem State.SameLow.regionBase (h : s.SameLow t) {k : Nat} (hk : k < 5) : t.regionBase k = s.regionBase k :=
  congrArg List.sum (List.map_congr_left fun _ hj => h.regionSize (Nat.lt_trans (List.mem_range.1 hj) hk))

/-- What a COPY takes at its issue, of core c: t follows s. -/
structure State.CopyTakes (c : ACoreId) (s t : State) : Prop where
  frame : t = { s with regs := t.regs, arr := t.arr, flocks := t.flocks }
  low : s.SameLow t
  mem : t.arr.mem = s.arr.mem
  debug : (t.flocks.get c.flock.val).debug = (s.flocks.get c.flock.val).debug
  pc : (t.acore c).pc = (s.acore c).pc + 1

theorem State.copyTakes_issueInstr (s : State) (c : ACoreId) (b : Bool) (n : Nat) : s.CopyTakes c (s.issueInstr c b n) := by
  have hf := s.arrOnly_issueInstr c b n
  obtain ⟨x, hx⟩ := s.arr_issueInstr c b n
  have hl : s.SameLow (s.issueInstr c b n) := fun k hk => (congrArg (fun u : State => u.regs.find? k) (s.issueInstr_eq c b n)).trans (s.sameLow_countWait c k hk)
  have hp := s.pc_issueInstr c b n
  generalize s.issueInstr c b n = v at *
  rw [State.ArrOnly] at hf
  have hfl : v.flocks = s.flocks := by rw [hf]
  exact ⟨by rw [hfl]; exact hf, hl, by rw [hx], by rw [hfl], hp⟩

theorem State.moverTakes_spec (s : State) (c : ACoreId) (f : CopyF) : (s.moverTakes c f).arr.mem = s.arr.mem ∧
    ((s.moverTakes c f).acore c).pc = (s.acore c).pc ∧ ((s.moverTakes c f).flocks.get c.flock.val).debug = (s.flocks.get c.flock.val).debug ∧
    s.moverTakes c f = { s with arr := (s.moverTakes c f).arr, flocks := (s.moverTakes c f).flocks } := by
  refine ⟨rfl, ?_, ?_, rfl⟩
  · unfold State.moverTakes
    extract_lets fl start last s1 s2
    have h1 : (s2.acore c).pc = (s.acore c).pc := by
      simp only [s2, State.landsBy, State.acore_modAcore]
      rfl
    rw [State.acore_modAcore]
    exact h1
  · have hm : (s.moverTakes c f).flocks = s.flocks.mod c.flock.val
        (fun x => { x with mover := Nat.max (s.islNow c.flock.val) (s.flocks.get c.flock.val).mover + f.lenM1.val + 1 }) := rfl
    rw [hm, Tbl.get_mod_self]

/-- The state after the issue of a COPY and its place in the mover's order. -/
def State.copyIssued (s : State) (c : ACoreId) (f : CopyF) : State := (s.issueInstr c true).moverTakes c f

theorem State.CopyTakes.moved (h : s.CopyTakes c t) (f : CopyF) : s.CopyTakes c (t.moverTakes c f) := by
  obtain ⟨hf, hl, hm, hd, hp⟩ := h
  obtain ⟨m1, m2, m3, m4⟩ := t.moverTakes_spec c f
  generalize t.moverTakes c f = v at *
  have hr : v.regs = t.regs := by rw [m4]
  refine ⟨?_, fun k hk => by rw [hr, hl k hk], m1.trans hm, m3.trans hd, m2.trans hp⟩
  rw [hf] at m4
  exact m4.trans (by rw [hr])

theorem State.copyTakes_copyIssued (s : State) (c : ACoreId) (f : CopyF) : s.CopyTakes c (s.copyIssued c f) := (s.copyTakes_issueInstr c true 1).moved f

theorem State.CopyTakes.fields (h : s.CopyTakes c t) : t.hbm = s.hbm ∧ t.flt = s.flt ∧ t.ctxs = s.ctxs ∧ t.layout = s.layout ∧ t.time = s.time ∧
    t.flow = s.flow ∧ t.host = s.host ∧ t.acting = s.acting ∧ t.herd = s.herd := by
  have hf := h.frame
  rw [hf]
  exact ⟨rfl, rfl, rfl, rfl, rfl, rfl, rfl, rfl, rfl⟩

theorem State.coreSect_congr (h : t.ctxs = s.ctxs) (c : ACoreId) : t.coreSect c = s.coreSect c := by
  simp only [State.coreSect, State.versions, h]

theorem State.CopyTakes.workVoid (h : s.CopyTakes c t) : t.workVoid c = s.workVoid c := by
  obtain ⟨-, -, hc, -, ht, hf, hh, -, -⟩ := h.fields
  simp only [State.workVoid, State.coreSect_congr hc, State.invHolds, State.version?, hc, ht, hf, hh]

theorem State.CopyTakes.copyAllowed (h : s.CopyTakes c t) (f : CopyF) : t.copyAllowed c f = s.copyAllowed c f := by
  rw [State.copyAllowed, State.copyAllowed, h.workVoid, h.debug, State.inRegion, State.inRegion, h.low.regionBase (by decide),
    h.low.regionSize (by decide)]

theorem State.CopyTakes.lineProtected (h : s.CopyTakes c t) : t.lineProtected = s.lineProtected := by
  obtain ⟨-, -, hc, hl, -⟩ := h.fields
  have hr : t.protectedRanges = s.protectedRanges := by rw [State.protectedRanges, State.protectedRanges, hc, hl]
  funext x
  rw [State.lineProtected, State.lineProtected, hr, h.low.regionBase (by decide)]

theorem State.CopyTakes.cycLate (h : s.CopyTakes c t) : t.cycLate = s.cycLate := by
  obtain ⟨-, hf, -, -, ht, -⟩ := h.fields
  rw [State.cycLate, State.cycLate, State.now, State.now, hf, ht]

theorem apertureOf_lt {h a : Nat} (e : apertureOf h = some a) : a < 16 := by
  rw [apertureOf] at e
  split at e
  · next hh =>
    have := Option.some.inj e
    omega
  · cases e

theorem State.CopyTakes.sameWays (h : s.CopyTakes c t) : s.SameWays t := by
  have hw : ∀ f ∈ [Reg.HERD.NX, Reg.HERD.NY, Reg.HERD.NZ, Reg.HERD.STATE, Reg.HERD.COORD_X, Reg.HERD.COORD_Y, Reg.HERD.COORD_Z],
    f.key 0 0 0 / 17179869184 < 256 := by decide
  have hp : ∀ p : HPort, Reg.HLINK.LINK_STATE.key p.val 0 0 / 17179869184 < 256 := by decide
  obtain ⟨-, -, -, -, -, -, -, -, hh⟩ := h.fields
  exact ⟨fun f hf => h.low.rd f 0 0 0 (hw f hf), fun p => by rw [State.hlUp, State.hlUp, h.low.rd _ _ _ _ (hp p)], by rw [hh]⟩

theorem State.CopyTakes.aptOk (h : s.CopyTakes c t) {a : Nat} (ha : a < 16) : t.aptOk a = s.aptOk a := by
  have hl : ∀ a < 16, Reg.HERD.APT_OOR.key 0 a 0 / 17179869184 < 256 := by decide
  obtain ⟨-, -, -, -, -, -, -, hc, -⟩ := h.fields
  have hact (f : Field) : t.act f 0 a = s.act f 0 a := by rw [State.act, State.act, hc]
  rw [State.aptOk, State.aptOk, hact, hact, h.low.rd _ _ _ _ (hl a ha), h.sameWays.outPort]

theorem State.copyIssued_eq (s : State) (c : ACoreId) (f : CopyF) : (s.issueInstr c true).moverTakes c f = s.copyIssued c f := rfl

theorem execCopy_waits (s u : State) (c : ACoreId) (f : CopyF) (p : MoveErr) (h : u = s.land c.flock) (h1 : u.coreIssues c (CopyF.word f) = true)
    (h2 : f.dir = true) (h3 : u.toWrite c (64 * f.caddr.val) (64 * (f.lenM1.val + 1)) = true) : ∃ t, execCopy c f p s = .next t ∧
    (t.acore c).pc = (u.acore c).pc ∧ (t.acore c).waitAt = some (u.islNow c.flock.val) ∧ t.hbm = u.hbm ∧ t = { u with regs := t.regs, arr := t.arr } := by
  have he : execCopy c f p s = .next (u.issueWait c) := by
    rw [execCopy, ← h]
    exact (if_neg (not_not.2 h1)).trans (if_pos ⟨h2, h3⟩)
  obtain ⟨w1, w2, -, w4, -⟩ := u.issueWait_spec c
  refine ⟨_, he, w1, w2, ?_, w4⟩
  rw [State.ArrOnly] at w4
  rw [w4]

/-- A COPY that issues, with no error of parity, of HBM. -/
theorem execCopy_hbm (s u : State) (c : ACoreId) (f : CopyF) (p : MoveErr) (h : u = s.land c.flock) (h1 : u.coreIssues c (CopyF.word f) = true)
    (h2 : apertureOf (64 * f.haddr.val) = none) (hw : f.dir = true → u.toWrite c (64 * f.caddr.val) (64 * (f.lenM1.val + 1)) = false)
    (hp : f.dir = true → p ≠ .parity) :
    (f.dir = true → execCopy c f p s = if (u.copyIssued c f).copyAllowed c f = true then
      .next ((u.copyIssued c f).hbmWrite (64 * f.haddr.val) ((u.copyIssued c f).coreBytes c (64 * f.caddr.val) (64 * (f.lenM1.val + 1))))
      else .next (u.copyIssued c f)) ∧
    (f.dir = false → (u.copyIssued c f).hbmUe (64 * f.haddr.val) (64 * (f.lenM1.val + 1)) = none →
      (∀ z, (u.copyIssued c f).coreSect c = some z → z.2.1.kind ≠ 3) → execCopy c f p s = .next ((u.copyIssued c f).coreStore c (64 * f.caddr.val)
        (Mem.readN (u.copyIssued c f).hbm (64 * f.haddr.val) (64 * (f.lenM1.val + 1))))) := by
  rw [execCopy, ← h]
  dsimp only
  rw [if_neg (not_not.2 h1), if_neg (fun hc => Bool.eq_false_iff.mp (hw hc.1) hc.2), if_neg (fun hc => hp hc.1 hc.2), h2, State.copyIssued_eq]
  generalize u.copyIssued c f = v
  refine ⟨fun hd => if_pos hd, fun hd hu hz => ?_⟩
  dsimp only
  rw [if_neg (Bool.eq_false_iff.mp hd), hu]
  dsimp only
  rw [if_neg]
  rw [Bool.and_eq_true]
  rintro ⟨hk, -⟩
  split at hk
  · next a b d hs => exact hz _ hs (by simpa using hk)
  · cases hk

theorem State.CopyTakes.hbmUe (h : s.CopyTakes c t) (a n : Nat) : t.hbmUe a n = s.hbmUe a n := by
  obtain ⟨-, hf, -⟩ := h.fields
  rw [State.hbmUe, State.hbmUe, hf]

theorem State.coreStore_spec (s : State) (c : ACoreId) (a : Nat) (bs : List Byte) : (s.coreStore c a bs).acore c = s.acore c ∧
    (s.coreStore c a bs).arr.mem = Mem.writeN s.arr.mem (ACoreId.base c + a) bs ∧ s.ArrOnly (s.coreStore c a bs) := ⟨rfl, rfl, rfl⟩

theorem execCopy_reads (s u : State) (c : ACoreId) (f : CopyF) (p : MoveErr) (h : u = s.land c.flock) (h1 : u.coreIssues c (CopyF.word f) = true)
    (h2 : apertureOf (64 * f.haddr.val) = none) (h3 : f.dir = false) (h4 : u.hbmUe (64 * f.haddr.val) (64 * (f.lenM1.val + 1)) = none)
    (h5 : ∀ z, u.coreSect c = some z → z.2.1.kind ≠ 3) : ∃ t, execCopy c f p s = .next t ∧ (t.acore c).pc = (u.acore c).pc + 1 ∧
    t.arr.mem = Mem.writeN u.arr.mem (ACoreId.base c + 64 * f.caddr.val) (Mem.readN u.hbm (64 * f.haddr.val) (64 * (f.lenM1.val + 1))) ∧
    t = { u with regs := t.regs, arr := t.arr, flocks := t.flocks } := by
  have hd (hc : f.dir = true) : False := Bool.false_ne_true (h3.symm.trans hc)
  obtain ⟨-, he⟩ := execCopy_hbm s u c f p h h1 h2 (fun hc => (hd hc).elim) (fun hc => (hd hc).elim)
  have ht := u.copyTakes_copyIssued c f
  generalize u.copyIssued c f = v at *
  obtain ⟨e1, -, e3, -⟩ := ht.fields
  have hu := ht.hbmUe (64 * f.haddr.val) (64 * (f.lenM1.val + 1))
  obtain ⟨hf, -, hm, -, hp⟩ := ht
  obtain ⟨k1, k2, k3⟩ := v.coreStore_spec c (64 * f.caddr.val) (Mem.readN v.hbm (64 * f.haddr.val) (64 * (f.lenM1.val + 1)))
  refine ⟨_, he h3 (hu.trans h4) (fun z hz => h5 z (by rwa [State.coreSect_congr e3] at hz)), by rw [k1, hp], by rw [k2, hm, e1], ?_⟩
  generalize v.coreStore c (64 * f.caddr.val) (Mem.readN v.hbm (64 * f.haddr.val) (64 * (f.lenM1.val + 1))) = w at *
  rw [State.ArrOnly] at k3
  rw [k3, hf]

theorem execCopy_writes (s u : State) (c : ACoreId) (f : CopyF) (h : u = s.land c.flock) (h1 : u.coreIssues c (CopyF.word f) = true)
    (h2 : apertureOf (64 * f.haddr.val) = none) (h3 : f.dir = true) (h4 : u.toWrite c (64 * f.caddr.val) (64 * (f.lenM1.val + 1)) = false)
    (h5 : u.copyAllowed c f = true) (h6 : (linesOf (64 * f.haddr.val) (64 * (f.lenM1.val + 1))).any u.lineProtected = false) (h7 : u.cycLate = []) :
    ∃ t, execCopy c f .none s = .next t ∧ (t.acore c).pc = (u.acore c).pc + 1 ∧
    t.hbm = Mem.writeN u.hbm (64 * f.haddr.val) (u.coreBytes c (64 * f.caddr.val) (64 * (f.lenM1.val + 1))) ∧ t.arr.mem = u.arr.mem := by
  obtain ⟨he, -⟩ := execCopy_hbm s u c f .none h h1 h2 (fun _ => h4) (fun _ => by decide)
  have ht := u.copyTakes_copyIssued c f
  generalize u.copyIssued c f = v at *
  rw [ht.copyAllowed, if_pos h5] at he
  obtain ⟨e1, -⟩ := ht.fields
  have hb : v.coreBytes c (64 * f.caddr.val) (64 * (f.lenM1.val + 1)) = u.coreBytes c (64 * f.caddr.val) (64 * (f.lenM1.val + 1)) := by
    rw [State.coreBytes, State.coreBytes, ht.mem]
  have hl : (u.coreBytes c (64 * f.caddr.val) (64 * (f.lenM1.val + 1))).length = 64 * (f.lenM1.val + 1) := by
    rw [State.coreBytes, Mem.readN, List.length_map, List.length_range]
  rw [hb] at he
  refine ⟨_, he h3, ?_, ?_, ?_⟩
  · rw [State.acore, State.hbmWrite_arr]
    exact ht.pc
  · rw [State.hbmWrite_hbm v _ _ (by rw [hl, ht.lineProtected]; exact h6) (ht.cycLate.trans h7), e1]
  · rw [State.hbmWrite_arr, ht.mem]

theorem execCopy_kept (s u : State) (c : ACoreId) (f : CopyF) (h : u = s.land c.flock) (h1 : u.coreIssues c (CopyF.word f) = true)
    (h2 : apertureOf (64 * f.haddr.val) = none) (h3 : f.dir = true) (h4 : u.toWrite c (64 * f.caddr.val) (64 * (f.lenM1.val + 1)) = false)
    (h5 : u.copyAllowed c f = false) : ∃ t, execCopy c f .none s = .next t ∧ t.hbm = u.hbm ∧ t.arr.mem = u.arr.mem ∧
    t = { u with regs := t.regs, arr := t.arr, flocks := t.flocks } := by
  obtain ⟨he, -⟩ := execCopy_hbm s u c f .none h h1 h2 (fun _ => h4) (fun _ => by decide)
  have ht := u.copyTakes_copyIssued c f
  generalize u.copyIssued c f = v at *
  rw [ht.copyAllowed, if_neg (Bool.eq_false_iff.mp h5)] at he
  exact ⟨v, he h3, ht.fields.1, ht.mem, ht.frame⟩

/-- A COPY from an aperture. -/
theorem execCopy_aperture (s u : State) (c : ACoreId) (f : CopyF) (a : Nat) (lost : MoveErr) (h : u = s.land c.flock)
    (h1 : u.coreIssues c (CopyF.word f) = true) (h2 : apertureOf (64 * f.haddr.val) = some a) (h3 : f.dir = false) : execCopy c f lost s =
    if lost = .transfer ∨ ¬ u.aptOk a = true then .next ((u.issueInstr c true).copyVoid c) else
      .next (((u.issueInstr c true).copySend c f a (ceilDiv (64 * (f.lenM1.val + 1)) 256) 0).modAcore c (fun k => { k with seq := k.seq + 1 })) := by
  have hd (hc : f.dir = true) : False := Bool.false_ne_true (h3.symm.trans hc)
  rw [execCopy, ← h]
  dsimp only
  rw [if_neg (not_not.2 h1), if_neg (fun hc => hd hc.1), if_neg (fun hc => hd hc.1), h2]
  dsimp only
  rw [if_neg (fun hc => hd hc.1), (u.copyTakes_issueInstr c true 1).aptOk (apertureOf_lt h2)]

/-- One message of a COPY: it is sent, and its answer is waited for. -/
theorem State.copySend_succ (s : State) (c : ACoreId) (f : CopyF) (a n i : Nat) : ∃ (w : State) (p : RemPend), (∃ o, w = { s with
      herd := { s.herd with out := o } }) ∧ s.copySend c f a (n + 1) i =
    State.copySend { w with herd := { w.herd with remote := w.herd.remote ++ [p], nextTok := w.herd.nextTok + 1 } } c f a n (i + 1) :=
  ⟨_, _, s.sendTo_spec _ _ _, rfl⟩

theorem State.copySend_spec (s : State) (c : ACoreId) (f : CopyF) (a n i : Nat) : ∃ x, s.copySend c f a n i = { s with herd := x } := by
  induction n generalizing s i with
  | zero => exact ⟨s.herd, rfl⟩
  | succ n ih =>
    obtain ⟨w, p, ⟨o, hw⟩, he⟩ := s.copySend_succ c f a n i
    obtain ⟨x, hx⟩ := ih { w with herd := { w.herd with remote := w.herd.remote ++ [p], nextTok := w.herd.nextTok + 1 } } (i + 1)
    exact ⟨x, by rw [he, hx, hw]⟩

theorem execCopy_sends (s u : State) (c : ACoreId) (f : CopyF) (a : Nat) (h : u = s.land c.flock) (h1 : u.coreIssues c (CopyF.word f) = true)
    (h2 : apertureOf (64 * f.haddr.val) = some a) (h3 : f.dir = false) (h4 : u.aptOk a = true) : ∃ t, execCopy c f .none s = .next t ∧
    (t.acore c).pc = (u.acore c).pc + 1 ∧ t.arr.mem = u.arr.mem ∧ t.hbm = u.hbm := by
  have he := execCopy_aperture s u c f a .none h h1 h2 h3
  rw [if_neg (by simp [h4])] at he
  have ht := u.copyTakes_issueInstr c true 1
  generalize u.issueInstr c true = v at *
  obtain ⟨x, hx⟩ := v.copySend_spec c f a (ceilDiv (64 * (f.lenM1.val + 1)) 256) 0
  rw [hx] at he
  refine ⟨_, he, ?_, ht.mem, ht.fields.1⟩
  rw [State.acore_modAcore]
  exact ht.pc

theorem execCopy_lost (s u : State) (c : ACoreId) (f : CopyF) (a : Nat) (lost : MoveErr) (h : u = s.land c.flock)
    (h1 : u.coreIssues c (CopyF.word f) = true) (h2 : apertureOf (64 * f.haddr.val) = some a) (h3 : f.dir = false)
    (h4 : lost = .transfer ∨ u.aptOk a = false) : ∃ t, execCopy c f lost s = .next t ∧ (t.acore c).pc = (u.acore c).pc + 1 ∧
    u.Counts t Reg.HERD.APT_VOID ∧ t.arr.mem = u.arr.mem := by
  have he := execCopy_aperture s u c f a lost h h1 h2 h3
  rw [if_pos (h4.imp id (fun e => by simp [e]))] at he
  have ht := u.copyTakes_issueInstr c true 1
  generalize u.issueInstr c true = v at *
  obtain ⟨hr, ha, -, -, -⟩ := ((v.bump Reg.HERD.APT_VOID).voidsWork_voidWork c 16 2).fields
  refine ⟨_, he, ?_, ?_, ?_⟩
  · rw [State.copyVoid, State.acore, ha, State.bump_arr]
    exact ht.pc
  · rw [State.Counts, State.copyVoid, State.rd_congr hr, State.rd_bump, ht.low.rd _ _ _ _ (by decide)]
  · rw [State.copyVoid, ha, State.bump_arr, ht.mem]

/-- Settles O14. -/
theorem arrayInstructions : Obligations.ArrayInstructions :=
  ⟨execLoadh_opens, execLoadh_waits, execHeldWrite_counts, execStream_waits, execStream_issues, execTileDrain_drains, execTileDrain_waits,
    execStatRecordWrite_void, execStatRecordWrite_takes, execArrayReload_unmarked, execArrayReload_ends, execRet_returns, execCopy_reads,
    execCopy_writes, execCopy_kept, execCopy_waits, execCopy_sends, execCopy_lost⟩

end Sys2Proof.Machine
end
